-- ==== Sys2Proof/Word.lean ====
section
/-! DEFINITION. Word types: the byte, the 32-bit register word and the 64-bit instruction word (R10, R11, R45). -/

namespace Sys2Proof

/-- One byte: byte 0 of a structure holds bits [7:0] (R10). -/
abbrev Byte := BitVec 8

/-- One BAR0 register (R11) or one word of a core buffer. -/
abbrev Word := BitVec 32

/-- One instruction of a step program (R42, R45). -/
abbrev IWord := BitVec 64

end Sys2Proof
end

