-- ==== Sys2Proof/CoreOperands.lean ====
section
/-! DEFINITION. Operands of the commands of a step program (R45 to R48, R107 to R110, R119, R136 to R138), with their fields
already taken apart. Field widths are those of the encodings. -/

namespace Sys2Proof

/-- A global core index (R8). -/
abbrev CoreId := Fin 512
/-- An engine of a core (R107). -/
abbrev EngId := Fin 4
/-- A queue of a core (R46). -/
abbrev QId := Fin 8
/-- A global cluster index (R8). -/
abbrev ClusterId := Fin 64

/-- The fields of a vector instruction (R119). -/
structure VWord where
  men : Bool
  msk : Fin 8
  /-- TYPE, 0b11 unused (R115) -/
  ty  : Fin 4
  vd  : Fin 32
  va  : Fin 32
  vb  : Fin 32
  /-- N − 1 -/
  nm1 : Fin 4096
  imm : BitVec 19
  deriving DecidableEq, Repr

/-- A fetch command (R48). -/
structure FetchOp where
  /-- false the core buffer, true the cluster cache -/
  toCache : Bool
  credit  : Fin 32
  slot    : Fin 1024
  units   : Fin 64
  object  : BitVec 16
  tile    : BitVec 22
  deriving DecidableEq, Repr

/-- A token wait, token signal or credit return (R136). -/
structure TokenOp where
  queue   : QId
  self    : Bool
  target  : CoreId
  counter : Fin 64
  amount  : BitVec 8
  deriving DecidableEq, Repr

/-- A link send (R137). -/
structure SendOp where
  ch      : Fin 32
  /-- in 64 B units -/
  src     : BitVec 15
  /-- LEN + 1 units of 64 B -/
  len     : BitVec 10
  destOfs : BitVec 16
  amount  : BitVec 8
  wire    : Fin 4
  deriving DecidableEq, Repr

/-- A release of receiving space (R137). -/
structure ReleaseOp where
  ch     : Fin 32
  amount : BitVec 8
  deriving DecidableEq, Repr

/-- A cluster-cache operation (R138). -/
structure CacheOp where
  /-- cluster-cache address in 64 B units -/
  cc      : BitVec 16
  /-- core-buffer address in 64 B units -/
  cb      : BitVec 15
  len     : BitVec 10
  credit  : Fin 32
  word    : Fin 16
  cluster : ClusterId
  deriving DecidableEq, Repr

/-- SETUP (R108). -/
structure SetupOp where
  format     : Fin 16
  group      : Fin 4
  grid       : Fin 8
  comp       : Bool
  /-- T − 1 -/
  tokens     : Fin 32
  actBase    : BitVec 15
  actFormat  : Fin 16
  source     : Fin 4
  headGroups : Fin 4
  scaleBase  : BitVec 14
  deriving DecidableEq, Repr

/-- RUN (R109). -/
structure RunOp where
  /-- in 32 B units -/
  src        : BitVec 16
  blockOfs   : BitVec 7
  blocks     : BitVec 12
  accumulate : Bool
  scaleCont  : Bool
  actChunk   : BitVec 11
  deriving DecidableEq, Repr

/-- READOUT (R110). -/
structure ReadoutOp where
  dest   : BitVec 15
  colrec : BitVec 15
  f      : Fin 16
  fOut   : Fin 16
  deriving DecidableEq, Repr

/-- The address operand of READRAW (DEST) or MERGE (SRC), in 64 B units (R110). -/
structure RawOp where
  addr : BitVec 15
  deriving DecidableEq, Repr

end Sys2Proof
end

