-- ==== Sys2Proof/MemOperands.lean ====
section
/-! DEFINITION. Operands of the commands of stacks, placement and flash (chapters 08 to 10): what the environment decides of a physical
event is part of its command. -/

namespace Sys2Proof

/-- A stack ST0 to ST11 (R190). -/
abbrev StackId := Fin 12
/-- A global channel (R8). -/
abbrev ChanId := Fin 1536
/-- An object table index (R224). -/
abbrev ObjId := BitVec 16
/-- A tile of an object (R225). -/
abbrev TileId := BitVec 22
/-- A partition (R235). -/
abbrev PartId := Fin 16
/-- A compute die or memory-side die. -/
abbrev DieId := Fin 4
/-- A flash lane (R260). -/
abbrev LaneId := Fin 2048
/-- A block of a lane. -/
abbrev BlockId := BitVec 20
/-- A page of a block. -/
abbrev PageId := BitVec 12

/-- Symbols of a burst as received differ from those stored: symbol and difference (R196). -/
abbrev BurstErrs := List (Fin 72 × BitVec 8)

/-- A request at a stack's regulator (R209): its partition, none for system traffic, its bursts, and whether its channel is idle. -/
structure RegReq where
  part   : Option PartId
  bursts : BitVec 16
  idle   : Bool
  deriving DecidableEq, Repr

/-- A measured eye of a physical lane: width in 1/256 UI and height in 2 mV (R204, R206). -/
structure LaneEye where
  ch     : ChanId
  lane   : Fin 19
  width  : BitVec 8
  height : BitVec 8
  deriving DecidableEq, Repr

/-- How a codeword of a page reads (R258, R259): the bits corrected by the hard decode, the re-reads and soft decode it took, and
whether every read failed. -/
structure CodeRead where
  corrected : BitVec 16
  retries   : Fin 16
  soft      : Bool
  failed    : Bool
  deriving DecidableEq, Repr, Inhabited

/-- Classes of flash program whose oldest one completes (R281). -/
inductive FlashProg
  /-- a page of the installation (R270) -/
  | install
  /-- a copy of a journal commit (R265) -/
  | journal
  /-- a vault page (R279) -/
  | vault
  deriving DecidableEq, Repr

/-- What a target's parameter page reports (R254, R255): its geometry, its page's data and spare bytes, whether it needs anything that is not
supported, and which of its LUNs are in service. -/
structure TargetGeom where
  luns    : BitVec 8
  planes  : BitVec 8
  pages   : BitVec 16
  blocks  : BitVec 20
  page    : BitVec 32
  spare   : BitVec 16
  mpIndep : Bool
  needs   : Bool
  lunOk   : BitVec 4
  deriving DecidableEq, Repr

/-- The population that serves: targets per channel, and each target's geometry (R255, R260). -/
structure FlashGeom where
  targets : Fin 9
  luns    : Fin 5
  planes  : Fin 5
  pages   : Fin 4097
  blocks  : BitVec 20
  mpIndep : Bool
  deriving DecidableEq, Repr

/-- What a mount finds (R255, R263, R268, R269): the targets of each channel, a bad anchor block, pages of the system area that do not decode,
how the codewords of the last pages of blocks read, and the time it took. -/
structure Discovery where
  chans     : List (List TargetGeom)
  anchorBad : Bool
  spoilt    : List (LaneId × BlockId × PageId)
  last      : List (LaneId × BlockId × List CodeRead)
  ms        : BitVec 16
  deriving DecidableEq, Repr

/-- A block to be refreshed (R274), and how many free blocks of its lane fail to program before one takes its pages (R277). -/
structure BlockMove where
  block : BlockId
  fails : BitVec 8
  deriving DecidableEq, Repr

/-- A lane whose wear is to be levelled (R276), and how many destinations fail to program before one takes the pages (R277). -/
structure LaneMove where
  lane  : LaneId
  fails : BitVec 8
  deriving DecidableEq, Repr

/-- What a FORMAT finds in the blocks (R277): those with a factory mark, and those whose erase fails. -/
structure FormatIn where
  bad   : List (LaneId × BlockId)
  fails : List (LaneId × BlockId)
  deriving DecidableEq, Repr

/-- How a host read ends (R353). -/
inductive HostStatus
  | success
  /-- completion status UR or CA, or a poisoned TLP -/
  | failed
  deriving DecidableEq, Repr

/-- What a host read was for (R335, R346, R353). -/
inductive HostRead
  | tile (o : ObjId) (t : TileId)
  | queue (q : Fin 256)
  | prefill (q : Fin 256)
  | install
  deriving DecidableEq, Repr

end Sys2Proof
end

