-- ==== Sys2Proof/Config.lean ====
section
/-! DEFINITION. What the spec leaves open: each constant here has no body, so that nothing can be proved of its value.
A first argument `tag` is a value of `State.free`, the model's own counter, so that each use has a value of its own. -/

namespace Sys2Proof.Config

/-- A vector register after a step start (R115: undefined): tag, register (log entry 5). -/
opaque freeVReg : Nat → Nat → BitVec 32768

/-- A vector mask after a step start (R117: undefined): tag, mask (log entry 5). -/
opaque freeMask : Nat → Nat → BitVec 4096

/-- A lookup slot after a cold reset (R129: undefined): tag, slot (log entry 5). -/
opaque freeLut : Nat → Nat → BitVec 16384

/-- A draw of the device's noise source (R133, R172, R382): tag, word (log entry 6). -/
opaque entropy : Nat → Nat → BitVec 32

/-- A choice the device makes among free items (R223, R224, R228): tag (log entry 7). -/
opaque pick : Nat → Nat

/-- Whether a program that no command describes reports failure (R277): tag, lane (log entries 79, 83). -/
opaque programFails : Nat → Nat → Bool

/-- How many blocks in turn fail as destinations of a copy that no command describes (R277): tag (log entry 83). -/
opaque programsFail : Nat → Nat

/-- Whether an erase that no command describes reports failure (R277): tag (log entry 83). -/
opaque eraseFails : Nat → Bool

/-- How a codeword of a page reads where no command describes it (R259): tag, codeword (log entry 83). -/
opaque codeRead : Nat → Nat → CodeRead

/-- The vendor ID assigned to Farcor Semiconductor, from mask ROM (R388, R393: the number is not given; log entry 22). -/
opaque vendorId : BitVec 16

/-- Bytes of one read-offset set of the flash settings: the integrator's own for the NAND part (R259, R377; log entry 23). -/
opaque readOffsetBytes : Nat

/-- SHA-256 of the vendor root public key, from mask ROM (R373; log entry 22). -/
opaque vendorHash : BitVec 256

/-- The secret that a PUF read and the helper data give (R379; log entry 22). -/
opaque pufSecret : BitVec 32 → List Byte → BitVec 256

/-- The SHA-256 that the helper data holds, at a place the spec does not give (R379; log entry 22). -/
opaque helperDigest : List Byte → BitVec 256

/-- The owner public key that OWNER_SIG is verified under, from the slot's header; where it stands the spec does not say (R374; log
entry 22). -/
opaque ownerKey : List Byte → List Byte

/-- The bytes of the security state that MR0 measures, whose coding the spec does not give: ROM version, OWNER_STATE, TEST_UNLOCK, slot,
FALLBACK, image SVN, MIN_SVN (R385; log entry 22). -/
opaque securityState : Nat → Nat → Nat → Nat → Nat → Nat → Nat → List Byte

end Sys2Proof.Config
end

