-- ==== Sys2Proof/Machine/Bits.lean ====
section
/-! DEFINITION. Bit fields [msb:lsb] of a word, sign extension and little-endian bytes (R10, the bit-range convention of
chapter 00). Every layout table of the spec is read and written through these. -/

namespace Sys2Proof.Machine

/-- Bits [lo+w-1 : lo] of `x`, as a number. -/
def bvGet {n : Nat} (lo w : Nat) (x : BitVec n) : Nat := (x.extractLsb' lo w).toNat

/-- The word with ones in bits [lo+w-1 : lo] and zeros elsewhere. -/
def bvMask {n : Nat} (lo w : Nat) : BitVec n := ((BitVec.allOnes w).setWidth n) <<< lo

/-- `x` with bits [lo+w-1 : lo] replaced by the low `w` bits of `v`. -/
def bvSet {n : Nat} (lo w : Nat) (x : BitVec n) (v : Nat) : BitVec n :=
  (x &&& ~~~(bvMask lo w)) ||| (((BitVec.ofNat w v).setWidth n) <<< lo)

/-- Bit `i` of `x`. -/
def bvBit {n : Nat} (i : Nat) (x : BitVec n) : Bool := x.getLsbD i

/-- `x` with bit `i` set to `b`. -/
def bvPut {n : Nat} (i : Nat) (x : BitVec n) (b : Bool) : BitVec n := bvSet i 1 x (if b then 1 else 0)

/-- The signed value of the low `w` bits of `v` (two's complement). -/
def sx (w v : Nat) : Int := (BitVec.ofNat w v).toInt

/-- The `w`-bit two's complement code of `x`, as a number from 0 to 2^w - 1. -/
def toCode (w : Nat) (x : Int) : Nat := (BitVec.ofInt w x).toNat

/-- The `n` bytes of `v`, byte 0 first (R10). -/
def leBytes (n v : Nat) : List Byte := (List.range n).map fun i => BitVec.ofNat 8 (v >>> (8 * i))

/-- The number whose little-endian bytes are `bs` (R10). -/
def leNat : List Byte → Nat
  | [] => 0
  | b :: bs => b.toNat + 256 * leNat bs

/-- One bit of a reflected CRC over the polynomial whose reflected form is `poly`. -/
def crcBit (poly c : BitVec 32) : BitVec 32 := if c.getLsbD 0 then (c >>> 1) ^^^ poly else c >>> 1

/-- A CRC of bytes, least significant bit of each first, from all-ones with final inversion. -/
def crcOf (poly : BitVec 32) (bs : List Byte) : BitVec 32 :=
  ~~~(bs.foldl (fun c b => (List.range 8).foldl (fun c _ => crcBit poly c) (c ^^^ b.setWidth 32)) (BitVec.allOnes 32))

/-- `Bool` as a bit. -/
def bit1 (b : Bool) : Nat := if b then 1 else 0

/-- Quotient rounded up. -/
def ceilDiv (a b : Nat) : Nat := (a + b - 1) / b

/-- Indices below `n` whose bit of `x` is 1, in rising order. -/
def bitsSet {n : Nat} (x : BitVec n) : List Nat := (List.range n).filter fun i => x.getLsbD i

end Sys2Proof.Machine
end

