-- ==== Sys2Proof/Machine/Maps.lean ====
section
/-! DEFINITION. Finite maps in one canonical form: a list of (key, value) pairs with strictly rising keys. A map with a
default lists no entry equal to that default, so that equal contents are equal data. Byte memories are such maps. -/

namespace Sys2Proof.Machine

/-- A map from `Nat` to `β`, kept with strictly rising keys. -/
abbrev NMap (β : Type) := List (Nat × β)

/-- The entry listed for `k`, if any. -/
def NMap.find {β : Type} : NMap β → Nat → Option β
  | [], _ => none
  | (j, v) :: m, k => if j = k then some v else NMap.find m k

/-- `m` with `v` listed for `k`. -/
def NMap.ins {β : Type} : NMap β → Nat → β → NMap β
  | [], k, v => [(k, v)]
  | (j, w) :: m, k, v =>
    if j = k then (k, v) :: m else if k < j then (k, v) :: (j, w) :: m else (j, w) :: NMap.ins m k v

/-- `m` with nothing listed for `k`. -/
def NMap.del {β : Type} : NMap β → Nat → NMap β
  | [], _ => []
  | (j, w) :: m, k => if j = k then NMap.del m k else (j, w) :: NMap.del m k

/-- The value of `k`, an unlisted key reading as `d`. -/
def NMap.get {β : Type} (d : β) (m : NMap β) (k : Nat) : β := (m.find k).getD d

/-- `m` with `k` holding `v`, listing nothing where `v` is the default `d`. -/
def NMap.set {β : Type} [DecidableEq β] (d : β) (m : NMap β) (k : Nat) (v : β) : NMap β :=
  if v = d then m.del k else m.ins k v

/-- Every listed value mapped by `f`, which should keep the default; values that become the default are no longer listed. -/
def NMap.mapD {β : Type} [DecidableEq β] (d : β) (f : β → β) (m : NMap β) : NMap β :=
  (m.map fun p => (p.1, f p.2)).filter fun p => p.2 != d

/-- Two maps as one, the second's entry standing where both list a key; `n` bounds the entries. -/
def NMap.mergeN {β : Type} : Nat → NMap β → NMap β → NMap β
  | 0, _, _ => []
  | _ + 1, [], m => m
  | _ + 1, m, [] => m
  | n + 1, (j, v) :: m, (k, w) :: l =>
    if j < k then (j, v) :: NMap.mergeN n m ((k, w) :: l)
    else if k < j then (k, w) :: NMap.mergeN n ((j, v) :: m) l
    else (k, w) :: NMap.mergeN n m l

/-- `l` laid over `m`. -/
def NMap.over {β : Type} (m l : NMap β) : NMap β := NMap.mergeN (m.length + l.length + 1) m l

/-- Keys strictly rising. -/
abbrev NMap.sorted {β : Type} (m : NMap β) : Prop := m.Pairwise fun a b => a.1 < b.1

/-- The canonical form over the default `d`: keys strictly rising and no entry equal to `d`. -/
abbrev NMap.canon {β : Type} (d : β) (m : NMap β) : Prop := m.sorted ∧ ∀ p ∈ m, p.2 ≠ d

/-- Byte memory: an unlisted address reads 0. -/
abbrev Mem := List Host.Cell

/-- What an unlisted byte reads as (log entry 3). -/
def Mem.unlisted : Byte := 0#8

/-- One byte. -/
def Mem.rd (m : Mem) (a : Nat) : Byte := NMap.get Mem.unlisted m a

/-- One byte written. -/
def Mem.wr (m : Mem) (a : Nat) (b : Byte) : Mem := NMap.set Mem.unlisted m a b

/-- The canonical form of a byte memory. -/
abbrev Mem.wf (m : Mem) : Prop := NMap.canon Mem.unlisted m

/-- `n` bytes from `a` upward. -/
def Mem.rdN (m : Mem) (a n : Nat) : List Byte := (List.range n).map fun i => m.rd (a + i)

/-- The bytes `bs` written from `a` upward. -/
def Mem.wrN (m : Mem) (a : Nat) : List Byte → Mem
  | [] => m
  | b :: bs => Mem.wrN (m.wr a b) (a + 1) bs

/-- The little-endian number in `n` bytes from `a` (R10). -/
def Mem.rdLe (m : Mem) (a n : Nat) : Nat := leNat (m.rdN a n)

/-- The low `n` bytes of `v` written from `a`, little-endian (R10). -/
def Mem.wrLe (m : Mem) (a n v : Nat) : Mem := m.wrN a (leBytes n v)

/-- Every byte of [a, a+n) made 0. -/
def Mem.clear (m : Mem) (a n : Nat) : Mem := m.filter fun p => p.1 < a ∨ a + n ≤ p.1

/-- The bytes of [a, a+n), with addresses counted from 0. -/
def Mem.slice (m : Mem) (a n : Nat) : Mem :=
  (m.filter fun p => a ≤ p.1 ∧ p.1 < a + n).map fun p => (p.1 - a, p.2)

/-- The bytes of `src` below `n` placed at [a, a+n), the old bytes there replaced. -/
def Mem.paste (m : Mem) (a n : Nat) (src : Mem) : Mem :=
  (m.filter fun p => p.1 < a) ++ ((src.filter fun p => p.1 < n).map fun p => (p.1 + a, p.2)) ++
    (m.filter fun p => a + n ≤ p.1)

/-- The bytes of a sorted memory from address `a`, read in one pass. -/
def Mem.walk : Nat → Mem → Nat → List Byte
  | 0, _, _ => []
  | n + 1, [], a => Mem.unlisted :: Mem.walk n [] (a + 1)
  | n + 1, (k, v) :: m, a =>
    if k = a then v :: Mem.walk n m (a + 1) else Mem.unlisted :: Mem.walk n ((k, v) :: m) (a + 1)

/-- `n` bytes from `a` upward, in one pass: on a canonical memory it equals `rdN` (Laws/Maps). -/
def Mem.rdBlk (m : Mem) (a n : Nat) : List Byte := Mem.walk n (m.dropWhile fun p => decide (p.1 < a)) a

/-- Bytes as a canonical memory from address 0. -/
def Mem.ofBytes (bs : List Byte) : Mem := (bs.zipIdx.map fun p => (p.2, p.1)).filter fun p => p.2 != Mem.unlisted

/-- The bytes `bs` placed from `a` upward in one pass. -/
def Mem.wrBlk (m : Mem) (a : Nat) (bs : List Byte) : Mem := m.paste a bs.length (Mem.ofBytes bs)

/-- A new last element for a bounded list that drops its oldest element when full. -/
def pushBounded {β : Type} (n : Nat) (l : List β) (x : β) : List β :=
  let l' := l ++ [x]
  l'.drop (l'.length - n)

/-- `x` added to a list without repeats. -/
def addOnce {β : Type} [DecidableEq β] (l : List β) (x : β) : List β := if x ∈ l then l else l ++ [x]

/-- Replaces the elements of `l` that satisfy `p`. -/
def mapWhere {β : Type} (p : β → Bool) (f : β → β) (l : List β) : List β := l.map fun x => if p x then f x else x

end Sys2Proof.Machine
end

