-- ==== Sys2Proof/Machine/RegTable.lean ====
section
/-! DEFINITION. The BAR0 register tables of every chapter: each register's offset, its fields, their access types and reset values
(R11, R13 to R17), the block bases of R440 and the decoding of an offset (R439, R441). A field whose reset is HW stands at 0 here
(log entry 2). -/

namespace Sys2Proof.Machine

/-- The access types of R13. -/
inductive Access
  | rw | ro | wo | w1c | w1s | rc | rwl
  deriving DecidableEq, Repr

/-- A named field: its lowest bit, width, access type and reset value. -/
structure FieldDef where
  lo  : Nat
  w   : Nat
  acc : Access
  rst : Nat
  deriving DecidableEq, Repr

/-- How a register is kept: plain; deferred under R24; a grid word (R68); or a 48-bit counter's low and high pair (R434). -/
inductive RegKind
  | plain | deferred | grid | counter
  deriving DecidableEq, Repr

/-- A register, or an array of `count` registers at `stride` (for a counter, pairs of words). -/
structure RegDef where
  off    : Nat
  stride : Nat
  count  : Nat
  kind   : RegKind
  fields : List FieldDef
  deriving DecidableEq, Repr

/-- The register blocks of R441. -/
inductive Blk
  | boot | pwr | jsp | hq | hqq | part | partp | obj | sec | garnet | topo | lnk | fch | onyx
  | cdc | clc | guard | seqGrid | vec | eng | exp | mdc | ctab | enc | mov | stk | ch
  deriving DecidableEq, Repr

/-- Base of compute die `d` (R440). -/
def dieBase (d : Nat) : Nat := 0x01000000 + 0x02000000 * d
/-- Base of global cluster `k` (R440). -/
def clusterBase (k : Nat) : Nat := 0x02000000 + 0x02000000 * (k / 16) + 0x00100000 * (k % 16)
/-- Base of global core `c` (R440). -/
def coreBase (c : Nat) : Nat := clusterBase (c / 8) + 0x00020000 + 0x00010000 * (c % 8)
/-- Base of global engine `g` (R440). -/
def engBase (g : Nat) : Nat := coreBase (g / 4) + 0x4000 + 0x1000 * (g % 4)
/-- Base of memory-side die `m` (R440). -/
def memDieBase (m : Nat) : Nat := 0x09000000 + 0x01000000 * m
/-- Base of stack `st` (R440). -/
def stackBase (st : Nat) : Nat := memDieBase (st / 3) + 0x00400000 * (st % 3)
/-- Base of global channel `ch` (R440). -/
def channelBase (ch : Nat) : Nat := stackBase (ch / 128) + 0x00010000 + 0x0800 * (ch % 128)

/-- Registers of the BOOT block. -/
def bootRegs : List RegDef :=
  [⟨0x0, 0, 1, .plain, [⟨0, 16, .ro, 0⟩, ⟨16, 16, .ro, 0xa20⟩]⟩,
   ⟨0x4, 0, 1, .plain, [⟨0, 8, .ro, 0x10⟩, ⟨8, 16, .ro, 0⟩]⟩,
   ⟨0x8, 0, 1, .plain, [⟨0, 8, .ro, 0⟩]⟩,
   ⟨0xc, 0, 1, .plain, [⟨0, 16, .ro, 1⟩]⟩,
   ⟨0x10, 0, 1, .plain, [⟨0, 32, .ro, 0⟩]⟩,
   ⟨0x14, 0, 1, .plain, [⟨0, 32, .ro, 0⟩]⟩,
   ⟨0x18, 0, 1, .plain, [⟨0, 4, .ro, 0⟩, ⟨4, 1, .ro, 0⟩, ⟨5, 1, .ro, 0⟩, ⟨6, 1, .ro, 0⟩, ⟨7, 1, .ro, 0⟩, ⟨8, 1, .ro, 0⟩, ⟨16, 8, .ro, 0⟩]⟩,
   ⟨0x1c, 0, 1, .plain, [⟨0, 1, .ro, 1⟩, ⟨1, 1, .ro, 0⟩, ⟨2, 1, .ro, 0⟩, ⟨3, 1, .ro, 0⟩, ⟨4, 1, .ro, 0⟩, ⟨5, 1, .ro, 0⟩]⟩,
   ⟨0x20, 0, 1, .plain, [⟨0, 1, .wo, 0⟩, ⟨16, 16, .wo, 0⟩]⟩,
   ⟨0x24, 0, 1, .plain, [⟨0, 1, .rw, 0⟩]⟩,
   ⟨0x28, 0, 1, .plain, [⟨0, 16, .ro, 0⟩, ⟨16, 16, .ro, 0⟩]⟩,
   ⟨0x2c, 0, 1, .plain, [⟨0, 1, .ro, 0⟩, ⟨1, 1, .ro, 0⟩, ⟨2, 6, .ro, 0⟩]⟩,
   ⟨0x30, 0, 1, .plain, [⟨0, 32, .ro, 0⟩]⟩,
   ⟨0x34, 0, 1, .plain, [⟨0, 32, .ro, 0⟩]⟩]

/-- Registers of the PWR block. -/
def pwrRegs : List RegDef :=
  [⟨0x0, 0, 1, .plain, [⟨0, 1, .rw, 0⟩, ⟨1, 1, .rw, 0⟩, ⟨2, 1, .rw, 0⟩, ⟨3, 1, .rwl, 0⟩, ⟨4, 1, .wo, 0⟩, ⟨5, 1, .rwl, 0⟩, ⟨6, 1, .rw, 1⟩]⟩,
   ⟨0x4, 0, 1, .plain, [⟨0, 3, .ro, 0⟩, ⟨3, 1, .ro, 0⟩, ⟨4, 1, .ro, 0⟩, ⟨5, 1, .ro, 0⟩]⟩,
   ⟨0x8, 0, 1, .plain, [⟨0, 24, .rw, 0xffffff⟩, ⟨24, 1, .ro, 0⟩]⟩,
   ⟨0xc, 0, 1, .plain, [⟨0, 16, .rwl, 0⟩]⟩,
   ⟨0x10, 0, 1, .plain, [⟨0, 16, .ro, 0⟩, ⟨16, 16, .rc, 0⟩]⟩,
   ⟨0x14, 0, 1, .plain, [⟨0, 1, .w1c, 0⟩, ⟨1, 1, .w1c, 0⟩, ⟨2, 1, .w1c, 0⟩, ⟨3, 1, .w1c, 0⟩, ⟨4, 1, .w1c, 0⟩, ⟨5, 1, .w1c, 0⟩, ⟨6, 1, .w1c, 0⟩]⟩,
   ⟨0x18, 0, 1, .plain, [⟨0, 8, .rw, 0⟩]⟩,
   ⟨0x1c, 0, 1, .plain, [⟨0, 11, .ro, 0⟩, ⟨11, 1, .ro, 0⟩, ⟨12, 1, .ro, 0⟩, ⟨13, 1, .ro, 0⟩]⟩,
   ⟨0x40, 4, 8, .deferred, [⟨0, 4, .rw, 0⟩, ⟨4, 4, .rw, 0⟩, ⟨8, 4, .rw, 0⟩, ⟨12, 4, .rw, 0⟩, ⟨16, 4, .rw, 0⟩, ⟨20, 4, .rw, 0⟩, ⟨24, 4, .rw, 0⟩, ⟨28, 4, .rw, 0⟩]⟩,
   ⟨0x60, 4, 8, .plain, [⟨0, 4, .ro, 8⟩, ⟨4, 4, .ro, 8⟩, ⟨8, 4, .ro, 8⟩, ⟨12, 4, .ro, 8⟩, ⟨16, 4, .ro, 8⟩, ⟨20, 4, .ro, 8⟩, ⟨24, 4, .ro, 8⟩, ⟨28, 4, .ro, 8⟩]⟩,
   ⟨0x80, 4, 16, .plain, [⟨0, 8, .ro, 0x3c⟩, ⟨8, 8, .ro, 0x3c⟩, ⟨16, 8, .ro, 0x3c⟩, ⟨24, 8, .ro, 0x3c⟩]⟩,
   ⟨0x100, 0, 1, .counter, []⟩,
   ⟨0x108, 0, 1, .counter, []⟩,
   ⟨0x110, 0, 1, .counter, []⟩,
   ⟨0x118, 0, 1, .counter, []⟩,
   ⟨0x120, 0, 1, .counter, []⟩,
   ⟨0x128, 0, 1, .counter, []⟩,
   ⟨0x130, 0, 1, .counter, []⟩,
   ⟨0x138, 0, 1, .counter, []⟩]

/-- Registers of the JSP block. -/
def jspRegs : List RegDef :=
  [⟨0x0, 0, 1, .plain, [⟨0, 1, .wo, 0⟩, ⟨1, 1, .rw, 0⟩, ⟨2, 4, .rw, 4⟩]⟩,
   ⟨0x4, 0, 1, .plain, [⟨0, 1, .ro, 0⟩, ⟨1, 1, .w1c, 0⟩, ⟨2, 1, .ro, 0⟩, ⟨3, 1, .ro, 0⟩]⟩,
   ⟨0x8, 0, 1, .plain, [⟨0, 32, .ro, 0⟩]⟩,
   ⟨0xc, 0, 1, .plain, [⟨0, 32, .ro, 0⟩]⟩,
   ⟨0x10, 0, 1, .plain, [⟨0, 32, .ro, 0⟩]⟩,
   ⟨0x14, 0, 1, .plain, [⟨0, 32, .ro, 0⟩]⟩,
   ⟨0x18, 0, 1, .plain, [⟨0, 32, .rw, 0⟩]⟩,
   ⟨0x1c, 0, 1, .plain, [⟨0, 2, .ro, 2⟩]⟩,
   ⟨0x20, 4, 8, .plain, [⟨0, 32, .ro, 0⟩]⟩,
   ⟨0x40, 0, 1, .plain, [⟨0, 32, .ro, 0⟩]⟩,
   ⟨0x44, 0, 1, .plain, [⟨0, 24, .ro, 0⟩]⟩,
   ⟨0x48, 0, 1, .plain, [⟨0, 14, .rw, 0x3e8⟩, ⟨14, 8, .rw, 0x10⟩]⟩,
   ⟨0x4c, 0, 1, .plain, [⟨2, 26, .wo, 0⟩, ⟨28, 1, .wo, 0⟩]⟩,
   ⟨0x50, 0, 1, .plain, [⟨0, 14, .rwl, 0x3e8⟩]⟩,
   ⟨0x54, 0, 1, .plain, [⟨0, 16, .ro, 0x3e8⟩, ⟨16, 16, .ro, 0x3e8⟩]⟩,
   ⟨0x58, 0, 1, .plain, [⟨0, 1, .wo, 0⟩]⟩,
   ⟨0x80, 0, 1, .counter, []⟩,
   ⟨0x88, 0, 1, .counter, []⟩,
   ⟨0x90, 0, 1, .counter, []⟩,
   ⟨0x98, 0, 1, .counter, []⟩,
   ⟨0xa0, 0, 1, .counter, []⟩,
   ⟨0xa8, 0, 1, .counter, []⟩]

/-- Registers of the HQ block. -/
def hqRegs : List RegDef :=
  [⟨0x0, 0, 1, .plain, [⟨0, 3, .ro, 0⟩, ⟨3, 4, .ro, 0⟩, ⟨7, 1, .ro, 0⟩]⟩,
   ⟨0x4, 0, 1, .plain, [⟨0, 11, .rw, 0⟩]⟩,
   ⟨0x10, 0, 1, .counter, []⟩,
   ⟨0x18, 0, 1, .counter, []⟩,
   ⟨0x20, 0, 1, .counter, []⟩,
   ⟨0x3000, 4, 256, .plain, [⟨0, 8, .rw, 1⟩, ⟨8, 16, .rw, 0⟩]⟩]

/-- Registers of the HQQ block. -/
def hqqRegs : List RegDef :=
  [⟨0x0, 0, 1, .plain, [⟨6, 26, .rw, 0⟩]⟩,
   ⟨0x4, 0, 1, .plain, [⟨0, 32, .rw, 0⟩]⟩,
   ⟨0x8, 0, 1, .plain, [⟨6, 26, .rw, 0⟩]⟩,
   ⟨0xc, 0, 1, .plain, [⟨0, 32, .rw, 0⟩]⟩,
   ⟨0x10, 0, 1, .plain, [⟨0, 1, .rw, 0⟩, ⟨1, 4, .rw, 4⟩, ⟨5, 4, .rw, 4⟩, ⟨9, 4, .rw, 0⟩, ⟨13, 1, .rw, 0⟩, ⟨14, 8, .rw, 0⟩, ⟨22, 1, .rw, 0⟩]⟩,
   ⟨0x14, 0, 1, .plain, [⟨0, 1, .ro, 0⟩, ⟨1, 1, .w1c, 0⟩, ⟨2, 2, .ro, 0⟩]⟩,
   ⟨0x18, 0, 1, .plain, [⟨0, 16, .ro, 0⟩, ⟨16, 16, .ro, 0⟩]⟩]

/-- Registers of the PART block. -/
def partRegs : List RegDef :=
  [⟨0x0, 0, 1, .deferred, [⟨0, 16, .rw, 0⟩, ⟨16, 1, .rw, 0⟩]⟩,
   ⟨0x4, 0, 1, .deferred, [⟨0, 16, .rw, 0⟩]⟩,
   ⟨0x8, 0, 1, .plain, [⟨0, 13, .ro, 0⟩]⟩,
   ⟨0xc, 0, 1, .plain, [⟨0, 21, .ro, 0x100000⟩]⟩]

/-- Registers of the PARTP block. -/
def partpRegs : List RegDef :=
  [⟨0x0, 0, 1, .deferred, [⟨0, 1, .rw, 0⟩]⟩,
   ⟨0x4, 0, 1, .plain, [⟨0, 1, .ro, 0⟩, ⟨1, 1, .w1c, 0⟩, ⟨2, 1, .w1c, 0⟩]⟩,
   ⟨0x8, 0, 1, .deferred, [⟨6, 26, .rw, 0⟩]⟩,
   ⟨0xc, 0, 1, .deferred, [⟨0, 32, .rw, 0⟩]⟩,
   ⟨0x10, 0, 1, .deferred, [⟨0, 1, .rw, 0⟩, ⟨1, 5, .rw, 6⟩, ⟨6, 8, .rw, 0⟩, ⟨14, 1, .rw, 0⟩]⟩,
   ⟨0x14, 0, 1, .plain, [⟨0, 32, .ro, 0⟩]⟩,
   ⟨0x18, 0, 1, .plain, [⟨0, 32, .rw, 0⟩]⟩,
   ⟨0x1c, 0, 1, .deferred, [⟨2, 30, .rw, 0⟩]⟩,
   ⟨0x20, 0, 1, .deferred, [⟨0, 32, .rw, 0⟩]⟩,
   ⟨0x24, 0, 1, .deferred, [⟨6, 26, .rw, 0⟩]⟩,
   ⟨0x28, 0, 1, .deferred, [⟨0, 32, .rw, 0⟩]⟩,
   ⟨0x2c, 0, 1, .deferred, [⟨0, 1, .rw, 0⟩, ⟨1, 5, .rw, 4⟩, ⟨6, 8, .rw, 0⟩, ⟨14, 1, .rw, 0⟩]⟩,
   ⟨0x30, 0, 1, .plain, [⟨0, 32, .ro, 0⟩]⟩,
   ⟨0x34, 0, 1, .plain, [⟨0, 32, .rw, 0⟩]⟩,
   ⟨0x38, 0, 1, .deferred, [⟨2, 30, .rw, 0⟩]⟩,
   ⟨0x3c, 0, 1, .deferred, [⟨0, 32, .rw, 0⟩]⟩,
   ⟨0x40, 0, 1, .deferred, [⟨12, 20, .rw, 0⟩]⟩,
   ⟨0x44, 0, 1, .deferred, [⟨0, 32, .rw, 0⟩]⟩,
   ⟨0x48, 0, 1, .deferred, [⟨0, 29, .rw, 0⟩]⟩,
   ⟨0x4c, 0, 1, .plain, [⟨0, 15, .rw, 0⟩]⟩,
   ⟨0x80, 0, 1, .counter, []⟩,
   ⟨0x88, 0, 1, .counter, []⟩,
   ⟨0x90, 0, 1, .counter, []⟩,
   ⟨0x98, 0, 1, .counter, []⟩,
   ⟨0xa0, 0, 1, .counter, []⟩,
   ⟨0xa8, 0, 1, .counter, []⟩]

/-- Registers of the OBJ block. -/
def objRegs : List RegDef :=
  [⟨0x0, 0, 1, .plain, [⟨0, 1, .rwl, 0⟩]⟩,
   ⟨0x4, 0, 1, .plain, [⟨0, 17, .ro, 0x10000⟩]⟩,
   ⟨0x8, 0, 1, .plain, [⟨0, 16, .rw, 0⟩]⟩,
   ⟨0xc, 0, 1, .deferred, [⟨0, 16, .rw, 0⟩]⟩,
   ⟨0x10, 0, 1, .deferred, [⟨0, 16, .rw, 0x1000⟩, ⟨16, 16, .rw, 0x2000⟩]⟩,
   ⟨0x20, 4, 8, .plain, [⟨0, 32, .ro, 0⟩]⟩,
   ⟨0x40, 0, 1, .plain, [⟨0, 24, .ro, 0⟩]⟩,
   ⟨0x44, 0, 1, .plain, [⟨0, 32, .ro, 0⟩]⟩,
   ⟨0x80, 0, 1, .counter, []⟩,
   ⟨0x88, 0, 1, .counter, []⟩,
   ⟨0x90, 0, 1, .counter, []⟩,
   ⟨0x98, 0, 1, .counter, []⟩,
   ⟨0xa0, 0, 1, .counter, []⟩,
   ⟨0xa8, 0, 1, .counter, []⟩,
   ⟨0xb0, 0, 1, .counter, []⟩,
   ⟨0xb8, 0, 1, .counter, []⟩,
   ⟨0x100, 16, 16, .deferred, [⟨0, 32, .rw, 0⟩]⟩,
   ⟨0x104, 16, 16, .deferred, [⟨0, 32, .rw, 0⟩]⟩,
   ⟨0x108, 16, 16, .deferred, [⟨0, 32, .rw, 0⟩]⟩,
   ⟨0x200, 16, 16, .plain, [⟨0, 32, .ro, 0⟩]⟩,
   ⟨0x204, 16, 16, .plain, [⟨0, 32, .ro, 0⟩]⟩,
   ⟨0x208, 16, 16, .plain, [⟨0, 32, .ro, 0⟩]⟩,
   ⟨0x400, 32, 16, .counter, []⟩,
   ⟨0x408, 32, 16, .counter, []⟩,
   ⟨0x410, 32, 16, .counter, []⟩,
   ⟨0x418, 32, 16, .counter, []⟩]

/-- Registers of the SEC block. -/
def secRegs : List RegDef :=
  [⟨0x0, 0, 1, .plain, [⟨0, 8, .wo, 0⟩]⟩,
   ⟨0x4, 0, 1, .plain, [⟨0, 2, .ro, 0⟩, ⟨8, 8, .ro, 0⟩]⟩,
   ⟨0x8, 0, 1, .plain, [⟨0, 16, .rw, 0⟩]⟩,
   ⟨0xc, 0, 1, .plain, [⟨0, 16, .ro, 0⟩]⟩,
   ⟨0x100, 4, 64, .plain, [⟨0, 32, .ro, 0⟩]⟩,
   ⟨0x4000, 4, 12288, .plain, [⟨0, 32, .rw, 0⟩]⟩]

/-- Registers of the GARNET block. -/
def garnetRegs : List RegDef :=
  [⟨0x0, 0, 1, .plain, [⟨0, 1, .rw, 0⟩, ⟨1, 1, .rwl, 0⟩, ⟨2, 1, .rw, 0⟩]⟩,
   ⟨0x4, 0, 1, .deferred, [⟨0, 16, .rw, 0⟩]⟩,
   ⟨0x8, 0, 1, .plain, [⟨0, 16, .rwl, 0⟩, ⟨16, 9, .rwl, 0⟩]⟩,
   ⟨0x10, 0, 1, .deferred, [⟨0, 32, .rw, 0⟩]⟩,
   ⟨0x14, 0, 1, .plain, [⟨0, 32, .ro, 0⟩]⟩,
   ⟨0x18, 0, 1, .plain, [⟨0, 2, .ro, 0⟩, ⟨2, 1, .ro, 0⟩, ⟨3, 1, .ro, 0⟩, ⟨4, 1, .ro, 0⟩]⟩,
   ⟨0x1c, 0, 1, .plain, [⟨0, 1, .w1c, 0⟩, ⟨1, 1, .w1c, 0⟩, ⟨2, 1, .w1c, 0⟩, ⟨3, 1, .w1c, 0⟩, ⟨4, 1, .w1c, 0⟩]⟩,
   ⟨0x20, 0, 1, .counter, []⟩,
   ⟨0x28, 0, 1, .counter, []⟩,
   ⟨0x30, 0, 1, .counter, []⟩,
   ⟨0x38, 0, 1, .counter, []⟩,
   ⟨0x40, 0, 1, .counter, []⟩,
   ⟨0x48, 0, 1, .counter, []⟩,
   ⟨0x50, 0, 1, .plain, [⟨0, 32, .rc, 0⟩]⟩,
   ⟨0x100, 4, 16, .plain, [⟨0, 32, .ro, 0⟩]⟩,
   ⟨0x200, 4, 16, .deferred, [⟨0, 32, .rw, 0⟩]⟩]

/-- Registers of the TOPO block. -/
def topoRegs : List RegDef :=
  [⟨0x0, 0, 1, .plain, [⟨0, 5, .rwl, 0⟩, ⟨5, 6, .rwl, 0⟩, ⟨11, 1, .rwl, 0⟩, ⟨12, 1, .rwl, 0⟩, ⟨13, 9, .rwl, 0⟩]⟩,
   ⟨0x4, 0, 1, .plain, [⟨0, 1, .rwl, 0⟩, ⟨1, 1, .rwl, 0⟩]⟩,
   ⟨0x8, 0, 1, .plain, [⟨0, 2, .ro, 1⟩, ⟨2, 2, .ro, 1⟩, ⟨4, 2, .ro, 1⟩, ⟨6, 2, .ro, 1⟩, ⟨8, 2, .ro, 1⟩, ⟨10, 2, .ro, 1⟩]⟩,
   ⟨0xc, 0, 1, .plain, [⟨0, 1, .wo, 0⟩, ⟨1, 1, .wo, 0⟩, ⟨2, 1, .wo, 0⟩]⟩,
   ⟨0x10, 0, 1, .plain, [⟨0, 32, .ro, 0⟩]⟩,
   ⟨0x14, 0, 1, .plain, [⟨0, 16, .ro, 0⟩]⟩,
   ⟨0x18, 0, 1, .plain, [⟨0, 9, .ro, 0⟩, ⟨9, 2, .ro, 0⟩]⟩,
   ⟨0x1c, 0, 1, .plain, [⟨0, 32, .ro, 0⟩]⟩,
   ⟨0x20, 0, 1, .counter, []⟩,
   ⟨0x28, 0, 1, .counter, []⟩,
   ⟨0x30, 0, 1, .counter, []⟩,
   ⟨0x38, 0, 1, .counter, []⟩,
   ⟨0x40, 0, 1, .counter, []⟩,
   ⟨0x100, 4, 32, .plain, [⟨0, 2, .ro, 0⟩, ⟨2, 2, .ro, 0⟩, ⟨4, 2, .ro, 0⟩, ⟨6, 2, .ro, 0⟩, ⟨8, 2, .ro, 0⟩, ⟨10, 2, .ro, 0⟩, ⟨12, 2, .ro, 0⟩, ⟨14, 2, .ro, 0⟩, ⟨16, 2, .ro, 0⟩, ⟨18, 2, .ro, 0⟩, ⟨20, 2, .ro, 0⟩, ⟨22, 2, .ro, 0⟩, ⟨24, 2, .ro, 0⟩, ⟨26, 2, .ro, 0⟩, ⟨28, 2, .ro, 0⟩, ⟨30, 2, .ro, 0⟩]⟩]

/-- Registers of the LNK block. -/
def lnkRegs : List RegDef :=
  [⟨0x0, 0, 1, .plain, [⟨0, 1, .rwl, 0⟩, ⟨1, 1, .wo, 0⟩]⟩,
   ⟨0x4, 0, 1, .plain, [⟨0, 3, .ro, 0⟩, ⟨3, 3, .ro, 0⟩, ⟨6, 1, .ro, 0⟩, ⟨7, 1, .w1c, 0⟩, ⟨8, 1, .w1c, 0⟩]⟩,
   ⟨0x8, 0, 1, .plain, [⟨0, 4, .ro, 0⟩, ⟨4, 4, .w1c, 0⟩]⟩,
   ⟨0xc, 0, 1, .plain, [⟨0, 9, .ro, 0⟩, ⟨9, 4, .ro, 0⟩, ⟨13, 1, .ro, 0⟩]⟩,
   ⟨0x10, 0, 1, .plain, [⟨0, 1, .rw, 0⟩, ⟨1, 1, .rw, 0⟩, ⟨2, 2, .rw, 0⟩, ⟨4, 3, .rw, 7⟩, ⟨7, 1, .rw, 0⟩, ⟨8, 6, .rw, 0⟩]⟩,
   ⟨0x14, 0, 1, .plain, [⟨0, 32, .rw, 1⟩]⟩,
   ⟨0x18, 0, 1, .plain, [⟨0, 32, .rw, 0⟩]⟩,
   ⟨0x1c, 0, 1, .plain, [⟨0, 24, .ro, 0⟩]⟩,
   ⟨0x100, 0, 1, .counter, []⟩,
   ⟨0x108, 0, 1, .counter, []⟩,
   ⟨0x110, 0, 1, .counter, []⟩,
   ⟨0x118, 0, 1, .counter, []⟩,
   ⟨0x120, 0, 1, .counter, []⟩,
   ⟨0x128, 0, 1, .counter, []⟩,
   ⟨0x130, 0, 1, .counter, []⟩,
   ⟨0x138, 0, 1, .counter, []⟩,
   ⟨0x140, 0, 1, .counter, []⟩,
   ⟨0x148, 0, 1, .counter, []⟩,
   ⟨0x150, 0, 1, .counter, []⟩,
   ⟨0x158, 0, 1, .counter, []⟩,
   ⟨0x160, 0, 1, .counter, []⟩,
   ⟨0x168, 0, 1, .counter, []⟩,
   ⟨0x170, 0, 1, .counter, []⟩,
   ⟨0x200, 8, 4, .counter, []⟩]

/-- Registers of the FCH block. -/
def fchRegs : List RegDef :=
  [⟨0x0, 0, 1, .plain, [⟨0, 3, .ro, 0⟩, ⟨3, 1, .ro, 0⟩]⟩,
   ⟨0x4, 0, 1, .plain, [⟨0, 4, .ro, 0⟩, ⟨4, 3, .ro, 0⟩, ⟨7, 3, .ro, 0⟩, ⟨10, 13, .ro, 0⟩, ⟨23, 1, .ro, 0⟩]⟩,
   ⟨0x8, 0, 1, .plain, [⟨0, 20, .ro, 0⟩]⟩,
   ⟨0xc, 0, 1, .plain, [⟨0, 16, .rc, 0⟩, ⟨16, 16, .rc, 0⟩]⟩,
   ⟨0x10, 0, 1, .plain, [⟨0, 32, .ro, 0⟩]⟩,
   ⟨0x20, 0, 1, .counter, []⟩,
   ⟨0x28, 0, 1, .counter, []⟩,
   ⟨0x30, 0, 1, .counter, []⟩,
   ⟨0x38, 0, 1, .counter, []⟩,
   ⟨0x40, 0, 1, .counter, []⟩,
   ⟨0x48, 0, 1, .counter, []⟩,
   ⟨0x50, 0, 1, .counter, []⟩,
   ⟨0x58, 0, 1, .counter, []⟩,
   ⟨0x60, 0, 1, .counter, []⟩]

/-- Registers of the ONYX block. -/
def onyxRegs : List RegDef :=
  [⟨0x0, 0, 1, .plain, [⟨0, 4, .wo, 0⟩]⟩,
   ⟨0x4, 0, 1, .plain, [⟨0, 3, .ro, 0⟩, ⟨3, 1, .ro, 0⟩, ⟨4, 1, .w1c, 0⟩]⟩,
   ⟨0x8, 0, 1, .plain, [⟨0, 32, .ro, 0⟩]⟩,
   ⟨0xc, 0, 1, .plain, [⟨0, 32, .ro, 0⟩]⟩,
   ⟨0x10, 0, 1, .plain, [⟨0, 24, .rwl, 0⟩]⟩,
   ⟨0x14, 0, 1, .plain, [⟨0, 16, .rwl, 0⟩, ⟨16, 16, .rwl, 0⟩]⟩,
   ⟨0x18, 0, 1, .plain, [⟨0, 8, .rwl, 0⟩, ⟨8, 4, .rwl, 0⟩, ⟨12, 1, .rwl, 0⟩]⟩,
   ⟨0x1c, 0, 1, .plain, [⟨0, 5, .rwl, 0⟩]⟩,
   ⟨0x20, 0, 1, .plain, [⟨0, 8, .rw, 0⟩]⟩,
   ⟨0x24, 0, 1, .plain, [⟨0, 21, .ro, 0⟩]⟩,
   ⟨0x28, 0, 1, .plain, [⟨0, 21, .ro, 0⟩]⟩,
   ⟨0x2c, 0, 1, .plain, [⟨0, 23, .ro, 0⟩]⟩,
   ⟨0x30, 0, 1, .plain, [⟨0, 16, .ro, 0⟩, ⟨16, 16, .ro, 0⟩]⟩,
   ⟨0x34, 0, 1, .plain, [⟨0, 16, .ro, 0⟩]⟩,
   ⟨0x80, 0, 1, .counter, []⟩,
   ⟨0x88, 0, 1, .counter, []⟩,
   ⟨0x90, 0, 1, .counter, []⟩,
   ⟨0x98, 0, 1, .counter, []⟩,
   ⟨0xa0, 0, 1, .counter, []⟩,
   ⟨0xa8, 0, 1, .counter, []⟩,
   ⟨0xb0, 0, 1, .counter, []⟩,
   ⟨0xb8, 0, 1, .counter, []⟩,
   ⟨0xc0, 0, 1, .counter, []⟩]

/-- Registers of the CDC block. -/
def cdcRegs : List RegDef :=
  [⟨0x0, 0, 1, .plain, [⟨0, 16, .ro, 0xffff⟩]⟩,
   ⟨0x10, 0, 1, .counter, []⟩,
   ⟨0x18, 0, 1, .counter, []⟩,
   ⟨0x20, 0, 1, .counter, []⟩]

/-- Registers of the CLC block. -/
def clcRegs : List RegDef :=
  [⟨0x0, 0, 1, .plain, [⟨0, 1, .ro, 1⟩, ⟨1, 1, .ro, 1⟩, ⟨2, 1, .ro, 0⟩]⟩,
   ⟨0x4, 0, 1, .plain, [⟨0, 6, .ro, 0⟩, ⟨6, 2, .ro, 0⟩]⟩,
   ⟨0x10, 0, 1, .counter, []⟩,
   ⟨0x18, 0, 1, .counter, []⟩,
   ⟨0x20, 0, 1, .counter, []⟩,
   ⟨0x28, 0, 1, .counter, []⟩]

/-- Registers of the GUARD block. -/
def guardRegs : List RegDef :=
  [⟨0x0, 0, 1, .deferred, [⟨0, 1, .rw, 0⟩]⟩,
   ⟨0x4, 0, 1, .plain, [⟨0, 1, .ro, 0⟩, ⟨1, 9, .ro, 0⟩, ⟨10, 1, .w1c, 0⟩]⟩,
   ⟨0x8, 0, 1, .deferred, [⟨12, 20, .rw, 0⟩]⟩,
   ⟨0xc, 0, 1, .deferred, [⟨0, 15, .rw, 0⟩]⟩,
   ⟨0x10, 0, 1, .deferred, [⟨0, 16, .rw, 0⟩]⟩,
   ⟨0x14, 0, 1, .plain, [⟨0, 16, .ro, 0⟩]⟩,
   ⟨0x18, 0, 1, .deferred, [⟨0, 16, .rw, 0x400⟩]⟩,
   ⟨0x1c, 0, 1, .plain, [⟨0, 9, .rw, 0⟩]⟩,
   ⟨0x20, 0, 1, .plain, [⟨0, 1, .ro, 0⟩, ⟨1, 1, .ro, 0⟩, ⟨2, 1, .ro, 0⟩, ⟨3, 1, .ro, 0⟩]⟩,
   ⟨0x24, 0, 1, .plain, [⟨0, 32, .ro, 0⟩]⟩,
   ⟨0x30, 4, 4, .plain, [⟨0, 24, .ro, 0⟩]⟩,
   ⟨0x40, 4, 16, .plain, [⟨0, 24, .ro, 0⟩]⟩,
   ⟨0x100, 0, 1, .counter, []⟩,
   ⟨0x108, 0, 1, .counter, []⟩,
   ⟨0x110, 0, 1, .counter, []⟩,
   ⟨0x118, 0, 1, .counter, []⟩,
   ⟨0x120, 0, 1, .counter, []⟩,
   ⟨0x128, 0, 1, .counter, []⟩]

/-- Registers of the VEC block. -/
def vecRegs : List RegDef :=
  [⟨0x0, 0, 1, .plain, [⟨0, 1, .ro, 0⟩, ⟨1, 1, .w1c, 0⟩]⟩,
   ⟨0x8, 0, 1, .deferred, [⟨0, 32, .rw, 0⟩]⟩,
   ⟨0xc, 0, 1, .deferred, [⟨0, 32, .rw, 0⟩]⟩,
   ⟨0x10, 0, 1, .counter, []⟩,
   ⟨0x18, 0, 1, .counter, []⟩,
   ⟨0x200, 8, 32, .deferred, [⟨0, 9, .rw, 0⟩, ⟨9, 9, .rw, 0⟩, ⟨18, 6, .rw, 0⟩, ⟨24, 5, .rw, 0⟩, ⟨29, 1, .rw, 0⟩]⟩,
   ⟨0x204, 8, 32, .deferred, [⟨0, 16, .rw, 0⟩, ⟨16, 1, .rw, 0⟩, ⟨17, 5, .rw, 0⟩]⟩]

/-- Registers of the ENG block. -/
def engRegs : List RegDef :=
  [⟨0x0, 0, 1, .deferred, [⟨0, 1, .rw, 0⟩, ⟨1, 1, .rw, 0⟩]⟩,
   ⟨0x4, 0, 1, .plain, [⟨0, 1, .ro, 0⟩, ⟨1, 1, .ro, 0⟩, ⟨2, 1, .w1c, 0⟩, ⟨3, 1, .w1c, 0⟩, ⟨4, 1, .w1c, 0⟩]⟩,
   ⟨0x8, 0, 1, .deferred, [⟨0, 32, .rw, 1⟩]⟩,
   ⟨0xc, 0, 1, .plain, [⟨0, 32, .ro, 1⟩]⟩,
   ⟨0x10, 0, 1, .plain, [⟨0, 5, .rc, 0⟩]⟩,
   ⟨0x20, 0, 1, .counter, []⟩,
   ⟨0x28, 0, 1, .counter, []⟩,
   ⟨0x30, 0, 1, .counter, []⟩,
   ⟨0x38, 0, 1, .counter, []⟩]

/-- Registers of the EXP block. -/
def expRegs : List RegDef :=
  [⟨0x800, 0, 1, .plain, [⟨0, 1, .ro, 0⟩, ⟨1, 1, .ro, 0⟩, ⟨2, 1, .ro, 0⟩, ⟨3, 1, .w1c, 0⟩, ⟨4, 1, .w1c, 0⟩, ⟨5, 1, .w1c, 0⟩]⟩,
   ⟨0x804, 0, 1, .plain, [⟨0, 16, .ro, 0⟩]⟩,
   ⟨0x808, 0, 1, .plain, [⟨0, 22, .ro, 0⟩]⟩,
   ⟨0x810, 0, 1, .counter, []⟩,
   ⟨0x818, 0, 1, .counter, []⟩,
   ⟨0x820, 0, 1, .counter, []⟩,
   ⟨0x828, 0, 1, .counter, []⟩,
   ⟨0x830, 0, 1, .counter, []⟩,
   ⟨0x838, 0, 1, .counter, []⟩,
   ⟨0x840, 0, 1, .counter, []⟩,
   ⟨0x848, 0, 1, .counter, []⟩,
   ⟨0x900, 4, 16, .plain, [⟨0, 6, .ro, 0⟩, ⟨6, 4, .ro, 0⟩, ⟨10, 1, .ro, 0⟩]⟩]

/-- Registers of the MDC block. -/
def mdcRegs : List RegDef :=
  [⟨0x0, 0, 1, .plain, [⟨0, 3, .ro, 0⟩]⟩,
   ⟨0x10, 0, 1, .counter, []⟩,
   ⟨0x18, 0, 1, .counter, []⟩,
   ⟨0x20, 0, 1, .counter, []⟩]

/-- Registers of the CTAB block. -/
def ctabRegs : List RegDef :=
  [⟨0x0, 0, 1, .deferred, [⟨0, 8, .rw, 0x61⟩, ⟨8, 8, .rw, 0xa⟩]⟩,
   ⟨0x4, 0, 1, .plain, [⟨0, 7, .ro, 0⟩, ⟨7, 1, .w1c, 0⟩]⟩,
   ⟨0x8, 0, 1, .counter, []⟩,
   ⟨0x10, 0, 1, .counter, []⟩,
   ⟨0x100, 8, 64, .plain, [⟨0, 4, .ro, 0⟩, ⟨4, 2, .ro, 0⟩]⟩,
   ⟨0x104, 8, 64, .plain, [⟨0, 32, .ro, 0⟩]⟩]

/-- Registers of the ENC block. -/
def encRegs : List RegDef :=
  [⟨0x0, 0, 1, .plain, [⟨0, 1, .ro, 0⟩, ⟨1, 1, .ro, 0⟩]⟩,
   ⟨0x4, 0, 1, .plain, [⟨0, 16, .ro, 0⟩]⟩,
   ⟨0x8, 0, 1, .plain, [⟨0, 23, .ro, 0⟩]⟩,
   ⟨0x10, 0, 1, .counter, []⟩,
   ⟨0x18, 0, 1, .counter, []⟩,
   ⟨0x20, 0, 1, .counter, []⟩,
   ⟨0x28, 0, 1, .counter, []⟩,
   ⟨0x30, 0, 1, .counter, []⟩]

/-- Registers of the MOV block. -/
def movRegs : List RegDef :=
  [⟨0x0, 0, 1, .plain, [⟨0, 8, .ro, 0⟩]⟩,
   ⟨0x4, 0, 1, .plain, [⟨0, 22, .ro, 0⟩]⟩,
   ⟨0x10, 0, 1, .counter, []⟩,
   ⟨0x18, 0, 1, .counter, []⟩,
   ⟨0x20, 0, 1, .counter, []⟩,
   ⟨0x28, 0, 1, .counter, []⟩,
   ⟨0x30, 0, 1, .counter, []⟩,
   ⟨0x38, 0, 1, .counter, []⟩]

/-- Registers of the STK block. -/
def stkRegs : List RegDef :=
  [⟨0x0, 0, 1, .plain, [⟨0, 3, .ro, 0⟩, ⟨3, 8, .ro, 0⟩]⟩,
   ⟨0x4, 0, 1, .plain, [⟨0, 11, .ro, 0⟩]⟩,
   ⟨0x8, 0, 1, .plain, [⟨0, 11, .rc, 0⟩]⟩,
   ⟨0xc, 0, 1, .plain, [⟨0, 1, .ro, 0⟩, ⟨1, 1, .ro, 0⟩, ⟨2, 1, .w1c, 0⟩, ⟨3, 1, .w1c, 0⟩, ⟨4, 1, .w1c, 0⟩, ⟨5, 1, .ro, 0⟩, ⟨6, 7, .ro, 0x64⟩]⟩,
   ⟨0x10, 0, 1, .deferred, [⟨0, 7, .rw, 0⟩]⟩,
   ⟨0x14, 0, 1, .plain, [⟨0, 1, .rw, 1⟩, ⟨8, 8, .rw, 4⟩]⟩,
   ⟨0x20, 0, 1, .counter, []⟩,
   ⟨0x28, 0, 1, .counter, []⟩,
   ⟨0x30, 0, 1, .counter, []⟩,
   ⟨0x38, 0, 1, .counter, []⟩,
   ⟨0x100, 4, 16, .deferred, [⟨0, 7, .rw, 0⟩, ⟨8, 7, .rw, 0⟩]⟩,
   ⟨0x200, 16, 16, .counter, []⟩,
   ⟨0x208, 16, 16, .counter, []⟩]

/-- Registers of the CH block. -/
def chRegs : List RegDef :=
  [⟨0x0, 0, 1, .plain, [⟨0, 3, .ro, 0⟩, ⟨3, 1, .ro, 0⟩, ⟨4, 5, .ro, 0x1f⟩, ⟨9, 1, .ro, 0⟩, ⟨10, 5, .ro, 0⟩, ⟨15, 1, .ro, 0⟩, ⟨16, 1, .w1c, 0⟩]⟩,
   ⟨0x8, 0, 1, .plain, [⟨0, 1, .rw, 0⟩, ⟨1, 1, .rw, 0⟩, ⟨2, 1, .rw, 0⟩, ⟨3, 5, .rw, 0⟩, ⟨8, 4, .rw, 0⟩, ⟨12, 1, .rw, 0⟩, ⟨13, 5, .rw, 0⟩, ⟨18, 4, .rw, 0⟩]⟩,
   ⟨0xc, 0, 1, .plain, [⟨0, 8, .rw, 0⟩, ⟨8, 8, .rw, 0⟩, ⟨16, 16, .rw, 1⟩]⟩,
   ⟨0x10, 0, 1, .counter, []⟩,
   ⟨0x18, 0, 1, .counter, []⟩,
   ⟨0x20, 0, 1, .counter, []⟩,
   ⟨0x28, 0, 1, .counter, []⟩,
   ⟨0x30, 0, 1, .counter, []⟩,
   ⟨0x38, 0, 1, .counter, []⟩,
   ⟨0x100, 8, 18, .counter, []⟩,
   ⟨0x200, 4, 19, .plain, [⟨0, 8, .ro, 0⟩, ⟨8, 8, .ro, 0⟩, ⟨16, 1, .ro, 0⟩]⟩]

/-- Registers of the SEQ/GRID block. -/
def seqGridRegs : List RegDef :=
  [⟨0x0, 0, 1, .deferred, [⟨12, 20, .rw, 0⟩]⟩,
   ⟨0x4, 0, 1, .deferred, [⟨0, 15, .rw, 0⟩]⟩,
   ⟨0x8, 0, 1, .plain, [⟨0, 1, .ro, 0⟩, ⟨1, 1, .ro, 0⟩, ⟨2, 8, .ro, 0⟩]⟩,
   ⟨0xc, 0, 1, .plain, [⟨0, 20, .ro, 0⟩]⟩,
   ⟨0x10, 0, 1, .deferred, [⟨0, 20, .rw, 0⟩]⟩,
   ⟨0x14, 0, 1, .plain, [⟨0, 1, .w1c, 0⟩, ⟨1, 1, .w1c, 0⟩, ⟨2, 1, .w1c, 0⟩, ⟨3, 1, .w1c, 0⟩, ⟨4, 1, .w1c, 0⟩, ⟨5, 1, .w1c, 0⟩, ⟨6, 1, .w1c, 0⟩, ⟨7, 1, .w1c, 0⟩]⟩,
   ⟨0x18, 0, 1, .plain, [⟨0, 20, .ro, 0⟩]⟩,
   ⟨0x1c, 0, 1, .deferred, [⟨0, 4, .rw, 0⟩]⟩,
   ⟨0x100, 4, 32, .plain, [⟨0, 16, .ro, 0⟩, ⟨16, 16, .ro, 0⟩]⟩,
   ⟨0x180, 4, 16, .plain, [⟨0, 16, .ro, 0⟩, ⟨16, 16, .ro, 0⟩]⟩,
   ⟨0x200, 4, 32, .grid, [⟨0, 8, .rw, 0⟩, ⟨8, 8, .rw, 0⟩, ⟨16, 8, .rw, 0⟩, ⟨24, 8, .rw, 0⟩]⟩]

/-- The registers of a block. -/
def Blk.regs : Blk → List RegDef
  | .boot => bootRegs
  | .pwr => pwrRegs
  | .jsp => jspRegs
  | .hq => hqRegs
  | .hqq => hqqRegs
  | .part => partRegs
  | .partp => partpRegs
  | .obj => objRegs
  | .sec => secRegs
  | .garnet => garnetRegs
  | .topo => topoRegs
  | .lnk => lnkRegs
  | .fch => fchRegs
  | .onyx => onyxRegs
  | .cdc => cdcRegs
  | .clc => clcRegs
  | .guard => guardRegs
  | .vec => vecRegs
  | .eng => engRegs
  | .exp => expRegs
  | .mdc => mdcRegs
  | .ctab => ctabRegs
  | .enc => encRegs
  | .mov => movRegs
  | .stk => stkRegs
  | .ch => chRegs
  | .seqGrid => seqGridRegs

/-- The block that holds an offset, and the block's base (R439 to R441, the decoding of chapter 17). -/
def decodeBlk (a : Nat) : Option (Blk × Nat) :=
  if a < 0x10000 then some (.boot, 0)
  else if a < 0x20000 then some (.pwr, 0x10000)
  else if a < 0x30000 then some (.jsp, 0x20000)
  else if a < 0x40000 then
    if 0x31000 ≤ a ∧ a < 0x33000 then some (.hqq, 0x31000 + 0x20 * ((a - 0x31000) / 0x20)) else some (.hq, 0x30000)
  else if a < 0x41000 then some (.part, 0x40000)
  else if a < 0x42000 then some (.partp, 0x41000 + 0x100 * ((a - 0x41000) / 0x100))
  else if a < 0x50000 then none
  else if a < 0x60000 then some (.obj, 0x50000)
  else if a < 0x70000 then some (.sec, 0x60000)
  else if a < 0x80000 then some (.garnet, 0x70000)
  else if a < 0x90000 then some (.topo, 0x80000)
  else if a < 0x100000 then none
  else if a < 0x200000 then some (.lnk, 0x10000 * (a / 0x10000))
  else if a < 0x210000 then some (.fch, 0x1000 * (a / 0x1000))
  else if a < 0x240000 then none
  else if a < 0x250000 then some (.onyx, 0x240000)
  else if a < 0x01000000 then none
  else if a < 0x09000000 then
    let d := (a - 0x01000000) / 0x02000000
    let o := (a - 0x01000000) % 0x02000000
    if o < 0x01000000 then (if o < 0x1000 then some (.cdc, dieBase d) else none)
    else
      let c := (o - 0x01000000) / 0x00100000
      let o := (o - 0x01000000) % 0x00100000
      let k := 16 * d + c
      if o < 0x1000 then some (.clc, clusterBase k)
      else if o < 0x2000 then some (.guard, clusterBase k + 0x1000)
      else if o < 0x00020000 ∨ 0x000A0000 ≤ o then none
      else
        let core := 8 * k + (o - 0x00020000) / 0x00010000
        let o := o % 0x00010000
        if o < 0x1000 then some (.seqGrid, coreBase core)
        else if o < 0x2000 then some (.vec, coreBase core + 0x1000)
        else if o < 0x4000 ∨ 0x8000 ≤ o then none
        else
          let e := (o - 0x4000) / 0x1000
          let o := o % 0x1000
          if o < 0x800 then some (.eng, engBase (4 * core + e)) else some (.exp, engBase (4 * core + e))
  else if a < 0x0D000000 then
    let m := (a - 0x09000000) / 0x01000000
    let o := (a - 0x09000000) % 0x01000000
    if 0x00C00000 ≤ o then
      let o := o - 0x00C00000
      if o < 0x1000 then some (.mdc, memDieBase m + 0xC00000)
      else if o < 0x2000 then (if m = 0 then some (.ctab, 0x09C01000) else none)
      else if o < 0x3000 then some (.enc, memDieBase m + 0xC02000)
      else if o < 0x4000 then some (.mov, memDieBase m + 0xC03000)
      else none
    else
      let s := 3 * m + o / 0x00400000
      let o := o % 0x00400000
      if o < 0x00010000 then some (.stk, stackBase s)
      else if o < 0x00050000 then some (.ch, channelBase (128 * s + (o - 0x00010000) / 0x0800))
      else none
  else none

/-- Index of the word at offset `o` within a register array, if `o` is one of its words (the low word, for a counter). -/
def RegDef.indexOf (r : RegDef) (o : Nat) : Option Nat :=
  if r.count = 1 then (if o = r.off then some 0 else none)
  else if r.off ≤ o ∧ (o - r.off) % r.stride = 0 ∧ (o - r.off) / r.stride < r.count then some ((o - r.off) / r.stride)
  else none

/-- What a word address names. -/
inductive RegAt
  | none
  | word (b : Blk) (r : RegDef) (i : Nat)
  | counterLo
  | counterHi (lowAddr : Nat)
  deriving DecidableEq, Repr

/-- The register at word address `a` (R12: none where no register lies). -/
def regAt (a : Nat) : RegAt :=
  match decodeBlk a with
  | Option.none => .none
  | some (b, base) =>
    let o := a - base
    match b.regs.find? fun r => (r.indexOf o).isSome with
    | some r => if r.kind = .counter then .counterLo else .word b r ((r.indexOf o).getD 0)
    | Option.none =>
      if 4 ≤ o ∧ b.regs.any (fun r => r.kind == .counter && (r.indexOf (o - 4)).isSome) then .counterHi (a - 4) else .none

/-- The Opal words of a grid slot (R68). -/
def opalWord (w : Nat) : BitVec 32 :=
  match w with
  | 0 => 0xD1C0A981#32
  | 1 => 0x00F6EBDF#32
  | 2 => 0x2A1E1309#32
  | _ => 0x7F5F4938#32

/-- The reset word of a register (R15), from its fields' reset values. -/
def RegDef.resetWord (r : RegDef) (i : Nat) : BitVec 32 :=
  if r.kind = .grid then opalWord (i % 4)
  else r.fields.foldl (fun x f => bvSet f.lo f.w x f.rst) 0#32

/-- CLC.ID as it is wired: the global cluster, and its die in bits [7:6] (R444). -/
def wiredId (a : Nat) : BitVec 32 :=
  let k := 16 * ((a - 0x02000000) / 0x02000000) + (a - 0x02000000) % 0x02000000 / 0x00100000
  BitVec.ofNat 32 (k + 64 * (k / 16))

/-- The reset word at word address `a` (R15). -/
def resetWord (a : Nat) : BitVec 32 :=
  match regAt a with
  | .word .clc r i => if r.off = 4 then wiredId a else r.resetWord i
  | .word _ r i => r.resetWord i
  | _ => 0#32

/-- A field: its register's word address, lowest bit and width. -/
structure Fld where
  addr : Nat
  lo   : Nat
  w    : Nat
  deriving DecidableEq, Repr

end Sys2Proof.Machine
end

