-- ==== Sys2Proof/Machine/Fields.lean ====
section
/-! DEFINITION. The fields of every BAR0 register by the spec's names (Fld), the registers' word addresses (Rg) and the low
addresses of the 48-bit counters (Ct). PARTN and HQ_Q name the per-partition and per-queue registers. -/

namespace Sys2Proof.Machine

/-- GARNET.CTRL (R58). -/
def Rg.GARNET_CTRL : Nat := 0x70000 + 0x0
/-- GARNET.PERIOD (R58). -/
def Rg.GARNET_PERIOD : Nat := 0x70000 + 0x4
/-- GARNET.GROUP (R58). -/
def Rg.GARNET_GROUP : Nat := 0x70000 + 0x8
/-- GARNET.START_TICK (R58). -/
def Rg.GARNET_START_TICK : Nat := 0x70000 + 0x10
/-- GARNET.TICK (R58). -/
def Rg.GARNET_TICK : Nat := 0x70000 + 0x14
/-- GARNET.STATUS (R58). -/
def Rg.GARNET_STATUS : Nat := 0x70000 + 0x18
/-- GARNET.EVENTS (R58). -/
def Rg.GARNET_EVENTS : Nat := 0x70000 + 0x1c
/-- GARNET.MAX_OVERRUN_US (R58). -/
def Rg.GARNET_MAX_OVERRUN_US : Nat := 0x70000 + 0x50
/-- GARNET.TOKENS_HELD (R58). -/
def Rg.GARNET_TOKENS_HELD (i : Nat) : Nat := 0x70000 + 0x100 + 4 * i
/-- GARNET.MEMBERS (R58). -/
def Rg.GARNET_MEMBERS (i : Nat) : Nat := 0x70000 + 0x200 + 4 * i
/-- SEQ.PROG_BASE_LO (R59). -/
def Rg.SEQ_PROG_BASE_LO (c : Nat) : Nat := coreBase c + 0x0
/-- SEQ.PROG_BASE_HI (R59). -/
def Rg.SEQ_PROG_BASE_HI (c : Nat) : Nat := coreBase c + 0x4
/-- SEQ.STATUS (R59). -/
def Rg.SEQ_STATUS (c : Nat) : Nat := coreBase c + 0x8
/-- SEQ.PC (R59). -/
def Rg.SEQ_PC (c : Nat) : Nat := coreBase c + 0xc
/-- SEQ.HANG_LIMIT (R59). -/
def Rg.SEQ_HANG_LIMIT (c : Nat) : Nat := coreBase c + 0x10
/-- SEQ.ERROR (R59). -/
def Rg.SEQ_ERROR (c : Nat) : Nat := coreBase c + 0x14
/-- SEQ.ERROR_PC (R59). -/
def Rg.SEQ_ERROR_PC (c : Nat) : Nat := coreBase c + 0x18
/-- SEQ.PARTITION (R59). -/
def Rg.SEQ_PARTITION (c : Nat) : Nat := coreBase c + 0x1c
/-- SEQ.TOKEN (R59). -/
def Rg.SEQ_TOKEN (c : Nat) (i : Nat) : Nat := coreBase c + 0x100 + 4 * i
/-- SEQ.CREDIT (R59). -/
def Rg.SEQ_CREDIT (c : Nat) (i : Nat) : Nat := coreBase c + 0x180 + 4 * i
/-- ENG.CTRL (R114). -/
def Rg.ENG_CTRL (g : Nat) : Nat := engBase g + 0x0
/-- ENG.STATUS (R114). -/
def Rg.ENG_STATUS (g : Nat) : Nat := engBase g + 0x4
/-- ENG.LFSR_SEED (R114). -/
def Rg.ENG_LFSR_SEED (g : Nat) : Nat := engBase g + 0x8
/-- ENG.LFSR_STATE (R114). -/
def Rg.ENG_LFSR_STATE (g : Nat) : Nat := engBase g + 0xc
/-- ENG.MAX_SHIFT (R114). -/
def Rg.ENG_MAX_SHIFT (g : Nat) : Nat := engBase g + 0x10
/-- VEC.STATUS (R141). -/
def Rg.VEC_STATUS (c : Nat) : Nat := (coreBase c + 0x1000) + 0x0
/-- VEC.RNG_KEY_LO (R141). -/
def Rg.VEC_RNG_KEY_LO (c : Nat) : Nat := (coreBase c + 0x1000) + 0x8
/-- VEC.RNG_KEY_HI (R141). -/
def Rg.VEC_RNG_KEY_HI (c : Nat) : Nat := (coreBase c + 0x1000) + 0xc
/-- VEC.LINK_CH_A (R141). -/
def Rg.VEC_LINK_CH_A (c : Nat) (i : Nat) : Nat := (coreBase c + 0x1000) + 0x200 + 8 * i
/-- VEC.LINK_CH_B (R141). -/
def Rg.VEC_LINK_CH_B (c : Nat) (i : Nat) : Nat := (coreBase c + 0x1000) + 0x204 + 8 * i
/-- GUARD.CTRL (R162). -/
def Rg.GUARD_CTRL (k : Nat) : Nat := (clusterBase k + 0x1000) + 0x0
/-- GUARD.STATUS (R162). -/
def Rg.GUARD_STATUS (k : Nat) : Nat := (clusterBase k + 0x1000) + 0x4
/-- GUARD.TABLE_BASE_LO (R162). -/
def Rg.GUARD_TABLE_BASE_LO (k : Nat) : Nat := (clusterBase k + 0x1000) + 0x8
/-- GUARD.TABLE_BASE_HI (R162). -/
def Rg.GUARD_TABLE_BASE_HI (k : Nat) : Nat := (clusterBase k + 0x1000) + 0xc
/-- GUARD.MARGIN (R162). -/
def Rg.GUARD_MARGIN (k : Nat) : Nat := (clusterBase k + 0x1000) + 0x10
/-- GUARD.MARGIN_LEFT (R162). -/
def Rg.GUARD_MARGIN_LEFT (k : Nat) : Nat := (clusterBase k + 0x1000) + 0x14
/-- GUARD.WINDOW (R162). -/
def Rg.GUARD_WINDOW (k : Nat) : Nat := (clusterBase k + 0x1000) + 0x18
/-- GUARD.SLOT_SELECT (R162). -/
def Rg.GUARD_SLOT_SELECT (k : Nat) : Nat := (clusterBase k + 0x1000) + 0x1c
/-- GUARD.SLOT_STATE (R162). -/
def Rg.GUARD_SLOT_STATE (k : Nat) : Nat := (clusterBase k + 0x1000) + 0x20
/-- GUARD.SLOT_ROWS (R162). -/
def Rg.GUARD_SLOT_ROWS (k : Nat) : Nat := (clusterBase k + 0x1000) + 0x24
/-- GUARD.SLOT_SAT (R162). -/
def Rg.GUARD_SLOT_SAT (k : Nat) (i : Nat) : Nat := (clusterBase k + 0x1000) + 0x30 + 4 * i
/-- GUARD.BIN (R162). -/
def Rg.GUARD_BIN (k : Nat) (i : Nat) : Nat := (clusterBase k + 0x1000) + 0x40 + 4 * i
/-- EXP.STATUS (R188). -/
def Rg.EXP_STATUS (g : Nat) : Nat := engBase g + 0x800
/-- EXP.CUR_OBJECT (R188). -/
def Rg.EXP_CUR_OBJECT (g : Nat) : Nat := engBase g + 0x804
/-- EXP.CUR_TILE (R188). -/
def Rg.EXP_CUR_TILE (g : Nat) : Nat := engBase g + 0x808
/-- EXP.CACHE (R188). -/
def Rg.EXP_CACHE (g : Nat) (i : Nat) : Nat := engBase g + 0x900 + 4 * i
/-- CTAB.CTRL (R189). -/
def Rg.CTAB_CTRL : Nat := 0x09C01000 + 0x0
/-- CTAB.STATUS (R189). -/
def Rg.CTAB_STATUS : Nat := 0x09C01000 + 0x4
/-- CTAB.ID_STATE (R189). -/
def Rg.CTAB_ID_STATE (i : Nat) : Nat := 0x09C01000 + 0x100 + 8 * i
/-- CTAB.ID_REFS (R189). -/
def Rg.CTAB_ID_REFS (i : Nat) : Nat := 0x09C01000 + 0x104 + 8 * i
/-- ENC.STATUS (R189). -/
def Rg.ENC_STATUS (m : Nat) : Nat := (memDieBase m + 0xC02000) + 0x0
/-- ENC.OBJECT (R189). -/
def Rg.ENC_OBJECT (m : Nat) : Nat := (memDieBase m + 0xC02000) + 0x4
/-- ENC.SEGMENT (R189). -/
def Rg.ENC_SEGMENT (m : Nat) : Nat := (memDieBase m + 0xC02000) + 0x8
/-- CH.STATUS (R221). -/
def Rg.CH_STATUS (ch : Nat) : Nat := channelBase ch + 0x0
/-- CH.INJ_CTRL (R221). -/
def Rg.CH_INJ_CTRL (ch : Nat) : Nat := channelBase ch + 0x8
/-- CH.INJ_PATTERN (R221). -/
def Rg.CH_INJ_PATTERN (ch : Nat) : Nat := channelBase ch + 0xc
/-- CH.EYE (R221). -/
def Rg.CH_EYE (ch : Nat) (i : Nat) : Nat := channelBase ch + 0x200 + 4 * i
/-- STK.STATUS (R222). -/
def Rg.STK_STATUS (st : Nat) : Nat := stackBase st + 0x0
/-- STK.TEMP (R222). -/
def Rg.STK_TEMP (st : Nat) : Nat := stackBase st + 0x4
/-- STK.TEMP_MAX (R222). -/
def Rg.STK_TEMP_MAX (st : Nat) : Nat := stackBase st + 0x8
/-- STK.THERM (R222). -/
def Rg.STK_THERM (st : Nat) : Nat := stackBase st + 0xc
/-- STK.LIMIT (R222). -/
def Rg.STK_LIMIT (st : Nat) : Nat := stackBase st + 0x10
/-- STK.SCRUB (R222). -/
def Rg.STK_SCRUB (st : Nat) : Nat := stackBase st + 0x14
/-- STK.REG_PART (R222). -/
def Rg.STK_REG_PART (st : Nat) (i : Nat) : Nat := stackBase st + 0x100 + 4 * i
/-- OBJ.CTRL (R252). -/
def Rg.OBJ_CTRL : Nat := 0x50000 + 0x0
/-- OBJ.STATUS (R252). -/
def Rg.OBJ_STATUS : Nat := 0x50000 + 0x4
/-- OBJ.SELECT (R252). -/
def Rg.OBJ_SELECT : Nat := 0x50000 + 0x8
/-- OBJ.POISON_WAIT (R252). -/
def Rg.OBJ_POISON_WAIT : Nat := 0x50000 + 0xc
/-- OBJ.WATERMARK (R252). -/
def Rg.OBJ_WATERMARK : Nat := 0x50000 + 0x10
/-- OBJ.ENTRY (R252). -/
def Rg.OBJ_ENTRY (i : Nat) : Nat := 0x50000 + 0x20 + 4 * i
/-- OBJ.FRAMES_FREE (R252). -/
def Rg.OBJ_FRAMES_FREE : Nat := 0x50000 + 0x40
/-- OBJ.HOST_PAGES_FREE (R252). -/
def Rg.OBJ_HOST_PAGES_FREE : Nat := 0x50000 + 0x44
/-- OBJ.QUOTA_STACK (R252). -/
def Rg.OBJ_QUOTA_STACK (i : Nat) : Nat := 0x50000 + 0x100 + 16 * i
/-- OBJ.QUOTA_HOST (R252). -/
def Rg.OBJ_QUOTA_HOST (i : Nat) : Nat := 0x50000 + 0x104 + 16 * i
/-- OBJ.QUOTA_FLASH (R252). -/
def Rg.OBJ_QUOTA_FLASH (i : Nat) : Nat := 0x50000 + 0x108 + 16 * i
/-- OBJ.USE_STACK (R252). -/
def Rg.OBJ_USE_STACK (i : Nat) : Nat := 0x50000 + 0x200 + 16 * i
/-- OBJ.USE_HOST (R252). -/
def Rg.OBJ_USE_HOST (i : Nat) : Nat := 0x50000 + 0x204 + 16 * i
/-- OBJ.USE_FLASH (R252). -/
def Rg.OBJ_USE_FLASH (i : Nat) : Nat := 0x50000 + 0x208 + 16 * i
/-- MOV.STATUS (R253). -/
def Rg.MOV_STATUS (m : Nat) : Nat := (memDieBase m + 0xC03000) + 0x0
/-- MOV.FRAMES_FREE (R253). -/
def Rg.MOV_FRAMES_FREE (m : Nat) : Nat := (memDieBase m + 0xC03000) + 0x4
/-- FCH.STATUS (R282). -/
def Rg.FCH_STATUS (n : Nat) : Nat := (0x200000 + 0x1000 * n) + 0x0
/-- FCH.GEOMETRY (R282). -/
def Rg.FCH_GEOMETRY (n : Nat) : Nat := (0x200000 + 0x1000 * n) + 0x4
/-- FCH.BLOCKS (R282). -/
def Rg.FCH_BLOCKS (n : Nat) : Nat := (0x200000 + 0x1000 * n) + 0x8
/-- FCH.TIMING (R282). -/
def Rg.FCH_TIMING (n : Nat) : Nat := (0x200000 + 0x1000 * n) + 0xc
/-- FCH.LUN_OK (R282). -/
def Rg.FCH_LUN_OK (n : Nat) : Nat := (0x200000 + 0x1000 * n) + 0x10
/-- ONYX.CMD (R283). -/
def Rg.ONYX_CMD : Nat := 0x240000 + 0x0
/-- ONYX.STATUS (R283). -/
def Rg.ONYX_STATUS : Nat := 0x240000 + 0x4
/-- ONYX.EPOCH_LO (R283). -/
def Rg.ONYX_EPOCH_LO : Nat := 0x240000 + 0x8
/-- ONYX.EPOCH_HI (R283). -/
def Rg.ONYX_EPOCH_HI : Nat := 0x240000 + 0xc
/-- ONYX.RD_LIMIT (R283). -/
def Rg.ONYX_RD_LIMIT : Nat := 0x240000 + 0x10
/-- ONYX.WEAR (R283). -/
def Rg.ONYX_WEAR : Nat := 0x240000 + 0x14
/-- ONYX.ECC_POLICY (R283). -/
def Rg.ONYX_ECC_POLICY : Nat := 0x240000 + 0x18
/-- ONYX.RESERVE (R283). -/
def Rg.ONYX_RESERVE : Nat := 0x240000 + 0x1c
/-- ONYX.PATROL (R283). -/
def Rg.ONYX_PATROL : Nat := 0x240000 + 0x20
/-- ONYX.BANDS (R283). -/
def Rg.ONYX_BANDS : Nat := 0x240000 + 0x24
/-- ONYX.BANDS_FREE (R283). -/
def Rg.ONYX_BANDS_FREE : Nat := 0x240000 + 0x28
/-- ONYX.RD_BACKLOG (R283). -/
def Rg.ONYX_RD_BACKLOG : Nat := 0x240000 + 0x2c
/-- ONYX.ERASE_RANGE (R283). -/
def Rg.ONYX_ERASE_RANGE : Nat := 0x240000 + 0x30
/-- ONYX.MOUNT_MS (R283). -/
def Rg.ONYX_MOUNT_MS : Nat := 0x240000 + 0x34
/-- LNK.CTRL (R310). -/
def Rg.LNK_CTRL (p : Nat) : Nat := (0x100000 + 0x10000 * p) + 0x0
/-- LNK.STATUS (R310). -/
def Rg.LNK_STATUS (p : Nat) : Nat := (0x100000 + 0x10000 * p) + 0x4
/-- LNK.LANES (R310). -/
def Rg.LNK_LANES (p : Nat) : Nat := (0x100000 + 0x10000 * p) + 0x8
/-- LNK.PEER (R310). -/
def Rg.LNK_PEER (p : Nat) : Nat := (0x100000 + 0x10000 * p) + 0xc
/-- LNK.INJ_CTRL (R310). -/
def Rg.LNK_INJ_CTRL (p : Nat) : Nat := (0x100000 + 0x10000 * p) + 0x10
/-- LNK.INJ_N (R310). -/
def Rg.LNK_INJ_N (p : Nat) : Nat := (0x100000 + 0x10000 * p) + 0x14
/-- LNK.INJ_XOR (R310). -/
def Rg.LNK_INJ_XOR (p : Nat) : Nat := (0x100000 + 0x10000 * p) + 0x18
/-- LNK.HOLD_USED (R310). -/
def Rg.LNK_HOLD_USED (p : Nat) : Nat := (0x100000 + 0x10000 * p) + 0x1c
/-- TOPO.SHAPE (R327). -/
def Rg.TOPO_SHAPE : Nat := 0x80000 + 0x0
/-- TOPO.CTRL (R327). -/
def Rg.TOPO_CTRL : Nat := 0x80000 + 0x4
/-- TOPO.AGATE_STATUS (R327). -/
def Rg.TOPO_AGATE_STATUS : Nat := 0x80000 + 0x8
/-- TOPO.AGATE_CMD (R327). -/
def Rg.TOPO_AGATE_CMD : Nat := 0x80000 + 0xc
/-- TOPO.OPEN_RINGS (R327). -/
def Rg.TOPO_OPEN_RINGS : Nat := 0x80000 + 0x10
/-- TOPO.OPEN_COLUMNS (R327). -/
def Rg.TOPO_OPEN_COLUMNS : Nat := 0x80000 + 0x14
/-- TOPO.LAST_LOSS (R327). -/
def Rg.TOPO_LAST_LOSS : Nat := 0x80000 + 0x18
/-- TOPO.LAST_LOSS_TICK (R327). -/
def Rg.TOPO_LAST_LOSS_TICK : Nat := 0x80000 + 0x1c
/-- TOPO.MEMBER_STATE (R327). -/
def Rg.TOPO_MEMBER_STATE (i : Nat) : Nat := 0x80000 + 0x100 + 4 * i
/-- HQ.LINK (R359). -/
def Rg.HQ_LINK : Nat := 0x30000 + 0x0
/-- HQ.APERTURE (R359). -/
def Rg.HQ_APERTURE : Nat := 0x30000 + 0x4
/-- HQ.SQ_BASE_LO (R359). -/
def Rg.HQ_SQ_BASE_LO (q : Nat) : Nat := (0x31000 + 0x20 * q) + 0x0
/-- HQ.SQ_BASE_HI (R359). -/
def Rg.HQ_SQ_BASE_HI (q : Nat) : Nat := (0x31000 + 0x20 * q) + 0x4
/-- HQ.CQ_BASE_LO (R359). -/
def Rg.HQ_CQ_BASE_LO (q : Nat) : Nat := (0x31000 + 0x20 * q) + 0x8
/-- HQ.CQ_BASE_HI (R359). -/
def Rg.HQ_CQ_BASE_HI (q : Nat) : Nat := (0x31000 + 0x20 * q) + 0xc
/-- HQ.Q_CFG (R359). -/
def Rg.HQ_Q_CFG (q : Nat) : Nat := (0x31000 + 0x20 * q) + 0x10
/-- HQ.Q_STATUS (R359). -/
def Rg.HQ_Q_STATUS (q : Nat) : Nat := (0x31000 + 0x20 * q) + 0x14
/-- HQ.Q_HEADS (R359). -/
def Rg.HQ_Q_HEADS (q : Nat) : Nat := (0x31000 + 0x20 * q) + 0x18
/-- HQ.COALESCE (R359). -/
def Rg.HQ_COALESCE (i : Nat) : Nat := 0x30000 + 0x3000 + 4 * i
/-- PART.STEP_OBJECT (R360). -/
def Rg.PART_STEP_OBJECT : Nat := 0x40000 + 0x0
/-- PART.PREFILL_BUDGET (R360). -/
def Rg.PART_PREFILL_BUDGET : Nat := 0x40000 + 0x4
/-- PART.SESSIONS (R360). -/
def Rg.PART_SESSIONS : Nat := 0x40000 + 0x8
/-- PART.PREFILL_FREE (R360). -/
def Rg.PART_PREFILL_FREE : Nat := 0x40000 + 0xc
/-- PART.CTRL (R360). -/
def Rg.PARTN_CTRL (p : Nat) : Nat := (0x41000 + 0x100 * p) + 0x0
/-- PART.STATUS (R360). -/
def Rg.PARTN_STATUS (p : Nat) : Nat := (0x41000 + 0x100 * p) + 0x4
/-- PART.OUT_BASE_LO (R360). -/
def Rg.PARTN_OUT_BASE_LO (p : Nat) : Nat := (0x41000 + 0x100 * p) + 0x8
/-- PART.OUT_BASE_HI (R360). -/
def Rg.PARTN_OUT_BASE_HI (p : Nat) : Nat := (0x41000 + 0x100 * p) + 0xc
/-- PART.OUT_CFG (R360). -/
def Rg.PARTN_OUT_CFG (p : Nat) : Nat := (0x41000 + 0x100 * p) + 0x10
/-- PART.OUT_PROD (R360). -/
def Rg.PARTN_OUT_PROD (p : Nat) : Nat := (0x41000 + 0x100 * p) + 0x14
/-- PART.OUT_CONS (R360). -/
def Rg.PARTN_OUT_CONS (p : Nat) : Nat := (0x41000 + 0x100 * p) + 0x18
/-- PART.OUT_PI_LO (R360). -/
def Rg.PARTN_OUT_PI_LO (p : Nat) : Nat := (0x41000 + 0x100 * p) + 0x1c
/-- PART.OUT_PI_HI (R360). -/
def Rg.PARTN_OUT_PI_HI (p : Nat) : Nat := (0x41000 + 0x100 * p) + 0x20
/-- PART.EVT_BASE_LO (R360). -/
def Rg.PARTN_EVT_BASE_LO (p : Nat) : Nat := (0x41000 + 0x100 * p) + 0x24
/-- PART.EVT_BASE_HI (R360). -/
def Rg.PARTN_EVT_BASE_HI (p : Nat) : Nat := (0x41000 + 0x100 * p) + 0x28
/-- PART.EVT_CFG (R360). -/
def Rg.PARTN_EVT_CFG (p : Nat) : Nat := (0x41000 + 0x100 * p) + 0x2c
/-- PART.EVT_PROD (R360). -/
def Rg.PARTN_EVT_PROD (p : Nat) : Nat := (0x41000 + 0x100 * p) + 0x30
/-- PART.EVT_CONS (R360). -/
def Rg.PARTN_EVT_CONS (p : Nat) : Nat := (0x41000 + 0x100 * p) + 0x34
/-- PART.EVT_PI_LO (R360). -/
def Rg.PARTN_EVT_PI_LO (p : Nat) : Nat := (0x41000 + 0x100 * p) + 0x38
/-- PART.EVT_PI_HI (R360). -/
def Rg.PARTN_EVT_PI_HI (p : Nat) : Nat := (0x41000 + 0x100 * p) + 0x3c
/-- PART.HPT_BASE_LO (R360). -/
def Rg.PARTN_HPT_BASE_LO (p : Nat) : Nat := (0x41000 + 0x100 * p) + 0x40
/-- PART.HPT_BASE_HI (R360). -/
def Rg.PARTN_HPT_BASE_HI (p : Nat) : Nat := (0x41000 + 0x100 * p) + 0x44
/-- PART.HPT_COUNT (R360). -/
def Rg.PARTN_HPT_COUNT (p : Nat) : Nat := (0x41000 + 0x100 * p) + 0x48
/-- PART.APERTURE (R360). -/
def Rg.PARTN_APERTURE (p : Nat) : Nat := (0x41000 + 0x100 * p) + 0x4c
/-- BOOT.ID (R393). -/
def Rg.BOOT_ID : Nat := 0 + 0x0
/-- BOOT.REV (R393). -/
def Rg.BOOT_REV : Nat := 0 + 0x4
/-- BOOT.CAPACITY (R393). -/
def Rg.BOOT_CAPACITY : Nat := 0 + 0x8
/-- BOOT.ROM (R393). -/
def Rg.BOOT_ROM : Nat := 0 + 0xc
/-- BOOT.SERIAL_LO (R393). -/
def Rg.BOOT_SERIAL_LO : Nat := 0 + 0x10
/-- BOOT.SERIAL_HI (R393). -/
def Rg.BOOT_SERIAL_HI : Nat := 0 + 0x14
/-- BOOT.STATE (R393). -/
def Rg.BOOT_STATE : Nat := 0 + 0x18
/-- BOOT.RESET_CAUSE (R393). -/
def Rg.BOOT_RESET_CAUSE : Nat := 0 + 0x1c
/-- BOOT.RESET_CTRL (R393). -/
def Rg.BOOT_RESET_CTRL : Nat := 0 + 0x20
/-- BOOT.TEST (R393). -/
def Rg.BOOT_TEST : Nat := 0 + 0x24
/-- BOOT.READY_MS (R393). -/
def Rg.BOOT_READY_MS : Nat := 0 + 0x28
/-- BOOT.SELF_TEST (R393). -/
def Rg.BOOT_SELF_TEST : Nat := 0 + 0x2c
/-- BOOT.IMAGE_SVN (R393). -/
def Rg.BOOT_IMAGE_SVN : Nat := 0 + 0x30
/-- BOOT.MIN_SVN (R393). -/
def Rg.BOOT_MIN_SVN : Nat := 0 + 0x34
/-- SEC.CMD (R394). -/
def Rg.SEC_CMD : Nat := 0x60000 + 0x0
/-- SEC.STATUS (R394). -/
def Rg.SEC_STATUS : Nat := 0x60000 + 0x4
/-- SEC.REQ_LEN (R394). -/
def Rg.SEC_REQ_LEN : Nat := 0x60000 + 0x8
/-- SEC.RSP_LEN (R394). -/
def Rg.SEC_RSP_LEN : Nat := 0x60000 + 0xc
/-- SEC.MR (R394). -/
def Rg.SEC_MR (i : Nat) : Nat := 0x60000 + 0x100 + 4 * i
/-- SEC.BUFFER (R394). -/
def Rg.SEC_BUFFER (i : Nat) : Nat := 0x60000 + 0x4000 + 4 * i
/-- PWR.CTRL (R418). -/
def Rg.PWR_CTRL : Nat := 0x10000 + 0x0
/-- PWR.STATUS (R418). -/
def Rg.PWR_STATUS : Nat := 0x10000 + 0x4
/-- PWR.WAKE_TOL (R418). -/
def Rg.PWR_WAKE_TOL : Nat := 0x10000 + 0x8
/-- PWR.CAP (R418). -/
def Rg.PWR_CAP : Nat := 0x10000 + 0xc
/-- PWR.POWER (R418). -/
def Rg.PWR_POWER : Nat := 0x10000 + 0x10
/-- PWR.EVENTS (R418). -/
def Rg.PWR_EVENTS : Nat := 0x10000 + 0x14
/-- PWR.SENSOR_SELECT (R418). -/
def Rg.PWR_SENSOR_SELECT : Nat := 0x10000 + 0x18
/-- PWR.SENSOR (R418). -/
def Rg.PWR_SENSOR : Nat := 0x10000 + 0x1c
/-- PWR.FREQ (R418). -/
def Rg.PWR_FREQ (i : Nat) : Nat := 0x10000 + 0x40 + 4 * i
/-- PWR.FREQ_NOW (R418). -/
def Rg.PWR_FREQ_NOW (i : Nat) : Nat := 0x10000 + 0x60 + 4 * i
/-- PWR.VOLT (R418). -/
def Rg.PWR_VOLT (i : Nat) : Nat := 0x10000 + 0x80 + 4 * i
/-- JSP.CTRL (R438). -/
def Rg.JSP_CTRL : Nat := 0x20000 + 0x0
/-- JSP.STATUS (R438). -/
def Rg.JSP_STATUS : Nat := 0x20000 + 0x4
/-- JSP.NEXT_SEQ (R438). -/
def Rg.JSP_NEXT_SEQ : Nat := 0x20000 + 0x8
/-- JSP.OLDEST_SRAM (R438). -/
def Rg.JSP_OLDEST_SRAM : Nat := 0x20000 + 0xc
/-- JSP.OLDEST_VAULT (R438). -/
def Rg.JSP_OLDEST_VAULT : Nat := 0x20000 + 0x10
/-- JSP.JOURNALLED (R438). -/
def Rg.JSP_JOURNALLED : Nat := 0x20000 + 0x14
/-- JSP.READ_SEQ (R438). -/
def Rg.JSP_READ_SEQ : Nat := 0x20000 + 0x18
/-- JSP.READ_STATUS (R438). -/
def Rg.JSP_READ_STATUS : Nat := 0x20000 + 0x1c
/-- JSP.ENTRY (R438). -/
def Rg.JSP_ENTRY (i : Nat) : Nat := 0x20000 + 0x20 + 4 * i
/-- JSP.OP_SECONDS (R438). -/
def Rg.JSP_OP_SECONDS : Nat := 0x20000 + 0x40
/-- JSP.POWER_CYCLES (R438). -/
def Rg.JSP_POWER_CYCLES : Nat := 0x20000 + 0x44
/-- JSP.RATE (R438). -/
def Rg.JSP_RATE : Nat := 0x20000 + 0x48
/-- JSP.CTR_CLEAR (R438). -/
def Rg.JSP_CTR_CLEAR : Nat := 0x20000 + 0x4c
/-- JSP.WDOG_CTRL (R438). -/
def Rg.JSP_WDOG_CTRL : Nat := 0x20000 + 0x50
/-- JSP.WDOG_STATUS (R438). -/
def Rg.JSP_WDOG_STATUS : Nat := 0x20000 + 0x54
/-- JSP.WDOG_KICK (R438). -/
def Rg.JSP_WDOG_KICK : Nat := 0x20000 + 0x58
/-- CDC.STATUS (R444). -/
def Rg.CDC_STATUS (d : Nat) : Nat := dieBase d + 0x0
/-- CLC.STATUS (R444). -/
def Rg.CLC_STATUS (k : Nat) : Nat := clusterBase k + 0x0
/-- CLC.ID (R444). -/
def Rg.CLC_ID (k : Nat) : Nat := clusterBase k + 0x4
/-- MDC.STATUS (R444). -/
def Rg.MDC_STATUS (m : Nat) : Nat := (memDieBase m + 0xC00000) + 0x0
/-- GRID.GRID (R68). -/
def Rg.GRID_GRID (c : Nat) (i : Nat) : Nat := coreBase c + 0x200 + 4 * i

/-- GARNET.CTRL.ENABLE (R58). -/
def Fld.GARNET_CTRL_ENABLE : Fld := ⟨0x70000 + 0x0, 0, 1⟩
/-- GARNET.CTRL.PLANE_WIDE (R58). -/
def Fld.GARNET_CTRL_PLANE_WIDE : Fld := ⟨0x70000 + 0x0, 1, 1⟩
/-- GARNET.CTRL.WITHHOLD (R58). -/
def Fld.GARNET_CTRL_WITHHOLD : Fld := ⟨0x70000 + 0x0, 2, 1⟩
/-- GARNET.PERIOD.PERIOD_US (R58). -/
def Fld.GARNET_PERIOD_PERIOD_US : Fld := ⟨0x70000 + 0x4, 0, 16⟩
/-- GARNET.GROUP.GROUP_ID (R58). -/
def Fld.GARNET_GROUP_GROUP_ID : Fld := ⟨0x70000 + 0x8, 0, 16⟩
/-- GARNET.GROUP.MEMBER_INDEX (R58). -/
def Fld.GARNET_GROUP_MEMBER_INDEX : Fld := ⟨0x70000 + 0x8, 16, 9⟩
/-- GARNET.START_TICK.START (R58). -/
def Fld.GARNET_START_TICK_START : Fld := ⟨0x70000 + 0x10, 0, 32⟩
/-- GARNET.TICK.TICK (R58). -/
def Fld.GARNET_TICK_TICK : Fld := ⟨0x70000 + 0x14, 0, 32⟩
/-- GARNET.STATUS.STATE (R58). -/
def Fld.GARNET_STATUS_STATE : Fld := ⟨0x70000 + 0x18, 0, 2⟩
/-- GARNET.STATUS.TIMER_EXPIRED (R58). -/
def Fld.GARNET_STATUS_TIMER_EXPIRED : Fld := ⟨0x70000 + 0x18, 2, 1⟩
/-- GARNET.STATUS.OWN_DONE (R58). -/
def Fld.GARNET_STATUS_OWN_DONE : Fld := ⟨0x70000 + 0x18, 3, 1⟩
/-- GARNET.STATUS.TOKENS_COMPLETE (R58). -/
def Fld.GARNET_STATUS_TOKENS_COMPLETE : Fld := ⟨0x70000 + 0x18, 4, 1⟩
/-- GARNET.EVENTS.STALE_TOKEN (R58). -/
def Fld.GARNET_EVENTS_STALE_TOKEN : Fld := ⟨0x70000 + 0x1c, 0, 1⟩
/-- GARNET.EVENTS.FUTURE_TOKEN (R58). -/
def Fld.GARNET_EVENTS_FUTURE_TOKEN : Fld := ⟨0x70000 + 0x1c, 1, 1⟩
/-- GARNET.EVENTS.ABANDON_SENT (R58). -/
def Fld.GARNET_EVENTS_ABANDON_SENT : Fld := ⟨0x70000 + 0x1c, 2, 1⟩
/-- GARNET.EVENTS.ABANDON_RECEIVED (R58). -/
def Fld.GARNET_EVENTS_ABANDON_RECEIVED : Fld := ⟨0x70000 + 0x1c, 3, 1⟩
/-- GARNET.EVENTS.MEMBER_SILENT (R58). -/
def Fld.GARNET_EVENTS_MEMBER_SILENT : Fld := ⟨0x70000 + 0x1c, 4, 1⟩
/-- GARNET.MAX_OVERRUN_US.MAX (R58). -/
def Fld.GARNET_MAX_OVERRUN_US_MAX : Fld := ⟨0x70000 + 0x50, 0, 32⟩
/-- GARNET.TOKENS_HELD.HELD (R58). -/
def Fld.GARNET_TOKENS_HELD_HELD (i : Nat) : Fld := ⟨0x70000 + 0x100 + 4 * i, 0, 32⟩
/-- GARNET.MEMBERS.MEMBER (R58). -/
def Fld.GARNET_MEMBERS_MEMBER (i : Nat) : Fld := ⟨0x70000 + 0x200 + 4 * i, 0, 32⟩
/-- SEQ.PROG_BASE_LO.BASE_LO (R59). -/
def Fld.SEQ_PROG_BASE_LO_BASE_LO (c : Nat) : Fld := ⟨coreBase c + 0x0, 12, 20⟩
/-- SEQ.PROG_BASE_HI.BASE_HI (R59). -/
def Fld.SEQ_PROG_BASE_HI_BASE_HI (c : Nat) : Fld := ⟨coreBase c + 0x4, 0, 15⟩
/-- SEQ.STATUS.RUNNING (R59). -/
def Fld.SEQ_STATUS_RUNNING (c : Nat) : Fld := ⟨coreBase c + 0x8, 0, 1⟩
/-- SEQ.STATUS.ENDED (R59). -/
def Fld.SEQ_STATUS_ENDED (c : Nat) : Fld := ⟨coreBase c + 0x8, 1, 1⟩
/-- SEQ.STATUS.QUEUE_BUSY (R59). -/
def Fld.SEQ_STATUS_QUEUE_BUSY (c : Nat) : Fld := ⟨coreBase c + 0x8, 2, 8⟩
/-- SEQ.PC.PC (R59). -/
def Fld.SEQ_PC_PC (c : Nat) : Fld := ⟨coreBase c + 0xc, 0, 20⟩
/-- SEQ.HANG_LIMIT.HANG_US (R59). -/
def Fld.SEQ_HANG_LIMIT_HANG_US (c : Nat) : Fld := ⟨coreBase c + 0x10, 0, 20⟩
/-- SEQ.ERROR.UNUSED_ENCODING (R59). -/
def Fld.SEQ_ERROR_UNUSED_ENCODING (c : Nat) : Fld := ⟨coreBase c + 0x14, 0, 1⟩
/-- SEQ.ERROR.TOKEN_OVERFLOW (R59). -/
def Fld.SEQ_ERROR_TOKEN_OVERFLOW (c : Nat) : Fld := ⟨coreBase c + 0x14, 1, 1⟩
/-- SEQ.ERROR.CREDIT_OVERFLOW (R59). -/
def Fld.SEQ_ERROR_CREDIT_OVERFLOW (c : Nat) : Fld := ⟨coreBase c + 0x14, 2, 1⟩
/-- SEQ.ERROR.FETCH_ERROR (R59). -/
def Fld.SEQ_ERROR_FETCH_ERROR (c : Nat) : Fld := ⟨coreBase c + 0x14, 3, 1⟩
/-- SEQ.ERROR.HANG (R59). -/
def Fld.SEQ_ERROR_HANG (c : Nat) : Fld := ⟨coreBase c + 0x14, 4, 1⟩
/-- SEQ.ERROR.UNBALANCED (R59). -/
def Fld.SEQ_ERROR_UNBALANCED (c : Nat) : Fld := ⟨coreBase c + 0x14, 5, 1⟩
/-- SEQ.ERROR.LATE_SIGNAL (R59). -/
def Fld.SEQ_ERROR_LATE_SIGNAL (c : Nat) : Fld := ⟨coreBase c + 0x14, 6, 1⟩
/-- SEQ.ERROR.PROGRAM_HEADER (R59). -/
def Fld.SEQ_ERROR_PROGRAM_HEADER (c : Nat) : Fld := ⟨coreBase c + 0x14, 7, 1⟩
/-- SEQ.ERROR_PC.ERROR_PC (R59). -/
def Fld.SEQ_ERROR_PC_ERROR_PC (c : Nat) : Fld := ⟨coreBase c + 0x18, 0, 20⟩
/-- SEQ.PARTITION.PARTITION (R59). -/
def Fld.SEQ_PARTITION_PARTITION (c : Nat) : Fld := ⟨coreBase c + 0x1c, 0, 4⟩
/-- SEQ.TOKEN.EVEN (R59). -/
def Fld.SEQ_TOKEN_EVEN (c : Nat) (i : Nat) : Fld := ⟨coreBase c + 0x100 + 4 * i, 0, 16⟩
/-- SEQ.TOKEN.ODD (R59). -/
def Fld.SEQ_TOKEN_ODD (c : Nat) (i : Nat) : Fld := ⟨coreBase c + 0x100 + 4 * i, 16, 16⟩
/-- SEQ.CREDIT.EVEN (R59). -/
def Fld.SEQ_CREDIT_EVEN (c : Nat) (i : Nat) : Fld := ⟨coreBase c + 0x180 + 4 * i, 0, 16⟩
/-- SEQ.CREDIT.ODD (R59). -/
def Fld.SEQ_CREDIT_ODD (c : Nat) (i : Nat) : Fld := ⟨coreBase c + 0x180 + 4 * i, 16, 16⟩
/-- ENG.CTRL.FORCE_COMP (R114). -/
def Fld.ENG_CTRL_FORCE_COMP (g : Nat) : Fld := ⟨engBase g + 0x0, 0, 1⟩
/-- ENG.CTRL.LFSR_FIXED (R114). -/
def Fld.ENG_CTRL_LFSR_FIXED (g : Nat) : Fld := ⟨engBase g + 0x0, 1, 1⟩
/-- ENG.STATUS.BUSY (R114). -/
def Fld.ENG_STATUS_BUSY (g : Nat) : Fld := ⟨engBase g + 0x4, 0, 1⟩
/-- ENG.STATUS.COMP_BANK (R114). -/
def Fld.ENG_STATUS_COMP_BANK (g : Nat) : Fld := ⟨engBase g + 0x4, 1, 1⟩
/-- ENG.STATUS.ACC_SAT (R114). -/
def Fld.ENG_STATUS_ACC_SAT (g : Nat) : Fld := ⟨engBase g + 0x4, 2, 1⟩
/-- ENG.STATUS.COMP_INEXACT (R114). -/
def Fld.ENG_STATUS_COMP_INEXACT (g : Nat) : Fld := ⟨engBase g + 0x4, 3, 1⟩
/-- ENG.STATUS.COMMAND_ERROR (R114). -/
def Fld.ENG_STATUS_COMMAND_ERROR (g : Nat) : Fld := ⟨engBase g + 0x4, 4, 1⟩
/-- ENG.LFSR_SEED.SEED (R114). -/
def Fld.ENG_LFSR_SEED_SEED (g : Nat) : Fld := ⟨engBase g + 0x8, 0, 32⟩
/-- ENG.LFSR_STATE.STATE (R114). -/
def Fld.ENG_LFSR_STATE_STATE (g : Nat) : Fld := ⟨engBase g + 0xc, 0, 32⟩
/-- ENG.MAX_SHIFT.MAX (R114). -/
def Fld.ENG_MAX_SHIFT_MAX (g : Nat) : Fld := ⟨engBase g + 0x10, 0, 5⟩
/-- VEC.STATUS.BUSY (R141). -/
def Fld.VEC_STATUS_BUSY (c : Nat) : Fld := ⟨(coreBase c + 0x1000) + 0x0, 0, 1⟩
/-- VEC.STATUS.COMMAND_ERROR (R141). -/
def Fld.VEC_STATUS_COMMAND_ERROR (c : Nat) : Fld := ⟨(coreBase c + 0x1000) + 0x0, 1, 1⟩
/-- VEC.RNG_KEY_LO.KEY_LO (R141). -/
def Fld.VEC_RNG_KEY_LO_KEY_LO (c : Nat) : Fld := ⟨(coreBase c + 0x1000) + 0x8, 0, 32⟩
/-- VEC.RNG_KEY_HI.KEY_HI (R141). -/
def Fld.VEC_RNG_KEY_HI_KEY_HI (c : Nat) : Fld := ⟨(coreBase c + 0x1000) + 0xc, 0, 32⟩
/-- VEC.LINK_CH_A.PEER_MEMBER (R141). -/
def Fld.VEC_LINK_CH_A_PEER_MEMBER (c : Nat) (i : Nat) : Fld := ⟨(coreBase c + 0x1000) + 0x200 + 8 * i, 0, 9⟩
/-- VEC.LINK_CH_A.PEER_CORE (R141). -/
def Fld.VEC_LINK_CH_A_PEER_CORE (c : Nat) (i : Nat) : Fld := ⟨(coreBase c + 0x1000) + 0x200 + 8 * i, 9, 9⟩
/-- VEC.LINK_CH_A.PEER_TOKEN (R141). -/
def Fld.VEC_LINK_CH_A_PEER_TOKEN (c : Nat) (i : Nat) : Fld := ⟨(coreBase c + 0x1000) + 0x200 + 8 * i, 18, 6⟩
/-- VEC.LINK_CH_A.LOCAL_CREDIT (R141). -/
def Fld.VEC_LINK_CH_A_LOCAL_CREDIT (c : Nat) (i : Nat) : Fld := ⟨(coreBase c + 0x1000) + 0x200 + 8 * i, 24, 5⟩
/-- VEC.LINK_CH_A.VALID (R141). -/
def Fld.VEC_LINK_CH_A_VALID (c : Nat) (i : Nat) : Fld := ⟨(coreBase c + 0x1000) + 0x200 + 8 * i, 29, 1⟩
/-- VEC.LINK_CH_B.PEER_BASE (R141). -/
def Fld.VEC_LINK_CH_B_PEER_BASE (c : Nat) (i : Nat) : Fld := ⟨(coreBase c + 0x1000) + 0x204 + 8 * i, 0, 16⟩
/-- VEC.LINK_CH_B.PEER_DEST (R141). -/
def Fld.VEC_LINK_CH_B_PEER_DEST (c : Nat) (i : Nat) : Fld := ⟨(coreBase c + 0x1000) + 0x204 + 8 * i, 16, 1⟩
/-- VEC.LINK_CH_B.PEER_CREDIT (R141). -/
def Fld.VEC_LINK_CH_B_PEER_CREDIT (c : Nat) (i : Nat) : Fld := ⟨(coreBase c + 0x1000) + 0x204 + 8 * i, 17, 5⟩
/-- GUARD.CTRL.ENABLE (R162). -/
def Fld.GUARD_CTRL_ENABLE (k : Nat) : Fld := ⟨(clusterBase k + 0x1000) + 0x0, 0, 1⟩
/-- GUARD.STATUS.RERUN_ACTIVE (R162). -/
def Fld.GUARD_STATUS_RERUN_ACTIVE (k : Nat) : Fld := ⟨(clusterBase k + 0x1000) + 0x4, 0, 1⟩
/-- GUARD.STATUS.ACTIVE_SLOT (R162). -/
def Fld.GUARD_STATUS_ACTIVE_SLOT (k : Nat) : Fld := ⟨(clusterBase k + 0x1000) + 0x4, 1, 9⟩
/-- GUARD.STATUS.TABLE_ERROR (R162). -/
def Fld.GUARD_STATUS_TABLE_ERROR (k : Nat) : Fld := ⟨(clusterBase k + 0x1000) + 0x4, 10, 1⟩
/-- GUARD.TABLE_BASE_LO.BASE_LO (R162). -/
def Fld.GUARD_TABLE_BASE_LO_BASE_LO (k : Nat) : Fld := ⟨(clusterBase k + 0x1000) + 0x8, 12, 20⟩
/-- GUARD.TABLE_BASE_HI.BASE_HI (R162). -/
def Fld.GUARD_TABLE_BASE_HI_BASE_HI (k : Nat) : Fld := ⟨(clusterBase k + 0x1000) + 0xc, 0, 15⟩
/-- GUARD.MARGIN.MARGIN_US (R162). -/
def Fld.GUARD_MARGIN_MARGIN_US (k : Nat) : Fld := ⟨(clusterBase k + 0x1000) + 0x10, 0, 16⟩
/-- GUARD.MARGIN_LEFT.LEFT_US (R162). -/
def Fld.GUARD_MARGIN_LEFT_LEFT_US (k : Nat) : Fld := ⟨(clusterBase k + 0x1000) + 0x14, 0, 16⟩
/-- GUARD.WINDOW.TICKS (R162). -/
def Fld.GUARD_WINDOW_TICKS (k : Nat) : Fld := ⟨(clusterBase k + 0x1000) + 0x18, 0, 16⟩
/-- GUARD.SLOT_SELECT.SLOT (R162). -/
def Fld.GUARD_SLOT_SELECT_SLOT (k : Nat) : Fld := ⟨(clusterBase k + 0x1000) + 0x1c, 0, 9⟩
/-- GUARD.SLOT_STATE.CLOSED (R162). -/
def Fld.GUARD_SLOT_STATE_CLOSED (k : Nat) : Fld := ⟨(clusterBase k + 0x1000) + 0x20, 0, 1⟩
/-- GUARD.SLOT_STATE.RERUN (R162). -/
def Fld.GUARD_SLOT_STATE_RERUN (k : Nat) : Fld := ⟨(clusterBase k + 0x1000) + 0x20, 1, 1⟩
/-- GUARD.SLOT_STATE.SKIPPED (R162). -/
def Fld.GUARD_SLOT_STATE_SKIPPED (k : Nat) : Fld := ⟨(clusterBase k + 0x1000) + 0x20, 2, 1⟩
/-- GUARD.SLOT_STATE.SUSPECT (R162). -/
def Fld.GUARD_SLOT_STATE_SUSPECT (k : Nat) : Fld := ⟨(clusterBase k + 0x1000) + 0x20, 3, 1⟩
/-- GUARD.SLOT_ROWS.ROWS (R162). -/
def Fld.GUARD_SLOT_ROWS_ROWS (k : Nat) : Fld := ⟨(clusterBase k + 0x1000) + 0x24, 0, 32⟩
/-- GUARD.SLOT_SAT.COUNT (R162). -/
def Fld.GUARD_SLOT_SAT_COUNT (k : Nat) (i : Nat) : Fld := ⟨(clusterBase k + 0x1000) + 0x30 + 4 * i, 0, 24⟩
/-- GUARD.BIN.COUNT (R162). -/
def Fld.GUARD_BIN_COUNT (k : Nat) (i : Nat) : Fld := ⟨(clusterBase k + 0x1000) + 0x40 + 4 * i, 0, 24⟩
/-- EXP.STATUS.DECODING (R188). -/
def Fld.EXP_STATUS_DECODING (g : Nat) : Fld := ⟨engBase g + 0x800, 0, 1⟩
/-- EXP.STATUS.RAW (R188). -/
def Fld.EXP_STATUS_RAW (g : Nat) : Fld := ⟨engBase g + 0x800, 1, 1⟩
/-- EXP.STATUS.STALLED (R188). -/
def Fld.EXP_STATUS_STALLED (g : Nat) : Fld := ⟨engBase g + 0x800, 2, 1⟩
/-- EXP.STATUS.SKEW (R188). -/
def Fld.EXP_STATUS_SKEW (g : Nat) : Fld := ⟨engBase g + 0x800, 3, 1⟩
/-- EXP.STATUS.SUM_ERROR (R188). -/
def Fld.EXP_STATUS_SUM_ERROR (g : Nat) : Fld := ⟨engBase g + 0x800, 4, 1⟩
/-- EXP.STATUS.REFUSED (R188). -/
def Fld.EXP_STATUS_REFUSED (g : Nat) : Fld := ⟨engBase g + 0x800, 5, 1⟩
/-- EXP.CUR_OBJECT.OBJECT (R188). -/
def Fld.EXP_CUR_OBJECT_OBJECT (g : Nat) : Fld := ⟨engBase g + 0x804, 0, 16⟩
/-- EXP.CUR_TILE.TILE (R188). -/
def Fld.EXP_CUR_TILE_TILE (g : Nat) : Fld := ⟨engBase g + 0x808, 0, 22⟩
/-- EXP.CACHE.ID (R188). -/
def Fld.EXP_CACHE_ID (g : Nat) (i : Nat) : Fld := ⟨engBase g + 0x900 + 4 * i, 0, 6⟩
/-- EXP.CACHE.GEN (R188). -/
def Fld.EXP_CACHE_GEN (g : Nat) (i : Nat) : Fld := ⟨engBase g + 0x900 + 4 * i, 6, 4⟩
/-- EXP.CACHE.VALID (R188). -/
def Fld.EXP_CACHE_VALID (g : Nat) (i : Nat) : Fld := ⟨engBase g + 0x900 + 4 * i, 10, 1⟩
/-- CTAB.CTRL.RAW_THRESHOLD (R189). -/
def Fld.CTAB_CTRL_RAW_THRESHOLD : Fld := ⟨0x09C01000 + 0x0, 0, 8⟩
/-- CTAB.CTRL.REUSE_TOL (R189). -/
def Fld.CTAB_CTRL_REUSE_TOL : Fld := ⟨0x09C01000 + 0x0, 8, 8⟩
/-- CTAB.STATUS.LIVE_COUNT (R189). -/
def Fld.CTAB_STATUS_LIVE_COUNT : Fld := ⟨0x09C01000 + 0x4, 0, 7⟩
/-- CTAB.STATUS.TABLE_ERROR (R189). -/
def Fld.CTAB_STATUS_TABLE_ERROR : Fld := ⟨0x09C01000 + 0x4, 7, 1⟩
/-- CTAB.ID_STATE.GEN (R189). -/
def Fld.CTAB_ID_STATE_GEN (i : Nat) : Fld := ⟨0x09C01000 + 0x100 + 8 * i, 0, 4⟩
/-- CTAB.ID_STATE.STATE (R189). -/
def Fld.CTAB_ID_STATE_STATE (i : Nat) : Fld := ⟨0x09C01000 + 0x100 + 8 * i, 4, 2⟩
/-- CTAB.ID_REFS.REFS (R189). -/
def Fld.CTAB_ID_REFS_REFS (i : Nat) : Fld := ⟨0x09C01000 + 0x104 + 8 * i, 0, 32⟩
/-- ENC.STATUS.BUSY (R189). -/
def Fld.ENC_STATUS_BUSY (m : Nat) : Fld := ⟨(memDieBase m + 0xC02000) + 0x0, 0, 1⟩
/-- ENC.STATUS.PASS (R189). -/
def Fld.ENC_STATUS_PASS (m : Nat) : Fld := ⟨(memDieBase m + 0xC02000) + 0x0, 1, 1⟩
/-- ENC.OBJECT.OBJECT (R189). -/
def Fld.ENC_OBJECT_OBJECT (m : Nat) : Fld := ⟨(memDieBase m + 0xC02000) + 0x4, 0, 16⟩
/-- ENC.SEGMENT.SEGMENT (R189). -/
def Fld.ENC_SEGMENT_SEGMENT (m : Nat) : Fld := ⟨(memDieBase m + 0xC02000) + 0x8, 0, 23⟩
/-- CH.STATUS.STATE (R221). -/
def Fld.CH_STATUS_STATE (ch : Nat) : Fld := ⟨channelBase ch + 0x0, 0, 3⟩
/-- CH.STATUS.SPARE_USED (R221). -/
def Fld.CH_STATUS_SPARE_USED (ch : Nat) : Fld := ⟨channelBase ch + 0x0, 3, 1⟩
/-- CH.STATUS.SPARE_FOR (R221). -/
def Fld.CH_STATUS_SPARE_FOR (ch : Nat) : Fld := ⟨channelBase ch + 0x0, 4, 5⟩
/-- CH.STATUS.MARKED (R221). -/
def Fld.CH_STATUS_MARKED (ch : Nat) : Fld := ⟨channelBase ch + 0x0, 9, 1⟩
/-- CH.STATUS.MARKED_LANE (R221). -/
def Fld.CH_STATUS_MARKED_LANE (ch : Nat) : Fld := ⟨channelBase ch + 0x0, 10, 5⟩
/-- CH.STATUS.HOT_REFRESH (R221). -/
def Fld.CH_STATUS_HOT_REFRESH (ch : Nat) : Fld := ⟨channelBase ch + 0x0, 15, 1⟩
/-- CH.STATUS.UE (R221). -/
def Fld.CH_STATUS_UE (ch : Nat) : Fld := ⟨channelBase ch + 0x0, 16, 1⟩
/-- CH.INJ_CTRL.ARM (R221). -/
def Fld.CH_INJ_CTRL_ARM (ch : Nat) : Fld := ⟨channelBase ch + 0x8, 0, 1⟩
/-- CH.INJ_CTRL.PERIODIC (R221). -/
def Fld.CH_INJ_CTRL_PERIODIC (ch : Nat) : Fld := ⟨channelBase ch + 0x8, 1, 1⟩
/-- CH.INJ_CTRL.ON_WRITE (R221). -/
def Fld.CH_INJ_CTRL_ON_WRITE (ch : Nat) : Fld := ⟨channelBase ch + 0x8, 2, 1⟩
/-- CH.INJ_CTRL.LANE_A (R221). -/
def Fld.CH_INJ_CTRL_LANE_A (ch : Nat) : Fld := ⟨channelBase ch + 0x8, 3, 5⟩
/-- CH.INJ_CTRL.SYM_A (R221). -/
def Fld.CH_INJ_CTRL_SYM_A (ch : Nat) : Fld := ⟨channelBase ch + 0x8, 8, 4⟩
/-- CH.INJ_CTRL.LANE_B_EN (R221). -/
def Fld.CH_INJ_CTRL_LANE_B_EN (ch : Nat) : Fld := ⟨channelBase ch + 0x8, 12, 1⟩
/-- CH.INJ_CTRL.LANE_B (R221). -/
def Fld.CH_INJ_CTRL_LANE_B (ch : Nat) : Fld := ⟨channelBase ch + 0x8, 13, 5⟩
/-- CH.INJ_CTRL.SYM_B (R221). -/
def Fld.CH_INJ_CTRL_SYM_B (ch : Nat) : Fld := ⟨channelBase ch + 0x8, 18, 4⟩
/-- CH.INJ_PATTERN.XOR_A (R221). -/
def Fld.CH_INJ_PATTERN_XOR_A (ch : Nat) : Fld := ⟨channelBase ch + 0xc, 0, 8⟩
/-- CH.INJ_PATTERN.XOR_B (R221). -/
def Fld.CH_INJ_PATTERN_XOR_B (ch : Nat) : Fld := ⟨channelBase ch + 0xc, 8, 8⟩
/-- CH.INJ_PATTERN.PERIOD (R221). -/
def Fld.CH_INJ_PATTERN_PERIOD (ch : Nat) : Fld := ⟨channelBase ch + 0xc, 16, 16⟩
/-- CH.EYE.WIDTH (R221). -/
def Fld.CH_EYE_WIDTH (ch : Nat) (i : Nat) : Fld := ⟨channelBase ch + 0x200 + 4 * i, 0, 8⟩
/-- CH.EYE.HEIGHT (R221). -/
def Fld.CH_EYE_HEIGHT (ch : Nat) (i : Nat) : Fld := ⟨channelBase ch + 0x200 + 4 * i, 8, 8⟩
/-- CH.EYE.FAILED (R221). -/
def Fld.CH_EYE_FAILED (ch : Nat) (i : Nat) : Fld := ⟨channelBase ch + 0x200 + 4 * i, 16, 1⟩
/-- STK.STATUS.STATE (R222). -/
def Fld.STK_STATUS_STATE (st : Nat) : Fld := ⟨stackBase st + 0x0, 0, 3⟩
/-- STK.STATUS.MARKED_CHANNELS (R222). -/
def Fld.STK_STATUS_MARKED_CHANNELS (st : Nat) : Fld := ⟨stackBase st + 0x0, 3, 8⟩
/-- STK.TEMP.TEMP (R222). -/
def Fld.STK_TEMP_TEMP (st : Nat) : Fld := ⟨stackBase st + 0x4, 0, 11⟩
/-- STK.TEMP_MAX.MAX (R222). -/
def Fld.STK_TEMP_MAX_MAX (st : Nat) : Fld := ⟨stackBase st + 0x8, 0, 11⟩
/-- STK.THERM.WARN (R222). -/
def Fld.STK_THERM_WARN (st : Nat) : Fld := ⟨stackBase st + 0xc, 0, 1⟩
/-- STK.THERM.THROTTLE (R222). -/
def Fld.STK_THERM_THROTTLE (st : Nat) : Fld := ⟨stackBase st + 0xc, 1, 1⟩
/-- STK.THERM.WARN_SEEN (R222). -/
def Fld.STK_THERM_WARN_SEEN (st : Nat) : Fld := ⟨stackBase st + 0xc, 2, 1⟩
/-- STK.THERM.THROTTLE_SEEN (R222). -/
def Fld.STK_THERM_THROTTLE_SEEN (st : Nat) : Fld := ⟨stackBase st + 0xc, 3, 1⟩
/-- STK.THERM.TRIP_SEEN (R222). -/
def Fld.STK_THERM_TRIP_SEEN (st : Nat) : Fld := ⟨stackBase st + 0xc, 4, 1⟩
/-- STK.THERM.WITHHOLD_AUTO (R222). -/
def Fld.STK_THERM_WITHHOLD_AUTO (st : Nat) : Fld := ⟨stackBase st + 0xc, 5, 1⟩
/-- STK.THERM.THERM_CAP (R222). -/
def Fld.STK_THERM_THERM_CAP (st : Nat) : Fld := ⟨stackBase st + 0xc, 6, 7⟩
/-- STK.LIMIT.LIMIT_PCT (R222). -/
def Fld.STK_LIMIT_LIMIT_PCT (st : Nat) : Fld := ⟨stackBase st + 0x10, 0, 7⟩
/-- STK.SCRUB.ENABLE (R222). -/
def Fld.STK_SCRUB_ENABLE (st : Nat) : Fld := ⟨stackBase st + 0x14, 0, 1⟩
/-- STK.SCRUB.PERIOD_H (R222). -/
def Fld.STK_SCRUB_PERIOD_H (st : Nat) : Fld := ⟨stackBase st + 0x14, 8, 8⟩
/-- STK.REG_PART.MIN_PCT (R222). -/
def Fld.STK_REG_PART_MIN_PCT (st : Nat) (i : Nat) : Fld := ⟨stackBase st + 0x100 + 4 * i, 0, 7⟩
/-- STK.REG_PART.MAX_PCT (R222). -/
def Fld.STK_REG_PART_MAX_PCT (st : Nat) (i : Nat) : Fld := ⟨stackBase st + 0x100 + 4 * i, 8, 7⟩
/-- OBJ.CTRL.ACCOUNTING (R252). -/
def Fld.OBJ_CTRL_ACCOUNTING : Fld := ⟨0x50000 + 0x0, 0, 1⟩
/-- OBJ.STATUS.FREE_ENTRIES (R252). -/
def Fld.OBJ_STATUS_FREE_ENTRIES : Fld := ⟨0x50000 + 0x4, 0, 17⟩
/-- OBJ.SELECT.INDEX (R252). -/
def Fld.OBJ_SELECT_INDEX : Fld := ⟨0x50000 + 0x8, 0, 16⟩
/-- OBJ.POISON_WAIT.WAIT_US (R252). -/
def Fld.OBJ_POISON_WAIT_WAIT_US : Fld := ⟨0x50000 + 0xc, 0, 16⟩
/-- OBJ.WATERMARK.LOW (R252). -/
def Fld.OBJ_WATERMARK_LOW : Fld := ⟨0x50000 + 0x10, 0, 16⟩
/-- OBJ.WATERMARK.HIGH (R252). -/
def Fld.OBJ_WATERMARK_HIGH : Fld := ⟨0x50000 + 0x10, 16, 16⟩
/-- OBJ.ENTRY.WORD (R252). -/
def Fld.OBJ_ENTRY_WORD (i : Nat) : Fld := ⟨0x50000 + 0x20 + 4 * i, 0, 32⟩
/-- OBJ.FRAMES_FREE.FRAMES (R252). -/
def Fld.OBJ_FRAMES_FREE_FRAMES : Fld := ⟨0x50000 + 0x40, 0, 24⟩
/-- OBJ.HOST_PAGES_FREE.PAGES (R252). -/
def Fld.OBJ_HOST_PAGES_FREE_PAGES : Fld := ⟨0x50000 + 0x44, 0, 32⟩
/-- OBJ.QUOTA_STACK.LIMIT (R252). -/
def Fld.OBJ_QUOTA_STACK_LIMIT (i : Nat) : Fld := ⟨0x50000 + 0x100 + 16 * i, 0, 32⟩
/-- OBJ.QUOTA_HOST.LIMIT (R252). -/
def Fld.OBJ_QUOTA_HOST_LIMIT (i : Nat) : Fld := ⟨0x50000 + 0x104 + 16 * i, 0, 32⟩
/-- OBJ.QUOTA_FLASH.LIMIT (R252). -/
def Fld.OBJ_QUOTA_FLASH_LIMIT (i : Nat) : Fld := ⟨0x50000 + 0x108 + 16 * i, 0, 32⟩
/-- OBJ.USE_STACK.TILES (R252). -/
def Fld.OBJ_USE_STACK_TILES (i : Nat) : Fld := ⟨0x50000 + 0x200 + 16 * i, 0, 32⟩
/-- OBJ.USE_HOST.TILES (R252). -/
def Fld.OBJ_USE_HOST_TILES (i : Nat) : Fld := ⟨0x50000 + 0x204 + 16 * i, 0, 32⟩
/-- OBJ.USE_FLASH.TILES (R252). -/
def Fld.OBJ_USE_FLASH_TILES (i : Nat) : Fld := ⟨0x50000 + 0x208 + 16 * i, 0, 32⟩
/-- MOV.STATUS.BUSY (R253). -/
def Fld.MOV_STATUS_BUSY (m : Nat) : Fld := ⟨(memDieBase m + 0xC03000) + 0x0, 0, 8⟩
/-- MOV.FRAMES_FREE.FRAMES (R253). -/
def Fld.MOV_FRAMES_FREE_FRAMES (m : Nat) : Fld := ⟨(memDieBase m + 0xC03000) + 0x4, 0, 22⟩
/-- FCH.STATUS.STATE (R282). -/
def Fld.FCH_STATUS_STATE (n : Nat) : Fld := ⟨(0x200000 + 0x1000 * n) + 0x0, 0, 3⟩
/-- FCH.STATUS.DEGRADED (R282). -/
def Fld.FCH_STATUS_DEGRADED (n : Nat) : Fld := ⟨(0x200000 + 0x1000 * n) + 0x0, 3, 1⟩
/-- FCH.GEOMETRY.TARGETS (R282). -/
def Fld.FCH_GEOMETRY_TARGETS (n : Nat) : Fld := ⟨(0x200000 + 0x1000 * n) + 0x4, 0, 4⟩
/-- FCH.GEOMETRY.LUNS (R282). -/
def Fld.FCH_GEOMETRY_LUNS (n : Nat) : Fld := ⟨(0x200000 + 0x1000 * n) + 0x4, 4, 3⟩
/-- FCH.GEOMETRY.PLANES (R282). -/
def Fld.FCH_GEOMETRY_PLANES (n : Nat) : Fld := ⟨(0x200000 + 0x1000 * n) + 0x4, 7, 3⟩
/-- FCH.GEOMETRY.PAGES_PER_BLOCK (R282). -/
def Fld.FCH_GEOMETRY_PAGES_PER_BLOCK (n : Nat) : Fld := ⟨(0x200000 + 0x1000 * n) + 0x4, 10, 13⟩
/-- FCH.GEOMETRY.MP_INDEPENDENT (R282). -/
def Fld.FCH_GEOMETRY_MP_INDEPENDENT (n : Nat) : Fld := ⟨(0x200000 + 0x1000 * n) + 0x4, 23, 1⟩
/-- FCH.BLOCKS.PER_PLANE (R282). -/
def Fld.FCH_BLOCKS_PER_PLANE (n : Nat) : Fld := ⟨(0x200000 + 0x1000 * n) + 0x8, 0, 20⟩
/-- FCH.TIMING.MAX_TR_US (R282). -/
def Fld.FCH_TIMING_MAX_TR_US (n : Nat) : Fld := ⟨(0x200000 + 0x1000 * n) + 0xc, 0, 16⟩
/-- FCH.TIMING.MAX_TPROG_US (R282). -/
def Fld.FCH_TIMING_MAX_TPROG_US (n : Nat) : Fld := ⟨(0x200000 + 0x1000 * n) + 0xc, 16, 16⟩
/-- FCH.LUN_OK.LUN (R282). -/
def Fld.FCH_LUN_OK_LUN (n : Nat) : Fld := ⟨(0x200000 + 0x1000 * n) + 0x10, 0, 32⟩
/-- ONYX.CMD.OP (R283). -/
def Fld.ONYX_CMD_OP : Fld := ⟨0x240000 + 0x0, 0, 4⟩
/-- ONYX.STATUS.STATE (R283). -/
def Fld.ONYX_STATUS_STATE : Fld := ⟨0x240000 + 0x4, 0, 3⟩
/-- ONYX.STATUS.UNCLEAN (R283). -/
def Fld.ONYX_STATUS_UNCLEAN : Fld := ⟨0x240000 + 0x4, 3, 1⟩
/-- ONYX.STATUS.DISCARDED (R283). -/
def Fld.ONYX_STATUS_DISCARDED : Fld := ⟨0x240000 + 0x4, 4, 1⟩
/-- ONYX.EPOCH_LO.EPOCH_LO (R283). -/
def Fld.ONYX_EPOCH_LO_EPOCH_LO : Fld := ⟨0x240000 + 0x8, 0, 32⟩
/-- ONYX.EPOCH_HI.EPOCH_HI (R283). -/
def Fld.ONYX_EPOCH_HI_EPOCH_HI : Fld := ⟨0x240000 + 0xc, 0, 32⟩
/-- ONYX.RD_LIMIT.LIMIT (R283). -/
def Fld.ONYX_RD_LIMIT_LIMIT : Fld := ⟨0x240000 + 0x10, 0, 24⟩
/-- ONYX.WEAR.PE_LIMIT (R283). -/
def Fld.ONYX_WEAR_PE_LIMIT : Fld := ⟨0x240000 + 0x14, 0, 16⟩
/-- ONYX.WEAR.WL_SPREAD (R283). -/
def Fld.ONYX_WEAR_WL_SPREAD : Fld := ⟨0x240000 + 0x14, 16, 16⟩
/-- ONYX.ECC_POLICY.CORR_REFRESH (R283). -/
def Fld.ONYX_ECC_POLICY_CORR_REFRESH : Fld := ⟨0x240000 + 0x18, 0, 8⟩
/-- ONYX.ECC_POLICY.RETRY_MAX (R283). -/
def Fld.ONYX_ECC_POLICY_RETRY_MAX : Fld := ⟨0x240000 + 0x18, 8, 4⟩
/-- ONYX.ECC_POLICY.SOFT_EN (R283). -/
def Fld.ONYX_ECC_POLICY_SOFT_EN : Fld := ⟨0x240000 + 0x18, 12, 1⟩
/-- ONYX.RESERVE.PCT (R283). -/
def Fld.ONYX_RESERVE_PCT : Fld := ⟨0x240000 + 0x1c, 0, 5⟩
/-- ONYX.PATROL.DAYS (R283). -/
def Fld.ONYX_PATROL_DAYS : Fld := ⟨0x240000 + 0x20, 0, 8⟩
/-- ONYX.BANDS.TOTAL (R283). -/
def Fld.ONYX_BANDS_TOTAL : Fld := ⟨0x240000 + 0x24, 0, 21⟩
/-- ONYX.BANDS_FREE.FREE (R283). -/
def Fld.ONYX_BANDS_FREE_FREE : Fld := ⟨0x240000 + 0x28, 0, 21⟩
/-- ONYX.RD_BACKLOG.BLOCKS (R283). -/
def Fld.ONYX_RD_BACKLOG_BLOCKS : Fld := ⟨0x240000 + 0x2c, 0, 23⟩
/-- ONYX.ERASE_RANGE.MIN (R283). -/
def Fld.ONYX_ERASE_RANGE_MIN : Fld := ⟨0x240000 + 0x30, 0, 16⟩
/-- ONYX.ERASE_RANGE.MAX (R283). -/
def Fld.ONYX_ERASE_RANGE_MAX : Fld := ⟨0x240000 + 0x30, 16, 16⟩
/-- ONYX.MOUNT_MS.MS (R283). -/
def Fld.ONYX_MOUNT_MS_MS : Fld := ⟨0x240000 + 0x34, 0, 16⟩
/-- LNK.CTRL.ENABLE (R310). -/
def Fld.LNK_CTRL_ENABLE (p : Nat) : Fld := ⟨(0x100000 + 0x10000 * p) + 0x0, 0, 1⟩
/-- LNK.CTRL.RETRAIN (R310). -/
def Fld.LNK_CTRL_RETRAIN (p : Nat) : Fld := ⟨(0x100000 + 0x10000 * p) + 0x0, 1, 1⟩
/-- LNK.STATUS.STATE (R310). -/
def Fld.LNK_STATUS_STATE (p : Nat) : Fld := ⟨(0x100000 + 0x10000 * p) + 0x4, 0, 3⟩
/-- LNK.STATUS.LANES_UP (R310). -/
def Fld.LNK_STATUS_LANES_UP (p : Nat) : Fld := ⟨(0x100000 + 0x10000 * p) + 0x4, 3, 3⟩
/-- LNK.STATUS.HOLD_FULL (R310). -/
def Fld.LNK_STATUS_HOLD_FULL (p : Nat) : Fld := ⟨(0x100000 + 0x10000 * p) + 0x4, 6, 1⟩
/-- LNK.STATUS.DEGRADED (R310). -/
def Fld.LNK_STATUS_DEGRADED (p : Nat) : Fld := ⟨(0x100000 + 0x10000 * p) + 0x4, 7, 1⟩
/-- LNK.STATUS.L8_FORMAT (R310). -/
def Fld.LNK_STATUS_L8_FORMAT (p : Nat) : Fld := ⟨(0x100000 + 0x10000 * p) + 0x4, 8, 1⟩
/-- LNK.LANES.LANE_OK (R310). -/
def Fld.LNK_LANES_LANE_OK (p : Nat) : Fld := ⟨(0x100000 + 0x10000 * p) + 0x8, 0, 4⟩
/-- LNK.LANES.LANE_FAILED (R310). -/
def Fld.LNK_LANES_LANE_FAILED (p : Nat) : Fld := ⟨(0x100000 + 0x10000 * p) + 0x8, 4, 4⟩
/-- LNK.PEER.PEER_MEMBER (R310). -/
def Fld.LNK_PEER_PEER_MEMBER (p : Nat) : Fld := ⟨(0x100000 + 0x10000 * p) + 0xc, 0, 9⟩
/-- LNK.PEER.PEER_PORT (R310). -/
def Fld.LNK_PEER_PEER_PORT (p : Nat) : Fld := ⟨(0x100000 + 0x10000 * p) + 0xc, 9, 4⟩
/-- LNK.PEER.PEER_TWIN (R310). -/
def Fld.LNK_PEER_PEER_TWIN (p : Nat) : Fld := ⟨(0x100000 + 0x10000 * p) + 0xc, 13, 1⟩
/-- LNK.INJ_CTRL.ARM (R310). -/
def Fld.LNK_INJ_CTRL_ARM (p : Nat) : Fld := ⟨(0x100000 + 0x10000 * p) + 0x10, 0, 1⟩
/-- LNK.INJ_CTRL.PERIODIC (R310). -/
def Fld.LNK_INJ_CTRL_PERIODIC (p : Nat) : Fld := ⟨(0x100000 + 0x10000 * p) + 0x10, 1, 1⟩
/-- LNK.INJ_CTRL.KIND (R310). -/
def Fld.LNK_INJ_CTRL_KIND (p : Nat) : Fld := ⟨(0x100000 + 0x10000 * p) + 0x10, 2, 2⟩
/-- LNK.INJ_CTRL.VC_MASK (R310). -/
def Fld.LNK_INJ_CTRL_VC_MASK (p : Nat) : Fld := ⟨(0x100000 + 0x10000 * p) + 0x10, 4, 3⟩
/-- LNK.INJ_CTRL.CRC_RECOMPUTE (R310). -/
def Fld.LNK_INJ_CTRL_CRC_RECOMPUTE (p : Nat) : Fld := ⟨(0x100000 + 0x10000 * p) + 0x10, 7, 1⟩
/-- LNK.INJ_CTRL.WORD (R310). -/
def Fld.LNK_INJ_CTRL_WORD (p : Nat) : Fld := ⟨(0x100000 + 0x10000 * p) + 0x10, 8, 6⟩
/-- LNK.INJ_N.N (R310). -/
def Fld.LNK_INJ_N_N (p : Nat) : Fld := ⟨(0x100000 + 0x10000 * p) + 0x14, 0, 32⟩
/-- LNK.INJ_XOR.PATTERN (R310). -/
def Fld.LNK_INJ_XOR_PATTERN (p : Nat) : Fld := ⟨(0x100000 + 0x10000 * p) + 0x18, 0, 32⟩
/-- LNK.HOLD_USED.BYTES (R310). -/
def Fld.LNK_HOLD_USED_BYTES (p : Nat) : Fld := ⟨(0x100000 + 0x10000 * p) + 0x1c, 0, 24⟩
/-- TOPO.SHAPE.RING_SIZE (R327). -/
def Fld.TOPO_SHAPE_RING_SIZE : Fld := ⟨0x80000 + 0x0, 0, 5⟩
/-- TOPO.SHAPE.RINGS (R327). -/
def Fld.TOPO_SHAPE_RINGS : Fld := ⟨0x80000 + 0x0, 5, 6⟩
/-- TOPO.SHAPE.TWIN (R327). -/
def Fld.TOPO_SHAPE_TWIN : Fld := ⟨0x80000 + 0x0, 11, 1⟩
/-- TOPO.SHAPE.EXP_VALID (R327). -/
def Fld.TOPO_SHAPE_EXP_VALID : Fld := ⟨0x80000 + 0x0, 12, 1⟩
/-- TOPO.SHAPE.EXP_PEER (R327). -/
def Fld.TOPO_SHAPE_EXP_PEER : Fld := ⟨0x80000 + 0x0, 13, 9⟩
/-- TOPO.CTRL.RESET_REQ_EN (R327). -/
def Fld.TOPO_CTRL_RESET_REQ_EN : Fld := ⟨0x80000 + 0x4, 0, 1⟩
/-- TOPO.CTRL.SIDEBAND_RESET_EN (R327). -/
def Fld.TOPO_CTRL_SIDEBAND_RESET_EN : Fld := ⟨0x80000 + 0x4, 1, 1⟩
/-- TOPO.AGATE_STATUS.SW_k (R327). -/
def Fld.TOPO_AGATE_STATUS_SW (j : Nat) : Fld := ⟨0x80000 + 0x8, (2 * j), 2⟩
/-- TOPO.AGATE_CMD.OPEN_RING (R327). -/
def Fld.TOPO_AGATE_CMD_OPEN_RING : Fld := ⟨0x80000 + 0xc, 0, 1⟩
/-- TOPO.AGATE_CMD.OPEN_PLANE (R327). -/
def Fld.TOPO_AGATE_CMD_OPEN_PLANE : Fld := ⟨0x80000 + 0xc, 1, 1⟩
/-- TOPO.AGATE_CMD.LEAVE (R327). -/
def Fld.TOPO_AGATE_CMD_LEAVE : Fld := ⟨0x80000 + 0xc, 2, 1⟩
/-- TOPO.OPEN_RINGS.RING (R327). -/
def Fld.TOPO_OPEN_RINGS_RING : Fld := ⟨0x80000 + 0x10, 0, 32⟩
/-- TOPO.OPEN_COLUMNS.COLUMN (R327). -/
def Fld.TOPO_OPEN_COLUMNS_COLUMN : Fld := ⟨0x80000 + 0x14, 0, 16⟩
/-- TOPO.LAST_LOSS.MEMBER (R327). -/
def Fld.TOPO_LAST_LOSS_MEMBER : Fld := ⟨0x80000 + 0x18, 0, 9⟩
/-- TOPO.LAST_LOSS.CAUSE (R327). -/
def Fld.TOPO_LAST_LOSS_CAUSE : Fld := ⟨0x80000 + 0x18, 9, 2⟩
/-- TOPO.LAST_LOSS_TICK.TICK (R327). -/
def Fld.TOPO_LAST_LOSS_TICK_TICK : Fld := ⟨0x80000 + 0x1c, 0, 32⟩
/-- TOPO.MEMBER_STATE.STATE (R327). -/
def Fld.TOPO_MEMBER_STATE_STATE (i : Nat) (j : Nat) : Fld := ⟨0x80000 + 0x100 + 4 * i, (2 * j), 2⟩
/-- HQ.LINK.SPEED (R359). -/
def Fld.HQ_LINK_SPEED : Fld := ⟨0x30000 + 0x0, 0, 3⟩
/-- HQ.LINK.WIDTH (R359). -/
def Fld.HQ_LINK_WIDTH : Fld := ⟨0x30000 + 0x0, 3, 4⟩
/-- HQ.LINK.FLIT (R359). -/
def Fld.HQ_LINK_FLIT : Fld := ⟨0x30000 + 0x0, 7, 1⟩
/-- HQ.APERTURE.WINDOW (R359). -/
def Fld.HQ_APERTURE_WINDOW : Fld := ⟨0x30000 + 0x4, 0, 11⟩
/-- HQ.SQ_BASE_LO.BASE_LO (R359). -/
def Fld.HQ_SQ_BASE_LO_BASE_LO (q : Nat) : Fld := ⟨(0x31000 + 0x20 * q) + 0x0, 6, 26⟩
/-- HQ.SQ_BASE_HI.BASE_HI (R359). -/
def Fld.HQ_SQ_BASE_HI_BASE_HI (q : Nat) : Fld := ⟨(0x31000 + 0x20 * q) + 0x4, 0, 32⟩
/-- HQ.CQ_BASE_LO.BASE_LO (R359). -/
def Fld.HQ_CQ_BASE_LO_BASE_LO (q : Nat) : Fld := ⟨(0x31000 + 0x20 * q) + 0x8, 6, 26⟩
/-- HQ.CQ_BASE_HI.BASE_HI (R359). -/
def Fld.HQ_CQ_BASE_HI_BASE_HI (q : Nat) : Fld := ⟨(0x31000 + 0x20 * q) + 0xc, 0, 32⟩
/-- HQ.Q_CFG.ENABLE (R359). -/
def Fld.HQ_Q_CFG_ENABLE (q : Nat) : Fld := ⟨(0x31000 + 0x20 * q) + 0x10, 0, 1⟩
/-- HQ.Q_CFG.SQ_LOG2 (R359). -/
def Fld.HQ_Q_CFG_SQ_LOG2 (q : Nat) : Fld := ⟨(0x31000 + 0x20 * q) + 0x10, 1, 4⟩
/-- HQ.Q_CFG.CQ_LOG2 (R359). -/
def Fld.HQ_Q_CFG_CQ_LOG2 (q : Nat) : Fld := ⟨(0x31000 + 0x20 * q) + 0x10, 5, 4⟩
/-- HQ.Q_CFG.PARTITION (R359). -/
def Fld.HQ_Q_CFG_PARTITION (q : Nat) : Fld := ⟨(0x31000 + 0x20 * q) + 0x10, 9, 4⟩
/-- HQ.Q_CFG.PRIV (R359). -/
def Fld.HQ_Q_CFG_PRIV (q : Nat) : Fld := ⟨(0x31000 + 0x20 * q) + 0x10, 13, 1⟩
/-- HQ.Q_CFG.VECTOR (R359). -/
def Fld.HQ_Q_CFG_VECTOR (q : Nat) : Fld := ⟨(0x31000 + 0x20 * q) + 0x10, 14, 8⟩
/-- HQ.Q_CFG.IRQ_EN (R359). -/
def Fld.HQ_Q_CFG_IRQ_EN (q : Nat) : Fld := ⟨(0x31000 + 0x20 * q) + 0x10, 22, 1⟩
/-- HQ.Q_STATUS.RUNNING (R359). -/
def Fld.HQ_Q_STATUS_RUNNING (q : Nat) : Fld := ⟨(0x31000 + 0x20 * q) + 0x14, 0, 1⟩
/-- HQ.Q_STATUS.ERROR (R359). -/
def Fld.HQ_Q_STATUS_ERROR (q : Nat) : Fld := ⟨(0x31000 + 0x20 * q) + 0x14, 1, 1⟩
/-- HQ.Q_STATUS.CAUSE (R359). -/
def Fld.HQ_Q_STATUS_CAUSE (q : Nat) : Fld := ⟨(0x31000 + 0x20 * q) + 0x14, 2, 2⟩
/-- HQ.Q_HEADS.SQ_HEAD (R359). -/
def Fld.HQ_Q_HEADS_SQ_HEAD (q : Nat) : Fld := ⟨(0x31000 + 0x20 * q) + 0x18, 0, 16⟩
/-- HQ.Q_HEADS.CQ_TAIL (R359). -/
def Fld.HQ_Q_HEADS_CQ_TAIL (q : Nat) : Fld := ⟨(0x31000 + 0x20 * q) + 0x18, 16, 16⟩
/-- HQ.COALESCE.COUNT (R359). -/
def Fld.HQ_COALESCE_COUNT (i : Nat) : Fld := ⟨0x30000 + 0x3000 + 4 * i, 0, 8⟩
/-- HQ.COALESCE.TIME_US (R359). -/
def Fld.HQ_COALESCE_TIME_US (i : Nat) : Fld := ⟨0x30000 + 0x3000 + 4 * i, 8, 16⟩
/-- PART.STEP_OBJECT.OBJECT (R360). -/
def Fld.PART_STEP_OBJECT_OBJECT : Fld := ⟨0x40000 + 0x0, 0, 16⟩
/-- PART.STEP_OBJECT.VALID (R360). -/
def Fld.PART_STEP_OBJECT_VALID : Fld := ⟨0x40000 + 0x0, 16, 1⟩
/-- PART.PREFILL_BUDGET.TOKENS (R360). -/
def Fld.PART_PREFILL_BUDGET_TOKENS : Fld := ⟨0x40000 + 0x4, 0, 16⟩
/-- PART.SESSIONS.OPEN (R360). -/
def Fld.PART_SESSIONS_OPEN : Fld := ⟨0x40000 + 0x8, 0, 13⟩
/-- PART.PREFILL_FREE.TOKENS (R360). -/
def Fld.PART_PREFILL_FREE_TOKENS : Fld := ⟨0x40000 + 0xc, 0, 21⟩
/-- PART.CTRL.ENABLE (R360). -/
def Fld.PARTN_CTRL_ENABLE (p : Nat) : Fld := ⟨(0x41000 + 0x100 * p) + 0x0, 0, 1⟩
/-- PART.STATUS.FLR_ACTIVE (R360). -/
def Fld.PARTN_STATUS_FLR_ACTIVE (p : Nat) : Fld := ⟨(0x41000 + 0x100 * p) + 0x4, 0, 1⟩
/-- PART.STATUS.RING_FULL (R360). -/
def Fld.PARTN_STATUS_RING_FULL (p : Nat) : Fld := ⟨(0x41000 + 0x100 * p) + 0x4, 1, 1⟩
/-- PART.STATUS.EVENTS_LOST (R360). -/
def Fld.PARTN_STATUS_EVENTS_LOST (p : Nat) : Fld := ⟨(0x41000 + 0x100 * p) + 0x4, 2, 1⟩
/-- PART.OUT_BASE_LO.BASE_LO (R360). -/
def Fld.PARTN_OUT_BASE_LO_BASE_LO (p : Nat) : Fld := ⟨(0x41000 + 0x100 * p) + 0x8, 6, 26⟩
/-- PART.OUT_BASE_HI.BASE_HI (R360). -/
def Fld.PARTN_OUT_BASE_HI_BASE_HI (p : Nat) : Fld := ⟨(0x41000 + 0x100 * p) + 0xc, 0, 32⟩
/-- PART.OUT_CFG.ENABLE (R360). -/
def Fld.PARTN_OUT_CFG_ENABLE (p : Nat) : Fld := ⟨(0x41000 + 0x100 * p) + 0x10, 0, 1⟩
/-- PART.OUT_CFG.LOG2 (R360). -/
def Fld.PARTN_OUT_CFG_LOG2 (p : Nat) : Fld := ⟨(0x41000 + 0x100 * p) + 0x10, 1, 5⟩
/-- PART.OUT_CFG.VECTOR (R360). -/
def Fld.PARTN_OUT_CFG_VECTOR (p : Nat) : Fld := ⟨(0x41000 + 0x100 * p) + 0x10, 6, 8⟩
/-- PART.OUT_CFG.IRQ_EN (R360). -/
def Fld.PARTN_OUT_CFG_IRQ_EN (p : Nat) : Fld := ⟨(0x41000 + 0x100 * p) + 0x10, 14, 1⟩
/-- PART.OUT_PROD.PROD (R360). -/
def Fld.PARTN_OUT_PROD_PROD (p : Nat) : Fld := ⟨(0x41000 + 0x100 * p) + 0x14, 0, 32⟩
/-- PART.OUT_CONS.CONS (R360). -/
def Fld.PARTN_OUT_CONS_CONS (p : Nat) : Fld := ⟨(0x41000 + 0x100 * p) + 0x18, 0, 32⟩
/-- PART.OUT_PI_LO.ADDR_LO (R360). -/
def Fld.PARTN_OUT_PI_LO_ADDR_LO (p : Nat) : Fld := ⟨(0x41000 + 0x100 * p) + 0x1c, 2, 30⟩
/-- PART.OUT_PI_HI.ADDR_HI (R360). -/
def Fld.PARTN_OUT_PI_HI_ADDR_HI (p : Nat) : Fld := ⟨(0x41000 + 0x100 * p) + 0x20, 0, 32⟩
/-- PART.EVT_BASE_LO.BASE_LO (R360). -/
def Fld.PARTN_EVT_BASE_LO_BASE_LO (p : Nat) : Fld := ⟨(0x41000 + 0x100 * p) + 0x24, 6, 26⟩
/-- PART.EVT_BASE_HI.BASE_HI (R360). -/
def Fld.PARTN_EVT_BASE_HI_BASE_HI (p : Nat) : Fld := ⟨(0x41000 + 0x100 * p) + 0x28, 0, 32⟩
/-- PART.EVT_CFG.ENABLE (R360). -/
def Fld.PARTN_EVT_CFG_ENABLE (p : Nat) : Fld := ⟨(0x41000 + 0x100 * p) + 0x2c, 0, 1⟩
/-- PART.EVT_CFG.LOG2 (R360). -/
def Fld.PARTN_EVT_CFG_LOG2 (p : Nat) : Fld := ⟨(0x41000 + 0x100 * p) + 0x2c, 1, 5⟩
/-- PART.EVT_CFG.VECTOR (R360). -/
def Fld.PARTN_EVT_CFG_VECTOR (p : Nat) : Fld := ⟨(0x41000 + 0x100 * p) + 0x2c, 6, 8⟩
/-- PART.EVT_CFG.IRQ_EN (R360). -/
def Fld.PARTN_EVT_CFG_IRQ_EN (p : Nat) : Fld := ⟨(0x41000 + 0x100 * p) + 0x2c, 14, 1⟩
/-- PART.EVT_PROD.PROD (R360). -/
def Fld.PARTN_EVT_PROD_PROD (p : Nat) : Fld := ⟨(0x41000 + 0x100 * p) + 0x30, 0, 32⟩
/-- PART.EVT_CONS.CONS (R360). -/
def Fld.PARTN_EVT_CONS_CONS (p : Nat) : Fld := ⟨(0x41000 + 0x100 * p) + 0x34, 0, 32⟩
/-- PART.EVT_PI_LO.ADDR_LO (R360). -/
def Fld.PARTN_EVT_PI_LO_ADDR_LO (p : Nat) : Fld := ⟨(0x41000 + 0x100 * p) + 0x38, 2, 30⟩
/-- PART.EVT_PI_HI.ADDR_HI (R360). -/
def Fld.PARTN_EVT_PI_HI_ADDR_HI (p : Nat) : Fld := ⟨(0x41000 + 0x100 * p) + 0x3c, 0, 32⟩
/-- PART.HPT_BASE_LO.BASE_LO (R360). -/
def Fld.PARTN_HPT_BASE_LO_BASE_LO (p : Nat) : Fld := ⟨(0x41000 + 0x100 * p) + 0x40, 12, 20⟩
/-- PART.HPT_BASE_HI.BASE_HI (R360). -/
def Fld.PARTN_HPT_BASE_HI_BASE_HI (p : Nat) : Fld := ⟨(0x41000 + 0x100 * p) + 0x44, 0, 32⟩
/-- PART.HPT_COUNT.COUNT (R360). -/
def Fld.PARTN_HPT_COUNT_COUNT (p : Nat) : Fld := ⟨(0x41000 + 0x100 * p) + 0x48, 0, 29⟩
/-- PART.APERTURE.WINDOW (R360). -/
def Fld.PARTN_APERTURE_WINDOW (p : Nat) : Fld := ⟨(0x41000 + 0x100 * p) + 0x4c, 0, 15⟩
/-- BOOT.ID.VENDOR_ID (R393). -/
def Fld.BOOT_ID_VENDOR_ID : Fld := ⟨0 + 0x0, 0, 16⟩
/-- BOOT.ID.DEVICE_ID (R393). -/
def Fld.BOOT_ID_DEVICE_ID : Fld := ⟨0 + 0x0, 16, 16⟩
/-- BOOT.REV.REVISION (R393). -/
def Fld.BOOT_REV_REVISION : Fld := ⟨0 + 0x4, 0, 8⟩
/-- BOOT.REV.SUBSYSTEM (R393). -/
def Fld.BOOT_REV_SUBSYSTEM : Fld := ⟨0 + 0x4, 8, 16⟩
/-- BOOT.CAPACITY.STACK_GIB (R393). -/
def Fld.BOOT_CAPACITY_STACK_GIB : Fld := ⟨0 + 0x8, 0, 8⟩
/-- BOOT.ROM.VERSION (R393). -/
def Fld.BOOT_ROM_VERSION : Fld := ⟨0 + 0xc, 0, 16⟩
/-- BOOT.SERIAL_LO.SERIAL (R393). -/
def Fld.BOOT_SERIAL_LO_SERIAL : Fld := ⟨0 + 0x10, 0, 32⟩
/-- BOOT.SERIAL_HI.SERIAL (R393). -/
def Fld.BOOT_SERIAL_HI_SERIAL : Fld := ⟨0 + 0x14, 0, 32⟩
/-- BOOT.STATE.STATE (R393). -/
def Fld.BOOT_STATE_STATE : Fld := ⟨0 + 0x18, 0, 4⟩
/-- BOOT.STATE.LOCKED (R393). -/
def Fld.BOOT_STATE_LOCKED : Fld := ⟨0 + 0x18, 4, 1⟩
/-- BOOT.STATE.OWNED (R393). -/
def Fld.BOOT_STATE_OWNED : Fld := ⟨0 + 0x18, 5, 1⟩
/-- BOOT.STATE.TEST_UNLOCKED (R393). -/
def Fld.BOOT_STATE_TEST_UNLOCKED : Fld := ⟨0 + 0x18, 6, 1⟩
/-- BOOT.STATE.SLOT (R393). -/
def Fld.BOOT_STATE_SLOT : Fld := ⟨0 + 0x18, 7, 1⟩
/-- BOOT.STATE.FALLBACK (R393). -/
def Fld.BOOT_STATE_FALLBACK : Fld := ⟨0 + 0x18, 8, 1⟩
/-- BOOT.STATE.FAIL_CODE (R393). -/
def Fld.BOOT_STATE_FAIL_CODE : Fld := ⟨0 + 0x18, 16, 8⟩
/-- BOOT.RESET_CAUSE.COLD (R393). -/
def Fld.BOOT_RESET_CAUSE_COLD : Fld := ⟨0 + 0x1c, 0, 1⟩
/-- BOOT.RESET_CAUSE.SYS_RST (R393). -/
def Fld.BOOT_RESET_CAUSE_SYS_RST : Fld := ⟨0 + 0x1c, 1, 1⟩
/-- BOOT.RESET_CAUSE.PERST (R393). -/
def Fld.BOOT_RESET_CAUSE_PERST : Fld := ⟨0 + 0x1c, 2, 1⟩
/-- BOOT.RESET_CAUSE.SOFTWARE (R393). -/
def Fld.BOOT_RESET_CAUSE_SOFTWARE : Fld := ⟨0 + 0x1c, 3, 1⟩
/-- BOOT.RESET_CAUSE.WATCHDOG0 (R393). -/
def Fld.BOOT_RESET_CAUSE_WATCHDOG0 : Fld := ⟨0 + 0x1c, 4, 1⟩
/-- BOOT.RESET_CAUSE.WATCHDOG1 (R393). -/
def Fld.BOOT_RESET_CAUSE_WATCHDOG1 : Fld := ⟨0 + 0x1c, 5, 1⟩
/-- BOOT.RESET_CTRL.WARM (R393). -/
def Fld.BOOT_RESET_CTRL_WARM : Fld := ⟨0 + 0x20, 0, 1⟩
/-- BOOT.RESET_CTRL.CONFIRM (R393). -/
def Fld.BOOT_RESET_CTRL_CONFIRM : Fld := ⟨0 + 0x20, 16, 16⟩
/-- BOOT.TEST.ENABLE (R393). -/
def Fld.BOOT_TEST_ENABLE : Fld := ⟨0 + 0x24, 0, 1⟩
/-- BOOT.READY_MS.READY (R393). -/
def Fld.BOOT_READY_MS_READY : Fld := ⟨0 + 0x28, 0, 16⟩
/-- BOOT.READY_MS.TRAINING (R393). -/
def Fld.BOOT_READY_MS_TRAINING : Fld := ⟨0 + 0x28, 16, 16⟩
/-- BOOT.SELF_TEST.DONE (R393). -/
def Fld.BOOT_SELF_TEST_DONE : Fld := ⟨0 + 0x2c, 0, 1⟩
/-- BOOT.SELF_TEST.PASS (R393). -/
def Fld.BOOT_SELF_TEST_PASS : Fld := ⟨0 + 0x2c, 1, 1⟩
/-- BOOT.SELF_TEST.CLUSTER (R393). -/
def Fld.BOOT_SELF_TEST_CLUSTER : Fld := ⟨0 + 0x2c, 2, 6⟩
/-- BOOT.IMAGE_SVN.SVN (R393). -/
def Fld.BOOT_IMAGE_SVN_SVN : Fld := ⟨0 + 0x30, 0, 32⟩
/-- BOOT.MIN_SVN.SVN (R393). -/
def Fld.BOOT_MIN_SVN_SVN : Fld := ⟨0 + 0x34, 0, 32⟩
/-- SEC.CMD.OP (R394). -/
def Fld.SEC_CMD_OP : Fld := ⟨0x60000 + 0x0, 0, 8⟩
/-- SEC.STATUS.STATE (R394). -/
def Fld.SEC_STATUS_STATE : Fld := ⟨0x60000 + 0x4, 0, 2⟩
/-- SEC.STATUS.RESULT (R394). -/
def Fld.SEC_STATUS_RESULT : Fld := ⟨0x60000 + 0x4, 8, 8⟩
/-- SEC.REQ_LEN.BYTES (R394). -/
def Fld.SEC_REQ_LEN_BYTES : Fld := ⟨0x60000 + 0x8, 0, 16⟩
/-- SEC.RSP_LEN.BYTES (R394). -/
def Fld.SEC_RSP_LEN_BYTES : Fld := ⟨0x60000 + 0xc, 0, 16⟩
/-- SEC.MR.WORD (R394). -/
def Fld.SEC_MR_WORD (i : Nat) : Fld := ⟨0x60000 + 0x100 + 4 * i, 0, 32⟩
/-- SEC.BUFFER.DATA (R394). -/
def Fld.SEC_BUFFER_DATA (i : Nat) : Fld := ⟨0x60000 + 0x4000 + 4 * i, 0, 32⟩
/-- PWR.CTRL.S1_EN (R418). -/
def Fld.PWR_CTRL_S1_EN : Fld := ⟨0x10000 + 0x0, 0, 1⟩
/-- PWR.CTRL.S2_EN (R418). -/
def Fld.PWR_CTRL_S2_EN : Fld := ⟨0x10000 + 0x0, 1, 1⟩
/-- PWR.CTRL.S3_EN (R418). -/
def Fld.PWR_CTRL_S3_EN : Fld := ⟨0x10000 + 0x0, 2, 1⟩
/-- PWR.CTRL.S4_EN (R418). -/
def Fld.PWR_CTRL_S4_EN : Fld := ⟨0x10000 + 0x0, 3, 1⟩
/-- PWR.CTRL.WAKE (R418). -/
def Fld.PWR_CTRL_WAKE : Fld := ⟨0x10000 + 0x0, 4, 1⟩
/-- PWR.CTRL.THERM_N_WARN (R418). -/
def Fld.PWR_CTRL_THERM_N_WARN : Fld := ⟨0x10000 + 0x0, 5, 1⟩
/-- PWR.CTRL.STEP_GATE (R418). -/
def Fld.PWR_CTRL_STEP_GATE : Fld := ⟨0x10000 + 0x0, 6, 1⟩
/-- PWR.STATUS.STATE (R418). -/
def Fld.PWR_STATUS_STATE : Fld := ⟨0x10000 + 0x4, 0, 3⟩
/-- PWR.STATUS.WAKING (R418). -/
def Fld.PWR_STATUS_WAKING : Fld := ⟨0x10000 + 0x4, 3, 1⟩
/-- PWR.STATUS.PWRFAIL (R418). -/
def Fld.PWR_STATUS_PWRFAIL : Fld := ⟨0x10000 + 0x4, 4, 1⟩
/-- PWR.STATUS.THERM_N (R418). -/
def Fld.PWR_STATUS_THERM_N : Fld := ⟨0x10000 + 0x4, 5, 1⟩
/-- PWR.WAKE_TOL.TOL_US (R418). -/
def Fld.PWR_WAKE_TOL_TOL_US : Fld := ⟨0x10000 + 0x8, 0, 24⟩
/-- PWR.WAKE_TOL.LTR_USED (R418). -/
def Fld.PWR_WAKE_TOL_LTR_USED : Fld := ⟨0x10000 + 0x8, 24, 1⟩
/-- PWR.CAP.CAP_W (R418). -/
def Fld.PWR_CAP_CAP_W : Fld := ⟨0x10000 + 0xc, 0, 16⟩
/-- PWR.POWER.AVG_W (R418). -/
def Fld.PWR_POWER_AVG_W : Fld := ⟨0x10000 + 0x10, 0, 16⟩
/-- PWR.POWER.PEAK_W (R418). -/
def Fld.PWR_POWER_PEAK_W : Fld := ⟨0x10000 + 0x10, 16, 16⟩
/-- PWR.EVENTS.CAP_ACTIVE (R418). -/
def Fld.PWR_EVENTS_CAP_ACTIVE : Fld := ⟨0x10000 + 0x14, 0, 1⟩
/-- PWR.EVENTS.NEIGHBOUR_V (R418). -/
def Fld.PWR_EVENTS_NEIGHBOUR_V : Fld := ⟨0x10000 + 0x14, 1, 1⟩
/-- PWR.EVENTS.NEIGHBOUR_T (R418). -/
def Fld.PWR_EVENTS_NEIGHBOUR_T : Fld := ⟨0x10000 + 0x14, 2, 1⟩
/-- PWR.EVENTS.CLUSTER_CAP (R418). -/
def Fld.PWR_EVENTS_CLUSTER_CAP : Fld := ⟨0x10000 + 0x14, 3, 1⟩
/-- PWR.EVENTS.PWRFAIL_SEEN (R418). -/
def Fld.PWR_EVENTS_PWRFAIL_SEEN : Fld := ⟨0x10000 + 0x14, 4, 1⟩
/-- PWR.EVENTS.TRIP_SEEN (R418). -/
def Fld.PWR_EVENTS_TRIP_SEEN : Fld := ⟨0x10000 + 0x14, 5, 1⟩
/-- PWR.EVENTS.OE_TRIP (R418). -/
def Fld.PWR_EVENTS_OE_TRIP : Fld := ⟨0x10000 + 0x14, 6, 1⟩
/-- PWR.SENSOR_SELECT.INDEX (R418). -/
def Fld.PWR_SENSOR_SELECT_INDEX : Fld := ⟨0x10000 + 0x18, 0, 8⟩
/-- PWR.SENSOR.TEMP (R418). -/
def Fld.PWR_SENSOR_TEMP : Fld := ⟨0x10000 + 0x1c, 0, 11⟩
/-- PWR.SENSOR.VALID (R418). -/
def Fld.PWR_SENSOR_VALID : Fld := ⟨0x10000 + 0x1c, 11, 1⟩
/-- PWR.SENSOR.WARN (R418). -/
def Fld.PWR_SENSOR_WARN : Fld := ⟨0x10000 + 0x1c, 12, 1⟩
/-- PWR.SENSOR.CAP (R418). -/
def Fld.PWR_SENSOR_CAP : Fld := ⟨0x10000 + 0x1c, 13, 1⟩
/-- PWR.FREQ.CODE_c (R418). -/
def Fld.PWR_FREQ_CODE (i : Nat) (j : Nat) : Fld := ⟨0x10000 + 0x40 + 4 * i, (4 * j), 4⟩
/-- PWR.FREQ_NOW.CODE_c (R418). -/
def Fld.PWR_FREQ_NOW_CODE (i : Nat) (j : Nat) : Fld := ⟨0x10000 + 0x60 + 4 * i, (4 * j), 4⟩
/-- PWR.VOLT.MV_b (R418). -/
def Fld.PWR_VOLT_MV (i : Nat) (j : Nat) : Fld := ⟨0x10000 + 0x80 + 4 * i, (8 * j), 8⟩
/-- JSP.CTRL.FLUSH (R438). -/
def Fld.JSP_CTRL_FLUSH : Fld := ⟨0x20000 + 0x0, 0, 1⟩
/-- JSP.CTRL.IBI_EN (R438). -/
def Fld.JSP_CTRL_IBI_EN : Fld := ⟨0x20000 + 0x0, 1, 1⟩
/-- JSP.CTRL.IBI_CLASS (R438). -/
def Fld.JSP_CTRL_IBI_CLASS : Fld := ⟨0x20000 + 0x0, 2, 4⟩
/-- JSP.STATUS.REBASED (R438). -/
def Fld.JSP_STATUS_REBASED : Fld := ⟨0x20000 + 0x4, 0, 1⟩
/-- JSP.STATUS.BASE_LOST (R438). -/
def Fld.JSP_STATUS_BASE_LOST : Fld := ⟨0x20000 + 0x4, 1, 1⟩
/-- JSP.STATUS.VAULT_OK (R438). -/
def Fld.JSP_STATUS_VAULT_OK : Fld := ⟨0x20000 + 0x4, 2, 1⟩
/-- JSP.STATUS.FLUSH_BUSY (R438). -/
def Fld.JSP_STATUS_FLUSH_BUSY : Fld := ⟨0x20000 + 0x4, 3, 1⟩
/-- JSP.NEXT_SEQ.SEQ (R438). -/
def Fld.JSP_NEXT_SEQ_SEQ : Fld := ⟨0x20000 + 0x8, 0, 32⟩
/-- JSP.OLDEST_SRAM.SEQ (R438). -/
def Fld.JSP_OLDEST_SRAM_SEQ : Fld := ⟨0x20000 + 0xc, 0, 32⟩
/-- JSP.OLDEST_VAULT.SEQ (R438). -/
def Fld.JSP_OLDEST_VAULT_SEQ : Fld := ⟨0x20000 + 0x10, 0, 32⟩
/-- JSP.JOURNALLED.SEQ (R438). -/
def Fld.JSP_JOURNALLED_SEQ : Fld := ⟨0x20000 + 0x14, 0, 32⟩
/-- JSP.READ_SEQ.SEQ (R438). -/
def Fld.JSP_READ_SEQ_SEQ : Fld := ⟨0x20000 + 0x18, 0, 32⟩
/-- JSP.READ_STATUS.STATE (R438). -/
def Fld.JSP_READ_STATUS_STATE : Fld := ⟨0x20000 + 0x1c, 0, 2⟩
/-- JSP.ENTRY.WORD (R438). -/
def Fld.JSP_ENTRY_WORD (i : Nat) : Fld := ⟨0x20000 + 0x20 + 4 * i, 0, 32⟩
/-- JSP.OP_SECONDS.SECONDS (R438). -/
def Fld.JSP_OP_SECONDS_SECONDS : Fld := ⟨0x20000 + 0x40, 0, 32⟩
/-- JSP.POWER_CYCLES.CYCLES (R438). -/
def Fld.JSP_POWER_CYCLES_CYCLES : Fld := ⟨0x20000 + 0x44, 0, 24⟩
/-- JSP.RATE.WINDOW_MS (R438). -/
def Fld.JSP_RATE_WINDOW_MS : Fld := ⟨0x20000 + 0x48, 0, 14⟩
/-- JSP.RATE.LIMIT (R438). -/
def Fld.JSP_RATE_LIMIT : Fld := ⟨0x20000 + 0x48, 14, 8⟩
/-- JSP.CTR_CLEAR.OFFSET (R438). -/
def Fld.JSP_CTR_CLEAR_OFFSET : Fld := ⟨0x20000 + 0x4c, 2, 26⟩
/-- JSP.CTR_CLEAR.BLOCK (R438). -/
def Fld.JSP_CTR_CLEAR_BLOCK : Fld := ⟨0x20000 + 0x4c, 28, 1⟩
/-- JSP.WDOG_CTRL.PERIOD_MS (R438). -/
def Fld.JSP_WDOG_CTRL_PERIOD_MS : Fld := ⟨0x20000 + 0x50, 0, 14⟩
/-- JSP.WDOG_STATUS.LEFT0_MS (R438). -/
def Fld.JSP_WDOG_STATUS_LEFT0_MS : Fld := ⟨0x20000 + 0x54, 0, 16⟩
/-- JSP.WDOG_STATUS.LEFT1_MS (R438). -/
def Fld.JSP_WDOG_STATUS_LEFT1_MS : Fld := ⟨0x20000 + 0x54, 16, 16⟩
/-- JSP.WDOG_KICK.KICK (R438). -/
def Fld.JSP_WDOG_KICK_KICK : Fld := ⟨0x20000 + 0x58, 0, 1⟩
/-- CDC.STATUS.POWERED (R444). -/
def Fld.CDC_STATUS_POWERED (d : Nat) : Fld := ⟨dieBase d + 0x0, 0, 16⟩
/-- CLC.STATUS.POWERED (R444). -/
def Fld.CLC_STATUS_POWERED (k : Nat) : Fld := ⟨clusterBase k + 0x0, 0, 1⟩
/-- CLC.STATUS.CLOCK_ON (R444). -/
def Fld.CLC_STATUS_CLOCK_ON (k : Nat) : Fld := ⟨clusterBase k + 0x0, 1, 1⟩
/-- CLC.STATUS.STEP_ENDED (R444). -/
def Fld.CLC_STATUS_STEP_ENDED (k : Nat) : Fld := ⟨clusterBase k + 0x0, 2, 1⟩
/-- CLC.ID.GLOBAL_CLUSTER (R444). -/
def Fld.CLC_ID_GLOBAL_CLUSTER (k : Nat) : Fld := ⟨clusterBase k + 0x4, 0, 6⟩
/-- CLC.ID.DIE (R444). -/
def Fld.CLC_ID_DIE (k : Nat) : Fld := ⟨clusterBase k + 0x4, 6, 2⟩
/-- MDC.STATUS.STACK_READY (R444). -/
def Fld.MDC_STATUS_STACK_READY (m : Nat) : Fld := ⟨(memDieBase m + 0xC00000) + 0x0, 0, 3⟩
/-- GRID.GRID.ENTRY_0 (R68). -/
def Fld.GRID_GRID_ENTRY_0 (c : Nat) (i : Nat) : Fld := ⟨coreBase c + 0x200 + 4 * i, 0, 8⟩
/-- GRID.GRID.ENTRY_1 (R68). -/
def Fld.GRID_GRID_ENTRY_1 (c : Nat) (i : Nat) : Fld := ⟨coreBase c + 0x200 + 4 * i, 8, 8⟩
/-- GRID.GRID.ENTRY_2 (R68). -/
def Fld.GRID_GRID_ENTRY_2 (c : Nat) (i : Nat) : Fld := ⟨coreBase c + 0x200 + 4 * i, 16, 8⟩
/-- GRID.GRID.ENTRY_3 (R68). -/
def Fld.GRID_GRID_ENTRY_3 (c : Nat) (i : Nat) : Fld := ⟨coreBase c + 0x200 + 4 * i, 24, 8⟩

/-- GARNET.OVERRUN_COUNT (R434). -/
def Ct.GARNET_OVERRUN_COUNT : Nat := 0x70000 + 0x20
/-- GARNET.OVERRUN_US (R434). -/
def Ct.GARNET_OVERRUN_US : Nat := 0x70000 + 0x28
/-- GARNET.LATE_STEP_COUNT (R434). -/
def Ct.GARNET_LATE_STEP_COUNT : Nat := 0x70000 + 0x30
/-- GARNET.TOKEN_WAIT_US (R434). -/
def Ct.GARNET_TOKEN_WAIT_US : Nat := 0x70000 + 0x38
/-- GARNET.STALE_TOKEN_COUNT (R434). -/
def Ct.GARNET_STALE_TOKEN_COUNT : Nat := 0x70000 + 0x40
/-- GARNET.ABANDON_COUNT (R434). -/
def Ct.GARNET_ABANDON_COUNT : Nat := 0x70000 + 0x48
/-- ENG.BUSY_CYCLES (R434). -/
def Ct.ENG_BUSY_CYCLES (g : Nat) : Nat := engBase g + 0x20
/-- ENG.LOAD_BOUND_CYCLES (R434). -/
def Ct.ENG_LOAD_BOUND_CYCLES (g : Nat) : Nat := engBase g + 0x28
/-- ENG.SHIFT_EVENTS (R434). -/
def Ct.ENG_SHIFT_EVENTS (g : Nat) : Nat := engBase g + 0x30
/-- ENG.COMP_CYCLES (R434). -/
def Ct.ENG_COMP_CYCLES (g : Nat) : Nat := engBase g + 0x38
/-- VEC.BUSY_CYCLES (R434). -/
def Ct.VEC_BUSY_CYCLES (c : Nat) : Nat := (coreBase c + 0x1000) + 0x10
/-- VEC.ELEMENTS (R434). -/
def Ct.VEC_ELEMENTS (c : Nat) : Nat := (coreBase c + 0x1000) + 0x18
/-- GUARD.RERUN_COUNT (R434). -/
def Ct.GUARD_RERUN_COUNT (k : Nat) : Nat := (clusterBase k + 0x1000) + 0x100
/-- GUARD.EXHAUST_COUNT (R434). -/
def Ct.GUARD_EXHAUST_COUNT (k : Nat) : Nat := (clusterBase k + 0x1000) + 0x108
/-- GUARD.SUSPECT_COUNT (R434). -/
def Ct.GUARD_SUSPECT_COUNT (k : Nat) : Nat := (clusterBase k + 0x1000) + 0x110
/-- GUARD.UNGUARDED_SAT (R434). -/
def Ct.GUARD_UNGUARDED_SAT (k : Nat) : Nat := (clusterBase k + 0x1000) + 0x118
/-- GUARD.SAT_TOTAL (R434). -/
def Ct.GUARD_SAT_TOTAL (k : Nat) : Nat := (clusterBase k + 0x1000) + 0x120
/-- GUARD.REPORT_COUNT (R434). -/
def Ct.GUARD_REPORT_COUNT (k : Nat) : Nat := (clusterBase k + 0x1000) + 0x128
/-- EXP.STALL_CYCLES (R434). -/
def Ct.EXP_STALL_CYCLES (g : Nat) : Nat := engBase g + 0x810
/-- EXP.TABLE_LOADS (R434). -/
def Ct.EXP_TABLE_LOADS (g : Nat) : Nat := engBase g + 0x818
/-- EXP.TILES_CODED (R434). -/
def Ct.EXP_TILES_CODED (g : Nat) : Nat := engBase g + 0x820
/-- EXP.TILES_RAW (R434). -/
def Ct.EXP_TILES_RAW (g : Nat) : Nat := engBase g + 0x828
/-- EXP.SKEW_EVENTS (R434). -/
def Ct.EXP_SKEW_EVENTS (g : Nat) : Nat := engBase g + 0x830
/-- EXP.SUM_ERRORS (R434). -/
def Ct.EXP_SUM_ERRORS (g : Nat) : Nat := engBase g + 0x838
/-- EXP.PARITY_ERRORS (R434). -/
def Ct.EXP_PARITY_ERRORS (g : Nat) : Nat := engBase g + 0x840
/-- EXP.REFUSED (R434). -/
def Ct.EXP_REFUSED (g : Nat) : Nat := engBase g + 0x848
/-- CTAB.ALLOCATIONS (R434). -/
def Ct.CTAB_ALLOCATIONS : Nat := 0x09C01000 + 0x8
/-- CTAB.FORCED_REUSE (R434). -/
def Ct.CTAB_FORCED_REUSE : Nat := 0x09C01000 + 0x10
/-- ENC.SEGMENTS_DONE (R434). -/
def Ct.ENC_SEGMENTS_DONE (m : Nat) : Nat := (memDieBase m + 0xC02000) + 0x10
/-- ENC.TILES_CODED (R434). -/
def Ct.ENC_TILES_CODED (m : Nat) : Nat := (memDieBase m + 0xC02000) + 0x18
/-- ENC.TILES_RAW (R434). -/
def Ct.ENC_TILES_RAW (m : Nat) : Nat := (memDieBase m + 0xC02000) + 0x20
/-- ENC.BYTES_IN (R434). -/
def Ct.ENC_BYTES_IN (m : Nat) : Nat := (memDieBase m + 0xC02000) + 0x28
/-- ENC.BYTES_OUT (R434). -/
def Ct.ENC_BYTES_OUT (m : Nat) : Nat := (memDieBase m + 0xC02000) + 0x30
/-- CH.CE_COUNT (R434). -/
def Ct.CH_CE_COUNT (ch : Nat) : Nat := channelBase ch + 0x10
/-- CH.UE_COUNT (R434). -/
def Ct.CH_UE_COUNT (ch : Nat) : Nat := channelBase ch + 0x18
/-- CH.POISON_READS (R434). -/
def Ct.CH_POISON_READS (ch : Nat) : Nat := channelBase ch + 0x20
/-- CH.BUSY_BURSTS (R434). -/
def Ct.CH_BUSY_BURSTS (ch : Nat) : Nat := channelBase ch + 0x28
/-- CH.ROW_OPENS (R434). -/
def Ct.CH_ROW_OPENS (ch : Nat) : Nat := channelBase ch + 0x30
/-- CH.RMW_COUNT (R434). -/
def Ct.CH_RMW_COUNT (ch : Nat) : Nat := channelBase ch + 0x38
/-- CH.LANE_CE (R434). -/
def Ct.CH_LANE_CE (ch : Nat) (i : Nat) : Nat := channelBase ch + 0x100 + 8 * i
/-- STK.WARN_COUNT (R434). -/
def Ct.STK_WARN_COUNT (st : Nat) : Nat := stackBase st + 0x20
/-- STK.THROTTLE_COUNT (R434). -/
def Ct.STK_THROTTLE_COUNT (st : Nat) : Nat := stackBase st + 0x28
/-- STK.THROTTLE_US (R434). -/
def Ct.STK_THROTTLE_US (st : Nat) : Nat := stackBase st + 0x30
/-- STK.SCRUB_CORRECTED (R434). -/
def Ct.STK_SCRUB_CORRECTED (st : Nat) : Nat := stackBase st + 0x38
/-- STK.PART_BURSTS (R434). -/
def Ct.STK_PART_BURSTS (st : Nat) (i : Nat) : Nat := stackBase st + 0x200 + 16 * i
/-- STK.PART_HELD (R434). -/
def Ct.STK_PART_HELD (st : Nat) (i : Nat) : Nat := stackBase st + 0x208 + 16 * i
/-- OBJ.EVICTIONS (R434). -/
def Ct.OBJ_EVICTIONS : Nat := 0x50000 + 0x80
/-- OBJ.MOVES (R434). -/
def Ct.OBJ_MOVES : Nat := 0x50000 + 0x88
/-- OBJ.TRANSIENT_READS (R434). -/
def Ct.OBJ_TRANSIENT_READS : Nat := 0x50000 + 0x90
/-- OBJ.REFETCHES (R434). -/
def Ct.OBJ_REFETCHES : Nat := 0x50000 + 0x98
/-- OBJ.SUBSTITUTIONS (R434). -/
def Ct.OBJ_SUBSTITUTIONS : Nat := 0x50000 + 0xa0
/-- OBJ.POISONED_TILES (R434). -/
def Ct.OBJ_POISONED_TILES : Nat := 0x50000 + 0xa8
/-- OBJ.QUARANTINES (R434). -/
def Ct.OBJ_QUARANTINES : Nat := 0x50000 + 0xb0
/-- OBJ.RETIRED_FRAMES (R434). -/
def Ct.OBJ_RETIRED_FRAMES : Nat := 0x50000 + 0xb8
/-- OBJ.STALL_FAR_US (R434). -/
def Ct.OBJ_STALL_FAR_US (i : Nat) : Nat := 0x50000 + 0x400 + 32 * i
/-- OBJ.STALL_HOST_US (R434). -/
def Ct.OBJ_STALL_HOST_US (i : Nat) : Nat := 0x50000 + 0x408 + 32 * i
/-- OBJ.STALL_FLASH_US (R434). -/
def Ct.OBJ_STALL_FLASH_US (i : Nat) : Nat := 0x50000 + 0x410 + 32 * i
/-- OBJ.STALL_FETCHES (R434). -/
def Ct.OBJ_STALL_FETCHES (i : Nat) : Nat := 0x50000 + 0x418 + 32 * i
/-- MOV.DIR_HITS (R434). -/
def Ct.MOV_DIR_HITS (m : Nat) : Nat := (memDieBase m + 0xC03000) + 0x10
/-- MOV.DIR_MISSES (R434). -/
def Ct.MOV_DIR_MISSES (m : Nat) : Nat := (memDieBase m + 0xC03000) + 0x18
/-- MOV.TILES_IN (R434). -/
def Ct.MOV_TILES_IN (m : Nat) : Nat := (memDieBase m + 0xC03000) + 0x20
/-- MOV.TILES_OUT (R434). -/
def Ct.MOV_TILES_OUT (m : Nat) : Nat := (memDieBase m + 0xC03000) + 0x28
/-- MOV.BYTES_MOVED (R434). -/
def Ct.MOV_BYTES_MOVED (m : Nat) : Nat := (memDieBase m + 0xC03000) + 0x30
/-- MOV.TAIL_READS (R434). -/
def Ct.MOV_TAIL_READS (m : Nat) : Nat := (memDieBase m + 0xC03000) + 0x38
/-- FCH.READS (R434). -/
def Ct.FCH_READS (n : Nat) : Nat := (0x200000 + 0x1000 * n) + 0x20
/-- FCH.PROGRAMS (R434). -/
def Ct.FCH_PROGRAMS (n : Nat) : Nat := (0x200000 + 0x1000 * n) + 0x28
/-- FCH.ERASES (R434). -/
def Ct.FCH_ERASES (n : Nat) : Nat := (0x200000 + 0x1000 * n) + 0x30
/-- FCH.CORRECTED_BITS (R434). -/
def Ct.FCH_CORRECTED_BITS (n : Nat) : Nat := (0x200000 + 0x1000 * n) + 0x38
/-- FCH.RETRY_READS (R434). -/
def Ct.FCH_RETRY_READS (n : Nat) : Nat := (0x200000 + 0x1000 * n) + 0x40
/-- FCH.SOFT_DECODES (R434). -/
def Ct.FCH_SOFT_DECODES (n : Nat) : Nat := (0x200000 + 0x1000 * n) + 0x48
/-- FCH.UNREADABLE (R434). -/
def Ct.FCH_UNREADABLE (n : Nat) : Nat := (0x200000 + 0x1000 * n) + 0x50
/-- FCH.PROGRAM_FAILS (R434). -/
def Ct.FCH_PROGRAM_FAILS (n : Nat) : Nat := (0x200000 + 0x1000 * n) + 0x58
/-- FCH.ERASE_FAILS (R434). -/
def Ct.FCH_ERASE_FAILS (n : Nat) : Nat := (0x200000 + 0x1000 * n) + 0x60
/-- ONYX.READ_REFRESHES (R434). -/
def Ct.ONYX_READ_REFRESHES : Nat := 0x240000 + 0x80
/-- ONYX.ECC_REFRESHES (R434). -/
def Ct.ONYX_ECC_REFRESHES : Nat := 0x240000 + 0x88
/-- ONYX.WL_MOVES (R434). -/
def Ct.ONYX_WL_MOVES : Nat := 0x240000 + 0x90
/-- ONYX.COMPACTIONS (R434). -/
def Ct.ONYX_COMPACTIONS : Nat := 0x240000 + 0x98
/-- ONYX.RETIRED_BLOCKS (R434). -/
def Ct.ONYX_RETIRED_BLOCKS : Nat := 0x240000 + 0xa0
/-- ONYX.UNREADABLE_SECTORS (R434). -/
def Ct.ONYX_UNREADABLE_SECTORS : Nat := 0x240000 + 0xa8
/-- ONYX.JOURNAL_COMMITS (R434). -/
def Ct.ONYX_JOURNAL_COMMITS : Nat := 0x240000 + 0xb0
/-- ONYX.CHECKPOINTS (R434). -/
def Ct.ONYX_CHECKPOINTS : Nat := 0x240000 + 0xb8
/-- ONYX.DISCARDED_INSTALLS (R434). -/
def Ct.ONYX_DISCARDED_INSTALLS : Nat := 0x240000 + 0xc0
/-- LNK.TX_FLITS (R434). -/
def Ct.LNK_TX_FLITS (p : Nat) : Nat := (0x100000 + 0x10000 * p) + 0x100
/-- LNK.RX_FLITS (R434). -/
def Ct.LNK_RX_FLITS (p : Nat) : Nat := (0x100000 + 0x10000 * p) + 0x108
/-- LNK.CRC_ERRORS (R434). -/
def Ct.LNK_CRC_ERRORS (p : Nat) : Nat := (0x100000 + 0x10000 * p) + 0x110
/-- LNK.FEC_UNCORRECTED (R434). -/
def Ct.LNK_FEC_UNCORRECTED (p : Nat) : Nat := (0x100000 + 0x10000 * p) + 0x118
/-- LNK.NAKS_SENT (R434). -/
def Ct.LNK_NAKS_SENT (p : Nat) : Nat := (0x100000 + 0x10000 * p) + 0x120
/-- LNK.REPLAYS (R434). -/
def Ct.LNK_REPLAYS (p : Nat) : Nat := (0x100000 + 0x10000 * p) + 0x128
/-- LNK.DEGRADES (R434). -/
def Ct.LNK_DEGRADES (p : Nat) : Nat := (0x100000 + 0x10000 * p) + 0x130
/-- LNK.RETRAINS (R434). -/
def Ct.LNK_RETRAINS (p : Nat) : Nat := (0x100000 + 0x10000 * p) + 0x138
/-- LNK.MSG_DISCARDED (R434). -/
def Ct.LNK_MSG_DISCARDED (p : Nat) : Nat := (0x100000 + 0x10000 * p) + 0x140
/-- LNK.MSG_HELD (R434). -/
def Ct.LNK_MSG_HELD (p : Nat) : Nat := (0x100000 + 0x10000 * p) + 0x148
/-- LNK.HOLD_FULL_US (R434). -/
def Ct.LNK_HOLD_FULL_US (p : Nat) : Nat := (0x100000 + 0x10000 * p) + 0x150
/-- LNK.L8_FORMAT_ERRORS (R434). -/
def Ct.LNK_L8_FORMAT_ERRORS (p : Nat) : Nat := (0x100000 + 0x10000 * p) + 0x158
/-- LNK.L8_CLAMPS (R434). -/
def Ct.LNK_L8_CLAMPS (p : Nat) : Nat := (0x100000 + 0x10000 * p) + 0x160
/-- LNK.BAD_FLITS (R434). -/
def Ct.LNK_BAD_FLITS (p : Nat) : Nat := (0x100000 + 0x10000 * p) + 0x168
/-- LNK.INJECTED (R434). -/
def Ct.LNK_INJECTED (p : Nat) : Nat := (0x100000 + 0x10000 * p) + 0x170
/-- LNK.LANE_FEC (R434). -/
def Ct.LNK_LANE_FEC (p : Nat) (i : Nat) : Nat := (0x100000 + 0x10000 * p) + 0x200 + 8 * i
/-- TOPO.LOSSES (R434). -/
def Ct.TOPO_LOSSES : Nat := 0x80000 + 0x20
/-- TOPO.RESET_REQUESTS (R434). -/
def Ct.TOPO_RESET_REQUESTS : Nat := 0x80000 + 0x28
/-- TOPO.RELINKS (R434). -/
def Ct.TOPO_RELINKS : Nat := 0x80000 + 0x30
/-- TOPO.AGATE_OPERATIONS (R434). -/
def Ct.TOPO_AGATE_OPERATIONS : Nat := 0x80000 + 0x38
/-- TOPO.MISCABLED (R434). -/
def Ct.TOPO_MISCABLED : Nat := 0x80000 + 0x40
/-- HQ.COMMANDS (R434). -/
def Ct.HQ_COMMANDS : Nat := 0x30000 + 0x10
/-- HQ.QUEUE_ERRORS (R434). -/
def Ct.HQ_QUEUE_ERRORS : Nat := 0x30000 + 0x18
/-- HQ.COMPLETION_TIMEOUTS (R434). -/
def Ct.HQ_COMPLETION_TIMEOUTS : Nat := 0x30000 + 0x20
/-- PART.TOKENS (R434). -/
def Ct.PARTN_TOKENS (p : Nat) : Nat := (0x41000 + 0x100 * p) + 0x80
/-- PART.WITHHELD (R434). -/
def Ct.PARTN_WITHHELD (p : Nat) : Nat := (0x41000 + 0x100 * p) + 0x88
/-- PART.SUSPECT (R434). -/
def Ct.PARTN_SUSPECT (p : Nat) : Nat := (0x41000 + 0x100 * p) + 0x90
/-- PART.RING_FULL_STEPS (R434). -/
def Ct.PARTN_RING_FULL_STEPS (p : Nat) : Nat := (0x41000 + 0x100 * p) + 0x98
/-- PART.EVENTS_LOST (R434). -/
def Ct.PARTN_EVENTS_LOST (p : Nat) : Nat := (0x41000 + 0x100 * p) + 0xa0
/-- PART.HOST_READ_ERRORS (R434). -/
def Ct.PARTN_HOST_READ_ERRORS (p : Nat) : Nat := (0x41000 + 0x100 * p) + 0xa8
/-- PWR.RES_S1_MS (R434). -/
def Ct.PWR_RES_S1_MS : Nat := 0x10000 + 0x100
/-- PWR.RES_S2_MS (R434). -/
def Ct.PWR_RES_S2_MS : Nat := 0x10000 + 0x108
/-- PWR.RES_S3_MS (R434). -/
def Ct.PWR_RES_S3_MS : Nat := 0x10000 + 0x110
/-- PWR.RES_S4_MS (R434). -/
def Ct.PWR_RES_S4_MS : Nat := 0x10000 + 0x118
/-- PWR.WAKES (R434). -/
def Ct.PWR_WAKES : Nat := 0x10000 + 0x120
/-- PWR.CAP_STEPS (R434). -/
def Ct.PWR_CAP_STEPS : Nat := 0x10000 + 0x128
/-- PWR.THERMAL_STEPS (R434). -/
def Ct.PWR_THERMAL_STEPS : Nat := 0x10000 + 0x130
/-- PWR.PWRFAIL_COUNT (R434). -/
def Ct.PWR_PWRFAIL_COUNT : Nat := 0x10000 + 0x138
/-- JSP.RECORDED (R434). -/
def Ct.JSP_RECORDED : Nat := 0x20000 + 0x80
/-- JSP.SUPPRESSED (R434). -/
def Ct.JSP_SUPPRESSED : Nat := 0x20000 + 0x88
/-- JSP.OVERWRITTEN_UNSAVED (R434). -/
def Ct.JSP_OVERWRITTEN_UNSAVED : Nat := 0x20000 + 0x90
/-- JSP.INTAKE_DROPS (R434). -/
def Ct.JSP_INTAKE_DROPS : Nat := 0x20000 + 0x98
/-- JSP.FLUSHES (R434). -/
def Ct.JSP_FLUSHES : Nat := 0x20000 + 0xa0
/-- JSP.MGMT_ECC_CORRECTED (R434). -/
def Ct.JSP_MGMT_ECC_CORRECTED : Nat := 0x20000 + 0xa8
/-- CDC.BOND_UNITS (R434). -/
def Ct.CDC_BOND_UNITS (d : Nat) : Nat := dieBase d + 0x10
/-- CDC.BRIDGE_NEXT_UNITS (R434). -/
def Ct.CDC_BRIDGE_NEXT_UNITS (d : Nat) : Nat := dieBase d + 0x18
/-- CDC.BRIDGE_PREV_UNITS (R434). -/
def Ct.CDC_BRIDGE_PREV_UNITS (d : Nat) : Nat := dieBase d + 0x20
/-- CLC.FETCHES (R434). -/
def Ct.CLC_FETCHES (k : Nat) : Nat := clusterBase k + 0x10
/-- CLC.FETCH_UNITS (R434). -/
def Ct.CLC_FETCH_UNITS (k : Nat) : Nat := clusterBase k + 0x18
/-- CLC.CC_OPS (R434). -/
def Ct.CLC_CC_OPS (k : Nat) : Nat := clusterBase k + 0x20
/-- CLC.CC_PARITY (R434). -/
def Ct.CLC_CC_PARITY (k : Nat) : Nat := clusterBase k + 0x28
/-- MDC.IOD_IN_UNITS (R434). -/
def Ct.MDC_IOD_IN_UNITS (m : Nat) : Nat := (memDieBase m + 0xC00000) + 0x10
/-- MDC.IOD_OUT_UNITS (R434). -/
def Ct.MDC_IOD_OUT_UNITS (m : Nat) : Nat := (memDieBase m + 0xC00000) + 0x18
/-- MDC.FAR_UNITS (R434). -/
def Ct.MDC_FAR_UNITS (m : Nat) : Nat := (memDieBase m + 0xC00000) + 0x20

end Sys2Proof.Machine
end

