-- ==== Sys2Proof/Machine/Ranges.lean ====
section
/-! DEFINITION. The values that a field accepts, where its table gives a range (R17 and the register tables of each chapter), and which of
them record an event when another value is written. -/

namespace Sys2Proof.Machine

/-- A field's range: its block, the offset of its register (of the first, in an array), its lowest bit, the least and greatest value, and
whether another value is recorded. -/
structure Range where
  blk   : Blk
  off   : Nat
  lo    : Nat
  least : Nat
  most  : Nat
  event : Bool
  deriving DecidableEq, Repr

/-- The ranges of the register tables. -/
def ranges : List Range :=
  [⟨.garnet, 0x4, 0, 250, 64000, true⟩,
   ⟨.guard, 0x18, 0, 1, 65535, false⟩,
   ⟨.ctab, 0x0, 0, 90, 100, true⟩,
   ⟨.ch, 0xc, 16, 1, 65535, false⟩,
   ⟨.stk, 0x10, 0, 1, 100, true⟩,
   ⟨.stk, 0x14, 8, 1, 24, false⟩,
   ⟨.stk, 0x100, 0, 0, 100, true⟩,
   ⟨.stk, 0x100, 8, 0, 100, true⟩,
   ⟨.onyx, 0x10, 0, 1000, 16777215, false⟩,
   ⟨.onyx, 0x14, 0, 1, 65535, false⟩,
   ⟨.onyx, 0x14, 16, 1, 65535, false⟩,
   ⟨.onyx, 0x18, 0, 1, 255, false⟩,
   ⟨.onyx, 0x1c, 0, 1, 20, false⟩,
   ⟨.onyx, 0x20, 0, 1, 60, false⟩,
   ⟨.lnk, 0x14, 0, 1, 4294967295, false⟩,
   ⟨.topo, 0x0, 0, 1, 16, true⟩,
   ⟨.topo, 0x0, 5, 1, 32, true⟩,
   ⟨.hq, 0x3000, 0, 1, 255, false⟩,
   ⟨.partp, 0x10, 1, 6, 16, false⟩,
   ⟨.partp, 0x2c, 1, 4, 12, false⟩,
   ⟨.pwr, 0xc, 0, 500, 1500, false⟩,
   ⟨.jsp, 0x0, 2, 0, 4, false⟩,
   ⟨.jsp, 0x48, 0, 100, 10000, false⟩,
   ⟨.jsp, 0x48, 14, 1, 255, false⟩,
   ⟨.jsp, 0x50, 0, 100, 10000, false⟩] ++
  (List.range 8).map fun j => ⟨.pwr, 0x40, 4 * j, 0, 8, false⟩

/-- The range of a field of a register. -/
def rangeOf (b : Blk) (r : RegDef) (lo : Nat) : Option Range := ranges.find? fun x => x.blk == b && x.off == r.off && x.lo == lo

/-- A field accepts the value (R17). -/
def Fld.accepts (f : Fld) (v : Nat) : Bool :=
  match regAt f.addr with
  | .word b r _ =>
    match rangeOf b r f.lo with
    | some x => decide (x.least ≤ v) && decide (v ≤ x.most)
    | none => decide (v < 2 ^ f.w)
  | _ => false

end Sys2Proof.Machine
end

