-- ==== Sys2Proof/Machine/Numbers.lean ====
section
/-! DEFINITION. Number formats, grids, rounding and saturation (chapter 03). All arithmetic is exact over `Int` up to the one
rounding of R79. -/

namespace Sys2Proof.Machine

/-- Rounding of n / d to nearest, ties to even, for d > 0 (R79). -/
def rne (n d : Int) : Int :=
  let q := n / d
  let r := n % d
  if 2 * r > d ∨ (2 * r = d ∧ q % 2 = 1) then q + 1 else q

/-- `x` limited to [lo, hi]. -/
def clampI (lo hi x : Int) : Int := if x < lo then lo else if x > hi then hi else x

/-- Smallest and largest value of a signed `w`-bit type. -/
def minOf (w : Nat) : Int := -(2 ^ (w - 1) : Int)

/-- The largest value of a signed `w`-bit type. -/
def maxOf (w : Nat) : Int := (2 ^ (w - 1) : Int) - 1

/-- Saturation to the signed `w`-bit type (R82, R123). -/
def satW (w : Nat) (x : Int) : Int := clampI (minOf w) (maxOf w) x

/-- Wrapping to the signed `w`-bit type (R123). -/
def wrapW (w : Nat) (x : Int) : Int := (BitVec.ofInt w x).toInt

/-- Whether `x` lies outside the signed `w`-bit type. -/
def outW (w : Nat) (x : Int) : Bool := decide (x < minOf w) || decide (maxOf w < x)

/-- The formats of R61 that a place may name. -/
inductive Fmt
  | g4 | u8 | u4z | a8 | a16 | l8
  deriving DecidableEq, Repr

/-- The 4-bit format code of R61; `none` for the unused encodings 0x6 to 0xF. -/
def Fmt.ofCode : Nat → Option Fmt
  | 0 => some .g4
  | 1 => some .u8
  | 2 => some .u4z
  | 3 => some .a8
  | 4 => some .a16
  | 5 => some .l8
  | _ => none

/-- The format code of R61. -/
def Fmt.code : Fmt → Nat
  | .g4 => 0
  | .u8 => 1
  | .u4z => 2
  | .a8 => 3
  | .a16 => 4
  | .l8 => 5

/-- A format that a tile or scale-block header may name (R61). -/
def Fmt.isWeight : Fmt → Bool
  | .g4 | .u8 | .u4z => true
  | .a8 | .a16 | .l8 => false

/-- Whether a code is 4 bits wide (R62). -/
def Fmt.isNibble : Fmt → Bool
  | .g4 | .u4z => true
  | _ => false

/-- Elements of a group by its 2-bit code (R61); `none` for the unused 0b11. -/
def groupSize : Nat → Option Nat
  | 0 => some 32
  | 1 => some 64
  | 2 => some 128
  | _ => none

/-- The Opal grid (R66). -/
def opal : List Int := [-127, -87, -64, -47, -33, -21, -10, 0, 9, 19, 30, 42, 56, 73, 95, 127]

/-- The code of n / d on the grid `v`, by counting midpoints passed (R80). -/
def gridCode (n d : Int) (v : Nat → Int) : Nat :=
  (List.range 15).foldl (fun code k =>
    let tm := (v k + v (k + 1)) * d
    if 2 * n > tm then code + 1 else if 2 * n = tm ∧ k % 2 = 1 then code + 1 else code) 0

/-- Whether n / d lies beyond the grid's ends, judged against v[15] and v[0] (R82). -/
def gridSat (n d : Int) (v : Nat → Int) : Bool := decide (n > v 15 * d) || decide (n < v 0 * d)

/-- Quantisation of n / d, with scale `s`, to a code of a weight format, and whether it saturated (R79 to R82). -/
def quantise (f : Fmt) (v : Nat → Int) (s zw : Nat) (n d : Int) : Int × Bool :=
  if s = 0 then (0, false)
  else match f with
    | .g4 => (gridCode n d v, gridSat n d v)
    | .u8 => let q := rne n d; (clampI (-127) 127 q, decide (q < -127) || decide (127 < q))
    | _ => let q := rne n d + zw; (clampI 0 15 q, decide (q < 0) || decide (15 < q))

/-- The weight operand of a code at the port (R64, R65, R88): `q` is the code as a number of 4 or 8 bits. -/
def operand (f : Fmt) (v : Nat → Int) (q : Nat) : Int :=
  match f with
  | .g4 => v (q % 16)
  | .u4z => (q % 16 : Nat)
  | _ => sx 8 q

/-- The cast of an A16 value to A8 with shift τ and zero point z, and whether it saturated (R73, R82). -/
def castA8 (x : Int) (tau : Nat) (z : Int) : Int × Bool :=
  let a := rne x (2 ^ tau) + z
  (satW 8 a, outW 8 a)

/-- The high part of an A16 value (R91). -/
def hiOf (x : Int) : Int := x / 256

/-- The low part of an A16 value, offset by 128 (R91). -/
def loOf (x : Int) : Int := x - 256 * hiOf x - 128

/-- The block exponent of R74: the smallest E from 0 to 57 for which every element fits -127 to 127. -/
def l8Exp (xs : List Int) : Nat :=
  ((List.range 58).find? fun e => xs.all fun x =>
    decide (-127 ≤ rne x (2 ^ e)) && decide (rne x (2 ^ e) ≤ 127)).getD 57

/-- One L8 block of 33 bytes (R74). -/
def l8Encode (xs : List Int) : List Byte :=
  let e := l8Exp xs
  BitVec.ofNat 8 e :: xs.map fun x => BitVec.ofInt 8 (rne x (2 ^ e))

/-- The 32 values of one L8 block, and whether its EXP is an unused encoding (R75). -/
def l8Decode (bs : List Byte) : List Int × Bool :=
  let e := bvGet 0 6 (bs.headD 0)
  if e ≥ 58 then (List.replicate 32 0, true)
  else ((List.range 32).map fun i => (bs.getD (i + 1) 0).toInt * 2 ^ e, false)

/-- The two nibbles of a byte, bits [3:0] first (R62). -/
def nibbles (b : Byte) : List Nat := [b.toNat % 16, b.toNat / 16]

/-- 4-bit codes packed two to a byte, the even element in bits [3:0] (R62). -/
def packNibbles : List Nat → List Byte
  | a :: b :: rest => BitVec.ofNat 8 (a % 16 + 16 * (b % 16)) :: packNibbles rest
  | [a] => [BitVec.ofNat 8 (a % 16)]
  | [] => []

end Sys2Proof.Machine
end

