-- ==== Sys2Proof/Machine/Beryl.lean ====
section
/-! DEFINITION. Weight compression as pure functions (chapter 07): code lengths, canonical codes, tile and scale-block layouts,
coding, decoding, the post-decode sum and the feed of the expander. -/

namespace Sys2Proof.Machine

/-- Symbols of a weight tile (R163). -/
def tileSymbols : Nat := 65536

/-- Blocks of a weight tile (R163). -/
def blocksPerTile (f : Fmt) : Nat := if f.isNibble then 128 else 64

/-- Symbols of one block: 32 × 32 codes (R163). -/
def symbolsPerBlock (f : Fmt) : Nat := if f.isNibble then 512 else 1024

/-- L of R112: cycles to load one block. -/
def loadCycles (f : Fmt) : Nat := if f.isNibble then 16 else 32

/-- The code of row r, column j of block `b` of a tile with symbols `sym` (R163, R62). -/
def codeAt (f : Fmt) (sym : List Nat) (b r j : Nat) : Nat :=
  let base := symbolsPerBlock f * b
  if f.isNibble then
    let s := sym.getD (base + 16 * r + j / 2) 0
    if j % 2 = 0 then s % 16 else s / 16 % 16
  else sym.getD (base + 32 * r + j) 0

/-! ### Building a code (R166, R167) -/

/-- A node of the Huffman merge: its weight and the symbols of its leaves. -/
abbrev HNode := Nat × List Nat

/-- Leaf `x` put in a list ordered by weight, equal weights in symbol order. -/
def insLeaf (x : HNode) : List HNode → List HNode
  | [] => [x]
  | y :: ys => if x.1 < y.1 then x :: y :: ys else y :: insLeaf x ys

/-- The node of least weight: leaves come before merged nodes of equal weight (R166). -/
def popLeast : List HNode → List HNode → Option (HNode × List HNode × List HNode)
  | [], [] => none
  | l :: ls, [] => some (l, ls, [])
  | [], m :: ms => some (m, [], ms)
  | l :: ls, m :: ms => if l.1 ≤ m.1 then some (l, ls, m :: ms) else some (m, l :: ls, ms)

/-- The merges of huffman_depths (R166): each merge deepens every leaf below it by one. -/
def huffLoop : Nat → List HNode → List HNode → List Nat → List Nat
  | 0, _, _, d => d
  | fuel + 1, leaves, merged, d =>
    match popLeast leaves merged with
    | none => d
    | some (a, l1, m1) =>
      match popLeast l1 m1 with
      | none => d
      | some (b, l2, m2) =>
        let ss := a.2 ++ b.2
        huffLoop fuel l2 (m2 ++ [(a.1 + b.1, ss)]) (d.zipIdx.map fun p => if ss.contains p.2 then p.1 + 1 else p.1)

/-- huffman_depths of R166 over the 256 weights. -/
def huffmanDepths (w : List Nat) : List Nat :=
  huffLoop 256 ((w.zipIdx.map fun p => (p.1, [p.2])).foldl (fun acc x => insLeaf x acc) []) [] (w.map fun _ => 0)

/-- The halving loop of build_lengths (R166). -/
def buildLoop : Nat → List Nat → List Nat
  | 0, w => huffmanDepths w
  | fuel + 1, w =>
    let len := huffmanDepths w
    if len.all fun l => decide (l ≤ 12) then len else buildLoop fuel (w.map fun x => (x + 1) / 2)

/-- build_lengths of R166: 256 counts to 256 codeword lengths from 1 to 12. -/
def buildLengths (count : List Nat) : List Nat := buildLoop 26 (count.map (· + 1))

/-- A table record: LEN_i in bits [4i+3 : 4i] of its first 128 bytes (R168). -/
def lensOf (rec : BitVec 1024) : List Nat := (List.range 256).map fun i => bvGet (4 * i) 4 rec

/-- The first 128 bytes of a table record, from its lengths (R168). -/
def recOf (lens : List Nat) : BitVec 1024 :=
  BitVec.ofNat 1024 (lens.foldr (fun l acc => l % 16 + 16 * acc) 0)

/-- The Kraft sum of R166, in units of 2^-12. -/
def kraft (lens : List Nat) : Nat := (lens.map fun l => 2 ^ (12 - l)).sum

/-- A record that R168 does not refuse. -/
def lensOk (lens : List Nat) : Bool := lens.all (fun l => decide (1 ≤ l) && decide (l ≤ 12)) && kraft lens == 4096

/-- Symbols ordered by length and then by value (R167). -/
def canonOrder (lens : List Nat) : List Nat :=
  (List.range 13).flatMap fun l => (List.range 256).filter fun s => lens.getD s 0 == l && l != 0

/-- Codewords (symbol, length, code) in canonical order (R167). -/
def canonCodes (lens : List Nat) : List (Nat × Nat × Nat) :=
  ((canonOrder lens).foldl (fun (p : List (Nat × Nat × Nat) × Nat × Nat) s =>
    let l := lens.getD s 0
    let code := if p.1.isEmpty then 0 else (p.2.2 + 1) * 2 ^ (l - p.2.1)
    ((s, l, code) :: p.1, l, code)) ([], 0, 0)).1.reverse

/-- (length, code) of each symbol value 0 to 255. -/
def codeTable (lens : List Nat) : List (Nat × Nat) :=
  let cs := canonCodes lens
  (List.range 256).map fun s => ((cs.find? fun c => c.1 == s).map fun c => c.2).getD (0, 0)

/-- The `l` bits of a codeword, most significant first (R167). -/
def codeBits (l code : Nat) : List Bool := (List.range l).map fun i => code.testBit (l - 1 - i)

/-- The bits of a byte, bit 7 first. -/
def byteBits (b : Byte) : List Bool := (List.range 8).map fun i => b.getLsbD (7 - i)

/-- A byte from 8 bits, bit 7 first. -/
def bitsByte (bs : List Bool) : Byte := BitVec.ofNat 8 (bs.foldl (fun n b => 2 * n + bit1 b) 0)

/-- Bits packed to bytes, padded with 0 bits to a multiple of 8 bytes (R170): `n` counts the 64-bit units. -/
def packUnits : Nat → List Bool → List Byte
  | 0, _ => []
  | n + 1, bs =>
    ((List.range 8).map fun i => bitsByte (((bs.drop (8 * i)).take 8) ++ List.replicate (8 - ((bs.drop (8 * i)).take 8).length) false))
      ++ packUnits n (bs.drop 64)

/-- One sub-stream (R170). -/
def encodeSub (tab : List (Nat × Nat)) (syms : List Nat) : List Byte :=
  let bits := syms.flatMap fun s => let c := tab.getD s (0, 0); codeBits c.1 c.2
  packUnits (ceilDiv bits.length 64) bits

/-- Symbols of sub-stream `i`: symbol k with k mod 32 = i (R170). -/
def subSymbols (sym : List Nat) (i : Nat) : List Nat :=
  (sym.zipIdx.filter fun p => p.2 % 32 == i).map Prod.fst

/-- One codeword read from a bit list (R167): `cnt` counts the codes of each length, `order` is the canonical order. -/
def decodeSym (cnt : List Nat) (order : List Nat) : Nat → Nat → Nat → Nat → Nat → List Bool → Nat × List Bool
  | 0, _, _, _, _, bs => (0, bs)
  | fuel + 1, len, code, first, idx, bs =>
    let code := 2 * code + bit1 (bs.headD false)
    let bs := bs.tail
    let c := cnt.getD len 0
    if code < first + c then (order.getD (idx + (code - first)) 0, bs)
    else decodeSym cnt order fuel (len + 1) code (2 * (first + c)) (idx + c) bs

/-- `n` symbols of a sub-stream. -/
def decodeSyms (cnt order : List Nat) : Nat → List Bool → List Nat
  | 0, _ => []
  | n + 1, bs => let r := decodeSym cnt order 12 1 0 0 0 bs; r.1 :: decodeSyms cnt order n r.2

/-- Symbols in stream order from the 32 sub-streams: symbol k is element k / 32 of sub-stream k mod 32 (R170). -/
def interleave : Nat → List (List Nat) → List Nat
  | 0, _ => []
  | n + 1, subs => (subs.map fun s => s.headD 0) ++ interleave n (subs.map List.tail)

/-- The post-decode symbol sum (R171). -/
def symbolSum (sym : List Nat) : Nat :=
  (sym.foldl (fun (p : Nat × Nat) s => (p.1 + s * (1 + p.2 % 32), p.2 + 1)) (0, 0)).1

/-! ### Tile headers (R173) -/

/-- The 64-byte header of a tile (R173). -/
structure TileHdr where
  object : Nat
  index  : Nat
  format : Nat
  group  : Nat
  table  : Nat
  gen    : Nat
  coded  : Bool
  scale  : Bool
  tag    : Nat
  sum    : Nat
  ends   : List Nat
  deriving DecidableEq, Repr, Inhabited

/-- The header at byte `a`. -/
def TileHdr.read (m : Mem) (a : Nat) : TileHdr :=
  let w := BitVec.ofNat 64 (m.rdLe a 8)
  let e := BitVec.ofNat 416 (m.rdLe (a + 12) 52)
  { object := bvGet 0 16 w, index := bvGet 16 22 w, format := bvGet 38 4 w, group := bvGet 42 2 w,
    table := bvGet 44 6 w, gen := bvGet 50 4 w, coded := bvBit 54 w, scale := bvBit 55 w, tag := bvGet 56 8 w,
    sum := m.rdLe (a + 8) 4, ends := (List.range 32).map fun i => bvGet (13 * i) 13 e }

/-- The bytes of a header. -/
def TileHdr.bytes (h : TileHdr) : List Byte :=
  leBytes 8 (h.object % 2 ^ 16 + 2 ^ 16 * (h.index % 2 ^ 22) + 2 ^ 38 * (h.format % 16) + 2 ^ 42 * (h.group % 4) +
    2 ^ 44 * (h.table % 64) + 2 ^ 50 * (h.gen % 16) + 2 ^ 54 * bit1 h.coded + 2 ^ 55 * bit1 h.scale + 2 ^ 56 * (h.tag % 256))
  ++ leBytes 4 h.sum ++ leBytes 52 (h.ends.foldr (fun e acc => e % 8192 + 8192 * acc) 0)

/-- Payload bytes P of a tile (R170, R173). -/
def TileHdr.payload (h : TileHdr) : Nat :=
  if h.scale ∨ h.coded then 8 * h.ends.getD 31 0 else tileSymbols

/-- Stored size: header and payload (R173). -/
def TileHdr.stored (h : TileHdr) : Nat := 64 + h.payload

/-- 4 KiB units that a tile occupies in a buffer or cache (R48, R173). -/
def TileHdr.units (h : TileHdr) : Nat := ceilDiv h.stored 4096

/-- The bytes of sub-stream `i` of the coded tile whose header lies at `a` (R170). -/
def subBytes (m : Mem) (a : Nat) (h : TileHdr) (i : Nat) : List Byte :=
  let s := if i = 0 then 0 else h.ends.getD (i - 1) 0
  m.rdBlk (a + 64 + 8 * s) (8 * (h.ends.getD i 0 - s))

/-- The 65,536 symbols of the weight tile at `a`, decoded with lengths `lens` when coded (R170, R182). -/
def decodeTile (m : Mem) (a : Nat) (h : TileHdr) (lens : List Nat) : List Nat :=
  if h.coded then
    let cnt := (List.range 13).map fun l => if l = 0 then 0 else lens.count l
    let order := canonOrder lens
    interleave 2048 ((List.range 32).map fun i => decodeSyms cnt order 2048 ((subBytes m a h i).flatMap byteBits))
  else (m.rdBlk (a + 64) tileSymbols).map BitVec.toNat

/-- A weight tile coded or stored raw (R170 to R173): all stored bytes, and whether it is coded. -/
def codeTile (object index : Nat) (fm : Fmt) (group table gen threshold : Nat) (tag : Nat) (lens : List Nat)
    (sym : List Nat) : List Byte × Bool :=
  let tab := codeTable lens
  let subs := (List.range 32).map fun i => encodeSub tab (subSymbols sym i)
  let ends := (subs.foldl (fun (p : List Nat × Nat) s => (p.1 ++ [p.2 + s.length / 8], p.2 + s.length / 8)) ([], 0)).1
  let p := 8 * ends.getD 31 0
  let coded := decide (100 * p ≤ threshold * 65536) && decide (p < 65536)
  let h : TileHdr :=
    { object, index, format := fm.code, group, table := if coded then table else 0,
      gen := if coded then gen else 0, coded, scale := false, tag, sum := symbolSum sym,
      ends := if coded then ends else List.replicate 32 0 }
  (h.bytes ++ (if coded then subs.flatten else sym.map (BitVec.ofNat 8)), coded)

/-! ### Scale blocks (R174 to R176) -/

/-- Groups of one weight tile: its 4,096 or 2,048 reduction rows by the group size. -/
def groupsPerTile (f : Fmt) (n : Nat) : Nat := 32 * blocksPerTile f / n

/-- Bytes of one scale block (R175). -/
def scaleBlockBytes (f : Fmt) (n : Nat) : Nat :=
  let g := groupsPerTile f n
  128 * ceilDiv (64 + (if f = .u4z then 96 * (g / 2) else 32 * g)) 128

/-- Scale blocks of one scale tile (R174). -/
def blocksPerScaleTile (f : Fmt) (n : Nat) : Nat := (65536 - 128) / scaleBlockBytes f n

/-- The header of a scale block (R175). -/
structure ScaleHdr where
  object : Nat
  index  : Nat
  format : Nat
  group  : Nat
  groups : Nat
  next   : Nat
  tag    : Nat
  deriving DecidableEq, Repr, Inhabited

/-- The scale-block header at byte `a`. -/
def ScaleHdr.read (m : Mem) (a : Nat) : ScaleHdr :=
  let w := BitVec.ofNat 64 (m.rdLe a 8)
  { object := bvGet 0 16 w, index := bvGet 16 22 w, format := bvGet 38 4 w, group := bvGet 42 2 w,
    groups := bvGet 44 8 w, next := bvGet 52 10 w, tag := (m.rd (a + 8)).toNat }

/-- The bytes of a scale-block header. -/
def ScaleHdr.bytes (h : ScaleHdr) : List Byte :=
  leBytes 8 (h.object % 2 ^ 16 + 2 ^ 16 * (h.index % 2 ^ 22) + 2 ^ 38 * (h.format % 16) + 2 ^ 42 * (h.group % 4) +
    2 ^ 44 * (h.groups % 256) + 2 ^ 52 * (h.next % 1024)) ++ leBytes 4 (h.tag % 256) ++ List.replicate 52 0#8

/-- Scale of group g, column j, in the block at `a` (R175). -/
def scaleAt (m : Mem) (a : Nat) (f : Fmt) (g j : Nat) : Nat :=
  (if f = .u4z then m.rd (a + 64 + 96 * (g / 2) + 32 * (g % 2) + j) else m.rd (a + 64 + 32 * g + j)).toNat

/-- Zero point of group g, column j (R175, R64). -/
def zeroAt (m : Mem) (a : Nat) (f : Fmt) (g j : Nat) : Nat :=
  if f = .u4z then
    let b := (m.rd (a + 64 + 96 * (g / 2) + 64 + j)).toNat
    if g % 2 = 0 then b % 16 else b / 16
  else 0

/-- Bytes of the group records of one weight tile as the host sends them: the records of R175 without the header. -/
def scaleRecordBytes (f : Fmt) (n : Nat) : Nat :=
  let g := groupsPerTile f n
  if f = .u4z then 96 * (g / 2) else 32 * g

/-- NEXT of the block of weight tile `i` of `total` (R175): by the block size, or to byte 128 of the next scale tile. -/
def scaleNext (f : Fmt) (n i total : Nat) : Nat :=
  if i + 1 ≥ total then 0
  else
    let per := blocksPerScaleTile f n
    let sz := scaleBlockBytes f n
    if (i + 1) % per = 0 then
      let at_ := 128 + (per - 1) * sz
      (4096 * ceilDiv (128 + per * sz) 4096 - at_ + 128) / 128
    else sz / 128

/-- The bytes of a scale tile that serves weight tiles `first` to `first + cnt - 1` (R173 to R175); `recs i` are the group
records of weight tile i and `tag i` its SEQ_TAG. -/
def scaleTileBytes (object index : Nat) (fm : Fmt) (group n first cnt total : Nat) (recs : Nat → List Byte)
    (tag : Nat → Nat) : List Byte :=
  let sz := scaleBlockBytes fm n
  let body := (List.range cnt).flatMap fun k =>
    let i := first + k
    let h : ScaleHdr :=
      { object, index := i, format := fm.code, group, groups := groupsPerTile fm n,
        next := scaleNext fm n i total, tag := tag i }
    let b := h.bytes ++ recs i
    b ++ List.replicate (sz - b.length) 0#8
  let pay := List.replicate 64 0#8 ++ body
  let h : TileHdr :=
    { object, index, format := fm.code, group, table := 0, gen := 0, coded := false, scale := true,
      tag := 0, sum := symbolSum (pay.map BitVec.toNat), ends := List.replicate 31 0 ++ [pay.length / 8] }
  h.bytes ++ pay

/-! ### The feed of the expander (R182 to R184) -/

/-- One decoder: bits held in its FIFO, bytes its sub-streams still have to be filled (one number a tile), and the
codeword lengths still to be decoded (one list a tile). -/
structure Feeder where
  bits : Nat
  fill : List Nat
  todo : List (List Nat)
  deriving DecidableEq, Repr, Inhabited

/-- Bytes held, a partly used byte counting whole. -/
def Feeder.held (d : Feeder) : Nat := ceilDiv d.bits 8

/-- The first sub-stream that still has bytes to fill. -/
def Feeder.nextFill (d : Feeder) : Nat := (d.fill.find? fun n => n != 0).getD 0

/-- Bytes `n` of the first sub-stream not wholly filled are taken from it. -/
def takeFill (n : Nat) : List Nat → List Nat
  | [] => []
  | 0 :: r => 0 :: takeFill n r
  | (k + 1) :: r => (k + 1 - n) :: r

/-- One fill of at most 16 bytes (R183): it takes fewer where the sub-stream ends, and gives the rest of its 16 to no other (DESIGN CHOICE, log
entry 16). -/
def Feeder.feed (d : Feeder) : Feeder :=
  let n := min 16 d.nextFill
  { d with bits := d.bits + 8 * n, fill := takeFill n d.fill }

/-- The index of the decoder to fill: the fewest bytes, at least 16 B free, the lower index on a tie (R183). -/
def pickFeed (skip : Option Nat) (ds : List Feeder) : Option Nat :=
  ((ds.zipIdx).foldl (fun (best : Option (Nat × Nat)) p =>
    if some p.2 = skip ∨ p.1.nextFill = 0 ∨ p.1.held > 48 then best
    else match best with
      | none => some (p.1.held, p.2)
      | some b => if p.1.held < b.1 then some (p.1.held, p.2) else best) none).map Prod.snd

/-- Decoder `i` fed. -/
def feedAt (i : Nat) (ds : List Feeder) : List Feeder := ds.zipIdx.map fun p => if p.2 = i then p.1.feed else p.1

/-- One cycle of the fill unit: two decoders take 16 B each (R183). -/
def fillCycle (ds : List Feeder) : List Feeder :=
  match pickFeed none ds with
  | none => ds
  | some i => match pickFeed (some i) ds with
    | none => feedAt i ds
    | some j => feedAt i (feedAt j ds)

/-- `n` cycles of filling alone. -/
def fillCycles : Nat → List Feeder → List Feeder
  | 0, ds => ds
  | n + 1, ds => fillCycles n (fillCycle ds)

/-- Whether every decoder holds its next codeword (R183), judged on the bits at the start of the cycle. -/
def canDecode (ds : List Feeder) : Bool :=
  ds.all fun d => match d.todo with
    | (l :: _) :: _ => decide (l ≤ d.bits)
    | _ => true

/-- Each decoder delivers one symbol. -/
def advance (ds : List Feeder) : List Feeder :=
  ds.map fun d => match d.todo with
    | (l :: ls) :: rest => { d with bits := d.bits - l, todo := ls :: rest }
    | _ => d

/-- `n` decode cycles that the port needs; answers the stall cycles met (R183). The fill of a cycle sees the room that the cycle's decode
leaves (DEDUCED, log entry 16). The fuel bounds the stalls. -/
def decodeCycles : Nat → Nat → Nat → List Feeder → Nat × List Feeder
  | 0, _, st, ds => (st, ds)
  | _, 0, st, ds => (st, ds)
  | fuel + 1, n + 1, st, ds =>
    if canDecode ds then decodeCycles fuel n st (fillCycle (advance ds))
    else decodeCycles fuel (n + 1) (st + 1) (fillCycle ds)

/-- The end of a tile in every decoder: the padding bits of its sub-stream are dropped, and where some were still to be filled the FIFO
holds padding alone. What is left is of the run's next tile (R183). -/
def endTile (pads : List Nat) (ds : List Feeder) : List Feeder :=
  (ds.zip pads).map fun p =>
    { bits := if p.1.fill.headD 0 = 0 then p.1.bits - p.2 else 0, todo := p.1.todo.tail, fill := p.1.fill.tail }

/-- Codeword lengths of sub-stream `i` of a coded tile with symbols `sym`. -/
def subLens (lens sym : List Nat) (i : Nat) : List Nat := (subSymbols sym i).map fun s => lens.getD s 0

/-- Bytes of sub-stream `i` of a coded tile (R170). -/
def TileHdr.subSize (h : TileHdr) (i : Nat) : Nat := 8 * (h.ends.getD i 0 - (if i = 0 then 0 else h.ends.getD (i - 1) 0))

/-- The decoders of a coded tile with `done` symbols of each sub-stream delivered. `kept` is what each FIFO holds of it and what is still to be
filled, nothing being filled where it is empty; `next` is the run's next tile, where that is coded. -/
def feeders (h : TileHdr) (lens sym : List Nat) (done : Nat) (kept : List (Nat × Nat)) (next : Option TileHdr) : List Feeder :=
  (List.range 32).map fun i =>
    let k := kept.getD i (0, h.subSize i)
    { bits := k.1, todo := [(subLens lens sym i).drop done],
      fill := k.2 :: (match next with | some n => [n.subSize i] | none => []) }

/-- What FIFOs hold, and the bytes of their tile still to be filled. -/
def keptOf (ds : List Feeder) : List (Nat × Nat) := ds.map fun d => (d.bits, d.fill.headD 0)

/-- Blocks of `per` decode cycles each, after a rest of the port before each; answers the stall cycles met and the FIFOs left (R183). -/
def feedBlocks (per : Nat) (rests : List Nat) (ds : List Feeder) : Nat × List Feeder :=
  rests.foldl (fun p r => let q := decodeCycles 4096 per 0 (fillCycles r p.2); (p.1 + q.1, q.2)) (0, ds)

/-- Padding bits of each sub-stream (R170). -/
def padBits (h : TileHdr) (lens sym : List Nat) : List Nat :=
  (List.range 32).map fun i => 8 * h.subSize i - (subLens lens sym i).foldl (· + ·) 0

end Sys2Proof.Machine
end

