-- ==== Sys2Proof/HostOperands.lean ====
section
/-! DEFINITION. Operands of the host's commands (R338 to R340), of BAR accesses (R330, R447) and of resets, power and sensors
(chapters 13 to 16). -/

namespace Sys2Proof

/-- A function: 0 the PF, v the VF v (R329). -/
abbrev FnId := Fin 17
/-- A device queue (R333). -/
abbrev QueueId := Fin 256
/-- A session (R343). -/
abbrev SessId := Fin 4096

/-- The header of a submission entry (R338), with the device queue it came from. -/
structure CmdHdr where
  q         : QueueId
  cid       : BitVec 16
  part      : PartId
  wait      : Bool
  atTick    : Bool
  applyTick : BitVec 32
  deriving DecidableEq, Repr

/-- The sampling parameters of OPEN_SESSION and SET_PARAMS (R340): bytes 24 to 35. -/
structure SessParams where
  maxPos  : BitVec 32
  invTemp : BitVec 16
  topP    : BitVec 16
  stream  : BitVec 16
  deriving DecidableEq, Repr

/-- OPEN_SESSION (R340). -/
structure OpenOp where
  sess    : SessId
  slot    : Fin 1024
  output  : Bool
  cache   : ObjId
  journal : ObjId
  par     : SessParams
  deriving DecidableEq, Repr

/-- CREATE_OBJECT (R339): the fields of words 0 to 3 of R225 that it takes. -/
structure CreateOp where
  kind     : Fin 16
  part     : PartId
  policy   : Fin 8
  cls      : Fin 16
  size     : BitVec 23
  placeDie : Fin 8
  share    : BitVec 16
  session  : BitVec 16
  deriving DecidableEq, Repr

/-- SET_PLACEMENT (R339). -/
structure PlaceOp where
  object   : ObjId
  policy   : Fin 8
  cls      : Fin 16
  placeDie : Fin 8
  share    : BitVec 16
  deriving DecidableEq, Repr

/-- INSTALL (R339). -/
structure InstallOp where
  format   : Fin 16
  group    : Fin 4
  policy   : Fin 8
  cls      : Fin 16
  placeDie : Fin 8
  share    : BitVec 16
  wAddr    : BitVec 64
  wBytes   : BitVec 64
  sAddr    : BitVec 64
  sBytes   : BitVec 64
  deriving DecidableEq, Repr

/-- Supplies of R395 as R397 tells them apart. -/
inductive Rail
  /-- VDD_AON below 0.74 V -/
  | aonDeep
  /-- VDD_AON from 0.74 V up to 0.76 V -/
  | aon
  | vdd33
  | iod
  /-- any other main rail -/
  | main
  deriving DecidableEq, Repr

/-- What begins a transfer of the I3C sideband (R429) besides HEAD and TIME: SELECT with its sequence, a command byte without a use, SETDASA for the
static address, ENTDAA with the address assigned. -/
inductive I3cIn
  | select (seq : BitVec 32)
  | other (byte : BitVec 8)
  | setDasa (addr : BitVec 7)
  | entDaa (addr : BitVec 7)
  deriving DecidableEq, Repr

/-- A read of a BAR: the function, BAR4 in place of BAR0 (R330), the offset and the bytes of an access of 1, 2, 4 or 8 (R12). -/
structure RegRead where
  fn   : FnId
  bar4 : Bool
  ofs  : BitVec 28
  size : Fin 9
  deriving DecidableEq, Repr

/-- A write of a BAR: the function, BAR4 in place of BAR0 (R330), the offset, the bytes of an access of 1, 2, 4 or 8 (R12); or one that
management firmware makes over its own path (R443). -/
structure RegWrite where
  fn   : FnId
  bar4 : Bool
  ofs  : BitVec 28
  size : Fin 9
  data : BitVec 64
  mgmt : Bool := false
  deriving DecidableEq, Repr

/-- A kick of a management core's watchdog, and how many errors its SRAM has corrected since the last (R433). -/
structure Kick where
  core      : Fin 2
  corrected : BitVec 16
  deriving DecidableEq, Repr

/-- A management core that stops: its watchdog has run out, or its SRAM has met an uncorrectable error at an address (R433). -/
structure MgmtStop where
  core : Fin 2
  ue   : Option (BitVec 32)
  deriving DecidableEq, Repr

end Sys2Proof
end

