-- ==== Sys2Proof/LinkOperands.lean ====
section
/-! DEFINITION. Operands of the link commands: ports and bundles (R285), tensor messages (R297), management messages (R300, R321) and
flits as they arrive (R287). -/

namespace Sys2Proof

/-- A port P0 to P15 (R285). -/
abbrev PortId := Fin 16
/-- A member index (R301). -/
abbrev Member := Fin 512

/-- The bundles of R285. -/
inductive Bundle
  | east | west | north | south | twin | expansion
  deriving DecidableEq, Repr

/-- The header of a tensor message (R297). Spare fields are left out. -/
structure TensorHdr where
  destMember : Member
  destCore   : CoreId
  /-- DEST_KIND: true the cluster cache -/
  toCache    : Bool
  /-- DEST_ADDR, in 64 B units: 17 bits -/
  destAddr   : BitVec 17
  unitsM1    : BitVec 10
  token      : Fin 64
  amount     : BitVec 8
  part       : Fin 16
  tick       : BitVec 32
  srcMember  : Member
  srcCore    : CoreId
  wire       : Fin 4
  groupId    : BitVec 16
  hops       : BitVec 8
  deriving DecidableEq, Repr

/-- A tensor message: its header and the bytes on the wire (R298). -/
structure TensorMsg where
  hdr  : TensorHdr
  data : List (BitVec 8)
  deriving DecidableEq, Repr

/-- A management message: its header fields (R300) and payload. -/
structure MgmtMsg where
  dest    : Member
  twin    : Bool
  kind    : BitVec 8
  length  : BitVec 13
  src     : Member
  srcTwin : Bool
  payload : List (BitVec 8)
  deriving DecidableEq, Repr

/-- A flit as its lanes bring it (R287, R289): the bytes of each of the four lanes, none for a lane that is not up; whether a codeword that
carries any of them is uncorrectable; and the codewords corrected on each lane. -/
structure FlitIn where
  lanes     : List (List (BitVec 8))
  uncorr    : Bool
  corrected : List (Fin 4 × Nat)
  deriving DecidableEq, Repr

/-- The flow-control fields of a received header (R287). -/
structure FlowIn where
  ack      : BitVec 16
  ackValid : Bool
  crVc     : BitVec 2
  crCount  : BitVec 13
  deriving DecidableEq, Repr

/-- A LINK_CTRL record: the good lanes of both directions (R295), or a handback (R296) of port `port`. -/
inductive LinkCtrl
  | lanes (good : BitVec 4)
  | handback (port : PortId) (lastSeq : BitVec 16) (valid : Bool)
  deriving DecidableEq, Repr

/-- The end of a port's training (R296, R311). -/
structure TrainEnd where
  good       : BitVec 4
  peer       : Member
  peerPort   : PortId
  peerTwin   : Bool
  deriving DecidableEq, Repr

/-- A tick token (R33). -/
structure Token where
  group   : BitVec 16
  member  : Member
  abandon : Bool
  tick    : BitVec 32
  deriving DecidableEq, Repr

/-- Causes a LEAVING message names (R321). -/
inductive LeaveCause
  | admin | stackTrip | channelFailed | watchdog
  deriving DecidableEq, Repr

/-- States of a member (R312). -/
inductive MemberState
  | live | lost | bypassed | absent
  deriving DecidableEq, Repr

end Sys2Proof
end

