-- ==== Sys2Proof/Machine/Events.lean ====
section
/-! DEFINITION. Jasper's event codes (R430 to R438's code table, chapter 16), each with its class and unit kind (R420), and the
entries of the recorder (R419). -/

namespace Sys2Proof.Machine

/-- The event codes of the code table of chapter 16, by name; 0x0000 is the empty entry (R421). -/
inductive JCode
  /-- 0x0001: 0; RESET_CAUSE bits; newest vault SEQ, 0xFFFF_FFFF if none -/
  | start
  /-- 0x0002: 0; 0; 0 -/
  | opTime
  /-- 0x0003: As R426 -/
  | suppressed
  /-- 0x0004: 0; 0; count -/
  | intakeDropped
  /-- 0x0005: 0; 0; 0 -/
  | powerFail
  /-- 0x0100: 0; slot; check number of R375 -/
  | slotRejected
  /-- 0x0101: 0; BAR0 offset; value written (R14) -/
  | rwlLocked
  /-- 0x0102: 0; BAR0 offset; value written -/
  | unusedValue
  /-- 0x0103: 0; BAR0 offset; 0 (R220, R309, R389) -/
  | testDenied
  /-- 0x0104: 0; record TYPE; byte offset (R376) -/
  | configRecord
  /-- 0x0105: 0; 0 repetition count, 1 adaptive proportion; 0 -/
  | entropyFail
  /-- 0x0106: 1 or 0; BAR0 offset; 0 (R391) -/
  | bridgeDiscard
  /-- 0x0107: 10; SRAM address; 0 -/
  | mgmtEccUe
  /-- 0x0108: 10; 0; 0 -/
  | watchdog
  /-- 0x0109: 9 or 0; unified address [31:0]; [46:32] (R223, R331) -/
  | addressNone
  /-- 0x0200: 0; sensor index; TEMP -/
  | sensorWarn
  /-- 0x0201: 1; code in force; TEMP -/
  | clusterCap
  /-- 0x0202: 1; 0 supply, 1 temperature; neighbour cluster -/
  | neighbour
  /-- 0x0203: 0; sensor index; TEMP -/
  | dieTrip
  /-- 0x0204: 11; TEMP; 0 -/
  | oeTrip
  /-- 0x0205: 0; AVG_W; CAP_W -/
  | packageCap
  /-- 0x0300: 2; ERROR bits in [7:0], ERROR_PC in [27:8]; PROGRAM_ID -/
  | seqError
  /-- 0x0301: 12; 0; token tick -/
  | futureToken
  /-- 0x0302: 12; 0; last tick received -/
  | memberSilent
  /-- 0x0303: 0; 0 local cause, 1 received; tick -/
  | abandon
  /-- 0x0304: 12; source core; message tick (R40) -/
  | tensorStale
  /-- 0x0400: 3; instruction index within its program (R111); PROGRAM_ID of that program -/
  | engineCommand
  /-- 0x0401: 3; layer; 0 -/
  | accSat
  /-- 0x0402: 3; layer; 0 -/
  | compInexact
  /-- 0x0403: 2; instruction index within its program (R121); PROGRAM_ID of that program -/
  | vectorCommand
  /-- 0x0404: 1; slot; 0 -/
  | guardTable
  /-- 0x0405: 1; slot; saturations counted -/
  | rerun
  /-- 0x0406: 1; slot; row mask -/
  | rerunSkipped
  /-- 0x0407: 1; slot; reason bits -/
  | guardReport
  /-- 0x0500: 3; object; tile index (R186) -/
  | scaleSkew
  /-- 0x0501: 3; object; tile index -/
  | sumError
  /-- 0x0502: 3; object; tile index -/
  | portParity
  /-- 0x0503: 3; object; tile index -/
  | tileRefused
  /-- 0x0504: 8; table ID; 0 (R168) -/
  | tableBad
  /-- 0x0600: 5; logical lane; 0 -/
  | laneMarked
  /-- 0x0601: 5; second marked lane; 0 -/
  | channelFailed
  /-- 0x0602: 5; SPA [31:0]; SPA [39:32] -/
  | ueBurst
  /-- 0x0603: 4; TEMP; 0 -/
  | stackWarn
  /-- 0x0604: 4; TEMP; 0 -/
  | stackThrottle
  /-- 0x0605: 4; TEMP; 0 -/
  | stackTrip
  /-- 0x0606: 4; 0 below 92 °C, 1 WITHHOLD cleared by the device; 0 -/
  | warnCleared
  /-- 0x0607: 4; sum of minimums; 0 (R210) -/
  | regulatorScaled
  /-- 0x0608: 1; unit; operation (R219) -/
  | ccParity
  /-- 0x0700: 9; object; tile index -/
  | tilePoisoned
  /-- 0x0701: 9; object; tile index -/
  | tileSubstituted
  /-- 0x0702: 9; object; cause, 0 host, 1 flash, 2 skew -/
  | quarantine
  /-- 0x0703: 9; object; tile index -/
  | dataLost
  /-- 0x0704: 8; frame; 0 -/
  | frameRetired
  /-- 0x0705: 9; object; tile index (R227) -/
  | weightWrite
  /-- 0x0706: 9; object; frame (R250) -/
  | frameInvalid
  /-- 0x0707: 2; partition; 0 (R249) -/
  | actParity
  /-- 0x0800: 7; handle; sector -/
  | flashUnreadable
  /-- 0x0801: 7; lane; block, with cause in [31:29] -/
  | blockRetired
  /-- 0x0802: 0; handle; object -/
  | installDiscarded
  /-- 0x0803: 0; new STATE; 0 -/
  | onyxState
  /-- 0x0900: 6; lane; lanes up -/
  | laneDropped
  /-- 0x0901: 6; 0 lanes, 1 replay, 2 software; 0 -/
  | portRetrain
  /-- 0x0902: 6; source member and core; failing check (R302, R303) -/
  | msgDiscarded
  /-- 0x0903: 12; 0; 0 (R301, R316) -/
  | routeNone
  /-- 0x0904: 6; 0; 0 (R366) -/
  | portNotUp
  /-- 0x0A00: 6; peer member; peer port -/
  | miscabled
  /-- 0x0A01: 12; cause; last tick -/
  | memberLost
  /-- 0x0A02: 12; bundle; 0 -/
  | relinked
  /-- 0x0A03: 12; 0 sent, 1 received; 0 -/
  | resetRequest
  /-- 0x0A04: 0; switch; sensed position -/
  | agateFault
  /-- 0x0A05: 0; command; 0 -/
  | agateRefused
  /-- 0x0A06: 12; GROUP_ID; last committed tick -/
  | takeover
  /-- 0x0A07: 12; KIND; 0 -/
  | mgmtKindUnused
  /-- 0x0B00: 9; queue; CAUSE -/
  | queueError
  /-- 0x0B01: 9; object; tile index -/
  | hostReadFailed
  /-- 0x0B02: 9; function; 0 -/
  | flr
  /-- 0x0B03: 9; BAR0 offset; value (R346, R360) -/
  | hostSetting
  deriving DecidableEq, Repr

/-- The CODE of an event. -/
def JCode.code : JCode → Nat
  | .start => 0x0001
  | .opTime => 0x0002
  | .suppressed => 0x0003
  | .intakeDropped => 0x0004
  | .powerFail => 0x0005
  | .slotRejected => 0x0100
  | .rwlLocked => 0x0101
  | .unusedValue => 0x0102
  | .testDenied => 0x0103
  | .configRecord => 0x0104
  | .entropyFail => 0x0105
  | .bridgeDiscard => 0x0106
  | .mgmtEccUe => 0x0107
  | .watchdog => 0x0108
  | .addressNone => 0x0109
  | .sensorWarn => 0x0200
  | .clusterCap => 0x0201
  | .neighbour => 0x0202
  | .dieTrip => 0x0203
  | .oeTrip => 0x0204
  | .packageCap => 0x0205
  | .seqError => 0x0300
  | .futureToken => 0x0301
  | .memberSilent => 0x0302
  | .abandon => 0x0303
  | .tensorStale => 0x0304
  | .engineCommand => 0x0400
  | .accSat => 0x0401
  | .compInexact => 0x0402
  | .vectorCommand => 0x0403
  | .guardTable => 0x0404
  | .rerun => 0x0405
  | .rerunSkipped => 0x0406
  | .guardReport => 0x0407
  | .scaleSkew => 0x0500
  | .sumError => 0x0501
  | .portParity => 0x0502
  | .tileRefused => 0x0503
  | .tableBad => 0x0504
  | .laneMarked => 0x0600
  | .channelFailed => 0x0601
  | .ueBurst => 0x0602
  | .stackWarn => 0x0603
  | .stackThrottle => 0x0604
  | .stackTrip => 0x0605
  | .warnCleared => 0x0606
  | .regulatorScaled => 0x0607
  | .ccParity => 0x0608
  | .tilePoisoned => 0x0700
  | .tileSubstituted => 0x0701
  | .quarantine => 0x0702
  | .dataLost => 0x0703
  | .frameRetired => 0x0704
  | .weightWrite => 0x0705
  | .frameInvalid => 0x0706
  | .actParity => 0x0707
  | .flashUnreadable => 0x0800
  | .blockRetired => 0x0801
  | .installDiscarded => 0x0802
  | .onyxState => 0x0803
  | .laneDropped => 0x0900
  | .portRetrain => 0x0901
  | .msgDiscarded => 0x0902
  | .routeNone => 0x0903
  | .portNotUp => 0x0904
  | .miscabled => 0x0A00
  | .memberLost => 0x0A01
  | .relinked => 0x0A02
  | .resetRequest => 0x0A03
  | .agateFault => 0x0A04
  | .agateRefused => 0x0A05
  | .takeover => 0x0A06
  | .mgmtKindUnused => 0x0A07
  | .queueError => 0x0B00
  | .hostReadFailed => 0x0B01
  | .flr => 0x0B02
  | .hostSetting => 0x0B03

/-- The CLASS of an event (R420). -/
def JCode.cls : JCode → Nat
  | .start => 0
  | .opTime => 0
  | .suppressed => 0
  | .intakeDropped => 0
  | .powerFail => 0
  | .slotRejected => 0
  | .rwlLocked => 0
  | .unusedValue => 0
  | .testDenied => 0
  | .configRecord => 0
  | .entropyFail => 3
  | .bridgeDiscard => 0
  | .mgmtEccUe => 4
  | .watchdog => 4
  | .addressNone => 0
  | .sensorWarn => 0
  | .clusterCap => 2
  | .neighbour => 2
  | .dieTrip => 4
  | .oeTrip => 3
  | .packageCap => 2
  | .seqError => 3
  | .futureToken => 0
  | .memberSilent => 3
  | .abandon => 3
  | .tensorStale => 0
  | .engineCommand => 3
  | .accSat => 0
  | .compInexact => 0
  | .vectorCommand => 3
  | .guardTable => 0
  | .rerun => 2
  | .rerunSkipped => 3
  | .guardReport => 0
  | .scaleSkew => 2
  | .sumError => 3
  | .portParity => 2
  | .tileRefused => 3
  | .tableBad => 0
  | .laneMarked => 1
  | .channelFailed => 4
  | .ueBurst => 3
  | .stackWarn => 0
  | .stackThrottle => 2
  | .stackTrip => 4
  | .warnCleared => 0
  | .regulatorScaled => 0
  | .ccParity => 3
  | .tilePoisoned => 2
  | .tileSubstituted => 3
  | .quarantine => 3
  | .dataLost => 3
  | .frameRetired => 1
  | .weightWrite => 0
  | .frameInvalid => 3
  | .actParity => 3
  | .flashUnreadable => 3
  | .blockRetired => 1
  | .installDiscarded => 0
  | .onyxState => 0
  | .laneDropped => 1
  | .portRetrain => 2
  | .msgDiscarded => 3
  | .routeNone => 3
  | .portNotUp => 0
  | .miscabled => 0
  | .memberLost => 3
  | .relinked => 0
  | .resetRequest => 0
  | .agateFault => 3
  | .agateRefused => 0
  | .takeover => 0
  | .mgmtKindUnused => 0
  | .queueError => 3
  | .hostReadFailed => 3
  | .flr => 0
  | .hostSetting => 0

/-- The UNIT_KIND of an event (R420); where the table gives two, the first. -/
def JCode.kind : JCode → Nat
  | .start => 0
  | .opTime => 0
  | .suppressed => 0
  | .intakeDropped => 0
  | .powerFail => 0
  | .slotRejected => 0
  | .rwlLocked => 0
  | .unusedValue => 0
  | .testDenied => 0
  | .configRecord => 0
  | .entropyFail => 0
  | .bridgeDiscard => 1
  | .mgmtEccUe => 10
  | .watchdog => 10
  | .addressNone => 9
  | .sensorWarn => 0
  | .clusterCap => 1
  | .neighbour => 1
  | .dieTrip => 0
  | .oeTrip => 11
  | .packageCap => 0
  | .seqError => 2
  | .futureToken => 12
  | .memberSilent => 12
  | .abandon => 0
  | .tensorStale => 12
  | .engineCommand => 3
  | .accSat => 3
  | .compInexact => 3
  | .vectorCommand => 2
  | .guardTable => 1
  | .rerun => 1
  | .rerunSkipped => 1
  | .guardReport => 1
  | .scaleSkew => 3
  | .sumError => 3
  | .portParity => 3
  | .tileRefused => 3
  | .tableBad => 8
  | .laneMarked => 5
  | .channelFailed => 5
  | .ueBurst => 5
  | .stackWarn => 4
  | .stackThrottle => 4
  | .stackTrip => 4
  | .warnCleared => 4
  | .regulatorScaled => 4
  | .ccParity => 1
  | .tilePoisoned => 9
  | .tileSubstituted => 9
  | .quarantine => 9
  | .dataLost => 9
  | .frameRetired => 8
  | .weightWrite => 9
  | .frameInvalid => 9
  | .actParity => 2
  | .flashUnreadable => 7
  | .blockRetired => 7
  | .installDiscarded => 0
  | .onyxState => 0
  | .laneDropped => 6
  | .portRetrain => 6
  | .msgDiscarded => 6
  | .routeNone => 12
  | .portNotUp => 6
  | .miscabled => 6
  | .memberLost => 12
  | .relinked => 12
  | .resetRequest => 12
  | .agateFault => 0
  | .agateRefused => 0
  | .takeover => 12
  | .mgmtKindUnused => 12
  | .queueError => 9
  | .hostReadFailed => 9
  | .flr => 9
  | .hostSetting => 9

/-- An event on its way to the recorder: what the source gives. -/
structure JReq where
  cls  : Nat
  kind : Nat
  code : Nat
  unit : Nat
  d0   : BitVec 32
  d1   : BitVec 32
  /-- a CONTAINED entry that reaches software on no other path (R431) -/
  alone : Bool := false
  deriving DecidableEq, Repr

/-- An accepted entry (R419). -/
structure JEntry where
  seq    : BitVec 32
  secs   : BitVec 32
  usec   : Nat
  cycles : Nat
  cls    : Nat
  kind   : Nat
  code   : Nat
  unit   : Nat
  tick   : BitVec 32
  d0     : BitVec 32
  d1     : BitVec 32
  deriving DecidableEq, Repr

end Sys2Proof.Machine
end

