-- ==== Sys2Proof/Machine/BootTypes.lean ====
section
/-! DEFINITION. The state of start-up, identity and the mailbox (chapter 14), of power and sensors (chapter 15) and of the recorder
(chapter 16), as plain data. BOOT, SEC, PWR and JSP registers lie in the register map of State. -/

namespace Sys2Proof.Machine

/-- A request that the command engine holds (R386, R388): from the mailbox, or over DOE. -/
structure MailJob where
  doe  : Bool
  op   : Nat
  req  : List Byte
  /-- bytes that NOR_WRITE has written, or 1 once a new security-version record is written -/
  done : Nat := 0
  deriving DecidableEq, Repr

/-- Start-up, identity and the security mailbox outside their registers. -/
structure BootSt where
  /-- The configuration NOR; it keeps its contents through every reset (R368, R369). Reset: 0, log entry 3 -/
  nor : Mem := []
  /-- The NOR's replay-protected counter: its root key, if written, and its value (R384). Reset: no key, 0 -/
  rpmc : Option (BitVec 256) × Nat := (none, 0)
  /-- SEC.BUFFER (R394). Reset: 0 -/
  buffer : Mem := []
  /-- The PUF secret, while start-up has reconstructed it (R379). Reset: none -/
  secret : Option (BitVec 256) := none
  /-- The identity public key (R379). Reset: none -/
  idKey : List Byte := []
  /-- Index of the valid security-version record (R384). Reset: 0 -/
  record : Nat := 0
  /-- OWNER_KEY_HASH of that record (R383). Reset: 0 -/
  ownerHash : BitVec 256 := 0#256
  /-- Time 0 of the start-up (R362). Reset: 0 -/
  zeroAt : Nat := 0
  /-- Resets are held by: SYS_RST_N, PERST_N, a supply, a die trip or PWRFAIL_N (R361, R397, R412, R415). Reset: none -/
  heldBy : List Nat := []
  /-- Bad lanes named by the LANE_MAP record: channel and physical lane (R204, R377). Reset: none -/
  laneMap : List (Nat × Nat) := []
  /-- Read-offset sets of the FLASH record, as bytes (R259, R377). Reset: none -/
  readSets : List Byte := []
  /-- Starting values of training, as the TRAINING record holds them (R377). Reset: none, the ROM values -/
  trainVals : List Byte := []
  /-- I3C static address of the SIDEBAND record (R377, R429). Reset: none -/
  i3cAddr : Option (BitVec 7) := none
  /-- The entropy source has stopped (R382). Reset: false -/
  entropyStopped : Bool := false
  /-- The optical engines have settled (R363). Reset: false -/
  optics : Bool := false
  /-- The stacks have been identified (R364). Reset: false -/
  identified : Bool := false
  /-- The device certificate, as start-up read it (R368, R369, R381). Reset: none -/
  cert : List Byte := []
  /-- Requests of the mailbox and of DOE that the command engine has not finished, in arrival order (R386, R388). Reset: none -/
  mails : List MailJob := []
  /-- The ports still down at 8 s have been recorded (R366). Reset: false -/
  portsTold : Bool := false
  /-- I3C dynamic address (R429). Reset: none -/
  i3cDyn : Option (BitVec 7) := none
  /-- A device fault that management firmware is about to act on (R318). Reset: none -/
  fault : Option LeaveCause := none
  deriving DecidableEq, Repr, Inhabited

/-- Power and sensors outside their registers. -/
structure PowerSt where
  /-- Newest sample of each sensor, in 0.25 °C (R412). Reset: none -/
  temps : NMap Int := []
  /-- The sample before it (R412). Reset: none -/
  prevs : NMap Int := []
  /-- Sensors whose warning is in force (R412). Reset: none -/
  warns : List Nat := []
  /-- Clusters whose cap is in force (R412). Reset: none -/
  caps : List Nat := []
  /-- Clusters lowered for a neighbour's temperature (R411). Reset: none -/
  hots : List Nat := []
  /-- Codes that the temperature of each cluster takes off 8 (R401, R412). Reset: 0 -/
  thermLow : NMap Nat := []
  /-- Codes that the neighbour rule takes off 8 (R401, R411). Reset: 0 -/
  nbrLow : NMap Nat := []
  /-- Codes that the package cap takes off 8 (R399, R401). Reset: 0 -/
  capLow : NMap Nat := []
  /-- The last average exceeded CAP_W, or lay at or above 95 % of it (R399). Reset: 0 below, 1 between, 2 above -/
  capSide : Nat := 0
  /-- Clusters whose supply ramps, with the code to come (R402). Reset: none -/
  ramps : NMap Nat := []
  /-- Optical engines down after a trip (R412). Reset: none -/
  oeDown : List Nat := []
  /-- Causes that assert THERM_N: 100 and 101 for a stack or die trip, else the sensor (R414). Reset: none -/
  thermN : List Nat := []
  /-- Clusters whose bridge has recorded a discard in the power-up in progress (R391). Reset: none -/
  bridged : List Nat := []
  /-- The stacks are still to be filled after a wake from S4 that PWRFAIL_N met (R410, R416). Reset: false -/
  refill : Bool := false
  /-- Moment since which the device is idle (R406). Reset: none -/
  idleSince : Option Nat := none
  /-- Moment of the last 1 ms step of each cluster (R411, R412), and of the package cap at 64 (R399). Reset: none -/
  stepAt : NMap Nat := []
  /-- Moment the wake in progress began (R409). Reset: 0 -/
  wakeAt : Nat := 0
  /-- Moment up to which the state in force has been counted (R418). Reset: 0 -/
  resAt : Nat := 0
  deriving DecidableEq, Repr, Inhabited

/-- A code's suppressed entries in the window (R426). -/
structure Supp where
  kind  : Nat
  unit  : Nat
  cls   : Nat
  count : Nat
  /-- an entry that it replaces reaches software on no other path (R431) -/
  alone : Bool := false
  deriving DecidableEq, Repr, Inhabited

/-- The recorder outside its registers. -/
structure JasperSt where
  /-- The ring of 8,192 entries, oldest first (R424). Reset: empty -/
  ring : List JEntry := []
  /-- Entries of each code accepted in the window (R426). Reset: 0 -/
  counts : NMap Nat := []
  /-- Suppressed entries of each code in the window (R426). Reset: none -/
  supp : NMap Supp := []
  /-- Intake drops in the window (R427). Reset: 0 -/
  drops : Nat := 0
  /-- Moment the window opened (R426). Reset: 0 -/
  windowAt : Nat := 0
  /-- Moment the operating second in progress began (R422). Reset: 0 -/
  secondAt : Nat := 0
  /-- SEQ of the next entry to give to Onyx (R424). Reset: 0 -/
  passed : BitVec 32 := 0#32
  /-- Pages programmed whose commit is not yet durable, oldest first: JOURNALLED once it is (R424). Reset: none -/
  waiting : List (BitVec 32) := []
  /-- SEQ of the I3C selection, with its state (R429). Reset: none -/
  sel : Option (BitVec 32) := none
  /-- OP_SECONDS at the last OP_TIME entry (R423). Reset: 0 -/
  opAt : Nat := 0
  deriving DecidableEq, Repr, Inhabited

end Sys2Proof.Machine
end

