-- ==== Sys2Proof/Machine/Accumulate.lean ====
section
/-! DEFINITION. Accumulator entries, their two additions, the engine's LFSR and the raw layouts of READRAW and MERGE
(R94 to R99, R103 to R106). -/

namespace Sys2Proof.Machine

/-- One accumulator entry (R94). The mode bit is common to the bank and lies in ENG.STATUS.COMP_BANK. -/
structure Acc where
  /-- 32-bit signed mantissa (R94). Reset: 0 -/
  m : BitVec 32 := 0#32
  /-- 5-bit shift (R94). Reset: 0 -/
  h : BitVec 5 := 0#5
  /-- 16-bit unsigned residual (R94). Reset: 0 -/
  e : BitVec 16 := 0#16
  deriving DecidableEq, Repr, Inhabited

/-- The value of an entry, m × 2^h + e, where e is 0 in normal mode (R94). -/
def Acc.value (a : Acc) : Int := a.m.toInt * 2 ^ a.h.toNat + a.e.toNat

/-- What one addition to an entry did. -/
structure AddOut where
  acc : Acc
  /-- single-bit shifts made -/
  shifts : Nat
  /-- the entry saturated at shift 31 (R97) -/
  sat : Bool
  deriving DecidableEq, Repr

/-- The shifting loop of R95: `i` shifts are made so far; shift bit i is bit 31 - i of the random word. -/
def shiftLoop (rw : BitVec 32) : Nat → Int → Nat → Nat → Int × Nat × Nat
  | 0, s, h, i => (s, h, i)
  | fuel + 1, s, h, i =>
    if outW 32 s ∧ h < 31 then
      let b := s % 2
      let s1 := s / 2
      let s2 := if b = 1 ∧ rw.getLsbD (31 - i) then s1 + 1 else s1
      shiftLoop rw fuel s2 (h + 1) (i + 1)
    else (s, h, i)

/-- Addition in normal mode, with random word `rw` (R95, R97). -/
def accAddNormal (a : Acc) (x : Int) (rw : BitVec 32) : AddOut :=
  let h := a.h.toNat
  let q0 := x / 2 ^ h
  let rem := x % 2 ^ h
  let u : Int := bvGet 0 h rw
  let q := if u < rem then q0 + 1 else q0
  let (s, h', i) := shiftLoop rw 31 (a.m.toInt + q) h 0
  if outW 32 s then
    ⟨⟨if s > 0 then 0x7FFFFFFF#32 else 0x80000001#32, BitVec.ofNat 5 h', a.e⟩, i, true⟩
  else ⟨⟨BitVec.ofInt 32 s, BitVec.ofNat 5 h', a.e⟩, i, false⟩

/-- The growth of the shift in compensated mode (R98), at most to 17. -/
def compShift : Nat → Int → Nat → Nat
  | 0, _, h => h
  | fuel + 1, total, h => if outW 32 (total / 2 ^ h) then compShift fuel total (h + 1) else h

/-- Exact addition in compensated mode; `none` when the shift would exceed 16 (R98). -/
def accAddComp (a : Acc) (x : Int) : Option AddOut :=
  let total := a.m.toInt * 2 ^ a.h.toNat + a.e.toNat + x
  let h := compShift 17 total a.h.toNat
  if h > 16 then none
  else
    let m := total / 2 ^ h
    some ⟨⟨BitVec.ofInt 32 m, BitVec.ofNat 5 h, BitVec.ofInt 16 (total - m * 2 ^ h)⟩, h - a.h.toNat, false⟩

/-- An entry leaving compensated mode: its residual is added by the rounding of R95 and cleared (R98). -/
def leaveComp (a : Acc) (rw : BitVec 32) : AddOut :=
  accAddNormal { a with e := 0#16 } a.e.toNat rw

/-- One advance of the LFSR (R96). -/
def lfsrNext (x : BitVec 32) : BitVec 32 :=
  let b := x.getLsbD 31 ^^ x.getLsbD 21 ^^ x.getLsbD 1 ^^ x.getLsbD 0
  (x <<< 1) ||| (if b then 1#32 else 0#32)

/-- The random word of column `j` (R96). -/
def lfsrWord (x : BitVec 32) (j : Nat) : BitVec 32 := x.rotateLeft j

/-- A seed as loaded: 0 loads as 1 (R96). -/
def lfsrLoad (x : BitVec 32) : BitVec 32 := if x = 0#32 then 1#32 else x

/-- An engine's bank: entry 32t + j is entry (t, j). An unlisted entry is cleared. -/
abbrev Bank := NMap Acc

/-- Entry `k` of a bank. -/
def Bank.at (b : Bank) (k : Nat) : Acc := NMap.get {} b k

/-- A bank in the course of additions. -/
structure BankRun where
  bank : Bank
  comp : Bool
  lfsr : BitVec 32
  /-- single-bit shifts, of any entry -/
  shifts : Nat := 0
  /-- rows whose entries saturated, one for each saturation (R97) -/
  satRows : List Nat := []
  /-- the bank left compensated mode (R98) -/
  inexact : Bool := false
  /-- array cycles of its token rows, and those of them in compensated mode (R98, R112, R114) -/
  cycles : Nat := 0
  compCyc : Nat := 0
  deriving DecidableEq, Repr

/-- Entry k := the result of one addition, with its shifts and saturation noted. -/
def BankRun.put (r : BankRun) (k : Nat) (o : AddOut) : BankRun :=
  { r with bank := NMap.set {} r.bank k o.acc, shifts := r.shifts + o.shifts,
           satRows := if o.sat then r.satRows ++ [k / 32] else r.satRows }

/-- The whole bank leaves compensated mode (R98): every entry rounds its residual into its mantissa, by the random word that its column has
for the addition in progress. R98 names no word for these roundings: DESIGN CHOICE, log entry 77. -/
def BankRun.leave (r : BankRun) : BankRun :=
  let r' := (List.range 1024).foldl (fun (r : BankRun) k =>
    let a := r.bank.at k
    if a.e = 0#16 then r else r.put k (leaveComp a (lfsrWord r.lfsr (k % 32)))) r
  { r' with comp := false, inexact := true }

/-- One addend to entry `k` (R95, R98). -/
def BankRun.add (r : BankRun) (k : Nat) (x : Int) : BankRun :=
  let a := r.bank.at k
  if r.comp then
    match accAddComp a x with
    | some o => r.put k o
    | none =>
      let r' := r.leave
      r'.put k (accAddNormal (r'.bank.at k) x (lfsrWord r.lfsr (k % 32)))
  else r.put k (accAddNormal a x (lfsrWord r.lfsr (k % 32)))

/-- One token-row addition: addend `x j` to entry (t, j) for every column, then one advance of the LFSR (R96). A row that begins in
compensated mode takes two cycles (R98). -/
def BankRun.addRow (r : BankRun) (t : Nat) (x : Nat → Int) : BankRun :=
  let r' := (List.range 32).foldl (fun r j => r.add (32 * t + j) (x j)) r
  { r' with lfsr := lfsrNext r'.lfsr, cycles := r.cycles + (if r.comp then 2 else 1), compCyc := r.compCyc + (if r.comp then 2 else 0) }

/-- The 8-byte record of READRAW (R106). -/
def Acc.raw (a : Acc) (comp : Bool) : Nat :=
  a.m.toNat + 2 ^ 32 * a.h.toNat + 2 ^ 37 * (if comp then a.e.toNat else 0) + 2 ^ 53 * bit1 comp

/-- READOUT's corrected value D (R104): `z` is the token's zero point, `k` is K[j]. -/
def correctedD (a16 : Bool) (v z k : Int) : Int := if a16 then v + 128 * k else v - z * k

/-- READOUT's unsaturated output for shift `k` (R104). -/
def readoutX (d : Int) (k : Int) : Int := if k > 0 then rne d (2 ^ k.toNat) else d * 2 ^ (-k).toNat

/-- The histogram bin of a VALUE record (R144). -/
def valueBin (x : Int) : Nat :=
  if x = 32767 ∨ x = -32768 then 15 else if x.natAbs < 2 then 0 else Nat.log2 x.natAbs

end Sys2Proof.Machine
end

