-- ==== Sys2Proof/Machine/Vector.lean ====
section
/-! DEFINITION. The vector engine as pure functions: registers, masks and lookup slots (R115 to R118, R129), the results of every
class 0x1 instruction (R122 to R135) and their costs (R140). Each function takes the engine's contents and answers the new
contents, an unused encoding or a command error (R121). -/

namespace Sys2Proof.Machine

/-- An element type (R115). -/
inductive VTy
  | i8 | i16 | i32
  deriving DecidableEq, Repr

/-- Bits of an element. -/
def VTy.bits : VTy → Nat
  | .i8 => 8
  | .i16 => 16
  | .i32 => 32

/-- Bytes of an element. -/
def VTy.bytes (t : VTy) : Nat := t.bits / 8

/-- Elements of one register (R115). -/
def VTy.cap (t : VTy) : Nat := 4096 / t.bytes

/-- The type of a TYPE code; `none` for the unused 0b11 (R115). -/
def VTy.ofCode : Nat → Option VTy
  | 0 => some .i8
  | 1 => some .i16
  | 2 => some .i32
  | _ => none

/-- The vector engine's contents. -/
structure VFile where
  /-- Vector registers V0 to V31, 4 KiB each (R115). Reset: 0, log entry 5 -/
  regs : NMap (BitVec 32768) := []
  /-- Mask registers M0 to M7, 4,096 bits each (R117). Reset: 0, log entry 5 -/
  masks : NMap (BitVec 4096) := []
  /-- Lookup slots 0 to 7, 2 KiB each (R129). Reset: 0, log entry 5 -/
  luts : NMap (BitVec 16384) := []
  /-- The model's own tag of the free contents left by the last step start; 0 none yet. Reset: 0 -/
  tag : Nat := 0
  /-- The model's own tag of the free lookup contents left by a cold reset; 0 none yet. Reset: 0 -/
  lutTag : Nat := 0
  deriving DecidableEq, Repr, Inhabited

/-- Register `n`; one that nothing has written since the step start reads a free value (R115). -/
def VFile.reg (f : VFile) (n : Nat) : BitVec 32768 :=
  (NMap.find f.regs n).getD (if f.tag = 0 then 0#32768 else Config.freeVReg f.tag n)

/-- Mask `n`, free at a step start (R117). -/
def VFile.mask (f : VFile) (n : Nat) : BitVec 4096 :=
  (NMap.find f.masks n).getD (if f.tag = 0 then 0#4096 else Config.freeMask f.tag n)

/-- Lookup slot `n`, free at a cold reset (R129). -/
def VFile.lut (f : VFile) (n : Nat) : BitVec 16384 :=
  (NMap.find f.luts n).getD (if f.lutTag = 0 then 0#16384 else Config.freeLut f.lutTag n)

/-- Register `n` written whole. -/
def VFile.setReg (f : VFile) (n : Nat) (v : BitVec 32768) : VFile := { f with regs := NMap.ins f.regs n v }

/-- Mask `n` written whole. -/
def VFile.setMask (f : VFile) (n : Nat) (v : BitVec 4096) : VFile := { f with masks := NMap.ins f.masks n v }

/-- Lookup slot `n` written whole. -/
def VFile.setLut (f : VFile) (n : Nat) (v : BitVec 16384) : VFile := { f with luts := NMap.ins f.luts n v }

/-- Element `i`, unsigned, of the group at `n` (R115, R116). -/
def VFile.getU (f : VFile) (t : VTy) (n i : Nat) : Nat :=
  bvGet (t.bits * (i % t.cap)) t.bits (f.reg (n + i / t.cap))

/-- Element `i`, signed, of the group at `n` (R115, R116). -/
def VFile.get (f : VFile) (t : VTy) (n i : Nat) : Int := sx t.bits (f.getU t n i)

/-- Element `i` of the group at `n` replaced by the low bits of `v` (R115, R116). -/
def VFile.set (f : VFile) (t : VTy) (n i : Nat) (v : Int) : VFile :=
  f.setReg (n + i / t.cap) (bvSet (t.bits * (i % t.cap)) t.bits (f.reg (n + i / t.cap)) (toCode t.bits v))

/-- Elements i of the list, in the group at `n`, given the values of `g` (R118: every source is read first). -/
def VFile.setAll (f : VFile) (t : VTy) (n : Nat) (is : List Nat) (g : Nat → Int) : VFile :=
  is.foldl (fun acc i => acc.set t n i (g i)) f

/-- A group of `cnt` elements lies within V31 (R116). -/
def groupOk (t : VTy) (n cnt : Nat) : Bool := decide (n + ceilDiv cnt t.cap ≤ 32)

/-- What a vector instruction reads beside its registers. -/
structure VCtx where
  /-- the core buffer -/
  buf  : Mem
  /-- slot, code ↦ grid value (R65) -/
  grid : Nat → Nat → Int
  /-- engine, entry ↦ accumulator entry -/
  acc  : Nat → Nat → Acc
  /-- engine ↦ bank mode -/
  comp : Nat → Bool
  /-- stream, counter ↦ random word (R133) -/
  rand : Nat → Nat → BitVec 32

/-- The result of a vector instruction. -/
structure VRes where
  file : VFile
  buf  : Mem
  /-- saturations that count under R83 -/
  sats : Nat := 0
  /-- core-buffer bytes read: address, length -/
  reads : List (Nat × Nat) := []

/-- Outcome of a vector instruction: done, unused encoding or command error (R121). -/
inductive VOut
  | ok (r : VRes)
  | unusedEnc
  | cmdErr

/-- N. -/
def nOf (w : VWord) : Nat := w.nm1.val + 1

/-- IMM, unsigned. -/
def immU (w : VWord) : Nat := w.imm.toNat

/-- b: IMM sign-extended from 19 bits, then reduced to the type (R119). -/
def immB (t : VTy) (w : VWord) : Int := wrapW t.bits w.imm.toInt

/-- Bits [lo+n-1 : lo] of IMM. -/
def immF (w : VWord) (lo n : Nat) : Nat := bvGet lo n w.imm

/-- The active elements under MEN and MSK (R117). -/
def activeOf (f : VFile) (w : VWord) : List Nat :=
  let m := f.mask w.msk.val
  (List.range (nOf w)).filter fun i => !w.men || m.getLsbD i

/-- The elements VEC.ELEMENTS counts, for a mask column Y (R122, R141). -/
def elemsY (f : VFile) (w : VWord) : Nat := (activeOf f w).length

/-- Runs `k` at the instruction's type, refusing the unused TYPE and a type that `ok` forbids (R121, R122). -/
def withType (w : VWord) (ok : VTy → Bool) (k : VTy → VOut) : VOut :=
  match VTy.ofCode w.ty.val with
  | some t => if ok t then k t else .unusedEnc
  | none => .unusedEnc

/-- Any type. -/
def anyTy (_ : VTy) : Bool := true
/-- I16 only. -/
def onlyI16 (t : VTy) : Bool := t == .i16
/-- I32 only. -/
def onlyI32 (t : VTy) : Bool := t == .i32

/-- `k` where every group of the list (type, register, count) lies within V31; else a command error (R116, R121). -/
def withGroups (gs : List (VTy × Nat × Nat)) (k : VOut) : VOut :=
  if gs.all fun g => groupOk g.1 g.2.1 g.2.2 then k else .cmdErr

/-- A lane operation of one source: VD[i] ← op VA[i] for active i (R122). -/
def laneUnary (op : VTy → Int → Int) (x : VCtx) (w : VWord) (f : VFile) : VOut :=
  withType w anyTy fun t => withGroups [(t, w.vd, nOf w), (t, w.va, nOf w)]
    (.ok { file := f.setAll t w.vd (activeOf f w) fun i => op t (f.get t w.va i), buf := x.buf })

/-- A lane operation of two register sources (R122). -/
def laneBinary (op : VTy → Int → Int → Int) (x : VCtx) (w : VWord) (f : VFile) : VOut :=
  withType w anyTy fun t => withGroups [(t, w.vd, nOf w), (t, w.va, nOf w), (t, w.vb, nOf w)]
    (.ok { file := f.setAll t w.vd (activeOf f w) fun i => op t (f.get t w.va i) (f.get t w.vb i), buf := x.buf })

/-- A lane operation of a register and the immediate b (R119, R122). -/
def laneImm (op : VTy → Int → Int → Int) (x : VCtx) (w : VWord) (f : VFile) : VOut :=
  withType w anyTy fun t => withGroups [(t, w.vd, nOf w), (t, w.va, nOf w)]
    (.ok { file := f.setAll t w.vd (activeOf f w) fun i => op t (f.get t w.va i) (immB t w), buf := x.buf })

/-- A lane operation without a source (R122). -/
def laneGen (ok : VTy → Bool) (g : VTy → Nat → Int) (x : VCtx) (w : VWord) (f : VFile) : VOut :=
  withType w ok fun t => withGroups [(t, w.vd, nOf w)]
    (.ok { file := f.setAll t w.vd (activeOf f w) (g t), buf := x.buf })

/-- VADD (R122). -/
def opAdd (t : VTy) (a b : Int) : Int := wrapW t.bits (a + b)
/-- VSUB (R122). -/
def opSub (t : VTy) (a b : Int) : Int := wrapW t.bits (a - b)
/-- VADDS (R122). -/
def opAddS (t : VTy) (a b : Int) : Int := satW t.bits (a + b)
/-- VSUBS (R122). -/
def opSubS (t : VTy) (a b : Int) : Int := satW t.bits (a - b)
/-- VMUL (R122). -/
def opMul (t : VTy) (a b : Int) : Int := wrapW t.bits (a * b)
/-- VMULSH with shift k (R122, R123). -/
def opMulSh (k : Nat) (t : VTy) (a b : Int) : Int := satW t.bits (rne (a * b) (2 ^ k))
/-- VMIN (R122). -/
def opMin (_ : VTy) (a b : Int) : Int := if a ≤ b then a else b
/-- VMAX (R122). -/
def opMax (_ : VTy) (a b : Int) : Int := if a ≤ b then b else a
/-- VABS (R122, R123). -/
def opAbs (t : VTy) (a : Int) : Int := satW t.bits a.natAbs
/-- VNEG (R122, R123). -/
def opNeg (t : VTy) (a : Int) : Int := satW t.bits (-a)
/-- VAND (R122). -/
def opAnd (t : VTy) (a b : Int) : Int := (BitVec.ofInt t.bits a &&& BitVec.ofInt t.bits b).toInt
/-- VOR (R122). -/
def opOr (t : VTy) (a b : Int) : Int := (BitVec.ofInt t.bits a ||| BitVec.ofInt t.bits b).toInt
/-- VXOR (R122). -/
def opXor (t : VTy) (a b : Int) : Int := (BitVec.ofInt t.bits a ^^^ BitVec.ofInt t.bits b).toInt
/-- VSHL by s (R123). -/
def opShl (t : VTy) (a : Int) (s : Nat) : Int := if s ≥ t.bits then 0 else wrapW t.bits (a * 2 ^ s)
/-- VSRA by s (R123). -/
def opSra (t : VTy) (a : Int) (s : Nat) : Int := if s ≥ t.bits then (if a < 0 then -1 else 0) else a / 2 ^ s
/-- VSRR by s (R123). -/
def opSrr (t : VTy) (a : Int) (s : Nat) : Int := if s ≥ t.bits then 0 else rne a (2 ^ s)
/-- VSHLS by s (R123). -/
def opShlS (t : VTy) (a : Int) (s : Nat) : Int :=
  if s ≥ t.bits then (if a = 0 then 0 else if a > 0 then maxOf t.bits else minOf t.bits) else satW t.bits (a * 2 ^ s)
/-- VCLS: bits below the sign bit that equal it (R122, R123). -/
def opCls (t : VTy) (a : Int) : Int :=
  let v : Nat := if a < 0 then (-a - 1).toNat else a.toNat
  (t.bits - 1 - (if v = 0 then 0 else Nat.log2 v + 1) : Nat)

/-- A shift by the unsigned VB[i] bits [7:0] (R122). -/
def shiftReg (op : VTy → Int → Nat → Int) (x : VCtx) (w : VWord) (f : VFile) : VOut :=
  withType w anyTy fun t => withGroups [(t, w.vd, nOf w), (t, w.va, nOf w), (t, w.vb, nOf w)]
    (.ok { file := f.setAll t w.vd (activeOf f w) fun i => op t (f.get t w.va i) (f.getU t w.vb i % 256), buf := x.buf })

/-- A shift by IMM[7:0] (R122). -/
def shiftImm (op : VTy → Int → Nat → Int) (x : VCtx) (w : VWord) (f : VFile) : VOut :=
  laneUnary (fun t a => op t a (immF w 0 8)) x w f

/-- VMULSHI: c = IMM[18:6] signed, k = IMM[5:0] (R122). -/
def mulShImm (x : VCtx) (w : VWord) (f : VFile) : VOut :=
  laneUnary (fun t a => opMulSh (immF w 0 6) t a (sx 13 (immF w 6 13))) x w f

/-- VMULSH: k = IMM[5:0] (R122). -/
def mulSh (x : VCtx) (w : VWord) (f : VFile) : VOut := laneBinary (opMulSh (immF w 0 6)) x w f

/-- Size of the core buffer in bytes (R5). -/
def bufBytes : Nat := 2097152

/-- VLD (R122): the array at byte 4 × IMM. -/
def vLoad (x : VCtx) (w : VWord) (f : VFile) : VOut :=
  withType w anyTy fun t => withGroups [(t, w.vd, nOf w)]
    (let a := 4 * immU w
     let len := nOf w * t.bytes
     if a + len > bufBytes then .cmdErr
     else .ok { file := f.setAll t w.vd (activeOf f w) fun i => sx t.bits (x.buf.rdLe (a + i * t.bytes) t.bytes),
                buf := x.buf, reads := [(a, len)] })

/-- VST (R122): active elements written at byte 4 × IMM + i × size. -/
def vStore (x : VCtx) (w : VWord) (f : VFile) : VOut :=
  withType w anyTy fun t => withGroups [(t, w.va, nOf w)]
    (let a := 4 * immU w
     if a + nOf w * t.bytes > bufBytes then .cmdErr
     else .ok { file := f, buf := (activeOf f w).foldl (fun m i =>
                  m.wrLe (a + i * t.bytes) t.bytes (f.getU t w.va i)) x.buf })

/-- The address of element i of VLDX (R122). -/
def ldxAddr (t : VTy) (w : VWord) (f : VFile) (i : Nat) : Int := 4 * (immU w : Int) + f.get .i32 w.vb i * t.bytes

/-- VLDX (R122): an address outside the core buffer reads 0. -/
def vLoadX (x : VCtx) (w : VWord) (f : VFile) : VOut :=
  withType w anyTy fun t => withGroups [(t, w.vd, nOf w), (.i32, w.vb, nOf w)]
    (let inside := fun i => decide (0 ≤ ldxAddr t w f i) && decide (ldxAddr t w f i < bufBytes)
     .ok { file := f.setAll t w.vd (activeOf f w) fun i =>
             if inside i then sx t.bits (x.buf.rdLe (ldxAddr t w f i).toNat t.bytes) else 0
           buf := x.buf
           reads := ((activeOf f w).filter inside).map fun i => ((ldxAddr t w f i).toNat, t.bytes) })

/-- VSPLATHI (R122). -/
def vSplatHi (x : VCtx) (w : VWord) (f : VFile) : VOut :=
  withType w onlyI32 fun t => withGroups [(t, w.vd, nOf w)]
    (.ok { file := f.setAll t w.vd (activeOf f w) fun i => sx 32 (65536 * immF w 0 16 + f.getU t w.vd i % 65536),
           buf := x.buf })

/-- VBCAST (R122): element IMM[11:0] of VA, within the registers of the group. -/
def vBcast (x : VCtx) (w : VWord) (f : VFile) : VOut :=
  withType w anyTy fun t => withGroups [(t, w.vd, nOf w), (t, w.va, nOf w)]
    (let j := immF w 0 12
     if j ≥ ceilDiv (nOf w) t.cap * t.cap then .cmdErr
     else .ok { file := f.setAll t w.vd (activeOf f w) fun _ => f.get t w.va j, buf := x.buf })

/-- VLUTLD (R122, R129). -/
def vLutLoad (x : VCtx) (w : VWord) (f : VFile) : VOut :=
  withType w anyTy fun _ =>
    (let a := 64 * immF w 0 15
     if a + 2048 > bufBytes then .cmdErr
     else .ok { file := f.setLut (immF w 15 3) (BitVec.ofNat 16384 (x.buf.rdLe a 2048)),
                buf := x.buf, reads := [(a, 2048)] })

/-- VCVT (R124): VA read as type IMM[1:0], k = IMM[7:2]. An unused encoding that is a command error too is reported as the unused
encoding alone: DESIGN CHOICE, log entry 78. -/
def vCvt (x : VCtx) (w : VWord) (f : VFile) : VOut :=
  withType w anyTy fun t =>
    match VTy.ofCode (immF w 0 2) with
    | none => .unusedEnc
    | some ts => withGroups [(t, w.vd, nOf w), (ts, w.va, nOf w)]
        (let y := fun i => rne (f.get ts w.va i) (2 ^ immF w 2 6)
         .ok { file := f.setAll t w.vd (activeOf f w) fun i => satW t.bits (y i), buf := x.buf,
               sats := ((activeOf f w).filter fun i => outW t.bits (y i)).length })

/-- The shift τ and zero point z of a row with extremes lo and hi (R130). -/
def descOf (symmetric : Bool) (lo hi : Int) : Nat × Int :=
  let fits := fun k : Nat =>
    if symmetric then decide (rne hi (2 ^ k) ≤ 127) && decide (-128 ≤ rne lo (2 ^ k))
    else decide (rne hi (2 ^ k) - rne lo (2 ^ k) ≤ 255)
  let tau := ((List.range 16).find? fits).getD 15
  (tau, if symmetric then 0 else clampI (-128) 127 (-128 - rne lo (2 ^ tau)))

/-- Least and greatest of a list of elements. -/
def minMax : List Int → Option (Int × Int)
  | [] => none
  | a :: as => some (as.foldl (fun (p : Int × Int) v => (min p.1 v, max p.2 v)) (a, a))

/-- VDESC (R130): the descriptor is written to VD[0] whatever the mask. -/
def vDesc (x : VCtx) (w : VWord) (f : VFile) : VOut :=
  withType w onlyI16 fun t => withGroups [(t, w.vd, 1), (t, w.va, nOf w)]
    (let d := match minMax ((activeOf f w).map fun i => f.get t w.va i) with
       | none => (0, 0)
       | some (lo, hi) => descOf (immF w 0 1 == 1) lo hi
     .ok { file := f.set t w.vd 0 (toCode 8 d.2 + 256 * d.1 : Nat), buf := x.buf })

/-- The subfields of IMM for VQSCALE, VQUANT, VDEQ and VEXTS (R132); `none` for an unused encoding. -/
def quantImm (w : VWord) : Option (Fmt × Nat × Nat × Nat × Nat) :=
  match Fmt.ofCode (immF w 15 4), groupSize (immF w 0 2) with
  | some fm, some n => if fm.isWeight then some (fm, immF w 12 3, immF w 6 6, immF w 2 4, n) else none
  | _, _ => none

/-- Bytes of one record: codes, scale byte and, for U4Z, a zero-point byte (R132). -/
def recordBytes (fm : Fmt) (n : Nat) : Nat :=
  match fm with
  | .g4 => n / 2 + 1
  | .u4z => n / 2 + 2
  | _ => n + 1

/-- The group scale of R131 for largest magnitude `m` and grid bound `g`. -/
def scaleOf (m g : Int) (c f : Nat) : Nat :=
  if m = 0 then 0
  else if g ≤ 0 then 255
  else min 255 ((m * 2 ^ c + (g * 2 ^ f - 1)) / (g * 2 ^ f)).toNat

/-- VQSCALE (R131). -/
def vQScale (x : VCtx) (w : VWord) (f : VFile) : VOut :=
  withType w onlyI16 fun t =>
    match quantImm w with
    | none => .unusedEnc
    | some (fm, gr, c, fb, n) =>
      if fm = .u4z then .unusedEnc
      else
        let ng := ceilDiv (nOf w) n
        let bound := if fm = .g4 then max (-(x.grid gr 0)) (x.grid gr 15) else 127
        withGroups [(t, w.vd, ng), (t, w.va, nOf w)]
          (.ok { file := f.setAll t w.vd (List.range ng) fun g =>
                   (scaleOf (((List.range n).filter fun r => n * g + r < nOf w).foldl
                     (fun m r => max m (f.get t w.va (n * g + r)).natAbs) (0 : Nat)) bound c fb : Nat)
                 buf := x.buf })

/-- The bytes of one record from its codes, scale and zero point (R62, R132). -/
def recordOf (fm : Fmt) (codes : List Int) (s zw : Nat) : List Byte :=
  match fm with
  | .g4 => packNibbles (codes.map Int.toNat) ++ [BitVec.ofNat 8 s]
  | .u4z => packNibbles (codes.map Int.toNat) ++ [BitVec.ofNat 8 s, BitVec.ofNat 8 zw]
  | _ => codes.map (BitVec.ofInt 8) ++ [BitVec.ofNat 8 s]

/-- VQUANT (R132): records written back to back as bytes into VD. An unused encoding that is a command error too is reported as the
unused encoding alone: DESIGN CHOICE, log entry 78. -/
def vQuant (x : VCtx) (w : VWord) (f : VFile) : VOut :=
  withType w onlyI16 fun t =>
    match quantImm w with
    | none => .unusedEnc
    | some (fm, gr, c, fb, n) =>
      let ng := ceilDiv (nOf w) n
      let rb := recordBytes fm n
      withGroups [(.i8, w.vd, ng * rb), (t, w.va, nOf w), (t, w.vb, ng)]
        (let one := fun g =>
           let s := f.getU t w.vb g % 256
           let zw := f.getU t w.vb g / 256 % 16
           let qs := (List.range n).map fun r =>
             let v := if n * g + r < nOf w then f.get t w.va (n * g + r) else 0
             quantise fm (x.grid gr) s zw (v * 2 ^ c) (s * 2 ^ fb)
           (recordOf fm (qs.map Prod.fst) s (if s = 0 then 0 else zw), (qs.filter Prod.snd).length)
         let recs := (List.range ng).map one
         let bytes := recs.flatMap Prod.fst
         .ok { file := (bytes.zipIdx).foldl (fun acc p => acc.set .i8 w.vd p.2 p.1.toInt) f
               buf := x.buf, sats := (recs.map Prod.snd).sum })

/-- Byte `i` of the group at `n`. -/
def VFile.byte (f : VFile) (n i : Nat) : Nat := f.getU .i8 n i

/-- Element `r` of record `g` of VA, dequantised (R132). -/
def dequant (x : VCtx) (fm : Fmt) (gr n : Nat) (f : VFile) (va g r : Nat) : Int :=
  let base := g * recordBytes fm n
  let nb := if fm.isNibble then n / 2 else n
  let s : Int := f.byte va (base + nb)
  match fm with
  | .g4 => x.grid gr ((f.byte va (base + r / 2) / (if r % 2 = 0 then 1 else 16)) % 16) * s
  | .u4z => (((f.byte va (base + r / 2) / (if r % 2 = 0 then 1 else 16)) % 16 : Nat) -
      (f.byte va (base + nb + 1) % 16 : Nat) : Int) * s
  | _ => sx 8 (f.byte va (base + r)) * s

/-- VDEQ (R132). -/
def vDeq (x : VCtx) (w : VWord) (f : VFile) : VOut :=
  withType w onlyI16 fun t =>
    match quantImm w with
    | none => .unusedEnc
    | some (fm, gr, _, _, n) =>
      withGroups [(t, w.vd, nOf w), (.i8, w.va, ceilDiv (nOf w) n * recordBytes fm n)]
        (.ok { file := f.setAll t w.vd (List.range (nOf w)) fun i => dequant x fm gr n f w.va (i / n) (i % n),
               buf := x.buf })

/-- VEXTS (R132). -/
def vExts (x : VCtx) (w : VWord) (f : VFile) : VOut :=
  withType w onlyI16 fun t =>
    match quantImm w with
    | none => .unusedEnc
    | some (fm, _, _, _, n) =>
      let rb := recordBytes fm n
      let nb := if fm.isNibble then n / 2 else n
      withGroups [(t, w.vd, nOf w), (.i8, w.va, nOf w * rb)]
        (.ok { file := f.setAll t w.vd (List.range (nOf w)) fun i => (f.byte w.va (i * rb + nb) : Nat), buf := x.buf })

/-- The conditions of VCMP (R123); `none` for the unused 6 and 7. -/
def cmpCond : Nat → Option (Int → Int → Bool)
  | 0 => some fun a b => decide (a = b)
  | 1 => some fun a b => decide (a ≠ b)
  | 2 => some fun a b => decide (a < b)
  | 3 => some fun a b => decide (a ≤ b)
  | 4 => some fun a b => decide (b < a)
  | 5 => some fun a b => decide (b ≤ a)
  | _ => none

/-- Bits i of the list, in mask `d`, given the values of `g`. -/
def VFile.putBits (f : VFile) (d : Nat) (is : List Nat) (g : Nat → Bool) : VFile :=
  f.setMask d (is.foldl (fun m i => bvPut i m (g i)) (f.mask d))

/-- The mask that VD names, or a command error where VD[45:44] is not 0 (R119, R121). -/
def withMaskDest (w : VWord) (k : Nat → VOut) : VOut := if w.vd.val ≥ 8 then .cmdErr else k w.vd.val

/-- VCMP (R123). An unused encoding that is a command error too is reported as the unused encoding alone: DESIGN CHOICE, log entry 78. -/
def vCmp (x : VCtx) (w : VWord) (f : VFile) : VOut :=
  withType w anyTy fun t =>
    match cmpCond (immF w 16 3) with
    | none => .unusedEnc
    | some cond => withMaskDest w fun d =>
        if immF w 15 1 = 0 then
          withGroups [(t, w.va, nOf w), (t, w.vb, nOf w)]
            (.ok { file := f.putBits d (activeOf f w) fun i => cond (f.get t w.va i) (f.get t w.vb i), buf := x.buf })
        else
          withGroups [(t, w.va, nOf w)]
            (.ok { file := f.putBits d (activeOf f w) fun i => cond (f.get t w.va i) (sx 15 (immF w 0 15)), buf := x.buf })

/-- VSEL (R122). -/
def vSel (x : VCtx) (w : VWord) (f : VFile) : VOut :=
  withType w anyTy fun t => withGroups [(t, w.vd, nOf w), (t, w.va, nOf w), (t, w.vb, nOf w)]
    (.ok { file := f.setAll t w.vd (List.range (nOf w)) fun i =>
             if (f.mask w.msk).getLsbD i then f.get t w.va i else f.get t w.vb i
           buf := x.buf })

/-- The operations of VMLOG (R123). -/
def maskOp (op : Nat) (a b : Bool) : Bool :=
  match op with
  | 0 => a && b
  | 1 => a || b
  | 2 => a ^^ b
  | _ => a && !b

/-- VMLOG (R123). -/
def vMLog (x : VCtx) (w : VWord) (f : VFile) : VOut :=
  withType w anyTy fun _ => withMaskDest w fun d =>
    .ok { file := f.putBits d (List.range (nOf w)) fun i =>
            maskOp (immF w 0 2) ((f.mask (w.va.val % 8)).getLsbD i) ((f.mask (w.vb.val % 8)).getLsbD i)
          buf := x.buf }

/-- The set bits below N of M[MSK]. -/
def setBelow (w : VWord) (f : VFile) : List Nat := (List.range (nOf w)).filter fun i => (f.mask w.msk).getLsbD i

/-- VMPOP (R122). -/
def vMPop (x : VCtx) (w : VWord) (f : VFile) : VOut :=
  withType w anyTy fun _ => .ok { file := f.set .i32 w.vd 0 (setBelow w f).length, buf := x.buf }

/-- VMFIRST (R122). -/
def vMFirst (x : VCtx) (w : VWord) (f : VFile) : VOut :=
  withType w anyTy fun _ =>
    .ok { file := f.set .i32 w.vd 0 (match (setBelow w f).head? with | some i => (i : Int) | none => -1), buf := x.buf }

/-- VMSETN (R122). -/
def vMSetN (x : VCtx) (w : VWord) (f : VFile) : VOut :=
  withType w anyTy fun _ => withMaskDest w fun d =>
    .ok { file := f.putBits d (List.range (nOf w)) fun _ => immF w 0 1 == 1, buf := x.buf }

/-- VRSUM (R125): the exact sum, saturated once to I32. -/
def vRSum (x : VCtx) (w : VWord) (f : VFile) : VOut :=
  withType w anyTy fun t => withGroups [(t, w.va, nOf w)]
    (let s := ((activeOf f w).map fun i => f.get t w.va i).foldl (· + ·) 0
     .ok { file := f.set .i32 w.vd 0 (satW 32 s), buf := x.buf, sats := bit1 (outW 32 s) })

/-- VRMAX and VRMIN (R125): a fold from the identity. -/
def vReduce (op : VTy → Int → Int → Int) (ident : VTy → Int) (x : VCtx) (w : VWord) (f : VFile) : VOut :=
  withType w anyTy fun t => withGroups [(t, w.va, nOf w)]
    (.ok { file := f.set .i32 w.vd 0 (((activeOf f w).map fun i => f.get t w.va i).foldl (op t) (ident t)), buf := x.buf })

/-- The better of two (value, position) nodes: the larger value, then the lower position (R125, R127). -/
def better (a b : Int × Nat) : Int × Nat :=
  if b.1 > a.1 ∨ (b.1 = a.1 ∧ b.2 < a.2) then b else a

/-- VRMAXI (R125). -/
def vRMaxI (x : VCtx) (w : VWord) (f : VFile) : VOut :=
  withType w anyTy fun t => withGroups [(t, w.va, nOf w)]
    (let r := ((activeOf f w).map fun i => (f.get t w.va i, i)).foldl better (minOf t.bits, 0xFFFFFFFF)
     .ok { file := (f.set .i32 w.vd 0 r.1).set .i32 w.vd 1 (r.2 : Nat), buf := x.buf })

/-- VSCAN (R126). -/
def vScan (x : VCtx) (w : VWord) (f : VFile) : VOut :=
  withType w anyTy fun t => withGroups [(t, w.vd, nOf w), (t, w.va, nOf w)]
    (let r := (activeOf f w).foldl (fun (p : Int × VFile × Nat) i =>
       let s := p.1 + f.get t w.va i
       (s, p.2.1.set t w.vd i (satW t.bits s), p.2.2 + bit1 (outW t.bits s))) (0, f, 0)
     .ok { file := r.2.1, buf := x.buf, sats := r.2.2 })

/-- A candidate put in its place among ranked candidates, best first (R127). -/
def insRank (c : Int × Nat) : List (Int × Nat) → List (Int × Nat)
  | [] => [c]
  | d :: ds => if c.1 > d.1 ∨ (c.1 = d.1 ∧ c.2 < d.2) then c :: d :: ds else d :: insRank c ds

/-- The `k` best candidates in rank order, short lists filled with the smallest value and index 0xFFFF_FFFF (R127). -/
def topK (k : Nat) (least : Int) (cs : List (Int × Nat)) : List (Int × Nat) :=
  let r := (cs.foldl (fun acc c => (insRank c acc).take k) []).take k
  r ++ List.replicate (k - r.length) (least, 0xFFFFFFFF)

/-- Pairs written as I32 elements 2m and 2m + 1 of VD. -/
def VFile.setPairs (f : VFile) (d : Nat) (ps : List (Int × Nat)) : VFile :=
  (ps.zipIdx).foldl (fun acc p => (acc.set .i32 d (2 * p.2) p.1.1).set .i32 d (2 * p.2 + 1) (p.1.2 : Nat)) f

/-- VTOPK (R127). -/
def vTopK (x : VCtx) (w : VWord) (f : VFile) : VOut :=
  withType w anyTy fun t =>
    let k := immF w 0 6 + 1
    withGroups [(.i32, w.vd, 2 * k), (t, w.va, nOf w)]
      (.ok { file := f.setPairs w.vd (topK k (minOf t.bits)
               ((activeOf f w).map fun i => (f.get t w.va i, i + 64 * immF w 6 13)))
             buf := x.buf })

/-- Two register groups overlap. -/
def overlap (a na b nb : Nat) : Bool := decide (a < b + nb) && decide (b < a + na)

/-- VTOPKP (R127). -/
def vTopKP (x : VCtx) (w : VWord) (f : VFile) : VOut :=
  withType w onlyI32 fun t =>
    let k := immF w 0 6 + 1
    if nOf w % 2 = 1 then .cmdErr
    else if overlap w.vd (ceilDiv (2 * k) t.cap) w.va (ceilDiv (nOf w) t.cap) then .cmdErr
    else withGroups [(t, w.vd, 2 * k), (t, w.va, nOf w)]
      (.ok { file := f.setPairs w.vd (topK k (minOf 32)
               (((List.range (nOf w / 2)).filter fun m => !w.men || (f.mask w.msk).getLsbD (2 * m)).map
                 fun m => (f.get t w.va (2 * m), f.getU t w.va (2 * m + 1))))
             buf := x.buf })

/-- VCOMPRESS (R128). -/
def vCompress (x : VCtx) (w : VWord) (f : VFile) : VOut :=
  withType w anyTy fun t => withGroups [(t, w.vd, nOf w), (t, w.va, nOf w)]
    (.ok { file := ((activeOf f w).zipIdx).foldl (fun acc p => acc.set t w.vd p.2 (f.get t w.va p.1)) f, buf := x.buf })

/-- VEXPAND (R128). -/
def vExpand (x : VCtx) (w : VWord) (f : VFile) : VOut :=
  withType w anyTy fun t => withGroups [(t, w.vd, nOf w), (t, w.va, nOf w)]
    (.ok { file := ((activeOf f w).zipIdx).foldl (fun acc p => acc.set t w.vd p.1 (f.get t w.va p.2)) f, buf := x.buf })

/-- Entry `j` of a lookup slot: BASE and SLOPE (R129). -/
def lutEntry (l : BitVec 16384) (j : Nat) : Int × Int := (sx 32 (bvGet (64 * j) 32 l), sx 32 (bvGet (64 * j + 32) 32 l))

/-- The table function of R129 before saturation. -/
def lutValue (l : BitVec 16384) (sh : Nat) (bias a : Int) : Int :=
  let q := a / 2 ^ sh
  let j := q + bias
  let (j, fr) := if j < 0 then (0, 0) else if j > 255 then (255, 0) else (j, a - q * 2 ^ sh)
  let e := lutEntry l j.toNat
  e.1 + rne (e.2 * fr) (2 ^ sh)

/-- VLUT (R129). -/
def vLut (x : VCtx) (w : VWord) (f : VFile) : VOut :=
  laneUnary (fun t a => satW t.bits (lutValue (f.lut (immF w 16 3)) (immF w 11 5) (sx 9 (immF w 2 9)) a)) x w f

/-- VRAND (R134). -/
def vRand (x : VCtx) (w : VWord) (f : VFile) : VOut :=
  withType w anyTy fun t =>
    if immF w 0 16 = 0xFFFF then .unusedEnc
    else withGroups [(t, w.vd, nOf w)]
      (.ok { file := f.setAll t w.vd (activeOf f w) fun i =>
               sx t.bits ((x.rand (immF w 0 16) (4096 * immF w 16 3 + i)).toNat >>> (32 - t.bits))
             buf := x.buf })

/-- VACC (R135). -/
def vAcc (x : VCtx) (w : VWord) (f : VFile) : VOut :=
  withType w onlyI32 fun t =>
    let e := immF w 17 2
    let first := 32 * immF w 12 5
    if first + nOf w > 1024 then .cmdErr
    else withGroups [(t, w.vd, nOf w)]
      (let y := fun i => rne (x.acc e (first + i)).value (2 ^ immF w 6 6)
       .ok { file := f.setAll t w.vd (activeOf f w) fun i => satW 32 (y i), buf := x.buf,
             sats := ((activeOf f w).filter fun i => outW 32 (y i)).length })

/-- VACCRAW (R135). -/
def vAccRaw (x : VCtx) (w : VWord) (f : VFile) : VOut :=
  withType w onlyI32 fun t =>
    let e := immF w 17 2
    let first := 32 * immF w 12 5
    if nOf w % 2 = 1 then .cmdErr
    else if first + nOf w / 2 > 1024 then .cmdErr
    else withGroups [(t, w.vd, nOf w)]
      (.ok { file := f.setAll t w.vd (activeOf f w) fun i =>
               let a := x.acc e (first + i / 2)
               if i % 2 = 0 then a.m.toInt
               else (a.h.toNat + 32 * a.e.toNat + 2 ^ 21 * bit1 (x.comp e) : Nat)
             buf := x.buf })

/-- e of R140: elements per cycle of a type code. -/
def perCycle (ty : Nat) : Nat := match ty with | 0 => 256 | 1 => 128 | _ => 64

/-- c(N) of R140. -/
def cyc (w : VWord) : Nat := ceilDiv (nOf w) (perCycle w.ty.val)

/-- The cost of the plain lane instructions (R140). -/
def costLane (w : VWord) : Nat := 2 + cyc w
/-- The cost of the multiplies (R140). -/
def costMul (w : VWord) : Nat := 3 + (if w.ty.val = 2 then ceilDiv (nOf w) 32 else cyc w)
/-- The cost of VLD and VST (R140). -/
def costMem (w : VWord) : Nat := 4 + ceilDiv (nOf w * (match w.ty.val with | 0 => 1 | 1 => 2 | _ => 4)) 256
/-- The cost of VCVT (R140). -/
def costCvt (w : VWord) : Nat := 2 + ceilDiv (nOf w) (min (perCycle w.ty.val) (perCycle (immF w 0 2)))
/-- A cost of `base` cycles and N elements at `per` a cycle (R140). -/
def costPer (base per : Nat) (w : VWord) : Nat := base + ceilDiv (nOf w) per
/-- The cost of the reductions (R140). -/
def costRed (w : VWord) : Nat := 8 + cyc w
/-- The cost of VSCAN (R140). -/
def costScan (w : VWord) : Nat := 8 + 2 * cyc w
/-- The cost of VTOPK and VTOPKP (R140). -/
def costTop (w : VWord) : Nat := 10 + ceilDiv (nOf w) 64 + 2 * (immF w 0 6 + 1)
/-- The cost of VCOMPRESS and VEXPAND (R140). -/
def costComp (w : VWord) : Nat := 4 + cyc w

/-- The mixing function of the random source, modulo 2^64 (R133). -/
def mix64 (x : BitVec 64) : BitVec 64 :=
  let x := (x ^^^ (x >>> 31)) * 0xA5B357059C1D6E27#64
  let x := (x ^^^ (x >>> 29)) * 0x8F3C4E61D2B917A3#64
  x ^^^ (x >>> 32)

/-- rand32 of R133: key, tick n, global core g, stream s, counter c. -/
def rand32 (key : BitVec 64) (n g s c : Nat) : BitVec 32 :=
  let x := key ^^^ BitVec.ofNat 64 (n * 2 ^ 32 + c)
  let x := mix64 (x + BitVec.ofNat 64 (g * 2 ^ 16 + s) * 0xA5B357059C1D6E27#64)
  let x := mix64 (x ^^^ key)
  (x >>> 32).setWidth 32

end Sys2Proof.Machine
end

