-- ==== Sys2Proof/Syntax.lean ====
section
/-! DEFINITION. The commands of the block: one constructor for each row of spec/opcode_table.json, in its order. Operands that no field
of the spec narrows have the width of the field or index they name. What a physical event brings from outside (a measured value, whether
a program failed) is an operand of its command. -/

namespace Sys2Proof

/-- A message that a forwarding device meets (R302): tensor or management. -/
inductive LinkMsg
  | tensor (m : TensorMsg)
  | mgmt (m : MgmtMsg)
  deriving DecidableEq, Repr

/-- The commands. -/
inductive Instr
  /-- DISPATCH (R46): The sequencer dispatches the next instruction of the program into its queue, and waits while that queue is full. -/
  | dispatch (c : CoreId)
  /-- NOP (R47): A NOP control instruction completes at dispatch. -/
  | nop (c : CoreId)
  /-- LAYER (R47): LAYER executes in a queue, sets the layer in force and, in Q0 to Q3, loads the slot's outlier list. -/
  | layer (c : CoreId) (q : QId) (n : BitVec 16)
  /-- STEP_END (R53): STEP_END completes once the core's queues, expanders and sent signals have drained, and the counters are checked
    for balance. -/
  | stepEnd (c : CoreId)
  /-- FETCH (R48): A fetch command is checked, draws its credit and reads a run of tiles of one object into a core buffer or cluster
    cache. -/
  | fetch (c : CoreId) (f : FetchOp)
  /-- FETCH_DATA_ARRIVAL (R242): The data of a fetch arrives from its tier (near, far, host or flash) and fills the destination units. -/
  | fetchDataArrival (c : CoreId) (bad : List (BitVec 12))
  /-- WAIT (R49): A token wait holds its queue head until the token counter reaches the amount, then subtracts it. -/
  | wait (c : CoreId) (t : TokenOp)
  /-- SIGNAL (R49): A token signal sends an addition to a token counter of a target core once earlier instructions in its queue have
    completed. -/
  | signal (c : CoreId) (t : TokenOp)
  /-- CREDIT_RETURN (R49): A credit return sends an addition to a credit counter of a target core once earlier instructions in its queue
    have completed. -/
  | creditReturn (c : CoreId) (t : TokenOp)
  /-- SIGNAL_ARRIVAL (R52): A signal, credit return or guard verdict reaches its target counter after its carrying latency, with overflow
    or late-signal checks. -/
  | signalArrival (i : Nat)
  /-- SEND (R137): A link SEND draws credits and places its source data, raw or L8-encoded, as one tensor message in a port's send
    buffer. -/
  | send (c : CoreId) (o : SendOp)
  /-- RELEASE (R137): A link RELEASE sends a credit-return tensor message to the peer of a channel. -/
  | release (c : CoreId) (o : ReleaseOp)
  /-- READ (R138): A cluster-cache READ copies units from a cluster cache into the core buffer. -/
  | read (c : CoreId) (o : CacheOp)
  /-- WRITE (R138): A cluster-cache WRITE copies units from the core buffer into a cluster cache. -/
  | write (c : CoreId) (o : CacheOp)
  /-- ADD (R138): A cluster-cache ADD adds core-buffer words into cluster-cache words modulo 2^32. -/
  | add (c : CoreId) (o : CacheOp)
  /-- MAX (R138): A cluster-cache MAX sets each cluster-cache word to the larger signed value of the two. -/
  | max (c : CoreId) (o : CacheOp)
  /-- FETCH_ADD (R138): FETCH_ADD atomically adds a core-buffer word to a cluster-cache word and returns the old value. -/
  | fetchAdd (c : CoreId) (o : CacheOp)
  /-- SETUP (R108): A matrix SETUP fixes format, grid, mode, tokens, panel, source and scale base for later commands of its queue. -/
  | setup (c : CoreId) (e : EngId) (o : SetupOp)
  /-- RUN (R109): A matrix RUN streams token rows through a sequence of weight or cache blocks and accumulates into the bank. -/
  | run (c : CoreId) (e : EngId) (o : RunOp)
  /-- READOUT (R104): READOUT corrects, shifts, rounds and saturates accumulator entries to A16 and presents them to the histogram unit. -/
  | readout (c : CoreId) (e : EngId) (o : ReadoutOp)
  /-- READRAW (R106): READRAW writes each raw accumulator entry as 8 bytes to the core buffer. -/
  | readraw (c : CoreId) (e : EngId) (o : RawOp)
  /-- MERGE (R106): MERGE adds one 48-bit addend per entry from the core buffer into the bank. -/
  | merge (c : CoreId) (e : EngId) (o : RawOp)
  /-- TILE_SUM_CHECK (R186): When the last symbol of a started tile is decoded, its post-decode sum is compared with SYMBOL_SUM and a
    mismatch abandons the step. -/
  | tileSumCheck (c : CoreId) (e : EngId)
  /-- TILE_REFETCH_COMPLETE (R186): A refetch of a tile after a parity error or scale skew completes and the decode restarts from the
    tile's start. -/
  | tileRefetchComplete (c : CoreId) (e : EngId)
  /-- VLD (R122): VLD loads an array from the core buffer into a vector register group. -/
  | vld (c : CoreId) (w : VWord)
  /-- VST (R122): VST stores active vector elements to the core buffer. -/
  | vst (c : CoreId) (w : VWord)
  /-- VLDX (R122): VLDX gathers elements from the core buffer at indexed offsets. -/
  | vldx (c : CoreId) (w : VWord)
  /-- VMOV (R122): VMOV copies active elements of one register group to another. -/
  | vmov (c : CoreId) (w : VWord)
  /-- VSPLAT (R122): VSPLAT writes an immediate into every active element. -/
  | vsplat (c : CoreId) (w : VWord)
  /-- VSPLATHI (R122): VSPLATHI writes an immediate into the high half of each active I32 element. -/
  | vsplathi (c : CoreId) (w : VWord)
  /-- VIOTA (R122): VIOTA writes each element's index plus an immediate. -/
  | viota (c : CoreId) (w : VWord)
  /-- VBCAST (R122): VBCAST broadcasts one element to every active element. -/
  | vbcast (c : CoreId) (w : VWord)
  /-- VLUTLD (R129): VLUTLD loads 2 KiB from the core buffer into a lookup slot. -/
  | vlutld (c : CoreId) (w : VWord)
  /-- VADD (R122): VADD adds two vectors with wrap. -/
  | vadd (c : CoreId) (w : VWord)
  /-- VADDI (R122): VADDI adds an immediate with wrap. -/
  | vaddi (c : CoreId) (w : VWord)
  /-- VSUB (R122): VSUB subtracts two vectors with wrap. -/
  | vsub (c : CoreId) (w : VWord)
  /-- VSUBI (R122): VSUBI subtracts an immediate with wrap. -/
  | vsubi (c : CoreId) (w : VWord)
  /-- VADDS (R122): VADDS adds two vectors with saturation. -/
  | vadds (c : CoreId) (w : VWord)
  /-- VADDSI (R122): VADDSI adds an immediate with saturation. -/
  | vaddsi (c : CoreId) (w : VWord)
  /-- VSUBS (R122): VSUBS subtracts two vectors with saturation. -/
  | vsubs (c : CoreId) (w : VWord)
  /-- VSUBSI (R122): VSUBSI subtracts an immediate with saturation. -/
  | vsubsi (c : CoreId) (w : VWord)
  /-- VMUL (R122): VMUL keeps the low bits of elementwise products. -/
  | vmul (c : CoreId) (w : VWord)
  /-- VMULI (R122): VMULI keeps the low bits of products with an immediate. -/
  | vmuli (c : CoreId) (w : VWord)
  /-- VMULSH (R122): VMULSH rounds elementwise products by a shift and saturates. -/
  | vmulsh (c : CoreId) (w : VWord)
  /-- VMULSHI (R122): VMULSHI rounds products with an immediate by a shift and saturates. -/
  | vmulshi (c : CoreId) (w : VWord)
  /-- VMIN (R122): VMIN takes the elementwise minimum of two vectors. -/
  | vmin (c : CoreId) (w : VWord)
  /-- VMINI (R122): VMINI takes the minimum with an immediate. -/
  | vmini (c : CoreId) (w : VWord)
  /-- VMAX (R122): VMAX takes the elementwise maximum of two vectors. -/
  | vmax (c : CoreId) (w : VWord)
  /-- VMAXI (R122): VMAXI takes the maximum with an immediate. -/
  | vmaxi (c : CoreId) (w : VWord)
  /-- VABS (R123): VABS writes the saturated absolute value. -/
  | vabs (c : CoreId) (w : VWord)
  /-- VNEG (R123): VNEG writes the saturated negation. -/
  | vneg (c : CoreId) (w : VWord)
  /-- VAND (R122): VAND forms the bitwise AND of two vectors. -/
  | vand (c : CoreId) (w : VWord)
  /-- VANDI (R122): VANDI forms the bitwise AND with an immediate. -/
  | vandi (c : CoreId) (w : VWord)
  /-- VOR (R122): VOR forms the bitwise OR of two vectors. -/
  | vor (c : CoreId) (w : VWord)
  /-- VORI (R122): VORI forms the bitwise OR with an immediate. -/
  | vori (c : CoreId) (w : VWord)
  /-- VXOR (R122): VXOR forms the bitwise XOR of two vectors. -/
  | vxor (c : CoreId) (w : VWord)
  /-- VXORI (R122): VXORI forms the bitwise XOR with an immediate. -/
  | vxori (c : CoreId) (w : VWord)
  /-- VSHL (R123): VSHL shifts left by a register amount with wrap. -/
  | vshl (c : CoreId) (w : VWord)
  /-- VSHLI (R123): VSHLI shifts left by an immediate amount with wrap. -/
  | vshli (c : CoreId) (w : VWord)
  /-- VSRA (R123): VSRA shifts right arithmetically by a register amount. -/
  | vsra (c : CoreId) (w : VWord)
  /-- VSRAI (R123): VSRAI shifts right arithmetically by an immediate amount. -/
  | vsrai (c : CoreId) (w : VWord)
  /-- VSRR (R123): VSRR shifts right with round-to-nearest-even by a register amount. -/
  | vsrr (c : CoreId) (w : VWord)
  /-- VSRRI (R123): VSRRI shifts right with round-to-nearest-even by an immediate amount. -/
  | vsrri (c : CoreId) (w : VWord)
  /-- VSHLS (R123): VSHLS shifts left by a register amount with saturation. -/
  | vshls (c : CoreId) (w : VWord)
  /-- VSHLSI (R123): VSHLSI shifts left by an immediate amount with saturation. -/
  | vshlsi (c : CoreId) (w : VWord)
  /-- VCLS (R123): VCLS counts the bits below the sign bit that equal it. -/
  | vcls (c : CoreId) (w : VWord)
  /-- VCVT (R124): VCVT converts between element types with rounding and counted saturation. -/
  | vcvt (c : CoreId) (w : VWord)
  /-- VDESC (R130): VDESC computes the A8 activation descriptor of a token row. -/
  | vdesc (c : CoreId) (w : VWord)
  /-- VQSCALE (R131): VQSCALE computes one group scale per group of an I16 source. -/
  | vqscale (c : CoreId) (w : VWord)
  /-- VQUANT (R132): VQUANT quantises I16 elements into packed G4, U8 or U4Z records. -/
  | vquant (c : CoreId) (w : VWord)
  /-- VDEQ (R132): VDEQ dequantises records into I16 elements. -/
  | vdeq (c : CoreId) (w : VWord)
  /-- VEXTS (R132): VEXTS extracts the scale byte of each record. -/
  | vexts (c : CoreId) (w : VWord)
  /-- VCMP (R123): VCMP writes a mask from a signed comparison. -/
  | vcmp (c : CoreId) (w : VWord)
  /-- VSEL (R122): VSEL selects elements from two vectors under a source mask. -/
  | vsel (c : CoreId) (w : VWord)
  /-- VMLOG (R123): VMLOG combines two masks by AND, OR, XOR or AND NOT. -/
  | vmlog (c : CoreId) (w : VWord)
  /-- VMPOP (R122): VMPOP counts the set bits of a mask. -/
  | vmpop (c : CoreId) (w : VWord)
  /-- VMFIRST (R122): VMFIRST finds the lowest set bit of a mask. -/
  | vmfirst (c : CoreId) (w : VWord)
  /-- VMSETN (R122): VMSETN sets or clears the first N bits of a mask. -/
  | vmsetn (c : CoreId) (w : VWord)
  /-- VRSUM (R125): VRSUM writes the exact sum of active elements, saturated once to I32. -/
  | vrsum (c : CoreId) (w : VWord)
  /-- VRMAX (R125): VRMAX writes the largest active element. -/
  | vrmax (c : CoreId) (w : VWord)
  /-- VRMIN (R125): VRMIN writes the smallest active element. -/
  | vrmin (c : CoreId) (w : VWord)
  /-- VRMAXI (R125): VRMAXI writes the largest active element and its lowest position. -/
  | vrmaxi (c : CoreId) (w : VWord)
  /-- VSCAN (R126): VSCAN writes saturated inclusive prefix sums. -/
  | vscan (c : CoreId) (w : VWord)
  /-- VTOPK (R127): VTOPK selects the K largest active elements as value-index pairs. -/
  | vtopk (c : CoreId) (w : VWord)
  /-- VTOPKP (R127): VTOPKP selects the K best value-index pairs from a list of pairs. -/
  | vtopkp (c : CoreId) (w : VWord)
  /-- VCOMPRESS (R128): VCOMPRESS packs active elements to the low end of the destination. -/
  | vcompress (c : CoreId) (w : VWord)
  /-- VEXPAND (R128): VEXPAND scatters consecutive source elements to active positions. -/
  | vexpand (c : CoreId) (w : VWord)
  /-- VLUT (R129): VLUT evaluates a piecewise-linear lookup table for each active element. -/
  | vlut (c : CoreId) (w : VWord)
  /-- VRAND (R134): VRAND writes random words from the keyed random source. -/
  | vrand (c : CoreId) (w : VWord)
  /-- VACC (R135): VACC reads accumulator entry values, rounded and saturated to I32. -/
  | vacc (c : CoreId) (w : VWord)
  /-- VACCRAW (R135): VACCRAW reads raw accumulator mantissas, shifts, residuals and modes. -/
  | vaccraw (c : CoreId) (w : VWord)
  /-- TICK_TIMER_EXPIRY (R32): The tick timer expires one period after the tick began. -/
  | tickTimerExpiry
  /-- TICK_START (R30): A tick begins once the timer has expired, the own step is done and every member's done token is held; commands,
    held messages and settings apply. -/
  | tickStart
  /-- TICK_TOKEN (R39): A received tick token is forwarded, recorded, discarded as stale or future, or triggers abandonment if
    abandon-flagged. -/
  | tickToken (p : PortId) (t : Token)
  /-- STEP_COMMIT (R345): After every core completes STEP_END and no re-run remains, journal records and output ring entries are written,
    the producer index advanced and the done token issued. -/
  | stepCommit
  /-- HANG (R55): A core completes no instruction for the hang limit outside tier stalls and poison waits, and the step is abandoned. -/
  | hang (c : CoreId)
  /-- ABANDON_DONE (R54): Once every core has stopped, the device issues its abandon-flagged done token and raises STEP_ABANDONED events. -/
  | abandonDone
  /-- MEMBER_SILENT (R37): No token has arrived from a member for 4 tick periods, so it is declared lost. -/
  | memberSilent (m : Member)
  /-- TENSOR_MESSAGE (R303): A tensor message reaching its destination is checked and written, held for the next tick, or discarded. -/
  | tensorMessage (p : Option PortId) (m : TensorMsg)
  /-- HOLD_AREA_MOVE (R304): A held message waiting in a VC 2 buffer moves into the hold area once room frees. -/
  | holdAreaMove (p : PortId)
  /-- MESSAGE_FORWARD (R302): A forwarding device cuts a message through its I/O die toward its destination, adding a hop. -/
  | messageForward (p : PortId) (m : LinkMsg)
  /-- LOSS (R321): A received LOSS message updates member state and declares a member of the own group lost. -/
  | loss (src lost : Member) (leaving : Bool) (tick : BitVec 32)
  /-- RESET_REQUEST (R319): A received RESET_REQUEST is acted on by the lost member's management firmware. -/
  | resetRequest (target requester : Member)
  /-- LEAVING (R318): A received LEAVING message makes the receiver declare the sender lost at once. -/
  | leaving (src : Member) (cause : LeaveCause) (tick : BitVec 32)
  /-- TOPO_UPDATE (R321): A received TOPO_UPDATE applies a member's new topology state. -/
  | topoUpdate (m : Member) (st : MemberState)
  /-- TAKEOVER (R322): A received TAKEOVER raises a takeover event to the twin device's host. -/
  | takeover (group : BitVec 16) (lost : Member) (tick : BitVec 32)
  /-- THERMAL_NOTICE (R324): A received THERMAL_NOTICE tells the member's host that a device withholds its token. -/
  | thermalNotice (src : Member) (stack : Fin 16) (temp : BitVec 16) (tick : BitVec 32)
  /-- MGMT_KIND_UNUSED (R321): A management message with an unused KIND is discarded and recorded. -/
  | mgmtKindUnused (m : MgmtMsg)
  /-- SEQUENCED_FLIT (R291): A received sequenced flit is checked, accepted in order, discarded or NAKed, and its ACK and credits
    applied. -/
  | sequencedFlit (p : PortId) (f : FlitIn)
  /-- IDLE (R293): A received IDLE flit delivers acknowledgement and credit counts. -/
  | idle (p : PortId) (f : FlitIn)
  /-- NAK (R292): A received NAK makes the sender replay every held flit from the named sequence. -/
  | nak (p : PortId) (f : FlitIn)
  /-- NAK_RETRY_TIMEOUT (R291): 2 µs pass without the expected flit after a NAK, so a further NAK is sent. -/
  | nakRetryTimeout (p : PortId)
  /-- REPLAY_TIMEOUT (R292): 4 µs pass without ACK progress while flits are held, so the sender replays from the oldest. -/
  | replayTimeout (p : PortId)
  /-- LANE_FAIL (R295): A lane loses lock for 1 µs or exceeds its uncorrectable limit, and lane renegotiation starts. -/
  | laneFail (p : PortId) (lane : Fin 4)
  /-- LINK_CTRL (R295): A received LINK_CTRL flit carries lane negotiation or handback records. -/
  | linkCtrl (p : PortId) (r : LinkCtrl)
  /-- RESTRIPE_DONE (R295): Deskew and restriping finish and the port returns UP with fewer lanes and replays. -/
  | restripeDone (p : PortId)
  /-- PORT_TRAINED (R296): A port training attempt ends after 25 ms, UP with good lanes if its peer matches the cabling. -/
  | portTrained (p : PortId) (r : TrainEnd)
  /-- RETRAIN (R296): A write of LNK.CTRL.RETRAIN takes the port down and retrains it. -/
  | retrain (p : PortId)
  /-- RELINK_WAIT_EXPIRY (R320): 10 ms after a reset request or LEAVING, the member starts training the bundle that faced the lost
    device. -/
  | relinkWaitExpiry (b : Bundle)
  /-- RELINK_ATTEMPT (R320): A 25 ms relink training attempt ends; the first port up marks the lost member BYPASSED and sends
    TOPO_UPDATE. -/
  | relinkAttempt (b : Bundle) (results : List (PortId × TrainEnd))
  /-- OPEN_RING (R314): A write of TOPO.AGATE_CMD.OPEN_RING opens the four ring switches. -/
  | openRing
  /-- OPEN_PLANE (R314): A write of TOPO.AGATE_CMD.OPEN_PLANE opens the two plane switches. -/
  | openPlane
  /-- LEAVE (R314): A write of TOPO.AGATE_CMD.LEAVE sends LEAVING and closes all six switches at the end of the step. -/
  | leave
  /-- AGATE_SENSOR_CHECK (R314): 20 ms after a switch command, a switch whose sensed position disagrees reads FAULT. -/
  | agateSensorCheck (sw : Fin 6) (closed : Bool)
  /-- GARNET_ENABLE_SET (R36): A write of 1 to GARNET.CTRL.ENABLE forms or joins the tick group from START_TICK. -/
  | garnetEnableSet
  /-- GARNET_ENABLE_CLEAR (R36): A write of 0 to GARNET.CTRL.ENABLE stops the device's ticks at the end of the step in progress. -/
  | garnetEnableClear
  /-- WITHHOLD (R31): A write of GARNET.CTRL.WITHHOLD holds back or releases this device's done token. -/
  | withhold (v : Bool)
  /-- GUARD_DECISION (R149): Within 32 cycles of a slot close, the histogram unit passes, re-runs or skips the layer. -/
  | guardDecision (k : ClusterId) (l : Fin 512)
  /-- RERUN_START (R154): A wide re-run starts at its decision or when the cluster's previous re-run has completed. -/
  | rerunStart (k : ClusterId)
  /-- RERUN_SEGMENT_START (R153): 16 cycles after a re-run start, each core in CORE_MASK begins dispatching its re-run segment. -/
  | rerunSegmentStart (c : CoreId)
  /-- RERUN_COMPLETE (R150): Every segment of a re-run has completed; the verdict is signalled and main dispatch resumes. -/
  | rerunComplete (k : ClusterId)
  /-- GUARD_WINDOW_END (R160): At the end of each report window, each guarded slot is evaluated and may make a report. -/
  | guardWindowEnd (k : ClusterId)
  /-- BURST_READ (R198): A stack burst is read and decoded, corrected, marked or delivered poisoned. -/
  | burstRead (spa : BitVec 40) (errs : BurstErrs)
  /-- BURST_WRITE (R194): A stack write is accepted by its channel, whole or as a read-modify-write. -/
  | burstWrite (spa : BitVec 40) (data : List (BitVec 8))
  /-- SCRUB (R202): Scrub reads a burst in an idle slot and writes back a correction or a poison codeword. -/
  | scrub (spa : BitVec 40) (errs : BurstErrs)
  /-- REFRESH_COMMAND (R207): A per-bank refresh command is issued within its refresh window. -/
  | refreshCommand (ch : ChanId) (bank : Fin 16)
  /-- RECENTRE (R206): At least every 4 ms a channel re-centres its timing and marks a lane whose eye fell below margin. -/
  | recentre (ch : ChanId) (eyes : List LaneEye)
  /-- REGULATOR_EPOCH (R208): Each 1 µs epoch the stack regulator recomputes budgets and admits requests by partition. -/
  | regulatorEpoch (st : StackId) (reqs : List RegReq)
  /-- STACK_TEMP_SAMPLE (R211): A 20 µs stack sensor sample drives warning, throttle, trip and hot-refresh changes. -/
  | stackTempSample (st : StackId) (temps : List (BitVec 11))
  /-- THERMAL_CAP_APPLY (R213): When the step in progress is done after a warning, THERM_CAP goes to 60 and the token is withheld with a
    THERMAL_NOTICE. -/
  | thermalCapApply (st : StackId)
  /-- WITHHOLD_AUTO_EXPIRY (R213): Two tick periods after an automatic withhold, the device clears WITHHOLD itself. -/
  | withholdAutoExpiry (st : StackId)
  /-- STACK_TRAINING_DONE (R203): Stack training ends with the spare decision made and every burst zeroed. -/
  | stackTrainingDone (width height : BitVec 8) (eyes : List LaneEye)
  /-- CH_INJ_ARM (R220): A write arming CH.INJ_CTRL starts injection of symbol errors, one-shot or periodic. -/
  | chInjArm (ch : ChanId) (w : BitVec 32)
  /-- LNK_INJ_ARM (R309): A write arming LNK.INJ_CTRL starts counting qualifying flits for drop, corrupt or swap. -/
  | lnkInjArm (p : PortId) (w : BitVec 32)
  /-- MOVE_SWITCH (R230): A tile move finishes copying and its directory entry is written once to the new home. -/
  | moveSwitch (o : ObjId) (t : TileId)
  /-- MOVE_SOURCE_FREE (R230): The source of a move is freed once every earlier read of it has finished. -/
  | moveSourceFree (o : ObjId) (t : TileId)
  /-- BACKGROUND_EVICTION (R237): Free frames on a die fall below the low watermark, and victims are evicted until the high watermark. -/
  | backgroundEviction (m : DieId)
  /-- POISON_WAIT_EXPIRY (R245): WAIT_US ends before the refetch arrives, so consumers receive a substituted tile and tokens are
    withheld. -/
  | poisonWaitExpiry (o : ObjId) (t : TileId)
  /-- REFETCH_SWITCH (R245): A refetched weight tile switches into a fresh frame and clears POISONED. -/
  | refetchSwitch (o : ObjId) (t : TileId)
  /-- FRAME_READBACK (R245): A poisoned frame written whole is read back and returns to the free list or is retired. -/
  | frameReadback (f : BitVec 24) (clean : Bool)
  /-- HOST_READ_COMPLETE (R353): A host-memory read completes, successfully or with a failure that quarantines or errors. -/
  | hostReadComplete (r : HostRead) (st : HostStatus)
  /-- COMPLETION_TIMEOUT (R353): A host read's completion timeout expires and the read fails. -/
  | completionTimeout (r : HostRead)
  /-- BAR2_READ (R331): A BAR2 read reaches the home of the addressed tile wherever it lies. -/
  | bar2Read (fn : FnId) (ofs : BitVec 36) (len : BitVec 32)
  /-- BAR2_WRITE (R448): A BAR2 write reaches the tile's home, giving a first home where needed. -/
  | bar2Write (fn : FnId) (ofs : BitVec 36) (data : List (BitVec 8))
  /-- FLASH_PAGE_READ (R258): A flash page read completes and each codeword is decoded, checked, retried or reported unreadable. -/
  | flashPageRead (lane : LaneId) (block : BlockId) (page : PageId) (outs : List CodeRead) (us : BitVec 16)
  /-- FLASH_PROGRAM_COMPLETE (R270): A flash page program completes, or fails and is reprogrammed on a new block. -/
  | flashProgramComplete (k : FlashProg) (ok : Bool) (us : BitVec 16)
  /-- FLASH_ERASE_COMPLETE (R277): A block erase completes, or fails and the block is retired. -/
  | flashEraseComplete (lane : LaneId) (block : BlockId) (ok : Bool)
  /-- MOUNT (R268): Onyx mounts: anchor, checkpoint, journal replay, discards, object and registry restore. -/
  | mount (d : Discovery)
  /-- READ_COUNTS (R266): Every 60 s Onyx journals changed block read counts. -/
  | readCounts
  /-- BLOCK_REFRESH (R274): A queued block is copied to a fresh block, switched by BAND_MEMBER and erased. -/
  | blockRefresh (lane : LaneId) (m : BlockMove)
  /-- PATROL (R275): A patrol read of a programmed page is made at the lowest priority. -/
  | patrol (lane : LaneId) (block : BlockId) (page : PageId) (outs : List CodeRead) (us : BitVec 16)
  /-- WEAR_LEVEL_MOVE (R276): A cold block whose erase spread exceeds WL_SPREAD is moved onto the most-worn free block. -/
  | wearLevelMove (m : LaneMove)
  /-- COMPACTION (R272): With fewer than 2 free bands, an object is copied to the write frontier and switched by OBJ_MOVE. -/
  | compaction
  /-- ENC_SEGMENT_RECEIVED (R177): An install encoder has received and counted a segment, builds its lengths and chooses its table. -/
  | encSegmentReceived (m : DieId)
  /-- ENC_SEGMENT_CODED (R177): An install encoder finishes coding a segment's tiles and scale tiles. -/
  | encSegmentCoded (m : DieId)
  /-- TABLE_LIVE (R178): An allocated table ID becomes LIVE once its record is in every cluster table area. -/
  | tableLive (id : Fin 64)
  /-- FORMAT (R277): ONYX.CMD FORMAT records bad blocks, erases every good block and writes anchors, journal and checkpoint. -/
  | format (d : Discovery) (m : FormatIn)
  /-- CHECKPOINT (R267): ONYX.CMD CHECKPOINT writes a full checkpoint and a new anchor. -/
  | checkpoint
  /-- PATROL_START (R275): ONYX.CMD op 0x3 starts a patrol pass now. -/
  | patrolStart
  /-- JASPER_ACCEPT (R421): The recorder accepts an entry from its intake queue, or drops or suppresses it, and may raise an in-band
    interrupt. -/
  | jasperAccept
  /-- RATE_WINDOW_END (R426): A rate window ends and SUPPRESSED and INTAKE_DROPPED summaries are written. -/
  | rateWindowEnd
  /-- OP_TIME (R423): Every 3,600 operating seconds the recorder writes OP_TIME and requests a flush. -/
  | opTime
  /-- FLUSH (R424): A write of JSP.CTRL.FLUSH makes Onyx program the vault page at once. -/
  | flush
  /-- READ_SEQ (R428): A write of JSP.READ_SEQ latches an entry from SRAM or starts a vault read. -/
  | readSeq (seq : BitVec 32)
  /-- VAULT_READ_COMPLETE (R428): A pending vault read completes and the entry is latched READY. -/
  | vaultReadComplete
  /-- CTR_CLEAR_COUNTER (R435): A JSP.CTR_CLEAR write with BLOCK 0 clears one counter. -/
  | ctrClearCounter (ofs : BitVec 26)
  /-- CTR_CLEAR_BLOCK (R435): A JSP.CTR_CLEAR write with BLOCK 1 clears every counter of one register block. -/
  | ctrClearBlock (ofs : BitVec 26)
  /-- KICK (R433): A management core's write of JSP.WDOG_KICK reloads its watchdog. -/
  | kick (k : Kick)
  /-- WATCHDOG (R433): A management watchdog expires, LEAVING is sent and a warm reset follows. -/
  | watchdog (w : MgmtStop)
  /-- SELECT (R429): An I3C SELECT command selects an entry for the next private read. -/
  | select (x : I3cIn)
  /-- HEAD (R429): An I3C HEAD command returns the recorder's sequence pointers and status. -/
  | head
  /-- TIME (R429): An I3C TIME command returns operating seconds and power cycles. -/
  | time
  /-- COLD_RESET (R362): VDD_AON below its limit makes a cold reset that clears the always-on group. -/
  | coldReset
  /-- SYS_RST_N (R361): A low pulse of at least 100 ns on SYS_RST_N starts a warm reset. -/
  | sysRstN (ns : BitVec 32)
  /-- PERST_N (R361): PERST_N low holds the device in warm reset. -/
  | perstN (low : Bool)
  /-- WARM (R362): A PF write of BOOT.RESET_CTRL.WARM with CONFIRM 0xA5C3 sends LEAVING and starts a warm reset. -/
  | warm (fn : FnId) (confirm : BitVec 16)
  /-- SUPPLY_LOW (R397): A supply below its lower limit for 1 µs causes a cold or warm reset. -/
  | supplyLow (rail : Rail)
  /-- PWRFAIL_N_FALL (R415): A fall of PWRFAIL_N stops command fetch and starts the Jasper flush and Onyx power-loss actions. -/
  | pwrfailNFall
  /-- PWRFAIL_N_RISE (R415): PWRFAIL_N rises with rails held, and fetching resumes. -/
  | pwrfailNRise
  /-- HOT_RESET (R362): A PCIe hot reset, link disable or link down acts as a PF Function Level Reset. -/
  | hotReset
  /-- STARTUP (R362): At time 0 the start-up sequence runs boot ROM, PUF, slot verification and configuration before firmware starts. -/
  | startup (pufRead : BitVec 32)
  /-- SELF_TEST (R365): The self-test of every cluster completes, passing or failing start-up. -/
  | selfTest (failing : Option ClusterId)
  /-- READY (R366): Once all ready conditions hold, firmware sets the configuration lock and the device reports READY. -/
  | ready
  /-- PORT_WAIT_EXPIRY (R366): 8 s after time 0 an enabled port still down no longer blocks ready. -/
  | portWaitExpiry
  /-- ENTROPY_FAIL (R382): Entropy health tests fail for 1 s, ending start-up or stopping the source. -/
  | entropyFail (adaptive : Bool)
  /-- TEST_ENABLE (R389): A write of BOOT.TEST.ENABLE sets the test-enable bit only when the image unlocks it. -/
  | testEnable (v : Bool)
  /-- GET_IDENTITY (R386): The mailbox returns the serial, identity public key and flags. -/
  | getIdentity
  /-- GET_CERT (R386): The mailbox returns the device certificate. -/
  | getCert
  /-- ATTEST (R387): The mailbox returns a signed attestation report over a nonce. -/
  | attest
  /-- EXTEND (R385): The mailbox extends measurement register 5 to 7 with a digest. -/
  | extend
  /-- SET_OWNER (R386): The mailbox writes a security-version record with a new owner key hash. -/
  | setOwner
  /-- COMMIT_SVN (R384): The mailbox writes a security-version record with a new MIN_SVN. -/
  | commitSvn
  /-- NOR_WRITE (R386): The mailbox writes data to a permitted range of the configuration NOR. -/
  | norWrite
  /-- NOR_READ (R386): The mailbox returns data read from the configuration NOR. -/
  | norRead
  /-- DOE_REQUEST (R388): A DOE request object runs a permitted mailbox command and returns a response object. -/
  | doeRequest (words : List (BitVec 32))
  /-- SQ_TAIL (R335): A doorbell write of SQ_TAIL makes new submission entries available to fetch. -/
  | sqTail (fn : FnId) (q : QueueId) (v : BitVec 16)
  /-- CQ_HEAD (R336): A doorbell write of CQ_HEAD frees completion entries. -/
  | cqHead (fn : FnId) (q : QueueId) (v : BitVec 16)
  /-- SQ_FETCH (R335): The device fetches SQ entries round robin and stages the commands in order. -/
  | sqFetch
  /-- COMMAND_APPLY (R335): While the group is disabled, a staged command is applied within 10 µs of its fetch. -/
  | commandApply
  /-- OPEN_SESSION (R340): OPEN_SESSION opens a session in a batch slot with its cache and journal objects. -/
  | openSession (h : CmdHdr) (o : OpenOp)
  /-- PREFILL (R346): PREFILL reads prompt tokens into the prefill store and feeds them in chunks. -/
  | prefill (h : CmdHdr) (sess : SessId) (count : BitVec 17) (addr : BitVec 64)
  /-- DECODE (R347): DECODE starts or stops committing one token per tick up to a budget. -/
  | decode (h : CmdHdr) (sess : SessId) (budget stop : BitVec 32)
  /-- SET_PARAMS (R339): SET_PARAMS changes a session's sampling parameters. -/
  | setParams (h : CmdHdr) (sess : SessId) (o : SessParams)
  /-- TRUNCATE (R343): TRUNCATE sets a session's position. -/
  | truncate (h : CmdHdr) (sess : SessId) (pos : BitVec 32)
  /-- PARK (R343): PARK moves a session's cache object to the HOST policy. -/
  | park (h : CmdHdr) (sess : SessId)
  /-- UNPARK (R343): UNPARK moves a session's cache object to PINNED or RESIDENT. -/
  | unpark (h : CmdHdr) (sess : SessId) (policy : Fin 8)
  /-- CLOSE_SESSION (R343): CLOSE_SESSION frees a session and its batch slot. -/
  | closeSession (h : CmdHdr) (sess : SessId)
  /-- CREATE_OBJECT (R239): CREATE_OBJECT allocates an object table entry, unified span and directory. -/
  | createObject (h : CmdHdr) (o : CreateOp)
  /-- SET_PLACEMENT (R241): SET_PLACEMENT changes an object's policy, class, die or share mask and starts its moves. -/
  | setPlacement (h : CmdHdr) (o : PlaceOp)
  /-- DELETE_OBJECT (R251): DELETE_OBJECT frees an object once no step holds a fetch of it. -/
  | deleteObject (h : CmdHdr) (o : ObjId)
  /-- INSTALL (R270): INSTALL compresses and programs a weight object into flash and commits it. -/
  | install (h : CmdHdr) (o : InstallOp)
  /-- ABORT_INSTALL (R271): ABORT_INSTALL ends an installation with OBJ_ABORT and frees its sectors. -/
  | abortInstall (h : CmdHdr) (o : ObjId)
  /-- SHRINK_HOST_PAGES (R354): SHRINK_HOST_PAGES moves tiles out of host pages being removed and lowers the page count. -/
  | shrinkHostPages (h : CmdHdr) (count : BitVec 29)
  /-- Q_CFG_ENABLE (R359): A write of Q_CFG.ENABLE starts a queue at index 0 or stops it and discards staged commands. -/
  | qCfgEnable (q : QueueId) (v : BitVec 32)
  /-- EVT_CONS (R352): A write of EVT_CONS frees event ring entries, and a pending EVENTS_LOST event is written first. -/
  | evtCons (p : PartId) (v : BitVec 32)
  /-- FUNCTION_LEVEL_RESET (R332): A Function Level Reset of a VF or the PF clears its partitions' queues, sessions and non-weight
    objects. -/
  | functionLevelReset (fn : FnId)
  /-- COALESCE_TIMEOUT (R355): TIME_US passes after the first pending signal and the MSI-X message is sent. -/
  | coalesceTimeout (v : QueueId)
  /-- LTR_CHANGE (R356): The device sends an LTR message when its queue, ring or host page state changes the requirement. -/
  | ltrChange
  /-- POWER_AVERAGE (R399): Each 10 ms power average is compared with CAP_W to lower or raise cluster clocks. -/
  | powerAverage (w : BitVec 16)
  /-- CAP_STEP_TIMER (R399): While the group is disabled, package-cap steps are taken every 1 ms. -/
  | capStepTimer
  /-- SENSOR_SAMPLE (R412): A 20 µs die or optical sensor sample drives warnings, cluster caps, neighbour limits and trips. -/
  | sensorSample (i : Fin 77) (temp : BitVec 11)
  /-- THERMAL_STEP_TIMER (R411): Each 1 ms while a cluster cap or neighbour temperature limit persists, the cluster is lowered one more
    code. -/
  | thermalStepTimer (k : ClusterId)
  /-- SUPPLY_RAMP_DONE (R402): A cluster supply ramp finishes and the raised clock switches in. -/
  | supplyRampDone (k : ClusterId)
  /-- POWER_STATE_ENTRY (R407): After the idle time of a state, the device enters the deepest enabled state its wake tolerance allows. -/
  | powerStateEntry
  /-- WAKE (R409): A write of PWR.CTRL.WAKE wakes the device to S0. -/
  | wake
  /-- WAKE_REQUEST (R404): A request or FIFO write for a stopped domain raises an asynchronous wake request. -/
  | wakeRequest (k : ClusterId)
  /-- WAKE_COMPLETE (R409): A wake to S0 completes and the device could start a tick. -/
  | wakeComplete
  /-- CLOCK_UNGATE (R405): 3 µs before the tick timer expires, gated cluster clocks restart. -/
  | clockUngate
  /-- COUNTER_LOW_READ (R434): A read of a counter low half latches the high half and SAT for its path. -/
  | counterLowRead (r : RegRead) (mgmt : Bool)
  /-- RC_READ (R13): A read of an RC field returns and clears the reading path's copy. -/
  | rcRead (r : RegRead) (mgmt : Bool)
  /-- ENTRY_0_READ (R252): A read of OBJ.ENTRY_0 latches all eight words of the selected object table entry. -/
  | entry0Read
  /-- EPOCH_LO_READ (R283): A read of ONYX.EPOCH_LO latches EPOCH_HI. -/
  | epochLoRead
  /-- REGISTER_WRITE (R12): A BAR0 write to a register without behaviour of its own updates enabled bytes, subject to RWL lock,
    unused-value and deferred-apply rules. -/
  | registerWrite (w : RegWrite)
  /-- AGATE_SWITCH_MOVEMENT_DONE (R314): An Agate switch movement completes within 8 ms and its sensed position leaves MOVING for OPEN or
    CLOSED. -/
  | agateSwitchMovementDone (sw : Fin 6)
  /-- PCIE_LINK_TRAINED (R328): The PCIe link finishes training at the fastest supported rate and width and HQ.LINK reports it. -/
  | pcieLinkTrained (speed : Fin 8) (width : Fin 16) (flit : Bool)
  /-- STACKS_IDENTIFIED (R364): At about 100 ms the stacks are identified, BOOT.CAPACITY and the subsystem ID are set, and PCIe
    configuration requests stop getting Request Retry Status. -/
  | stacksIdentified (small : Bool)
  /-- OPTICAL_ENGINES_SETTLED (R363): The optical engines finish powering and settling, and the TWIN and EXPANSION ports begin their
    training attempts. -/
  | opticalEnginesSettled
  /-- ENTROPY_SOURCE_RECOVERS (R382): A stopped entropy source passes its health tests again, and waiting SALT draws and their
    installations proceed. -/
  | entropySourceRecovers
  /-- SR_IOV_VF_ENABLE (R333): The host enables or disables virtual functions in the SR-IOV capability, changing which queues and vectors
    the PF owns. -/
  | srIovVfEnable (n : FnId)
  /-- MAX_SNOOP_LATENCY_WRITE (R407): The host writes the LTR Max Snoop Latency or LTR Mechanism Enable, changing the wake tolerance in
    force. -/
  | maxSnoopLatencyWrite (us : Option (BitVec 24)) (ltr : Bool)
  /-- INVALID_OP (R386): A write of an unused OP to SEC.CMD completes the mailbox command with RESULT INVALID_OP. -/
  | invalidOp (op : BitVec 8)
  deriving DecidableEq, Repr

end Sys2Proof
end

