-- ==== Sys2Proof/Machine/CoreTypes.lean ====
section
/-! DEFINITION. The state of cores, engines and clusters, of signals on their way and of the tick (chapters 02, 04 to 07), as plain
data. Register-mapped state (SEQ, ENG, VEC, GUARD, EXP, GARNET) lies in the register map of State. -/

namespace Sys2Proof.Machine

/-- An instruction in a queue of a core, with its index in its program and that program's PROGRAM_ID (R46, R111). -/
structure QEnt where
  instr : Instr
  idx   : Nat
  pid   : BitVec 16
  deriving DecidableEq, Repr

/-- A re-run segment on a core (R152, R153). -/
structure SegRun where
  /-- the slot that is re-run -/
  slot  : Nat
  /-- unified address of the segment's header -/
  base  : Nat
  /-- index of the next instruction to dispatch -/
  next  : Nat
  /-- INSTR_COUNT of its header -/
  count : Nat
  pid   : BitVec 16
  /-- its instructions are being dispatched: 16 cycles have passed since the re-run's start -/
  begun : Bool
  /-- its STEP_END has been dispatched -/
  stopped : Bool
  /-- its STEP_END has completed -/
  ended : Bool
  /-- the second slot set, 8 per queue -/
  q     : NMap (List QEnt)
  /-- PC of the main program, shown again once the segment has completed -/
  mainPc : Nat
  deriving DecidableEq, Repr

/-- What a fetched copy holds, as the rules for faulty bytes tell it apart (R186, R249). -/
inductive FillKind
  | weight | cache | other
  deriving DecidableEq, Repr

/-- A copy of a tile that a fetch of the current step left in a core buffer, with its marks (R48, R245, R246). -/
structure Fill where
  /-- first 64 B unit of the buffer -/
  unit   : Nat
  /-- 64 B units filled -/
  units  : Nat
  object : Nat
  tile   : Nat
  kind   : FillKind
  /-- FORMAT and GROUP of the object -/
  fmt    : Nat
  group  : Nat
  /-- delivered with a poison mark (R245, R246) -/
  poison : Bool
  /-- substituted: it presents zero operands at the port (R246) -/
  sub    : Bool
  /-- units that an instruction has since written -/
  dirty  : List Nat
  /-- the table that the fetch of a coded tile refers to, while the reference is held (R179) -/
  ref    : Option Nat := none
  deriving DecidableEq, Repr

/-- A fault of a tile kept for the repeat rules of R186: the tile and the tick. -/
structure TileFault where
  object : Nat
  tile   : Nat
  tick   : Nat
  deriving DecidableEq, Repr

/-- A core outside its registers. -/
structure CoreSt where
  /-- Queues Q0 to Q7 of 32 instructions (R46). Reset: empty -/
  q : NMap (List QEnt) := []
  /-- Index of the next instruction to dispatch (R46). Reset: 0 -/
  next : Nat := 0
  /-- INSTR_COUNT of the program in progress (R44). Reset: 0 -/
  count : Nat := 0
  /-- Unified address of the program in progress (R42). Reset: 0 -/
  prog : Nat := 0
  /-- PROGRAM_ID of the program in progress (R44). Reset: 0 -/
  pid : BitVec 16 := 0#16
  /-- CREDIT_INIT_j of the program in progress (R44). Reset: 0 -/
  creditInit : NMap (BitVec 16) := []
  /-- Dispatch of the program has reached its first STEP_END (R47). Reset: false -/
  dispatched : Bool := false
  /-- The re-run segment in progress, if any (R153). Reset: none -/
  seg : Option SegRun := none
  /-- Layer in force in each queue, 0xFFFF where unlisted (R47). Reset: 0xFFFF -/
  layer : NMap (BitVec 16) := []
  /-- Layers each queue has executed in the step (R148). Reset: none -/
  entered : NMap (List Nat) := []
  /-- The 64 B of its program or segment read last, by unified address / 64 (log entry 73). Reset: none -/
  line : Option (Nat × List Byte) := none
  /-- Parity faults that its instructions met in the step, away from the ports (R249). Reset: none -/
  parity : List TileFault := []
  /-- Queues whose main head is executing, at a held port or as a fetch in flight: a segment lets it complete first (R153). Reset: none -/
  held : List Nat := []
  /-- Microseconds counted toward the hang limit (R55). Reset: 0 -/
  idleUs : Nat := 0
  /-- The 2 MiB core buffer (R5, R48). Reset: 0, log entry 3 -/
  buf : Mem := []
  /-- 64 B units of the core buffer with bad parity (R219, R249). Reset: none -/
  bufBad : List Nat := []
  /-- Copies of tiles that fetches of the step delivered (R48). Reset: none -/
  fills : List Fill := []
  /-- Vector registers, masks and lookup slots (R115, R117, R129). -/
  vec : VFile := {}
  deriving DecidableEq, Repr, Inhabited

/-- A scale position (R176): the block's byte address in the core buffer, the record within it, and its weight tile's index.
`sub` marks a scale block that was substituted under R246. -/
structure ScalePos where
  addr : Nat
  recNo : Nat
  sub  : Bool
  deriving DecidableEq, Repr

/-- A tile whose decode has started and not ended (R185). -/
structure Decode where
  /-- byte address of its header in the core buffer -/
  addr   : Nat
  object : Nat
  tile   : Nat
  /-- the next block to be delivered -/
  block  : Nat
  blocks : Nat
  /-- decode cycles that its rest still takes -/
  left   : Nat := 0
  /-- cycles since its last block was loaded, in which the fill unit has gone on (R183) -/
  idle   : Nat := 0
  /-- each decoder's FIFO: bits held, and bytes of its sub-stream still to be filled (R183) -/
  feed   : List (Nat × Nat) := []
  /-- a RUN of the main program may continue it: a re-run segment makes that impossible (R153) -/
  cont   : Bool := true
  deriving DecidableEq, Repr

/-- A tile started whose sum is still to be checked (R185, R186), with the index and PROGRAM_ID of the RUN. -/
structure SumCheck where
  object : Nat
  tile   : Nat
  /-- TABLE_ID of a coded tile, whose reference is returned (R179) -/
  table  : Option Nat
  ok     : Bool
  /-- the tile's units in the core buffer, discarded on a mismatch -/
  addr   : Nat
  units  : Nat
  deriving DecidableEq, Repr

/-- Tiers of R242. -/
inductive Tier
  | far | host | flash
  deriving DecidableEq, Repr

/-- Why a RUN is held at its port (R109, R186). -/
inductive HoldWhy
  /-- parity error: the weight tile is refetched -/
  | parity
  /-- scale skew: the weight tile and the scale tile are refetched -/
  | skew
  /-- the tile is poisoned: its consumers wait (R245, R246) -/
  | poison
  deriving DecidableEq, Repr

/-- A held RUN: the tile that holds it, with the scale tile where both are refetched. -/
structure Hold where
  why    : HoldWhy
  object : Nat
  tile   : Nat
  addr   : Nat
  units  : Nat
  scale  : Option (Nat × Nat × Nat)
  /-- the tiers that its refetch reads from (R242) -/
  tiers  : List Tier := []
  deriving DecidableEq, Repr

/-- How far a RUN's walk over stored tiles has come (R109, R176). -/
structure Walk where
  /-- header address of the next tile -/
  addr   : Nat
  /-- blocks done -/
  done   : Nat := 0
  pos    : ScalePos
  /-- OBJECT and TILE_INDEX that the next tile must have -/
  expect : Option (Nat × Nat) := none
  /-- format and group size of the run's first tile -/
  fg     : Option (Fmt × Nat) := none
  /-- cycles of the blocks so far: the first block's load, then the longer of load and array for each block -/
  cycles : Nat := 0
  /-- array cycles of the last block, none before the first -/
  last   : Option Nat := none
  /-- cycles in which the array waited for the port -/
  bound  : Nat := 0
  /-- stall cycles of the expander -/
  stalls : Nat := 0
  /-- the decoders' FIFOs, where they have begun to take the next tile (R183) -/
  feed   : List (Nat × Nat) := []
  deriving DecidableEq, Repr

/-- A RUN that a tile holds at its port, with the SETUP it began under: it goes on from there (R109, R153). -/
structure RunHeld where
  op    : RunOp
  setup : SetupOp
  /-- of a re-run segment -/
  seg   : Bool
  walk  : Walk
  deriving DecidableEq, Repr

/-- An engine outside its registers. -/
structure EngSt where
  /-- The SETUP in force (R108). Reset: none -/
  setup : Option SetupOp := none
  /-- SETUP and scale position set aside by a re-run segment (R153). Reset: none -/
  saved : Option (Option SetupOp × Option ScalePos) := none
  /-- The scale position (R176). Reset: none -/
  scalePos : Option ScalePos := none
  /-- The accumulator bank of 32 × 32 entries (R94). Reset: every entry 0 -/
  bank : Bank := []
  /-- The outlier list in the engine (R158). Reset: empty -/
  outliers : List (BitVec 16) := []
  /-- The decode in progress (R185). Reset: none -/
  dec : Option Decode := none
  /-- Tiles started whose sums are still to be checked (R185). Reset: none -/
  sums : List SumCheck := []
  /-- Code lengths of the record in each expander cache entry (R181). Reset: 0 -/
  records : NMap (BitVec 1024) := []
  /-- Expander cache entries, least recently used first (R181). Reset: none used -/
  lru : List Nat := []
  /-- The tile that holds the RUN at the port (R186). Reset: none -/
  hold : Option Hold := none
  /-- The RUN held at the port, and how far it has come (R109). Reset: none -/
  run : Option RunHeld := none
  /-- The two weight registers, the block in use last: operand of row r, column j at 32r + j, 0 where unlisted (R87). Reset: 0 -/
  weights : List (List Int) := []
  /-- Parity faults of the step (R186). Reset: none -/
  parity : List TileFault := []
  /-- Skew faults of the step (R186). Reset: none -/
  skews : List TileFault := []
  /-- Sum faults of the last 16 steps (R186). Reset: none -/
  badSums : List TileFault := []
  deriving DecidableEq, Repr, Inhabited

/-- What a guard slot keeps for one step (R145, R149). Counts stop at 0xFF_FFFF. -/
structure SlotCnt where
  bins    : NMap Nat := []
  /-- 0 PORT, 1 ACC, 2 READOUT, 3 VECTOR -/
  sats    : NMap Nat := []
  /-- saturations made by main-program instructions, by source: those compared with the threshold (R155) -/
  mainSats : NMap Nat := []
  rows    : BitVec 32 := 0#32
  /-- rows of saturations that a segment made (R155) -/
  segRows : BitVec 32 := 0#32
  closed  : Bool := false
  rerun   : Bool := false
  skipped : Bool := false
  suspect : Bool := false
  deriving DecidableEq, Repr, Inhabited

/-- What a guarded slot keeps for one window (R160), each total in 48 bits. -/
structure SlotWin where
  reruns  : Nat := 0
  values  : Nat := 0
  tail    : Nat := 0
  satRd   : Nat := 0
  satOth  : Nat := 0
  topBin  : Nat := 0
  skipped : Nat := 0
  deriving DecidableEq, Repr, Inhabited

/-- A record of a cluster's table area (R180). -/
structure TabRec where
  lens : BitVec 1024 := 0#1024
  gen  : Nat := 0
  live : Bool := false
  deriving DecidableEq, Repr, Inhabited

/-- A cluster outside its registers. -/
structure ClusterSt where
  /-- The 4 MiB data area of the cluster cache (R5, R217). Reset: 0, log entry 3 -/
  cache : Mem := []
  /-- 64 B units of the cache with bad parity (R219). Reset: none -/
  cacheBad : List Nat := []
  /-- The table area: a record and a state for each ID (R180). Reset: no ID live -/
  tables : NMap TabRec := []
  /-- The slot table as read at the step start, 512 bits a slot (R146, R147). Reset: 0 -/
  slots : NMap (BitVec 512) := []
  /-- Slots whose entry is a table error in this step (R147). Reset: none -/
  slotErr : List Nat := []
  /-- Guard fields of the step in progress (R145). Reset: 0 -/
  cur : NMap SlotCnt := []
  /-- Guard fields of the last completed step (R145). Reset: 0 -/
  last : NMap SlotCnt := []
  /-- Window totals (R160). Reset: 0 -/
  wins : NMap SlotWin := []
  /-- Steps of the window so far (R160). Reset: 0 -/
  winSteps : Nat := 0
  /-- Slots closed whose decision is still to be made, in order (R148, R149). Reset: none -/
  closing : List Nat := []
  /-- Slots waiting to be re-run, in the order of their decisions (R154). Reset: none -/
  rerunQ : List Nat := []
  deriving DecidableEq, Repr, Inhabited

/-- What a signal on its way adds to (R49). -/
inductive SigKind
  | token | credit
  deriving DecidableEq, Repr

/-- A signal, credit return or verdict on its way to a core of this device (R52, R150). -/
structure Flight where
  /-- the sending core; none for a verdict -/
  src    : Option Nat
  dst    : Nat
  kind   : SigKind
  ctr    : Nat
  amt    : Nat
  /-- core cycles of its way (R52) -/
  cycles : Nat
  deriving DecidableEq, Repr

/-- What the Garnet tick unit keeps outside its registers (R30 to R41). Times are microseconds of `State.now`. -/
structure GarnetSt where
  /-- Start of the tick in progress. Reset: 0 -/
  startAt : Nat := 0
  /-- S − 1 of the group that formed last (R36, R317). Reset: none -/
  formed : Option (BitVec 32) := none
  /-- The group formed and ENABLE has not been written to 0 since: silence is judged (R37). Reset: false -/
  watch : Bool := false
  /-- The membership set before the first loss since the group formed (R319). Reset: none -/
  before : List Nat := []
  /-- Moment the timer expires or expired, E of R41. Reset: 0 -/
  expireAt : Nat := 0
  /-- Moment the own step was done, D of R41. Reset: 0 -/
  doneAt : Nat := 0
  /-- The producer-index writes of the step are made, or it needs none (R31). Reset: false -/
  committed : Bool := false
  /-- The step in progress is being abandoned or was (R54). Reset: false -/
  abandoned : Bool := false
  /-- Members whose "done n+1" is held (R39). Reset: none -/
  heldNext : List Nat := []
  /-- Members whose abandon-flagged token of the tick came (R54). Reset: none -/
  abandonFrom : List Nat := []
  /-- Members whose abandon-flagged "done n+1" is held (R39, R54). Reset: none -/
  abandonNext : List Nat := []
  /-- Tokens received, for the flood of R33: the ticks of each member's last 64 tokens, newest last. Reset: none -/
  seen : NMap (List (BitVec 32)) := []
  /-- While ENABLE is 0: the latest token of each member, tick and abandon flag (R36). Reset: none -/
  kept : NMap (BitVec 32 × Bool) := []
  /-- Moment the last token of each member came (R37). Reset: none -/
  heardAt : NMap Nat := []
  /-- Last tick received from each member (MEMBER_SILENT's detail). Reset: none -/
  heardTick : NMap (BitVec 32) := []
  /-- The last tick this device committed, S − 1 when the group forms (R321). Reset: 0 -/
  lastCommit : BitVec 32 := 0#32
  deriving DecidableEq, Repr, Inhabited

end Sys2Proof.Machine
end

