-- ==== Sys2Proof/Machine/ReedSolomon.lean ====
section
/-! DEFINITION. The burst code of the stacks, RS(72,64) over GF(2^8) (R196 to R198). The code is linear, so a received burst is
described by its error vector: the 72 symbols by which it differs from the codeword of its 64 data bytes. -/

namespace Sys2Proof.Machine

/-- Multiplication by α = 0x02 modulo x^8 + x^4 + x^3 + x^2 + 1 (R197). -/
def gfDouble (a : Nat) : Nat := if a < 128 then 2 * a else (2 * a) ^^^ 0x11D

/-- `n` steps of the product of `a` and `b`. -/
def gfMulN : Nat → Nat → Nat → Nat → Nat
  | 0, _, _, acc => acc
  | n + 1, a, b, acc => gfMulN n (gfDouble a) (b / 2) (if b % 2 = 1 then acc ^^^ a else acc)

/-- The product in GF(2^8). -/
def gfMul (a b : Nat) : Nat := gfMulN 8 a b 0

/-- a to the power n. -/
def gfPow (a : Nat) : Nat → Nat
  | 0 => 1
  | n + 1 => gfMul a (gfPow a n)

/-- The inverse of a non-zero element: a^254. -/
def gfInv (a : Nat) : Nat :=
  let a2 := gfMul a a
  let a4 := gfMul a2 a2
  let a8 := gfMul a4 a4
  let a16 := gfMul a8 a8
  let a32 := gfMul a16 a16
  let a64 := gfMul a32 a32
  let a128 := gfMul a64 a64
  gfMul a2 (gfMul a4 (gfMul a8 (gfMul a16 (gfMul a32 (gfMul a64 a128)))))

/-- α^n. -/
def gfAlpha (n : Nat) : Nat := gfPow 2 (n % 255)

/-- The field element of symbol i: data byte 0 is the coefficient of x^71, check byte j that of x^(7 - j) (R197). -/
def symbolLoc (i : Nat) : Nat := gfAlpha (71 - i)

/-- The logical lane of symbol i: four symbols to a lane, 16 data lanes and 2 check lanes (R196). -/
def laneOf (i : Nat) : Nat := i / 4

/-- A burst's error vector: symbols by index, 0 where unlisted. -/
abbrev ErrVec := List (Nat × Nat)

/-- Syndrome j: the error polynomial at α^j (R197). -/
def syndrome (e : ErrVec) (j : Nat) : Nat := e.foldl (fun s p => s ^^^ gfMul p.2 (gfPow (symbolLoc p.1) j)) 0

/-- The eight syndromes. -/
def syndromes (e : ErrVec) : List Nat := (List.range 8).map (syndrome e)

/-- Remainder of division by g(x): one data byte fed to the eight check registers (R197). -/
def rsStep (g : List Nat) (r : List Nat) (d : Nat) : List Nat :=
  let f := d ^^^ r.headD 0
  (r.tail ++ [0]).zipWith (fun x c => x ^^^ gfMul f c) g

/-- The coefficients of g(x) below x^8, from x^7 down: the product of (x - α^i), i = 0 to 7 (R197). -/
def rsGen : List Nat :=
  let mul := fun (p : List Nat) (a : Nat) => (p ++ [0]).zipWith (fun x y => x ^^^ gfMul a y) (0 :: p)
  ((List.range 8).foldl (fun p i => mul p (gfAlpha i)) [1]).tail

/-- The eight check bytes of 64 data bytes (R197). -/
def rsCheck (data : List Nat) : List Nat := data.foldl (rsStep rsGen) (List.replicate 8 0)

/-- Coefficients of the locator of `locs`, from x^0 up: the product of (1 - X x). -/
def locator (locs : List Nat) : List Nat :=
  locs.foldl (fun p x => (p ++ [0]).zipWith (fun a b => a ^^^ gfMul x b) (0 :: p)) [1]

/-- Value at `x` of a polynomial given from x^0 up. -/
def polyAt (p : List Nat) (x : Nat) : Nat := p.foldr (fun c acc => c ^^^ gfMul x acc) 0

/-- The locator of `locs` explains the syndromes: its recurrence holds for every syndrome past the first `locs.length`. -/
def explains (syn : List Nat) (lam : List Nat) : Bool :=
  let k := lam.length - 1
  (List.range (8 - k)).all fun n =>
    (lam.zipIdx.foldl (fun a c => a ^^^ gfMul c.1 (syn.getD (k + n - c.2) 0)) 0) == 0

/-- The value of the error at location `x` among `locs`. -/
def errValue (syn : List Nat) (lam : List Nat) (locs : List Nat) (x : Nat) : Nat :=
  let k := lam.length - 1
  let omega := (List.range k).map fun n => (List.range (n + 1)).foldl (fun a i => a ^^^ gfMul (lam.getD i 0) (syn.getD (n - i) 0)) 0
  let xi := gfInv x
  let den := (locs.filter (· != x)).foldl (fun a y => gfMul a (1 ^^^ gfMul y xi)) 1
  gfMul (polyAt omega xi) (gfInv den)

/-- The errors at exactly the symbols of `pos`, some perhaps 0, that give these syndromes, if there are any. -/
def solveAt (syn : List Nat) (pos : List Nat) : Option ErrVec :=
  let locs := pos.map symbolLoc
  let lam := locator locs
  if explains syn lam then
    some ((pos.map fun i => (i, errValue syn lam locs (symbolLoc i))).filter fun p => p.2 != 0)
  else none

/-- The four symbols of a lane. -/
def laneSymbols (l : Nat) : List Nat := [4 * l, 4 * l + 1, 4 * l + 2, 4 * l + 3]

/-- The sets of symbols whose correction R198 accepts: with no marked lane, one lane or any two symbols; with one marked lane, that
lane and one symbol more. -/
def acceptedSets (marked : Option Nat) : List (List Nat) :=
  match marked with
  | none => (List.range 18).map laneSymbols ++ (List.range 71).flatMap fun i => (List.range (71 - i)).map fun k => [i, i + 1 + k]
  | some m => ((List.range 72).filter fun i => laneOf i != m).map fun i => laneSymbols m ++ [i]

/-- What the decoder makes of a burst (R198, R201). -/
inductive Decoded
  /-- a valid codeword -/
  | clean
  /-- corrected: the errors removed -/
  | corrected (e : ErrVec)
  /-- the poison syndrome (R201) -/
  | poison
  /-- any other syndrome -/
  | uncorrectable
  deriving DecidableEq, Repr

/-- The error vector of a poison codeword: all eight check bytes inverted (R201). -/
def poisonErr : ErrVec := (List.range 8).map fun j => (64 + j, 0xFF)

/-- The decoder (R198): the poison syndrome is tested first (R201). -/
def rsDecode (marked : Option Nat) (e : ErrVec) : Decoded :=
  let syn := syndromes e
  if syn.all (· == 0) then .clean
  else if syn == syndromes poisonErr then .poison
  else match (acceptedSets marked).findSome? (solveAt syn) with
    | some c => .corrected c
    | none => .uncorrectable

/-- Symbol `i` of an error vector. -/
def ErrVec.at (e : ErrVec) (i : Nat) : Nat := (e.filter fun p => p.1 == i).foldl (fun a p => a ^^^ p.2) 0

/-- The sum of two error vectors, in one form: rising symbols, no zero. -/
def ErrVec.add (a b : ErrVec) : ErrVec :=
  ((List.range 72).map fun i => (i, ErrVec.at a i ^^^ ErrVec.at b i)).filter fun p => p.2 != 0

/-- Check bytes by which the stored check differs from the check of data changed by `e` alone: a corruption of data symbols shows in
the check of the changed data (R197). -/
def checkShift (e : ErrVec) : List Nat :=
  (rsCheck ((List.range 64).map (ErrVec.at e))).zipWith (fun c j => c ^^^ ErrVec.at e (64 + j)) (List.range 8)

end Sys2Proof.Machine
end

