-- ==== Sys2Proof/Machine/MemTypes.lean ====
section
/-! DEFINITION. The state of stacks, channels, objects, directories, tile movers and fetches (chapters 08 and 09), as plain data. STK,
CH, OBJ and MOV registers lie in the register map of State. Frames are numbered F = SPA >> 16 (R191). -/

namespace Sys2Proof.Machine

/-! ### Stacks and channels -/

/-- A channel outside its registers. -/
structure ChanSt where
  /-- Row open in each bank (R195). Reset: none open -/
  openRow : NMap Nat := []
  /-- Bursts decoded in a row that needed correction in a lane (R199). Reset: 0 -/
  runs : NMap Nat := []
  /-- Qualifying bursts seen since injection was armed (R220). Reset: 0 -/
  injSeen : Nat := 0
  /-- The mark in force is a test mark (R220). Reset: false -/
  testMark : Bool := false
  /-- Refresh commands of each bank in the window (R207). Reset: 0 -/
  refreshed : NMap Nat := []
  /-- Microsecond at which the channel last re-centred (R206). Reset: 0 -/
  centredAt : Nat := 0
  deriving DecidableEq, Repr, Inhabited

/-- A stack outside its registers. -/
structure StackSt where
  /-- TEMP of the sample before the last, in 0.25 °C (R211). Reset: none -/
  prev : Option Int := none
  /-- A warning waits for the end of the step to apply the cap (R213). Reset: false -/
  capPend : Bool := false
  /-- A cleared warning returns THERM_CAP to 100 at the next tick start (R214). Reset: false -/
  capClear : Bool := false
  /-- The hot refresh rate is in force (R207). Reset: false -/
  hot : Bool := false
  /-- Moment at which this stack's warning set WITHHOLD (R213). Reset: 0 -/
  heldAt : Nat := 0
  /-- Accesses since the last epoch, not yet put to the regulator (R43, R208). Reset: none -/
  asked : List RegReq := []
  /-- Requests not admitted in earlier epochs, oldest first (R209). Reset: none -/
  waiting : List RegReq := []
  /-- Partitions that made a request in the last epoch (R208). Reset: none -/
  lastActive : List Nat := []
  /-- The partition whose turn is next in the round robin (R209). Reset: 0 -/
  turn : Nat := 0
  deriving DecidableEq, Repr, Inhabited

/-! ### Objects -/

/-- A command whose completion is still to be written (R336): its device queue, its CID and the tick at whose start it was applied. -/
structure CmdRef where
  q    : Nat
  cid  : BitVec 16
  tick : BitVec 32
  deriving DecidableEq, Repr

/-- STATE of an object (R226). -/
inductive ObjState
  | free | installing | live | quarantined | deleting
  deriving DecidableEq, Repr, Inhabited

/-- KIND of an object (R226). -/
inductive ObjKind
  | weights | cache | session | journal | work | code
  deriving DecidableEq, Repr, Inhabited

/-- POLICY of an object (R226). -/
inductive Policy
  | pinned | resident | host | stream
  deriving DecidableEq, Repr, Inhabited

/-- An object table entry in use (R225), with what the device knows of the object beside it. -/
structure Obj where
  state    : ObjState
  kind     : ObjKind
  part     : Nat
  policy   : Policy
  cls      : Nat
  salt     : BitVec 8
  base     : Nat
  size     : Nat
  placeDie : Nat
  share    : BitVec 16
  session  : BitVec 16
  age      : BitVec 32
  origin   : BitVec 32
  resident : Nat
  /-- DIR_BASE: the first of `dirFrames` -/
  dirFrames : List Nat
  /-- compute die of the first core that fetched it, for PLACE_DIE 5 (R225) -/
  firstDie : Option Nat
  /-- DELETING: the commands to complete once the object is freed (R251) -/
  dying    : Option (List CmdRef)
  /-- weights that go LIVE at the next tick start (R270) -/
  goLive   : Bool
  deriving DecidableEq, Repr

/-- HOME of a tile (R228). -/
inductive Home
  | origin | stack | host | none
  deriving DecidableEq, Repr, Inhabited

/-- A directory entry (R228). HOST_PAGE holds the partition in bits [31:28] and the index in bits [27:0] (R353). -/
structure DirEnt where
  home     : Home
  moving   : Bool := false
  poisoned : Bool := false
  frame    : Nat := 0
  page     : Nat := 0
  deriving DecidableEq, Repr

/-- Index of a tile over all objects. -/
def tileKey (o t : Nat) : Nat := o * 2 ^ 22 + t

/-- What a stack frame below N holds (R228, R232, R245); an unlisted frame is free. -/
inductive FrameUse
  | tile (o t : Nat)
  | directory (o : Nat)
  /-- the band map and the blocks' counts (R261) -/
  | system
  /-- staging of the running installation (R177) -/
  | staging
  /-- the origin index of a committed object, by handle (R262) -/
  | index (handle : Nat)
  /-- poisoned, waiting for its read-back (R245) -/
  | readback (o : Nat)
  | retired
  /-- the source of a move, until its earlier reads have finished (R230) -/
  | source (o t : Nat)
  deriving DecidableEq, Repr

/-- Where a move takes a tile (R230, R231). -/
inductive Dest
  | frame (f : Nat)
  | page (p : Nat)
  | origin
  deriving DecidableEq, Repr

/-- A move in progress (R230): writes that reached the tile since it began are held with their offsets. -/
structure Move where
  dest  : Dest
  /-- the memory-side die whose movers carry it -/
  die   : Nat
  held  : List (Nat × List Byte) := []
  /-- a fetch's placement waits for this eviction (R237) -/
  evict : Bool := false
  /-- the order in which moves were asked for: the first eight of a die have its movers (R240) -/
  seq   : Nat := 0
  deriving DecidableEq, Repr

/-- A placement command's moves (R241): tiles from `next` on are still to be started. -/
structure Job where
  object : Nat
  next   : Nat
  target : Policy
  /-- SHRINK_HOST_PAGES: partition and count; only tiles homed in its pages at or above the count move -/
  shrink : Option (Nat × Nat)
  done   : Option CmdRef
  /-- tiles that were moving when their turn came, still to be looked at -/
  later  : List Nat := []
  deriving DecidableEq, Repr

/-- A refetch of a poisoned weight tile from its origin (R245). -/
structure Refetch where
  die    : Nat
  old    : Option Nat
  /-- the frame of a writable victim that it waits for -/
  dest   : Option Nat := none
  /-- as for a move (R240) -/
  seq    : Nat := 0
  deriving DecidableEq, Repr

/-- Where a fetched tile comes from. -/
inductive Source
  | frame (f : Nat)
  | page (p : Nat)
  | origin
  | zeros
  /-- placed first: read from the frame its move has switched to (R233) -/
  | placed
  /-- substituted under R247 -/
  | subst
  deriving DecidableEq, Repr

/-- One tile of a fetch: its 4 KiB units and stored size. -/
structure FetchTile where
  tile   : Nat
  units  : Nat
  stored : Nat
  src    : Source
  /-- the tiers that it waits on (R242) -/
  tiers  : List Tier
  /-- the directory entry was marked POISONED when the fetch looked it up -/
  poison : Bool := false
  /-- the table that a coded tile refers to, while the reference is held (R179) -/
  ref    : Option Nat := none
  deriving DecidableEq, Repr

/-- The fetch a core has in flight (R48). -/
structure FetchRun where
  op    : FetchOp
  prog  : Nat
  pid   : BitVec 16
  /-- the queue entry it holds: of a segment, of the program, or none -/
  inSeg : Option Bool
  tiles : List FetchTile
  /-- the order in which fetches were asked for (R281) -/
  seq   : Nat := 0
  deriving DecidableEq, Repr

/-- What the step's faults and marks have gathered for its sessions (R156, R245 to R249, R345). -/
structure Marks where
  /-- Every session is suspect (R156). Reset: false -/
  suspectAll : Bool := false
  /-- Batch slots marked suspect (R156). Reset: none -/
  suspectRows : List Nat := []
  /-- Partitions whose sessions are suspect (R249). Reset: none -/
  suspectParts : List Nat := []
  /-- Partitions whose sessions are withheld (R245, R247, R248). Reset: none -/
  withheldParts : List Nat := []
  /-- Sessions withheld (R248, R249). Reset: none -/
  withheldSess : List Nat := []
  /-- Partitions told of withheld tokens in the tick (R245). Reset: none -/
  told : List Nat := []
  deriving DecidableEq, Repr, Inhabited

/-- The placement side of the device outside its registers. -/
structure PlaceSt where
  /-- Object table entries in use, by index (R224). Reset: none, every entry FREE -/
  objs : NMap Obj := []
  /-- Directory entries, by tileKey; an unlisted tile has its first home (R228). Reset: none -/
  dir : NMap DirEnt := []
  /-- Frames in use, by frame number (R228, R232). Reset: none -/
  frames : NMap FrameUse := []
  /-- Host pages in which a tile is homed or to be homed, by HOST_PAGE (R236, R353). Reset: none -/
  pages : List Nat := []
  /-- Host pages registered at the last tick start, or when the group formed: those in use while the device ticks (R354). Reset: none -/
  usable : List Nat := []
  /-- Host pages that a move has left and whose earlier reads have not finished, by tileKey (R230). Reset: none -/
  oldPages : NMap Nat := []
  /-- Table references of copies that fetches of the step left in cluster caches (R179). Reset: none -/
  heldRefs : List Nat := []
  /-- Moves in progress, by tileKey (R230). Reset: none -/
  moves : NMap Move := []
  /-- Placement commands in progress (R241). Reset: none -/
  jobs : List Job := []
  /-- Refetches in progress, by tileKey (R245). Reset: none -/
  refetches : NMap Refetch := []
  /-- Moment of a poisoned tile's first read in the step, by tileKey (R245). Reset: none -/
  waits : NMap Nat := []
  /-- Tiles whose wait has ended in the step (R245). Reset: none -/
  expired : List Nat := []
  /-- Tiles whose home went back to ORIGIN for want of a frame, with their die (R245). Reset: none -/
  replaceT : NMap Nat := []
  /-- Dies whose background eviction has begun and goes on until HIGH frames are free (R237). Reset: none -/
  draining : List Nat := []
  /-- Bytes of a poisoned writable tile written since, by tileKey (R248). Reset: none -/
  rewritten : NMap (List Nat) := []
  /-- Lines of eight entries in each die's directory cache, by object and line (R228). Reset: none -/
  dirCache : NMap (List (Nat × Nat)) := []
  deriving DecidableEq, Repr, Inhabited

end Sys2Proof.Machine
end

