-- ==== Sys2Proof/Machine/FlashTypes.lean ====
section
/-! DEFINITION. The state of the flash tier and of Onyx (chapter 10) and of an installation (R177, R270), as plain data. FCH and ONYX
registers lie in the register map of State. Blocks are named by lane and index, pages by block and number. -/

namespace Sys2Proof.Machine

/-- One codeword of a page (R256), without its LDPC parity. -/
structure CodeWord where
  data   : Mem
  handle : BitVec 32
  sector : BitVec 32
  epoch  : BitVec 32
  crc    : BitVec 32
  deriving DecidableEq, Repr

/-- Block key. -/
def blockKey (lane block : Nat) : Nat := lane * 2 ^ 20 + block
/-- Page key. -/
def pageKey (lane block page : Nat) : Nat := blockKey lane block * 2 ^ 12 + page

/-- What a block is used for (R263, R276, R277). -/
inductive BlockUse
  | free
  | band (b : Nat)
  | system
  /-- holds nothing of use and is to be erased -/
  | erasing
  /-- erased, while its band waits for BAND_FREE -/
  | cleared
  | retired
  deriving DecidableEq, Repr, Inhabited

/-- A block's state and counts (R261, R273, R276). -/
structure BlockInfo where
  use    : BlockUse := .free
  erases : Nat := 0
  reads  : BitVec 32 := 0#32
  deriving DecidableEq, Repr, Inhabited

/-- Why a block waits for a refresh (R273, R283). -/
inductive RefreshWhy
  | reads | ecc
  deriving DecidableEq, Repr

/-- Causes of retirement (R266). -/
inductive RetireWhy
  | factory | program | erase | wear | readback
  deriving DecidableEq, Repr

/-- A weight object as Onyx keeps it (R262, R266): the R225 fields at OBJ_BEGIN, its place, its origin index (first sector and sectors
of each tile, with the stored size), and the coded tiles of each table ID. -/
structure OnyxObj where
  index     : Nat
  ent       : Obj
  /-- FORMAT and GROUP that its tiles' headers name -/
  fmt       : Nat
  group     : Nat
  base      : Nat
  sectors   : Nat
  tiles     : List (Nat × Nat × Nat)
  refs      : List (Nat × Nat)
  committed : Bool
  deriving DecidableEq, Repr

/-- A table of the registry as Onyx keeps it (R168, R266). -/
structure OnyxTab where
  lens : BitVec 1024
  gen  : Nat
  deriving DecidableEq, Repr

/-- The tables that a checkpoint holds (R267). -/
structure OnyxImg where
  bands  : NMap (List Nat) := []
  blocks : NMap BlockInfo := []
  objs   : NMap OnyxObj := []
  tables : NMap OnyxTab := []
  /-- state and counts of every block that is not listed: a free block -/
  blank  : BlockInfo := {}
  deriving DecidableEq, Repr, Inhabited

/-- Journal records (R266). -/
inductive JRec
  | objBegin (handle : Nat) (o : OnyxObj)
  | table (id : Nat) (t : OnyxTab)
  | objCommit (handle : Nat) (base sectors tiles : Nat) (refs : List (Nat × Nat))
  | objAbort (handle : Nat)
  | objDelete (handle : Nat)
  | objMove (handle : Nat) (base : Nat)
  | bandAlloc (band : Nat) (blocks : List Nat)
  | bandMember (band lane block : Nat)
  | bandFree (band : Nat)
  | blockRetire (lane block : Nat) (why : RetireWhy)
  | readCounts (counts : List (Nat × BitVec 32))
  | checkpoint (set page pages : Nat)
  /-- a type that R266 does not use: no firmware of this format writes it -/
  | unused (type : BitVec 16)
  deriving DecidableEq, Repr

/-- A commit: its header and its records (R265). -/
structure Commit where
  epoch   : BitVec 64
  records : BitVec 16
  bytes   : BitVec 16
  crc     : BitVec 32
  recs    : List JRec
  deriving DecidableEq, Repr

/-- Sector 0 of an anchor page (R264). -/
structure Anchor where
  version : BitVec 16 := 1#16
  epoch : BitVec 64
  /-- checkpoint set, and first page of the checkpoint -/
  ckpt  : Nat × Nat := (0, 0)
  /-- journal set in use, and first page after the checkpoint -/
  jour  : Nat × Nat := (0, 0)
  nextHandle : Nat
  /-- LANE_MARK_g by channel -/
  marks : NMap Nat
  deriving DecidableEq, Repr

/-- What a page of the system area holds (R264, R265, R267, R279). -/
inductive SysBody
  | anchor (a : Anchor)
  | commit (c : Commit)
  /-- page `k` of a checkpoint of `n` pages; the tables stand with the first -/
  | ckpt (k n : Nat) (img : Option OnyxImg)
  /-- 512 entries, an empty one being 0 -/
  | vault (entries : List (BitVec 256))
  deriving DecidableEq, Repr

/-- A page of the system area: its codewords as they stand in the NAND (R256), what they say, and the order of programming among all
pages. -/
structure SysPage where
  cws  : List CodeWord
  body : SysBody
  seq  : Nat
  deriving DecidableEq, Repr

/-- A segment in an install encoder (R177). -/
structure EncSt where
  segment : Nat
  /-- received and counted, with the table chosen: its ID and GEN -/
  table   : Option (Nat × Nat)
  /-- the segment's bytes as they were received into the staging area of its die (R177) -/
  data    : List Byte := []
  deriving DecidableEq, Repr

/-- The running installation (R270). -/
structure Install where
  handle  : Nat
  object  : Nat
  fmt     : Nat
  group   : Nat
  wAddr   : Nat
  wBytes  : Nat
  sAddr   : Nat
  sBytes  : Nat
  /-- weight tiles and tiles in all -/
  wTiles  : Nat
  tiles   : Nat
  /-- RAW_THRESHOLD and REUSE_TOL in force for the installation (R189) -/
  threshold : Nat
  tol     : Nat
  salt    : Option (BitVec 8)
  cmd     : CmdRef
  /-- OBJ_BEGIN is durable -/
  begun   : Bool := false
  /-- epoch of its OBJ_BEGIN, which opened its writes (R256) -/
  opened  : BitVec 64 := 0#64
  /-- the next tile whose sectors are to follow -/
  nextTile : Nat := 0
  /-- the origin index has joined the sectors -/
  indexed : Bool := false
  /-- the next segment to hand out -/
  nextSeg : Nat := 0
  encs    : NMap EncSt := []
  /-- the scale records of weight tiles that have been coded, by tile index, until their scale tile is built (R177) -/
  recs    : NMap (List Byte) := []
  /-- coded tiles waiting to be programmed, by tile index -/
  coded   : NMap (List Byte) := []
  /-- tiles whose sectors follow one another in the object, with their places: first sector, sectors and stored size -/
  placed  : List (Nat × Nat × Nat) := []
  /-- table IDs held by the installation (R169) -/
  held    : List Nat := []
  /-- coded tiles of each ID -/
  refs    : NMap Nat := []
  /-- first logical sector of the object, once its first band is formed -/
  base    : Option Nat := none
  /-- bands formed for it -/
  bands   : List Nat := []
  /-- sectors of the object programmed so far -/
  done    : Nat := 0
  /-- sectors that wait to be programmed, in sector order -/
  stage   : List (List Byte) := []
  /-- OBJ_COMMIT is on its way -/
  ending  : Bool := false
  deriving DecidableEq, Repr

/-- The flash tier and Onyx outside their registers. The first six fields are what stands in the NAND and keeps its value through
every reset and power loss. -/
structure FlashSt where
  /-- Programmed pages of bands, by pageKey (R256). Reset: none -/
  nand : NMap (List CodeWord) := []
  /-- Programmed pages of the system area, by pageKey (R263). Reset: none -/
  sys : NMap SysPage := []
  /-- The sets of the system area: the block of each lane 0 to 15. Sets 0 and 1 are the journal's, 2 and 3 the checkpoints', the rest the
  vault's (R263). Reset: none -/
  sets : List (List Nat) := []
  /-- Pages of the system area programmed so far, the model's own count of their order (R264). Reset: 0 -/
  sysSeq : Nat := 0
  /-- The factory marks have been read, and erased since (R277). Reset: false -/
  marked : Bool := false
  /-- The last power-down left a checkpoint (R268). Reset: false -/
  clean : Bool := false
  /-- Journal set in use, 0 or 1 (R263). Reset: 0 -/
  jset : Nat := 0
  /-- Commits in the journal set in use (R267). Reset: 0 -/
  jcount : Nat := 0
  /-- Checkpoint set of the newest checkpoint, 2 or 3 (R263). Reset: 2 -/
  cset : Nat := 2
  /-- Where the next vault page goes: vault set and page within it (R279). Reset: 0 -/
  vaultAt : Nat × Nat := (0, 0)
  /-- The vault's entries, oldest first, as they can be read (R279). Reset: none -/
  vault : List (BitVec 256) := []
  /-- Geometry found by discovery (R254). Reset: none -/
  geom : Option FlashGeom := none
  /-- Onyx's tables in use (R261, R268). Reset: empty -/
  img : OnyxImg := {}
  /-- Epoch of the newest durable commit (R265). Reset: 0 -/
  epoch : BitVec 64 := 0#64
  /-- Records of the commits still to be programmed, in order; a vault page's commit has none (R265, R424). Reset: none -/
  jq : List (List JRec) := []
  /-- The newest durable commit, where its copy B has not programmed yet (R265). Reset: none -/
  copyB : Option Commit := none
  /-- Programs that were in progress when PWRFAIL_N fell and have not finished (R280). Reset: none -/
  inProgress : List FlashProg := []
  /-- Frames that hold the origin index of each object, by handle (R262). Reset: none -/
  index : NMap (List Nat) := []
  /-- Next object handle (R258). Reset: 1 -/
  nextHandle : Nat := 1
  /-- Blocks queued for refresh, with the cause (R273). Reset: none -/
  queue : List (Nat × RefreshWhy) := []
  /-- Blocks relocated because of an unreadable sector, to be read back (R277). Reset: none -/
  suspects : List Nat := []
  /-- Sectors found unreadable, by page key and codeword, until their block is erased (R259, R274). Reset: none -/
  unread : List Nat := []
  /-- The installation in progress (R270). Reset: none -/
  inst : Option Install := none
  /-- Entries given to the vault and not yet programmed (R279). Reset: none -/
  vaultBuf : List (BitVec 256) := []
  /-- Entries that a requested flush of the vault still covers (R279, R424). Reset: 0 -/
  vaultFlush : Nat := 0
  /-- Blocks whose read counts changed since the last READ_COUNTS (R266). Reset: none -/
  counted : List Nat := []
  /-- Moment of the last READ_COUNTS (R266). Reset: 0 -/
  countedAt : Nat := 0
  /-- Moment at which the patrol pass in progress began (R275). Reset: 0 -/
  patrolAt : Nat := 0
  /-- Pages that the pass has read, by pageKey (R275). Reset: none -/
  patrolled : List Nat := []
  /-- Lane marks still to be recorded, by channel (R205, R280). Reset: none -/
  marksDue : NMap Nat := []
  /-- Deletions waiting for OBJ_DELETE, with the commands to complete (R339). Reset: none -/
  deletes : List (Nat × List CmdRef) := []
  /-- The abort to complete when OBJ_ABORT is durable (R271, R339). Reset: none -/
  aborts : List (Nat × List CmdRef) := []
  deriving DecidableEq, Repr, Inhabited

end Sys2Proof.Machine
end

