-- ==== Sys2Proof/Machine/HostTypes.lean ====
section
/-! DEFINITION. The state of queues, staged commands, sessions, the prefill store and interrupts (chapter 13), as plain data. HQ and
PART registers lie in the register map of State. -/

namespace Sys2Proof.Machine

/-- A command fetched and not yet applied (R335): its queue, its 64 bytes, and the tokens that a PREFILL has read into the store (R346). -/
structure Staged where
  q      : Nat
  bytes  : BitVec 512
  tokens : List (BitVec 32) := []
  deriving DecidableEq, Repr

/-- A queue pair outside its registers. -/
structure QueueSt where
  /-- SQ_TAIL as last written (R334). Reset: 0 -/
  tail : Nat := 0
  /-- CQ_HEAD as last written (R334). Reset: 0 -/
  cqHead : Nat := 0
  /-- The CQ is on an odd pass: the next PHASE is 0 (R336). Reset: false -/
  odd : Bool := false
  /-- Completions that wait for a free CQ entry (R336). Reset: none -/
  blocked : List (BitVec 128) := []
  deriving DecidableEq, Repr, Inhabited

/-- States of a session (R343). -/
inductive SessState
  | idle | prefill | decode | parked
  deriving DecidableEq, Repr

/-- A PREFILL in progress: its command and the tokens still in the store (R346). -/
structure PrefillRun where
  cmd    : CmdRef
  tokens : List (BitVec 32)
  deriving DecidableEq, Repr

/-- A DECODE in progress or held behind a prefill (R343, R347). -/
structure DecodeRun where
  budget : Nat
  stop   : BitVec 32
  count  : Nat
  deriving DecidableEq, Repr

/-- MODE of a batch slot in the step (R344). -/
inductive SlotMode
  | decode | prefill | prefillLast
  deriving DecidableEq, Repr

/-- A slot's part in the step in progress (R344): first position, and the chunk. -/
structure SlotRun where
  mode     : SlotMode
  position : Nat
  chunk    : Nat
  deriving DecidableEq, Repr

/-- A session in use (R340, R343). -/
structure Session where
  part    : Nat
  state   : SessState
  slot    : Nat
  output  : Bool
  cache   : BitVec 16
  journal : BitVec 16
  maxPos  : BitVec 32
  invTemp : BitVec 16
  topP    : BitVec 16
  stream  : BitVec 16
  /-- position of the next token -/
  pos     : Nat
  /-- the last committed token -/
  lastTok : BitVec 32
  prefill : List PrefillRun
  dec     : Option DecodeRun
  /-- its part in the step in progress -/
  step    : Option SlotRun
  deriving DecidableEq, Repr

/-- A pending interrupt of a vector (R355): signals so far and the moment of the first. -/
structure Coal where
  count : Nat
  since : Nat
  deriving DecidableEq, Repr

/-- The host side of the device outside its registers. -/
structure HostSt where
  /-- Queue pairs by device number (R333). Reset: as QueueSt -/
  queues : NMap QueueSt := []
  /-- The queue the round robin serves next (R335). Reset: 0 -/
  turn : Nat := 0
  /-- Commands staged, in the order fetched (R335). Reset: none -/
  staged : List Staged := []
  /-- Sessions in use (R343). Reset: none, every session FREE -/
  sess : NMap Session := []
  /-- Sessions in the order of their PREFILL commands (R346). Reset: none -/
  prefillOrder : List Nat := []
  /-- Events dropped since the ring was full, by partition (R352). Reset: 0 -/
  lostEvents : NMap Nat := []
  /-- Signals pending under coalescing, by device vector (R355). Reset: none -/
  coal : NMap Coal := []
  /-- The MSI-X table by device vector: message address in bits 63 to 0, message data in bits 95 to 64, vector control in bits 127 to 96
  (R330, R449). Reset: every entry masked, its other bits 0, log entry 11 -/
  msix : NMap (BitVec 128) := []
  /-- The pending-bit array: messages that wait on a masked vector (R449). Reset: none -/
  pba : List Nat := []
  /-- Partitions whose sessions close at the next tick start (R332). Reset: none -/
  closing : List Nat := []
  /-- VFs enabled through SR-IOV (R329, R333). Reset: 0 -/
  numVfs : Nat := 0
  /-- Sessions in the step in progress had their slots sampled (R25). Reset: none -/
  stepParts : List Nat := []
  /-- Max Snoop Latency of the host's LTR capability, in µs (R356). Reset: none -/
  maxSnoop : Option Nat := none
  /-- LTR Mechanism Enable (R356, R407). Reset: false -/
  ltrEnable : Bool := false
  /-- The requirement of the last LTR message (R356). Reset: none -/
  ltrSent : Option Nat := none
  deriving DecidableEq, Repr, Inhabited

end Sys2Proof.Machine
end

