-- ==== Sys2Proof/Machine/LinkTypes.lean ====
section
/-! DEFINITION. The state of ports, of messages on their way, and of the device's ring and plane (chapters 11 and 12), as plain data.
LNK and TOPO registers lie in the register map of State. -/

namespace Sys2Proof.Machine

/-- A flit ready to be sent or held for replay (R287, R292): everything but the flow-control fields. -/
structure TxFlit where
  type    : Nat
  vc      : Nat
  last    : Bool
  seq     : BitVec 16
  payload : List Byte
  deriving DecidableEq, Repr

/-- A message queued on a port, with the flits still to be sent. -/
structure TxMsg where
  vc    : Nat
  flits : List TxFlit
  /-- all its flits, for a handback (R296) -/
  whole : List TxFlit
  deriving DecidableEq, Repr

/-- A tensor message held for the next tick or waiting for room (R303, R304): the port it came on, none for one of the device's own. -/
structure HeldMsg where
  port : Option PortId
  msg  : TensorMsg
  deriving DecidableEq, Repr

/-- A port outside its registers. -/
structure PortSt where
  /-- Sequence of the next sequenced flit (R290). Reset: 0 -/
  txNext : BitVec 16 := 0#16
  /-- Flits sent and not acknowledged, oldest first: the replay buffer (R292). Reset: none -/
  unacked : List TxFlit := []
  /-- Messages queued, oldest first (R294, R298). Reset: none -/
  queue : List TxMsg := []
  /-- Messages whose LAST flit has been sent and is not acknowledged (R296). Reset: none -/
  sent : List TxMsg := []
  /-- Replays in a row without ACK progress (R292). Reset: 0 -/
  replays : Nat := 0
  /-- Moment of the last ACK progress (R292). Reset: 0 -/
  progressAt : Nat := 0
  /-- Flits sent on each VC since training (R293). Reset: 0 -/
  sentVc : NMap Nat := []
  /-- Newest CR_COUNT received for each VC (R293). Reset: 0 -/
  credited : NMap Nat := []
  /-- Sequence expected next (R291). Reset: 0 -/
  rxNext : BitVec 16 := 0#16
  /-- A flit has been received in order since training (R287). Reset: false -/
  ackValid : Bool := false
  /-- Moment the outstanding NAK was sent (R291). Reset: none -/
  nakAt : Option Nat := none
  /-- Flits freed from each receive buffer since training (R287, R293). Reset: 0 -/
  freed : NMap Nat := []
  /-- VC whose count the next header carries (R293). Reset: 0 -/
  crTurn : Nat := 0
  /-- Payloads of the message being received on each VC (R296, R297). Reset: none -/
  asm : NMap (List (List Byte)) := []
  /-- Messages received whole and not yet handled: VC and bytes (R302, R303). Reset: none -/
  arrived : List (Nat × List Byte) := []
  /-- Messages in the VC 2 buffer that wait for the hold area, oldest first (R304). Reset: none -/
  blocked : List HeldMsg := []
  /-- Headers still to go out before the peer knows of every flit freed and received (R293). Reset: 0 -/
  owed : Nat := 0
  /-- Qualifying flits since ARM was written (R309). Reset: 0 -/
  injSeen : Nat := 0
  /-- The flit a SWAP holds back (R309). Reset: none -/
  swap : Option TxFlit := none
  /-- Moment its training began (R296). Reset: 0 -/
  trainAt : Nat := 0
  /-- What a port that trains anew, or is held down, still has to answer to the peer's handback record: the last sequence it received in order
  before it went down, and whether it is valid (R296). Reset: none -/
  record : Option (BitVec 16 × Bool) := none
  /-- Lanes agreed for a restripe (R295). Reset: none -/
  agreed : Option (BitVec 4) := none
  deriving DecidableEq, Repr, Inhabited

/-- The relinking of a span (R320). -/
structure Relink where
  lost  : Nat
  since : Nat
  /-- training has begun -/
  training : Bool
  deriving DecidableEq, Repr

/-- What leaves the device: a record of its outputs, newest last. -/
inductive OutEv
  /-- a flit on a port: what each of its lanes carries (R287, R289) -/
  | flit (port : Nat) (lanes : List (Nat × List Byte))
  /-- an MSI-X message: function and vector (R355), and the address and data of its table entry (R449) -/
  | msix (fn vector : Nat) (addr : BitVec 64) (data : BitVec 32)
  /-- an LTR message: the requirement in µs, or none (R356) -/
  | ltr (us : Option Nat)
  /-- a level of an output pin -/
  | pin (name : String) (low : Bool)
  /-- bytes returned on the I3C sideband (R429) -/
  | i3c (bytes : List Byte)
  /-- an I3C in-band interrupt with its mandatory byte and payload (R319, R429) -/
  | ibi (bytes : List Byte)
  /-- an object returned over DOE (R388) -/
  | doe (words : List (BitVec 32))
  deriving DecidableEq, Repr

/-- The links of the device outside their registers. -/
structure LinkSt where
  /-- Ports by number. Reset: as PortSt -/
  ports : NMap PortSt := []
  /-- The hold area: messages for the next tick, oldest first (R304). Reset: empty -/
  hold : List HeldMsg := []
  /-- Messages for a bundle with no port up (R296). Reset: none -/
  parked : List (Bundle × TxMsg) := []
  /-- Tensor messages on their way back to the device itself (R301). Reset: none -/
  loop : List TensorMsg := []
  /-- Spans being relinked, by bundle number (R320). Reset: none -/
  relinks : NMap Relink := []
  /-- Command and moment of each Agate switch: true to close (R314). Reset: none -/
  agate : NMap (Bool × Nat) := []
  /-- The device has left its tick group by a LEAVING message and not joined again: its reset input ignores reset requests (R325). Reset: false -/
  left : Bool := false
  /-- A LEAVE waits for the end of the step (R314). Reset: false -/
  leave : Bool := false
  deriving DecidableEq, Repr, Inhabited

end Sys2Proof.Machine
end

