-- ==== Sys2Proof/Machine/State.lean ====
section
/-! DEFINITION. The state of the block: plain data, every register of chapter 17's map in one register map, every counter in one
counter map, and beside them the buffers, queues, tables and memories that the spec gives the device. -/

namespace Sys2Proof.Machine

/-- What stops the block. -/
inductive Fault
  /-- Raised by BURST_READ, BURST_WRITE and SCRUB: a stack physical address beyond the die's capacity does not exist (R191). Safe. -/
  | stackAddress
  /-- Raised by BAR2_READ and BAR2_WRITE: a request longer than 4,096 B, which R448 does not accept. Safe. -/
  | bar2Length
  deriving DecidableEq, Repr

/-- What the model refuses. -/
inductive Refusal
  /-- Raised by exec for a command that has no meaning yet: its mnemonic. Safe. -/
  | notModelled (mnemonic : String)
  deriving DecidableEq, Repr

/-- A 48-bit counter with its SAT bit (R434). -/
structure Ctr where
  val : BitVec 48 := 0#48
  sat : Bool := false
  deriving DecidableEq, Repr, Inhabited

/-- The state. Each field's reset value stands with it; State.reset is the device right after a cold reset. -/
structure State where
  /-- Commands that wait, first in first out. Reset: none -/
  pending : List Instr := []
  /-- The model's clock: whole microseconds of the device's microsecond clock (R243, log entry 8). Reset: 0 -/
  now : Nat := 0
  /-- The model's own counter, from which each free value takes its tag (log entry 4). Reset: 0 -/
  free : Nat := 0
  /-- Registers by BAR0 word address, a word equal to its reset word left out (R11 to R17). Reset: none listed -/
  regs : NMap (BitVec 32) := []
  /-- The management path's copies of RC fields (R13). Reset: 0 -/
  rcMgmt : NMap (BitVec 32) := []
  /-- The 48-bit counters by the address of their low word (R434). Reset: 0 -/
  ctrs : NMap Ctr := []
  /-- High half and SAT latched by the host path's last read of a counter's low half (R434). Reset: 0 -/
  latchHost : NMap (BitVec 32) := []
  /-- The same of the management path (R434). Reset: 0 -/
  latchMgmt : NMap (BitVec 32) := []
  /-- Words still in force of registers whose change waits for the step's end (R24). Reset: none -/
  held : NMap (BitVec 32) := []
  /-- Words returned by the last read. Reset: none -/
  ret : List (BitVec 32) := []
  /-- Bytes returned by the last BAR2 read (R331). Reset: none -/
  retBytes : List Byte := []
  /-- The burst that BURST_READ returned carries a poison mark (R201). Reset: false -/
  retBad : Bool := false
  /-- Global cores. Reset: as CoreSt -/
  cores : NMap CoreSt := []
  /-- Global engines. Reset: as EngSt -/
  engs : NMap EngSt := []
  /-- Global clusters. Reset: as ClusterSt -/
  clusters : NMap ClusterSt := []
  /-- Signals, credit returns and verdicts on their way (R52, R150). Reset: none -/
  flights : List Flight := []
  /-- Fetches in flight, by core (R48). Reset: none -/
  fetches : NMap FetchRun := []
  /-- The Garnet tick unit (R30 to R41). Reset: as GarnetSt -/
  garnet : GarnetSt := {}
  /-- Marks of the step in progress (R156, R245 to R249). Reset: none -/
  marks : Marks := {}
  /-- The event that last reached the recorder's intake. Reset: none -/
  lastEvent : Option JReq := none
  /-- The event of the error that first caused an abandonment (R351). Reset: none -/
  abandonCause : Option JReq := none
  /-- The data of the twelve stacks by SPA (R191); channels read it through the burst code. Reset: 0, log entry 3 -/
  mem : Mem := []
  /-- Difference of a burst's stored check bytes from the check of its data, by SPA / 64 (R196, R201). Reset: 0 -/
  chk : NMap (BitVec 64) := []
  /-- Global channels (R190). Reset: as ChanSt -/
  chans : NMap ChanSt := []
  /-- Stacks (R190). Reset: as StackSt -/
  stackTab : NMap StackSt := []
  /-- Objects, directories, frames and moves (chapter 09). Reset: as PlaceSt -/
  place : PlaceSt := {}
  /-- Host memory, which the device reads and writes over PCIe (chapter 13). Reset: 0, log entry 3 -/
  host : Mem := []
  /-- Queues, sessions and interrupts (chapter 13). Reset: as HostSt -/
  hostq : HostSt := {}
  /-- Flash and Onyx (chapter 10). Reset: as FlashSt -/
  flash : FlashSt := {}
  /-- Ports, messages and the plane (chapters 11 and 12). Reset: as LinkSt -/
  link : LinkSt := {}
  /-- Start-up, identity and the mailbox (chapter 14). Reset: as BootSt -/
  boot : BootSt := {}
  /-- Power and sensors (chapter 15). Reset: as PowerSt -/
  power : PowerSt := {}
  /-- The recorder's intake queue of 64 entries (R421). Reset: empty -/
  intake : List JReq := []
  /-- The recorder (chapter 16). Reset: as JasperSt -/
  jsp : JasperSt := {}
  /-- What has left the device, oldest first: the model's own record (log entry 9). Reset: none -/
  outs : List OutEv := []
  deriving DecidableEq, Repr

/-- The device right after a cold reset: every register at the value of its table (R15), every memory and queue empty. -/
def State.reset : State := {}

end Sys2Proof.Machine
end

