-- ==== Sys2Proof/Machine/Ops.lean ====
section
/-! DEFINITION. Named operations over the state: registers and their fields (R11 to R17), 48-bit counters (R434), cores, engines and
clusters, and the recorder's intake queue (R421, R427). -/

namespace Sys2Proof.Machine

/-- `n` modulo the size of a finite index. -/
def finMod (k n : Nat) (h : 0 < k) : Fin k := ⟨n % k, Nat.mod_lt _ h⟩

/-! ### Registers -/

/-- The register word at word address `a`, as last written. -/
def State.rd (s : State) (a : Nat) : BitVec 32 := (NMap.find s.regs a).getD (resetWord a)

/-- The register word at `a` replaced. A word equal to its reset word is not listed. -/
def State.wr (s : State) (a : Nat) (v : BitVec 32) : State :=
  { s with regs := if v = resetWord a then NMap.del s.regs a else NMap.ins s.regs a v }

/-- A field, as last written. -/
def State.fld (s : State) (f : Fld) : Nat := bvGet f.lo f.w (s.rd f.addr)

/-- A field replaced by the low bits of `v`. -/
def State.setFld (s : State) (f : Fld) (v : Nat) : State := s.wr f.addr (bvSet f.lo f.w (s.rd f.addr) v)

/-- A 1-bit field set. -/
def State.raise (s : State) (f : Fld) : State := s.setFld f 1

/-- The word in force: the one kept from before a change that R24 holds until the step's end, else the word itself. -/
def State.rdForce (s : State) (a : Nat) : BitVec 32 := (NMap.find s.held a).getD (s.rd a)

/-- A field in force (R24). -/
def State.inForce (s : State) (f : Fld) : Nat := bvGet f.lo f.w (s.rdForce f.addr)

/-- The management path's copy of the RC fields of a register (R13). -/
def State.rdMgmt (s : State) (a : Nat) : BitVec 32 := (NMap.find s.rcMgmt a).getD 0#32

/-- Both copies of an RC field take an update (R13): each becomes the larger of itself and `v`. -/
def State.maxRc (s : State) (f : Fld) (v : Nat) : State :=
  let s1 := if v > s.fld f then s.setFld f v else s
  let m := s.rdMgmt f.addr
  if v > bvGet f.lo f.w m then { s1 with rcMgmt := NMap.set 0#32 s1.rcMgmt f.addr (bvSet f.lo f.w m v) } else s1

/-! ### Access through BAR0 -/

/-- BAR0 serves the register at `a`: from FIRMWARE on (R364); in RECOVERY and FAILED the identity and boot block, the recorder and the
mailbox alone (R367). -/
def State.serves (s : State) (a : Nat) : Bool :=
  let st := s.fld Fld.BOOT_STATE_STATE
  decide (2 ≤ st) && (decide (st < 7) || (match decodeBlk a with | some (.boot, _) | some (.jsp, _) | some (.sec, _) => true | _ => false))

/-- The management path serves the register at `a` (R367, R443): in RECOVERY and FAILED the same blocks as BAR0, before that every one. -/
def State.servesMgmt (s : State) (a : Nat) : Bool := decide (s.fld Fld.BOOT_STATE_STATE < 7) || s.serves a

/-- PCIe configuration requests are answered: from 100 ms on, or once start-up has ended (R364, R367). -/
def State.configUp (s : State) : Bool := s.boot.heldBy == [] && (s.boot.identified || decide (7 ≤ s.fld Fld.BOOT_STATE_STATE))

/-! ### Counters -/

/-- The counter whose low word lies at `a`. -/
def State.ctr (s : State) (a : Nat) : Ctr := NMap.get {} s.ctrs a

/-- A counter after `n` more: it stops at all-ones and sets SAT (R434). -/
def Ctr.plus (c : Ctr) (n : Nat) : Ctr :=
  if c.val.toNat + n < 2 ^ 48 then { c with val := BitVec.ofNat 48 (c.val.toNat + n) }
  else { val := BitVec.allOnes 48, sat := true }

/-- `n` more in the counter at `a`. -/
def State.count (s : State) (a n : Nat) : State := { s with ctrs := NMap.set {} s.ctrs a ((s.ctr a).plus n) }

/-! ### Cores, engines and clusters -/

/-- Core `c`. -/
def State.core (s : State) (c : Nat) : CoreSt := NMap.get {} s.cores c

/-- Core `c` replaced. -/
def State.setCore (s : State) (c : Nat) (x : CoreSt) : State := { s with cores := NMap.set {} s.cores c x }

/-- Core `c` changed. -/
def State.modCore (s : State) (c : Nat) (f : CoreSt → CoreSt) : State := s.setCore c (f (s.core c))

/-- Global engine `g`. -/
def State.eng (s : State) (g : Nat) : EngSt := NMap.get {} s.engs g

/-- Global engine `g` replaced. -/
def State.setEng (s : State) (g : Nat) (x : EngSt) : State := { s with engs := NMap.set {} s.engs g x }

/-- Global engine `g` changed. -/
def State.modEng (s : State) (g : Nat) (f : EngSt → EngSt) : State := s.setEng g (f (s.eng g))

/-- Global cluster `k`. -/
def State.cluster (s : State) (k : Nat) : ClusterSt := NMap.get {} s.clusters k

/-- Global cluster `k` replaced. -/
def State.setCluster (s : State) (k : Nat) (x : ClusterSt) : State := { s with clusters := NMap.set {} s.clusters k x }

/-- Global cluster `k` changed. -/
def State.modCluster (s : State) (k : Nat) (f : ClusterSt → ClusterSt) : State := s.setCluster k (f (s.cluster k))

/-- A run of states over a list. -/
def State.each {α : Type} (s : State) (xs : List α) (f : State → α → State) : State := xs.foldl f s

/-- `f` where `b` holds. -/
def State.when (s : State) (b : Bool) (f : State → State) : State := if b then f s else s

/-! ### The passing of time -/

/-- Global cluster of core `c` (R8). -/
def clusterOf (c : Nat) : Nat := c / 8
/-- Compute die of core `c` (R8). -/
def dieOf (c : Nat) : Nat := c / 128

/-- The states of GARNET.STATUS.STATE (R58). -/
def stDisabled : Nat := 0
/-- Step running. -/
def stRunning : Nat := 1
/-- Step done, waiting under R30. -/
def stDone : Nat := 2
/-- Abandoning. -/
def stAbandoning : Nat := 3

/-- GARNET.STATUS.STATE. -/
def State.tickState (s : State) : Nat := s.fld Fld.GARNET_STATUS_STATE

/-- A step is in progress (R31). -/
def State.inStep (s : State) : Bool := s.tickState == stRunning || s.tickState == stAbandoning

/-- ENABLE in force (R24, R36). -/
def State.ticking (s : State) : Bool := s.inForce Fld.GARNET_CTRL_ENABLE == 1

/-- A setting takes a value at once, whatever was held for it. -/
def State.forceFld (s : State) (f : Fld) (v : Nat) : State := { s.setFld f v with held := NMap.del s.held f.addr }

/-- Partition of a core (R43), in force. -/
def State.partOf (s : State) (c : Nat) : Nat := s.inForce (Fld.SEQ_PARTITION_PARTITION c)

/-- Tiers on which core `c` waits (R242): those of its fetch in flight, and those of the refetches that hold its ports. -/
def State.stalledOn (s : State) (c : Nat) : List Tier :=
  ((match NMap.find s.fetches c with | some f => f.tiles.flatMap fun t => t.tiers | none => []) ++
    (List.range 4).flatMap fun e => match (s.eng (4 * c + e)).hold with | some h => h.tiers | none => []).eraseDups

/-- A consumer of core `c` is held on a poisoned tile (R55, R245). -/
def State.heldPoison (s : State) (c : Nat) : Bool :=
  (List.range 4).any fun e => (s.eng (4 * c + e)).hold.any fun h => h.why == .poison

/-- Core `c`'s step is running: its program, or a re-run segment that it runs after its STEP_END (R153). -/
def State.coreRuns (s : State) (c : Nat) : Bool :=
  s.tickState == stRunning && (s.fld (Fld.SEQ_STATUS_RUNNING c) == 1 || (s.core c).seg.any fun g => !g.ended)

/-- The counter of a tier's stalls (R243). -/
def stallCtr (p : Nat) : Tier → Nat
  | .far => Ct.OBJ_STALL_FAR_US p
  | .host => Ct.OBJ_STALL_HOST_US p
  | .flash => Ct.OBJ_STALL_FLASH_US p

/-- What is left of a management core's watchdog (R433). -/
def wdogLeft (core : Fin 2) : Fld := if core = 0 then Fld.JSP_WDOG_STATUS_LEFT0_MS else Fld.JSP_WDOG_STATUS_LEFT1_MS

/-- `n` microseconds pass (log entry 8): stalls (R243), the hang counts (R55), throttling (R215), full hold areas (R304) and the watchdogs
(R433) move on by as much. -/
def State.pass (s : State) (n : Nat) : State :=
  if n = 0 then s
  else
    let run := (List.range 512).filter s.coreRuns
    let stalls := (run.flatMap fun c => (s.stalledOn c).map fun t => stallCtr (s.partOf c) t).eraseDups
    let ms := (s.now + n) / 1000 - s.now / 1000
    let s := { s with now := s.now + n }.each stalls fun s a => s.count a n
    let s := s.each run fun s c => if s.stalledOn c = [] ∧ !s.heldPoison c then s.modCore c fun x => { x with idleUs := x.idleUs + n } else s
    let s := s.each (List.range 12) fun s st => s.when (s.fld (Fld.STK_THERM_THROTTLE st) == 1) fun s => s.count (Ct.STK_THROTTLE_US st) n
    let s := s.each (List.range 16) fun s p => s.when (s.fld (Fld.LNK_STATUS_HOLD_FULL p) == 1) fun s => s.count (Ct.LNK_HOLD_FULL_US p) n
    s.when (ms != 0) fun s => s.each [wdogLeft 0, wdogLeft 1] fun s f => s.setFld f (s.fld f - ms)

/-- The model's clock moved on to moment `t`, if it is not there yet: the time between passes (log entry 8). -/
def State.clockTo (s : State) (t : Nat) : State := s.pass (t - s.now)

/-! ### Outputs, free values and the bridges -/

/-- What leaves the device is recorded (log entry 9). -/
def State.out (s : State) (e : OutEv) : State := { s with outs := s.outs ++ [e] }

/-- A fresh tag for a free value, and the state that has used it (log entry 4). -/
def State.fresh (s : State) : Nat × State := (s.free + 1, { s with free := s.free + 1 })

/-- `n` 4 KiB units cross from compute die `a` to compute die `b`, or back (R18, R444): nothing where they are one die, one bridge
between neighbours, and two bridges by way of CD(a+1 mod 4) between opposite dies. -/
def State.crossBridges (s : State) (a b n : Nat) : State :=
  let hop := fun (s : State) (x : Nat) =>
    (s.count (Ct.CDC_BRIDGE_NEXT_UNITS (x % 4)) n).count (Ct.CDC_BRIDGE_PREV_UNITS ((x + 1) % 4)) n
  if a = b then s
  else if (a + 1) % 4 = b then hop s a
  else if (b + 1) % 4 = a then hop s b
  else hop (hop s a) (a + 1)

/-! ### Jasper's intake -/

/-- An event given to the recorder (R421): it enters the intake queue, or is dropped and counted when 64 wait (R427). -/
def State.giveJasper (s : State) (e : JReq) : State :=
  let s := { s with lastEvent := some e }
  if s.intake.length < 64 then { s with intake := s.intake ++ [e] }
  else { s with jsp := { s.jsp with drops := s.jsp.drops + 1 } }.count Ct.JSP_INTAKE_DROPS 1

/-- An event of a unit kind. -/
def State.jasperK (s : State) (code : JCode) (kind unit d0 d1 : Nat) : State :=
  s.giveJasper { cls := code.cls, kind, code := code.code, unit, d0 := BitVec.ofNat 32 d0, d1 := BitVec.ofNat 32 d1 }

/-- An event that reaches software on no other path where `alone` holds (R431). -/
def State.jasperAlone (s : State) (code : JCode) (unit d0 d1 : Nat) (alone : Bool) : State :=
  s.giveJasper { cls := code.cls, kind := code.kind, code := code.code, unit, d0 := BitVec.ofNat 32 d0, d1 := BitVec.ofNat 32 d1, alone }

/-- An event of the code's own unit kind. -/
def State.jasper (s : State) (code : JCode) (unit d0 d1 : Nat) : State := s.jasperK code code.kind unit d0 d1

end Sys2Proof.Machine
end

