-- ==== Sys2Proof/Machine/HostMem.lean ====
section
/-! DEFINITION. What the device writes to host memory of its own accord: partition events (R351, R352), completions (R336) and MSI-X
messages (R355, R449), and the host page table (R353). -/

namespace Sys2Proof.Machine

/-! ### Vectors -/

/-- The function that owns device queue or vector `q`, 0 for the PF (R333): with VFs enabled the PF keeps 0 to 15 alone. -/
def State.ownerFn (s : State) (q : Nat) : Nat := if s.hostq.numVfs = 0 ∨ q < 16 then 0 else (q - 16) / 15 + 1

/-- Device queue or vector `q` belongs to an enabled VF. -/
def State.vfQueue (s : State) (q : Nat) : Bool := s.ownerFn q != 0 && decide (s.ownerFn q ≤ s.hostq.numVfs)

/-- Its number within that function (R333). -/
def State.withinFn (s : State) (q : Nat) : Nat := if s.ownerFn q = 0 then q else (q - 16) % 15

/-- `v` is a vector of function `fn` (R17, R330, R333). While VFs are enabled the PF's vectors are 0 to 15, as its queues are (log entry 71). -/
def State.vectorOk (s : State) (fn v : Nat) : Bool :=
  if fn ≠ 0 then decide (v < 15) else s.hostq.numVfs == 0 || decide (v < 16)

/-- The device vector that a ring of partition `p` names as `v`: within VF p + 1 while it is enabled, else within the PF (R333). -/
def State.ringVector (s : State) (p v : Nat) : Nat := if p < s.hostq.numVfs then 16 + 15 * p + v else v

/-- The MSI-X table entry of device vector `v` (R449). -/
def State.msixEntry (s : State) (v : Nat) : BitVec 128 := NMap.get (bvPut 96 0#128 true) s.hostq.msix v

/-- The MSI-X message of device vector `v`: sent, or pending while the vector is masked (R449). -/
def State.sendMsix (s : State) (v : Nat) : State :=
  let e := s.msixEntry v
  if bvBit 96 e then { s with hostq := { s.hostq with pba := addOnce s.hostq.pba v } }
  else { s with outs := s.outs ++ [.msix (s.ownerFn v) (s.withinFn v) (e.extractLsb' 0 64) (e.extractLsb' 64 32)] }

/-- A signal on device vector `v`, held back until COUNT are pending or TIME_US has passed since the first (R355). -/
def State.signalVector (s : State) (v : Nat) : State :=
  let c := NMap.find s.hostq.coal v
  let n := (c.map Coal.count).getD 0 + 1
  if s.fld (Fld.HQ_COALESCE_TIME_US v) = 0 ∨ s.fld (Fld.HQ_COALESCE_COUNT v) ≤ n then
    { s with hostq := { s.hostq with coal := NMap.del s.hostq.coal v } }.sendMsix v
  else { s with hostq := { s.hostq with coal := NMap.ins s.hostq.coal v ⟨n, (c.map Coal.since).getD s.now⟩ } }

/-! ### Rings -/

/-- A 64-bit address from its two register words. -/
def State.addr64 (s : State) (lo hi : Nat) : Nat := (s.rdForce lo).toNat + 2 ^ 32 * (s.rdForce hi).toNat

/-- Bytes written to host memory; addresses have 64 bits. -/
def State.hostWrite (s : State) (a : Nat) (bs : List Byte) : State := { s with host := s.host.wrBlk (a % 2 ^ 64) bs }

/-- Free entries of a ring of 2^log entries with 32-bit indices that wrap (R348, R349, R351). -/
def ringFree (log prod cons : Nat) : Nat := 2 ^ log - (prod + 2 ^ 32 - cons) % 2 ^ 32

/-- Free entries of partition `p`'s event ring. -/
def State.evtFree (s : State) (p : Nat) : Nat :=
  ringFree (s.inForce (Fld.PARTN_EVT_CFG_LOG2 p)) (s.fld (Fld.PARTN_EVT_PROD_PROD p)) (s.fld (Fld.PARTN_EVT_CONS_CONS p))

/-- The 64 bytes of an event (R351). -/
def eventBytes (type part tick object session detail : Nat) (payload : List Byte) : List Byte :=
  leBytes 4 (type + 256 * part) ++ leBytes 4 tick ++ leBytes 4 (object + 65536 * session) ++ leBytes 4 detail ++
    (payload ++ List.replicate 32 0#8).take 32 ++ List.replicate 16 0#8

/-- An event written to partition `p`'s ring: the entry, the producer index in its register and in host memory, and the signal of its
vector (R351, R355). -/
def State.writeEvent (s : State) (p : Nat) (bs : List Byte) : State :=
  let prod := s.fld (Fld.PARTN_EVT_PROD_PROD p)
  let size := 2 ^ s.inForce (Fld.PARTN_EVT_CFG_LOG2 p)
  let s := s.hostWrite (s.addr64 (Rg.PARTN_EVT_BASE_LO p) (Rg.PARTN_EVT_BASE_HI p) + prod % size * 64) bs
  let s := s.setFld (Fld.PARTN_EVT_PROD_PROD p) (prod + 1)
  let s := s.hostWrite (s.addr64 (Rg.PARTN_EVT_PI_LO p) (Rg.PARTN_EVT_PI_HI p)) (leBytes 4 ((prod + 1) % 2 ^ 32))
  s.when (s.inForce (Fld.PARTN_EVT_CFG_IRQ_EN p) == 1) fun s => s.signalVector (s.ringVector p (s.inForce (Fld.PARTN_EVT_CFG_VECTOR p)))

/-- An event for partition `p` (R351, R352): written while more than the last entry is free, else dropped and counted. A partition that
uses no event ring receives nothing. -/
def State.postEvent (s : State) (p type object session detail : Nat) (payload : List Byte) : State :=
  if s.inForce (Fld.PARTN_EVT_CFG_ENABLE p) = 0 then s
  else if s.evtFree p ≤ 1 then
    let s := (s.count (Ct.PARTN_EVENTS_LOST p) 1).raise (Fld.PARTN_STATUS_EVENTS_LOST p)
    { s with hostq := { s.hostq with lostEvents := NMap.set 0 s.hostq.lostEvents p (NMap.get 0 s.hostq.lostEvents p + 1) } }
  else s.writeEvent p (eventBytes type p (s.rd Rg.GARNET_TICK).toNat object session detail payload)

/-- Enabled partitions (R329). -/
def State.enabledParts (s : State) : List Nat := (List.range 16).filter fun p => s.inForce (Fld.PARTN_CTRL_ENABLE p) == 1

/-- An event for every enabled partition. -/
def State.postAll (s : State) (type object session detail : Nat) (payload : List Byte) : State :=
  s.each s.enabledParts fun s p => s.postEvent p type object session detail payload

/-! ### Completions -/

/-- A queue pair. -/
def State.queue (s : State) (q : Nat) : QueueSt := NMap.get {} s.hostq.queues q

/-- A queue pair changed. -/
def State.modQueue (s : State) (q : Nat) (f : QueueSt → QueueSt) : State :=
  { s with hostq := { s.hostq with queues := NMap.set {} s.hostq.queues q (f (s.queue q)) } }

/-- The CQ has a free entry: one entry is always left free, so that a full queue differs from an empty one (log entry 12). -/
def State.cqRoom (s : State) (q : Nat) : Bool :=
  (s.fld (Fld.HQ_Q_HEADS_CQ_TAIL q) + 1) % 2 ^ s.fld (Fld.HQ_Q_CFG_CQ_LOG2 q) != (s.queue q).cqHead

/-- A completion entry written to a CQ with room (R336). SQ_HEAD and PHASE are those of the moment. -/
def State.putCompletion (s : State) (q : Nat) (e : BitVec 128) : State :=
  let tail := s.fld (Fld.HQ_Q_HEADS_CQ_TAIL q)
  let size := 2 ^ s.fld (Fld.HQ_Q_CFG_CQ_LOG2 q)
  let e := bvSet 32 16 e (s.fld (Fld.HQ_Q_HEADS_SQ_HEAD q))
  let e := bvPut 48 e !(s.queue q).odd
  let s := s.hostWrite (s.addr64 (Rg.HQ_CQ_BASE_LO q) (Rg.HQ_CQ_BASE_HI q) + 16 * tail) (leBytes 16 e.toNat)
  let s := s.setFld (Fld.HQ_Q_HEADS_CQ_TAIL q) ((tail + 1) % size)
  let s := s.when (tail + 1 == size) fun s => s.modQueue q fun x => { x with odd := !x.odd }
  let s := s.count Ct.HQ_COMMANDS 1
  s.when (s.fld (Fld.HQ_Q_CFG_IRQ_EN q) == 1) fun s =>
    let v := s.fld (Fld.HQ_Q_CFG_VECTOR q)
    s.signalVector (if s.ownerFn q = 0 then v else 16 + 15 * (s.ownerFn q - 1) + v)

/-- Completion statuses of R342. -/
inductive Status
  | success | invalidOpcode | invalidField | partition | sessionState | objectState | noSpace | hostAccess | late | aborted | busy | readOnly
  deriving DecidableEq, Repr

/-- The STATUS code (R342). -/
def Status.code : Status → Nat
  | .success => 0x00
  | .invalidOpcode => 0x01
  | .invalidField => 0x02
  | .partition => 0x03
  | .sessionState => 0x04
  | .objectState => 0x05
  | .noSpace => 0x06
  | .hostAccess => 0x07
  | .late => 0x08
  | .aborted => 0x09
  | .busy => 0x0A
  | .readOnly => 0x0B

/-- A command completes on its queue: the entry is written, or waits for a free entry (R336). A queue that is not enabled writes none. -/
def State.completeCmd (s : State) (c : CmdRef) (st : Status) (result : Nat) : State :=
  if s.fld (Fld.HQ_Q_CFG_ENABLE c.q) = 0 then s
  else
    let e : BitVec 128 := BitVec.ofNat 128 (c.cid.toNat + 2 ^ 16 * (s.withinFn c.q) + 2 ^ 24 * st.code + 2 ^ 64 * (result % 2 ^ 32) + 2 ^ 96 * c.tick.toNat)
    if (s.queue c.q).blocked = [] ∧ s.cqRoom c.q then s.putCompletion c.q e
    else s.modQueue c.q fun x => { x with blocked := x.blocked ++ [e] }

/-- Completions that waited are written while the CQ has room (R336); `n` bounds them. -/
def State.drainCq (s : State) (q : Nat) : Nat → State
  | 0 => s
  | n + 1 =>
    match (s.queue q).blocked with
    | [] => s
    | e :: rest => if s.cqRoom q then ((s.modQueue q fun x => { x with blocked := rest }).putCompletion q e).drainCq q n else s

/-! ### The host page table -/

/-- HOST_PAGE of entry `i` of partition `p`'s table (R353). -/
def pageId (p i : Nat) : Nat := p * 2 ^ 28 + i
/-- Partition of a HOST_PAGE. -/
def pagePart (pg : Nat) : Nat := pg / 2 ^ 28
/-- Entry index of a HOST_PAGE. -/
def pageIdx (pg : Nat) : Nat := pg % 2 ^ 28

/-- The 8-byte table entry of a page. -/
def State.hptEntry (s : State) (pg : Nat) : Nat :=
  s.host.rdLe (s.addr64 (Rg.PARTN_HPT_BASE_LO (pagePart pg)) (Rg.PARTN_HPT_BASE_HI (pagePart pg)) + 8 * pageIdx pg) 8

/-- The page is registered: below HPT_COUNT, and VALID (R353). -/
def State.pageOk (s : State) (pg : Nat) : Bool :=
  decide (pageIdx pg < s.inForce (Fld.PARTN_HPT_COUNT_COUNT (pagePart pg))) && s.hptEntry pg % 2 == 1

/-- Host address of a page. -/
def State.pageAddr (s : State) (pg : Nat) : Nat := s.hptEntry pg / 65536 * 65536

/-- Indices of the table entries of partition `p` whose VALID is 1, below `n`, found in host memory: only entries with a non-zero byte 0
can be valid. -/
def State.validPages (s : State) (p n : Nat) : List Nat :=
  let base := s.addr64 (Rg.PARTN_HPT_BASE_LO p) (Rg.PARTN_HPT_BASE_HI p)
  (s.host.filter fun c => decide (base ≤ c.1) && decide (c.1 < base + 8 * n) && (c.1 - base) % 8 == 0 && c.2.getLsbD 0).map
    fun c => pageId p ((c.1 - base) / 8)

/-- Registered pages of partition `p` in order of their index; while the device ticks, those of the last tick start (R353, R354). -/
def State.usablePages (s : State) (p : Nat) : List Nat :=
  let l := s.validPages p (s.inForce (Fld.PARTN_HPT_COUNT_COUNT p))
  if s.ticking then l.filter s.place.usable.contains else l

/-- The page is one that SHRINK_HOST_PAGES is about to remove (R354). -/
def State.shrinksAway (s : State) (pg : Nat) : Bool :=
  s.place.jobs.any fun j => j.shrink.any fun x => pagePart pg == x.1 && decide (x.2 ≤ pageIdx pg)

/-- Registered pages of partition `p` in which no tile is homed or to be homed (R353, R354), in order of their index. -/
def State.freePages (s : State) (p : Nat) : List Nat :=
  (s.usablePages p).filter fun pg => !s.place.pages.contains pg && !s.shrinksAway pg

/-- OBJ.HOST_PAGES_FREE follows the tables and the tiles' homes: registered pages in which no tile is homed (R252, R353). -/
def State.recountPages (s : State) : State :=
  let homes := (s.place.dir.filter fun p => p.2.home == .host).map fun p => p.2.page
  s.setFld Fld.OBJ_HOST_PAGES_FREE_PAGES (((List.range 16).map fun p =>
    ((s.usablePages p).filter fun pg => !homes.contains pg).length).sum)

/-- The pages registered now are those in use until the next tick start (R354). -/
def State.takePages (s : State) : State :=
  let now := (List.range 16).flatMap fun p => s.validPages p (s.inForce (Fld.PARTN_HPT_COUNT_COUNT p))
  { s with place := { s.place with usable := now } }.recountPages

/-! ### Settings that wait (R24) -/

/-- Registers whose change waits for the next tick start: regulator settings and cluster frequencies (R23, R402) and, while the device ticks
(`on`), the settings of cores, engines and guards (R59, R114, R141, R162), of the object table (R252) and of the partitions (R360). -/
def toTickIf (on : Bool) (a : Nat) : Bool :=
  match decodeBlk a with
  | some (.stk, _) => true
  | some (.pwr, _) => decide (0x10040 ≤ a) && decide (a < 0x10060)
  | some (.seqGrid, _) | some (.eng, _) | some (.vec, _) | some (.guard, _) | some (.obj, _) | some (.part, _) => on
  | some (.partp, b) => on && a != b
  | _ => false

/-- A ring that comes into use starts with its producer index at 0 (R360). -/
def State.startRing (s : State) (enable : Fld) (prod : Fld) (was : Bool) : State :=
  s.when (!was && s.inForce enable == 1) fun s => s.setFld prod 0

/-- Words held come into force, but for those that `keep` names (R24). -/
def State.releaseHeld (s : State) (keep : Nat → Bool) : State :=
  let t := { s with held := s.held.filter fun p => keep p.1 }
  (t.each (List.range 16) fun t p =>
    (t.startRing (Fld.PARTN_OUT_CFG_ENABLE p) (Fld.PARTN_OUT_PROD_PROD p) (s.inForce (Fld.PARTN_OUT_CFG_ENABLE p) == 1)).startRing
      (Fld.PARTN_EVT_CFG_ENABLE p) (Fld.PARTN_EVT_PROD_PROD p) (s.inForce (Fld.PARTN_EVT_CFG_ENABLE p) == 1)).recountPages

/-- A HOST_READ_FAILED event and its count (R353) for a tile of an object of partition `p`. -/
def State.hostTileFailed (s : State) (p o t : Nat) : State :=
  let s := s.count (Ct.PARTN_HOST_READ_ERRORS p) 1
  let s := s.jasper .hostReadFailed p o t
  s.postEvent p 0x0B o 0xFFFF t []

end Sys2Proof.Machine
end

