-- ==== Sys2Proof/Machine/FlashOps.lean ====
section
/-! DEFINITION. What stands in the NAND (chapter 10): codewords with their metadata (R256, R258) and how they read (R259), blocks in and out of service (R273, R276
to R278), the pages and sets of the system area (R263), Onyx's tables and the registers that follow them (R266, R283), anchors (R264), the bytes of commits (R265, R266), and the vault's entries (R279). -/

namespace Sys2Proof

/-- Λ: lanes of the population (R260). -/
def FlashGeom.lanes (g : FlashGeom) : Nat := 16 * g.planes.val * g.luns.val * g.targets.val
/-- S: sectors of a band (R260). -/
def FlashGeom.bandSectors (g : FlashGeom) : Nat := 4 * g.lanes * g.pages.val
end Sys2Proof

namespace Sys2Proof.Machine

/-- CRC-32C of bytes (R256). -/
def crc32c (bs : List Byte) : BitVec 32 := crcOf 0x82F63B78#32 bs

/-- Flash channel of a lane (R260). -/
def laneChan (lane : Nat) : Nat := lane % 16

/-- The population found, or none. -/
def State.geom (s : State) : FlashGeom := s.flash.geom.getD ⟨0, 0, 0, 0, 0#20, false⟩

/-- Flash state changed. -/
def State.modFlash (s : State) (f : FlashSt → FlashSt) : State := { s with flash := f s.flash }

/-- Onyx's tables changed. -/
def State.modImg (s : State) (f : OnyxImg → OnyxImg) : State := s.modFlash fun x => { x with img := f x.img }

/-- A block's state and counts. -/
def OnyxImg.block (x : OnyxImg) (k : Nat) : BlockInfo := NMap.get x.blank x.blocks k

/-- A block changed. -/
def OnyxImg.modBlock (x : OnyxImg) (k : Nat) (f : BlockInfo → BlockInfo) : OnyxImg :=
  { x with blocks := NMap.set x.blank x.blocks k (f (x.block k)) }

/-! ### Codewords (R256, R258) -/

/-- The codeword of sector `sector` of a handle. -/
def mkCodeWord (handle sector : Nat) (epoch : BitVec 64) (data : List Byte) : CodeWord :=
  let d := (data ++ List.replicate (4096 - data.length) 0#8).take 4096
  ⟨Mem.ofBytes d, BitVec.ofNat 32 handle, BitVec.ofNat 32 sector, epoch.setWidth 32, crc32c d⟩

/-- A codeword is what was asked for: HANDLE, SECTOR and CRC agree (R258). -/
def CodeWord.ok (c : CodeWord) (handle sector : Nat) : Bool :=
  c.handle.toNat == handle && c.sector.toNat == sector && c.crc == crc32c (c.data.rdBlk 0 4096)

/-- HANDLE of anchors. -/
def anchorHandle : Nat := 0xFFFFFF00
/-- HANDLE of the journal. -/
def journalHandle : Nat := 0xFFFFFF01
/-- HANDLE of checkpoints. -/
def ckptHandle : Nat := 0xFFFFFF02
/-- HANDLE of the Jasper vault. -/
def vaultHandle : Nat := 0xFFFFFF03
/-- HANDLE of an origin index. -/
def indexHandle : Nat := 0xFFFFFF04
/-- HANDLE of a sector known unreadable when it was relocated. -/
def lostHandle : Nat := 0xFFFFFFFE

/-! ### Pages of the system area (R263) -/

/-- HANDLE of a page's body (R258). -/
def SysBody.handle : SysBody → Nat
  | .anchor _ => anchorHandle
  | .commit _ => journalHandle
  | .ckpt _ _ _ => ckptHandle
  | .vault _ => vaultHandle

/-- The first sequence of each of a vault page's sectors (R279). -/
def vaultSectors (es : List (BitVec 256)) : List Nat := (List.range 4).map fun k => bvGet 0 32 (es.getD (128 * k) 0#256)

/-- SECTOR of codeword `k` of a page of the system area: the vault's own (R279), else its place in the block (log entry 79). -/
def SysBody.sector (b : SysBody) (page k : Nat) : Nat :=
  match b with
  | .vault es => (vaultSectors es).getD k 0
  | _ => 4 * page + k

/-- A page of the system area. -/
def sysPage (b : SysBody) (page : Nat) (epoch : BitVec 64) (data : List Byte) (seq : Nat) : SysPage :=
  ⟨(List.range 4).map fun k => mkCodeWord b.handle (b.sector page k) epoch ((data.drop (4096 * k)).take 4096), b, seq⟩

/-- What a page of the system area says, where it decodes and is what was asked for (R258): `spoilt` lists pages that do not decode, beside those
found unreadable. -/
def FlashSt.readSys (x : FlashSt) (spoilt : List Nat) (key : Nat) : Option SysBody :=
  if spoilt.contains key || x.unread.any (fun u => u / 4 == key) then none
  else match NMap.find x.sys key with
    | none => none
    | some p =>
      if p.cws.length == 4 && p.cws.zipIdx.all fun c => c.1.ok p.body.handle (p.body.sector (key % 2 ^ 12) c.2) then some p.body else none

/-- Pages programmed in a block of the system area: they are programmed in order. -/
def FlashSt.sysNext (x : FlashSt) (lane block : Nat) : Nat := (x.sys.filter fun p => p.1 / 2 ^ 12 == blockKey lane block).length

/-- A page of the system area programmed. -/
def State.putSys (s : State) (lane block page : Nat) (b : SysBody) (epoch : BitVec 64) (data : List Byte) : State :=
  (s.count (Ct.FCH_PROGRAMS (laneChan lane)) 1).modFlash fun x =>
    { x with sys := NMap.ins x.sys (pageKey lane block page) (sysPage b page epoch data x.sysSeq), sysSeq := x.sysSeq + 1 }

/-- The block of lane `lane` in a set (R263). -/
def FlashSt.setBlock (x : FlashSt) (set lane : Nat) : Nat := (x.sets.getD set []).getD lane 0

/-- Lane and page of the n-th page of a set, which is written page by page across its 16 lanes (R263). -/
def setPlace (n : Nat) : Nat × Nat := (n % 16, n / 16)

/-- Pages of a block, as far as discovery has told: at least 256 (R254). -/
def State.blockSize (s : State) : Nat := max 256 s.geom.pages.val

/-! ### Anchors (R264) -/

/-- Sector 0 of an anchor page (R264). CKPT_SET and JOURNAL hold the set in bits [31:16] and the page in bits [15:0] (log entry 79). -/
def Anchor.bytes (a : Anchor) : List Byte :=
  leBytes 8 a.version.toNat ++ leBytes 8 a.epoch.toNat ++ leBytes 4 (2 ^ 16 * a.ckpt.1 + a.ckpt.2) ++
    leBytes 4 (2 ^ 16 * a.jour.1 + a.jour.2) ++ leBytes 4 a.nextHandle ++ List.replicate 36 0#8 ++
    (List.range 1536).map fun g => BitVec.ofNat 8 (NMap.get 0 a.marks g)

/-- Anchor pages of blocks 0 and 1 of lanes 0 to 3 that decode, with their order of programming. -/
def FlashSt.anchors (x : FlashSt) (spoilt : List Nat) : List (Nat × Nat × Anchor) :=
  (x.sys.filter fun p => decide (p.1 / 2 ^ 32 < 4) && decide (p.1 / 2 ^ 12 % 2 ^ 20 < 2)).filterMap fun p =>
    match x.readSys spoilt p.1 with
    | some (.anchor a) => some (p.1, p.2.seq, a)
    | _ => none

/-- The anchor: of the valid copies the one of highest EPOCH, a tie going to the later write; another VERSION is no anchor (R264). -/
def FlashSt.anchorOf (x : FlashSt) (spoilt : List Nat) : Option Anchor :=
  ((x.anchors spoilt).foldl (fun (b : Option (Nat × Anchor)) p =>
    if p.2.2.version ≠ 1#16 then b
    else match b with
      | none => some p.2
      | some q => if q.2.epoch < p.2.2.epoch ∨ (q.2.epoch = p.2.2.epoch ∧ q.1 < p.2.1) then some p.2 else some q) none).map Prod.snd

/-- The anchor in force. -/
def FlashSt.anchor (x : FlashSt) : Option Anchor := x.anchorOf []

/-- Where the next anchor page goes: its block and page, and whether the block is erased first (R264). -/
def FlashSt.anchorNext (x : FlashSt) (pages : Nat) : Nat × Nat × Bool :=
  match (x.anchors []).foldl (fun (b : Option (Nat × Nat)) p => match b with
      | none => some (p.1, p.2.1)
      | some q => if q.2 < p.2.1 then some (p.1, p.2.1) else some q) none with
  | none => (0, 0, false)
  | some q =>
    let block := q.1 / 2 ^ 12 % 2 ^ 20
    let page := q.1 % 2 ^ 12
    if page + 1 < pages then (block, page + 1, false) else (1 - block, 0, true)

/-! ### Object table entries (R225) -/

/-- STATE code (R226). -/
def ObjState.num : ObjState → Nat
  | .free => 0
  | .installing => 1
  | .live => 2
  | .quarantined => 3
  | .deleting => 4

/-- KIND code (R226). -/
def ObjKind.num : ObjKind → Nat
  | .weights => 0
  | .cache => 1
  | .session => 2
  | .journal => 3
  | .work => 4
  | .code => 5

/-- POLICY code (R226). -/
def Policy.num : Policy → Nat
  | .pinned => 0
  | .resident => 1
  | .host => 2
  | .stream => 3

/-- The SESSION field of an entry: 0xFFFF for kinds other than CACHE and SESSION (R225). That of a JOURNAL object is kept beside it, for OPEN_SESSION to
match (R340, log entry 47). -/
def Obj.sessionField (x : Obj) : BitVec 16 := if x.kind = .cache ∨ x.kind = .session then x.session else 0xFFFF#16

/-- The eight words of an object table entry (R225). -/
def Obj.entry (x : Obj) : List Byte :=
  leBytes 4 (1 + 2 * x.state.num + 16 * x.kind.num + 2 ^ 8 * x.part + 2 ^ 12 * x.policy.num + 2 ^ 16 * x.cls + 2 ^ 20 * x.salt.toNat) ++
    leBytes 4 x.base ++ leBytes 4 (x.size + 2 ^ 23 * x.placeDie) ++ leBytes 4 (x.share.toNat + 2 ^ 16 * x.sessionField.toNat) ++
    leBytes 4 x.age.toNat ++ leBytes 4 x.origin.toNat ++ leBytes 4 x.resident ++ leBytes 4 (x.dirFrames.headD 0)

/-! ### The bytes of a commit (R265, R266) -/

/-- Type of a record (R266). -/
def JRec.type : JRec → Nat
  | .objBegin _ _ => 1
  | .table _ _ => 2
  | .objCommit _ _ _ _ _ => 3
  | .objAbort _ => 4
  | .objDelete _ => 5
  | .objMove _ _ => 6
  | .bandAlloc _ _ => 7
  | .bandMember _ _ _ => 8
  | .bandFree _ => 9
  | .blockRetire _ _ _ => 10
  | .readCounts _ => 11
  | .checkpoint _ _ _ => 12
  | .unused t => t.toNat

/-- Cause of a retirement (R266). -/
def RetireWhy.code : RetireWhy → Nat
  | .factory => 0
  | .program => 1
  | .erase => 2
  | .wear => 3
  | .readback => 4

/-- Contents of a record (R266), in the order in which the rule lists them; the widths are the model's own (log entry 79). OBJ_BEGIN holds the
entry of R225 with the fields that it leaves out at 0, and TABLE the record of R168. -/
def JRec.contents : JRec → List Byte
  | .objBegin h o => leBytes 4 h ++ leBytes 2 o.index ++ Obj.entry { o.ent with age := 0#32, resident := 0, dirFrames := [] } ++ [o.ent.salt] ++
      leBytes 1 (o.fmt + 16 * o.group)
  | .table i t => leBytes 128 t.lens.toNat ++ leBytes 4 (i + 64 * t.gen) ++ List.replicate 124 0#8
  | .objCommit h b n t refs => leBytes 4 h ++ leBytes 8 b ++ leBytes 4 n ++ leBytes 4 t ++ refs.flatMap fun r => leBytes 1 r.1 ++ leBytes 4 r.2
  | .objAbort h => leBytes 4 h
  | .objDelete h => leBytes 4 h
  | .objMove h b => leBytes 4 h ++ leBytes 8 b
  | .bandAlloc b l => leBytes 4 b ++ l.flatMap (leBytes 4)
  | .bandMember b l k => leBytes 4 b ++ leBytes 2 l ++ leBytes 4 k
  | .bandFree b => leBytes 4 b
  | .blockRetire l b w => leBytes 2 l ++ leBytes 4 b ++ leBytes 1 w.code
  | .readCounts l => l.flatMap fun p => leBytes 4 p.1 ++ leBytes 4 p.2.toNat
  | .checkpoint s p n => leBytes 2 s ++ leBytes 2 p ++ leBytes 4 n
  | .unused _ => []

/-- A record: its 16-bit type, its 16-bit length, its contents (R265). -/
def JRec.bytes (r : JRec) : List Byte := leBytes 2 r.type ++ leBytes 2 (4 + r.contents.length) ++ r.contents

/-- Bytes of records. -/
def recsBytes (rs : List JRec) : List Byte := rs.flatMap JRec.bytes

/-- The 32-byte header of a commit (R265). -/
def commitHeader (epoch : BitVec 64) (records bytes : BitVec 16) (crc : BitVec 32) : List Byte :=
  leBytes 8 epoch.toNat ++ leBytes 2 records.toNat ++ leBytes 2 bytes.toNat ++ leBytes 4 crc.toNat ++ List.replicate 16 0#8

/-- The commit of records at an epoch (R265). -/
def mkCommit (epoch : BitVec 64) (rs : List JRec) : Commit :=
  let body := recsBytes rs
  let n := BitVec.ofNat 16 rs.length
  let b := BitVec.ofNat 16 (32 + body.length)
  ⟨epoch, n, b, crc32c (commitHeader epoch n b 0#32 ++ body), rs⟩

/-- The bytes of a commit. -/
def Commit.data (c : Commit) : List Byte := commitHeader c.epoch c.records c.bytes c.crc ++ recsBytes c.recs

/-- A commit decodes: its counts and CRC agree, and every record has a type in use (R265, R266). -/
def Commit.ok (c : Commit) : Bool :=
  decide (mkCommit c.epoch c.recs = c) && c.recs.all fun r => match r with | .unused _ => false | _ => true

/-- READ_COUNTS in pieces that fit a page. -/
def splitCounts : Nat → List (Nat × BitVec 32) → List JRec
  | 0, _ => []
  | n + 1, l => if l.isEmpty then [] else .readCounts (l.take 2000) :: splitCounts n (l.drop 2000)

/-- Records that fit one page behind its header, in commits one after another (R265). -/
def packRecs (rs : List JRec) : List (List JRec) :=
  let out := (rs.flatMap fun r => match r with | .readCounts l => splitCounts (l.length + 1) l | r => [r]).foldl
    (fun (acc : List (List JRec) × List JRec × Nat) r =>
      let n := r.bytes.length
      if acc.2.2 + n ≤ 16384 then (acc.1, acc.2.1 ++ [r], acc.2.2 + n) else (acc.1 ++ [acc.2.1], [r], 32 + n)) ([], [], 32)
  out.1 ++ [out.2.1]

/-! ### Blocks -/

/-- Listed blocks of a lane: index and state. -/
def OnyxImg.laneBlocks (x : OnyxImg) (lane : Nat) : List (Nat × BlockInfo) :=
  (x.blocks.filter fun p => p.1 / 2 ^ 20 == lane).map fun p => (p.1 % 2 ^ 20, p.2)

/-- Blocks of a lane whose use is in `f`; those that are not listed are as the table's blank entry says. -/
def State.laneCount (s : State) (lane : Nat) (f : BlockUse → Bool) : Nat :=
  let l := s.flash.img.laneBlocks lane
  (l.filter fun p => f p.2.use).length + (if f s.flash.img.blank.use then s.geom.blocks.toNat - l.length else 0)

/-- Blocks of a lane that are free. -/
def State.laneFree (s : State) (lane : Nat) : Nat := s.laneCount lane fun u => u == .free

/-- Good blocks of a lane: those not retired. -/
def State.laneGood (s : State) (lane : Nat) : Nat := s.laneCount lane fun u => u != .retired

/-- The lowest number not in a rising list. -/
def firstGap (l : List Nat) : Nat := l.foldl (fun k x => if x = k then k + 1 else k) 0

/-- The free block of a lane that is best by `better` on erase counts, the lower index winning ties (R276). -/
def State.pickBlock (s : State) (lane : Nat) (better : Nat → Nat → Bool) : Option Nat :=
  let l := s.flash.img.laneBlocks lane
  let fresh := firstGap (l.map (·.1))
  let free := ((l.filter fun p => p.2.use == .free).map fun p => (p.2.erases, p.1)) ++
    if fresh < s.geom.blocks.toNat ∧ s.flash.img.blank.use = .free then [(s.flash.img.blank.erases, fresh)] else []
  (free.foldl (fun (acc : Option (Nat × Nat)) p => match acc with
    | none => some p
    | some b => if better p.1 b.1 || (p.1 == b.1 && decide (p.2 < b.2)) then some p else some b) none).map (·.2)

/-- The free block of least erase count in a lane (R274, R276). -/
def State.freeBlock (s : State) (lane : Nat) : Option Nat := s.pickBlock lane fun a b => decide (a < b)

/-- The free block of highest erase count (R276). -/
def State.wornBlock (s : State) (lane : Nat) : Option Nat := s.pickBlock lane fun a b => decide (b < a)

/-- The reserve of R278 is held in a lane, as `num` halves of it. -/
def State.reserveHeld (s : State) (lane halves : Nat) : Bool :=
  decide (s.fld Fld.ONYX_RESERVE_PCT * s.geom.blocks.toNat * halves ≤ 200 * s.laneFree lane)

/-- Pages of a block that hold data. -/
def State.blockPages (s : State) (k : Nat) : List (Nat × List CodeWord) :=
  (s.flash.nand.filter fun p => p.1 / 2 ^ 12 == k).map fun p => (p.1 % 2 ^ 12, p.2)

/-- A page programmed (R256). -/
def State.putPage (s : State) (lane block page : Nat) (cws : List CodeWord) : State :=
  (s.count (Ct.FCH_PROGRAMS (laneChan lane)) 1).modFlash fun x =>
    { x with nand := NMap.ins x.nand (pageKey lane block page) cws }

/-- Every page of a block gone. -/
def State.wipeBlock (s : State) (k : Nat) : State :=
  s.modFlash fun x => { x with nand := x.nand.filter fun p => p.1 / 2 ^ 12 != k }

/-- The block is one of an anchor's two on lanes 0 to 3, whose place is fixed (R263). -/
def anchorBlock (k : Nat) : Bool := decide (k / 2 ^ 20 < 4) && decide (k % 2 ^ 20 < 2)

/-- A block that holds data is queued for refresh, once (R273). -/
def State.queueRefresh (s : State) (k : Nat) (why : RefreshWhy) : State :=
  match (s.flash.img.block k).use with
  | .band _ | .system =>
    if s.flash.queue.any (fun p => p.1 == k) || anchorBlock k then s else s.modFlash fun x => { x with queue := x.queue ++ [(k, why)] }
  | _ => s

/-- Reads of a block counted (R273): at RD_LIMIT it is queued. -/
def State.countReads (s : State) (k n : Nat) : State :=
  let s := s.modImg fun x => x.modBlock k fun b => { b with reads := BitVec.ofNat 32 (min (2 ^ 32 - 1) (b.reads.toNat + n)) }
  let s := s.modFlash fun x => { x with counted := addOnce x.counted k }
  s.when (decide (s.fld Fld.ONYX_RD_LIMIT_LIMIT ≤ (s.flash.img.block k).reads.toNat)) fun s => s.queueRefresh k .reads

/-! ### Journal records -/

/-- A block's use changed, unless the block is retired. -/
def OnyxImg.useBlock (x : OnyxImg) (k : Nat) (u : BlockUse) : OnyxImg :=
  x.modBlock k fun y => if y.use = .retired then y else { y with use := u }

/-- What a record says of Onyx's tables (R266). The blocks of a band that is freed have been erased; a relocated block awaits its
erasure. -/
def applyRec (x : OnyxImg) : JRec → OnyxImg
  | .objBegin h o => { x with objs := NMap.ins x.objs h o }
  | .table i t => { x with tables := NMap.ins x.tables i t }
  | .objCommit h base sectors _ refs =>
    match NMap.find x.objs h with
    | some o => { x with objs := NMap.ins x.objs h { o with base, sectors, refs, committed := true } }
    | none => x
  | .objAbort h => { x with objs := NMap.del x.objs h }
  | .objDelete h => { x with objs := NMap.del x.objs h }
  | .objMove h base =>
    match NMap.find x.objs h with
    | some o => { x with objs := NMap.ins x.objs h { o with base } }
    | none => x
  | .bandAlloc b blocks =>
    blocks.zipIdx.foldl (fun x p => x.useBlock (blockKey p.2 p.1) (.band b)) { x with bands := NMap.ins x.bands b blocks }
  | .bandMember b lane block =>
    match NMap.find x.bands b with
    | some blocks =>
      let x := match blocks[lane]? with
        | some old => x.useBlock (blockKey lane old) .erasing
        | none => x
      { x with bands := NMap.ins x.bands b (blocks.set lane block) }.useBlock (blockKey lane block) (.band b)
    | none => x
  | .bandFree b =>
    match NMap.find x.bands b with
    | some blocks => blocks.zipIdx.foldl (fun x p => x.useBlock (blockKey p.2 p.1) .free) { x with bands := NMap.del x.bands b }
    | none => x
  | .blockRetire lane block _ => x.modBlock (blockKey lane block) fun y => { y with use := .retired }
  | .readCounts counts => counts.foldl (fun x p => x.modBlock p.1 fun y => { y with reads := p.2 }) x
  | .checkpoint _ _ _ | .unused _ => x

/-- Records given to the journal: they make one commit, or as many as their pages need (R265). -/
def State.journal (s : State) (recs : List JRec) : State := s.modFlash fun x => { x with jq := x.jq ++ packRecs recs }

/-- A block leaves service (R277): at once, and in the journal. -/
def State.retireBlock (s : State) (lane block : Nat) (why : RetireWhy) : State :=
  let s := s.modImg fun x => applyRec x (.blockRetire lane block why)
  let s := (s.journal [.blockRetire lane block why]).count Ct.ONYX_RETIRED_BLOCKS 1
  s.jasper .blockRetired (laneChan lane) lane (block + why.code * 2 ^ 29)

/-! ### Registers -/

/-- ONYX.STATUS.STATE values (R283). -/
def onyxUnmounted : Nat := 0
/-- MOUNTING. -/
def onyxMounting : Nat := 1
/-- MOUNTED. -/
def onyxMounted : Nat := 2
/-- READ_ONLY. -/
def onyxReadOnly : Nat := 3
/-- UNFORMATTED. -/
def onyxUnformatted : Nat := 4
/-- FAILED. -/
def onyxFailed : Nat := 5

/-- STATE changes, with its event. -/
def State.onyxSet (s : State) (v : Nat) : State :=
  if s.fld Fld.ONYX_STATUS_STATE = v then s
  else
    let s := (s.setFld Fld.ONYX_STATUS_STATE v).setFld Fld.JSP_STATUS_VAULT_OK (bit1 (v == onyxMounted || v == onyxReadOnly))
    s.jasper .onyxState 0 v 0

/-- Onyx serves reads. -/
def State.onyxUp (s : State) : Bool :=
  s.fld Fld.ONYX_STATUS_STATE == onyxMounted || s.fld Fld.ONYX_STATUS_STATE == onyxReadOnly

/-- Bands that hold an object, committed or being installed. -/
def State.bandsHeld (s : State) : List Nat :=
  let g := s.geom
  let of := fun (base sectors : Nat) => (List.range (ceilDiv (base % g.bandSectors + sectors) g.bandSectors)).map (· + base / g.bandSectors)
  ((s.flash.img.objs.filter fun p => p.2.committed).flatMap fun p => of p.2.base p.2.sectors) ++
    (match s.flash.inst with | some i => i.bands | none => [])

/-- BANDS.TOTAL (R261): over all lanes the least number of good blocks less the reserve; system blocks form no band. -/
def State.bandsTotal (s : State) : Nat :=
  let g := s.geom
  let one := fun lane =>
    let sys := ((s.flash.img.laneBlocks lane).filter fun p => p.2.use == .system).length
    (s.laneGood lane - sys) - ceilDiv (s.fld Fld.ONYX_RESERVE_PCT * g.blocks.toNat) 100
  if g.lanes = 0 then 0 else (List.range g.lanes).foldl (fun m lane => Nat.min m (one lane)) (2 ^ 21 - 1)

/-- The registers that follow Onyx's tables, and READ_ONLY (R278, R283). Blocks that are not listed are good and hold no data. -/
def State.refreshOnyx (s : State) : State :=
  let g := s.geom
  let total := s.bandsTotal
  let s := s.setFld Fld.ONYX_BANDS_TOTAL total
  let s := s.setFld Fld.ONYX_BANDS_FREE_FREE (total - s.bandsHeld.eraseDups.length)
  let s := s.setFld Fld.ONYX_RD_BACKLOG_BLOCKS s.flash.queue.length
  let good := s.flash.img.blocks.filter fun p => p.2.use != .retired
  let data := good.filter fun p => match p.2.use with | .band _ => true | _ => false
  let s := s.setFld Fld.ONYX_ERASE_RANGE_MAX (good.foldl (fun m p => Nat.max m p.2.erases) s.flash.img.blank.erases)
  let s := s.setFld Fld.ONYX_ERASE_RANGE_MIN (match data with
    | [] => 0
    | p :: rest => rest.foldl (fun m q => Nat.min m q.2.erases) p.2.erases)
  let s := s.setFld Fld.ONYX_EPOCH_LO_EPOCH_LO (bvGet 0 32 s.flash.epoch)
  if s.fld Fld.ONYX_STATUS_STATE = onyxMounted then
    if (List.range g.lanes).all fun l => s.reserveHeld l 1 then s else s.onyxSet onyxReadOnly
  else if s.fld Fld.ONYX_STATUS_STATE = onyxReadOnly then
    if (List.range g.lanes).all fun l => s.reserveHeld l 2 then s.onyxSet onyxMounted else s
  else s

/-! ### Pages as they read (R258, R259) -/

/-- Number of a codeword among all. -/
def codeKey (lane block page slot : Nat) : Nat := 4 * pageKey lane block page + slot

/-- Read-offset sets of the flash settings, 15 at most (R259, R377). -/
def State.offsetSets (s : State) : Nat :=
  if s.boot.readSets = [] then 0 else min 15 (s.boot.readSets.length / max 1 Config.readOffsetBytes)

/-- Re-reads that the read-offset table and RETRY_MAX allow (R259). -/
def State.retryMax (s : State) : Nat := min (s.fld Fld.ONYX_ECC_POLICY_RETRY_MAX) s.offsetSets

/-- How the four codewords of a page read that no command of the host's names: free values (log entry 83). -/
def State.drawRead (s : State) : List CodeRead × State :=
  let (tag, s) := s.fresh
  ((List.range 4).map (Config.codeRead tag), s)

/-- One codeword of a page as it reads (R258, R259, R273): whether it is unreadable. `asked` is the handle and sector asked for, `fits` that the
codeword is it; `alone` tells that no requester is told of an unreadable sector (R431). -/
def State.decodeCode (s : State) (lane block page slot : Nat) (asked : Nat × Nat) (fits : Bool) (r : CodeRead) (alone : Bool) : Bool × State :=
  let ch := laneChan lane
  let k := blockKey lane block
  let maxN := s.retryMax
  let softEn := s.fld Fld.ONYX_ECC_POLICY_SOFT_EN == 1
  let failed := r.failed || decide (maxN < r.retries.val) || (r.soft && !softEn) || !fits || s.flash.unread.contains (codeKey lane block page slot)
  let retries := if failed || r.soft then maxN else r.retries.val
  let soft := if failed then softEn else r.soft
  let s := (s.count (Ct.FCH_RETRY_READS ch) retries).count (Ct.FCH_SOFT_DECODES ch) (bit1 soft)
  let s := s.countReads k (retries + 3 * bit1 soft)
  if failed then
    let s := (s.count (Ct.FCH_UNREADABLE ch) 1).count Ct.ONYX_UNREADABLE_SECTORS 1
    let s := s.jasperAlone .flashUnreadable ch asked.1 asked.2 alone
    let s := s.modFlash fun x => { x with unread := addOnce x.unread (codeKey lane block page slot) }
    (true, s.queueRefresh k .ecc)
  else
    let s := s.count (Ct.FCH_CORRECTED_BITS ch) r.corrected.toNat
    (false, s.when (decide (s.fld Fld.ONYX_ECC_POLICY_CORR_REFRESH ≤ r.corrected.toNat) || decide (0 < retries) || soft) fun s =>
      s.queueRefresh k .ecc)

/-- A page read from a lane (R273, R282). -/
def State.pageRead (s : State) (lane block us : Nat) : State :=
  ((s.count (Ct.FCH_READS (laneChan lane)) 1).maxRc (Fld.FCH_TIMING_MAX_TR_US (laneChan lane)) us).countReads (blockKey lane block) 1

/-- A page of the system area is read (R258, R259, R273): whether every codeword of it decodes. Nobody else is told. -/
def State.readSysPage (s : State) (key : Nat) (outs : List CodeRead) (us : Nat) : Bool × State :=
  match NMap.find s.flash.sys key with
  | none => (false, s)
  | some p =>
    let lane := key / 2 ^ 32
    let block := key / 2 ^ 12 % 2 ^ 20
    let page := key % 2 ^ 12
    let r := p.cws.zipIdx.foldl (fun (acc : Bool × State) c =>
      let h := (p.body.handle, p.body.sector page c.2)
      let q := acc.2.decodeCode lane block page c.2 h (c.1.ok h.1 h.2) (outs.getD c.2 ⟨0#16, 0, false, false⟩) true
      (acc.1 && !q.1, q.2)) (true, s.pageRead lane block us)
    (r.1, r.2.setFld Fld.ONYX_RD_BACKLOG_BLOCKS r.2.flash.queue.length)

/-- A codeword as a copy of its block takes it: an unreadable one stays unreadable (R274). -/
def State.copyCode (s : State) (key : Nat) (c : CodeWord) : CodeWord :=
  if s.flash.unread.contains key then { c with handle := 0xFFFFFFFE#32 } else c

/-! ### The system area's blocks in service (R263, R277) -/

/-- Destinations of a relocation that fail to program, `n` of them: each is retired, and the relocation restarts on the next that `pick` gives
(R277, R281). -/
def State.failDests (s : State) (lane : Nat) (pick : State → Option Nat) : Nat → State
  | 0 => s
  | n + 1 => match pick s with
    | none => s
    | some b => (((s.count (Ct.FCH_PROGRAM_FAILS (laneChan lane)) 1).retireBlock lane b .program).refreshOnyx).failDests lane pick n

/-- The free block of a lane that a copy no command of the host's describes goes to, once as many as a free value says have failed (R277, log entry
83). -/
def State.copyDest (s : State) (lane : Nat) : Option Nat × State :=
  let (tag, s) := s.fresh
  let s := s.failDests lane (fun s => s.freeBlock lane) (Config.programsFail tag)
  (s.freeBlock lane, s)

/-- The pages of the block of lane `lane` in a set copied to a free block of the lane, which takes its place (R274, R277; log entry 49). Without
a free block the system area is not whole, and Onyx is FAILED. -/
def State.moveSys (s : State) (set lane : Nat) : State :=
  let old := s.flash.setBlock set lane
  match s.copyDest lane with
  | (none, s) => s.onyxSet onyxFailed
  | (some new, s) =>
    let s := (s.modImg fun x => x.useBlock (blockKey lane new) .system).modFlash fun x =>
      { x with sets := x.sets.set set ((x.sets.getD set []).set lane new) }
    let s := s.each (s.flash.sys.filter fun (p : Nat × SysPage) => p.1 / 2 ^ 12 == blockKey lane old) fun s (p : Nat × SysPage) =>
      let r := s.drawRead
      let s := (r.2.readSysPage p.1 r.1 0).2
      let cws := p.2.cws.zipIdx.map fun c => s.copyCode (4 * p.1 + c.2) c.1
      (s.count (Ct.FCH_PROGRAMS (laneChan lane)) 1).modFlash fun x =>
        { x with sys := NMap.ins x.sys (pageKey lane new (p.1 % 2 ^ 12)) { p.2 with cws } }
    (s.modFlash fun x => { x with sys := x.sys.filter fun p => p.1 / 2 ^ 12 != blockKey lane old }).refreshOnyx

/-- The block of lane `lane` in a set leaves service (R277): a free block of the lane takes its place, with the pages it held. -/
def State.replaceSys (s : State) (set lane : Nat) (why : RetireWhy) : State := (s.retireBlock lane (s.flash.setBlock set lane) why).moveSys set lane

/-- A program of the system area fails (R277). -/
def State.failSystem (s : State) (set lane : Nat) : State := (s.count (Ct.FCH_PROGRAM_FAILS (laneChan lane)) 1).replaceSys set lane .program

/-- A block of the system area erased (R273): whether the erase reports failure is a free value. False where the block has left service, by that
or at PE_LIMIT (R277). -/
def State.eraseSys (s : State) (lane block : Nat) : Bool × State :=
  let k := blockKey lane block
  let (tag, s) := s.fresh
  let s := s.modFlash fun x =>
    { x with sys := x.sys.filter (fun p => p.1 / 2 ^ 12 != k), unread := x.unread.filter (fun u => u / 2 ^ 14 != k)
             queue := x.queue.filter fun q => q.1 != k }
  if Config.eraseFails tag then (false, (s.count (Ct.FCH_ERASE_FAILS (laneChan lane)) 1).retireBlock lane block .erase)
  else
    let s := (s.count (Ct.FCH_ERASES (laneChan lane)) 1).modImg fun x => x.modBlock k fun b => { b with erases := b.erases + 1, reads := 0#32 }
    if s.fld Fld.ONYX_WEAR_PE_LIMIT ≤ (s.flash.img.block k).erases then (false, s.retireBlock lane block .wear) else (true, s)

/-- A set erased: those of its blocks that hold pages. One that leaves service with it is replaced (R277). -/
def State.eraseSet (s : State) (set : Nat) : State :=
  s.each (List.range 16) fun s l => s.when (s.flash.sysNext l (s.flash.setBlock set l) != 0) fun s =>
    let r := s.eraseSys l (s.flash.setBlock set l)
    if r.1 then r.2 else r.2.moveSys set l

/-- An anchor written: the next free page on each of lanes 0 to 3 (R264). A block whose program or erase fails is retired, and its lane carries no
copy any more (R277). -/
def State.putAnchor (s : State) (a : Anchor) : State :=
  let at_ := s.flash.anchorNext s.blockSize
  let s := s.when at_.2.2 fun s => s.each (List.range 4) fun s l => s.when (s.flash.sysNext l at_.1 != 0) fun s => (s.eraseSys l at_.1).2
  s.each (List.range 4) fun s l =>
    if (s.flash.img.block (blockKey l at_.1)).use = .retired then s
    else
      let (tag, s) := s.fresh
      if Config.programFails tag l then (s.count (Ct.FCH_PROGRAM_FAILS (laneChan l)) 1).retireBlock l at_.1 .program
      else s.putSys l at_.1 at_.2.1 (.anchor a) a.epoch a.bytes

/-! ### The vault (R279) -/

/-- A vault page put in its place by the order of programming. -/
def insVault (x : Nat × List (BitVec 256)) : List (Nat × List (BitVec 256)) → List (Nat × List (BitVec 256))
  | [] => [x]
  | y :: ys => if x.1 < y.1 then x :: y :: ys else y :: insVault x ys

/-- Vault pages that decode, in the order of programming. -/
def FlashSt.vaultPages (x : FlashSt) (spoilt : List Nat) : List (List (BitVec 256)) :=
  (x.sys.foldl (fun acc p => match x.readSys spoilt p.1 with
    | some (.vault es) => insVault (p.2.seq, es) acc
    | _ => acc) []).map Prod.snd

/-- The entries that the vault keeps: of those programmed, without padding, the most recent 2,097,152 (R279). -/
def FlashSt.vaultStored (x : FlashSt) (spoilt : List Nat) : List (BitVec 256) :=
  let v := (x.vaultPages spoilt).flatMap fun es => es.filter fun e => e != 0#256
  v.drop (v.length - 2097152)

end Sys2Proof.Machine
end

