-- ==== Sys2Proof/Machine/StackOps.lean ====
section
/-! DEFINITION. The stacks (chapter 08): the address map (R191, R192), bursts read and written through the code with its counters, marked
lanes, failed channels and injection (R194 to R201, R220), and accesses of several bursts. A burst is numbered SPA / 64. -/

namespace Sys2Proof.Machine

/-! ### Addresses -/

/-- Where a burst lies (R192): global stack and channel, bank and row. -/
structure BurstLoc where
  stack : Nat
  chan  : Nat
  bank  : Nat
  row   : Nat
  deriving DecidableEq, Repr

/-- The map of R192. -/
def burstLoc (b : Nat) : BurstLoc :=
  let die := b / 2 ^ 32
  let r := b % 2 ^ 32 / 64
  let stack := 3 * die + r % 3
  let q := r / 3
  let u := q / 128
  { stack, chan := 128 * stack + ((q % 128) ^^^ (u % 128)), bank := (u % 16) ^^^ (u / 16 % 16), row := u / 16 }

/-- The part has 36 GiB stacks (R2). -/
def State.small (s : State) : Bool := s.fld Fld.BOOT_CAPACITY_STACK_GIB == 36

/-- Capacity of a die's three stacks in bytes (R191). -/
def State.dieBytes (s : State) : Nat := if s.small then 115964116992 else 154618822656

/-- N of R232: usable frames of a die. -/
def State.frameN (s : State) : Nat := if s.small then 1767744 else 2356992

/-- Local frames below this exist (R191). -/
def State.frameLimit (s : State) : Nat := s.dieBytes / 65536

/-- Frame number of a local frame (R191). -/
def frameOf (die fl : Nat) : Nat := die * 2 ^ 22 + fl
/-- Die of a frame. -/
def frameDie (f : Nat) : Nat := f / 2 ^ 22
/-- Local frame. -/
def frameFl (f : Nat) : Nat := f % 2 ^ 22
/-- SPA of a frame's first byte. -/
def frameSpa (f : Nat) : Nat := f * 65536
/-- SPA of a frame's tail slot (R232). -/
def State.tailSpa (s : State) (f : Nat) : Nat := frameDie f * 2 ^ 38 + s.frameN * 65536 + 64 * frameFl f

/-! ### Channels -/

/-- A channel outside its registers. -/
def State.chan (s : State) (ch : Nat) : ChanSt := NMap.get {} s.chans ch

/-- A channel changed. -/
def State.modChan (s : State) (ch : Nat) (f : ChanSt → ChanSt) : State := { s with chans := NMap.set {} s.chans ch (f (s.chan ch)) }

/-- A stack outside its registers, changed. -/
def State.modStack (s : State) (st : Nat) (f : StackSt → StackSt) : State :=
  { s with stackTab := NMap.set {} s.stackTab st (f (NMap.get {} s.stackTab st)) }

/-- STATE values of a channel and a stack (R221, R222). -/
def memOff : Nat := 0
/-- TRAINING. -/
def memTraining : Nat := 1
/-- READY. -/
def memReady : Nat := 2
/-- SELF_REFRESH. -/
def memSelfRefresh : Nat := 3
/-- FAILED of a channel, TRIPPED of a stack. -/
def memLost : Nat := 4
/-- FAILED of a stack. -/
def stackFailed : Nat := 5

/-- The channel accepts no access: it has failed (R200), or its stack has tripped (R216). -/
def State.chanDead (s : State) (ch : Nat) : Bool :=
  s.fld (Fld.CH_STATUS_STATE ch) == memLost || s.fld (Fld.STK_STATUS_STATE (ch / 128)) == memLost

/-- MDC.STATUS.STACK_READY follows the states of the die's stacks (R444). -/
def State.stackState (s : State) (st v : Nat) : State :=
  let s := s.setFld (Fld.STK_STATUS_STATE st) v
  let m := st / 3
  s.setFld (Fld.MDC_STATUS_STACK_READY m)
    (((List.range 3).map fun i => 2 ^ i * bit1 (s.fld (Fld.STK_STATUS_STATE (3 * m + i)) == memReady)).sum)

/-- A lane mark recorded in the Onyx system area by a new anchor (R205, R264); test marks are not (R220). It waits until the flash population is
known (R254), and while PWRFAIL_N is low (R280). Nothing where no anchor has been written. -/
def State.recordMark (s : State) (ch lane : Nat) : State :=
  if s.fld Fld.BOOT_TEST_ENABLE = 1 then s
  else if s.flash.geom = none ∨ s.fld Fld.PWR_STATUS_PWRFAIL = 1 then s.modFlash fun x => { x with marksDue := NMap.ins x.marksDue ch lane }
  else match s.flash.anchor with
    | some a => s.putAnchor { a with marks := NMap.ins a.marks ch (128 + lane), nextHandle := max a.nextHandle s.flash.nextHandle }
    | none => s

/-- The marks that waited are recorded. -/
def State.recordDue (s : State) : State :=
  let due := s.flash.marksDue
  (s.modFlash fun x => { x with marksDue := [] }).each due fun s p => s.recordMark p.1 p.2

/-- A channel fails (R200): the device acts on it as on a device fault (R318). -/
def State.failChannel (s : State) (ch lane : Nat) : State :=
  let s := s.setFld (Fld.CH_STATUS_STATE ch) memLost
  let s := s.stackState (ch / 128) stackFailed
  let s := s.jasper .channelFailed ch lane 0
  { s with boot := { s.boot with fault := some .channelFailed } }

/-- A logical lane meets the rule of R199, or its eye falls below margin (R206): the first is marked, a second fails the channel. -/
def State.markLane (s : State) (ch lane : Nat) : State :=
  if s.chanDead ch then s
  else if s.fld (Fld.CH_STATUS_MARKED ch) = 1 then
    if s.fld (Fld.CH_STATUS_MARKED_LANE ch) = lane then s else s.failChannel ch lane
  else
    let s := (s.raise (Fld.CH_STATUS_MARKED ch)).setFld (Fld.CH_STATUS_MARKED_LANE ch) lane
    let s := s.setFld (Fld.STK_STATUS_MARKED_CHANNELS (ch / 128)) (s.fld (Fld.STK_STATUS_MARKED_CHANNELS (ch / 128)) + 1)
    let s := s.modChan ch fun x => { x with testMark := s.fld Fld.BOOT_TEST_ENABLE == 1 }
    (s.jasper .laneMarked ch lane 0).recordMark ch lane

/-- The lane that the decoder takes as marked (R198). -/
def State.markedLane (s : State) (ch : Nat) : Option Nat :=
  if s.fld (Fld.CH_STATUS_MARKED ch) = 1 then some (s.fld (Fld.CH_STATUS_MARKED_LANE ch)) else none

/-- The pattern that injection XORs into a burst's symbols (R220). -/
def State.injPattern (s : State) (ch : Nat) : ErrVec :=
  let one := fun (lane syms x : Nat) =>
    ((List.range 4).filter fun k => syms.testBit k && x != 0).map fun k => (4 * lane + k, x)
  ErrVec.add
    (one (s.fld (Fld.CH_INJ_CTRL_LANE_A ch)) (s.fld (Fld.CH_INJ_CTRL_SYM_A ch)) (s.fld (Fld.CH_INJ_PATTERN_XOR_A ch)))
    (if s.fld (Fld.CH_INJ_CTRL_LANE_B_EN ch) = 1 then
      one (s.fld (Fld.CH_INJ_CTRL_LANE_B ch)) (s.fld (Fld.CH_INJ_CTRL_SYM_B ch)) (s.fld (Fld.CH_INJ_PATTERN_XOR_B ch)) else [])

/-- A qualifying burst passes the injection of its path: what it adds (R220). -/
def State.inject (s : State) (ch : Nat) (write : Bool) : ErrVec × State :=
  if s.fld (Fld.CH_INJ_CTRL_ARM ch) = 0 ∨ (s.fld (Fld.CH_INJ_CTRL_ON_WRITE ch) == 1) ≠ write then ([], s)
  else if s.fld (Fld.CH_INJ_CTRL_PERIODIC ch) = 0 then (s.injPattern ch, s.setFld (Fld.CH_INJ_CTRL_ARM ch) 0)
  else
    let n := (s.chan ch).injSeen + 1
    if n < s.fld (Fld.CH_INJ_PATTERN_PERIOD ch) then ([], s.modChan ch fun x => { x with injSeen := n })
    else (s.injPattern ch, s.modChan ch fun x => { x with injSeen := 0 })

/-- A burst crosses its channel: BUSY_BURSTS, and ROW_OPENS where its row was not open (R195, R221). -/
def State.touch (s : State) (l : BurstLoc) : State :=
  let s := s.count (Ct.CH_BUSY_BURSTS l.chan) 1
  if NMap.find (s.chan l.chan).openRow l.bank = some l.row then s
  else (s.count (Ct.CH_ROW_OPENS l.chan) 1).modChan l.chan fun x => { x with openRow := NMap.ins x.openRow l.bank l.row }

/-! ### Bursts -/

/-- A burst as delivered: its data, whether it carries a poison mark (R201), and whether it was corrected. -/
structure BurstOut where
  data  : List Byte
  bad   : Bool
  fixed : Bool
  deriving DecidableEq, Repr

/-- Data bytes with the data symbols of `e` XORed in. -/
def xorData (data : List Byte) (e : ErrVec) : List Byte :=
  if e = [] then data else data.zipIdx.map fun p => p.1 ^^^ BitVec.ofNat 8 (ErrVec.at e p.2)

/-- The stored check bytes as errors on symbols 64 to 71. -/
def chkErr (c : BitVec 64) : ErrVec := ((List.range 8).map fun j => (64 + j, bvGet (8 * j) 8 c)).filter fun p => p.2 != 0

/-- Check differences as they are stored. -/
def chkOf (l : List Nat) : BitVec 64 := BitVec.ofNat 64 (l.foldr (fun x acc => x % 256 + 256 * acc) 0)

/-- What decoding adds to the lanes' runs (R199), after a burst that needed correction in `lanes`; each run of 64 marks its lane. -/
def State.laneRuns (s : State) (ch : Nat) (lanes : List Nat) : State :=
  let old := (s.chan ch).runs
  let runs : NMap Nat := ((List.range 18).filter lanes.contains).map fun l => (l, NMap.get 0 old l + 1)
  let s := s.modChan ch fun x => { x with runs := runs.filter fun p => decide (p.2 < 64) }
  s.each (runs.filter fun p => decide (64 ≤ p.2)) fun s p => s.markLane ch p.1

/-- The frame holds a tile, whose own handling tells software of its errors (R245, R248, R431). -/
def State.tileFrame (s : State) (f : Nat) : Bool :=
  match NMap.find s.place.frames f with
  | some (.tile ..) | some (.source ..) => true
  | _ => false

/-- Burst `b` is read and decoded, `errs` being what the channel changed on its way (R196 to R201). -/
def State.readBurst (s : State) (b : Nat) (errs : ErrVec) : BurstOut × State :=
  let l := burstLoc b
  let data := s.mem.rdBlk (64 * b) 64
  if s.chanDead l.chan then (⟨data, true, false⟩, s)
  else
    let s := s.touch l
    let (inj, s) := s.inject l.chan false
    let recv := ErrVec.add errs inj
    let e := ErrVec.add (chkErr (NMap.get 0#64 s.chk b)) recv
    match rsDecode (s.markedLane l.chan) e with
    | .clean => (⟨xorData data recv, false, false⟩, s.laneRuns l.chan [])
    | .corrected c =>
      let s := s.count (Ct.CH_CE_COUNT l.chan) 1
      let s := s.each c fun s p => s.count (Ct.CH_LANE_CE l.chan (laneOf p.1)) 1
      (⟨xorData data (ErrVec.add recv c), false, true⟩, s.laneRuns l.chan (c.map fun p => laneOf p.1))
    | .poison => (⟨xorData data recv, true, false⟩, s.count (Ct.CH_POISON_READS l.chan) 1)
    | .uncorrectable =>
      let s := (s.count (Ct.CH_UE_COUNT l.chan) 1).raise (Fld.CH_STATUS_UE l.chan)
      let s := s.jasperAlone .ueBurst l.chan (64 * b % 2 ^ 32) (64 * b / 2 ^ 32) !(s.tileFrame (b / 1024))
      (⟨xorData data recv, true, false⟩, s.laneRuns l.chan [])

/-- Burst `b` written whole: as a valid codeword, or as a poison codeword (R197, R201); write-path injection stays in memory (R220). -/
def State.writeBurst (s : State) (b : Nat) (data : List Byte) (poison : Bool) : State :=
  let l := burstLoc b
  if s.chanDead l.chan then s
  else
    let s := s.touch l
    let (e, s) := s.inject l.chan true
    let c := chkOf (if e = [] then [] else checkShift e) ^^^ (if poison then BitVec.allOnes 64 else 0#64)
    { s with mem := s.mem.wrBlk (64 * b) (xorData data e), chk := NMap.set 0#64 s.chk b c }

/-- Bytes written within burst `b` from offset `i` (R194, R201): whole, or as a read-modify-write. -/
def State.writePart (s : State) (b i : Nat) (bs : List Byte) : State :=
  if bs.length = 64 then s.writeBurst b bs false
  else if s.chanDead (burstLoc b).chan then s
  else
    let (r, s) := s.readBurst b []
    let s := s.count (Ct.CH_RMW_COUNT (burstLoc b).chan) 1
    s.writeBurst b (r.data.take i ++ bs ++ r.data.drop (i + bs.length)) r.bad

/-! ### Accesses of several bursts -/

/-- Bursts that a partition, or the system, asks of the regulators of their stacks (R43, R208): put to them at the next epoch (log entry
45). -/
def State.ask (s : State) (part : Option Nat) (bs : List Nat) : State :=
  s.each ((bs.map fun b => (burstLoc b).stack).eraseDups) fun s st =>
    let n := (bs.filter fun b => (burstLoc b).stack == st).length
    s.modStack st fun x => { x with asked := x.asked ++ [⟨part.map fun p => finMod 16 p (by decide), BitVec.ofNat 16 n, false⟩] }

/-- The bursts of [a, a+n), one that is written in part counted twice (R208). -/
def spanBursts (a n : Nat) : List Nat :=
  (List.range (ceilDiv (a % 64 + n) 64)).flatMap fun i =>
    let b := a / 64 + i
    if a ≤ 64 * b ∧ 64 * b + 64 ≤ a + n then [b] else [b, b]

/-- `n` bursts from `b`: their data, and the indices of those that carry a poison mark. -/
def State.readBursts (s : State) (b n : Nat) : (List Byte × List Nat) × State :=
  (List.range n).foldl (fun (acc : (List Byte × List Nat) × State) i =>
    let r := acc.2.readBurst (b + i) []
    ((acc.1.1 ++ r.1.data, if r.1.bad then acc.1.2 ++ [i] else acc.1.2), r.2)) (([], []), s)

/-- `bs` written from SPA `a` upward, burst by burst; `n` bounds the bursts. -/
def State.writeSpan (s : State) (a : Nat) : Nat → List Byte → State
  | 0, _ => s
  | n + 1, bs =>
    if bs = [] then s
    else
      let k := 64 - a % 64
      (s.writePart (a / 64) (a % 64) (bs.take k)).writeSpan (a + (bs.take k).length) n (bs.drop k)

/-- The bytes of [a, a+n) by SPA, with the 64 B units (counted from the first) that carry poison; the traffic is partition `part`'s. -/
def State.readSpan (s : State) (part : Option Nat) (a n : Nat) : (List Byte × List Nat) × State :=
  let b := a / 64
  let k := ceilDiv (a % 64 + n) 64
  let r := (s.ask part ((List.range k).map (· + b))).readBursts b k
  (((r.1.1.drop (a % 64)).take n, r.1.2), r.2)

/-- A tile of `stored` bytes read from frame `f`, with its tail burst (R232): its bytes and its poisoned 64 B units. -/
def State.readFrame (s : State) (part : Option Nat) (f stored : Nat) : (List Byte × List Nat) × State :=
  let r := s.readSpan part (frameSpa f) (64 * ceilDiv (min stored 65536) 64)
  if stored ≤ 65536 then ((r.1.1.take stored, r.1.2), r.2)
  else
    let t := (r.2.count (Ct.MOV_TAIL_READS (frameDie f)) 1).readSpan part (r.2.tailSpa f) 64
    (((r.1.1 ++ t.1.1).take stored, r.1.2 ++ t.1.2.map fun _ => 1024), t.2)

/-- `bs` written from SPA `a` upward as partition `part`'s traffic. -/
def State.putSpan (s : State) (part : Option Nat) (a : Nat) (bs : List Byte) : State :=
  (s.ask part (spanBursts a bs.length)).writeSpan a (bs.length + 1) bs

/-- A tile written to frame `f`, whole bursts at a time: the last is filled up with zeros. -/
def State.writeFrame (s : State) (part : Option Nat) (f : Nat) (bs : List Byte) : State :=
  let pad := bs ++ List.replicate (64 * ceilDiv bs.length 64 - bs.length) 0#8
  let s := s.putSpan part (frameSpa f) (pad.take 65536)
  if pad.length ≤ 65536 then s else s.putSpan part (s.tailSpa f) ((pad.drop 65536).take 64)

end Sys2Proof.Machine
end

