-- ==== Sys2Proof/Machine/OnyxOps.lean ====
section
/-! DEFINITION. The flash tier beneath Onyx's commands (chapter 10): sectors and bands (R260 to R262), and the pages of bands as they read
(R256, R258, R259, R273). -/

namespace Sys2Proof.Machine

/-! ### Sectors -/

/-- Lane, block, page and codeword of a logical sector (R260). -/
def State.sectorPlace (s : State) (sec : Nat) : Option (Nat × Nat × Nat × Nat) :=
  let g := s.geom
  if g.bandSectors = 0 then none
  else
    let o := sec % g.bandSectors
    let lane := o / 4 % g.lanes
    match NMap.find s.flash.img.bands (sec / g.bandSectors) with
    | none => none
    | some blocks => (blocks[lane]?).map fun b => (lane, b, o / (4 * g.lanes), o % 4)

/-- Sector `sector` under a handle, at logical sector `base + sector`, where it can be read (R258, R259). -/
def State.readSector (s : State) (handle base sector : Nat) : Option (List Byte) :=
  match s.sectorPlace (base + sector) with
  | none => none
  | some (lane, block, page, slot) =>
    match (NMap.find s.flash.nand (pageKey lane block page)).bind (·[slot]?) with
    | none => none
    | some c => if c.ok handle sector && !s.flash.unread.contains (codeKey lane block page slot) then some (c.data.rdBlk 0 4096) else none

/-- Sectors `first` to `first + n - 1` under a handle, if every one can be read. -/
def State.readSectors (s : State) (handle base first n : Nat) : Option (List Byte) :=
  (List.range n).foldl (fun (acc : Option (List Byte)) i =>
    match acc, s.readSector handle base (first + i) with
    | some bs, some x => some (bs ++ x)
    | _, _ => none) (some [])

/-- A weight object as Onyx keeps it. -/
def State.onyxObj (s : State) (handle : Nat) : Option OnyxObj := NMap.find s.flash.img.objs handle

/-- The origin index entry of tile `t`: its first sector and sectors, read from the stack frames that hold the index (R262). Where no frame
could be had for it Onyx goes by its own copy. None where the entry cannot be read. -/
def State.indexEntry (s : State) (handle t : Nat) : Option (Nat × Nat) × State :=
  match (NMap.find s.flash.index handle).bind (·[t / 16384]?) with
  | some f =>
    let r := s.readSpan none (frameSpa f + 4 * (t % 16384)) 4
    (if r.1.2 = [] then some (leNat r.1.1 % 2 ^ 27, leNat r.1.1 / 2 ^ 27 % 32 + 1) else none, r.2)
  | none => (((s.onyxObj handle).bind fun o => o.tiles[t]?).map fun p => (p.1, p.2.1), s)

/-- The origin's tile `t` (R262), if its index entry and every sector of it can be read: its stored bytes. -/
def State.originTile (s : State) (handle t : Nat) : Option (List Byte) × State :=
  match s.onyxObj handle with
  | none => (none, s)
  | some o =>
    let r := s.indexEntry handle t
    (match o.tiles[t]?, r.1 with
      | some p, some e => (s.readSectors handle o.base e.1 e.2).map (·.take p.2.2)
      | _, _ => none, r.2)

/-- The tile of an object that holds a sector of it. -/
def OnyxObj.tileOf (o : OnyxObj) (sector : Nat) : Option Nat :=
  o.tiles.findIdx? fun p => decide (p.1 ≤ sector) && decide (sector < p.1 + p.2.1)

/-- Sectors of an object's origin index (R262). -/
def OnyxObj.indexSectors (o : OnyxObj) : Nat := ceilDiv (4 * o.ent.size) 4096

/-- HANDLE of a sector of an object: the origin index has its own (R258, R262). -/
def OnyxObj.handleOf (o : OnyxObj) (h sector : Nat) : Nat := if o.sectors ≤ sector + o.indexSectors then indexHandle else h

/-- The logical sector in a codeword of a band's page (R260). -/
def State.pageSector (s : State) (lane block page slot : Nat) : Option Nat :=
  match (s.flash.img.block (blockKey lane block)).use with
  | .band b => some (b * s.geom.bandSectors + 4 * s.geom.lanes * page + 4 * lane + slot)
  | _ => none

/-- The committed object that holds a logical sector: the HANDLE of the sector and its offset within the object (R258, R262). -/
def State.sectorOwner (s : State) (sec : Nat) : Option (Nat × Nat) :=
  (s.flash.img.objs.find? fun p => p.2.committed && decide (p.2.base ≤ sec) && decide (sec < p.2.base + p.2.sectors)).map
    fun p => (p.2.handleOf p.1 (sec - p.2.base), sec - p.2.base)

/-- One codeword of a page of a band as it reads: where it is unreadable, the handle and sector asked for. -/
def State.readCode (s : State) (lane block page slot : Nat) (c : CodeWord) (r : CodeRead) (alone : Bool) : Option (Nat × Nat) × State :=
  let asked := ((s.pageSector lane block page slot).bind s.sectorOwner).getD (c.handle.toNat, c.sector.toNat)
  let q := s.decodeCode lane block page slot asked (c.ok asked.1 asked.2) r alone
  (if q.1 then some asked else none, q.2)

/-- A programmed page of a band is read (R258, R273): the unreadable sectors asked of it. -/
def State.readPage (s : State) (lane block page : Nat) (cws : List CodeWord) (outs : List CodeRead) (us : Nat) (alone : Bool) :
    List (Nat × Nat) × State :=
  let r := cws.zipIdx.foldl (fun (acc : List (Nat × Nat) × State) p =>
    let q := acc.2.readCode lane block page p.2 p.1 (outs.getD p.2 ⟨0#16, 0, false, false⟩) alone
    (acc.1 ++ q.1.toList, q.2)) ([], s.pageRead lane block us)
  (r.1, r.2.setFld Fld.ONYX_RD_BACKLOG_BLOCKS r.2.flash.queue.length)

/-- A programmed page of a band is read by Onyx for itself, as free values say (R259, R273; log entry 83). -/
def State.readOwn (s : State) (lane block page : Nat) (cws : List CodeWord) : State :=
  let r := s.drawRead
  (r.2.readPage lane block page cws r.1 0 true).2

end Sys2Proof.Machine
end

