-- ==== Sys2Proof/Machine/WakeOps.lean ====
section
/-! DEFINITION. The power state and the start of a wake (R406, R409, R410). -/

namespace Sys2Proof.Machine

/-- Power state changed. -/
def State.modPower (s : State) (f : PowerSt → PowerSt) : State := { s with power := f s.power }

/-- PWR.STATUS.STATE: 0 S0 to 4 S4 (R418). -/
def State.powerState (s : State) : Nat := s.fld Fld.PWR_STATUS_STATE

/-- The device is not idle at this moment (R406). -/
def State.notIdle (s : State) : State := s.modPower fun p => { p with idleSince := none }

/-- A wake from the state in force begins (R409); nothing in S0, or while one is in progress. -/
def State.beginWake (s : State) : State :=
  if s.powerState = 0 ∨ s.fld Fld.PWR_STATUS_WAKING = 1 then s
  else
    let s := (s.raise Fld.PWR_STATUS_WAKING).modPower fun p => { p with wakeAt := s.now, idleSince := none, bridged := [] }
    -- the stacks that S4 powered off train again (R410)
    if s.powerState = 4 then
      s.each (List.range 12) fun s st => (s.each (List.range 128) fun s c => s.setFld (Fld.CH_STATUS_STATE (128 * st + c)) memTraining).stackState st memTraining
    else s

/-- The residency counter of a state. -/
def resCtr (st : Nat) : Nat := [0, Ct.PWR_RES_S1_MS, Ct.PWR_RES_S2_MS, Ct.PWR_RES_S3_MS].getD st Ct.PWR_RES_S4_MS

/-- Whole milliseconds spent in the state in force are counted (R418). -/
def State.syncResidency (s : State) : State :=
  let n := (s.now - s.power.resAt) / 1000
  if s.powerState = 0 then s.modPower fun p => { p with resAt := s.now }
  else if n = 0 then s
  else (s.count (resCtr s.powerState) n).modPower fun p => { p with resAt := p.resAt + 1000 * n }

/-! ### Blocks that are powered off -/

/-- The block of a register address belongs to a cluster. -/
def inCluster (b : Blk) : Bool :=
  match b with
  | .clc | .guard | .seqGrid | .vec | .eng | .exp => true
  | _ => false

/-- Cluster of a BAR0 address of a cluster's block (R440). -/
def clusterAt (a : Nat) : Nat := 16 * ((a - 0x02000000) / 0x02000000) + (a - 0x02000000) % 0x02000000 / 0x00100000

/-- The block at `a` is powered off (R408). -/
def State.poweredOff (s : State) (a : Nat) : Bool :=
  match decodeBlk a with
  | some (b, _) =>
    if inCluster b then s.fld (Fld.CLC_STATUS_POWERED (clusterAt a)) == 0
    else s.powerState == 4 && (match b with | .stk | .ch | .mdc | .ctab | .enc | .mov => true | _ => false)
  | none => false

/-- An access to a block that is powered off wakes the device (R409). -/
def State.wakeAccess (s : State) (a : Nat) : State := if s.poweredOff a then s.notIdle.beginWake else s

/-- The cluster whose block lies at `a`, while its power-up from S2 holds its group in reset (R391): once the wake that powers it on has begun. -/
def State.inReset (s : State) (a : Nat) : Option Nat :=
  match decodeBlk a with
  | some (b, _) =>
    if inCluster b && s.fld (Fld.CLC_STATUS_POWERED (clusterAt a)) == 0 && s.fld Fld.PWR_STATUS_WAKING == 1 then some (clusterAt a) else none
  | none => none

/-- An access through the bridge of cluster `k` in reset is discarded, and the first of the reset is recorded (R391, log entry 60). -/
def State.bridgeDiscard (s : State) (k a : Nat) : State :=
  if s.power.bridged.contains k then s
  else (s.modPower fun p => { p with bridged := addOnce p.bridged k }).jasper .bridgeDiscard k a 0

/-- An access to the register at `a`: nothing where it is not `served`, discarded while the register's group is in reset, and else waking a block
that is powered off (R391, R408, R409, R443). -/
def State.access (s : State) (served : Bool) (a : Nat) (f : State → State) : State :=
  if !served then s
  else match s.inReset a with
    | some k => s.bridgeDiscard k a
    | none => f (s.wakeAccess a)

/-- A BAR0 access to the register at `a`. -/
def State.bar0 (s : State) (a : Nat) (f : State → State) : State := s.access (s.serves a) a f

end Sys2Proof.Machine
end

