-- ==== Sys2Proof/Machine/ObjOps.lean ====
section
/-! DEFINITION. Objects, directories, frames and pages, moves, eviction, and failed and poisoned tiles (chapter 09). -/

namespace Sys2Proof.Machine

/-! ### Objects -/

/-- Placement state changed. -/
def State.modPlace (s : State) (f : PlaceSt → PlaceSt) : State := { s with place := f s.place }

/-- The object table entry `o`, none where it is FREE (R224). -/
def State.obj (s : State) (o : Nat) : Option Obj := NMap.find s.place.objs o

/-- An object changed; a FREE entry stays so. -/
def State.modObj (s : State) (o : Nat) (f : Obj → Obj) : State :=
  match s.obj o with
  | some x => s.modPlace fun p => { p with objs := NMap.ins p.objs o (f x) }
  | none => s

/-- The object belongs to partition `p` (R227). -/
def Obj.belongs (x : Obj) (p : Nat) : Bool := x.part == p || x.share.getLsbD p

/-- The partitions it belongs to. -/
def Obj.parts (x : Obj) : List Nat := (List.range 16).filter x.belongs

/-- LIVE or QUARANTINED (R227). -/
def Obj.live (x : Obj) : Bool := x.state == .live || x.state == .quarantined

/-- A writable kind. -/
def Obj.writable (x : Obj) : Bool := x.kind != .weights

/-- Pinned in the stacks (R233). -/
def Obj.pinnedNow (x : Obj) : Bool := x.policy == .pinned && x.resident == x.size

/-- `a` is earlier than `b` (R38). -/
def earlier (a b : BitVec 32) : Bool := (a - b).msb

/-- The tick in progress. -/
def State.tick (s : State) : BitVec 32 := s.rd Rg.GARNET_TICK

/-- A live object that covers tile `u` of the unified range (R223). -/
def State.objAt (s : State) (u : Nat) : Option (Nat × Obj) :=
  s.place.objs.find? fun p => p.2.live && decide (p.2.base ≤ u) && decide (u < p.2.base + p.2.size)

/-- OBJ.STATUS.FREE_ENTRIES follows the table. -/
def State.recountObjs (s : State) : State := s.setFld Fld.OBJ_STATUS_FREE_ENTRIES (65536 - s.place.objs.length)

/-- AGE becomes the tick in progress (R234). -/
def State.useObj (s : State) (o : Nat) : State := s.modObj o fun x => { x with age := s.tick }

/-! ### Frames -/

/-- Free frames of die `m` below N (R232). -/
def State.freeCount (s : State) (m : Nat) : Nat :=
  s.frameN - (s.place.frames.filter fun p => frameDie p.1 == m && decide (frameFl p.1 < s.frameN)).length

/-- The free-frame registers of a die and of the package (R252, R253). -/
def State.recountFrames (s : State) (m : Nat) : State :=
  let s := s.setFld (Fld.MOV_FRAMES_FREE_FRAMES m) (s.freeCount m)
  s.setFld Fld.OBJ_FRAMES_FREE_FRAMES (((List.range 4).map s.freeCount).sum)

/-- The background eviction of a die ends once HIGH frames are free (R237). -/
def State.stopDrain (s : State) (m : Nat) : State :=
  if s.inForce Fld.OBJ_WATERMARK_HIGH ≤ s.freeCount m then s.modPlace fun p => { p with draining := p.draining.filter (· != m) } else s

/-- What a frame is used for, none where it is free. -/
def State.setFrame (s : State) (f : Nat) (u : Option FrameUse) : State :=
  ((s.modPlace fun p => { p with frames := match u with | some u => NMap.ins p.frames f u | none => NMap.del p.frames f }).recountFrames
    (frameDie f)).stopDrain (frameDie f)

/-- The `k`-th free local frame of a die (R228: the device's own choice). -/
def State.freeFrame (s : State) (m k : Nat) : Nat :=
  ((s.place.frames.filter fun p => frameDie p.1 == m).map fun p => frameFl p.1).foldl (fun k x => if x ≤ k then k + 1 else k) k

/-- A free frame of die `m` taken for `u`, if there is one (log entry 7). -/
def State.takeFrame (s : State) (m : Nat) (u : FrameUse) : Option (Nat × State) :=
  let n := s.freeCount m
  if n = 0 then none
  else
    let (tag, s) := s.fresh
    let f := frameOf m (s.freeFrame m (Config.pick tag % n))
    some (f, s.setFrame f (some u))

/-- `n` frames taken for the device's own tables, frame j on die j mod 4, or on the next die with a free one; fewer where none is left
(R228, R261, R262). -/
def State.takeSpread (s : State) (n : Nat) (u : FrameUse) : List Nat × State :=
  (List.range n).foldl (fun (acc : List Nat × State) j =>
    match ((List.range 4).map fun i => (j + i) % 4).find? fun m => 0 < acc.2.freeCount m with
    | some m => match acc.2.takeFrame m u with
      | some (f, s) => (acc.1 ++ [f], s)
      | none => acc
    | none => acc) ([], s)

/-! ### Host pages -/

/-- A free page of partition `p` taken (R353, log entry 7). -/
def State.takePage (s : State) (p : Nat) : Option (Nat × State) :=
  let l := s.freePages p
  if l = [] then none
  else
    let (tag, s) := s.fresh
    let pg := l.getD (Config.pick tag % l.length) 0
    some (pg, (s.modPlace fun x => { x with pages := x.pages ++ [pg] }).recountPages)

/-- A page no longer in use. -/
def State.freePage (s : State) (pg : Nat) : State := (s.modPlace fun x => { x with pages := x.pages.filter (· != pg) }).recountPages

/-- QUOTA accounting is selected (R235). -/
def State.quota (s : State) : Bool := s.fld Fld.OBJ_CTRL_ACCOUNTING == 1

/-- `n` tiles keep within a limit (R235). -/
def State.within (s : State) (limit : Fld) (n : Nat) : Bool :=
  !s.quota || s.inForce limit == 0xFFFFFFFF || decide (n ≤ s.inForce limit)

/-- Tiles that have a stack frame or are on their way to one, by tileKey: of the objects that `mine` names. -/
def State.framed (s : State) (mine : Nat → Bool) : List Nat :=
  ((s.place.frames.filterMap fun x => match x.2 with
    | .tile o t => if mine o then some (tileKey o t) else none
    | _ => none) ++
  (s.place.moves.filterMap fun m => match m.2.dest with
    | .frame _ => if mine (m.1 / 2 ^ 22) then some m.1 else none
    | _ => none)).eraseDups

/-- Tiles homed in a host page or on their way to one, by tileKey: of the objects that `mine` names. -/
def State.paged (s : State) (mine : Nat → Bool) : List Nat :=
  ((s.place.dir.filterMap fun d => if d.2.home = .host ∧ mine (d.1 / 2 ^ 22) then some d.1 else none) ++
  (s.place.moves.filterMap fun m => match m.2.dest with
    | .page _ => if mine (m.1 / 2 ^ 22) then some m.1 else none
    | _ => none)).eraseDups

/-- Object `o` is charged to partition `p` (R236). -/
def State.chargedTo (s : State) (p o : Nat) : Bool := (s.obj o).any fun y => y.part == p

/-- Stack tiles of partition `p`, those on their way counted (R236, R239). -/
def State.framesOf (s : State) (p : Nat) : Nat := (s.framed (s.chargedTo p)).length

/-- Host tiles of partition `p`, those on their way counted. -/
def State.pagesOf (s : State) (p : Nat) : Nat := (s.paged (s.chargedTo p)).length

/-- Partition `p` may take a further host page (R237). -/
def State.hostRoom (s : State) (p : Nat) : Bool :=
  !(s.freePages p).isEmpty && s.within (Fld.OBJ_QUOTA_HOST_LIMIT p) (s.pagesOf p + 1)

/-! ### Directories -/

/-- The home of a tile that has no directory entry of its own yet (R228). -/
def Obj.firstHome (x : Obj) : DirEnt := { home := if x.kind = .weights then .origin else .none }

/-- The directory entry of tile `t`. -/
def State.dirEnt (s : State) (o : Nat) (x : Obj) (t : Nat) : DirEnt := (NMap.find s.place.dir (tileKey o t)).getD x.firstHome

/-- HOME codes (R228). -/
def Home.code : Home → Nat
  | .origin => 0
  | .stack => 1
  | .host => 2
  | .none => 3

/-- The 8 bytes of a directory entry (R228). -/
def DirEnt.bytes (e : DirEnt) : List Byte :=
  leBytes 8 (e.home.code + 4 * bit1 e.moving + 8 * bit1 e.poisoned + 2 ^ 8 * e.frame + 2 ^ 32 * e.page)

/-- The burst that holds the entry of tile `t` (R228), none where the object has no directory frames. -/
def Obj.dirBurst (x : Obj) (t : Nat) : Option Nat := (x.dirFrames[t / 8192]?).map fun f => f * 1024 + t % 8192 / 8

/-- The entries of tile `t` and its seven neighbours as they lie in the stacks (R228), written as one burst (log entry 74). -/
def State.writeDir (s : State) (o : Nat) (x : Obj) (t : Nat) : State :=
  match x.dirBurst t with
  | none => s
  | some b => (s.ask none [b]).writeBurst b ((List.range 8).flatMap fun i => (s.dirEnt o x (8 * (t / 8) + i)).bytes) false

/-- A new directory: every entry is written (R228). -/
def State.initDir (s : State) (o : Nat) : State :=
  match s.obj o with
  | none => s
  | some x => s.each (List.range (ceilDiv x.size 8)) fun s i => s.writeDir o x (8 * i)

/-- A usage register moves by one tile (R236). -/
def State.charge (s : State) (f : Fld) (up : Bool) : State := s.setFld f (if up then s.fld f + 1 else s.fld f - 1)

/-- Directory entry of a tile written, with RESIDENT_TILES and the usage of its partition. -/
def State.setDir (s : State) (o t : Nat) (e : DirEnt) : State :=
  match s.obj o with
  | none => s
  | some x =>
    let old := s.dirEnt o x t
    let s := s.modPlace fun p =>
      { p with dir := if e = x.firstHome then NMap.del p.dir (tileKey o t) else NMap.ins p.dir (tileKey o t) e }
    let s := s.writeDir o x t
    let s := s.when ((old.home == .host || e.home == .host) && old != e) State.recountPages
    let s := s.when (old.home != .stack && e.home == .stack) fun s =>
      (s.charge (Fld.OBJ_USE_STACK_TILES x.part) true).modObj o fun x => { x with resident := x.resident + 1 }
    let s := s.when (old.home == .stack && e.home != .stack) fun s =>
      (s.charge (Fld.OBJ_USE_STACK_TILES x.part) false).modObj o fun x => { x with resident := x.resident - 1 }
    let s := s.when (old.home != .host && e.home == .host) fun s => s.charge (Fld.OBJ_USE_HOST_TILES x.part) true
    s.when (old.home == .host && e.home != .host) fun s => s.charge (Fld.OBJ_USE_HOST_TILES x.part) false

/-- The die of a new stack home (R225). -/
def Obj.dieFor (x : Obj) (t : Nat) : Nat :=
  if x.placeDie < 4 then x.placeDie
  else if x.placeDie = 5 then x.firstDie.getD (t % 4) else t % 4

/-- Stored size of a tile (R173, R262): weights have their own; every other tile holds 65,536 B. -/
def State.storedSize (s : State) (x : Obj) (t : Nat) : Nat :=
  if x.kind = .weights then
    match ((s.onyxObj x.origin.toNat).bind (·.tiles[t]?)) with
    | some p => p.2.2
    | none => 65536
  else 65536

/-! ### Marks and events of failed tiles -/

/-- The step's marks changed. -/
def State.modMarks (s : State) (f : Marks → Marks) : State := { s with marks := f s.marks }

/-- Every session of the step in these partitions has its token withheld (R245). -/
def State.withholdParts (s : State) (ps : List Nat) : State :=
  s.modMarks fun m => { m with withheldParts := ps.foldl addOnce m.withheldParts }

/-- TOKENS_WITHHELD to each partition, once per tick (R245, R251). -/
def State.tellWithheld (s : State) (ps : List Nat) (o t : Nat) : State :=
  let new := ps.filter fun p => !s.marks.told.contains p
  let s := s.modMarks fun m => { m with told := m.told ++ new }
  s.each new fun s p => s.postEvent p 0x02 o 0xFFFF t []

/-- A quarantine (R247): cause 0 host, 1 flash, 2 skew. -/
def State.quarantine (s : State) (o cause : Nat) : State :=
  match s.obj o with
  | none => s
  | some x =>
    if x.state ≠ .live then s
    else
      let s := s.modObj o fun x => { x with state := .quarantined }
      let s := s.count Ct.OBJ_QUARANTINES 1
      let s := s.jasper .quarantine x.part o cause
      s.each x.parts fun s p => s.postEvent p 0x03 o 0xFFFF 0 []

/-! ### Moves -/

/-- MOV.STATUS.BUSY of a die: its movers are taken from the lowest number up (R240, R253). -/
def State.recountMovers (s : State) (m : Nat) : State :=
  let n := (s.place.moves.filter fun p => p.2.die == m).length + (s.place.refetches.filter fun p => p.2.die == m).length
  s.setFld (Fld.MOV_STATUS_BUSY m) (2 ^ min n 8 - 1)

/-- A move begins (R230): MOVING and the destination field are set. FRAME and HOST_PAGE each have one place, and a move within a tier leaves its
source there until the switch: DESIGN CHOICE, log entry 81. -/
def State.startMove (s : State) (o t : Nat) (dest : Dest) (die : Nat) (evict : Bool) : State :=
  match s.obj o with
  | none => s
  | some x =>
    let e := s.dirEnt o x t
    let e := match dest with
      | .frame f => { e with moving := true, frame := if e.home = .stack then e.frame else f }
      | .page p => { e with moving := true, page := if e.home = .host then e.page else p }
      | .origin => { e with moving := true }
    let (seq, s) := s.notIdle.fresh
    (s.setDir o t e).modPlace (fun p => { p with moves := NMap.ins p.moves (tileKey o t) { dest, die, evict, seq } }) |>.recountMovers die

/-- Tiles that went back to ORIGIN for want of a frame are placed as soon as a frame of their die is free (R245); not under a policy that keeps
nothing in the stacks. -/
def State.replaceTiles (s : State) : State :=
  s.each s.place.replaceT fun s p =>
    if (s.obj (p.1 / 2 ^ 22)).any fun x => x.policy == .host || x.policy == .stream then
      s.modPlace fun x => { x with replaceT := NMap.del x.replaceT p.1 }
    else match s.takeFrame p.2 (.tile (p.1 / 2 ^ 22) (p.1 % 2 ^ 22)) with
    | some (f, s) =>
      (s.modPlace fun x => { x with replaceT := NMap.del x.replaceT p.1 }).startMove (p.1 / 2 ^ 22) (p.1 % 2 ^ 22) (.frame f) p.2 false
    | none => s

/-- A frame returns to the free list, and a tile that waits for one of its die is placed (R245). -/
def State.freeUp (s : State) (f : Nat) : State := (s.setFrame f none).replaceTiles

/-- Every frame in a given use returns to the free list. -/
def State.freeFrames (s : State) (u : FrameUse) : State :=
  s.each (s.place.frames.filter fun p => p.2 == u) fun s p => s.freeUp p.1

/-- A frame that has been released goes to the placement that waits for it, else to the free list (R237). -/
def State.releaseFrame (s : State) (f : Nat) : State :=
  match (s.place.moves.find? fun p => p.2.dest == .frame f).map (·.1), (s.place.refetches.find? fun p => p.2.dest == some f).map (·.1) with
  | some k, _ => s.setFrame f (some (.tile (k / 2 ^ 22) (k % 2 ^ 22)))
  | none, some k => s.setFrame f (some (.tile (k / 2 ^ 22) (k % 2 ^ 22)))
  | none, none => s.freeUp f

/-- A request of order `seq` has one of the eight movers of die `m` (R240). -/
def State.hasMover (s : State) (m seq : Nat) : Bool :=
  decide ((s.place.moves.filter fun p => p.2.die == m && decide (p.2.seq < seq)).length +
    (s.place.refetches.filter fun p => p.2.die == m && decide (p.2.seq < seq)).length < 8)

/-- The destination of a move that ends without its switch is given back. -/
def State.dropDest (s : State) (d : Dest) : State :=
  match d with
  | .frame f => match NMap.find s.place.frames f with
    | some (.tile _ _) =>
      if s.place.moves.any fun p => p.2.dest == .frame f then s else s.freeUp f
    | _ => s
  | .page p => s.freePage p
  | .origin => s

/-- A move ends without its switch, and the tile stays at its old home. Writes that it held are lost, on which R230 and R251 are silent: DESIGN
CHOICE, log entry 81. -/
def State.dropMove (s : State) (o t : Nat) : State :=
  match NMap.find s.place.moves (tileKey o t), s.obj o with
  | some m, some x =>
    let s := s.modPlace fun p => { p with moves := NMap.del p.moves (tileKey o t) }
    let e := s.dirEnt o x t
    let s := s.setDir o t { e with moving := false, frame := if e.home = .stack then e.frame else 0, page := if e.home = .host then e.page else 0 }
    let mine := match m.dest with
      | .frame f => NMap.find s.place.frames f == some (.tile o t)
      | _ => true
    (s.when mine fun s => s.dropDest m.dest).recountMovers m.die
  | _, _ => s

/-- A move abandoned at its old home (R251). What waits for the frame that it would have left is abandoned with it. -/
def State.abandonMove (s : State) (o t : Nat) : State :=
  match (NMap.find s.place.moves (tileKey o t)).isSome, (s.obj o).map fun x => s.dirEnt o x t with
  | true, some e =>
    let waiting := if e.home = .stack then s.place.moves.filter fun p => p.2.dest == .frame e.frame && p.1 != tileKey o t else []
    let s := s.each waiting fun s p => s.dropMove (p.1 / 2 ^ 22) (p.1 % 2 ^ 22)
    let s := s.modPlace fun p => { p with refetches := NMap.mapD ⟨0, none, none, 0⟩ (fun (r : Refetch) =>
      if e.home = .stack ∧ r.dest = some e.frame then { r with dest := none } else r) p.refetches }
    s.dropMove o t
  | _, _ => s

/-- A tile of a fetch in flight, by core. -/
def State.inFlight (s : State) (o t : Nat) : Bool :=
  s.fetches.any fun p => p.2.op.object.toNat == o && p.2.tiles.any fun x => x.tile == t

/-- A fetch in flight reads frame `f` (R230). -/
def State.frameRead (s : State) (f : Nat) : Bool := s.fetches.any fun p => p.2.tiles.any fun q => q.src == .frame f

/-! ### Failed reads (R244) -/

/-- A fetch's tile whose data comes from outside the frames. -/
def FetchTile.outside (x : FetchTile) : Bool := match x.src with | .frame _ => false | _ => true

/-- Every fetch in flight that would read tile `t` from outside the stacks receives a substituted tile instead (R246, R247). -/
def State.failFetches (s : State) (o t : Nat) : State :=
  let fix := fun (x : FetchTile) => if x.tile = t ∧ x.outside then { x with src := .subst } else x
  { s with fetches := s.fetches.map fun p =>
      if p.2.op.object.toNat = o then (p.1, { p.2 with tiles := p.2.tiles.map fix }) else p }

/-- The refetch of a tile is over (R245). -/
def State.endRefetch (s : State) (o t die : Nat) : State :=
  (s.modPlace fun p => { p with refetches := NMap.del p.refetches (tileKey o t) }).recountMovers die

/-- A read of a tile from the host tier (cause 0) or flash (cause 1) fails: the object is quarantined, its move or refetch ends and its
waiting fetches are substituted (R244, R245, R247). -/
def State.failTile (s : State) (o t cause : Nat) : State :=
  match s.obj o with
  | none => s
  | some x =>
    let s := s.when (cause == 0) fun s => s.hostTileFailed x.part o t
    let s := s.quarantine o cause
    let s := (s.abandonMove o t).failFetches o t
    match NMap.find s.place.refetches (tileKey o t) with
    | some r =>
      let s := s.endRefetch o t r.die
      match r.dest with
      | some f => s.when (NMap.find s.place.frames f == some (.tile o t)) fun s => s.releaseFrame f
      | none => s
    | none => s

/-! ### Poisoned tiles (R245, R248) -/

/-- A step is running. -/
def State.stepping (s : State) : Bool := s.fld Fld.GARNET_STATUS_STATE == 1

/-- A consumer of the step waits on a poisoned weight tile, from its first read in the step (R245). -/
def State.startWait (s : State) (o t : Nat) : State :=
  let k := tileKey o t
  if s.place.expired.contains k ∨ (NMap.find s.place.waits k).isSome then s
  else s.modPlace fun p => { p with waits := NMap.ins p.waits k s.now }

/-- The refetch of a weight tile from its origin begins, once (R245, R251). -/
def State.startRefetch (s : State) (o t die : Nat) (old : Option Nat) : State :=
  let k := tileKey o t
  if (NMap.find s.place.refetches k).isSome then s
  else
    let (seq, s) := s.fresh
    let s := s.modPlace fun p => { p with refetches := NMap.ins p.refetches k { die, old, seq } }
    (s.count Ct.OBJ_REFETCHES 1).recountMovers die

/-- An uncorrectable burst has been read in tile `t` at its home in the stacks (R245, R248): it is marked POISONED, once; a weight tile is
refetched, a cache or session tile has lost its data, and a work tile withholds its partition's tokens of the tick. -/
def State.poisonTile (s : State) (o t : Nat) : State :=
  match s.obj o with
  | none => s
  | some x =>
    let e := s.dirEnt o x t
    let s := s.when (!e.poisoned) fun s =>
      let s := (s.setDir o t { e with poisoned := true }).count Ct.OBJ_POISONED_TILES 1
      let s := s.jasper .tilePoisoned x.part o t
      s.modPlace fun p => { p with rewritten := NMap.del p.rewritten (tileKey o t) }
    match x.kind with
    | .weights => s.startRefetch o t (if e.home = .stack then frameDie e.frame else x.dieFor t) (if e.home = .stack then some e.frame else none)
    | .cache | .session =>
      s.when (!e.poisoned) fun s => (s.jasper .dataLost x.part o t).postEvent x.part 0x04 o x.session.toNat t []
    | .work => s.when s.stepping fun s => s.withholdParts [x.part]
    | _ => s

/-- A lookup of tile `t` in the directory cache of the die whose stack holds the entry (R228): a hit, or a miss that reads the entry's
burst. The oldest of the 16,384 lines of eight entries is dropped (log entry 17). An entry whose burst is uncorrectable is treated as an
uncorrectable read of its tile (log entry 74). -/
def State.lookup (s : State) (o : Nat) (x : Obj) (t : Nat) : State :=
  match x.dirBurst t with
  | none => s
  | some b =>
    let m := frameDie (b / 1024)
    let line := (o, t / 8)
    let lines := NMap.get [] s.place.dirCache m
    if lines.contains line then s.count (Ct.MOV_DIR_HITS m) 1
    else
      let s := (s.count (Ct.MOV_DIR_MISSES m) 1).ask none [b]
      let r := s.readBurst b []
      let s := r.2.modPlace fun p => { p with dirCache := NMap.ins p.dirCache m (pushBounded 16384 lines line) }
      if r.1.bad then s.poisonTile o t else s

/-- A poisoned frame that holds a tile, reported by scrub or met by a read (R245, R250): the tile that it holds. -/
def State.tileInFrame (s : State) (f : Nat) : Option (Nat × Nat) :=
  match NMap.find s.place.frames f with
  | some (.tile o t) => match s.obj o with
    | some x => let e := s.dirEnt o x t; if e.home = .stack ∧ e.frame = f then some (o, t) else none
    | none => none
  | _ => none

/-- A directory entry names a frame that does not exist (R250). -/
def State.frameBad (s : State) (e : DirEnt) : Bool := decide (s.frameN ≤ frameFl e.frame)

/-- A directory entry that names no frame is recorded and treated as an uncorrectable read of its tile (R250). -/
def State.badFrame (s : State) (o : Nat) (x : Obj) (t f : Nat) : State := (s.jasper .frameInvalid x.part o f).poisonTile o t

/-! ### Paths between dies (R18, R19, R444) -/

/-- `n` 4 KiB units between compute die `d` and frame `f`. -/
def State.nearPath (s : State) (d f n : Nat) : State :=
  let m := frameDie f
  let s := (s.count (Ct.CDC_BOND_UNITS m) n).crossBridges d m n
  s.when (m != d) fun s => s.count (Ct.MDC_FAR_UNITS m) n

/-- `n` 4 KiB units from the I/O die to compute die `d`. -/
def State.ioPath (s : State) (d n : Nat) : State := (s.count (Ct.MDC_IOD_IN_UNITS d) n).count (Ct.CDC_BOND_UNITS d) n

/-- `n` 4 KiB units from the home that `e` names to compute die `d`. -/
def State.homePath (s : State) (d : Nat) (e : DirEnt) (n : Nat) : State :=
  match e.home with
  | .stack => s.nearPath d e.frame n
  | .host | .origin => s.ioPath d n
  | .none => s

/-- FAR for a frame of the stacks of another die than compute die `d` (R242). -/
def farTier (d f : Nat) : List Tier := if frameDie f = d then [] else [.far]

/-- The tiers that a read of the home `e` by compute die `d` waits on (R242). -/
def DirEnt.tiers (e : DirEnt) (d : Nat) : List Tier :=
  match e.home with
  | .stack => farTier d e.frame
  | .host => [.host]
  | .origin => [.flash]
  | .none => []

/-! ### Eviction (R237) -/

/-- An eviction candidate on a die: its keys are QUOTA_CLASS, AGE, object and tile. -/
structure Victim where
  cls    : Nat
  age    : BitVec 32
  object : Nat
  tile   : Nat
  frame  : Nat
  deriving DecidableEq, Repr

/-- `a` is chosen before `b` (R237). -/
def Victim.before (a b : Victim) : Bool :=
  if a.cls ≠ b.cls then decide (a.cls < b.cls)
  else if a.age ≠ b.age then earlier a.age b.age
  else if a.object ≠ b.object then decide (b.object < a.object)
  else decide (b.tile < a.tile)

/-- Candidates on die `m`, of partition `p` only where it is given (R237, R251). -/
def State.victims (s : State) (m : Nat) (p : Option Nat) : List Victim :=
  s.place.frames.filterMap fun fr =>
    if frameDie fr.1 ≠ m then none
    else match fr.2 with
      | .tile o t => match s.obj o with
        | some x =>
          let e := s.dirEnt o x t
          if x.policy = .resident ∧ x.state = .live ∧ x.age ≠ s.tick ∧ e.home = .stack ∧ e.frame = fr.1 ∧ !e.moving ∧
              (p.all fun p => x.part == p) ∧ !s.inFlight o t ∧ (NMap.find s.place.refetches (tileKey o t)).isNone ∧
              (!x.writable ∨ s.hostRoom x.part) then some ⟨x.cls, x.age, o, t, fr.1⟩
          else none
        | none => none
      | _ => none

/-- The victim, if there is a candidate. -/
def State.victim (s : State) (m : Nat) (p : Option Nat) : Option Victim :=
  (s.victims m p).foldl (fun (b : Option Victim) v => match b with | none => some v | some w => if v.before w then some v else some w) none

/-- A weight tile's home returns to ORIGIN, and its frame is free at once, or once the reads of it in flight have finished (R230, R231,
R237). The frame of a poisoned tile is first written whole and read back (R245). -/
def State.toOrigin (s : State) (o t : Nat) : State :=
  match s.obj o with
  | none => s
  | some x =>
    let e := s.dirEnt o x t
    if e.home ≠ .stack then s
    else
      let s := s.setDir o t { home := .origin }
      let s := (s.count Ct.OBJ_MOVES 1).count (Ct.MOV_TILES_OUT (frameDie e.frame)) 1
      if e.poisoned then s.setFrame e.frame (some (.readback o))
      else if s.frameRead e.frame then s.setFrame e.frame (some (.source o t)) else s.releaseFrame e.frame

/-- A victim leaves its frame: at once for weights, by a move to a host page for a writable tile (R237). -/
def State.evict (s : State) (v : Victim) : State :=
  let s := s.count Ct.OBJ_EVICTIONS 1
  match s.obj v.object with
  | none => s
  | some x =>
    if !x.writable then s.toOrigin v.object v.tile
    else match s.takePage x.part with
      | some (pg, s) => s.startMove v.object v.tile (.page pg) (frameDie v.frame) true
      | none => s

/-- What a placement finds on a die (R237, R238). -/
inductive Room
  /-- a frame, taken for the tile -/
  | frame (f : Nat)
  /-- the frame of a writable victim, once its move has switched -/
  | wait (f : Nat)
  | full

/-- Room for tile (o, t) on die `m`: a free frame, else that of a victim. -/
def State.roomOn (s : State) (o t m : Nat) (p : Option Nat) (freeToo : Bool) : Room × State :=
  match (if freeToo then s.takeFrame m (.tile o t) else none) with
  | some (f, s) => (.frame f, s)
  | none =>
    match s.victim m p with
    | none => (.full, s)
    | some v =>
      let weight := (s.obj v.object).any fun x => !x.writable
      let s := s.evict v
      if weight then (.frame v.frame, s.setFrame v.frame (some (.tile o t))) else (.wait v.frame, s)

/-- Room on the first of the dies that has some. -/
def State.roomAmong (s : State) (o t : Nat) (p : Option Nat) : List Nat → Room × State
  | [] => (.full, s)
  | m :: rest =>
    let r := s.roomOn o t m p true
    match r.1 with
    | .full => r.2.roomAmong o t p rest
    | _ => r

/-- Room for a placement of tile (o, t) whose own die is `m` (R237, R238): in POOL mode on that die; in QUOTA mode, below the partition's
stack limit, on the four dies in order; at the limit only in place of a tile of its own there (log entry 18). -/
def State.findRoom (s : State) (o t m : Nat) : Room × State :=
  match s.obj o with
  | none => (.full, s)
  | some x =>
    if !s.quota then s.roomOn o t m none true
    else if s.within (Fld.OBJ_QUOTA_STACK_LIMIT x.part) (s.framesOf x.part + 1) then
      s.roomAmong o t (some x.part) [m, (m + 1) % 4, (m + 2) % 4, (m + 3) % 4]
    else s.roomOn o t m (some x.part) false

/-- A placement into the stacks begins, where there is room (R233, R237): whether it does, and whether it waits for an eviction. -/
def State.placeTile (s : State) (o t m : Nat) : Option Bool × State :=
  let r := s.findRoom o t m
  match r.1 with
  | .full => (none, r.2)
  | .frame f => (some false, r.2.startMove o t (.frame f) (frameDie f) false)
  | .wait f => (some true, r.2.startMove o t (.frame f) (frameDie f) false)

/-! ### Writing tiles -/

/-- A tile rewritten in full since it was poisoned is poisoned no longer (R248). -/
def State.noteRewrite (s : State) (o t ofs n : Nat) : State :=
  match s.obj o with
  | none => s
  | some x =>
    let e := s.dirEnt o x t
    if !e.poisoned ∨ x.kind = .weights then s
    else
      let k := tileKey o t
      let old := NMap.get [] s.place.rewritten k
      let new := (List.range 1024).filter fun b => old.contains b || (decide (ofs ≤ 64 * b) && decide (64 * b + 64 ≤ ofs + n))
      if new.length = 1024 then
        (s.setDir o t { e with poisoned := false }).modPlace fun p => { p with rewritten := NMap.del p.rewritten k }
      else s.modPlace fun p => { p with rewritten := NMap.set [] p.rewritten k new }

/-- `bs` written at offset `ofs` of the home that entry `e` names. -/
def State.writeHome (s : State) (o t ofs : Nat) (e : DirEnt) (bs : List Byte) : State :=
  match e.home with
  | .stack => (s.putSpan ((s.obj o).map fun x => x.part) (frameSpa e.frame + ofs) bs).noteRewrite o t ofs bs.length
  | .host => s.when (s.pageOk e.page) fun s => (s.hostWrite (s.pageAddr e.page + ofs) bs).noteRewrite o t ofs bs.length
  | _ => s

/-- A write that reaches tile `t` (R227, R230): discarded for weights, held at the mover while the tile moves, else made at its home. -/
def State.writeTile (s : State) (o t ofs : Nat) (bs : List Byte) : State :=
  match s.obj o with
  | none => s
  | some x =>
    let k := tileKey o t
    if x.kind = .weights then s.jasper .weightWrite x.part o t
    else match NMap.find s.place.moves k with
      | some m => s.modPlace fun p => { p with moves := NMap.ins p.moves k { m with held := m.held ++ [(ofs, bs)] } }
      | none => s.writeHome o t ofs (s.dirEnt o x t) bs

/-- A home given at once to a tile that has none, filled with zeros (R228), for a write of the device's own: a page for the HOST policy,
else a frame. None is given beyond the partition's limits (R235). -/
def State.giveHome (s : State) (o t : Nat) : State :=
  match s.obj o with
  | none => s
  | some x =>
    if (s.dirEnt o x t).home ≠ .none ∨ (NMap.find s.place.moves (tileKey o t)).isSome then s
    else if x.policy = .host then
      match (if s.hostRoom x.part then s.takePage x.part else none) with
      | none => s
      | some (pg, s) =>
        let s := s.hostWrite (s.pageAddr pg) (List.replicate 65536 0#8)
        ((s.setDir o t { home := .host, page := pg }).count Ct.OBJ_MOVES 1).count (Ct.MOV_BYTES_MOVED 0) 65536
    else
      match (if s.within (Fld.OBJ_QUOTA_STACK_LIMIT x.part) (s.framesOf x.part + 1) then s.takeFrame (x.dieFor t) (.tile o t) else none) with
      | none => s
      | some (f, s) =>
        let s := s.writeFrame (some x.part) f (List.replicate 65536 0#8)
        let s := ((s.setDir o t { home := .stack, frame := f }).count Ct.OBJ_MOVES 1).count (Ct.MOV_TILES_IN (frameDie f)) 1
        s.count (Ct.MOV_BYTES_MOVED (frameDie f)) 65536

/-! ### Reading tiles -/

/-- What a read of a whole tile at its home gives. -/
inductive TileData
  /-- its bytes, with the 64 B units that carry poison -/
  | bytes (bs : List Byte) (bad : List Nat)
  /-- the host tier (0) or flash (1) could not be read (R244) -/
  | failed (cause : Nat)
  deriving DecidableEq, Repr

/-- Tile `t` read in its stored form at the home that `e` names, as partition `part`'s traffic. -/
def State.readHome (s : State) (part : Option Nat) (o : Nat) (x : Obj) (t : Nat) (e : DirEnt) : TileData × State :=
  let n := s.storedSize x t
  match e.home with
  | .stack =>
    if s.frameBad e then (.bytes (List.replicate n 0#8) (List.range (ceilDiv n 64)), s.jasper .frameInvalid x.part o e.frame)
    else let r := s.readFrame part e.frame n; (.bytes r.1.1 r.1.2, r.2)
  | .host => if s.pageOk e.page then (.bytes (s.host.rdBlk (s.pageAddr e.page) n) [], s) else (.failed 0, s)
  | .origin => match s.originTile x.origin.toNat t with
    | (some bs, s) => (.bytes bs [], s)
    | (none, s) => (.failed 1, s)
  | .none => (.bytes (List.replicate n 0#8) [], s)

/-- `n` bytes at offset `ofs` of tile `t`, within one burst, read at its home: none where they are poisoned or cannot be read, the tile then
being handled as such (R244, R248, R250). -/
def State.readTile (s : State) (o t ofs n : Nat) : Option (List Byte) × State :=
  match s.obj o with
  | none => (none, s)
  | some x =>
    let e := s.dirEnt o x t
    match e.home with
    | .stack =>
      if s.frameBad e then (none, s.badFrame o x t e.frame)
      else
        let r := s.readSpan (some x.part) (frameSpa e.frame + ofs) n
        if r.1.2 = [] then (some r.1.1, r.2) else (none, r.2.poisonTile o t)
    | .host => if s.pageOk e.page then (some (s.host.rdBlk (s.pageAddr e.page + ofs) n), s) else (none, s.failTile o t 0)
    | _ => (some (List.replicate n 0#8), s)

/-- The 64 bytes at unified address `a`, within one burst, of an object in the stacks: what programs, segments and slot tables are read
through, by compute die `d` as partition `part`'s traffic (R42, R146, R152). None where the address names nothing, the tile is not in the
stacks, the read is poisoned, which marks the tile, or code is still marked so (R248, R250). The first burst of each 4 KiB looks the tile up and counts as one unit
of the path (log entry 73). -/
def State.readProg (s : State) (d : Nat) (part : Option Nat) (a : Nat) : Option (List Byte) × State :=
  match s.objAt (a / 65536) with
  | none => (none, s)
  | some (o, x) =>
    let t := a / 65536 - x.base
    let first := decide (a % 4096 < 64)
    let s := s.when first fun s => s.lookup o x t
    let e := s.dirEnt o x t
    if e.home ≠ .stack then (none, s)
    else if s.frameBad e then (none, s.badFrame o x t e.frame)
    else
      let r := (s.when first fun s => s.nearPath d e.frame 1).readSpan part (frameSpa e.frame + a % 65536 / 64 * 64) 64
      if r.1.2 != [] then (none, r.2.poisonTile o t)
      else (if e.poisoned ∧ x.kind = .code then none else some r.1.1, r.2)

/-- Every tile of [a, a + n) of the unified range is of an object pinned in the stacks (R42, R146, R152, R233). -/
def State.pinnedRange (s : State) (a n : Nat) : Bool :=
  (List.range ((a + n - 1) / 65536 - a / 65536 + 1)).all fun i => (s.objAt (a / 65536 + i)).any fun p => p.2.pinnedNow

/-! ### Tables' references (R178, R179) -/

/-- Installation `i` holds table `id` (R169). -/
def State.tableHeld (s : State) (id : Nat) : Bool := match s.flash.inst with | some i => i.held.contains id | none => false

/-- CTAB.STATUS.LIVE_COUNT follows the states. -/
def State.recountTables (s : State) : State :=
  s.setFld Fld.CTAB_STATUS_LIVE_COUNT (((List.range 64).filter fun i => s.fld (Fld.CTAB_ID_STATE_STATE i) == 2).length)

/-- A table returns to FREE when its REFS is 0 and no installation holds it (R169, R178): a LIVE one, and one whose record is still being written
when the last installation lets it go. -/
def State.settleTable (s : State) (id : Nat) : State :=
  if s.fld (Fld.CTAB_ID_STATE_STATE id) ≠ 0 ∧ s.fld (Fld.CTAB_ID_REFS_REFS id) = 0 ∧ !s.tableHeld id then
    let s := (s.setFld (Fld.CTAB_ID_STATE_STATE id) 0).recountTables
    s.each (List.range 64) fun s k => s.modCluster k fun x =>
      { x with tables := NMap.set {} x.tables id { NMap.get {} x.tables id with live := false } }
  else s

/-- REFS of a table grows by `n`. -/
def State.refTable (s : State) (id n : Nat) : State := s.setFld (Fld.CTAB_ID_REFS_REFS id) (s.fld (Fld.CTAB_ID_REFS_REFS id) + n)

/-- REFS of a table falls by `n`. -/
def State.unrefTable (s : State) (id n : Nat) : State :=
  (s.setFld (Fld.CTAB_ID_REFS_REFS id) (s.fld (Fld.CTAB_ID_REFS_REFS id) - n)).settleTable id

/-- The references that fetched copies still hold return when the step ends (R179). -/
def State.returnRefs (s : State) : State :=
  let s := s.each s.place.heldRefs fun s id => s.unrefTable id 1
  let s := s.modPlace fun p => { p with heldRefs := [] }
  let ids := s.cores.flatMap fun c => c.2.fills.filterMap (·.ref)
  let s := s.each ids fun s id => s.unrefTable id 1
  { s with cores := NMap.mapD {} (fun x => { x with fills := x.fills.map fun f => { f with ref := none } }) s.cores }

/-! ### Deletion (R251, R339) -/

/-- Entries of a placement map that belong to other objects. -/
def othersOf {β : Type} (o : Nat) (m : NMap β) : NMap β := m.filter fun p => p.1 / 2 ^ 22 != o

/-- A frame that a DELETING object still holds: a tile's, its directory's, or the source of a move. -/
def FrameUse.ofObj (o : Nat) : FrameUse → Bool
  | .tile p _ => p == o
  | .source p _ => p == o
  | .directory p => p == o
  | _ => false

/-- The commands of a deletion complete (R339): for weights, once OBJ_DELETE is durable; the tables that its coded tiles name lose their
references (R179), and its flash its charge (R236). -/
def State.endDelete (s : State) (x : Obj) (cmds : List CmdRef) : State :=
  match (if x.kind = .weights then (s.onyxObj x.origin.toNat).filter OnyxObj.committed else none) with
  | some y =>
    let s := s.setFld (Fld.OBJ_USE_FLASH_TILES x.part) (s.fld (Fld.OBJ_USE_FLASH_TILES x.part) - x.size)
    let s := s.each y.refs fun s r => s.unrefTable r.1 r.2
    (s.journal [.objDelete x.origin.toNat]).modFlash fun f => { f with deletes := f.deletes ++ [(x.origin.toNat, cmds)] }
  | none => s.each cmds fun s c => s.completeCmd c .success 0

/-- An object's entry, directory, tiles and host pages are freed. What its placement commands still had to move is left (log entry 20). -/
def State.dropObject (s : State) (o : Nat) : State :=
  match s.obj o with
  | none => s
  | some x =>
    let s := s.each (s.place.moves.filter fun p => p.1 / 2 ^ 22 == o) fun s p => s.abandonMove o (p.1 % 2 ^ 22)
    let jobs := s.place.jobs.filter fun j => j.object == o
    let hosted := (s.place.dir.filter fun p => p.1 / 2 ^ 22 == o && p.2.home == .host).map fun p => p.2.page
    let s := s.modPlace fun p =>
      { p with refetches := othersOf o p.refetches, jobs := p.jobs.filter fun j => j.object != o, dir := othersOf o p.dir
               waits := othersOf o p.waits, replaceT := othersOf o p.replaceT, rewritten := othersOf o p.rewritten
               expired := p.expired.filter fun k => k / 2 ^ 22 != o
               dirCache := NMap.mapD [] (fun l => l.filter fun e => e.1 != o) p.dirCache }
    let s := s.each (List.range 4) State.recountMovers
    let s := s.each (hosted ++ (s.place.oldPages.filter fun p => p.1 / 2 ^ 22 == o).map fun p => p.2) State.freePage
    let s := s.modPlace fun p => { p with oldPages := othersOf o p.oldPages }
    let s := s.each (s.place.frames.filter fun p => p.2.ofObj o) fun s p => s.releaseFrame p.1
    let s := s.setFld (Fld.OBJ_USE_STACK_TILES x.part) (s.fld (Fld.OBJ_USE_STACK_TILES x.part) - x.resident)
    let s := s.setFld (Fld.OBJ_USE_HOST_TILES x.part) (s.fld (Fld.OBJ_USE_HOST_TILES x.part) - hosted.length)
    let s := (s.modPlace fun p => { p with objs := NMap.del p.objs o }).recountObjs
    let s := s.each jobs fun s j => match j.done with | some c => s.completeCmd c .aborted 0 | none => s
    s.endDelete x (x.dying.getD [])

/-- DELETING objects of which no fetch remains are freed (R251). -/
def State.settleDeletes (s : State) : State :=
  s.each (s.place.objs.filter fun p => p.2.state == .deleting && !(s.fetches.any fun f => f.2.op.object.toNat == p.1)) fun s p =>
    s.dropObject p.1

end Sys2Proof.Machine
end

