-- ==== Sys2Proof/Machine/CoreOps.lean ====
section
/-! DEFINITION. Shared operations of a core: its queues, errors and abandonment (R46, R51, R54), token and credit counters (R49 to
R52), the records of the precision guard and the closing of its slots (R142 to R148, R155, R156). -/

namespace Sys2Proof

/-- Units of a class 0x5 operation (R138). -/
def CacheOp.units (o : CacheOp) : Nat := o.len.toNat + 1
/-- Credits that WRITE, ADD and MAX draw (R138). -/
def CacheOp.credits (o : CacheOp) : Nat := Machine.ceilDiv o.units 64
end Sys2Proof

namespace Sys2Proof.Machine

/-- A sequencer stops and its queues are discarded (R54). A segment is discarded with the rest (R157). -/
def CoreSt.stop (x : CoreSt) : CoreSt := { x with q := [], seg := none, held := [] }

/-- Table references of the fetches in flight (R179). -/
def State.fetchRefs (s : State) : List Nat := s.fetches.flatMap fun f => f.2.tiles.filterMap fun x => x.ref

/-- The step is abandoned (R54): every sequencer of the device stops and discards its queues; signals on their way are ignored;
closes, decisions and re-runs of the guard are discarded (R157). `received` tells a received abandon from a local cause. The token is
issued by ABANDON_DONE, once every core has stopped. Nothing happens where no step is running. -/
def State.abandonStep (s : State) (received : Bool) : State :=
  if s.tickState ≠ stRunning then s
  else
    let s := s.setFld Fld.GARNET_STATUS_STATE stAbandoning
    let s := { s with cores := NMap.mapD {} CoreSt.stop s.cores
                      engs := NMap.mapD {} (fun x => { x with hold := none, run := none }) s.engs
                      clusters := NMap.mapD {} (fun x => { x with closing := [], rerunQ := [] }) s.clusters
                      flights := []
                      fetches := []
                      place := { s.place with heldRefs := s.place.heldRefs ++ s.fetchRefs }
                      abandonCause := if received then none else s.lastEvent
                      garnet := { s.garnet with abandoned := true } }
    let s := s.each (List.range 64) fun s k =>
      s.when (s.fld (Fld.GUARD_STATUS_RERUN_ACTIVE k) == 1) fun s => s.setFld (Fld.GUARD_STATUS_RERUN_ACTIVE k) 0
    s.jasper .abandon 0 (bit1 received) (s.rd Rg.GARNET_TICK).toNat

/-! ### Errors -/

/-- Where an instruction stands: its index, its program's PROGRAM_ID and the slot of the re-run segment it belongs to. -/
structure Prog where
  idx : Nat
  pid : BitVec 16
  seg : Option Nat
  deriving DecidableEq, Repr

/-- A bit of SEQ.ERROR is set and recorded, with ERROR_PC where ERROR was all zero (R59). -/
def State.seqError (s : State) (c : Nat) (f : Fld) (pc : Nat) (pid : BitVec 16) : State :=
  let s := s.when (s.rd (Rg.SEQ_ERROR c) == 0#32) fun s => s.setFld (Fld.SEQ_ERROR_PC_ERROR_PC c) pc
  let s := s.raise f
  s.jasper .seqError c (bvGet 0 8 (s.rd (Rg.SEQ_ERROR c)) + 256 * s.fld (Fld.SEQ_ERROR_PC_ERROR_PC c)) pid.toNat

/-- An unused encoding (R45, R47, R61, R107, R121): the bit is set and the step abandoned. -/
def State.unusedEnc (s : State) (c : Nat) (p : Prog) : State :=
  (s.seqError c (Fld.SEQ_ERROR_UNUSED_ENCODING c) p.idx p.pid).abandonStep false

/-- A fetch error (R42, R48, R152). -/
def State.fetchError (s : State) (c : Nat) (p : Prog) : State :=
  (s.seqError c (Fld.SEQ_ERROR_FETCH_ERROR c) p.idx p.pid).abandonStep false

/-- A command error of engine `g` (R111). -/
def State.engCmdErr (s : State) (g : Nat) (p : Prog) : State :=
  let s := s.raise (Fld.ENG_STATUS_COMMAND_ERROR g)
  (s.jasper .engineCommand g p.idx p.pid.toNat).abandonStep false

/-- A command error of core `c` (R121). -/
def State.vecCmdErr (s : State) (c : Nat) (p : Prog) : State :=
  let s := s.raise (Fld.VEC_STATUS_COMMAND_ERROR c)
  (s.jasper .vectorCommand c p.idx p.pid.toNat).abandonStep false

/-! ### Token and credit counters -/

/-- The field that holds T`n` of core `c`: EVEN or ODD of TOKEN_(n/2) (R59). -/
def tokFld (c n : Nat) : Fld := ⟨Rg.SEQ_TOKEN c (n / 2), 16 * (n % 2), 16⟩
/-- The field that holds C`n` of core `c` (R59). -/
def credFld (c n : Nat) : Fld := ⟨Rg.SEQ_CREDIT c (n / 2), 16 * (n % 2), 16⟩

/-- The field of a counter. -/
def sigFld (c : Nat) (k : SigKind) (n : Nat) : Fld := match k with | .token => tokFld c n | .credit => credFld c n

/-- An addition to a token or credit counter (R49, R51): past 0xFFFF it stays there, sets the overflow bit at the value PC holds,
and abandons the step. -/
def State.addSig (s : State) (c : Nat) (k : SigKind) (n amt : Nat) : State :=
  let v := s.fld (sigFld c k n) + amt
  if v ≤ 0xFFFF then s.setFld (sigFld c k n) v
  else
    let s := s.setFld (sigFld c k n) 0xFFFF
    let f := match k with | .token => Fld.SEQ_ERROR_TOKEN_OVERFLOW c | .credit => Fld.SEQ_ERROR_CREDIT_OVERFLOW c
    (s.seqError c f (s.fld (Fld.SEQ_PC_PC c)) (s.core c).pid).abandonStep false

/-- Core cycles from one core to another of the device (R52). -/
def sigCycles (src dst : Nat) : Nat :=
  if src = dst then 2
  else if clusterOf src = clusterOf dst then 8
  else if dieOf src = dieOf dst then 24
  else if (dieOf src + 2) % 4 = dieOf dst then 72 else 48

/-- A signal or credit return sets out (R49, R52). -/
def State.sendSig (s : State) (src dst : Nat) (k : SigKind) (n amt : Nat) : State :=
  { s with flights := s.flights ++ [⟨some src, dst, k, n, amt, sigCycles src dst⟩] }

/-- Distance of a cluster from a core for the costs of R140: 0 own cluster, 16, 40 or 64 cycles. -/
def farCycles (c k : Nat) : Nat :=
  if clusterOf c = k then 0
  else if dieOf c = k / 16 then 16
  else if (dieOf c + 2) % 4 = k / 16 then 64 else 40

/-! ### The core buffer -/

/-- 64 B units that [a, a+n) touches. -/
def unitsOf (a n : Nat) : List Nat := if n = 0 then [] else (List.range ((a + n - 1) / 64 - a / 64 + 1)).map (· + a / 64)

/-- Unit `u` lies wholly in [a, a+n). -/
def coversUnit (a n u : Nat) : Bool := decide (a ≤ 64 * u) && decide (64 * u + 64 ≤ a + n)

/-- A copy notes the units of the list that lie in it. -/
def Fill.overwrite (f : Fill) (us : List Nat) : Fill :=
  { f with dirty := f.dirty ++ us.filter fun u => decide (f.unit ≤ u) && decide (u < f.unit + f.units) && !f.dirty.contains u }

/-- Bytes written to the core buffer by an instruction: units written whole have good parity again (log entry 14), and copies of tiles
note what was written over them (R249). -/
def CoreSt.put (x : CoreSt) (a : Nat) (bs : List Byte) : CoreSt :=
  { x with buf := x.buf.wrBlk a bs
           bufBad := x.bufBad.filter fun u => !coversUnit a bs.length u
           fills := x.fills.map fun f => f.overwrite (unitsOf a bs.length) }

/-- Some byte of [a, a+n) has bad parity. -/
def CoreSt.bad (x : CoreSt) (a n : Nat) : Bool := !x.bufBad.isEmpty && (unitsOf a n).any fun u => x.bufBad.contains u

/-- Activation bytes with bad parity consumed by core `c` (R249, fourth row): every session of the step in the core's partition has its
token marked suspect. -/
def State.actParity (s : State) (c : Nat) : State :=
  let s := s.jasper .actParity c (s.partOf c) 0
  { s with marks := { s.marks with suspectParts := addOnce s.marks.suspectParts (s.partOf c) } }

/-- A tile fault was met before in this step (R186). -/
def metBefore (l : List TileFault) (object tile : Nat) : Bool := l.any fun f => f.object == object && f.tile == tile

/-- The session of a cache object has its token withheld (R249). -/
def State.withholdSess (s : State) (o : Nat) : State :=
  match s.obj o with
  | some x => s.modMarks fun m => { m with withheldSess := addOnce m.withheldSess x.session.toNat }
  | none => s

/-- A copy made a substituted one (R246): every copy of the tile that covers the address, or one noted there. -/
def CoreSt.subAt (x : CoreSt) (object tile a units : Nat) : CoreSt :=
  let at_ := fun (f : Fill) => f.object == object && f.tile == tile && 64 * f.unit == a
  if x.fills.any at_ then
    { x with fills := mapWhere at_ (fun f => { f with sub := true, poison := false, dirty := [] }) x.fills }
  else
    let h := TileHdr.read x.buf a
    { x with fills := ⟨a / 64, 64 * ceilDiv units 64, object, tile, .weight, h.format, h.group, false, true, [], none⟩ :: x.fills }

/-- A consumer on core `c` receives a substituted tile (R246): counted, recorded, and every session of the object's partitions has its
token withheld and is told (R245). -/
def State.substituteAt (s : State) (c object tile a units : Nat) : State :=
  let s := (s.modCore c fun x => x.subAt object tile a units).count Ct.OBJ_SUBSTITUTIONS 1
  match s.obj object with
  | none => s
  | some x => ((s.jasper .tileSubstituted x.part object tile).withholdParts x.parts).tellWithheld x.parts object tile

/-- What a refetch of a tile from its home brings. -/
inductive Refetched
  /-- the object has gone: the refetch brings nothing -/
  | gone
  /-- a quarantined object's tile is substituted (R247) -/
  | sub
  /-- the tile, its bad 64 B units, and whether it comes poisoned -/
  | data (bytes : List Byte) (bad : List Nat) (poison : Bool)

/-- A tile of object `o` read again from its home (R186, R249): what comes, and its way (near, far, host or flash). -/
def State.refetchRead (s : State) (c o t : Nat) : Refetched × State :=
  match s.obj o with
  | none => (.gone, s)
  | some x =>
    if x.state = .quarantined then (.sub, s)
    else
      let e := s.dirEnt o x t
      match s.readHome (some (s.partOf c)) o x t e with
      | (.failed cause, s) => (.sub, s.failTile o t cause)
      | (.bytes bs bad, s) =>
        let s := s.homePath (dieOf c) e (ceilDiv bs.length 4096)
        (.data bs bad (!bad.isEmpty || e.poisoned), s.when (!bad.isEmpty) fun s => s.poisonTile o t)

/-- What a refetch brought lies in core `c`'s buffer at byte `a`: false where the tile is poisoned or has not come. -/
def State.refetchPut (s : State) (c o t a : Nat) : Refetched → Bool × State
  | .gone => (false, s)
  | .sub => (true, s.substituteAt c o t a 0)
  | .data bs bad poison =>
    let units := ceilDiv bs.length 64
    (!poison, s.modCore c fun x =>
      { x with buf := x.buf.wrBlk a bs
               bufBad := (x.bufBad.filter fun u => decide (u < a / 64) || decide (a / 64 + units ≤ u)) ++ bad.map (· + a / 64)
               fills := mapWhere (fun f => 64 * f.unit == a) (fun f => { f with poison := poison, dirty := [] }) x.fills })

/-- The fetched copy of a weight or CACHE tile that accounts for unit `u`: no instruction has written it since (R249). -/
def CoreSt.copyOf (x : CoreSt) (u : Nat) : Option Fill :=
  x.fills.find? fun f => f.kind != .other && decide (f.unit ≤ u) && decide (u < f.unit + f.units) && !f.dirty.contains u

/-- Unit `u` of the core buffer consumed away from a port: bad parity there is handled under R249 by the data it hits. A tile's copy is
refetched from its home once; a second error poisons a weight tile and withholds its partitions' tokens, or withholds a cache's session.
A CACHE copy that came poisoned has lost its data under R248 already (log entry 75). -/
def State.parityAt (s : State) (c u : Nat) : State :=
  let x := s.core c
  if !x.bufBad.contains u then s
  else match x.copyOf u with
    | none => s.actParity c
    | some f =>
      if f.poison then (if f.kind = .cache then s else s.actParity c)
      else if metBefore x.parity f.object f.tile then
        if f.kind = .cache then s.withholdSess f.object
        else match s.obj f.object with
          | some o => ((s.poisonTile f.object f.tile).withholdParts o.parts).tellWithheld o.parts f.object f.tile
          | none => s
      else
        let s := (s.count Ct.OBJ_REFETCHES 1).modCore c fun x => { x with parity := x.parity ++ [⟨f.object, f.tile, s.tick.toNat⟩] }
        let r := s.refetchRead c f.object f.tile
        (r.2.refetchPut c f.object f.tile (64 * f.unit) r.1).2

/-- Core-buffer bytes consumed by an instruction, before it reads them: bad parity among them is handled under R249, once for a tile and
once for the rest. -/
def State.consume (s : State) (c : Nat) (ranges : List (Nat × Nat)) : State :=
  let us := (s.core c).bufBad.filter fun u => ranges.any fun r => (unitsOf r.1 r.2).contains u
  let owner := fun u => ((s.core c).copyOf u).map fun f => (f.unit, f.object, f.tile)
  s.each (us.foldl (fun (acc : List Nat) u => if acc.any fun v => owner v == owner u then acc else acc ++ [u]) []) fun s u => s.parityAt c u

/-! ### Guard records -/

/-- Sources of saturation records (R143): their index in SLOT_SAT_u. -/
inductive SatSrc
  | port | acc | readout | vector
  deriving DecidableEq, Repr

/-- Index of a source (R162). -/
def SatSrc.idx : SatSrc → Nat
  | .port => 0
  | .acc => 1
  | .readout => 2
  | .vector => 3

/-- The records one instruction made: saturations of one source by row (a VECTOR record carries none), and VALUE records. -/
structure Recs where
  src  : SatSrc
  rows : List Nat
  /-- VECTOR saturations -/
  n    : Nat := 0
  vals : List Int := []

/-- A 24-bit count that stops at 0xFF_FFFF (R145). -/
def bump24 (m : NMap Nat) (k n : Nat) : NMap Nat := NMap.set 0 m k (min 0xFFFFFF (NMap.get 0 m k + n))

/-- A 48-bit window total that stops at all-ones (R160). -/
def bump48 (a n : Nat) : Nat := min (2 ^ 48 - 1) (a + n)

/-- Rows as a mask. -/
def rowMask (rows : List Nat) : BitVec 32 := rows.foldl (fun m t => bvPut (t % 32) m true) 0#32

/-- The rows a batch of records touches: every row for a VECTOR record (R145). -/
def Recs.mask (r : Recs) : BitVec 32 := if r.n > 0 then BitVec.allOnes 32 else rowMask r.rows

/-- Saturations in the batch. -/
def Recs.sats (r : Recs) : Nat := r.rows.length + r.n

/-- A slot's fields after a batch (R145); `seg` tells records of a re-run segment (R155). -/
def SlotCnt.take (x : SlotCnt) (r : Recs) (seg : Bool) : SlotCnt :=
  { x with
    bins := r.vals.foldl (fun m v => bump24 m (valueBin v) 1) x.bins
    sats := bump24 x.sats r.src.idx r.sats
    mainSats := if seg then x.mainSats else bump24 x.mainSats r.src.idx r.sats
    rows := x.rows ||| r.mask
    segRows := if seg then x.segRows ||| r.mask else x.segRows }

/-- A window's totals after a batch (R160). -/
def SlotWin.take (x : SlotWin) (r : Recs) : SlotWin :=
  let bins := r.vals.map valueBin
  { x with
    values := bump48 x.values bins.length
    tail := bump48 x.tail (bins.filter fun b => decide (14 ≤ b)).length
    topBin := bins.foldl Nat.max x.topBin
    satRd := bump48 x.satRd (if r.src = .readout then r.sats else 0)
    satOth := bump48 x.satOth (if r.src = .readout then 0 else r.sats) }

/-- Fields of a slot table entry (R146), counted in bits from byte 0. -/
def slotFld (lo w : Nat) (e : BitVec 512) : Nat := bvGet lo w e

/-- The slot table entry in use for slot L of cluster k. -/
def State.slotEnt (s : State) (k l : Nat) : BitVec 512 := NMap.get 0#512 (s.cluster k).slots l

/-- GUARDED of a slot. -/
def slotGuarded (e : BitVec 512) : Bool := bvBit 0 e
/-- RERUN_EN in use: 0 where the entry is a table error (R147). -/
def State.slotRerunEn (s : State) (k l : Nat) : Bool := bvBit 1 (s.slotEnt k l) && !((s.cluster k).slotErr.contains l)
/-- OUTLIER_COUNT in use: 0 where the entry is a table error (R147). -/
def State.slotOutliers (s : State) (k l : Nat) : Nat :=
  if (s.cluster k).slotErr.contains l then 0 else slotFld 111 7 (s.slotEnt k l)
/-- CORE_MASK. -/
def slotCores (e : BitVec 512) : List Nat := (List.range 8).filter fun i => bvBit (8 + i) e

/-- The batch slots a suspect mark flags (R156): all of the step, or ROW_BASE + t of each marked row. -/
def State.flagRows (s : State) (e : BitVec 512) (rows : BitVec 32) : State :=
  if bvBit 4 e then { s with marks := { s.marks with suspectAll := true } }
  else { s with marks := { s.marks with suspectRows := s.marks.suspectRows ++ (bitsSet rows).map fun t => slotFld 64 16 e + t } }

/-- Slot L of cluster k is marked suspect for `rows` (R156). SUSPECT_COUNT counts each slot marked. -/
def State.markSuspect (s : State) (k l : Nat) (rows : BitVec 32) : State :=
  let s := s.flagRows (s.slotEnt k l) rows
  let cur := NMap.get {} (s.cluster k).cur l
  let s := s.when (!cur.suspect) fun s => s.count (Ct.GUARD_SUSPECT_COUNT k) 1
  s.modCluster k fun x => { x with cur := NMap.set {} x.cur l { cur with suspect := true } }

/-- The records an instruction of core `c`'s queue `q` made reach the histogram unit (R142 to R145, R155): they count in the slot of
the re-run segment, or of the layer in force. -/
def State.guardRec (s : State) (c q : Nat) (p : Prog) (r : Recs) : State :=
  let k := clusterOf c
  let l := (p.seg.getD (NMap.get 0xFFFF#16 (s.core c).layer q).toNat)
  if r.sats = 0 ∧ r.vals = [] then s
  else
    let s := s.count (Ct.GUARD_SAT_TOTAL k) r.sats
    if 512 ≤ l then s.count (Ct.GUARD_UNGUARDED_SAT k) r.sats
    else
      let s := s.modCluster k fun x =>
        { x with cur := NMap.set {} x.cur l ((NMap.get {} x.cur l).take r p.seg.isSome)
                 wins := if slotGuarded (s.slotEnt k l) then NMap.set {} x.wins l ((NMap.get {} x.wins l).take r) else x.wins }
      s.when (p.seg.isSome && decide (0 < r.sats)) fun s => s.markSuspect k l r.mask

/-! ### Queues -/

/-- The main queue `q` of a core. -/
def CoreSt.queue (x : CoreSt) (q : Nat) : List QEnt := NMap.get [] x.q q

/-- The segment's queue `q` of a core, empty where no segment runs. -/
def CoreSt.segQueue (x : CoreSt) (q : Nat) : List QEnt := match x.seg with | some g => NMap.get [] g.q q | none => []

/-- The head a queue serves: the segment's first, but for a main instruction that is already executing (R153). -/
def CoreSt.head (x : CoreSt) (q : Nat) : Option (QEnt × Bool) :=
  match (if x.held.contains q then [] else x.segQueue q), x.queue q with
  | e :: _, _ => some (e, true)
  | [], e :: _ => some (e, false)
  | [], [] => none

/-- What the instruction at the head of a queue draws or waits for: the counter and the amount (R49). -/
def State.drawOf (s : State) (c : CoreId) : Instr → Option (Fld × Nat)
  | .wait _ t => some (tokFld c t.counter, t.amount.toNat)
  | .fetch _ f => if (NMap.find s.fetches c.val).isSome then none else some (credFld c f.credit, f.units.val)
  | .write _ o | .add _ o | .max _ o => some (credFld c o.credit, o.credits)
  | .send _ o => some (credFld c (s.inForce (Fld.VEC_LINK_CH_A_LOCAL_CREDIT c o.ch)), ceilDiv (o.len.toNat + 1) 64)
  | _ => none

/-- What counter `f` leaves for queue `q` (R50): its value less what the heads of the lower-numbered queues are granted first. -/
def State.leftFor (s : State) (c : CoreId) (q : Nat) (f : Fld) : Nat :=
  (List.range q).foldl (fun v i => match ((s.core c).head i).bind fun e => s.drawOf c e.1.instr with
    | some d => if d.1 = f ∧ d.2 ≤ v then v - d.2 else v
    | none => v) (s.fld f)

/-- A draw or wait of `k` by queue `q` on a counter: granted where the counter holds it (R49, R50). -/
def State.draw (s : State) (c : CoreId) (q : Nat) (f : Fld) (k : Nat) : Option State :=
  if k ≤ s.leftFor c q f then some (s.setFld f (s.fld f - k)) else none

/-- The head of queue `q` removed. -/
def CoreSt.pop (x : CoreSt) (q : Nat) (inSeg : Bool) : CoreSt :=
  if inSeg then { x with seg := x.seg.map fun g => { g with q := NMap.set [] g.q q (NMap.get [] g.q q).tail } }
  else { x with q := NMap.set [] x.q q (x.queue q).tail }

/-- Queue `q` has left layer `l` (R148). -/
def CoreSt.leftLayer (x : CoreSt) (q l : Nat) : Bool :=
  (NMap.get [] x.entered q).contains l &&
    ((NMap.get 0xFFFF#16 x.layer q).toNat != l || (x.dispatched && (x.queue q).isEmpty))

/-- Layers below 512 that some queue Q0 to Q4 of cluster `k` has executed in the step. -/
def State.layersOf (s : State) (k : Nat) : List Nat :=
  (((List.range 8).flatMap fun i => (List.range 5).flatMap fun q => NMap.get [] (s.core (8 * k + i)).entered q).eraseDups).filter
    fun l => decide (l < 512)

/-- Slot L closes now in cluster k (R148): every queue Q0 to Q4 of every core in CORE_MASK has left it, and it has not closed. -/
def State.slotCloses (s : State) (k l : Nat) : Bool :=
  let cs := slotCores (s.slotEnt k l)
  !cs.isEmpty && !(NMap.get {} (s.cluster k).cur l).closed &&
    cs.all fun i => (List.range 5).all fun q => (s.core (8 * k + i)).leftLayer q l

/-- Slots of the cluster that close at this moment are closed, and await their decisions (R148, R149); none in a step that is being
abandoned (R157). -/
def State.closeSlots (s : State) (k : Nat) : State :=
  if s.tickState ≠ stRunning then s
  else s.each (s.layersOf k) fun s l => s.when (s.slotCloses k l) fun s => s.modCluster k fun x =>
    { x with cur := NMap.set {} x.cur l { NMap.get {} x.cur l with closed := true }, closing := x.closing ++ [l] }

/-- An instruction of queue `q` has completed: it leaves its queue, the hang count returns to 0 (R55) and the guard looks for slots
that close (R148). -/
def State.complete (s : State) (c q : Nat) (from_ : Option Bool) : State :=
  let s := s.modCore c fun x =>
    let x := { x with idleUs := 0 }
    match from_ with
    | some inSeg => x.pop q inSeg
    | none => x
  s.closeSlots (clusterOf c)

/-- What running an instruction did: the state, and whether it completed or still holds its queue's head. -/
abbrev RunOut := State × Bool

/-- Instruction `i` at queue `q` of core `c`. It runs when it is the head of its queue, or when nothing stands in the queue (a command
given from outside a program, log entry 10); behind another head it waits and nothing changes (R46). -/
def State.issue (s : State) (c q : Nat) (i : Instr) (run : Prog → State → RunOut) : State :=
  match (s.core c).head q with
  | none =>
    let r := run ⟨s.fld (Fld.SEQ_PC_PC c), (s.core c).pid, none⟩ s
    if r.2 then r.1.complete c q none else r.1
  | some (e, inSeg) =>
    if e.instr = i then
      let r := run ⟨e.idx, e.pid, if inSeg then (s.core c).seg.map SegRun.slot else none⟩ s
      if r.2 then r.1.complete c q (some inSeg) else r.1
    else s

/-- Value k of grid slot `g` of core `c`, in force (R65, R67). -/
def State.gridVal (s : State) (c g k : Nat) : Int := sx 8 (bvGet (8 * (k % 4)) 8 (s.rdForce (Rg.GRID_GRID c (4 * g + k / 4))))

end Sys2Proof.Machine
end

