-- ==== Sys2Proof/Machine/LinkOps.lean ====
section
/-! DEFINITION. The link below its messages (chapter 11): flits and their CRC (R287 to R289), messages as bytes (R297 to R300), sending with
credits, replay and injection (R290 to R294, R309), receiving (R289, R291), and ports that go down or come up (R295, R296). -/

namespace Sys2Proof

open Machine

/-- Ports of a bundle (R285). -/
def Bundle.ports : Bundle → List Nat
  | .east => [0, 1, 2, 3]
  | .west => [4, 5, 6, 7]
  | .north => [8, 9]
  | .south => [10, 11]
  | .twin => [12, 13]
  | .expansion => [14, 15]

/-- Number of a bundle, as RELINKED names it: the table's order (log entry 40). -/
def Bundle.num : Bundle → Nat
  | .east => 0
  | .west => 1
  | .north => 2
  | .south => 3
  | .twin => 4
  | .expansion => 5

/-- Wire size of `u` units under WIRE (R298). -/
def wireBytes (wire u : Nat) : Nat := if wire = 0 then 64 * u else if wire = 1 then 33 * u else if wire = 2 then 33 * u / 2 else 0

/-- Units of a tensor message's destination space. -/
def TensorMsg.units (m : TensorMsg) : Nat := m.hdr.unitsM1.toNat + 1

/-- The 32-byte header of a tensor message (R297). -/
def TensorHdr.bytes (h : TensorHdr) : List Byte :=
  leBytes 8 (h.destMember.val + 2 ^ 9 * h.destCore.val + 2 ^ 18 * bit1 h.toCache + 2 ^ 19 * h.destAddr.toNat +
    2 ^ 36 * h.unitsM1.toNat + 2 ^ 46 * h.token.val + 2 ^ 52 * h.amount.toNat + 2 ^ 60 * h.part.val) ++
  leBytes 8 (h.tick.toNat + 2 ^ 32 * h.srcMember.val + 2 ^ 41 * h.srcCore.val + 2 ^ 50 * h.wire.val) ++
  leBytes 8 (h.groupId.toNat + 2 ^ 16 * h.hops.toNat) ++ leBytes 8 0

/-- The header read from 32 bytes. -/
def TensorHdr.ofBytes (bs : List Byte) : TensorHdr :=
  let w : BitVec 192 := BitVec.ofNat 192 (leNat (bs.take 24))
  { destMember := finMod 512 (bvGet 0 9 w) (by decide), destCore := finMod 512 (bvGet 9 9 w) (by decide),
    toCache := bvBit 18 w, destAddr := w.extractLsb' 19 17, unitsM1 := w.extractLsb' 36 10,
    token := finMod 64 (bvGet 46 6 w) (by decide), amount := w.extractLsb' 52 8, part := finMod 16 (bvGet 60 4 w) (by decide),
    tick := w.extractLsb' 64 32, srcMember := finMod 512 (bvGet 96 9 w) (by decide),
    srcCore := finMod 512 (bvGet 105 9 w) (by decide), wire := finMod 4 (bvGet 114 2 w) (by decide),
    groupId := w.extractLsb' 128 16, hops := w.extractLsb' 144 8 }

/-- A tensor message as its payload bytes. -/
def TensorMsg.bytes (m : TensorMsg) : List Byte := m.hdr.bytes ++ m.data

/-- A tensor message read from payload bytes: its data has the wire size its header gives, as far as the flits carry it; under WIRE 0b11
it is whatever DATA flits came beyond the HEAD. -/
def TensorMsg.ofBytes (bs : List Byte) : TensorMsg :=
  let h := TensorHdr.ofBytes bs
  ⟨h, if h.wire.val = 3 then (if bs.length ≤ 240 then [] else bs.drop 32)
      else (bs.drop 32).take (wireBytes h.wire.val (h.unitsM1.toNat + 1))⟩

/-- A management message as bytes: its 32-byte header (R300) and payload. -/
def MgmtMsg.bytes (m : MgmtMsg) : List Byte :=
  leBytes 8 (m.dest.val + 2 ^ 9 * bit1 m.twin + 2 ^ 10 * m.kind.toNat + 2 ^ 18 * m.length.toNat + 2 ^ 31 * m.src.val +
    2 ^ 40 * bit1 m.srcTwin) ++ List.replicate 24 0#8 ++ m.payload

/-- A management message read from bytes. -/
def MgmtMsg.ofBytes (bs : List Byte) : MgmtMsg :=
  let w : BitVec 64 := BitVec.ofNat 64 (leNat (bs.take 8))
  let len : BitVec 13 := w.extractLsb' 18 13
  { dest := finMod 512 (bvGet 0 9 w) (by decide), twin := bvBit 9 w, kind := w.extractLsb' 10 8, length := len,
    src := finMod 512 (bvGet 31 9 w) (by decide), srcTwin := bvBit 40 w, payload := (bs.drop 32).take len.toNat }

end Sys2Proof

namespace Sys2Proof.Machine

/-! ### Ports -/

/-- A port outside its registers. -/
def State.port (s : State) (p : Nat) : PortSt := NMap.get {} s.link.ports p

/-- A port changed. -/
def State.modPort (s : State) (p : Nat) (f : PortSt → PortSt) : State :=
  { s with link := { s.link with ports := NMap.set {} s.link.ports p (f (s.port p)) } }

/-- LNK.STATUS.STATE values (R310). -/
def pDown : Nat := 0
/-- TRAINING. -/
def pTraining : Nat := 1
/-- UP. -/
def pUp : Nat := 2
/-- DEGRADING. -/
def pDegrading : Nat := 3
/-- HANDBACK. -/
def pHandback : Nat := 4

/-- LNK.STATUS.STATE. -/
def State.pState (s : State) (p : Nat) : Nat := s.fld (Fld.LNK_STATUS_STATE p)

/-- Bundle of a port (R285). -/
def bundleOf (p : Nat) : Bundle :=
  if p < 4 then .east else if p < 8 then .west else if p < 10 then .north else if p < 12 then .south
  else if p < 14 then .twin else .expansion

/-- Ports of a bundle that new messages may take: UP, or while none is, DEGRADING (R295, R298). -/
def State.liveOf (s : State) (b : Bundle) : List Nat :=
  let up := b.ports.filter fun p => s.pState p == pUp
  if up = [] then b.ports.filter fun p => s.pState p == pDegrading else up

/-! ### Members along a bundle -/

/-- This device's member index (R301). -/
def State.me (s : State) : Nat := s.fld Fld.GARNET_GROUP_MEMBER_INDEX

/-- State of a member: 0 LIVE, 1 LOST, 2 BYPASSED, 3 ABSENT (R327). -/
def State.mState (s : State) (m : Nat) : Nat := s.fld (Fld.TOPO_MEMBER_STATE_STATE (m / 16) (m % 16))

/-- The ports send nothing: PWRFAIL_N is low (R415), or the device is in S3 (R408). -/
def State.linksQuiet (s : State) : Bool := s.fld Fld.PWR_STATUS_PWRFAIL == 1 || s.powerState == 3

/-- Positions of this device's ring or column that a bundle leads along, in the order met, without the device itself. -/
def State.along (s : State) (b : Bundle) : List Nat :=
  let x := s.me % 16
  let y := s.me / 16
  let n := s.fld Fld.TOPO_SHAPE_RING_SIZE
  let q := s.fld Fld.TOPO_SHAPE_RINGS
  match b with
  | .east => (List.range (n - 1)).map fun k => 16 * y + (x + k + 1) % n
  | .west => (List.range (n - 1)).map fun k => 16 * y + (x + n - (k + 1)) % n
  | .north => (List.range (q - 1)).map fun k => 16 * ((y + k + 1) % q) + x
  | .south => (List.range (q - 1)).map fun k => 16 * ((y + q - (k + 1)) % q) + x
  | .twin => []
  | .expansion => []

/-- The next member along a bundle whose position is neither BYPASSED nor ABSENT (R311), `skip` left out. -/
def State.nextAlong (s : State) (b : Bundle) (skip : Option Nat) : Option Nat :=
  (s.along b).find? fun m => decide (s.mState m < 2) && some m != skip

/-- Positions that a span of bundle `b` passes through closed switches: those BYPASSED before the next member, with `skip` (R315). -/
def State.spanLen (s : State) (b : Bundle) (skip : Option Nat) : Nat :=
  (((s.along b).takeWhile fun m => some m != s.nextAlong b skip).filter fun m => s.mState m != 3).length

/-- The topology gives bundle `b` a peer; without one it is dark (R285, R327). -/
def State.hasPeer (s : State) (b : Bundle) : Bool :=
  match b with
  | .twin => s.fld Fld.TOPO_SHAPE_TWIN == 1
  | .expansion => s.fld Fld.TOPO_SHAPE_EXP_VALID == 1
  | _ => (s.along b).any fun m => s.mState m != 3

/-! ### Messages as bytes -/

/-- Flits that a message of `n` bytes, header included, takes (R297). -/
def flitsFor (n : Nat) : Nat := max 1 (ceilDiv n 240)

/-- The flits of a message: HEAD, then DATA (R288, R297), each with 240 bytes of payload. -/
def msgFlits (vc : Nat) (bs : List Byte) : List TxFlit :=
  let n := flitsFor bs.length
  (List.range n).map fun i =>
    ⟨if i = 0 then 1 else 2, vc, i + 1 == n, 0#16, (bs.drop (240 * i)).take 240⟩

/-- A message ready for a port. -/
def mkTx (vc : Nat) (bs : List Byte) : TxMsg := ⟨vc, msgFlits vc bs, msgFlits vc bs⟩

/-- The record of a token in a TICK flit (R299). -/
def tokenRecord (t : Token) : List Byte :=
  leBytes 8 (t.group.toNat + 2 ^ 16 * t.member.val + 2 ^ 25 * bit1 t.abandon + 2 ^ 32 * t.tick.toNat)

/-- A TICK flit of `n` records (R299). -/
def tickTx (n : Nat) (records : List Byte) : TxMsg :=
  let f : TxFlit := ⟨3, 0, true, 0#16, leBytes 8 n ++ records⟩
  ⟨0, [f], [f]⟩

/-- A record joins the last TICK flit that still waits in the queue, up to 29 in one, else a flit of its own (R299). -/
def addTick (q : List TxMsg) (r : List Byte) : List TxMsg :=
  match q.reverse with
  | m :: rest =>
    match m.flits with
    | [f] =>
      let n := bvGet 0 5 (f.payload.headD 0)
      if f.type = 3 ∧ n < 29 then rest.reverse ++ [tickTx (n + 1) (f.payload.drop 8 ++ r)] else q ++ [tickTx 1 r]
    | _ => q ++ [tickTx 1 r]
  | [] => [tickTx 1 r]

/-- The records of a TICK flit's payload; none where COUNT is unused (R299). -/
def tickRecords (payload : List Byte) : Option (List Token) :=
  let n := bvGet 0 5 (payload.headD 0)
  if n = 0 ∨ 30 ≤ n then none
  else some ((List.range n).map fun r =>
    let w : BitVec 64 := BitVec.ofNat 64 (leNat ((payload.drop (8 + 8 * r)).take 8))
    ⟨w.extractLsb' 0 16, finMod 512 (bvGet 16 9 w) (by decide), bvBit 25 w, w.extractLsb' 32 32⟩)

/-! ### Flits -/

/-- A flit striped over lanes (R289): byte i goes to lane number i mod W among the W lanes, in ascending order. -/
def stripe (lanes : List Nat) (bs : List Byte) : List (Nat × List Byte) :=
  lanes.zipIdx.map fun q => (q.1, (bs.zipIdx.filter fun x => x.2 % lanes.length == q.2).map (·.1))

/-- The flit that lanes carry together (R289). -/
def unstripe (ls : List (List Byte)) : List Byte :=
  (List.range (ls.map List.length).sum).map fun i => (ls.getD (i % ls.length) []).getD (i / ls.length) 0#8

/-- The lanes of a port in service, in ascending order (R286). -/
def State.lanesOf (s : State) (p : Nat) : List Nat := bitsSet (BitVec.ofNat 4 (s.fld (Fld.LNK_LANES_LANE_OK p)))

/-- The bytes of a flit that arrives on port `p`. -/
def State.flitOf (s : State) (p : Nat) (f : FlitIn) : List Byte := unstripe ((s.lanesOf p).map fun l => f.lanes.getD l [])

/-- CRC-32 of IEEE 802.3 (R287). -/
def crc32 (bs : List Byte) : BitVec 32 := crcOf 0xEDB88320#32 bs

/-- Receive buffer of a virtual channel in flits (R288). -/
def vcBuffer (v : Nat) : Nat := if v = 0 then 64 else if v = 1 then 128 else 4096

/-- A flit's 256 bytes, with the flow-control fields of the moment (R287). -/
def PortSt.flitBytes (x : PortSt) (f : TxFlit) : List Byte :=
  let h := leBytes 12 (f.type + 2 ^ 4 * f.vc + 2 ^ 6 * bit1 f.last + 2 ^ 8 * f.seq.toNat + 2 ^ 24 * (x.rxNext - 1#16).toNat +
    2 ^ 40 * bit1 x.ackValid + 2 ^ 41 * x.crTurn + 2 ^ 43 * (NMap.get 0 x.freed x.crTurn % 8192))
  let b := h ++ (f.payload ++ List.replicate (240 - f.payload.length) 0#8).take 240
  b ++ leBytes 4 (crc32 b).toNat

/-- XOR of `x` into 32-bit word `w` of a flit (R309); the CRC is recomputed over the corrupted bytes where `re`, and word 63 is the CRC
itself. -/
def corruptFlit (bs : List Byte) (w : Nat) (x : BitVec 32) (re : Bool) : List Byte :=
  let xorAt := fun (l : List Byte) => l.zipIdx.map fun p => if p.2 / 4 = w then p.1 ^^^ BitVec.ofNat 8 (x.toNat >>> (8 * (p.2 % 4))) else p.1
  if re && w != 63 then
    let b := (xorAt bs).take 252
    b ++ leBytes 4 (crc32 b).toNat
  else xorAt bs

/-- `n` flits of a port have been disturbed; a one-shot injection clears ARM (R309). -/
def State.injected (s : State) (p n : Nat) : State :=
  let s := s.count (Ct.LNK_INJECTED p) n
  s.when (s.fld (Fld.LNK_INJ_CTRL_PERIODIC p) == 0) fun s => s.setFld (Fld.LNK_INJ_CTRL_ARM p) 0

/-- What goes out for a new sequenced flit under injection (R309). -/
def State.injectFlit (s : State) (p : Nat) (f : TxFlit) : State × List (List Byte) :=
  let bs := (s.port p).flitBytes f
  if s.fld (Fld.LNK_INJ_CTRL_ARM p) = 0 ∨ !(s.fld (Fld.LNK_INJ_CTRL_VC_MASK p)).testBit f.vc then (s, [bs])
  else
    let n := (s.port p).injSeen + 1
    let s := s.modPort p fun x => { x with injSeen := n }
    let k := s.fld (Fld.LNK_INJ_N_N p)
    let hit := if s.fld (Fld.LNK_INJ_CTRL_PERIODIC p) = 1 then n % k == 0 else n == k
    match (s.port p).swap with
    | some g => ((s.modPort p fun x => { x with swap := none }).injected p 2, [bs, (s.port p).flitBytes g])
    | none =>
      if !hit then (s, [bs])
      else match s.fld (Fld.LNK_INJ_CTRL_KIND p) with
        | 0 => (s.injected p 1, [])
        | 1 => (s.injected p 1, [corruptFlit bs (s.fld (Fld.LNK_INJ_CTRL_WORD p)) (s.rd (Rg.LNK_INJ_XOR p))
            (s.fld (Fld.LNK_INJ_CTRL_CRC_RECOMPUTE p) == 1)])
        | _ => (s.modPort p fun x => { x with swap := some f }, [])

/-- Successive headers carry the counts of VC 0, 1 and 2 in turn (R293). -/
def State.turnCr (s : State) (p : Nat) : State := s.modPort p fun x => { x with crTurn := (x.crTurn + 1) % 3, owed := x.owed - 1 }

/-- A flit leaves the port, unless the ports are quiet: `isNew` tells a first transmission, which injection may disturb, from a replayed or
unsequenced one. -/
def State.emit (s : State) (p : Nat) (f : TxFlit) (isNew : Bool) : State :=
  if s.linksQuiet then s
  else
    let r := if isNew then s.injectFlit p f else (s, [(s.port p).flitBytes f])
    (r.1.each r.2 fun s bs => s.out (.flit p (stripe (s.lanesOf p) bs))).turnCr p

/-- An unsequenced flit: SEQ is that of the next sequenced one (R287). -/
def State.emitPlain (s : State) (p type : Nat) (payload : List Byte) : State :=
  s.emit p ⟨type, 0, false, (s.port p).txNext, payload⟩ false

/-- The port's good lanes told to the peer: the LINK_CTRL flit travels whole on each of them by itself (R295). -/
def State.emitLanes (s : State) (p : Nat) : State :=
  if s.linksQuiet then s
  else
    let good := s.lanesOf p
    let bs := (s.port p).flitBytes ⟨5, 0, false, (s.port p).txNext, leBytes 1 (s.fld (Fld.LNK_LANES_LANE_OK p))⟩
    (s.out (.flit p (good.map fun l => (l, bs)))).turnCr p

/-! ### Sending -/

/-- The first of a list that equals `a` replaced. -/
def replaceFirst {α : Type} [DecidableEq α] (a b : α) : List α → List α
  | [] => []
  | x :: xs => if x = a then b :: xs else x :: replaceFirst a b xs

/-- Credits held for a VC (R293): the buffer size minus the flits sent plus the difference modulo 8,192 of the counts. A count ahead of the
flits sent (messages of before the training, freed after it) adds to the buffer size. -/
def PortSt.credits (x : PortSt) (v : Nat) : Nat :=
  let out := (NMap.get 0 x.sentVc v + 8192 - NMap.get 0 x.credited v % 8192) % 8192
  if out ≤ vcBuffer v then vcBuffer v - out else if 4096 < out then vcBuffer v + (8192 - out) else 0

/-- The queued message whose flit goes next: VC 0, then VC 1, then VC 2 (R294), each while a credit is held. -/
def PortSt.pickMsg (x : PortSt) : Option TxMsg :=
  [0, 1, 2].findSome? fun v => if x.credits v = 0 then none else x.queue.find? fun m => m.vc == v

/-- One new sequenced flit of message `m` goes out and is held for replay (R290, R292). -/
def State.sendFlit (s : State) (p : Nat) (m : TxMsg) : State :=
  match m.flits with
  | [] => s.modPort p fun x => { x with queue := x.queue.erase m }
  | f :: rest =>
    let f := { f with seq := (s.port p).txNext }
    let m' := { m with flits := rest }
    let s := s.modPort p fun x =>
      { x with txNext := x.txNext + 1#16
               unacked := x.unacked ++ [f]
               progressAt := if x.unacked = [] then s.now else x.progressAt
               sentVc := NMap.set 0 x.sentVc f.vc (NMap.get 0 x.sentVc f.vc + 1)
               queue := if rest = [] then x.queue.erase m else replaceFirst m m' x.queue
               sent := if rest = [] then x.sent ++ [{ m' with whole := m.whole.map fun g => if g.last then { g with seq := f.seq } else g }] else x.sent }
    (s.count (Ct.LNK_TX_FLITS p) 1).emit p f true

/-- Flits waiting in a port's queue (R298). -/
def PortSt.queued (x : PortSt) : Nat := (x.queue.map fun m => m.flits.length).sum

/-- A port that is UP sends what its credits and its replay buffer of 1,024 flits allow (R292 to R294); `n` bounds the flits. -/
def State.pumpN (s : State) (p : Nat) : Nat → State
  | 0 => s
  | n + 1 =>
    if s.pState p ≠ pUp ∨ s.linksQuiet ∨ 1024 ≤ (s.port p).unacked.length then s
    else match (s.port p).pickMsg with
      | none => s
      | some m => (s.sendFlit p m).pumpN p n

/-- A port sends what it may. -/
def State.pump (s : State) (p : Nat) : State := s.pumpN p ((s.port p).queued + (s.port p).queue.length)

/-- A port with nothing it may send announces what its headers still owe the peer: also while its queue waits for credits (R293). -/
def State.announce (s : State) (p : Nat) : State :=
  if s.pState p ≠ pUp ∨ ((s.port p).pickMsg.isSome ∧ (s.port p).unacked.length < 1024) then s
  else s.each (List.range (s.port p).owed) fun s _ => s.emitPlain p 0 []

/-- Every port sends what it can. -/
def State.pumpAll (s : State) : State := s.each (List.range 16) State.pump

/-- A message queued on port `p`. -/
def State.putPort (s : State) (p : Nat) (m : TxMsg) : State := (s.modPort p fun x => { x with queue := x.queue ++ [m] }).pump p

/-- The port of a bundle with the fewest flits queued, the lower number on a tie (R298). -/
def State.pickPort (s : State) (ps : List Nat) : Option Nat :=
  ps.foldl (fun best p => match best with
    | none => some p
    | some q => if (s.port p).queued < (s.port q).queued then some p else some q) none

/-- A message placed on a bundle; with no port that takes it, it stays queued (R296, R298). -/
def State.putBundle (s : State) (b : Bundle) (m : TxMsg) : State :=
  match s.pickPort (s.liveOf b) with
  | some p => s.putPort p m
  | none => { s with link := { s.link with parked := s.link.parked ++ [(b, m)] } }

/-- Replay of every held flit from `seq` onward (R292); none while the ports are quiet. -/
def State.replayFrom (s : State) (p : Nat) (seq : BitVec 16) : State :=
  if s.linksQuiet then s
  else
  let fs := (s.port p).unacked.filter fun f => decide ((f.seq - seq).toNat < 32768)
  let s := (s.count (Ct.LNK_REPLAYS p) 1).modPort p fun x => { x with replays := x.replays + 1, progressAt := s.now }
  s.each fs fun s f => (s.count (Ct.LNK_TX_FLITS p) 1).emit p f false

/-! ### Ports up and down -/

/-- A port as training leaves it: sequences, credits and buffers start afresh (R290, R293, R296); an injection's count goes on (R309). -/
def PortSt.fresh (x : PortSt) : PortSt := 
  { ({} : PortSt) with arrived := x.arrived, blocked := x.blocked, trainAt := x.trainAt, injSeen := x.injSeen, record := x.record }

/-- The messages of a port that its peer has not acknowledged whole, to be sent again from their HEAD flits (R296). -/
def PortSt.unfinished (x : PortSt) : List TxMsg :=
  (x.sent ++ x.queue).map fun m => { m with flits := m.whole }

/-- A port's messages wait for its bundle, and the port is as training leaves it (R296). -/
def State.parkPort (s : State) (p : Nat) : State :=
  let x := s.port p
  ({ s with link := { s.link with parked := s.link.parked ++ x.unfinished.map fun m => (bundleOf p, m) } }).modPort p PortSt.fresh

/-- A port is DOWN, no lane of it in service (R310); what it has not delivered stays queued (R296). -/
def State.closePort (s : State) (p : Nat) : State :=
  (((s.parkPort p).setFld (Fld.LNK_STATUS_LANES_UP p) 0).setFld (Fld.LNK_LANES_LANE_OK p) 0).setFld (Fld.LNK_STATUS_STATE p) pDown

/-- Training of an enabled port begins, and wakes the device (R296, R409), unless its optical engine is down after a trip (R412), its bundle is
dark (R285) or its span would pass more than three bypassed positions (R315). What it has not delivered stays queued (R296). -/
def State.trainPort (s : State) (p : Nat) : State :=
  let s := s.closePort p
  if s.fld (Fld.LNK_CTRL_ENABLE p) = 1 ∧ p / 2 ∉ s.power.oeDown ∧ s.hasPeer (bundleOf p) ∧ s.spanLen (bundleOf p) none ≤ 3 then
    ((s.setFld (Fld.LNK_STATUS_STATE p) pTraining).modPort p fun x => { x with trainAt := s.now }).beginWake
  else s

/-- The LINK_CTRL handback record that names the last sequence received in order (R296; its place in the payload is log entry 41). -/
def handbackPayload (p : Nat) (last : BitVec 16) (valid : Bool) : List Byte := leBytes 4 (p + 2 ^ 8 * last.toNat + 2 ^ 24 * bit1 valid)

/-- The ring or column spans this device sees (R312, R316): OPEN_RINGS and OPEN_COLUMNS follow its own bundles and the LOST members. -/
def State.refreshOpen (s : State) : State :=
  let me := s.fld Fld.GARNET_GROUP_MEMBER_INDEX
  let n := s.fld Fld.TOPO_SHAPE_RING_SIZE
  let q := s.fld Fld.TOPO_SHAPE_RINGS
  let st := fun m => s.fld (Fld.TOPO_MEMBER_STATE_STATE (m / 16) (m % 16))
  let isOpen := fun (ms : List Nat) (own : Bool) (a b : Bundle) =>
    decide (1 < (ms.filter fun m => st m < 2).length) &&
      (ms.any (fun m => st m == 1) || (own && (s.liveOf a == [] || s.liveOf b == [])))
  let rings := (List.range q).map fun y =>
    2 ^ y * bit1 (isOpen ((List.range n).map fun x => 16 * y + x) (y == me / 16) .east .west)
  let cols := (List.range n).map fun x =>
    2 ^ x * bit1 (isOpen ((List.range q).map fun y => 16 * y + x) (x == me % 16) .north .south)
  (s.setFld Fld.TOPO_OPEN_RINGS_RING rings.sum).setFld Fld.TOPO_OPEN_COLUMNS_COLUMN cols.sum

/-- The handback record of port `p` goes out over port `q` (R296). -/
def State.emitRecord (s : State) (p q : Nat) : State :=
  match (s.port p).record with
  | some r => s.emitPlain q 5 (handbackPayload p r.1 r.2)
  | none => s

/-- A port goes down (R296): what it was receiving is discarded, its unfinished messages are handed back to the bundle, or stay queued
where no other port is up, and it trains again; one that was DOWN or TRAINING has nothing to hand back, and trains. `cause` is that of
PORT_RETRAIN. -/
def State.portDown (s : State) (p cause : Nat) : State :=
  let b := bundleOf p
  let idle := s.pState p == pDown || s.pState p == pTraining
  let s := s.when (s.pState p == pUp || s.pState p == pDegrading) fun s => s.modPort p fun x => { x with record := some (x.rxNext - 1#16, x.ackValid) }
  let others := b.ports.filter fun q => q != p && s.pState q == pUp
  let s := (s.setFld (Fld.LNK_STATUS_LANES_UP p) 0).setFld (Fld.LNK_LANES_LANE_OK p) 0
  let s := (s.count (Ct.LNK_RETRAINS p) 1).jasper .portRetrain p cause 0
  let s := if idle then s.trainPort p else match others with
    | [] =>
      -- a port in handback has no way left for its record
      (s.trainPort p).each (b.ports.filter fun q => q != p && s.pState q == pHandback) State.trainPort
    | q :: _ =>
      let s := (s.setFld (Fld.LNK_STATUS_STATE p) pHandback).modPort p fun x => { x with asm := [], nakAt := none, swap := none, agreed := none }
      s.emitRecord p q
  s.refreshOpen

/-- The peer's handback record for port `p` (R296): messages whose LAST flit lies at or before `last` were delivered; the others are
sent again on the other ports. The port then trains. -/
def State.handback (s : State) (p : Nat) (last : BitVec 16) (valid : Bool) : State :=
  if s.pState p ≠ pHandback then s
  else
    let x := s.port p
    let got := fun (m : TxMsg) => valid && m.whole.any fun f => f.last && decide ((last - f.seq).toNat < 32768)
    let left := ((x.sent.filter fun m => !got m) ++ x.queue).map fun m => { m with flits := m.whole }
    let s := (s.modPort p fun x => { x.fresh with record := none }).trainPort p
    s.each left fun s m => s.putBundle (bundleOf p) m

/-- LNK.PEER shows what the peer reported at training (R310, R311). -/
def State.showPeer (s : State) (p peer peerPort : Nat) (twin : Bool) : State :=
  ((s.setFld (Fld.LNK_PEER_PEER_MEMBER p) peer).setFld (Fld.LNK_PEER_PEER_PORT p) peerPort).setFld (Fld.LNK_PEER_PEER_TWIN p) (bit1 twin)

/-- A port comes up with lanes `good` (R296), and takes messages that waited for its bundle. -/
def State.portUp (s : State) (p : Nat) (good : BitVec 4) (peer peerPort : Nat) (twin : Bool) : State :=
  let s := s.setFld (Fld.LNK_STATUS_STATE p) pUp
  let s := (s.setFld (Fld.LNK_STATUS_LANES_UP p) (bitsSet good).length).setFld (Fld.LNK_LANES_LANE_OK p) good.toNat
  let s := ((s.showPeer p peer peerPort twin).parkPort p).modPort p fun x => { x with record := none }
  let mine := s.link.parked.filter fun m => m.1 == bundleOf p
  let s := { s with link := { s.link with parked := s.link.parked.filter fun m => m.1 != bundleOf p } }
  (s.each mine fun s m => s.putBundle m.1 m.2).refreshOpen

/-- Ports that were quiet go on: an UP port sends what it may, and one whose lanes or handback wait for the peer tells it (R408, R415). -/
def State.resumeLinks (s : State) : State :=
  s.each (List.range 16) fun s p =>
    if s.pState p = pDegrading then s.emitLanes p
    else if s.pState p = pHandback then
      match (bundleOf p).ports.find? fun q => s.pState q == pUp with
      | some q => s.emitRecord p q
      | none => s.trainPort p
    else s.pump p

/-- A replay is due: after 16 in a row without ACK progress the port goes down and retrains instead (R292). -/
def State.replay (s : State) (p : Nat) (seq : BitVec 16) : State :=
  if 16 ≤ (s.port p).replays then s.portDown p 1 else s.replayFrom p seq

/-- Lanes of a port drop out of service (R295). -/
def State.dropLanes (s : State) (p : Nat) (ls : List Nat) : State :=
  s.each ls fun s l =>
    let ok := s.fld (Fld.LNK_LANES_LANE_OK p)
    if !ok.testBit l then s
    else
      let s := s.setFld (Fld.LNK_LANES_LANE_OK p) (ok - 2 ^ l)
      let f := s.fld (Fld.LNK_LANES_LANE_FAILED p)
      let s := s.setFld (Fld.LNK_LANES_LANE_FAILED p) (if f.testBit l then f else f + 2 ^ l)
      let s := (s.count (Ct.LNK_DEGRADES p) 1).raise (Fld.LNK_STATUS_DEGRADED p)
      s.jasper .laneDropped p l (bitsSet (BitVec.ofNat 4 (ok - 2 ^ l))).length

/-! ### Receiving -/

/-- Flits of a receive buffer are freed (R293). -/
def State.freeFlits (s : State) (p v n : Nat) : State :=
  s.modPort p fun x => { x with freed := NMap.set 0 x.freed v (NMap.get 0 x.freed v + n), owed := 3 }

/-- The flow-control fields of a received header take effect (R292, R293): flits that the ACK covers are no longer held, and the credit
count is noted. -/
def State.takeFlow (s : State) (p : Nat) (h : BitVec 96) : State :=
  let x := s.port p
  let ack : BitVec 16 := h.extractLsb' 24 16
  let left := if bvBit 40 h then x.unacked.filter fun f => decide (32768 ≤ (ack - f.seq).toNat) else x.unacked
  let kept := x.sent.filter fun m => m.whole.any fun f => f.last && left.any fun g => g.seq == f.seq
  s.modPort p fun x =>
    let x := if left.length < x.unacked.length then { x with unacked := left, sent := kept, replays := 0, progressAt := s.now } else x
    if bvGet 41 2 h < 3 then { x with credited := NMap.set 0 x.credited (bvGet 41 2 h) (bvGet 43 13 h) } else x

/-- A NAK for the expected sequence goes out (R291); none while the ports are quiet. -/
def State.sendNak (s : State) (p : Nat) : State :=
  if s.linksQuiet then s
  else
  let s := (s.count (Ct.LNK_NAKS_SENT p) 1).modPort p fun x => { x with nakAt := some s.now }
  s.emitPlain p 4 (leBytes 2 (s.port p).rxNext.toNat)

/-- A flit of a message received in order joins the message; with its LAST flit the message has arrived (R296, R297). A management
message of unused LENGTH is discarded (R300). -/
def State.takeMsgFlit (s : State) (p type vc : Nat) (last : Bool) (payload : List Byte) : State :=
  let old := NMap.get [] (s.port p).asm vc
  if type = 2 ∧ old = [] then s.freeFlits p vc 1
  else
    let s := if type = 1 ∧ old ≠ [] then s.freeFlits p vc old.length else s
    let parts := if type = 1 then [payload] else old ++ [payload]
    if !last then s.modPort p fun x => { x with asm := NMap.set [] x.asm vc parts }
    else
      let bs := parts.flatMap id
      let s := s.modPort p fun x => { x with asm := NMap.set [] x.asm vc [] }
      -- SRC_TWIN tells that the message entered over the TWIN bundle (R300)
      let bs := if vc = 1 ∧ bundleOf p = .twin then (bs.take 5 ++ [(bs.getD 5 0#8) ||| 1#8]) ++ bs.drop 6 else bs
      let len := (MgmtMsg.ofBytes bs).length.toNat
      if vc = 1 ∧ (len = 0 ∨ 4096 < len) then s.freeFlits p vc parts.length
      else
          s.modPort p fun x => { x with arrived := x.arrived ++ [(vc, bs)] }

/-- A port may carry tick flits: EAST and WEST, and NORTH and SOUTH in plane-wide mode (R285). -/
def State.carriesTicks (s : State) (p : Nat) : Bool :=
  decide (p < 8) || (decide (p < 12) && s.fld Fld.GARNET_CTRL_PLANE_WIDE == 1)

/-- A sequenced flit received in order is accepted (R291); its tick records are answered to the caller. -/
def State.acceptFlit (s : State) (p type vc : Nat) (last : Bool) (payload : List Byte) : State × List Token :=
  let s := (s.count (Ct.LNK_RX_FLITS p) 1).modPort p fun x => { x with rxNext := x.rxNext + 1#16, ackValid := true, nakAt := none, owed := 3 }
  if type = 3 then
    let s := s.freeFlits p vc 1
    match (if s.carriesTicks p then tickRecords payload else none) with
    | none => (s.count (Ct.LNK_BAD_FLITS p) 1, [])
    | some ts => (s, ts)
  else (s.takeMsgFlit p type vc last payload, [])

/-- A flit arrives (R289 to R293): it is checked, its flow-control fields are taken, and a sequenced one is accepted, discarded or
NAKed; a NAK makes the port replay. A port that is not UP accepts none (R295). Tick records are answered to the caller. -/
def State.rxFlit (s : State) (p : Nat) (f : FlitIn) : State × List Token :=
  if s.pState p ≠ pUp then (s, [])
  else
    let s := s.each f.corrected fun s c => s.count (Ct.LNK_LANE_FEC p c.1) c.2
    let bs := s.flitOf p f
    let h : BitVec 96 := BitVec.ofNat 96 (leNat (bs.take 12))
    let payload := (bs.drop 12).take 240
    let type := bvGet 0 4 h
    let vc := bvGet 4 2 h
    let sequenced := decide (1 ≤ type) && decide (type ≤ 3)
    let seq : BitVec 16 := h.extractLsb' 8 16
    if f.uncorr then (s.count (Ct.LNK_FEC_UNCORRECTED p) 1, [])
    else if bs.length ≠ 256 ∨ leNat (bs.drop 252) ≠ (crc32 (bs.take 252)).toNat then (s.count (Ct.LNK_CRC_ERRORS p) 1, [])
    else if 6 ≤ type ∨ (sequenced && (vc == 3 || (type == 3) != (vc == 0))) then (s.count (Ct.LNK_BAD_FLITS p) 1, [])
    else
      let s := s.takeFlow p h
      let r := if sequenced then
          let d := (seq - (s.port p).rxNext).toNat
          if d = 0 then s.acceptFlit p type vc (bvBit 6 h) payload
          else if d < 32768 then (if (s.port p).nakAt = none then s.sendNak p else s, [])
          else (s, [])
        else if type = 4 then (s.replay p (BitVec.ofNat 16 (leNat (payload.take 2))), [])
        else (s, [])
      (r.1.pump p, r.2)

end Sys2Proof.Machine
end

