-- ==== Sys2Proof/Machine/TopoOps.lean ====
section
/-! DEFINITION. Rings and planes (chapter 12): members and their states (R312), routing around gaps (R301, R316), management messages (R300,
R321), the loss of a member (R317, R319) and relinking (R311, R320). -/

namespace Sys2Proof.Machine

/-! ### Members -/

/-- A member's state set; the open rings and columns follow (R312). -/
def State.setMState (s : State) (m v : Nat) : State := (s.setFld (Fld.TOPO_MEMBER_STATE_STATE (m / 16) (m % 16)) v).refreshOpen

/-- Positions present in the topology (R301). -/
def State.planeMembers (s : State) : List Nat :=
  (List.range (s.fld Fld.TOPO_SHAPE_RINGS)).flatMap fun y => (List.range (s.fld Fld.TOPO_SHAPE_RING_SIZE)).map fun x => 16 * y + x

/-- The LIVE members of the plane other than this device. -/
def State.livePlane (s : State) : List Nat := s.planeMembers.filter fun m => s.mState m == 0 && m != s.me

/-- Member `m` belongs to the membership set, in force (R24, R58). -/
def State.inGroup (s : State) (m : Nat) : Bool := (s.inForce (Fld.GARNET_MEMBERS_MEMBER (m / 32))).testBit (m % 32) || m == s.me

/-- The membership set. -/
def State.group (s : State) : List Nat := (List.range 512).filter s.inGroup

/-- The LIVE members of the tick group other than this device. -/
def State.liveGroup (s : State) : List Nat := s.group.filter fun m => s.mState m == 0 && m != s.me

/-- The bundles of this device that face member `m`: ring neighbours, and column neighbours in plane-wide mode (R319, R320). -/
def State.facing (s : State) (m : Nat) : List Bundle :=
  let bs : List Bundle := if s.fld Fld.GARNET_CTRL_PLANE_WIDE = 1 then [.east, .west, .north, .south] else [.east, .west]
  bs.filter fun b => s.nextAlong b none == some m

/-! ### Routing -/

/-- The way along one dimension to `dest` is free of breaks (R316): the own bundle takes messages, and no position up to and with
`dest` is LOST. -/
def State.legFree (s : State) (b : Bundle) (dest : Nat) : Bool :=
  let path := ((s.along b).takeWhile fun m => m != dest) ++ [dest]
  s.liveOf b != [] && path.all fun m => s.mState m != 1

/-- The bundle for one dimension (R301, R316): the shorter way by ranks, EAST or NORTH on a tie from an even rank, the other way at a
break. A message that came over bundle `via` was turned away from that way by a break, and goes on the other. -/
def State.routeDim (s : State) (fwd back : Bundle) (dest : Nat) (via : Option Bundle) : Option Bundle :=
  let ring := ((s.along fwd).filter fun m => decide (s.mState m < 2))
  let n := ring.length + 1
  let d := (ring.takeWhile fun m => m != dest).length + 1
  let rank := (((s.me :: ring).filter fun m => decide (m < s.me))).length
  if !ring.contains dest then none
  else
    let first := if 2 * d < n then fwd else if 2 * d > n then back else if rank % 2 = 0 then fwd else back
    let second := if first = fwd then back else fwd
    let free := fun b => some b != via && s.legFree b dest
    if free first then some first else if free second then some second else none

/-- The bundle over which a message for another member leaves, or none (R301, R316); `via` is the bundle it came on, none for the device's own. -/
def State.routeOn (s : State) (dest : Nat) (via : Option Bundle) : Option Bundle :=
  let x := dest % 16
  if s.fld Fld.TOPO_SHAPE_EXP_VALID = 1 ∧ s.fld Fld.TOPO_SHAPE_EXP_PEER = dest ∧ s.liveOf .expansion ≠ [] then some .expansion
  else if s.mState dest = 3 then none
  else if x ≠ s.me % 16 then s.routeDim .east .west (16 * (s.me / 16) + x) via
  else s.routeDim .north .south dest via

/-- The bundle over which a message of the device itself leaves, or none. -/
def State.route (s : State) (dest : Nat) : Option Bundle := s.routeOn dest none

/-- A tensor message leaves for its destination: back through the I/O die, over a bundle, or discarded with its event (R301). -/
def State.sendTensor (s : State) (m : TensorMsg) : State :=
  if m.hdr.destMember.val = s.me then { s with link := { s.link with loop := s.link.loop ++ [m] } }
  else match s.route m.hdr.destMember with
    | some b => s.putBundle b (mkTx 2 m.bytes)
    | none => s.jasper .routeNone m.hdr.destMember 0 0

/-- A management message leaves: over the TWIN bundle while it takes messages (R325), or along the plane (R300, R301). -/
def State.sendMgmt (s : State) (m : MgmtMsg) : State :=
  if m.twin then (if s.liveOf .twin = [] then s else s.putBundle .twin (mkTx 1 m.bytes))
  else match s.route m.dest with
    | some b => s.putBundle b (mkTx 1 m.bytes)
    | none => s.jasper .routeNone m.dest 0 0

/-- A failover message of 16 payload bytes (R321). -/
def State.mgmtTo (s : State) (dest kind : Nat) (payload : List Byte) : MgmtMsg :=
  ⟨finMod 512 dest (by decide), false, BitVec.ofNat 8 kind, 16#13, finMod 512 s.me (by decide), false,
    (payload ++ List.replicate 16 0#8).take 16⟩

/-- A failover message to each of a list of members. -/
def State.tell (s : State) (ms : List Nat) (kind : Nat) (payload : List Byte) : State :=
  s.each ms fun s m => s.sendMgmt (s.mgmtTo m kind payload)

/-- TOPO_UPDATE to every LIVE member of the plane (R321). -/
def State.tellTopo (s : State) (m v : Nat) : State := s.tell s.livePlane 0x04 (leBytes 4 (m + 2 ^ 9 * v))

/-- A LEAVING message's cause code (R321). -/
def LeaveCause.code : LeaveCause → Nat
  | .admin => 0
  | .stackTrip => 1
  | .channelFailed => 2
  | .watchdog => 3

/-- LEAVING to every LIVE member of the tick group (R318, R321): the device has left. -/
def State.tellLeaving (s : State) (cause : LeaveCause) : State :=
  { s with link := { s.link with left := true } }.tell s.liveGroup 0x03 (leBytes 4 (LeaveCause.code cause) ++ leBytes 4 (s.rd Rg.GARNET_TICK).toNat)

/-! ### The loss of a member -/

/-- The tick of the last token received from `m`, S − 1 where none came since the group formed (R317). -/
def State.lastTick (s : State) (m : Nat) : BitVec 32 :=
  (NMap.find s.garnet.heardTick m).getD (s.garnet.formed.getD (s.rd Rg.GARNET_START_TICK - 1#32))

/-- Start of the relinking of the span towards a lost neighbour (R320). -/
def State.startRelink (s : State) (m : Nat) (bs : List Bundle) : State :=
  { s with link := { s.link with relinks := bs.foldl (fun r b => NMap.ins r (Bundle.num b) ⟨m, s.now, false⟩) s.link.relinks } }

/-- Member `m` is declared lost, `cause` 0 silence or 1 LEAVING (R317). A running step can commit no more and is abandoned;
a thermal withhold ends with the group (R325). -/
def State.memberLost (s : State) (m cause : Nat) : State :=
  let last := s.lastTick m
  let payload := leBytes 4 (m + 2 ^ 9 * cause) ++ leBytes 4 last.toNat ++ List.replicate 8 0#8
  let s := { s with garnet := { s.garnet with before := if s.garnet.before = [] then s.group else s.garnet.before } }.setMState m 1
  let w := s.fld (Fld.GARNET_MEMBERS_MEMBER (m / 32))
  let s := s.setFld (Fld.GARNET_MEMBERS_MEMBER (m / 32)) (if w.testBit (m % 32) then w - 2 ^ (m % 32) else w)
  let s := { s with held := NMap.del (NMap.del s.held (Rg.GARNET_MEMBERS (m / 32))) Rg.GARNET_CTRL }
  let s := s.setFld Fld.GARNET_CTRL_ENABLE 0
  let autos := (List.range 12).filter fun st => s.fld (Fld.STK_THERM_WITHHOLD_AUTO st) == 1
  let s := s.when (autos != []) fun s =>
    (s.each autos fun s st => s.setFld (Fld.STK_THERM_WITHHOLD_AUTO st) 0).setFld Fld.GARNET_CTRL_WITHHOLD 0
  let s := s.tell s.livePlane 0x01 payload
  let s := s.when (s.fld Fld.TOPO_SHAPE_TWIN == 1) fun s => s.sendMgmt
    { s.mgmtTo 0 0x05 (leBytes 4 (s.fld Fld.GARNET_GROUP_GROUP_ID + 2 ^ 16 * m) ++ leBytes 4 s.garnet.lastCommit.toNat) with twin := true }
  let s := s.postAll 0x06 0xFFFF 0xFFFF m payload
  let s := ((s.setFld Fld.TOPO_LAST_LOSS_MEMBER m).setFld Fld.TOPO_LAST_LOSS_CAUSE cause).setFld Fld.TOPO_LAST_LOSS_TICK_TICK last.toNat
  let s := (s.count Ct.TOPO_LOSSES 1).jasper .memberLost m cause last.toNat
  if s.tickState = stRunning then s.abandonStep false
  else if s.tickState = stDone then (s.releaseHeld (toTickIf false)).setFld Fld.GARNET_STATUS_STATE stDisabled
  else s

/-- A tick number is later than another (R38). -/
def tickLater (a b : BitVec 32) : Bool := a != b && decide ((a - b).toNat < 2 ^ 31)

/-- The membership set as it stood before the loss (R319): of losses without a group formed between them, before the first (log entry 72). -/
def State.wholeGroup (s : State) : List Nat := if s.garnet.before = [] then s.group else s.garnet.before

/-- Members of that set, with itself, from which the device still receives tokens as member `lost` falls silent (R319): LIVE ones with a token
within the last 4 periods (R37) whose tick is later than that of the silent one's last token. Members beyond the same break stopped at that tick
too, a few microseconds apart, and are not received any more (log entry 72). -/
def State.heardFrom (s : State) (lost : Nat) : List Nat :=
  s.wholeGroup.filter fun m => m == s.me ||
    (s.mState m == 0 && tickLater (s.lastTick m) (s.lastTick lost) &&
      match NMap.find s.garnet.heardAt m with
      | some t => decide (s.now < t + 4 * s.inForce Fld.GARNET_PERIOD_PERIOD_US)
      | none => false)

/-- The device holds the majority of the group as it stood before the loss of `m` (R319). -/
def State.majority (s : State) (m : Nat) : Bool :=
  let set := s.wholeGroup
  let side := (s.heardFrom m).filter fun k => k != m
  decide (set.length < 2 * side.length) || (2 * side.length == set.length && side.contains (set.foldl Nat.min 511))

/-- A reset request goes out for neighbour `m` (R319): as RESET_REQUEST over a bundle that still reaches it, and on the sideband. -/
def State.requestReset (s : State) (m : Nat) (bs : List Bundle) : State :=
  if s.fld Fld.TOPO_CTRL_RESET_REQ_EN = 0 then s
  else
    let way := bs.find? fun b => s.liveOf b != []
    let side := s.fld Fld.TOPO_CTRL_SIDEBAND_RESET_EN == 1
    let s := match way with
      | some b =>
        let s := s.putBundle b (mkTx 1 (s.mgmtTo m 0x02 (leBytes 4 (m + 2 ^ 9 * s.me))).bytes)
        s.count Ct.TOPO_RESET_REQUESTS 1
      | none => s
    let s := s.when side fun s => (s.out (.ibi (0x20#8 :: leBytes 2 m))).count Ct.TOPO_RESET_REQUESTS 1
    s.when (way.isSome || side) fun s => (s.jasper .resetRequest m 0 0).startRelink m bs

/-! ### Training and cabling -/

/-- The peer a trained port may have (R311): the member and port of the cabling table; `skip` is a member that is being bypassed. -/
def State.peerOk (s : State) (p : Nat) (r : TrainEnd) (skip : Option Nat) : Bool :=
  let b := bundleOf p
  match b with
  | .twin => s.hasPeer .twin && r.peerTwin && r.peer.val == s.me && r.peerPort.val == p
  | .expansion => !r.peerTwin && s.fld Fld.TOPO_SHAPE_EXP_VALID == 1 && r.peer.val == s.fld Fld.TOPO_SHAPE_EXP_PEER &&
      decide (14 ≤ r.peerPort.val)
  | _ =>
    let port := if p < 4 then p + 4 else if p < 8 then p - 4 else if p < 10 then p + 2 else p - 2
    !r.peerTwin && r.peerPort.val == port && ((s.nextAlong b skip == some r.peer.val && decide (s.spanLen b skip ≤ 3)) || s.nextAlong b none == some r.peer.val || s.mState r.peer == 2 &&
      ((s.along b).takeWhile fun m => some m != s.nextAlong b none).contains r.peer.val)

/-- A port's training attempt ends (R296, R311): UP with the good lanes where the peer matches the cabling; held DOWN at another peer;
with fewer than 2 good lanes the next attempt begins. A peer that was LOST or BYPASSED is LIVE again (R326). -/
def State.trainEnd (s : State) (p : Nat) (r : TrainEnd) (skip : Option Nat) : State :=
  if (bitsSet r.good).length < 2 then s.trainPort p
  else if !s.peerOk p r skip then
    let s := (((s.showPeer p r.peer r.peerPort r.peerTwin).setFld (Fld.LNK_STATUS_STATE p) pDown).count Ct.TOPO_MISCABLED 1).jasper .miscabled p r.peer r.peerPort
    s.refreshOpen
  else
    let s := s.portUp p r.good r.peer r.peerPort r.peerTwin
    let m := r.peer.val
    if p < 12 ∧ s.mState m ≠ 0 ∧ s.mState m ≠ 3 then (s.setMState m 0).tellTopo m 0 else s

/-- The ports of ring and plane that are held DOWN towards member `m` try again, as it has joined (R326): the peer that R311 lets them have has
changed. -/
def State.retrainHeld (s : State) (m : Nat) : State :=
  let bs : List Bundle := [.east, .west, .north, .south]
  (bs.filter fun b => s.nextAlong b none == some m).foldl (fun s b => s.each (Bundle.ports b) fun s p =>
    s.when (s.pState p == pDown) fun s => s.trainPort p) s

/-! ### Agate -/

/-- The two ports of a switch (chapter 12). -/
def agatePorts (k : Nat) : List Nat := if k < 4 then [k, k + 4] else [k + 4, k + 6]

/-- Switch `k` is commanded (R314): unless it stands there already or moves there, it moves, and its ports lose their light. -/
def State.moveSwitch (s : State) (close : Bool) (k : Nat) : State :=
  let moves := s.fld (Fld.TOPO_AGATE_STATUS_SW k) == 2 && (NMap.find s.link.agate k).any fun c => c.1 == close
  let s := if moves then s else { s with link := { s.link with agate := NMap.ins s.link.agate k (close, s.now), left := s.link.left && close } }
  if moves ∨ s.fld (Fld.TOPO_AGATE_STATUS_SW k) = bit1 close then s
  else
    let s := (s.setFld (Fld.TOPO_AGATE_STATUS_SW k) 2).count Ct.TOPO_AGATE_OPERATIONS 1
    s.each (agatePorts k) fun s p => s.when (s.pState p == pUp || s.pState p == pDegrading) fun s => s.portDown p 0

/-- All six switches close (R313). -/
def State.closeSwitches (s : State) : State := s.each (List.range 6) fun s k => s.moveSwitch true k

end Sys2Proof.Machine
end

