-- ==== Sys2Proof/Machine/GarnetOps.lean ====
section
/-! DEFINITION. Tick tokens (R33, R36 to R39, R54): flooding, recording and judging them, and issuing the device's own. -/

namespace Sys2Proof.Machine

/-- The tick in progress. -/
def State.tickNo (s : State) : BitVec 32 := s.rd Rg.GARNET_TICK

/-- "done n" of member `m` is held. -/
def State.holds (s : State) (m : Nat) : Bool := (s.fld (Fld.GARNET_TOKENS_HELD_HELD (m / 32))).testBit (m % 32)

/-- TOKENS_COMPLETE follows the tokens held and the membership set (R30, R58). -/
def State.refreshTokens (s : State) : State :=
  s.setFld Fld.GARNET_STATUS_TOKENS_COMPLETE (bit1 (s.ticking && s.group.all s.holds))

/-- "done n" of member `m` is recorded toward the start of tick n + 1 (R39). -/
def State.holdToken (s : State) (m : Nat) : State :=
  let w := s.fld (Fld.GARNET_TOKENS_HELD_HELD (m / 32))
  (s.setFld (Fld.GARNET_TOKENS_HELD_HELD (m / 32)) (if w.testBit (m % 32) then w else w + 2 ^ (m % 32))).refreshTokens

/-- A token is queued on every working port of the group but `from_` (R33); on a port that restripes it waits for the end of that (R34). -/
def State.flood (s : State) (t : Token) (from_ : Option Nat) : State :=
  s.each ((List.range 12).filter fun p => some p != from_ && s.carriesTicks p && (s.pState p == pUp || s.pState p == pDegrading)) fun s p =>
    s.modPort p fun x => { x with queue := addTick x.queue (tokenRecord t) }

/-- The tokens queued go out, those of one moment in one flit (R299). -/
def State.sendTicks (s : State) : State := s.each (List.range 12) State.pump

/-- A token discarded as stale (R33, R39). -/
def State.staleToken (s : State) : State := (s.count Ct.GARNET_STALE_TOKEN_COUNT 1).raise Fld.GARNET_EVENTS_STALE_TOKEN

/-- A received token of the group is judged with the tick in progress (R39, R54). -/
def State.judgeToken (s : State) (t : Token) : State :=
  let m := t.member.val
  let d := (t.tick - s.tickNo).toNat
  if d = 0 then
    let s := s.holdToken m
    if !t.abandon then s
    else
      let s := { s with garnet := { s.garnet with abandonFrom := addOnce s.garnet.abandonFrom m } }
      if s.garnet.committed then s else (s.raise Fld.GARNET_EVENTS_ABANDON_RECEIVED).abandonStep true
  else if d = 1 then
    { s with garnet := { s.garnet with heldNext := addOnce s.garnet.heldNext m
                                       abandonNext := if t.abandon then addOnce s.garnet.abandonNext m else s.garnet.abandonNext } }
  else if d < 2 ^ 31 then (s.raise Fld.GARNET_EVENTS_FUTURE_TOKEN).jasper .futureToken m 0 t.tick.toNat
  else s.staleToken

/-- A token arrives on port `p` (R33, R36, R37, R39): a token of another group is stale; one already received is dropped; any other is
forwarded, and judged, or kept while ENABLE is 0. -/
def State.rxToken (s : State) (p : Nat) (t : Token) : State :=
  let m := t.member.val
  let g := s.garnet
  if t.group.toNat ≠ s.fld Fld.GARNET_GROUP_GROUP_ID then s.staleToken
  else if (NMap.get [] g.seen m).contains t.tick then s
  else
    let s := { s with garnet := { g with seen := NMap.set [] g.seen m (pushBounded 64 (NMap.get [] g.seen m) t.tick)
                                         heardAt := NMap.ins g.heardAt m s.now
                                         heardTick := NMap.ins g.heardTick m t.tick } }
    let s := s.flood t (some p)
    if s.ticking then s.judgeToken t
    else
      let keep := match NMap.find s.garnet.kept m with
        | some k => tickLater t.tick k.1
        | none => true
      if keep then { s with garnet := { s.garnet with kept := NMap.ins s.garnet.kept m (t.tick, t.abandon) } } else s

/-- The device's own "done n" is issued (R31, R54). -/
def State.issueDone (s : State) (abandon : Bool) : State :=
  let me := s.me
  let t : Token := ⟨BitVec.ofNat 16 (s.fld Fld.GARNET_GROUP_GROUP_ID), finMod 512 me (by decide), abandon, s.tickNo⟩
  let g := s.garnet
  let s := { s with garnet := { g with seen := NMap.set [] g.seen me (pushBounded 64 (NMap.get [] g.seen me) t.tick) } }
  let s := s.raise Fld.GARNET_STATUS_OWN_DONE
  let s := s.when abandon fun s => s.raise Fld.GARNET_EVENTS_ABANDON_SENT
  ((s.holdToken me).flood t none).sendTicks

end Sys2Proof.Machine
end

