-- ==== Sys2Proof/Machine/JasperOps.lean ====
section
/-! DEFINITION. The recorder (chapter 16): accepting entries (R419 to R422), rate windows (R426, R427), DEVICE_ERROR (R431), passing entries
to the vault and flushing (R424, R425), the rebase (R422), readout (R428, R429) and clearing counters (R435, R442). -/

namespace Sys2Proof.Machine

/-- The recorder changed. -/
def State.modJsp (s : State) (f : JasperSt → JasperSt) : State := { s with jsp := f s.jsp }

/-- OP_SECONDS follows the clock: 1 at each whole second, stopping at all-ones (R422). -/
def State.syncSeconds (s : State) : State :=
  let n := (s.now - s.jsp.secondAt) / 1000000
  if n = 0 then s
  else (s.setFld Fld.JSP_OP_SECONDS_SECONDS (min (2 ^ 32 - 1) (s.fld Fld.JSP_OP_SECONDS_SECONDS + n))).modJsp fun x =>
    { x with secondAt := x.secondAt + 1000000 * n }

/-- The 32 bytes of an entry (R419). -/
def JEntry.bytes (e : JEntry) : List Byte :=
  leBytes 4 e.seq.toNat ++ leBytes 4 e.secs.toNat ++ leBytes 4 (e.usec % 2 ^ 20) ++
    leBytes 4 (e.cycles % 2 ^ 24 + 2 ^ 24 * e.cls + 2 ^ 28 * e.kind) ++ leBytes 4 (e.code + 2 ^ 16 * (e.unit % 2 ^ 11)) ++
    leBytes 4 e.tick.toNat ++ leBytes 4 e.d0.toNat ++ leBytes 4 e.d1.toNat

/-- An entry for what a source gave, at this moment (R419). -/
def State.mkEntry (s : State) (e : JReq) : JEntry :=
  { seq := s.rd Rg.JSP_NEXT_SEQ, secs := s.rd Rg.JSP_OP_SECONDS, usec := s.now - s.jsp.secondAt,
    cycles := s.fld Fld.JSP_POWER_CYCLES_CYCLES, cls := e.cls, kind := e.kind, code := e.code, unit := e.unit,
    tick := s.tickNo, d0 := e.d0, d1 := e.d1 }

/-- CONTAINED codes that reach software on no other path wherever they arise, as R431 lists them; of the rest some do so only in some places, and
their entries carry it as `alone`. -/
def deviceErrorCodes : List Nat := [0x0105, 0x0204, 0x0300, 0x0400, 0x0403, 0x0902, 0x0903, 0x0A04, 0x0B00]

/-- A DEVICE_ERROR event that carries an entry: to the partition it names, or to every enabled one (R351, R431). -/
def State.deviceError (s : State) (code : Nat) (e : JEntry) : State :=
  if e.kind = 9 then s.postEvent (e.unit % 16) 0x0D 0xFFFF 0xFFFF code e.bytes else s.postAll 0x0D 0xFFFF 0xFFFF code e.bytes

/-- Oldest and newest sequences shown (R438). -/
def State.showSeqs (s : State) : State :=
  let s := s.setFld Fld.JSP_OLDEST_SRAM_SEQ ((s.jsp.ring.head?.map fun e => e.seq.toNat).getD (s.fld Fld.JSP_NEXT_SEQ_SEQ))
  s.setFld Fld.JSP_OLDEST_VAULT_SEQ ((s.flash.vault.head?.map fun e => bvGet 0 32 e).getD 0)

/-- Entries are given to Onyx in SEQ order once the rebase is done and Onyx is MOUNTED or READ_ONLY (R422, R424). -/
def State.passVault (s : State) : State :=
  if s.fld Fld.JSP_STATUS_REBASED = 0 ∨ !s.onyxUp then s
  else
    let es := s.jsp.ring.filter fun e => e.seq == s.jsp.passed || tickLater e.seq s.jsp.passed
    let s := s.modFlash fun x => { x with vaultBuf := x.vaultBuf ++ es.map fun e => BitVec.ofNat 256 (leNat e.bytes) }
    s.modJsp fun x => { x with passed := s.rd Rg.JSP_NEXT_SEQ }

/-- Whether every entry given is journalled. -/
def State.vaultIdle (s : State) : Bool := s.flash.vaultBuf == [] && s.jsp.waiting == []

/-- A flush is requested (R424): it covers the entries accepted so far. With nothing left to journal it is complete at once. -/
def State.requestFlush (s : State) : State :=
  let s := s.passVault
  if s.onyxUp && s.fld Fld.JSP_STATUS_REBASED == 1 && s.vaultIdle then s.count Ct.JSP_FLUSHES 1
  else (s.modFlash fun x => { x with vaultFlush := x.vaultBuf.length }).raise Fld.JSP_STATUS_FLUSH_BUSY

/-- A flush requested before Onyx could journal is taken up once it can (R422, R424). -/
def State.resumeFlush (s : State) : State :=
  if s.fld Fld.JSP_STATUS_FLUSH_BUSY = 1 then (s.setFld Fld.JSP_STATUS_FLUSH_BUSY 0).requestFlush else s

/-- An entry is written to the ring with the next SEQ (R421, R424), interrupts on the sideband (R429) and, as its code asks, raises
DEVICE_ERROR (R431) or a flush (R424). -/
def State.record (s : State) (e : JReq) (error : Option Nat) : State :=
  let s := s.syncSeconds
  let x := s.mkEntry e
  let full := decide (8192 ≤ s.jsp.ring.length)
  let unsaved := match s.jsp.ring with
    | o :: _ => full && (o.seq == s.rd Rg.JSP_JOURNALLED || tickLater o.seq (s.rd Rg.JSP_JOURNALLED))
    | [] => false
  let s := s.modJsp fun j => { j with ring := pushBounded 8192 j.ring x }
  let s := (s.count Ct.JSP_RECORDED 1).setFld Fld.JSP_NEXT_SEQ_SEQ (x.seq.toNat + 1)
  let s := s.when unsaved fun s => s.count Ct.JSP_OVERWRITTEN_UNSAVED 1
  let s := s.showSeqs
  let s := s.when (s.fld Fld.JSP_CTRL_IBI_EN == 1 && decide (s.fld Fld.JSP_CTRL_IBI_CLASS ≤ e.cls)) fun s =>
    s.out (.ibi (0x10#8 :: leBytes 4 x.seq.toNat))
  let s := match error with
    | some c => s.deviceError c x
    | none => s
  let s := s.passVault
  s.when (e.cls == 4 || e.code == 0x0002 || e.code == 0x0005) State.requestFlush

/-- A code that windows limit (R426). -/
def limited (e : JReq) : Bool := !(decide (1 ≤ e.code) && decide (e.code ≤ 5)) && e.cls != 4

/-- An entry from the intake queue is accepted, or suppressed beyond LIMIT entries of its code in the window (R421, R426). -/
def State.accept (s : State) (e : JReq) : State :=
  let n := NMap.get 0 s.jsp.counts e.code
  if limited e && decide (s.fld Fld.JSP_RATE_LIMIT ≤ n) then
    let old := NMap.find s.jsp.supp e.code
    let new : Supp := match old with
      | some k => { k with count := min (2 ^ 32 - 1) (k.count + 1), alone := k.alone || e.alone }
      | none => ⟨e.kind, e.unit, e.cls, 1, e.alone⟩
    (s.count Ct.JSP_SUPPRESSED 1).modJsp fun x => { x with supp := NMap.ins x.supp e.code new }
  else
    let s := s.modJsp fun x => if limited e then { x with counts := NMap.set 0 x.counts e.code (n + 1) } else x
    s.record e (if deviceErrorCodes.contains e.code || e.alone then some e.code else none)

/-- The recorder takes the first entry that waits (R421). -/
def State.takeIntake (s : State) : State :=
  match s.intake with
  | [] => s
  | e :: rest => { s with intake := rest }.accept e

/-- The recorder takes every entry that waits: it accepts one each 0.8 ns (R421). -/
def State.drainIntake (s : State) : State := s.each (List.range 64) fun s _ => s.takeIntake

/-- The summaries of a window (R426, R427): one SUPPRESSED entry for each code in ascending order, then INTAKE_DROPPED. -/
def State.writeSummaries (s : State) : State :=
  let supp := s.jsp.supp
  let drops := s.jsp.drops
  let s := s.modJsp fun x => { x with supp := [], drops := 0, counts := [] }
  let s := s.each supp fun s p =>
    s.record { cls := 0, kind := p.2.kind, code := 0x0003, unit := p.2.unit, d0 := BitVec.ofNat 32 p.1, d1 := BitVec.ofNat 32 p.2.count }
      (if deviceErrorCodes.contains p.1 || p.2.alone then some p.1 else none)
  if drops = 0 then s else s.record { cls := 0, kind := 0, code := 0x0004, unit := 0, d0 := 0#32, d1 := BitVec.ofNat 32 drops } none

/-- The sequence base (R422): SEQ, seconds and power cycles are added to the counters and to every entry held. -/
def State.rebase (s : State) (seq secs cycles : Nat) : State :=
  let s := s.syncSeconds
  let move := fun (e : JEntry) =>
    { e with seq := e.seq + BitVec.ofNat 32 seq, secs := BitVec.ofNat 32 (min (2 ^ 32 - 1) (e.secs.toNat + secs))
             cycles := min (2 ^ 24 - 1) (e.cycles + cycles) }
  let s := s.modJsp fun x => { x with ring := x.ring.map move, passed := x.passed + BitVec.ofNat 32 seq }
  let s := s.setFld Fld.JSP_NEXT_SEQ_SEQ (s.fld Fld.JSP_NEXT_SEQ_SEQ + seq)
  let s := s.setFld Fld.JSP_JOURNALLED_SEQ (s.fld Fld.JSP_JOURNALLED_SEQ + seq)
  let s := s.setFld Fld.JSP_OP_SECONDS_SECONDS (min (2 ^ 32 - 1) (s.fld Fld.JSP_OP_SECONDS_SECONDS + secs))
  let s := s.setFld Fld.JSP_POWER_CYCLES_CYCLES (min (2 ^ 24 - 1) (s.fld Fld.JSP_POWER_CYCLES_CYCLES + cycles))
  (s.raise Fld.JSP_STATUS_REBASED).showSeqs

/-- The entry of highest SEQ, compared under R38. -/
def newestEntry (es : List (BitVec 256)) : Option (BitVec 256) :=
  es.foldl (fun b e => if b.all fun x => tickLater (e.extractLsb' 0 32) (x.extractLsb' 0 32) then some e else b) none

/-- The rebase from the vault's entry of highest SEQ, once Onyx is MOUNTED or READ_ONLY (R422). -/
def State.rebaseVault (s : State) : State :=
  if s.fld Fld.JSP_STATUS_REBASED = 1 then s.showSeqs
  else match newestEntry s.flash.vault with
    | some e => s.rebase (bvGet 0 32 e + 1) (bvGet 32 32 e) (bvGet 96 24 e + 1)
    | none => s.rebase 0 0 1

/-- The rebase where there is no vault to read (R422): BASE_LOST is set with it. -/
def State.rebaseLost (s : State) : State :=
  if s.fld Fld.JSP_STATUS_REBASED = 1 then s else (s.rebase 0 0 1).raise Fld.JSP_STATUS_BASE_LOST

/-! ### Readout -/

/-- The entry of a sequence in the ring. -/
def State.ringEntry (s : State) (seq : BitVec 32) : Option JEntry := s.jsp.ring.find? fun e => e.seq == seq

/-- The entry of a sequence in the vault: the copy in the later page (R424). -/
def State.vaultEntry (s : State) (seq : BitVec 32) : Option (BitVec 256) :=
  s.flash.vault.reverse.find? fun e => e.extractLsb' 0 32 == seq

/-- The page of the vault that holds the entry of a sequence: the latest (R424). -/
def FlashSt.vaultPage (x : FlashSt) (seq : BitVec 32) : Option Nat :=
  (x.sys.foldl (fun (b : Option (Nat × Nat)) (p : Nat × SysPage) => match x.readSys [] p.1 with
    | some (.vault es) =>
      if es.any (fun e => e != 0#256 && e.extractLsb' 0 32 == seq) && b.all fun q => decide (q.1 < p.2.seq) then some (p.2.seq, p.1) else b
    | _ => b) none).map Prod.snd

/-- The entry of a sequence read from the vault (R428): its page is read, as free values say (R259, log entry 83), and one that does not decode
keeps its entries no longer. -/
def State.readVault (s : State) (seq : BitVec 32) : Option (BitVec 256) × State :=
  match s.vaultEntry seq, s.flash.vaultPage seq with
  | some e, some key =>
    let r := s.drawRead
    let q := r.2.readSysPage key r.1 0
    if q.1 then (some e, q.2) else (none, (q.2.modFlash fun x => { x with vault := x.vaultStored [] }).showSeqs)
  | e, _ => (e, s)

/-- The ENTRY registers hold 32 bytes, or 0 (R428). -/
def State.latchEntry (s : State) (bs : List Byte) : State :=
  s.each (List.range 8) fun s w => s.setFld (Fld.JSP_ENTRY_WORD w) (leNat ((bs.drop (4 * w)).take 4))

/-- A sequence newer than the newest accepted entry (R428). -/
def State.notYet (s : State) (seq : BitVec 32) : Bool := seq == s.rd Rg.JSP_NEXT_SEQ || tickLater seq (s.rd Rg.JSP_NEXT_SEQ)

/-- Where the entry of a sequence is (R428, R429): in the ring, still to be read from the vault, or nowhere. -/
inductive Found
  | ring (e : JEntry)
  | vault (e : BitVec 256)
  | gone

/-- The entry of a sequence looked up (R428). -/
def State.lookSeq (s : State) (seq : BitVec 32) : Found :=
  if s.notYet seq then .gone
  else match s.ringEntry seq, s.vaultEntry seq with
    | some e, _ => .ring e
    | none, some e => .vault e
    | none, none => .gone

/-- A write of JSP.READ_SEQ (R428). -/
def State.writeReadSeq (s : State) (seq : BitVec 32) : State :=
  let s := s.setFld Fld.JSP_READ_SEQ_SEQ seq.toNat
  match s.lookSeq seq with
  | .ring e => (s.latchEntry e.bytes).setFld Fld.JSP_READ_STATUS_STATE 0
  | .vault _ => s.setFld Fld.JSP_READ_STATUS_STATE 1
  | .gone => (s.latchEntry []).setFld Fld.JSP_READ_STATUS_STATE 2

/-- A vault read in progress ends with GONE (R437), for the PCIe path and for the sideband's selection. -/
def State.endVaultRead (s : State) : State :=
  let s := s.when (s.fld Fld.JSP_READ_STATUS_STATE == 1) fun s => (s.latchEntry []).setFld Fld.JSP_READ_STATUS_STATE 2
  s.when s.jsp.sel.isSome fun s => (s.modJsp fun x => { x with sel := none }).out (.i3c (2#8 :: List.replicate 32 0#8))

/-- The sideband is served: the main group is out of reset, in every state from FIRMWARE onward (R429). -/
def State.sidebandUp (s : State) : Bool := s.boot.heldBy == [] && decide (2 ≤ s.fld Fld.BOOT_STATE_STATE)

/-! ### Clearing counters -/

/-- The counter at a low word's address is cleared, value and SAT (R435); milliseconds of a power state are counted up to this moment. -/
def State.clearCtr (s : State) (a : Nat) : State := let s := s.syncResidency; { s with ctrs := NMap.del s.ctrs a }

/-- CTR_CLEAR with BLOCK 0 (R435). -/
def State.clearOne (s : State) (a : Nat) : State :=
  if regAt a = .counterLo then s.clearCtr a else s.jasper .unusedValue 0 Rg.JSP_CTR_CLEAR a

/-- CTR_CLEAR with BLOCK 1 (R435, R442): every counter of the block instance that holds the offset. -/
def State.clearBlock (s : State) (a : Nat) : State :=
  match decodeBlk a with
  | none => s.jasper .unusedValue 0 Rg.JSP_CTR_CLEAR (a + 2 ^ 28)
  | some b =>
    let whole := fun (x : Blk × Nat) => if x.1 = .hqq then (Blk.hq, 0x30000) else x
    let s := s.syncResidency
    { s with ctrs := s.ctrs.filter fun c => ((decodeBlk c.1).map whole) != some (whole b) }

end Sys2Proof.Machine
end

