-- ==== Sys2Proof/Machine/ResetOps.lean ====
section
/-! DEFINITION. Resets that repeat start-up (R28, R358, R361, R362, R391 to R393) and the device's own faults (R318, R367). -/

namespace Sys2Proof.Machine

/-- Resets are held by SYS_RST_N, PERST_N, a supply, a die trip or PWRFAIL_N, as `BootSt.heldBy` lists them. -/
def heldPerst : Nat := 1
/-- Held by a supply (R397). -/
def heldSupply : Nat := 2
/-- Held by a die trip (R412). -/
def heldTrip : Nat := 3
/-- Held by PWRFAIL_N (R415). -/
def heldPwrfail : Nat := 4

/-- Start-up has not ended: BOOT.STATE is RESET to LINKS (R393). -/
def State.starting (s : State) : Bool := decide (s.fld Fld.BOOT_STATE_STATE < 6)

/-- Fields of the always-on group that lie in registers (R391, R393, R412, R422). -/
def alwaysOn : List Fld :=
  [Fld.JSP_NEXT_SEQ_SEQ, Fld.JSP_JOURNALLED_SEQ, Fld.JSP_OLDEST_SRAM_SEQ, Fld.JSP_OP_SECONDS_SECONDS, Fld.JSP_POWER_CYCLES_CYCLES,
   Fld.JSP_STATUS_REBASED, Fld.PWR_EVENTS_TRIP_SEEN, Fld.PWR_STATUS_THERM_N] ++
    (List.range 12).map Fld.STK_THERM_TRIP_SEEN

/-- What no reset changes: commands that wait, the clock, the model's counter and record, host memory, the NAND, the NOR, the level of PWRFAIL_N
and the position of the Agate switches. -/
def State.survivors (s : State) : State :=
  let f := s.flash
  let r : State :=
    { pending := s.pending, now := s.now, free := s.free, host := s.host, outs := s.outs,
      flash := { nand := f.nand, sys := f.sys, sets := f.sets, sysSeq := f.sysSeq, marked := f.marked, clean := f.clean },
      boot := { nor := s.boot.nor, rpmc := s.boot.rpmc, heldBy := s.boot.heldBy, zeroAt := s.now },
      link := { agate := s.link.agate },
      power := { temps := s.power.temps, prevs := s.power.prevs },
      jsp := { windowAt := s.now, secondAt := s.now } }
  (r.setFld Fld.PWR_STATUS_PWRFAIL (s.fld Fld.PWR_STATUS_PWRFAIL)).each (List.range 6) fun r k =>
    r.setFld (Fld.TOPO_AGATE_STATUS_SW k) (s.fld (Fld.TOPO_AGATE_STATUS_SW k))

/-- Lookup slots of every core after a cold reset: undefined (R129). -/
def State.freshLuts (s : State) : State :=
  let (tag, s) := s.fresh
  { s with cores := (List.range 512).map fun c => (c, { (default : CoreSt) with vec := { (default : VFile) with lutTag := tag } }) }

/-- A cold reset (R362): the always-on group is cleared, and the Agate switches close (R313). -/
def State.coldStart (s : State) : State :=
  let r := s.survivors.freshLuts.closeSwitches
  r.when (s.power.thermN != []) fun r => r.out (.pin "THERM_N" false)

/-- A warm reset (R362): the step in progress is lost (R28), everything outside the always-on group and the lookup slots returns to its
reset value, the causes are recorded (R392, R393) and the Agate switches close (R313). The recorder ends its rate window, whose summaries come
ahead of what waits in its intake queue, and accepts that (R421, R426). -/
def State.warmStart (s : State) (causes : List Fld) : State :=
  let s := s.syncSeconds.writeSummaries.drainIntake
  let r := s.survivors
  let r := r.each alwaysOn fun r f => r.setFld f (s.fld f)
  let bits := Fld.BOOT_RESET_CAUSE_COLD.addr
  let old := if s.starting then s.rd bits else 0#32
  let r := (r.wr bits old).each causes fun r f => r.raise f
  let r := { r with
    jsp := { r.jsp with ring := s.jsp.ring, passed := s.rd Rg.JSP_JOURNALLED, secondAt := s.jsp.secondAt, opAt := s.jsp.opAt
                        counts := s.jsp.counts, supp := s.jsp.supp, drops := s.jsp.drops }
    power := { r.power with thermN := s.power.thermN }
    cores := NMap.mapD {} (fun x => { (default : CoreSt) with vec := { (default : VFile) with luts := x.vec.luts, lutTag := x.vec.lutTag } }) s.cores }
  r.closeSwitches

/-- A start-up's time 0 is this moment (R362), and the recorder's windows count from it (R426). -/
def State.timeZero (s : State) : State :=
  { s with boot := { s.boot with zeroAt := s.now }, jsp := { s.jsp with windowAt := s.now } }

/-- Resets are no longer held by `why`; time 0 is this moment (R361, R397, R412, R415). -/
def State.release (s : State) (why : Nat) : State :=
  if s.boot.heldBy.contains why then { s with boot := { s.boot with heldBy := s.boot.heldBy.filter (· != why) } }.timeZero else s

/-- LEAVING is sent and a warm reset follows (R318, R362), through whose start-up the device has left (R325, log entry 82). -/
def State.leaveAndReset (s : State) (cause : LeaveCause) (causes : List Fld) : State := 
  let s := (s.tellLeaving cause).warmStart causes
  { s with link := { s.link with left := true } }

/-- Start-up ends in RECOVERY (7) or FAILED (8) with a FAIL_CODE (R367): no step runs and the Agate switches are closed. Where Onyx will not
serve the vault the recorder's base is lost (R422). -/
def State.endStart (s : State) (st code : Nat) : State :=
  let s := (((s.abandonStep false).forceFld Fld.GARNET_CTRL_ENABLE 0).setFld Fld.GARNET_STATUS_STATE stDisabled).closeSwitches
  let s := (s.setFld Fld.BOOT_STATE_STATE st).setFld Fld.BOOT_STATE_FAIL_CODE code
  if s.onyxUp then s else s.rebaseLost

/-- The device acts on a fault of its own (R318): LEAVING and a warm reset; during start-up, FAILED with TRAINING (R216, R367). -/
def State.actOnFault (s : State) : State :=
  match s.boot.fault with
  | none => s
  | some cause =>
    let s := { s with boot := { s.boot with fault := none } }
    if s.starting then s.endStart 8 6 else s.leaveAndReset cause []

/-- The device acts on a fault that a command has raised: `s` is the state before it (R318). -/
def State.actOnNew (s t : State) : State := if s.boot.fault.isNone then t.actOnFault else t

/-- An instruction that may read or write the stacks: a fault of the device's own that it meets is acted on at once (R200, R318). -/
def State.issueAct (s : State) (c q : Nat) (i : Instr) (run : Prog → State → RunOut) : State := s.actOnNew (s.issue c q i run)

end Sys2Proof.Machine
end

