-- ==== Sys2Proof/Decode.lean ====
section
/-! DEFINITION. The instruction words of a step program (R45 to R48, R107 to R110, R119, R122, R136 to R138), which DISPATCH decodes into
commands; and decodeTableWord, which answers none since no row of the command table gives bits (log entry 1). -/

namespace Sys2Proof

open Machine

/-- A field of at most `n` values, taken from bits of an instruction word. -/
def fin (n : Nat) (h : 0 < n) (v : Nat) : Fin n := ⟨v % n, Nat.mod_lt v h⟩

/-- A `w`-bit field of an instruction word. -/
def ib (w : IWord) (lo n : Nat) : Nat := bvGet lo n w

/-- Where an instruction goes when it is dispatched (R45, R47). -/
inductive Place
  /-- one queue -/
  | queue (q : Fin 8)
  /-- NOP completes at dispatch -/
  | none
  /-- LAYER goes to every queue -/
  | every (n : BitVec 16)
  /-- STEP_END ends dispatch -/
  | stop
  deriving DecidableEq, Repr

/-- The fields of a vector word (R119). -/
def vword (w : IWord) : VWord :=
  { men := bvBit 51 w, msk := fin 8 (by decide) (ib w 48 3), ty := fin 4 (by decide) (ib w 46 2), vd := fin 32 (by decide) (ib w 41 5),
    va := fin 32 (by decide) (ib w 36 5), vb := fin 32 (by decide) (ib w 31 5), nm1 := fin 4096 (by decide) (ib w 19 12),
    imm := BitVec.ofNat 19 (ib w 0 19) }

/-- The instruction of a vector opcode (R122); none for the unused opcodes. -/
def decodeVector (c : CoreId) (op : Nat) (v : VWord) : Option Instr :=
  match op with
  | 0x01 => some (.vld c v)
  | 0x02 => some (.vst c v)
  | 0x03 => some (.vldx c v)
  | 0x04 => some (.vmov c v)
  | 0x05 => some (.vsplat c v)
  | 0x06 => some (.vsplathi c v)
  | 0x07 => some (.viota c v)
  | 0x08 => some (.vbcast c v)
  | 0x09 => some (.vlutld c v)
  | 0x10 => some (.vadd c v)
  | 0x11 => some (.vaddi c v)
  | 0x12 => some (.vsub c v)
  | 0x13 => some (.vsubi c v)
  | 0x14 => some (.vadds c v)
  | 0x15 => some (.vaddsi c v)
  | 0x16 => some (.vsubs c v)
  | 0x17 => some (.vsubsi c v)
  | 0x18 => some (.vmul c v)
  | 0x19 => some (.vmuli c v)
  | 0x1A => some (.vmulsh c v)
  | 0x1B => some (.vmulshi c v)
  | 0x1C => some (.vmin c v)
  | 0x1D => some (.vmini c v)
  | 0x1E => some (.vmax c v)
  | 0x1F => some (.vmaxi c v)
  | 0x20 => some (.vabs c v)
  | 0x21 => some (.vneg c v)
  | 0x22 => some (.vand c v)
  | 0x23 => some (.vandi c v)
  | 0x24 => some (.vor c v)
  | 0x25 => some (.vori c v)
  | 0x26 => some (.vxor c v)
  | 0x27 => some (.vxori c v)
  | 0x28 => some (.vshl c v)
  | 0x29 => some (.vshli c v)
  | 0x2A => some (.vsra c v)
  | 0x2B => some (.vsrai c v)
  | 0x2C => some (.vsrr c v)
  | 0x2D => some (.vsrri c v)
  | 0x2E => some (.vshls c v)
  | 0x2F => some (.vshlsi c v)
  | 0x30 => some (.vcls c v)
  | 0x34 => some (.vcvt c v)
  | 0x35 => some (.vdesc c v)
  | 0x36 => some (.vqscale c v)
  | 0x37 => some (.vquant c v)
  | 0x38 => some (.vdeq c v)
  | 0x39 => some (.vexts c v)
  | 0x40 => some (.vcmp c v)
  | 0x41 => some (.vsel c v)
  | 0x42 => some (.vmlog c v)
  | 0x43 => some (.vmpop c v)
  | 0x44 => some (.vmfirst c v)
  | 0x45 => some (.vmsetn c v)
  | 0x50 => some (.vrsum c v)
  | 0x51 => some (.vrmax c v)
  | 0x52 => some (.vrmin c v)
  | 0x53 => some (.vrmaxi c v)
  | 0x54 => some (.vscan c v)
  | 0x58 => some (.vtopk c v)
  | 0x59 => some (.vtopkp c v)
  | 0x5C => some (.vcompress c v)
  | 0x5D => some (.vexpand c v)
  | 0x60 => some (.vlut c v)
  | 0x64 => some (.vrand c v)
  | 0x68 => some (.vacc c v)
  | 0x69 => some (.vaccraw c v)
  | _ => none

/-- A matrix command (R107 to R110). -/
def decodeMatrix (c : CoreId) (w : IWord) : Option Instr :=
  let e := fin 4 (by decide) (ib w 58 2)
  match ib w 54 4 with
  | 0 => some (.setup c e
      { format := fin 16 (by decide) (ib w 50 4), group := fin 4 (by decide) (ib w 48 2), grid := fin 8 (by decide) (ib w 45 3),
        comp := bvBit 44 w, tokens := fin 32 (by decide) (ib w 39 5), actBase := BitVec.ofNat 15 (ib w 24 15),
        actFormat := fin 16 (by decide) (ib w 20 4), source := fin 4 (by decide) (ib w 18 2),
        headGroups := fin 4 (by decide) (ib w 16 2), scaleBase := BitVec.ofNat 14 (ib w 2 14) })
  | 1 => some (.run c e
      { src := BitVec.ofNat 16 (ib w 38 16), blockOfs := BitVec.ofNat 7 (ib w 31 7), blocks := BitVec.ofNat 12 (ib w 19 12),
        accumulate := bvBit 18 w, scaleCont := bvBit 17 w, actChunk := BitVec.ofNat 11 (ib w 6 11) })
  | 2 => some (.readout c e
      { dest := BitVec.ofNat 15 (ib w 39 15), colrec := BitVec.ofNat 15 (ib w 24 15), f := fin 16 (by decide) (ib w 20 4),
        fOut := fin 16 (by decide) (ib w 16 4) })
  | 3 => some (.readraw c e { addr := BitVec.ofNat 15 (ib w 39 15) })
  | 4 => some (.merge c e { addr := BitVec.ofNat 15 (ib w 39 15) })
  | _ => none

/-- A fetch command (R48). -/
def decodeFetch (c : CoreId) (w : IWord) : Instr :=
  .fetch c { toCache := bvBit 59 w, credit := fin 32 (by decide) (ib w 54 5), slot := fin 1024 (by decide) (ib w 44 10),
             units := fin 64 (by decide) (ib w 38 6), object := BitVec.ofNat 16 (ib w 22 16), tile := BitVec.ofNat 22 (ib w 0 22) }

/-- The fields of a class 0x3 word (R136). -/
def tokenOp (w : IWord) : TokenOp :=
  { queue := fin 8 (by decide) (ib w 55 3), self := bvBit 54 w, target := fin 512 (by decide) (ib w 45 9),
    counter := fin 64 (by decide) (ib w 39 6), amount := BitVec.ofNat 8 (ib w 31 8) }

/-- A token wait, token signal or credit return (R136). -/
def decodeToken (c : CoreId) (w : IWord) : Option Instr :=
  match ib w 58 2 with
  | 0 => some (.wait c (tokenOp w))
  | 1 => some (.signal c (tokenOp w))
  | 2 => some (.creditReturn c (tokenOp w))
  | _ => none

/-- A link send or release (R137). -/
def decodeLink (c : CoreId) (w : IWord) : Option Instr :=
  match ib w 58 2 with
  | 0 => some (.send c
      { ch := fin 32 (by decide) (ib w 53 5), src := BitVec.ofNat 15 (ib w 38 15), len := BitVec.ofNat 10 (ib w 28 10),
        destOfs := BitVec.ofNat 16 (ib w 12 16), amount := BitVec.ofNat 8 (ib w 4 8), wire := fin 4 (by decide) (ib w 2 2) })
  | 1 => some (.release c { ch := fin 32 (by decide) (ib w 53 5), amount := BitVec.ofNat 8 (ib w 4 8) })
  | _ => none

/-- The fields of a class 0x5 word (R138). -/
def cacheOp (w : IWord) : CacheOp :=
  { cc := BitVec.ofNat 16 (ib w 41 16), cb := BitVec.ofNat 15 (ib w 26 15), len := BitVec.ofNat 10 (ib w 16 10),
    credit := fin 32 (by decide) (ib w 11 5), word := fin 16 (by decide) (ib w 7 4), cluster := fin 64 (by decide) (ib w 1 6) }

/-- A cluster-cache operation (R138). -/
def decodeCache (c : CoreId) (w : IWord) : Option Instr :=
  match ib w 57 3 with
  | 0 => some (.read c (cacheOp w))
  | 1 => some (.write c (cacheOp w))
  | 2 => some (.add c (cacheOp w))
  | 3 => some (.max c (cacheOp w))
  | 4 => some (.fetchAdd c (cacheOp w))
  | _ => none

/-- The queue of a decoded instruction (R45). -/
def queueOf : Instr → Fin 8
  | .setup _ e _ | .run _ e _ | .readout _ e _ | .readraw _ e _ | .merge _ e _ => ⟨e.val, by omega⟩
  | .fetch .. => 5
  | .wait _ t | .signal _ t | .creditReturn _ t => t.queue
  | .send .. | .release .. => 6
  | .read .. | .write .. | .add .. | .max .. | .fetchAdd .. => 7
  | _ => 4

/-- An instruction word of core `c`'s program, with the place it is dispatched to; none for an unused class or operation (R45, R47,
R107, R121, R136 to R138). -/
def decodeWord (c : CoreId) (w : IWord) : Option (Place × Instr) :=
  let one := fun i : Instr => (Place.queue (queueOf i), i)
  match ib w 60 4 with
  | 0 => (decodeMatrix c w).map one
  | 1 => (decodeVector c (ib w 52 8) (vword w)).map one
  | 2 => some (one (decodeFetch c w))
  | 3 => (decodeToken c w).map one
  | 4 => (decodeLink c w).map one
  | 5 => (decodeCache c w).map one
  | 6 => match ib w 56 4 with
    | 0 => some (.none, .nop c)
    | 1 => some (.every (BitVec.ofNat 16 (ib w 0 16)), .layer c 0 (BitVec.ofNat 16 (ib w 0 16)))
    | 2 => some (.stop, .stepEnd c)
    | _ => none
  | _ => none

/-- Opcode and fields of a vector instruction (R122). -/
def vectorOp : Instr → Option (Nat × CoreId × VWord)
  | .vld c v => some (0x01, c, v)
  | .vst c v => some (0x02, c, v)
  | .vldx c v => some (0x03, c, v)
  | .vmov c v => some (0x04, c, v)
  | .vsplat c v => some (0x05, c, v)
  | .vsplathi c v => some (0x06, c, v)
  | .viota c v => some (0x07, c, v)
  | .vbcast c v => some (0x08, c, v)
  | .vlutld c v => some (0x09, c, v)
  | .vadd c v => some (0x10, c, v)
  | .vaddi c v => some (0x11, c, v)
  | .vsub c v => some (0x12, c, v)
  | .vsubi c v => some (0x13, c, v)
  | .vadds c v => some (0x14, c, v)
  | .vaddsi c v => some (0x15, c, v)
  | .vsubs c v => some (0x16, c, v)
  | .vsubsi c v => some (0x17, c, v)
  | .vmul c v => some (0x18, c, v)
  | .vmuli c v => some (0x19, c, v)
  | .vmulsh c v => some (0x1A, c, v)
  | .vmulshi c v => some (0x1B, c, v)
  | .vmin c v => some (0x1C, c, v)
  | .vmini c v => some (0x1D, c, v)
  | .vmax c v => some (0x1E, c, v)
  | .vmaxi c v => some (0x1F, c, v)
  | .vabs c v => some (0x20, c, v)
  | .vneg c v => some (0x21, c, v)
  | .vand c v => some (0x22, c, v)
  | .vandi c v => some (0x23, c, v)
  | .vor c v => some (0x24, c, v)
  | .vori c v => some (0x25, c, v)
  | .vxor c v => some (0x26, c, v)
  | .vxori c v => some (0x27, c, v)
  | .vshl c v => some (0x28, c, v)
  | .vshli c v => some (0x29, c, v)
  | .vsra c v => some (0x2A, c, v)
  | .vsrai c v => some (0x2B, c, v)
  | .vsrr c v => some (0x2C, c, v)
  | .vsrri c v => some (0x2D, c, v)
  | .vshls c v => some (0x2E, c, v)
  | .vshlsi c v => some (0x2F, c, v)
  | .vcls c v => some (0x30, c, v)
  | .vcvt c v => some (0x34, c, v)
  | .vdesc c v => some (0x35, c, v)
  | .vqscale c v => some (0x36, c, v)
  | .vquant c v => some (0x37, c, v)
  | .vdeq c v => some (0x38, c, v)
  | .vexts c v => some (0x39, c, v)
  | .vcmp c v => some (0x40, c, v)
  | .vsel c v => some (0x41, c, v)
  | .vmlog c v => some (0x42, c, v)
  | .vmpop c v => some (0x43, c, v)
  | .vmfirst c v => some (0x44, c, v)
  | .vmsetn c v => some (0x45, c, v)
  | .vrsum c v => some (0x50, c, v)
  | .vrmax c v => some (0x51, c, v)
  | .vrmin c v => some (0x52, c, v)
  | .vrmaxi c v => some (0x53, c, v)
  | .vscan c v => some (0x54, c, v)
  | .vtopk c v => some (0x58, c, v)
  | .vtopkp c v => some (0x59, c, v)
  | .vcompress c v => some (0x5C, c, v)
  | .vexpand c v => some (0x5D, c, v)
  | .vlut c v => some (0x60, c, v)
  | .vrand c v => some (0x64, c, v)
  | .vacc c v => some (0x68, c, v)
  | .vaccraw c v => some (0x69, c, v)
  | _ => none

/-- A vector word (R119). -/
def encodeVector (op : Nat) (v : VWord) : Nat :=
  1 * 2 ^ 60 + op * 2 ^ 52 + bit1 v.men * 2 ^ 51 + v.msk.val * 2 ^ 48 + v.ty.val * 2 ^ 46 + v.vd.val * 2 ^ 41 + v.va.val * 2 ^ 36 +
    v.vb.val * 2 ^ 31 + v.nm1.val * 2 ^ 19 + v.imm.toNat

/-- A word of class 0x3 (R136). -/
def encodeToken (op : Nat) (t : TokenOp) : Nat :=
  3 * 2 ^ 60 + op * 2 ^ 58 + t.queue.val * 2 ^ 55 + bit1 t.self * 2 ^ 54 + t.target.val * 2 ^ 45 + t.counter.val * 2 ^ 39 +
    t.amount.toNat * 2 ^ 31

/-- A word of class 0x5 (R138). -/
def encodeCache (op : Nat) (o : CacheOp) : Nat :=
  5 * 2 ^ 60 + op * 2 ^ 57 + o.cc.toNat * 2 ^ 41 + o.cb.toNat * 2 ^ 26 + o.len.toNat * 2 ^ 16 + o.credit.val * 2 ^ 11 + o.word.val * 2 ^ 7 +
    o.cluster.val * 2

/-- The word of a step-program command, with its core and with spare bits 0 (R45, R47, R48, R107 to R110, R119, R136 to R138); none for the
other commands. LAYER stands in a program once for all its queues, as `.layer c 0 n`. -/
def encodeWord : Instr → Option (CoreId × IWord)
  | .setup c e o => some (c, BitVec.ofNat 64 (e.val * 2 ^ 58 + o.format.val * 2 ^ 50 + o.group.val * 2 ^ 48 + o.grid.val * 2 ^ 45 +
      bit1 o.comp * 2 ^ 44 + o.tokens.val * 2 ^ 39 + o.actBase.toNat * 2 ^ 24 + o.actFormat.val * 2 ^ 20 + o.source.val * 2 ^ 18 +
      o.headGroups.val * 2 ^ 16 + o.scaleBase.toNat * 2 ^ 2))
  | .run c e o => some (c, BitVec.ofNat 64 (e.val * 2 ^ 58 + 1 * 2 ^ 54 + o.src.toNat * 2 ^ 38 + o.blockOfs.toNat * 2 ^ 31 +
      o.blocks.toNat * 2 ^ 19 + bit1 o.accumulate * 2 ^ 18 + bit1 o.scaleCont * 2 ^ 17 + o.actChunk.toNat * 2 ^ 6))
  | .readout c e o => some (c, BitVec.ofNat 64 (e.val * 2 ^ 58 + 2 * 2 ^ 54 + o.dest.toNat * 2 ^ 39 + o.colrec.toNat * 2 ^ 24 +
      o.f.val * 2 ^ 20 + o.fOut.val * 2 ^ 16))
  | .readraw c e o => some (c, BitVec.ofNat 64 (e.val * 2 ^ 58 + 3 * 2 ^ 54 + o.addr.toNat * 2 ^ 39))
  | .merge c e o => some (c, BitVec.ofNat 64 (e.val * 2 ^ 58 + 4 * 2 ^ 54 + o.addr.toNat * 2 ^ 39))
  | .fetch c f => some (c, BitVec.ofNat 64 (2 * 2 ^ 60 + bit1 f.toCache * 2 ^ 59 + f.credit.val * 2 ^ 54 + f.slot.val * 2 ^ 44 +
      f.units.val * 2 ^ 38 + f.object.toNat * 2 ^ 22 + f.tile.toNat))
  | .wait c t => some (c, BitVec.ofNat 64 (encodeToken 0 t))
  | .signal c t => some (c, BitVec.ofNat 64 (encodeToken 1 t))
  | .creditReturn c t => some (c, BitVec.ofNat 64 (encodeToken 2 t))
  | .send c o => some (c, BitVec.ofNat 64 (4 * 2 ^ 60 + o.ch.val * 2 ^ 53 + o.src.toNat * 2 ^ 38 + o.len.toNat * 2 ^ 28 +
      o.destOfs.toNat * 2 ^ 12 + o.amount.toNat * 2 ^ 4 + o.wire.val * 2 ^ 2))
  | .release c o => some (c, BitVec.ofNat 64 (4 * 2 ^ 60 + 1 * 2 ^ 58 + o.ch.val * 2 ^ 53 + o.amount.toNat * 2 ^ 4))
  | .read c o => some (c, BitVec.ofNat 64 (encodeCache 0 o))
  | .write c o => some (c, BitVec.ofNat 64 (encodeCache 1 o))
  | .add c o => some (c, BitVec.ofNat 64 (encodeCache 2 o))
  | .max c o => some (c, BitVec.ofNat 64 (encodeCache 3 o))
  | .fetchAdd c o => some (c, BitVec.ofNat 64 (encodeCache 4 o))
  | .nop c => some (c, BitVec.ofNat 64 (6 * 2 ^ 60))
  | .layer c q n => if q = 0 then some (c, BitVec.ofNat 64 (6 * 2 ^ 60 + 1 * 2 ^ 56 + n.toNat)) else none
  | .stepEnd c => some (c, BitVec.ofNat 64 (6 * 2 ^ 60 + 2 * 2 ^ 56))
  | i => (vectorOp i).map fun x => (x.2.1, BitVec.ofNat 64 (encodeVector x.1 x.2.2))

/-- The command that a word of `nbits` bits spells by the table's bits: no row of spec/opcode_table.json gives bits. -/
def decodeTableWord (_nbits _w : Nat) : Option Instr := none

end Sys2Proof
end

