-- ==== Sys2Proof/Machine/Sequencer.lean ====
section
/-! DEFINITION. The sequencer's commands (R44 to R53), the signals between cores (R49 to R52), the cluster-cache operations (R138, R139,
R217 to R219) and the precision guard's decisions and re-runs (R148 to R161). -/

namespace Sys2Proof

open Machine

/-- The core a class 0x3 instruction targets (R136). -/
def TokenOp.dst (c : CoreId) (t : TokenOp) : Nat := if t.self then c.val else t.target.val

/-- Byte address in the cluster cache. -/
def CacheOp.cca (o : CacheOp) : Nat := 64 * o.cc.toNat
/-- Byte address in the core buffer. -/
def CacheOp.cba (o : CacheOp) : Nat := 64 * o.cb.toNat
/-- The ranges of R121: within the 65,536 units of the data area and within the core buffer. -/
def CacheOp.ok (o : CacheOp) (units : Nat) : Bool :=
  decide (o.cc.toNat + units ≤ 65536) && decide (64 * (o.cb.toNat + units) ≤ bufBytes)

end Sys2Proof

namespace Sys2Proof.Machine

/-! ### Dispatch -/

/-- Room of a queue: 32 instructions, or 8 in a segment's slot set (R46, R153). -/
def queueRoom (x : CoreSt) (inSeg : Bool) (q : Nat) : Bool :=
  if inSeg then decide ((x.segQueue q).length < 8) else decide ((x.queue q).length < 32)

/-- An instruction put at the end of a queue. -/
def CoreSt.push (x : CoreSt) (inSeg : Bool) (q : Nat) (e : QEnt) : CoreSt :=
  if inSeg then { x with seg := x.seg.map fun g => { g with q := NMap.set [] g.q q (NMap.get [] g.q q ++ [e]) } }
  else { x with q := NMap.set [] x.q q (x.queue q ++ [e]) }

/-- The next index to dispatch advances past `i`, which PC then shows (R59). -/
def State.dispatched (s : State) (c : Nat) (inSeg : Bool) (i : Nat) : State :=
  (s.setFld (Fld.SEQ_PC_PC c) i).modCore c fun x =>
    if inSeg then { x with seg := x.seg.map fun g => { g with next := i + 1 } } else { x with next := i + 1 }

/-- LAYER in the eight queues of a core. -/
def CoreSt.pushLayer (x : CoreSt) (c : CoreId) (n : BitVec 16) (i : Nat) (pid : BitVec 16) : CoreSt :=
  (List.finRange 8).foldl (fun x q => x.push false q.val ⟨.layer c q n, i, pid⟩) x

/-- The burst of core `c`'s program or segment at unified address `a`: the one it holds, else read (R42, R43, log entry 73). -/
def State.codeLine (s : State) (c a : Nat) : Option (List Byte) × State :=
  match (s.core c).line.filter fun l => l.1 == a / 64 with
  | some l => (some l.2, s)
  | none =>
    let r := s.readProg (dieOf c) (some (s.partOf c)) a
    (r.1, match r.1 with | some bs => r.2.modCore c fun x => { x with line := some (a / 64, bs) } | none => r.2)

/-- The instruction or header word at unified address `a` (R44). -/
def State.codeWord (s : State) (c a : Nat) : Option (BitVec 64) × State :=
  let r := s.codeLine c a
  (r.1.map fun bs => BitVec.ofNat 64 (leNat ((bs.drop (a % 64)).take 8)), r.2)

/-- Dispatch of the program or segment that core `c` is dispatching: `base` its address, `i` the next index, `count` its length
(R44 to R47, R152, R153). A last instruction that is an unused encoding sets both bits, UNUSED_ENCODING first (log entry 67). -/
def State.dispatchFrom (s : State) (c : CoreId) (inSeg : Bool) (base i count : Nat) (pid : BitVec 16) : State :=
  let x := s.core c
  let p : Prog := ⟨i, pid, none⟩
  match s.codeWord c (base + 128 + 8 * i) with
  | (none, s) => s.fetchError c p
  | (some w, s) =>
    let wrong := fun (s : State) => (s.seqError c (Fld.SEQ_ERROR_PROGRAM_HEADER c) i pid).abandonStep false
    match decodeWord c w with
    | none => ((s.dispatched c inSeg i).unusedEnc c p).when (i + 1 == count) wrong
    | some (place, instr) =>
      if i + 1 = count ∧ place ≠ .stop then wrong (s.dispatched c inSeg i)
      else match place with
      | .none => (s.dispatched c inSeg i).modCore c fun x => { x with idleUs := 0 }
      | .stop =>
        let s := s.dispatched c inSeg i
        let s := s.modCore c fun x => if inSeg then { x with seg := x.seg.map fun g => { g with stopped := true } } else { x with dispatched := true }
        s.closeSlots (clusterOf c)
      | .every n =>
        if inSeg then (s.dispatched c inSeg i).modCore c fun x => { x with idleUs := 0 }
        else if (List.range 8).all fun q => queueRoom x false q then
          (s.dispatched c inSeg i).modCore c fun x => x.pushLayer c n i pid
        else s
      | .queue q =>
        if queueRoom x inSeg q.val then (s.dispatched c inSeg i).modCore c fun x => x.push inSeg q.val ⟨instr, i, pid⟩ else s

/-- A re-run segment is on the core and has not completed: its main program does not dispatch (R153). -/
def CoreSt.inSeg (x : CoreSt) : Bool := x.seg.any fun g => !g.ended

/-- DISPATCH: the next instruction of the segment, until its STEP_END has completed, else of the program; nothing while the step is not
running, the program's dispatch has ended, or the queue that is to receive it is full (R46, R153). -/
def execDispatch (c : CoreId) (s : State) : Host.Outcome State Fault Refusal :=
  let x := s.core c
  .next (State.actOnFault <| if s.tickState ≠ stRunning then s
    else match x.seg.filter fun g => !g.ended with
    | some g => if g.begun && !g.stopped then s.dispatchFrom c true g.base g.next g.count g.pid else s
    | none => if s.fld (Fld.SEQ_STATUS_RUNNING c) = 1 && !x.dispatched then s.dispatchFrom c false x.prog x.next x.count x.pid else s)

/-- NOP: it completes at dispatch and does nothing else (R47). -/
def execNop (c : CoreId) (s : State) : Host.Outcome State Fault Refusal :=
  .next (s.modCore c fun x => { x with idleUs := 0 })

/-- The outlier list of slot `n` at its place in the core buffer; empty for a layer of no slot (R158). Bytes beyond the buffer read 0: DESIGN CHOICE,
log entry 77. -/
def State.outlierList (s : State) (c n : Nat) : List (BitVec 16) :=
  if 512 ≤ n then []
  else
    let k := clusterOf c
    let a := 64 * slotFld 96 15 (s.slotEnt k n)
    (List.range (s.slotOutliers k n)).map fun i => BitVec.ofNat 16 ((s.core c).buf.rdLe (a + 2 * i) 2)

/-- LAYER in queue `q`: the layer in force, and in Q0 to Q3 the slot's outlier list (R47, R158). -/
def runLayer (c : CoreId) (q : QId) (n : BitVec 16) (p : Prog) (s : State) : RunOut :=
  if p.seg.isSome then (s, true)
  else
    let s := s.modCore c fun x =>
      let ls := NMap.get [] x.entered q.val
      { x with layer := NMap.set 0xFFFF#16 x.layer q.val n
               entered := NMap.set [] x.entered q.val (if ls.contains n.toNat then ls else ls ++ [n.toNat]) }
    (if q.val < 4 then s.modEng (4 * c.val + q.val) fun y => { y with outliers := s.outlierList c n.toNat } else s, true)

/-- LAYER at the head of a queue (R47). -/
def execLayer (c : CoreId) (q : QId) (n : BitVec 16) (s : State) : Host.Outcome State Fault Refusal :=
  .next (s.issue c q.val (.layer c q n) (runLayer c q n))

/-! ### STEP_END -/

/-- The expanders of the core have finished every tile they have started (R53, R185). -/
def State.expandersDone (s : State) (c : Nat) : Bool := (List.range 4).all fun e => (s.eng (4 * c + e)).sums.isEmpty

/-- What STEP_END waits for (R53): empty queues, idle expanders, and every signal of the core arrived. -/
def State.mayEnd (s : State) (c : Nat) : Bool :=
  (List.range 8).all (fun q => ((s.core c).queue q).isEmpty) && s.expandersDone c && s.flights.all fun f => f.src != some c

/-- The counters balance: every token counter 0, every credit counter at CREDIT_INIT (R53). -/
def State.balanced (s : State) (c : Nat) : Bool :=
  (List.range 64).all (fun n => s.fld (tokFld c n) == 0) &&
    (List.range 32).all fun n => s.fld (credFld c n) == (NMap.get 0#16 (s.core c).creditInit n).toNat

/-- SETUP and scale position of the four engines set aside for a segment, or restored after it. A decode in progress is not set aside, and no RUN
of the main program continues it any more (R153). -/
def State.asideEngines (s : State) (c : Nat) (restore : Bool) : State :=
  s.each (List.range 4) fun s e => s.modEng (4 * c + e) fun x =>
    if restore then match x.saved with
      | some (su, sp) => { x with setup := su, scalePos := sp, saved := none }
      | none => x
    else { x with saved := some (x.setup, x.scalePos), setup := none, scalePos := none, dec := x.dec.map fun d => { d with cont := false } }

/-- Every core of cluster `k` has completed STEP_END. -/
def State.clusterEnded (s : State) (k : Nat) : Bool := (List.range 8).all fun i => s.fld (Fld.SEQ_STATUS_ENDED (8 * k + i)) == 1

/-- STEP_END of a segment (R153): it requires only that the segment's own instructions have completed. -/
def State.endSegment (s : State) (c : Nat) (g : SegRun) : State :=
  if g.stopped && (List.range 8).all (fun q => (NMap.get [] g.q q).isEmpty) then
    let s := s.modCore c fun x => { x with idleUs := 0, seg := some { g with ended := true } }
    (s.asideEngines c true).setFld (Fld.SEQ_PC_PC c) g.mainPc
  else s

/-- STEP_END: of the segment in progress, else of the main program, once the conditions of R53 hold. A cluster whose eight cores have
ended has its clock gated where PWR.CTRL.STEP_GATE is 1 (R405). -/
def execStepEnd (c : CoreId) (s : State) : Host.Outcome State Fault Refusal :=
  let x := s.core c
  .next (match x.seg.filter fun g => !g.ended with
    | some g => s.endSegment c g
    | none =>
      if (s.tickState = stRunning ∧ !x.dispatched) ∨ !s.mayEnd c then s
      else
        let s := s.when (!s.balanced c) fun s => s.seqError c (Fld.SEQ_ERROR_UNBALANCED c) (s.fld (Fld.SEQ_PC_PC c)) x.pid
        let s := (s.setFld (Fld.SEQ_STATUS_RUNNING c) 0).raise (Fld.SEQ_STATUS_ENDED c)
        let s := s.modCore c fun x => { x with idleUs := 0 }
        let k := clusterOf c
        let s := s.when (s.clusterEnded k) fun s =>
          let s := s.raise (Fld.CLC_STATUS_STEP_ENDED k)
          s.when (s.fld Fld.PWR_STATUS_STATE == 0 && s.fld Fld.PWR_CTRL_STEP_GATE == 1) fun s => s.setFld (Fld.CLC_STATUS_CLOCK_ON k) 0
        s.closeSlots k)

/-! ### Tokens and credits -/

/-- WAIT (R49): holds its queue until Tn ≥ k, then subtracts k. -/
def runWait (c : CoreId) (t : TokenOp) (p : Prog) (s : State) : RunOut :=
  if t.amount = 0#8 then (s.unusedEnc c p, true)
  else match s.draw c t.queue.val (tokFld c t.counter) t.amount.toNat with
    | some s' => (s', true)
    | none => (s, false)

/-- WAIT at the head of its queue. -/
def execWait (c : CoreId) (t : TokenOp) (s : State) : Host.Outcome State Fault Refusal :=
  .next (s.issue c t.queue.val (.wait c t) (runWait c t))

/-- SIGNAL (R49, R52): the amount sets out to the target's Tn. -/
def runSignal (c : CoreId) (t : TokenOp) (p : Prog) (s : State) : RunOut :=
  if t.amount = 0#8 then (s.unusedEnc c p, true)
  else (s.sendSig c (TokenOp.dst c t) .token t.counter t.amount.toNat, true)

/-- SIGNAL at the head of its queue. -/
def execSignal (c : CoreId) (t : TokenOp) (s : State) : Host.Outcome State Fault Refusal :=
  .next (s.issue c t.queue.val (.signal c t) (runSignal c t))

/-- CREDIT_RETURN (R49, R136): counters 32 to 63 are unused encodings. -/
def runCreditReturn (c : CoreId) (t : TokenOp) (p : Prog) (s : State) : RunOut :=
  if t.amount = 0#8 ∨ 32 ≤ t.counter.val then (s.unusedEnc c p, true)
  else (s.sendSig c (TokenOp.dst c t) .credit t.counter t.amount.toNat, true)

/-- CREDIT_RETURN at the head of its queue. -/
def execCreditReturn (c : CoreId) (t : TokenOp) (s : State) : Host.Outcome State Fault Refusal :=
  .next (s.issue c t.queue.val (.creditReturn c t) (runCreditReturn c t))

/-- A signal reaches core `f.dst`: after its STEP_END has completed it is discarded with LATE_SIGNAL (R53), else it adds (R49 to R51). On a
core that runs a re-run segment, which may use the counters (R153), it still adds until the segment's STEP_END has completed (log entry
68). -/
def State.arrive (s : State) (f : Flight) : State :=
  if s.fld (Fld.SEQ_STATUS_ENDED f.dst) = 1 && (match (s.core f.dst).seg with | some g => g.ended | none => true) then
    s.seqError f.dst (Fld.SEQ_ERROR_LATE_SIGNAL f.dst) (s.fld (Fld.SEQ_PC_PC f.dst)) (s.core f.dst).pid
  else s.addSig f.dst f.kind f.ctr f.amt

/-- SIGNAL_ARRIVAL: the `i`-th signal on its way reaches its target; nothing where there is none (R52). -/
def execSignalArrival (i : Nat) (s : State) : Host.Outcome State Fault Refusal :=
  .next (match s.flights[i]? with
    | some f => { s with flights := s.flights.eraseIdx i }.arrive f
    | none => s)

/-! ### Cluster-cache operations -/

/-- A parity or poison event of a cluster cache is recorded and counted (R219, R444): `op` is the operation's OP. -/
def State.ccParity (s : State) (k unit op : Nat) : State := (s.count (Ct.CLC_CC_PARITY k) 1).jasper .ccParity k unit op

/-- `n` unit operations served by cluster `k`'s banks for core `c` (R217, R444), with the traffic between dies (R18). -/
def State.ccServed (s : State) (c : CoreId) (k n : Nat) : State :=
  (s.count (Ct.CLC_CC_OPS k) n).crossBridges (dieOf c) (k / 16) (ceilDiv (64 * n) 4096)

/-- Bad units of the cache in a range, by their distance from its start. -/
def ClusterSt.badIn (x : ClusterSt) (unit n : Nat) : List Nat := (List.range n).filter fun i => x.cacheBad.contains (unit + i)

/-- READ (R138, R219): units with bad parity or poison deliver their data with bad parity. -/
def runRead (c : CoreId) (o : CacheOp) (p : Prog) (s : State) : RunOut :=
  if !o.ok o.units then (s.vecCmdErr c p, true)
  else
    let k := o.cluster.val
    let x := s.cluster k
    let bad := x.badIn o.cc.toNat o.units
    let s := s.modCore c fun y =>
      let y := y.put o.cba (x.cache.rdBlk o.cca (64 * o.units))
      { y with bufBad := y.bufBad ++ bad.map (· + o.cb.toNat) }
    let s := s.each bad fun s i => s.ccParity k (o.cc.toNat + i) 0
    (s.ccServed c k o.units, true)

/-- READ at the head of Q7. -/
def execRead (c : CoreId) (o : CacheOp) (s : State) : Host.Outcome State Fault Refusal :=
  .next (s.issue c 7 (.read c o) (runRead c o))

/-- WRITE (R138): it draws its credits, writes whole units and so clears their poison (R219), of which nothing is recorded: DESIGN CHOICE,
log entry 81. -/
def runWrite (c : CoreId) (o : CacheOp) (p : Prog) (s : State) : RunOut :=
  if !o.ok o.units then (s.vecCmdErr c p, true)
  else match s.draw c 7 (credFld c o.credit) o.credits with
    | none => (s, false)
    | some s =>
      let k := o.cluster.val
      let s := s.consume c [(o.cba, 64 * o.units)]
      let src := (s.core c).buf.rdBlk o.cba (64 * o.units)
      let s := s.modCluster k fun x =>
        { x with cache := x.cache.wrBlk o.cca src
                 cacheBad := x.cacheBad.filter fun u => !(decide (o.cc.toNat ≤ u) && decide (u < o.cc.toNat + o.units)) }
      (s.ccServed c k o.units, true)

/-- WRITE at the head of Q7. -/
def execWrite (c : CoreId) (o : CacheOp) (s : State) : Host.Outcome State Fault Refusal :=
  .next (s.issueAct c 7 (.write c o) (runWrite c o))

/-- One unit of a cluster cache combined, word by word, with a unit of a core buffer. -/
def combineUnit (op : BitVec 32 → BitVec 32 → BitVec 32) (cache buf : Mem) (cca cba : Nat) : List Byte :=
  (List.range 16).flatMap fun i =>
    leBytes 4 (op (BitVec.ofNat 32 (cache.rdLe (cca + 4 * i) 4)) (BitVec.ofNat 32 (buf.rdLe (cba + 4 * i) 4))).toNat

/-- ADD and MAX (R138, R139, R219): every word of a good unit is combined; a unit with bad parity stays poisoned and unchanged. -/
def runCombine (code : Nat) (op : BitVec 32 → BitVec 32 → BitVec 32) (c : CoreId) (o : CacheOp) (p : Prog) (s : State) : RunOut :=
  if !o.ok o.units then (s.vecCmdErr c p, true)
  else match s.draw c 7 (credFld c o.credit) o.credits with
    | none => (s, false)
    | some s =>
      let k := o.cluster.val
      let s := s.consume c [(o.cba, 64 * o.units)]
      let buf := (s.core c).buf
      let bad := (s.cluster k).badIn o.cc.toNat o.units
      let s := s.modCluster k fun x =>
        { x with cache := (List.range o.units).foldl (fun m i =>
            if bad.contains i then m
            else m.wrBlk (o.cca + 64 * i) (combineUnit op m buf (o.cca + 64 * i) (o.cba + 64 * i))) x.cache }
      let s := s.each bad fun s i => s.ccParity k (o.cc.toNat + i) code
      (s.ccServed c k o.units, true)

/-- Signed maximum of two words (R138). -/
def maxWord (a b : BitVec 32) : BitVec 32 := if a.toInt < b.toInt then b else a

/-- ADD at the head of Q7: words summed modulo 2^32 (R138). -/
def execAdd (c : CoreId) (o : CacheOp) (s : State) : Host.Outcome State Fault Refusal :=
  .next (s.issueAct c 7 (.add c o) (runCombine 2 (· + ·) c o))

/-- MAX at the head of Q7: the larger word, signed (R138). -/
def execMax (c : CoreId) (o : CacheOp) (s : State) : Host.Outcome State Fault Refusal :=
  .next (s.issueAct c 7 (.max c o) (runCombine 3 maxWord c o))

/-- FETCH_ADD (R138, R219): the old cluster-cache word returns to the core-buffer word; a bad unit returns it with bad parity and is
not updated. -/
def runFetchAdd (c : CoreId) (o : CacheOp) (p : Prog) (s : State) : RunOut :=
  if !o.ok 1 then (s.vecCmdErr c p, true)
  else
    let k := o.cluster.val
    let ca := o.cca + 4 * o.word.val
    let ba := o.cba + 4 * o.word.val
    let s := s.consume c [(ba, 4)]
    let old := (s.cluster k).cache.rdLe ca 4
    let inc := (s.core c).buf.rdLe ba 4
    let bad := (s.cluster k).cacheBad.contains o.cc.toNat
    let s := s.when (!bad) fun s => s.modCluster k fun x => { x with cache := x.cache.wrLe ca 4 ((old + inc) % 2 ^ 32) }
    let s := s.modCore c fun y =>
      let y := y.put ba (leBytes 4 old)
      if bad && !y.bufBad.contains o.cb.toNat then { y with bufBad := y.bufBad ++ [o.cb.toNat] } else y
    let s := s.when bad fun s => s.ccParity k o.cc.toNat 4
    (s.ccServed c k 1, true)

/-- FETCH_ADD at the head of Q7. -/
def execFetchAdd (c : CoreId) (o : CacheOp) (s : State) : Host.Outcome State Fault Refusal :=
  .next (s.issueAct c 7 (.fetchAdd c o) (runFetchAdd c o))

/-! ### The precision guard -/

/-- The verdict of slot L (R150): where VERDICT_EN is 1, 1 sets out to VERDICT_TOKEN of every core in CORE_MASK. -/
def State.verdict (s : State) (k l : Nat) : State :=
  let e := s.slotEnt k l
  if bvBit 2 e then
    { s with flights := s.flights ++ (slotCores e).map fun i => ⟨none, 8 * k + i, .token, slotFld 16 6 e, 1, 8⟩ }
  else s

/-- The saturations that count against RERUN_THRESHOLD (R149, R155). -/
def countedSats (e : BitVec 512) (x : SlotCnt) : Nat :=
  ((List.range 4).map fun u => if bvBit (80 + u) e then NMap.get 0 x.mainSats u else 0).sum

/-- A slot's fields of the step changed. -/
def State.modSlot (s : State) (k l : Nat) (f : SlotCnt → SlotCnt) : State :=
  s.modCluster k fun x => { x with cur := NMap.set {} x.cur l (f (NMap.get {} x.cur l)) }

/-- A guarded slot's window totals changed. -/
def State.modWin (s : State) (k l : Nat) (f : SlotWin → SlotWin) : State :=
  s.when (slotGuarded (s.slotEnt k l)) fun s =>
    s.modCluster k fun x => { x with wins := NMap.set {} x.wins l (f (NMap.get {} x.wins l)) }

/-- The decision on a closed slot (R149). -/
def State.decideSlot (s : State) (k l : Nat) : State :=
  let e := s.slotEnt k l
  let x := NMap.get {} (s.cluster k).cur l
  let cost := slotFld 48 16 e
  let left := s.fld (Fld.GUARD_MARGIN_LEFT_LEFT_US k)
  let queueRerun := fun (s : State) => s.modCluster k fun y => { y with rerunQ := y.rerunQ ++ [l] }
  if s.inForce (Fld.GUARD_CTRL_ENABLE k) = 0 ∨ !s.slotRerunEn k l ∨ countedSats e x < slotFld 32 16 e then s.verdict k l
  else if cost ≤ left then queueRerun (s.setFld (Fld.GUARD_MARGIN_LEFT_LEFT_US k) (left - cost))
  else if bvBit 3 e then queueRerun (s.setFld (Fld.GUARD_MARGIN_LEFT_LEFT_US k) 0)
  else
    let s := s.markSuspect k l x.rows
    let s := s.count (Ct.GUARD_EXHAUST_COUNT k) 1
    let s := s.modSlot k l fun y => { y with skipped := true }
    let s := s.modWin k l fun y => { y with skipped := bump48 y.skipped 1 }
    (s.jasper .rerunSkipped k l x.rows.toNat).verdict k l

/-- GUARD_DECISION: the histogram unit decides on a slot that has closed; nothing where the slot awaits no decision (R149). -/
def execGuardDecision (k : ClusterId) (l : Fin 512) (s : State) : Host.Outcome State Fault Refusal :=
  .next (if s.tickState = stRunning && (s.cluster k).closing.contains l.val then
      (s.modCluster k fun x => { x with closing := x.closing.erase l.val }).decideSlot k l
    else s)

/-- The segment of core `i` of a cluster (R152). -/
def segBase (e : BitVec 512) (i : Nat) : Nat := slotFld 140 20 e * 4096 + slotFld 160 15 e * 2 ^ 32 + i * slotFld 175 8 e * 4096

/-- RERUN_START: the first waiting re-run of the cluster starts, where none is in progress (R153, R154). -/
def execRerunStart (k : ClusterId) (s : State) : Host.Outcome State Fault Refusal :=
  .next (match (s.cluster k).rerunQ with
    | [] => s
    | l :: rest =>
      if s.fld (Fld.GUARD_STATUS_RERUN_ACTIVE k) = 1 ∨ s.tickState ≠ stRunning then s
      else
        let e := s.slotEnt k l
        let s := s.modCluster k fun x => { x with rerunQ := rest }
        let s := (s.raise (Fld.GUARD_STATUS_RERUN_ACTIVE k)).setFld (Fld.GUARD_STATUS_ACTIVE_SLOT k) l
        let s := s.count (Ct.GUARD_RERUN_COUNT k) 1
        let s := s.jasper .rerun k l (countedSats e (NMap.get {} (s.cluster k).cur l))
        let s := s.modSlot k l fun y => { y with rerun := true }
        let s := s.modWin k l fun y => { y with reruns := bump48 y.reruns 1 }
        s.each (slotCores e) fun s i => s.modCore (8 * k.val + i) fun x =>
          { x with seg := some ⟨l, segBase e i, 0, 0, 0#16, false, false, false, [], s.fld (Fld.SEQ_PC_PC (8 * k.val + i))⟩ })

/-- RERUN_SEGMENT_START: 16 core cycles after the start, the core's sequencer begins the segment (R152, R153). -/
def execRerunSegmentStart (c : CoreId) (s : State) : Host.Outcome State Fault Refusal :=
  .next (State.actOnFault <| match (s.core c).seg with
    | none => s
    | some g =>
      if g.begun then s
      else match s.codeWord c g.base with
      | (none, s) => s.fetchError c ⟨0, 0#16, some g.slot⟩
      | (some h, s) =>
        let count := bvGet 0 32 h
        let pid := BitVec.ofNat 16 (bvGet 32 16 h)
        if count = 0 ∨ count > 1048576 then
          (s.seqError c (Fld.SEQ_ERROR_PROGRAM_HEADER c) 0 pid).abandonStep false
        else if !s.pinnedRange g.base (128 + 8 * count) then s.fetchError c ⟨0, pid, some g.slot⟩
        else (s.asideEngines c false).modCore c fun x => { x with seg := some { g with begun := true, count := count, pid := pid } })

/-- RERUN_COMPLETE: every segment of the re-run in progress has completed; the verdict is signalled and the main programs resume (R150,
R153, R154). -/
def execRerunComplete (k : ClusterId) (s : State) : Host.Outcome State Fault Refusal :=
  let l := s.fld (Fld.GUARD_STATUS_ACTIVE_SLOT k)
  let cs := slotCores (s.slotEnt k l)
  let done := cs.all fun i => match (s.core (8 * k.val + i)).seg with | some g => g.ended | none => false
  .next (if s.fld (Fld.GUARD_STATUS_RERUN_ACTIVE k) = 1 && done then
      let s := s.setFld (Fld.GUARD_STATUS_RERUN_ACTIVE k) 0
      let s := s.each cs fun s i => s.modCore (8 * k.val + i) fun x => { x with seg := none }
      s.verdict k l
    else s)

/-- Reasons of a window's report (R160), bits 0 to 4. -/
def reportReasons (e : BitVec 512) (w : SlotWin) : Nat :=
  bit1 (slotFld 224 16 e != 0 && decide (slotFld 224 16 e ≤ w.reruns)) +
  2 * bit1 (slotFld 192 16 e != 0 && decide (65536 * w.tail > slotFld 192 16 e * w.values)) +
  4 * bit1 (slotFld 208 4 e != 0 && w.values != 0 && decide (w.topBin < slotFld 208 4 e)) +
  8 * bit1 (w.satRd != 0) + 16 * bit1 (w.skipped != 0)

/-- The 32-byte record of a report (R161); each count stops at 0xFFFF_FFFF. -/
def reportBytes (k l reasons tick steps : Nat) (w : SlotWin) : List Byte :=
  let c32 := fun n => leBytes 4 (min n 0xFFFFFFFF)
  leBytes 4 tick ++ leBytes 4 (l + 2 ^ 16 * k + 2 ^ 22 * reasons) ++ leBytes 4 (steps % 2 ^ 16 + 2 ^ 16 * w.topBin) ++
    c32 w.reruns ++ c32 w.values ++ c32 w.tail ++ c32 w.satRd ++ c32 w.satOth

/-- The report of one slot for the window, where a reason holds (R160, R161). -/
def State.reportSlot (s : State) (k l steps : Nat) : State :=
  let e := s.slotEnt k l
  let w := NMap.get {} (s.cluster k).wins l
  let r := reportReasons e w
  if !slotGuarded e ∨ r = 0 then s
  else
    let s := s.count (Ct.GUARD_REPORT_COUNT k) 1
    let s := s.jasper .guardReport k l r
    s.postEvent (slotFld 22 4 e) 0x01 0xFFFF 0xFFFF 0 (reportBytes k l r (s.rd Rg.GARNET_TICK).toNat steps w)

/-- GUARD_WINDOW_END: once WINDOW.TICKS steps have passed with the guard enabled, each guarded slot reports and the totals are cleared
(R160, R161). -/
def execGuardWindowEnd (k : ClusterId) (s : State) : Host.Outcome State Fault Refusal :=
  let n := (s.cluster k).winSteps
  .next (if s.inForce (Fld.GUARD_CTRL_ENABLE k) = 1 && decide (s.inForce (Fld.GUARD_WINDOW_TICKS k) ≤ n) then
      (s.each (List.range 512) fun s l => s.reportSlot k l n).modCluster k fun x => { x with wins := [], winSteps := 0 }
    else s)

end Sys2Proof.Machine
end

