-- ==== Sys2Proof/Machine/Links.lean ====
section
/-! DEFINITION. The commands of the links (chapter 11): SEND and RELEASE (R137, R297, R298), delivery (R303 to R306), forwarding (R302), flits
and replay (R289 to R293), lanes and ports (R295, R296), relinking (R320) and injection (R309). -/

namespace Sys2Proof.Machine

/-! ### Sending -/

/-- 16-bit signed values of bytes. -/
def a16s (bs : List Byte) : List Int := (List.range (bs.length / 2)).map fun i => sx 16 (leNat ((bs.drop (2 * i)).take 2))
/-- 32-bit signed values of bytes. -/
def i32s (bs : List Byte) : List Int := (List.range (bs.length / 4)).map fun i => sx 32 (leNat ((bs.drop (4 * i)).take 4))

/-- What the link carries of source bytes under WIRE (R298): raw, or L8 blocks of 32 values. -/
def wireEncode (wire : Nat) (bs : List Byte) : List Byte :=
  if wire = 1 then (List.range (bs.length / 64)).flatMap fun i => l8Encode (a16s ((bs.drop (64 * i)).take 64))
  else if wire = 2 then (List.range (bs.length / 128)).flatMap fun i => l8Encode (i32s ((bs.drop (128 * i)).take 128))
  else bs

/-- The header of a message that core `c` sends on channel `ch` (R297). -/
def State.chanHdr (s : State) (c ch addr unitsM1 token amount wire : Nat) : TensorHdr :=
  { destMember := finMod 512 (s.inForce (Fld.VEC_LINK_CH_A_PEER_MEMBER c ch)) (by decide),
    destCore := finMod 512 (s.inForce (Fld.VEC_LINK_CH_A_PEER_CORE c ch)) (by decide),
    toCache := s.inForce (Fld.VEC_LINK_CH_B_PEER_DEST c ch) == 1,
    destAddr := BitVec.ofNat 17 addr, unitsM1 := BitVec.ofNat 10 unitsM1, token := finMod 64 token (by decide),
    amount := BitVec.ofNat 8 amount, part := finMod 16 (s.partOf c) (by decide), tick := s.tickNo,
    srcMember := finMod 512 s.me (by decide), srcCore := finMod 512 c (by decide), wire := finMod 4 wire (by decide),
    groupId := BitVec.ofNat 16 (s.fld Fld.GARNET_GROUP_GROUP_ID), hops := 0#8 }

/-- `n` bytes cross the bond and the I/O die path between compute die `d` and the links (R19, R286, R444). -/
def State.linkUnits (s : State) (d n : Nat) (out : Bool) : State :=
  let u := ceilDiv n 4096
  (s.count (Ct.CDC_BOND_UNITS d) u).count (if out then Ct.MDC_IOD_OUT_UNITS d else Ct.MDC_IOD_IN_UNITS d) u

/-- SEND (R137): unused encodings and command errors first; then it draws its credits and its data leaves as one tensor message. -/
def runSend (c : CoreId) (o : SendOp) (p : Prog) (s : State) : RunOut :=
  let u := o.len.toNat + 1
  if o.amount = 0#8 ∨ o.wire.val = 3 then (s.unusedEnc c p, true)
  else if s.inForce (Fld.VEC_LINK_CH_A_VALID c o.ch) = 0 ∨ (o.wire.val = 2 ∧ u % 2 = 1) ∨ 64 * (o.src.toNat + u) > bufBytes then (s.vecCmdErr c p, true)
  else match s.draw c 6 (credFld c (s.inForce (Fld.VEC_LINK_CH_A_LOCAL_CREDIT c o.ch))) (ceilDiv u 64) with
    | none => (s, false)
    | some s =>
      let s := s.consume c [(64 * o.src.toNat, 64 * u)]
      let data := wireEncode o.wire ((s.core c).buf.rdBlk (64 * o.src.toNat) (64 * u))
      let s := s.linkUnits (dieOf c) (64 * u) true
      let h := s.chanHdr c o.ch (s.inForce (Fld.VEC_LINK_CH_B_PEER_BASE c o.ch) + o.destOfs.toNat) o.len.toNat
        (s.inForce (Fld.VEC_LINK_CH_A_PEER_TOKEN c o.ch)) o.amount.toNat o.wire
      (s.sendTensor ⟨h, data⟩, true)

/-- SEND at the head of Q6. -/
def execSend (c : CoreId) (o : SendOp) (s : State) : Host.Outcome State Fault Refusal := .next (s.issueAct c 6 (.send c o) (runSend c o))

/-- RELEASE (R137, R297): a message without data, whose TOKEN names the peer's credit counter. -/
def runRelease (c : CoreId) (o : ReleaseOp) (p : Prog) (s : State) : RunOut :=
  if o.amount = 0#8 then (s.unusedEnc c p, true)
  else if s.inForce (Fld.VEC_LINK_CH_A_VALID c o.ch) = 0 then (s.vecCmdErr c p, true)
  else
    let h := s.chanHdr c o.ch (s.inForce (Fld.VEC_LINK_CH_B_PEER_BASE c o.ch)) 0 (s.inForce (Fld.VEC_LINK_CH_B_PEER_CREDIT c o.ch)) o.amount.toNat 3
    (s.sendTensor ⟨h, []⟩, true)

/-- RELEASE at the head of Q6. -/
def execRelease (c : CoreId) (o : ReleaseOp) (s : State) : Host.Outcome State Fault Refusal :=
  .next (s.issue c 6 (.release c o) (runRelease c o))

/-! ### Delivery -/

/-- `f` at the port a message came on; nothing for one of the device's own. -/
def State.atPort (s : State) (port : Option PortId) (f : State → Nat → State) : State :=
  match port with
  | some p => f s p.val
  | none => s

/-- L8 blocks decoded into bytes of the source type (R305): clamps and unused exponents are counted at the port. -/
def State.wireDecode (s : State) (port : Option PortId) (wire : Nat) (bs : List Byte) : List Byte × State :=
  if wire = 0 then (bs, s)
  else
    let w := if wire = 1 then 16 else 32
    (List.range (bs.length / 33)).foldl (fun (acc : List Byte × State) i =>
      let r := l8Decode ((bs.drop (33 * i)).take 33)
      let s := if r.2 then acc.2.atPort port fun s p => (s.count (Ct.LNK_L8_FORMAT_ERRORS p) 1).raise (Fld.LNK_STATUS_L8_FORMAT p) else acc.2
      let n := (r.1.filter fun x => outW w x).length
      let s := if n = 0 then s else s.atPort port fun s p => s.count (Ct.LNK_L8_CLAMPS p) n
      (acc.1 ++ r.1.flatMap fun x => leBytes (w / 8) (toCode w (satW w x)), s)) ([], s)

/-- A tensor message is discarded: counted at its port and recorded with its source and the failing check (R302, R303). -/
def State.discardMsg (s : State) (port : Option PortId) (h : TensorHdr) (check : Nat) : State :=
  let s := s.atPort port fun s p => s.count (Ct.LNK_MSG_DISCARDED p) 1
  s.jasper .msgDiscarded ((port.map Fin.val).getD 0) (h.srcMember + 2 ^ 16 * h.srcCore.val) check

/-- Bytes in the hold area (R304). -/
def State.holdUsed (s : State) : Nat := (s.link.hold.map fun m => m.msg.data.length).sum

/-- HOLD_USED shows the same value in every port block (R310). -/
def State.refreshHold (s : State) : State :=
  let n := s.holdUsed
  s.each (List.range 16) fun s p => s.setFld (Fld.LNK_HOLD_USED_BYTES p) n

/-- The hold area: 8 MiB (R304). -/
def holdBytes : Nat := 8388608

/-- A message for tick n + 1 enters the hold area, or waits in the VC 2 buffer of its port (R304). -/
def State.holdMsg (s : State) (port : Option PortId) (m : TensorMsg) : State :=
  if s.holdUsed + m.data.length ≤ holdBytes then
    let s := { s with link := { s.link with hold := s.link.hold ++ [({ port, msg := m } : HeldMsg)] } }.refreshHold
    s.atPort port fun s p => (s.count (Ct.LNK_MSG_HELD p) 1).freeFlits p 2 (flitsFor m.bytes.length)
  else match port with
    | some p => (s.modPort p fun x => { x with blocked := x.blocked ++ [({ port, msg := m } : HeldMsg)] }).raise (Fld.LNK_STATUS_HOLD_FULL p)
    | none => { s with link := { s.link with loop := s.link.loop ++ [m] } }

/-- A message that passed every check is written, and its amount added (R303, R305, R306, R218). -/
def State.landMsg (s : State) (port : Option PortId) (m : TensorMsg) : State :=
  let h := m.hdr
  let c := h.destCore.val
  let (data, s) := s.wireDecode port h.wire m.data
  let s := s.linkUnits (dieOf c) data.length false
  let a := 64 * h.destAddr.toNat
  let s := if data = [] then s
    else if h.toCache then
      let s := s.modCluster (clusterOf c) fun x =>
        { x with cache := x.cache.wrBlk a data, cacheBad := x.cacheBad.filter fun u => !coversUnit a data.length u }
      s.count (Ct.CLC_CC_OPS (clusterOf c)) (ceilDiv data.length 64)
    else s.modCore c fun x => x.put a data
  s.arrive ⟨none, c, if h.wire.val = 3 then .credit else .token, h.token, h.amount.toNat, 0⟩

/-- The checks of R303 in order, and what follows from the first that fails. -/
def State.checkMsg (s : State) (port : Option PortId) (m : TensorMsg) : State :=
  let h := m.hdr
  let d := (h.tick - s.tickNo).toNat
  let free := fun (s : State) => s.atPort port fun s p => s.freeFlits p 2 (flitsFor m.bytes.length)
  if s.tickState = stDisabled then free (s.discardMsg port h 1)
  else if h.groupId.toNat ≠ s.fld Fld.GARNET_GROUP_GROUP_ID then free (s.discardMsg port h 2)
  else if d = 1 then s.holdMsg port m
  else if d ≠ 0 then
    if d < 2 ^ 31 then free ((s.discardMsg port h 3).raise Fld.GARNET_EVENTS_FUTURE_TOKEN)
    else
      let s := s.atPort port fun s p => s.count (Ct.LNK_MSG_DISCARDED p) 1
      free (s.jasper .tensorStale h.srcMember h.srcCore h.tick.toNat)
  else if h.part.val ≠ s.partOf h.destCore then free (s.discardMsg port h 4)
  else if (h.wire.val == 3) != (m.data == []) then free (s.discardMsg port h 5)
  else if (if h.toCache then 65536 else 32768) ≤ h.destAddr.toNat + h.unitsM1.toNat then free (s.discardMsg port h 6)
  else free (s.landMsg port m)

/-- A message leaves the list of those that have arrived on its port. -/
def State.takeArrived (s : State) (p vc : Nat) (is : List Byte → Bool) : State :=
  match (s.port p).arrived.find? fun m => m.1 == vc && is m.2 with
  | some m => s.modPort p fun x => { x with arrived := x.arrived.erase m }
  | none => s

/-- TENSOR_MESSAGE: a message whose destination is this device is checked (R303). Behind a message that waits for the hold area it waits
too (R304). -/
def execTensorMessage (p : Option PortId) (m : TensorMsg) (s : State) : Host.Outcome State Fault Refusal :=
  .next (if m.hdr.destMember.val ≠ s.me then s
    else match p with
    | none => { s with link := { s.link with loop := s.link.loop.erase m } }.checkMsg none m
    | some q =>
      if (s.port q).blocked ≠ [] then s
      else (s.takeArrived q 2 fun bs => TensorMsg.ofBytes bs == m).checkMsg (some q) m)

/-- HOLD_AREA_MOVE: the first message that waits on a port moves into the hold area once it fits (R304). -/
def execHoldAreaMove (p : PortId) (s : State) : Host.Outcome State Fault Refusal :=
  .next (match (s.port p).blocked with
    | [] => s
    | m :: rest =>
      if s.holdUsed + m.msg.data.length ≤ holdBytes then
        let s := s.modPort p fun x => { x with blocked := rest }
        let s := s.when (rest == []) fun s => s.setFld (Fld.LNK_STATUS_HOLD_FULL p) 0
        s.holdMsg m.port m.msg
      else s)

/-- At the start of a tick every held message is delivered, then those that waited in the ports (R40, R304, R306). -/
def State.deliverHeld (s : State) : State :=
  let held := s.link.hold
  let s := { s with link := { s.link with hold := [] } }.refreshHold
  let s := s.each held fun s m =>
    let s := s.checkMsg m.port m.msg
    -- its flits were freed when it entered the hold area
    s.atPort m.port fun s p => s.modPort p fun x => { x with freed := NMap.set 0 x.freed 2 (NMap.get 0 x.freed 2 - flitsFor m.msg.bytes.length) }
  s.each (List.range 16) fun s p =>
    let ms := (s.port p).blocked
    if ms = [] then s
    else
      let s := (s.modPort p fun x => { x with blocked := [] }).setFld (Fld.LNK_STATUS_HOLD_FULL p) 0
      s.each ms fun s m => s.checkMsg m.port m.msg

/-- MESSAGE_FORWARD: a message for another member leaves toward it, never back over the bundle it came on, a tensor message with one more hop; beyond 32 hops, or with no way, it is
discarded (R302, R316). -/
def execMessageForward (p : PortId) (m : LinkMsg) (s : State) : Host.Outcome State Fault Refusal :=
  .next (match m with
    | .tensor t =>
      -- behind a message that waits for the hold area it waits too (R304)
      if t.hdr.destMember.val = s.me ∨ (s.port p).blocked ≠ [] then s
      else
        let s := (s.takeArrived p 2 fun bs => TensorMsg.ofBytes bs == t).freeFlits p 2 (flitsFor t.bytes.length)
        if 32 < t.hdr.hops.toNat + 1 then s.discardMsg (some p) t.hdr 0
        else match s.routeOn t.hdr.destMember (some (bundleOf p)) with
          | some b => s.putBundle b (mkTx 2 { t with hdr := { t.hdr with hops := t.hdr.hops + 1#8 } }.bytes)
          | none => (s.count (Ct.LNK_MSG_DISCARDED p) 1).jasper .routeNone t.hdr.destMember 0 0
    | .mgmt t =>
      if t.twin || t.dest.val == s.me then s
      else
        let s := (s.takeArrived p 1 fun bs => MgmtMsg.ofBytes bs == t).freeFlits p 1 (flitsFor t.bytes.length)
        match s.routeOn t.dest (some (bundleOf p)) with
          | some b => s.putBundle b (mkTx 1 t.bytes)
          | none => (s.count (Ct.LNK_MSG_DISCARDED p) 1).jasper .routeNone t.dest 0 0)

/-! ### Flits -/

/-- A flit arrives, and the tokens it carries are handled (R33, R289 to R293, R299). With nothing to send the port answers with an IDLE
flit that carries its acknowledgement and credits (R293). -/
def State.receive (s : State) (p : PortId) (f : FlitIn) : State :=
  let n := s.outs.length
  let r := s.rxFlit p f
  let s := (r.1.each r.2 fun s t => s.rxToken p t).sendTicks
  s.when (s.outs.length == n && s.pState p == pUp) fun s => s.emitPlain p 0 []

/-- SEQUENCED_FLIT (R291); a message wakes the device (R409). -/
def execSequencedFlit (p : PortId) (f : FlitIn) (s : State) : Host.Outcome State Fault Refusal := .next (s.receive p f).beginWake

/-- IDLE: its acknowledgement and credits are taken (R293). -/
def execIdle (p : PortId) (f : FlitIn) (s : State) : Host.Outcome State Fault Refusal :=
  let r := s.rxFlit p f
  .next (r.1.each r.2 fun s t => s.rxToken p t).sendTicks

/-- NAK: the sender replays from the sequence it names (R292). -/
def execNak (p : PortId) (f : FlitIn) (s : State) : Host.Outcome State Fault Refusal := .next (s.receive p f)

/-- NAK_RETRY_TIMEOUT: 2 µs after a NAK without the expected flit a further NAK goes out (R291). -/
def execNakRetryTimeout (p : PortId) (s : State) : Host.Outcome State Fault Refusal :=
  .next (match (s.port p).nakAt with
    | some t => if s.pState p = pUp then (s.clockTo (t + 2)).sendNak p else s
    | none => s)

/-- REPLAY_TIMEOUT: 4 µs without ACK progress while flits are held make the port replay from the oldest (R292). -/
def execReplayTimeout (p : PortId) (s : State) : Host.Outcome State Fault Refusal :=
  .next (match (s.port p).unacked with
    | f :: _ => if s.pState p = pUp then (s.clockTo ((s.port p).progressAt + 4)).replay p f.seq else s
    | [] => s)

/-! ### Lanes and ports -/

/-- A port after lanes were dropped (R295): down with fewer than 2, else DEGRADING, its good lanes told to the peer, and still to be agreed. -/
def State.degrade (s : State) (p : Nat) : State :=
  let ok := BitVec.ofNat 4 (s.fld (Fld.LNK_LANES_LANE_OK p))
  if (bitsSet ok).length < 2 then s.portDown p 0
  else (((s.setFld (Fld.LNK_STATUS_STATE p) pDegrading).modPort p fun x => { x with agreed := none }).emitLanes p).refreshOpen

/-- LANE_FAIL: a lane in service fails (R295). -/
def execLaneFail (p : PortId) (lane : Fin 4) (s : State) : Host.Outcome State Fault Refusal :=
  .next (if (s.pState p = pUp ∨ s.pState p = pDegrading) ∧ (s.fld (Fld.LNK_LANES_LANE_OK p)).testBit lane then
      (s.dropLanes p [lane.val]).degrade p
    else s)

/-- LINK_CTRL: the peer's good lanes agree on those of both directions (R295), or its handback record decides what a port sends again
(R296). -/
def execLinkCtrl (p : PortId) (r : LinkCtrl) (s : State) : Host.Outcome State Fault Refusal :=
  .next (match r with
    | .lanes good =>
      if s.pState p = pUp ∨ s.pState p = pDegrading then
        let was := s.pState p
        let bad := (bitsSet (BitVec.ofNat 4 (s.fld (Fld.LNK_LANES_LANE_OK p)))).filter fun l => !good.getLsbD l
        let s := s.dropLanes p bad
        let ok := BitVec.ofNat 4 (s.fld (Fld.LNK_LANES_LANE_OK p))
        -- an end whose agreement changes answers, so that the other learns of it
        let s := if (bitsSet ok).length < 2 ∨ was = pUp then s.degrade p else if (s.port p).agreed ≠ some ok then s.emitLanes p else s
        s.when (s.pState p == pDegrading) fun s => s.modPort p fun x => { x with agreed := some ok }
      else s
    | .handback port last valid =>
      if s.pState port = pDown ∨ s.pState port = pTraining then
        -- the port went down with no other port up, and still owes its record
        (s.emitRecord port p).modPort port fun x => { x with record := none }
      else
        let s := s.when (s.pState port == pUp || s.pState port == pDegrading) fun s => s.portDown port 0
        s.handback port last valid)

/-- RESTRIPE_DONE: the port is UP with the lanes agreed and replays from its oldest held flit (R295). -/
def execRestripeDone (p : PortId) (s : State) : Host.Outcome State Fault Refusal :=
  .next (match (s.port p).agreed with
    | some g =>
      if s.pState p = pDegrading then
        let s := (s.setFld (Fld.LNK_STATUS_STATE p) pUp).setFld (Fld.LNK_STATUS_LANES_UP p) (bitsSet g).length
        let s := s.modPort p fun x => { x with agreed := none }
        let s := match (s.port p).unacked with
          | f :: _ => s.replayFrom p f.seq
          | [] => s
        (s.pump p).refreshOpen
      else s
    | none => s)

/-- PORT_TRAINED: 25 ms after its start a training attempt ends (R296, R311); it wakes the device (R409). -/
def execPortTrained (p : PortId) (r : TrainEnd) (s : State) : Host.Outcome State Fault Refusal :=
  .next (if s.pState p = pTraining then ((s.clockTo ((s.port p).trainAt + 25000)).trainEnd p r none).beginWake else s)

/-- RETRAIN: the port goes down and trains (R296). -/
def execRetrain (p : PortId) (s : State) : Host.Outcome State Fault Refusal :=
  .next (s.bar0 (Rg.LNK_CTRL p) fun s => s.portDown p 2)

/-- RELINK_WAIT_EXPIRY: 10 ms after the request or LEAVING every port that faced the lost device starts training (R320); a span
that would pass a fourth bypassed position is never attempted, and stays down (R315). -/
def execRelinkWaitExpiry (b : Bundle) (s : State) : Host.Outcome State Fault Refusal :=
  .next (match NMap.find s.link.relinks (Bundle.num b) with
    | some r =>
      if r.training then s
      else
        let s := s.clockTo (r.since + 10000)
        if 3 < s.spanLen b (some r.lost) then
          let s := { s with link := { s.link with relinks := NMap.del s.link.relinks (Bundle.num b) } }
          s.each (Bundle.ports b) fun s p => (s.closePort p).refreshOpen
        else
          let s := { s with link := { s.link with relinks := NMap.ins s.link.relinks (Bundle.num b) { r with training := true } } }
          s.each (Bundle.ports b) fun s p => if s.pState p = pUp ∨ s.pState p = pDegrading then s.portDown p 2 else (s.trainPort p).refreshOpen
    | none => s)

/-- One port's result in a relink attempt (R320): the first port up past the lost device makes it BYPASSED, which every LIVE member is
told; a port that met another peer begins its next attempt. A port up with the lost device itself, or with one before it that has joined
again, bypasses nothing. -/
def State.relinkPort (s : State) (b : Bundle) (p : PortId) (r : TrainEnd) : State :=
  match NMap.find s.link.relinks (Bundle.num b) with
  | none => if s.pState p = pTraining then s.trainEnd p r none else s
  | some k =>
    if s.pState p ≠ pTraining then s
    else
      let s := s.trainEnd p r (some k.lost)
      if s.pState p = pDown then s.trainPort p
      else if s.pState p ≠ pUp then s
      else
        let s := { s with link := { s.link with relinks := NMap.del s.link.relinks (Bundle.num b) } }
        if !((s.along b).takeWhile fun m => m != r.peer.val).contains k.lost then s
        else
          let s := (s.setMState k.lost 2).tellTopo k.lost 2
          (s.count Ct.TOPO_RELINKS 1).jasper .relinked k.lost (Bundle.num b) 0

/-- RELINK_ATTEMPT: a 25 ms attempt of the ports of a bundle ends (R320). -/
def execRelinkAttempt (b : Bundle) (results : List (PortId × TrainEnd)) (s : State) : Host.Outcome State Fault Refusal :=
  .next (match NMap.find s.link.relinks (Bundle.num b) with
    | some k =>
      if k.training then
        let at_ := (((Bundle.ports b).map fun p => (s.port p).trainAt).foldl Nat.max 0) + 25000
        (s.clockTo at_).each (results.filter fun r => bundleOf r.1 == b) fun s r => s.relinkPort b r.1 r.2
      else s
    | none => s)

/-- A write of LNK.INJ_CTRL (R309, R310): it needs the test-enable bit; KIND 0b11 leaves KIND as it was. A write of ARM (`arm` tells that its
byte is written) starts the count; a flit that a SWAP held back goes out when injection is disarmed. -/
def State.writeLnkInj (s : State) (p : Nat) (w : BitVec 32) (arm : Bool) : State :=
  if s.fld Fld.BOOT_TEST_ENABLE = 0 then s.jasper .testDenied 0 (Rg.LNK_INJ_CTRL p) 0
  else
    let old := s.rd (Rg.LNK_INJ_CTRL p)
    let w : BitVec 32 := if bvGet 2 2 w = 3 then bvSet 2 2 w (bvGet 2 2 old) else w
    let s := s.wr (Rg.LNK_INJ_CTRL p) (BitVec.ofNat 32 (bvGet 0 14 w))
    if !arm then s
    else
      let held := (s.port p).swap
      let s := s.modPort p fun x => { x with injSeen := 0, swap := none }
      match held with
      | some f => s.emit p f false
      | none => s

/-- LNK_INJ_ARM: a write of LNK.INJ_CTRL (R309). -/
def execLnkInjArm (p : PortId) (w : BitVec 32) (s : State) : Host.Outcome State Fault Refusal :=
  .next (s.bar0 (Rg.LNK_INJ_CTRL p) fun s => s.writeLnkInj p w true)

end Sys2Proof.Machine
end

