-- ==== Sys2Proof/Machine/Plane.lean ====
section
/-! DEFINITION. The commands of rings and planes (chapter 12): tokens received (R33, R39), silence (R37), failover messages (R318, R321, R322,
R324) and the Agate switches (R313, R314). -/

namespace Sys2Proof.Machine

/-- A failover message is taken from the port it came on: the first of this kind and payload. -/
def State.takeMgmt (s : State) (kind : Nat) (payload : List Byte) : State :=
  s.each (List.range 16) fun s p =>
    let is := fun bs => let m := MgmtMsg.ofBytes bs; m.kind.toNat == kind && m.payload.take payload.length == payload
    match (s.port p).arrived.find? fun m => m.1 == 1 && is m.2 with
    | some m => (s.modPort p fun x => { x with arrived := x.arrived.erase m }).freeFlits p 1 (flitsFor m.2.length)
    | none => s

/-- The tick of the last token of its own that the device has issued in this group (R31). -/
def State.lastIssued (s : State) : BitVec 32 := if s.fld Fld.GARNET_STATUS_OWN_DONE = 1 then s.tickNo else s.tickNo - 1#32

/-- Silence of `m` is judged (R37): the group is enabled, or has stopped for a loss and `m` fell silent before this device's own last token,
which the members that still stepped with it have answered with theirs (R325, log entry 72). -/
def State.silenceCounts (s : State) (m : Nat) : Bool :=
  s.ticking || (s.garnet.watch && tickLater s.lastIssued (s.lastTick m))

/-- TICK_TOKEN (R33, R39); on a port that may not carry it the flit is refused (R285). -/
def execTickToken (p : PortId) (t : Token) (s : State) : Host.Outcome State Fault Refusal :=
  .next (if s.carriesTicks p then (s.rxToken p t).sendTicks else s.count (Ct.LNK_BAD_FLITS p) 1)

/-- MEMBER_SILENT: no token for 4 tick periods from a LIVE member of the group: it is declared lost (R37, R317), and a neighbour
on the majority side requests its reset (R319). -/
def execMemberSilent (m : Member) (s : State) : Host.Outcome State Fault Refusal :=
  .next (if s.silenceCounts m && s.inGroup m && m.val != s.me && s.mState m == 0 then
      let s := s.clockTo ((NMap.find s.garnet.heardAt m).getD s.garnet.startAt + 4 * s.inForce Fld.GARNET_PERIOD_PERIOD_US)
      let face := s.facing m
      let major := s.majority m
      let s := (s.raise Fld.GARNET_EVENTS_MEMBER_SILENT).jasper .memberSilent m 0 (s.lastTick m).toNat
      let s := s.memberLost m 0
      s.when (face != [] && major) fun s => s.requestReset m face
    else s)

/-- LOSS: a member of the own group is declared lost at once; of any other, the state is noted; one already lost is ignored (R321). -/
def execLoss (src lost : Member) (leaving : Bool) (tick : BitVec 32) (s : State) : Host.Outcome State Fault Refusal :=
  let s := s.takeMgmt 0x01 (leBytes 4 (lost + 2 ^ 9 * bit1 leaving) ++ leBytes 4 tick.toNat)
  .next (if lost.val = s.me ∨ src.val = s.me ∨ s.mState lost ≠ 0 then s
    else if s.inGroup lost then s.memberLost lost (bit1 leaving)
    else s.setMState lost 1)

/-- LEAVING: the sender is declared lost at once (R318), unless it has been (R325), and a member that faced it waits to relink (R320), unless it
does already. -/
def execLeaving (src : Member) (cause : LeaveCause) (tick : BitVec 32) (s : State) : Host.Outcome State Fault Refusal :=
  let s := s.takeMgmt 0x03 (leBytes 4 (LeaveCause.code cause) ++ leBytes 4 tick.toNat)
  .next (if src.val = s.me ∨ 2 ≤ s.mState src then s
    else
      let face := (s.facing src).filter fun b => !(NMap.find s.link.relinks (Bundle.num b)).any fun r => r.lost == src.val
      let s := if s.mState src = 1 then s else if s.inGroup src then s.memberLost src 1 else s.setMState src 1
      s.when (face != []) fun s => s.startRelink src face)

/-- The code of a member's state (R327). -/
def mStateCode : MemberState → Nat
  | .live => 0
  | .lost => 1
  | .bypassed => 2
  | .absent => 3

/-- TOPO_UPDATE: the member's new state applies at once (R321); ports held DOWN towards one that is LIVE again train (R326). -/
def execTopoUpdate (m : Member) (st : MemberState) (s : State) : Host.Outcome State Fault Refusal :=
  .next (((s.takeMgmt 0x04 (leBytes 4 (m + 2 ^ 9 * mStateCode st))).setMState m (mStateCode st)).when (mStateCode st == 0) fun s => s.retrainHeld m)

/-- TAKEOVER: every enabled partition's host and the recorder are told (R322). -/
def execTakeover (group : BitVec 16) (lost : Member) (tick : BitVec 32) (s : State) : Host.Outcome State Fault Refusal :=
  let payload := leBytes 4 (group.toNat + 2 ^ 16 * lost.val) ++ leBytes 4 tick.toNat
  let s := s.takeMgmt 0x05 payload
  .next ((s.postAll 0x07 0xFFFF 0xFFFF 0 payload).jasper .takeover lost group.toNat tick.toNat)

/-- THERMAL_NOTICE: every enabled partition's host learns of the warm stack (R324). -/
def execThermalNotice (src : Member) (stack : Fin 16) (temp : BitVec 16) (tick : BitVec 32) (s : State) : Host.Outcome State Fault Refusal :=
  let s := s.takeMgmt 0x06 (leBytes 2 stack.val ++ leBytes 2 temp.toNat ++ leBytes 4 tick.toNat)
  .next (if src.val = s.me then s else s.postAll 0x05 0xFFFF 0xFFFF stack.val (leBytes 2 temp.toNat))

/-- MGMT_KIND_UNUSED: a message of an unused KIND is discarded and recorded (R321). -/
def execMgmtKindUnused (m : MgmtMsg) (s : State) : Host.Outcome State Fault Refusal :=
  let k := m.kind.toNat
  .next (if k = 0 ∨ (7 ≤ k ∧ k ≤ 0x3F) then (s.takeMgmt k m.payload).jasper .mgmtKindUnused m.src k 0 else s)

/-! ### Agate -/

/-- An OPEN command is refused while ENABLE is 1 (R314). The command is named by its bit of AGATE_CMD. -/
def State.openSwitches (s : State) (cmd : Nat) (ks : List Nat) : State :=
  if s.fld Fld.GARNET_CTRL_ENABLE = 1 then s.jasper .agateRefused 0 cmd 0 else s.each ks fun s k => s.moveSwitch false k

/-- OPEN_RING (R314). -/
def execOpenRing (s : State) : Host.Outcome State Fault Refusal :=
  .next (s.bar0 Rg.TOPO_AGATE_CMD fun s => s.openSwitches 0 [0, 1, 2, 3])

/-- OPEN_PLANE (R314). -/
def execOpenPlane (s : State) : Host.Outcome State Fault Refusal :=
  .next (s.bar0 Rg.TOPO_AGATE_CMD fun s => s.openSwitches 1 [4, 5])

/-- A LEAVE takes effect (R314, R318). -/
def State.leaveNow (s : State) : State :=
  let s := (s.tellLeaving .admin).closeSwitches
  { s with link := { s.link with leave := false } }

/-- A write of AGATE_CMD.LEAVE: it takes effect at the end of the step in progress, or at once where none is (R314). -/
def State.askLeave (s : State) : State :=
  if s.tickState = stRunning ∨ s.tickState = stAbandoning then { s with link := { s.link with leave := true } } else s.leaveNow

/-- LEAVE (R314). -/
def execLeave (s : State) : Host.Outcome State Fault Refusal :=
  .next (s.bar0 Rg.TOPO_AGATE_CMD State.askLeave)

/-- AGATE_SENSOR_CHECK: 20 ms after its command, a switch whose sensed position disagrees reads FAULT (R314). -/
def execAgateSensorCheck (sw : Fin 6) (closed : Bool) (s : State) : Host.Outcome State Fault Refusal :=
  .next (match NMap.find s.link.agate sw with
    | some c =>
      let s := s.clockTo (c.2 + 20000)
      if closed = c.1 then s else (s.setFld (Fld.TOPO_AGATE_STATUS_SW sw) 3).jasper .agateFault 0 sw (bit1 closed)
    | none => s)

/-- AGATE_SWITCH_MOVEMENT_DONE: MOVING becomes OPEN or CLOSED (R314); the ports of an open switch start to train (R326). -/
def execAgateSwitchMovementDone (sw : Fin 6) (s : State) : Host.Outcome State Fault Refusal :=
  .next (match NMap.find s.link.agate sw with
    | some c =>
      if s.fld (Fld.TOPO_AGATE_STATUS_SW sw) = 2 then
        let s := s.setFld (Fld.TOPO_AGATE_STATUS_SW sw) (bit1 c.1)
        if c.1 then s else s.each (agatePorts sw) fun s p => s.trainPort p
      else s
    | none => s)

end Sys2Proof.Machine
end

