-- ==== Sys2Proof/Machine/FlashOrder.lean ====
section
/-! DEFINITION. When Onyx works (R280, R408), and the order in which a flash channel serves its requests (R281). -/

namespace Sys2Proof.Machine

/-- Onyx works: it is mounted, and PWRFAIL_N has not fallen (R280). -/
def State.onyxRun (s : State) : Bool := s.onyxUp && s.fld Fld.PWR_STATUS_PWRFAIL == 0

/-- Background work goes on: it pauses in S3 and S4 (R408). -/
def State.onyxBackground (s : State) : Bool := s.onyxRun && decide (s.fld Fld.PWR_STATUS_STATE < 3)

/-- The destination of a move may be written: a frame that waits for an eviction may not yet be (R237). -/
def State.destReady (s : State) (o t : Nat) (d : Dest) : Bool :=
  match d with
  | .frame f => NMap.find s.place.frames f == some (.tile o t)
  | _ => true

/-- A page of it waits to be programmed. -/
def Install.pageReady (i : Install) : Bool := i.begun && (decide (4 ≤ i.stage.length) || (i.indexed && i.stage != []))

/-! ### The service order of a channel (R281) -/

/-- Flash channels that tile `t` of an origin is read over. -/
def State.tileChans (s : State) (handle t : Nat) : List Nat :=
  match s.onyxObj handle with
  | none => []
  | some o => match o.tiles[t]? with
    | none => []
    | some p => ((List.range p.2.1).filterMap fun i => (s.sectorPlace (o.base + p.1 + i)).map fun q => laneChan q.1).eraseDups

/-- Flash channels that tile `t` of object `o` is read over. -/
def State.objChans (s : State) (o t : Nat) : List Nat :=
  match s.obj o with
  | some x => s.tileChans x.origin.toNat t
  | none => []

/-- Tile `t` of object `o` is read over channel `ch`. -/
def State.readsOver (s : State) (ch o t : Nat) : Bool := (s.objChans o t).contains ch

/-- A block queued for refresh has passed twice RD_LIMIT (R274). -/
def State.pressing (s : State) (k : Nat) : Bool := decide (2 * s.fld Fld.ONYX_RD_LIMIT_LIMIT < (s.flash.img.block k).reads.toNat)

/-- Lane of the journal program that comes next (R265). -/
def State.journalLane (s : State) : Nat := if s.flash.copyB.isSome then (s.flash.epoch.toNat + 8) % 16 else (s.flash.epoch.toNat + 1) % 16

/-- Entries of the next vault page (R279): 512, or those that a flush still covers. -/
def FlashSt.vaultNext (x : FlashSt) : Nat :=
  if 0 < x.vaultFlush then min 512 x.vaultFlush else if 512 ≤ x.vaultBuf.length then 512 else 0

/-- A fetch reads tiles of an origin over channel `ch`: not while a placement that it asked for still moves (R233), as its other tiles have been
read by then. -/
def State.fetchReads (s : State) (ch : Nat) (r : FetchRun) : Bool :=
  !(r.tiles.any fun q => q.src == .placed && (NMap.find s.place.moves (tileKey r.op.object.toNat q.tile)).isSome) &&
    r.tiles.any fun q => q.src == .origin && s.readsOver ch r.op.object.toNat q.tile

/-- A move of tile key `k` reads its origin over channel `ch`: a mover has it, and its destination may be written (R237, R240). -/
def State.moveReads (s : State) (ch k : Nat) (m : Move) : Bool :=
  s.hasMover m.die m.seq && s.destReady (k / 2 ^ 22) (k % 2 ^ 22) m.dest &&
    ((s.obj (k / 2 ^ 22)).any fun x => (s.dirEnt (k / 2 ^ 22) x (k % 2 ^ 22)).home == .origin) && s.readsOver ch (k / 2 ^ 22) (k % 2 ^ 22)

/-- A refetch reads its origin over channel `ch` (R245): a mover has it. -/
def State.refetchReads (s : State) (ch : Nat) : Bool :=
  s.place.refetches.any fun p => s.hasMover p.2.die p.2.seq && s.readsOver ch (p.1 / 2 ^ 22) (p.1 % 2 ^ 22)

/-- A request of class `k` waits on channel `ch` (R281). A refresh waits only where it can be made: while background work goes on, with a free
block in its lane. -/
def State.waitsOn (s : State) (ch : Nat) : Nat → Bool
  | 1 => s.refetchReads ch || (s.onyxBackground && s.flash.queue.any fun q =>
      laneChan (q.1 / 2 ^ 20) == ch && s.pressing q.1 && (s.freeBlock (q.1 / 2 ^ 20)).isSome)
  | 2 => s.fetches.any fun p => s.fetchReads ch p.2
  | 3 => s.place.moves.any fun p => s.moveReads ch p.1 p.2
  | 4 => ((s.flash.copyB.isSome || s.flash.jq != []) && s.journalLane == ch) ||
      (s.flash.vaultNext != 0 && (setPlace s.flash.vaultAt.2).1 == ch)
  | 5 => s.flash.inst.any fun i => i.pageReady && ((i.base.bind fun b => s.sectorPlace (b + i.done)).any fun q => laneChan q.1 == ch)
  | 6 => s.flash.queue.any fun q => laneChan (q.1 / 2 ^ 20) == ch
  | _ => false

/-- A request of class `k` has its turn on channel `ch`: none of a class before it waits there (R281). A command that stands for a request which
has not its turn describes no event (log entry 80). -/
def State.turn (s : State) (ch k : Nat) : Bool := (List.range k).all fun j => !s.waitsOn ch j

/-- A tile of an origin that no frame or page holds is read for fetch `r`: on each channel of it nothing of class 1 and no earlier fetch waits
(R281). -/
def State.fetchTurn (s : State) (r : FetchRun) : Bool :=
  (r.tiles.filter fun q => q.src == .origin).all fun q => (s.objChans r.op.object.toNat q.tile).all fun ch =>
    s.turn ch 2 && !(s.fetches.any fun p => decide (p.2.seq < r.seq) && s.fetchReads ch p.2)

/-- A move from an origin has its turn on each channel of its tile: nothing of classes 1 and 2 and no earlier move waits (R281). -/
def State.moveTurn (s : State) (o t : Nat) (m : Move) : Bool :=
  (s.objChans o t).all fun ch => s.turn ch 3 && !(s.place.moves.any fun p => decide (p.2.seq < m.seq) && s.moveReads ch p.1 p.2)

end Sys2Proof.Machine
end

