-- ==== Sys2Proof/Machine/Matrix.lean ====
section
/-! DEFINITION. The matrix commands (chapter 04) with the expander and scale lane (chapter 07): SETUP, RUN, READOUT, READRAW, MERGE. -/

namespace Sys2Proof

open Machine

/-- T. -/
def SetupOp.t (o : SetupOp) : Nat := o.tokens.val + 1
/-- G, 64-element groups of the head dimension. -/
def SetupOp.g (o : SetupOp) : Nat := o.headGroups.val + 1
/-- A16 activations. -/
def SetupOp.a16 (o : SetupOp) : Bool := o.actFormat.val == 4
/-- TILE mode (R89). -/
def SetupOp.tileMode (o : SetupOp) : Bool := o.source.val == 0
/-- CACHE_COLS mode (R89). -/
def SetupOp.cols (o : SetupOp) : Bool := o.source.val == 1
/-- Format of cache data (R108). -/
def SetupOp.cacheFmt (o : SetupOp) : Fmt := if o.format.val = 1 then .u8 else .g4
/-- Byte address of panel unit `u` (R91). -/
def SetupOp.panel (o : SetupOp) (u : Nat) : Nat := 64 * o.actBase.toNat + 64 * u
/-- Byte address of chunk `b` of token `t` (R91). -/
def SetupOp.chunk (o : SetupOp) (b t : Nat) : Nat := o.panel (1 + b * o.t + t)

/-- An unused encoding of SETUP (R61, R89, R108). -/
def SetupOp.unused (o : SetupOp) : Bool :=
  !(o.actFormat.val == 3 || o.actFormat.val == 4) || o.source.val == 3 ||
    (o.source.val != 0 && decide (2 ≤ o.format.val))

/-- Bytes of one cache record: 64 codes and a scale (R76). -/
def SetupOp.recBytes (o : SetupOp) : Nat := if o.cacheFmt = .g4 then 33 else 65
/-- Bytes of a page (R90). -/
def SetupOp.pageBytes (o : SetupOp) : Nat := o.g * 32 * o.recBytes

end Sys2Proof

namespace Sys2Proof.Machine

/-- Global engine index (R8). -/
def engOf (c : CoreId) (e : EngId) : Nat := 4 * c.val + e.val

/-- Cycles of an engine command (R114), in which the expander goes on with the rest of a tile that a RUN has left (R185). -/
def State.busy (s : State) (g n : Nat) : State :=
  (s.count (Ct.ENG_BUSY_CYCLES g) n).modEng g fun x =>
    { x with dec := x.dec.map fun d => { d with left := d.left - n, idle := d.idle + n } }

/-- SETUP (R108): it applies to every later command of the queue. An A16 ACT_FORMAT with a cache SOURCE is a command error (R111). -/
def runSetup (c : CoreId) (e : EngId) (o : SetupOp) (p : Prog) (s : State) : RunOut :=
  if o.unused then (s.unusedEnc c p, true)
  else if o.a16 && !o.tileMode then (s.engCmdErr (engOf c e) p, true)
  else ((s.modEng (engOf c e) fun x => { x with setup := some o }).busy (engOf c e) 1, true)

/-- The bank of engine `g` in a form to add to. -/
def State.bankRun (s : State) (g : Nat) : BankRun :=
  { bank := (s.eng g).bank, comp := s.fld (Fld.ENG_STATUS_COMP_BANK g) == 1, lfsr := s.rd (Rg.ENG_LFSR_STATE g) }

/-- The bank stored again, with its counts, flags and records (R96 to R98, R114, R143). -/
def State.putBank (s : State) (c : CoreId) (e : EngId) (p : Prog) (r : BankRun) : State :=
  let g := engOf c e
  let layer := (NMap.get 0xFFFF#16 (s.core c).layer e.val).toNat
  let s := s.modEng g fun x => { x with bank := r.bank }
  let s := s.wr (Rg.ENG_LFSR_STATE g) r.lfsr
  let s := s.setFld (Fld.ENG_STATUS_COMP_BANK g) (bit1 r.comp)
  let s := s.count (Ct.ENG_SHIFT_EVENTS g) r.shifts
  let s := s.when (!r.satRows.isEmpty) fun s => (s.raise (Fld.ENG_STATUS_ACC_SAT g)).each r.satRows fun s _ => s.jasper .accSat g layer 0
  let s := s.when r.inexact fun s => (s.raise (Fld.ENG_STATUS_COMP_INEXACT g)).jasper .compInexact g layer 0
  s.guardRec c e.val p { src := .acc, rows := r.satRows }

/-- The mode a bank takes at an accumulation's start (R100). -/
def State.startComp (s : State) (g : Nat) (o : Option SetupOp) : Bool :=
  (match o with | some o => o.comp | none => false) || s.inForce (Fld.ENG_CTRL_FORCE_COMP g) == 1

/-! ### RUN -/

/-- A block as the array meets it: operand of row r and column j, scale and zero point of column j. -/
structure Block where
  w  : Nat → Nat → Int
  sc : Nat → Nat
  zw : Nat → Nat

/-- Activation operands of token `t` for a chunk: the 32 values of one pass, and how many casts saturated (R91, R158). -/
def actRow (x : CoreSt) (o : SetupOp) (outliers : List (BitVec 16)) (chunk t pass : Nat) : List Int × Nat :=
  let xs := (List.range 32).map fun r => sx 16 (x.buf.rdLe (o.chunk chunk t + 2 * r) 2)
  if o.a16 then (xs.map (if pass = 0 then hiOf else loOf), 0)
  else
    let d := BitVec.ofNat 16 (x.buf.rdLe (o.panel 0 + 2 * t) 2)
    let tau := bvGet 8 4 d
    let z := if o.tileMode then sx 8 (bvGet 0 8 d) else 0
    let out := (xs.zipIdx).map fun p =>
      if o.tileMode && outliers.contains (BitVec.ofNat 16 (32 * chunk + p.2)) && decide (32 * chunk + p.2 < 65536) then (z, false)
      else castA8 p.1 tau z
    (out.map Prod.fst, (out.filter Prod.snd).length)

/-- The addend of R92 for one column: `k` is 256 in the A16 hi pass. -/
def addend (b : Block) (k : Int) (a : List Int) (j : Nat) : Int :=
  if b.sc j = 0 then 0
  else
    let dot := (a.zipIdx).foldl (fun acc p => acc + p.1 * b.w p.2 j) 0
    k * (b.sc j * (dot - b.zw j * a.foldl (· + ·) 0))

/-- One block streamed (R87, R91, R92): each pass presents every token row; the A16 format streams hi, then lo (log entry 15). -/
def streamBlock (x : CoreSt) (o : SetupOp) (outliers : List (BitVec 16)) (chunk : Nat) (b : Block)
    (st : BankRun × List Nat) : BankRun × List Nat :=
  (List.range (if o.a16 then 2 else 1)).foldl (fun st pass =>
    (List.range o.t).foldl (fun (st : BankRun × List Nat) t =>
      let a := actRow x o outliers chunk t pass
      (st.1.addRow t (addend b (if o.a16 && pass == 0 then 256 else 1) a.1), st.2 ++ List.replicate a.2 t)) st) st

/-- Byte `a` of the core buffer is of a substituted copy (R246). -/
def CoreSt.subByte (x : CoreSt) (a : Nat) : Bool :=
  x.fills.any fun f => f.sub && decide (f.unit ≤ a / 64) && decide (a / 64 < f.unit + f.units) && !f.dirty.contains (a / 64)

/-- Operand of a cache record at byte `a`: element i of 64 (R76, R88); zero where its byte is of a substituted tile (R246). -/
def cacheElem (s : State) (c : CoreId) (o : SetupOp) (x : CoreSt) (a i : Nat) : Int :=
  let v := s.gridVal c o.grid.val
  let p := if o.cacheFmt = .g4 then a + i / 2 else a + i
  let b := (x.buf.rd p).toNat
  if x.subByte p then 0
  else if o.cacheFmt = .g4 then operand .g4 v (if i % 2 = 0 then b % 16 else b / 16)
  else operand .u8 v b

/-- Block `n` of a run in a cache mode (R89, R90): `src` is the byte address of its first page. -/
def cacheBlock (s : State) (c : CoreId) (o : SetupOp) (op : RunOp) (n : Nat) : Block :=
  let x := s.core c
  let src := 32 * op.src.toNat
  let page := if o.cols then n / (2 * o.g) else n
  let b := if o.cols then n % (2 * o.g) else op.blockOfs.toNat
  let recAt := fun pos => src + page * o.pageBytes + (b / 2) * 32 * o.recBytes + pos * o.recBytes
  if o.cols then
    { w := fun r j => cacheElem s c o x (recAt j) (32 * (b % 2) + r)
      sc := fun j => if x.subByte (recAt j + o.recBytes - 1) then 0 else (x.buf.rd (recAt j + o.recBytes - 1)).toNat
      zw := fun _ => 0 }
  else
    { w := fun r j => cacheElem s c o x (recAt r) (32 * (b % 2) + j), sc := fun _ => 1, zw := fun _ => 0 }

/-- A tile's copy in the core buffer: its name, its header's byte address, and its 64 B units. -/
structure TileAt where
  object : Nat
  tile   : Nat
  addr   : Nat
  units  : Nat

/-- The tile of a fetched copy. -/
def Fill.tileAt (f : Fill) : TileAt := ⟨f.object, f.tile, 64 * f.unit, f.units⟩

/-- The fetched copy whose header lies at byte `a`, with its marks. -/
def CoreSt.fillAt (x : CoreSt) (a : Nat) : Option Fill := x.fills.find? fun f => 64 * f.unit == a && !f.dirty.contains f.unit

/-- The fetched copy that holds byte `a`. -/
def CoreSt.fillOver (x : CoreSt) (a : Nat) : Option Fill :=
  x.fills.find? fun f => decide (f.unit ≤ a / 64) && decide (a / 64 < f.unit + f.units) && !f.dirty.contains (a / 64)

/-- What a RUN meets in a tile that it does not pass (R61, R181, R186, R245). -/
inductive StopWhy
  /-- format or group unused, or table not live: refused and reported poisoned -/
  | refused
  | parity
  | skew
  /-- the copy carries a poison mark -/
  | poison
  deriving DecidableEq, Repr

/-- Why a walk over tiles ended early. -/
inductive TileStop
  /-- command error (R111) -/
  | cmd
  /-- the tile that holds the port, with the scale tile where both are refetched -/
  | held (why : StopWhy) (tile : TileAt) (scale : Option TileAt)

/-- A format with its group size, as a tile's header names them. -/
abbrev FmtGroup := Fmt × Nat

/-- Format and group of a header, if both are encodings a header may name (R61). -/
def headerFmt (format group : Nat) : Option FmtGroup :=
  match Fmt.ofCode format, groupSize group with
  | some f, some n => if f.isWeight then some (f, n) else none
  | _, _ => none

/-- A walk over stored tiles as it runs, with the bank it adds to. -/
structure TileRun where
  bank  : BankRun
  /-- rows of saturated casts, one for each -/
  ports : List Nat := []
  /-- operands of the last two blocks, of this RUN or before it (R87) -/
  used  : List (List Int) := []
  /-- array cycles of each block of the tile in progress -/
  costs : List Nat := []
  walk  : Walk

/-- A tile that has passed its checks. -/
structure TileStart where
  tile  : TileAt
  fg    : FmtGroup
  /-- its header; none for a substituted tile -/
  hdr   : Option TileHdr
  /-- distance to the next tile's header -/
  span  : Nat
  /-- its scale block is a substituted one (R176) -/
  scSub : Bool

/-- The scale lane's checks at a tile's start (R61, R176, R186, R245), the tile's own name and tag being `tag` where they are compared: whether
the scale block is a substituted one. A fault of the scale block is a fault of the fetched scale tile that holds it; a block that no fetch
delivered is refetched with its weight tile alone (log entry 75). -/
def scaleChecks (x : CoreSt) (w : Walk) (fg : FmtGroup) (own : TileAt) (tag : Option (Nat × Nat × Nat)) : Except TileStop Bool :=
  let n := scaleBlockBytes fg.1 fg.2
  let sc := x.fillOver w.pos.addr
  let at_ := (sc.map Fill.tileAt).getD own
  let sh := ScaleHdr.read x.buf w.pos.addr
  if w.pos.addr + n > bufBytes then .error .cmd
  else if sc.any fun f => f.sub then .ok true
  else if sc.any fun f => f.poison then .error (.held .poison at_ none)
  else if x.bad w.pos.addr n then .error (.held .parity at_ none)
  else match tag with
    | none => .ok false
    | some g =>
      if (headerFmt sh.format sh.group).isNone then .error (.held .refused at_ none)
      else if (sh.object, sh.index, sh.tag) ≠ g then .error (.held .skew own (sc.map Fill.tileAt))
      else .ok false

/-- The checks of R109 on a RUN's blocks within a tile: the first block lies in it, and blocks and offset are whole groups. -/
def blocksBad (fg : FmtGroup) (b0 total : Nat) : Bool :=
  decide (b0 ≥ blocksPerTile fg.1) || decide ((32 * b0) % fg.2 ≠ 0) || decide ((32 * total) % fg.2 ≠ 0)

/-- A substituted tile at the port (R246): no header, table or sum is checked, and it has the format of the run, or of its object. -/
def subStart (x : CoreSt) (w : Walk) (f : Fill) (b0 total : Nat) : Except TileStop TileStart :=
  match w.fg.or (headerFmt f.fmt f.group) with
  | none => .error .cmd
  | some fg =>
    if blocksBad fg b0 total then .error .cmd
    else (scaleChecks x w fg f.tileAt none).map fun sub => ⟨f.tileAt, fg, none, 64 * f.units, sub⟩

/-- The checks at the start of a stored tile, in order (R61, R109, R181, R186, R187). -/
def storedStart (s : State) (c : CoreId) (x : CoreSt) (w : Walk) (b0 total : Nat) : Except TileStop TileStart :=
  let h := TileHdr.read x.buf w.addr
  let own : TileAt := ((x.fillAt w.addr).map Fill.tileAt).getD ⟨h.object, h.index, w.addr, ceilDiv h.stored 64⟩
  if x.bad w.addr (min h.stored (bufBytes - w.addr)) then .error (.held .parity own none)
  else match headerFmt h.format h.group with
    | none => .error (.held .refused own none)
    | some fg =>
      if w.addr + h.stored > bufBytes then .error .cmd
      else if h.scale || (w.expect.any fun k => k != (h.object, h.index)) || (w.fg.any fun f => f != fg) then .error .cmd
      else if blocksBad fg b0 total then .error .cmd
      else if h.coded && !(let r := NMap.get {} (s.cluster (clusterOf c)).tables h.table; r.live && r.gen == h.gen) then
        .error (.held .refused own none)
      else (scaleChecks x w fg own (some (h.object, h.index, h.tag))).map fun sub => ⟨own, fg, some h, 4096 * h.units, sub⟩

/-- The next tile of a walk passes its checks, or stops it. -/
def tileStart (s : State) (c : CoreId) (x : CoreSt) (w : Walk) (b0 total : Nat) : Except TileStop TileStart :=
  if w.addr + 64 > bufBytes then .error .cmd
  else match x.fillAt w.addr with
    | some f =>
      if f.poison then .error (.held .poison f.tileAt none)
      else if f.sub then subStart x w f b0 total
      else storedStart s c x w b0 total
    | none => storedStart s c x w b0 total

/-- The record of table `id` brought into the expander cache (R181): whether it was a hit, and the state after. -/
def State.expTable (s : State) (c : CoreId) (g id gen : Nat) : Bool × State :=
  let held := (List.range 16).find? fun i => s.fld (Fld.EXP_CACHE_VALID g i) == 1 && s.fld (Fld.EXP_CACHE_ID g i) == id
  let touch := fun (x : EngSt) (i : Nat) => { x with lru := x.lru.filter (· != i) ++ [i] }
  match held with
  | some i =>
    if s.fld (Fld.EXP_CACHE_GEN g i) = gen then (true, s.modEng g fun x => touch x i)
    else
      let s := s.setFld (Fld.EXP_CACHE_GEN g i) gen
      let l := (NMap.get {} (s.cluster (clusterOf c)).tables id).lens
      (false, (s.modEng g fun x => { touch x i with records := NMap.set 0#1024 x.records i l }).count (Ct.EXP_TABLE_LOADS g) 1)
  | none =>
    let free := (List.range 16).find? fun i => s.fld (Fld.EXP_CACHE_VALID g i) == 0
    let i := match free with | some i => i | none => (s.eng g).lru.headD 0
    let s := ((s.setFld (Fld.EXP_CACHE_ID g i) id).setFld (Fld.EXP_CACHE_GEN g i) gen).setFld (Fld.EXP_CACHE_VALID g i) 1
    let l := (NMap.get {} (s.cluster (clusterOf c)).tables id).lens
    (false, (s.modEng g fun x => { touch x i with records := NMap.set 0#1024 x.records i l }).count (Ct.EXP_TABLE_LOADS g) 1)

/-- The lengths that the expander holds for table `id`. -/
def State.expLens (s : State) (g id : Nat) : List Nat :=
  match (List.range 16).find? fun i => s.fld (Fld.EXP_CACHE_VALID g i) == 1 && s.fld (Fld.EXP_CACHE_ID g i) == id with
  | some i => lensOf (NMap.get 0#1024 (s.eng g).records i)
  | none => []

/-- Block `b` of a weight tile, its own symbols being `bs` (R163, R175, R176): `pos` is the scale position that block `b0` meets. A substituted
scale block gives the scale code 0, so that the block adds nothing (R92, R246; DESIGN CHOICE, log entry 77). -/
def tileBlock (s : State) (c : CoreId) (o : SetupOp) (m : Mem) (fg : FmtGroup) (bs : List Nat) (pos : ScalePos) (b0 b : Nat) : Block :=
  let per := fg.2 / 32
  let g := pos.recNo + (b / per - b0 / per)
  { w := fun r j => operand fg.1 (s.gridVal c o.grid.val) (codeAt fg.1 bs 0 r j)
    sc := fun j => if pos.sub then 0 else scaleAt m pos.addr fg.1 g j
    zw := fun j => if pos.sub then 0 else zeroAt m pos.addr fg.1 g j }

/-- Symbols of one block, at the front of a list of its own. -/
def blockSymbols (f : Fmt) (sym : List Nat) (b : Nat) : List Nat := (sym.drop (symbolsPerBlock f * b)).take (symbolsPerBlock f)

/-- Distance that NEXT of the scale block at `a` of a scale tile whose header lies at `t` would hold (R174 to R176): the block size, or to byte
128 of the next scale tile where the following block would not fit in this one. -/
def scaleStep (fg : FmtGroup) (t units a : Nat) : Nat :=
  let n := scaleBlockBytes fg.1 fg.2
  if a - t + 2 * n ≤ 65536 then n else 4096 * ceilDiv units 64 - (a - t) + 128

/-- The scale position after `n` blocks from block `b0` of a tile (R176). -/
def ScalePos.after (p : ScalePos) (x : CoreSt) (st : TileStart) (b0 n : Nat) : ScalePos :=
  let per := st.fg.2 / 32
  if b0 + n = blocksPerTile st.fg.1 then
    let by_ := match st.scSub, x.fillOver p.addr with
      | true, some f => scaleStep st.fg (64 * f.unit) f.units p.addr
      | _, _ => 128 * (ScaleHdr.read x.buf p.addr).next
    { addr := p.addr + by_, recNo := 0, sub := (x.fillOver (p.addr + by_)).any fun f => f.sub }
  else { p with recNo := p.recNo + ((b0 + n) / per - b0 / per), sub := st.scSub }

/-- The scale position at the start of the walk's next tile: a RUN with SCALE_CONT = 0 begins at the record of the first group that it meets in
its first tile, whose format and group the checks have found (R176). `sub` tells that the block there is a substituted one. -/
def Walk.scaleAt (w : Walk) (op : RunOp) (fg : FmtGroup) (b0 : Nat) (sub : Bool) : ScalePos :=
  { w.pos with sub, recNo := if w.expect.isNone && !op.scaleCont then b0 / (fg.2 / 32) else w.pos.recNo }

/-- One more block in a walk, loaded in `l` cycles and streamed in `sc` (R112, R114). The first block's whole load counts as time in which the
array waits for the port, whether or not L > S: DESIGN CHOICE, log entry 77. -/
def Walk.block (w : Walk) (l sc : Nat) : Walk :=
  match w.last with
  | none => { w with done := w.done + 1, cycles := l, bound := l, last := some sc }
  | some p => { w with done := w.done + 1, cycles := w.cycles + Nat.max l p, bound := w.bound + (l - p), last := some sc }

/-- Operands of a block as a weight register holds them (R87). -/
def Block.operands (b : Block) : List Int := (List.range 1024).map fun k => b.w (k / 32) (k % 32)

/-- A block with only zero operands that adds nothing (R246). -/
def Block.zero : Block := ⟨fun _ _ => 0, fun _ => 0, fun _ => 0⟩

/-- The last two weight registers after block `b` (R87). -/
def nextUsed (used : List (List Int)) (b : Block) : List (List Int) := [b.operands, used.headD []]

/-- Blocks `bs` of a tile streamed (R91, R92, R112). A substituted tile adds nothing: it makes no casts, no records and no advances of the LFSR,
and takes the cycles of any other (R246; DESIGN CHOICE beside R96 and R143, log entry 77). -/
def TileRun.stream (t : TileRun) (x : CoreSt) (o : SetupOp) (outl : List (BitVec 16)) (chunk0 l : Nat) (bs : List (Option Block)) : TileRun :=
  bs.foldl (fun t b =>
    match b with
    | none =>
      let sc := o.t * (if t.bank.comp then 2 else 1) * (if o.a16 then 2 else 1)
      { t with bank := { t.bank with compCyc := t.bank.compCyc + (if t.bank.comp then sc else 0) }
               walk := t.walk.block l sc, used := nextUsed t.used Block.zero, costs := t.costs ++ [sc] }
    | some b =>
      let r := streamBlock x o outl (chunk0 + t.walk.done) b (t.bank, t.ports)
      let sc := r.1.cycles - t.bank.cycles
      { t with bank := r.1, ports := r.2, walk := t.walk.block l sc, used := nextUsed t.used b, costs := t.costs ++ [sc] }) t

/-- Array cycles of each block of a tile, as far as its feed goes by them: the rest of the port before each load (R183). -/
def restsOf (l : Nat) (prev : Option Nat) (costs : List Nat) : List Nat := (prev.getD l :: costs.dropLast).map fun c => c - l

/-- A stored tile streamed: its checks and table load, its decode, its blocks and its feed (R181 to R185). Between a RUN and the RUN that
continues it the fill unit has gone on; 64 cycles fill every FIFO. The stall cycles of the feed are held to the bound of R184 (log entry 16). -/
def runStored (c : CoreId) (e : EngId) (o : SetupOp) (op : RunOp) (st : TileStart) (h : TileHdr) (b0 : Nat) (s : State) (t : TileRun) :
    State × TileRun :=
  let g := engOf c e
  let x := s.core c
  let w := t.walk
  let fg := st.fg
  let bpt := blocksPerTile fg.1
  let l := loadCycles fg.1
  let n := min (bpt - b0) (op.blocks.toNat - w.done)
  let ended := b0 + n == bpt
  let pos := w.scaleAt op fg b0 st.scSub
  let dec := if w.expect.isNone then (s.eng g).dec.filter fun d => d.addr == w.addr && d.block == b0 && d.cont else none
  let first := w.expect.isNone && dec.isNone
  let tab := if h.coded then s.expTable c g h.table h.gen else (true, s)
  let s := tab.2
  let lens := s.expLens g h.table
  let sym := decodeTile x.buf w.addr h lens
  let lead := (if first then 24 else 0) + (if tab.1 then 0 else 40)
  let idle := (dec.map Decode.idle).getD 0
  -- the blocks
  let t2 := { t with costs := [] }.stream x o (s.eng g).outliers op.actChunk.toNat l ((List.range n).map fun i =>
    some (tileBlock s c o x.buf fg (blockSymbols fg.1 sym (b0 + i)) pos b0 (b0 + i)))
  -- the feed: what the FIFOs hold, the cycles of the checks, the blocks discarded, the blocks run
  let more := ended && decide (w.done + n < op.blocks.toNat) && decide (w.addr + st.span + 64 ≤ bufBytes)
  let nh := TileHdr.read x.buf (w.addr + st.span)
  let next := if more && nh.coded && !nh.scale then some nh else none
  let ds := fillCycles (lead + min 64 idle) (feeders h lens sym ((if first then 0 else b0) * l) ((dec.map Decode.feed).getD w.feed) next)
  let skip := feedBlocks l (if first then List.replicate b0 0 else []) ds
  let fed := feedBlocks l (restsOf l w.last t2.costs) skip.2
  let feed := if h.coded then min (skip.1 + fed.1) (if h.payload ≤ 63568 then 64 else 192) else 0
  let over_ := endTile (padBits h lens sym) fed.2
  -- the expander's registers
  let s := s.setFld (Fld.EXP_CUR_OBJECT_OBJECT g) h.object
  let s := s.setFld (Fld.EXP_CUR_TILE_TILE g) h.index
  let s := s.setFld (Fld.EXP_STATUS_RAW g) (bit1 !h.coded)
  let s := s.setFld (Fld.EXP_STATUS_DECODING g) (bit1 !ended)
  let s := s.when dec.isNone fun s => s.count (if h.coded then Ct.EXP_TILES_CODED g else Ct.EXP_TILES_RAW g) 1
  let chk : SumCheck :=
    { object := h.object, tile := h.index, table := if h.coded then some h.table else none,
      ok := symbolSum sym == h.sum, addr := w.addr, units := ceilDiv h.stored 64 }
  let s := s.modEng g fun y =>
    { y with dec := if ended then none
                    else some { addr := w.addr, object := h.object, tile := h.index, block := b0 + n, blocks := bpt,
                                left := (bpt - (b0 + n)) * l, feed := if h.coded then keptOf fed.2 else [] }
             sums := if dec.isNone then y.sums ++ [chk] else y.sums }
  (s, { t2 with walk := { t2.walk with
    addr := w.addr + st.span, pos := pos.after x st b0 n, expect := some (h.object, h.index + 1), fg := some fg,
    stalls := w.stalls + lead + feed + (if first then l * b0 else 0),
    feed := if next.isSome && h.coded then keptOf over_ else [] } })

/-- A substituted tile passed (R246): CUR_OBJECT, CUR_TILE and the counters of tiles started stay as they were, on which R188 is silent (DESIGN
CHOICE, log entry 77). EXP.STATUS.STALLED shows the port in a stall cycle, and no command sees the middle of one: it reads 0
(log entry 76). -/
def runSub (c : CoreId) (o : SetupOp) (op : RunOp) (st : TileStart) (b0 : Nat) (s : State) (t : TileRun) : TileRun :=
  let w := t.walk
  let n := min (blocksPerTile st.fg.1 - b0) (op.blocks.toNat - w.done)
  let t2 := t.stream (s.core c) o [] op.actChunk.toNat (loadCycles st.fg.1) (List.replicate n none)
  { t2 with walk := { t2.walk with
    addr := w.addr + st.span, pos := (w.scaleAt op st.fg b0 st.scSub).after (s.core c) st b0 n, expect := some (st.tile.object, st.tile.tile + 1), fg := some st.fg,
    feed := [] } }

/-- Every tile of a RUN that is still to come (R109): what stopped the walk, if something did, with all that the tiles before it did. -/
def runTiles (c : CoreId) (e : EngId) (o : SetupOp) (op : RunOp) : Nat → State → TileRun → Option TileStop × State × TileRun
  | 0, s, t => (none, s, t)
  | fuel + 1, s, t =>
    if t.walk.done ≥ op.blocks.toNat then (none, s, t)
    else
      let b0 := if t.walk.expect.isNone then op.blockOfs.toNat else 0
      match tileStart s c (s.core c) t.walk b0 op.blocks.toNat with
      | .error stop => (some stop, s, t)
      | .ok st => match st.hdr with
        | some h => let r := runStored c e o op st h b0 s t; runTiles c e o op fuel r.1 r.2
        | none => runTiles c e o op fuel s (runSub c o op st b0 s t)

/-- Copies of CACHE tiles that a fetch of the step left in [a, a+n), with bad bytes there that no instruction has written since (R249,
third row); a copy that came with a poison mark has lost its data under R248 instead. -/
def CoreSt.badFills (x : CoreSt) (a n : Nat) : List Fill :=
  if x.bufBad.isEmpty then []
  else x.fills.filter fun f => f.kind == .cache && !f.poison &&
    (unitsOf a n).any fun u => decide (f.unit ≤ u) && decide (u < f.unit + f.units) && !f.dirty.contains u && x.bufBad.contains u

/-- Bad bytes in [a, a+n) that no fetched CACHE tile accounts for (R249, last row). -/
def CoreSt.badOther (x : CoreSt) (a n : Nat) : Bool :=
  !x.bufBad.isEmpty && (unitsOf a n).any fun u => x.bufBad.contains u &&
    !(x.fills.any fun f => f.kind == .cache && decide (f.unit ≤ u) && decide (u < f.unit + f.units) && !f.dirty.contains u)

/-- Every RUN that waits on the poisoned tile receives a substituted copy and resumes (R245). -/
def State.substitute (s : State) (object tile : Nat) : State :=
  s.each s.engs fun s p => match p.2.hold with
    | some h =>
      if h.object = object ∧ h.tile = tile ∧ h.why = .poison then
        (s.modEng p.1 fun y => { y with hold := none }).substituteAt (p.1 / 4) object tile h.addr h.units
      else s
    | none => s

/-- The SETUP and RUN rules that need no tile (R109, R111). -/
def runBad (x : EngSt) (o : SetupOp) (op : RunOp) : Bool :=
  op.blocks.toNat == 0 ||
    decide (o.chunk (op.actChunk.toNat + op.blocks.toNat - 1) (o.t - 1) + 64 > bufBytes) ||
    (if o.tileMode then
      op.src.toNat % 128 != 0 || (op.scaleCont && x.scalePos.isNone)
    else
      (if o.cols then op.blockOfs.toNat != 0 || op.blocks.toNat % (2 * o.g) != 0 else decide (op.blockOfs.toNat ≥ 2 * o.g)) ||
        decide (32 * op.src.toNat + (if o.cols then op.blocks.toNat / (2 * o.g) else op.blocks.toNat) * o.pageBytes > bufBytes))

/-- Bytes of activations a RUN reads (R91). -/
def runActs (o : SetupOp) (op : RunOp) : List (Nat × Nat) :=
  (if o.a16 then [] else [(o.panel 0, 64)]) ++ [(o.chunk op.actChunk.toNat 0, 64 * o.t * op.blocks.toNat)]

/-- The cycles of a RUN that has ended, or has met a command error after `w.done` blocks (R112, R114). The rest of a tile that it leaves is
decoded by the commands that follow it (R185); the fill unit goes on while its last block streams (R183). -/
def State.runCost (s : State) (g : Nat) (w : Walk) : State :=
  let tail := if w.done = 0 then 0 else w.last.getD 0 + 12
  let s := s.count (Ct.ENG_BUSY_CYCLES g) (w.cycles + tail + w.stalls)
  let s := s.modEng g fun x => { x with dec := x.dec.map fun d => { d with idle := d.idle + tail } }
  (s.count (Ct.ENG_LOAD_BOUND_CYCLES g) w.bound).count (Ct.EXP_STALL_CYCLES g) w.stalls

/-- All that a RUN's blocks did so far reaches the bank, its counters and the guard (R94 to R98, R114, R143). -/
def State.putRun (s : State) (c : CoreId) (e : EngId) (p : Prog) (t : TileRun) : State :=
  let g := engOf c e
  let s := (s.putBank c e p t.bank).count (Ct.ENG_COMP_CYCLES g) t.bank.compCyc
  let s := s.modEng g fun x => { x with weights := t.used }
  s.guardRec c e.val p { src := .port, rows := t.ports }

/-- A RUN that a tile holds at its port: `h` is the tile (R109). -/
def State.holdRun (s : State) (g : Nat) (h : Hold) : State := s.modEng g fun x => { x with hold := some h }

/-- The port waits for a poisoned tile, or takes a substituted one where the step's wait for it has ended (R245). -/
def State.holdPoison (s : State) (c : CoreId) (e : EngId) (t : TileAt) : State :=
  if s.place.expired.contains (tileKey t.object t.tile) then s.substituteAt c t.object t.tile t.addr t.units
  else (s.startWait t.object t.tile).holdRun (engOf c e) ⟨.poison, t.object, t.tile, t.addr, t.units, none, [.flash]⟩

/-- The tiers that a refetch of a tile for core `c` reads from (R242). -/
def State.tileTiers (s : State) (c : Nat) (t : TileAt) : List Tier :=
  match s.obj t.object with | some x => (s.dirEnt t.object x t.tile).tiers (dieOf c) | none => []

/-- A RUN meets a fault in a tile (R61, R181, R186, R187, R245): it is recorded, and the tile is refetched or reported poisoned. -/
def State.tileFault (s : State) (c : CoreId) (e : EngId) (why : StopWhy) (t : TileAt) (sc : Option TileAt) : State :=
  let g := engOf c e
  let x := s.eng g
  let fault : TileFault := ⟨t.object, t.tile, (s.rd Rg.GARNET_TICK).toNat⟩
  match why with
  | .refused =>
    let s := (s.raise (Fld.EXP_STATUS_REFUSED g)).count (Ct.EXP_REFUSED g) 1
    ((s.jasper .tileRefused g t.object t.tile).poisonTile t.object t.tile).holdPoison c e t
  | .parity =>
    let s := (s.count (Ct.EXP_PARITY_ERRORS g) 1).jasper .portParity g t.object t.tile
    if metBefore x.parity t.object t.tile then (s.poisonTile t.object t.tile).holdPoison c e t
    else
      let s := s.modEng g fun y => { y with parity := y.parity ++ [fault] }
      s.holdRun g ⟨.parity, t.object, t.tile, t.addr, t.units, none, s.tileTiers c t⟩
  | .skew =>
    let s := (s.raise (Fld.EXP_STATUS_SKEW g)).count (Ct.EXP_SKEW_EVENTS g) 1
    let s := s.jasper .scaleSkew g t.object t.tile
    let met := (x.skews.filter fun f => f.object == t.object && f.tile == t.tile).length
    let s := s.when (met < 2) fun s => s.modEng g fun y => { y with skews := y.skews ++ [fault] }
    if met = 0 then
      s.holdRun g ⟨.skew, t.object, t.tile, t.addr, t.units, sc.map fun q => (q.object, q.tile, q.addr),
        (s.tileTiers c t ++ (match sc with | some q => s.tileTiers c q | none => [])).eraseDups⟩
    else if met = 1 then (s.poisonTile t.object t.tile).holdPoison c e t
    else
      -- the skew has outlasted the refetch from the origin (R187)
      ((s.quarantine t.object 2).substitute t.object t.tile).substituteAt c t.object t.tile t.addr t.units
  | .poison => s.holdPoison c e t

/-- The rest of a tile that a RUN leaves, where this RUN does not continue it, is waited for first (R185): the stall cycles. -/
def State.waitDecode (s : State) (g : Nat) (continues : Decode → Bool) : Nat × State :=
  match (s.eng g).dec with
  | some d => if continues d then (0, s) else (d.left, s.modEng g fun y => { y with dec := none })
  | none => (0, s)

/-- The scale position that a RUN leaves: in the main program's set-aside place where a segment has begun meanwhile (R153, R176). -/
def EngSt.leavePos (x : EngSt) (seg : Bool) (p : ScalePos) : EngSt :=
  match x.saved with
  | some v => if seg then { x with scalePos := some p } else { x with saved := some (v.1, some p) }
  | none => { x with scalePos := some p }

/-- A TILE-mode RUN from where it stands (R109): it ends, meets a command error, or is held at its port with what its tiles did so far. -/
def runOn (c : CoreId) (e : EngId) (p : Prog) (r : RunHeld) (start : BankRun) (s : State) : RunOut :=
  let g := engOf c e
  let out := runTiles c e r.setup r.op 4096 s { bank := start, used := (s.eng g).weights, walk := r.walk }
  let t := out.2.2
  let s := out.2.1.putRun c e p t
  match out.1 with
  | none =>
    let s := s.modEng g fun y => { y.leavePos r.seg t.walk.pos with run := none }
    let s := s.modCore c fun y => { y with held := y.held.filter (· != e.val) }
    (s.runCost g t.walk, true)
  | some .cmd => ((s.runCost g t.walk).engCmdErr g p, true)
  | some (.held why tile sc) =>
    let s := s.modEng g fun y => { y with run := some { r with walk := t.walk } }
    let s := s.when (!r.seg) fun s => s.modCore c fun y => { y with held := addOnce y.held e.val }
    (s.tileFault c e why tile sc, false)

/-- A RUN in a cache mode (R89, R90, R185): it waits for a decode that an earlier RUN left, and is held where fetched cache data has to be
refetched from its home (R249). -/
def runCache (c : CoreId) (e : EngId) (o : SetupOp) (op : RunOp) (p : Prog) (start : BankRun) (s : State) : RunOut :=
  let g := engOf c e
  let pages := if o.cols then op.blocks.toNat / (2 * o.g) else op.blocks.toNat
  let bad := (s.core c).badFills (32 * op.src.toNat) (pages * o.pageBytes)
  match bad.find? fun f => !metBefore (s.eng g).parity f.object f.tile with
  | some f =>
    let s := (s.count Ct.OBJ_REFETCHES 1).modEng g fun y =>
      { y with parity := y.parity ++ [⟨f.object, f.tile, s.tick.toNat⟩], run := some ⟨op, o, p.seg.isSome, ⟨0, 0, ⟨0, 0, false⟩, none, none, 0, none, 0, 0, []⟩⟩ }
    let s := s.when p.seg.isNone fun s => s.modCore c fun y => { y with held := addOnce y.held e.val }
    (s.holdRun g ⟨.parity, f.object, f.tile, 64 * f.unit, f.units, none, s.tileTiers c f.tileAt⟩, false)
  | none =>
    let w := s.waitDecode g fun _ => false
    let s := w.2.each bad fun s f => s.withholdSess f.object
    let s := s.when ((s.core c).badOther (32 * op.src.toNat) (pages * o.pageBytes)) fun s => s.actParity c
    let s := s.consume c (runActs o op)
    let start : TileRun := { bank := start, used := (s.eng g).weights, walk := { addr := 0, pos := ⟨0, 0, false⟩, stalls := w.1 } }
    let t := start.stream (s.core c) o [] op.actChunk.toNat (loadCycles o.cacheFmt)
      ((List.range op.blocks.toNat).map fun n => some (cacheBlock s c o op n))
    let s := (s.putRun c e p t).modEng g fun y => { y with run := none }
    let s := s.modCore c fun y => { y with held := y.held.filter (· != e.val) }
    (s.runCost g t.walk, true)

/-- A RUN begins: its rules are checked, and its accumulation starts or goes on (R100, R109, R111, R176, R185). -/
def runBegin (c : CoreId) (e : EngId) (o : SetupOp) (op : RunOp) (p : Prog) (s : State) : RunOut :=
  let g := engOf c e
  let x := s.eng g
  if runBad x o op then (s.engCmdErr g p, true)
  else
    let start := { s.bankRun g with
      bank := if op.accumulate then x.bank else []
      comp := if op.accumulate then s.fld (Fld.ENG_STATUS_COMP_BANK g) == 1 else s.startComp g (some o) }
    if o.tileMode then
      let w := s.waitDecode g fun d => d.addr == 32 * op.src.toNat && d.block == op.blockOfs.toNat && d.cont
      let pos : ScalePos := if op.scaleCont then x.scalePos.getD ⟨0, 0, false⟩ else ⟨128 * o.scaleBase.toNat, 0, false⟩
      let s := w.2.consume c (runActs o op)
      runOn c e p ⟨op, o, p.seg.isSome, { addr := 32 * op.src.toNat, pos, stalls := w.1 }⟩ start s
    else runCache c e o op p start s

/-- RUN (R109): one accumulation pass. It holds its queue while its tile is refetched or poisoned, and then goes on from where it stood. -/
def runRun (c : CoreId) (e : EngId) (op : RunOp) (p : Prog) (s : State) : RunOut :=
  let x := s.eng (engOf c e)
  if x.hold.isSome then (s, false)
  else match x.run.filter fun r => r.op == op with
    | some r => if r.setup.tileMode then runOn c e p r (s.bankRun (engOf c e)) s else runBegin c e r.setup op p s
    | none => match x.setup with
      | none => (s.engCmdErr (engOf c e) p, true)
      | some o => runBegin c e o op p s

/-! ### READOUT, READRAW, MERGE -/

/-- Largest shift among the entries of the first `t` rows. -/
def maxShift (b : Bank) (t : Nat) : Nat := (b.filter fun p => decide (p.1 < 32 * t)).foldl (fun m p => Nat.max m p.2.h.toNat) 0

/-- READOUT (R103 to R105): 32 column records, one rounding, A16 results. -/
def runReadout (c : CoreId) (e : EngId) (op : ReadoutOp) (p : Prog) (s : State) : RunOut :=
  let g := engOf c e
  let x := s.eng g
  match x.setup with
  | none => (s.engCmdErr g p, true)
  | some o =>
    let cb := 64 * op.colrec.toNat
    let db := 64 * op.dest.toNat
    if cb + 256 > bufBytes ∨ db + 64 * o.t > bufBytes ∨ o.panel 0 + 64 > bufBytes then (s.engCmdErr g p, true)
    else
      let s := s.consume c ((cb, 256) :: if o.a16 then [] else [(o.panel 0, 64)])
      let m := (s.core c).buf
      let comp := s.fld (Fld.ENG_STATUS_COMP_BANK g) == 1
      let val := fun t j =>
        let d := BitVec.ofNat 16 (m.rdLe (o.panel 0 + 2 * t) 2)
        let z := if o.tileMode then sx 8 (bvGet 0 8 d) else 0
        let tau := if o.a16 then 0 else bvGet 8 4 d
        let rec8 := BitVec.ofNat 64 (m.rdLe (cb + 8 * j) 8)
        let v := correctedD o.a16 (x.bank.at (32 * t + j)).value z (sx 40 (bvGet 0 40 rec8))
        readoutX v ((bvGet 40 6 rec8 : Int) + op.f.val - tau - op.fOut.val)
      let outs := (List.range o.t).flatMap fun t => (List.range 32).map fun j => (t, val t j)
      let bytes := outs.flatMap fun r => leBytes 2 (toCode 16 (satW 16 r.2))
      let s := s.modCore c fun y => y.put db bytes
      let s := s.maxRc (Fld.ENG_MAX_SHIFT_MAX g) (maxShift x.bank o.t)
      let s := s.guardRec c e.val p
        { src := .readout, rows := (outs.filter fun r => outW 16 r.2).map Prod.fst, vals := outs.map fun r => satW 16 r.2 }
      (s.busy g (12 + (if comp then 2 else 1) * o.t), true)

/-- READRAW (R106). -/
def runReadraw (c : CoreId) (e : EngId) (op : RawOp) (p : Prog) (s : State) : RunOut :=
  let g := engOf c e
  let x := s.eng g
  match x.setup with
  | none => (s.engCmdErr g p, true)
  | some o =>
    let db := 64 * op.addr.toNat
    if db + 256 * o.t > bufBytes then (s.engCmdErr g p, true)
    else
      let comp := s.fld (Fld.ENG_STATUS_COMP_BANK g) == 1
      let bytes := (List.range (32 * o.t)).flatMap fun k => leBytes 8 ((x.bank.at k).raw comp)
      let s := s.modCore c fun y => y.put db bytes
      let s := s.maxRc (Fld.ENG_MAX_SHIFT_MAX g) (maxShift x.bank o.t)
      (s.busy g (8 + 2 * o.t), true)

/-- MERGE (R106): one signed 48-bit addend to each entry. -/
def runMerge (c : CoreId) (e : EngId) (op : RawOp) (p : Prog) (s : State) : RunOut :=
  let g := engOf c e
  let x := s.eng g
  match x.setup with
  | none => (s.engCmdErr g p, true)
  | some o =>
    let sb := 64 * op.addr.toNat
    if sb + 256 * o.t > bufBytes then (s.engCmdErr g p, true)
    else
      let s := s.consume c [(sb, 256 * o.t)]
      let m := (s.core c).buf
      let r := (List.range o.t).foldl (fun r t => BankRun.addRow r t fun j => sx 48 (m.rdLe (sb + 8 * (32 * t + j)) 6)) (s.bankRun g)
      let comp := s.fld (Fld.ENG_STATUS_COMP_BANK g) == 1
      let s := s.putBank c e p r
      (s.busy g (8 + (if comp then 4 else 2) * o.t), true)

/-! ### The commands at the head of queue e -/

/-- SETUP at the head of queue e (R107, R108). -/
def execSetup (c : CoreId) (e : EngId) (o : SetupOp) (s : State) : Host.Outcome State Fault Refusal :=
  .next (s.issue c e.val (.setup c e o) (runSetup c e o))

/-- RUN at the head of queue e (R109). -/
def execRun (c : CoreId) (e : EngId) (o : RunOp) (s : State) : Host.Outcome State Fault Refusal :=
  .next (s.issueAct c e.val (.run c e o) (runRun c e o))

/-- READOUT at the head of queue e (R104). -/
def execReadout (c : CoreId) (e : EngId) (o : ReadoutOp) (s : State) : Host.Outcome State Fault Refusal :=
  .next (s.issueAct c e.val (.readout c e o) (runReadout c e o))

/-- READRAW at the head of queue e (R106). -/
def execReadraw (c : CoreId) (e : EngId) (o : RawOp) (s : State) : Host.Outcome State Fault Refusal :=
  .next (s.issue c e.val (.readraw c e o) (runReadraw c e o))

/-- MERGE at the head of queue e (R106). -/
def execMerge (c : CoreId) (e : EngId) (o : RawOp) (s : State) : Host.Outcome State Fault Refusal :=
  .next (s.issueAct c e.val (.merge c e o) (runMerge c e o))

end Sys2Proof.Machine
end

