-- ==== Sys2Proof/Machine/Fetch.lean ====
section
/-! DEFINITION. Fetches (R48, R233, R238, R242), the arrival of their data, the check of a decoded tile and the refetch of a held one
(R186, R245, R249). -/

namespace Sys2Proof.Machine

/-! ### FETCH -/

/-- Bytes of the destination: core buffer or cluster cache, in 4 KiB units (R48). -/
def destUnits (toCache : Bool) : Nat := if toCache then 1024 else 512

/-- The tiles of a run from `t` whose units add up to exactly `n`: each with its units and stored size. None where they do not (R48). -/
def State.runTilesOf (s : State) (x : Obj) : Nat → Nat → Nat → Option (List (Nat × Nat × Nat))
  | 0, _, _ => none
  | fuel + 1, t, n =>
    if n = 0 then some []
    else if x.size ≤ t then none
    else
      let stored := s.storedSize x t
      let u := ceilDiv stored 4096
      if n < u then none else (s.runTilesOf x fuel (t + 1) (n - u)).map fun l => (t, u, stored) :: l

/-- The header of a weight tile at its home, where it can be seen. -/
def State.peekHeader (s : State) (x : Obj) (t : Nat) (e : DirEnt) : Option TileHdr :=
  match e.home with
  | .stack => some (TileHdr.read s.mem (frameSpa e.frame))
  | .origin =>
    match s.onyxObj x.origin.toNat with
    | none => none
    | some o => ((o.tiles[t]?).bind fun p => s.readSector x.origin.toNat o.base p.1).map fun bs => TileHdr.read (Mem.ofBytes (bs.take 64)) 0
  | _ => none

/-- The table that the tile's coded copy refers to (R179). -/
def State.tableOf (s : State) (x : Obj) (t : Nat) (e : DirEnt) : Option Nat :=
  if x.kind ≠ .weights then none
  else match s.peekHeader x t e with
    | some h => if h.coded && !h.scale then some h.table else none
    | none => none

/-- A RESIDENT tile outside the stacks is placed, or read transiently from `src` (R233, R238). A placement that waits for the eviction of a
writable tile waits on the HOST tier too (R237, R242). -/
def State.placeOrRead (s : State) (o t die : Nat) (src : Source) (tiers : List Tier) : (Source × List Tier) × State :=
  match s.placeTile o t die with
  | (some waits, s) => ((.placed, if waits then addOnce tiers .host else tiers), s)
  | (none, s) => ((src, tiers), s.count Ct.OBJ_TRANSIENT_READS 1)

/-- Where the data of tile `t` comes from for a fetch of core `c` (R230, R233, R247). -/
def State.sourceOf (s : State) (c o : Nat) (x : Obj) (t : Nat) : (Source × List Tier × Bool) × State :=
  let s := s.lookup o x t
  let e := s.dirEnt o x t
  let replaced := (NMap.find s.place.replaceT (tileKey o t)).isSome
  let place := fun (src : Source) (tiers : List Tier) =>
    let r := s.placeOrRead o t (x.dieFor t) src tiers
    ((r.1.1, r.1.2, e.poisoned), r.2)
  if x.state = .quarantined then ((.subst, [], false), s)
  else match e.home with
    | .stack => ((.frame e.frame, farTier (dieOf c) e.frame, e.poisoned), s)
    | .host =>
      if x.policy = .resident ∧ !e.moving then place (.page e.page) [.host] else ((.page e.page, [.host], e.poisoned), s)
    | .origin =>
      if x.policy = .resident ∧ !e.moving ∧ !replaced then place .origin [.flash]
      else ((.origin, [.flash], e.poisoned), s.when replaced fun s => s.count Ct.OBJ_TRANSIENT_READS 1)
    | .none => if x.policy = .resident ∧ !e.moving then place .zeros [] else ((.zeros, [], false), s)

/-- FETCH at the head of Q5 (R48, R50, R234): checked; it draws its UNITS of credits; it holds its queue until its data has arrived (log
entry 19). -/
def runFetch (c : CoreId) (f : FetchOp) (inSeg : Option Bool) (p : Prog) (s : State) : RunOut :=
  if (NMap.find s.fetches c.val).isSome then (s, false)
  else
    let o := f.object.toNat
    let part := s.partOf c
    if f.units.val = 0 ∨ destUnits f.toCache < f.slot.val + f.units.val then (s.fetchError c p, true)
    else match s.obj o with
    | none => (s.fetchError c p, true)
    | some x =>
      if !(x.live && x.belongs part) then (s.fetchError c p, true)
      else match s.runTilesOf x 64 f.tile.toNat f.units.val with
      | none => (s.fetchError c p, true)
      | some run =>
        match s.draw c 5 (credFld c f.credit) f.units.val with
        | none => (s, false)
        | some s =>
          let s := (s.useObj o).modObj o fun y => { y with firstDie := some (y.firstDie.getD (dieOf c)) }
          let x := (s.obj o).getD x
          let r := run.foldl (fun (acc : List FetchTile × State) q =>
            let e := acc.2.dirEnt o x q.1
            let ref := acc.2.tableOf x q.1 e
            let src := acc.2.sourceOf c o x q.1
            let s := match ref with | some id => src.2.refTable id 1 | none => src.2
            (acc.1 ++ [⟨q.1, q.2.1, q.2.2, src.1.1, src.1.2.1, src.1.2.2, ref⟩], s)) ([], s)
          let q := r.2.fresh
          let s := { q.2 with fetches := NMap.ins q.2.fetches c.val ⟨f, p.idx, p.pid, inSeg, r.1, q.1⟩ }
          let s := s.when (inSeg == some false) fun s => s.modCore c fun y => { y with held := addOnce y.held 5 }
          (s.when (r.1.any fun q => q.tiers != []) fun s => s.count (Ct.OBJ_STALL_FETCHES part) 1, false)

/-- FETCH (R48). -/
def execFetch (c : CoreId) (f : FetchOp) (s : State) : Host.Outcome State Fault Refusal :=
  let inSeg := ((s.core c).head 5).map (·.2)
  .next (s.issue c 5 (.fetch c f) (runFetch c f inSeg)).actOnFault

/-! ### FETCH_DATA_ARRIVAL -/

/-- A tile as it arrives: its bytes, the 64 B units with poison, the whole copy's poison mark, and whether it is substituted. -/
structure Arrived where
  bytes  : List Byte
  bad    : List Nat
  poison : Bool
  sub    : Bool
  /-- the fetch has met an error of R248: code that is poisoned, or still marked so -/
  err    : Bool

/-- A substituted copy. -/
def Arrived.none : Arrived := ⟨[], [], false, true, false⟩

/-- Data read by core `c` from frame `f`, which held the tile when the fetch looked it up (R43, R230, R245, R248, R250). -/
def State.arriveFrame (s : State) (c o : Nat) (x : Obj) (q : FetchTile) (f : Nat) : Arrived × State :=
  if s.frameN ≤ frameFl f then (⟨[], List.range (64 * q.units), true, false, x.kind == .code⟩, s.badFrame o x q.tile f)
  else
    let r := s.readFrame (some (s.partOf c)) f q.stored
    let bad := !r.1.2.isEmpty
    let poison := bad || q.poison
    let s := r.2.when bad fun s => s.poisonTile o q.tile
    let s := s.when (poison && x.kind == .weights) fun s => s.startWait o q.tile
    let s := s.when (poison && !bad && x.kind == .work) fun s => s.withholdParts [x.part]
    (⟨r.1.1, r.1.2, poison, false, poison && x.kind == .code⟩, s)

/-- The data of one tile of a fetch (R242, R244). -/
def State.arriveTile (s : State) (c o : Nat) (x : Obj) (q : FetchTile) : Arrived × State :=
  let host := fun (s : State) (pg : Nat) =>
    if s.pageOk pg then (⟨s.host.rdBlk (s.pageAddr pg) q.stored, [], q.poison, false, q.poison && x.kind == .code⟩, s)
    else (Arrived.none, s.failTile o q.tile 0)
  let origin := fun (s : State) =>
    match s.originTile x.origin.toNat q.tile with
    | (some bs, s) => (⟨bs, [], q.poison, false, false⟩, s)
    | (none, s) => (Arrived.none, s.failTile o q.tile 1)
  match q.src with
  | .frame f => s.arriveFrame c o x q f
  | .page pg => host s pg
  | .origin => origin s
  | .zeros => (⟨List.replicate q.stored 0#8, [], false, false, false⟩, s)
  | .subst => (Arrived.none, s)
  | .placed =>
    let e := s.dirEnt o x q.tile
    match e.home with
    | .stack => s.arriveFrame c o x q e.frame
    | .host => host s e.page
    | .origin => origin s
    | .none => (⟨List.replicate q.stored 0#8, [], false, false, false⟩, s)

/-- Kind of a copy for R186 and R249. -/
def fillKind (x : Obj) : FillKind := match x.kind with | .weights => .weight | .cache => .cache | _ => .other

/-- FORMAT and GROUP of a copy's object. -/
def State.fillFmt (s : State) (x : Obj) : Nat × Nat :=
  match s.onyxObj x.origin.toNat with
  | some y => if x.kind = .weights then (y.fmt, y.group) else (0, 0)
  | none => (0, 0)

/-- A copy put into the core buffer of `c` at 4 KiB unit `slot` (R48): units with poison carry bad parity. A table reference of a copy that is
overwritten returns when the step ends (R179). -/
def State.fillBuffer (s : State) (c o : Nat) (x : Obj) (q : FetchTile) (slot : Nat) (a : Arrived) : State :=
  let u := 64 * slot
  let n := 64 * q.units
  let fg := s.fillFmt x
  let lost := (s.core c).fills.filter fun f => !(decide (f.unit + f.units ≤ u) || decide (u + n ≤ f.unit))
  let s := s.modPlace fun p => { p with heldRefs := p.heldRefs ++ lost.filterMap fun f => f.ref }
  s.modCore c fun y =>
    let out := fun (w : Nat) => decide (w < u) || decide (u + n ≤ w)
    { y with
      buf := y.buf.wrBlk (4096 * slot) a.bytes
      bufBad := y.bufBad.filter out ++ (a.bad.filter fun i => decide (i < n)).map (· + u)
      fills := (y.fills.filter fun f => decide (f.unit + f.units ≤ u) || decide (u + n ≤ f.unit)) ++
        [⟨u, n, o, q.tile, fillKind x, fg.1, fg.2, a.poison, a.sub, [], q.ref⟩] }

/-- A copy put into cluster cache `k` (R217, R219): a poisoned or substituted copy leaves its units with poison set. -/
def State.fillCache (s : State) (k : Nat) (q : FetchTile) (slot : Nat) (a : Arrived) : State :=
  let u := 64 * slot
  let n := 64 * q.units
  let all := a.poison || a.sub
  let s := s.modCluster k fun y =>
    { y with
      cache := y.cache.wrBlk (4096 * slot) a.bytes
      cacheBad := (y.cacheBad.filter fun w => decide (w < u) || decide (u + n ≤ w)) ++
        (if all then List.range n else a.bad.filter fun i => decide (i < n)).map (· + u) }
  let s := s.count (Ct.CLC_CC_OPS k) n
  let s := s.when all fun s => (s.count (Ct.CLC_CC_PARITY k) 1).jasper .ccParity k u 15
  match q.ref with
  | some id => s.modPlace fun p => { p with heldRefs := p.heldRefs ++ [id] }
  | none => s

/-- The paths that a tile's units take (R18, R19, R444). -/
def State.fetchPath (s : State) (c o : Nat) (x : Obj) (q : FetchTile) : State :=
  match q.src with
  | .frame f => s.nearPath (dieOf c) f q.units
  | .page _ | .origin => s.ioPath (dieOf c) q.units
  | .placed => s.homePath (dieOf c) (s.dirEnt o x q.tile) q.units
  | _ => s

/-- One tile delivered to its destination. Every session of the object's partitions counts as consuming a substituted tile, of a CACHE object
too, on which R247 is silent (DESIGN CHOICE, log entry 81). -/
def State.deliver (s : State) (c : Nat) (r : FetchRun) (x : Obj) (q : FetchTile) (slot : Nat) : Bool × State :=
  let o := r.op.object.toNat
  let a := s.arriveTile c o x q
  let s := a.2.fetchPath c o x q
  let s := s.when (a.1.sub && !r.op.toCache) fun s =>
    let s := (s.count Ct.OBJ_SUBSTITUTIONS 1).jasper .tileSubstituted x.part o q.tile
    (s.withholdParts x.parts).tellWithheld x.parts o q.tile
  let s := s.when (a.1.sub && r.op.toCache) fun s => (s.withholdParts x.parts).tellWithheld x.parts o q.tile
  (a.1.err, if r.op.toCache then s.fillCache (clusterOf c) q slot a.1 else s.fillBuffer c o x q slot a.1)

/-- Units of the destination whose bytes arrive with bad parity (R219, R249): 64 B units from its start. -/
def State.arriveParity (s : State) (c : Nat) (op : FetchOp) (bad : List Nat) : State :=
  let us := (bad.filter fun i => decide (i < 64 * op.units.val)).map (· + 64 * op.slot.val)
  if op.toCache then s.modCluster (clusterOf c) fun y => { y with cacheBad := y.cacheBad ++ us.filter fun u => !y.cacheBad.contains u }
  else s.modCore c fun y => { y with bufBad := y.bufBad ++ us.filter fun u => !y.bufBad.contains u }

/-- FETCH_DATA_ARRIVAL: the data of the core's fetch has arrived, the fetch completes and leaves its queue. Nothing while no fetch is in
flight, while a placement it waits on has not switched (R230, R233), or while its reads of flash have not their turn (R281). `bad` lists units that arrive with bad parity. -/
def execFetchDataArrival (c : CoreId) (bad : List (BitVec 12)) (s : State) : Host.Outcome State Fault Refusal :=
  .next (State.actOnFault <| match NMap.find s.fetches c.val with
    | none => s
    | some r =>
      let o := r.op.object.toNat
      match s.obj o with
      | none => s
      | some x =>
        if (r.tiles.any fun q => q.src == .placed && (NMap.find s.place.moves (tileKey o q.tile)).isSome) ∨ !s.fetchTurn r then s
        else
          let s := { s with fetches := NMap.del s.fetches c.val }
          let d := r.tiles.foldl (fun (acc : Nat × Bool × State) q =>
            let e := acc.2.2.deliver c r ((acc.2.2.obj o).getD x) q acc.1
            (acc.1 + q.units, acc.2.1 || e.1, e.2)) (r.op.slot.val, false, s)
          let s := d.2.2.arriveParity c r.op (bad.map BitVec.toNat)
          let s := (s.count (Ct.CLC_FETCHES (clusterOf c)) 1).count (Ct.CLC_FETCH_UNITS (clusterOf c)) r.op.units.val
          let s := (s.modCore c fun y => { y with held := y.held.filter (· != 5) }).complete c 5 r.inSeg
          (if d.2.1 then s.fetchError c ⟨r.prog, r.pid, none⟩ else s).settleDeletes)

/-! ### Decoded tiles -/

/-- The reference of the fetched copy at `a` returns once (R179). -/
def State.returnRef (s : State) (c a : Nat) : State :=
  match (s.core c).fills.find? fun f => 64 * f.unit == a with
  | some f => match f.ref with
    | some id => (s.modCore c fun x => { x with fills := mapWhere (fun g => 64 * g.unit == a) (fun g => { g with ref := none }) x.fills }).unrefTable id 1
    | none => s
  | none => s

/-- TILE_SUM_CHECK: the last symbol of the oldest tile that engine e has started is decoded (R185, R186). A sum that differs from
SYMBOL_SUM abandons the step and discards the copy; a second one on the tile within 16 steps reports it poisoned. -/
def execTileSumCheck (c : CoreId) (e : EngId) (s : State) : Host.Outcome State Fault Refusal :=
  let g := engOf c e
  .next (match (s.eng g).sums with
    | [] => s
    | k :: rest =>
      let s := s.modEng g fun x =>
        { x with sums := rest, dec := match x.dec with | some d => if d.object = k.object ∧ d.tile = k.tile then none else x.dec | none => none }
      let s := s.when rest.isEmpty fun s => s.setFld (Fld.EXP_STATUS_DECODING g) 0
      let s := s.returnRef c k.addr
      if k.ok then s
      else
        let tick := s.tick.toNat
        let s := (s.raise (Fld.EXP_STATUS_SUM_ERROR g)).count (Ct.EXP_SUM_ERRORS g) 1
        let s := s.jasper .sumError g k.object k.tile
        let again := (s.eng g).badSums.any fun f => f.object == k.object && f.tile == k.tile && decide ((tick + 2 ^ 32 - f.tick) % 2 ^ 32 ≤ 16)
        let s := s.modEng g fun x =>
          { x with badSums := (x.badSums.filter fun f => decide ((tick + 2 ^ 32 - f.tick) % 2 ^ 32 ≤ 16)) ++ [⟨k.object, k.tile, tick⟩] }
        let s := s.modCore c fun x => { x with fills := x.fills.filter fun f => !(64 * f.unit == k.addr) }
        let s := s.when again fun s => s.poisonTile k.object k.tile
        s.abandonStep false)

/-- Engine `g` takes what its refetch brought: the tile, and its scale tile where both were refetched. The decode restarts at the tile's start;
where a weight tile or a scale tile has come poisoned the port is held on that tile under R245, and a CACHE tile that has come so withholds its
session's token (R186, R249). -/
def State.endHold (s : State) (g : Nat) (h : Hold) (tile scale : Refetched) : State :=
  let c := g / 4
  let cache := (s.core c).fills.any fun f => 64 * f.unit == h.addr && f.kind == .cache
  let r := s.refetchPut c h.object h.tile h.addr tile
  let q := match h.scale with
    | some (o, t, a) => r.2.refetchPut c o t a scale
    | none => (true, r.2)
  let wait : Option Hold :=
    if !r.1 then (if cache then none else some { h with why := .poison, scale := none, tiers := [.flash] })
    else if !q.1 then h.scale.map fun k => { h with why := .poison, object := k.1, tile := k.2.1, addr := k.2.2, scale := none, tiers := [.flash] }
    else none
  let s := q.2.modEng g fun x => { x with dec := none, sums := x.sums.filter (·.addr != h.addr), hold := wait }
  let s := s.when (!r.1 && cache) fun s => s.withholdSess h.object
  match wait with
  | some k => s.startWait k.object k.tile
  | none => s

/-- A tile that a refetch has brought to another core also takes its way to that core's die (R18, R187). -/
def State.alsoTo (s : State) (g o t : Nat) (r : Refetched) : State :=
  match s.obj o, r with
  | some x, .data bs _ _ => s.homePath (dieOf (g / 4)) (s.dirEnt o x t) (ceilDiv bs.length 4096)
  | _, _ => s

/-- Another engine's hold that the same refetch serves (R187). -/
def Hold.mergesWith (h k : Hold) : Bool :=
  k.why != .poison && k.object == h.object && k.tile == h.tile &&
    (k.scale.isNone || k.scale.map (fun q => (q.1, q.2.1)) == h.scale.map fun q => (q.1, q.2.1))

/-- TILE_REFETCH_COMPLETE: the refetch of the tile that holds the port of engine e, with its scale tile after a skew, has completed; the
decode restarts (R186). The homes are read once for every engine that holds on the same tile (R187). -/
def execTileRefetchComplete (c : CoreId) (e : EngId) (s : State) : Host.Outcome State Fault Refusal :=
  .next (State.actOnFault <| match (s.eng (engOf c e)).hold with
    | none => s
    | some h =>
      if h.why = .poison then s
      else
        let r := s.refetchRead c h.object h.tile
        let q := match h.scale with
          | some (o, t, _) => r.2.refetchRead c o t
          | none => (.gone, r.2)
        q.2.each s.engs fun s p => match p.2.hold with
          | some k => s.when (h.mergesWith k) fun s =>
            let s := s.when (p.1 / 4 != c.val) fun s =>
              let s := s.alsoTo p.1 k.object k.tile r.1
              match k.scale with
              | some (o, t, _) => s.alsoTo p.1 o t q.1
              | none => s
            s.endHold p.1 k r.1 q.1
          | none => s)

end Sys2Proof.Machine
end

