-- ==== Sys2Proof/Machine/Placement.lean ====
section
/-! DEFINITION. The tile movers' commands, background eviction, poisoned tiles and their refetch, and BAR2 accesses (R230 to R251, R331,
R353, R447, R448). -/

namespace Sys2Proof.Machine

/-! ### Placement commands in progress (R241) -/

/-- Moves and refetches that the movers of die `m` carry or are to carry. -/
def State.movesOn (s : State) (m : Nat) : Nat :=
  (s.place.moves.filter fun p => p.2.die == m).length + (s.place.refetches.filter fun p => p.2.die == m).length

/-- The job is done with its tiles, and nothing of its object moves; of SHRINK_HOST_PAGES, no page is left that is to go (R354). -/
def State.jobOver (s : State) (j : Job) : Bool :=
  !(j.shrink.any fun x => s.place.pages.any fun pg => pagePart pg == x.1 && decide (x.2 ≤ pageIdx pg)) &&
  match s.obj j.object with
  | none => true
  | some x => decide (x.size ≤ j.next) && j.later.isEmpty && !(s.place.moves.any fun p => p.1 / 2 ^ 22 == j.object && !p.2.evict)

/-- Jobs that are over leave; a command whose jobs are all over completes (R338, R339), and SHRINK_HOST_PAGES lowers HPT_COUNT (R354). -/
def State.settleJobs (s : State) : State :=
  let gone := s.place.jobs.filter s.jobOver
  let left := s.place.jobs.filter fun j => !s.jobOver j
  let s := s.modPlace fun p => { p with jobs := left }
  let done := (gone.filterMap fun j => j.done.map fun c => (c, j.shrink)).eraseDups
  s.each done fun s d =>
    if left.any fun j => j.done == some d.1 then s
    else
      let s := match d.2 with
        | some (p, n) => (s.forceFld (Fld.PARTN_HPT_COUNT_COUNT p) n).recountPages
        | none => s
      s.completeCmd d.1 .success 0

/-- The move of tile `t` for job `j`, where one is needed: whether the job may go on, and the state. A move with no end in the stacks takes the
movers of die 0, on which R240 is silent: DESIGN CHOICE, log entry 81. -/
def State.jobTile (s : State) (j : Job) (x : Obj) (t : Nat) : Bool × State :=
  let e := s.dirEnt j.object x t
  let toPage := fun (s : State) (die : Nat) (low : Nat → Bool) =>
    match (s.freePages x.part).filter low with
    | [] => (j.shrink.isNone, s)
    | l =>
      let (tag, s) := s.fresh
      let pg := l.getD (Config.pick tag % l.length) 0
      let s := (s.modPlace fun p => { p with pages := p.pages ++ [pg] }).recountPages
      (true, s.startMove j.object t (.page pg) die false)
  let toDie := fun (s : State) (m : Nat) =>
    match s.roomAmong j.object t (if s.quota then some x.part else none) [m, (m + 1) % 4, (m + 2) % 4, (m + 3) % 4] with
    | (.full, s) => (true, s)
    | (.frame f, s) => (true, s.startMove j.object t (.frame f) (frameDie f) false)
    | (.wait f, s) => (true, s.startMove j.object t (.frame f) (frameDie f) false)
  let die := x.dieFor t
  match j.shrink with
    | some (_, n) =>
      if e.home = .host ∧ n ≤ pageIdx e.page then
        if s.movesOn 0 < 8 then toPage s 0 (fun pg => decide (pageIdx pg < n)) else (false, s)
      else (true, s)
    | none =>
      match j.target, e.home with
      | .pinned, .stack | .resident, .stack =>
        if x.placeDie < 5 ∧ frameDie e.frame ≠ die ∧ 0 < s.freeCount die then
          if s.movesOn die < 8 then
            match s.takeFrame die (.tile j.object t) with
            | some (f, s) => (true, s.startMove j.object t (.frame f) die false)
            | none => (true, s)
          else (false, s)
        else (true, s)
      | .pinned, _ => if s.movesOn die < 8 then toDie s die else (false, s)
      | .host, .stack => if s.movesOn (frameDie e.frame) < 8 then toPage s (frameDie e.frame) (fun _ => true) else (false, s)
      | .stream, .stack => (true, s.toOrigin j.object t)
      | _, _ => (true, s)

/-- A tile in turn for job `j` (R241): one that moves is left for later, whichever command or eviction moves it. -/
def State.tryTile (s : State) (j : Job) (x : Obj) (t : Nat) : Option Job × State :=
  if (s.dirEnt j.object x t).moving then (some { j with later := j.later ++ [t] }, s)
  else
    let r := s.jobTile j x t
    (if r.1 then some j else none, r.2)

/-- A job's tiles in index order, as far as the movers are free; `n` bounds them. -/
def State.runJob (s : State) (j : Job) : Nat → Job × State
  | 0 => (j, s)
  | n + 1 =>
    match s.obj j.object with
    | none => (j, s)
    | some x =>
      if x.size ≤ j.next then (j, s)
      else match s.tryTile j x j.next with
        | (some j, s) => s.runJob { j with next := j.next + 1 } n
        | (none, s) => (j, s)

/-- The tiles that a job left for later are looked at again. -/
def State.runLater (s : State) (j : Job) : Job × State :=
  match s.obj j.object with
  | none => (j, s)
  | some x => j.later.foldl (fun (acc : Job × State) t =>
      match acc.2.tryTile acc.1 x t with
      | (some k, s) => (k, s)
      | (none, s) => ({ acc.1 with later := acc.1.later ++ [t] }, s)) ({ j with later := [] }, s)

/-- Every job goes on (R241). -/
def State.advanceJobs (s : State) : State :=
  let r := s.place.jobs.foldl (fun (acc : List Job × State) j =>
    let l := acc.2.runLater j
    let size := match l.2.obj j.object with | some x => x.size | none => 0
    let q := l.2.runJob l.1 (size + 1 - j.next)
    (acc.1 ++ [q.1], q.2)) ([], s)
  (r.2.modPlace fun p => { p with jobs := r.1 }).settleJobs

/-- A placement command begins its moves; the moves still to be started for the object are replaced, and their command ends with ABORTED
(R241). -/
def State.startJob (s : State) (j : Job) : State :=
  let old := s.place.jobs.filter fun k => k.object == j.object && k.shrink == none && j.shrink == none
  let s := s.modPlace fun p => { p with jobs := (p.jobs.filter fun k => !old.contains k) ++ [j] }
  let s := s.each old fun s k => match k.done with | some c => s.completeCmd c .aborted 0 | none => s
  s.advanceJobs

/-! ### The movers -/

/-- 4 KiB units of a tile. -/
def tileUnits (bs : List Byte) : Nat := ceilDiv bs.length 4096

/-- A move's paths between dies and the I/O die (R19, R444). -/
def State.movePath (s : State) (from_ : DirEnt) (dest : Dest) (n : Nat) : State :=
  let inn := fun (s : State) (m : Nat) => s.count (Ct.MDC_IOD_IN_UNITS m) n
  let out := fun (s : State) (m : Nat) => s.count (Ct.MDC_IOD_OUT_UNITS m) n
  match from_.home, dest with
  | .stack, .frame f => if frameDie from_.frame = frameDie f then s else inn (out s (frameDie from_.frame)) (frameDie f)
  | .stack, _ => out s (frameDie from_.frame)
  | .host, .frame f => inn s (frameDie f)
  | .origin, .frame f => inn s (frameDie f)
  | _, _ => s

/-- The destination of a move cannot be written: its host page is no longer registered (R251, R353). -/
def State.destFails (s : State) (d : Dest) : Bool := match d with | .page p => !s.pageOk p | _ => false

/-- Bytes that come from the I/O die to the home `e` of a tile: units of its path where that is a frame (R19, R444). -/
def State.intoStack (s : State) (e : DirEnt) (bs : List Byte) : State :=
  s.when (e.home == .stack) fun s => s.count (Ct.MDC_IOD_IN_UNITS (frameDie e.frame)) (tileUnits bs)

/-- The switch (R230): the directory entry names the new home, writes held are applied there, and the source awaits its last reads. A
poisoned writable tile stays so until it has been written whole (R248). -/
def State.switchTo (s : State) (o : Nat) (x : Obj) (t : Nat) (m : Move) (bs : List Byte) : State :=
  let e := s.dirEnt o x t
  let s := match m.dest with
    | .frame f => s.writeFrame (some x.part) f bs
    | .page p => s.hostWrite (s.pageAddr p) bs
    | .origin => s
  let s := (s.count (Ct.MOV_BYTES_MOVED m.die) bs.length).movePath e m.dest (tileUnits bs)
  let new : DirEnt := match m.dest with
    | .frame f => { home := .stack, poisoned := e.poisoned, frame := f }
    | .page p => { home := .host, poisoned := e.poisoned, page := p }
    | .origin => { home := .origin }
  let s := (s.setDir o t new).count Ct.OBJ_MOVES 1
  let s := match m.dest with | .frame f => s.count (Ct.MOV_TILES_IN (frameDie f)) 1 | _ => s
  let s := match e.home with
    | .stack => (s.count (Ct.MOV_TILES_OUT (frameDie e.frame)) 1).setFrame e.frame (some (.source o t))
    | .host => s.modPlace fun p => { p with oldPages := NMap.ins p.oldPages (tileKey o t) e.page }
    | _ => s
  let s := s.modPlace fun p => { p with moves := NMap.del p.moves (tileKey o t) }
  let s := s.each m.held fun s w => (s.writeHome o t w.1 new w.2).intoStack new w.2
  s.recountMovers m.die

/-- MOVE_SWITCH: the copy of a moving tile is complete and its entry is written (R230); a source that cannot be read, or a host page that
cannot be written, ends the move (R244, R251), and so does a refetch of the tile (R245). Nothing where the tile does not move, its destination
is still to be freed, no mover has taken it (R240), or its read of flash has not its turn (R281). -/
def execMoveSwitch (o : ObjId) (t : TileId) (s : State) : Host.Outcome State Fault Refusal :=
  let k := tileKey o.toNat t.toNat
  .next (State.actOnFault <| match NMap.find s.place.moves k, s.obj o.toNat with
    | some m, some x =>
      if !s.destReady o.toNat t.toNat m.dest ∨ !s.hasMover m.die m.seq then s
      else if (NMap.find s.place.refetches k).isSome then (s.abandonMove o.toNat t.toNat).advanceJobs
      else if s.destFails m.dest then (s.failTile o.toNat t.toNat 0).advanceJobs
      else if (s.dirEnt o.toNat x t.toNat).home = .origin ∧ !s.moveTurn o.toNat t.toNat m then s
      else match s.readHome (some x.part) o.toNat x t.toNat (s.dirEnt o.toNat x t.toNat) with
        | (.failed cause, s) => (s.failTile o.toNat t.toNat cause).advanceJobs
        | (.bytes bs bad, s) =>
          if bad = [] then (s.switchTo o.toNat x t.toNat m bs).advanceJobs
          else ((s.abandonMove o.toNat t.toNat).poisonTile o.toNat t.toNat).advanceJobs
    | _, _ => s)

/-- MOVE_SOURCE_FREE: every read of a move's source that began before the switch has finished, and the source is freed (R230). Nothing
while a fetch in flight still reads it. -/
def execMoveSourceFree (o : ObjId) (t : TileId) (s : State) : Host.Outcome State Fault Refusal :=
  let reading := fun (x : Source) => s.fetches.any fun p => p.2.tiles.any fun q => q.src == x
  let frames := (s.place.frames.filter fun p => p.2 == .source o.toNat t.toNat && !reading (.frame p.1)).map (·.1)
  let s1 := s.each frames fun s f => s.releaseFrame f
  let k := tileKey o.toNat t.toNat
  let s2 := match NMap.find s1.place.oldPages k with
    | some pg => if reading (.page pg) then s1 else (s1.modPlace fun p => { p with oldPages := NMap.del p.oldPages k }).freePage pg
    | none => s1
  .next s2.advanceJobs.actOnFault

/-- Evictions of die `m` under way whose frames will be free: no placement or refetch waits for them. -/
def State.coming (s : State) (m : Nat) : Nat :=
  (s.place.moves.filter fun p => p.2.evict && p.2.die == m && (match s.obj (p.1 / 2 ^ 22) with
    | some x =>
      let f := (s.dirEnt (p.1 / 2 ^ 22) x (p.1 % 2 ^ 22)).frame
      !(s.place.moves.any fun q => q.2.dest == .frame f) && !(s.place.refetches.any fun q => q.2.dest == some f)
    | none => false)).length

/-- Victims of die `m` leave until HIGH frames are free or on their way; `n` bounds them. -/
def State.evictDown (s : State) (m high : Nat) : Nat → State
  | 0 => s
  | n + 1 =>
    if high ≤ s.freeCount m + s.coming m then s
    else match s.victim m none with
      | some v => (s.evict v).evictDown m high n
      | none => s

/-- BACKGROUND_EVICTION: below WATERMARK.LOW free frames, and from then on until HIGH are free, victims of any partition leave (R237). -/
def execBackgroundEviction (m : DieId) (s : State) : Host.Outcome State Fault Refusal :=
  .next (State.actOnFault <| if s.freeCount m.val < s.inForce Fld.OBJ_WATERMARK_LOW ∨ s.place.draining.contains m.val then
      let s := s.modPlace fun p => { p with draining := addOnce p.draining m.val }
      s.evictDown m.val (s.inForce Fld.OBJ_WATERMARK_HIGH) (s.inForce Fld.OBJ_WATERMARK_HIGH + 1)
    else s)

/-! ### Poisoned tiles -/

/-- POISON_WAIT_EXPIRY: WAIT_US has passed since the step's first read of the poisoned tile, and its waiting consumers receive a
substituted tile (R245). Nothing where no consumer's wait has run out. -/
def execPoisonWaitExpiry (o : ObjId) (t : TileId) (s : State) : Host.Outcome State Fault Refusal :=
  let k := tileKey o.toNat t.toNat
  .next (State.actOnFault <| match NMap.find s.place.waits k with
    | some since =>
      if since + s.inForce Fld.OBJ_POISON_WAIT_WAIT_US ≤ s.now then
        (s.modPlace fun p => { p with waits := NMap.del p.waits k, expired := addOnce p.expired k }).substitute o.toNat t.toNat
      else s
    | none => s)

/-- Cores that wait on the poisoned tile (o, t): with a copy of it, or with a port that it holds. -/
def State.coresWaiting (s : State) (o t : Nat) : List Nat :=
  let cs := s.cores.filter fun (p : Nat × CoreSt) => p.2.fills.any fun f => f.object == o && f.tile == t && f.poison
  let gs := s.engs.filter fun (p : Nat × EngSt) => p.2.hold.any fun h => h.object == o && h.tile == t && h.why == .poison
  (cs.map (fun (p : Nat × CoreSt) => p.1) ++ gs.map fun (p : Nat × EngSt) => p.1 / 4).eraseDups

/-- Consumers that wait on the tile resume with the refetched copy, which each core reads from the tile's home (R18, R19, R245). -/
def State.resumeHeld (s : State) (o t : Nat) (bs : List Byte) : State :=
  let s := match s.obj o with
    | some x => s.each (s.coresWaiting o t) fun s c => s.homePath (dieOf c) (s.dirEnt o x t) (tileUnits bs)
    | none => s
  let fixFill := fun (f : Fill) => if f.object = o ∧ f.tile = t ∧ f.poison then { f with poison := false } else f
  let s := s.each s.cores fun s p => p.2.fills.foldl (fun s f =>
    if f.object = o ∧ f.tile = t ∧ f.poison then
      s.modCore p.1 fun x =>
        { x with buf := x.buf.wrBlk (64 * f.unit) bs
                 bufBad := x.bufBad.filter fun u => decide (u < f.unit) || decide (f.unit + f.units ≤ u)
                 fills := x.fills.map fixFill }
    else s) s
  let s := s.each s.engs fun s p => match p.2.hold with
    | some h => if h.object = o ∧ h.tile = t ∧ h.why = .poison then
        (s.modCore (p.1 / 4) fun x =>
          { x with buf := x.buf.wrBlk h.addr bs
                   bufBad := x.bufBad.filter fun u => decide (u < h.addr / 64) || decide (h.addr / 64 + ceilDiv bs.length 64 ≤ u) }).modEng p.1
          fun y => { y with hold := none }
      else s
    | none => s
  s.modPlace fun p => { p with waits := NMap.del p.waits (tileKey o t) }

/-- A frame leaves service for good (R245). -/
def State.retireFrame (s : State) (f : Nat) : State :=
  ((s.setFrame f (some .retired)).count Ct.OBJ_RETIRED_FRAMES 1).jasper .frameRetired (frameDie f) f 0

/-- A frame written with zeros and read back: it serves again when it reads back clean (R245). -/
def State.zeroFrame (s : State) (part : Option Nat) (f : Nat) : Option Nat × State :=
  let s := (s.writeFrame part f (List.replicate 65536 0#8)).count (Ct.MOV_BYTES_MOVED (frameDie f)) 65536
  let r := s.readFrame part f 65536
  if r.1.2 = [] then (some f, r.2) else (none, r.2)

/-- What the choice of a refetch's fresh frame comes to. -/
inductive Fresh
  | frame (f : Nat)
  /-- a writable victim has to leave, or a fetch in flight still reads the poisoned frame -/
  | wait
  | none

/-- The fresh frame of a refetch (R245): a free one of the die, that of a victim of any partition, or the poisoned frame itself when it reads
back clean. A frame that is being waited for is `r.dest`. -/
def State.freshFrame (s : State) (o t : Nat) (r : Refetch) : Fresh × State :=
  match r.dest with
  | some f => if NMap.find s.place.frames f = some (.tile o t) then (.frame f, s) else (.wait, s)
  | none =>
    match s.roomOn o t r.die none true with
    | (.frame f, s) => (.frame f, s)
    | (.wait f, s) => (.wait, s.modPlace fun p => { p with refetches := NMap.ins p.refetches (tileKey o t) { r with dest := some f } })
    | (.full, s) =>
      match r.old with
      | none => (.none, s)
      | some f =>
        if s.frameRead f then (.wait, s)
        else
          let q := s.zeroFrame ((s.obj o).map fun x => x.part) f
          (match q.1 with | some f => .frame f | none => .none, q.2)

/-- The refetched copy `bs` reaches frame `f`, the tile's new home (R245). -/
def State.refetchTo (s : State) (o t f : Nat) (r : Refetch) (bs : List Byte) : State :=
  let s := (s.writeFrame ((s.obj o).map fun x => x.part) f bs).count (Ct.MOV_BYTES_MOVED r.die) bs.length
  let s := (s.count (Ct.MDC_IOD_IN_UNITS r.die) (tileUnits bs)).count Ct.OBJ_MOVES 1
  let s := (s.count (Ct.MOV_TILES_IN (frameDie f)) 1).setDir o t { home := .stack, frame := f }
  match r.old with
  | some g => if g = f then s else (s.count (Ct.MOV_TILES_OUT (frameDie g)) 1).setFrame g (some (.readback o))
  | none => s

/-- No frame takes the refetched copy: the tile's home is its origin again, and it is placed as soon as a frame of its die is free (R245). -/
def State.refetchAway (s : State) (o t : Nat) (r : Refetch) : State :=
  let s := (s.setDir o t { home := .origin }).modPlace fun p => { p with replaceT := NMap.ins p.replaceT (tileKey o t) r.die }
  let s := s.count Ct.OBJ_TRANSIENT_READS 1
  match r.old with
  | some g => ((s.count Ct.OBJ_MOVES 1).count (Ct.MOV_TILES_OUT (frameDie g)) 1).retireFrame g
  | none => s

/-- The refetched copy reaches its new home, or the consumers alone, as for an object that is STREAM by now (R245). A frame that has ceased to
be the tile's home is none of its own. -/
def State.refetchDone (s : State) (o : Nat) (x : Obj) (t : Nat) (r : Refetch) (bs : List Byte) : State :=
  let e := s.dirEnt o x t
  let r := if e.home = .stack ∧ r.old = some e.frame then r else { r with old := none }
  if x.policy = .stream ∧ e.home ≠ .stack then ((s.endRefetch o t r.die).setDir o t { home := .origin }).resumeHeld o t bs
  else
    let q := s.freshFrame o t r
    match q.1 with
    | .wait => q.2
    | .frame f => ((q.2.endRefetch o t r.die).refetchTo o t f r bs).resumeHeld o t bs
    | .none => ((q.2.endRefetch o t r.die).refetchAway o t r).resumeHeld o t bs

/-- REFETCH_SWITCH: the refetch of a poisoned weight tile from its origin has arrived (R245); an origin that cannot be read quarantines the
object, and the waiting consumers are substituted. Nothing where no refetch of the tile is in progress or no mover has taken it (R240). -/
def execRefetchSwitch (o : ObjId) (t : TileId) (s : State) : Host.Outcome State Fault Refusal :=
  .next (State.actOnFault <| match NMap.find s.place.refetches (tileKey o.toNat t.toNat), s.obj o.toNat with
    | some r, some x =>
      if !s.hasMover r.die r.seq then s
      else match s.originTile x.origin.toNat t.toNat with
        | (some bs, s) => s.refetchDone o.toNat x t.toNat r bs
        | (none, s) => (s.failTile o.toNat t.toNat 1).substitute o.toNat t.toNat
    | _, _ => s)

/-- FRAME_READBACK: a poisoned frame, written whole, has been read back, as traffic of the partition of the object whose tile it held (R240):
clean it returns to the free list, else it is retired (R245). Nothing for another frame, or while a fetch in flight still reads it (R230). -/
def execFrameReadback (f : BitVec 24) (clean : Bool) (s : State) : Host.Outcome State Fault Refusal :=
  .next (State.actOnFault <| match NMap.find s.place.frames f.toNat with
    | some (.readback o) =>
      if s.frameRead f.toNat then s
      else
        let r := s.zeroFrame ((s.obj o).map fun x => x.part) f.toNat
        if clean && r.1.isSome then (r.2.releaseFrame f.toNat).advanceJobs else r.2.retireFrame f.toNat
    | _ => s)

/-! ### BAR2 -/

/-- The unified address of a BAR2 offset (R330, R447); none beyond the window, or for a VF that is not enabled. -/
def State.bar2Addr (s : State) (fn : FnId) (ofs : Nat) : Option Nat :=
  if fn.val = 0 then some (s.fld Fld.HQ_APERTURE_WINDOW * 2 ^ 36 + ofs)
  else if s.hostq.numVfs < fn.val ∨ 2 ^ 32 ≤ ofs then none
  else some (s.fld (Fld.PARTN_APERTURE_WINDOW (fn.val - 1)) * 2 ^ 32 + ofs)

/-- The event of R223 and R331. -/
def State.addressNone (s : State) (fn : FnId) (a : Nat) : State :=
  if fn.val = 0 then s.jasperK .addressNone 0 0 (a % 2 ^ 32) (a / 2 ^ 32)
  else s.jasperK .addressNone 9 (fn.val - 1) (a % 2 ^ 32) (a / 2 ^ 32)

/-- The object and tile that a BAR2 access at `a` may reach (R223, R331). -/
def State.bar2Tile (s : State) (fn : FnId) (a : Nat) : Option (Nat × Obj × Nat) :=
  match s.objAt (a / 65536) with
  | none => none
  | some (o, x) => if fn.val = 0 ∨ x.belongs (fn.val - 1) then some (o, x, a / 65536 - x.base) else none

/-- Pieces of [a, a+n) that lie in one tile each: address and length. -/
def tilePieces (a n : Nat) : List (Nat × Nat) :=
  if n = 0 then []
  else
    let k := 65536 - a % 65536
    if n ≤ k then [(a, n)] else [(a, k), (a + k, n - k)]

/-- A BAR2 access wakes the device where its tile is powered off (R409): it lies in the stacks, or comes to them, while they are in self-refresh or
off. -/
def State.bar2Wake (s : State) (e : DirEnt) : State :=
  if (s.powerState = 3 ∧ e.home = .stack) ∨ (s.powerState = 4 ∧ e.home ≠ .host) then s.notIdle.beginWake else s

/-- `n` bytes read at unified address `a`, within a tile, from its home (R331, R448). -/
def State.bar2Piece (s : State) (fn : FnId) (a n : Nat) : List Byte × State :=
  let zeros := List.replicate n 0#8
  match s.bar2Tile fn a with
  | none => (zeros, s.addressNone fn a)
  | some (o, x, t) =>
    let s := s.lookup o x t
    let e := s.dirEnt o x t
    let s := s.bar2Wake e
    match e.home with
    | .stack =>
      if s.frameBad e then (zeros, s.badFrame o x t e.frame)
      else
        let r := s.readSpan (some x.part) (frameSpa e.frame + a % 65536) n
        let s := r.2.count (Ct.MDC_IOD_OUT_UNITS (frameDie e.frame)) (ceilDiv n 4096)
        (r.1.1, if r.1.2 = [] then s else s.poisonTile o t)
    | .host => if s.pageOk e.page then (s.host.rdBlk (s.pageAddr e.page + a % 65536) n, s) else (zeros, s.failTile o t 0)
    | .origin => match s.originTile x.origin.toNat t with
      | (some bs, s) => (((bs ++ List.replicate 65536 0#8).drop (a % 65536)).take n, s)
      | (none, s) => (zeros, s.failTile o t 1)
    | .none => (zeros, s)

/-- BAR2_READ: the bytes read stand in `retBytes` (R331, R447, R448). -/
def execBar2Read (fn : FnId) (ofs : BitVec 36) (len : BitVec 32) (s : State) : Host.Outcome State Fault Refusal :=
  if 4096 < len.toNat then .fault .bar2Length
  else match s.bar2Addr fn ofs.toNat with
    | none => .next { s with retBytes := List.replicate len.toNat 0#8 }
    | some a =>
      let r := (tilePieces a len.toNat).foldl (fun (acc : List Byte × State) p =>
        let q := acc.2.bar2Piece fn p.1 p.2
        (acc.1 ++ q.1, q.2)) ([], s)
      .next { r.2.actOnFault with retBytes := r.1 }

/-- Bytes written at unified address `a`, within a tile (R331, R448): a tile without a home first gets one by a move. -/
def State.bar2Put (s : State) (fn : FnId) (a : Nat) (bs : List Byte) : State :=
  match s.bar2Tile fn a with
  | none => s.addressNone fn a
  | some (o, x, t) =>
    let s := s.lookup o x t
    let e := s.dirEnt o x t
    let s := s.bar2Wake e
    if x.kind = .weights ∨ e.home ≠ .none ∨ e.moving then
      (s.when (!e.moving) fun s => s.intoStack e bs).writeTile o t (a % 65536) bs
    else if x.policy = .host then
      if s.hostRoom x.part then match s.takePage x.part with
        | some (pg, s) => (s.startMove o t (.page pg) 0 false).writeTile o t (a % 65536) bs
        | none => s.addressNone fn a
      else s.addressNone fn a
    else match s.placeTile o t (x.dieFor t) with
      | (some _, s) => s.writeTile o t (a % 65536) bs
      | (none, s) => s.addressNone fn a

/-- BAR2_WRITE (R331, R447, R448). -/
def execBar2Write (fn : FnId) (ofs : BitVec 36) (data : List (BitVec 8)) (s : State) : Host.Outcome State Fault Refusal :=
  if 4096 < data.length then .fault .bar2Length
  else match s.bar2Addr fn ofs.toNat with
    | none => .next s
    | some a => .next ((tilePieces a data.length).foldl (fun s p => s.bar2Put fn p.1 ((data.drop (p.1 - a)).take p.2)) s).actOnFault

end Sys2Proof.Machine
end

