-- ==== Sys2Proof/Machine/Jasper.lean ====
section
/-! DEFINITION. The recorder's commands (chapter 16). -/

namespace Sys2Proof.Machine

/-- JASPER_ACCEPT: the first entry that waits in the intake queue is accepted or suppressed (R421, R426). -/
def execJasperAccept (s : State) : Host.Outcome State Fault Refusal := .next s.takeIntake

/-- RATE_WINDOW_END: the window's summaries are written and the next window opens (R426, R427). -/
def execRateWindowEnd (s : State) : Host.Outcome State Fault Refusal :=
  let at_ := s.jsp.windowAt + 1000 * s.fld Fld.JSP_RATE_WINDOW_MS
  .next ((s.clockTo at_).writeSummaries.modJsp fun x => { x with windowAt := at_ })

/-- OP_TIME: at the next multiple of 3,600 operating seconds the entry is made, once, and its acceptance requests a flush (R423, R424). Nothing where
the counter stops before it (R422). -/
def execOpTime (s : State) : Host.Outcome State Fault Refusal :=
  let s := s.syncSeconds
  let n := s.fld Fld.JSP_OP_SECONDS_SECONDS
  let wait := if n % 3600 = 0 ∧ n ≠ 0 ∧ n ≠ s.jsp.opAt then 0 else 3600 - n % 3600
  .next (if 2 ^ 32 ≤ n + wait then s
    else
      let s := if wait = 0 then s else (s.clockTo (s.jsp.secondAt + 1000000 * wait)).syncSeconds
      (s.modJsp fun x => { x with opAt := n + wait }).jasper .opTime 0 0 0)

/-- FLUSH (R424). -/
def execFlush (s : State) : Host.Outcome State Fault Refusal :=
  .next (s.bar0 Rg.JSP_CTRL State.requestFlush)

/-- READ_SEQ (R428). -/
def execReadSeq (seq : BitVec 32) (s : State) : Host.Outcome State Fault Refusal :=
  .next (s.bar0 Rg.JSP_READ_SEQ fun s => s.writeReadSeq seq)

/-- What the sideband's next private read returns after SELECT: a status byte and the entry (R429). -/
def State.selectBytes (s : State) (seq : BitVec 32) : List Byte :=
  match s.lookSeq seq with
  | .ring e => 0#8 :: e.bytes
  | .vault _ => 1#8 :: List.replicate 32 0#8
  | .gone => 2#8 :: List.replicate 32 0#8

/-- A read of the vault has its turn on its channel, in the class of placement reads (R281, R428). -/
def State.vaultTurn (s : State) (seq : BitVec 32) : Bool :=
  match s.flash.vaultPage seq with
  | some key => s.turn (laneChan (key / 2 ^ 32)) 3
  | none => true

/-- VAULT_READ_COMPLETE: what waits for the vault is latched, for the PCIe path and for the sideband's selection (R428, R429). A page that cannot be
read answers as an entry that the vault does not hold. Nothing of a read that has not its turn. -/
def execVaultReadComplete (s : State) : Host.Outcome State Fault Refusal :=
  let s := if s.fld Fld.JSP_READ_STATUS_STATE = 1 ∧ s.vaultTurn (s.rd Rg.JSP_READ_SEQ) then
      match s.readVault (s.rd Rg.JSP_READ_SEQ) with
      | (some e, s) => (s.latchEntry (leBytes 32 e.toNat)).setFld Fld.JSP_READ_STATUS_STATE 0
      | (none, s) => (s.latchEntry []).setFld Fld.JSP_READ_STATUS_STATE 2
    else s
  .next (match s.jsp.sel with
    | some q =>
      if !s.vaultTurn q then s
      else match s.readVault q with
        | (some e, s) => (s.modJsp fun x => { x with sel := none }).out (.i3c (0#8 :: leBytes 32 e.toNat))
        | (none, s) => (s.modJsp fun x => { x with sel := none }).out (.i3c (2#8 :: List.replicate 32 0#8))
    | none => s)

/-- CTR_CLEAR with BLOCK 0 (R435). -/
def execCtrClearCounter (ofs : BitVec 26) (s : State) : Host.Outcome State Fault Refusal :=
  .next (s.bar0 Rg.JSP_CTR_CLEAR fun s => s.clearOne (4 * ofs.toNat))

/-- CTR_CLEAR with BLOCK 1 (R435, R442). -/
def execCtrClearBlock (ofs : BitVec 26) (s : State) : Host.Outcome State Fault Refusal :=
  .next (s.bar0 Rg.JSP_CTR_CLEAR fun s => s.clearBlock (4 * ofs.toNat))

/-- KICK: the writing core's watchdog is reloaded, and the errors that its SRAM corrected since its last KICK are counted (R433, log entry 59). -/
def execKick (k : Kick) (s : State) : Host.Outcome State Fault Refusal :=
  .next ((s.count Ct.JSP_MGMT_ECC_CORRECTED k.corrected.toNat).setFld (wdogLeft k.core) (s.fld Fld.JSP_WDOG_CTRL_PERIOD_MS))

/-- SELECT and what else begins a transfer of the sideband (R429): the selection stands for the next private read, whose bytes it is ready to return;
an unused command byte is answered with 0xFF; the device takes its static address for its dynamic one, or the one assigned. -/
def execSelect (x : I3cIn) (s : State) : Host.Outcome State Fault Refusal :=
  .next (if !s.sidebandUp then s
    else match x with
      | .select seq =>
        let bs := s.selectBytes seq
        (s.modJsp fun x => { x with sel := if bs.head? = some 1#8 then some seq else none }).out (.i3c bs)
      | .other b => if 1 ≤ b.toNat ∧ b.toNat ≤ 3 then s else s.out (.i3c [0xFF#8])
      | .setDasa a => if s.boot.i3cAddr = some a then { s with boot := { s.boot with i3cDyn := some a } } else s
      | .entDaa a => { s with boot := { s.boot with i3cDyn := some (s.boot.i3cDyn.getD a) } })

/-- HEAD (R429). -/
def execHead (s : State) : Host.Outcome State Fault Refusal :=
  let w := fun a => leBytes 4 (s.rd a).toNat
  .next (if s.sidebandUp then
      s.out (.i3c (w Rg.JSP_NEXT_SEQ ++ w Rg.JSP_OLDEST_SRAM ++ w Rg.JSP_OLDEST_VAULT ++ w Rg.JSP_JOURNALLED ++ w Rg.JSP_STATUS))
    else s)

/-- TIME (R429). -/
def execTime (s : State) : Host.Outcome State Fault Refusal :=
  let s := s.syncSeconds
  .next (if s.sidebandUp then s.out (.i3c (leBytes 4 (s.rd Rg.JSP_OP_SECONDS).toNat ++ leBytes 4 (s.rd Rg.JSP_POWER_CYCLES).toNat)) else s)

end Sys2Proof.Machine
end

