-- ==== Sys2Proof/Machine/PowerOps.lean ====
section
/-! DEFINITION. Power and clocks (chapter 15): the code in force of each cluster (R401, R402, R411), lowering and release of clocks (R399,
R411, R412), the THERM_N pin (R414), power states and the wake (R404 to R410). -/

namespace Sys2Proof.Machine

/-! ### The code in force -/

/-- FREQ_NOW of a cluster. -/
def freqNow (k : Nat) : Fld := Fld.PWR_FREQ_NOW_CODE (k / 8) (k % 8)

/-- The smallest of the four codes of R401. -/
def State.codeFor (s : State) (k : Nat) : Nat :=
  let off := fun (m : NMap Nat) => 8 - NMap.get 0 m k
  min (min (s.inForce (Fld.PWR_FREQ_CODE (k / 8) (k % 8))) (off s.power.capLow)) (min (off s.power.thermLow) (off s.power.nbrLow))

/-- The supply that goes with a code, in mV (R401). -/
def codeMv (c : Nat) : Nat := [600, 620, 640, 660, 680, 700, 730, 760].getD c 800

/-- Neighbours of a cluster: one step away in its die's 4 × 4 grid (R411). -/
def neighbours (k : Nat) : List Nat :=
  let c := k % 16
  let b := k - c
  ((if c / 4 = 0 then [] else [b + c - 4]) ++ (if c / 4 = 3 then [] else [b + c + 4])) ++
    ((if c % 4 = 0 then [] else [b + c - 1]) ++ (if c % 4 = 3 then [] else [b + c + 1]))

/-- Supplies follow the codes in force (R401, R411): a slower cluster's is raised to a neighbour's less 120 mV. -/
def State.refreshSupplies (s : State) : State :=
  s.each (List.range 64) fun s k =>
    let own := codeMv (s.fld (freqNow k))
    let best := (neighbours k).foldl (fun (b : Nat × Nat) n =>
      let v := codeMv (s.fld (freqNow n)) - 120
      if b.1 < v then (v, n) else b) (own, k)
    let f := Fld.PWR_VOLT_MV (k / 4) (k % 4)
    let old := 500 + 5 * s.fld f
    let s := s.setFld f ((best.1 - 500) / 5)
    s.when (decide (own < best.1) && decide (old < best.1)) fun s => (s.raise Fld.PWR_EVENTS_NEIGHBOUR_V).jasper .neighbour k 0 best.2

/-- The code in force of cluster `k` follows its four causes (R402): a lowering at once, a raise by way of a supply ramp. -/
def State.applyCode (s : State) (k : Nat) : State :=
  let want := s.codeFor k
  let now := s.fld (freqNow k)
  if now < want then s.modPower fun p => { p with ramps := NMap.ins p.ramps k want }
  else (s.modPower fun p => { p with ramps := NMap.del p.ramps k }).setFld (freqNow k) want

/-- Every cluster's code in force. -/
def State.applyCodes (s : State) : State := (s.each (List.range 64) State.applyCode).refreshSupplies

/-- One step of the package cap (R399): above the cap every cluster above 400 MHz is lowered one code, below 95 % of it each is raised one. -/
def State.capStep (s : State) : State :=
  if s.power.capSide = 2 then
    (s.each (List.range 64) fun s k =>
      let now := s.fld (freqNow k)
      if now = 0 then s
      else (s.modPower fun p => { p with capLow := NMap.set 0 p.capLow k (9 - now) }).count Ct.PWR_CAP_STEPS 1).applyCodes
  else if s.power.capSide = 0 then
    (s.modPower fun p => { p with capLow := NMap.mapD 0 (fun n => n - 1) p.capLow }).applyCodes
  else s

/-- A cluster is lowered one code for its own temperature (R412), or for that of the neighbour `nbr` (R411). At code 0 there is none below, but a
raise whose supply ramps is abandoned (R416). -/
def State.thermalLower (s : State) (k : Nat) (nbr : Option Nat) : State :=
  let now := s.fld (freqNow k)
  let off := 8 - (now - 1)
  let lowers := decide (0 < now) || (NMap.find s.power.ramps k).isSome
  let s := s.modPower fun p =>
    if nbr.isSome then { p with nbrLow := NMap.set 0 p.nbrLow k off } else { p with thermLow := NMap.set 0 p.thermLow k off }
  if !lowers then s
  else
    let s := ((s.count Ct.PWR_THERMAL_STEPS 1).applyCode k).refreshSupplies
    match nbr with
    | some b => (s.raise Fld.PWR_EVENTS_NEIGHBOUR_T).jasper .neighbour k 1 b
    | none => s

/-- At a tick start the causes that no longer hold release one code each (R402, R411, R412). -/
def State.thermalRelease (s : State) : State :=
  s.modPower fun p =>
    { p with thermLow := (p.thermLow.map fun q => if p.caps.contains q.1 then q else (q.1, q.2 - 1)).filter fun q => q.2 != 0
             nbrLow := (p.nbrLow.map fun q => if p.hots.contains q.1 then q else (q.1, q.2 - 1)).filter fun q => q.2 != 0 }

/-! ### THERM_N -/

/-- PWR.STATUS.THERM_N and the pin follow the causes that assert it (R414). -/
def State.refreshThermN (s : State) : State :=
  let v := bit1 (s.power.thermN != [])
  if s.fld Fld.PWR_STATUS_THERM_N = v then s else (s.setFld Fld.PWR_STATUS_THERM_N v).out (.pin "THERM_N" (v == 1))

/-- A cause asserts THERM_N. -/
def State.assertThermN (s : State) (cause : Nat) : State :=
  (s.modPower fun p => { p with thermN := addOnce p.thermN cause }).refreshThermN

/-- A cause no longer asserts THERM_N. -/
def State.releaseThermN (s : State) (cause : Nat) : State :=
  (s.modPower fun p => { p with thermN := p.thermN.filter (· != cause) }).refreshThermN

/-- PWR.SENSOR shows the sensor selected (R412, R418). -/
def State.showSensor (s : State) : State :=
  let i := s.fld Fld.PWR_SENSOR_SELECT_INDEX
  let s := s.setFld Fld.PWR_SENSOR_VALID (bit1 (decide (i ≤ 76)))
  let s := s.setFld Fld.PWR_SENSOR_TEMP (toCode 11 (NMap.get 0 s.power.temps i))
  (s.setFld Fld.PWR_SENSOR_WARN (bit1 (s.power.warns.contains i))).setFld Fld.PWR_SENSOR_CAP (bit1 (s.power.caps.contains i))

/-! ### Power states -/

/-- Wake times in µs (R406). -/
def wakeTime (st : Nat) : Nat := [0, 2, 50, 300].getD st 1500000
/-- Idle times in µs. -/
def idleTime (st : Nat) : Nat := [0, 100, 1000, 10000].getD st 60000000

/-- The wake tolerance in force (R407): the smaller of TOL_US and the host's Max Snoop Latency, where stated. -/
def State.wakeTol (s : State) : Option Nat :=
  let own := if s.fld Fld.PWR_WAKE_TOL_TOL_US = 0xFFFFFF then none else some (s.fld Fld.PWR_WAKE_TOL_TOL_US)
  let ltr := if s.hostq.ltrEnable then s.hostq.maxSnoop else none
  match own, ltr with
  | some a, some b => some (min a b)
  | some a, none => some a
  | none, b => b

/-- LTR_USED: the LTR value is smaller and in force (R418). -/
def State.refreshTol (s : State) : State :=
  s.setFld Fld.PWR_WAKE_TOL_LTR_USED (bit1 (match s.wakeTol with
    | some t => s.hostq.ltrEnable && s.hostq.maxSnoop == some t && decide (t < s.fld Fld.PWR_WAKE_TOL_TOL_US)
    | none => false))

/-- The wake the tolerance asks for, where it lies below the wake time of the state in force (R409). -/
def State.wakeForTol (s : State) : State :=
  match s.wakeTol with
  | some t => if t < wakeTime s.powerState then s.beginWake else s
  | none => if 1 < s.powerState then s.beginWake else s

/-- Mask of the fields of a register that a shadow keeps: RW, RWL, W1C and W1S (R408). -/
def shadowMask (a : Nat) : BitVec 32 :=
  match regAt a with
  | .word _ r _ =>
    if r.kind = .grid then BitVec.allOnes 32
    else r.fields.foldl (fun m f => match f.acc with
      | .rw | .rwl | .w1c | .w1s => bvSet f.lo f.w m (2 ^ f.w - 1)
      | _ => m) 0#32
  | _ => 0#32

/-- A register map whose cluster `k`'s words keep only what the shadow saves, the rest at its reset value (R391, R408). -/
def shadowRegs (k : Nat) (regs : NMap (BitVec 32)) : NMap (BitVec 32) :=
  (regs.map fun p =>
    match decodeBlk p.1 with
    | some (b, _) =>
      if inCluster b && clusterAt p.1 == k then
        let m := shadowMask p.1
        (p.1, (p.2 &&& m) ||| (resetWord p.1 &&& ~~~m))
      else p
    | none => p).filter fun p => p.2 != resetWord p.1

/-- Cluster `k` loses what a power-off loses (R408): core buffers, caches, banks, lookup slots and whatever else its group holds; its
registers keep their shadow. -/
def State.dropCluster (s : State) (k : Nat) : State :=
  let (tag, s) := s.fresh
  let s := { s with regs := shadowRegs k s.regs, cores := s.cores.filter fun p => p.1 / 8 != k,
                    engs := s.engs.filter fun p => p.1 / 32 != k, clusters := NMap.del s.clusters k }
  s.each (List.range 8) fun s i => s.modCore (8 * k + i) fun x => { x with vec := { x.vec with lutTag := tag } }

/-- Cluster `k` powered off (R408). -/
def State.clusterOff (s : State) (k : Nat) : State :=
  let s := s.dropCluster k
  let s := (s.setFld (Fld.CLC_STATUS_CLOCK_ON k) 0).setFld (Fld.CLC_STATUS_POWERED k) 0
  s.setFld (Fld.CDC_STATUS_POWERED (k / 16)) (s.fld (Fld.CDC_STATUS_POWERED (k / 16)) &&& (0xFFFF - 2 ^ (k % 16)))

/-- A LIVE table's record in every cluster's table area (R178, R180, R408). -/
def State.loadTable (s : State) (id k : Nat) : State :=
  match NMap.find s.flash.img.tables id with
  | some t =>
    if s.fld (Fld.CTAB_ID_STATE_STATE id) = 2 then
      s.modCluster k fun x => { x with tables := NMap.set {} x.tables id ⟨t.lens, t.gen, true⟩ }
    else s
  | none => s

/-- Cluster `k` powered on (R404, R408): its shadow stands and its table area is reloaded from the registry. -/
def State.clusterOn (s : State) (k : Nat) : State :=
  if s.fld (Fld.CLC_STATUS_POWERED k) = 1 then s.raise (Fld.CLC_STATUS_CLOCK_ON k)
  else
    let s := (s.raise (Fld.CLC_STATUS_POWERED k)).raise (Fld.CLC_STATUS_CLOCK_ON k)
    let s := s.setFld (Fld.CDC_STATUS_POWERED (k / 16)) (s.fld (Fld.CDC_STATUS_POWERED (k / 16)) ||| 2 ^ (k % 16))
    s.each (List.range 64) fun s id => s.loadTable id k

end Sys2Proof.Machine
end

