-- ==== Sys2Proof/Machine/Stacks.lean ====
section
/-! DEFINITION. The commands of the stacks (chapter 08): bursts and scrub (R191 to R202), refresh and re-centring (R206, R207), regulators
(R208 to R210), temperature (R211 to R216), training (R203 to R205) and injection (R220). -/

namespace Sys2Proof.Machine

/-! ### Bursts -/

/-- What the channel changed, as one error vector. -/
def errVec (errs : BurstErrs) : ErrVec := errs.foldl (fun e p => ErrVec.add e [(p.1.val, p.2.toNat)]) []

/-- The address exists (R191). -/
def State.spaOk (s : State) (spa : BitVec 40) : Bool := decide (spa.toNat % 2 ^ 38 < s.dieBytes)

/-- The frame whose tile an SPA belongs to: its own frame, or the one its tail slot serves (R232). -/
def State.spaFrame (s : State) (spa : Nat) : Nat :=
  let die := spa / 2 ^ 38
  let a := spa % 2 ^ 38
  if a / 65536 < s.frameN then frameOf die (a / 65536) else frameOf die ((a - s.frameN * 65536) / 64)

/-- BURST_READ: the burst at `spa` is read and decoded (R194 to R201); an uncorrectable or poisoned one poisons the tile it belongs to
(R245, R248). -/
def execBurstRead (spa : BitVec 40) (errs : BurstErrs) (s : State) : Host.Outcome State Fault Refusal :=
  if !s.spaOk spa then .fault .stackAddress
  else
    let r := s.readBurst (spa.toNat / 64) (errVec errs)
    let s := { r.2 with retBytes := r.1.data, retBad := r.1.bad }
    let s := if r.1.bad then match s.tileInFrame (s.spaFrame spa.toNat) with
        | some (o, t) => s.poisonTile o t
        | none => s
      else s
    .next s.actOnFault

/-- BURST_WRITE: bytes written from `spa` upward, whole bursts or parts of bursts (R194, R201); a tile rewritten in full is poisoned no
longer (R248). -/
def execBurstWrite (spa : BitVec 40) (data : List (BitVec 8)) (s : State) : Host.Outcome State Fault Refusal :=
  if s.dieBytes < spa.toNat % 2 ^ 38 + data.length ∨ !s.spaOk spa then .fault .stackAddress
  else
    let s := s.writeSpan spa.toNat (data.length + 1) data
    let f := s.spaFrame spa.toNat
    let s := match s.tileInFrame f with
      | some (o, t) => if f = frameOf (spa.toNat / 2 ^ 38) (spa.toNat % 2 ^ 38 / 65536) then s.noteRewrite o t (spa.toNat % 65536) data.length else s
      | none => s
    .next s.actOnFault

/-- The scrub runs on a stack (R202, R408). -/
def State.scrubs (s : State) (st : Nat) : Bool := s.fld (Fld.STK_SCRUB_ENABLE st) == 1 && s.fld (Fld.STK_STATUS_STATE st) == memReady

/-- SCRUB: a burst is read; corrected, it is written back; uncorrectable, it is written as a poison codeword, and a weight tile's refetch
starts at once (R202, R250). A writable tile is handled at its next read. Nothing where the stack's scrub does not run. -/
def execScrub (spa : BitVec 40) (errs : BurstErrs) (s : State) : Host.Outcome State Fault Refusal :=
  if !s.spaOk spa then .fault .stackAddress
  else
    let b := spa.toNat / 64
    let st := (burstLoc b).stack
    if !s.scrubs st then .next s
    else
      let r := (s.ask none [b]).readBurst b (errVec errs)
      let s := r.2
      let s := if r.1.bad then
          let s := (s.ask none [b]).writeBurst b r.1.data true
          match s.tileInFrame (s.spaFrame spa.toNat) with
          | some (o, t) => if (s.obj o).any fun x => x.kind == .weights then s.poisonTile o t else s
          | none => s
        else if r.1.fixed then ((s.ask none [b]).writeBurst b r.1.data false).count (Ct.STK_SCRUB_CORRECTED st) 1
        else s
      .next s.actOnFault

/-! ### Refresh and timing -/

/-- REFRESH_COMMAND: one of a bank's 3,072 commands of the window (R207). None is issued to a stack that is not in service. -/
def execRefreshCommand (ch : ChanId) (bank : Fin 16) (s : State) : Host.Outcome State Fault Refusal :=
  .next (if s.fld (Fld.CH_STATUS_STATE ch) = memReady then
      s.modChan ch fun x => { x with refreshed := NMap.set 0 x.refreshed bank ((NMap.get 0 x.refreshed bank + 1) % 3072) }
    else s)

/-- The logical lane that a physical lane serves, if any (R204). -/
def State.logicalLane (s : State) (ch p : Nat) : Option Nat :=
  if s.fld (Fld.CH_STATUS_SPARE_USED ch) = 1 then
    let f := s.fld (Fld.CH_STATUS_SPARE_FOR ch)
    if p < f then some p else if p = f then none else some (p - 1)
  else if p < 18 then some p else none

/-- An eye is as wide and high as R204 asks. -/
def eyeOk (width height : Nat) : Bool := decide (90 ≤ width) && decide (20 ≤ height)

/-- RECENTRE: the channel re-centres its timing, and a lane whose eye fell below the margins is marked at once (R206). -/
def execRecentre (ch : ChanId) (eyes : List LaneEye) (s : State) : Host.Outcome State Fault Refusal :=
  .next (if s.fld (Fld.CH_STATUS_STATE ch) ≠ memReady then s
    else
      let s := s.modChan ch fun x => { x with centredAt := s.now }
      (s.each (eyes.filter fun e => e.ch == ch && !eyeOk e.width.toNat e.height.toNat) fun s e =>
        match s.logicalLane ch e.lane with
        | some l => s.markLane ch l
        | none => s).actOnFault)

/-! ### Regulators -/

/-- Applied minimums of a stack's partitions in percent (R210): scaled where they sum to more than 100. -/
def State.regMins (s : State) (st : Nat) : List Nat :=
  let ms := (List.range 16).map fun p => s.inForce (Fld.STK_REG_PART_MIN_PCT st p)
  if 100 < ms.sum then ms.map fun m => m * 100 / ms.sum else ms

/-- What an epoch has admitted: its total, the system's bursts, each partition's, the requests left and those admitted. -/
structure Epoch where
  total : Nat := 0
  sys   : Nat := 0
  parts : NMap Nat := []
  left  : List RegReq := []
  deriving Repr

/-- A request admitted. -/
def Epoch.grant (e : Epoch) (r : RegReq) : Epoch :=
  let n := r.bursts.toNat
  match r.part with
  | some p => { e with total := e.total + n, parts := NMap.set 0 e.parts p.val (NMap.get 0 e.parts p.val + n) }
  | none => { e with total := e.total + n, sys := e.sys + n }

/-- The limits of an epoch (R208): its budget, minimums and maximums in bursts, and the active partitions. -/
structure Budget where
  b      : Nat
  mins   : List Nat
  maxs   : List Nat
  active : List Nat
  deriving Repr

/-- Requests served in order while they meet `ok`; the others stay. -/
def Epoch.serve (e : Epoch) (ok : Epoch → RegReq → Bool) : Epoch :=
  e.left.foldl (fun e r => if ok e r then e.grant r else { e with left := e.left ++ [r] }) { e with left := [] }

/-- An over-minimum request may be admitted (R209). -/
def Budget.over (g : Budget) (e : Epoch) (p : Option Nat) : Bool :=
  let owed := (g.active.map fun q => if some q = p then 0 else g.mins.getD q 0 - NMap.get 0 e.parts q).sum
  decide (e.total < g.b) && decide (e.total + owed < g.b) &&
    (match p with | some p => decide (NMap.get 0 e.parts p < g.maxs.getD p 0) | none => true)

/-- The first request of party `p`, taken out of the list. -/
def takeParty (p : Option Nat) (l : List RegReq) : Option (RegReq × List RegReq) :=
  match l.find? fun r => r.part.map Fin.val == p with
  | some r => some (r, l.erase r)
  | none => none

/-- Over-minimum requests round robin by partition, the system's as those of a seventeenth party (R209): `turn` is served next, and
`idle` counts the parties that could not be served in a row. -/
def Budget.robin (g : Budget) : Nat → Nat → Nat → Epoch → Epoch × Nat
  | 0, turn, _, e => (e, turn)
  | n + 1, turn, idle, e =>
    if 17 ≤ idle then (e, turn)
    else
      let p := if turn < 16 then some turn else none
      let next := (turn + 1) % 17
      match takeParty p e.left with
      | some (r, rest) => if g.over e p then g.robin n next 0 ({ e with left := rest }.grant r) else g.robin n next (idle + 1) e
      | none => g.robin n next (idle + 1) e

/-- REGULATOR_EPOCH: budgets are recomputed and requests admitted, those that waited first, then the accesses made since the last epoch and
those that the command brings (R208, R209, log entry 45). A request of a partition that waits while its channel is idle counts the epoch's 800 controller cycles as held. -/
def execRegulatorEpoch (st : StackId) (reqs : List RegReq) (s : State) : Host.Outcome State Fault Refusal :=
  let x := NMap.get ({} : StackSt) s.stackTab st
  let all := x.waiting ++ x.asked ++ reqs
  let now := (all.filterMap fun r => r.part.map Fin.val).eraseDups
  let l := min (s.inForce (Fld.STK_LIMIT_LIMIT_PCT st)) (s.fld (Fld.STK_THERM_THERM_CAP st))
  let b := l * 51200 / 100
  let g : Budget :=
    { b, mins := (s.regMins st).map fun m => m * b / 100,
      maxs := (List.range 16).map fun p => s.inForce (Fld.STK_REG_PART_MAX_PCT st p) * b / 100,
      active := (now ++ x.lastActive).eraseDups }
  let e : Epoch := { left := all }
  let e := e.serve fun e r => r.part == none && decide (e.sys < 2 * b / 100) && decide (e.total < b)
  let e := e.serve fun e r => match r.part with
    | some p => decide (e.total < b) && decide (NMap.get 0 e.parts p.val < g.maxs.getD p.val 0) &&
        decide (NMap.get 0 e.parts p.val < g.mins.getD p.val 0)
    | none => false
  let q := g.robin (17 * (all.length + 2)) x.turn 0 e
  let s := s.each (List.range 16) fun s p =>
    let n := NMap.get 0 q.1.parts p
    let s := if n = 0 then s else s.count (Ct.STK_PART_BURSTS st p) n
    s.when (q.1.left.any fun r => r.part.map Fin.val == some p && r.idle) fun s => s.count (Ct.STK_PART_HELD st p) 800
  .next { s with stackTab := NMap.set {} s.stackTab st { x with asked := [], waiting := q.1.left, lastActive := now, turn := q.2 } }

/-! ### Temperature -/

/-- The tick whose "done" token the device has not yet issued (R213). -/
def State.nextDone (s : State) : BitVec 32 :=
  if s.fld Fld.GARNET_CTRL_ENABLE = 0 then s.rd Rg.GARNET_START_TICK
  else if s.fld Fld.GARNET_STATUS_OWN_DONE = 1 then s.tickNo + 1#32 else s.tickNo

/-- The thermal cap of a stack that has warned applies, with the step's token withheld and the group told (R213, R324). -/
def State.capApply (s : State) (st : Nat) : State :=
  let s := s.setFld (Fld.STK_THERM_THERM_CAP st) 60
  let s := (s.raise Fld.GARNET_CTRL_WITHHOLD).raise (Fld.STK_THERM_WITHHOLD_AUTO st)
  let s := s.modStack st fun x => { x with capPend := false, heldAt := s.now }
  s.tell s.liveGroup 0x06 (leBytes 2 st ++ leBytes 2 (s.fld (Fld.STK_TEMP_TEMP st)) ++ leBytes 4 s.nextDone.toNat)

/-- Caps whose warnings came during the step that is now done (R213). -/
def State.capsDue (s : State) : State :=
  s.each ((List.range 12).filter fun st => (NMap.get ({} : StackSt) s.stackTab st).capPend) State.capApply

/-- The hot refresh rate of a stack (R207). -/
def State.setHot (s : State) (st : Nat) (hot : Bool) : State :=
  if (NMap.get ({} : StackSt) s.stackTab st).hot = hot then s
  else (s.each (List.range 128) fun s c => s.setFld (Fld.CH_STATUS_HOT_REFRESH (128 * st + c)) (bit1 hot)).modStack st fun x => { x with hot }

/-- A warning of a stack (R213), told to every enabled partition's host. -/
def State.stackWarns (s : State) (st t : Nat) : State :=
  let s := (s.raise (Fld.STK_THERM_WARN st)).raise (Fld.STK_THERM_WARN_SEEN st)
  let s := (s.count (Ct.STK_WARN_COUNT st) 1).jasper .stackWarn st t 0
  let s := s.postAll 0x05 0xFFFF 0xFFFF st (leBytes 2 t)
  let s := s.when (s.fld Fld.PWR_CTRL_THERM_N_WARN == 1) fun s => s.assertThermN (200 + st)
  let s := s.modStack st fun x => { x with capClear := false }
  if s.inStep then s.modStack st fun x => { x with capPend := true } else s.capApply st

/-- STACK_TEMP_SAMPLE: TEMP is the highest of the stack's sensors; refresh, warning, throttle and trip follow (R207, R211 to R216).
Thresholds are in 0.25 °C. A stack without supplies is not sampled. TEMP_MAX, which a read leaves at 0, follows positive samples alone: DESIGN
CHOICE, log entry 81. -/
def execStackTempSample (st : StackId) (temps : List (BitVec 11)) (s : State) : Host.Outcome State Fault Refusal :=
  let state := s.fld (Fld.STK_STATUS_STATE st)
  .next (match temps.map BitVec.toInt with
    | [] => s
    | x :: rest =>
      if state = memOff ∨ state = memLost then s
      else
        let t := rest.foldl max x
        let code := toCode 11 t
        let prev := (NMap.get ({} : StackSt) s.stackTab st).prev
        let above := fun (n : Int) => decide (n ≤ t) && (match prev with | some p => decide (n ≤ p) | none => false)
        let below := fun (n : Int) => decide (t < n) && (match prev with | some p => decide (p < n) | none => false)
        let s := (s.setFld (Fld.STK_TEMP_TEMP st) code).modStack st fun x => { x with prev := some t }
        let s := if 0 < t then s.maxRc (Fld.STK_TEMP_MAX_MAX st) t.toNat else s
        let s := if 340 ≤ t then s.setHot st true else if below 328 then s.setHot st false else s
        let warn := s.fld (Fld.STK_THERM_WARN st) == 1
        let s := if !warn && above 380 then s.stackWarns st code
          else if warn && below 368 then
            let s := ((s.setFld (Fld.STK_THERM_WARN st) 0).jasper .warnCleared st 0 0).releaseThermN (200 + st.val)
            s.modStack st fun x => { x with capClear := true }
          else if !warn && below 368 then s.releaseThermN (200 + st.val)
          else s
        let thr := s.fld (Fld.STK_THERM_THROTTLE st) == 1
        let s := if !thr && above 408 then
            let s := (s.raise (Fld.STK_THERM_THROTTLE st)).raise (Fld.STK_THERM_THROTTLE_SEEN st)
            (s.count (Ct.STK_THROTTLE_COUNT st) 1).jasper .stackThrottle st code 0
          else if thr && below 396 then s.setFld (Fld.STK_THERM_THROTTLE st) 0
          else s
        if 440 ≤ t then
          let s := ((s.stackState st memLost).raise (Fld.STK_THERM_TRIP_SEEN st)).jasper .stackTrip st code 0
          let s := s.assertThermN 100
          { s with boot := { s.boot with fault := some .stackTrip } }.actOnFault
        else s)

/-- THERMAL_CAP_APPLY: the cap of a warning that came during a step applies once the step is done (R213). -/
def execThermalCapApply (st : StackId) (s : State) : Host.Outcome State Fault Refusal :=
  .next (if (NMap.get ({} : StackSt) s.stackTab st).capPend && !s.inStep then s.capApply st else s)

/-- WITHHOLD cleared, with every WITHHOLD_AUTO; the token of a step that is done goes out (R31, R213). -/
def State.clearWithhold (s : State) : State :=
  let s := s.setFld Fld.GARNET_CTRL_WITHHOLD 0
  let s := s.each (List.range 12) fun s st => s.setFld (Fld.STK_THERM_WITHHOLD_AUTO st) 0
  if s.tickState = stDone ∧ s.fld Fld.GARNET_STATUS_OWN_DONE = 0 then s.issueDone s.garnet.abandoned else s

/-- WITHHOLD_AUTO_EXPIRY: two tick periods after the stack's warning set WITHHOLD the device clears it itself (R213). -/
def execWithholdAutoExpiry (st : StackId) (s : State) : Host.Outcome State Fault Refusal :=
  .next (if s.fld (Fld.STK_THERM_WITHHOLD_AUTO st) = 1 then
      let s := s.clockTo ((NMap.get ({} : StackSt) s.stackTab st).heldAt + 2 * s.inForce Fld.GARNET_PERIOD_PERIOD_US)
      (s.jasper .warnCleared st 1 0).clearWithhold
    else s)

/-! ### Training -/

/-- Eye of a physical lane: the listed one, else the common width and height. -/
def eyeOf (width height : BitVec 8) (eyes : List LaneEye) (ch p : Nat) : Nat × Nat :=
  match eyes.find? fun e => e.ch.val == ch && e.lane.val == p with
  | some e => (e.width.toNat, e.height.toNat)
  | none => (width.toNat, height.toNat)

/-- Bad physical lanes of a channel (R204): named by the lane map, failing training, or marked in service before the reset and recorded
by the anchor. -/
def State.badLanes (s : State) (width height : BitVec 8) (eyes : List LaneEye) (ch : Nat) : List Nat :=
  let base := (List.range 19).filter fun p =>
    s.boot.laneMap.contains (ch, p) || (let e := eyeOf width height eyes ch p; !eyeOk e.1 e.2)
  match (s.flash.anchor.bind fun a => NMap.find a.marks ch) with
  | some m =>
    let l := m % 128
    let p := match base with | f :: _ => if f ≤ l then l + 1 else l | [] => l
    if base.contains p then base else (List.range 19).filter fun q => base.contains q || q == p
  | none => base

/-- What training leaves of a channel (R204): its CH.STATUS word, from its bad lanes; none where it fails. -/
def trainedStatus (bad : List Nat) (hot : Bool) : Option (BitVec 32) :=
  let word := fun (spare mark : Option Nat) => BitVec.ofNat 32
    (memReady + 8 * bit1 spare.isSome + 16 * spare.getD 0x1F + 512 * bit1 mark.isSome + 1024 * mark.getD 0 + 32768 * bit1 hot)
  match bad with
  | [] => some (word none none)
  | [a] => if a = 18 then some (word none none) else some (word (some a) none)
  | [a, b] => if b = 18 then some (word none (some a)) else some (word (some a) (some (b - 1)))
  | _ => none

/-- STACK_TRAINING_DONE: every channel of the stacks that train is ready with its eyes, its spare and its mark, or fails, and every burst
holds a zero codeword (R203 to R205). In start-up the mount follows; a failed channel ends it (R367). -/
def execStackTrainingDone (width height : BitVec 8) (eyes : List LaneEye) (s : State) : Host.Outcome State Fault Refusal :=
  let sts := (List.range 12).filter fun st => s.fld (Fld.STK_STATUS_STATE st) == memTraining
  .next (if sts = [] ∨ !s.boot.identified then s
    else
      let booting := s.fld Fld.BOOT_STATE_STATE == 3
      let s := s.clockTo (if booting then s.boot.zeroAt + 850000 else s.power.wakeAt + 800000)
      let chs := sts.flatMap fun st => (List.range 128).map fun c => 128 * st + c
      let res := chs.map fun ch => (ch, trainedStatus (s.badLanes width height eyes ch) (NMap.get ({} : StackSt) s.stackTab (ch / 128)).hot)
      let words := res.flatMap fun r =>
        (Rg.CH_STATUS r.1, r.2.getD (BitVec.ofNat 32 (memLost + 16 * 0x1F))) ::
          (List.range 19).map fun p =>
            let e := eyeOf width height eyes r.1 p
            (Rg.CH_EYE r.1 p, BitVec.ofNat 32 (e.1 + 256 * e.2 + 65536 * bit1 !(eyeOk e.1 e.2)))
      let s := { s with regs := (NMap.over s.regs words).filter fun p => p.2 != resetWord p.1
                        mem := [], chk := [], chans := [] }
      let s := s.each sts fun s st =>
        let mine := res.filter fun r => r.1 / 128 == st
        let s := s.setFld (Fld.STK_STATUS_MARKED_CHANNELS st) (mine.filter fun r => r.2.any fun w => bvBit 9 w).length
        s.stackState st (if mine.all fun r => r.2.isSome then memReady else stackFailed)
      let s := s.each (List.range 4) State.recountFrames
      let failed := res.filter fun r => r.2.isNone
      let s := s.each failed fun s r => s.jasper .channelFailed r.1 ((s.badLanes width height eyes r.1).getD 2 0) 0
      if booting then
        let s := s.setFld Fld.BOOT_READY_MS_TRAINING ((s.now - s.boot.zeroAt) / 1000)
        if failed = [] then s.setFld Fld.BOOT_STATE_STATE 4 else s.endStart 8 6
      else if failed = [] then s
      else { s with boot := { s.boot with fault := some .channelFailed } }.actOnFault)

/-! ### Injection -/

/-- A write of CH.INJ_CTRL (R220, R221): it needs the test-enable bit; an unused lane leaves its field as it was; ARM restarts the
count. -/
def State.writeChInj (s : State) (ch : Nat) (w : BitVec 32) : State :=
  if s.fld Fld.BOOT_TEST_ENABLE = 0 then s.jasper .testDenied 0 (Rg.CH_INJ_CTRL ch) 0
  else
    let old := s.rd (Rg.CH_INJ_CTRL ch)
    let keep := fun (lo : Nat) (w : BitVec 32) => if 18 ≤ bvGet lo 5 w then bvSet lo 5 w (bvGet lo 5 old) else w
    (s.wr (Rg.CH_INJ_CTRL ch) (BitVec.ofNat 32 (bvGet 0 22 (keep 13 (keep 3 w))))).modChan ch fun x => { x with injSeen := 0 }

/-- CH_INJ_ARM: a write of CH.INJ_CTRL (R220). -/
def execChInjArm (ch : ChanId) (w : BitVec 32) (s : State) : Host.Outcome State Fault Refusal :=
  .next (s.bar0 (Rg.CH_INJ_CTRL ch) fun s => s.writeChInj ch w)

end Sys2Proof.Machine
end

