-- ==== Sys2Proof/Machine/Install.lean ====
section
/-! DEFINITION. Installations (R165 to R179, R262, R270, R271): the encoders' segments, the choice of tables, coded tiles on their way to
flash, the forming of bands, and how an installation ends. -/

namespace Sys2Proof.Machine

/-! ### Bands -/

/-- Blocks of dropped bands and their pages leave the refresh queue, and bands that hold no object are to be erased (R268, R271). -/
def State.dropBands (s : State) : State :=
  let held := s.bandsHeld
  let drop := fun (x : OnyxImg) (b : Nat × List Nat) => b.2.zipIdx.foldl (fun (x : OnyxImg) p =>
    if (x.block (blockKey p.2 p.1)).use = .band b.1 then x.useBlock (blockKey p.2 p.1) .erasing else x) x
  let s := s.modImg fun x => (x.bands.filter fun b => !held.contains b.1).foldl drop x
  s.modFlash fun x => { x with queue := x.queue.filter fun q => match (x.img.block q.1).use with | .band _ | .system => true | _ => false }

/-- Band `b` formed of the free block of least erase count in each lane (R270, R276); none unless every lane holds more free blocks than
its reserve. The record follows in the journal. -/
def State.formBand (s : State) (b : Nat) : Option State :=
  let lanes := List.range s.geom.lanes
  let room := lanes.all fun l => decide (s.fld Fld.ONYX_RESERVE_PCT * s.geom.blocks.toNat < 100 * s.laneFree l)
  let blocks := lanes.filterMap s.freeBlock
  if room ∧ blocks.length = lanes.length ∧ lanes ≠ [] then
    some ((s.modImg fun x => applyRec x (.bandAlloc b blocks)).journal [.bandAlloc b blocks])
  else none

/-- The first of `n` unused band numbers in a row. -/
def State.bandRun (s : State) (n : Nat) : Nat :=
  s.flash.img.bands.foldl (fun k p => if k ≤ p.1 ∧ p.1 < k + n then p.1 + 1 else k) 0

/-! ### The weight and scale streams -/

/-- Bytes of host memory from `a`; addresses have 64 bits. -/
def State.hostBytes (s : State) (a n : Nat) : List Byte := s.host.rdBlk (a % 2 ^ 64) n

/-- FORMAT of the installation. -/
def Install.fm (i : Install) : Fmt := (Fmt.ofCode i.fmt).getD .g4
/-- Its group size. -/
def Install.n (i : Install) : Nat := (groupSize i.group).getD 32
/-- Its segments (R165). -/
def Install.segments (i : Install) : Nat := ceilDiv i.wTiles 256
/-- The weight tiles of a segment. -/
def Install.segTiles (i : Install) (seg : Nat) : List Nat := (List.range (min 256 (i.wTiles - 256 * seg))).map (· + 256 * seg)

/-- The bytes of a segment as the host sends them: at most 16 MiB (R165, R177). -/
def State.segBytes (s : State) (i : Install) (seg : Nat) : List Byte := s.hostBytes (i.wAddr + 2 ^ 24 * seg) (min (2 ^ 24) (i.wBytes - 2 ^ 24 * seg))

/-- The 65,536 symbols of the k-th weight tile of a staged segment: those that the stream ends before are 0. -/
def stagedSyms (data : List Byte) (k : Nat) : List Nat :=
  let x := ((data.drop (65536 * k)).take 65536).map BitVec.toNat
  x ++ List.replicate (65536 - x.length) 0

/-- SEQ_TAG of weight tile `t` (R172). -/
def Install.tag (i : Install) (t : Nat) : Nat := (t + (i.salt.getD 0#8).toNat) % 256

/-! ### Encoders -/

/-- ENC.STATUS and ENC.SEGMENT of an encoder (R189). -/
def State.showEnc (s : State) (m : Nat) (busy pass : Bool) (object seg : Nat) : State :=
  let s := (s.setFld (Fld.ENC_STATUS_BUSY m) (bit1 busy)).setFld (Fld.ENC_STATUS_PASS m) (bit1 pass)
  (s.setFld (Fld.ENC_OBJECT_OBJECT m) object).setFld (Fld.ENC_SEGMENT_SEGMENT m) seg

/-- Segments go out in order, each to the first encoder that is free, the lower-numbered die first (R177). -/
def State.handOut (s : State) : State :=
  s.each (List.range 4) fun s m =>
    match s.flash.inst with
    | some i =>
      if i.begun ∧ i.nextSeg < i.segments ∧ (NMap.find i.encs m).isNone then
        (s.modFlash fun x => { x with inst := some { i with encs := NMap.ins i.encs m ⟨i.nextSeg, none, []⟩, nextSeg := i.nextSeg + 1 } }).showEnc
          m true false i.object i.nextSeg
      else s
    | none => s

/-- Counts of the symbols of a staged segment of `n` tiles. -/
def segCounts (data : List Byte) (n : Nat) : List Nat :=
  let tiles := (List.range n).map (stagedSyms data)
  (List.range 256).map fun v => (tiles.map fun t => t.count v).sum

/-- cost of R169 under codeword lengths. -/
def codeCost (counts lens : List Nat) : Nat := ((counts.zip lens).map fun p => p.1 * p.2).sum

/-- How R169 serves a segment. -/
inductive TableChoice
  | reuse (id : Nat) (forced : Bool)
  | allocate (id : Nat)
  deriving DecidableEq, Repr

/-- The choice of R169 for a segment with these counts and own lengths. -/
def State.chooseTable (s : State) (counts own : List Nat) (tol : Nat) : TableChoice :=
  let ids := List.range 64
  let cand := (ids.filter fun i => s.fld (Fld.CTAB_ID_STATE_STATE i) != 0).map fun i =>
    (codeCost counts (lensOf ((NMap.find s.flash.img.tables i).map OnyxTab.lens |>.getD 0#1024)), i)
  let best := cand.foldl (fun (b : Option (Nat × Nat)) c => match b with
    | none => some c
    | some d => if c.1 < d.1 then some c else some d) none
  let free := ids.find? fun i => s.fld (Fld.CTAB_ID_STATE_STATE i) == 0
  match best, free with
  | some b, some f => if b.1 * 1000 ≤ codeCost counts own * (1000 + tol) then .reuse b.2 false else .allocate f
  | some b, none => .reuse b.2 (decide (codeCost counts own * (1000 + tol) < b.1 * 1000))
  | none, some f => .allocate f
  | none, none => .reuse 0 true

/-- The lowest FREE ID is allocated (R178): LOADING, with the next generation; its record is journalled. -/
def State.allocTable (s : State) (id : Nat) (lens : List Nat) : State :=
  let gen := (s.fld (Fld.CTAB_ID_STATE_GEN id) + 1) % 16
  let t : OnyxTab := ⟨recOf lens, gen⟩
  let s := ((s.setFld (Fld.CTAB_ID_STATE_GEN id) gen).setFld (Fld.CTAB_ID_STATE_STATE id) 1).count Ct.CTAB_ALLOCATIONS 1
  (s.modImg fun x => applyRec x (.table id t)).journal [.table id t]

/-- The installation holds the table of an encoder's segment, whose bytes lie staged (R169, R177). -/
def State.takeTable (s : State) (m seg id : Nat) (data : List Byte) : State :=
  let gen := s.fld (Fld.CTAB_ID_STATE_GEN id)
  (s.modFlash fun x => { x with inst := x.inst.map fun i =>
      { i with encs := NMap.ins i.encs m ⟨seg, some (id, gen), data⟩, held := addOnce i.held id } }).setFld (Fld.ENC_STATUS_PASS m) 1

/-- A segment has been received from the host into the stacks of its die, and counted, and takes its table (R19, R169, R177). -/
def State.receiveSeg (s : State) (i : Install) (m seg : Nat) : State :=
  let data := s.segBytes i seg
  let counts := segCounts data (i.segTiles seg).length
  let own := buildLengths counts
  let s := (s.count (Ct.ENC_BYTES_IN m) data.length).count (Ct.MDC_IOD_IN_UNITS m) (ceilDiv data.length 4096)
  match s.chooseTable counts own i.tol with
  | .reuse id forced => (s.when forced fun s => s.count Ct.CTAB_FORCED_REUSE 1).takeTable m seg id data
  | .allocate id => (s.allocTable id own).takeTable m seg id data

/-! ### Tiles on their way to flash -/

/-- Bytes in whole sectors, the last filled up with zeros. -/
def sectorsOf (bs : List Byte) : List (List Byte) :=
  (List.range (ceilDiv bs.length 4096)).map fun k =>
    let x := (bs.drop (4096 * k)).take 4096
    x ++ List.replicate (4096 - x.length) 0#8

/-- The sector after those that wait or have been programmed. -/
def Install.nextSector (i : Install) : Nat := match i.placed.getLast? with | some p => p.1 + p.2.1 | none => 0

/-- An origin index (R262). -/
def indexBytes (tiles : List (Nat × Nat × Nat)) : List Byte :=
  tiles.flatMap fun p => leBytes 4 (p.1 % 2 ^ 27 + 2 ^ 27 * ((p.2.1 - 1) % 32))

/-- Coded tiles follow one another in tile order, and the origin index after the last (R262). -/
def Install.stageTiles (i : Install) : Install :=
  let i := i.coded.foldl (fun (i : Install) p =>
    if p.1 = i.nextTile then
      let x := sectorsOf p.2
      { i with stage := i.stage ++ x, placed := i.placed ++ [(i.nextSector, x.length, p.2.length)]
               nextTile := i.nextTile + 1, coded := NMap.del i.coded p.1 }
    else i) i
  if i.nextTile = i.tiles ∧ !i.indexed then { i with stage := i.stage ++ sectorsOf (indexBytes i.placed), indexed := true } else i

/-- Sectors of the object, its origin index included. -/
def Install.total (i : Install) : Nat := i.nextSector + ceilDiv (4 * i.tiles) 4096

/-- More sectors than the object can need (R262). -/
def Install.bound (i : Install) : Nat := 17 * i.tiles + ceilDiv (4 * i.tiles) 4096

/-- The installation changed. -/
def State.modInst (s : State) (f : Install → Install) : State := s.modFlash fun x => { x with inst := x.inst.map f }

/-! ### How an installation ends -/

/-- Nothing is installed any more: encoders, staging and tables are let go (R169, R177). -/
def State.endInstall (s : State) (i : Install) : State :=
  let s := s.modFlash fun x => { x with inst := none }
  let s := s.each (List.range 4) fun s m => s.showEnc m false false 0 0
  let s := s.freeFrames .staging
  s.each i.held fun s id => s.settleTable id

/-- An installation ends without commit (R271): its command completes with `st`, its entry is freed, and OBJ_ABORT follows where OBJ_BEGIN
was journalled; `cmds` complete with it. -/
def State.abortInst (s : State) (st : Status) (cmds : List CmdRef) : State :=
  match s.flash.inst with
  | none => s
  | some i =>
    let s := s.completeCmd i.cmd st 0
    let s := (s.endInstall i).dropObject i.object
    let s := match i.salt with
      | some _ => (s.journal [.objAbort i.handle]).modFlash fun x => { x with aborts := x.aborts ++ [(i.handle, cmds)] }
      | none => s.each cmds fun s c => s.completeCmd c .success 0
    s.dropBands.refreshOnyx

/-- What has been coded goes on: into pages, with the band that the next page needs, and to OBJ_COMMIT after the last (R270). Without a
band to be formed the installation ends (R271). -/
def State.installPump (s : State) : State :=
  let s := s.modInst Install.stageTiles
  match s.flash.inst with
  | none => s
  | some i =>
    if i.pageReady then
      let size := s.geom.bandSectors
      let base := match i.base with | some b => b | none => size * s.bandRun (ceilDiv i.bound size)
      let b := (base + i.done) / size
      if i.bands.contains b then s
      else match s.formBand b with
        | some s => (s.modInst fun i => { i with base := some base, bands := i.bands ++ [b] }).refreshOnyx
        | none => s.abortInst .noSpace []
    else if i.indexed ∧ i.stage = [] ∧ !i.ending then
      (s.journal [.objCommit i.handle (i.base.getD 0) i.total i.tiles i.refs]).modInst fun i => { i with ending := true }
    else s

/-- Scale tiles of the installation whose weight tiles have all been coded (R174, R177), with their records let go. -/
def Install.buildScales (i : Install) : Install :=
  let per := blocksPerScaleTile i.fm i.n
  (List.range (i.tiles - i.wTiles)).foldl (fun (i : Install) j =>
    let cnt := min per (i.wTiles - per * j)
    let mine := (List.range cnt).map (· + per * j)
    if (NMap.find i.coded (i.wTiles + j)).isSome ∨ i.wTiles + j < i.nextTile ∨ !(mine.all fun t => (NMap.find i.recs t).isSome) then i
    else
      let bs := scaleTileBytes i.object (i.wTiles + j) i.fm i.group i.n (per * j) cnt i.wTiles (fun t => NMap.get [] i.recs t) i.tag
      { i with coded := NMap.ins i.coded (i.wTiles + j) bs, recs := mine.foldl NMap.del i.recs }) i

/-- Sectors coded by encoder `m` from the staged segment (R170 to R177): a segment's weight tiles, and from the host's scale stream the scale tiles
that they complete. What it has coded leaves the die for flash (R19). -/
def State.codeSeg (s : State) (i : Install) (m seg id gen : Nat) (data : List Byte) : State :=
  let lens := lensOf ((NMap.find s.flash.img.tables id).map OnyxTab.lens |>.getD 0#1024)
  let out := (i.segTiles seg).map fun t =>
    (t, codeTile i.object t i.fm i.group id gen i.threshold (i.tag t) lens (stagedSyms data (t % 256)))
  let coded := (out.filter fun p => p.2.2).length
  let s := (s.count (Ct.ENC_SEGMENTS_DONE m) 1).count (Ct.ENC_TILES_CODED m) coded
  let s := (s.count (Ct.ENC_TILES_RAW m) (out.length - coded)).count (Ct.ENC_BYTES_OUT m) ((out.map fun p => p.2.1.length).sum)
  let s := s.showEnc m false false 0 0
  let rb := if i.wTiles < i.tiles then scaleRecordBytes i.fm i.n else 0
  let recs := (i.segTiles seg).map fun t => (t, s.hostBytes (i.sAddr + rb * t) rb)
  let s := s.count (Ct.MDC_IOD_IN_UNITS m) (ceilDiv (rb * recs.length) 4096)
  let before := (s.flash.inst.map fun i => i.coded.length).getD 0
  let s := s.modInst fun i => Install.buildScales
    { i with encs := NMap.del i.encs m, coded := out.foldl (fun c p => NMap.ins c p.1 p.2.1) i.coded
             refs := NMap.set 0 i.refs id (NMap.get 0 i.refs id + coded), recs := recs.foldl (fun r p => NMap.ins r p.1 p.2) i.recs }
  let scales := (s.flash.inst.map fun i => i.coded.length).getD 0 - before - out.length
  let s := s.count (Ct.MDC_IOD_OUT_UNITS m) (((out.map fun p => ceilDiv p.2.1.length 4096).sum) + 16 * scales)
  s.handOut.installPump

/-- SALT is drawn and OBJ_BEGIN is journalled, unless the entropy source has stopped (R172, R270, R382). -/
def State.beginObject (s : State) : State :=
  match s.flash.inst, (s.flash.inst.bind fun i => s.obj i.object) with
  | some i, some x =>
    if i.salt.isSome ∨ s.boot.entropyStopped then s
    else
      let (tag, s) := s.fresh
      let salt : BitVec 8 := (Config.entropy tag 0).setWidth 8
      let s := s.modObj i.object fun x => { x with salt }
      let o : OnyxObj := { index := i.object, ent := { x with salt }, fmt := i.fmt, group := i.group, base := 0, sectors := 0, tiles := []
                           refs := [], committed := false }
      (s.modInst fun i => { i with salt := some salt }).journal [.objBegin i.handle o]
  | _, _ => s

/-- A weight object serves fetches (R270), and a pinned one is placed (R233). -/
def State.makeLive (s : State) (o : Nat) : State :=
  match s.obj o with
  | some x =>
    let s := s.modObj o fun x => { x with state := .live, goLive := false }
    s.when (x.policy == .pinned) fun s => s.startJob { object := o, next := 0, target := .pinned, shrink := none, done := none }
  | none => s

/-- The band map and the blocks' counts take 12 B for each block in stack system frames (R261). -/
def State.takeSystem (s : State) : State := (s.takeSpread (ceilDiv (12 * s.geom.lanes * s.geom.blocks.toNat) 65536) .system).2

/-- An object's origin index in stack system frames (R262). -/
def State.indexFrames (s : State) (handle : Nat) (tiles : List (Nat × Nat × Nat)) : State :=
  let r := s.takeSpread (ceilDiv (4 * tiles.length) 65536) (.index handle)
  let bytes := indexBytes tiles
  (r.2.modFlash fun x => { x with index := NMap.ins x.index handle r.1 }).each (r.1.zipIdx) fun s f =>
    s.writeFrame none f.1 ((bytes.drop (65536 * f.2)).take 65536)

/-- OBJ_COMMIT is durable (R179, R236, R270, R339). -/
def State.commitInstall (s : State) (i : Install) : State :=
  let s := s.each i.refs fun s r => s.refTable r.1 r.2
  let s := match s.obj i.object with
    | some x => s.setFld (Fld.OBJ_USE_FLASH_TILES x.part) (s.fld (Fld.OBJ_USE_FLASH_TILES x.part) + i.tiles)
    | none => s
  let s := (s.endInstall i).modImg fun x => match NMap.find x.objs i.handle with
    | some o => { x with objs := NMap.ins x.objs i.handle { o with tiles := i.placed } }
    | none => x
  let s := s.indexFrames i.handle i.placed
  let s := if s.fld Fld.GARNET_CTRL_ENABLE = 1 then s.modObj i.object fun x => { x with goLive := true } else s.makeLive i.object
  s.completeCmd i.cmd .success i.object

end Sys2Proof.Machine
end

