-- ==== Sys2Proof/Machine/Onyx.lean ====
section
/-! DEFINITION. Onyx at work (chapter 10): reads with their checks and retries (R258, R259), the journal (R265 to R267), refresh, patrol,
wear and compaction (R272 to R277), the vault (R279), and the encoders' commands (R177, R178). -/

namespace Sys2Proof.Machine

/-! ### Reading pages -/

/-- A fetch, move or refetch reads the tile from its origin. -/
def State.originWanted (s : State) (o t : Nat) : Bool :=
  let k := tileKey o t
  (NMap.find s.place.refetches k).isSome ||
    ((NMap.find s.place.moves k).isSome && (s.obj o).any fun x => (s.dirEnt o x t).home == .origin) ||
    s.fetches.any fun p => p.2.op.object.toNat == o && p.2.tiles.any fun x => x.tile == t && x.src == .origin

/-- The requester of an unreadable sector is told: a tile read that meets one fails (R244, R259). -/
def State.failSector (s : State) (handle sector : Nat) : State :=
  match (s.onyxObj handle).bind fun o => (o.tileOf sector).map fun t => (o.index, t) with
  | none => s
  | some (o, t) =>
    let mine := (s.obj o).any fun x => x.kind == .weights && x.origin.toNat == handle
    if mine && s.originWanted o t then
      let again := (NMap.find s.place.refetches (tileKey o t)).isSome
      (s.failTile o t 1).when again fun s => s.substitute o t
    else s

/-- A relocated block that has been erased is read back (R277): a codeword that needs a retry retires it. -/
def State.readBack (s : State) (lane block : Nat) (outs : List CodeRead) : State :=
  let k := blockKey lane block
  let s := (s.pageRead lane block 0).modFlash fun x => { x with suspects := x.suspects.filter (· != k) }
  if outs.any fun r => r.failed || r.soft || decide (0 < r.retries.val) then (s.retireBlock lane block .readback).refreshOnyx
  else (s.modImg fun x => x.useBlock k .free).refreshOnyx

/-- The block has been relocated for an unreadable sector and erased, and waits for its read-back. -/
def State.awaitsReadBack (s : State) (k : Nat) : Bool := s.flash.suspects.contains k && s.blockPages k == []

/-- A page's read has its turn on its channel (R281): in the class of who asks for a tile of it, a refetch, a fetch, else a placement. -/
def State.pageTurn (s : State) (lane block page : Nat) : Bool :=
  let tiles := (List.range 4).filterMap fun slot => ((s.pageSector lane block page slot).bind s.sectorOwner).bind fun q =>
    (s.onyxObj q.1).bind fun o => (o.tileOf q.2).map fun t => (o.index, t)
  let ch := laneChan lane
  s.turn ch (if tiles.any fun q => (NMap.find s.place.refetches (tileKey q.1 q.2)).isSome then 1
    else if tiles.any fun q => s.fetches.any fun p => p.2.op.object.toNat == q.1 && p.2.tiles.any fun x => x.tile == q.2 && x.src == .origin then 2
    else 3)

/-- FLASH_PAGE_READ (R258, R259): a page's codewords are decoded, checked and, where unreadable, reported to their requester; an erased
suspect block is read back (R277). Nothing of a page that is not programmed, or whose read has not its turn. -/
def execFlashPageRead (lane : LaneId) (block : BlockId) (page : PageId) (outs : List CodeRead) (us : BitVec 16) (s : State) :
    Host.Outcome State Fault Refusal :=
  .next (State.actOnFault <|
    if !s.onyxRun ∨ !s.pageTurn lane.val block.toNat page.toNat then s
    else if s.awaitsReadBack (blockKey lane.val block.toNat) then s.readBack lane.val block.toNat outs
    else match NMap.find s.flash.nand (pageKey lane.val block.toNat page.toNat) with
      | none => s
      | some cws =>
        let r := s.readPage lane.val block.toNat page.toNat cws outs us.toNat false
        (r.2.each r.1 fun s f => s.failSector f.1 f.2).advanceJobs)

/-- A patrol pass begins: no page has been read in it (R275). -/
def State.newPass (s : State) : State := s.modFlash fun x => { x with patrolAt := s.now, patrolled := [] }

/-- PATROL (R275): a programmed page is read, once in each pass of PATROL.DAYS; nobody has asked for its sectors. It has the last turn on its
channel (R281). -/
def execPatrol (lane : LaneId) (block : BlockId) (page : PageId) (outs : List CodeRead) (us : BitVec 16) (s : State) :
    Host.Outcome State Fault Refusal :=
  .next (if !s.onyxBackground ∨ !s.turn (laneChan lane.val) 8 then s
    else
      let key := pageKey lane.val block.toNat page.toNat
      let s := s.when (decide (s.flash.patrolAt + 86400000000 * s.fld Fld.ONYX_PATROL_DAYS ≤ s.now)) State.newPass
      if s.flash.patrolled.contains key then s
      else match NMap.find s.flash.nand key, NMap.find s.flash.sys key with
        | some cws, _ =>
          (s.readPage lane.val block.toNat page.toNat cws outs us.toNat true).2.modFlash fun x => { x with patrolled := x.patrolled ++ [key] }
        | none, some _ => (s.readSysPage key outs us.toNat).2.modFlash fun x => { x with patrolled := x.patrolled ++ [key] }
        | none, none => s)

/-- ONYX.CMD op 0x3 (R275, R283). -/
def State.startPatrol (s : State) : State := if s.onyxRun then s.newPass else s

/-- PATROL_START (R283). -/
def execPatrolStart (s : State) : Host.Outcome State Fault Refusal :=
  .next (s.bar0 Rg.ONYX_CMD State.startPatrol)

/-! ### The journal (R265, R266) -/

/-- A vault page's record is durable (R424): JOURNALLED moves past its entries, and a flush that has nothing left is done. -/
def State.vaultJournalled (s : State) : State :=
  match s.jsp.waiting with
  | [] => s
  | q :: rest =>
    let s := (s.modJsp fun x => { x with waiting := rest }).setFld Fld.JSP_JOURNALLED_SEQ q.toNat
    if s.fld Fld.JSP_STATUS_FLUSH_BUSY = 1 ∧ s.flash.vaultFlush = 0 ∧ rest = [] then
      (s.setFld Fld.JSP_STATUS_FLUSH_BUSY 0).count Ct.JSP_FLUSHES 1
    else s

/-- What a durable record does beside Onyx's tables (R266). -/
def State.landRec (s : State) (epoch : BitVec 64) (r : JRec) : State :=
  let s := match r with
    | .readCounts _ => s
    | _ => s.modImg fun x => applyRec x r
  match r with
  | .objBegin h _ =>
    match s.flash.inst with
    | some i => if i.handle = h then (s.modInst fun i => { i with begun := true, opened := epoch }).handOut.installPump else s
    | none => s
  | .objCommit h _ _ _ _ =>
    match s.flash.inst with
    | some i => if i.handle = h then s.commitInstall i else s
    | none => s
  | .objAbort h =>
    let mine := s.flash.aborts.filter fun p => p.1 == h
    let s := s.modFlash fun x => { x with aborts := x.aborts.filter fun p => p.1 != h }
    s.each (mine.flatMap (·.2)) fun s c => s.completeCmd c .success 0
  | .objDelete h =>
    let mine := s.flash.deletes.filter fun p => p.1 == h
    let s := s.modFlash fun x => { x with deletes := x.deletes.filter fun p => p.1 != h }
    (s.each (mine.flatMap (·.2)) fun s c => s.completeCmd c .success 0).freeFrames (.index h)
  | _ => s

/-- Records of commits waiting, the n-th taken out. -/
def takeAt (n : Nat) (jq : List (List JRec)) : List (List JRec) := jq.take n ++ jq.drop (n + 1)

/-- Copy A of the n-th commit that waits has programmed: it has the next epoch, and is durable (R265). A commit without records is that of a
vault page. -/
def State.commitAt (s : State) (n : Nat) : State :=
  match s.flash.jq[n]? with
  | none => s
  | some recs =>
    let c := mkCommit (s.flash.epoch + 1#64) recs
    let lane := c.epoch.toNat % 16
    let block := s.flash.setBlock s.flash.jset lane
    let s := s.putSys lane block (s.flash.sysNext lane block) (.commit c) c.epoch c.data
    let s := s.modFlash fun x => { x with jq := takeAt n x.jq, epoch := c.epoch, jcount := x.jcount + 1, copyB := some c, clean := false }
    let s := s.count Ct.ONYX_JOURNAL_COMMITS 1
    let s := s.each recs fun s r => s.landRec c.epoch r
    let s := if recs = [] then s.vaultJournalled else s
    s.dropBands.refreshOnyx

/-- Copy A of the first commit that waits has programmed. -/
def State.commitHead (s : State) : State := s.commitAt 0

/-- Copy B of the newest commit has programmed (R265). -/
def State.landCopyB (s : State) : State :=
  match s.flash.copyB with
  | none => s
  | some c =>
    let lane := (c.epoch.toNat + 8) % 16
    let block := s.flash.setBlock s.flash.jset lane
    (s.putSys lane block (s.flash.sysNext lane block) (.commit c) c.epoch c.data).modFlash fun x => { x with copyB := none }

/-- Every commit that waits is made durable, in order. -/
def State.flushJournal (s : State) : State := s.each s.flash.jq fun s _ => s.landCopyB.commitHead

/-- A commit made durable at once, behind those that wait (R272, R274). -/
def State.commitNow (s : State) (recs : List JRec) : State := (s.journal recs).flushJournal

/-- Pages of a checkpoint: the band map and the counts take 12 B for each block, and objects and tables 256 B each, in at most a whole set (R261,
R267; log entry 79). -/
def State.ckptPages (s : State) : Nat :=
  let n := 12 * s.geom.lanes * s.geom.blocks.toNat + 256 * (s.flash.img.objs.length + s.flash.img.tables.length)
  max 1 (min (16 * s.blockSize) (ceilDiv n 16384))

/-- Onyx's tables as a checkpoint holds them: the records of committed objects, whose indexes stand in their own sectors (R267). -/
def OnyxImg.saved (x : OnyxImg) : OnyxImg :=
  { x with objs := (x.objs.filter fun p => p.2.committed).map fun p => (p.1, { p.2 with tiles := [] }) }

/-- The pages of a checkpoint written to set `set` (R263, R267). A program that fails, as a free value says, is made again on another block (R277). -/
def State.putCkpt (s : State) (set n : Nat) : State :=
  let img := s.flash.img.saved
  s.each (List.range n) fun s k =>
    let at_ := setPlace k
    let (tag, s) := s.fresh
    let s := s.when (Config.programFails tag at_.1) fun s => s.failSystem set at_.1
    s.putSys at_.1 (s.flash.setBlock set at_.1) at_.2 (.ckpt k n (if k = 0 then some img else none)) s.flash.epoch []

/-- A checkpoint (R267): a full copy to the idle set, which counts once its record is durable. An anchor points to it, the journal goes on in the
other set, and the previous set is erased. An installation that has begun is journalled again behind it. -/
def State.checkpointNow (s : State) : State :=
  let s := s.flushJournal
  let set := 5 - s.flash.cset
  let n := s.ckptPages
  let s := (s.eraseSet set).putCkpt set n
  let s := (s.commitNow [.checkpoint set 0 n]).landCopyB
  let jset := 1 - s.flash.jset
  let marks := match s.flash.anchor with | some a => a.marks | none => []
  let s := (s.count Ct.ONYX_CHECKPOINTS 1).putAnchor
    { epoch := s.flash.epoch, ckpt := (set, 0), jour := (jset, 0), nextHandle := s.flash.nextHandle, marks }
  let s := s.eraseSet s.flash.jset
  let s := s.modFlash fun x => { x with cset := set, jset, jcount := 0 }
  match s.flash.inst with
  | some i => match i.begun, s.onyxObj i.handle with
    | true, some o => (s.commitNow [.objBegin i.handle o]).refreshOnyx
    | _, _ => s.refreshOnyx
  | none => s.refreshOnyx

/-- ONYX.CMD CHECKPOINT (R267, R283). -/
def State.askCheckpoint (s : State) : State := if s.onyxRun then s.checkpointNow else s

/-- CHECKPOINT (R267). -/
def execCheckpoint (s : State) : Host.Outcome State Fault Refusal :=
  .next (s.bar0 Rg.ONYX_CMD State.askCheckpoint)

/-- Commits in a journal set that fill it: each takes two pages of its sixteen blocks, and 8,192 at most (R265, R267). -/
def State.journalFull (s : State) : Nat := min 8192 (8 * s.blockSize)

/-- The commit that is programmed next: the first, and after a fall of PWRFAIL_N the one in progress then, or the first that records a vault
page (R280). -/
def State.nextCommit (s : State) : Option Nat :=
  if s.fld Fld.PWR_STATUS_PWRFAIL = 0 ∨ s.flash.inProgress.contains .journal then (if s.flash.jq = [] then none else some 0)
  else s.flash.jq.findIdx? fun r => r == []

/-- A program of the journal completes (R265): copy B of the newest commit, else copy A of the next. One that fails is made again. A full
journal set asks for a checkpoint (R267). -/
def State.journalProgram (s : State) (ok : Bool) (us : Nat) : State :=
  let lane := s.journalLane
  match s.flash.copyB.isSome, s.nextCommit with
  | false, none => s
  | b, n =>
    let s := s.maxRc (Fld.FCH_TIMING_MAX_TPROG_US lane) us
    if !ok then s.failSystem s.flash.jset lane
    else if b then s.landCopyB
    else
      let s := (s.commitAt (n.getD 0)).modFlash fun x => { x with inProgress := x.inProgress.filter (· != .journal) }
      if s.journalFull ≤ s.flash.jcount ∧ s.onyxRun then s.checkpointNow else s

/-- READ_COUNTS: 60 s after the last, the counts of blocks read since are journalled (R266). -/
def execReadCounts (s : State) : Host.Outcome State Fault Refusal :=
  .next (if !s.onyxRun then s
    else
      let at_ := s.flash.countedAt + 60000000
      let s := s.clockTo at_
      let counts := s.flash.counted.map fun k => (k, (s.flash.img.block k).reads)
      let s := s.modFlash fun x => { x with countedAt := at_, counted := [] }
      if counts = [] then s else s.journal [.readCounts counts])

/-! ### Relocation (R274, R276) -/

/-- Pages of a block read and programmed in another block of its lane, an unreadable sector as such (R273, R274). -/
def State.copyPages (s : State) (lane old new : Nat) (pages : List (Nat × List CodeWord)) : State :=
  s.each pages fun s p =>
    let s := s.readOwn lane old p.1 p.2
    s.putPage lane new p.1 (p.2.zipIdx.map fun c => s.copyCode (codeKey lane old p.1 c.2) c.1)

/-- The programmed pages of a block copied to another block of its lane, and BAND_MEMBER made durable (R274). The old block is suspect
where a sector of it was unreadable (R277). -/
def State.relocate (s : State) (lane old new band : Nat) : State :=
  let s := s.copyPages lane old new (s.blockPages (blockKey lane old))
  let bad := s.flash.unread.any fun u => u / 2 ^ 14 == blockKey lane old
  let s := s.modFlash fun x => { x with queue := x.queue.filter fun q => q.1 != blockKey lane old
                                        suspects := if bad then addOnce x.suspects (blockKey lane old) else x.suspects }
  s.commitNow [.bandMember band lane new]

/-- The oldest of the refreshes of its class that wait on a lane's channel (R281). -/
def State.oldestRefresh (s : State) (k : Nat) : Bool :=
  (s.flash.queue.find? fun q => laneChan (q.1 / 2 ^ 20) == laneChan (k / 2 ^ 20) && s.pressing q.1 == s.pressing k).any fun q => q.1 == k

/-- The refresh of a queued block has its turn: ahead of all but refetches where the block is past twice RD_LIMIT (R274, R281). -/
def State.refreshTurn (s : State) (k : Nat) : Bool :=
  let ch := laneChan (k / 2 ^ 20)
  s.oldestRefresh k && (if s.pressing k then !s.refetchReads ch else s.turn ch 6)

/-- A block of a set of the system area is refreshed (R273, R274): its pages go to a free block of the lane, which takes its place in the set, and
it is to be erased. -/
def State.refreshSys (s : State) (lane block : Nat) (why : RefreshWhy) (fails : Nat) : State :=
  match s.flash.sets.findIdx? fun l => l.getD lane 0 == block with
  | none => s
  | some set =>
    let s := s.failDests lane (fun s => s.freeBlock lane) fails
    if (s.freeBlock lane).isNone then s
    else
      let s := (s.count (match why with | .reads => Ct.ONYX_READ_REFRESHES | .ecc => Ct.ONYX_ECC_REFRESHES) 1).moveSys set lane
      (s.modImg fun x => x.useBlock (blockKey lane block) .erasing).modFlash fun x => { x with queue := x.queue.filter fun q => q.1 != blockKey lane block }

/-- BLOCK_REFRESH: a queued block is copied to the free block of least erase count in its lane (R274), `m.fails` blocks failing first. Nothing of
a block that is not queued or has not its turn, or with no free block. -/
def execBlockRefresh (lane : LaneId) (m : BlockMove) (s : State) : Host.Outcome State Fault Refusal :=
  let k := blockKey lane.val m.block.toNat
  .next (match s.flash.queue.find? fun q => q.1 == k, (s.flash.img.block k).use with
    | some q, .band b =>
      if s.onyxBackground ∧ s.refreshTurn k then
        let t := s.failDests lane.val (fun s => s.freeBlock lane.val) m.fails.toNat
        match t.freeBlock lane.val with
        | some new =>
          (t.count (match q.2 with | .reads => Ct.ONYX_READ_REFRESHES | .ecc => Ct.ONYX_ECC_REFRESHES) 1).relocate lane.val m.block.toNat new b
        | none => t
      else s
    | some q, .system =>
      if s.onyxBackground ∧ s.refreshTurn k then s.refreshSys lane.val m.block.toNat q.2 m.fails.toNat else s
    | _, _ => s)

/-- WEAR_LEVEL_MOVE: where the spread of erase counts in a lane exceeds WL_SPREAD, the coldest block that holds data moves onto the
most-worn free block (R276), `m.fails` blocks failing first. -/
def execWearLevelMove (m : LaneMove) (s : State) : Host.Outcome State Fault Refusal :=
  let good := (s.flash.img.laneBlocks m.lane.val).filter fun p => p.2.use != .retired
  let top := good.foldl (fun n p => Nat.max n p.2.erases) s.flash.img.blank.erases
  let cold := good.foldl (fun (b : Option (Nat × Nat × Nat)) p => match p.2.use with
    | .band n => match b with
      | none => some (p.2.erases, p.1, n)
      | some d => if p.2.erases < d.1 then some (p.2.erases, p.1, n) else b
    | _ => b) none
  .next (match cold with
    | some (e, old, b) =>
      if s.onyxBackground ∧ s.turn (laneChan m.lane.val) 7 ∧ e + s.fld Fld.ONYX_WEAR_WL_SPREAD < top then
        let t := s.failDests m.lane.val (fun s => s.wornBlock m.lane.val) m.fails.toNat
        match t.wornBlock m.lane.val with
        | some new => (t.count Ct.ONYX_WL_MOVES 1).relocate m.lane.val old new b
        | none => t
      else s
    | none => s)

/-! ### Compaction (R272) -/

/-- Rows of a band that hold a programmed page, counted up to the last. -/
def State.bandRows (s : State) (blocks : List Nat) : Nat :=
  blocks.zipIdx.foldl (fun m p => (s.blockPages (blockKey p.2 p.1)).foldl (fun m q => Nat.max m (q.1 + 1)) m) 0

/-- Bands that `n` sectors from `base` lie in. -/
def State.bandsOf (s : State) (base n : Nat) : List Nat :=
  (List.range (ceilDiv (base % s.geom.bandSectors + n) s.geom.bandSectors)).map (· + base / s.geom.bandSectors)

/-- Where `n` sectors of a moved object are to go, with the bands to be formed: after the last row in use of a formed band, else in new
bands. -/
def State.frontier (s : State) (o : OnyxObj) : Nat × List Nat :=
  let g := s.geom
  let avoid := s.bandsOf o.base o.sectors ++ (match s.flash.inst with | some i => i.bands | none => [])
  let fits := s.flash.img.bands.filterMap fun b =>
    let rows := s.bandRows b.2
    let base := b.1 * g.bandSectors + 4 * g.lanes * rows
    let more := (s.bandsOf base o.sectors).tail
    let whole := b.2.zipIdx.all fun p => (s.flash.img.block (blockKey p.2 p.1)).use == .band b.1
    if rows < g.pages.val ∧ whole ∧ !avoid.contains b.1 ∧ more.all fun m => (NMap.find s.flash.img.bands m).isNone then some (base, more)
    else none
  match fits with
  | f :: _ => f
  | [] =>
    let base := g.bandSectors * s.bandRun (ceilDiv o.sectors g.bandSectors)
    (base, s.bandsOf base o.sectors)

/-- The object to be moved: the one of lowest handle in the band with the fewest live sectors. -/
def State.compactNext (s : State) : Option (Nat × OnyxObj) :=
  let g := s.geom
  let live := s.flash.img.objs.filter fun p => p.2.committed && !(s.flash.deletes.any fun d => d.1 == p.1)
  let inBand := fun (b : Nat) (o : OnyxObj) =>
    Nat.min (o.base + o.sectors) ((b + 1) * g.bandSectors) - Nat.max o.base (b * g.bandSectors)
  let bands := (s.flash.img.bands.map fun b => ((live.map fun o => inBand b.1 o.2).sum, b.1)).filter fun b => decide (0 < b.1)
  match bands.foldl (fun (m : Option (Nat × Nat)) b => match m with
    | none => some b
    | some c => if b.1 < c.1 then some b else some c) none with
  | none => none
  | some b => live.find? fun o => decide (0 < inBand b.2 o.2)

/-- A page of a new row has failed to program (R270, R277): the earlier pages of its block move to a new block of the lane, and the failed block
is retired. None without a free block. -/
def State.swapBlock (s : State) (lane old page band : Nat) : Option State :=
  match s.copyDest lane with
  | (none, _) => none
  | (some new, s) =>
    let s := s.copyPages lane old new ((s.blockPages (blockKey lane old)).filter fun p => decide (p.1 < page))
    some ((s.commitNow [.bandMember band lane new]).retireBlock lane old .program).refreshOnyx

/-- One page of an object copied by a compaction: from logical sector `from_` to `to_`; the destination's block fails first where its lane is
in `fails`, at its first page (R272, R273, R277). -/
def State.copyPage (s : State) (fails : List Nat) (first : Bool) (from_ to_ : Nat) : State :=
  match s.sectorPlace from_, s.sectorPlace to_ with
  | some (l, b, q, _), some (l2, b2, q2, _) =>
    match NMap.find s.flash.nand (pageKey l b q) with
    | none => s
    | some cws =>
      let s := s.when (first && fails.contains l2) fun s =>
        let s := s.count (Ct.FCH_PROGRAM_FAILS (laneChan l2)) 1
        (s.swapBlock l2 b2 q2 (to_ / s.geom.bandSectors)).getD s
      match s.sectorPlace to_ with
      | none => s
      | some (l2, b2, q2, _) =>
        let s := s.readOwn l b q cws
        s.putPage l2 b2 q2 (cws.zipIdx.map fun c => s.copyCode (codeKey l b q c.2) c.1)
  | _, _ => s

/-- COMPACTION: an object is copied to the write frontier, and OBJ_MOVE is made durable (R272). A command that comes while two bands or more are
free stands for the demand, and whether a program on a lane fails is a free value (R277; log entry 79). Nothing where no band can be formed for it,
or while a request of a class before it waits (R281). -/
def execCompaction (s : State) : Host.Outcome State Fault Refusal :=
  .next (match s.compactNext with
    | none => s
    | some (h, o) =>
      if !s.onyxBackground ∨ !((List.range 16).all fun ch => s.turn ch 7) then s
      else
        let f := s.frontier o
        match f.2.foldl (fun (acc : Option State) b => acc.bind fun s => s.formBand b) (some s) with
        | none => s
        | some t =>
          let (n, t) := t.fresh
          let fails := (List.range t.geom.lanes).filter (Config.programFails n)
          let t := (List.range (ceilDiv o.sectors 4)).foldl (fun (t : State) p =>
            t.copyPage fails (decide (p < s.geom.lanes)) (o.base + 4 * p) (f.1 + 4 * p)) t
          (t.count Ct.ONYX_COMPACTIONS 1).commitNow [.objMove h f.1])

/-! ### Programs and erases -/

/-- A page of the installation has failed (R270, R277): the earlier pages of its block move to a new block, and the page waits to be
programmed there. Without a free block the installation ends. -/
def State.installSwap (s : State) (lane old page band : Nat) : State :=
  match s.swapBlock lane old page band with
  | some s => s
  | none => (s.retireBlock lane old .program).abortInst .noSpace []

/-- A program of the installation reports failure (R277). Once PWRFAIL_N has fallen no copy is started (R280): the block is out of service, and its
pages move when the installation goes on. -/
def State.installFail (s : State) (lane old page band : Nat) : State :=
  let s := s.count (Ct.FCH_PROGRAM_FAILS (laneChan lane)) 1
  if s.onyxRun then s.installSwap lane old page band else s.retireBlock lane old .program

/-- A program of the installation completes (R270): the first page that waits. Nothing before the tables and bands that it needs are
durable. -/
def State.installProgram (s : State) (ok : Bool) (us : Nat) : State :=
  match s.flash.inst with
  | none => s
  | some i =>
    let held := s.flash.jq.any fun c => c.any fun r => match r with | .table _ _ | .bandAlloc _ _ => true | _ => false
    if !i.pageReady ∨ held then s
    else match i.base.bind fun b => s.sectorPlace (b + i.done) with
      | none => s
      | some (lane, block, page, _) =>
        let s := s.maxRc (Fld.FCH_TIMING_MAX_TPROG_US (laneChan lane)) us
        let band := (i.base.getD 0 + i.done) / s.geom.bandSectors
        if (s.flash.img.block (blockKey lane block)).use = .retired ∧ s.onyxRun then s.installSwap lane block page band
        else if !ok then s.installFail lane block page band
        else
          let cws := (List.range 4).map fun k =>
            mkCodeWord (if i.indexed && decide (i.nextSector ≤ i.done + k) then indexHandle else i.handle) (i.done + k) i.opened (i.stage.getD k [])
          let s := s.putPage lane block page cws
          (s.modInst fun i => { i with done := i.done + 4, stage := i.stage.drop 4 }).installPump

/-- Sets of the vault. -/
def FlashSt.vaultSetsN (x : FlashSt) : Nat := x.sets.length - 4

/-- A vault page programs (R279, R424): its entries, with padding to a whole page, stand in the next page of the ring of sets, whose oldest set is
erased before it is written into. The commit that records the page follows. -/
def State.vaultProgram (s : State) (ok : Bool) (us : Nat) : State :=
  let n := s.flash.vaultNext
  let es := s.flash.vaultBuf.take n
  let set := 4 + s.flash.vaultAt.1
  let at_ := setPlace s.flash.vaultAt.2
  match es.getLast? with
  | none => s
  | some e =>
    let s := s.maxRc (Fld.FCH_TIMING_MAX_TPROG_US at_.1) us
    if !ok then s.failSystem set at_.1
    else
      let s := if s.flash.vaultAt.2 = 0 then (s.eraseSet set).modFlash fun x => { x with vault := x.vaultStored [] } else s
      let page := es ++ List.replicate (512 - n) 0#256
      let s := s.putSys at_.1 (s.flash.setBlock set at_.1) at_.2 (.vault page) s.flash.epoch (page.flatMap fun e => leBytes 32 e.toNat)
      let s := s.modFlash fun x =>
        let v := x.vault ++ es
        { x with vault := v.drop (v.length - 2097152), vaultBuf := x.vaultBuf.drop n, vaultFlush := x.vaultFlush - n
                 vaultAt := if x.vaultAt.2 + 1 < 16 * s.blockSize then (x.vaultAt.1, x.vaultAt.2 + 1)
                            else ((x.vaultAt.1 + 1) % max 1 x.vaultSetsN, 0) }
      ((s.modJsp fun x => { x with waiting := x.waiting ++ [e.extractLsb' 0 32 + 1#32] }).journal []).showSeqs

/-- The program of a class has its turn on its channel (R281). Once PWRFAIL_N has fallen nothing else is served. -/
def State.programTurn (s : State) (k : FlashProg) : Bool :=
  s.fld Fld.PWR_STATUS_PWRFAIL == 1 || (match k with
    | .install => (s.flash.inst.bind fun i => i.base.bind fun b => s.sectorPlace (b + i.done)).all fun q => s.turn (laneChan q.1) 5
    | .journal => s.turn s.journalLane 4
    | .vault => s.turn (setPlace s.flash.vaultAt.2).1 4)

/-- FLASH_PROGRAM_COMPLETE (R265, R270, R279, R281): the oldest program of its class completes or fails. Once PWRFAIL_N has fallen programs that were
in progress finish, and beside them only the vault's pages and the commits that record them are programmed (R280). -/
def execFlashProgramComplete (k : FlashProg) (ok : Bool) (us : BitVec 16) (s : State) : Host.Outcome State Fault Refusal :=
  .next (if !s.onyxUp ∨ !s.programTurn k then s
    else match k with
      | .install =>
        if s.onyxRun ∨ s.flash.inProgress.contains .install then
          (s.installProgram ok us.toNat).modFlash fun x => { x with inProgress := x.inProgress.filter (· != .install) }
        else s
      | .journal => s.journalProgram ok us.toNat
      | .vault => s.vaultProgram ok us.toNat)

/-- The classes of which a program is in progress (R280): those that have one to make and their turn. -/
def State.inProgressNow (s : State) : List FlashProg :=
  if !s.onyxUp then []
  else [FlashProg.install, FlashProg.journal].filter fun k => s.programTurn k && (match k with
    | .install => s.flash.inst.any fun i => i.pageReady
    | _ => s.flash.copyB.isNone && s.flash.jq != [])

/-- A dropped band whose blocks have all been erased or retired is freed (R266). -/
def State.returnBands (s : State) : State :=
  let held := s.bandsHeld
  let done := s.flash.img.bands.filter fun b => !held.contains b.1 && b.2.zipIdx.all fun p =>
    let u := (s.flash.img.block (blockKey p.2 p.1)).use
    u == .cleared || u == .retired
  let waiting := s.flash.jq.flatMap fun c => c.filterMap fun r => match r with | .bandFree b => some b | _ => none
  s.each (done.filter fun b => !waiting.contains b.1) fun s b => s.journal [.bandFree b.1]

/-- FLASH_ERASE_COMPLETE (R273, R277): a block that holds nothing of use is erased: its counts follow, and it is free, cleared for its
band, to be read back, or retired. Nothing of another block. -/
def execFlashEraseComplete (lane : LaneId) (block : BlockId) (ok : Bool) (s : State) : Host.Outcome State Fault Refusal :=
  let k := blockKey lane.val block.toNat
  .next (if !s.onyxRun ∨ (s.flash.img.block k).use ≠ .erasing ∨ s.awaitsReadBack k then s
    else if !ok then
      let s := (s.wipeBlock k).modFlash fun x => { x with suspects := x.suspects.filter (· != k) }
      ((s.count (Ct.FCH_ERASE_FAILS (laneChan lane.val)) 1).retireBlock lane.val block.toNat .erase).returnBands.refreshOnyx
    else
      let s := (s.count (Ct.FCH_ERASES (laneChan lane.val)) 1).wipeBlock k
      let s := s.modFlash fun x => { x with unread := x.unread.filter fun u => u / 2 ^ 14 != k }
      let s := s.modImg fun x => x.modBlock k fun b => { b with erases := b.erases + 1, reads := 0#32 }
      let s :=
        if s.fld Fld.ONYX_WEAR_PE_LIMIT ≤ (s.flash.img.block k).erases then s.retireBlock lane.val block.toNat .wear
        else if s.flash.suspects.contains k then s
        else
          let mine := s.flash.img.bands.any fun b => b.2[lane.val]? == some block.toNat
          s.modImg fun x => x.useBlock k (if mine then .cleared else .free)
      s.returnBands.refreshOnyx)

/-! ### Encoders -/

/-- ENC_SEGMENT_RECEIVED: the encoder of die `m` has counted its segment, builds its lengths and chooses its table (R169, R177). Nothing
where it waits for no segment. -/
def execEncSegmentReceived (m : DieId) (s : State) : Host.Outcome State Fault Refusal :=
  .next (match s.flash.inst with
    | some i => match NMap.find i.encs m.val with
      | some ⟨seg, none, _⟩ => if s.onyxRun then s.receiveSeg i m.val seg else s
      | _ => s
    | none => s)

/-- ENC_SEGMENT_CODED: the encoder of die `m` has coded its segment (R170 to R177). Nothing where it codes none. -/
def execEncSegmentCoded (m : DieId) (s : State) : Host.Outcome State Fault Refusal :=
  .next (match s.flash.inst with
    | some i => match NMap.find i.encs m.val with
      | some ⟨seg, some (id, gen), data⟩ => if s.onyxRun then s.codeSeg i m.val seg id gen data else s
      | _ => s
    | none => s)

/-- The record of a table is written to the table area of every cluster (R178, R180). -/
def State.spreadTable (s : State) (id : Nat) : State :=
  let t := (NMap.find s.flash.img.tables id).getD ⟨0#1024, 0⟩
  s.each (List.range 64) fun s k => s.modCluster k fun x => { x with tables := NMap.set {} x.tables id ⟨t.lens, t.gen, true⟩ }

/-- TABLE_LIVE: an allocated ID's record stands in every cluster's table area (R178). Nothing of an ID that is not LOADING. -/
def execTableLive (id : Fin 64) (s : State) : Host.Outcome State Fault Refusal :=
  .next (if s.fld (Fld.CTAB_ID_STATE_STATE id.val) = 1 then
      ((s.setFld (Fld.CTAB_ID_STATE_STATE id.val) 2).spreadTable id.val).recountTables.settleTable id.val
    else s)

end Sys2Proof.Machine
end

