-- ==== Sys2Proof/Machine/Mount.lean ====
section
/-! DEFINITION. Mount and FORMAT (R254, R255, R263, R264, R268, R269, R277). -/

namespace Sys2Proof.Machine

/-! ### Discovery -/

/-- A target is one that R254 supports, and needs nothing that is not listed there. -/
def targetOk (g : TargetGeom) : Bool :=
  decide (1 ≤ g.luns.toNat) && decide (g.luns.toNat ≤ 4) && (g.planes.toNat == 1 || g.planes.toNat == 2 || g.planes.toNat == 4) &&
    g.page.toNat == 16384 && decide (1024 ≤ g.spare.toNat) && decide (256 ≤ g.pages.toNat) && decide (g.pages.toNat ≤ 4096) &&
    decide (0 < g.blocks.toNat) && decide (g.luns.toNat * g.planes.toNat * g.blocks.toNat * g.pages.toNat * 16384 ≤ 512 * 2 ^ 30) && !g.needs

/-- Two targets report the same geometry (R255). -/
def sameGeom (a b : TargetGeom) : Bool := decide ({ a with lunOk := b.lunOk } = b)

/-- The LUNs of a target that are in service: none of one that has failed (R254, R282). -/
def lunsInService (g : TargetGeom) : Nat := if targetOk g then g.lunOk.toNat % 2 ^ g.luns.toNat else 0

/-- LUN_OK of a channel (R282). -/
def lunMask (ts : List TargetGeom) : Nat := ((ts.take 8).zipIdx.map fun p => lunsInService p.1 * 2 ^ (4 * p.2)).sum

/-- A LUN of a channel has left service (R282): its own, or a failed target's. -/
def degraded (ts : List TargetGeom) : Bool := ts.any fun g => !targetOk g || lunsInService g != 2 ^ g.luns.toNat - 1

/-- A flash channel's registers after discovery (R282). GEOMETRY reports that of a supported target; where the channel has none it is FAILED and
the other fields keep their values. -/
def State.showChan (s : State) (n : Nat) (ts : List TargetGeom) : State :=
  let s := (s.setFld (Fld.FCH_GEOMETRY_TARGETS n) (min 8 ts.length)).setFld (Fld.FCH_LUN_OK_LUN n) (lunMask ts)
  let s := s.setFld (Fld.FCH_STATUS_DEGRADED n) (bit1 (degraded ts))
  match ts.find? targetOk with
  | none => s.setFld (Fld.FCH_STATUS_STATE n) 3
  | some g =>
    let s := (s.setFld (Fld.FCH_STATUS_STATE n) 2).setFld (Fld.FCH_GEOMETRY_LUNS n) g.luns.toNat
    let s := (s.setFld (Fld.FCH_GEOMETRY_PLANES n) g.planes.toNat).setFld (Fld.FCH_GEOMETRY_PAGES_PER_BLOCK n) g.pages.toNat
    (s.setFld (Fld.FCH_GEOMETRY_MP_INDEPENDENT n) (bit1 g.mpIndep)).setFld (Fld.FCH_BLOCKS_PER_PLANE n) g.blocks.toNat

/-- The population of sixteen channels with `n` targets of this geometry. -/
def populationOf (g : TargetGeom) (n : Nat) : FlashGeom :=
  { targets := finMod 9 n (by decide), luns := finMod 5 g.luns.toNat (by decide), planes := finMod 5 g.planes.toNat (by decide)
    pages := finMod 4097 g.pages.toNat (by decide), blocks := g.blocks, mpIndep := g.mpIndep }

/-- The population that serves (R255): sixteen channels with the same number of targets, every one supported and of the same geometry. -/
def oneGeom (d : Discovery) : Option FlashGeom :=
  match d.chans with
  | (g :: rest) :: more =>
    let n := rest.length + 1
    if d.chans.length = 16 ∧ n ≤ 8 ∧ (more.all fun ts => ts.length == n) ∧ (d.chans.flatten.all fun h => targetOk h && sameGeom h g) then
      some (populationOf g n)
    else none
  | _ => none

/-- Every channel's registers. -/
def State.showChans (s : State) (d : Discovery) : State :=
  (d.chans.take 16).zipIdx.foldl (fun s p => s.showChan p.2 p.1) s

/-! ### What stands in the system area (R268) -/

/-- Key of the n-th page of a set. -/
def FlashSt.setKey (x : FlashSt) (set n : Nat) : Nat := pageKey (setPlace n).1 (x.setBlock set (setPlace n).1) (setPlace n).2

/-- The tables of the checkpoint whose first page is `at_` of `set`: none unless all of its pages decode (R267). -/
def FlashSt.loadCkpt (x : FlashSt) (spoilt : List Nat) (set at_ : Nat) : Option OnyxImg :=
  match x.readSys spoilt (x.setKey set at_) with
  | some (.ckpt 0 n (some img)) =>
    if (List.range n).all fun k => match x.readSys spoilt (x.setKey set (at_ + k)) with
        | some (.ckpt j m _) => j == k && m == n
        | _ => false
    then some img else none
  | _ => none

/-- A copy of the commit of an epoch on a lane of a journal set, programmed after `from_`: the latest that decodes (R265). -/
def FlashSt.commitCopy (x : FlashSt) (spoilt : List Nat) (set lane : Nat) (epoch : BitVec 64) (from_ : Nat) : Option (Commit × Nat) :=
  x.sys.foldl (fun (b : Option (Commit × Nat)) (p : Nat × SysPage) =>
    if p.1 / 2 ^ 12 ≠ blockKey lane (x.setBlock set lane) ∨ p.2.seq < from_ then b
    else match x.readSys spoilt p.1 with
      | some (.commit c) => if c.epoch = epoch ∧ c.ok ∧ (b.all fun q => decide (q.2 < p.2.seq)) then some (c, p.2.seq) else b
      | _ => b) none

/-- The commit of an epoch: copy A, or copy B where copy A does not decode (R268). -/
def FlashSt.commitOf (x : FlashSt) (spoilt : List Nat) (set : Nat) (epoch : BitVec 64) (from_ : Nat) : Option (Commit × Nat) :=
  match x.commitCopy spoilt set (epoch.toNat % 16) epoch from_ with
  | some c => some c
  | none => x.commitCopy spoilt set ((epoch.toNat + 8) % 16) epoch from_

/-- Durable commits from an epoch on, up to the first epoch with neither copy valid (R268); `n` bounds them. -/
def FlashSt.commitsFrom (x : FlashSt) (spoilt : List Nat) (set : Nat) : Nat → BitVec 64 → Nat → List Commit
  | 0, _, _ => []
  | n + 1, e, from_ => match x.commitOf spoilt set e from_ with
    | some c => c.1 :: x.commitsFrom spoilt set n (e + 1#64) (c.2 + 1)
    | none => []

/-- Onyx's tables after the checkpoint and every durable commit behind it (R268). -/
def replayed (img : OnyxImg) (cs : List Commit) : OnyxImg := cs.foldl (fun img c => c.recs.foldl applyRec img) img

/-- The next handle: the anchor's, or past those that the journal names (R258, R264). -/
def handleAfter (a : Anchor) (cs : List Commit) : Nat :=
  cs.foldl (fun n c => c.recs.foldl (fun n r => match r with | .objBegin h _ => max n (h + 1) | _ => n) n) a.nextHandle

/-- The vault's head (R279): behind the readable page of highest sequence, compared under R38, and behind every page of its set that has been
programmed. -/
def FlashSt.vaultHead (x : FlashSt) (spoilt : List Nat) (pages : Nat) : Nat × Nat :=
  let newest := x.sys.foldl (fun (b : Option (BitVec 32 × Nat)) (p : Nat × SysPage) => match x.readSys spoilt p.1 with
    | some (.vault es) =>
      let q := (es.getD 0 0#256).setWidth 32
      if b.all fun c => tickLater q c.1 then some (q, p.1) else b
    | _ => b) none
  match newest with
  | none => (0, 0)
  | some q =>
    let lane := q.2 / 2 ^ 32
    let set := ((x.sets.drop 4).findIdx? fun l => l.getD lane 0 == q.2 / 2 ^ 12 % 2 ^ 20).getD 0
    let n := ((List.range 16).map fun l => x.sysNext l (x.setBlock (4 + set) l)).sum
    if n < 16 * pages then (set, n) else ((set + 1) % max 1 (x.sets.length - 4), 0)

/-! ### Mount (R268) -/

/-- Uses of the blocks after a replay: members of a band that holds an object, the system area and retired blocks stay; any other block
is free, or to be erased where it holds pages or belongs to a band (R268, R281). -/
def OnyxImg.settle (x : OnyxImg) (nand : NMap (List CodeWord)) (held : List Nat) : OnyxImg :=
  let used := (nand.map fun p => p.1 / 2 ^ 12).eraseDups
  let keys := (x.blocks.map (·.1) ++ used).eraseDups
  keys.foldl (fun x k =>
    let owner := x.bands.find? fun b => b.2[k / 2 ^ 20]? == some (k % 2 ^ 20)
    match (x.block k).use, owner with
    | .retired, _ => x
    | .system, _ => x
    | _, some b => x.useBlock k (if held.contains b.1 then .band b.1 else .erasing)
    | _, none => x.useBlock k (if used.contains k then .erasing else .free)) x

/-- An installation without its end is discarded (R268). -/
def State.discard (s : State) (h : Nat) (o : OnyxObj) : State :=
  let s := s.modImg fun x => { x with objs := NMap.del x.objs h }
  let s := (s.raise Fld.ONYX_STATUS_DISCARDED).count Ct.ONYX_DISCARDED_INSTALLS 1
  (s.jasper .installDiscarded 0 h o.index).postEvent o.ent.part 0x09 o.index 0xFFFF 0 []

/-- The page of a logical sector is read by mount (R259, R273). -/
def State.mountRead (s : State) (sec : Nat) : State :=
  match s.sectorPlace sec with
  | some (lane, block, page, _) => match NMap.find s.flash.nand (pageKey lane block page) with
    | some cws => s.readOwn lane block page cws
    | none => s
  | none => s

/-- A page of the system area is read by mount (R259, R273): one that does not decode as `spoilt` tells, else as free values say (log entry 83). -/
def State.mountSys (s : State) (spoilt : List Nat) (key : Nat) : State :=
  let r := s.drawRead
  (r.2.readSysPage key (r.1.map fun x => { x with failed := spoilt.contains key, soft := x.soft && s.fld Fld.ONYX_ECC_POLICY_SOFT_EN == 1
                                                  retries := finMod 16 (min x.retries.val s.retryMax) (by decide) }) 0).2

/-- The origin index of an object as its own sectors hold it (R258, R262), with each tile's stored size as its header names it (R173). Where a
sector of it cannot be read, none of its tiles can. -/
def State.readIndex (s : State) (h : Nat) (o : OnyxObj) : List (Nat × Nat × Nat) :=
  match s.readSectors indexHandle o.base (o.sectors - o.indexSectors) o.indexSectors with
  | none => []
  | some bs => (List.range o.ent.size).map fun t =>
    let w := leNat ((bs.drop (4 * t)).take 4)
    let n := w / 2 ^ 27 % 32 + 1
    let size := match s.readSector h o.base (w % 2 ^ 27) with
      | some b => min (4096 * n) (TileHdr.read (Mem.ofBytes (b.take 64)) 0).stored
      | none => 4096 * n
    (w % 2 ^ 27, n, size)

/-- The origin index of a committed object is read from its sectors (R262, R268). -/
def State.loadIndex (s : State) (h : Nat) (o : OnyxObj) : State :=
  let first := o.base + o.sectors - o.indexSectors
  let pages := ((List.range o.indexSectors).map fun i => (first + i) / 4).eraseDups
  let s := s.each pages fun s p => s.mountRead (4 * p)
  let tiles := s.readIndex h o
  s.modImg fun x => { x with objs := NMap.ins x.objs h { o with tiles } }

/-- A committed object enters the object table (R268): LIVE, nothing resident, every tile at its origin. -/
def State.reenter (s : State) (h : Nat) (o : OnyxObj) : State :=
  let r := s.takeSpread (ceilDiv o.ent.size 8192) (.directory o.index)
  let x : Obj := { o.ent with state := .live, age := 0#32, resident := 0, dirFrames := r.1, firstDie := none, dying := none
                              goLive := false }
  let s := r.2.modPlace fun p => { p with objs := NMap.ins p.objs o.index x }
  let s := s.setFld (Fld.OBJ_USE_FLASH_TILES x.part) (s.fld (Fld.OBJ_USE_FLASH_TILES x.part) + x.size)
  (s.recountObjs.initDir o.index).indexFrames h o.tiles

/-- The registry is restored (R168, R178, R268). -/
def State.restoreTable (s : State) (id : Nat) : State :=
  match NMap.find s.flash.img.tables id with
  | none => (s.setFld (Fld.CTAB_ID_STATE_GEN id) 0).setFld (Fld.CTAB_ID_REFS_REFS id) 0
  | some t =>
    let refs := (s.flash.img.objs.map fun o => ((o.2.refs.filter fun r => r.1 == id).map (·.2)).sum).sum
    let s := s.setFld (Fld.CTAB_ID_STATE_GEN id) t.gen
    if lensOk (lensOf t.lens) then
      let s := s.setFld (Fld.CTAB_ID_REFS_REFS id) refs
      if refs = 0 then s else (s.setFld (Fld.CTAB_ID_STATE_STATE id) 2).spreadTable id
    else (s.raise Fld.CTAB_STATUS_TABLE_ERROR).jasper .tableBad 0 id 0

/-- Reads of every block after a power-down without a checkpoint (R268). -/
def OnyxImg.ageReads (x : OnyxImg) (n : Nat) : OnyxImg :=
  let add := fun (b : BlockInfo) => { b with reads := BitVec.ofNat 32 (min (2 ^ 32 - 1) (b.reads.toNat + n)) }
  let blank := add x.blank
  { x with blank, blocks := NMap.mapD blank add x.blocks }

/-- Blocks that hold data. -/
def State.dataBlocks (s : State) : List Nat :=
  (s.flash.img.blocks.filter fun p => match p.2.use with | .band _ => true | _ => false).map (·.1)

/-- The last programmed page of a block is read (R268): where its codewords ask for it the block is queued for refresh (R273). -/
def State.lastPage (s : State) (last : List (LaneId × BlockId × List CodeRead)) (k : Nat) : State :=
  match (s.blockPages k).getLast? with
  | none => s
  | some p =>
    let outs := (last.find? fun q => blockKey q.1.val q.2.1.toNat == k).map fun q => q.2.2
    (s.readPage (k / 2 ^ 20) (k % 2 ^ 20) p.1 p.2 (outs.getD []) 0 true).2

/-- What mount does once the anchor has been read, the checkpoint loaded and the commits behind it found. -/
def State.mountFrom (s : State) (d : Discovery) (spoilt : List Nat) (a : Anchor) (img : OnyxImg) (cs : List Commit) : State :=
  let unclean := !s.flash.clean
  let s := s.modFlash fun x =>
    { x with img := replayed img cs, epoch := a.epoch + BitVec.ofNat 64 cs.length, nextHandle := handleAfter a cs, clean := false
             countedAt := s.now, patrolAt := s.now, patrolled := [], jset := a.jour.1, jcount := cs.length, cset := a.ckpt.1
             vault := x.vaultStored spoilt, vaultAt := x.vaultHead spoilt s.blockSize }
  let s := s.each (s.flash.img.objs.filter fun p => !p.2.committed) fun s p => s.discard p.1 p.2
  let s := s.modImg fun x => x.settle s.flash.nand s.bandsHeld
  let s := s.each s.flash.img.objs fun s p => s.loadIndex p.1 p.2
  let s := s.each s.flash.img.objs fun s p => s.reenter p.1 p.2
  let s := s.takeSystem
  let s := (s.each (List.range 64) State.restoreTable).recountTables
  let s := s.setFld Fld.ONYX_STATUS_UNCLEAN (bit1 unclean)
  let s := s.when unclean fun s => s.modImg fun x => x.ageReads (s.fld Fld.ONYX_RD_LIMIT_LIMIT / 4)
  let s := s.each s.flash.sys fun s p => s.mountSys spoilt p.1
  let s := s.each s.dataBlocks fun s k => (s.countReads k 0).lastPage d.last k
  let s := ((s.setFld Fld.ONYX_MOUNT_MS_MS d.ms.toNat).onyxSet onyxMounted).refreshOnyx
  let s := s.rebaseVault.passVault.resumeFlush.recordDue
  s.each s.flash.img.objs fun s p =>
    s.when (p.2.ent.policy == .pinned) fun s => s.startJob { object := p.2.index, next := 0, target := .pinned, shrink := none, done := none }

/-- Mount on a population that serves (R263, R268): UNFORMATTED without an anchor, and FAILED where its checkpoint cannot be read, of which the
spec says nothing (log entry 79). -/
def State.mountOn (s : State) (d : Discovery) : State :=
  let spoilt := d.spoilt.map fun p => pageKey p.1.val p.2.1.toNat p.2.2.toNat
  match s.flash.anchorOf spoilt with
  | none => (s.onyxSet onyxUnformatted).setFld Fld.BOOT_STATE_STATE 5
  | some a => match s.flash.loadCkpt spoilt a.ckpt.1 a.ckpt.2 with
    | none => (s.onyxSet onyxFailed).endStart 8 7
    | some img =>
      let cs := s.flash.commitsFrom spoilt a.jour.1 s.flash.sys.length (a.epoch + 1#64) 0
      let x := replayed img cs
      -- an anchor's block that has left service is a bad one (R263)
      if (List.range 4).any fun l => (x.block (blockKey l 0)).use == .retired || (x.block (blockKey l 1)).use == .retired then
        (s.onyxSet onyxFailed).endStart 8 7
      else (s.mountFrom d spoilt a img cs).setFld Fld.BOOT_STATE_STATE 5

/-- MOUNT: the flash population is found, and what stands in it is restored (R254, R255, R263, R268). In start-up a population that cannot
serve ends it (R367). Nothing but while BOOT.STATE is MOUNTING. -/
def execMount (d : Discovery) (s : State) : Host.Outcome State Fault Refusal :=
  .next (if s.fld Fld.BOOT_STATE_STATE ≠ 4 ∨ onyxMounting < s.fld Fld.ONYX_STATUS_STATE then s
    else
      let s := (s.onyxSet onyxMounting).showChans d
      match oneGeom d, d.anchorBad with
      | some g, false => (s.modFlash fun x => { x with geom := some g }).mountOn d
      | _, _ => (s.onyxSet onyxFailed).endStart 8 7)

/-! ### FORMAT -/

/-- FORMATTING (R283). -/
def onyxFormatting : Nat := 6

/-- Sets of sixteen blocks that the vault takes (R263): 64 MiB twice over, in at least two sets, since the oldest is erased before it is
written again. -/
def vaultSets (pages : Nat) : Nat := max 2 (ceilDiv 512 pages)

/-- A block at FORMAT (R277): one in service is erased, and one that has reached PE_LIMIT with it retires. -/
def BlockInfo.formatted (limit : Nat) (b : BlockInfo) : BlockInfo :=
  if b.use = .retired then b
  else { use := if limit ≤ b.erases + 1 then .retired else .free, erases := b.erases + 1, reads := 0#32 }

/-- The block table after FORMAT's marks and erases (R277): `bad` are marked, the erase of those in `fails` fails. -/
def formatBlocks (limit : Nat) (old : OnyxImg) (bad fails : List Nat) : OnyxImg :=
  let x := (bad ++ fails).foldl (fun (x : OnyxImg) k => x.modBlock k fun b => { b with use := .retired }) { blank := old.blank, blocks := old.blocks }
  let blank := x.blank.formatted limit
  { x with blank, blocks := NMap.mapD blank (BlockInfo.formatted limit) x.blocks }

/-- The n-th block of a lane in service for a set of the system area (R263): past the anchors' two, in order. -/
def OnyxImg.setBlocks (x : OnyxImg) (g : FlashGeom) (lane n : Nat) : List Nat :=
  (((List.range (n + (x.laneBlocks lane).length)).map (· + 2)).filter fun b =>
    (x.block (blockKey lane b)).use == .free && decide (b < g.blocks.toNat)).take n

/-- Blocks out of service on a channel, or on all. -/
def OnyxImg.gone (x : OnyxImg) (g : FlashGeom) (mine : Nat → Bool) : Nat :=
  let lanes := (List.range g.lanes).filter mine
  let listed := x.blocks.filter fun p => mine (p.1 / 2 ^ 20)
  (listed.filter fun p => p.2.use == .retired).length +
    if x.blank.use = .retired then lanes.length * g.blocks.toNat - listed.length else 0

/-- What FORMAT leaves in the flash, once its blocks have been erased to leave `img` (R263, R264, R277): the anchors, an empty journal, and a first
checkpoint that holds no object and no table. -/
def State.writeFormat (s : State) (g : FlashGeom) (img : OnyxImg) (n : Nat) : State :=
  let blocks := (List.range 16).map fun l => img.setBlocks g l n
  let sets := (List.range n).map fun j => blocks.map fun l => l.getD j 0
  let img := (List.range 4).foldl (fun x l => (x.useBlock (blockKey l 0) .system).useBlock (blockKey l 1) .system) img
  let img := blocks.zipIdx.foldl (fun (x : OnyxImg) p => p.1.foldl (fun x b => x.useBlock (blockKey p.2 b) .system) x) img
  let marks := match s.flash.anchor with | some a => a.marks | none => []
  let s := { s with flash :=
    { sysSeq := s.flash.sysSeq, sets, marked := true, img, geom := some g, countedAt := s.now, patrolAt := s.now,
      vaultBuf := s.flash.vaultBuf, vaultFlush := s.flash.vaultFlush, marksDue := s.flash.marksDue } }
  let s := s.putCkpt 2 s.ckptPages
  let s := (s.count Ct.ONYX_CHECKPOINTS 1).putAnchor { epoch := 0#64, ckpt := (2, 0), jour := (0, 0), nextHandle := 1, marks }
  s.each (List.range 64) fun s id =>
    ((s.setFld (Fld.CTAB_ID_STATE_GEN id) 0).setFld (Fld.CTAB_ID_STATE_STATE id) 0).setFld (Fld.CTAB_ID_REFS_REFS id) 0

/-- Retirements of a FORMAT are recorded and counted (R277). -/
def State.retireAtFormat (s : State) (g : FlashGeom) (old img : OnyxImg) (fails : List Nat) : State :=
  let all := fun (_ : Nat) => true
  let s := s.count Ct.ONYX_RETIRED_BLOCKS (img.gone g all - old.gone g all)
  let new := img.blocks.filter fun p => p.2.use == .retired && (old.block p.1).use != .retired
  s.each new fun s p =>
    let why := if fails.contains p.1 then RetireWhy.erase else if p.2.erases = (old.block p.1).erases then .factory else .wear
    s.jasper .blockRetired (laneChan (p.1 / 2 ^ 20)) (p.1 / 2 ^ 20) (p.1 % 2 ^ 20 + why.code * 2 ^ 29)

/-- A FORMAT ends: MOUNTED or FAILED. While start-up waits for the mount, which the test-enable bit allows (R283), that is its outcome (R367). -/
def State.formatEnds (s : State) (ok : Bool) : State :=
  let waits := s.fld Fld.BOOT_STATE_STATE == 4
  if ok then
    let s := (s.onyxSet onyxMounted).refreshOnyx.rebaseVault.passVault.resumeFlush.recordDue
    s.when waits fun s => s.setFld Fld.BOOT_STATE_STATE 5
  else (s.onyxSet onyxFailed).when waits fun s => s.endStart 8 7

/-- ONYX.CMD FORMAT (R263, R277, R283): acted on in STATE UNFORMATTED, or while the test-enable bit is set. The factory marks are read once, since
the erases destroy them. It ends FAILED on a population that cannot serve, where an anchor's block is out of service, and where a lane has not
the blocks that the sets need (log entry 49). -/
def State.formatFlash (s : State) (d : Discovery) (bad fails : List Nat) : State :=
  let st := s.fld Fld.ONYX_STATUS_STATE
  if (st ≠ onyxUnformatted ∧ s.fld Fld.BOOT_TEST_ENABLE = 0) ∨ st = onyxFormatting ∨ s.fld Fld.PWR_STATUS_PWRFAIL = 1 then s
  else
    let s := (s.notIdle.abortInst .aborted []).when s.onyxUp State.flushJournal
    let s := (s.onyxSet onyxFormatting).showChans d
    match oneGeom d with
    | none => s.formatEnds false
    | some g =>
      let bad := if s.flash.marked then [] else bad
      let old := s.flash.img
      let fails := fails.filter fun k => (old.block k).use != .retired && !bad.contains k
      let img := formatBlocks (s.fld Fld.ONYX_WEAR_PE_LIMIT) old bad fails
      let marked := bad.foldl (fun (x : OnyxImg) k => x.modBlock k fun b => { b with use := .retired }) old
      let s := s.each (List.range 16) fun s n =>
        let mine := fun l => laneChan l == n
        let failed := (fails.filter fun k => mine (k / 2 ^ 20)).length
        (s.count (Ct.FCH_ERASES n) (g.lanes / 16 * g.blocks.toNat - marked.gone g mine - failed)).count (Ct.FCH_ERASE_FAILS n) failed
      let s := s.retireAtFormat g old img fails
      let n := 4 + vaultSets g.pages.val
      let anchors := (List.range 4).all fun l => (img.block (blockKey l 0)).use == .free && (img.block (blockKey l 1)).use == .free
      if anchors ∧ (List.range 16).all fun l => (img.setBlocks g l n).length == n then
        let s := (((s.freeFrames .system).writeFormat g img n).takeSystem).recountTables
        s.formatEnds (s.fld Fld.ONYX_STATUS_STATE == onyxFormatting)
      else (s.modFlash fun x => { x with geom := some g, img, marked := true }).formatEnds false

/-- FORMAT (R277, R283). -/
def execFormat (d : Discovery) (m : FormatIn) (s : State) : Host.Outcome State Fault Refusal :=
  let keys := fun (l : List (LaneId × BlockId)) => l.map fun p => blockKey p.1.val p.2.toNat
  .next (s.bar0 Rg.ONYX_CMD fun s => s.formatFlash d (keys m.bad) (keys m.fails))

end Sys2Proof.Machine
end

