-- ==== Sys2Proof/Machine/Sessions.lean ====
section
/-! DEFINITION. Sessions and their commands (R339, R340, R343, R346, R347), and the changes of placement that commands ask for (R226, R229,
R239, R241). A command answers with the status and result of its completion, or none where it completes later. -/

namespace Sys2Proof.Machine

/-- What a command gives: its completion now, or none yet, and the state. A refused command leaves the state as it was (R342). -/
abbrev CmdOut := Option (Status × Nat) × State

/-- The refusal of a command. -/
def State.refuse (s : State) (st : Status) : CmdOut := (some (st, 0), s)

/-! ### Placement (R226, R229, R239, R241) -/

/-- KIND codes of R226. -/
def ObjKind.ofCode : Nat → Option ObjKind
  | 0 => some .weights
  | 1 => some .cache
  | 2 => some .session
  | 3 => some .journal
  | 4 => some .work
  | 5 => some .code
  | _ => none

/-- POLICY codes of R226. -/
def Policy.ofCode : Nat → Option Policy
  | 0 => some .pinned
  | 1 => some .resident
  | 2 => some .host
  | 3 => some .stream
  | _ => none

/-- The policies a kind permits (R229). -/
def ObjKind.permits : ObjKind → Policy → Bool
  | .weights, .host => false
  | .weights, _ => true
  | .cache, p | .session, p => p != .stream
  | .journal, p => p == .host
  | .work, p | .code, p => p == .pinned

/-- Free frames of the package. -/
def State.freeTotal (s : State) : Nat := ((List.range 4).map s.freeCount).sum

/-- Frames of an object's directory (R228). -/
def dirCount (size : Nat) : Nat := ceilDiv (8 * size) 65536

/-- The refusals of R239 for a PINNED object of partition `p` that needs `stack` more frames for its tiles and `d` for its directory, or for a
cache or session object that needs `host` more pages. -/
def State.tooLarge (s : State) (p : Nat) (k : ObjKind) (pol : Policy) (stack host d : Nat) : Bool :=
  match pol with
  | .pinned => !s.within (Fld.OBJ_QUOTA_STACK_LIMIT p) (s.framesOf p + stack) || decide (s.freeTotal < stack + d)
  | .host => (k == .cache || k == .session) && !s.within (Fld.OBJ_QUOTA_HOST_LIMIT p) (s.pagesOf p + host)
  | _ => false

/-- The change of an object's policy, class, die and, where given, share mask, with the moves it asks for (R241): `ref` completes with
them where `wait` is set. -/
def State.placeObj (s : State) (o : Nat) (pol : Policy) (cls die : Nat) (share : Option (BitVec 16)) (ref : CmdRef) (wait : Bool) : CmdOut :=
  match s.obj o with
  | none => s.refuse .objectState
  | some x =>
    let framed := (s.framed (· == o)).length
    let paged := s.paged (· == o)
    let toPage := (s.place.dir.filter fun d => d.1 / 2 ^ 22 == o && d.2.home == .stack && !paged.contains d.1).length
    if !x.live then s.refuse .objectState
    else if 5 < die then s.refuse .invalidField
    else if !x.kind.permits pol then s.refuse .objectState
    else if s.tooLarge x.part x.kind pol (x.size - framed) (x.size - paged.length) 0 ∨
        (pol = .host ∧ (s.freePages x.part).length < toPage) then s.refuse .noSpace
    else
      let s := s.modObj o fun x => { x with policy := pol, cls, placeDie := die, share := share.getD x.share }
      let s := s.startJob { object := o, next := 0, target := pol, shrink := none, done := if wait then some ref else none }
      (if wait then none else some (.success, 0), s)

/-! ### Sessions -/

/-- A session, none where it is FREE. -/
def State.session (s : State) (i : Nat) : Option Session := NMap.find s.hostq.sess i

/-- The host side changed. -/
def State.modHost (s : State) (f : HostSt → HostSt) : State := { s with hostq := f s.hostq }

/-- PART.SESSIONS and PART.PREFILL_FREE follow the table and the store (R360). -/
def State.recountSess (s : State) : State :=
  let held := (s.hostq.sess.map fun p => (p.2.prefill.map fun r => r.tokens.length).sum).sum + (s.hostq.staged.map fun x => x.tokens.length).sum
  (s.setFld Fld.PART_SESSIONS_OPEN s.hostq.sess.length).setFld Fld.PART_PREFILL_FREE_TOKENS (1048576 - held)

/-- A session replaced. -/
def State.setSession (s : State) (i : Nat) (x : Session) : State :=
  (s.modHost fun h => { h with sess := NMap.ins h.sess i x }).recountSess

/-- The token of a session's journal record at position `p` (R350), 0 where it has no journal or it cannot be read. -/
def State.journalToken (s : State) (x : Session) (p : Nat) : BitVec 32 × State :=
  if x.journal = 0xFFFF#16 then (0#32, s)
  else
    let r := s.readTile x.journal.toNat (16 * p / 65536) (16 * p % 65536) 4
    (BitVec.ofNat 32 ((r.1.map leNat).getD 0), r.2)

/-- An object of partition `p` that a session names: LIVE, of the kind, with its SESSION field (R340). -/
def State.sessObj (s : State) (p i : Nat) (o : Nat) (k : ObjKind) : Status :=
  match s.obj o with
  | none => .partition
  | some x =>
    if x.part ≠ p then .partition
    else if x.kind ≠ k ∨ x.session.toNat ≠ i ∨ x.state ≠ .live then .objectState
    else .success

end Sys2Proof.Machine

namespace Sys2Proof
/-- Parameters that R340 permits. -/
def SessParams.allowed (o : SessParams) : Bool :=
  decide (1 ≤ o.topP.toNat) && decide (o.topP.toNat ≤ 32768) && o.stream != 0xFFFF#16
end Sys2Proof

namespace Sys2Proof.Machine

/-- OPEN_SESSION (R340, R343). -/
def State.doOpen (s : State) (p : Nat) (o : OpenOp) : CmdOut :=
  let i := o.sess.val
  let free := o.journal = 0xFFFF#16 ∧ !o.output
  let cache := s.sessObj p i o.cache.toNat .cache
  let journal := if free then Status.success else s.sessObj p i o.journal.toNat .journal
  if (s.session i).isSome then s.refuse .sessionState
  else if !o.par.allowed ∨ (s.hostq.sess.any fun q => q.2.slot == o.slot.val) ∨ (o.journal = 0xFFFF#16 ∧ o.output) then
    s.refuse .invalidField
  else if cache ≠ .success then s.refuse cache
  else if journal ≠ .success then s.refuse journal
  else
    (some (.success, 0), s.setSession i
      { part := p, state := .idle, slot := o.slot.val, output := o.output, cache := o.cache, journal := o.journal,
        maxPos := o.par.maxPos, invTemp := o.par.invTemp, topP := o.par.topP, stream := o.par.stream, pos := 0, lastTok := 0#32,
        prefill := [], dec := none, step := none })

/-- A command on session `i` of partition `p`: FREE sessions permit none, and another partition's are not to be named (R342, R343). -/
def State.onSession (s : State) (p i : Nat) (f : Session → CmdOut) : CmdOut :=
  match s.session i with
  | none => s.refuse .sessionState
  | some x => if x.part ≠ p then s.refuse .partition else f x

/-- PREFILL: the tokens it has read are the session's, which prefills behind what it already has (R343, R346). -/
def State.doPrefill (s : State) (p i count addr : Nat) (tokens : List (BitVec 32)) (ref : CmdRef) : CmdOut :=
  s.onSession p i fun x =>
    if x.state ≠ .idle ∧ x.state ≠ .prefill then s.refuse .sessionState
    else if count = 0 ∨ 65536 < count ∨ addr % 4 ≠ 0 then s.refuse .invalidField
    else if s.fld Fld.PART_PREFILL_FREE_TOKENS < tokens.length then s.refuse .noSpace
    else
      let s := s.setSession i { x with state := .prefill, prefill := x.prefill ++ [⟨ref, tokens⟩] }
      (none, s.modHost fun h => { h with prefillOrder := addOnce h.prefillOrder i })

/-- DECODE: a budget of tokens begins, is held behind a prefill, or ends (R343, R347); on an IDLE session a budget of 0 is not permitted. -/
def State.doDecode (s : State) (p i : Nat) (budget : Nat) (stop : BitVec 32) : CmdOut :=
  s.onSession p i fun x =>
    let run : Option DecodeRun := if budget = 0 then none else some ⟨budget, stop, 0⟩
    match x.state with
    | .parked => s.refuse .sessionState
    | .idle => if budget = 0 then s.refuse .sessionState else (some (.success, 0), s.setSession i { x with state := .decode, dec := run })
    | .prefill => (some (.success, 0), s.setSession i { x with dec := run })
    | _ => (some (.success, 0), s.setSession i { x with state := if budget = 0 then .idle else .decode, dec := run })

/-- SET_PARAMS (R339, R343). -/
def State.doParams (s : State) (p i : Nat) (o : SessParams) : CmdOut :=
  s.onSession p i fun x =>
    if !o.allowed then s.refuse .invalidField
    else (some (.success, 0), s.setSession i { x with maxPos := o.maxPos, invTemp := o.invTemp, topP := o.topP, stream := o.stream })

/-- TRUNCATE (R339, R343): the input of the next step is the token before the position. -/
def State.doTruncate (s : State) (p i pos : Nat) : CmdOut :=
  s.onSession p i fun x =>
    if x.state ≠ .idle ∧ x.state ≠ .parked then s.refuse .sessionState
    else if x.pos < pos then s.refuse .invalidField
    else
      let r := if pos = 0 then (0#32, s) else s.journalToken x (pos - 1)
      (some (.success, 0), r.2.setSession i { x with pos, lastTok := r.1 })

/-- PARK and UNPARK: a new policy for the session's cache, under R241, and a new state (R343). -/
def State.doPark (s : State) (p i : Nat) (from_ to_ : SessState) (pol : Option Policy) (ref : CmdRef) (wait : Bool) : CmdOut :=
  s.onSession p i fun x =>
    if x.state ≠ from_ then s.refuse .sessionState
    else match pol, s.obj x.cache.toNat with
      | none, _ => s.refuse .invalidField
      | some _, none => s.refuse .objectState
      | some pol, some y =>
        let r := s.placeObj x.cache.toNat pol y.cls y.placeDie none ref wait
        match r.1 with
        | some (.success, _) | none => (r.1, r.2.setSession i { x with state := to_ })
        | _ => r

/-- A session and its batch slot are freed; prefills outstanding complete with ABORTED (R343, R357). -/
def State.endSession (s : State) (i : Nat) : State :=
  match s.session i with
  | none => s
  | some x =>
    let s := s.modHost fun h => { h with sess := NMap.del h.sess i, prefillOrder := h.prefillOrder.filter (· != i) }
    (s.each x.prefill fun s r => s.completeCmd r.cmd .aborted 0).recountSess

/-- CLOSE_SESSION (R343). -/
def State.doClose (s : State) (p i : Nat) : CmdOut := s.onSession p i fun _ => (some (.success, 0), s.endSession i)

end Sys2Proof.Machine
end

