-- ==== Sys2Proof/Machine/Objects.lean ====
section
/-! DEFINITION. The commands that create, move, delete and install objects (R224, R239, R241, R251, R270, R271, R339, R354). -/

namespace Sys2Proof.Machine

/-! ### Entries and the unified range -/

/-- The `k`-th free index of the object table. -/
def State.freeIndex (s : State) (k : Nat) : Nat := s.place.objs.foldl (fun k p => if p.1 ≤ k then k + 1 else k) k

/-- A span put in a list ordered by first tile. -/
def insSpan (x : Nat × Nat) : List (Nat × Nat) → List (Nat × Nat)
  | [] => [x]
  | y :: ys => if x.1 < y.1 then x :: y :: ys else y :: insSpan x ys

/-- Runs of free tiles of the unified range (R223): first tile and length. -/
def State.freeRuns (s : State) : List (Nat × Nat) :=
  let used := s.place.objs.foldl (fun l p => insSpan (p.2.base, p.2.size) l) []
  let r := used.foldl (fun (acc : Nat × List (Nat × Nat)) u => (u.1 + u.2, acc.2 ++ [(acc.1, u.1 - acc.1)])) (0, [])
  (r.2 ++ [(r.1, 2 ^ 31 - r.1)]).filter fun q => q.2 != 0

/-- First tiles at which an object of `size` tiles can stand, run by run: the first and how many. -/
def State.starts (s : State) (size : Nat) : List (Nat × Nat) :=
  (s.freeRuns.filter fun r => decide (size ≤ r.2)).map fun r => (r.1, r.2 + 1 - size)

/-- The `k`-th of these. -/
def nthStart : Nat → List (Nat × Nat) → Nat
  | _, [] => 0
  | k, (a, n) :: rest => if k < n then a + k else nthStart (k - n) rest

/-- A new entry of the object table can be made (R239). -/
def State.entryRoom (s : State) (size : Nat) : Bool :=
  decide (s.place.objs.length < 65536) && !(s.starts size).isEmpty && decide (dirCount size ≤ s.freeTotal)

/-- A new entry, at a free index and in a free span of the device's choice, with its directory (R224, R228, log entry 7). -/
def State.newEntry (s : State) (x : Obj) : Nat × State :=
  let (t1, s) := s.fresh
  let (t2, s) := s.fresh
  let i := s.freeIndex (Config.pick t1 % (65536 - s.place.objs.length))
  let l := s.starts x.size
  let base := nthStart (Config.pick t2 % (l.map (·.2)).sum) l
  let r := s.takeSpread (dirCount x.size) (.directory i)
  (i, ((r.2.modPlace fun p => { p with objs := NMap.ins p.objs i { x with base, dirFrames := r.1 } }).recountObjs).initDir i)

/-- A frame filled with zeros is given at once to tile `t` of a PINNED object: on its own die, else on the next that has one (R228, R233). -/
def State.pinTile (s : State) (o t : Nat) : State :=
  match s.obj o with
  | none => s
  | some x =>
    let m := x.dieFor t
    match ([m, (m + 1) % 4, (m + 2) % 4, (m + 3) % 4].find? fun d => 0 < s.freeCount d).bind fun d => s.takeFrame d (.tile o t) with
    | none => s
    | some (f, s) =>
      let s := s.writeFrame (some x.part) f (List.replicate 65536 0#8)
      let s := ((s.setDir o t { home := .stack, frame := f }).count Ct.OBJ_MOVES 1).count (Ct.MOV_TILES_IN (frameDie f)) 1
      s.count (Ct.MOV_BYTES_MOVED (frameDie f)) 65536

/-- CREATE_OBJECT (R225, R226, R239, R339). -/
def State.doCreate (s : State) (p : Nat) (o : CreateOp) : CmdOut :=
  let size := o.size.toNat
  if o.part.val ≠ p then s.refuse .partition
  else match ObjKind.ofCode o.kind.val, Policy.ofCode o.policy.val with
    | some k, some pol =>
      if k = .weights ∨ !k.permits pol ∨ 5 < o.placeDie.val ∨ size = 0 ∨ 4194304 < size then s.refuse .invalidField
      else if !s.entryRoom size ∨ s.tooLarge p k pol size size (dirCount size) then s.refuse .noSpace
      else
        let keep := k == .cache || k == .session || k == .journal
        let r := s.newEntry
          { state := .live, kind := k, part := p, policy := pol, cls := o.cls.val, salt := 0#8, base := 0, size, placeDie := o.placeDie.val
            share := o.share, session := if keep then o.session else 0xFFFF#16, age := 0#32, origin := 0#32, resident := 0, dirFrames := []
            firstDie := none, dying := none, goLive := false }
        (some (.success, r.1), if pol = .pinned then r.2.each (List.range size) fun s t => s.pinTile r.1 t else r.2)
    | _, _ => s.refuse .invalidField

/-- The object of a command is partition `p`'s own (R342). -/
def State.owned (s : State) (p o : Nat) : Bool := (s.obj o).any fun x => x.part == p

/-- SET_PLACEMENT (R241, R339): the share mask counts on privileged queues only. -/
def State.doPlacement (s : State) (p : Nat) (o : PlaceOp) (priv : Bool) (ref : CmdRef) (wait : Bool) : CmdOut :=
  if !s.owned p o.object.toNat then s.refuse .partition
  else match Policy.ofCode o.policy.val with
    | none => s.refuse .invalidField
    | some pol => s.placeObj o.object.toNat pol o.cls.val o.placeDie.val (if priv then some o.share else none) ref wait

/-- DELETE_OBJECT (R251, R357): the object is DELETING, and is freed once no fetch of it remains. -/
def State.doDelete (s : State) (p : Nat) (o : Nat) (ref : CmdRef) : CmdOut :=
  match s.obj o with
  | none => s.refuse .partition
  | some x =>
    if x.part ≠ p then s.refuse .partition
    else if !x.live ∨ (s.hostq.sess.any fun q => q.2.cache.toNat == o || (q.2.journal.toNat == o && q.2.journal != 0xFFFF#16)) then
      s.refuse .objectState
    else (none, (s.modObj o fun x => { x with state := .deleting, dying := some [ref] }).settleDeletes)

/-- INSTALL (R239, R270, R339): the entry is created INSTALLING, staging is reserved (R177), and OBJ_BEGIN follows. -/
def State.doInstall (s : State) (p : Nat) (o : InstallOp) (ref : CmdRef) : CmdOut :=
  let w := o.wBytes.toNat
  match Fmt.ofCode o.format.val, groupSize o.group.val, Policy.ofCode o.policy.val with
  | some fm, some n, some pol =>
    let wTiles := ceilDiv w 65536
    let tiles := wTiles + ceilDiv wTiles (blocksPerScaleTile fm n)
    if s.flash.inst.isSome then s.refuse .busy
    else if s.fld Fld.ONYX_STATUS_STATE = onyxReadOnly then s.refuse .readOnly
    else if !fm.isWeight ∨ !(ObjKind.weights).permits pol ∨ 5 < o.placeDie.val ∨ w = 0 ∨ 4194304 < tiles ∨
        o.sBytes.toNat ≠ wTiles * scaleRecordBytes fm n then s.refuse .invalidField
    else if !s.onyxUp ∨ !s.entryRoom tiles ∨ s.tooLarge p .weights pol tiles 0 (dirCount tiles) ∨
        !s.within (Fld.OBJ_QUOTA_FLASH_LIMIT p) (s.fld (Fld.OBJ_USE_FLASH_TILES p) + tiles) then s.refuse .noSpace
    else
      let h := s.flash.nextHandle
      let r := s.newEntry
        { state := .installing, kind := .weights, part := p, policy := pol, cls := o.cls.val, salt := 0#8, base := 0, size := tiles
          placeDie := o.placeDie.val, share := o.share, session := 0xFFFF#16, age := 0#32, origin := BitVec.ofNat 32 h, resident := 0
          dirFrames := [], firstDie := none, dying := none, goLive := false }
      let s := r.2.modFlash fun x =>
        { x with nextHandle := h + 1
                 inst := some
                   { handle := h, object := r.1, fmt := o.format.val, group := o.group.val, wAddr := o.wAddr.toNat, wBytes := w
                     sAddr := o.sAddr.toNat, sBytes := o.sBytes.toNat, wTiles, tiles, threshold := r.2.fld Fld.CTAB_CTRL_RAW_THRESHOLD
                     tol := r.2.fld Fld.CTAB_CTRL_REUSE_TOL, salt := none, cmd := ref } }
      (none, (s.takeSpread 2048 .staging).2.beginObject)
  | _, _, _ => s.refuse .invalidField

/-- ABORT_INSTALL (R271, R339). -/
def State.doAbort (s : State) (p o : Nat) (ref : CmdRef) : CmdOut :=
  if !s.owned p o then s.refuse .partition
  else if s.flash.inst.any fun i => i.object == o then (none, s.abortInst .aborted [ref])
  else s.refuse .objectState

/-- SHRINK_HOST_PAGES (R339, R354): the tiles in pages at or above the count move to free pages below it, and HPT_COUNT falls with the last. -/
def State.doShrink (s : State) (p count : Nat) (ref : CmdRef) : CmdOut :=
  let high := s.place.pages.filter fun pg => pagePart pg == p && decide (count ≤ pageIdx pg)
  let low := (s.freePages p).filter fun pg => decide (pageIdx pg < count)
  if 2 ^ 28 < count then s.refuse .invalidField
  else if low.length < high.length then s.refuse .noSpace
  else
    let high := fun pg => pagePart pg == p && decide (count ≤ pageIdx pg)
    let objs := (s.place.objs.filter fun x =>
      (s.place.dir.any fun d => d.1 / 2 ^ 22 == x.1 && d.2.home == .host && high d.2.page) ||
        (s.place.oldPages.any fun d => d.1 / 2 ^ 22 == x.1 && high d.2) ||
        s.place.moves.any fun m => m.1 / 2 ^ 22 == x.1 && (match m.2.dest with | .page pg => high pg | _ => false)).map (·.1)
    let cur := s.fld (Fld.PARTN_HPT_COUNT_COUNT p)
    if objs = [] then (some (.success, 0), if count < cur then (s.forceFld (Fld.PARTN_HPT_COUNT_COUNT p) count).recountPages else s)
    else
      let jobs : List Job := objs.map fun o => { object := o, next := 0, target := .host, shrink := some (p, count), done := some ref }
      (none, (s.modPlace fun x => { x with jobs := x.jobs ++ jobs }).advanceJobs)

end Sys2Proof.Machine
end

