-- ==== Sys2Proof/Machine/Commands.lean ====
section
/-! DEFINITION. Queues and the application of commands (R329, R333 to R339, R353, R355, R356, R359), one meaning for each host command. -/

namespace Sys2Proof.Machine

/-! ### Queues -/

/-- The device queue that function `fn` sees as its queue `q` (R333): with VFs enabled the PF's are queues 0 to 15. -/
def State.deviceQueue (s : State) (fn q : Nat) : Option Nat :=
  if fn = 0 then (if q < 256 ∧ s.ownerFn q = 0 then some q else none)
  else if fn ≤ s.hostq.numVfs ∧ q < 15 then some (16 + 15 * (fn - 1) + q)
  else none

/-- Entries of a queue's SQ and CQ. -/
def State.sqSize (s : State) (q : Nat) : Nat := 2 ^ s.fld (Fld.HQ_Q_CFG_SQ_LOG2 q)
/-- Entries of the CQ. -/
def State.cqSize (s : State) (q : Nat) : Nat := 2 ^ s.fld (Fld.HQ_Q_CFG_CQ_LOG2 q)

/-- The partition that a queue serves, but for the entries of a privileged one (R329, R359). -/
def State.queuePart (s : State) (q : Nat) : Nat :=
  if s.vfQueue q then s.ownerFn q - 1 else s.fld (Fld.HQ_Q_CFG_PARTITION q)

/-- A privileged PF queue (R329). -/
def State.queuePriv (s : State) (q : Nat) : Bool := !s.vfQueue q && s.fld (Fld.HQ_Q_CFG_PRIV q) == 1

/-- A queue error (R337): the queue stops. Cause 1 is SQ_TAIL out of range, 2 an entry that could not be read. -/
def State.queueError (s : State) (q cause : Nat) : State :=
  let s := (s.setFld (Fld.HQ_Q_STATUS_RUNNING q) 0).raise (Fld.HQ_Q_STATUS_ERROR q)
  let s := (s.setFld (Fld.HQ_Q_STATUS_CAUSE q) cause).count Ct.HQ_QUEUE_ERRORS 1
  s.jasper .queueError (s.queuePart q) q cause

/-- A doorbell wakes the device (R409), and acts on a queue that runs. -/
def State.onDoorbell (s : State) (fn q : Nat) (f : Nat → State → State) : State :=
  match s.deviceQueue fn q with
  | none => s
  | some d =>
    let s := s.notIdle.beginWake
    if s.fld (Fld.HQ_Q_STATUS_RUNNING d) = 1 then f d s else s

/-- A write of SQ_TAIL: new entries may be fetched (R334, R335), or the queue stops (R337). -/
def State.ringTail (s : State) (fn q v : Nat) : State :=
  s.onDoorbell fn q fun d s => if s.sqSize d ≤ v then s.queueError d 1 else s.modQueue d fun x => { x with tail := v }

/-- A write of CQ_HEAD: completion entries are free again, and those that wait are written (R334, R336). -/
def State.ringHead (s : State) (fn q v : Nat) : State :=
  s.onDoorbell fn q fun d s =>
    if s.cqSize d ≤ v then s else (s.modQueue d fun x => { x with cqHead := v }).drainCq d (s.queue d).blocked.length

/-- SQ_TAIL (R334, R335, R337). -/
def execSqTail (fn : FnId) (q : QueueId) (v : BitVec 16) (s : State) : Host.Outcome State Fault Refusal :=
  .next (s.ringTail fn.val q.val v.toNat)

/-- CQ_HEAD (R334, R336). -/
def execCqHead (fn : FnId) (q : QueueId) (v : BitVec 16) (s : State) : Host.Outcome State Fault Refusal :=
  .next (s.ringHead fn.val q.val v.toNat)

/-- A queue starts with both indices at 0 (R359). -/
def State.startQueue (s : State) (q : Nat) : State :=
  let s := (s.wr (Rg.HQ_Q_HEADS q) 0#32).modQueue q fun _ => {}
  (s.setFld (Fld.HQ_Q_STATUS_CAUSE q) 0).raise (Fld.HQ_Q_STATUS_RUNNING q)

/-- A queue stops, and its staged commands are discarded (R335, R359). -/
def State.stopQueue (s : State) (q : Nat) : State :=
  let s := (s.setFld (Fld.HQ_Q_STATUS_RUNNING q) 0).modQueue q fun _ => {}
  (s.modHost fun h => { h with staged := h.staged.filter fun x => x.q != q }).recountSess

/-- A log size that R359 permits, else the field's old value. -/
def keepLog (lo hi old new : Nat) : Nat := if lo ≤ new ∧ new ≤ hi then new else old

/-- A write of Q_CFG (R359): fields other than ENABLE change only while ENABLE is 0; PARTITION and PRIV are the PF's to write, and a vector
beyond the function's leaves its field as it was (log entry 71). -/
def State.writeQCfg (s : State) (q : Nat) (v : BitVec 32) : State :=
  let was := s.fld (Fld.HQ_Q_CFG_ENABLE q) == 1
  let pf := !s.vfQueue q
  let s :=
    if was then s
    else
      let s := s.setFld (Fld.HQ_Q_CFG_SQ_LOG2 q) (keepLog 4 12 (s.fld (Fld.HQ_Q_CFG_SQ_LOG2 q)) (bvGet 1 4 v))
      let s := s.setFld (Fld.HQ_Q_CFG_CQ_LOG2 q) (keepLog 4 12 (s.fld (Fld.HQ_Q_CFG_CQ_LOG2 q)) (bvGet 5 4 v))
      let s := s.when pf fun s => (s.setFld (Fld.HQ_Q_CFG_PARTITION q) (bvGet 9 4 v)).setFld (Fld.HQ_Q_CFG_PRIV q) (bvGet 13 1 v)
      let s := s.when (s.vectorOk (if pf then 0 else s.ownerFn q) (bvGet 14 8 v)) fun s => s.setFld (Fld.HQ_Q_CFG_VECTOR q) (bvGet 14 8 v)
      s.setFld (Fld.HQ_Q_CFG_IRQ_EN q) (bvGet 22 1 v)
  let s := s.setFld (Fld.HQ_Q_CFG_ENABLE q) (bvGet 0 1 v)
  match was, bvBit 0 v with
  | false, true => s.startQueue q
  | true, false => s.stopQueue q
  | _, _ => s

/-- Q_CFG_ENABLE: a write of a queue's configuration, which starts or stops it (R359). -/
def execQCfgEnable (q : QueueId) (v : BitVec 32) (s : State) : Host.Outcome State Fault Refusal :=
  .next (s.bar0 (Rg.HQ_Q_CFG q.val) fun s => s.writeQCfg q.val v)

/-! ### When a command applies (R335, R338) -/

/-- What the moment says of a command. -/
inductive When
  | now | late | later
  deriving DecidableEq, Repr

/-- AT_TICK and APPLY_TICK against the tick that starts; while ENABLE is 0 an AT_TICK command waits (R335). -/
def State.whenApplies (s : State) (atTick : Bool) (t : BitVec 32) : When :=
  if !atTick then .now
  else if !s.ticking then .later
  else if earlier t s.tick then .late
  else if t = s.tick then .now
  else .later

/-- A command of device queue `q` runs at this moment (R329, R338, R342): LATE, PARTITION where its partition is disabled, or its own
outcome. -/
def State.runCommand (s : State) (h : CmdHdr) (f : Nat → CmdRef → State → CmdOut) : State :=
  let s := s.notIdle
  let ref : CmdRef := ⟨h.q.val, h.cid, s.tick⟩
  match s.whenApplies h.atTick h.applyTick with
  | .later => s
  | .late => s.completeCmd { ref with tick := 0#32 } .late 0
  | .now =>
    let p := if s.queuePriv h.q.val then h.part.val else s.queuePart h.q.val
    if s.inForce (Fld.PARTN_CTRL_ENABLE p) = 0 then s.completeCmd ref .partition 0
    else
      let r := f p ref s
      match r.1 with
      | some (st, res) => r.2.completeCmd ref st res
      | none => r.2

/-! ### Entries (R338 to R340) and staging (R335) -/

/-- The next tick to start, for R338. -/
def State.nextToStart (s : State) : BitVec 32 := if s.ticking then s.tick + 1#32 else s.rd Rg.GARNET_START_TICK

/-- The tokens that a PREFILL reads from the host (R346): none where its operands are not permitted. -/
def State.promptOf (s : State) (count addr : Nat) : List (BitVec 32) :=
  if count = 0 ∨ 65536 < count ∨ addr % 4 ≠ 0 then []
  else (List.range count).map fun k => BitVec.ofNat 32 (leNat (s.hostBytes (addr + 4 * k) 4))

/-- A command that has been fetched is staged (R335): one already late completes at once (R338), and a PREFILL reads its tokens into the
store, or completes with NO_SPACE (R346). -/
def State.stage (s : State) (h : CmdHdr) (e : BitVec 512) : State :=
  if h.atTick ∧ earlier h.applyTick s.nextToStart then s.completeCmd ⟨h.q.val, h.cid, 0#32⟩ .late 0
  else
    let tokens := if bvGet 0 8 e = 0x02 then s.promptOf (bvGet 160 17 e) (bvGet 192 64 e) else []
    if s.fld Fld.PART_PREFILL_FREE_TOKENS < tokens.length then s.completeCmd ⟨h.q.val, h.cid, 0#32⟩ .noSpace 0
    else (s.modHost fun x => { x with staged := x.staged ++ [⟨h.q.val, e, tokens⟩] }).recountSess

/-- A staged command names its tick: AT_TICK of R338. -/
def Staged.atTick (x : Staged) : Bool := bvBit 37 x.bytes

/-- A command cannot apply at this moment: a tick start is to come, it names one, its queue holds others, or a command fetched earlier on another
queue is still to be applied (R25, R335). -/
def State.mustStage (s : State) (h : CmdHdr) : Bool :=
  s.ticking || s.inStep || h.atTick || s.hostq.staged.any fun x => x.q == h.q.val || ((s.hostq.staged.find? fun y => y.q == x.q).any fun y => !y.atTick)

/-- A command comes from its queue (R335): it waits for its tick start, or, while ENABLE is 0, applies. -/
def State.takeCommand (s : State) (h : CmdHdr) (e : BitVec 512) (f : Nat → CmdRef → State → CmdOut) : State :=
  (if s.mustStage h then s.notIdle.stage h e else s.runCommand h f).actOnFault

end Sys2Proof.Machine

namespace Sys2Proof

open Machine

/-- A value at bit `lo`, cut to `w` bits. -/
def atBit (lo w v : Nat) : BitVec 512 := BitVec.ofNat 512 (v % 2 ^ w * 2 ^ lo)

/-- The header of an entry with its OPCODE (R338). -/
def CmdHdr.bits (h : CmdHdr) (op : Nat) : BitVec 512 :=
  atBit 0 8 op ||| atBit 16 16 h.cid.toNat ||| atBit 32 4 h.part.val ||| atBit 36 1 (bit1 h.wait) ||| atBit 37 1 (bit1 h.atTick) |||
    atBit 64 32 h.applyTick.toNat

/-- Bytes 24 to 35 of OPEN_SESSION and SET_PARAMS (R340). -/
def SessParams.bits (o : SessParams) : BitVec 512 :=
  atBit 192 32 o.maxPos.toNat ||| atBit 224 16 o.invTemp.toNat ||| atBit 240 16 o.topP.toNat ||| atBit 256 16 o.stream.toNat

/-- Operands of OPEN_SESSION (R340). -/
def OpenOp.bits (o : OpenOp) : BitVec 512 :=
  atBit 128 12 o.sess.val ||| atBit 140 10 o.slot.val ||| atBit 150 1 (bit1 o.output) ||| atBit 160 16 o.cache.toNat |||
    atBit 176 16 o.journal.toNat ||| o.par.bits

/-- Operands of CREATE_OBJECT (R225, R339). -/
def CreateOp.bits (o : CreateOp) : BitVec 512 :=
  atBit 132 4 o.kind.val ||| atBit 136 4 o.part.val ||| atBit 140 3 o.policy.val ||| atBit 144 4 o.cls.val ||| atBit 192 23 o.size.toNat |||
    atBit 215 3 o.placeDie.val ||| atBit 224 16 o.share.toNat ||| atBit 240 16 o.session.toNat

/-- Operands of SET_PLACEMENT (R339). -/
def PlaceOp.bits (o : PlaceOp) : BitVec 512 :=
  atBit 128 16 o.object.toNat ||| atBit 160 3 o.policy.val ||| atBit 163 4 o.cls.val ||| atBit 167 3 o.placeDie.val |||
    atBit 192 16 o.share.toNat

/-- Operands of INSTALL (R339). -/
def InstallOp.bits (o : InstallOp) : BitVec 512 :=
  atBit 128 4 o.format.val ||| atBit 132 2 o.group.val ||| atBit 134 3 o.policy.val ||| atBit 137 4 o.cls.val ||| atBit 141 3 o.placeDie.val |||
    atBit 160 16 o.share.toNat ||| atBit 192 64 o.wAddr.toNat ||| atBit 256 64 o.wBytes.toNat ||| atBit 320 64 o.sAddr.toNat |||
    atBit 384 64 o.sBytes.toNat

end Sys2Proof

namespace Sys2Proof.Machine

/-- OPEN_SESSION (R340). -/
def execOpenSession (h : CmdHdr) (o : OpenOp) (s : State) : Host.Outcome State Fault Refusal :=
  .next (s.takeCommand h (h.bits 0x01 ||| o.bits) fun p _ s => s.doOpen p o)

/-- PREFILL (R346). -/
def execPrefill (h : CmdHdr) (i : SessId) (count : BitVec 17) (addr : BitVec 64) (s : State) : Host.Outcome State Fault Refusal :=
  .next (s.takeCommand h (h.bits 0x02 ||| atBit 128 12 i.val ||| atBit 160 17 count.toNat ||| atBit 192 64 addr.toNat) fun p ref s =>
    s.doPrefill p i.val count.toNat addr.toNat (s.promptOf count.toNat addr.toNat) ref)

/-- DECODE (R347). -/
def execDecode (h : CmdHdr) (i : SessId) (budget stop : BitVec 32) (s : State) : Host.Outcome State Fault Refusal :=
  .next (s.takeCommand h (h.bits 0x03 ||| atBit 128 12 i.val ||| atBit 160 32 budget.toNat ||| atBit 192 32 stop.toNat) fun p _ s =>
    s.doDecode p i.val budget.toNat stop)

/-- SET_PARAMS (R339). -/
def execSetParams (h : CmdHdr) (i : SessId) (o : SessParams) (s : State) : Host.Outcome State Fault Refusal :=
  .next (s.takeCommand h (h.bits 0x04 ||| atBit 128 12 i.val ||| o.bits) fun p _ s => s.doParams p i.val o)

/-- TRUNCATE (R343). -/
def execTruncate (h : CmdHdr) (i : SessId) (pos : BitVec 32) (s : State) : Host.Outcome State Fault Refusal :=
  .next (s.takeCommand h (h.bits 0x05 ||| atBit 128 12 i.val ||| atBit 160 32 pos.toNat) fun p _ s => s.doTruncate p i.val pos.toNat)

/-- PARK (R343): the cache goes to the HOST policy. -/
def execPark (h : CmdHdr) (i : SessId) (s : State) : Host.Outcome State Fault Refusal :=
  .next (s.takeCommand h (h.bits 0x06 ||| atBit 128 12 i.val) fun p ref s => s.doPark p i.val .idle .parked (some .host) ref h.wait)

/-- The policy that UNPARK may name (R339). -/
def unparkPolicy (n : Nat) : Option Policy := if n < 2 then Policy.ofCode n else none

/-- UNPARK (R343). -/
def execUnpark (h : CmdHdr) (i : SessId) (policy : Fin 8) (s : State) : Host.Outcome State Fault Refusal :=
  .next (s.takeCommand h (h.bits 0x07 ||| atBit 128 12 i.val ||| atBit 140 3 policy.val) fun p ref s => s.doPark p i.val .parked .idle (unparkPolicy policy.val) ref h.wait)

/-- CLOSE_SESSION (R343). -/
def execCloseSession (h : CmdHdr) (i : SessId) (s : State) : Host.Outcome State Fault Refusal :=
  .next (s.takeCommand h (h.bits 0x08 ||| atBit 128 12 i.val) fun p _ s => s.doClose p i.val)

/-- CREATE_OBJECT (R239). -/
def execCreateObject (h : CmdHdr) (o : CreateOp) (s : State) : Host.Outcome State Fault Refusal :=
  .next (s.takeCommand h (h.bits 0x10 ||| o.bits) fun p _ s => s.doCreate p o)

/-- SET_PLACEMENT (R241). -/
def execSetPlacement (h : CmdHdr) (o : PlaceOp) (s : State) : Host.Outcome State Fault Refusal :=
  .next (s.takeCommand h (h.bits 0x11 ||| o.bits) fun p ref s => s.doPlacement p o (s.queuePriv h.q.val) ref h.wait)

/-- DELETE_OBJECT (R251). -/
def execDeleteObject (h : CmdHdr) (o : ObjId) (s : State) : Host.Outcome State Fault Refusal :=
  .next (s.takeCommand h (h.bits 0x12 ||| atBit 128 16 o.toNat) fun p ref s => s.doDelete p o.toNat ref)

/-- INSTALL (R270). -/
def execInstall (h : CmdHdr) (o : InstallOp) (s : State) : Host.Outcome State Fault Refusal :=
  .next (s.takeCommand h (h.bits 0x13 ||| o.bits) fun p ref s => s.doInstall p o ref)

/-- ABORT_INSTALL (R271). -/
def execAbortInstall (h : CmdHdr) (o : ObjId) (s : State) : Host.Outcome State Fault Refusal :=
  .next (s.takeCommand h (h.bits 0x14 ||| atBit 128 16 o.toNat) fun p ref s => s.doAbort p o.toNat ref)

/-- SHRINK_HOST_PAGES (R354). -/
def execShrinkHostPages (h : CmdHdr) (count : BitVec 29) (s : State) : Host.Outcome State Fault Refusal :=
  .next (s.takeCommand h (h.bits 0x18 ||| atBit 128 29 count.toNat) fun p ref s => s.doShrink p count.toNat ref)

/-! ### Submission entries (R338 to R340) -/

/-- Bits [lo+w-1 : lo] of the word at byte `b` of an entry. -/
def entryFld (e : BitVec 512) (b lo w : Nat) : Nat := bvGet (8 * b + lo) w e

/-- The header of an entry of device queue `q` (R338). -/
def entryHdr (q : Nat) (e : BitVec 512) : CmdHdr :=
  { q := finMod 256 q (by decide), cid := e.extractLsb' 16 16, part := finMod 16 (entryFld e 4 0 4) (by decide), wait := bvBit 36 e
    atTick := bvBit 37 e, applyTick := e.extractLsb' 64 32 }

/-- Bytes 24 to 35 of OPEN_SESSION and SET_PARAMS (R340). -/
def entryParams (e : BitVec 512) : SessParams :=
  { maxPos := e.extractLsb' 192 32, invTemp := e.extractLsb' 224 16, topP := e.extractLsb' 240 16, stream := e.extractLsb' 256 16 }

/-- What an entry asks for, by its OPCODE (R339); every other opcode is refused. `tokens` is what a PREFILL has read (R346). -/
def State.runEntry (s : State) (h : CmdHdr) (e : BitVec 512) (tokens : List (BitVec 32)) (p : Nat) (ref : CmdRef) : CmdOut :=
  let g := entryFld e
  let sess := g 16 0 12
  match g 0 0 8 with
  | 0x01 => s.doOpen p
      { sess := finMod 4096 sess (by decide), slot := finMod 1024 (g 16 12 10) (by decide), output := bvBit 150 e
        cache := e.extractLsb' 160 16, journal := e.extractLsb' 176 16, par := entryParams e }
  | 0x02 => s.doPrefill p sess (g 20 0 17) (g 24 0 64) tokens ref
  | 0x03 => s.doDecode p sess (g 20 0 32) (e.extractLsb' 192 32)
  | 0x04 => s.doParams p sess (entryParams e)
  | 0x05 => s.doTruncate p sess (g 20 0 32)
  | 0x06 => s.doPark p sess .idle .parked (some .host) ref h.wait
  | 0x07 => s.doPark p sess .parked .idle (unparkPolicy (g 16 12 3)) ref h.wait
  | 0x08 => s.doClose p sess
  | 0x10 => s.doCreate p
      { kind := finMod 16 (g 16 4 4) (by decide), part := finMod 16 (g 16 8 4) (by decide), policy := finMod 8 (g 16 12 3) (by decide)
        cls := finMod 16 (g 16 16 4) (by decide), size := e.extractLsb' 192 23, placeDie := finMod 8 (g 24 23 3) (by decide)
        share := e.extractLsb' 224 16, session := e.extractLsb' 240 16 }
  | 0x11 => s.doPlacement p
      { object := e.extractLsb' 128 16, policy := finMod 8 (g 20 0 3) (by decide), cls := finMod 16 (g 20 3 4) (by decide)
        placeDie := finMod 8 (g 20 7 3) (by decide), share := e.extractLsb' 192 16 } (s.queuePriv h.q.val) ref h.wait
  | 0x12 => s.doDelete p (g 16 0 16) ref
  | 0x13 => s.doInstall p
      { format := finMod 16 (g 16 0 4) (by decide), group := finMod 4 (g 16 4 2) (by decide), policy := finMod 8 (g 16 6 3) (by decide)
        cls := finMod 16 (g 16 9 4) (by decide), placeDie := finMod 8 (g 16 13 3) (by decide), share := e.extractLsb' 160 16
        wAddr := e.extractLsb' 192 64, wBytes := e.extractLsb' 256 64, sAddr := e.extractLsb' 320 64, sBytes := e.extractLsb' 384 64 } ref
  | 0x14 => s.doAbort p (g 16 0 16) ref
  | 0x18 => s.doShrink p (g 16 0 29) ref
  | _ => s.refuse .invalidOpcode

/-- The opcodes in use (R339). -/
def opcodes : List Nat := [0x01, 0x02, 0x03, 0x04, 0x05, 0x06, 0x07, 0x08, 0x10, 0x11, 0x12, 0x13, 0x14, 0x18]

/-- A staged entry applies at this moment, or is LATE. -/
def State.applyEntry (s : State) (x : Staged) : State :=
  let h := entryHdr x.q x.bytes
  if opcodes.contains (entryFld x.bytes 0 0 8) then s.runCommand h fun p ref s => s.runEntry h x.bytes x.tokens p ref
  else match s.whenApplies h.atTick h.applyTick with
    | .later => s
    | .late => s.completeCmd ⟨x.q, h.cid, 0#32⟩ .late 0
    | .now => s.completeCmd ⟨x.q, h.cid, s.tick⟩ .invalidOpcode 0

/-- Staged commands apply in the order fetched, at most `n` of them; one that waits for its tick holds those behind it in its queue
(R335). -/
def State.applyStaged (s : State) (n : Nat) : State :=
  let r := s.hostq.staged.foldl (fun (acc : (List Staged × List Staged) × List Nat × Nat) x =>
    let h := entryHdr x.q x.bytes
    if acc.2.1.contains x.q ∨ acc.2.2 = 0 ∨ s.whenApplies h.atTick h.applyTick = .later then ((acc.1.1, acc.1.2 ++ [x]), addOnce acc.2.1 x.q, acc.2.2)
    else ((acc.1.1 ++ [x], acc.1.2), acc.2.1, acc.2.2 - 1)) (([], []), [], n)
  let go := r.1.1
  let s := (s.modHost fun h => { h with staged := r.1.2 }).recountSess
  s.each go fun s x => if s.fld (Fld.HQ_Q_CFG_ENABLE x.q) = 1 then s.applyEntry x else s

/-! ### Fetching (R335) -/

/-- The queue may be fetched from: it runs, entries stand in its SQ, and its CQ has a free entry (R335, R336). -/
def State.queueReady (s : State) (q : Nat) : Bool :=
  s.fld (Fld.HQ_Q_STATUS_RUNNING q) == 1 && s.fld (Fld.HQ_Q_HEADS_SQ_HEAD q) != (s.queue q).tail && (s.queue q).blocked == [] && s.cqRoom q

/-- One entry is fetched and staged; one already late completes at once (R335, R338). -/
def State.fetchEntry (s : State) (q : Nat) : State :=
  let head := s.fld (Fld.HQ_Q_HEADS_SQ_HEAD q)
  let bytes : BitVec 512 := BitVec.ofNat 512 (leNat (s.hostBytes (s.addr64 (Rg.HQ_SQ_BASE_LO q) (Rg.HQ_SQ_BASE_HI q) + 64 * head) 64))
  (s.setFld (Fld.HQ_Q_HEADS_SQ_HEAD q) ((head + 1) % s.sqSize q)).stage (entryHdr q bytes) bytes

/-- SQ_FETCH: the next queue of the round robin that has entries gives up to 16 (R335). None is fetched while PWRFAIL_N is low (R415). -/
def execSqFetch (s : State) : Host.Outcome State Fault Refusal :=
  .next (if s.fld Fld.PWR_STATUS_PWRFAIL = 1 then s
    else match ((List.range 256).map fun i => (s.hostq.turn + i) % 256).find? s.queueReady with
      | none => s
      | some q =>
        let s := s.modHost fun h => { h with turn := (q + 1) % 256 }
        s.each (List.range 16) fun s _ => if s.queueReady q then s.fetchEntry q else s)

/-- COMMAND_APPLY: while ENABLE is 0 the first staged command that need not wait is applied (R335). -/
def execCommandApply (s : State) : Host.Outcome State Fault Refusal :=
  .next (if s.ticking ∨ s.inStep ∨ s.fld Fld.PWR_STATUS_PWRFAIL = 1 then s else (s.applyStaged 1).actOnFault)

/-! ### Failed host reads (R353) -/

/-- A host read has failed (R353): a tile's, at its home, by a fetch in flight or during a park (R251), a queue entry's, or a command's data. -/
def State.hostReadFails (s : State) : HostRead → State
  | .tile o t =>
    let k := tileKey o.toNat t.toNat
    let parking := (NMap.find s.place.moves k).any fun m => match m.dest with | .page _ => true | _ => false
    let fetched := s.fetches.any fun f => f.2.op.object == o && f.2.tiles.any fun q => q.tile == t.toNat && (match q.src with | .page _ => true | _ => false)
    let homed := (s.obj o.toNat).any fun x => (s.dirEnt o.toNat x t.toNat).home == .host
    if homed ∨ parking ∨ fetched then ((s.failTile o.toNat t.toNat 0).advanceJobs).actOnFault else s
  | .queue q =>
    if s.fld (Fld.HQ_Q_STATUS_RUNNING q.val) = 1 then
      (s.count (Ct.PARTN_HOST_READ_ERRORS (s.queuePart q.val)) 1).queueError q.val 2
    else s
  | .prefill q =>
    match s.hostq.staged.find? fun x => x.q == q.val && entryFld x.bytes 0 0 8 == 0x02 with
    | none => s
    | some x =>
      let h := entryHdr x.q x.bytes
      let p := if s.queuePriv x.q then h.part.val else s.queuePart x.q
      let s := (s.modHost fun y => { y with staged := y.staged.erase x }).recountSess
      (s.count (Ct.PARTN_HOST_READ_ERRORS p) 1).completeCmd ⟨x.q, h.cid, 0#32⟩ .hostAccess 0
  | .install =>
    match s.flash.inst.bind fun i => s.obj i.object with
    | some x => (s.count (Ct.PARTN_HOST_READ_ERRORS x.part) 1).abortInst .hostAccess []
    | none => s

/-- HOST_READ_COMPLETE: data that has arrived is used by the command it was read for; a read that fails is handled here (R353). -/
def execHostReadComplete (r : HostRead) (st : HostStatus) (s : State) : Host.Outcome State Fault Refusal :=
  .next (match st with | .success => s | .failed => s.hostReadFails r)

/-- COMPLETION_TIMEOUT: the read fails for want of an answer (R353). -/
def execCompletionTimeout (r : HostRead) (s : State) : Host.Outcome State Fault Refusal :=
  .next ((s.count Ct.HQ_COMPLETION_TIMEOUTS 1).hostReadFails r)

/-! ### Events, interrupts and the link -/

/-- A write of EVT_CONS (R352): with an entry free again, a pending EVENTS_LOST is written before any other event. -/
def State.writeEvtCons (s : State) (p : Nat) (v : BitVec 32) : State :=
  let s := s.wr (Rg.PARTN_EVT_CONS p) v
  let n := NMap.get 0 s.hostq.lostEvents p
  if n = 0 ∨ s.evtFree p ≤ 1 ∨ s.inForce (Fld.PARTN_EVT_CFG_ENABLE p) = 0 then s
  else
    let s := s.modHost fun h => { h with lostEvents := NMap.del h.lostEvents p }
    s.writeEvent p (eventBytes 0x0A p s.tick.toNat 0xFFFF 0xFFFF n [])

/-- EVT_CONS (R352). -/
def execEvtCons (p : PartId) (v : BitVec 32) (s : State) : Host.Outcome State Fault Refusal :=
  .next (s.bar0 (Rg.PARTN_EVT_CONS p.val) fun s => s.writeEvtCons p.val v)

/-- COALESCE_TIMEOUT: TIME_US has passed since the first pending signal, and the message goes out (R355). Nothing where none is pending. -/
def execCoalesceTimeout (v : QueueId) (s : State) : Host.Outcome State Fault Refusal :=
  .next (match NMap.find s.hostq.coal v.val with
    | none => s
    | some c =>
      let s := s.clockTo (c.since + s.fld (Fld.HQ_COALESCE_TIME_US v.val))
      (s.modHost fun h => { h with coal := NMap.del h.coal v.val }).sendMsix v.val)

/-- The requirement of an LTR message (R356). -/
def State.ltrNeed (s : State) : Option Nat :=
  let queue := (List.range 256).any fun q => s.fld (Fld.HQ_Q_CFG_ENABLE q) == 1
  let ring := (List.range 16).any fun p =>
    s.fld (Fld.PARTN_OUT_CFG_ENABLE p) == 1 || s.fld (Fld.PARTN_EVT_CFG_ENABLE p) == 1 || s.validPages p (s.fld (Fld.PARTN_HPT_COUNT_COUNT p)) != []
  if queue || ring then some 20 else none

/-- LTR_CHANGE: the requirement has changed, and a message says so (R356); none while the host has not enabled LTR. -/
def execLtrChange (s : State) : Host.Outcome State Fault Refusal :=
  .next (if s.hostq.ltrEnable ∧ s.hostq.ltrSent ≠ some (s.ltrNeed.getD 0) then
      (s.modHost fun h => { h with ltrSent := some (s.ltrNeed.getD 0) }).out (.ltr s.ltrNeed)
    else s)

/-- SR_IOV_VF_ENABLE: VFs 1 to n own their queues and vectors (R333); a VF queue reads its own partition, and is not privileged (R359). Before
100 ms the request is not taken (R364). -/
def execSrIovVfEnable (n : FnId) (s : State) : Host.Outcome State Fault Refusal :=
  .next (if !s.configUp then s
    else
      let s := s.modHost fun h => { h with numVfs := n.val }
      s.each ((List.range (15 * n.val)).map (· + 16)) fun s q =>
        (s.setFld (Fld.HQ_Q_CFG_PARTITION q) ((q - 16) / 15)).setFld (Fld.HQ_Q_CFG_PRIV q) 0)

/-- MAX_SNOOP_LATENCY_WRITE: the host's latency tolerance (R356, R407). Before 100 ms the request is not taken (R364). -/
def execMaxSnoopLatencyWrite (us : Option (BitVec 24)) (ltr : Bool) (s : State) : Host.Outcome State Fault Refusal :=
  .next (if !s.configUp then s
    else (s.modHost fun h => { h with maxSnoop := us.map BitVec.toNat, ltrEnable := ltr }).refreshTol.wakeForTol)

/-- A link configuration that R328 supports, as HQ.LINK codes it (R359). -/
def linkOk (speed width : Nat) (flit : Bool) : Bool :=
  (width == 4 || width == 8) && ((speed == 5 && !flit) || ((speed == 6 || speed == 7) && flit))

/-- PCIE_LINK_TRAINED: HQ.LINK reports the link (R328, R359); a configuration that is not supported is never reported. -/
def execPcieLinkTrained (speed : Fin 8) (width : Fin 16) (flit : Bool) (s : State) : Host.Outcome State Fault Refusal :=
  .next (if linkOk speed.val width.val flit then
      ((s.setFld Fld.HQ_LINK_SPEED speed.val).setFld Fld.HQ_LINK_WIDTH width.val).setFld Fld.HQ_LINK_FLIT (bit1 flit)
    else s)

end Sys2Proof.Machine
end

