-- ==== Sys2Proof/Machine/StepObject.lean ====
section
/-! DEFINITION. The step object and the commit (R25 to R28, R344 to R350): what a tick start samples, and what the end of a step writes. -/

namespace Sys2Proof.Machine

/-! ### Sampling (R25, R344 to R346) -/

/-- The code of a slot's MODE (R344). -/
def SlotMode.code : SlotMode → Nat
  | .decode => 1
  | .prefill => 2
  | .prefillLast => 3

/-- A slot of this mode produces a token (R344). -/
def SlotMode.produces : SlotMode → Bool
  | .prefill => false
  | _ => true

/-- The step object in force and its size in tiles: a LIVE PINNED WORK object of at least 2 tiles, else none and no session steps (R344,
R360). -/
def State.stepObj (s : State) : Option (Nat × Nat) :=
  let o := s.inForce Fld.PART_STEP_OBJECT_OBJECT
  if s.inForce Fld.PART_STEP_OBJECT_VALID = 0 then none
  else match s.obj o with
    | some x => if x.state = .live ∧ x.kind = .work ∧ x.policy = .pinned ∧ 2 ≤ x.size then some (o, x.size) else none
    | none => none

/-- Bytes written to object `o` from byte `a` upward, tile by tile; `n` bounds the tiles. -/
def State.writeObj (s : State) (o : Nat) : Nat → Nat → List Byte → State
  | 0, _, _ => s
  | n + 1, a, bs =>
    if bs = [] then s
    else
      let k := 65536 - a % 65536
      (s.writeTile o (a / 65536) (a % 65536) (bs.take k)).writeObj o n (a + k) (bs.drop k)

/-- The 64-byte block of a session (R344); `ofs` is the index of its chunk's first token. The block of a session that takes no part in
the step has ACTIVE 0 and MODE none. -/
def blockBytes (i : Nat) (x : Session) (ofs : Nat) : List Byte :=
  let first := fun (mode : Nat) => leBytes 4 (i + 2 ^ 12 * bit1 (mode != 0) + 2 ^ 13 * mode + 2 ^ 15 * x.part)
  let rest := leBytes 4 (x.invTemp.toNat + 2 ^ 16 * x.topP.toNat) ++ leBytes 4 (x.stream.toNat + 2 ^ 16 * x.cache.toNat) ++
    List.replicate 36 0#8
  match x.step with
  | none => first 0 ++ List.replicate 16 0#8 ++ rest
  | some r =>
    first r.mode.code ++ leBytes 4 r.position ++ leBytes 4 (if r.mode = .decode then x.lastTok.toNat else 0) ++ leBytes 4 r.chunk ++
      leBytes 4 ofs ++ rest

/-- The tokens a session still has to prefill, those of its first command first (R343, R346). -/
def Session.remaining (x : Session) : List (BitVec 32) := x.prefill.flatMap fun r => r.tokens

/-- A session takes part in the step. -/
def State.stepSession (s : State) (i : Nat) (r : SlotRun) : State :=
  match s.session i with
  | some x => s.modHost fun h => { h with sess := NMap.ins h.sess i { x with step := some r }, stepParts := addOnce h.stepParts x.part }
  | none => s

/-- What sharing out the prefill budget leaves (R346): tokens still to give, the chunk area so far, and each session's offset in it. -/
structure Share where
  left  : Nat
  toks  : List (BitVec 32) := []
  ofs   : NMap Nat := []

/-- The chunk of session `i` (R346). -/
def State.shareChunk (acc : Share × State) (i : Nat) : Share × State :=
  let (a, s) := acc
  match s.session i with
  | none => acc
  | some x =>
    let n := min x.remaining.length a.left
    if n = 0 ∨ x.state ≠ .prefill ∨ s.inForce (Fld.PARTN_CTRL_ENABLE x.part) = 0 then acc
    else
      ({ left := a.left - n, toks := a.toks ++ x.remaining.take n, ofs := NMap.ins a.ofs i a.toks.length },
       s.stepSession i ⟨if n = x.remaining.length then .prefillLast else .prefill, x.pos, n⟩)

/-- Nothing is sampled. -/
def State.clearSample (s : State) : State :=
  s.modHost fun h => { h with sess := h.sess.map fun p => (p.1, { p.2 with step := none }), stepParts := [] }

/-- The session of a batch slot. -/
def State.slotSession (s : State) (b : Nat) : Option (Nat × Session) := s.hostq.sess.find? fun p => p.2.slot == b

/-- Who takes part (R25): every DECODE session of an enabled partition, and PREFILL sessions while the budget allows, which the chunk area of
a step object of `size` tiles bounds (R343, R346). -/
def State.shareBudget (s : State) (size : Nat) : Share × State :=
  let bound := (size * 65536 - 73728) / 4
  let asked := s.inForce Fld.PART_PREFILL_BUDGET_TOKENS
  let s := s.when (decide (bound < asked)) fun s => s.jasper .hostSetting 0 0x00040004 asked
  let s := s.each s.hostq.sess fun s p =>
    s.when (p.2.state == .decode && s.inForce (Fld.PARTN_CTRL_ENABLE p.2.part) == 1) fun s => s.stepSession p.1 ⟨.decode, p.2.pos, 0⟩
  s.hostq.prefillOrder.foldl State.shareChunk ({ left := min asked bound }, s)

/-- The step object `o` is written: blocks, WRITTEN cleared where a token is to come, and the chunk area (R344 to R346). -/
def State.writeSample (s : State) (o : Nat) (a : Share) : State :=
  let s := s.writeObj o 2 0 ((List.range 1024).flatMap fun b => match s.slotSession b with
    | some p => blockBytes p.1 p.2 (NMap.get 0 a.ofs p.1)
    | none => List.replicate 64 0#8)
  let s := s.each s.hostq.sess fun s p =>
    s.when (p.2.step.any fun r => r.mode.produces) fun s => s.writeTile o 1 (8 * p.2.slot + 4) (leBytes 4 0)
  s.writeObj o 64 73728 (a.toks.flatMap fun t => leBytes 4 t.toNat)

/-- The tick start samples the sessions into the step object, where there is one (R25, R344). -/
def State.sample (s : State) : State :=
  let s := s.clearSample
  match s.stepObj with
  | none => s
  | some x => (s.shareBudget x.2).2.writeSample x.1 (s.shareBudget x.2).1

/-! ### The commit (R26, R27, R345, R347 to R350) -/

/-- What a slot's step comes to. -/
structure SlotEnd where
  sess     : Nat
  x        : Session
  run      : SlotRun
  withheld : Bool
  suspect  : Bool
  token    : BitVec 32
  /-- END_CAUSE, 0 where it goes on -/
  cause    : Nat
  deriving DecidableEq

/-- The position of the token that the slot produces. -/
def SlotEnd.pos (e : SlotEnd) : Nat := e.run.position + e.run.chunk
/-- The slot writes an output ring entry. -/
def SlotEnd.writes (e : SlotEnd) : Bool := e.run.mode.produces && e.x.output

/-- A cache or session object that names session `i` of its partition has a poisoned tile (R248). -/
def State.cachePoisoned (s : State) (i : Nat) (x : Session) : Bool :=
  s.place.objs.any fun p =>
    (p.2.kind == .cache || p.2.kind == .session) && p.2.part == x.part && p.2.session.toNat == i &&
      s.place.dir.any fun d => d.1 / 2 ^ 22 == p.1 && d.2.poisoned

/-- The slot's token is withheld by the marks of the step (R245, R247 to R249). -/
def State.slotWithheld (s : State) (i : Nat) (x : Session) : Bool :=
  s.marks.withheldParts.contains x.part || s.marks.withheldSess.contains i || s.cachePoisoned i x

/-- The slot's token is marked suspect (R156, R249). -/
def State.slotSuspect (s : State) (x : Session) : Bool :=
  s.marks.suspectAll || s.marks.suspectRows.contains x.slot || s.marks.suspectParts.contains x.part

/-- Positions that a session's journal holds (R350). -/
def State.journalEnd (s : State) (x : Session) : Option Nat :=
  if x.journal = 0xFFFF#16 then none else (s.obj x.journal.toNat).map fun y => y.size * 4096

/-- END_CAUSE of a token `tok` at position `p` under the budget in force (R347): the first that holds. -/
def State.endCause (s : State) (x : Session) (d : DecodeRun) (p : Nat) (tok : BitVec 32) : Nat :=
  if d.stop ≠ 0xFFFFFFFF#32 ∧ tok = d.stop then 1
  else if d.budget ≤ d.count + 1 then 2
  else if x.maxPos.toNat ≤ p + 1 ∨ ((s.journalEnd x).any fun n => decide (n ≤ p + 1)) then 3
  else 0

/-- The bursts of the step object's token slots that the step's producing sessions use, each read once (R345): by burst of tile 1. One that
is poisoned or cannot be read holds no token (R248). -/
def State.readTokens (s : State) : NMap (List Byte) × State :=
  match s.stepObj with
  | none => ([], s)
  | some (o, _) =>
    let us := (s.hostq.sess.filterMap fun p => if p.2.step.any fun r => r.mode.produces then some (p.2.slot / 8) else none).eraseDups
    us.foldl (fun (acc : NMap (List Byte) × State) u =>
      let r := acc.2.readTile o 1 (64 * u) 64
      (match r.1 with | some bs => NMap.ins acc.1 u bs | none => acc.1, r.2)) ([], s)

/-- The token slot of batch slot `b` (R344). -/
def tokenSlot (toks : NMap (List Byte)) (b : Nat) : BitVec 64 :=
  BitVec.ofNat 64 (leNat (((NMap.get [] toks (b / 8)).drop (8 * (b % 8))).take 8))

/-- The token at position `p` of an OUTPUT session has no place in its journal (R26, R350): it is withheld (log entry 37). -/
def State.pastJournal (s : State) (x : Session) (p : Nat) : Bool := x.output && (s.journalEnd x).any fun n => decide (n ≤ p)

/-- What a slot's step comes to (R345), `w` being its token slot. -/
def State.slotEnd (s : State) (w : BitVec 64) (i : Nat) (x : Session) (r : SlotRun) : SlotEnd :=
  let tok : BitVec 32 := w.extractLsb' 0 32
  let held := s.slotWithheld i x || (r.mode.produces && (!bvBit 32 w || s.pastJournal x (r.position + r.chunk)))
  { sess := i, x, run := r, withheld := held, suspect := s.slotSuspect x, token := tok
    cause := match x.dec with
      | some d => if r.mode.produces && !held then s.endCause x d (r.position + r.chunk) tok else 0
      | none => 0 }

/-- Positions whose journal records the slot writes (R26, R346, R350): its chunk's and its token's; nothing beyond the journal's end. -/
def State.journalPos (s : State) (e : SlotEnd) : List Nat :=
  if e.withheld ∨ !e.x.output then []
  else ((List.range (e.run.chunk + bit1 e.run.mode.produces)).map (· + e.run.position)).filter fun p =>
    (s.journalEnd e.x).any fun n => decide (p < n)

/-- The journal tiles that these records lie in: object and tile. -/
def State.journalTiles (s : State) (e : SlotEnd) : List (Nat × Nat) :=
  ((s.journalPos e).map fun p => (e.x.journal.toNat, 16 * p / 65536)).eraseDups

/-- A tile has a home that its records can be written to. -/
def State.homeReady (s : State) (q : Nat × Nat) : Bool :=
  (s.obj q.1).any fun x =>
    let e := s.dirEnt q.1 x q.2
    match e.home with
    | .stack => true
    | .host => s.pageOk e.page
    | _ => false

/-- A journal record (R350), written at the journal's home; nothing beyond its end. -/
def State.journalRec (s : State) (x : Session) (p : Nat) (tok : BitVec 32) (prompt suspect : Bool) : State :=
  if (s.journalEnd x).all fun n => decide (n ≤ p) then s
  else
    s.writeTile x.journal.toNat (16 * p / 65536) (16 * p % 65536)
      (leBytes 4 tok.toNat ++ leBytes 4 s.tickNo.toNat ++ leBytes 4 (1 + 2 * bit1 prompt + 4 * bit1 suspect) ++ leBytes 4 0)

/-- The journal records of a slot: its chunk's with PROMPT, then its token's (R26, R346, R350). -/
def State.journalSlot (s : State) (e : SlotEnd) : State :=
  if e.withheld ∨ !e.x.output then s
  else
    let s := s.each ((e.x.remaining.take e.run.chunk).zipIdx) fun s q => s.journalRec e.x (e.run.position + q.2) q.1 true false
    s.when e.run.mode.produces fun s => s.journalRec e.x e.pos e.token false e.suspect

/-- An output ring entry (R348). -/
def State.outBytes (s : State) (e : SlotEnd) : List Byte :=
  let cause := if e.withheld then 0 else e.cause
  leBytes 4 (e.sess + 2 ^ 16 * bit1 e.suspect + 2 ^ 17 * bit1 e.withheld + 2 ^ 18 * bit1 (cause != 0) + 2 ^ 19 * cause) ++
    leBytes 4 e.pos ++ leBytes 4 (if e.withheld then 0 else e.token.toNat) ++ leBytes 4 s.tickNo.toNat

/-- The output ring entries of partition `p`, then its producer index once (R27, R348), at a commit without entries too. -/
def State.writeRing (s : State) (p : Nat) (es : List SlotEnd) : State :=
  if s.inForce (Fld.PARTN_OUT_CFG_ENABLE p) = 0 then s
  else
    let prod := s.fld (Fld.PARTN_OUT_PROD_PROD p)
    let size := 2 ^ s.inForce (Fld.PARTN_OUT_CFG_LOG2 p)
    let base := s.addr64 (Rg.PARTN_OUT_BASE_LO p) (Rg.PARTN_OUT_BASE_HI p)
    let s := s.each es.zipIdx fun s q => s.hostWrite (base + 16 * ((prod + q.2) % size)) (s.outBytes q.1)
    let s := s.count (Ct.PARTN_TOKENS p) (es.filter fun e => !e.withheld).length
    let s := s.count (Ct.PARTN_WITHHELD p) (es.filter SlotEnd.withheld).length
    let s := s.count (Ct.PARTN_SUSPECT p) (es.filter SlotEnd.suspect).length
    let s := s.setFld (Fld.PARTN_OUT_PROD_PROD p) (prod + es.length)
    let s := s.hostWrite (s.addr64 (Rg.PARTN_OUT_PI_LO p) (Rg.PARTN_OUT_PI_HI p)) (leBytes 4 ((prod + es.length) % 2 ^ 32))
    s.when (es != [] && s.inForce (Fld.PARTN_OUT_CFG_IRQ_EN p) == 1) fun s => s.signalVector (s.ringVector p (s.inForce (Fld.PARTN_OUT_CFG_VECTOR p)))

/-- `n` tokens leave the store (R346): the commands that are done, and what is left. -/
def eatPrefill : Nat → List PrefillRun → List CmdRef × List PrefillRun
  | _, [] => ([], [])
  | n, r :: rs =>
    if r.tokens.length ≤ n then
      let q := eatPrefill (n - r.tokens.length) rs
      (r.cmd :: q.1, q.2)
    else ([], { r with tokens := r.tokens.drop n } :: rs)

/-- The session after its commit (R343, R347). -/
def SlotEnd.after (e : SlotEnd) (rest : List PrefillRun) : Session :=
  let x := { e.x with prefill := rest, pos := e.pos + bit1 e.run.mode.produces
                      lastTok := if e.run.mode.produces then e.token else ((e.x.remaining.take e.run.chunk).getLast?).getD e.x.lastTok }
  if !e.run.mode.produces then x
  else
    let dec := if e.cause ≠ 0 then none else e.x.dec.map fun d => { d with count := d.count + 1 }
    { x with dec, state := if rest ≠ [] then .prefill else if dec.isSome then .decode else .idle }

/-- A slot's commit: its session moves on, and the prefills that its chunk ended complete (R339, R343, R346). -/
def State.commitSlot (s : State) (e : SlotEnd) : State :=
  if e.withheld then s
  else
    let q := eatPrefill e.run.chunk e.x.prefill
    let x := e.after q.2
    let s := s.setSession e.sess x
    let s := s.modHost fun h => { h with prefillOrder := if q.2 = [] then h.prefillOrder.filter (· != e.sess) else h.prefillOrder }
    s.each q.1 fun s c => s.completeCmd c .success x.pos

/-- Partition `p` has room for `n` entries in its output ring; a ring that is not enabled has none (R349, R360). -/
def State.outRoom (s : State) (p n : Nat) : Bool :=
  n == 0 || (s.inForce (Fld.PARTN_OUT_CFG_ENABLE p) == 1 &&
    decide (n ≤ ringFree (s.inForce (Fld.PARTN_OUT_CFG_LOG2 p)) (s.fld (Fld.PARTN_OUT_PROD_PROD p)) (s.fld (Fld.PARTN_OUT_CONS_CONS p))))

/-- RING_FULL (R349). -/
def State.ringFull (s : State) (p n : Nat) : State :=
  ((s.count (Ct.PARTN_RING_FULL_STEPS p) 1).raise (Fld.PARTN_STATUS_RING_FULL p)).postEvent p 0x08 0xFFFF 0xFFFF n []

/-- What every slot of the step comes to, in slot order. -/
def State.slotEnds (s : State) (toks : NMap (List Byte)) : List SlotEnd :=
  (List.range 1024).filterMap fun b =>
    (s.slotSession b).bind fun p => p.2.step.map fun r => s.slotEnd (tokenSlot toks b) p.1 p.2 r

/-- Journal tiles that are to be written get a home where they have none; a slot whose records still have no home to go to is withheld
(R26, log entry 37). -/
def State.journalHomes (s : State) (es : List SlotEnd) : List SlotEnd × State :=
  let s := s.each (es.flatMap s.journalTiles).eraseDups fun s q => s.giveHome q.1 q.2
  (es.map fun e => if (s.journalTiles e).all s.homeReady then e else { e with withheld := true }, s)

/-- The writes of a step's end (R26, R27, R345 to R350): every journal record, then every ring entry and producer index, then the
sessions move on. A partition whose ring lacks room commits nothing. None while a journal tile that is to be written moves: its records
would wait at the mover, and no ring entry may stand before them (R26). -/
def State.commitSessions (s : State) : Option State :=
  let r := s.readTokens
  let s := r.2
  let all := s.slotEnds r.1
  let of := fun (l : List SlotEnd) (p : Nat) => l.filter fun e => e.x.part == p
  let need := fun (p : Nat) => ((of all p).filter SlotEnd.writes).length
  let parts := (List.range 16).filter fun p => of all p != [] && s.outRoom p (need p)
  let full := (List.range 16).filter fun p => of all p != [] && !s.outRoom p (need p)
  let mine := parts.flatMap (of all)
  if (mine.flatMap s.journalTiles).any fun q => (NMap.find s.place.moves (tileKey q.1 q.2)).isSome then none
  else
    let s := s.each full fun s p => s.ringFull p (need p)
    let h := s.journalHomes mine
    let s := h.2.each h.1 State.journalSlot
    let s := s.each ((List.range 16).filter fun p => !full.contains p) fun s p => s.writeRing p ((of h.1 p).filter SlotEnd.writes)
    some (s.each h.1 State.commitSlot).clearSample

end Sys2Proof.Machine
end

