-- ==== Sys2Proof/Machine/Tick.lean ====
section
/-! DEFINITION. Ticks and steps (chapter 02): settings held for a step's end (R24), forming and leaving the group (R36), the tick start (R30,
R32, R40 to R44, R147), the end of a step (R31, R54), hangs (R55), and the passing of a microsecond (R243). -/

namespace Sys2Proof.Machine

/-! ### Settings held until the step ends (R24) -/

/-- A register that R24 holds is written: the word in force stays so until the step ends, or until the next tick start. -/
def State.wrDefer (s : State) (a : Nat) (v : BitVec 32) : State :=
  let s := if (s.inStep || toTickIf s.ticking a) && (NMap.find s.held a).isNone then { s with held := NMap.ins s.held a (s.rd a) } else s
  s.wr a v

/-- A stack whose applied minimums sum to more than 100 is recorded (R210). -/
def State.checkShares (s : State) (st : Nat) : State :=
  let sum := ((List.range 16).map fun p => s.inForce (Fld.STK_REG_PART_MIN_PCT st p)).sum
  s.when (decide (100 < sum)) fun s => s.jasper .regulatorScaled st sum 0

/-! ### Groups (R36) -/

/-- The group forms (R36): the device acts as though step S − 1 were done, its timer expired and its "done S − 1" issued; tokens kept are
judged, and staged commands for an earlier tick are late (R335). -/
def State.formGroup (s : State) : State :=
  let last := s.rd Rg.GARNET_START_TICK - 1#32
  let kept := s.garnet.kept
  let s := s.wr Rg.GARNET_TICK last
  let s := { s with garnet := { s.garnet with formed := some last, watch := true, before := [], startAt := s.now, expireAt := s.now, doneAt := s.now, heldNext := [], abandonFrom := [],
                                              abandonNext := [], kept := [], heardTick := [], abandoned := false, committed := true, lastCommit := last
                                              heardAt := (s.group.map fun m => (m, s.now)) } }
  let s := s.each (List.range 16) fun s i => s.setFld (Fld.GARNET_TOKENS_HELD_HELD i) 0
  let s := (s.setFld Fld.GARNET_STATUS_STATE stDone).raise Fld.GARNET_STATUS_TIMER_EXPIRED
  let s := s.setFld Fld.GARNET_STATUS_OWN_DONE 0
  let s := if s.fld Fld.GARNET_CTRL_WITHHOLD = 1 then s else s.issueDone false
  let s := s.each kept fun s k =>
    s.judgeToken ⟨BitVec.ofNat 16 (s.fld Fld.GARNET_GROUP_GROUP_ID), finMod 512 k.1 (by decide), k.2.2, k.2.1⟩
  let late := s.hostq.staged.filter fun x => (entryHdr x.q x.bytes).atTick && earlier (entryHdr x.q x.bytes).applyTick (last + 1#32)
  let s := (s.modHost fun h => { h with staged := h.staged.filter fun x => !late.contains x }).recountSess
  (s.each late fun s x => s.completeCmd ⟨x.q, (entryHdr x.q x.bytes).cid, 0#32⟩ .late 0).takePages.refreshTokens.notIdle.beginWake

/-- The device starts no further tick (R36), for which no setting then waits but those that change at a tick start alone. -/
def State.stopGroup (s : State) : State := ((s.releaseHeld (toTickIf false)).setFld Fld.GARNET_STATUS_STATE stDisabled).refreshTokens

/-- ENABLE written to 0 has taken effect (R36): the group is left, and silence means nothing any more. -/
def State.leaveGroup (s : State) : State := { s with garnet := { s.garnet with watch := false } }.stopGroup

/-- Settings written during the step come into force at its end, but for those that wait for a tick start (R24). -/
def State.settleHeld (s : State) : State :=
  let was := s.ticking
  let s := s.releaseHeld (toTickIf (s.fld Fld.GARNET_CTRL_ENABLE == 1))
  match was, s.ticking with
  | true, false => s.leaveGroup
  | false, true => s.formGroup
  | _, _ => s.refreshTokens

/-- The settings that wait for a tick start come into force, and host pages made valid since the last come into use (R23, R354). -/
def State.settleTick (s : State) : State :=
  let held := s.held
  let s := (s.releaseHeld fun _ => false).takePages
  s.each ((List.range 12).filter fun st => (List.range 16).any fun p => (NMap.find held (Rg.STK_REG_PART st p)).isSome) State.checkShares

/-- GARNET_ENABLE_SET: CTRL.ENABLE written to 1 (R36); during a step it waits for the step's end (R24). -/
def State.setEnable (s : State) (on : Bool) : State :=
  let was := s.ticking
  let s := s.wrDefer Rg.GARNET_CTRL (bvPut 0 (s.rd Rg.GARNET_CTRL) on)
  match was, s.ticking with
  | true, false => s.leaveGroup
  | false, true => s.formGroup
  | _, _ => s

/-- GARNET_ENABLE_SET (R36). -/
def execGarnetEnableSet (s : State) : Host.Outcome State Fault Refusal :=
  .next (s.bar0 Rg.GARNET_CTRL fun s => s.setEnable true)

/-- GARNET_ENABLE_CLEAR (R36). -/
def execGarnetEnableClear (s : State) : Host.Outcome State Fault Refusal :=
  .next (s.bar0 Rg.GARNET_CTRL fun s => s.setEnable false)

/-- A write of WITHHOLD (R31, R213). -/
def State.setWithhold (s : State) (v : Bool) : State := if v then s.raise Fld.GARNET_CTRL_WITHHOLD else s.clearWithhold

/-- WITHHOLD: CTRL.WITHHOLD written (R31). -/
def execWithhold (v : Bool) (s : State) : Host.Outcome State Fault Refusal :=
  .next (s.bar0 Rg.GARNET_CTRL fun s => s.setWithhold v)

/-! ### The end of a step -/

/-- The step is over: table references return (R179), the guard counts it toward its window (R160), caps that waited apply (R213), the own
token goes out unless it is withheld (R31), held settings come into force (R24) and a LEAVE takes effect (R314). -/
def State.endStep (s : State) (abandon : Bool) : State :=
  let s := s.returnRefs
  let s := s.each (List.range 64) fun s k => s.modCluster k fun x =>
    if s.inForce (Fld.GUARD_CTRL_ENABLE k) = 1 then { x with winSteps := x.winSteps + 1 } else { x with winSteps := 0, wins := [] }
  let s := (s.setFld Fld.GARNET_STATUS_STATE stDone).capsDue
  let s := { s with garnet := { s.garnet with doneAt := s.now } }
  let s := if s.fld Fld.GARNET_CTRL_WITHHOLD = 1 ∨ !s.ticking then s else s.issueDone abandon
  let s := s.settleHeld
  let s := if s.ticking then s else s.stopGroup
  if s.link.leave then s.leaveNow else s

/-- Every core has completed STEP_END, and no re-run is in progress, waits or is still to be decided (R31, R149, R153, R154). -/
def State.stepEnded (s : State) : Bool :=
  (List.range 512).all (fun c => s.fld (Fld.SEQ_STATUS_ENDED c) == 1) &&
    (List.range 64).all fun k =>
      s.fld (Fld.GUARD_STATUS_RERUN_ACTIVE k) == 0 && (s.cluster k).rerunQ.isEmpty && (s.cluster k).closing.isEmpty

/-- What STEP_COMMIT leaves once the step's writes are made (R31, R145). -/
def State.committed (s : State) : State :=
  { s with garnet := { s.garnet with committed := true, lastCommit := s.tickNo }
           clusters := NMap.mapD {} (fun x => { x with last := x.cur }) s.clusters }.endStep false

/-- STEP_COMMIT: once the step has ended it is committed and done (R31, R345); the guard's fields of the step are those shown (R145). -/
def execStepCommit (s : State) : Host.Outcome State Fault Refusal :=
  .next (if s.tickState = stRunning && s.stepEnded then
      match s.commitSessions with
      | some s => s.committed.actOnFault
      | none => s
    else s)

/-- The Jasper entry of an event given to the recorder: the newest in the ring, or as it would be made now. -/
def State.entryOf (s : State) (e : JReq) : JEntry :=
  (s.jsp.ring.reverse.find? fun x => x.code == e.code && x.kind == e.kind && x.unit == e.unit && x.d0 == e.d0 && x.d1 == e.d1).getD (s.mkEntry e)

/-- ABANDON_DONE: every core has stopped (R54): the step is counted, partitions with a session in it are told (R351), nothing of it is
committed (R28), and the abandon-flagged token goes out while the group is enabled. -/
def execAbandonDone (s : State) : Host.Outcome State Fault Refusal :=
  .next (if s.tickState = stAbandoning then
      let s := s.drainIntake
      let received := s.abandonCause.isNone
      let cause := s.abandonCause.getD { cls := JCode.abandon.cls, kind := JCode.abandon.kind, code := JCode.abandon.code, unit := 0, d0 := 1#32, d1 := s.tickNo }
      let payload := (s.entryOf cause).bytes
      let parts := s.hostq.stepParts.filter fun p => s.inForce (Fld.PARTN_CTRL_ENABLE p) == 1
      let s := s.count Ct.GARNET_ABANDON_COUNT 1
      let s := s.each parts fun s p => s.postEvent p 0x0C 0xFFFF 0xFFFF (bit1 received) payload
      let s := { s.clearSample with abandonCause := none }
      let s := s.each (List.range 512) fun s c => s.setFld (Fld.SEQ_STATUS_RUNNING c) 0
      s.endStep true
    else s)

/-! ### The start of a step -/

/-- Unified address of core `c`'s program (R42, R59). -/
def State.progBase (s : State) (c : Nat) : Nat :=
  4096 * s.inForce (Fld.SEQ_PROG_BASE_LO_BASE_LO c) + 2 ^ 32 * s.inForce (Fld.SEQ_PROG_BASE_HI_BASE_HI c)

/-- Core `c` is made ready for a step: its queues are empty, its counters 0, and its vector registers and masks hold free values (R42, R47,
R49, R115, R117). -/
def State.clearCore (s : State) (c : Nat) : State :=
  let (tag, s) := s.fresh
  let s := s.modCore c fun x =>
    { x with q := [], next := 0, count := 0, prog := s.progBase c, pid := 0#16, dispatched := false, seg := none, layer := [], entered := []
             idleUs := 0, fills := [], line := none, parity := [], held := [], creditInit := [], vec := { x.vec with regs := [], masks := [], tag } }
  let s := (s.raise (Fld.SEQ_STATUS_RUNNING c)).setFld (Fld.SEQ_STATUS_ENDED c) 0
  s.each (List.range 32) fun s i => s.wr (Rg.SEQ_TOKEN c i) 0#32

/-- Core `c` starts its step (R42, R44): the header of its program is read and its credit counters are loaded. -/
def State.startCore (s : State) (c : Nat) : State :=
  let base := s.progBase c
  let head := (s.clearCore c).codeWord c base
  let cs := head.2.codeLine c (base + 64)
  let count := (head.1.map fun w => bvGet 0 32 w).getD 0
  let pid := BitVec.ofNat 16 ((head.1.map fun w => bvGet 32 16 w).getD 0)
  let credit := fun (j : Nat) => leNat (((cs.1.getD []).drop (2 * j)).take 2)
  let s := cs.2.modCore c fun x =>
    { x with count, pid, creditInit := (List.range 32).foldl (fun m j => NMap.set 0#16 m j (BitVec.ofNat 16 (credit j))) [] }
  let s := s.each (List.range 32) fun s j => s.setFld (credFld c j) (credit j)
  let bad := decide (count = 0) || decide (1048576 < count)
  if head.1.isNone ∨ cs.1.isNone then s.fetchError c ⟨0, pid, none⟩
  else if bad then (s.seqError c (Fld.SEQ_ERROR_PROGRAM_HEADER c) 0 pid).abandonStep false
  else if !s.pinnedRange base (128 + 8 * count) then s.fetchError c ⟨0, pid, none⟩
  else s

/-- Engine `g` starts its step (R96, R100, R101): its bank is empty in the mode that FORCE_COMP gives it, its LFSR is loaded, and nothing of
a decode carries over. Its outlier list is empty until its first LAYER, on which R158 is silent: DESIGN CHOICE, log entry 77. Its cache of
records, its weight registers and its sum faults of the last 16 steps stay (R87, R181, R186). -/
def State.startEngine (s : State) (g : Nat) : State :=
  let c := g / 4
  let key := s.rdForce (Rg.VEC_RNG_KEY_HI c) ++ s.rdForce (Rg.VEC_RNG_KEY_LO c)
  let seed := if s.inForce (Fld.ENG_CTRL_LFSR_FIXED g) = 1 then s.rdForce (Rg.ENG_LFSR_SEED g) else rand32 key s.tickNo.toNat c 0xFFFF g
  let s := s.modEng g fun x => { records := x.records, lru := x.lru, badSums := x.badSums, weights := x.weights }
  let s := (s.wr (Rg.ENG_LFSR_STATE g) (if seed = 0#32 then 1#32 else seed)).setFld (Fld.EXP_STATUS_DECODING g) 0
  s.setFld (Fld.ENG_STATUS_COMP_BANK g) (s.inForce (Fld.ENG_CTRL_FORCE_COMP g))

/-- A slot table entry with a table error (R146, R147). -/
def slotBad (e : BitVec 512) : Bool :=
  decide (64 < slotFld 111 7 e) || (bvBit 1 e && (slotFld 48 16 e == 0 || slotFld 175 8 e == 0 || !bvBit 2 e))

/-- The slot table of cluster `k` as it stands in the stacks (R146), read burst by burst as system traffic; an entry that cannot be read, as of
a table that is not pinned, is taken as all zeros. -/
def State.slotTable (s : State) (k : Nat) : NMap (BitVec 512) × State :=
  let base := 4096 * s.inForce (Fld.GUARD_TABLE_BASE_LO_BASE_LO k) + 2 ^ 32 * s.inForce (Fld.GUARD_TABLE_BASE_HI_BASE_HI k)
  if !s.pinnedRange base 32768 then ([], s)
  else (List.range 512).foldl (fun (acc : NMap (BitVec 512) × State) l =>
    let r := acc.2.readProg (k / 16) none (base + 64 * l)
    (NMap.set 0#512 acc.1 l (BitVec.ofNat 512 ((r.1.map leNat).getD 0)), r.2)) ([], s)

/-- Cluster `k` starts its step (R145 to R149, R405): its clock runs, the slot table is read, the fields of the step are cleared and the
margin is loaded. -/
def State.startCluster (s : State) (k : Nat) : State :=
  let s := s.setFld (Fld.CLC_STATUS_STEP_ENDED k) 0
  let s := s.when (s.fld (Fld.CLC_STATUS_POWERED k) == 1) fun s => s.raise (Fld.CLC_STATUS_CLOCK_ON k)
  let (slots, s) := s.slotTable k
  let bad := (slots.filter fun p => slotBad p.2).map (·.1)
  let s := s.modCluster k fun x => { x with slots, slotErr := bad, cur := [], closing := [], rerunQ := [] }
  let s := s.setFld (Fld.GUARD_MARGIN_LEFT_LEFT_US k) (s.inForce (Fld.GUARD_MARGIN_MARGIN_US k))
  s.each bad fun s l => (s.raise (Fld.GUARD_STATUS_TABLE_ERROR k)).jasper .guardTable k l 0

/-- What R41 counts at a tick start. -/
def State.countOverrun (s : State) : State :=
  let e := s.garnet.expireAt
  let d := s.garnet.doneAt
  let s := s.when (decide (e < s.now)) fun s =>
    ((s.count Ct.GARNET_OVERRUN_COUNT 1).count Ct.GARNET_OVERRUN_US (s.now - e)).maxRc Fld.GARNET_MAX_OVERRUN_US_MAX (s.now - e)
  let s := s.when (decide (e < d)) fun s => s.count Ct.GARNET_LATE_STEP_COUNT 1
  s.when (decide (max e d < s.now)) fun s => s.count Ct.GARNET_TOKEN_WAIT_US (s.now - max e d)

/-- The next tick begins: its timer is loaded (R32), and tokens held for it count (R39). -/
def State.nextTick (s : State) : State :=
  let g := s.garnet
  let s := s.wr Rg.GARNET_TICK (s.tickNo + 1#32)
  let s := (s.setFld Fld.GARNET_STATUS_TIMER_EXPIRED 0).setFld Fld.GARNET_STATUS_OWN_DONE 0
  let s := { s with garnet := { g with startAt := s.now, expireAt := s.now + s.inForce Fld.GARNET_PERIOD_PERIOD_US, heldNext := []
                                       abandonFrom := g.abandonNext, abandonNext := [], committed := false, abandoned := false } }
  let s := s.each (List.range 16) fun s i => s.setFld (Fld.GARNET_TOKENS_HELD_HELD i) 0
  (s.each g.heldNext State.holdToken).refreshTokens

/-- The sessions of partitions under a Function Level Reset close, which ends it (R332, R360). -/
def State.closeParts (s : State) : State :=
  let closing := s.hostq.closing
  let s := s.each (s.hostq.sess.filter fun p => closing.contains p.2.part) fun s p => s.endSession p.1
  let s := s.each closing fun s p => s.setFld (Fld.PARTN_STATUS_FLR_ACTIVE p) 0
  s.modHost fun h => { h with closing := [] }

/-- What applies at a tick start before the sessions are sampled: installed objects go LIVE (R270), commands (R335), closed partitions
(R332), deletions (R251), thermal caps that end (R214) and cluster clocks (R399, R402, R411, R412). -/
def State.applyAtTick (s : State) : State :=
  let s := s.each (s.place.objs.filter fun p => p.2.goLive) fun s p => s.makeLive p.1
  let s := s.closeParts.applyStaged 256
  let s := s.settleDeletes
  let s := s.each (List.range 12) fun s st =>
    s.when (NMap.get ({} : StackSt) s.stackTab st).capClear fun s =>
      (s.setFld (Fld.STK_THERM_THERM_CAP st) 100).modStack st fun x => { x with capClear := false }
  s.thermalRelease.capStep.applyCodes

/-- The step starts: its marks and waits are new (R156, R245), and every cluster, core and engine starts. -/
def State.startStep (s : State) : State :=
  let s := s.setFld Fld.GARNET_STATUS_STATE stRunning
  let s := { s with marks := {}, flights := [], fetches := [], abandonCause := none, place := { s.place with waits := [], expired := [] } }
  let s := s.each (List.range 64) State.startCluster
  let s := s.each (List.range 512) State.startCore
  s.each (List.range 2048) State.startEngine

/-- The device may start a tick (R30, R409, R415). -/
def State.mayStart (s : State) : Bool :=
  s.ticking && s.fld Fld.GARNET_STATUS_TIMER_EXPIRED == 1 && s.fld Fld.GARNET_STATUS_OWN_DONE == 1 &&
    s.fld Fld.GARNET_STATUS_TOKENS_COMPLETE == 1 && decide (s.fld Fld.BOOT_STATE_STATE < 7) && s.powerState == 0 && s.fld Fld.PWR_STATUS_PWRFAIL == 0

/-- The tick start. -/
def State.startTick (s : State) : State :=
  let s := s.countOverrun.nextTick.settleTick
  let s := s.applyAtTick.sample.startStep
  let s := s.deliverHeld
  if s.garnet.abandonFrom = [] then s else (s.raise Fld.GARNET_EVENTS_ABANDON_RECEIVED).abandonStep true

/-- TICK_START: the tick begins when the three conditions of R30 hold; nothing where one does not. -/
def execTickStart (s : State) : Host.Outcome State Fault Refusal :=
  .next (if s.mayStart then s.startTick.actOnFault else s)

/-- TICK_TIMER_EXPIRY: one period after the tick's start condition 1 of R30 holds (R32). -/
def execTickTimerExpiry (s : State) : Host.Outcome State Fault Refusal :=
  .next (if s.ticking && s.fld Fld.GARNET_STATUS_TIMER_EXPIRED == 0 then
      (s.clockTo s.garnet.expireAt).raise Fld.GARNET_STATUS_TIMER_EXPIRED
    else s)

/-! ### Time -/

/-- The hang limit of core `c` in µs (R55). -/
def State.hangLimit (s : State) (c : Nat) : Nat :=
  let n := s.inForce (Fld.SEQ_HANG_LIMIT_HANG_US c)
  if n = 0 then 2 * s.inForce Fld.GARNET_PERIOD_PERIOD_US else n

/-- HANG: core `c` has completed nothing for its limit, in time that counts (R55); the clock moves on by what was missing. Nothing where its
step is not running or the count is paused. ERROR_PC takes PC's value of the moment, as for an arrival (log entry 69). -/
def execHang (c : CoreId) (s : State) : Host.Outcome State Fault Refusal :=
  .next (if s.coreRuns c && s.stalledOn c == [] && !s.heldPoison c then
      let s := s.clockTo (s.now + (s.hangLimit c - (s.core c).idleUs))
      (s.seqError c (Fld.SEQ_ERROR_HANG c) (s.fld (Fld.SEQ_PC_PC c)) (s.core c).pid).abandonStep false
    else s)

/-- One microsecond in which no command arrives (log entry 8): time passes, and residency (R418) and OP_SECONDS (R422) move on, and idle
ports announce their credits (R293). -/
def State.idleTick (s : State) : State := (((s.pass 1).syncResidency).syncSeconds).each (List.range 16) State.announce

end Sys2Proof.Machine
end

