-- ==== Sys2Proof/Machine/Power.lean ====
section
/-! DEFINITION. Power and thermal behaviour (chapter 15), one meaning for each command: the package cap (R399), sensors and trips (R411, R412),
supply ramps (R402), power states (R405 to R408) and wakes (R404, R409, R410). Temperatures are in 0.25 °C. -/

namespace Sys2Proof.Machine

/-! ### The package cap (R399) -/

/-- POWER_AVERAGE: a 10 ms average (R399, R418). -/
def execPowerAverage (w : BitVec 16) (s : State) : Host.Outcome State Fault Refusal :=
  let cap := s.fld Fld.PWR_CAP_CAP_W
  let was := s.power.capSide
  let side := if cap < w.toNat then 2 else if 100 * w.toNat < 95 * cap then 0 else 1
  let s := (s.setFld Fld.PWR_POWER_AVG_W w.toNat).maxRc Fld.PWR_POWER_PEAK_W w.toNat
  let s := s.modPower fun p => { p with capSide := side }
  .next (if side ≠ 2 then s
    else
      let s := s.raise Fld.PWR_EVENTS_CAP_ACTIVE
      if was = 2 then s
      else (s.jasper .packageCap 0 w.toNat cap).modPower fun p => { p with stepAt := NMap.ins p.stepAt 64 s.now })

/-- CAP_STEP_TIMER: while ENABLE is 0 the cap's steps are taken every 1 ms (R399). -/
def execCapStepTimer (s : State) : Host.Outcome State Fault Refusal :=
  .next (if s.ticking then s
    else
      let s := s.clockTo (NMap.get 0 s.power.stepAt 64 + 1000)
      (s.modPower fun p => { p with stepAt := NMap.ins p.stepAt 64 s.now }).capStep)

/-! ### Sensors (R411, R412, R414) -/

/-- Warning and clearing thresholds of a sensor. -/
def warnAt (i : Nat) : Int × Int := if i < 69 then (400, 388) else (320, 308)

/-- The newest sample of a sensor. -/
def State.temp (s : State) (i : Nat) : Option Int := NMap.find s.power.temps i

/-- The last two samples of a sensor lie at or above `n`. -/
def State.hotFor (s : State) (i : Nat) (n : Int) : Bool :=
  (s.temp i).any (fun t => decide (n ≤ t)) && (NMap.find s.power.prevs i).any fun t => decide (n ≤ t)

/-- The last two samples of a sensor lie below `n`. -/
def State.coolFor (s : State) (i : Nat) (n : Int) : Bool :=
  (s.temp i).any (fun t => decide (t < n)) && (NMap.find s.power.prevs i).any fun t => decide (t < n)

/-- A sensor's warning comes into force or clears (R412, R414). -/
def State.sensorWarning (s : State) (i code : Nat) : State :=
  let w := warnAt i
  if s.power.warns.contains i then
    if s.coolFor i w.2 then (s.modPower fun p => { p with warns := p.warns.filter (· != i) }).releaseThermN i else s
  else if s.hotFor i w.1 then
    let s := (s.modPower fun p => { p with warns := p.warns ++ [i] }).jasper .sensorWarn 0 i code
    s.when (s.fld Fld.PWR_CTRL_THERM_N_WARN == 1) fun s => s.assertThermN i
  else s

/-- A cluster's cap lowers it by one code, or ends (R412). -/
def State.clusterCap (s : State) (k code : Nat) : State :=
  if s.power.caps.contains k then
    if s.coolFor k 400 then s.modPower fun p => { p with caps := p.caps.filter (· != k) } else s
  else if s.hotFor k 420 then
    let s := s.modPower fun p => { p with caps := p.caps ++ [k], stepAt := NMap.ins p.stepAt k s.now }
    let s := (s.thermalLower k none).raise Fld.PWR_EVENTS_CLUSTER_CAP
    s.jasper .clusterCap k (s.fld (freqNow k)) code
  else s

/-- Cluster `a` is hotter than cluster `b` by more than `n` in the last two samples of the sensor `i`, one of the two. -/
def State.gapFor (s : State) (i a b : Nat) (n : Int) : Bool :=
  match s.temp a, s.temp b, NMap.find s.power.prevs i with
  | some x, some y, some p => decide (n < x - y) && decide (n < if i = a then p - y else x - p)
  | _, _, _ => false

/-- Cluster `a` is within `n` of `b` in the last two samples of the sensor `i`, one of the two. -/
def State.nearFor (s : State) (i a b : Nat) (n : Int) : Bool :=
  match s.temp a, s.temp b, NMap.find s.power.prevs i with
  | some x, some y, some p => decide (x - y < n) && decide ((if i = a then p - y else x - p) < n)
  | _, _, _ => true

/-- Cluster `a` is lowered for a neighbour cooler by more than 30 °C, or released once every difference is below 25 °C (R411). -/
def State.neighbourTemp (s : State) (i a : Nat) : State :=
  if s.power.hots.contains a then
    if (neighbours a).all fun b => if i = a ∨ i = b then s.nearFor i a b 100 else s.nearFor a a b 100 then
      s.modPower fun p => { p with hots := p.hots.filter (· != a) }
    else s
  else match (neighbours a).find? fun b => (i == a || i == b) && s.gapFor i a b 120 with
    | some b => (s.modPower fun p => { p with hots := p.hots ++ [a], stepAt := NMap.ins p.stepAt a s.now }).thermalLower a (some b)
    | none => s

/-- An optical engine trips, its two ports going down, or is back (R412). -/
def State.opticTrip (s : State) (i : Nat) (t : Int) (code : Nat) : State :=
  let j := i - 69
  if s.power.oeDown.contains j then
    if s.coolFor i 308 then
      let s := (s.modPower fun p => { p with oeDown := p.oeDown.filter (· != j) }).releaseThermN i
      s.each [2 * j, 2 * j + 1] fun s p => (s.trainPort p).refreshOpen
    else s
  else if 360 ≤ t then
    let s := s.modPower fun p => { p with oeDown := p.oeDown ++ [j] }
    let s := s.each [2 * j, 2 * j + 1] fun s p => s.when (s.pState p != pDown) fun s => s.portDown p 2
    ((s.raise Fld.PWR_EVENTS_OE_TRIP).jasper .oeTrip j code 0).assertThermN i
  else s

/-- Every die sensor sampled lies below 95 °C (R412). -/
def State.diesCool (s : State) : Bool := (List.range 69).all fun i => (s.temp i).isNone || s.coolFor i 380

/-- A die trip (R412, R414): THERM_N, TRIP_SEEN and warm reset, held until every die sensor is below 95 °C. -/
def State.dieTrip (s : State) (i code : Nat) : State :=
  let s := ((s.raise Fld.PWR_EVENTS_TRIP_SEEN).jasper .dieTrip 0 i code).assertThermN 101
  let s := s.warmStart []
  { s with boot := { s.boot with heldBy := addOnce s.boot.heldBy heldTrip } }

/-- THERM_N is released of a warning or an optical engine's trip that a reset has ended, once its sensor is below its clearing value (R391, R414). -/
def State.thermNEnd (s : State) (i : Nat) : State :=
  s.when (s.power.thermN.contains i && !s.power.warns.contains i && !(decide (69 ≤ i) && s.power.oeDown.contains (i - 69)) &&
    s.coolFor i (warnAt i).2) fun s => s.releaseThermN i

/-- A sample while a reset is held (R412, R414): a die that trips holds the reset too, until every die is cool. -/
def State.sampleInReset (s : State) (i : Nat) (t : Int) : State :=
  let s := s.thermNEnd i
  if i ≤ 68 ∧ 460 ≤ t then
    let s := (s.raise Fld.PWR_EVENTS_TRIP_SEEN).assertThermN 101
    { s with boot := { s.boot with heldBy := addOnce s.boot.heldBy heldTrip } }
  else if s.diesCool then s.release heldTrip
  else s

/-- SENSOR_SAMPLE: warnings, cluster caps, neighbour limits and trips follow the sample (R411, R412). -/
def execSensorSample (i : Fin 77) (temp : BitVec 11) (s : State) : Host.Outcome State Fault Refusal :=
  let t := temp.toInt
  let code := temp.toNat
  let s := s.modPower fun p =>
    { p with prevs := match NMap.find p.temps i with | some x => NMap.ins p.prevs i x | none => p.prevs, temps := NMap.ins p.temps i t }
  .next (if s.boot.heldBy ≠ [] then s.sampleInReset i.val t
    else if i.val ≤ 68 ∧ 460 ≤ t then s.dieTrip i.val code
    else
      let s := (s.sensorWarning i.val code).thermNEnd i.val
      let s := if i.val < 64 then
          (s.clusterCap i.val code).each (i.val :: neighbours i.val) fun s a => s.neighbourTemp i.val a
        else if 69 ≤ i.val then s.opticTrip i.val t code
        else s
      s.showSensor)

/-- THERMAL_STEP_TIMER: 1 ms after its last step a cluster still at its cap, or still too hot beside a neighbour, is lowered one code more
(R411, R412). -/
def execThermalStepTimer (k : ClusterId) (s : State) : Host.Outcome State Fault Refusal :=
  let capped := s.power.caps.contains k.val && (s.temp k.val).any fun t => decide (420 ≤ t)
  let beside := if s.power.hots.contains k.val then (neighbours k.val).find? fun b => s.gapFor k.val k.val b 120 else none
  .next (if capped || beside.isSome then
      let s := s.clockTo (NMap.get 0 s.power.stepAt k.val + 1000)
      let s := s.modPower fun p => { p with stepAt := NMap.ins p.stepAt k.val s.now }
      let s := s.when capped fun s => s.thermalLower k.val none
      s.when beside.isSome fun s => s.thermalLower k.val beside
    else s)

/-- SUPPLY_RAMP_DONE: the clock of a raise switches (R402). -/
def execSupplyRampDone (k : ClusterId) (s : State) : Host.Outcome State Fault Refusal :=
  .next (match NMap.find s.power.ramps k.val with
    | some c => ((s.modPower fun p => { p with ramps := NMap.del p.ramps k.val }).setFld (freqNow k.val) c).refreshSupplies
    | none => s)

/-! ### Power states (R406 to R408) -/

/-- The device is idle (R406), but for ENABLE. -/
def State.idle (s : State) : Bool :=
  !s.inStep && s.hostq.staged.isEmpty && s.hostq.sess.all (fun p => p.2.prefill.isEmpty) && s.flash.deletes.isEmpty &&
    s.flash.aborts.isEmpty && s.flash.inst.isNone && s.place.moves.isEmpty && s.place.refetches.isEmpty && s.place.jobs.isEmpty &&
    s.boot.mails.isEmpty && decide (6 ≤ s.fld Fld.BOOT_STATE_STATE) && s.fld Fld.ONYX_STATUS_STATE != onyxFormatting

/-- The enable bit of a state. -/
def State.stateEnabled (s : State) (st : Nat) : Bool := (s.fld ⟨Rg.PWR_CTRL, st - 1, 1⟩) == 1

/-- The tolerance allows a state's wake time; with none stated, at most S1 (R407). -/
def State.tolerates (s : State) (st : Nat) : Bool :=
  match s.wakeTol with
  | some t => decide (wakeTime st ≤ t)
  | none => st == 1

/-- Objects other than WEIGHTS (R406). -/
def State.otherObjects (s : State) : Nat := (s.place.objs.filter fun p => p.2.kind != .weights).length

/-- The ports go on holding their training; the stacks enter self-refresh (R408). -/
def State.enterS3 (s : State) : State :=
  s.each (List.range 12) fun s st =>
    if s.fld (Fld.STK_STATUS_STATE st) = memReady then
      (s.each (List.range 128) fun s c => s.setFld (Fld.CH_STATUS_STATE (128 * st + c)) memSelfRefresh).stackState st memSelfRefresh
    else s

/-- What the stacks held is lost: every tile is at its origin, and no frame but a retired one is in use (R408, R410). -/
def State.dropStacks (s : State) : State :=
  let s := s.each s.place.objs fun s p =>
    let s := s.setFld (Fld.OBJ_USE_STACK_TILES p.2.part) (s.fld (Fld.OBJ_USE_STACK_TILES p.2.part) - p.2.resident)
    s.modObj p.1 fun x => { x with resident := 0, dirFrames := [] }
  let s := s.modPlace fun p => { p with dir := [], dirCache := [], replaceT := [], rewritten := []
                                        frames := p.frames.filter fun f => f.2 == .retired }
  { (s.modFlash fun x => { x with index := [] }) with mem := [], chk := [], chans := [] }.each (List.range 4) State.recountFrames

/-- S4 (R408): a checkpoint, a LEAVE, whose ports going down are no training attempts that wake, and the stacks are off. -/
def State.enterS4 (s : State) : State :=
  let s := if s.onyxRun then s.requestFlush.checkpointNow else s
  let s := (((s.modFlash fun x => { x with clean := true }).setFld Fld.PWR_STATUS_STATE 4).leaveNow).setFld Fld.PWR_STATUS_WAKING 0
  let s := s.each [12, 13, 14, 15] State.closePort
  let s := s.each (List.range 12) fun s st =>
    (s.each (List.range 128) fun s c => s.setFld (Fld.CH_STATUS_STATE (128 * st + c)) memOff).stackState st memOff
  s.dropStacks

/-- The device enters state `st` from the one in force (R406, R408). -/
def State.enterState (s : State) (st : Nat) : State :=
  let was := s.powerState
  let s := s.syncResidency.modPower fun p => { p with resAt := s.now }
  let s := s.each (List.range 64) fun s k => s.setFld (Fld.CLC_STATUS_CLOCK_ON k) 0
  let s := s.when (decide (2 ≤ st) && decide (was < 2)) fun s => s.each (List.range 64) State.clusterOff
  let s := s.when (decide (3 ≤ st) && decide (was < 3)) State.enterS3
  let s := s.when (st == 4) State.enterS4
  s.setFld Fld.PWR_STATUS_STATE st

/-- States deeper than the one in force that R406 and R407 permit, the deepest first. -/
def State.deeper (s : State) : List Nat :=
  [4, 3, 2, 1].filter fun st => decide (s.powerState < st) && s.stateEnabled st && s.tolerates st && (st != 4 || s.otherObjects == 0)

/-- POWER_STATE_ENTRY: the idle device enters the deepest state whose idle time has passed, else it idles on until the next state's has
(R406, R407). An entry to S4 that objects other than WEIGHTS forbid is recorded (R416). Nothing while the device is not idle, ENABLE is 1, or
a wake is in progress. -/
def execPowerStateEntry (s : State) : Host.Outcome State Fault Refusal :=
  .next (if !s.idle ∨ s.fld Fld.GARNET_CTRL_ENABLE = 1 ∨ s.fld Fld.PWR_STATUS_WAKING = 1 ∨ s.fld Fld.PWR_STATUS_PWRFAIL = 1 then s.notIdle
    else
      let since := s.power.idleSince.getD s.now
      let s := s.modPower fun p => { p with idleSince := some since }
      let s := s.when (s.powerState == 3 && s.stateEnabled 4 && s.tolerates 4 && s.otherObjects != 0) fun s =>
        (s.clockTo (since + idleTime 4)).jasper .hostSetting 0 Rg.PWR_CTRL s.otherObjects
      match s.deeper.find? fun st => decide (since + idleTime st ≤ s.now) with
      | some st => s.enterState st
      | none => match s.deeper.getLast? with
        | some st => (s.clockTo (since + idleTime st)).enterState st
        | none => s)

/-! ### Wakes (R404, R405, R409, R410) -/

/-- WAKE: PWR.CTRL.WAKE written to 1 (R409). -/
def execWake (s : State) : Host.Outcome State Fault Refusal :=
  .next (s.bar0 Rg.PWR_CTRL fun s => s.notIdle.beginWake)

/-- WAKE_REQUEST: a request for a cluster whose clock is stopped, or that is off, starts it (R404). -/
def execWakeRequest (k : ClusterId) (s : State) : Host.Outcome State Fault Refusal := .next (s.clusterOn k.val)

/-- The stacks that a wake needs are ready: after S4 their training is over (R410). -/
def State.stacksAwake (s : State) : Bool := (List.range 12).all fun st => s.fld (Fld.STK_STATUS_STATE st) != memTraining

/-- After S4 (R410): Onyx's tables and the origin indexes stand in system frames again (R261, R262), weight objects have their directories, and
pinned ones are placed. -/
def State.restoreObjects (s : State) : State :=
  let s := (s.modFlash fun x => { x with clean := false }).when s.onyxUp fun s =>
    s.takeSystem.each (s.flash.img.objs.filter fun p => p.2.committed) fun s p => s.indexFrames p.1 p.2.tiles
  s.each s.place.objs fun s p =>
    let r := s.takeSpread (ceilDiv (8 * p.2.size) 65536) (.directory p.1)
    let s := (r.2.modObj p.1 fun x => { x with dirFrames := r.1 }).initDir p.1
    s.when (p.2.policy == .pinned && p.2.state == .live) fun s =>
      s.startJob { object := p.1, next := 0, target := .pinned, shrink := none, done := none }

/-- WAKE_COMPLETE: the device is in S0 once the wake time of the state has passed (R406, R409, R410). While PWRFAIL_N is low nothing is written to
the stacks (R416). Nothing where no wake is in progress, or
the stacks still train. -/
def execWakeComplete (s : State) : Host.Outcome State Fault Refusal :=
  let was := s.powerState
  .next (if s.fld Fld.PWR_STATUS_WAKING = 0 ∨ !s.stacksAwake then s
    else
      let s := s.clockTo (s.power.wakeAt + wakeTime was)
      let s := s.syncResidency.modPower fun p => { p with resAt := s.now, idleSince := none }
      let s := s.each (List.range 64) State.clusterOn
      let s := s.each (List.range 12) fun s st => s.when (s.fld (Fld.STK_STATUS_STATE st) == memSelfRefresh) fun s =>
        (s.each (List.range 128) fun s c => s.when (s.fld (Fld.CH_STATUS_STATE (128 * st + c)) == memSelfRefresh) fun s =>
          s.setFld (Fld.CH_STATUS_STATE (128 * st + c)) memReady).stackState st memReady
      let s := ((s.setFld Fld.PWR_STATUS_STATE 0).setFld Fld.PWR_STATUS_WAKING 0).resumeLinks
      let s := s.when (was == 4) fun s =>
        if s.fld Fld.PWR_STATUS_PWRFAIL = 1 then s.modPower fun p => { p with refill := true } else s.restoreObjects
      let s := s.when (was == 4 && s.boot.optics) fun s => s.each [12, 13, 14, 15] State.trainPort
      s.count Ct.PWR_WAKES 1)

/-- CLOCK_UNGATE: clocks that STEP_GATE stopped run again 3 µs before the tick timer expires (R405). -/
def execClockUngate (s : State) : Host.Outcome State Fault Refusal :=
  .next (if s.ticking && s.fld Fld.GARNET_STATUS_TIMER_EXPIRED == 0 && s.powerState == 0 then
      (s.clockTo (s.garnet.expireAt - 3)).each (List.range 64) fun s k =>
        s.when (s.fld (Fld.CLC_STATUS_POWERED k) == 1) fun s => s.raise (Fld.CLC_STATUS_CLOCK_ON k)
    else s)

end Sys2Proof.Machine
end

