-- ==== Sys2Proof/Machine/Resets.lean ====
section
/-! DEFINITION. Resets and power failure (R28, R319, R332, R361, R362, R392, R397, R415, R433), one meaning for each command. -/

namespace Sys2Proof.Machine

/-- COLD_RESET (R362, R397). -/
def execColdReset (s : State) : Host.Outcome State Fault Refusal := .next s.coldStart

/-- A reset ends at moment `t`, which is time 0 of the start-up. -/
def State.restartAt (s : State) (t : Nat) : State := (s.clockTo t).timeZero

/-- SYS_RST_N: a low pulse of 100 ns or more is a warm reset, which lasts as long as the pin is low; a shorter one is ignored (R361), and so is
the reset request for a device that has already left (R319, R325, log entry 82). -/
def execSysRstN (ns : BitVec 32) (s : State) : Host.Outcome State Fault Refusal :=
  .next (if ns.toNat < 100 ∨ s.link.left then s else (s.warmStart [Fld.BOOT_RESET_CAUSE_SYS_RST]).restartAt (s.now + ns.toNat / 1000))

/-- A reset stays in force for `why`. -/
def State.hold (s : State) (why : Nat) : State := { s with boot := { s.boot with heldBy := addOnce s.boot.heldBy why } }

/-- PERST_N: its fall is a warm reset that lasts until it rises (R361). -/
def execPerstN (low : Bool) (s : State) : Host.Outcome State Fault Refusal :=
  .next (if !low then s.release heldPerst
    else if s.boot.heldBy.contains heldPerst then s
    else (s.warmStart [Fld.BOOT_RESET_CAUSE_PERST]).hold heldPerst)

/-- A write of BOOT.RESET_CTRL (R361, R362, R393): a warm reset from the PF with the confirmation, else no effect. -/
def State.writeResetCtrl (s : State) (fn confirm : Nat) : State :=
  if fn = 0 ∧ confirm = 0xA5C3 then s.leaveAndReset .admin [Fld.BOOT_RESET_CAUSE_SOFTWARE] else s

/-- WARM: RESET_CTRL.WARM written to 1 (R362). -/
def execWarm (fn : FnId) (confirm : BitVec 16) (s : State) : Host.Outcome State Fault Refusal :=
  .next (s.bar0 Rg.BOOT_RESET_CTRL fun s => s.writeResetCtrl fn.val confirm.toNat)

/-- SUPPLY_LOW (R397): a cold reset from a deep fall of VDD_AON, else a warm reset that is held until the rail has been back for 1 ms, as the next
STARTUP says (log entry 54). -/
def execSupplyLow (rail : Rail) (s : State) : Host.Outcome State Fault Refusal :=
  .next (match rail with
    | .aonDeep => s.coldStart
    | _ => (s.warmStart []).hold heldSupply)

/-- PWRFAIL_N_FALL (R280, R415): fetching, applying and ticks stop, the recorder flushes and the device wakes; during start-up it returns to
warm reset until the pin rises. -/
def execPwrfailNFall (s : State) : Host.Outcome State Fault Refusal :=
  .next (if s.fld Fld.PWR_STATUS_PWRFAIL = 1 then s
    else
      let s := s.modFlash fun x => { x with inProgress := s.inProgressNow }
      let s := s.drainIntake.raise Fld.PWR_STATUS_PWRFAIL
      let s := ((s.jasper .powerFail 0 0 0).drainIntake).endVaultRead
      let s := if s.starting then (s.warmStart []).hold heldPwrfail else s.beginWake
      (s.raise Fld.PWR_EVENTS_PWRFAIL_SEEN).count Ct.PWR_PWRFAIL_COUNT 1)

/-- PWRFAIL_N_RISE: the device resumes, or leaves the reset that the pin held (R415); what a wake from S4 left to do is done (R416), and ports
send again. -/
def execPwrfailNRise (s : State) : Host.Outcome State Fault Refusal :=
  let s := ((s.modFlash fun x => { x with inProgress := [] }).setFld Fld.PWR_STATUS_PWRFAIL 0).release heldPwrfail
  let s := s.when s.power.refill fun s => (s.modPower fun p => { p with refill := false }).restoreObjects
  .next (s.when (s.flash.geom != none) State.recordDue).resumeLinks

/-- WATCHDOG: a management core's watchdog has run its period without a reload, or its SRAM has met an uncorrectable error, which is handled
alike (R433): LEAVING and a warm reset. -/
def execWatchdog (w : MgmtStop) (s : State) : Host.Outcome State Fault Refusal :=
  let cause := if w.core = 0 then Fld.BOOT_RESET_CAUSE_WATCHDOG0 else Fld.BOOT_RESET_CAUSE_WATCHDOG1
  let s := match w.ue with
    | none => (s.clockTo (s.now + 1000 * s.fld (wdogLeft w.core))).jasper .watchdog w.core 0 0
    | some a => s.jasper .mgmtEccUe w.core a.toNat 0
  .next (s.leaveAndReset .watchdog [cause])

/-- RESET_REQUEST: the member named resets as for a software reset (R319), unless it has already left (R325); another member that faces it, lost, waits to relink (R320). -/
def execResetRequest (target requester : Member) (s : State) : Host.Outcome State Fault Refusal :=
  .next (if target.val = s.me then
      let s := s.takeMgmt 0x02 (leBytes 4 (target.val + 2 ^ 9 * requester.val))
      if s.link.left then s else (s.jasper .resetRequest requester 1 0).leaveAndReset .admin [Fld.BOOT_RESET_CAUSE_SOFTWARE]
    else if s.mState target = 1 ∧ s.facing target ≠ [] then s.startRelink target (s.facing target)
    else s)

/-! ### Function Level Reset (R332) -/

/-- An installation of a partition for which `mine` holds is aborted (R271, R357). -/
def State.flrInstall (s : State) (mine : Nat → Bool) : State :=
  match s.flash.inst.bind fun i => s.obj i.object with
  | some x => s.when (mine x.part) fun s => s.abortInst .aborted []
  | none => s

/-- What a Function Level Reset does to partition `p`, for function `fn`: its rings and host page table are disabled, its sessions close at
the next tick start, which ends it, or at once where no tick starts, and its objects other than WEIGHTS are deleted. -/
def State.flrPart (s : State) (fn p : Nat) : State :=
  let s := s.forceFld (Fld.PARTN_OUT_CFG_ENABLE p) 0
  let s := s.forceFld (Fld.PARTN_EVT_CFG_ENABLE p) 0
  let s := (s.forceFld (Fld.PARTN_HPT_COUNT_COUNT p) 0).recountPages
  let s := (s.modHost fun h => { h with closing := addOnce h.closing p }).raise (Fld.PARTN_STATUS_FLR_ACTIVE p)
  let s := s.when (!s.ticking) State.closeParts
  let s := s.each (s.place.objs.filter fun q => q.2.part == p && q.2.kind != .weights && q.2.live) fun s q =>
    s.modObj q.1 fun x => { x with state := .deleting, dying := some [] }
  s.settleDeletes.jasper .flr p fn 0

/-- A queue is disabled, and its staged commands are discarded. -/
def State.flrQueue (s : State) (q : Nat) : State := (s.setFld (Fld.HQ_Q_CFG_ENABLE q) 0).stopQueue q

/-- A Function Level Reset of the PF, or of an enabled VF. The completion of an installation that it aborts precedes the end of the queues
(R357). -/
def State.flr (s : State) (fn : Nat) : State :=
  if fn = 0 then ((s.flrInstall fun _ => true).each (List.range 256) State.flrQueue).each (List.range 16) fun s p => s.flrPart 0 p
  else if fn ≤ s.hostq.numVfs then
    ((s.flrInstall fun p => p == fn - 1).each ((List.range 256).filter fun q => s.ownerFn q == fn) State.flrQueue).flrPart fn (fn - 1)
  else s

/-- FUNCTION_LEVEL_RESET (R332); before 100 ms the request is not taken (R364). -/
def execFunctionLevelReset (fn : FnId) (s : State) : Host.Outcome State Fault Refusal := .next (if s.configUp then s.flr fn.val else s)

/-- HOT_RESET: a PCIe hot reset, link disable or link down acts as a PF Function Level Reset (R362), and the PCIe link is down (R359). -/
def execHotReset (s : State) : Host.Outcome State Fault Refusal := .next ((s.flr 0).wr Rg.HQ_LINK 0#32)

end Sys2Proof.Machine
end

