-- ==== Sys2Proof/Machine/Sha.lean ====
section
/-! DEFINITION. SHA-256, HMAC-SHA-256 and HKDF-SHA-256, which chapter 14 names (R372, R375, R379, R383, R385), over lists of bytes. The
functions are those of FIPS 180-4, FIPS 198-1 and RFC 5869 (log entry 21). -/

namespace Sys2Proof.Machine

/-- Round constants. -/
def shaK : List (BitVec 32) :=
  [0x428a2f98#32, 0x71374491#32, 0xb5c0fbcf#32, 0xe9b5dba5#32, 0x3956c25b#32, 0x59f111f1#32, 0x923f82a4#32, 0xab1c5ed5#32,
   0xd807aa98#32, 0x12835b01#32, 0x243185be#32, 0x550c7dc3#32, 0x72be5d74#32, 0x80deb1fe#32, 0x9bdc06a7#32, 0xc19bf174#32,
   0xe49b69c1#32, 0xefbe4786#32, 0x0fc19dc6#32, 0x240ca1cc#32, 0x2de92c6f#32, 0x4a7484aa#32, 0x5cb0a9dc#32, 0x76f988da#32,
   0x983e5152#32, 0xa831c66d#32, 0xb00327c8#32, 0xbf597fc7#32, 0xc6e00bf3#32, 0xd5a79147#32, 0x06ca6351#32, 0x14292967#32,
   0x27b70a85#32, 0x2e1b2138#32, 0x4d2c6dfc#32, 0x53380d13#32, 0x650a7354#32, 0x766a0abb#32, 0x81c2c92e#32, 0x92722c85#32,
   0xa2bfe8a1#32, 0xa81a664b#32, 0xc24b8b70#32, 0xc76c51a3#32, 0xd192e819#32, 0xd6990624#32, 0xf40e3585#32, 0x106aa070#32,
   0x19a4c116#32, 0x1e376c08#32, 0x2748774c#32, 0x34b0bcb5#32, 0x391c0cb3#32, 0x4ed8aa4a#32, 0x5b9cca4f#32, 0x682e6ff3#32,
   0x748f82ee#32, 0x78a5636f#32, 0x84c87814#32, 0x8cc70208#32, 0x90befffa#32, 0xa4506ceb#32, 0xbef9a3f7#32, 0xc67178f2#32]

/-- The eight words of the running value. -/
structure Sha where
  a : BitVec 32
  b : BitVec 32
  c : BitVec 32
  d : BitVec 32
  e : BitVec 32
  f : BitVec 32
  g : BitVec 32
  h : BitVec 32
  deriving DecidableEq, Repr

/-- The first running value. -/
def shaInit : Sha := ⟨0x6a09e667#32, 0xbb67ae85#32, 0x3c6ef372#32, 0xa54ff53a#32, 0x510e527f#32, 0x9b05688c#32, 0x1f83d9ab#32, 0x5be0cd19#32⟩

/-- Bytes, the first in the highest place, as a word. -/
def beWord (bs : List Byte) : BitVec 32 := bs.foldl (fun x b => (x <<< 8) ||| b.setWidth 32) 0#32

/-- The four bytes of a word, the highest first. -/
def beBytes (x : BitVec 32) : List Byte := [x.extractLsb' 24 8, x.extractLsb' 16 8, x.extractLsb' 8 8, x.extractLsb' 0 8]

/-- One more word of the message schedule, the newest first. -/
def shaNext (w : List (BitVec 32)) : List (BitVec 32) :=
  let at_ := fun i => w.getD i 0#32
  let s0 := (at_ 14).rotateRight 7 ^^^ (at_ 14).rotateRight 18 ^^^ (at_ 14) >>> 3
  let s1 := (at_ 1).rotateRight 17 ^^^ (at_ 1).rotateRight 19 ^^^ (at_ 1) >>> 10
  (at_ 15 + s0 + at_ 6 + s1) :: w

/-- The message schedule of a block of 64 bytes: 64 words. -/
def shaSchedule (blk : List Byte) : List (BitVec 32) :=
  let first := (List.range 16).map fun i => beWord ((blk.drop (4 * i)).take 4)
  ((List.range 48).foldl (fun w _ => shaNext w) first.reverse).reverse

/-- One round. -/
def shaRound (x : Sha) (kw : BitVec 32 × BitVec 32) : Sha :=
  let s1 := x.e.rotateRight 6 ^^^ x.e.rotateRight 11 ^^^ x.e.rotateRight 25
  let ch := (x.e &&& x.f) ^^^ (~~~x.e &&& x.g)
  let t1 := x.h + s1 + ch + kw.1 + kw.2
  let s0 := x.a.rotateRight 2 ^^^ x.a.rotateRight 13 ^^^ x.a.rotateRight 22
  let maj := (x.a &&& x.b) ^^^ (x.a &&& x.c) ^^^ (x.b &&& x.c)
  ⟨t1 + s0 + maj, x.a, x.b, x.c, x.d + t1, x.e, x.f, x.g⟩

/-- The running value after a block. -/
def shaBlock (x : Sha) (blk : List Byte) : Sha :=
  let y := (shaK.zip (shaSchedule blk)).foldl shaRound x
  ⟨x.a + y.a, x.b + y.b, x.c + y.c, x.d + y.d, x.e + y.e, x.f + y.f, x.g + y.g, x.h + y.h⟩

/-- A message with its padding, a multiple of 64 bytes. -/
def shaPad (bs : List Byte) : List Byte :=
  let n := bs.length
  bs ++ [0x80#8] ++ List.replicate ((119 - n % 64) % 64) 0#8 ++ (leBytes 8 (8 * n)).reverse

/-- The running value over `n` blocks. -/
def shaRun : Nat → Sha → List Byte → Sha
  | 0, x, _ => x
  | n + 1, x, bs => shaRun n (shaBlock x (bs.take 64)) (bs.drop 64)

/-- SHA-256: 32 bytes. -/
def sha256 (bs : List Byte) : List Byte :=
  let m := shaPad bs
  let x := shaRun (m.length / 64) shaInit m
  [x.a, x.b, x.c, x.d, x.e, x.f, x.g, x.h].flatMap beBytes

/-- HMAC-SHA-256. -/
def hmac (key msg : List Byte) : List Byte :=
  let k := if key.length ≤ 64 then key else sha256 key
  let k := k ++ List.replicate (64 - k.length) 0#8
  sha256 (k.map (· ^^^ 0x5C#8) ++ sha256 (k.map (· ^^^ 0x36#8) ++ msg))

/-- The first `n` bytes that HKDF-SHA-256 derives for `info`, without a salt. -/
def hkdf (ikm info : List Byte) (n : Nat) : List Byte :=
  let prk := hmac (List.replicate 32 0#8) ikm
  let r := (List.range (ceilDiv n 32)).foldl (fun (r : List Byte × List Byte) i =>
    let t := hmac prk (r.2 ++ info ++ [BitVec.ofNat 8 (i + 1)])
    (r.1 ++ t, t)) ([], [])
  r.1.take n

end Sys2Proof.Machine
end

