-- ==== Sys2Proof/Machine/SlhDsa.lean ====
section
/-! DEFINITION. SHA-512 and the pure SLH-DSA signatures that chapter 14 names (R372, R379, R387), over lists of bytes. The functions are those of
FIPS 180-4 and FIPS 205 (log entry 21). -/

namespace Sys2Proof.Machine

/-! ### SHA-512 -/

/-- Round constants 0 to 19. -/
def sha512K0 : List (BitVec 64) :=
  [0x428a2f98d728ae22#64, 0x7137449123ef65cd#64, 0xb5c0fbcfec4d3b2f#64, 0xe9b5dba58189dbbc#64,
   0x3956c25bf348b538#64, 0x59f111f1b605d019#64, 0x923f82a4af194f9b#64, 0xab1c5ed5da6d8118#64,
   0xd807aa98a3030242#64, 0x12835b0145706fbe#64, 0x243185be4ee4b28c#64, 0x550c7dc3d5ffb4e2#64,
   0x72be5d74f27b896f#64, 0x80deb1fe3b1696b1#64, 0x9bdc06a725c71235#64, 0xc19bf174cf692694#64,
   0xe49b69c19ef14ad2#64, 0xefbe4786384f25e3#64, 0x0fc19dc68b8cd5b5#64, 0x240ca1cc77ac9c65#64]

/-- Round constants 20 to 39. -/
def sha512K1 : List (BitVec 64) :=
  [0x2de92c6f592b0275#64, 0x4a7484aa6ea6e483#64, 0x5cb0a9dcbd41fbd4#64, 0x76f988da831153b5#64,
   0x983e5152ee66dfab#64, 0xa831c66d2db43210#64, 0xb00327c898fb213f#64, 0xbf597fc7beef0ee4#64,
   0xc6e00bf33da88fc2#64, 0xd5a79147930aa725#64, 0x06ca6351e003826f#64, 0x142929670a0e6e70#64,
   0x27b70a8546d22ffc#64, 0x2e1b21385c26c926#64, 0x4d2c6dfc5ac42aed#64, 0x53380d139d95b3df#64,
   0x650a73548baf63de#64, 0x766a0abb3c77b2a8#64, 0x81c2c92e47edaee6#64, 0x92722c851482353b#64]

/-- Round constants 40 to 59. -/
def sha512K2 : List (BitVec 64) :=
  [0xa2bfe8a14cf10364#64, 0xa81a664bbc423001#64, 0xc24b8b70d0f89791#64, 0xc76c51a30654be30#64,
   0xd192e819d6ef5218#64, 0xd69906245565a910#64, 0xf40e35855771202a#64, 0x106aa07032bbd1b8#64,
   0x19a4c116b8d2d0c8#64, 0x1e376c085141ab53#64, 0x2748774cdf8eeb99#64, 0x34b0bcb5e19b48a8#64,
   0x391c0cb3c5c95a63#64, 0x4ed8aa4ae3418acb#64, 0x5b9cca4f7763e373#64, 0x682e6ff3d6b2b8a3#64,
   0x748f82ee5defb2fc#64, 0x78a5636f43172f60#64, 0x84c87814a1f0ab72#64, 0x8cc702081a6439ec#64]

/-- Round constants 60 to 79. -/
def sha512K3 : List (BitVec 64) :=
  [0x90befffa23631e28#64, 0xa4506cebde82bde9#64, 0xbef9a3f7b2c67915#64, 0xc67178f2e372532b#64,
   0xca273eceea26619c#64, 0xd186b8c721c0c207#64, 0xeada7dd6cde0eb1e#64, 0xf57d4f7fee6ed178#64,
   0x06f067aa72176fba#64, 0x0a637dc5a2c898a6#64, 0x113f9804bef90dae#64, 0x1b710b35131c471b#64,
   0x28db77f523047d84#64, 0x32caab7b40c72493#64, 0x3c9ebe0a15c9bebc#64, 0x431d67c49c100d4c#64,
   0x4cc5d4becb3e42b6#64, 0x597f299cfc657e2a#64, 0x5fcb6fab3ad6faec#64, 0x6c44198c4a475817#64]

/-- Round constants of SHA-512. -/
def sha512K : List (BitVec 64) := sha512K0 ++ sha512K1 ++ sha512K2 ++ sha512K3

/-- The eight words of the running value. -/
structure Sha512 where
  a : BitVec 64
  b : BitVec 64
  c : BitVec 64
  d : BitVec 64
  e : BitVec 64
  f : BitVec 64
  g : BitVec 64
  h : BitVec 64
  deriving DecidableEq, Repr

/-- The first running value. -/
def sha512Init : Sha512 :=
  ⟨0x6a09e667f3bcc908#64, 0xbb67ae8584caa73b#64, 0x3c6ef372fe94f82b#64, 0xa54ff53a5f1d36f1#64,
   0x510e527fade682d1#64, 0x9b05688c2b3e6c1f#64, 0x1f83d9abfb41bd6b#64, 0x5be0cd19137e2179#64⟩

/-- Bytes, the first in the highest place, as a word of 64 bits. -/
def beWord64 (bs : List Byte) : BitVec 64 := bs.foldl (fun x b => (x <<< 8) ||| b.setWidth 64) 0#64

/-- `n` bytes of a number, the highest first. -/
def beOf (n x : Nat) : List Byte := (leBytes n x).reverse

/-- The number of bytes, the first in the highest place. -/
def beNat (bs : List Byte) : Nat := leNat bs.reverse

/-- One more word of the message schedule, the newest first. -/
def sha512Next (w : List (BitVec 64)) : List (BitVec 64) :=
  let at_ := fun i => w.getD i 0#64
  let s0 := (at_ 14).rotateRight 1 ^^^ (at_ 14).rotateRight 8 ^^^ (at_ 14) >>> 7
  let s1 := (at_ 1).rotateRight 19 ^^^ (at_ 1).rotateRight 61 ^^^ (at_ 1) >>> 6
  (at_ 15 + s0 + at_ 6 + s1) :: w

/-- The message schedule of a block of 128 bytes: 80 words. -/
def sha512Schedule (blk : List Byte) : List (BitVec 64) :=
  let first := (List.range 16).map fun i => beWord64 ((blk.drop (8 * i)).take 8)
  ((List.range 64).foldl (fun w _ => sha512Next w) first.reverse).reverse

/-- One round. -/
def sha512Round (x : Sha512) (kw : BitVec 64 × BitVec 64) : Sha512 :=
  let s1 := x.e.rotateRight 14 ^^^ x.e.rotateRight 18 ^^^ x.e.rotateRight 41
  let ch := (x.e &&& x.f) ^^^ (~~~x.e &&& x.g)
  let t1 := x.h + s1 + ch + kw.1 + kw.2
  let s0 := x.a.rotateRight 28 ^^^ x.a.rotateRight 34 ^^^ x.a.rotateRight 39
  let maj := (x.a &&& x.b) ^^^ (x.a &&& x.c) ^^^ (x.b &&& x.c)
  ⟨t1 + s0 + maj, x.a, x.b, x.c, x.d + t1, x.e, x.f, x.g⟩

/-- The running value after a block. -/
def sha512Block (x : Sha512) (blk : List Byte) : Sha512 :=
  let y := (sha512K.zip (sha512Schedule blk)).foldl sha512Round x
  ⟨x.a + y.a, x.b + y.b, x.c + y.c, x.d + y.d, x.e + y.e, x.f + y.f, x.g + y.g, x.h + y.h⟩

/-- A message with its padding, a multiple of 128 bytes. -/
def sha512Pad (bs : List Byte) : List Byte :=
  let n := bs.length
  bs ++ [0x80#8] ++ List.replicate ((239 - n % 128) % 128) 0#8 ++ beOf 16 (8 * n)

/-- The running value over `n` blocks. -/
def sha512Run : Nat → Sha512 → List Byte → Sha512
  | 0, x, _ => x
  | n + 1, x, bs => sha512Run n (sha512Block x (bs.take 128)) (bs.drop 128)

/-- SHA-512: 64 bytes. -/
def sha512 (bs : List Byte) : List Byte :=
  let m := sha512Pad bs
  let x := sha512Run (m.length / 128) sha512Init m
  [x.a, x.b, x.c, x.d, x.e, x.f, x.g, x.h].flatMap fun w => beOf 8 w.toNat

/-- HMAC-SHA-512 (FIPS 198-1). -/
def hmac512 (key msg : List Byte) : List Byte :=
  let k := if key.length ≤ 128 then key else sha512 key
  let k := k ++ List.replicate (128 - k.length) 0#8
  sha512 (k.map (· ^^^ 0x5C#8) ++ sha512 (k.map (· ^^^ 0x36#8) ++ msg))

/-- The first `n` bytes of MGF1-SHA-512 (RFC 8017). -/
def mgf512 (seed : List Byte) (n : Nat) : List Byte :=
  ((List.range (ceilDiv n 64)).flatMap fun i => sha512 (seed ++ beOf 4 i)).take n

/-! ### Parameter sets, addresses and hash functions (FIPS 205, 4.2, 4.3, 11.2) -/

/-- A parameter set with SHA-2 of security category 3 or 5: n, h, d, a and k; lg(w) is 4. -/
structure SlhSet where
  n : Nat
  h : Nat
  d : Nat
  a : Nat
  k : Nat
  deriving DecidableEq, Repr

/-- SLH-DSA-SHA2-256s. -/
def slh256s : SlhSet := ⟨32, 64, 8, 14, 22⟩

/-- SLH-DSA-SHA2-192f. -/
def slh192f : SlhSet := ⟨24, 66, 22, 8, 33⟩

/-- h': height of one of the d trees. -/
def SlhSet.hp (p : SlhSet) : Nat := p.h / p.d
/-- len: chains of a WOTS+ key. -/
def SlhSet.len (p : SlhSet) : Nat := 2 * p.n + 3
/-- Bytes of the digest that choose the FORS indices. -/
def SlhSet.mdBytes (p : SlhSet) : Nat := ceilDiv (p.k * p.a) 8
/-- Bytes of it that choose the tree. -/
def SlhSet.treeBytes (p : SlhSet) : Nat := ceilDiv (p.h - p.hp) 8
/-- Bytes of it that choose the leaf. -/
def SlhSet.leafBytes (p : SlhSet) : Nat := ceilDiv p.hp 8
/-- Bytes of a signature. -/
def SlhSet.sigBytes (p : SlhSet) : Nat := (1 + p.k * (1 + p.a) + p.h + p.d * p.len) * p.n

/-- An address: layer, tree, type and the three words behind it. -/
structure Adrs where
  layer : Nat
  tree  : Nat
  type  : Nat := 0
  w1    : Nat := 0
  w2    : Nat := 0
  w3    : Nat := 0
  deriving DecidableEq, Repr

/-- The compressed address, 22 bytes. -/
def Adrs.bytes (x : Adrs) : List Byte := beOf 1 x.layer ++ beOf 8 x.tree ++ beOf 1 x.type ++ beOf 4 x.w1 ++ beOf 4 x.w2 ++ beOf 4 x.w3

/-- F and PRF: SHA-256 of the seed, filled up to a block, the address and the input. -/
def SlhSet.f (p : SlhSet) (seed : List Byte) (x : Adrs) (m : List Byte) : List Byte :=
  (sha256 (seed ++ List.replicate (64 - p.n) 0#8 ++ x.bytes ++ m)).take p.n

/-- H and T: SHA-512 of the seed, filled up to a block, the address and the input. -/
def SlhSet.t (p : SlhSet) (seed : List Byte) (x : Adrs) (m : List Byte) : List Byte :=
  (sha512 (seed ++ List.replicate (128 - p.n) 0#8 ++ x.bytes ++ m)).take p.n

/-- H_msg: the digest of a message. -/
def SlhSet.hMsg (p : SlhSet) (r seed root m : List Byte) : List Byte :=
  mgf512 (r ++ seed ++ sha512 (r ++ seed ++ root ++ m)) (p.mdBytes + p.treeBytes + p.leafBytes)

/-- base_2b: the first `n` numbers of `b` bits of a string of bytes. -/
def base2b (bs : List Byte) (b n : Nat) : List Nat :=
  let x := beNat bs
  (List.range n).map fun i => x / 2 ^ (8 * bs.length - b * (i + 1)) % 2 ^ b

/-- Part `i` of `n` bytes. -/
def partOfBytes (n i : Nat) (bs : List Byte) : List Byte := (bs.drop (n * i)).take n

/-! ### WOTS+ (FIPS 205, 5) -/

/-- chain: `s` steps from step `i`. -/
def SlhSet.chain (p : SlhSet) (seed : List Byte) (x : Adrs) : Nat → Nat → List Byte → List Byte
  | 0, _, m => m
  | s + 1, i, m => p.chain seed x s (i + 1) (p.f seed { x with w3 := i } m)

/-- The secret value of chain `i`, under the key's address. -/
def SlhSet.wotsSk (p : SlhSet) (sk seed : List Byte) (x : Adrs) (i : Nat) : List Byte := p.f seed { x with type := 5, w2 := i, w3 := 0 } sk

/-- The public key of chains' ends. -/
def SlhSet.wotsPk (p : SlhSet) (seed : List Byte) (x : Adrs) (ends : List (List Byte)) : List Byte :=
  p.t seed { x with type := 1, w2 := 0, w3 := 0 } ends.flatten

/-- The digits of a message with its checksum. -/
def SlhSet.digits (p : SlhSet) (m : List Byte) : List Nat :=
  let d := base2b m 4 (2 * p.n)
  d ++ base2b (beOf 2 (16 * (d.map fun x => 15 - x).sum)) 4 3

/-- wots_pkGen. -/
def SlhSet.wotsGen (p : SlhSet) (sk seed : List Byte) (x : Adrs) : List Byte :=
  p.wotsPk seed x ((List.range p.len).map fun i => p.chain seed { x with type := 0, w2 := i } 15 0 (p.wotsSk sk seed x i))

/-- wots_sign. -/
def SlhSet.wotsSign (p : SlhSet) (sk seed : List Byte) (x : Adrs) (m : List Byte) : List Byte :=
  (p.digits m).zipIdx.flatMap fun q => p.chain seed { x with type := 0, w2 := q.2 } q.1 0 (p.wotsSk sk seed x q.2)

/-- wots_pkFromSig. -/
def SlhSet.wotsFrom (p : SlhSet) (seed : List Byte) (x : Adrs) (sig m : List Byte) : List Byte :=
  p.wotsPk seed x ((p.digits m).zipIdx.map fun q => p.chain seed { x with type := 0, w2 := q.2 } (15 - q.1) q.1 (partOfBytes p.n q.2 sig))

/-! ### Trees (FIPS 205, 6 to 8) -/

/-- xmss_node: node `i` at height `z` of a tree of layer and tree `x`. -/
def SlhSet.node (p : SlhSet) (sk seed : List Byte) (x : Adrs) : Nat → Nat → List Byte
  | 0, i => p.wotsGen sk seed { x with type := 0, w1 := i, w2 := 0, w3 := 0 }
  | z + 1, i => p.t seed { x with type := 2, w1 := 0, w2 := z + 1, w3 := i } (p.node sk seed x z (2 * i) ++ p.node sk seed x z (2 * i + 1))

/-- The root over a leaf `node` of index `i` and its authentication path, from height `z` up; `base` is the address of a node. -/
def SlhSet.climb (p : SlhSet) (seed : List Byte) (base : Adrs) : Nat → List (List Byte) → Nat → List Byte → List Byte
  | _, [], _, node => node
  | z, a :: rest, i, node =>
    let x := { base with w2 := z + 1, w3 := i / 2 }
    p.climb seed base (z + 1) rest (i / 2) (p.t seed x (if i % 2 = 0 then node ++ a else a ++ node))

/-- The address of a leaf's WOTS+ key. -/
def Adrs.leaf (x : Adrs) (i : Nat) : Adrs := { x with type := 0, w1 := i, w2 := 0, w3 := 0 }

/-- xmss_sign. -/
def SlhSet.xmssSign (p : SlhSet) (sk seed : List Byte) (x : Adrs) (i : Nat) (m : List Byte) : List Byte :=
  p.wotsSign sk seed (x.leaf i) m ++ (List.range p.hp).flatMap fun j => p.node sk seed x j ((i / 2 ^ j) ^^^ 1)

/-- xmss_pkFromSig. -/
def SlhSet.xmssFrom (p : SlhSet) (seed : List Byte) (x : Adrs) (i : Nat) (sig m : List Byte) : List Byte :=
  let auth := (List.range p.hp).map fun j => partOfBytes p.n (p.len + j) sig
  p.climb seed { x with type := 2, w1 := 0 } 0 auth i (p.wotsFrom seed (x.leaf i) sig m)

/-- The layers of ht_sign from layer `j` up, `n` of them. -/
def SlhSet.htSign (p : SlhSet) (sk seed : List Byte) : Nat → Nat → Nat → Nat → List Byte → List Byte
  | 0, _, _, _, _ => []
  | n + 1, j, tree, leaf, m =>
    let x : Adrs := { layer := j, tree }
    let sig := p.xmssSign sk seed x leaf m
    sig ++ p.htSign sk seed n (j + 1) (tree / 2 ^ p.hp) (tree % 2 ^ p.hp) (p.xmssFrom seed x leaf sig m)

/-- The root that ht_verify computes, from layer `j` up. -/
def SlhSet.htRoot (p : SlhSet) (seed : List Byte) : Nat → Nat → Nat → Nat → List Byte → List Byte → List Byte
  | 0, _, _, _, _, m => m
  | n + 1, j, tree, leaf, sig, m =>
    p.htRoot seed n (j + 1) (tree / 2 ^ p.hp) (tree % 2 ^ p.hp) (sig.drop ((p.len + p.hp) * p.n)) (p.xmssFrom seed { layer := j, tree } leaf sig m)

/-- fors_skGen. -/
def SlhSet.forsSk (p : SlhSet) (sk seed : List Byte) (x : Adrs) (i : Nat) : List Byte := p.f seed { x with type := 6, w2 := 0, w3 := i } sk

/-- fors_node: node `i` at height `z`. -/
def SlhSet.forsNode (p : SlhSet) (sk seed : List Byte) (x : Adrs) : Nat → Nat → List Byte
  | 0, i => p.f seed { x with w2 := 0, w3 := i } (p.forsSk sk seed x i)
  | z + 1, i => p.t seed { x with w2 := z + 1, w3 := i } (p.forsNode sk seed x z (2 * i) ++ p.forsNode sk seed x z (2 * i + 1))

/-- fors_sign. -/
def SlhSet.forsSign (p : SlhSet) (sk seed : List Byte) (x : Adrs) (md : List Byte) : List Byte :=
  (base2b md p.a p.k).zipIdx.flatMap fun q =>
    p.forsSk sk seed x (q.2 * 2 ^ p.a + q.1) ++
      (List.range p.a).flatMap fun j => p.forsNode sk seed x j (q.2 * 2 ^ (p.a - j) + ((q.1 / 2 ^ j) ^^^ 1))

/-- fors_pkFromSig. -/
def SlhSet.forsFrom (p : SlhSet) (seed : List Byte) (x : Adrs) (sig md : List Byte) : List Byte :=
  let roots := (base2b md p.a p.k).zipIdx.map fun q =>
    let at_ := (p.a + 1) * q.2
    let i := q.2 * 2 ^ p.a + q.1
    p.climb seed x 0 ((List.range p.a).map fun j => partOfBytes p.n (at_ + 1 + j) sig) i (p.f seed { x with w2 := 0, w3 := i } (partOfBytes p.n at_ sig))
  p.t seed { x with type := 4, w2 := 0, w3 := 0 } roots.flatten

/-! ### SLH-DSA (FIPS 205, 9 and 10) -/

/-- What a digest chooses: the FORS message, the tree and the leaf. -/
def SlhSet.chosen (p : SlhSet) (digest : List Byte) : List Byte × Nat × Nat :=
  (digest.take p.mdBytes, beNat ((digest.drop p.mdBytes).take p.treeBytes) % 2 ^ (p.h - p.hp),
    beNat ((digest.drop (p.mdBytes + p.treeBytes)).take p.leafBytes) % 2 ^ p.hp)

/-- PK.root of key generation from SK.seed and PK.seed. -/
def SlhSet.root (p : SlhSet) (sk seed : List Byte) : List Byte := p.node sk seed { layer := p.d - 1, tree := 0 } p.hp 0

/-- The message that a pure signature with an empty context signs. -/
def pureMessage (m : List Byte) : List Byte := 0#8 :: 0#8 :: m

/-- slh_sign with the message randomness `rnd`. -/
def SlhSet.sign (p : SlhSet) (skSeed skPrf seed root rnd msg : List Byte) : List Byte :=
  let m := pureMessage msg
  let r := (hmac512 skPrf (rnd ++ m)).take p.n
  let c := p.chosen (p.hMsg r seed root m)
  let x : Adrs := { layer := 0, tree := c.2.1, type := 3, w1 := c.2.2 }
  let fors := p.forsSign skSeed seed x c.1
  r ++ fors ++ p.htSign skSeed seed p.d 0 c.2.1 c.2.2 (p.forsFrom seed x fors c.1)

/-- slh_verify: the public key is PK.seed and PK.root. -/
def SlhSet.verify (p : SlhSet) (pk msg sig : List Byte) : Bool :=
  let seed := pk.take p.n
  let root := (pk.drop p.n).take p.n
  let m := pureMessage msg
  let r := sig.take p.n
  let c := p.chosen (p.hMsg r seed root m)
  let fors := sig.drop p.n
  let x : Adrs := { layer := 0, tree := c.2.1, type := 3, w1 := c.2.2 }
  sig.length == p.sigBytes && p.htRoot seed p.d 0 c.2.1 c.2.2 (fors.drop (p.k * (p.a + 1) * p.n)) (p.forsFrom seed x fors c.1) == root

end Sys2Proof.Machine
end

