-- ==== Sys2Proof/Machine/Boot.lean ====
section
/-! DEFINITION. Start-up (R362 to R367), the configuration NOR and its image (R368 to R377), identity and measurements (R378 to R385), the
security mailbox and DOE (R386 to R388), test enable (R389). -/

namespace Sys2Proof.Machine

/-- The bootstrap state changed. -/
def State.modBoot (s : State) (f : BootSt → BootSt) : State := { s with boot := f s.boot }

/-- 32 bytes as a word, byte 0 lowest. -/
def word256 (bs : List Byte) : BitVec 256 := BitVec.ofNat 256 (leNat bs)

/-- The 32 bytes of a word. -/
def bytes256 (x : BitVec 256) : List Byte := leBytes 32 x.toNat

/-! ### Identity (R379, R380) -/

/-- The info string KZ-ID. -/
def infoId : List Byte := [0x4B#8, 0x5A#8, 0x2D#8, 0x49#8, 0x44#8]
/-- The info string KZ-SVN. -/
def infoSvn : List Byte := [0x4B#8, 0x5A#8, 0x2D#8, 0x53#8, 0x56#8, 0x4E#8]
/-- The info string KZ-RPMC. -/
def infoRpmc : List Byte := [0x4B#8, 0x5A#8, 0x2D#8, 0x52#8, 0x50#8, 0x4D#8, 0x43#8]

/-- SK.seed, SK.prf and PK.seed of the identity key, 24 bytes each (R379). -/
def idSeeds (secret : BitVec 256) : List Byte := hkdf (bytes256 secret) infoId 72

/-- The 48 bytes of the identity public key: PK.seed, then PK.root (R379). -/
def idPublic (secret : BitVec 256) : List Byte :=
  let seeds := idSeeds secret
  seeds.drop 48 ++ slh192f.root (seeds.take 24) (seeds.drop 48)

/-- The signature of a message under the identity key, with message randomness `rnd` (R372, R379, R387). -/
def idSign (secret : BitVec 256) (rnd msg : List Byte) : List Byte :=
  let seeds := idSeeds secret
  slh192f.sign (seeds.take 24) ((seeds.drop 24).take 24) (seeds.drop 48) ((idPublic secret).drop 24) rnd msg

/-- The serial number of an identity public key (R380). -/
def serialOf (key : List Byte) : Nat := leNat ((sha256 key).take 8)

/-- The device certificate in the part record (R369, R381). -/
def certOf (nor : Mem) : List Byte := nor.rdBlk 0x21000 29920

/-- The device holds this secret and the identity it gives; the certificate is read with the rest of the part record (R368, R379). -/
def State.identify (s : State) (secret : BitVec 256) : State :=
  let key := idPublic secret
  let s := s.modBoot fun b => { b with secret := some secret, idKey := key, cert := certOf b.nor }
  (s.setFld Fld.BOOT_SERIAL_LO_SERIAL (serialOf key)).setFld Fld.BOOT_SERIAL_HI_SERIAL (serialOf key / 2 ^ 32)

/-- The device holds no verified identity (R380, R386). -/
def State.noIdentity (s : State) : State :=
  let s := s.modBoot fun b => { b with idKey := [] }
  (s.setFld Fld.BOOT_SERIAL_LO_SERIAL 0).setFld Fld.BOOT_SERIAL_HI_SERIAL 0

/-! ### Security-version records (R383, R384) -/

/-- Place of record `i` in the NOR (R369). -/
def recordAt (i : Nat) : Nat := 0x10000 + 0x1000 * i

/-- The 96 bytes of a record. -/
def svnRecord (key : List Byte) (counter minSvn : Nat) (owned : Bool) (hash : List Byte) : List Byte :=
  let body := leBytes 4 counter ++ leBytes 4 minSvn ++ leBytes 4 (bit1 owned) ++ hash.take 32 ++ List.replicate 20 0#8
  body ++ hmac key body

/-- A record is valid: its MAC verifies, its COUNTER is the NOR's and its OWNER_STATE is used. -/
def recordOk (nor : Mem) (key : List Byte) (counter i : Nat) : Bool :=
  nor.rdBlk (recordAt i + 64) 32 == hmac key (nor.rdBlk (recordAt i) 64) && nor.rdLe (recordAt i) 4 == counter &&
    decide (nor.rdLe (recordAt i + 8) 1 < 2)

/-- MIN_SVN of a record. -/
def recordSvn (nor : Mem) (i : Nat) : Nat := nor.rdLe (recordAt i + 4) 4
/-- OWNER_STATE of a record is OWNED. -/
def recordOwned (nor : Mem) (i : Nat) : Bool := nor.rdLe (recordAt i + 8) 1 == 1
/-- OWNER_KEY_HASH of a record. -/
def recordHash (nor : Mem) (i : Nat) : List Byte := nor.rdBlk (recordAt i + 12) 32

/-- The record a start-up uses (R384): none where not exactly one is valid. A NOR whose counter has no root key takes this device's, and a
first record. -/
def State.openRecord (s : State) (secret : BitVec 256) : Option State :=
  let key := hkdf (bytes256 secret) infoSvn 32
  let root := word256 (hkdf (bytes256 secret) infoRpmc 32)
  let first : Option (State × Nat) :=
    match s.boot.rpmc.1 with
    | none =>
      some (s.modBoot fun b => { b with rpmc := (some root, 0)
                                        nor := b.nor.wrBlk (recordAt 0) (svnRecord key 0 0 false (List.replicate 32 0#8)) }, 0)
    | some k =>
      match [0, 1].filter fun i => decide (k = root) && recordOk s.boot.nor key s.boot.rpmc.2 i with
      | [i] => some (s, i)
      | _ => none
  first.map fun (s, i) =>
    let s := s.modBoot fun b => { b with record := i, ownerHash := word256 (recordHash b.nor i) }
    (s.setFld Fld.BOOT_STATE_OWNED (bit1 (recordOwned s.boot.nor i))).setFld Fld.BOOT_MIN_SVN_SVN (recordSvn s.boot.nor i)

/-- A new record, with COUNTER one higher, goes into the slot that does not hold the valid one (R384); none where there is no valid record or the
counter cannot rise. -/
def State.updateRecord (s : State) (minSvn : Nat) (owned : Bool) (hash : List Byte) : Option State :=
  let b := s.boot
  match b.secret with
  | none => none
  | some secret =>
    let key := hkdf (bytes256 secret) infoSvn 32
    if recordOk b.nor key b.rpmc.2 b.record ∧ b.rpmc.2 + 1 < 2 ^ 32 then
      let i := 1 - b.record
      some (s.modBoot fun b => { b with nor := b.nor.wrBlk (recordAt i) (svnRecord key (b.rpmc.2 + 1) minSvn owned hash) })
    else none

/-- The counter is then incremented, which makes the new record the valid one (R384). -/
def State.bumpCounter (s : State) : State := s.modBoot fun b => { b with rpmc := (b.rpmc.1, b.rpmc.2 + 1), record := 1 - b.record }

/-! ### Slots (R369 to R375) -/

/-- Base of slot A (0) or B (1). -/
def slotBase (k : Nat) : Nat := if k = 0 then 0x1000000 else 0x2800000
/-- Size of a slot. -/
def slotSize : Nat := 0x1800000

/-- A directory copy: its SEQ and the slot it prefers, where its FORMAT and CRC hold (R370). -/
def dirCopy (nor : Mem) (a : Nat) : Option (BitVec 32 × Nat) :=
  if nor.rdLe a 2 = 1 ∧ nor.rdLe (a + 12) 4 = (crcOf 0x82F63B78#32 (nor.rdBlk a 12)).toNat then
    some (BitVec.ofNat 32 (nor.rdLe (a + 4) 4), nor.rdLe (a + 8) 1 % 2)
  else none

/-- The slot tried first (R370). -/
def firstSlot (nor : Mem) : Nat :=
  match dirCopy nor 0, dirCopy nor 0x8000 with
  | some a, some b => if tickLater b.1 a.1 then b.2 else a.2
  | some a, none => a.2
  | none, some b => b.2
  | none, none => 0

/-- A record of the configuration section: its offset there and its body (R376). -/
structure CfgRec where
  type : Nat
  off  : Nat
  body : List Byte
  deriving DecidableEq, Repr

/-- The records of a section of at most `n` records; none where one runs past the end. -/
def cfgRecords : Nat → Nat → List Byte → Option (List CfgRec)
  | _, _, [] => some []
  | 0, _, _ => none
  | n + 1, off, bs =>
    let len := leNat ((bs.drop 2).take 2)
    let whole := 8 + 8 * ceilDiv len 8
    if bs.length < whole then none
    else (cfgRecords n (off + whole) (bs.drop whole)).map fun rs => ⟨leNat (bs.take 2), off, (bs.drop 8).take len⟩ :: rs

/-- The configuration section of a slot, parsed; none where R376 makes the slot invalid. -/
def slotConfig (nor : Mem) (k : Nat) : Option (List CfgRec) :=
  let b := slotBase k
  let size := nor.rdLe (b + 1060) 4
  match cfgRecords (size / 8) 0 (nor.rdBlk (b + nor.rdLe (b + 1056) 4) size) with
  | some rs => if [1, 2, 3].all fun t => rs.any fun r => r.type == t then some rs else none
  | none => none

/-- Check 1 of R375: FORMAT, ROM_MIN, and sections that lie wholly within the slot, clear of the header and of each other. -/
def slotForm (nor : Mem) (b : Nat) : Bool :=
  let fo := nor.rdLe (b + 8) 4
  let fs := nor.rdLe (b + 12) 4
  let co := nor.rdLe (b + 1056) 4
  let cs := nor.rdLe (b + 1060) 4
  nor.rdLe b 2 == 1 && decide (nor.rdLe (b + 2) 2 ≤ 1) && decide (65536 ≤ fo) && decide (65536 ≤ co) && decide (fo + fs ≤ slotSize) &&
    decide (co + cs ≤ slotSize) && cs % 8 == 0 && (decide (fo + fs ≤ co) || decide (co + cs ≤ fo))

/-- The first check of R375 that slot `k` fails; 0 where it passes all. -/
def slotCheck (nor : Mem) (minSvn : Nat) (owned : Bool) (ownerHash : BitVec 256) (k : Nat) : Nat :=
  let b := slotBase k
  let hash := fun (a n : Nat) => sha256 (nor.rdBlk (b + a) n)
  let w := fun (a : Nat) => nor.rdLe (b + a) 4
  let pk := nor.rdBlk (b + 48) 64
  let owner := Config.ownerKey (nor.rdBlk b 65536)
  if !slotForm nor b then 1
  else if word256 (sha256 pk) ≠ Config.vendorHash ∨ !slh256s.verify pk (nor.rdBlk b 1024) (nor.rdBlk (b + 4096) 29792) then 2
  else if w 4 < minSvn then 3
  else if hash (w 8) (w 12) ≠ nor.rdBlk (b + 16) 32 ∨ hash 0 1024 ≠ nor.rdBlk (b + 1024) 32 ∨
      hash (w 1056) (w 1060) ≠ nor.rdBlk (b + 1064) 32 then 4
  else if owned && (decide (word256 (sha256 owner) ≠ ownerHash) ||
      !slh256s.verify owner (nor.rdBlk (b + 1024) 3072) (nor.rdBlk (b + 33888) 29792)) then 5
  else if (slotConfig nor k).isNone then 6
  else 0

/-! ### Configuration records (R376, R377, R417) -/

/-- A field of a record's body, `w` bits from bit `lo` of byte `at_`: set where the body holds it and the register accepts it; else the
default stands, and a value refused is recorded (R376). -/
def State.cfgField (s : State) (r : CfgRec) (at_ lo w : Nat) (f : Fld) : State :=
  if 8 * r.body.length < 8 * at_ + lo + w then s
  else
    let v := leNat ((r.body.drop at_).take 8) / 2 ^ lo % 2 ^ w
    if f.accepts v then s.setFld f v else s.jasper .configRecord 0 r.type (r.off + 8 + at_)

/-- The settings of records that are absent (R377, R417). -/
def State.cfgDefaults (s : State) : State :=
  let all := fun (n : Nat) (f : Nat → Fld) (v : Nat) (s : State) => s.each (List.range n) fun s i => s.setFld (f i) v
  let s := (s.setFld Fld.OBJ_CTRL_ACCOUNTING 0).setFld Fld.OBJ_POISON_WAIT_WAIT_US 250
  let s := all 16 Fld.OBJ_QUOTA_STACK_LIMIT 0xFFFFFFFF s
  let s := all 16 Fld.OBJ_QUOTA_HOST_LIMIT 0xFFFFFFFF s
  let s := all 16 Fld.OBJ_QUOTA_FLASH_LIMIT 0xFFFFFFFF s
  let s := all 12 Fld.STK_LIMIT_LIMIT_PCT 100 s
  let s := s.each (List.range 12) fun s st => all 16 (Fld.STK_REG_PART_MAX_PCT st) 100 s
  let s := ((s.setFld Fld.ONYX_RD_LIMIT_LIMIT 100000).setFld Fld.ONYX_WEAR_PE_LIMIT 3000).setFld Fld.ONYX_WEAR_WL_SPREAD 200
  let s := ((s.setFld Fld.ONYX_ECC_POLICY_CORR_REFRESH 40).setFld Fld.ONYX_ECC_POLICY_RETRY_MAX 7).setFld Fld.ONYX_ECC_POLICY_SOFT_EN 1
  let s := (s.setFld Fld.ONYX_RESERVE_PCT 4).setFld Fld.ONYX_PATROL_DAYS 7
  let s := ((s.setFld Fld.PWR_CAP_CAP_W 1500).raise Fld.PWR_CTRL_S1_EN).raise Fld.PWR_CTRL_S2_EN
  let s := s.raise Fld.PWR_CTRL_S3_EN
  s.each (List.range 8) fun s i => all 8 (Fld.PWR_FREQ_CODE i) 8 s

/-- A bit of a 512-bit map in a body. -/
def CfgRec.mapBit (r : CfgRec) (at_ m : Nat) : Bool := (r.body.getD (at_ + m / 8) 0#8).getLsbD (m % 8)

/-- TOPOLOGY. -/
def State.cfgTopology (s : State) (r : CfgRec) : State :=
  let s := (s.cfgField r 0 0 16 Fld.GARNET_GROUP_GROUP_ID).cfgField r 0 16 9 Fld.GARNET_GROUP_MEMBER_INDEX
  let s := s.cfgField r 0 25 1 Fld.GARNET_CTRL_PLANE_WIDE
  let s := (s.cfgField r 4 0 5 Fld.TOPO_SHAPE_RING_SIZE).cfgField r 4 5 6 Fld.TOPO_SHAPE_RINGS
  let s := (s.cfgField r 4 11 1 Fld.TOPO_SHAPE_TWIN).cfgField r 4 12 1 Fld.TOPO_SHAPE_EXP_VALID
  let s := s.cfgField r 4 13 9 Fld.TOPO_SHAPE_EXP_PEER
  s.each (List.range 512) fun s m =>
    let inShape := decide (m % 16 < s.fld Fld.TOPO_SHAPE_RING_SIZE) && decide (m / 16 < s.fld Fld.TOPO_SHAPE_RINGS)
    s.setFld (Fld.TOPO_MEMBER_STATE_STATE (m / 16) (m % 16)) (if inShape && !r.mapBit 8 m then 0 else 3)

/-- TICK. -/
def State.cfgTick (s : State) (r : CfgRec) : State :=
  (s.cfgField r 0 0 16 Fld.GARNET_PERIOD_PERIOD_US).each (List.range 16) fun s i => s.cfgField r (8 + 4 * i) 0 32 (Fld.GARNET_MEMBERS_MEMBER i)

/-- PORTS. -/
def State.cfgPorts (s : State) (r : CfgRec) : State :=
  let s := s.each (List.range 16) fun s p => s.cfgField r 0 p 1 (Fld.LNK_CTRL_ENABLE p)
  (s.cfgField r 2 0 1 Fld.TOPO_CTRL_RESET_REQ_EN).cfgField r 2 1 1 Fld.TOPO_CTRL_SIDEBAND_RESET_EN

/-- PARTITIONS. -/
def State.cfgPartitions (s : State) (r : CfgRec) : State :=
  let s := (s.cfgField r 0 0 8 Fld.OBJ_CTRL_ACCOUNTING).cfgField r 4 0 16 Fld.OBJ_POISON_WAIT_WAIT_US
  s.each (List.range 16) fun s p =>
    ((s.cfgField r (8 + 12 * p) 0 32 (Fld.OBJ_QUOTA_STACK_LIMIT p)).cfgField r (12 + 12 * p) 0 32 (Fld.OBJ_QUOTA_HOST_LIMIT p)).cfgField r
      (16 + 12 * p) 0 32 (Fld.OBJ_QUOTA_FLASH_LIMIT p)

/-- REGULATORS: a MIN_PCT above MAX_PCT is unused (R210). -/
def State.cfgRegulators (s : State) (r : CfgRec) : State :=
  let s := s.each (List.range 12) fun s st => s.cfgField r st 0 8 (Fld.STK_LIMIT_LIMIT_PCT st)
  let s := s.each (List.range 12) fun s st => s.each (List.range 16) fun s p =>
    let a := 16 + 32 * st + 2 * p
    if r.body.length < a + 2 then s
    else if r.body.getD (a + 1) 0#8 < r.body.getD a 0#8 then s.jasper .configRecord 0 r.type (r.off + 8 + a)
    else (s.cfgField r a 0 8 (Fld.STK_REG_PART_MIN_PCT st p)).cfgField r (a + 1) 0 8 (Fld.STK_REG_PART_MAX_PCT st p)
  s.each (List.range 12) State.checkShares

/-- LANE_MAP. -/
def State.cfgLaneMap (s : State) (r : CfgRec) : State :=
  s.each (List.range (min 3072 (r.body.length / 2))) fun s i =>
    let e := leNat ((r.body.drop (2 * i)).take 2)
    if e % 2 ^ 11 < 1536 ∧ e / 2 ^ 11 < 19 then s.modBoot fun b => { b with laneMap := addOnce b.laneMap (e % 2 ^ 11, e / 2 ^ 11) }
    else s.jasper .configRecord 0 r.type (r.off + 8 + 2 * i)

/-- FLASH: the five setting registers of R283 in their order, then the read-offset sets (log entry 23). -/
def State.cfgFlash (s : State) (r : CfgRec) : State :=
  let s := (s.cfgField r 0 0 24 Fld.ONYX_RD_LIMIT_LIMIT).cfgField r 4 0 16 Fld.ONYX_WEAR_PE_LIMIT
  let s := (s.cfgField r 6 0 16 Fld.ONYX_WEAR_WL_SPREAD).cfgField r 8 0 8 Fld.ONYX_ECC_POLICY_CORR_REFRESH
  let s := (s.cfgField r 9 0 4 Fld.ONYX_ECC_POLICY_RETRY_MAX).cfgField r 9 4 1 Fld.ONYX_ECC_POLICY_SOFT_EN
  let s := (s.cfgField r 12 0 5 Fld.ONYX_RESERVE_PCT).cfgField r 16 0 8 Fld.ONYX_PATROL_DAYS
  s.modBoot fun b => { b with readSets := r.body.drop 20 }

/-- POWER (R417). -/
def State.cfgPower (s : State) (r : CfgRec) : State :=
  let s := (s.cfgField r 0 0 16 Fld.PWR_CAP_CAP_W).cfgField r 2 0 1 Fld.PWR_CTRL_S1_EN
  let s := (s.cfgField r 2 1 1 Fld.PWR_CTRL_S2_EN).cfgField r 2 2 1 Fld.PWR_CTRL_S3_EN
  let s := (s.cfgField r 2 3 1 Fld.PWR_CTRL_S4_EN).cfgField r 2 4 1 Fld.PWR_CTRL_THERM_N_WARN
  s.each (List.range 64) fun s k => s.cfgField r (4 + k / 2) (4 * (k % 2)) 4 (Fld.PWR_FREQ_CODE (k / 8) (k % 8))

/-- One record applied; a type that has no meaning is recorded (R376). -/
def State.cfgRecord (s : State) (r : CfgRec) : State :=
  match r.type with
  | 1 => s.cfgTopology r
  | 2 => s.cfgTick r
  | 3 => s.cfgPorts r
  | 4 => s.cfgPartitions r
  | 5 => s.cfgRegulators r
  | 6 => s.cfgLaneMap r
  | 7 => s.modBoot fun b => { b with trainVals := r.body }
  | 8 => s.cfgFlash r
  | 9 => s.cfgPower r
  | 10 => match r.body with
    | [] => s
    | x :: _ => s.modBoot fun b => { b with i3cAddr := some (x.extractLsb' 0 7) }
  | t => s.jasper .configRecord 0 t r.off

/-- The configuration is applied: a second record of a type is ignored and recorded (R376). -/
def State.configure (s : State) (rs : List CfgRec) : State :=
  let r := rs.foldl (fun (a : State × List Nat) r =>
    if r.type ∈ a.2 then (a.1.jasper .configRecord 0 r.type r.off, a.2) else (a.1.cfgRecord r, r.type :: a.2)) (s.cfgDefaults, [])
  let s := r.1
  let own := Fld.GARNET_MEMBERS_MEMBER (s.me / 32)
  let s := s.setFld ⟨own.addr, s.me % 32, 1⟩ 1
  s.applyCodes.refreshOpen

/-! ### Measurements (R385) -/

/-- The 32 bytes of a measurement register. -/
def State.mr (s : State) (i : Nat) : List Byte := (List.range 8).flatMap fun w => leBytes 4 (s.fld (Fld.SEC_MR_WORD (8 * i + w)))

/-- A measurement register extended with a digest. -/
def State.extendMr (s : State) (i : Nat) (d : List Byte) : State :=
  let v := sha256 (s.mr i ++ d)
  s.each (List.range 8) fun s w => s.setFld (Fld.SEC_MR_WORD (8 * i + w)) (leNat ((v.drop (4 * w)).take 4))

/-- The boot ROM's measurements of slot `k` (R385). -/
def State.measure (s : State) (k : Nat) : State :=
  let nor := s.boot.nor
  let b := slotBase k
  let sec := Config.securityState 1 (s.fld Fld.BOOT_STATE_OWNED) (s.fld Fld.BOOT_STATE_TEST_UNLOCKED) k (s.fld Fld.BOOT_STATE_FALLBACK)
    (s.fld Fld.BOOT_IMAGE_SVN_SVN) (s.fld Fld.BOOT_MIN_SVN_SVN)
  let s := ((s.extendMr 0 (sha256 sec)).extendMr 1 (nor.rdBlk (b + 1024) 32)).extendMr 2 (sha256 (nor.rdBlk (b + 1024) 3072))
  let s := (s.extendMr 3 (nor.rdBlk (b + 1064) 32)).extendMr 4 (sha256 (nor.rdBlk (b + 48) 64))
  (s.extendMr 4 (bytes256 s.boot.ownerHash)).extendMr 4 (sha256 s.boot.cert)

/-! ### Start-up -/

/-- The START entry of a start-up (R419 to R438's code table). -/
def State.startEntry (s : State) : State :=
  s.jasper .start 0 (s.rd Rg.BOOT_RESET_CAUSE).toNat (((s.flash.vaultStored []).getLast?.map (bvGet 0 32)).getD 0xFFFFFFFF)

/-- RNG keys are loaded into every core from the entropy source (R362, R382). -/
def State.loadRngKeys (s : State) : State :=
  let (tag, s) := s.fresh
  s.each (List.range 512) fun s c =>
    (s.wr (Rg.VEC_RNG_KEY_LO c) (Config.entropy tag (2 * c))).wr (Rg.VEC_RNG_KEY_HI c) (Config.entropy tag (2 * c + 1))

/-- Slot `k` runs (R362, R363): the part record is checked and the image is measured, still by the boot ROM. -/
def State.bootSlot (s : State) (k : Nat) : State :=
  let nor := s.boot.nor
  let b := slotBase k
  let s := (s.setFld Fld.BOOT_STATE_SLOT k).setFld Fld.BOOT_IMAGE_SVN_SVN (nor.rdLe (b + 4) 4)
  let s := s.setFld Fld.BOOT_STATE_TEST_UNLOCKED (nor.rdLe (b + 1096) 1 % 2)
  let cert := s.boot.cert
  if leNat (cert.take 2) ≠ 1 ∨ (cert.drop 16).take 48 ≠ s.boot.idKey then s.noIdentity.endStart 7 4
  else
    (s.measure k).setFld Fld.BOOT_STATE_STATE 1

/-- At 44 ms firmware starts, configuration records are applied and every core has its RNG key (R362, R393). -/
def State.firmwareStart (s : State) : State :=
  ((s.configure ((slotConfig s.boot.nor (s.fld Fld.BOOT_STATE_SLOT)).getD [])).loadRngKeys).setFld Fld.BOOT_STATE_STATE 2

/-- At 50 ms stack training starts (R362, R393). -/
def State.trainStart (s : State) : State :=
  let s := s.each (List.range 12) fun s st => s.stackState st memTraining
  let s := s.each (List.range 1536) fun s ch => s.setFld (Fld.CH_STATUS_STATE ch) memTraining
  s.setFld Fld.BOOT_STATE_STATE 3

/-- Start-up from ROM to TRAINING, where later events of its table find it before time has brought it there (log entry 25). -/
def State.bootOn (s : State) : State :=
  let s := if s.fld Fld.BOOT_STATE_STATE = 1 then s.firmwareStart else s
  if s.fld Fld.BOOT_STATE_STATE = 2 then (s.clockTo (s.boot.zeroAt + 50000)).trainStart else s

/-- Start-up moves on as time passes (R362, log entry 25): from the boot ROM to firmware, and from there to training at 50 ms. -/
def State.bootStep (s : State) : State :=
  if s.fld Fld.BOOT_STATE_STATE = 1 then s.firmwareStart
  else if s.fld Fld.BOOT_STATE_STATE = 2 ∧ s.boot.zeroAt + 50000 ≤ s.now then s.trainStart
  else s

/-- The slots are tried in order (R370, R375). -/
def State.trySlots (s : State) : State :=
  let first := firstSlot s.boot.nor
  let check := slotCheck s.boot.nor (s.fld Fld.BOOT_MIN_SVN_SVN) (s.fld Fld.BOOT_STATE_OWNED == 1) s.boot.ownerHash
  let reject := fun (s : State) (k : Nat) => s.jasper .slotRejected 0 k (check k)
  if check first = 0 then s.bootSlot first
  else
    let s := (reject s first).raise Fld.BOOT_STATE_FALLBACK
    if check (1 - first) = 0 then s.bootSlot (1 - first) else (reject s (1 - first)).endStart 7 1

/-- The boot ROM's part of start-up, from time 0 to 44 ms (R362, R363, R367, R378 to R384); flash channels initialise in hardware meanwhile. -/
def State.startUp (s : State) (pufRead : BitVec 32) : State :=
  let s := (s.clockTo (s.boot.zeroAt + 44000)).setFld Fld.BOOT_ID_VENDOR_ID Config.vendorId.toNat
  let s := s.each (List.range 16) fun s n => s.setFld (Fld.FCH_STATUS_STATE n) 1
  let helper := s.boot.nor.rdBlk 0x20000 4096
  let secret := Config.pufSecret pufRead helper
  let s := s.startEntry
  if word256 (sha256 (bytes256 secret)) ≠ Config.helperDigest helper then s.endStart 7 2
  else
    let s := s.identify secret
    match s.openRecord secret with
    | none => s.endStart 7 3
    | some s => s.trySlots

/-- A reset that a supply alone holds ends once the rail has been back for 1 ms (R397, log entry 54). -/
def State.railBack (s : State) : State :=
  if s.boot.heldBy = [heldSupply] then (s.clockTo (s.now + 1000)).release heldSupply else s

/-- STARTUP: nothing while a reset holds the device, or once start-up has begun. -/
def execStartup (pufRead : BitVec 32) (s : State) : Host.Outcome State Fault Refusal :=
  let s := s.railBack
  .next (if s.boot.heldBy ≠ [] ∨ s.fld Fld.BOOT_STATE_STATE ≠ 0 then s else s.startUp pufRead)

/-- Start-up has reached stack training and has not ended: TRAINING, MOUNTING or LINKS (R393). -/
def State.inStart (s : State) : Bool := decide (3 ≤ s.fld Fld.BOOT_STATE_STATE) && decide (s.fld Fld.BOOT_STATE_STATE ≤ 5)

/-- STACKS_IDENTIFIED (R364, R381): capacity and subsystem hold their values; a certificate for other stacks ends start-up. -/
def execStacksIdentified (small : Bool) (s : State) : Host.Outcome State Fault Refusal :=
  let s := s.bootOn
  .next (if !s.inStart || s.boot.identified then s
    else
      let s := (s.clockTo (s.boot.zeroAt + 100000)).modBoot fun b => { b with identified := true }
      let sub := if small then 0x0432 else 0x0576
      let s := (s.setFld Fld.BOOT_CAPACITY_STACK_GIB (if small then 36 else 48)).setFld Fld.BOOT_REV_SUBSYSTEM sub
      let s := s.each (List.range 4) State.recountFrames
      if leNat ((s.boot.cert.drop 68).take 2) = sub then s else s.noIdentity.endStart 7 4)

/-- SELF_TEST (R365): once, from 100 ms on; a failing cluster ends start-up. Its RUN leaves every bank in compensated mode, until the next
accumulation starts (R100). -/
def execSelfTest (failing : Option ClusterId) (s : State) : Host.Outcome State Fault Refusal :=
  .next (if !s.inStart || !s.boot.identified || s.fld Fld.BOOT_SELF_TEST_DONE == 1 then s
    else
      let s := (s.clockTo (s.boot.zeroAt + 600000)).raise Fld.BOOT_SELF_TEST_DONE
      let s := s.each (List.range 2048) fun s g => s.raise (Fld.ENG_STATUS_COMP_BANK g)
      match failing with
      | none => s.raise Fld.BOOT_SELF_TEST_PASS
      | some k => (s.setFld Fld.BOOT_SELF_TEST_CLUSTER k.val).endStart 8 5)

/-- OPTICAL_ENGINES_SETTLED (R362, R363): the enabled TWIN and EXPANSION ports begin to train. -/
def execOpticalEnginesSettled (s : State) : Host.Outcome State Fault Refusal :=
  .next (if !s.inStart || !s.boot.identified || s.boot.optics then s
    else
      let s := (s.clockTo (s.boot.zeroAt + 3900000)).modBoot fun b => { b with optics := true }
      s.each ((List.range 16).filter fun p => decide (12 ≤ p) && s.fld (Fld.LNK_CTRL_ENABLE p) == 1) State.trainPort)

/-- Enabled ports that are not behind a closed Agate switch and are not UP (R366). -/
def State.portsAwaited (s : State) : List Nat :=
  let behind := (List.range 6).flatMap fun k => if s.fld (Fld.TOPO_AGATE_STATUS_SW k) = 0 then [] else agatePorts k
  (List.range 16).filter fun p => s.fld (Fld.LNK_CTRL_ENABLE p) == 1 && !behind.contains p && s.pState p != pUp

/-- The wait for ports is over: 8 s have passed since time 0 (R366). -/
def State.waitOver (s : State) : Bool := decide (s.boot.zeroAt + 8000000 ≤ s.now)

/-- Each port still down at 8 s is recorded, once (R366). -/
def State.tellPorts (s : State) : State :=
  if s.boot.portsTold || !s.waitOver then s
  else (s.modBoot fun b => { b with portsTold := true }).each s.portsAwaited fun s p => s.jasper .portNotUp p 0 0

/-- PORT_WAIT_EXPIRY (R366): 8 s after time 0 each port still down is recorded, and no longer holds READY back. -/
def execPortWaitExpiry (s : State) : Host.Outcome State Fault Refusal :=
  .next (if !s.inStart || s.boot.portsTold then s else (s.clockTo (s.boot.zeroAt + 8000000)).tellPorts)

/-- The conditions of R366. -/
def State.readyNow (s : State) : Bool :=
  s.fld Fld.BOOT_STATE_STATE == 5 && s.fld Fld.BOOT_SELF_TEST_PASS == 1 && s.boot.identified &&
    ((List.range 12).all fun st => s.fld (Fld.STK_STATUS_STATE st) == memReady) &&
    [2, 3, 4].contains (s.fld Fld.ONYX_STATUS_STATE) && (s.portsAwaited == [] || s.waitOver)

/-- READY (R366, R390): firmware sets the lock, and the recorder's base is settled where Onyx is UNFORMATTED (R422). -/
def execReady (s : State) : Host.Outcome State Fault Refusal :=
  .next (if !s.readyNow then s
    else
      let s := (s.tellPorts.raise Fld.BOOT_STATE_LOCKED).setFld Fld.BOOT_STATE_STATE 6
      let s := { s with link := { s.link with left := false } }
      let s := s.setFld Fld.BOOT_READY_MS_READY ((s.now - s.boot.zeroAt) / 1000)
      if s.onyxUp then s else s.rebaseLost)

/-- ENTROPY_FAIL (R382): health tests that fail for 1 s end start-up, or stop the source. -/
def execEntropyFail (adaptive : Bool) (s : State) : Host.Outcome State Fault Refusal :=
  .next (if s.boot.heldBy ≠ [] then s
    else if s.starting then s.endStart 8 8
    else if s.fld Fld.BOOT_STATE_STATE ≠ 6 ∨ s.boot.entropyStopped then s
    else (s.modBoot fun b => { b with entropyStopped := true }).jasper .entropyFail 0 (bit1 adaptive) 0)

/-- ENTROPY_SOURCE_RECOVERS (R382): a SALT draw that waits proceeds. -/
def execEntropySourceRecovers (s : State) : Host.Outcome State Fault Refusal :=
  .next (if s.boot.entropyStopped then (s.modBoot fun b => { b with entropyStopped := false }).beginObject else s)

/-! ### Test enable -/

/-- A write of BOOT.TEST (R389). -/
def State.writeTest (s : State) (v : Bool) : State :=
  if s.fld Fld.BOOT_STATE_TEST_UNLOCKED = 1 then s.setFld Fld.BOOT_TEST_ENABLE (bit1 v) else s.jasper .testDenied 0 Rg.BOOT_TEST 0

/-- TEST_ENABLE (R389). -/
def execTestEnable (v : Bool) (s : State) : Host.Outcome State Fault Refusal := .next (s.bar0 Rg.BOOT_TEST fun s => s.writeTest v)

/-! ### The command engine of the mailbox and DOE (R386 to R388) -/

/-- RESULT values (R394). -/
inductive MailResult
  | success | invalidOp | invalidLength | notPermitted | signature | noIdentity | norError | counter
  deriving DecidableEq, Repr

/-- The RESULT code. -/
def MailResult.code : MailResult → Nat
  | .success => 0
  | .invalidOp => 1
  | .invalidLength => 2
  | .notPermitted => 3
  | .signature => 4
  | .noIdentity => 5
  | .norError => 6
  | .counter => 7

/-- What a command of the engine leaves: the state, its RESULT and its response. -/
abbrev Mail := State × MailResult × List Byte

/-- A command that changes nothing and returns no response. -/
def State.mailNo (s : State) (r : MailResult) : Mail := (s, r, [])

/-- Bytes 0 to 3 of a report (R387). -/
def State.reportFlags (s : State) : List Byte :=
  leBytes 4 (1 + 2 ^ 16 * s.fld Fld.BOOT_STATE_LOCKED + 2 ^ 17 * s.fld Fld.BOOT_STATE_OWNED + 2 ^ 18 * s.fld Fld.BOOT_STATE_TEST_UNLOCKED +
    2 ^ 19 * bit1 (decide (7 ≤ s.fld Fld.BOOT_STATE_STATE)))

/-- The serial number's 8 bytes. -/
def State.serialBytes (s : State) : List Byte := leBytes 4 (s.fld Fld.BOOT_SERIAL_LO_SERIAL) ++ leBytes 4 (s.fld Fld.BOOT_SERIAL_HI_SERIAL)

/-- Bytes 0 to 431 of a report over a nonce (R387). -/
def State.report (s : State) (nonce : List Byte) : List Byte :=
  s.reportFlags ++ leBytes 4 (s.fld Fld.BOOT_STATE_STATE) ++ s.serialBytes ++ leBytes 4 s.tickNo.toNat ++
    leBytes 4 (s.fld Fld.BOOT_IMAGE_SVN_SVN) ++ leBytes 4 (s.fld Fld.BOOT_MIN_SVN_SVN) ++ leBytes 4 0 ++ nonce ++
    (List.range 8).flatMap s.mr ++ s.boot.idKey ++ bytes256 s.boot.ownerHash ++ List.replicate 32 0#8

/-- GET_IDENTITY. -/
def State.mailIdentity (s : State) : Mail :=
  if s.boot.idKey = [] then s.mailNo .noIdentity else (s, .success, s.serialBytes ++ s.boot.idKey ++ s.reportFlags)

/-- GET_CERT. -/
def State.mailCert (s : State) : Mail :=
  if s.boot.idKey = [] then s.mailNo .noIdentity else (s, .success, s.boot.cert)

/-- ATTEST: the report and its signature under the identity key, with fresh message randomness (R382, R387). -/
def State.mailAttest (s : State) (req : List Byte) : Mail :=
  if s.boot.idKey = [] then s.mailNo .noIdentity
  else if req.length ≠ 32 then s.mailNo .invalidLength
  else
    let (tag, s) := s.fresh
    let rnd := (List.range 6).flatMap fun w => leBytes 4 (Config.entropy tag w).toNat
    let body := s.report req
    (s, .success, body ++ idSign (s.boot.secret.getD 0#256) rnd body)

/-- EXTEND (R385): registers 5 to 7 alone. -/
def State.mailExtend (s : State) (req : List Byte) : Mail :=
  let i := (req.getD 0 0#8).toNat
  if s.fld Fld.BOOT_STATE_STATE ≠ 6 then s.mailNo .notPermitted
  else if req.length ≠ 36 then s.mailNo .invalidLength
  else if i < 5 ∨ 7 < i then s.mailNo .notPermitted
  else (s.extendMr i (req.drop 4), .success, [])

/-- SET_OWNER (R374, R384, R386): in the OWNED state the current owner signs the change. -/
def State.mailOwner (s : State) (req : List Byte) : Mail :=
  let st := s.fld Fld.BOOT_STATE_STATE
  let owned := s.fld Fld.BOOT_STATE_OWNED == 1
  let new := req.take 32
  let key := (req.drop 32).take 64
  if st ≠ 6 ∧ st ≠ 7 then s.mailNo .notPermitted
  else if req.length ≠ (if owned then 29888 else 32) then s.mailNo .invalidLength
  else if owned && (decide (word256 (sha256 key) ≠ s.boot.ownerHash) ||
      !slh256s.verify key (s.serialBytes ++ new ++ leBytes 4 (s.boot.rpmc.2 + 1)) (req.drop 96)) then s.mailNo .signature
  else match s.updateRecord (recordSvn s.boot.nor s.boot.record) (new.any (· != 0#8)) new with
    | none => s.mailNo .counter
    | some t => (t, .success, [])

/-- COMMIT_SVN (R384, R386): from the record's MIN_SVN to the running image's SVN. -/
def State.mailSvn (s : State) (req : List Byte) : Mail :=
  let v := leNat req
  let nor := s.boot.nor
  let i := s.boot.record
  if s.fld Fld.BOOT_STATE_STATE ≠ 6 then s.mailNo .notPermitted
  else if req.length ≠ 4 then s.mailNo .invalidLength
  else if v < recordSvn nor i ∨ s.fld Fld.BOOT_IMAGE_SVN_SVN < v then s.mailNo .notPermitted
  else match s.updateRecord v (recordOwned nor i) (recordHash nor i) with
    | none => s.mailNo .counter
    | some t => (t, .success, [])

/-- READY, RECOVERY or FAILED. -/
def State.norOpen (s : State) : Bool := decide (6 ≤ s.fld Fld.BOOT_STATE_STATE)

/-- A range of the NOR lies within another. -/
def inRange (a n base size : Nat) : Bool := decide (base ≤ a) && decide (a + n ≤ base + size)

/-- NOR_WRITE may reach a range (R386): the directory block, a slot that did not boot, and in RECOVERY the part record. -/
def State.norMayWrite (s : State) (a n : Nat) : Bool :=
  let idle := fun (k : Nat) => s.fld Fld.BOOT_STATE_STATE == 7 || s.fld Fld.BOOT_STATE_SLOT != k
  inRange a n 0 0x10000 || (idle 0 && inRange a n (slotBase 0) slotSize) || (idle 1 && inRange a n (slotBase 1) slotSize) ||
    (s.fld Fld.BOOT_STATE_STATE == 7 && inRange a n 0x20000 0x20000)

/-- NOR_WRITE: the 4 KiB that follow the `done` bytes already written (log entry 28). -/
def State.mailNorWrite (s : State) (req : List Byte) (done : Nat) : Mail :=
  let a := leNat (req.take 4)
  let n := leNat ((req.drop 4).take 4)
  if !s.norOpen then s.mailNo .notPermitted
  else if n = 0 ∨ 32768 < n ∨ req.length ≠ 8 + n then s.mailNo .invalidLength
  else if !s.norMayWrite a n then s.mailNo .notPermitted
  else (s.modBoot fun b => { b with nor := b.nor.wrBlk (a + done) ((req.drop (8 + done)).take 4096) }, .success, [])

/-- NOR_READ. -/
def State.mailNorRead (s : State) (req : List Byte) : Mail :=
  let a := leNat (req.take 4)
  let n := leNat ((req.drop 4).take 4)
  if !s.norOpen then s.mailNo .notPermitted
  else if n = 0 ∨ 32768 < n ∨ req.length ≠ 8 then s.mailNo .invalidLength
  else if 0x4000000 < a + n then s.mailNo .norError
  else (s, .success, s.boot.nor.rdBlk a n)

/-- Bytes as 32-bit words, the last padded with 0. -/
def wordsOf (bs : List Byte) : List (BitVec 32) :=
  (List.range (ceilDiv bs.length 4)).map fun i => BitVec.ofNat 32 (leNat ((bs.drop (4 * i)).take 4))

/-- The command of a request (R386, R388): over DOE only GET_IDENTITY, GET_CERT and ATTEST are permitted. -/
def State.mail (s : State) (j : MailJob) : Mail :=
  if j.doe ∧ (j.op = 0 ∨ 3 < j.op) then s.mailNo .notPermitted
  else if 49152 < j.req.length then s.mailNo .invalidLength
  else match j.op with
    | 1 => s.mailIdentity
    | 2 => s.mailCert
    | 3 => s.mailAttest j.req
    | 4 => s.mailExtend j.req
    | 5 => if j.done = 0 then s.mailOwner j.req else (s.bumpCounter, .success, [])
    | 6 => if j.done = 0 then s.mailSvn j.req else (s.bumpCounter, .success, [])
    | 7 => s.mailNorWrite j.req j.done
    | 8 => s.mailNorRead j.req
    | _ => s.mailNo .invalidOp

/-- What a command that has gone well so far has still to do (R384, R386, R392): the counter's increment behind a record, the rest of NOR_WRITE. -/
def MailJob.rest (j : MailJob) : Option MailJob :=
  match j.op with
  | 5 | 6 => if j.done = 0 then some { j with done := 1 } else none
  | 7 => if j.done + 4096 < leNat ((j.req.drop 4).take 4) then some { j with done := j.done + 4096 } else none
  | _ => none

/-- A command finishes (R386, R388, R394): the mailbox is DONE with its response in SEC.BUFFER, or the response goes out over DOE. -/
def State.mailEnd (s : State) (j : MailJob) (res : MailResult) (rsp : List Byte) : State :=
  let s := s.modBoot fun b => { b with mails := b.mails.drop 1 }
  if j.doe then s.out (.doe (BitVec.ofNat 32 res.code :: wordsOf rsp))
  else
    let s := ((s.setFld Fld.SEC_STATUS_STATE 2).setFld Fld.SEC_STATUS_RESULT res.code).setFld Fld.SEC_RSP_LEN_BYTES rsp.length
    s.modBoot fun b => { b with buffer := b.buffer.wrBlk 0 rsp }

/-- The command engine moves on with the request at its front, one part in a microsecond without a command (R386, R388, log entry 28). -/
def State.mailStep (s : State) : State :=
  match s.boot.mails with
  | [] => s
  | j :: rest =>
    let r := s.mail j
    match r.2.1, j.rest with
    | .success, some k => r.1.modBoot fun b => { b with mails := k :: rest }
    | res, _ => r.1.mailEnd j res r.2.2

/-- A request waits for the command engine, behind those that arrived before it (R388). -/
def State.mailTake (s : State) (j : MailJob) : State := (s.modBoot fun b => { b with mails := b.mails ++ [j] }).notIdle

/-- A write of SEC.CMD (R386, R394): the mailbox is BUSY with the request in SEC.BUFFER; no effect while it is BUSY already. -/
def State.writeSecCmd (s : State) (op : Nat) : State :=
  if s.fld Fld.SEC_STATUS_STATE = 1 then s
  else (s.setFld Fld.SEC_STATUS_STATE 1).mailTake { doe := false, op, req := s.boot.buffer.rdBlk 0 (s.fld Fld.SEC_REQ_LEN_BYTES) }

/-- A write of SEC.CMD where BAR0 serves it. -/
def State.mailbox (s : State) (op : Nat) : State := s.bar0 Rg.SEC_CMD fun s => s.writeSecCmd op

/-- GET_IDENTITY (R386). -/
def execGetIdentity (s : State) : Host.Outcome State Fault Refusal := .next (s.mailbox 1)
/-- GET_CERT (R386). -/
def execGetCert (s : State) : Host.Outcome State Fault Refusal := .next (s.mailbox 2)
/-- ATTEST (R386, R387). -/
def execAttest (s : State) : Host.Outcome State Fault Refusal := .next (s.mailbox 3)
/-- EXTEND (R385, R386). -/
def execExtend (s : State) : Host.Outcome State Fault Refusal := .next (s.mailbox 4)
/-- SET_OWNER (R386). -/
def execSetOwner (s : State) : Host.Outcome State Fault Refusal := .next (s.mailbox 5)
/-- COMMIT_SVN (R386). -/
def execCommitSvn (s : State) : Host.Outcome State Fault Refusal := .next (s.mailbox 6)
/-- NOR_WRITE (R386). -/
def execNorWrite (s : State) : Host.Outcome State Fault Refusal := .next (s.mailbox 7)
/-- NOR_READ (R386). -/
def execNorRead (s : State) : Host.Outcome State Fault Refusal := .next (s.mailbox 8)
/-- INVALID_OP: a write of SEC.CMD (R386). -/
def execInvalidOp (op : BitVec 8) (s : State) : Host.Outcome State Fault Refusal := .next (s.mailbox op.toNat)

/-- DOE_REQUEST (R364, R388): the PF's configuration space takes the request from 100 ms on, or once start-up has ended. -/
def execDoeRequest (words : List (BitVec 32)) (s : State) : Host.Outcome State Fault Refusal :=
  .next (match words with
    | [] => s
    | op :: req => if s.configUp then s.mailTake { doe := true, op := op.toNat, req := req.flatMap fun w => leBytes 4 w.toNat } else s)

/-- One microsecond in which no command arrives (log entry 8): time passes, start-up moves on and so does the command engine. -/
def State.idleStep (s : State) : State := s.idleTick.bootStep.mailStep

end Sys2Proof.Machine
end

