-- ==== Sys2Proof/Machine/Regs.lean ====
section
/-! DEFINITION. BAR0 accesses (R11 to R17, R21, R24, R364, R367, R409, R434, R445, R446): reads with their latches, and writes, each field by
its access type, a register with behaviour through the operation of its own command. -/

namespace Sys2Proof.Machine

/-! ### Reads -/

/-- Core of an address of its SEQ/GRID block. -/
def coreAt (a : Nat) : Nat := 8 * clusterAt a + ((a - 0x02000000) % 0x02000000 % 0x00100000 - 0x00020000) / 0x00010000

/-- Engine of an address of its block. -/
def engAt (a : Nat) : Nat := 4 * coreAt a + (a % 0x00010000 - 0x4000) / 0x1000

/-- The register word at `a` with the fields that show the machine's present state: queues that hold instructions (R58), an engine whose
command is held (R111), and the guard slot selected (R162). -/
def State.shown (s : State) (a : Nat) : BitVec 32 :=
  let w := s.rd a
  match decodeBlk a with
  | some (.seqGrid, b) =>
    if a = b + 8 then
      let x := s.core (coreAt a)
      let held := fun (i : Nat) => NMap.get [] x.q i != [] || x.seg.any fun g => NMap.get [] g.q i != []
      bvSet 2 8 w (((List.range 8).map fun i => 2 ^ i * bit1 (held i)).sum)
    else w
  | some (.eng, b) => if a = b + 4 then bvPut 0 w (let x := s.eng (engAt a); x.hold.isSome || x.run.isSome) else w
  | some (.guard, b) =>
    let o := a - b
    let x := NMap.get {} (s.cluster (clusterAt a)).last (bvGet 0 9 (s.rd (b + 0x1c)))
    if o = 0x20 then BitVec.ofNat 32 (bit1 x.closed + 2 * bit1 x.rerun + 4 * bit1 x.skipped + 8 * bit1 x.suspect)
    else if o = 0x24 then x.rows
    else if 0x30 ≤ o ∧ o < 0x40 then BitVec.ofNat 32 (NMap.get 0 x.sats ((o - 0x30) / 4))
    else if 0x40 ≤ o ∧ o < 0x80 then BitVec.ofNat 32 (NMap.get 0 x.bins ((o - 0x40) / 4))
    else w
  | some (.sec, b) => if 0x4000 ≤ a - b then BitVec.ofNat 32 (s.boot.buffer.rdLe (a - b - 0x4000) 4) else w
  | _ => w

/-- The eight words of an object table entry (R225); a FREE entry is 0. -/
def State.entryBytes (s : State) (o : Nat) : List Byte :=
  match s.obj o with
  | none => List.replicate 32 0#8
  | some x => x.entry

/-- What reading a register latches first: the object entry (R252), the epoch's high half (R283). -/
def State.latchRead (s : State) (b : Blk) (off i : Nat) : State :=
  match b with
  | .obj =>
    if off = 0x20 ∧ i = 0 then
      let bs := s.entryBytes (s.fld Fld.OBJ_SELECT_INDEX)
      s.each (List.range 8) fun s w => s.setFld (Fld.OBJ_ENTRY_WORD w) (leNat ((bs.drop (4 * w)).take 4))
    else s
  | .onyx => if off = 8 then s.setFld Fld.ONYX_EPOCH_HI_EPOCH_HI (s.flash.epoch.toNat / 2 ^ 32) else s
  | .jsp => s.syncSeconds
  | _ => s

/-- Mask of the fields of a register with one of the access types that the bits `on` reach. -/
def RegDef.mask (r : RegDef) (on : BitVec 32) (p : Access → Bool) : BitVec 32 :=
  if r.kind = .grid then (if p .rw then BitVec.allOnes 32 else 0#32)
  else r.fields.foldl (fun m f => if p f.acc && bvGet f.lo f.w on != 0 then bvSet f.lo f.w m (2 ^ f.w - 1) else m) 0#32

/-- A 48-bit counter's high word: bits [47:32] and SAT (R434). -/
def Ctr.high (c : Ctr) : BitVec 32 := BitVec.ofNat 32 (c.val.toNat / 2 ^ 32 + 2 ^ 31 * bit1 c.sat)

/-- A read of the bits `on` of the word at `a` on the host's path or the management path (R12, R13, R434): an RC field that one of the bytes
read reaches is cleared whole (log entry 70). -/
def State.readWord (s : State) (a : Nat) (on : BitVec 32) (mgmt : Bool) : State × BitVec 32 :=
  match regAt a with
  | .none => (s, 0#32)
  | .counterLo =>
    let s := s.syncResidency
    let c := s.ctr a
    let s := if mgmt then { s with latchMgmt := NMap.set 0#32 s.latchMgmt a c.high }
      else { s with latchHost := NMap.set 0#32 s.latchHost a c.high }
    (s, c.val.setWidth 32)
  | .counterHi lo => (s, NMap.get 0#32 (if mgmt then s.latchMgmt else s.latchHost) lo)
  | .word b r i =>
    let s := s.latchRead b r.off i
    let rc := r.mask on (· == .rc)
    let wo := r.mask on (· == .wo)
    let w := s.shown a
    if mgmt then
      ({ s with rcMgmt := NMap.set 0#32 s.rcMgmt a (s.rdMgmt a &&& ~~~rc) }, (w &&& ~~~(rc ||| wo)) ||| (s.rdMgmt a &&& rc))
    else (if rc = 0#32 then s else s.wr a (s.rd a &&& ~~~rc), w &&& ~~~wo)

/-- A path serves the register at `a`: BAR0, or that of management firmware (R364, R367, R443). -/
def State.pathServes (s : State) (mgmt : Bool) (a : Nat) : Bool := if mgmt then s.servesMgmt a else s.serves a

/-- A read of the word at device offset `d`, of the bits `on` (R12, R21, R364, R367, R443): what its path does not serve reads 0, and so does what
lies behind a bridge in reset (R391). -/
def State.readAt (s : State) (d : Nat) (on : BitVec 32) (mgmt : Bool) : State × BitVec 32 :=
  if !s.pathServes mgmt d then (s, 0#32)
  else match s.inReset d with
    | some k => (s.bridgeDiscard k d, 0#32)
    | none => (s.wakeAccess d).readWord d on mgmt

/-! ### Writes -/

/-- Registers of an enabled VF, which the PF does not write: its queues, coalescing registers and partition block (R446). -/
def State.ofVf (s : State) (b : Blk) (a off : Nat) : Bool :=
  match b with
  | .hqq => s.vfQueue ((a - 0x31000) / 0x20)
  | .hq => off == 0x3000 && s.vfQueue ((a - 0x33000) / 4)
  | .partp => decide ((a - 0x41000) / 0x100 < s.hostq.numVfs)
  | _ => false

/-- The PF offset of an offset of VF `v`'s BAR0 (R445). -/
def vfOffset (v o : Nat) : Option Nat :=
  let q := fun (i : Nat) => 16 + 15 * (v - 1) + i
  if o < 0x100 then some (0x41000 + 0x100 * (v - 1) + o)
  else if 0x1000 ≤ o ∧ o < 0x1000 + 0x20 * 15 then some (0x31000 + 0x20 * q ((o - 0x1000) / 0x20) + o % 0x20)
  else if 0x3000 ≤ o ∧ o < 0x3000 + 4 * 15 then some (0x33000 + 4 * q ((o - 0x3000) / 4) + o % 4)
  else none

/-- A field of a generic register after a write: the word so far and whether the value is one to record (R13, R17). `v` is the word
written with its disabled bytes taken from the old word, `on` the enabled bits. -/
def writeField (b : Blk) (r : RegDef) (locked : Bool) (on raw v : BitVec 32) (acc : BitVec 32 × Bool) (f : FieldDef) : BitVec 32 × Bool :=
  let set := fun (acc : BitVec 32 × Bool) =>
    let x := bvGet f.lo f.w v
    match rangeOf b r f.lo with
    | some g => if g.least ≤ x ∧ x ≤ g.most then (bvSet f.lo f.w acc.1 x, acc.2) else (acc.1, acc.2 || g.event)
    | none => (bvSet f.lo f.w acc.1 x, acc.2)
  let hit := bvGet f.lo f.w (raw &&& on)
  if bvGet f.lo f.w on = 0 then acc
  else match f.acc with
    | .rw => set acc
    | .rwl => if locked then acc else set acc
    | .w1c => (bvSet f.lo f.w acc.1 (bvGet f.lo f.w (acc.1 &&& ~~~(raw &&& on))), acc.2)
    | .w1s => (bvSet f.lo f.w acc.1 (bvGet f.lo f.w acc.1 ||| hit), acc.2)
    | _ => acc

/-- The word a generic write gives, and what it records: an unused value, and a write of a locked field (R14). -/
def State.writtenWord (s : State) (b : Blk) (r : RegDef) (a : Nat) (on raw : BitVec 32) : BitVec 32 × Bool × Bool :=
  let old := s.rd a
  let v := (old &&& ~~~on) ||| (raw &&& on)
  let locked := s.fld Fld.BOOT_STATE_LOCKED == 1
  if r.kind = .grid then (v, false, false)
  else
    let x := r.fields.foldl (writeField b r locked on raw v) (old, false)
    (x.1, x.2, locked && r.fields.any fun f => f.acc == .rwl && bvGet f.lo f.w on != 0)

/-- A register without behaviour of its own is written (R12, R13, R14, R17, R24). -/
def State.plainWrite (s : State) (b : Blk) (r : RegDef) (a : Nat) (on raw : BitVec 32) : State :=
  let x := s.writtenWord b r a on raw
  let s := s.when x.2.1 fun s => s.jasper .unusedValue 0 a raw.toNat
  let s := s.when x.2.2 fun s => s.jasper .rwlLocked 0 a raw.toNat
  if r.kind = .deferred ∨ r.kind = .grid then s.wrDefer a x.1 else s.wr a x.1

/-- The injection registers need the test-enable bit (R220, R309). -/
def State.testWrite (s : State) (a : Nat) (f : State → State) : State :=
  if s.fld Fld.BOOT_TEST_ENABLE = 0 then s.jasper .testDenied 0 a 0 else f s

/-- A pair of fields that must stand in order, `lo` below `hi`: the word written must keep it, else both stay as they
were (R252; of R210 that both stay is a DESIGN CHOICE, log entry 81). -/
def State.orderedWrite (s : State) (b : Blk) (r : RegDef) (a : Nat) (on raw : BitVec 32) (loAt hiAt w : Nat) : State :=
  let v := (s.writtenWord b r a on raw).1
  if bvGet hiAt w v < bvGet loAt w v then s.jasper .unusedValue 0 a raw.toNat else s.plainWrite b r a on raw

/-- A write of GARNET.CTRL: PLANE_WIDE, then WITHHOLD, then ENABLE. -/
def State.writeGarnetCtrl (s : State) (r : RegDef) (on raw : BitVec 32) : State :=
  let a := Rg.GARNET_CTRL
  let plane := bvPut 1 0#32 true
  let s := s.plainWrite .garnet r a (on &&& plane) raw
  if bvBit 0 on then
    let s := if bit1 (bvBit 2 raw) = s.fld Fld.GARNET_CTRL_WITHHOLD then s else s.setWithhold (bvBit 2 raw)
    if bit1 (bvBit 0 raw) = s.fld Fld.GARNET_CTRL_ENABLE then s else s.setEnable (bvBit 0 raw)
  else s

/-- The bit of the device's own MEMBER_INDEX in MEMBERS is 1 (R58). -/
def State.keepOwn (s : State) : State :=
  let a := Rg.GARNET_MEMBERS (s.me / 32)
  let s := s.wrDefer a (bvPut (s.me % 32) (s.rd a) true)
  if s.inStep then s else s.refreshTokens

/-- A write of LNK.CTRL: ENABLE starts or ends the port's training, RETRAIN takes it down (R296). -/
def State.writeLnkCtrl (s : State) (p : Nat) (r : RegDef) (on raw : BitVec 32) : State :=
  let was := s.fld (Fld.LNK_CTRL_ENABLE p)
  let s := s.plainWrite .lnk r (Rg.LNK_CTRL p) on raw
  let now := s.fld (Fld.LNK_CTRL_ENABLE p)
  let behind := (List.range 6).any fun k => s.fld (Fld.TOPO_AGATE_STATUS_SW k) != 0 && (agatePorts k).contains p
  let s := if was = 0 ∧ now = 1 then (if behind || (decide (12 ≤ p) && !s.boot.optics) then s else s.trainPort p)
    else if was = 1 ∧ now = 0 then
      (if s.pState p = pUp ∨ s.pState p = pDegrading then s.portDown p 2 else if s.pState p = pTraining then s.trainPort p else s)
    else s
  if bvBit 1 (raw &&& on) then s.portDown p 2 else s

/-- A write of ONYX.CMD (R283): FORMAT takes the population that discovery showed: before that it is none, and it ends FAILED. -/
def State.writeOnyxCmd (s : State) (op : Nat) (raw : BitVec 32) : State :=
  match op with
  | 0 => s
  | 1 =>
      let g := s.geom
      let chans := (List.range 16).map fun n => (List.range g.targets.val).map fun t =>
        { luns := BitVec.ofNat 8 g.luns.val, planes := BitVec.ofNat 8 g.planes.val, pages := BitVec.ofNat 16 g.pages.val, blocks := g.blocks
          page := 16384#32, spare := 1024#16, mpIndep := g.mpIndep, needs := false
          lunOk := (s.rd (Rg.FCH_LUN_OK n)).extractLsb' (4 * t) 4 : TargetGeom }
      s.formatFlash { chans, anchorBad := false, spoilt := [], last := [], ms := 0#16 } [] []
  | 2 => s.askCheckpoint
  | 3 => s.startPatrol
  | _ => s.jasper .unusedValue 0 Rg.ONYX_CMD raw.toNat

/-- A write of HPT_COUNT (R354, R360): it may only rise, up to 2^28. -/
def State.writeHptCount (s : State) (p : Nat) (on raw : BitVec 32) : State :=
  let a := Rg.PARTN_HPT_COUNT p
  let v := ((s.rd a &&& ~~~on) ||| (raw &&& on)).toNat % 2 ^ 29
  if v < s.fld (Fld.PARTN_HPT_COUNT_COUNT p) ∨ 2 ^ 28 < v then s.jasper .hostSetting p a raw.toNat
  else
    let s := s.wrDefer a (BitVec.ofNat 32 v)
    if s.inStep || s.ticking then s else s.recountPages

/-- A write of a ring's configuration (R355, R360): a vector beyond a VF's leaves its field as it was; a ring enabled starts at 0. -/
def State.writeRingCfg (s : State) (p : Nat) (r : RegDef) (a : Nat) (enable prod : Fld) (on raw : BitVec 32) : State :=
  let was := s.inForce enable == 1
  let raw : BitVec 32 :=
    if s.vectorOk (if p < s.hostq.numVfs then p + 1 else 0) (bvGet 6 8 ((s.rd a &&& ~~~on) ||| (raw &&& on))) then raw
    else bvSet 6 8 raw (bvGet 6 8 (s.rd a))
  (s.plainWrite .partp r a on raw).startRing enable prod was

/-- A write of the word at `a` by function `fn` (0 for the PF), with the bits of the enabled bytes in `on` (R12). -/
def State.writeWord (s : State) (fn a : Nat) (on raw : BitVec 32) : State :=
  match regAt a with
  | .word b r i =>
    let low := bvBit 0 on
    let plain := s.plainWrite b r a on raw
    let merged := (s.rd a &&& ~~~on) ||| (raw &&& on)
    let set := raw &&& on
    match b, r.off with
      | .boot, 0x20 => if bvBit 0 set then s.writeResetCtrl fn (bvGet 16 16 set) else s
      | .boot, 0x24 => if low then s.writeTest (bvBit 0 raw) else s
      | .sec, 0x0 => s.writeSecCmd (bvGet 0 8 set)
      | .sec, 0x4000 =>
        if s.fld Fld.SEC_STATUS_STATE = 1 then s
        else s.modBoot fun x => { x with buffer := x.buffer.wrLe (4 * i) 4 (((s.shown a &&& ~~~on) ||| set).toNat) }
      | .garnet, 0x0 => s.writeGarnetCtrl r on raw
      | .garnet, 0x8 => plain.keepOwn
      | .garnet, 0x200 => plain.keepOwn
      | .topo, 0xc =>
        let s := if bvBit 0 set then s.openSwitches 0 [0, 1, 2, 3] else s
        let s := if bvBit 1 set then s.openSwitches 1 [4, 5] else s
        if bvBit 2 set then s.askLeave else s
      | .lnk, 0x0 => s.writeLnkCtrl (a / 0x10000 - 0x10) r on raw
      | .lnk, 0x10 => s.writeLnkInj (a / 0x10000 - 0x10) merged low
      | .lnk, 0x14 => s.testWrite a fun _ => plain
      | .lnk, 0x18 => s.testWrite a fun _ => plain
      | .ch, 0x8 => s.writeChInj (128 * ((a - 0x09000000) / 0x01000000 * 3 + (a - 0x09000000) % 0x01000000 / 0x00400000) +
          ((a - 0x09000000) % 0x00400000 - 0x00010000) / 0x0800) merged
      | .ch, 0xc => s.testWrite a fun _ => plain
      | .stk, 0x100 =>
        s.orderedWrite b r a on raw 0 8 7
      | .obj, 0x10 => s.orderedWrite b r a on raw 0 16 16
      | .onyx, 0x0 => if low then s.writeOnyxCmd (bvGet 0 4 raw) raw else s
      | .jsp, 0x0 => if bvBit 0 set then plain.requestFlush else plain
      | .jsp, 0x18 => s.writeReadSeq merged
      | .jsp, 0x4c =>
        let ofs := bvGet 0 28 (set &&& 0x0FFFFFFC#32)
        if bvBit 28 set then s.clearBlock ofs else s.clearOne ofs
      | .jsp, 0x58 => s
      | .pwr, 0x0 => if bvBit 4 set then plain.notIdle.beginWake else plain
      | .pwr, 0x8 => plain.refreshTol.wakeForTol
      | .pwr, 0x18 => plain.showSensor
      | .hqq, 0x10 => s.writeQCfg ((a - 0x31000) / 0x20) merged
      | .hqq, 0x14 => if bvBit 1 set then plain.setFld (Fld.HQ_Q_STATUS_CAUSE ((a - 0x31000) / 0x20)) 0 else plain
      | .partp, 0x0 => if fn = 0 then plain else s
      | .partp, 0x10 =>
        let p := (a - 0x41000) / 0x100
        s.writeRingCfg p r a (Fld.PARTN_OUT_CFG_ENABLE p) (Fld.PARTN_OUT_PROD_PROD p) on raw
      | .partp, 0x2c =>
        let p := (a - 0x41000) / 0x100
        s.writeRingCfg p r a (Fld.PARTN_EVT_CFG_ENABLE p) (Fld.PARTN_EVT_PROD_PROD p) on raw
      | .partp, 0x34 => s.writeEvtCons ((a - 0x41000) / 0x100) merged
      | .partp, 0x40 => if s.fld (Fld.PARTN_HPT_COUNT_COUNT ((a - 0x41000) / 0x100)) = 0 then plain else s
      | .partp, 0x44 => if s.fld (Fld.PARTN_HPT_COUNT_COUNT ((a - 0x41000) / 0x100)) = 0 then plain else s
      | .partp, 0x48 => s.writeHptCount ((a - 0x41000) / 0x100) on raw
      | _, _ => plain
  | _ => s

/-! ### Accesses -/

/-- The words that an access of `n` bytes at `ofs` reaches, the lower address first (R12). -/
def accessWords (ofs n : Nat) : List Nat :=
  (List.range 3).filterMap fun j => if ofs / 4 * 4 + 4 * j < ofs + n then some (ofs / 4 * 4 + 4 * j) else none

/-- The enabled bits of the word at `a` in an access of `n` bytes at `ofs`, and its bits of the data. -/
def laneBits (ofs n : Nat) (data : BitVec 64) (a : Nat) : BitVec 32 × BitVec 32 :=
  let bytes := (List.range 4).map fun j =>
    if ofs ≤ a + j ∧ a + j < ofs + n then (0xFF, (data.extractLsb' (8 * (a + j - ofs)) 8).toNat) else (0, 0)
  (BitVec.ofNat 32 (leNat (bytes.map fun x => BitVec.ofNat 8 x.1)), BitVec.ofNat 32 (leNat (bytes.map fun x => BitVec.ofNat 8 x.2)))

/-- The device offset of offset `a` of a function's BAR0 (R445). -/
def State.bar0Place (s : State) (fn a : Nat) : Option Nat :=
  if fn = 0 then some a else if fn ≤ s.hostq.numVfs then vfOffset fn a else none

/-- The PF's write to a register of an enabled VF has no effect, but for PART.CTRL (R446). -/
def State.notPfs (s : State) (a : Nat) : Bool :=
  match regAt a with
  | .word b r _ => s.ofVf b a r.off && !(b == .partp && r.off == 0)
  | _ => false

/-- A BAR0 write, or one of the management path (R12, R443): each word it reaches; a VF's offset stands for the device's own (R445). -/
def State.writeReg (s : State) (fn ofs n : Nat) (data : BitVec 64) (mgmt : Bool) : State :=
  s.each (accessWords ofs n) fun s a =>
    match s.bar0Place fn a with
    | none => s
    | some d =>
      let l := laneBits ofs n data a
      s.access (s.pathServes mgmt d && !(fn == 0 && !mgmt && s.notPfs d)) d fun s => s.writeWord fn d l.1 l.2

/-- A BAR0 read (R12): each word it reaches; what a VF does not see reads 0 (R445). The bytes read stand in `ret`, 4 of them a word. -/
def State.readReg (s : State) (fn ofs n : Nat) (mgmt : Bool) : State :=
  (accessWords ofs n).foldl (fun s a =>
    let on := (laneBits ofs n 0#64 a).1
    let r := match s.bar0Place fn a with
      | none => (s, 0#32)
      | some d => s.readAt d on mgmt
    { r.1 with ret := r.1.ret ++ [(r.2 &&& on) >>> (8 * (ofs - a))] }) { s with ret := [] }

/-! ### BAR4 (R330, R333, R334, R449) -/

/-- Offset 0 of the MSI-X table in a function's BAR4, its entries, and the offset of the pending-bit array. -/
def msixPlace (fn : Nat) : Nat × Nat × Nat := if fn = 0 then (0x100000, 256, 0x101000) else (0xF000, 15, 0xF800)

/-- The device vector of entry `i` of a function's table (R333, R445). -/
def msixVector (fn i : Nat) : Nat := if fn = 0 then i else 16 + 15 * (fn - 1) + i

/-- The word at `a` of a function's BAR4: its table and its pending bits; doorbells and what holds no register read 0 (R334, R449). -/
def State.bar4Word (s : State) (fn a : Nat) : BitVec 32 :=
  let (t, n, p) := msixPlace fn
  if s.hostq.numVfs < fn then 0#32
  else if t ≤ a ∧ a < t + 16 * n then (s.msixEntry (msixVector fn ((a - t) / 16))).extractLsb' (8 * ((a - t) % 16)) 32
  else if p ≤ a ∧ a < p + 4 * ceilDiv n 32 then
    BitVec.ofNat 32 (((List.range 32).map fun b =>
      let i := 8 * (a - p) + b
      2 ^ b * bit1 (decide (i < n) && s.hostq.pba.contains (msixVector fn i))).sum)
  else 0#32

/-- A read of BAR4. -/
def State.readBar4 (s : State) (fn ofs n : Nat) : State :=
  { s with ret := (accessWords ofs n).map fun a =>
      ((s.bar4Word fn a) &&& (laneBits ofs n 0#64 a).1) >>> (8 * (ofs - a)) }

/-- The bits of an entry that can be written: the address from bit 2 up, the data, and the mask bit (R449). -/
def msixBits (w : Nat) : BitVec 32 := if w = 0 then 0xFFFFFFFC#32 else if w = 3 then 1#32 else BitVec.allOnes 32

/-- Word `w` of the table entry of device vector `v` written; a message that waited goes out once the vector is unmasked (R449). -/
def State.writeMsix (s : State) (v w : Nat) (on raw : BitVec 32) : State :=
  let e := s.msixEntry v
  let old : BitVec 32 := e.extractLsb' (32 * w) 32
  let new := ((old &&& ~~~on) ||| (raw &&& on)) &&& msixBits w
  let s := s.modHost fun h => { h with msix := NMap.set (bvPut 96 0#128 true) h.msix v (bvSet (32 * w) 32 e new.toNat) }
  if s.hostq.pba.contains v && !bvBit 96 (s.msixEntry v) then
    (s.modHost fun h => { h with pba := h.pba.filter (· != v) }).sendMsix v
  else s

/-- A write of BAR4: a doorbell page takes writes of 4 bytes, and of 8 at offset 0, SQ_TAIL first (R449). -/
def State.writeBar4 (s : State) (fn ofs n : Nat) (data : BitVec 64) : State :=
  let (t, k, _) := msixPlace fn
  if s.hostq.numVfs < fn then s
  else if ofs < (if fn = 0 then 0x100000 else 0xF000) then
    let q := ofs / 4096
    let word := fun (i : Nat) => bvGet (32 * i) 16 data
    if ofs % 4096 = 0 ∧ n = 4 then s.ringTail fn q (word 0)
    else if ofs % 4096 = 0 ∧ n = 8 then (s.ringTail fn q (word 0)).ringHead fn q (word 1)
    else if ofs % 4096 = 4 ∧ n = 4 then s.ringHead fn q (word 0)
    else s
  else s.each (accessWords ofs n) fun s a =>
    if t ≤ a ∧ a < t + 16 * k then
      let l := laneBits ofs n data a
      s.writeMsix (msixVector fn ((a - t) / 16)) ((a - t) % 16 / 4) l.1 l.2
    else s

/-! ### The commands -/

/-- A read of a BAR, by the management path where `mgmt` says so (R13). -/
def State.readBar (s : State) (r : RegRead) (mgmt : Bool) : State :=
  if r.bar4 then s.readBar4 r.fn.val r.ofs.toNat r.size.val else s.readReg r.fn.val r.ofs.toNat r.size.val mgmt

/-- COUNTER_LOW_READ (R434). -/
def execCounterLowRead (r : RegRead) (mgmt : Bool) (s : State) : Host.Outcome State Fault Refusal := .next (s.readBar r mgmt)

/-- RC_READ (R13). -/
def execRcRead (r : RegRead) (mgmt : Bool) (s : State) : Host.Outcome State Fault Refusal := .next (s.readBar r mgmt)

/-- ENTRY_0_READ (R252). -/
def execEntry0Read (s : State) : Host.Outcome State Fault Refusal := .next (s.readReg 0 (Rg.OBJ_ENTRY 0) 4 false)

/-- EPOCH_LO_READ (R283). -/
def execEpochLoRead (s : State) : Host.Outcome State Fault Refusal := .next (s.readReg 0 Rg.ONYX_EPOCH_LO 4 false)

/-- REGISTER_WRITE (R12, R449), by the host or by management firmware (R443). -/
def execRegisterWrite (w : RegWrite) (s : State) : Host.Outcome State Fault Refusal :=
  .next (if w.bar4 then s.writeBar4 w.fn.val w.ofs.toNat w.size.val w.data else s.writeReg w.fn.val w.ofs.toNat w.size.val w.data w.mgmt)

end Sys2Proof.Machine
end

