-- ==== Sys2Proof/Machine/VectorExec.lean ====
section
/-! DEFINITION. The vector instructions as commands of a core: each runs in Q4 over the pure functions of Vector.lean, with its records
(R83, R143), its counters (R141) and the errors of R121. -/

namespace Sys2Proof.Machine

/-- What the vector engine of core `c` reads beside its registers. -/
def State.vecCtx (s : State) (c : CoreId) : VCtx :=
  { buf := (s.core c).buf
    grid := fun g k => s.gridVal c g k
    acc := fun e k => (s.eng (4 * c.val + e)).bank.at k
    comp := fun e => s.fld (Fld.ENG_STATUS_COMP_BANK (4 * c.val + e)) == 1
    rand := fun st n => rand32 (s.rdForce (Rg.VEC_RNG_KEY_HI c) ++ s.rdForce (Rg.VEC_RNG_KEY_LO c)) (s.rd Rg.GARNET_TICK).toNat c.val st n }

/-- How VEC.ELEMENTS counts an instruction (R122, R141): active elements, all N, or none. -/
inductive ElemKind
  | masked | all | zero
  deriving DecidableEq, Repr

/-- Elements counted (R141). What VLUTLD and VTOPKP count is not stated: 0, and the mask bits set over all N elements (DESIGN CHOICE, log entry 78). -/
def ElemKind.count (k : ElemKind) (f : VFile) (w : VWord) : Nat :=
  match k with
  | .masked => elemsY f w
  | .all => nOf w
  | .zero => 0

/-- Bytes of the new buffer that differ from the old, written through `put` so that parity and copies are kept (R249). -/
def CoreSt.store (x : CoreSt) (t : VTy) (a : Nat) (vals : List (Nat × Nat)) : CoreSt :=
  vals.foldl (fun x p => x.put (a + p.1 * t.bytes) (leBytes t.bytes p.2)) x

/-- The bytes that a vector instruction reads from the core buffer are consumed: bad parity among them is handled before they are used (R249). -/
def State.vecReads (s : State) (c : CoreId) : VOut → State
  | .ok r => s.consume c r.reads
  | _ => s

/-- One vector instruction at the head of Q4 (R120). It is one command, so that VEC.STATUS.BUSY (R141) is never seen 1: DESIGN CHOICE, log
entry 78. -/
def runVec (c : CoreId) (w : VWord) (op : VCtx → VWord → VFile → VOut) (k : ElemKind) (cost : VWord → Nat) (p : Prog) (s : State) : RunOut :=
  let x := s.core c
  let s := s.vecReads c (op (s.vecCtx c) w x.vec)
  match op (s.vecCtx c) w x.vec with
  | .unusedEnc => (s.unusedEnc c p, true)
  | .cmdErr => (s.vecCmdErr c p, true)
  | .ok r =>
    let s := s.modCore c fun y => { y with vec := r.file }
    let s := s.guardRec c 4 p { src := .vector, rows := [], n := r.sats }
    ((s.count (Ct.VEC_BUSY_CYCLES c) (cost w)).count (Ct.VEC_ELEMENTS c) (k.count x.vec w), true)

/-- A vector instruction as a command. -/
def State.vec (s : State) (c : CoreId) (i : Instr) (w : VWord) (op : VCtx → VWord → VFile → VOut) (k : ElemKind) (cost : VWord → Nat) : State :=
  s.issueAct c 4 i (runVec c w op k cost)

/-- VST at the head of Q4 (R122): the active elements are written, whole units becoming good again. -/
def runVst (c : CoreId) (w : VWord) (p : Prog) (s : State) : RunOut :=
  let x := s.core c
  match vStore (s.vecCtx c) w x.vec, VTy.ofCode w.ty.val with
  | .ok _, some t =>
    let act := activeOf x.vec w
    let full := act.length == nOf w
    let s := s.modCore c fun y =>
      if full then y.put (4 * immU w) (act.flatMap fun i => leBytes t.bytes (y.vec.getU t w.va i))
      else y.store t (4 * immU w) (act.map fun i => (i, y.vec.getU t w.va i))
    ((s.count (Ct.VEC_BUSY_CYCLES c) (costMem w)).count (Ct.VEC_ELEMENTS c) act.length, true)
  | .cmdErr, _ => (s.vecCmdErr c p, true)
  | _, _ => (s.unusedEnc c p, true)

/-- VLD: a run of core-buffer elements into VD (R122). -/
def execVld (c : CoreId) (w : VWord) (s : State) : Host.Outcome State Fault Refusal :=
  .next (s.vec c (.vld c w) w vLoad .masked costMem)

/-- VST: active elements of VA into the core buffer (R122). -/
def execVst (c : CoreId) (w : VWord) (s : State) : Host.Outcome State Fault Refusal :=
  .next (s.issue c 4 (.vst c w) (runVst c w))

/-- VLDX: indexed elements of the core buffer (R122). -/
def execVldx (c : CoreId) (w : VWord) (s : State) : Host.Outcome State Fault Refusal :=
  .next (s.vec c (.vldx c w) w vLoadX .masked (costPer 4 16))

/-- VMOV (R122). -/
def execVmov (c : CoreId) (w : VWord) (s : State) : Host.Outcome State Fault Refusal :=
  .next (s.vec c (.vmov c w) w (laneUnary fun _ a => a) .masked costLane)

/-- VSPLAT (R122). -/
def execVsplat (c : CoreId) (w : VWord) (s : State) : Host.Outcome State Fault Refusal :=
  .next (s.vec c (.vsplat c w) w (fun x w f => laneGen anyTy (fun t _ => immB t w) x w f) .masked costLane)

/-- VSPLATHI (R122). -/
def execVsplathi (c : CoreId) (w : VWord) (s : State) : Host.Outcome State Fault Refusal :=
  .next (s.vec c (.vsplathi c w) w vSplatHi .masked costLane)

/-- VIOTA (R122). -/
def execViota (c : CoreId) (w : VWord) (s : State) : Host.Outcome State Fault Refusal :=
  .next (s.vec c (.viota c w) w (fun x w f => laneGen anyTy (fun t i => opAdd t i (immB t w)) x w f) .masked costLane)

/-- VBCAST (R122). -/
def execVbcast (c : CoreId) (w : VWord) (s : State) : Host.Outcome State Fault Refusal :=
  .next (s.vec c (.vbcast c w) w vBcast .masked costLane)

/-- VLUTLD: a lookup slot loaded from the core buffer (R129); it counts no elements (DESIGN CHOICE, log entry 78). -/
def execVlutld (c : CoreId) (w : VWord) (s : State) : Host.Outcome State Fault Refusal :=
  .next (s.vec c (.vlutld c w) w vLutLoad .zero (fun _ => 36))

/-- VADD (R122). -/
def execVadd (c : CoreId) (w : VWord) (s : State) : Host.Outcome State Fault Refusal :=
  .next (s.vec c (.vadd c w) w (laneBinary opAdd) .masked costLane)

/-- VADDI (R122). -/
def execVaddi (c : CoreId) (w : VWord) (s : State) : Host.Outcome State Fault Refusal :=
  .next (s.vec c (.vaddi c w) w (laneImm opAdd) .masked costLane)

/-- VSUB (R122). -/
def execVsub (c : CoreId) (w : VWord) (s : State) : Host.Outcome State Fault Refusal :=
  .next (s.vec c (.vsub c w) w (laneBinary opSub) .masked costLane)

/-- VSUBI (R122). -/
def execVsubi (c : CoreId) (w : VWord) (s : State) : Host.Outcome State Fault Refusal :=
  .next (s.vec c (.vsubi c w) w (laneImm opSub) .masked costLane)

/-- VADDS (R122). -/
def execVadds (c : CoreId) (w : VWord) (s : State) : Host.Outcome State Fault Refusal :=
  .next (s.vec c (.vadds c w) w (laneBinary opAddS) .masked costLane)

/-- VADDSI (R122). -/
def execVaddsi (c : CoreId) (w : VWord) (s : State) : Host.Outcome State Fault Refusal :=
  .next (s.vec c (.vaddsi c w) w (laneImm opAddS) .masked costLane)

/-- VSUBS (R122). -/
def execVsubs (c : CoreId) (w : VWord) (s : State) : Host.Outcome State Fault Refusal :=
  .next (s.vec c (.vsubs c w) w (laneBinary opSubS) .masked costLane)

/-- VSUBSI (R122). -/
def execVsubsi (c : CoreId) (w : VWord) (s : State) : Host.Outcome State Fault Refusal :=
  .next (s.vec c (.vsubsi c w) w (laneImm opSubS) .masked costLane)

/-- VMUL (R122). -/
def execVmul (c : CoreId) (w : VWord) (s : State) : Host.Outcome State Fault Refusal :=
  .next (s.vec c (.vmul c w) w (laneBinary opMul) .masked costMul)

/-- VMULI (R122). -/
def execVmuli (c : CoreId) (w : VWord) (s : State) : Host.Outcome State Fault Refusal :=
  .next (s.vec c (.vmuli c w) w (laneImm opMul) .masked costMul)

/-- VMULSH (R122, R123). -/
def execVmulsh (c : CoreId) (w : VWord) (s : State) : Host.Outcome State Fault Refusal :=
  .next (s.vec c (.vmulsh c w) w mulSh .masked costMul)

/-- VMULSHI (R122, R123). -/
def execVmulshi (c : CoreId) (w : VWord) (s : State) : Host.Outcome State Fault Refusal :=
  .next (s.vec c (.vmulshi c w) w mulShImm .masked costMul)

/-- VMIN (R122). -/
def execVmin (c : CoreId) (w : VWord) (s : State) : Host.Outcome State Fault Refusal :=
  .next (s.vec c (.vmin c w) w (laneBinary opMin) .masked costLane)

/-- VMINI (R122). -/
def execVmini (c : CoreId) (w : VWord) (s : State) : Host.Outcome State Fault Refusal :=
  .next (s.vec c (.vmini c w) w (laneImm opMin) .masked costLane)

/-- VMAX (R122). -/
def execVmax (c : CoreId) (w : VWord) (s : State) : Host.Outcome State Fault Refusal :=
  .next (s.vec c (.vmax c w) w (laneBinary opMax) .masked costLane)

/-- VMAXI (R122). -/
def execVmaxi (c : CoreId) (w : VWord) (s : State) : Host.Outcome State Fault Refusal :=
  .next (s.vec c (.vmaxi c w) w (laneImm opMax) .masked costLane)

/-- VABS (R122). -/
def execVabs (c : CoreId) (w : VWord) (s : State) : Host.Outcome State Fault Refusal :=
  .next (s.vec c (.vabs c w) w (laneUnary opAbs) .masked costLane)

/-- VNEG (R122). -/
def execVneg (c : CoreId) (w : VWord) (s : State) : Host.Outcome State Fault Refusal :=
  .next (s.vec c (.vneg c w) w (laneUnary opNeg) .masked costLane)

/-- VAND (R122). -/
def execVand (c : CoreId) (w : VWord) (s : State) : Host.Outcome State Fault Refusal :=
  .next (s.vec c (.vand c w) w (laneBinary opAnd) .masked costLane)

/-- VANDI (R122). -/
def execVandi (c : CoreId) (w : VWord) (s : State) : Host.Outcome State Fault Refusal :=
  .next (s.vec c (.vandi c w) w (laneImm opAnd) .masked costLane)

/-- VOR (R122). -/
def execVor (c : CoreId) (w : VWord) (s : State) : Host.Outcome State Fault Refusal :=
  .next (s.vec c (.vor c w) w (laneBinary opOr) .masked costLane)

/-- VORI (R122). -/
def execVori (c : CoreId) (w : VWord) (s : State) : Host.Outcome State Fault Refusal :=
  .next (s.vec c (.vori c w) w (laneImm opOr) .masked costLane)

/-- VXOR (R122). -/
def execVxor (c : CoreId) (w : VWord) (s : State) : Host.Outcome State Fault Refusal :=
  .next (s.vec c (.vxor c w) w (laneBinary opXor) .masked costLane)

/-- VXORI (R122). -/
def execVxori (c : CoreId) (w : VWord) (s : State) : Host.Outcome State Fault Refusal :=
  .next (s.vec c (.vxori c w) w (laneImm opXor) .masked costLane)

/-- VSHL (R122, R123). -/
def execVshl (c : CoreId) (w : VWord) (s : State) : Host.Outcome State Fault Refusal :=
  .next (s.vec c (.vshl c w) w (shiftReg opShl) .masked costLane)

/-- VSHLI (R122, R123). -/
def execVshli (c : CoreId) (w : VWord) (s : State) : Host.Outcome State Fault Refusal :=
  .next (s.vec c (.vshli c w) w (shiftImm opShl) .masked costLane)

/-- VSRA (R122, R123). -/
def execVsra (c : CoreId) (w : VWord) (s : State) : Host.Outcome State Fault Refusal :=
  .next (s.vec c (.vsra c w) w (shiftReg opSra) .masked costLane)

/-- VSRAI (R122, R123). -/
def execVsrai (c : CoreId) (w : VWord) (s : State) : Host.Outcome State Fault Refusal :=
  .next (s.vec c (.vsrai c w) w (shiftImm opSra) .masked costLane)

/-- VSRR (R122, R123). -/
def execVsrr (c : CoreId) (w : VWord) (s : State) : Host.Outcome State Fault Refusal :=
  .next (s.vec c (.vsrr c w) w (shiftReg opSrr) .masked costLane)

/-- VSRRI (R122, R123). -/
def execVsrri (c : CoreId) (w : VWord) (s : State) : Host.Outcome State Fault Refusal :=
  .next (s.vec c (.vsrri c w) w (shiftImm opSrr) .masked costLane)

/-- VSHLS (R122, R123). -/
def execVshls (c : CoreId) (w : VWord) (s : State) : Host.Outcome State Fault Refusal :=
  .next (s.vec c (.vshls c w) w (shiftReg opShlS) .masked costLane)

/-- VSHLSI (R122, R123). -/
def execVshlsi (c : CoreId) (w : VWord) (s : State) : Host.Outcome State Fault Refusal :=
  .next (s.vec c (.vshlsi c w) w (shiftImm opShlS) .masked costLane)

/-- VCLS (R122, R123). -/
def execVcls (c : CoreId) (w : VWord) (s : State) : Host.Outcome State Fault Refusal :=
  .next (s.vec c (.vcls c w) w (laneUnary opCls) .masked costLane)

/-- VCVT (R124). -/
def execVcvt (c : CoreId) (w : VWord) (s : State) : Host.Outcome State Fault Refusal :=
  .next (s.vec c (.vcvt c w) w vCvt .masked costCvt)

/-- VDESC (R130). -/
def execVdesc (c : CoreId) (w : VWord) (s : State) : Host.Outcome State Fault Refusal :=
  .next (s.vec c (.vdesc c w) w vDesc .masked (costPer 10 128))

/-- VQSCALE (R131). -/
def execVqscale (c : CoreId) (w : VWord) (s : State) : Host.Outcome State Fault Refusal :=
  .next (s.vec c (.vqscale c w) w vQScale .all (costPer 8 128))

/-- VQUANT (R132). -/
def execVquant (c : CoreId) (w : VWord) (s : State) : Host.Outcome State Fault Refusal :=
  .next (s.vec c (.vquant c w) w vQuant .all (costPer 8 32))

/-- VDEQ (R132). -/
def execVdeq (c : CoreId) (w : VWord) (s : State) : Host.Outcome State Fault Refusal :=
  .next (s.vec c (.vdeq c w) w vDeq .all (costPer 4 64))

/-- VEXTS (R132). -/
def execVexts (c : CoreId) (w : VWord) (s : State) : Host.Outcome State Fault Refusal :=
  .next (s.vec c (.vexts c w) w vExts .all (costPer 4 64))

/-- VCMP (R123). -/
def execVcmp (c : CoreId) (w : VWord) (s : State) : Host.Outcome State Fault Refusal :=
  .next (s.vec c (.vcmp c w) w vCmp .masked costLane)

/-- VSEL (R122). -/
def execVsel (c : CoreId) (w : VWord) (s : State) : Host.Outcome State Fault Refusal :=
  .next (s.vec c (.vsel c w) w vSel .all costLane)

/-- VMLOG (R123). -/
def execVmlog (c : CoreId) (w : VWord) (s : State) : Host.Outcome State Fault Refusal :=
  .next (s.vec c (.vmlog c w) w vMLog .all (costPer 2 1024))

/-- VMPOP (R122). -/
def execVmpop (c : CoreId) (w : VWord) (s : State) : Host.Outcome State Fault Refusal :=
  .next (s.vec c (.vmpop c w) w vMPop .all (costPer 4 1024))

/-- VMFIRST (R122). -/
def execVmfirst (c : CoreId) (w : VWord) (s : State) : Host.Outcome State Fault Refusal :=
  .next (s.vec c (.vmfirst c w) w vMFirst .all (costPer 4 1024))

/-- VMSETN (R122). -/
def execVmsetn (c : CoreId) (w : VWord) (s : State) : Host.Outcome State Fault Refusal :=
  .next (s.vec c (.vmsetn c w) w vMSetN .all (costPer 2 1024))

/-- VRSUM (R125). -/
def execVrsum (c : CoreId) (w : VWord) (s : State) : Host.Outcome State Fault Refusal :=
  .next (s.vec c (.vrsum c w) w vRSum .masked costRed)

/-- VRMAX (R125). -/
def execVrmax (c : CoreId) (w : VWord) (s : State) : Host.Outcome State Fault Refusal :=
  .next (s.vec c (.vrmax c w) w (vReduce opMax fun t => minOf t.bits) .masked costRed)

/-- VRMIN (R125). -/
def execVrmin (c : CoreId) (w : VWord) (s : State) : Host.Outcome State Fault Refusal :=
  .next (s.vec c (.vrmin c w) w (vReduce opMin fun t => maxOf t.bits) .masked costRed)

/-- VRMAXI (R125). -/
def execVrmaxi (c : CoreId) (w : VWord) (s : State) : Host.Outcome State Fault Refusal :=
  .next (s.vec c (.vrmaxi c w) w vRMaxI .masked costRed)

/-- VSCAN (R126). -/
def execVscan (c : CoreId) (w : VWord) (s : State) : Host.Outcome State Fault Refusal :=
  .next (s.vec c (.vscan c w) w vScan .masked costScan)

/-- VTOPK (R127). -/
def execVtopk (c : CoreId) (w : VWord) (s : State) : Host.Outcome State Fault Refusal :=
  .next (s.vec c (.vtopk c w) w vTopK .masked costTop)

/-- VTOPKP (R127); it counts the mask bits set over all N elements (DESIGN CHOICE, log entry 78). -/
def execVtopkp (c : CoreId) (w : VWord) (s : State) : Host.Outcome State Fault Refusal :=
  .next (s.vec c (.vtopkp c w) w vTopKP .masked costTop)

/-- VCOMPRESS (R128). -/
def execVcompress (c : CoreId) (w : VWord) (s : State) : Host.Outcome State Fault Refusal :=
  .next (s.vec c (.vcompress c w) w vCompress .masked costComp)

/-- VEXPAND (R128). -/
def execVexpand (c : CoreId) (w : VWord) (s : State) : Host.Outcome State Fault Refusal :=
  .next (s.vec c (.vexpand c w) w vExpand .masked costComp)

/-- VLUT (R129). -/
def execVlut (c : CoreId) (w : VWord) (s : State) : Host.Outcome State Fault Refusal :=
  .next (s.vec c (.vlut c w) w vLut .masked (costPer 6 64))

/-- VRAND (R134). -/
def execVrand (c : CoreId) (w : VWord) (s : State) : Host.Outcome State Fault Refusal :=
  .next (s.vec c (.vrand c w) w vRand .masked (costPer 4 32))

/-- VACC (R135). -/
def execVacc (c : CoreId) (w : VWord) (s : State) : Host.Outcome State Fault Refusal :=
  .next (s.vec c (.vacc c w) w vAcc .masked (costPer 6 32))

/-- VACCRAW (R135). -/
def execVaccraw (c : CoreId) (w : VWord) (s : State) : Host.Outcome State Fault Refusal :=
  .next (s.vec c (.vaccraw c w) w vAccRaw .masked (costPer 6 32))

end Sys2Proof.Machine
end

