-- ==== Sys2Proof/Machine/Dispatch.lean ====
section
/-! DEFINITION. The dispatch of a command to its meaning: one arm for each constructor. -/

namespace Sys2Proof.Machine

/-- The effect of a command on everything but the queue of waiting commands. -/
def exec (i : Instr) (s : State) : Host.Outcome State Fault Refusal :=
  match i with
  | .dispatch c => Sys2Proof.Machine.execDispatch c s
  | .nop c => Sys2Proof.Machine.execNop c s
  | .layer c q n => Sys2Proof.Machine.execLayer c q n s
  | .stepEnd c => Sys2Proof.Machine.execStepEnd c s
  | .fetch c f => Sys2Proof.Machine.execFetch c f s
  | .fetchDataArrival c bad => Sys2Proof.Machine.execFetchDataArrival c bad s
  | .wait c t => Sys2Proof.Machine.execWait c t s
  | .signal c t => Sys2Proof.Machine.execSignal c t s
  | .creditReturn c t => Sys2Proof.Machine.execCreditReturn c t s
  | .signalArrival j => Sys2Proof.Machine.execSignalArrival j s
  | .send c o => Sys2Proof.Machine.execSend c o s
  | .release c o => Sys2Proof.Machine.execRelease c o s
  | .read c o => Sys2Proof.Machine.execRead c o s
  | .write c o => Sys2Proof.Machine.execWrite c o s
  | .add c o => Sys2Proof.Machine.execAdd c o s
  | .max c o => Sys2Proof.Machine.execMax c o s
  | .fetchAdd c o => Sys2Proof.Machine.execFetchAdd c o s
  | .setup c e o => Sys2Proof.Machine.execSetup c e o s
  | .run c e o => Sys2Proof.Machine.execRun c e o s
  | .readout c e o => Sys2Proof.Machine.execReadout c e o s
  | .readraw c e o => Sys2Proof.Machine.execReadraw c e o s
  | .merge c e o => Sys2Proof.Machine.execMerge c e o s
  | .tileSumCheck c e => Sys2Proof.Machine.execTileSumCheck c e s
  | .tileRefetchComplete c e => Sys2Proof.Machine.execTileRefetchComplete c e s
  | .vld c w => Sys2Proof.Machine.execVld c w s
  | .vst c w => Sys2Proof.Machine.execVst c w s
  | .vldx c w => Sys2Proof.Machine.execVldx c w s
  | .vmov c w => Sys2Proof.Machine.execVmov c w s
  | .vsplat c w => Sys2Proof.Machine.execVsplat c w s
  | .vsplathi c w => Sys2Proof.Machine.execVsplathi c w s
  | .viota c w => Sys2Proof.Machine.execViota c w s
  | .vbcast c w => Sys2Proof.Machine.execVbcast c w s
  | .vlutld c w => Sys2Proof.Machine.execVlutld c w s
  | .vadd c w => Sys2Proof.Machine.execVadd c w s
  | .vaddi c w => Sys2Proof.Machine.execVaddi c w s
  | .vsub c w => Sys2Proof.Machine.execVsub c w s
  | .vsubi c w => Sys2Proof.Machine.execVsubi c w s
  | .vadds c w => Sys2Proof.Machine.execVadds c w s
  | .vaddsi c w => Sys2Proof.Machine.execVaddsi c w s
  | .vsubs c w => Sys2Proof.Machine.execVsubs c w s
  | .vsubsi c w => Sys2Proof.Machine.execVsubsi c w s
  | .vmul c w => Sys2Proof.Machine.execVmul c w s
  | .vmuli c w => Sys2Proof.Machine.execVmuli c w s
  | .vmulsh c w => Sys2Proof.Machine.execVmulsh c w s
  | .vmulshi c w => Sys2Proof.Machine.execVmulshi c w s
  | .vmin c w => Sys2Proof.Machine.execVmin c w s
  | .vmini c w => Sys2Proof.Machine.execVmini c w s
  | .vmax c w => Sys2Proof.Machine.execVmax c w s
  | .vmaxi c w => Sys2Proof.Machine.execVmaxi c w s
  | .vabs c w => Sys2Proof.Machine.execVabs c w s
  | .vneg c w => Sys2Proof.Machine.execVneg c w s
  | .vand c w => Sys2Proof.Machine.execVand c w s
  | .vandi c w => Sys2Proof.Machine.execVandi c w s
  | .vor c w => Sys2Proof.Machine.execVor c w s
  | .vori c w => Sys2Proof.Machine.execVori c w s
  | .vxor c w => Sys2Proof.Machine.execVxor c w s
  | .vxori c w => Sys2Proof.Machine.execVxori c w s
  | .vshl c w => Sys2Proof.Machine.execVshl c w s
  | .vshli c w => Sys2Proof.Machine.execVshli c w s
  | .vsra c w => Sys2Proof.Machine.execVsra c w s
  | .vsrai c w => Sys2Proof.Machine.execVsrai c w s
  | .vsrr c w => Sys2Proof.Machine.execVsrr c w s
  | .vsrri c w => Sys2Proof.Machine.execVsrri c w s
  | .vshls c w => Sys2Proof.Machine.execVshls c w s
  | .vshlsi c w => Sys2Proof.Machine.execVshlsi c w s
  | .vcls c w => Sys2Proof.Machine.execVcls c w s
  | .vcvt c w => Sys2Proof.Machine.execVcvt c w s
  | .vdesc c w => Sys2Proof.Machine.execVdesc c w s
  | .vqscale c w => Sys2Proof.Machine.execVqscale c w s
  | .vquant c w => Sys2Proof.Machine.execVquant c w s
  | .vdeq c w => Sys2Proof.Machine.execVdeq c w s
  | .vexts c w => Sys2Proof.Machine.execVexts c w s
  | .vcmp c w => Sys2Proof.Machine.execVcmp c w s
  | .vsel c w => Sys2Proof.Machine.execVsel c w s
  | .vmlog c w => Sys2Proof.Machine.execVmlog c w s
  | .vmpop c w => Sys2Proof.Machine.execVmpop c w s
  | .vmfirst c w => Sys2Proof.Machine.execVmfirst c w s
  | .vmsetn c w => Sys2Proof.Machine.execVmsetn c w s
  | .vrsum c w => Sys2Proof.Machine.execVrsum c w s
  | .vrmax c w => Sys2Proof.Machine.execVrmax c w s
  | .vrmin c w => Sys2Proof.Machine.execVrmin c w s
  | .vrmaxi c w => Sys2Proof.Machine.execVrmaxi c w s
  | .vscan c w => Sys2Proof.Machine.execVscan c w s
  | .vtopk c w => Sys2Proof.Machine.execVtopk c w s
  | .vtopkp c w => Sys2Proof.Machine.execVtopkp c w s
  | .vcompress c w => Sys2Proof.Machine.execVcompress c w s
  | .vexpand c w => Sys2Proof.Machine.execVexpand c w s
  | .vlut c w => Sys2Proof.Machine.execVlut c w s
  | .vrand c w => Sys2Proof.Machine.execVrand c w s
  | .vacc c w => Sys2Proof.Machine.execVacc c w s
  | .vaccraw c w => Sys2Proof.Machine.execVaccraw c w s
  | .tickTimerExpiry => Sys2Proof.Machine.execTickTimerExpiry s
  | .tickStart => Sys2Proof.Machine.execTickStart s
  | .tickToken p t => Sys2Proof.Machine.execTickToken p t s
  | .stepCommit => Sys2Proof.Machine.execStepCommit s
  | .hang c => Sys2Proof.Machine.execHang c s
  | .abandonDone => Sys2Proof.Machine.execAbandonDone s
  | .memberSilent m => Sys2Proof.Machine.execMemberSilent m s
  | .tensorMessage p m => Sys2Proof.Machine.execTensorMessage p m s
  | .holdAreaMove p => Sys2Proof.Machine.execHoldAreaMove p s
  | .messageForward p m => Sys2Proof.Machine.execMessageForward p m s
  | .loss src lost leaving tick => Sys2Proof.Machine.execLoss src lost leaving tick s
  | .resetRequest target requester => Sys2Proof.Machine.execResetRequest target requester s
  | .leaving src cause tick => Sys2Proof.Machine.execLeaving src cause tick s
  | .topoUpdate m st => Sys2Proof.Machine.execTopoUpdate m st s
  | .takeover group lost tick => Sys2Proof.Machine.execTakeover group lost tick s
  | .thermalNotice src stack temp tick => Sys2Proof.Machine.execThermalNotice src stack temp tick s
  | .mgmtKindUnused m => Sys2Proof.Machine.execMgmtKindUnused m s
  | .sequencedFlit p f => Sys2Proof.Machine.execSequencedFlit p f s
  | .idle p f => Sys2Proof.Machine.execIdle p f s
  | .nak p f => Sys2Proof.Machine.execNak p f s
  | .nakRetryTimeout p => Sys2Proof.Machine.execNakRetryTimeout p s
  | .replayTimeout p => Sys2Proof.Machine.execReplayTimeout p s
  | .laneFail p lane => Sys2Proof.Machine.execLaneFail p lane s
  | .linkCtrl p r => Sys2Proof.Machine.execLinkCtrl p r s
  | .restripeDone p => Sys2Proof.Machine.execRestripeDone p s
  | .portTrained p r => Sys2Proof.Machine.execPortTrained p r s
  | .retrain p => Sys2Proof.Machine.execRetrain p s
  | .relinkWaitExpiry b => Sys2Proof.Machine.execRelinkWaitExpiry b s
  | .relinkAttempt b results => Sys2Proof.Machine.execRelinkAttempt b results s
  | .openRing => Sys2Proof.Machine.execOpenRing s
  | .openPlane => Sys2Proof.Machine.execOpenPlane s
  | .leave => Sys2Proof.Machine.execLeave s
  | .agateSensorCheck sw closed => Sys2Proof.Machine.execAgateSensorCheck sw closed s
  | .garnetEnableSet => Sys2Proof.Machine.execGarnetEnableSet s
  | .garnetEnableClear => Sys2Proof.Machine.execGarnetEnableClear s
  | .withhold v => Sys2Proof.Machine.execWithhold v s
  | .guardDecision k l => Sys2Proof.Machine.execGuardDecision k l s
  | .rerunStart k => Sys2Proof.Machine.execRerunStart k s
  | .rerunSegmentStart c => Sys2Proof.Machine.execRerunSegmentStart c s
  | .rerunComplete k => Sys2Proof.Machine.execRerunComplete k s
  | .guardWindowEnd k => Sys2Proof.Machine.execGuardWindowEnd k s
  | .burstRead spa errs => Sys2Proof.Machine.execBurstRead spa errs s
  | .burstWrite spa data => Sys2Proof.Machine.execBurstWrite spa data s
  | .scrub spa errs => Sys2Proof.Machine.execScrub spa errs s
  | .refreshCommand ch bank => Sys2Proof.Machine.execRefreshCommand ch bank s
  | .recentre ch eyes => Sys2Proof.Machine.execRecentre ch eyes s
  | .regulatorEpoch st reqs => Sys2Proof.Machine.execRegulatorEpoch st reqs s
  | .stackTempSample st temps => Sys2Proof.Machine.execStackTempSample st temps s
  | .thermalCapApply st => Sys2Proof.Machine.execThermalCapApply st s
  | .withholdAutoExpiry st => Sys2Proof.Machine.execWithholdAutoExpiry st s
  | .stackTrainingDone width height eyes => Sys2Proof.Machine.execStackTrainingDone width height eyes s
  | .chInjArm ch w => Sys2Proof.Machine.execChInjArm ch w s
  | .lnkInjArm p w => Sys2Proof.Machine.execLnkInjArm p w s
  | .moveSwitch o t => Sys2Proof.Machine.execMoveSwitch o t s
  | .moveSourceFree o t => Sys2Proof.Machine.execMoveSourceFree o t s
  | .backgroundEviction m => Sys2Proof.Machine.execBackgroundEviction m s
  | .poisonWaitExpiry o t => Sys2Proof.Machine.execPoisonWaitExpiry o t s
  | .refetchSwitch o t => Sys2Proof.Machine.execRefetchSwitch o t s
  | .frameReadback f clean => Sys2Proof.Machine.execFrameReadback f clean s
  | .hostReadComplete r st => Sys2Proof.Machine.execHostReadComplete r st s
  | .completionTimeout r => Sys2Proof.Machine.execCompletionTimeout r s
  | .bar2Read fn ofs len => Sys2Proof.Machine.execBar2Read fn ofs len s
  | .bar2Write fn ofs data => Sys2Proof.Machine.execBar2Write fn ofs data s
  | .flashPageRead lane block page outs us => Sys2Proof.Machine.execFlashPageRead lane block page outs us s
  | .flashProgramComplete k ok us => Sys2Proof.Machine.execFlashProgramComplete k ok us s
  | .flashEraseComplete lane block ok => Sys2Proof.Machine.execFlashEraseComplete lane block ok s
  | .mount d => Sys2Proof.Machine.execMount d s
  | .readCounts => Sys2Proof.Machine.execReadCounts s
  | .blockRefresh lane m => Sys2Proof.Machine.execBlockRefresh lane m s
  | .patrol lane block page outs us => Sys2Proof.Machine.execPatrol lane block page outs us s
  | .wearLevelMove m => Sys2Proof.Machine.execWearLevelMove m s
  | .compaction => Sys2Proof.Machine.execCompaction s
  | .encSegmentReceived m => Sys2Proof.Machine.execEncSegmentReceived m s
  | .encSegmentCoded m => Sys2Proof.Machine.execEncSegmentCoded m s
  | .tableLive id => Sys2Proof.Machine.execTableLive id s
  | .format d m => Sys2Proof.Machine.execFormat d m s
  | .checkpoint => Sys2Proof.Machine.execCheckpoint s
  | .patrolStart => Sys2Proof.Machine.execPatrolStart s
  | .jasperAccept => Sys2Proof.Machine.execJasperAccept s
  | .rateWindowEnd => Sys2Proof.Machine.execRateWindowEnd s
  | .opTime => Sys2Proof.Machine.execOpTime s
  | .flush => Sys2Proof.Machine.execFlush s
  | .readSeq seq => Sys2Proof.Machine.execReadSeq seq s
  | .vaultReadComplete => Sys2Proof.Machine.execVaultReadComplete s
  | .ctrClearCounter ofs => Sys2Proof.Machine.execCtrClearCounter ofs s
  | .ctrClearBlock ofs => Sys2Proof.Machine.execCtrClearBlock ofs s
  | .kick k => Sys2Proof.Machine.execKick k s
  | .watchdog w => Sys2Proof.Machine.execWatchdog w s
  | .select x => Sys2Proof.Machine.execSelect x s
  | .head => Sys2Proof.Machine.execHead s
  | .time => Sys2Proof.Machine.execTime s
  | .coldReset => Sys2Proof.Machine.execColdReset s
  | .sysRstN ns => Sys2Proof.Machine.execSysRstN ns s
  | .perstN low => Sys2Proof.Machine.execPerstN low s
  | .warm fn confirm => Sys2Proof.Machine.execWarm fn confirm s
  | .supplyLow rail => Sys2Proof.Machine.execSupplyLow rail s
  | .pwrfailNFall => Sys2Proof.Machine.execPwrfailNFall s
  | .pwrfailNRise => Sys2Proof.Machine.execPwrfailNRise s
  | .hotReset => Sys2Proof.Machine.execHotReset s
  | .startup pufRead => Sys2Proof.Machine.execStartup pufRead s
  | .selfTest failing => Sys2Proof.Machine.execSelfTest failing s
  | .ready => Sys2Proof.Machine.execReady s
  | .portWaitExpiry => Sys2Proof.Machine.execPortWaitExpiry s
  | .entropyFail adaptive => Sys2Proof.Machine.execEntropyFail adaptive s
  | .testEnable v => Sys2Proof.Machine.execTestEnable v s
  | .getIdentity => Sys2Proof.Machine.execGetIdentity s
  | .getCert => Sys2Proof.Machine.execGetCert s
  | .attest => Sys2Proof.Machine.execAttest s
  | .extend => Sys2Proof.Machine.execExtend s
  | .setOwner => Sys2Proof.Machine.execSetOwner s
  | .commitSvn => Sys2Proof.Machine.execCommitSvn s
  | .norWrite => Sys2Proof.Machine.execNorWrite s
  | .norRead => Sys2Proof.Machine.execNorRead s
  | .doeRequest words => Sys2Proof.Machine.execDoeRequest words s
  | .sqTail fn q v => Sys2Proof.Machine.execSqTail fn q v s
  | .cqHead fn q v => Sys2Proof.Machine.execCqHead fn q v s
  | .sqFetch => Sys2Proof.Machine.execSqFetch s
  | .commandApply => Sys2Proof.Machine.execCommandApply s
  | .openSession h o => Sys2Proof.Machine.execOpenSession h o s
  | .prefill h sess count addr => Sys2Proof.Machine.execPrefill h sess count addr s
  | .decode h sess budget stop => Sys2Proof.Machine.execDecode h sess budget stop s
  | .setParams h sess o => Sys2Proof.Machine.execSetParams h sess o s
  | .truncate h sess pos => Sys2Proof.Machine.execTruncate h sess pos s
  | .park h sess => Sys2Proof.Machine.execPark h sess s
  | .unpark h sess policy => Sys2Proof.Machine.execUnpark h sess policy s
  | .closeSession h sess => Sys2Proof.Machine.execCloseSession h sess s
  | .createObject h o => Sys2Proof.Machine.execCreateObject h o s
  | .setPlacement h o => Sys2Proof.Machine.execSetPlacement h o s
  | .deleteObject h o => Sys2Proof.Machine.execDeleteObject h o s
  | .install h o => Sys2Proof.Machine.execInstall h o s
  | .abortInstall h o => Sys2Proof.Machine.execAbortInstall h o s
  | .shrinkHostPages h count => Sys2Proof.Machine.execShrinkHostPages h count s
  | .qCfgEnable q v => Sys2Proof.Machine.execQCfgEnable q v s
  | .evtCons p v => Sys2Proof.Machine.execEvtCons p v s
  | .functionLevelReset fn => Sys2Proof.Machine.execFunctionLevelReset fn s
  | .coalesceTimeout v => Sys2Proof.Machine.execCoalesceTimeout v s
  | .ltrChange => Sys2Proof.Machine.execLtrChange s
  | .powerAverage w => Sys2Proof.Machine.execPowerAverage w s
  | .capStepTimer => Sys2Proof.Machine.execCapStepTimer s
  | .sensorSample j temp => Sys2Proof.Machine.execSensorSample j temp s
  | .thermalStepTimer k => Sys2Proof.Machine.execThermalStepTimer k s
  | .supplyRampDone k => Sys2Proof.Machine.execSupplyRampDone k s
  | .powerStateEntry => Sys2Proof.Machine.execPowerStateEntry s
  | .wake => Sys2Proof.Machine.execWake s
  | .wakeRequest k => Sys2Proof.Machine.execWakeRequest k s
  | .wakeComplete => Sys2Proof.Machine.execWakeComplete s
  | .clockUngate => Sys2Proof.Machine.execClockUngate s
  | .counterLowRead r mgmt => Sys2Proof.Machine.execCounterLowRead r mgmt s
  | .rcRead r mgmt => Sys2Proof.Machine.execRcRead r mgmt s
  | .entry0Read => Sys2Proof.Machine.execEntry0Read s
  | .epochLoRead => Sys2Proof.Machine.execEpochLoRead s
  | .registerWrite w => Sys2Proof.Machine.execRegisterWrite w s
  | .agateSwitchMovementDone sw => Sys2Proof.Machine.execAgateSwitchMovementDone sw s
  | .pcieLinkTrained speed width flit => Sys2Proof.Machine.execPcieLinkTrained speed width flit s
  | .stacksIdentified small => Sys2Proof.Machine.execStacksIdentified small s
  | .opticalEnginesSettled => Sys2Proof.Machine.execOpticalEnginesSettled s
  | .entropySourceRecovers => Sys2Proof.Machine.execEntropySourceRecovers s
  | .srIovVfEnable n => Sys2Proof.Machine.execSrIovVfEnable n s
  | .maxSnoopLatencyWrite us ltr => Sys2Proof.Machine.execMaxSnoopLatencyWrite us ltr s
  | .invalidOp op => Sys2Proof.Machine.execInvalidOp op s

end Sys2Proof.Machine
end

