-- ==== Sys2Proof/Machine/Step.lean ====
section
/-! DEFINITION. One step of the block: the command at the front of the queue takes effect; on an empty queue a microsecond passes. -/

namespace Sys2Proof.Machine

/-- The step: `exec` of the command at the front on the state with the queue's rest; on an empty queue the device's microsecond clock
moves on (log entry 8). -/
def step (s : State) : Host.Outcome State Fault Refusal :=
  match s.pending with
  | [] => .next s.idleStep
  | i :: rest => exec i { s with pending := rest }

/-- `s` with the command that the word spells put at the front of its queue; no row of the table has bits, so the word spells none (log
entry 1). -/
def State.withFetchWord (s : State) (nbits w : Nat) : State :=
  match decodeTableWord nbits w with
  | some i => { s with pending := i :: s.pending }
  | none => s

end Sys2Proof.Machine
end

