-- ==== Sys2Proof/Safety.lean ====
section
/-! DEFINITION. The terms of the statements: the canonical form of the device's memories, what an instruction's standing at the head of
its queue means, and what a command leaves unchanged. -/

namespace Sys2Proof.Machine

/-- Every byte memory of the device and of its host has its canonical form: the stacks, host memory, the configuration NOR, the mailbox
buffer, each core buffer and each cluster cache. -/
abbrev State.memoriesWf (s : State) : Prop :=
  s.mem.wf ∧ s.host.wf ∧ s.boot.nor.wf ∧ s.boot.buffer.wf ∧ (∀ p ∈ s.cores, p.2.buf.wf) ∧ ∀ p ∈ s.clusters, p.2.cache.wf

/-- The command at the front of the queue, or the idle tick, leaves a next state. -/
def State.goesOn (s : State) : Prop := ∃ t, step s = .next t

/-- What the NOR's replay-protected counter promises (R368, R384): a root key, once written, stays, and the counter never falls. -/
def rpmcKept (a b : Option (BitVec 256) × Nat) : Prop := (∀ k, a.1 = some k → b.1 = some k) ∧ (a.1 ≠ none → a.2 ≤ b.2)

/-- Instruction `i` runs now in queue `q` of core `c`: it is the head that the queue serves, or nothing stands in the queue (R46, log
entry 10). -/
def State.atHead (s : State) (c q : Nat) (i : Instr) : Bool := ((s.core c).head q).all fun e => decide (e.1.instr = i)

/-- No byte changed: of the stacks, of host memory, of the NOR, of the mailbox buffer, of any core buffer or of any cluster cache. -/
def State.sameMemory (s t : State) : Prop :=
  t.mem = s.mem ∧ t.host = s.host ∧ t.boot.nor = s.boot.nor ∧ t.boot.buffer = s.boot.buffer ∧
    (∀ c, (t.core c).buf = (s.core c).buf) ∧ ∀ k, (t.cluster k).cache = (s.cluster k).cache

/-- No register word changed but those at the addresses of `as`. -/
def State.sameRegs (s t : State) (as : List Nat) : Prop := ∀ a, a ∉ as → t.rd a = s.rd a

/-- No counter changed but those at the addresses of `as`. -/
def State.sameCtrs (s t : State) (as : List Nat) : Prop := ∀ a, a ∉ as → t.ctr a = s.ctr a

/-- The event that last reached the recorder's intake has this code, with these details (R420). -/
abbrev State.told (t : State) (e : JCode) (unit d0 d1 : Nat) : Prop :=
  t.lastEvent.map (fun x => (x.cls, x.kind, x.code, x.unit, x.d0, x.d1)) =
    some (e.cls, e.kind, e.code, unit, BitVec.ofNat 32 d0, BitVec.ofNat 32 d1)

/-- Elements of type `ty` of the group at register `d` took the values of `g` at the places of `is`; every other element of the group
and beyond it, every register below it, every mask and every lookup slot is as before (R115 to R118). -/
def VFile.wrote (f f' : VFile) (ty : VTy) (d : Nat) (is : List Nat) (g : Nat → Int) : Prop :=
  (∀ i ∈ is, f'.get ty d i = g i) ∧ (∀ i, i ∉ is → f'.getU ty d i = f.getU ty d i) ∧ (∀ n, n < d → f'.reg n = f.reg n) ∧
    (∀ n, f'.mask n = f.mask n) ∧ ∀ n, f'.lut n = f.lut n

/-- Bits of mask `d` took the values of `g` at the places of `is`; every other bit, every register and every lookup slot is as before. -/
def VFile.wroteMask (f f' : VFile) (d : Nat) (is : List Nat) (g : Nat → Bool) : Prop :=
  (∀ i ∈ is, (f'.mask d).getLsbD i = g i) ∧ (∀ i, i ∉ is → (f'.mask d).getLsbD i = (f.mask d).getLsbD i) ∧
    (∀ n, n ≠ d → f'.mask n = f.mask n) ∧ (∀ n, f'.reg n = f.reg n) ∧ ∀ n, f'.lut n = f.lut n

/-- An instruction of core `c`'s vector engine has been carried out (R120, R141): its cycles, its elements and its saturations are
counted, and beside the core's vector registers, masks, lookup slots and queues no core, no engine, no register word, no counter, no
signal on its way and no byte changed. -/
def State.vecDone (s t : State) (c : CoreId) (cost elems sats : Nat) : Prop :=
  t.ctr (Ct.VEC_BUSY_CYCLES c) = (s.ctr (Ct.VEC_BUSY_CYCLES c)).plus cost ∧ t.ctr (Ct.VEC_ELEMENTS c) = (s.ctr (Ct.VEC_ELEMENTS c)).plus elems ∧
    (0 < sats → t.ctr (Ct.GUARD_SAT_TOTAL (clusterOf c)) = (s.ctr (Ct.GUARD_SAT_TOTAL (clusterOf c))).plus sats) ∧
    s.sameCtrs t ([Ct.VEC_BUSY_CYCLES c, Ct.VEC_ELEMENTS c] ++ if sats = 0 then [] else [Ct.GUARD_SAT_TOTAL (clusterOf c),
      Ct.GUARD_UNGUARDED_SAT (clusterOf c), Ct.GUARD_SUSPECT_COUNT (clusterOf c)]) ∧
    s.sameRegs t [] ∧ s.sameMemory t ∧ (∀ d, d ≠ c.val → t.core d = s.core d) ∧ t.engs = s.engs ∧ t.flights = s.flights

/-- Vector instruction `i` of word `w` runs now in Q4 of core `c`, its TYPE code stands for `ty`, and its register groups lie within V31
(R115, R116, R121). -/
abbrev State.vecReady (s : State) (c : CoreId) (i : Instr) (w : VWord) (ty : VTy) (gs : List (VTy × Nat × Nat)) : Prop :=
  s.atHead c 4 i ∧ VTy.ofCode w.ty.val = some ty ∧ ∀ g ∈ gs, groupOk g.1 g.2.1 g.2.2

/-- The command of header `h` applies at once, for partition `p`, which is enabled (R329, R335, R359): the group does not tick, no step runs,
and its queue holds none before it. -/
abbrev State.runsNow (s : State) (h : CmdHdr) (p : Nat) : Prop :=
  s.mustStage h = false ∧ s.boot.fault = none ∧ p = (if s.queuePriv h.q.val then h.part.val else s.queuePart h.q.val) ∧
    s.inForce (Fld.PARTN_CTRL_ENABLE p) = 1

/-- What the completion of a command that runs now is written for (R336). -/
def State.cmdRef (s : State) (h : CmdHdr) : CmdRef := ⟨h.q.val, h.cid, s.tick⟩

end Sys2Proof.Machine
end

