-- ==== Sys2Proof/Certificates/Slice0/Obligations.lean ====
section
/-! DEFINITION. The statements for the provers. -/

open Sys2Proof Sys2Proof.Machine

/-- A step runs the command at the front of the queue (INDEX.md). For every command and every state, one step of the state with the
command at the front of its queue is exec of that command on the state with the queue's rest. The queue is the model's own (log entry 8). -/
def Obligations.FrontCommandRuns : Prop :=
  ∀ (i : Instr) (rest : List Instr) (s : State),
    step { s with pending := i :: rest } = exec i { s with pending := rest }

/-- After reset the fields hold the values of their tables (R15, R58, R393, R252, R189, R360, R438, R418, R162, R114, R221, R222). Right
after reset, fields of every kind hold the value in the Reset column of their table: the tick unit disabled, COLD alone set in
RESET_CAUSE, device, revision and ROM numbers, the placement watermarks, the table thresholds, the recorder's rates, the package in S0,
and of indexed registers one of each; no command waits and the recorder's intake queue is empty. -/
def Obligations.ResetLeavesTableValues : Prop :=
  (∀ p ∈ [(Fld.GARNET_STATUS_STATE, 0), (Fld.BOOT_RESET_CAUSE_COLD, 1), (Fld.BOOT_RESET_CAUSE_SOFTWARE, 0), (Fld.BOOT_ID_DEVICE_ID, 0x0A20),
      (Fld.BOOT_REV_REVISION, 0x10), (Fld.BOOT_ROM_VERSION, 1), (Fld.BOOT_STATE_STATE, 0), (Fld.OBJ_STATUS_FREE_ENTRIES, 65536),
      (Fld.OBJ_WATERMARK_LOW, 4096), (Fld.OBJ_WATERMARK_HIGH, 8192), (Fld.CTAB_CTRL_RAW_THRESHOLD, 97), (Fld.CTAB_CTRL_REUSE_TOL, 10),
      (Fld.PART_PREFILL_FREE_TOKENS, 1048576), (Fld.JSP_RATE_LIMIT, 16), (Fld.JSP_RATE_WINDOW_MS, 1000), (Fld.JSP_CTRL_IBI_CLASS, 4),
      (Fld.JSP_READ_STATUS_STATE, 2), (Fld.PWR_STATUS_STATE, 0), (Fld.PWR_CTRL_STEP_GATE, 1), (Fld.PWR_WAKE_TOL_TOL_US, 0xFFFFFF),
      (Fld.GUARD_WINDOW_TICKS 63, 0x400), (Fld.ENG_LFSR_SEED_SEED 2047, 1), (Fld.CH_STATUS_SPARE_FOR 1535, 0x1F),
      (Fld.STK_THERM_THERM_CAP 11, 100), (Fld.STK_SCRUB_PERIOD_H 0, 4), (Fld.LNK_INJ_CTRL_VC_MASK 15, 7), (Fld.HQ_Q_CFG_SQ_LOG2 255, 4),
      (Fld.CLC_STATUS_POWERED 63, 1)], State.reset.fld p.1 = p.2) ∧
    State.reset.pending = [] ∧ State.reset.intake = []

/-- Only five commands can stop, each exactly where its address or length is none, and none is refused (R191, R448). Whatever the state,
a command other than BURST_READ, BURST_WRITE, SCRUB, BAR2_READ and BAR2_WRITE answers a next state; no command is ever refused.
BURST_READ and SCRUB stop exactly at a stack physical address that does not exist, BURST_WRITE where its bytes leave the memory-side die,
and BAR2_READ and BAR2_WRITE exactly at a length above 4,096 bytes. -/
def Obligations.OnlyFiveCommandsStop : Prop :=
  (∀ (i : Instr) (s : State),
    (∃ t, exec i s = .next t) ∨
    (exec i s = .fault .stackAddress ∧
      ((∃ spa errs, i = .burstRead spa errs) ∨ (∃ spa data, i = .burstWrite spa data) ∨ ∃ spa errs, i = .scrub spa errs)) ∨
    (exec i s = .fault .bar2Length ∧ ((∃ fn ofs len, i = .bar2Read fn ofs len) ∨ ∃ fn ofs data, i = .bar2Write fn ofs data))) ∧
  (∀ spa errs s, exec (.burstRead spa errs) s = .fault .stackAddress ↔ s.spaOk spa = false) ∧
  (∀ spa errs s, exec (.scrub spa errs) s = .fault .stackAddress ↔ s.spaOk spa = false) ∧
  (∀ spa data s, exec (.burstWrite spa data) s = .fault .stackAddress ↔
    (s.dieBytes < spa.toNat % 2 ^ 38 + data.length ∨ s.spaOk spa = false)) ∧
  (∀ fn ofs len s, exec (.bar2Read fn ofs len) s = .fault .bar2Length ↔ 4096 < len.toNat) ∧
  (∀ fn ofs data s, exec (.bar2Write fn ofs data) s = .fault .bar2Length ↔ 4096 < data.length)

/-- The state after reset meets the invariants (R15, R421). After reset every byte memory has its canonical form and the recorder's
intake queue holds no more than its 64 entries. -/
def Obligations.ResetMeetsInvariants : Prop :=
  State.reset.memoriesWf ∧ State.reset.intake.length ≤ 64

/-- Every step keeps the canonical form of every memory and the bound of the intake queue (R421, R427, R5, R191). From every state whose
byte memories (stacks, host, NOR, mailbox buffer, core buffers, cluster caches) have their canonical form and whose recorder intake holds
at most 64 entries, any step that answers a next state leaves such a state again. -/
def Obligations.EveryStepKeepsMemories : Prop :=
  ∀ s t : State, s.memoriesWf → s.intake.length ≤ 64 → step s = .next t → t.memoriesWf ∧ t.intake.length ≤ 64

/-- No step takes back the replay-protected counter of the NOR (R368, R384). Whatever command runs, a root key once written to the
replay-protected counter stays the same key, and the counter with a key never falls: a firmware rollback cannot undo a committed security
version. The premise is the state invariant of EveryStepKeepsMemories. -/
def Obligations.EveryStepKeepsReplayCounter : Prop :=
  ∀ s t : State, s.memoriesWf → s.intake.length ≤ 64 → step s = .next t → rpmcKept s.boot.rpmc t.boot.rpmc

/-- A step takes one command, clock and record only grow, and an empty queue ticks (R243, INDEX.md, 02_tick_and_step_programs.md). A step
that answers a next state leaves exactly the queue's rest waiting; the model's clock and its count of free values do not go back, and
what has left the device stays recorded, in order. With nothing waiting a step goes on: one microsecond passes, and no byte of any
memory, core buffer or cluster cache changes, but for what a mailbox command in progress writes in the NOR and the mailbox buffer (the
model's choice, log entries 4, 8, 9 and 28). -/
def Obligations.StepsGoForward : Prop :=
  (∀ s t : State, s.memoriesWf → s.intake.length ≤ 64 → step s = .next t →
    t.pending = s.pending.tail ∧ s.now ≤ t.now ∧ s.free ≤ t.free ∧ s.outs <+: t.outs) ∧
  ∀ s : State, s.pending = [] → ∃ t, step s = .next t ∧ t.now = s.now + 1 ∧ t.pending = [] ∧ t.mem = s.mem ∧ t.host = s.host ∧
    (∀ c, (t.core c).buf = (s.core c).buf) ∧ (∀ k, (t.cluster k).cache = (s.cluster k).cache) ∧ (s.boot.mails = [] → s.sameMemory t)

/-- Decoding an encoded instruction gives it back (R45, R47, R48, R107, R119, R136, R137, R138). Every instruction that has a word in a
step program decodes back from it, with every operand at every value, on the core it was encoded for: no bit of an encoding is dropped. -/
def Obligations.WordsComeBackFromEncoding : Prop :=
  ∀ (i : Instr) (c : CoreId) (w : BitVec 64), encodeWord i = some (c, w) → (decodeWord c w).map Prod.snd = some i

/-- DISPATCH puts the next instruction into its queue, or waits (R44, R45, R46, R47, R59, R153). With a step running, DISPATCH reads the
next word of what the core dispatches: of its main program, or of its re-run segment until that has ended. The word's instruction goes to
the end of its queue, of the program's or of the segment's, with its index and PROGRAM_ID; PC shows the index, and the count goes on by
one. Beside what the read itself does (its burst, counters and records) no other queue, no other register and no byte changes. While the
queue is full, with 32 instructions or with 8 of a segment, it waits and nothing but the read has happened. STEP_END ends the dispatch of
the program or of the segment. Assumed: the read does not leave a channel failed. -/
def Obligations.DispatchFillsQueues : Prop :=
  (∀ (c : CoreId) (s s1 : State) (w : BitVec 64) (q : Fin 8) (i : Instr),
    s.tickState = stRunning → (s.core c).inSeg = false → s.fld (Fld.SEQ_STATUS_RUNNING c) = 1 → (s.core c).dispatched = false →
    s.codeWord c ((s.core c).prog + 128 + 8 * (s.core c).next) = (some w, s1) → s1.boot.fault = none →
    decodeWord c w = some (.queue q, i) → (s.core c).next + 1 ≠ (s.core c).count →
    (32 ≤ ((s.core c).queue q).length → exec (.dispatch c) s = .next s1) ∧
    (((s.core c).queue q).length < 32 →
      ∃ t, exec (.dispatch c) s = .next t ∧
        (t.core c).queue q = (s.core c).queue q ++ [⟨i, (s.core c).next, (s.core c).pid⟩] ∧
        (∀ p : Fin 8, p ≠ q → (t.core c).queue p = (s.core c).queue p) ∧ (∀ p, (t.core c).segQueue p = (s.core c).segQueue p) ∧
        (t.core c).next = (s.core c).next + 1 ∧
        t.fld (Fld.SEQ_PC_PC c) = (s.core c).next % 2 ^ 20 ∧ s1.sameRegs t [(Fld.SEQ_PC_PC c).addr] ∧ s1.sameMemory t)) ∧
  (∀ (c : CoreId) (s s1 : State) (w : BitVec 64) (g : SegRun) (q : Fin 8) (i : Instr),
    s.tickState = stRunning → (s.core c).seg = some g → g.ended = false → g.begun = true → g.stopped = false →
    s.codeWord c (g.base + 128 + 8 * g.next) = (some w, s1) → s1.boot.fault = none →
    decodeWord c w = some (.queue q, i) → g.next + 1 ≠ g.count →
    (8 ≤ ((s.core c).segQueue q).length → exec (.dispatch c) s = .next s1) ∧
    (((s.core c).segQueue q).length < 8 →
      ∃ t, exec (.dispatch c) s = .next t ∧
        (t.core c).segQueue q = (s.core c).segQueue q ++ [⟨i, g.next, g.pid⟩] ∧
        (∀ p : Fin 8, p ≠ q → (t.core c).segQueue p = (s.core c).segQueue p) ∧ (∀ p, (t.core c).queue p = (s.core c).queue p) ∧
        (t.core c).next = (s.core c).next ∧ (t.core c).seg.map SegRun.next = some (g.next + 1) ∧
        t.fld (Fld.SEQ_PC_PC c) = g.next % 2 ^ 20 ∧ s1.sameRegs t [(Fld.SEQ_PC_PC c).addr] ∧ s1.sameMemory t)) ∧
  (∀ (c : CoreId) (s s1 : State) (w : BitVec 64),
    s.tickState = stRunning → (s.core c).inSeg = false → s.fld (Fld.SEQ_STATUS_RUNNING c) = 1 → (s.core c).dispatched = false →
    s.codeWord c ((s.core c).prog + 128 + 8 * (s.core c).next) = (some w, s1) → s1.boot.fault = none →
    decodeWord c w = some (.stop, .stepEnd c) →
    ∃ t, exec (.dispatch c) s = .next t ∧ (t.core c).dispatched = true ∧ (t.core c).q = (s.core c).q) ∧
  (∀ (c : CoreId) (s s1 : State) (w : BitVec 64) (g : SegRun),
    s.tickState = stRunning → (s.core c).seg = some g → g.ended = false → g.begun = true → g.stopped = false →
    s.codeWord c (g.base + 128 + 8 * g.next) = (some w, s1) → s1.boot.fault = none → decodeWord c w = some (.stop, .stepEnd c) →
    ∃ t, exec (.dispatch c) s = .next t ∧ (t.core c).seg = some { g with next := g.next + 1, stopped := true })

/-- NOP, LAYER and STEP_END (R47, R53, R55, R59, R153). NOP changes nothing but the hang count, which returns to 0. LAYER at the head of
a queue of the main program puts its number in force in that queue. STEP_END, once the queues are empty, the expanders idle and every
signal arrived, clears RUNNING and sets ENDED; with counters out of balance it sets UNBALANCED as well. STEP_END of a re-run segment
whose own queues are empty ends the segment, and PC shows the main program's index again. No byte of memory changes. -/
def Obligations.NopLayerStepEndEffects : Prop :=
  (∀ (c : CoreId) (s : State), ∃ t, exec (.nop c) s = .next t ∧ t.core c = { s.core c with idleUs := 0 } ∧
    (∀ d, d ≠ c.val → t.core d = s.core d) ∧ { t with cores := s.cores } = s) ∧
  (∀ (c : CoreId) (q : QId) (n : BitVec 16) (s : State), s.atHead c q (.layer c q n) → (s.core c).seg = none →
    ∃ t, exec (.layer c q n) s = .next t ∧ NMap.get 0xFFFF#16 (t.core c).layer q = n ∧
      (∀ p : QId, p ≠ q → NMap.get 0xFFFF#16 (t.core c).layer p = NMap.get 0xFFFF#16 (s.core c).layer p) ∧
      s.sameRegs t [] ∧ s.sameMemory t) ∧
  (∀ (c : CoreId) (s : State), (s.core c).seg = none → (s.tickState = stRunning → (s.core c).dispatched = true) → s.mayEnd c →
    ∃ t, exec (.stepEnd c) s = .next t ∧ t.fld (Fld.SEQ_STATUS_RUNNING c) = 0 ∧ t.fld (Fld.SEQ_STATUS_ENDED c) = 1 ∧
      (s.balanced c = false → t.fld (Fld.SEQ_ERROR_UNBALANCED c) = 1) ∧
      (s.balanced c = true → t.rd (Rg.SEQ_ERROR c) = s.rd (Rg.SEQ_ERROR c)) ∧ s.sameMemory t) ∧
  (∀ (c : CoreId) (g : SegRun) (s : State), (s.core c).seg = some g → g.ended = false → g.stopped = true →
    (∀ q < 8, (s.core c).segQueue q = []) →
    ∃ t, exec (.stepEnd c) s = .next t ∧ (t.core c).seg = some { g with ended := true } ∧ (t.core c).q = (s.core c).q ∧
      t.fld (Fld.SEQ_PC_PC c) = g.mainPc % 2 ^ 20 ∧ s.sameRegs t [(Fld.SEQ_PC_PC c).addr] ∧ s.sameMemory t)

/-- WAIT subtracts, SIGNAL and CREDIT_RETURN set out, and a signal that arrives adds (R49, R50, R52, R53, R136). WAIT at the head of its
queue subtracts its amount from the counter where that holds it, the heads of lower-numbered queues being served first, and otherwise
holds the queue: nothing changes. SIGNAL and CREDIT_RETURN put one addition on its way to the target's counter. No other register, no
byte and no counter of events changes. SIGNAL_ARRIVAL takes the signal off the way and, where the sum stays within 0xFFFF, the target's
counter gains the amount; on a core that has ended its step and runs no re-run segment it adds nothing and sets LATE_SIGNAL (log entry 68
for a core that still runs a segment). -/
def Obligations.TokensMoveByAmount : Prop :=
  (∀ (c : CoreId) (o : TokenOp) (s : State), s.atHead c o.queue (.wait c o) → o.amount ≠ 0#8 →
    o.amount.toNat ≤ s.leftFor c o.queue (tokFld c o.counter) →
    ∃ t, exec (.wait c o) s = .next t ∧ t.fld (tokFld c o.counter) = s.fld (tokFld c o.counter) - o.amount.toNat ∧
      (∀ n : Fin 64, n ≠ o.counter → t.fld (tokFld c n) = s.fld (tokFld c n)) ∧
      s.sameRegs t [(tokFld c o.counter).addr] ∧ s.sameMemory t ∧ t.ctrs = s.ctrs ∧ t.flights = s.flights) ∧
  (∀ (c : CoreId) (o : TokenOp) (s : State), o.amount ≠ 0#8 → s.leftFor c o.queue (tokFld c o.counter) < o.amount.toNat →
    exec (.wait c o) s = .next s) ∧
  (∀ (c : CoreId) (o : TokenOp) (s : State), s.atHead c o.queue (.signal c o) → o.amount ≠ 0#8 →
    ∃ t, exec (.signal c o) s = .next t ∧
      t.flights = s.flights ++ [⟨some c, TokenOp.dst c o, .token, o.counter, o.amount.toNat, sigCycles c (TokenOp.dst c o)⟩] ∧
      s.sameRegs t [] ∧ s.sameMemory t ∧ t.ctrs = s.ctrs) ∧
  (∀ (c : CoreId) (o : TokenOp) (s : State), s.atHead c o.queue (.creditReturn c o) → o.amount ≠ 0#8 → o.counter.val < 32 →
    ∃ t, exec (.creditReturn c o) s = .next t ∧
      t.flights = s.flights ++ [⟨some c, TokenOp.dst c o, .credit, o.counter, o.amount.toNat, sigCycles c (TokenOp.dst c o)⟩] ∧
      s.sameRegs t [] ∧ s.sameMemory t ∧ t.ctrs = s.ctrs) ∧
  (∀ (i : Nat) (f : Flight) (s : State), s.flights[i]? = some f →
    (s.fld (Fld.SEQ_STATUS_ENDED f.dst) = 0 ∨ (s.core f.dst).inSeg = true) → s.fld (sigFld f.dst f.kind f.ctr) + f.amt ≤ 0xFFFF →
    ∃ t, exec (.signalArrival i) s = .next t ∧ t.flights = s.flights.eraseIdx i ∧
      t.fld (sigFld f.dst f.kind f.ctr) = s.fld (sigFld f.dst f.kind f.ctr) + f.amt ∧
      s.sameRegs t [(sigFld f.dst f.kind f.ctr).addr] ∧ s.sameMemory t) ∧
  ∀ (i : Nat) (f : Flight) (s : State), s.flights[i]? = some f → f.dst < 512 → s.fld (Fld.SEQ_STATUS_ENDED f.dst) = 1 → (s.core f.dst).inSeg = false →
    ∃ t, exec (.signalArrival i) s = .next t ∧ t.flights = s.flights.eraseIdx i ∧ t.fld (Fld.SEQ_ERROR_LATE_SIGNAL f.dst) = 1 ∧
      t.tickState = s.tickState ∧ s.sameRegs t [Rg.SEQ_ERROR f.dst, (Fld.SEQ_ERROR_PC_ERROR_PC f.dst).addr] ∧ s.sameMemory t

/-- A counter stops at 0xFFFF and the step is abandoned (R51). An addition that would carry a token or credit counter past 0xFFFF, by a
signal, credit return or verdict that arrives or by a tensor message or a credit message whose payload is in place, leaves the counter at
0xFFFF, sets TOKEN_OVERFLOW or CREDIT_OVERFLOW of its core and abandons the step that is running. -/
def Obligations.OverflowingCounterStops : Prop :=
  (∀ (i : Nat) (f : Flight) (s : State), s.flights[i]? = some f → (s.fld (Fld.SEQ_STATUS_ENDED f.dst) = 0 ∨ (s.core f.dst).inSeg = true) →
    f.dst < 512 → f.ctr < (match f.kind with | .token => 64 | .credit => 32) →
    0xFFFF < s.fld (sigFld f.dst f.kind f.ctr) + f.amt →
    ∃ t, exec (.signalArrival i) s = .next t ∧ t.fld (sigFld f.dst f.kind f.ctr) = 0xFFFF ∧
      t.fld (match f.kind with | .token => Fld.SEQ_ERROR_TOKEN_OVERFLOW f.dst | .credit => Fld.SEQ_ERROR_CREDIT_OVERFLOW f.dst) = 1 ∧
      (s.tickState = stRunning → t.tickState = stAbandoning)) ∧
  ∀ (p : Option PortId) (m : TensorMsg) (s : State), m.hdr.destMember.val = s.me → (∀ q, p = some q → (s.port q).blocked = []) →
    s.tickState ≠ stDisabled → m.hdr.groupId.toNat = s.fld Fld.GARNET_GROUP_GROUP_ID → m.hdr.tick = s.tickNo →
    m.hdr.part.val = s.partOf m.hdr.destCore → (m.hdr.wire.val ≠ 3 ∧ m.data ≠ [] ∨ m.hdr.wire.val = 3 ∧ m.data = [] ∧ m.hdr.token.val < 32) →
    m.hdr.destAddr.toNat + m.hdr.unitsM1.toNat < (if m.hdr.toCache then 65536 else 32768) →
    (s.fld (Fld.SEQ_STATUS_ENDED m.hdr.destCore) = 0 ∨ (s.core m.hdr.destCore).inSeg = true) →
    let k := if m.hdr.wire.val = 3 then SigKind.credit else .token
    0xFFFF < s.fld (sigFld m.hdr.destCore k m.hdr.token) + m.hdr.amount.toNat →
    ∃ t, exec (.tensorMessage p m) s = .next t ∧ t.fld (sigFld m.hdr.destCore k m.hdr.token) = 0xFFFF ∧
      t.fld (match k with | .token => Fld.SEQ_ERROR_TOKEN_OVERFLOW m.hdr.destCore | .credit => Fld.SEQ_ERROR_CREDIT_OVERFLOW m.hdr.destCore) = 1 ∧
      (s.tickState = stRunning → t.tickState = stAbandoning)

/-- READ and WRITE move whole units between cluster cache and core buffer (R138, R217, R219). READ at the head of Q7, with its ranges
inside both memories and no unit of bad parity, brings the cache bytes into the core buffer and changes no other byte of the buffer.
WRITE, with no unit of bad parity in its buffer range, draws its credits and brings the buffer bytes into the cache. Neither changes any
other memory. -/
def Obligations.CacheReadAndWriteMoveUnits : Prop :=
  (∀ (c : CoreId) (o : CacheOp) (s : State), s.atHead c 7 (.read c o) → o.ok o.units →
    (s.cluster o.cluster).badIn o.cc.toNat o.units = [] → (s.cluster o.cluster).cache.wf →
    ∃ t, exec (.read c o) s = .next t ∧
      (∀ i, i < 64 * o.units → (t.core c).buf.rd (o.cba + i) = (s.cluster o.cluster).cache.rd (o.cca + i)) ∧
      (∀ a, a < o.cba ∨ o.cba + 64 * o.units ≤ a → (t.core c).buf.rd a = (s.core c).buf.rd a) ∧
      (∀ k, (t.cluster k).cache = (s.cluster k).cache) ∧ (∀ d, d ≠ c.val → t.core d = s.core d) ∧ t.mem = s.mem ∧ t.host = s.host ∧
      s.sameRegs t []) ∧
  (∀ (c : CoreId) (o : CacheOp) (s : State), s.atHead c 7 (.write c o) → o.ok o.units → o.credits ≤ s.leftFor c 7 (credFld c o.credit) →
    (s.core c).bad o.cba (64 * o.units) = false → (s.core c).buf.wf →
    ∃ t, exec (.write c o) s = .next t ∧ t.fld (credFld c o.credit) = s.fld (credFld c o.credit) - o.credits ∧
      (∀ i, i < 64 * o.units → (t.cluster o.cluster).cache.rd (o.cca + i) = (s.core c).buf.rd (o.cba + i)) ∧
      (∀ a, a < o.cca ∨ o.cca + 64 * o.units ≤ a → (t.cluster o.cluster).cache.rd a = (s.cluster o.cluster).cache.rd a) ∧
      (∀ k, k ≠ o.cluster.val → (t.cluster k).cache = (s.cluster k).cache) ∧ (∀ d, (t.core d).buf = (s.core d).buf) ∧
      t.mem = s.mem ∧ t.host = s.host ∧ s.sameRegs t [(credFld c o.credit).addr])

/-- ADD, MAX and FETCH_ADD update 32-bit words of the cluster cache (R138, R139, R219). With no unit of bad parity in their buffer range,
ADD and MAX at the head of Q7 draw their credits and leave in every word of every good unit of the cache the sum modulo 2^32, or the
larger as signed numbers, of the word and the buffer's word. FETCH_ADD adds the buffer's word to the cache's word and returns the old one
into the buffer's word. No other byte of any cache, core buffer, stack or host memory changes. -/
def Obligations.CacheCombineUpdatesWords : Prop :=
  (∀ (c : CoreId) (o : CacheOp) (s : State) (i : Instr) (op : BitVec 32 → BitVec 32 → BitVec 32),
    (i = .add c o ∧ op = (fun a b => a + b)) ∨ (i = .max c o ∧ op = fun a b => if a.toInt < b.toInt then b else a) →
    s.atHead c 7 i → o.ok o.units → o.credits ≤ s.leftFor c 7 (credFld c o.credit) → (s.core c).bad o.cba (64 * o.units) = false →
    (s.cluster o.cluster).badIn o.cc.toNat o.units = [] →
    ∃ t, exec i s = .next t ∧ t.fld (credFld c o.credit) = s.fld (credFld c o.credit) - o.credits ∧
      (∀ j, j < 16 * o.units → BitVec.ofNat 32 ((t.cluster o.cluster).cache.rdLe (o.cca + 4 * j) 4) =
        op (BitVec.ofNat 32 ((s.cluster o.cluster).cache.rdLe (o.cca + 4 * j) 4)) (BitVec.ofNat 32 ((s.core c).buf.rdLe (o.cba + 4 * j) 4))) ∧
      (∀ a, a < o.cca ∨ o.cca + 64 * o.units ≤ a → (t.cluster o.cluster).cache.rd a = (s.cluster o.cluster).cache.rd a) ∧
      (∀ k, k ≠ o.cluster.val → (t.cluster k).cache = (s.cluster k).cache) ∧ (∀ d, (t.core d).buf = (s.core d).buf) ∧ t.mem = s.mem ∧
      t.host = s.host ∧ s.sameRegs t [(credFld c o.credit).addr]) ∧
  (∀ (c : CoreId) (o : CacheOp) (s : State), s.atHead c 7 (.fetchAdd c o) → o.ok 1 → (s.core c).bad (o.cba + 4 * o.word.val) 4 = false →
    (s.cluster o.cluster).cacheBad.contains o.cc.toNat = false →
    ∃ t, exec (.fetchAdd c o) s = .next t ∧
      (t.cluster o.cluster).cache.rdLe (o.cca + 4 * o.word.val) 4 =
        ((s.cluster o.cluster).cache.rdLe (o.cca + 4 * o.word.val) 4 + (s.core c).buf.rdLe (o.cba + 4 * o.word.val) 4) % 2 ^ 32 ∧
      (t.core c).buf.rdLe (o.cba + 4 * o.word.val) 4 = (s.cluster o.cluster).cache.rdLe (o.cca + 4 * o.word.val) 4 ∧
      (∀ a, a < o.cca + 4 * o.word.val ∨ o.cca + 4 * o.word.val + 4 ≤ a →
        (t.cluster o.cluster).cache.rd a = (s.cluster o.cluster).cache.rd a) ∧ (∀ k, k ≠ o.cluster.val → (t.cluster k).cache = (s.cluster k).cache) ∧
      (∀ a, a < o.cba + 4 * o.word.val ∨ o.cba + 4 * o.word.val + 4 ≤ a → (t.core c).buf.rd a = (s.core c).buf.rd a) ∧
      (∀ d, d ≠ c.val → t.core d = s.core d) ∧ t.mem = s.mem ∧ t.host = s.host ∧ s.sameRegs t [])

/-- The guard decides on a closed slot: pass, re-run or skip (R148, R149, R150, R151, R155, R156). In a running step, GUARD_DECISION on a
slot that awaits its decision takes it off the list. With the guard off, RERUN_EN 0 or fewer counted saturations than the threshold the
slot passes: its verdict sets out to VERDICT_TOKEN of every core in CORE_MASK where VERDICT_EN is 1. Otherwise, with the cost inside the
margin left, the slot is queued to run again and the margin falls by the cost. A mandatory re-run past the margin is queued and takes all
of it. With neither margin nor a mandatory re-run the slot is marked suspect, the skip is counted and recorded, and the verdict sets out
all the same. -/
def Obligations.GuardDecidesOnce : Prop :=
  (∀ (k : ClusterId) (l : Fin 512) (s : State), s.tickState = stRunning → (s.cluster k).closing.contains l.val = true →
    (s.inForce (Fld.GUARD_CTRL_ENABLE k) = 0 ∨ s.slotRerunEn k l = false ∨
      countedSats (s.slotEnt k l) (NMap.get {} (s.cluster k).cur l) < slotFld 32 16 (s.slotEnt k l)) →
    ∃ t, exec (.guardDecision k l) s = .next t ∧ (t.cluster k).closing = (s.cluster k).closing.erase l.val ∧
      t.flights = s.flights ++ (if bvBit 2 (s.slotEnt k l) then
        (slotCores (s.slotEnt k l)).map fun i => ⟨none, 8 * k + i, .token, slotFld 16 6 (s.slotEnt k l), 1, 8⟩ else []) ∧
      s.sameRegs t [] ∧ s.sameMemory t) ∧
  (∀ (k : ClusterId) (l : Fin 512) (s : State), s.tickState = stRunning → (s.cluster k).closing.contains l.val = true →
    s.inForce (Fld.GUARD_CTRL_ENABLE k) = 1 → s.slotRerunEn k l = true →
    slotFld 32 16 (s.slotEnt k l) ≤ countedSats (s.slotEnt k l) (NMap.get {} (s.cluster k).cur l) →
    slotFld 48 16 (s.slotEnt k l) ≤ s.fld (Fld.GUARD_MARGIN_LEFT_LEFT_US k) →
    ∃ t, exec (.guardDecision k l) s = .next t ∧ (t.cluster k).rerunQ = (s.cluster k).rerunQ ++ [l.val] ∧
      (t.cluster k).closing = (s.cluster k).closing.erase l.val ∧
      t.fld (Fld.GUARD_MARGIN_LEFT_LEFT_US k) = s.fld (Fld.GUARD_MARGIN_LEFT_LEFT_US k) - slotFld 48 16 (s.slotEnt k l) ∧
      t.flights = s.flights ∧ s.sameRegs t [(Fld.GUARD_MARGIN_LEFT_LEFT_US k).addr] ∧ s.sameMemory t) ∧
  (∀ (k : ClusterId) (l : Fin 512) (s : State), s.tickState = stRunning → (s.cluster k).closing.contains l.val = true →
    s.inForce (Fld.GUARD_CTRL_ENABLE k) = 1 → s.slotRerunEn k l = true →
    slotFld 32 16 (s.slotEnt k l) ≤ countedSats (s.slotEnt k l) (NMap.get {} (s.cluster k).cur l) →
    s.fld (Fld.GUARD_MARGIN_LEFT_LEFT_US k) < slotFld 48 16 (s.slotEnt k l) → bvBit 3 (s.slotEnt k l) = true →
    ∃ t, exec (.guardDecision k l) s = .next t ∧ (t.cluster k).rerunQ = (s.cluster k).rerunQ ++ [l.val] ∧
      (t.cluster k).closing = (s.cluster k).closing.erase l.val ∧
      t.fld (Fld.GUARD_MARGIN_LEFT_LEFT_US k) = 0 ∧ t.flights = s.flights ∧ s.sameRegs t [(Fld.GUARD_MARGIN_LEFT_LEFT_US k).addr] ∧ s.sameMemory t) ∧
  (∀ (k : ClusterId) (l : Fin 512) (s : State), s.tickState = stRunning → (s.cluster k).closing.contains l.val = true →
    s.inForce (Fld.GUARD_CTRL_ENABLE k) = 1 → s.slotRerunEn k l = true →
    slotFld 32 16 (s.slotEnt k l) ≤ countedSats (s.slotEnt k l) (NMap.get {} (s.cluster k).cur l) →
    s.fld (Fld.GUARD_MARGIN_LEFT_LEFT_US k) < slotFld 48 16 (s.slotEnt k l) → bvBit 3 (s.slotEnt k l) = false →
    ∃ t, exec (.guardDecision k l) s = .next t ∧ t.ctr (Ct.GUARD_EXHAUST_COUNT k) = (s.ctr (Ct.GUARD_EXHAUST_COUNT k)).plus 1 ∧
      t.told .rerunSkipped k l (NMap.get {} (s.cluster k).cur l).rows.toNat ∧ (t.cluster k).rerunQ = (s.cluster k).rerunQ ∧
      (t.cluster k).closing = (s.cluster k).closing.erase l.val ∧ (NMap.get {} (t.cluster k).cur l).suspect = true ∧
      (bvBit 4 (s.slotEnt k l) = true → t.marks.suspectAll = true) ∧
      (bvBit 4 (s.slotEnt k l) = false → t.marks.suspectRows = s.marks.suspectRows ++
        (bitsSet (NMap.get {} (s.cluster k).cur l).rows).map fun r => slotFld 64 16 (s.slotEnt k l) + r) ∧
      t.flights = s.flights ++ (if bvBit 2 (s.slotEnt k l) then
        (slotCores (s.slotEnt k l)).map fun i => ⟨none, 8 * k + i, .token, slotFld 16 6 (s.slotEnt k l), 1, 8⟩ else []) ∧
      s.sameRegs t [] ∧ s.sameMemory t)

/-- A re-run starts, begins its segments and completes (R150, R152, R153, R154, R160). In a running step RERUN_START takes the first
waiting slot where none is in progress, sets RERUN_ACTIVE and ACTIVE_SLOT, counts and gives every core in CORE_MASK a segment.
RERUN_SEGMENT_START reads the header of a segment that is pinned throughout and begins it. RERUN_COMPLETE, once every segment has ended,
clears RERUN_ACTIVE and the segments and sends the slot's verdict where VERDICT_EN is 1. GUARD_WINDOW_END clears the window's totals. -/
def Obligations.RerunRunsAndEnds : Prop :=
  (∀ (k : ClusterId) (l : Nat) (rest : List Nat) (s : State), (s.cluster k).rerunQ = l :: rest → l < 512 → s.tickState = stRunning →
    s.fld (Fld.GUARD_STATUS_RERUN_ACTIVE k) = 0 →
    ∃ t, exec (.rerunStart k) s = .next t ∧ (t.cluster k).rerunQ = rest ∧ t.fld (Fld.GUARD_STATUS_RERUN_ACTIVE k) = 1 ∧
      t.fld (Fld.GUARD_STATUS_ACTIVE_SLOT k) = l ∧ t.ctr (Ct.GUARD_RERUN_COUNT k) = (s.ctr (Ct.GUARD_RERUN_COUNT k)).plus 1 ∧
      (∀ i ∈ slotCores (s.slotEnt k l), ∃ g, (t.core (8 * k + i)).seg = some g ∧ g.slot = l ∧ g.begun = false ∧
        g.base = segBase (s.slotEnt k l) i) ∧ s.sameMemory t) ∧
  (∀ (c : CoreId) (g : SegRun) (h : BitVec 64) (s s1 : State), (s.core c).seg = some g → g.begun = false →
    s.codeWord c g.base = (some h, s1) → 0 < bvGet 0 32 h → bvGet 0 32 h ≤ 1048576 → s1.pinnedRange g.base (128 + 8 * bvGet 0 32 h) = true →
    s1.boot.fault = none →
    ∃ t, exec (.rerunSegmentStart c) s = .next t ∧
      (t.core c).seg = some { g with begun := true, count := bvGet 0 32 h, pid := BitVec.ofNat 16 (bvGet 32 16 h) } ∧
      s1.sameRegs t [] ∧ s1.sameMemory t) ∧
  (∀ (k : ClusterId) (s : State), s.fld (Fld.GUARD_STATUS_RERUN_ACTIVE k) = 1 →
    (∀ i ∈ slotCores (s.slotEnt k (s.fld (Fld.GUARD_STATUS_ACTIVE_SLOT k))), ∃ g, (s.core (8 * k + i)).seg = some g ∧ g.ended = true) →
    ∃ t, exec (.rerunComplete k) s = .next t ∧ t.fld (Fld.GUARD_STATUS_RERUN_ACTIVE k) = 0 ∧
      (∀ i ∈ slotCores (s.slotEnt k (s.fld (Fld.GUARD_STATUS_ACTIVE_SLOT k))), (t.core (8 * k + i)).seg = none) ∧
      (let e := s.slotEnt k (s.fld (Fld.GUARD_STATUS_ACTIVE_SLOT k))
       t.flights = s.flights ++ if bvBit 2 e then (slotCores e).map fun i => ⟨none, 8 * k + i, .token, slotFld 16 6 e, 1, 8⟩ else []) ∧
      s.sameRegs t [Rg.GUARD_STATUS k] ∧ s.sameMemory t) ∧
  (∀ (k : ClusterId) (s : State), s.inForce (Fld.GUARD_CTRL_ENABLE k) = 1 → s.inForce (Fld.GUARD_WINDOW_TICKS k) ≤ (s.cluster k).winSteps →
    ∃ t, exec (.guardWindowEnd k) s = .next t ∧ (t.cluster k).wins = [] ∧ (t.cluster k).winSteps = 0 ∧ (∀ j, j ≠ k.val → t.cluster j = s.cluster j))

/-- Each readout value falls into the bin of its magnitude (R144). For every value from −32,768 to 32,767: bin 0 below magnitude 2, bin b
for magnitudes from 2^b to just below 2^(b+1), bin 14 from 16,384 up, and bin 15 for exactly 32,767 and −32,768. -/
def Obligations.ReadoutValuesFallIntoBins : Prop :=
  ∀ x : Int, -32768 ≤ x → x ≤ 32767 →
    (valueBin x = 0 ↔ x.natAbs < 2) ∧
    (∀ b : Nat, 1 ≤ b → b ≤ 13 → (valueBin x = b ↔ 2 ^ b ≤ x.natAbs ∧ x.natAbs < 2 ^ (b + 1))) ∧
    (valueBin x = 14 ↔ 16384 ≤ x.natAbs ∧ -32767 ≤ x ∧ x ≤ 32766) ∧ (valueBin x = 15 ↔ x = 32767 ∨ x = -32768)

/-- Lane operations of two registers (R117, R118, R120, R122, R123, R140, R141). Each of the 11 two-register lane instructions and the
four register shifts, standing ready with its groups inside V31, writes at every active element of VD the value of its table row (the
operand order, wrapping, saturation and rounding as given there) and leaves every other element of VD, every other register, every mask
and every other part of the machine as it was; its cycles and elements are counted. -/
def Obligations.VectorLaneOperations : Prop :=
  (∀ (c : CoreId) (w : VWord) (s : State) (ty : VTy) (i : Instr) (op : Int → Int → Int) (cost : Nat),
    (i, op, cost) ∈ [(Instr.vadd c w, (fun a b => wrapW ty.bits (a + b)), costLane w),
      (Instr.vsub c w, (fun a b => wrapW ty.bits (a - b)), costLane w), (Instr.vadds c w, (fun a b => satW ty.bits (a + b)), costLane w),
      (Instr.vsubs c w, (fun a b => satW ty.bits (a - b)), costLane w), (Instr.vmul c w, (fun a b => wrapW ty.bits (a * b)), costMul w),
      (Instr.vmulsh c w, (fun a b => satW ty.bits (rne (a * b) (2 ^ immF w 0 6))), costMul w),
      (Instr.vmin c w, (fun a b => min a b), costLane w), (Instr.vmax c w, (fun a b => max a b), costLane w),
      (Instr.vand c w, (fun a b => (BitVec.ofInt ty.bits a &&& BitVec.ofInt ty.bits b).toInt), costLane w),
      (Instr.vor c w, (fun a b => (BitVec.ofInt ty.bits a ||| BitVec.ofInt ty.bits b).toInt), costLane w),
      (Instr.vxor c w, (fun a b => (BitVec.ofInt ty.bits a ^^^ BitVec.ofInt ty.bits b).toInt), costLane w)] →
    s.vecReady c i w ty [(ty, w.vd, nOf w), (ty, w.va, nOf w), (ty, w.vb, nOf w)] →
    let f := (s.core c).vec
    ∃ t, exec i s = .next t ∧
      f.wrote (t.core c).vec ty w.vd (activeOf f w) (fun j => op (f.get ty w.va j) (f.get ty w.vb j)) ∧
      s.vecDone t c cost (activeOf f w).length 0) ∧
  (∀ (c : CoreId) (w : VWord) (s : State) (ty : VTy) (i : Instr) (op : Int → Nat → Int),
    (i, op) ∈ [(Instr.vshl c w, fun a n => if ty.bits ≤ n then 0 else wrapW ty.bits (a * 2 ^ n)),
      (Instr.vsra c w, fun a n => if ty.bits ≤ n then (if a < 0 then -1 else 0) else a / 2 ^ n),
      (Instr.vsrr c w, fun a n => if ty.bits ≤ n then 0 else rne a (2 ^ n)),
      (Instr.vshls c w, fun a n => satW ty.bits (a * 2 ^ n))] →
    s.vecReady c i w ty [(ty, w.vd, nOf w), (ty, w.va, nOf w), (ty, w.vb, nOf w)] →
    let f := (s.core c).vec
    ∃ t, exec i s = .next t ∧
      f.wrote (t.core c).vec ty w.vd (activeOf f w) (fun j => op (f.get ty w.va j) (f.getU ty w.vb j % 256)) ∧
      s.vecDone t c (costLane w) (activeOf f w).length 0)

/-- Lane operations of a register and the immediate, or of one register (R117, R118, R119, R120, R122, R123, R129, R140, R141). The 11
immediate lane instructions, with b the sign-extended IMM reduced to the type (c of 13 bits for VMULSHI), the four immediate shifts by
IMM[7:0], and VMOV, VABS, VNEG, VCLS and VLUT write their table's value at every active element of VD, and leave everything else as it
was. -/
def Obligations.VectorImmediateOperations : Prop :=
  (∀ (c : CoreId) (w : VWord) (s : State) (ty : VTy) (i : Instr) (op : Int → Int) (cost : Nat),
    (i, op, cost) ∈ [(Instr.vaddi c w, (fun a => wrapW ty.bits (a + immB ty w)), costLane w),
      (Instr.vsubi c w, (fun a => wrapW ty.bits (a - immB ty w)), costLane w), (Instr.vaddsi c w, (fun a => satW ty.bits (a + immB ty w)), costLane w),
      (Instr.vsubsi c w, (fun a => satW ty.bits (a - immB ty w)), costLane w), (Instr.vmuli c w, (fun a => wrapW ty.bits (a * immB ty w)), costMul w),
      (Instr.vmulshi c w, (fun a => satW ty.bits (rne (a * sx 13 (immF w 6 13)) (2 ^ immF w 0 6))), costMul w),
      (Instr.vmini c w, (fun a => min a (immB ty w)), costLane w), (Instr.vmaxi c w, (fun a => max a (immB ty w)), costLane w),
      (Instr.vandi c w, (fun a => (BitVec.ofInt ty.bits a &&& BitVec.ofInt ty.bits (immB ty w)).toInt), costLane w),
      (Instr.vori c w, (fun a => (BitVec.ofInt ty.bits a ||| BitVec.ofInt ty.bits (immB ty w)).toInt), costLane w),
      (Instr.vxori c w, (fun a => (BitVec.ofInt ty.bits a ^^^ BitVec.ofInt ty.bits (immB ty w)).toInt), costLane w),
      (Instr.vshli c w, (fun a => if ty.bits ≤ immF w 0 8 then 0 else wrapW ty.bits (a * 2 ^ immF w 0 8)), costLane w),
      (Instr.vsrai c w, (fun a => if ty.bits ≤ immF w 0 8 then (if a < 0 then -1 else 0) else a / 2 ^ immF w 0 8), costLane w),
      (Instr.vsrri c w, (fun a => if ty.bits ≤ immF w 0 8 then 0 else rne a (2 ^ immF w 0 8)), costLane w),
      (Instr.vshlsi c w, (fun a => satW ty.bits (a * 2 ^ immF w 0 8)), costLane w),
      (Instr.vmov c w, (fun a => a), costLane w), (Instr.vabs c w, (fun a => satW ty.bits a.natAbs), costLane w),
      (Instr.vneg c w, (fun a => satW ty.bits (-a)), costLane w),
      (Instr.vlut c w, (fun a => satW ty.bits (lutValue ((s.core c).vec.lut (immF w 16 3)) (immF w 11 5) (sx 9 (immF w 2 9)) a)), costPer 6 64 w)] →
    s.vecReady c i w ty [(ty, w.vd, nOf w), (ty, w.va, nOf w)] →
    let f := (s.core c).vec
    ∃ t, exec i s = .next t ∧ f.wrote (t.core c).vec ty w.vd (activeOf f w) (fun j => op (f.get ty w.va j)) ∧
      s.vecDone t c cost (activeOf f w).length 0) ∧
  (∀ (c : CoreId) (w : VWord) (s : State) (ty : VTy), s.vecReady c (.vcls c w) w ty [(ty, w.vd, nOf w), (ty, w.va, nOf w)] →
    let f := (s.core c).vec
    ∃ t, exec (.vcls c w) s = .next t ∧ s.vecDone t c (costLane w) (activeOf f w).length 0 ∧
      (∀ j ∈ activeOf f w, ∃ n : Nat, (t.core c).vec.get ty w.vd j = n ∧ n < ty.bits ∧
        (∀ k, ty.bits - 1 - n ≤ k → k < ty.bits → (f.getU ty w.va j).testBit k = (f.getU ty w.va j).testBit (ty.bits - 1)) ∧
        (n + 1 < ty.bits → (f.getU ty w.va j).testBit (ty.bits - 2 - n) ≠ (f.getU ty w.va j).testBit (ty.bits - 1))))

/-- VSPLAT, VIOTA, VBCAST, VSPLATHI and VRAND fill a register (R117, R118, R119, R122, R133, R134, R140, R141). VSPLAT writes b, VIOTA i
+ b wrapped, VBCAST element IMM[11:0] of VA, VSPLATHI the upper halves of I32 elements, and VRAND the top bits of rand32 of the tick, the
core, the stream and the counter 4,096 × IMM[18:16] + i, at every active element of VD; nothing else changes. -/
def Obligations.VectorGenerators : Prop :=
  (∀ (c : CoreId) (w : VWord) (s : State) (ty : VTy) (i : Instr) (g : Nat → Int),
    (i, g) ∈ [(Instr.vsplat c w, fun (_ : Nat) => immB ty w), (Instr.viota c w, fun (j : Nat) => wrapW ty.bits ((j : Int) + immB ty w))] →
    s.vecReady c i w ty [(ty, w.vd, nOf w)] →
    let f := (s.core c).vec
    ∃ t, exec i s = .next t ∧ f.wrote (t.core c).vec ty w.vd (activeOf f w) g ∧ s.vecDone t c (costLane w) (activeOf f w).length 0) ∧
  (∀ (c : CoreId) (w : VWord) (s : State) (ty : VTy), s.vecReady c (.vbcast c w) w ty [(ty, w.vd, nOf w), (ty, w.va, nOf w)] →
    immF w 0 12 < ceilDiv (nOf w) ty.cap * ty.cap →
    let f := (s.core c).vec
    ∃ t, exec (.vbcast c w) s = .next t ∧ f.wrote (t.core c).vec ty w.vd (activeOf f w) (fun _ => f.get ty w.va (immF w 0 12)) ∧
      s.vecDone t c (costLane w) (activeOf f w).length 0) ∧
  (∀ (c : CoreId) (w : VWord) (s : State), s.vecReady c (.vsplathi c w) w .i32 [(.i32, w.vd, nOf w)] →
    let f := (s.core c).vec
    ∃ t, exec (.vsplathi c w) s = .next t ∧
      (∀ j ∈ activeOf f w, (t.core c).vec.getU .i32 w.vd j = 65536 * immF w 0 16 + f.getU .i32 w.vd j % 65536) ∧
      (∀ j, j ∉ activeOf f w → (t.core c).vec.getU .i32 w.vd j = f.getU .i32 w.vd j) ∧ s.vecDone t c (costLane w) (activeOf f w).length 0) ∧
  (∀ (c : CoreId) (w : VWord) (s : State) (ty : VTy), s.vecReady c (.vrand c w) w ty [(ty, w.vd, nOf w)] → immF w 0 16 ≠ 0xFFFF →
    let f := (s.core c).vec
    ∃ t, exec (.vrand c w) s = .next t ∧
      f.wrote (t.core c).vec ty w.vd (activeOf f w) (fun j =>
        sx ty.bits ((rand32 (s.rdForce (Rg.VEC_RNG_KEY_HI c) ++ s.rdForce (Rg.VEC_RNG_KEY_LO c)) (s.rd Rg.GARNET_TICK).toNat c (immF w 0 16)
          (4096 * immF w 16 3 + j)).toNat >>> (32 - ty.bits))) ∧
      s.vecDone t c (costPer 4 32 w) (activeOf f w).length 0)

/-- VLD, VLDX, VST and VLUTLD between core buffer and registers (R5, R117, R118, R122, R129, R140, R141). With a range inside the 2 MiB
and no unit of bad parity, VLD writes the array at byte 4 × IMM into the active elements of VD, VLDX the elements at the addresses of VB
(0 outside the buffer) and VLUTLD 2 KiB into the lookup slot; VST writes the active elements of VA into the buffer and leaves every other
byte. Nothing else changes. -/
def Obligations.VectorLoadsAndStores : Prop :=
  (∀ (c : CoreId) (w : VWord) (s : State) (ty : VTy), s.vecReady c (.vld c w) w ty [(ty, w.vd, nOf w)] →
    4 * w.imm.toNat + nOf w * ty.bytes ≤ 2 ^ 21 → (s.core c).bad (4 * w.imm.toNat) (nOf w * ty.bytes) = false →
    let f := (s.core c).vec
    ∃ t, exec (.vld c w) s = .next t ∧
      f.wrote (t.core c).vec ty w.vd (activeOf f w) (fun j => sx ty.bits ((s.core c).buf.rdLe (4 * w.imm.toNat + j * ty.bytes) ty.bytes)) ∧
      s.vecDone t c (costMem w) (activeOf f w).length 0) ∧
  (∀ (c : CoreId) (w : VWord) (s : State) (ty : VTy), s.vecReady c (.vldx c w) w ty [(ty, w.vd, nOf w), (.i32, w.vb, nOf w)] →
    (s.core c).bufBad = [] →
    let f := (s.core c).vec
    let at_ := fun j => 4 * (w.imm.toNat : Int) + f.get .i32 w.vb j * ty.bytes
    ∃ t, exec (.vldx c w) s = .next t ∧
      f.wrote (t.core c).vec ty w.vd (activeOf f w) (fun j =>
        if 0 ≤ at_ j ∧ at_ j < 2 ^ 21 then sx ty.bits ((s.core c).buf.rdLe (at_ j).toNat ty.bytes) else 0) ∧
      s.vecDone t c (costPer 4 16 w) (activeOf f w).length 0) ∧
  (∀ (c : CoreId) (w : VWord) (s : State) (ty : VTy), s.vecReady c (.vlutld c w) w ty [] → 64 * immF w 0 15 + 2048 ≤ 2 ^ 21 →
    (s.core c).bad (64 * immF w 0 15) 2048 = false →
    let f := (s.core c).vec
    ∃ t, exec (.vlutld c w) s = .next t ∧
      (t.core c).vec.lut (immF w 15 3) = BitVec.ofNat 16384 ((s.core c).buf.rdLe (64 * immF w 0 15) 2048) ∧
      (∀ n, n ≠ immF w 15 3 → (t.core c).vec.lut n = f.lut n) ∧ (∀ n, (t.core c).vec.reg n = f.reg n) ∧
      (∀ n, (t.core c).vec.mask n = f.mask n) ∧ s.vecDone t c 36 0 0) ∧
  (∀ (c : CoreId) (w : VWord) (s : State) (ty : VTy), s.vecReady c (.vst c w) w ty [(ty, w.va, nOf w)] →
    4 * w.imm.toNat + nOf w * ty.bytes ≤ 2 ^ 21 →
    let f := (s.core c).vec
    ∃ t, exec (.vst c w) s = .next t ∧
      (∀ j ∈ activeOf f w, (t.core c).buf.rdLe (4 * w.imm.toNat + j * ty.bytes) ty.bytes = f.getU ty w.va j) ∧
      (∀ a, (∀ j ∈ activeOf f w, a < 4 * w.imm.toNat + j * ty.bytes ∨ 4 * w.imm.toNat + (j + 1) * ty.bytes ≤ a) →
        (t.core c).buf.rd a = (s.core c).buf.rd a) ∧
      (t.core c).vec = f ∧ t.ctr (Ct.VEC_BUSY_CYCLES c) = (s.ctr (Ct.VEC_BUSY_CYCLES c)).plus (costMem w) ∧
      t.ctr (Ct.VEC_ELEMENTS c) = (s.ctr (Ct.VEC_ELEMENTS c)).plus (activeOf f w).length ∧
      s.sameCtrs t [Ct.VEC_BUSY_CYCLES c, Ct.VEC_ELEMENTS c] ∧ s.sameRegs t [] ∧ (∀ d, d ≠ c.val → t.core d = s.core d) ∧ t.mem = s.mem ∧
      t.host = s.host ∧ (∀ k, (t.cluster k).cache = (s.cluster k).cache))

/-- Compares, mask logic, selection, population and first bit (R117, R118, R122, R123, R140, R141). VCMP puts the comparison of VA with
VB, or with the 15-bit immediate, into the active bits of mask VD; VMLOG and VMSETN write the bits below N; VSEL takes VA or VB by mask
MSK; VMPOP counts the bits of MSK below N and VMFIRST gives the lowest, or −1. Every other bit, register and mask stays as it was. -/
def Obligations.VectorMasks : Prop :=
  (∀ (c : CoreId) (w : VWord) (s : State) (ty : VTy) (cond : Int → Int → Bool),
    (immF w 16 3, cond) ∈ [(0, fun a b => decide (a = b)), (1, fun a b => decide (a ≠ b)), (2, fun a b => decide (a < b)),
      (3, fun a b => decide (a ≤ b)), (4, fun a b => decide (a > b)), (5, fun a b => decide (a ≥ b))] → w.vd.val < 8 →
    s.vecReady c (.vcmp c w) w ty ((ty, w.va.val, nOf w) :: if immF w 15 1 = 0 then [(ty, w.vb.val, nOf w)] else []) →
    let f := (s.core c).vec
    ∃ t, exec (.vcmp c w) s = .next t ∧ f.wroteMask (t.core c).vec w.vd (activeOf f w) (fun j =>
        cond (f.get ty w.va j) (if immF w 15 1 = 0 then f.get ty w.vb j else sx 15 (immF w 0 15))) ∧
      s.vecDone t c (costLane w) (activeOf f w).length 0) ∧
  (∀ (c : CoreId) (w : VWord) (s : State) (ty : VTy), s.vecReady c (.vsel c w) w ty [(ty, w.vd, nOf w), (ty, w.va, nOf w), (ty, w.vb, nOf w)] →
    let f := (s.core c).vec
    ∃ t, exec (.vsel c w) s = .next t ∧ f.wrote (t.core c).vec ty w.vd (List.range (nOf w)) (fun j =>
        if (f.mask w.msk).getLsbD j then f.get ty w.va j else f.get ty w.vb j) ∧ s.vecDone t c (costLane w) (nOf w) 0) ∧
  (∀ (c : CoreId) (w : VWord) (s : State) (ty : VTy) (op : Bool → Bool → Bool), s.vecReady c (.vmlog c w) w ty [] → w.vd.val < 8 →
    (immF w 0 2, op) ∈ [(0, fun a b => a && b), (1, fun a b => a || b), (2, fun a b => a ^^ b), (3, fun a b => a && !b)] →
    let f := (s.core c).vec
    ∃ t, exec (.vmlog c w) s = .next t ∧ f.wroteMask (t.core c).vec w.vd (List.range (nOf w)) (fun j =>
        op ((f.mask (w.va % 8)).getLsbD j) ((f.mask (w.vb % 8)).getLsbD j)) ∧ s.vecDone t c (costPer 2 1024 w) (nOf w) 0) ∧
  (∀ (c : CoreId) (w : VWord) (s : State) (ty : VTy), s.vecReady c (.vmsetn c w) w ty [] → w.vd.val < 8 →
    let f := (s.core c).vec
    ∃ t, exec (.vmsetn c w) s = .next t ∧ f.wroteMask (t.core c).vec w.vd (List.range (nOf w)) (fun _ => bvBit 0 w.imm) ∧
      s.vecDone t c (costPer 2 1024 w) (nOf w) 0) ∧
  (∀ (c : CoreId) (w : VWord) (s : State) (ty : VTy), s.vecReady c (.vmpop c w) w ty [] →
    let f := (s.core c).vec
    ∃ t, exec (.vmpop c w) s = .next t ∧ f.wrote (t.core c).vec .i32 w.vd [0] (fun _ =>
        (((List.range (nOf w)).filter fun j => (f.mask w.msk).getLsbD j).length : Int)) ∧ s.vecDone t c (costPer 4 1024 w) (nOf w) 0) ∧
  (∀ (c : CoreId) (w : VWord) (s : State) (ty : VTy), s.vecReady c (.vmfirst c w) w ty [] →
    let f := (s.core c).vec
    ∃ t, exec (.vmfirst c w) s = .next t ∧ s.vecDone t c (costPer 4 1024 w) (nOf w) 0 ∧
      (∀ j, j ≠ 0 → (t.core c).vec.getU .i32 w.vd j = f.getU .i32 w.vd j) ∧
      (∀ n : Nat, (t.core c).vec.get .i32 w.vd 0 = n ↔
        n < nOf w ∧ (f.mask w.msk).getLsbD n = true ∧ ∀ j, j < n → (f.mask w.msk).getLsbD j = false) ∧
      ((t.core c).vec.get .i32 w.vd 0 = -1 ↔ ∀ j, j < nOf w → (f.mask w.msk).getLsbD j = false))

/-- VRSUM, VRMAX, VRMIN, VRMAXI and VSCAN (R83, R117, R118, R122, R125, R126, R140, R141). VRSUM writes the sum of the active elements,
saturated once and counted; VRMAX and VRMIN the largest and smallest, or the identity of the type with none active; VRMAXI the largest
value and its lowest position; VSCAN the running sums, each saturated and counted, into the active elements. No other element, register
or mask changes. -/
def Obligations.VectorReductions : Prop :=
  (∀ (c : CoreId) (w : VWord) (s : State) (ty : VTy), s.vecReady c (.vrsum c w) w ty [(ty, w.va, nOf w)] →
    let f := (s.core c).vec
    let sum := ((activeOf f w).map fun j => f.get ty w.va j).sum
    ∃ t, exec (.vrsum c w) s = .next t ∧ f.wrote (t.core c).vec .i32 w.vd [0] (fun _ => satW 32 sum) ∧
      s.vecDone t c (costRed w) (activeOf f w).length (if satW 32 sum = sum then 0 else 1)) ∧
  (∀ (c : CoreId) (w : VWord) (s : State) (ty : VTy), s.vecReady c (.vrmax c w) w ty [(ty, w.va, nOf w)] →
    let f := (s.core c).vec
    ∃ t m, exec (.vrmax c w) s = .next t ∧ f.wrote (t.core c).vec .i32 w.vd [0] (fun _ => m) ∧ (∀ j ∈ activeOf f w, f.get ty w.va j ≤ m) ∧
      ((∃ j ∈ activeOf f w, f.get ty w.va j = m) ∨ activeOf f w = [] ∧ m = minOf ty.bits) ∧ s.vecDone t c (costRed w) (activeOf f w).length 0) ∧
  (∀ (c : CoreId) (w : VWord) (s : State) (ty : VTy), s.vecReady c (.vrmin c w) w ty [(ty, w.va, nOf w)] →
    let f := (s.core c).vec
    ∃ t m, exec (.vrmin c w) s = .next t ∧ f.wrote (t.core c).vec .i32 w.vd [0] (fun _ => m) ∧ (∀ j ∈ activeOf f w, m ≤ f.get ty w.va j) ∧
      ((∃ j ∈ activeOf f w, f.get ty w.va j = m) ∨ activeOf f w = [] ∧ m = maxOf ty.bits) ∧ s.vecDone t c (costRed w) (activeOf f w).length 0) ∧
  (∀ (c : CoreId) (w : VWord) (s : State) (ty : VTy), s.vecReady c (.vrmaxi c w) w ty [(ty, w.va, nOf w)] →
    let f := (s.core c).vec
    ∃ t m p, exec (.vrmaxi c w) s = .next t ∧ f.wrote (t.core c).vec .i32 w.vd [0, 1] (fun j => if j = 0 then m else p) ∧
      (∀ j ∈ activeOf f w, f.get ty w.va j ≤ m ∧ (f.get ty w.va j = m → p ≤ j)) ∧
      ((∃ j ∈ activeOf f w, f.get ty w.va j = m ∧ p = j) ∨ activeOf f w = [] ∧ m = minOf ty.bits ∧ p = -1) ∧
      s.vecDone t c (costRed w) (activeOf f w).length 0) ∧
  (∀ (c : CoreId) (w : VWord) (s : State) (ty : VTy), s.vecReady c (.vscan c w) w ty [(ty, w.vd, nOf w), (ty, w.va, nOf w)] →
    let f := (s.core c).vec
    let sum := fun j => (((activeOf f w).filter fun k => k ≤ j).map fun k => f.get ty w.va k).sum
    ∃ t, exec (.vscan c w) s = .next t ∧ f.wrote (t.core c).vec ty w.vd (activeOf f w) (fun j => satW ty.bits (sum j)) ∧
      s.vecDone t c (costScan w) (activeOf f w).length ((activeOf f w).filter fun j => satW ty.bits (sum j) ≠ sum j).length)

/-- VTOPK, VTOPKP, VCOMPRESS and VEXPAND (R116, R117, R118, R121, R122, R127, R128, R140, R141). VTOPK writes the K largest active
elements, largest first and of equal values the lower index first, as value and index pairs, short lists filled with the smallest value
and index 0xFFFF_FFFF; VTOPKP does so with the active pairs of VA. VCOMPRESS writes the active elements one after another, VEXPAND the
first elements to the active places. Nothing else changes. -/
def Obligations.VectorRanking : Prop :=
  (∀ (c : CoreId) (w : VWord) (s : State) (ty : VTy),
    s.vecReady c (.vtopk c w) w ty [(.i32, w.vd, 2 * (immF w 0 6 + 1)), (ty, w.va, nOf w)] →
    let f := (s.core c).vec
    let best := (((activeOf f w).map fun j => (f.get ty w.va j, j + 64 * immF w 6 13)).mergeSort fun a b =>
      decide (a.1 > b.1 ∨ a.1 = b.1 ∧ a.2 ≤ b.2)).take (immF w 0 6 + 1)
    ∃ t, exec (.vtopk c w) s = .next t ∧ f.wrote (t.core c).vec .i32 w.vd (List.range (2 * (immF w 0 6 + 1))) (fun m =>
        let p := best.getD (m / 2) (minOf ty.bits, 0xFFFFFFFF)
        if m % 2 = 0 then p.1 else wrapW 32 p.2) ∧ s.vecDone t c (costTop w) (activeOf f w).length 0) ∧
  (∀ (c : CoreId) (w : VWord) (s : State),
    s.vecReady c (.vtopkp c w) w .i32 [(.i32, w.vd, 2 * (immF w 0 6 + 1)), (.i32, w.va, nOf w)] → nOf w % 2 = 0 →
    (w.vd.val + ceilDiv (2 * (immF w 0 6 + 1)) 1024 ≤ w.va.val ∨ w.va.val + ceilDiv (nOf w) 1024 ≤ w.vd.val) →
    let f := (s.core c).vec
    let pairs := (List.range (nOf w / 2)).filter fun m => !w.men || (f.mask w.msk).getLsbD (2 * m)
    let best := ((pairs.map fun m => (f.get .i32 w.va (2 * m), f.getU .i32 w.va (2 * m + 1))).mergeSort fun a b =>
      decide (a.1 > b.1 ∨ a.1 = b.1 ∧ a.2 ≤ b.2)).take (immF w 0 6 + 1)
    ∃ t, exec (.vtopkp c w) s = .next t ∧ f.wrote (t.core c).vec .i32 w.vd (List.range (2 * (immF w 0 6 + 1))) (fun m =>
        let p := best.getD (m / 2) (minOf 32, 0xFFFFFFFF)
        if m % 2 = 0 then p.1 else wrapW 32 p.2) ∧ s.vecDone t c (costTop w) (activeOf f w).length 0) ∧
  (∀ (c : CoreId) (w : VWord) (s : State) (ty : VTy), s.vecReady c (.vcompress c w) w ty [(ty, w.vd, nOf w), (ty, w.va, nOf w)] →
    let f := (s.core c).vec
    ∃ t, exec (.vcompress c w) s = .next t ∧ f.wrote (t.core c).vec ty w.vd (List.range (activeOf f w).length) (fun m =>
        f.get ty w.va ((activeOf f w).getD m 0)) ∧ s.vecDone t c (costComp w) (activeOf f w).length 0) ∧
  (∀ (c : CoreId) (w : VWord) (s : State) (ty : VTy), s.vecReady c (.vexpand c w) w ty [(ty, w.vd, nOf w), (ty, w.va, nOf w)] →
    let f := (s.core c).vec
    ∃ t, exec (.vexpand c w) s = .next t ∧ f.wrote (t.core c).vec ty w.vd (activeOf f w) (fun j =>
        f.get ty w.va ((activeOf f w).filter fun k => k < j).length) ∧ s.vecDone t c (costComp w) (activeOf f w).length 0)

/-- VCVT, VACC, VACCRAW, VDESC and VEXTS (R83, R94, R115, R118, R122, R124, R130, R132, R135, R140, R141). VCVT and VACC round to nearest
even at the shift of IMM, saturate and count; VACCRAW shows mantissa, shift, residual and mode of the entries; VDESC writes the smallest
shift that fits the row and its zero point; VEXTS the scale bytes of records. Every other element, register and mask, the bank and the
rest of the machine stay. -/
def Obligations.VectorConversions : Prop :=
  (∀ (c : CoreId) (w : VWord) (s : State) (ty ts : VTy), VTy.ofCode (immF w 0 2) = some ts →
    s.vecReady c (.vcvt c w) w ty [(ty, w.vd, nOf w), (ts, w.va, nOf w)] →
    let f := (s.core c).vec
    let y := fun j => rne (f.get ts w.va j) (2 ^ immF w 2 6)
    ∃ t, exec (.vcvt c w) s = .next t ∧ f.wrote (t.core c).vec ty w.vd (activeOf f w) (fun j => satW ty.bits (y j)) ∧
      s.vecDone t c (costCvt w) (activeOf f w).length ((activeOf f w).filter fun j => satW ty.bits (y j) ≠ y j).length) ∧
  (∀ (c : CoreId) (w : VWord) (s : State), s.vecReady c (.vacc c w) w .i32 [(.i32, w.vd, nOf w)] → 32 * immF w 12 5 + nOf w ≤ 1024 →
    let f := (s.core c).vec
    let y := fun j => rne ((s.eng (4 * c.val + immF w 17 2)).bank.at (32 * immF w 12 5 + j)).value (2 ^ immF w 6 6)
    ∃ t, exec (.vacc c w) s = .next t ∧ f.wrote (t.core c).vec .i32 w.vd (activeOf f w) (fun j => satW 32 (y j)) ∧
      s.vecDone t c (costPer 6 32 w) (activeOf f w).length ((activeOf f w).filter fun j => satW 32 (y j) ≠ y j).length) ∧
  (∀ (c : CoreId) (w : VWord) (s : State), s.vecReady c (.vaccraw c w) w .i32 [(.i32, w.vd, nOf w)] → nOf w % 2 = 0 →
    32 * immF w 12 5 + nOf w / 2 ≤ 1024 →
    let f := (s.core c).vec
    let g := 4 * c.val + immF w 17 2
    let a := fun j => (s.eng g).bank.at (32 * immF w 12 5 + j / 2)
    ∃ t, exec (.vaccraw c w) s = .next t ∧ f.wrote (t.core c).vec .i32 w.vd (activeOf f w) (fun j =>
        if j % 2 = 0 then (a j).m.toInt
        else (a j).h.toNat + 2 ^ 5 * (a j).e.toNat + 2 ^ 21 * (if s.fld (Fld.ENG_STATUS_COMP_BANK g) = 1 then 1 else 0)) ∧
      s.vecDone t c (costPer 6 32 w) (activeOf f w).length 0) ∧
  (∀ (c : CoreId) (w : VWord) (s : State), s.vecReady c (.vdesc c w) w .i16 [(.i16, w.vd, 1), (.i16, w.va, nOf w)] →
    let f := (s.core c).vec
    ∃ (t : State) (tau : Nat) (z : Int), exec (.vdesc c w) s = .next t ∧ f.wrote (t.core c).vec .i16 w.vd [0] (fun _ => wrapW 16 (z % 256 + 256 * tau)) ∧
      s.vecDone t c (costPer 10 128 w) (activeOf f w).length 0 ∧ tau < 16 ∧ (activeOf f w = [] → tau = 0 ∧ z = 0) ∧
      (∀ lo hi, (∃ j ∈ activeOf f w, f.get .i16 w.va j = lo) → (∀ j ∈ activeOf f w, lo ≤ f.get .i16 w.va j) →
        (∃ j ∈ activeOf f w, f.get .i16 w.va j = hi) → (∀ j ∈ activeOf f w, f.get .i16 w.va j ≤ hi) →
        let fits := fun k : Nat => if bvBit 0 w.imm then rne hi (2 ^ k) ≤ 127 ∧ -128 ≤ rne lo (2 ^ k)
          else rne hi (2 ^ k) - rne lo (2 ^ k) ≤ 255
        fits tau ∧ (∀ k, k < tau → ¬ fits k) ∧
        z = if bvBit 0 w.imm then 0 else max (-128) (min 127 (-128 - rne lo (2 ^ tau))))) ∧
  (∀ (c : CoreId) (w : VWord) (s : State) (fm : Fmt) (n : Nat), Fmt.ofCode (immF w 15 4) = some fm → fm.isWeight → groupSize (immF w 0 2) = some n →
    s.vecReady c (.vexts c w) w .i16 [(.i16, w.vd, nOf w), (.i8, w.va, nOf w * recordBytes fm n)] →
    let f := (s.core c).vec
    ∃ t, exec (.vexts c w) s = .next t ∧ f.wrote (t.core c).vec .i16 w.vd (List.range (nOf w)) (fun j =>
        f.getU .i8 w.va (j * recordBytes fm n + (if fm = .u8 then n else n / 2))) ∧ s.vecDone t c (costPer 4 64 w) (nOf w) 0)

/-- VQSCALE, VQUANT and VDEQ (R61, R62, R66, R79, R80, R81, R83, R118, R122, R131, R132, R140). VQSCALE writes for every group the
smallest scale up to 255 that covers its largest magnitude on the grid; VQUANT writes records of codes, scale and zero point and counts
its saturations; VDEQ writes grid value, code or code less zero point times the scale of each record. All of them ignore the mask and
leave everything else. -/
def Obligations.VectorQuantisation : Prop :=
  (∀ (c : CoreId) (w : VWord) (s : State) (fm : Fmt) (n : Nat), Fmt.ofCode (immF w 15 4) = some fm → fm = .g4 ∨ fm = .u8 →
    groupSize (immF w 0 2) = some n → s.vecReady c (.vqscale c w) w .i16 [(.i16, w.vd, ceilDiv (nOf w) n), (.i16, w.va, nOf w)] →
    let f := (s.core c).vec
    let bound : Int := if fm = .g4 then max (-(s.gridVal c (immF w 12 3) 0)) (s.gridVal c (immF w 12 3) 15) else 127
    ∃ t sc, exec (.vqscale c w) s = .next t ∧ f.wrote (t.core c).vec .i16 w.vd (List.range (ceilDiv (nOf w) n)) sc ∧
      s.vecDone t c (costPer 8 128 w) (nOf w) 0 ∧
      ∀ g, g < ceilDiv (nOf w) n → ∃ m : Nat, (∀ r, r < n → n * g + r < nOf w → (f.get .i16 w.va (n * g + r)).natAbs ≤ m) ∧
        (m = 0 ∨ ∃ r, r < n ∧ n * g + r < nOf w ∧ (f.get .i16 w.va (n * g + r)).natAbs = m) ∧
        (m = 0 → sc g = 0) ∧ (0 < m → bound ≤ 0 → sc g = 255) ∧
        (0 < m → 0 < bound → 0 < sc g ∧ sc g ≤ 255 ∧ (sc g - 1) * (bound * 2 ^ immF w 2 4) < m * 2 ^ immF w 6 6 ∧
          (sc g < 255 → m * 2 ^ immF w 6 6 ≤ sc g * (bound * 2 ^ immF w 2 4)))) ∧
  (∀ (c : CoreId) (w : VWord) (s : State) (fm : Fmt) (n : Nat), Fmt.ofCode (immF w 15 4) = some fm → fm.isWeight → groupSize (immF w 0 2) = some n →
    s.vecReady c (.vquant c w) w .i16
      [(.i8, w.vd, ceilDiv (nOf w) n * recordBytes fm n), (.i16, w.va, nOf w), (.i16, w.vb, ceilDiv (nOf w) n)] →
    let f := (s.core c).vec
    let sc := fun g => f.getU .i16 w.vb g % 256
    let zw := fun g => f.getU .i16 w.vb g / 256 % 16
    let q := fun g r => quantise fm (s.gridVal c (immF w 12 3)) (sc g) (zw g)
      ((if n * g + r < nOf w then f.get .i16 w.va (n * g + r) else 0) * 2 ^ immF w 6 6) (sc g * 2 ^ immF w 2 4)
    ∃ t, exec (.vquant c w) s = .next t ∧
      (∀ g, g < ceilDiv (nOf w) n →
        (∀ r, r < n → fm = .u8 → (t.core c).vec.get .i8 w.vd (g * recordBytes fm n + r) = (q g r).1) ∧
        (∀ r, r < n → fm ≠ .u8 →
          (((t.core c).vec.getU .i8 w.vd (g * recordBytes fm n + r / 2) / (if r % 2 = 0 then 1 else 16) % 16 : Nat) : Int) = (q g r).1) ∧
        (t.core c).vec.getU .i8 w.vd (g * recordBytes fm n + (if fm = .u8 then n else n / 2)) = sc g ∧
        (fm = .u4z → (t.core c).vec.getU .i8 w.vd (g * recordBytes fm n + n / 2 + 1) = if sc g = 0 then 0 else zw g)) ∧
      (∀ i, ceilDiv (nOf w) n * recordBytes fm n ≤ i → (t.core c).vec.getU .i8 w.vd i = f.getU .i8 w.vd i) ∧
      s.vecDone t c (costPer 8 32 w) (nOf w)
        ((List.range (ceilDiv (nOf w) n)).map fun g => ((List.range n).filter fun r => (q g r).2).length).sum) ∧
  (∀ (c : CoreId) (w : VWord) (s : State) (fm : Fmt) (n : Nat), Fmt.ofCode (immF w 15 4) = some fm → fm.isWeight → groupSize (immF w 0 2) = some n →
    s.vecReady c (.vdeq c w) w .i16 [(.i16, w.vd, nOf w), (.i8, w.va, ceilDiv (nOf w) n * recordBytes fm n)] →
    let f := (s.core c).vec
    let byte := fun j k => f.getU .i8 w.va (j / n * recordBytes fm n + k)
    let nib := fun j => byte j (j % n / 2) / (if j % n % 2 = 0 then 1 else 16) % 16
    ∃ t, exec (.vdeq c w) s = .next t ∧ f.wrote (t.core c).vec .i16 w.vd (List.range (nOf w)) (fun j =>
        match fm with
        | .g4 => s.gridVal c (immF w 12 3) (nib j) * byte j (n / 2)
        | .u4z => ((nib j : Int) - (byte j (n / 2 + 1) % 16 : Nat)) * byte j (n / 2)
        | _ => f.get .i8 w.va (j / n * recordBytes fm n + j % n) * byte j n) ∧ s.vecDone t c (costPer 4 64 w) (nOf w) 0)

/-- An unused TYPE or a group past V31 abandons the step (R54, R115, R116, R121). A vector instruction with TYPE 0b11, and one that
permits only I32 or I16 with another TYPE, sets UNUSED_ENCODING of its core; a two-register lane instruction whose group passes V31, a
load or store past the 2 MiB and a VACC range past entry 1,023 set COMMAND_ERROR. Either way a running step goes to abandoning and no
signal is left on its way. -/
def Obligations.VectorErrorsAbandon : Prop :=
  (∀ (c : CoreId) (w : VWord) (s : State) (i : Instr),
    (w.ty.val = 3 ∧ i ∈ [Instr.vadd c w, .vaddi c w, .vld c w, .vst c w, .vcmp c w, .vrsum c w, .vtopk c w, .vlut c w, .vrand c w] ∨
      w.ty.val ≠ 2 ∧ i ∈ [Instr.vsplathi c w, .vtopkp c w, .vacc c w, .vaccraw c w] ∨
      w.ty.val ≠ 1 ∧ i ∈ [Instr.vdesc c w, .vqscale c w, .vquant c w, .vdeq c w, .vexts c w]) →
    s.atHead c 4 i →
    ∃ t, exec i s = .next t ∧ t.fld (Fld.SEQ_ERROR_UNUSED_ENCODING c) = 1 ∧ t.ctr (Ct.VEC_ELEMENTS c) = s.ctr (Ct.VEC_ELEMENTS c) ∧
      (s.tickState = stRunning → t.tickState = stAbandoning ∧ t.flights = [])) ∧
  (∀ (c : CoreId) (w : VWord) (s : State) (ty : VTy) (i : Instr), VTy.ofCode w.ty.val = some ty →
    (i ∈ [Instr.vadd c w, .vsub c w, .vmul c w, .vmin c w, .vand c w, .vshl c w, .vsel c w] ∧
        (32 < w.vd + ceilDiv (nOf w) ty.cap ∨ 32 < w.va + ceilDiv (nOf w) ty.cap ∨ 32 < w.vb + ceilDiv (nOf w) ty.cap) ∨
      i = .vld c w ∧ (32 < w.vd + ceilDiv (nOf w) ty.cap ∨ 2 ^ 21 < 4 * w.imm.toNat + nOf w * ty.bytes) ∨
      i = .vst c w ∧ (32 < w.va + ceilDiv (nOf w) ty.cap ∨ 2 ^ 21 < 4 * w.imm.toNat + nOf w * ty.bytes) ∨
      i = .vacc c w ∧ ty = .i32 ∧ 1024 < 32 * immF w 12 5 + nOf w) →
    s.atHead c 4 i →
    ∃ t, exec i s = .next t ∧ t.fld (Fld.VEC_STATUS_COMMAND_ERROR c) = 1 ∧ t.ctr (Ct.VEC_ELEMENTS c) = s.ctr (Ct.VEC_ELEMENTS c) ∧
      (s.tickState = stRunning → t.tickState = stAbandoning ∧ t.flights = []))

/-- SETUP applies to the later commands of its queue (R54, R61, R89, R107, R108, R111, R114). SETUP at the head of its queue becomes the
engine's setup in one busy cycle and changes no register word, no other engine and no byte; the expander goes on with the rest of a tile
that a RUN has left. An unused format or source code sets UNUSED_ENCODING, and A16 activations with a cache source COMMAND_ERROR; a
running step then goes to abandoning. -/
def Obligations.SetupHolds : Prop :=
  (∀ (c : CoreId) (e : EngId) (o : SetupOp) (s : State), s.atHead c e (.setup c e o) → o.unused = false → (o.a16 = true → o.tileMode = true) →
    ∃ t, exec (.setup c e o) s = .next t ∧
      t.eng (engOf c e) = { s.eng (engOf c e) with setup := some o, dec := (s.eng (engOf c e)).dec.map fun d => { d with left := d.left - 1, idle := d.idle + 1 } } ∧
      (∀ g, g ≠ engOf c e → t.eng g = s.eng g) ∧
      t.ctr (Ct.ENG_BUSY_CYCLES (engOf c e)) = (s.ctr (Ct.ENG_BUSY_CYCLES (engOf c e))).plus 1 ∧
      s.sameCtrs t [Ct.ENG_BUSY_CYCLES (engOf c e)] ∧ s.sameRegs t [] ∧ s.sameMemory t) ∧
  (∀ (c : CoreId) (e : EngId) (o : SetupOp) (s : State), s.atHead c e (.setup c e o) →
    (o.actFormat.val ≠ 3 ∧ o.actFormat.val ≠ 4 ∨ o.source.val = 3 ∨ o.source.val ≠ 0 ∧ 2 ≤ o.format.val) →
    ∃ t, exec (.setup c e o) s = .next t ∧ t.fld (Fld.SEQ_ERROR_UNUSED_ENCODING c) = 1 ∧
      (s.tickState = stRunning → t.tickState = stAbandoning ∧ t.flights = [])) ∧
  (∀ (c : CoreId) (e : EngId) (o : SetupOp) (s : State), s.atHead c e (.setup c e o) → o.unused = false → o.a16 = true → o.tileMode = false →
    ∃ t, exec (.setup c e o) s = .next t ∧ t.fld (Fld.ENG_STATUS_COMMAND_ERROR (engOf c e)) = 1 ∧
      (s.tickState = stRunning → t.tickState = stAbandoning ∧ t.flights = []))

/-- RUN adds the products of a pass to the bank (R87, R89, R90, R91, R92, R94, R98, R109). With no unit of bad parity in the buffer, a
RUN over cached rows or columns leaves every entry (t, j) at exactly its start plus the products of R92 of all its blocks: in compensated
mode its value, where the running totals stay within 48 bits, and in normal mode with every shift 0 its mantissa, where they stay within
32. A TILE-mode RUN from a cleared bank in compensated mode over the blocks of one raw tile that passes its checks leaves the products of
its blocks, of both passes for A16 activations. A TILE-mode RUN whose tiles all pass their checks leaves the bank and the scale position
that the walk over them ends with. No core buffer, no cluster cache and no other memory changes, and no other engine. -/
def Obligations.RunAddsProducts : Prop :=
  (∀ (c : CoreId) (e : EngId) (op : RunOp) (o : SetupOp) (s : State), s.atHead c e (.run c e op) → (s.eng (engOf c e)).setup = some o →
    (s.eng (engOf c e)).hold = none → (s.eng (engOf c e)).run = none → runBad (s.eng (engOf c e)) o op = false → o.tileMode = false →
    o.a16 = false → (s.core c).bufBad = [] →
    (if op.accumulate then s.fld (Fld.ENG_STATUS_COMP_BANK (engOf c e)) = 1 ∧ ∀ k, ((s.eng (engOf c e)).bank.at k).h.toNat ≤ 16
      else s.startComp (engOf c e) (some o) = true) →
    let start := fun t j => if op.accumulate then ((s.eng (engOf c e)).bank.at (32 * t + j)).value else 0
    let part := fun n t j => start t j + ((List.range n).map fun b =>
      addend (cacheBlock s c o op b) 1 (actRow (s.core c) o [] (op.actChunk.toNat + b) t 0).1 j).sum
    (∀ n t j, n ≤ op.blocks.toNat → t < o.t → j < 32 → -(2 ^ 47) ≤ part n t j ∧ part n t j < 2 ^ 47) →
    ∃ u, exec (.run c e op) s = .next u ∧
      (∀ t j, t < o.t → j < 32 → ((u.eng (engOf c e)).bank.at (32 * t + j)).value = part op.blocks.toNat t j) ∧
      u.fld (Fld.ENG_STATUS_COMP_BANK (engOf c e)) = 1 ∧ (∀ g, g ≠ engOf c e → u.eng g = s.eng g) ∧ s.sameMemory u) ∧
  (∀ (c : CoreId) (e : EngId) (op : RunOp) (o : SetupOp) (s : State), s.atHead c e (.run c e op) → (s.eng (engOf c e)).setup = some o →
    (s.eng (engOf c e)).hold = none → (s.eng (engOf c e)).run = none → runBad (s.eng (engOf c e)) o op = false → o.tileMode = false →
    o.a16 = false → (s.core c).bufBad = [] →
    (if op.accumulate then s.fld (Fld.ENG_STATUS_COMP_BANK (engOf c e)) = 0 ∧ ∀ k, ((s.eng (engOf c e)).bank.at k).h = 0#5
      else s.startComp (engOf c e) (some o) = false) →
    let start := fun t j => if op.accumulate then ((s.eng (engOf c e)).bank.at (32 * t + j)).m.toInt else 0
    let part := fun n t j => start t j + ((List.range n).map fun b =>
      addend (cacheBlock s c o op b) 1 (actRow (s.core c) o [] (op.actChunk.toNat + b) t 0).1 j).sum
    (∀ n t j, n ≤ op.blocks.toNat → t < o.t → j < 32 → -(2 ^ 31) ≤ part n t j ∧ part n t j < 2 ^ 31) →
    ∃ u, exec (.run c e op) s = .next u ∧
      (∀ t j, t < o.t → j < 32 → ((u.eng (engOf c e)).bank.at (32 * t + j)).m.toInt = part op.blocks.toNat t j ∧
        ((u.eng (engOf c e)).bank.at (32 * t + j)).h = 0#5) ∧
      u.fld (Fld.ENG_STATUS_COMP_BANK (engOf c e)) = 0 ∧ (∀ g, g ≠ engOf c e → u.eng g = s.eng g) ∧ s.sameMemory u) ∧
  (∀ (c : CoreId) (e : EngId) (op : RunOp) (o : SetupOp) (s : State) (st : TileStart) (h : TileHdr), s.atHead c e (.run c e op) →
    (s.eng (engOf c e)).setup = some o → (s.eng (engOf c e)).hold = none → (s.eng (engOf c e)).run = none → (s.eng (engOf c e)).dec = none →
    (s.core c).bufBad = [] → runBad (s.eng (engOf c e)) o op = false → o.tileMode = true → op.accumulate = false → op.scaleCont = false →
    s.startComp (engOf c e) (some o) = true →
    tileStart s c (s.core c) { addr := 32 * op.src.toNat, pos := ⟨128 * o.scaleBase.toNat, 0, false⟩ } op.blockOfs.toNat op.blocks.toNat = .ok st →
    st.hdr = some h → h.coded = false → op.blockOfs.toNat + op.blocks.toNat ≤ blocksPerTile st.fg.1 →
    let x := s.core c
    let sym := decodeTile x.buf (32 * op.src.toNat) h []
    let blk := fun n => tileBlock s c o x.buf st.fg (blockSymbols st.fg.1 sym (op.blockOfs.toNat + n))
      ⟨128 * o.scaleBase.toNat, op.blockOfs.toNat / (st.fg.2 / 32), st.scSub⟩ op.blockOfs.toNat (op.blockOfs.toNat + n)
    let pass := fun n t j (i : Nat) => addend (blk n) (if o.a16 && i == 0 then 256 else 1)
      (actRow x o (s.eng (engOf c e)).outliers (op.actChunk.toNat + n) t i).1 j
    let part := fun n t j => ((List.range n).map fun b => pass b t j 0 + if o.a16 then pass b t j 1 else 0).sum
    (∀ n t j, n ≤ op.blocks.toNat → t < o.t → j < 32 → -(2 ^ 47) ≤ part n t j ∧ part n t j < 2 ^ 47 ∧
      -(2 ^ 47) ≤ part n t j + pass n t j 0 ∧ part n t j + pass n t j 0 < 2 ^ 47) →
    ∃ u, exec (.run c e op) s = .next u ∧
      (∀ t j, t < o.t → j < 32 → ((u.eng (engOf c e)).bank.at (32 * t + j)).value = part op.blocks.toNat t j) ∧
      (∀ g, g ≠ engOf c e → u.eng g = s.eng g) ∧ s.sameMemory u) ∧
  (∀ (c : CoreId) (e : EngId) (op : RunOp) (o : SetupOp) (s s1 : State) (w : TileRun),
    s.atHead c e (.run c e op) → (s.eng (engOf c e)).setup = some o → (s.eng (engOf c e)).hold = none → (s.eng (engOf c e)).run = none →
    (s.eng (engOf c e)).dec = none → (s.eng (engOf c e)).saved = none → (s.core c).bufBad = [] →
    runBad (s.eng (engOf c e)) o op = false → o.tileMode = true →
    runTiles c e o op 4096 s
      { bank := { s.bankRun (engOf c e) with
          bank := if op.accumulate then (s.eng (engOf c e)).bank else []
          comp := if op.accumulate then s.fld (Fld.ENG_STATUS_COMP_BANK (engOf c e)) == 1 else s.startComp (engOf c e) (some o) }
        used := (s.eng (engOf c e)).weights
        walk := { addr := 32 * op.src.toNat
                  pos := if op.scaleCont then (s.eng (engOf c e)).scalePos.getD ⟨0, 0, false⟩ else ⟨128 * o.scaleBase.toNat, 0, false⟩ } } =
      (none, s1, w) →
    ∃ u, exec (.run c e op) s = .next u ∧ (u.eng (engOf c e)).bank = w.bank.bank ∧
      u.rd (Rg.ENG_LFSR_STATE (engOf c e)) = w.bank.lfsr ∧ (u.eng (engOf c e)).scalePos = some w.walk.pos ∧
      (u.eng (engOf c e)).run = none ∧ (∀ g, g ≠ engOf c e → u.eng g = s.eng g) ∧ s.sameMemory u)

/-- READOUT writes rounded, saturated results; READRAW writes the raw entries (R82, R94, R103, R104, R105, R106, R114). With no unit of
bad parity in the buffer, READOUT writes for every token t and column j the corrected value, rounded once at the shift of the record and
the formats and saturated to 16 bits, at byte 64 t + 2 j of its destination; READRAW writes the 8-byte records. Neither changes the bank,
any other byte, or a register word but the largest shift. -/
def Obligations.ReadoutWritesA16 : Prop :=
  (∀ (c : CoreId) (e : EngId) (op : ReadoutOp) (o : SetupOp) (s : State), s.atHead c e (.readout c e op) →
    (s.eng (engOf c e)).setup = some o → (s.core c).bufBad = [] → 64 * op.colrec.toNat + 256 ≤ 2 ^ 21 → 64 * op.dest.toNat + 64 * o.t ≤ 2 ^ 21 → o.panel 0 + 64 ≤ 2 ^ 21 →
    let m := (s.core c).buf
    let desc := fun t => m.rdLe (o.panel 0 + 2 * t) 2
    let z := fun t => if o.tileMode then sx 8 (desc t % 256) else 0
    let tau := fun t => if o.a16 then 0 else desc t / 256 % 16
    let rec8 := fun j => m.rdLe (64 * op.colrec.toNat + 8 * j) 8
    let v := fun t j => ((s.eng (engOf c e)).bank.at (32 * t + j)).value
    let d := fun t j => if o.a16 then v t j + 128 * sx 40 (rec8 j % 2 ^ 40) else v t j - z t * sx 40 (rec8 j % 2 ^ 40)
    let k : Nat → Nat → Int := fun t j => (rec8 j / 2 ^ 40 % 64 : Nat) + op.f.val - tau t - op.fOut.val
    ∃ u, exec (.readout c e op) s = .next u ∧
      (∀ t j, t < o.t → j < 32 → sx 16 ((u.core c).buf.rdLe (64 * op.dest.toNat + 64 * t + 2 * j) 2) =
        satW 16 (if 0 < k t j then rne (d t j) (2 ^ (k t j).toNat) else d t j * 2 ^ (-(k t j)).toNat)) ∧
      (∀ a, a < 64 * op.dest.toNat ∨ 64 * op.dest.toNat + 64 * o.t ≤ a → (u.core c).buf.rd a = m.rd a) ∧
      u.eng (engOf c e) = { s.eng (engOf c e) with dec := (u.eng (engOf c e)).dec } ∧ (∀ g, g ≠ engOf c e → u.eng g = s.eng g) ∧
      s.sameRegs u [(Fld.ENG_MAX_SHIFT_MAX (engOf c e)).addr] ∧ u.mem = s.mem ∧ u.host = s.host ∧
      (∀ b, b ≠ c.val → u.core b = s.core b) ∧ (∀ n, (u.cluster n).cache = (s.cluster n).cache)) ∧
  (∀ (c : CoreId) (e : EngId) (op : RawOp) (o : SetupOp) (s : State), s.atHead c e (.readraw c e op) →
    (s.eng (engOf c e)).setup = some o → 64 * op.addr.toNat + 256 * o.t ≤ 2 ^ 21 →
    ∃ u, exec (.readraw c e op) s = .next u ∧
      (∀ n, n < 32 * o.t →
        let a := (s.eng (engOf c e)).bank.at n
        let r := (u.core c).buf.rdLe (64 * op.addr.toNat + 8 * n) 8
        r % 2 ^ 32 = a.m.toNat ∧ r / 2 ^ 32 % 2 ^ 5 = a.h.toNat ∧ r / 2 ^ 53 = s.fld (Fld.ENG_STATUS_COMP_BANK (engOf c e)) ∧
          r / 2 ^ 37 % 2 ^ 16 = if s.fld (Fld.ENG_STATUS_COMP_BANK (engOf c e)) = 1 then a.e.toNat else 0) ∧
      (∀ a, a < 64 * op.addr.toNat ∨ 64 * op.addr.toNat + 256 * o.t ≤ a → (u.core c).buf.rd a = (s.core c).buf.rd a) ∧
      u.ctr (Ct.ENG_BUSY_CYCLES (engOf c e)) = (s.ctr (Ct.ENG_BUSY_CYCLES (engOf c e))).plus (8 + 2 * o.t) ∧
      u.eng (engOf c e) = { s.eng (engOf c e) with dec := (u.eng (engOf c e)).dec } ∧ (∀ g, g ≠ engOf c e → u.eng g = s.eng g) ∧
      s.sameRegs u [(Fld.ENG_MAX_SHIFT_MAX (engOf c e)).addr] ∧ u.mem = s.mem ∧ u.host = s.host ∧
      (∀ b, b ≠ c.val → u.core b = s.core b) ∧ (∀ n, (u.cluster n).cache = (s.cluster n).cache))

/-- MERGE adds a 48-bit addend to every entry (R94, R95, R96, R98, R106). With no unit of bad parity among its operands, MERGE reads one
signed 48-bit addend for every entry (t, j) of the T rows. In compensated mode, totals within 48 bits, each entry's value grows by
exactly its addend; in normal mode with every shift 0 and sums within 32 bits the mantissa does. No byte and no other engine changes. -/
def Obligations.MergeAddsRecords : Prop :=
  ∀ (c : CoreId) (e : EngId) (op : RawOp) (o : SetupOp) (s : State), s.atHead c e (.merge c e op) →
    (s.eng (engOf c e)).setup = some o → 64 * op.addr.toNat + 256 * o.t ≤ 2 ^ 21 → (s.core c).bad (64 * op.addr.toNat) (256 * o.t) = false →
    let x := fun t j => sx 48 ((s.core c).buf.rdLe (64 * op.addr.toNat + 8 * (32 * t + j)) 6)
    let old := fun t j => (s.eng (engOf c e)).bank.at (32 * t + j)
    (s.fld (Fld.ENG_STATUS_COMP_BANK (engOf c e)) = 1 ∧ (∀ t j, t < o.t → j < 32 → (old t j).h.toNat ≤ 16 ∧
        -(2 ^ 47) ≤ (old t j).value + x t j ∧ (old t j).value + x t j < 2 ^ 47) ∨
      s.fld (Fld.ENG_STATUS_COMP_BANK (engOf c e)) = 0 ∧ (∀ t j, t < o.t → j < 32 → (old t j).h = 0#5 ∧
        -(2 ^ 31) ≤ (old t j).m.toInt + x t j ∧ (old t j).m.toInt + x t j < 2 ^ 31)) →
    ∃ u, exec (.merge c e op) s = .next u ∧
      (∀ t j, t < o.t → j < 32 → ((u.eng (engOf c e)).bank.at (32 * t + j)).value = (old t j).value + x t j) ∧
      (∀ n, 32 * o.t ≤ n → (u.eng (engOf c e)).bank.at n = (s.eng (engOf c e)).bank.at n) ∧
      u.fld (Fld.ENG_STATUS_COMP_BANK (engOf c e)) = s.fld (Fld.ENG_STATUS_COMP_BANK (engOf c e)) ∧
      (∀ g, g ≠ engOf c e → u.eng g = s.eng g) ∧ s.sameMemory u ∧
      s.sameRegs u [Rg.ENG_LFSR_STATE (engOf c e), (Fld.ENG_STATUS_COMP_BANK (engOf c e)).addr]

/-- FETCH draws its credits and waits for its data (R42, R48, R50, R54, R228, R233, R234). FETCH of one tile of a live object of the
core's partition, its directory line cached and the credits there, draws UNITS credits, notes the home it reads from and keeps its place
in Q5; nothing in any memory changes. While another fetch of the core is in flight it waits and nothing changes (log entry 19). UNITS of
0, a run past the destination or one that does not end with a tile, and an object that does not exist, is not live or is of another
partition are a fetch error. -/
def Obligations.FetchDrawsAndWaits : Prop :=
  (∀ (c : CoreId) (f : FetchOp) (s : State) (x : Obj) (n : Nat),
    s.atHead c 5 (.fetch c f) → s.boot.fault = none → NMap.find s.fetches c.val = none → f.units.val ≠ 0 →
    f.slot.val + f.units.val ≤ (if f.toCache then 1024 else 512) → s.obj f.object.toNat = some x → x.live = true →
    x.belongs (s.partOf c) = true → x.state ≠ .quarantined → s.runTilesOf x 64 f.tile.toNat f.units.val = some [(f.tile.toNat, f.units.val, n)] →
    (∀ b, x.dirBurst f.tile.toNat = some b →
      (NMap.get [] s.place.dirCache (frameDie (b / 1024))).contains (f.object.toNat, f.tile.toNat / 8) = true) →
    (x.policy ≠ .resident ∨ (s.dirEnt f.object.toNat x f.tile.toNat).home = .stack) → f.units.val ≤ s.leftFor c 5 (credFld c f.credit) →
    let ent := s.dirEnt f.object.toNat x f.tile.toNat
    ∃ t r q, exec (.fetch c f) s = .next t ∧ t.fld (credFld c f.credit) = s.fld (credFld c f.credit) - f.units.val ∧
      NMap.find t.fetches c.val = some r ∧ r.op = f ∧ r.tiles = [q] ∧ q.tile = f.tile.toNat ∧ q.units = f.units.val ∧
      q.src = (match ent.home with | .stack => .frame ent.frame | .host => .page ent.page | .origin => .origin | .none => .zeros) ∧
      (∀ p, (t.core c).queue p = (s.core c).queue p ∧ (t.core c).segQueue p = (s.core c).segQueue p) ∧
      (((s.core c).head 5).map Prod.snd = some false → 5 ∈ (t.core c).held) ∧ (∀ d, d ≠ c.val → t.core d = s.core d) ∧ s.sameMemory t) ∧
  (∀ (c : CoreId) (f : FetchOp) (s : State), s.boot.fault = none → (NMap.find s.fetches c.val).isSome = true → exec (.fetch c f) s = .next s) ∧
  (∀ (c : CoreId) (f : FetchOp) (s : State), s.atHead c 5 (.fetch c f) → s.boot.fault = none → NMap.find s.fetches c.val = none →
    (f.units.val = 0 ∨ (if f.toCache then 1024 else 512) < f.slot.val + f.units.val ∨ s.obj f.object.toNat = none ∨
      ∃ x, s.obj f.object.toNat = some x ∧
        (x.live = false ∨ x.belongs (s.partOf c) = false ∨ s.runTilesOf x 64 f.tile.toNat f.units.val = none)) →
    ∃ t, exec (.fetch c f) s = .next t ∧ t.fld (Fld.SEQ_ERROR_FETCH_ERROR c) = 1 ∧
      (s.tickState = stRunning → t.tickState = stAbandoning ∧ t.fetches = []))

/-- Arriving data fills the destination and the fetch completes (R48, R217, R230, R242, R244). FETCH_DATA_ARRIVAL of a fetch of one tile,
from a host page, from a frame whose data is good or of a tile never written, writes its bytes at the slot of the core buffer or of the
cluster cache, leaves every other byte of it, removes the fetch and counts it with its units. -/
def Obligations.FetchDataArrives : Prop :=
  ∀ (c : CoreId) (s : State) (r : FetchRun) (x : Obj) (q : FetchTile), s.boot.fault = none → NMap.find s.fetches c.val = some r → r.tiles = [q] →
    s.obj r.op.object.toNat = some x → q.poison = false → q.units = r.op.units.val → (∀ p ∈ s.place.objs, p.2.state ≠ .deleting) →
    let s0 := { s with fetches := NMap.del s.fetches c.val }
    let bs : List Byte := match q.src with
      | .page pg => s.host.rdBlk (s.pageAddr pg) q.stored
      | .frame f => (s0.readFrame (some (s.partOf c)) f q.stored).1.1
      | _ => List.replicate q.stored 0#8
    (match q.src with
      | .page pg => s.pageOk pg = true
      | .frame f => frameFl f < s.frameN ∧ (s0.readFrame (some (s.partOf c)) f q.stored).1.2 = [] ∧ (s0.readFrame (some (s.partOf c)) f q.stored).2.boot.fault = none
      | .zeros => True
      | _ => False) →
    ∃ t, exec (.fetchDataArrival c []) s = .next t ∧ NMap.find t.fetches c.val = none ∧
      t.ctr (Ct.CLC_FETCHES (clusterOf c)) = (s.ctr (Ct.CLC_FETCHES (clusterOf c))).plus 1 ∧
      t.ctr (Ct.CLC_FETCH_UNITS (clusterOf c)) = (s.ctr (Ct.CLC_FETCH_UNITS (clusterOf c))).plus r.op.units.val ∧
      (r.op.toCache = false → (∀ i, i < bs.length → (t.core c).buf.rd (4096 * r.op.slot.val + i) = bs.getD i 0#8) ∧
        (∀ a, a < 4096 * r.op.slot.val ∨ 4096 * r.op.slot.val + bs.length ≤ a → (t.core c).buf.rd a = (s.core c).buf.rd a)) ∧
      (r.op.toCache = true → (∀ i, i < bs.length → (t.cluster (clusterOf c)).cache.rd (4096 * r.op.slot.val + i) = bs.getD i 0#8) ∧
        (∀ a, a < 4096 * r.op.slot.val ∨ 4096 * r.op.slot.val + bs.length ≤ a →
          (t.cluster (clusterOf c)).cache.rd a = (s.cluster (clusterOf c)).cache.rd a))

/-- The check of a decoded tile and the refetch of a held one (R54, R185, R186, R187, R249). TILE_SUM_CHECK takes the oldest tile off the
list; a good sum changes no byte, a bad one sets SUM_ERROR, counts it and abandons the running step. TILE_REFETCH_COMPLETE of a port held
for parity or skew, the core's one port that is held, writes the good copy read again from the tile's home over the old one and releases
the hold. -/
def Obligations.TileChecksAndRefetches : Prop :=
  (∀ (c : CoreId) (e : EngId) (s : State) (k : SumCheck) (rest : List SumCheck), (s.eng (engOf c e)).sums = k :: rest → k.ok = true →
    ∃ t, exec (.tileSumCheck c e) s = .next t ∧ (t.eng (engOf c e)).sums = rest ∧ (rest = [] → t.fld (Fld.EXP_STATUS_DECODING (engOf c e)) = 0) ∧
      (∀ g, g ≠ engOf c e → t.eng g = s.eng g) ∧ s.sameMemory t ∧ t.ctr (Ct.EXP_SUM_ERRORS (engOf c e)) = s.ctr (Ct.EXP_SUM_ERRORS (engOf c e))) ∧
  (∀ (c : CoreId) (e : EngId) (s : State) (k : SumCheck) (rest : List SumCheck), (s.eng (engOf c e)).sums = k :: rest → k.ok = false →
    ∃ t, exec (.tileSumCheck c e) s = .next t ∧ t.fld (Fld.EXP_STATUS_SUM_ERROR (engOf c e)) = 1 ∧
      t.ctr (Ct.EXP_SUM_ERRORS (engOf c e)) = (s.ctr (Ct.EXP_SUM_ERRORS (engOf c e))).plus 1 ∧
      (s.tickState = stRunning → t.tickState = stAbandoning ∧ t.flights = [])) ∧
  (∀ (c : CoreId) (e : EngId) (s s1 : State) (h : Hold) (x : Obj) (bs : List Byte), (s.eng (engOf c e)).hold = some h → h.why ≠ .poison →
    h.scale = none → s.obj h.object = some x → x.state ≠ .quarantined → (s.dirEnt h.object x h.tile).poisoned = false →
    (∀ p ∈ s.engs, p.1 / 4 = c.val → p = (engOf c e, s.eng (engOf c e)) ∨ p.2.hold = none) →
    s.readHome (some (s.partOf c)) h.object x h.tile (s.dirEnt h.object x h.tile) = (.bytes bs [], s1) → s1.boot.fault = none →
    ∃ t, exec (.tileRefetchComplete c e) s = .next t ∧ (t.eng (engOf c e)).hold = none ∧ (t.eng (engOf c e)).dec = none ∧
      (∀ i, i < bs.length → (t.core c).buf.rd (h.addr + i) = bs.getD i 0#8))

/-- SEND and RELEASE send one message over their channel (R49, R50, R137, R297, R298, R301). SEND draws one credit for every 64 units
once the lower-numbered queues have drawn theirs, and waits without effect for want of them; its bytes, coded as WIRE says, leave as one
message with the channel's header; RELEASE sends one without data. A message for the device itself enters its loop, one without a way is
recorded, and one for another member is queued on the port that the bundle picks. No byte of any memory changes. A SEND over a unit of
bad parity is not in this statement. -/
def Obligations.MessagesLeaveOnChannels : Prop :=
  (∀ (c : CoreId) (o : SendOp) (s : State), s.atHead c 6 (.send c o) → o.amount ≠ 0#8 → o.wire.val ≠ 3 →
    s.inForce (Fld.VEC_LINK_CH_A_VALID c o.ch) = 1 → (o.wire.val = 2 → (o.len.toNat + 1) % 2 = 0) →
    64 * (o.src.toNat + o.len.toNat + 1) ≤ 2 ^ 21 →
    let cr := credFld c (s.inForce (Fld.VEC_LINK_CH_A_LOCAL_CREDIT c o.ch))
    let need := ceilDiv (o.len.toNat + 1) 64
    need ≤ s.leftFor c 6 cr → (s.core c).bad (64 * o.src.toNat) (64 * (o.len.toNat + 1)) = false →
    let m : TensorMsg := ⟨s.chanHdr c o.ch (s.inForce (Fld.VEC_LINK_CH_B_PEER_BASE c o.ch) + o.destOfs.toNat) o.len.toNat
      (s.inForce (Fld.VEC_LINK_CH_A_PEER_TOKEN c o.ch)) o.amount.toNat o.wire,
      wireEncode o.wire ((s.core c).buf.rdBlk (64 * o.src.toNat) (64 * (o.len.toNat + 1)))⟩
    let s1 := s.setFld cr (s.fld cr - need)
    ∃ t, exec (.send c o) s = .next t ∧ t.fld cr = s.fld cr - need ∧ s.sameMemory t ∧
      (m.hdr.destMember.val = s.me → t.link.loop = s.link.loop ++ [m] ∧ t.outs = s.outs) ∧
      (m.hdr.destMember.val ≠ s.me → s1.route m.hdr.destMember = none → t.told .routeNone m.hdr.destMember 0 0) ∧
      (∀ b p, m.hdr.destMember.val ≠ s.me → s1.route m.hdr.destMember = some b → s1.pickPort (s1.liveOf b) = some p →
        (s.linksQuiet = true ∨ 1024 ≤ (s.port p).unacked.length ∨ (s.port p).queue = [] ∧ (s.port p).credits 2 = 0) →
        (t.port p).queue = (s.port p).queue ++ [mkTx 2 m.bytes])) ∧
  (∀ (c : CoreId) (o : SendOp) (s : State), s.atHead c 6 (.send c o) → o.amount ≠ 0#8 → o.wire.val ≠ 3 →
    s.inForce (Fld.VEC_LINK_CH_A_VALID c o.ch) = 1 → (o.wire.val = 2 → (o.len.toNat + 1) % 2 = 0) →
    64 * (o.src.toNat + o.len.toNat + 1) ≤ 2 ^ 21 →
    s.leftFor c 6 (credFld c (s.inForce (Fld.VEC_LINK_CH_A_LOCAL_CREDIT c o.ch))) < ceilDiv (o.len.toNat + 1) 64 → exec (.send c o) s = .next s) ∧
  (∀ (c : CoreId) (o : ReleaseOp) (s : State), s.atHead c 6 (.release c o) → o.amount ≠ 0#8 → s.inForce (Fld.VEC_LINK_CH_A_VALID c o.ch) = 1 →
    let m : TensorMsg := ⟨s.chanHdr c o.ch (s.inForce (Fld.VEC_LINK_CH_B_PEER_BASE c o.ch)) 0 (s.inForce (Fld.VEC_LINK_CH_B_PEER_CREDIT c o.ch))
      o.amount.toNat 3, []⟩
    ∃ t, exec (.release c o) s = .next t ∧ s.sameMemory t ∧
      (m.hdr.destMember.val = s.me → t.link.loop = s.link.loop ++ [m] ∧ s.sameRegs t []) ∧
      (m.hdr.destMember.val ≠ s.me → s.route m.hdr.destMember = none → t.told .routeNone m.hdr.destMember 0 0) ∧
      (∀ b p, m.hdr.destMember.val ≠ s.me → s.route m.hdr.destMember = some b → s.pickPort (s.liveOf b) = some p →
        (s.linksQuiet = true ∨ 1024 ≤ (s.port p).unacked.length ∨ (s.port p).queue = [] ∧ (s.port p).credits 2 = 0) →
        (t.port p).queue = (s.port p).queue ++ [mkTx 2 m.bytes]))

/-- A tensor message is delivered, held, discarded or forwarded (R51, R301, R302, R303, R304, R305, R306, R316). TENSOR_MESSAGE of the
tick in progress, raw, that passes every check writes its bytes at the destination and adds its amount to the token; of the next tick it
is held; of another group it is discarded and counted. HOLD_AREA_MOVE moves the first waiting message into the hold area. MESSAGE_FORWARD
sends a message for another member on with one more hop, never back over the bundle it came on, discards it beyond 32 hops or without a
way, and leaves it waiting behind one that waits for the hold area. The check number and the packing of the discard entry are the model's
(log entry 58). -/
def Obligations.MessagesAreDelivered : Prop :=
  (∀ (p : Option PortId) (m : TensorMsg) (s : State), m.hdr.destMember.val = s.me → (∀ q, p = some q → (s.port q).blocked = []) →
    s.tickState ≠ stDisabled → m.hdr.groupId.toNat = s.fld Fld.GARNET_GROUP_GROUP_ID → m.hdr.tick = s.tickNo →
    m.hdr.part.val = s.partOf m.hdr.destCore → m.hdr.wire.val = 0 → m.data ≠ [] →
    m.hdr.destAddr.toNat + m.hdr.unitsM1.toNat < (if m.hdr.toCache then 65536 else 32768) →
    s.fld (Fld.SEQ_STATUS_ENDED m.hdr.destCore) = 0 →
    s.fld (tokFld m.hdr.destCore m.hdr.token) + m.hdr.amount.toNat ≤ 0xFFFF →
    let a := 64 * m.hdr.destAddr.toNat
    ∃ t, exec (.tensorMessage p m) s = .next t ∧
      t.fld (tokFld m.hdr.destCore m.hdr.token) = s.fld (tokFld m.hdr.destCore m.hdr.token) + m.hdr.amount.toNat ∧
      s.sameRegs t [(tokFld m.hdr.destCore m.hdr.token).addr] ∧ t.mem = s.mem ∧ t.host = s.host ∧
      (if m.hdr.toCache then
        (∀ i, i < m.data.length → (t.cluster (clusterOf m.hdr.destCore)).cache.rd (a + i) = m.data.getD i 0#8) ∧
        (∀ k, k < a ∨ a + m.data.length ≤ k →
          (t.cluster (clusterOf m.hdr.destCore)).cache.rd k = (s.cluster (clusterOf m.hdr.destCore)).cache.rd k) ∧
        ∀ c, (t.core c).buf = (s.core c).buf
      else
        (∀ i, i < m.data.length → (t.core m.hdr.destCore).buf.rd (a + i) = m.data.getD i 0#8) ∧
        (∀ k, k < a ∨ a + m.data.length ≤ k → (t.core m.hdr.destCore).buf.rd k = (s.core m.hdr.destCore).buf.rd k) ∧
        ∀ k, t.cluster k = s.cluster k)) ∧
  (∀ (p : PortId) (m : TensorMsg) (s : State), m.hdr.destMember.val = s.me → (s.port p).blocked = [] →
    s.tickState ≠ stDisabled → m.hdr.groupId.toNat = s.fld Fld.GARNET_GROUP_GROUP_ID → m.hdr.tick = s.tickNo + 1#32 →
    s.holdUsed + m.data.length ≤ 8388608 →
    ∃ t, exec (.tensorMessage (some p) m) s = .next t ∧ t.link.hold = s.link.hold ++ [⟨some p, m⟩] ∧
      t.ctr (Ct.LNK_MSG_HELD p) = (s.ctr (Ct.LNK_MSG_HELD p)).plus 1 ∧ s.sameMemory t) ∧
  (∀ (p : PortId) (m : TensorMsg) (s : State), m.hdr.destMember.val = s.me → (s.port p).blocked = [] →
    s.tickState ≠ stDisabled → m.hdr.groupId.toNat ≠ s.fld Fld.GARNET_GROUP_GROUP_ID →
    ∃ t, exec (.tensorMessage (some p) m) s = .next t ∧ t.ctr (Ct.LNK_MSG_DISCARDED p) = (s.ctr (Ct.LNK_MSG_DISCARDED p)).plus 1 ∧
      t.told .msgDiscarded p (m.hdr.srcMember + 2 ^ 16 * m.hdr.srcCore.val) 2 ∧ s.sameRegs t [] ∧ s.sameMemory t) ∧
  (∀ (p : PortId) (m : HeldMsg) (rest : List HeldMsg) (s : State), (s.port p).blocked = m :: rest → s.holdUsed + m.msg.data.length ≤ 8388608 →
    m.port = some p →
    ∃ t, exec (.holdAreaMove p) s = .next t ∧ (t.port p).blocked = rest ∧ t.link.hold = s.link.hold ++ [m] ∧
      t.ctr (Ct.LNK_MSG_HELD p) = (s.ctr (Ct.LNK_MSG_HELD p)).plus 1 ∧ (rest = [] → t.fld (Fld.LNK_STATUS_HOLD_FULL p) = 0) ∧ s.sameMemory t) ∧
  (∀ (p : PortId) (m : TensorMsg) (s : State), m.hdr.destMember.val ≠ s.me → (s.port p).blocked = [] →
    let s1 := (s.takeArrived p 2 fun bs => TensorMsg.ofBytes bs == m).freeFlits p 2 (flitsFor m.bytes.length)
    ∃ t, exec (.messageForward p (.tensor m)) s = .next t ∧ s.sameMemory t ∧
      (32 ≤ m.hdr.hops.toNat → t.ctr (Ct.LNK_MSG_DISCARDED p) = (s.ctr (Ct.LNK_MSG_DISCARDED p)).plus 1 ∧
        t.told .msgDiscarded p (m.hdr.srcMember + 2 ^ 16 * m.hdr.srcCore.val) 0) ∧
      (m.hdr.hops.toNat < 32 → s1.routeOn m.hdr.destMember (some (bundleOf p)) = none →
        t.ctr (Ct.LNK_MSG_DISCARDED p) = (s.ctr (Ct.LNK_MSG_DISCARDED p)).plus 1 ∧ t.told .routeNone m.hdr.destMember 0 0) ∧
      (∀ b q, m.hdr.hops.toNat < 32 → s1.routeOn m.hdr.destMember (some (bundleOf p)) = some b → s1.pickPort (s1.liveOf b) = some q →
        (s.linksQuiet = true ∨ 1024 ≤ (s.port q).unacked.length ∨ (s.port q).queue = [] ∧ (s.port q).credits 2 = 0) →
        (t.port q).queue = (s.port q).queue ++ [mkTx 2 { m with hdr := { m.hdr with hops := m.hdr.hops + 1#8 } }.bytes])) ∧
  (∀ (p : PortId) (m : TensorMsg) (s : State), (s.port p).blocked ≠ [] →
    exec (.messageForward p (.tensor m)) s = .next s ∧ (m.hdr.destMember.val = s.me → exec (.tensorMessage (some p) m) s = .next s))

/-- Flits are checked, accepted in order, acknowledged and replayed (R287, R288, R289, R290, R291, R292, R293, R408, R415). Byte i of a
flit stands on lane number i mod W of the W lanes in service, sent and received. On a port that is UP a good flit in sequence is accepted
and the expected sequence moves on; an earlier one is discarded; one ahead of it is answered with one NAK; one of bad CRC is counted and
nothing is accepted, whatever its type. IDLE carries the acknowledgement that empties the replay buffer, NAK starts a replay, and the two
timeouts send a NAK again and replay, unless the ports are quiet (S3, PWRFAIL_N). No byte of any memory changes. -/
def Obligations.FlitsInOrderAreAccepted : Prop :=
  let hdr := fun (s : State) (p : PortId) (f : FlitIn) => BitVec.ofNat 96 (leNat ((s.flitOf p f).take 12))
  let good := fun (s : State) (p : PortId) (f : FlitIn) => f.uncorr = false ∧ (s.flitOf p f).length = 256 ∧
    leNat ((s.flitOf p f).drop 252) = (crc32 ((s.flitOf p f).take 252)).toNat
  (∀ (lanes : List Nat) (bs : List Byte) (i : Nat), lanes ≠ [] → lanes.Nodup → i < bs.length →
    ∃ col, (lanes.getD (i % lanes.length) 0, col) ∈ stripe lanes bs ∧ col.getD (i / lanes.length) 0#8 = bs.getD i 0#8) ∧
  (∀ (s : State) (p : PortId) (f : FlitIn) (i : Nat), i < (s.flitOf p f).length →
    (s.flitOf p f).getD i 0#8 = (f.lanes.getD ((s.lanesOf p).getD (i % (s.lanesOf p).length) 0) []).getD (i / (s.lanesOf p).length) 0#8) ∧
  (∀ (p : PortId) (f : FlitIn) (s : State), s.pState p = pUp → good s p f → (bvGet 0 4 (hdr s p f) = 1 ∨ bvGet 0 4 (hdr s p f) = 2) →
    (bvGet 4 2 (hdr s p f) = 1 ∨ bvGet 4 2 (hdr s p f) = 2) →
    (bvGet 8 16 (hdr s p f) = (s.port p).rxNext.toNat →
      ∃ t, exec (.sequencedFlit p f) s = .next t ∧ (t.port p).rxNext = (s.port p).rxNext + 1#16 ∧ (t.port p).ackValid = true ∧
        t.ctr (Ct.LNK_RX_FLITS p) = (s.ctr (Ct.LNK_RX_FLITS p)).plus 1 ∧ s.sameMemory t) ∧
    (32768 ≤ (BitVec.ofNat 16 (bvGet 8 16 (hdr s p f)) - (s.port p).rxNext).toNat →
      ∃ t, exec (.sequencedFlit p f) s = .next t ∧ (t.port p).rxNext = (s.port p).rxNext ∧ (t.port p).arrived = (s.port p).arrived ∧
        (t.port p).nakAt = (s.port p).nakAt ∧ t.ctr (Ct.LNK_NAKS_SENT p) = s.ctr (Ct.LNK_NAKS_SENT p) ∧
        t.ctr (Ct.LNK_RX_FLITS p) = s.ctr (Ct.LNK_RX_FLITS p) ∧ s.sameMemory t) ∧
    ((s.port p).nakAt ≠ none → 0 < (BitVec.ofNat 16 (bvGet 8 16 (hdr s p f)) - (s.port p).rxNext).toNat →
      (BitVec.ofNat 16 (bvGet 8 16 (hdr s p f)) - (s.port p).rxNext).toNat < 32768 →
      ∃ t, exec (.sequencedFlit p f) s = .next t ∧ (t.port p).rxNext = (s.port p).rxNext ∧ (t.port p).nakAt = (s.port p).nakAt ∧
        t.ctr (Ct.LNK_NAKS_SENT p) = s.ctr (Ct.LNK_NAKS_SENT p) ∧ s.sameMemory t) ∧
    ((s.port p).nakAt = none → s.linksQuiet = false → 0 < (BitVec.ofNat 16 (bvGet 8 16 (hdr s p f)) - (s.port p).rxNext).toNat →
      (BitVec.ofNat 16 (bvGet 8 16 (hdr s p f)) - (s.port p).rxNext).toNat < 32768 →
      ∃ t, exec (.sequencedFlit p f) s = .next t ∧ (t.port p).rxNext = (s.port p).rxNext ∧ (t.port p).nakAt = some s.now ∧
        t.ctr (Ct.LNK_NAKS_SENT p) = (s.ctr (Ct.LNK_NAKS_SENT p)).plus 1 ∧ s.sameMemory t)) ∧
  (∀ (p : PortId) (f : FlitIn) (s : State) (i : Instr), i ∈ [Instr.sequencedFlit p f, .idle p f, .nak p f] → s.pState p = pUp → f.uncorr = false →
    ((s.flitOf p f).length ≠ 256 ∨ leNat ((s.flitOf p f).drop 252) ≠ (crc32 ((s.flitOf p f).take 252)).toNat) →
    ∃ t, exec i s = .next t ∧ t.ctr (Ct.LNK_CRC_ERRORS p) = (s.ctr (Ct.LNK_CRC_ERRORS p)).plus 1 ∧ (t.port p).rxNext = (s.port p).rxNext ∧
      ((s.port p).queue = [] → (t.port p).unacked = (s.port p).unacked) ∧ s.sameMemory t) ∧
  (∀ (p : PortId) (f : FlitIn) (s : State), s.pState p = pUp → good s p f → bvGet 0 4 (hdr s p f) = 0 → (s.port p).queue = [] →
    ∃ t, exec (.idle p f) s = .next t ∧ (t.port p).rxNext = (s.port p).rxNext ∧ s.sameMemory t ∧ ((∀ q, (s.port q).queue = []) → s.sameRegs t []) ∧
      (t.port p).unacked = if bvBit 40 (hdr s p f) then
        (s.port p).unacked.filter fun x => decide (32768 ≤ (BitVec.ofNat 16 (bvGet 24 16 (hdr s p f)) - x.seq).toNat) else (s.port p).unacked) ∧
  (∀ (p : PortId) (f : FlitIn) (s : State), s.pState p = pUp → good s p f → bvGet 0 4 (hdr s p f) = 4 → (s.port p).replays < 16 → s.linksQuiet = false →
    ∃ t, exec (.nak p f) s = .next t ∧ t.ctr (Ct.LNK_REPLAYS p) = (s.ctr (Ct.LNK_REPLAYS p)).plus 1 ∧ (t.port p).rxNext = (s.port p).rxNext ∧
      s.sameMemory t) ∧
  (∀ (p : PortId) (s : State) (at_ : Nat), s.pState p = pUp → (s.port p).nakAt = some at_ → s.linksQuiet = false →
    ∃ t, exec (.nakRetryTimeout p) s = .next t ∧ t.now = max s.now (at_ + 2) ∧ (t.port p).nakAt = some t.now ∧
      t.ctr (Ct.LNK_NAKS_SENT p) = (s.ctr (Ct.LNK_NAKS_SENT p)).plus 1 ∧ s.sameRegs t [(wdogLeft 0).addr, (wdogLeft 1).addr] ∧ s.sameMemory t) ∧
  (∀ (p : PortId) (s : State) (f : TxFlit) (fs : List TxFlit), s.pState p = pUp → (s.port p).unacked = f :: fs →
    ∃ t, exec (.replayTimeout p) s = .next t ∧ t.now = max s.now ((s.port p).progressAt + 4) ∧ s.sameMemory t ∧
      ((s.port p).replays < 16 → s.linksQuiet = false → t.ctr (Ct.LNK_REPLAYS p) = (s.ctr (Ct.LNK_REPLAYS p)).plus 1 ∧ (t.port p).replays = (s.port p).replays + 1 ∧
        (t.port p).unacked = f :: fs) ∧
      (16 ≤ (s.port p).replays → t.ctr (Ct.LNK_RETRAINS p) = (s.ctr (Ct.LNK_RETRAINS p)).plus 1 ∧ t.told .portRetrain p 1 0))

/-- Lanes drop out, ports restripe, train and relink (R291, R295, R296, R309, R310, R311, R315, R320, R326, R367). LANE_FAIL takes a lane
out of service, with at least two left the port is DEGRADING, else it goes down; LINK_CTRL agrees the lanes of both directions; its
handback record puts what the peer lacks back on the other ports of the bundle, or leaves it queued where there are none, and the port
trains; a port DOWN or TRAINING that gets one answers with its own; RESTRIPE_DONE and a good PORT_TRAINED bring the port UP; RETRAIN
takes it down. RELINK_WAIT_EXPIRY starts the training of a span unless it would pass four bypassed positions in a row, and RELINK_ATTEMPT
that reaches past the lost member bypasses it (the entry's bundle number is log entry 40). INJ_CTRL needs TEST_ENABLE. No byte of any
memory changes. -/
def Obligations.PortsChangeLanes : Prop :=
  (∀ (p : PortId) (l : Fin 4) (s : State), (s.pState p = pUp ∨ s.pState p = pDegrading) → (s.fld (Fld.LNK_LANES_LANE_OK p)).testBit l = true →
    let left := (bitsSet (BitVec.ofNat 4 (s.fld (Fld.LNK_LANES_LANE_OK p) - 2 ^ l.val))).length
    ∃ t, exec (.laneFail p l) s = .next t ∧ t.ctr (Ct.LNK_DEGRADES p) = (s.ctr (Ct.LNK_DEGRADES p)).plus 1 ∧
      t.fld (Fld.LNK_STATUS_DEGRADED p) = 1 ∧ (t.fld (Fld.LNK_LANES_LANE_FAILED p)).testBit l = true ∧ s.sameMemory t ∧
      (2 ≤ left → t.fld (Fld.LNK_LANES_LANE_OK p) = s.fld (Fld.LNK_LANES_LANE_OK p) - 2 ^ l.val ∧ t.pState p = pDegrading ∧
        t.told .laneDropped p l left) ∧
      (left < 2 → t.fld (Fld.LNK_LANES_LANE_OK p) = 0 ∧ t.ctr (Ct.LNK_RETRAINS p) = (s.ctr (Ct.LNK_RETRAINS p)).plus 1 ∧ t.told .portRetrain p 0 0)) ∧
  (∀ (p : PortId) (good : BitVec 4) (s : State), (s.pState p = pUp ∨ s.pState p = pDegrading) →
    2 ≤ (bitsSet (BitVec.ofNat 4 (s.fld (Fld.LNK_LANES_LANE_OK p)) &&& good)).length →
    ∃ t, exec (.linkCtrl p (.lanes good)) s = .next t ∧ t.pState p = pDegrading ∧ s.sameMemory t ∧
      t.fld (Fld.LNK_LANES_LANE_OK p) = (BitVec.ofNat 4 (s.fld (Fld.LNK_LANES_LANE_OK p)) &&& good).toNat ∧
      (t.port p).agreed = some (BitVec.ofNat 4 (s.fld (Fld.LNK_LANES_LANE_OK p)) &&& good)) ∧
  (∀ (p q : PortId) (last : BitVec 16) (v : Bool) (s : State), s.pState q = pHandback → s.liveOf (bundleOf q) = [] →
    ∃ t, exec (.linkCtrl p (.handback q last v)) s = .next t ∧ s.sameMemory t ∧
      t.pState q = (if s.fld (Fld.LNK_CTRL_ENABLE q) = 1 ∧ q.val / 2 ∉ s.power.oeDown ∧ s.hasPeer (bundleOf q) ∧ s.spanLen (bundleOf q) none ≤ 3
        then pTraining else pDown) ∧
      t.link.parked = s.link.parked ++ (((s.port q).sent.filter fun m =>
        !(v && m.whole.any fun f => f.last && decide ((last - f.seq).toNat < 32768))) ++ (s.port q).queue).map fun m =>
          (bundleOf q, { m with flits := m.whole })) ∧
  (∀ (p q r : PortId) (last : BitVec 16) (v : Bool) (s : State), s.pState q = pHandback → s.liveOf (bundleOf q) = [r.val] →
    1024 ≤ (s.port r).unacked.length →
    ∃ t, exec (.linkCtrl p (.handback q last v)) s = .next t ∧ s.sameMemory t ∧
      t.pState q = (if s.fld (Fld.LNK_CTRL_ENABLE q) = 1 ∧ q.val / 2 ∉ s.power.oeDown ∧ s.hasPeer (bundleOf q) ∧ s.spanLen (bundleOf q) none ≤ 3
        then pTraining else pDown) ∧
      (t.port r).queue = (s.port r).queue ++ (((s.port q).sent.filter fun m =>
        !(v && m.whole.any fun f => f.last && decide ((last - f.seq).toNat < 32768))) ++ (s.port q).queue).map fun m => { m with flits := m.whole }) ∧
  (∀ (p q : PortId) (last : BitVec 16) (v : Bool) (s : State), (s.pState q = pDown ∨ s.pState q = pTraining) →
    ∃ t, exec (.linkCtrl p (.handback q last v)) s = .next t ∧ (t.port q).record = none ∧ t.pState q = s.pState q ∧ s.sameMemory t ∧
      s.sameRegs t [] ∧ (∀ x, (s.port q).record = some x → s.linksQuiet = false → t.outs = s.outs ++
        [.flit p (stripe (s.lanesOf p) ((s.port p).flitBytes ⟨5, 0, false, (s.port p).txNext, handbackPayload q x.1 x.2⟩))])) ∧
  (∀ (p : PortId) (g : BitVec 4) (s : State), s.pState p = pDegrading → (s.port p).agreed = some g →
    ∃ t, exec (.restripeDone p) s = .next t ∧ t.pState p = pUp ∧ t.fld (Fld.LNK_STATUS_LANES_UP p) = (bitsSet g).length ∧
      (t.port p).agreed = none ∧ s.sameMemory t) ∧
  (∀ (p : PortId) (r : TrainEnd) (s : State), s.pState p = pTraining → 2 ≤ (bitsSet r.good).length → s.peerOk p r none = true →
    ∃ t, exec (.portTrained p r) s = .next t ∧ s.now ≤ t.now ∧ (s.port p).trainAt + 25000 ≤ t.now ∧ t.pState p = pUp ∧
      t.fld (Fld.LNK_STATUS_LANES_UP p) = (bitsSet r.good).length ∧ t.fld (Fld.LNK_LANES_LANE_OK p) = r.good.toNat ∧
      t.fld (Fld.LNK_PEER_PEER_MEMBER p) = r.peer ∧ s.sameMemory t) ∧
  (∀ (p : PortId) (s : State), s.serves (Rg.LNK_CTRL p) = true →
    ∃ t, exec (.retrain p) s = .next t ∧ t.ctr (Ct.LNK_RETRAINS p) = (s.ctr (Ct.LNK_RETRAINS p)).plus 1 ∧ t.fld (Fld.LNK_LANES_LANE_OK p) = 0 ∧
      t.fld (Fld.LNK_STATUS_LANES_UP p) = 0 ∧ t.told .portRetrain p 2 0 ∧ s.sameMemory t) ∧
  (∀ (b : Bundle) (r : Relink) (s : State), NMap.find s.link.relinks (Bundle.num b) = some r → r.training = false →
    ∃ t, exec (.relinkWaitExpiry b) s = .next t ∧ t.now = max s.now (r.since + 10000) ∧ s.sameMemory t ∧
      (s.spanLen b (some r.lost) ≤ 3 → NMap.find t.link.relinks (Bundle.num b) = some { r with training := true }) ∧
      (3 < s.spanLen b (some r.lost) → NMap.find t.link.relinks (Bundle.num b) = none ∧
        ∀ p ∈ b.ports, t.pState p = pDown ∧ t.fld (Fld.LNK_LANES_LANE_OK p) = 0 ∧ t.fld (Fld.LNK_STATUS_LANES_UP p) = 0)) ∧
  (∀ (b : Bundle) (k : Relink) (p : PortId) (r : TrainEnd) (s : State), NMap.find s.link.relinks (Bundle.num b) = some k → k.training = true → k.lost < 512 →
    bundleOf p = b → s.pState p = pTraining → 2 ≤ (bitsSet r.good).length → s.peerOk p r (some k.lost) = true →
    ∃ t, exec (.relinkAttempt b [(p, r)]) s = .next t ∧ NMap.find t.link.relinks (Bundle.num b) = none ∧ s.sameMemory t ∧
      (((s.along b).takeWhile fun m => m != r.peer.val).contains k.lost = true → t.mState k.lost = 2 ∧
        t.ctr Ct.TOPO_RELINKS = (s.ctr Ct.TOPO_RELINKS).plus 1 ∧ t.told .relinked k.lost (Bundle.num b) 0) ∧
      (((s.along b).takeWhile fun m => m != r.peer.val).contains k.lost = false → t.ctr Ct.TOPO_RELINKS = s.ctr Ct.TOPO_RELINKS)) ∧
  (∀ (p : PortId) (w : BitVec 32) (s : State), s.serves (Rg.LNK_INJ_CTRL p) = true →
    ∃ t, exec (.lnkInjArm p w) s = .next t ∧ s.sameMemory t ∧ s.sameRegs t [Rg.LNK_INJ_CTRL p] ∧
      (s.fld Fld.BOOT_TEST_ENABLE = 0 → t.rd (Rg.LNK_INJ_CTRL p) = s.rd (Rg.LNK_INJ_CTRL p) ∧ t.told .testDenied 0 (Rg.LNK_INJ_CTRL p) 0) ∧
      (s.fld Fld.BOOT_TEST_ENABLE = 1 → (t.port p).injSeen = 0 ∧ t.fld (Fld.LNK_INJ_CTRL_ARM p) = bvGet 0 1 w ∧
        t.fld (Fld.LNK_INJ_CTRL_VC_MASK p) = bvGet 4 3 w ∧ t.fld (Fld.LNK_INJ_CTRL_WORD p) = bvGet 8 6 w ∧
        t.fld (Fld.LNK_INJ_CTRL_KIND p) = if bvGet 2 2 w = 3 then s.fld (Fld.LNK_INJ_CTRL_KIND p) else bvGet 2 2 w))

/-- A member that falls silent, leaves or is reported lost stops the group (R36, R54, R317, R318, R319, R320, R321, R325, R327). LOSS,
LEAVING and MEMBER_SILENT of a LIVE member of the group make it LOST, take it out of the membership, clear ENABLE and record the loss
with its last tick; a running step is abandoned, with no signal left on its way (log entry 84), and a done one is not followed by
another. A member that left and faced this device waits to relink, unless it does already. No byte of the stacks changes. -/
def Obligations.LostMemberStopsGroup : Prop :=
  ∀ (i : Instr) (src lost : Member) (cause : Nat) (s : State),
    ((∃ leaving tick, i = .loss src lost leaving tick ∧ cause = bit1 leaving ∧ src.val ≠ s.me) ∨
      (∃ c tick, i = .leaving lost c tick ∧ cause = 1) ∨ (i = .memberSilent lost ∧ cause = 0 ∧ s.silenceCounts lost = true)) →
    lost.val ≠ s.me → s.inGroup lost = true → s.mState lost = 0 →
    ∃ t, exec i s = .next t ∧ t.mState lost = 1 ∧ t.fld Fld.GARNET_CTRL_ENABLE = 0 ∧ t.inForce Fld.GARNET_CTRL_ENABLE = 0 ∧
      (t.fld (Fld.GARNET_MEMBERS_MEMBER (lost.val / 32))).testBit (lost.val % 32) = false ∧
      t.fld Fld.TOPO_LAST_LOSS_MEMBER = lost ∧ t.fld Fld.TOPO_LAST_LOSS_CAUSE = cause ∧
      t.fld Fld.TOPO_LAST_LOSS_TICK_TICK = (s.lastTick lost).toNat ∧ t.ctr Ct.TOPO_LOSSES = (s.ctr Ct.TOPO_LOSSES).plus 1 ∧
      (s.tickState = stRunning → t.tickState = stAbandoning ∧ t.flights = []) ∧ (s.tickState = stDone → t.tickState = stDisabled) ∧
      (i = .memberSilent lost → t.fld Fld.GARNET_EVENTS_MEMBER_SILENT = 1) ∧
      ((∃ c tick, i = .leaving lost c tick) → ∀ b ∈ s.facing lost,
        ((NMap.find s.link.relinks (Bundle.num b)).any fun r => r.lost == lost.val) = false →
        NMap.find t.link.relinks (Bundle.num b) = some ⟨lost, s.now, false⟩) ∧
      t.mem = s.mem ∧ t.boot.nor = s.boot.nor

/-- Failover messages change the topology or tell the hosts (R300, R319, R320, R321, R322, R324, R325, R327, R351, R352). TOPO_UPDATE
sets the member's state and no other member's; TAKEOVER and THERMAL_NOTICE give one event to every enabled partition whose ring has room,
and TAKEOVER and an unused KIND are recorded. A RESET_REQUEST for a lost neighbour starts its relinking; one for this device, once it has
left, does nothing. No byte of the stacks, the core buffers or the cluster caches changes. -/
def Obligations.FailoverMessagesApply : Prop :=
  (∀ (m : Member) (st : MemberState) (s : State), ∃ t, exec (.topoUpdate m st) s = .next t ∧
    t.mState m = (match st with | .live => 0 | .lost => 1 | .bypassed => 2 | .absent => 3) ∧
    (∀ k : Member, k ≠ m → t.mState k = s.mState k) ∧ s.sameMemory t ∧ t.ctrs = s.ctrs) ∧
  (∀ (i : Instr) (s : State),
    ((∃ g lost tick, i = .takeover g lost tick) ∨ ∃ src st temp tick, i = .thermalNotice src st temp tick ∧ src.val ≠ s.me) →
    ∃ t, exec i s = .next t ∧ t.mem = s.mem ∧ (∀ c, t.core c = s.core c) ∧ (∀ k, t.cluster k = s.cluster k) ∧
      (∀ g lost tick, i = .takeover g lost tick → t.told .takeover lost g.toNat tick.toNat) ∧
      ∀ p : PartId, s.inForce (Fld.PARTN_CTRL_ENABLE p) = 1 → s.inForce (Fld.PARTN_EVT_CFG_ENABLE p) = 1 → 1 < s.evtFree p →
        t.fld (Fld.PARTN_EVT_PROD_PROD p) = (s.fld (Fld.PARTN_EVT_PROD_PROD p) + 1) % 2 ^ 32) ∧
  (∀ (m : MgmtMsg) (s : State), (m.kind.toNat = 0 ∨ 7 ≤ m.kind.toNat ∧ m.kind.toNat ≤ 0x3F) →
    ∃ t, exec (.mgmtKindUnused m) s = .next t ∧ t.told .mgmtKindUnused m.src m.kind.toNat 0 ∧ s.sameRegs t [] ∧ s.sameMemory t) ∧
  (∀ (target requester : Member) (s : State), target.val ≠ s.me → s.mState target = 1 → s.facing target ≠ [] →
    ∃ t, exec (.resetRequest target requester) s = .next t ∧ s.sameRegs t [] ∧ s.sameMemory t ∧
      ∀ b ∈ s.facing target, NMap.find t.link.relinks (Bundle.num b) = some ⟨target, s.now, false⟩) ∧
  (∀ (target requester : Member) (s : State), target.val = s.me → s.link.left = true →
    ∃ t, exec (.resetRequest target requester) s = .next t ∧ s.sameRegs t [] ∧ s.sameMemory t ∧ t.lastEvent = s.lastEvent)

/-- Agate switches open, close and report (R313, R314, R318, R326). OPEN_RING and OPEN_PLANE are refused and recorded while ENABLE is 1
(the entry's command number is log entry 43); otherwise each of their closed switches starts to move. LEAVE waits for the end of a step
in progress, else it closes all six. The movement ends at the commanded position and an opened switch's ports train; a sensor that
disagrees after 20 ms shows FAULT. No byte of any memory changes. -/
def Obligations.AgateSwitchesMove : Prop :=
  (∀ (i : Instr) (cmd : Nat) (ks : List Nat) (s : State), (i = .openRing ∧ cmd = 0 ∧ ks = [0, 1, 2, 3] ∨ i = .openPlane ∧ cmd = 1 ∧ ks = [4, 5]) →
    s.serves Rg.TOPO_AGATE_CMD = true →
    ∃ t, exec i s = .next t ∧ s.sameMemory t ∧
      (s.fld Fld.GARNET_CTRL_ENABLE = 1 → t.told .agateRefused 0 cmd 0 ∧ s.sameRegs t []) ∧
      (s.fld Fld.GARNET_CTRL_ENABLE = 0 → ∀ k ∈ ks, (∃ at_, NMap.find t.link.agate k = some (false, at_)) ∧
        (s.fld (Fld.TOPO_AGATE_STATUS_SW k) ≠ 2 → NMap.find t.link.agate k = some (false, s.now)) ∧
        (s.fld (Fld.TOPO_AGATE_STATUS_SW k) = 1 → t.fld (Fld.TOPO_AGATE_STATUS_SW k) = 2) ∧
        (s.fld (Fld.TOPO_AGATE_STATUS_SW k) = 0 → t.fld (Fld.TOPO_AGATE_STATUS_SW k) = 0))) ∧
  (∀ s : State, s.serves Rg.TOPO_AGATE_CMD = true →
    ∃ t, exec .leave s = .next t ∧ s.sameMemory t ∧
      (s.inStep = true → t = { s with link := { s.link with leave := true } }) ∧
      (s.inStep = false → t.link.leave = false ∧ ∀ k, k < 6 → (∃ at_, NMap.find t.link.agate k = some (true, at_)) ∧
        (s.fld (Fld.TOPO_AGATE_STATUS_SW k) ≠ 2 → NMap.find t.link.agate k = some (true, s.now)))) ∧
  (∀ (k : Fin 6) (want : Bool) (at_ : Nat) (s : State), NMap.find s.link.agate k.val = some (want, at_) → s.fld (Fld.TOPO_AGATE_STATUS_SW k) = 2 →
    ∃ t, exec (.agateSwitchMovementDone k) s = .next t ∧ t.fld (Fld.TOPO_AGATE_STATUS_SW k) = bit1 want ∧ s.sameMemory t ∧
      (want = false → ∀ p ∈ agatePorts k,
        t.pState p = if s.fld (Fld.LNK_CTRL_ENABLE p) = 1 ∧ p / 2 ∉ s.power.oeDown ∧ s.hasPeer (bundleOf p) ∧ s.spanLen (bundleOf p) none ≤ 3
          then pTraining else pDown)) ∧
  (∀ (k : Fin 6) (want closed : Bool) (at_ : Nat) (s : State), NMap.find s.link.agate k.val = some (want, at_) →
    ∃ t, exec (.agateSensorCheck k closed) s = .next t ∧ t.now = max s.now (at_ + 20000) ∧ s.sameMemory t ∧
      (closed = want → s.sameRegs t [(wdogLeft 0).addr, (wdogLeft 1).addr]) ∧
      (closed ≠ want → t.fld (Fld.TOPO_AGATE_STATUS_SW k) = 3 ∧ t.told .agateFault 0 k (bit1 closed)))

/-- Timer expiry, tick start, step commit, hang and abandon complete, and what each leaves (R27, R28, R30, R31, R32, R41, R54, R55, R58,
R409, R415). TICK_TIMER_EXPIRY of an enabled group whose timer runs moves the clock to the expiry and shows it. TICK_START does nothing
unless all conditions of a start hold; where they hold, the tick after the one in progress starts: its step runs unless it is abandoned,
its timer is one period on, exactly the tokens received for it are held, no signal and no fetch is left, and what R41 counts is counted;
where a fault of the stacks is met in it the device leaves instead, or its start-up fails. STEP_COMMIT waits for the step's end; it then
makes the step's writes, which always succeed where no session takes part, and the step is committed and done. ABANDON_DONE ends an
abandoned step, counts it and clears RUNNING of every core. HANG of a core that completed nothing for its limit, and waits on no tier and
no poison, sets its error and abandons the step. -/
def Obligations.TicksStartAndEnd : Prop :=
  (∀ s : State, s.ticking = true → s.fld Fld.GARNET_STATUS_TIMER_EXPIRED = 0 →
    ∃ t, exec .tickTimerExpiry s = .next t ∧ t.now = max s.now s.garnet.expireAt ∧ t.fld Fld.GARNET_STATUS_TIMER_EXPIRED = 1 ∧
      s.sameRegs t [Fld.GARNET_STATUS_TIMER_EXPIRED.addr, (wdogLeft 0).addr, (wdogLeft 1).addr] ∧ s.sameMemory t) ∧
  (∀ s : State, s.mayStart = false → exec .tickStart s = .next s) ∧
  (∀ s : State, s.ticking = true → s.fld Fld.GARNET_STATUS_TIMER_EXPIRED = 1 → s.fld Fld.GARNET_STATUS_OWN_DONE = 1 →
    s.fld Fld.GARNET_STATUS_TOKENS_COMPLETE = 1 → s.fld Fld.BOOT_STATE_STATE < 7 → s.powerState = 0 → s.fld Fld.PWR_STATUS_PWRFAIL = 0 →
    (∀ m ∈ s.garnet.heldNext, m < 512) →
    ∃ t, exec .tickStart s = .next t ∧ if s.startTick.boot.fault.isSome then t.link.left = true ∨ t.fld Fld.BOOT_STATE_STATE = 8 else
      t.tickNo = s.tickNo + 1#32 ∧ t.now = s.now ∧ t.garnet.startAt = s.now ∧
      t.garnet.expireAt = s.now + s.inForce Fld.GARNET_PERIOD_PERIOD_US ∧ t.garnet.committed = false ∧
      t.fld Fld.GARNET_STATUS_TIMER_EXPIRED = 0 ∧ t.fld Fld.GARNET_STATUS_OWN_DONE = 0 ∧
      (t.tickState = stRunning ∨ t.tickState = stAbandoning) ∧ t.flights = [] ∧ t.fetches = [] ∧
      (s.garnet.abandonNext ≠ [] → t.tickState = stAbandoning ∧ t.fld Fld.GARNET_EVENTS_ABANDON_RECEIVED = 1) ∧
      (∀ m : Member, t.holds m = true ↔ m.val ∈ s.garnet.heldNext) ∧
      t.ctr Ct.GARNET_OVERRUN_COUNT = (if s.garnet.expireAt < s.now then (s.ctr Ct.GARNET_OVERRUN_COUNT).plus 1 else s.ctr Ct.GARNET_OVERRUN_COUNT) ∧
      t.ctr Ct.GARNET_LATE_STEP_COUNT =
        (if s.garnet.expireAt < s.garnet.doneAt then (s.ctr Ct.GARNET_LATE_STEP_COUNT).plus 1 else s.ctr Ct.GARNET_LATE_STEP_COUNT)) ∧
  (∀ s : State, s.tickState = stRunning → s.stepEnded = false → exec .stepCommit s = .next s) ∧
  (∀ s : State, (∀ p ∈ s.hostq.sess, p.2.step = none) → ∃ s1, s.commitSessions = some s1 ∧ s1.mem = s.mem ∧ s1.boot.fault = s.boot.fault) ∧
  (∀ s s1 : State, s.tickState = stRunning → s.stepEnded = true → s.commitSessions = some s1 →
    ∃ t, exec .stepCommit s = .next t ∧ (s1.boot.fault = none → s.ticking = true → s.held = [] →
      t.tickState = stDone ∧ t.garnet.committed = true ∧ t.garnet.lastCommit = s.tickNo ∧ t.garnet.doneAt = s.now ∧ t.tickNo = s.tickNo ∧ t.now = s.now ∧
      (s.fld Fld.GARNET_CTRL_WITHHOLD = 0 → t.fld Fld.GARNET_STATUS_OWN_DONE = 1))) ∧
  (∀ s : State, s.tickState = stAbandoning →
    ∃ t, exec .abandonDone s = .next t ∧ t.abandonCause = none ∧ t.garnet.doneAt = s.now ∧
      (∀ c : CoreId, t.fld (Fld.SEQ_STATUS_RUNNING c) = 0) ∧ t.ctr Ct.GARNET_ABANDON_COUNT = (s.ctr Ct.GARNET_ABANDON_COUNT).plus 1 ∧
      (s.held = [] → s.ticking = true → t.tickState = stDone)) ∧
  (∀ (c : CoreId) (s : State), s.tickState = stRunning → s.fld (Fld.SEQ_STATUS_RUNNING c) = 1 → s.stalledOn c = [] → s.heldPoison c = false →
    ∃ t, exec (.hang c) s = .next t ∧ t.now = s.now + (s.hangLimit c - (s.core c).idleUs) ∧ t.fld (Fld.SEQ_ERROR_HANG c) = 1 ∧
      t.tickState = stAbandoning ∧ t.flights = [])

/-- ENABLE forms and ends the group, WITHHOLD holds the token, tokens are judged (R24, R31, R33, R36, R37, R39, R213, R285). Outside a
step GARNET_ENABLE_SET forms the group as though step S − 1 were done, and CLEAR ends it; during a step the written bit waits and the one
in force stays. WITHHOLD sets its bit alone. A token of another group is stale and counted; a new one for the tick in progress is held; a
port outside the ring refuses it. -/
def Obligations.GroupsFormAndTokensCount : Prop :=
  (∀ s : State, s.serves Rg.GARNET_CTRL = true → s.inStep = false → s.held = [] → s.fld Fld.GARNET_CTRL_ENABLE = 0 →
    ∃ t, exec .garnetEnableSet s = .next t ∧ t.fld Fld.GARNET_CTRL_ENABLE = 1 ∧ t.tickState = stDone ∧
      t.tickNo = s.rd Rg.GARNET_START_TICK - 1#32 ∧ t.fld Fld.GARNET_STATUS_TIMER_EXPIRED = 1 ∧
      (s.fld Fld.GARNET_CTRL_WITHHOLD = 0 → t.fld Fld.GARNET_STATUS_OWN_DONE = 1)) ∧
  (∀ s : State, s.serves Rg.GARNET_CTRL = true → s.inStep = false → s.held = [] → s.fld Fld.GARNET_CTRL_ENABLE = 1 →
    ∃ t, exec .garnetEnableClear s = .next t ∧ t.fld Fld.GARNET_CTRL_ENABLE = 0 ∧ t.tickState = stDisabled ∧ s.sameMemory t ∧
      s.sameRegs t [Rg.GARNET_CTRL, Fld.GARNET_STATUS_STATE.addr, Fld.OBJ_HOST_PAGES_FREE_PAGES.addr]) ∧
  (∀ (i : Instr) (v : Nat) (s : State), (i = .garnetEnableSet ∧ v = 1 ∨ i = .garnetEnableClear ∧ v = 0) →
    s.serves Rg.GARNET_CTRL = true → s.inStep = true → s.held = [] →
    ∃ t, exec i s = .next t ∧ t.fld Fld.GARNET_CTRL_ENABLE = v ∧ t.inForce Fld.GARNET_CTRL_ENABLE = s.fld Fld.GARNET_CTRL_ENABLE ∧
      t.tickState = s.tickState ∧ s.sameRegs t [Rg.GARNET_CTRL] ∧ s.sameMemory t) ∧
  (∀ s : State, s.serves Rg.GARNET_CTRL = true →
    (∃ t, exec (.withhold true) s = .next t ∧ t.fld Fld.GARNET_CTRL_WITHHOLD = 1 ∧ t.fld Fld.GARNET_CTRL_ENABLE = s.fld Fld.GARNET_CTRL_ENABLE ∧
      s.sameRegs t [Rg.GARNET_CTRL] ∧ s.sameMemory t) ∧
    ∃ t, exec (.withhold false) s = .next t ∧ t.fld Fld.GARNET_CTRL_WITHHOLD = 0 ∧
      (s.tickState = stDone → s.fld Fld.GARNET_STATUS_OWN_DONE = 0 → t.fld Fld.GARNET_STATUS_OWN_DONE = 1) ∧ s.sameMemory t) ∧
  (∀ (p : PortId) (k : Token) (s : State), s.carriesTicks p = true → k.group.toNat ≠ s.fld Fld.GARNET_GROUP_GROUP_ID →
    ∃ t, exec (.tickToken p k) s = .next t ∧ t.ctr Ct.GARNET_STALE_TOKEN_COUNT = (s.ctr Ct.GARNET_STALE_TOKEN_COUNT).plus 1 ∧
      t.fld Fld.GARNET_EVENTS_STALE_TOKEN = 1 ∧ ((∀ q, (s.port q).queue = []) → s.sameRegs t [Fld.GARNET_EVENTS_STALE_TOKEN.addr]) ∧ s.sameMemory t) ∧
  (∀ (p : PortId) (k : Token) (s : State), s.carriesTicks p = true → k.group.toNat = s.fld Fld.GARNET_GROUP_GROUP_ID →
    (NMap.get [] s.garnet.seen k.member.val).contains k.tick = false → s.ticking = true → k.tick = s.tickNo → k.abandon = false →
    ∃ t, exec (.tickToken p k) s = .next t ∧ t.holds k.member = true ∧ (NMap.get [] t.garnet.seen k.member.val).contains k.tick = true ∧
      NMap.find t.garnet.heardAt k.member.val = some s.now ∧ t.tickState = s.tickState ∧ s.sameMemory t) ∧
  (∀ (p : PortId) (k : Token) (s : State), s.carriesTicks p = false →
    exec (.tickToken p k) s = .next (s.count (Ct.LNK_BAD_FLITS p) 1))

/-- A burst is read, decoded and delivered with what the decoder makes of it (R191, R194, R195, R196, R197, R198, R200, R201, R202).
BURST_READ on a channel that serves counts its transfer, delivers a clean burst as stored, a corrected one with its errors removed and
counted, and a poisoned or uncorrectable one with a poison mark, which is counted and, uncorrectable, recorded. A dead channel delivers
poison. Nothing is written. SCRUB writes a corrected burst back and an uncorrectable one as a poison codeword; where the stack's scrub
does not run it does nothing. -/
def Obligations.BurstsAreReadAndDecoded : Prop :=
  ∀ (spa : BitVec 40) (errs : BurstErrs) (s : State), s.spaOk spa = true → s.boot.fault = none →
    let b := spa.toNat / 64
    let l := burstLoc b
    let data := s.mem.rdBlk (64 * b) 64
    let got := rsDecode (s.markedLane l.chan) (ErrVec.add (chkErr (NMap.get 0#64 s.chk b)) (errVec errs))
    let quiet := ∀ lane, lane < 18 → NMap.get 0 (s.chan l.chan).runs lane < 63
    (s.chanDead l.chan = true → s.tileInFrame (s.spaFrame spa.toNat) = none →
      ∃ t, exec (.burstRead spa errs) s = .next t ∧ t.retBytes = data ∧ t.retBad = true ∧ s.sameMemory t ∧ s.sameRegs t [] ∧ s.sameCtrs t []) ∧
    (s.chanDead l.chan = false → s.fld (Fld.CH_INJ_CTRL_ARM l.chan) = 0 → quiet →
      (got = .clean → ∃ t, exec (.burstRead spa errs) s = .next t ∧ t.retBytes = xorData data (errVec errs) ∧ t.retBad = false ∧
        t.ctr (Ct.CH_BUSY_BURSTS l.chan) = (s.ctr (Ct.CH_BUSY_BURSTS l.chan)).plus 1 ∧ NMap.find (t.chan l.chan).openRow l.bank = some l.row ∧
        s.sameMemory t ∧ t.chk = s.chk ∧ s.sameRegs t [] ∧ s.sameCtrs t [Ct.CH_BUSY_BURSTS l.chan, Ct.CH_ROW_OPENS l.chan]) ∧
      (∀ c, got = .corrected c → ∃ t, exec (.burstRead spa errs) s = .next t ∧ t.retBytes = xorData data (ErrVec.add (errVec errs) c) ∧
        t.retBad = false ∧ t.ctr (Ct.CH_CE_COUNT l.chan) = (s.ctr (Ct.CH_CE_COUNT l.chan)).plus 1 ∧ s.sameMemory t ∧ t.chk = s.chk ∧ s.sameRegs t []) ∧
      (got = .poison → s.tileInFrame (s.spaFrame spa.toNat) = none → ∃ t, exec (.burstRead spa errs) s = .next t ∧ t.retBad = true ∧
        t.ctr (Ct.CH_POISON_READS l.chan) = (s.ctr (Ct.CH_POISON_READS l.chan)).plus 1 ∧ s.sameMemory t ∧ t.chk = s.chk ∧ s.sameRegs t []) ∧
      (got = .uncorrectable → s.tileInFrame (s.spaFrame spa.toNat) = none → ∃ t, exec (.burstRead spa errs) s = .next t ∧ t.retBad = true ∧
        t.ctr (Ct.CH_UE_COUNT l.chan) = (s.ctr (Ct.CH_UE_COUNT l.chan)).plus 1 ∧ t.fld (Fld.CH_STATUS_UE l.chan) = 1 ∧
        t.told .ueBurst l.chan (64 * b % 2 ^ 32) (64 * b / 2 ^ 32) ∧ s.sameMemory t ∧ t.chk = s.chk ∧ s.sameRegs t [Rg.CH_STATUS l.chan])) ∧
    (s.scrubs l.stack = false → exec (.scrub spa errs) s = .next s) ∧
    (s.scrubs l.stack = true → s.chanDead l.chan = false → s.fld (Fld.CH_INJ_CTRL_ARM l.chan) = 0 → quiet → s.mem.wf →
      (∀ c, got = .corrected c → ∃ t, exec (.scrub spa errs) s = .next t ∧
        t.mem.rdBlk (64 * b) 64 = xorData data (ErrVec.add (errVec errs) c) ∧ NMap.get 0#64 t.chk b = 0#64 ∧
        (∀ a, a / 64 ≠ b → t.mem.rd a = s.mem.rd a) ∧ t.ctr (Ct.STK_SCRUB_CORRECTED l.stack) = (s.ctr (Ct.STK_SCRUB_CORRECTED l.stack)).plus 1) ∧
      (got = .uncorrectable → s.tileInFrame (s.spaFrame spa.toNat) = none → ∃ t, exec (.scrub spa errs) s = .next t ∧
        NMap.get 0#64 t.chk b = BitVec.allOnes 64 ∧ (∀ a, a / 64 ≠ b → t.mem.rd a = s.mem.rd a) ∧
        ∀ k, k ≠ b → NMap.get 0#64 t.chk k = NMap.get 0#64 s.chk k))

/-- What a burst write stores is what a burst read delivers (R191, R194, R196, R197, R200, R201). BURST_WRITE of a whole burst to a
channel that serves stores its bytes with a valid check, whatever the burst held, and changes no other byte; a BURST_READ that follows
delivers them clean. A write of part of a burst reads the burst, merges and writes it, and keeps its other bytes. A dead channel discards
the write. -/
def Obligations.BurstsAreWrittenBack : Prop :=
  ∀ (spa : BitVec 40) (data : List (BitVec 8)) (s : State), s.spaOk spa = true → s.boot.fault = none → s.mem.wf →
    s.tileInFrame (s.spaFrame spa.toNat) = none → 0 < data.length → spa.toNat % 64 + data.length ≤ 64 →
    let b := spa.toNat / 64
    let ch := (burstLoc b).chan
    (s.chanDead ch = true → ∃ t, exec (.burstWrite spa data) s = .next t ∧ s.sameMemory t ∧ t.chk = s.chk ∧ s.sameRegs t [] ∧ s.sameCtrs t []) ∧
    (s.chanDead ch = false → s.fld (Fld.CH_INJ_CTRL_ARM ch) = 0 →
      (data.length = 64 → ∃ t, exec (.burstWrite spa data) s = .next t ∧ t.mem.rdN spa.toNat 64 = data ∧ NMap.get 0#64 t.chk b = 0#64 ∧
        (∀ a, a / 64 ≠ b → t.mem.rd a = s.mem.rd a) ∧ (∀ k, k ≠ b → NMap.get 0#64 t.chk k = NMap.get 0#64 s.chk k) ∧
        t.ctr (Ct.CH_BUSY_BURSTS ch) = (s.ctr (Ct.CH_BUSY_BURSTS ch)).plus 1 ∧ s.sameRegs t [] ∧ t.host = s.host ∧
        ∃ u, exec (.burstRead spa []) t = .next u ∧ u.retBytes = data ∧ u.retBad = false ∧ t.sameMemory u) ∧
      (data.length < 64 → NMap.get 0#64 s.chk b = 0#64 → ∃ t, exec (.burstWrite spa data) s = .next t ∧
        t.mem.rdN spa.toNat data.length = data ∧ (∀ a, (a < spa.toNat ∨ spa.toNat + data.length ≤ a) → t.mem.rd a = s.mem.rd a) ∧
        NMap.get 0#64 t.chk b = 0#64 ∧ t.ctr (Ct.CH_RMW_COUNT ch) = (s.ctr (Ct.CH_RMW_COUNT ch)).plus 1 ∧
        t.ctr (Ct.CH_BUSY_BURSTS ch) = (s.ctr (Ct.CH_BUSY_BURSTS ch)).plus 2 ∧ s.sameRegs t []))

/-- Refresh, re-centring, regulators, temperature, training and injection of the stacks (R203, R204, R206, R207, R208, R211, R213, R216,
R220, R221, R324, R409). A refresh command is counted for its bank. Good eyes only re-centre a channel. A regulator epoch keeps every
request it does not admit. A sample below every threshold is shown, and one that trips 110 °C in start-up leaves the stack TRIPPED. The
thermal cap limits a stack to 60 percent, withholds the token and tells the group; after two periods WITHHOLD falls. Training of
identified stacks with good eyes leaves every channel READY and every byte zero. An injection write needs the test bit; one to a channel
that S4 powered off begins a wake. -/
def Obligations.StacksAreKeptInOrder : Prop :=
  (∀ (ch : ChanId) (bank : Fin 16) (s : State), s.fld (Fld.CH_STATUS_STATE ch) = 2 →
    ∃ t, exec (.refreshCommand ch bank) s = .next t ∧
      NMap.get 0 (t.chan ch).refreshed bank = (NMap.get 0 (s.chan ch).refreshed bank + 1) % 3072 ∧ s.sameRegs t [] ∧ s.sameCtrs t [] ∧
      s.sameMemory t) ∧
  (∀ (ch : ChanId) (eyes : List LaneEye) (s : State), s.fld (Fld.CH_STATUS_STATE ch) = 2 → s.boot.fault = none →
    (∀ e ∈ eyes, e.ch = ch → 90 ≤ e.width.toNat ∧ 20 ≤ e.height.toNat) →
    ∃ t, exec (.recentre ch eyes) s = .next t ∧ (t.chan ch).centredAt = s.now ∧ s.sameRegs t [] ∧ s.sameCtrs t [] ∧ s.sameMemory t) ∧
  (∀ (st : StackId) (reqs : List RegReq) (s : State), (NMap.get ({} : StackSt) s.stackTab st).waiting = [] →
    (NMap.get ({} : StackSt) s.stackTab st).asked = [] →
    ∃ t, exec (.regulatorEpoch st reqs) s = .next t ∧ s.sameRegs t [] ∧ s.sameMemory t ∧
      (∀ r ∈ (NMap.get ({} : StackSt) t.stackTab st).waiting, r ∈ reqs) ∧
      ∀ p : PartId, (∀ r ∈ reqs, r.part ≠ some p) → t.ctr (Ct.STK_PART_BURSTS st p) = s.ctr (Ct.STK_PART_BURSTS st p) ∧
        t.ctr (Ct.STK_PART_HELD st p) = s.ctr (Ct.STK_PART_HELD st p)) ∧
  (∀ (st : StackId) (v : BitVec 11) (s : State), s.fld (Fld.STK_STATUS_STATE st) ≠ 0 → s.fld (Fld.STK_STATUS_STATE st) ≠ 4 →
    s.fld (Fld.STK_THERM_WARN st) = 0 → s.fld (Fld.STK_THERM_THROTTLE st) = 0 →
    (v.toInt < 328 → ∃ t, exec (.stackTempSample st [v]) s = .next t ∧ t.fld (Fld.STK_TEMP_TEMP st) = v.toNat ∧
      (NMap.get ({} : StackSt) t.stackTab st).prev = some v.toInt ∧ s.sameMemory t ∧ s.sameCtrs t []) ∧
    (440 ≤ v.toInt → s.starting = true →
      ∃ t, exec (.stackTempSample st [v]) s = .next t ∧ t.fld (Fld.STK_THERM_TRIP_SEEN st) = 1 ∧ t.fld (Fld.STK_STATUS_STATE st) = 4)) ∧
  (∀ (st : StackId) (s : State), (NMap.get ({} : StackSt) s.stackTab st).capPend = true → s.inStep = false →
    ∃ t, exec (.thermalCapApply st) s = .next t ∧ t.fld (Fld.STK_THERM_THERM_CAP st) = 60 ∧ t.fld Fld.GARNET_CTRL_WITHHOLD = 1 ∧
      t.fld (Fld.STK_THERM_WITHHOLD_AUTO st) = 1 ∧ (NMap.get ({} : StackSt) t.stackTab st).heldAt = s.now ∧ s.sameMemory t) ∧
  (∀ (st : StackId) (s : State), s.fld (Fld.STK_THERM_WITHHOLD_AUTO st) = 1 →
    ∃ t, exec (.withholdAutoExpiry st) s = .next t ∧ t.fld Fld.GARNET_CTRL_WITHHOLD = 0 ∧
      (∀ k : StackId, t.fld (Fld.STK_THERM_WITHHOLD_AUTO k) = 0) ∧ s.sameMemory t ∧
      t.now = max s.now ((NMap.get ({} : StackSt) s.stackTab st).heldAt + 2 * s.inForce Fld.GARNET_PERIOD_PERIOD_US)) ∧
  (∀ (w h : BitVec 8) (s : State), 90 ≤ w.toNat → 20 ≤ h.toNat → s.fld Fld.BOOT_STATE_STATE = 3 → s.boot.identified = true → s.boot.laneMap = [] → s.flash.anchor = none →
    (∀ st : StackId, s.fld (Fld.STK_STATUS_STATE st) = 1) → NMap.sorted s.regs →
    ∃ t, exec (.stackTrainingDone w h []) s = .next t ∧ t.fld Fld.BOOT_STATE_STATE = 4 ∧ t.mem = [] ∧ t.chk = [] ∧ t.host = s.host ∧
      (∀ st : StackId, t.fld (Fld.STK_STATUS_STATE st) = 2) ∧ ∀ ch : ChanId, t.fld (Fld.CH_STATUS_STATE ch) = 2 ∧
        t.fld (Fld.CH_STATUS_MARKED ch) = 0 ∧ t.fld (Fld.CH_STATUS_SPARE_USED ch) = 0 ∧ t.fld (Fld.CH_STATUS_SPARE_FOR ch) = 0x1F) ∧
  (∀ (ch : ChanId) (w : BitVec 32) (s : State), s.serves (Rg.CH_INJ_CTRL ch) = true → s.powerState = 4 →
    ∃ t, exec (.chInjArm ch w) s = .next t ∧ t.fld Fld.PWR_STATUS_WAKING = 1 ∧ s.sameMemory t) ∧
  (∀ (ch : ChanId) (w : BitVec 32) (s : State), s.serves (Rg.CH_INJ_CTRL ch) = true → s.powerState ≠ 4 →
    (s.fld Fld.BOOT_TEST_ENABLE = 0 → ∃ t, exec (.chInjArm ch w) s = .next t ∧ t.told .testDenied 0 (Rg.CH_INJ_CTRL ch) 0 ∧ s.sameRegs t [] ∧
      s.sameMemory t) ∧
    (s.fld Fld.BOOT_TEST_ENABLE = 1 → bvGet 3 5 w < 18 → bvGet 13 5 w < 18 →
      ∃ t, exec (.chInjArm ch w) s = .next t ∧ t.rd (Rg.CH_INJ_CTRL ch) = BitVec.ofNat 32 (w.toNat % 2 ^ 22) ∧ (t.chan ch).injSeen = 0 ∧
        s.sameRegs t [Rg.CH_INJ_CTRL ch] ∧ s.sameMemory t))

/-- Moves switch and free their source, victims leave, poisoned tiles are waited for, refetched and read back (R230, R231, R237, R241,
R245, R253, R281). MOVE_SWITCH of a copied tile writes its new home and ends the move; without a move, or while its read of the flash has
not its turn, it does nothing. MOVE_SOURCE_FREE frees the source that nothing reads any more. BACKGROUND_EVICTION does nothing at LOW
free frames or more, unless it has begun and HIGH are not yet free; a weight victim it chooses has gone back to its origin. A poison wait
that has run out ends. A refetch that finds a free frame gives the tile a clean home there. A poisoned frame that no fetch still reads is
written whole; read back unclean it is retired and counted, and read back clean it is free. -/
def Obligations.TilesMoveAndRefetch : Prop :=
  (∀ (o : ObjId) (t : TileId) (m : Move) (x : Obj) (bs : List Byte) (s : State), let k := tileKey o.toNat t.toNat
    let r := s.readHome (some x.part) o.toNat x t.toNat (s.dirEnt o.toNat x t.toNat)
    s.boot.fault = none →
    (NMap.find s.place.moves k = none → exec (.moveSwitch o t) s = .next s) ∧
    (NMap.find s.place.moves k = some m → s.obj o.toNat = some x → s.destReady o.toNat t.toNat m.dest = true → s.hasMover m.die m.seq = true →
      NMap.find s.place.refetches k = none → s.destFails m.dest = false → m.held = [] → r.1 = .bytes bs [] → r.2.boot.fault = none → s.place.jobs = [] →
      ((s.dirEnt o.toNat x t.toNat).home = .origin → s.moveTurn o.toNat t.toNat m = true) →
      ∃ u, exec (.moveSwitch o t) s = .next u ∧ NMap.find u.place.moves k = none ∧ u.now = s.now ∧
        ∀ y, u.obj o.toNat = some y → u.dirEnt o.toNat y t.toNat = (match m.dest with
          | .frame f => { home := .stack, poisoned := (s.dirEnt o.toNat x t.toNat).poisoned, frame := f }
          | .page p => { home := .host, poisoned := (s.dirEnt o.toNat x t.toNat).poisoned, page := p }
          | .origin => { home := .origin })) ∧
    (NMap.find s.place.moves k = some m → s.obj o.toNat = some x → s.destFails m.dest = false → NMap.find s.place.refetches k = none →
      (s.dirEnt o.toNat x t.toNat).home = .origin → s.moveTurn o.toNat t.toNat m = false → exec (.moveSwitch o t) s = .next s)) ∧
  (∀ (o : ObjId) (t : TileId) (f : Nat) (s : State), s.boot.fault = none → s.fetches = [] → s.place.jobs = [] → s.place.replaceT = [] →
    NMap.find s.place.frames f = some (.source o.toNat t.toNat) → (∀ p ∈ s.place.moves, p.2.dest ≠ .frame f) →
    (∀ p ∈ s.place.refetches, p.2.dest ≠ some f) →
    ∃ u, exec (.moveSourceFree o t) s = .next u ∧ NMap.find u.place.frames f = none ∧ s.sameMemory u ∧
      (∀ pg, NMap.find s.place.oldPages (tileKey o.toNat t.toNat) = some pg → pg ∉ u.place.pages)) ∧
  (∀ (m : DieId) (s : State), s.boot.fault = none → s.inForce Fld.OBJ_WATERMARK_LOW ≤ s.freeCount m.val →
    s.place.draining.contains m.val = false → exec (.backgroundEviction m) s = .next s) ∧
  (∀ (m : DieId) (v : Victim) (x : Obj) (s : State), s.boot.fault = none →
    (s.freeCount m.val < s.inForce Fld.OBJ_WATERMARK_LOW ∨ s.place.draining.contains m.val = true) → s.victim m.val none = some v →
    s.freeCount m.val + s.coming m.val < s.inForce Fld.OBJ_WATERMARK_HIGH →
    s.obj v.object = some x → x.kind = .weights →
    ∃ u, exec (.backgroundEviction m) s = .next u ∧ u.host = s.host ∧
      (∀ a, (∀ p ∈ s.place.objs, a / 65536 ∉ p.2.dirFrames) → u.mem.rd a = s.mem.rd a) ∧
      ∀ y, u.obj v.object = some y → (u.dirEnt v.object y v.tile).home = .origin) ∧
  (∀ (o : ObjId) (t : TileId) (since : Nat) (s : State), let k := tileKey o.toNat t.toNat
    s.boot.fault = none → NMap.find s.place.waits k = some since →
    (since + s.inForce Fld.OBJ_POISON_WAIT_WAIT_US ≤ s.now →
      ∃ u, exec (.poisonWaitExpiry o t) s = .next u ∧ NMap.find u.place.waits k = none ∧ k ∈ u.place.expired ∧ u.mem = s.mem) ∧
    (s.now < since + s.inForce Fld.OBJ_POISON_WAIT_WAIT_US → exec (.poisonWaitExpiry o t) s = .next s)) ∧
  (∀ (o : ObjId) (t : TileId) (x : Obj) (r : Refetch) (bs : List Byte) (s : State), let k := tileKey o.toNat t.toNat
    let q := s.originTile x.origin.toNat t.toNat
    NMap.find s.place.refetches k = some r → s.obj o.toNat = some x → q.1 = some bs → q.2.boot.fault = none → s.hasMover r.die r.seq = true →
    (x.policy ≠ .stream ∨ (s.dirEnt o.toNat x t.toNat).home = .stack) → r.dest = none → 0 < s.freeCount r.die →
    ∃ u, exec (.refetchSwitch o t) s = .next u ∧ NMap.find u.place.refetches k = none ∧ NMap.find u.place.waits k = none ∧
      ∀ y, u.obj o.toNat = some y → (u.dirEnt o.toNat y t.toNat).home = .stack ∧ (u.dirEnt o.toNat y t.toNat).poisoned = false) ∧
  (∀ (f : BitVec 24) (o : Nat) (s : State), s.boot.fault = none → NMap.find s.place.frames f.toNat = some (.readback o) →
    (∀ ch : ChanId, s.fld (Fld.CH_INJ_CTRL_ARM ch) = 0) →
    (s.frameRead f.toNat = true → ∀ clean, exec (.frameReadback f clean) s = .next s) ∧
    (s.frameRead f.toNat = false → ∃ u, exec (.frameReadback f false) s = .next u ∧ NMap.find u.place.frames f.toNat = some .retired ∧
      u.ctr Ct.OBJ_RETIRED_FRAMES = (s.ctr Ct.OBJ_RETIRED_FRAMES).plus 1 ∧ u.told .frameRetired (frameDie f.toNat) f.toNat 0 ∧
      u.host = s.host ∧ ∀ a, a / 65536 ≠ f.toNat → u.mem.rd a = s.mem.rd a) ∧
    (s.frameRead f.toNat = false → (∀ ch : ChanId, s.chanDead ch = false) → (∀ p ∈ s.place.refetches, p.2.dest ≠ some f.toNat) → s.place.jobs = [] → s.place.replaceT = [] → (∀ p ∈ s.place.moves, p.2.dest ≠ .frame f.toNat) →
      ∃ u, exec (.frameReadback f true) s = .next u ∧ NMap.find u.place.frames f.toNat = none ∧ u.host = s.host ∧
        ∀ a, a / 65536 ≠ f.toNat → u.mem.rd a = s.mem.rd a))

/-- A BAR2 access reaches the home of the tile it addresses (R223, R227, R230, R331, R447, R448). An offset that reaches nothing reads
zeros and a write to it is discarded; an address outside every object, or of an object of another partition, also records its event.
Within one tile homed in a host page a read delivers the page's bytes and a write of a writable tile stores its bytes there and nowhere
else; a write to a weight tile is discarded and recorded, and one to a moving tile is held with its offset. Log entry 9 names where the
bytes read stand. -/
def Obligations.Bar2ReachesTheHome : Prop :=
  ∀ (fn : FnId) (ofs : BitVec 36) (data : List (BitVec 8)) (len : BitVec 32) (s : State), len.toNat ≤ 4096 → data.length = len.toNat →
    s.powerState < 3 → s.boot.fault = none → 0 < len.toNat →
    (s.bar2Addr fn ofs.toNat = none →
      exec (.bar2Read fn ofs len) s = .next { s with retBytes := List.replicate len.toNat 0#8 } ∧ exec (.bar2Write fn ofs data) s = .next s) ∧
    ∀ a, s.bar2Addr fn ofs.toNat = some a → a % 65536 + len.toNat ≤ 65536 →
      (s.bar2Tile fn a = none →
        (∃ t, exec (.bar2Read fn ofs len) s = .next t ∧ t.retBytes = List.replicate len.toNat 0#8 ∧ s.sameMemory t ∧ s.sameRegs t [] ∧
          (fn.val ≠ 0 → t.told .addressNone (fn.val - 1) (a % 2 ^ 32) (a / 2 ^ 32))) ∧
        ∃ t, exec (.bar2Write fn ofs data) s = .next t ∧ s.sameMemory t ∧ s.sameRegs t [] ∧
          (fn.val ≠ 0 → t.told .addressNone (fn.val - 1) (a % 2 ^ 32) (a / 2 ^ 32))) ∧
      ∀ o x tile, s.bar2Tile fn a = some (o, x, tile) → s.obj o = some x → (s.lookup o x tile).boot.fault = none →
        (∀ b, x.dirBurst tile = some b → (s.readBurst b []).1.bad = false) →
        let e := s.dirEnt o x tile
        let at_ := s.pageAddr e.page + a % 65536
        (e.home = .host → s.pageOk e.page = true → at_ + len.toNat ≤ 2 ^ 64 →
          (∃ t, exec (.bar2Read fn ofs len) s = .next t ∧ t.retBytes = s.host.rdBlk at_ len.toNat ∧ t.host = s.host ∧ t.mem = s.mem) ∧
          (x.kind ≠ .weights → e.poisoned = false → NMap.find s.place.moves (tileKey o tile) = none →
            ∃ t, exec (.bar2Write fn ofs data) s = .next t ∧ t.host.rdN at_ len.toNat = data ∧ t.mem = s.mem ∧
              ∀ h, (h < at_ ∨ at_ + len.toNat ≤ h) → t.host.rd h = s.host.rd h)) ∧
        (x.kind = .weights → ∃ t, exec (.bar2Write fn ofs data) s = .next t ∧ t.told .weightWrite x.part o tile ∧ t.host = s.host ∧ t.mem = s.mem) ∧
        (∀ m, x.kind ≠ .weights → e.moving = true → NMap.find s.place.moves (tileKey o tile) = some m →
          ∃ t, exec (.bar2Write fn ofs data) s = .next t ∧ t.host = s.host ∧ t.mem = s.mem ∧
            NMap.find t.place.moves (tileKey o tile) = some { m with held := m.held ++ [(a % 65536, data)] })

/-- Doorbells, fetches and queue configuration follow the queue rules (R329, R333, R334, R335, R337, R353, R359). With the device in S0,
a tail or head in range is taken; a tail at or past the SQ size, and a failed read of an entry, stop the queue with their cause, counted
and recorded. A doorbell of another function's queue does nothing. SQ_FETCH takes the next queue's entry and stages it, a PREFILL with
its tokens; a command given while the group ticks or a step runs is staged with its entry and has no other effect; COMMAND_APPLY outside
a group applies the first staged one. Enabling a queue starts it at index 0, disabling it discards its staged commands. -/
def Obligations.QueuesAreServed : Prop :=
  (∀ (i : Instr) (fn : FnId) (q : QueueId) (v : BitVec 16) (s : State), (i = .sqTail fn q v ∨ i = .cqHead fn q v) →
    s.deviceQueue fn.val q.val = none → exec i s = .next s) ∧
  (∀ (fn : FnId) (q : QueueId) (v : BitVec 16) (d : Nat) (s : State), s.deviceQueue fn.val q.val = some d → s.powerState = 0 →
    s.fld (Fld.HQ_Q_STATUS_RUNNING d) = 1 →
    (v.toNat < s.sqSize d → ∃ t, exec (.sqTail fn q v) s = .next t ∧ (t.queue d).tail = v.toNat ∧ (∀ k, k ≠ d → t.queue k = s.queue k) ∧
      s.sameRegs t [] ∧ s.sameCtrs t [] ∧ s.sameMemory t) ∧
    (s.sqSize d ≤ v.toNat → ∃ t, exec (.sqTail fn q v) s = .next t ∧ t.fld (Fld.HQ_Q_STATUS_RUNNING d) = 0 ∧ t.fld (Fld.HQ_Q_STATUS_ERROR d) = 1 ∧
      t.fld (Fld.HQ_Q_STATUS_CAUSE d) = 1 ∧ t.ctr Ct.HQ_QUEUE_ERRORS = (s.ctr Ct.HQ_QUEUE_ERRORS).plus 1 ∧
      t.told .queueError (s.queuePart d) d 1 ∧ t.hostq.staged = s.hostq.staged ∧ s.sameMemory t) ∧
    (v.toNat < s.cqSize d → (s.queue d).blocked = [] → ∃ t, exec (.cqHead fn q v) s = .next t ∧ (t.queue d).cqHead = v.toNat ∧
      (∀ k, k ≠ d → t.queue k = s.queue k) ∧ s.sameRegs t [] ∧ s.sameCtrs t [] ∧ s.sameMemory t)) ∧
  (∀ s : State, (s.fld Fld.PWR_STATUS_PWRFAIL = 1 ∨ ∀ q, q < 256 → s.queueReady q = false) → exec .sqFetch s = .next s) ∧
  (∀ (q : Nat) (s : State), s.fld Fld.PWR_STATUS_PWRFAIL = 0 →
    (((List.range 256).map fun i => (s.hostq.turn + i) % 256).find? s.queueReady) = some q →
    let head := s.fld (Fld.HQ_Q_HEADS_SQ_HEAD q)
    let e : BitVec 512 := BitVec.ofNat 512 (leNat (s.hostBytes (s.addr64 (Rg.HQ_SQ_BASE_LO q) (Rg.HQ_SQ_BASE_HI q) + 64 * head) 64))
    let tokens := if bvGet 0 8 e = 2 then s.promptOf (bvGet 160 17 e) (bvGet 192 64 e) else []
    (s.queue q).tail = (head + 1) % s.sqSize q → (entryHdr q e).atTick = false → tokens.length ≤ s.fld Fld.PART_PREFILL_FREE_TOKENS →
    ∃ t, exec .sqFetch s = .next t ∧ t.hostq.staged = s.hostq.staged ++ [⟨q, e, tokens⟩] ∧ t.fld (Fld.HQ_Q_HEADS_SQ_HEAD q) = (head + 1) % s.sqSize q ∧
      t.hostq.turn = (q + 1) % 256 ∧
      s.sameRegs t [Rg.HQ_Q_HEADS q, Fld.PART_SESSIONS_OPEN.addr, Fld.PART_PREFILL_FREE_TOKENS.addr] ∧ s.sameCtrs t [] ∧ s.sameMemory t) ∧
  (∀ (x : Staged) (rest : List Staged) (s : State), s.ticking = false → s.inStep = false → s.fld Fld.PWR_STATUS_PWRFAIL = 0 →
    s.hostq.staged = x :: rest → (entryHdr x.q x.bytes).atTick = false → s.fld (Fld.HQ_Q_CFG_ENABLE x.q) = 1 →
    exec .commandApply s = .next ({ s with hostq := { s.hostq with staged := rest } }.recountSess.applyEntry x).actOnFault) ∧
  (∀ (h : CmdHdr) (i : SessId) (o : OpenOp) (b w : BitVec 32) (r : SessParams) (k : Fin 8) (c : CreateOp) (l : PlaceOp) (n : ObjId) (g : InstallOp)
    (m : BitVec 29) (s : State), s.mustStage h = true → h.atTick = false → s.boot.fault = none →
    let sid := atBit 128 12 i.val
    ∀ p ∈ [(Instr.openSession h o, h.bits 0x01 ||| o.bits), (.decode h i b w, h.bits 0x03 ||| sid ||| atBit 160 32 b.toNat ||| atBit 192 32 w.toNat),
        (.setParams h i r, h.bits 0x04 ||| sid ||| r.bits), (.truncate h i b, h.bits 0x05 ||| sid ||| atBit 160 32 b.toNat), (.park h i, h.bits 0x06 ||| sid),
        (.unpark h i k, h.bits 0x07 ||| sid ||| atBit 140 3 k.val), (.closeSession h i, h.bits 0x08 ||| sid), (.createObject h c, h.bits 0x10 ||| c.bits),
        (.setPlacement h l, h.bits 0x11 ||| l.bits), (.deleteObject h n, h.bits 0x12 ||| atBit 128 16 n.toNat), (.install h g, h.bits 0x13 ||| g.bits),
        (.abortInstall h n, h.bits 0x14 ||| atBit 128 16 n.toNat), (.shrinkHostPages h m, h.bits 0x18 ||| atBit 128 29 m.toNat)],
      ∃ t, exec p.1 s = .next t ∧ t.hostq.staged = s.hostq.staged ++ [⟨h.q.val, p.2, []⟩] ∧ t.hostq.sess = s.hostq.sess ∧ t.place = s.place ∧
        t.flash = s.flash ∧ s.sameMemory t ∧ s.sameRegs t [Fld.PART_SESSIONS_OPEN.addr, Fld.PART_PREFILL_FREE_TOKENS.addr]) ∧
  (∀ (q : QueueId) (v : BitVec 32) (s : State), s.serves (Rg.HQ_Q_CFG q) = true →
    (s.fld (Fld.HQ_Q_CFG_ENABLE q) = 0 → v.getLsbD 0 = true → ∃ t, exec (.qCfgEnable q v) s = .next t ∧ t.fld (Fld.HQ_Q_CFG_ENABLE q) = 1 ∧
      t.fld (Fld.HQ_Q_STATUS_RUNNING q) = 1 ∧ t.rd (Rg.HQ_Q_HEADS q) = 0#32 ∧ t.queue q = {} ∧
      (4 ≤ bvGet 1 4 v → bvGet 1 4 v ≤ 12 → t.fld (Fld.HQ_Q_CFG_SQ_LOG2 q) = bvGet 1 4 v) ∧ s.sameMemory t) ∧
    (s.fld (Fld.HQ_Q_CFG_ENABLE q) = 1 → v.getLsbD 0 = false → ∃ t, exec (.qCfgEnable q v) s = .next t ∧ t.fld (Fld.HQ_Q_CFG_ENABLE q) = 0 ∧
      t.fld (Fld.HQ_Q_STATUS_RUNNING q) = 0 ∧ (∀ x ∈ t.hostq.staged, x.q ≠ q) ∧
      t.fld (Fld.HQ_Q_CFG_SQ_LOG2 q) = s.fld (Fld.HQ_Q_CFG_SQ_LOG2 q) ∧ s.sameMemory t)) ∧
  (∀ (r : HostRead) (s : State), exec (.hostReadComplete r .success) s = .next s) ∧
  (∀ (i : Instr) (q : QueueId) (s : State), (i = .hostReadComplete (.queue q) .failed ∨ i = .completionTimeout (.queue q)) →
    s.fld (Fld.HQ_Q_STATUS_RUNNING q) = 1 → s.queuePart q < 16 →
    ∃ t, exec i s = .next t ∧ t.fld (Fld.HQ_Q_STATUS_RUNNING q) = 0 ∧ t.fld (Fld.HQ_Q_STATUS_CAUSE q) = 2 ∧
      t.ctr (Ct.PARTN_HOST_READ_ERRORS (s.queuePart q)) = (s.ctr (Ct.PARTN_HOST_READ_ERRORS (s.queuePart q))).plus 1 ∧
      (i = .completionTimeout (.queue q) → t.ctr Ct.HQ_COMPLETION_TIMEOUTS = (s.ctr Ct.HQ_COMPLETION_TIMEOUTS).plus 1) ∧ s.sameMemory t)

/-- Completions, events, interrupts, LTR and the link follow their rules (R328, R333, R336, R342, R343, R352, R355, R356, R359, R364,
R407, R449). A command refused in the state of its session gets its completion entry, with CID, queue, status, SQ_HEAD, PHASE and tick,
or waits for CQ room. Freeing an entry of an event ring writes a pending EVENTS_LOST. A coalesced message goes out at its time with its
vector's address and data, or waits as pending while the vector is masked; an LTR message at a change; VF enable gives VFs their queues,
and the latency tolerance is taken, once configuration requests are answered; a supported link configuration is reported. -/
def Obligations.HostIsTold : Prop :=
  (∀ (h : CmdHdr) (i : SessId) (p : Nat) (s : State), s.runsNow h p → s.session i = none → s.fld (Fld.HQ_Q_CFG_ENABLE h.q) = 1 →
    let q := h.q.val
    let tail := s.fld (Fld.HQ_Q_HEADS_CQ_TAIL q)
    let base := (s.addr64 (Rg.HQ_CQ_BASE_LO q) (Rg.HQ_CQ_BASE_HI q) + 16 * tail) % 2 ^ 64
    ((s.queue q).blocked = [] → s.cqRoom q = true → s.fld (Fld.HQ_Q_CFG_IRQ_EN q) = 0 → base + 16 ≤ 2 ^ 64 →
      ∃ t, exec (.closeSession h i) s = .next t ∧
        t.host.rdN base 16 = leBytes 2 h.cid.toNat ++ [BitVec.ofNat 8 (s.withinFn q), 0x04#8] ++
          leBytes 2 (s.fld (Fld.HQ_Q_HEADS_SQ_HEAD q)) ++ [if (s.queue q).odd then 0#8 else 1#8, 0#8, 0#8, 0#8, 0#8, 0#8] ++ leBytes 4 s.tick.toNat ∧
        (∀ a, (a < base ∨ base + 16 ≤ a) → t.host.rd a = s.host.rd a) ∧
        t.fld (Fld.HQ_Q_HEADS_CQ_TAIL q) = (tail + 1) % s.cqSize q ∧ t.ctr Ct.HQ_COMMANDS = (s.ctr Ct.HQ_COMMANDS).plus 1 ∧
        s.sameRegs t [Rg.HQ_Q_HEADS q] ∧ t.mem = s.mem) ∧
    (s.cqRoom q = false → ∃ t, exec (.closeSession h i) s = .next t ∧ (t.queue q).blocked.length = (s.queue q).blocked.length + 1 ∧
      s.sameRegs t [] ∧ s.sameCtrs t [] ∧ s.sameMemory t)) ∧
  (∀ (p : PartId) (v : BitVec 32) (s : State), s.serves (Rg.PARTN_EVT_CONS p) = true →
    (NMap.get 0 s.hostq.lostEvents p = 0 → ∃ t, exec (.evtCons p v) s = .next t ∧ t.rd (Rg.PARTN_EVT_CONS p) = v ∧
      s.sameRegs t [Rg.PARTN_EVT_CONS p] ∧ s.sameCtrs t [] ∧ s.sameMemory t) ∧
    (0 < NMap.get 0 s.hostq.lostEvents p → s.inForce (Fld.PARTN_EVT_CFG_ENABLE p) = 1 → s.inForce (Fld.PARTN_EVT_CFG_LOG2 p) = 6 →
      v.toNat = s.fld (Fld.PARTN_EVT_PROD_PROD p) →
      ∃ t, exec (.evtCons p v) s = .next t ∧ NMap.get 0 t.hostq.lostEvents p = 0 ∧
        t.fld (Fld.PARTN_EVT_PROD_PROD p) = (s.fld (Fld.PARTN_EVT_PROD_PROD p) + 1) % 2 ^ 32 ∧ t.mem = s.mem)) ∧
  (∀ (v : QueueId) (c : Coal) (s : State), NMap.find s.hostq.coal v = some c →
    ∃ t, exec (.coalesceTimeout v) s = .next t ∧ t.now = max s.now (c.since + s.fld (Fld.HQ_COALESCE_TIME_US v)) ∧
      NMap.find t.hostq.coal v = none ∧ s.sameRegs t [(wdogLeft 0).addr, (wdogLeft 1).addr] ∧ s.sameMemory t ∧
      (bvBit 96 (s.msixEntry v) = false → t.outs = s.outs ++
        [.msix (s.ownerFn v) (s.withinFn v) ((s.msixEntry v).extractLsb' 0 64) ((s.msixEntry v).extractLsb' 64 32)]) ∧
      (bvBit 96 (s.msixEntry v) = true → t.outs = s.outs ∧ v.val ∈ t.hostq.pba)) ∧
  (∀ s : State, s.hostq.ltrEnable = true → s.hostq.ltrSent ≠ some (s.ltrNeed.getD 0) →
    ∃ t, exec .ltrChange s = .next t ∧ t.outs = s.outs ++ [.ltr s.ltrNeed] ∧ t.hostq.ltrSent = some (s.ltrNeed.getD 0) ∧ s.sameRegs t [] ∧
      s.sameMemory t) ∧
  (∀ (n : FnId) (us : Option (BitVec 24)) (ltr : Bool) (s : State), s.configUp = false →
    exec (.srIovVfEnable n) s = .next s ∧ exec (.maxSnoopLatencyWrite us ltr) s = .next s) ∧
  (∀ (n : FnId) (s : State), s.configUp = true → ∃ t, exec (.srIovVfEnable n) s = .next t ∧ t.hostq.numVfs = n.val ∧ s.sameMemory t ∧
    (∀ q, 16 ≤ q → q < 16 + 15 * n.val → t.fld (Fld.HQ_Q_CFG_PARTITION q) = (q - 16) / 15 ∧ t.fld (Fld.HQ_Q_CFG_PRIV q) = 0) ∧
    ∀ q, q < 16 → t.rd (Rg.HQ_Q_CFG q) = s.rd (Rg.HQ_Q_CFG q)) ∧
  (∀ (us : Option (BitVec 24)) (ltr : Bool) (s : State), s.configUp = true → ∃ t, exec (.maxSnoopLatencyWrite us ltr) s = .next t ∧
    t.hostq.maxSnoop = us.map BitVec.toNat ∧ t.hostq.ltrEnable = ltr ∧ s.sameMemory t ∧
    (s.powerState = 0 → s.sameRegs t [Fld.PWR_WAKE_TOL_LTR_USED.addr])) ∧
  (∀ (speed : Fin 8) (width : Fin 16) (flit : Bool) (s : State),
    (linkOk speed.val width.val flit = true → ∃ t, exec (.pcieLinkTrained speed width flit) s = .next t ∧ t.fld Fld.HQ_LINK_SPEED = speed.val ∧
      t.fld Fld.HQ_LINK_WIDTH = width.val ∧ t.fld Fld.HQ_LINK_FLIT = bit1 flit ∧ s.sameRegs t [Fld.HQ_LINK_SPEED.addr] ∧ s.sameMemory t) ∧
    (linkOk speed.val width.val flit = false → exec (.pcieLinkTrained speed width flit) s = .next s))

/-- A session command that its session permits takes effect and completes (R241, R329, R335, R339, R340, R342, R343, R346, R347). For a
command that runs now on its own partition's session: OPEN_SESSION makes the session IDLE at position 0; PREFILL takes its tokens from
host memory; DECODE sets the budget, at once or behind a prefill, and 0 stops it but is refused on an IDLE session; SET_PARAMS replaces
the parameters; TRUNCATE moves the position back; CLOSE_SESSION frees the session; PARK and UNPARK change its state and its cache's
policy. Each but PREFILL and a waiting one completes with SUCCESS. -/
def Obligations.SessionCommandsApply : Prop :=
  ∀ (h : CmdHdr) (p : Nat) (s : State), s.runsNow h p →
    (∀ o : OpenOp, s.session o.sess = none → o.par.allowed = true → (∀ q ∈ s.hostq.sess, q.2.slot ≠ o.slot.val) →
      s.sessObj p o.sess o.cache.toNat .cache = .success →
      (o.journal = 0xFFFF#16 ∧ o.output = false ∨ o.journal ≠ 0xFFFF#16 ∧ s.sessObj p o.sess o.journal.toNat .journal = .success) →
      ∃ u : State, exec (.openSession h o) s = .next (u.completeCmd (s.cmdRef h) .success 0) ∧ s.sameMemory u ∧ u.place = s.place ∧
        (∀ k, k ≠ o.sess.val → u.session k = s.session k) ∧
        u.session o.sess = some
          { part := p, state := .idle, slot := o.slot.val, output := o.output, cache := o.cache, journal := o.journal, maxPos := o.par.maxPos
            invTemp := o.par.invTemp, topP := o.par.topP, stream := o.par.stream, pos := 0, lastTok := 0#32, prefill := [], dec := none
            step := none }) ∧
    ∀ (i : SessId) (x : Session), s.session i = some x → x.part = p →
      (∀ (count : BitVec 17) (addr : BitVec 64), (x.state = .idle ∨ x.state = .prefill) → 1 ≤ count.toNat → count.toNat ≤ 65536 →
        addr.toNat % 4 = 0 → count.toNat ≤ s.fld Fld.PART_PREFILL_FREE_TOKENS →
        ∃ u : State, exec (.prefill h i count addr) s = .next u ∧ s.sameMemory u ∧ i.val ∈ u.hostq.prefillOrder ∧
          u.session i = some { x with state := .prefill, prefill := x.prefill ++
            [⟨s.cmdRef h, (List.range count.toNat).map fun k => BitVec.ofNat 32 (leNat (s.hostBytes (addr.toNat + 4 * k) 4))⟩] }) ∧
      (∀ (budget stop : BitVec 32), x.state = .idle → budget.toNat = 0 →
        exec (.decode h i budget stop) s = .next (s.notIdle.completeCmd (s.cmdRef h) .sessionState 0)) ∧
      (∀ budget stop : BitVec 32, x.state ≠ .parked → (x.state = .idle → budget.toNat ≠ 0) →
        let run : Option DecodeRun := if budget.toNat = 0 then none else some ⟨budget.toNat, stop, 0⟩
        ∃ u : State, exec (.decode h i budget stop) s = .next (u.completeCmd (s.cmdRef h) .success 0) ∧ s.sameMemory u ∧
          u.session i = some { x with dec := run, state := if x.state = .prefill then .prefill else if budget.toNat = 0 then .idle else .decode }) ∧
      (∀ o : SessParams, o.allowed = true →
        ∃ u : State, exec (.setParams h i o) s = .next (u.completeCmd (s.cmdRef h) .success 0) ∧ s.sameMemory u ∧
          u.session i = some { x with maxPos := o.maxPos, invTemp := o.invTemp, topP := o.topP, stream := o.stream }) ∧
      (∀ pos : BitVec 32, (x.state = .idle ∨ x.state = .parked) → pos.toNat ≤ x.pos →
        let r := if pos.toNat = 0 then (0#32, s) else s.journalToken x (pos.toNat - 1)
        r.2.boot.fault = none →
        ∃ u : State, exec (.truncate h i pos) s = .next (u.completeCmd (s.cmdRef h) .success 0) ∧ r.2.sameMemory u ∧
          u.session i = some { x with pos := pos.toNat, lastTok := r.1 }) ∧
      (x.prefill = [] → ∃ u : State, exec (.closeSession h i) s = .next (u.completeCmd (s.cmdRef h) .success 0) ∧ s.sameMemory u ∧ u.session i = none ∧
        (∀ k, k ≠ i.val → u.session k = s.session k) ∧ u.place = s.place) ∧
      ∀ (c : Instr) (pol : Policy) (was now : SessState) (y : Obj),
        (c = .park h i ∧ pol = .host ∧ was = .idle ∧ now = .parked ∨
          (∃ k : Fin 8, c = .unpark h i k ∧ unparkPolicy k.val = some pol) ∧ was = .parked ∧ now = .idle) → x.state = was →
        s.obj x.cache.toNat = some y → y.live = true → y.kind.permits pol = true → y.placeDie ≤ 5 →
        s.tooLarge y.part y.kind pol (y.size - (s.framed (· == x.cache.toNat)).length) (y.size - (s.paged (· == x.cache.toNat)).length) 0 = false →
        (pol = .host → (s.place.dir.filter fun d => d.1 / 2 ^ 22 == x.cache.toNat && d.2.home == .stack &&
          !(s.paged (· == x.cache.toNat)).contains d.1).length ≤ (s.freePages y.part).length) →
        ∃ u : State, (if h.wait then exec c s = .next u else exec c s = .next (u.completeCmd (s.cmdRef h) .success 0)) ∧
          u.session i = some { x with state := now } ∧ ∃ z, u.obj x.cache.toNat = some z ∧ z.policy = pol

/-- An object command that nothing forbids takes effect (R224, R226, R229, R239, R241, R251, R270, R271, R339, R354). For a command that
runs now: CREATE_OBJECT makes a LIVE object at a free index and returns it; SET_PLACEMENT changes policy, class, die and, on a privileged
queue, the share mask; DELETE_OBJECT leaves the object DELETING or free, unless a session holds it; INSTALL makes an INSTALLING object
and begins, and a second one is refused BUSY; ABORT_INSTALL ends it and frees its entry; SHRINK_HOST_PAGES with no tile above the count
lowers HPT_COUNT. -/
def Obligations.ObjectCommandsApply : Prop :=
  ∀ (h : CmdHdr) (p : Nat) (s : State), s.runsNow h p →
    (∀ (o : CreateOp) (k : ObjKind) (pol : Policy), o.part.val = p → ObjKind.ofCode o.kind.val = some k → Policy.ofCode o.policy.val = some pol →
      k ≠ .weights → k.permits pol = true → o.placeDie.val ≤ 5 → 1 ≤ o.size.toNat → o.size.toNat ≤ 4194304 →
      s.entryRoom o.size.toNat = true → s.tooLarge p k pol o.size.toNat o.size.toNat (dirCount o.size.toNat) = false →
      NMap.sorted s.place.objs → (∀ q ∈ s.place.objs, q.1 < 65536) →
      ∃ (u : State) (n : Nat), exec (.createObject h o) s = .next (u.completeCmd (s.cmdRef h) .success n) ∧ n < 65536 ∧ s.obj n = none ∧
        (∀ m, m ≠ n → u.obj m = s.obj m) ∧ ∃ x, u.obj n = some x ∧ x.state = .live ∧ x.kind = k ∧ x.part = p ∧ x.policy = pol ∧
          x.size = o.size.toNat ∧ x.cls = o.cls.val ∧ x.placeDie = o.placeDie.val ∧ x.share = o.share ∧ x.age = 0#32) ∧
    (∀ (o : PlaceOp) (pol : Policy) (y : Obj), Policy.ofCode o.policy.val = some pol → s.obj o.object.toNat = some y → y.part = p →
      y.live = true → y.kind.permits pol = true → o.placeDie.val ≤ 5 →
      s.tooLarge p y.kind pol (y.size - (s.framed (· == o.object.toNat)).length) (y.size - (s.paged (· == o.object.toNat)).length) 0 = false →
      (pol = .host → (s.place.dir.filter fun d => d.1 / 2 ^ 22 == o.object.toNat && d.2.home == .stack &&
        !(s.paged (· == o.object.toNat)).contains d.1).length ≤ (s.freePages p).length) →
      ∃ u : State, (if h.wait then exec (.setPlacement h o) s = .next u
          else exec (.setPlacement h o) s = .next (u.completeCmd (s.cmdRef h) .success 0)) ∧
        ∃ z, u.obj o.object.toNat = some z ∧ z.policy = pol ∧ z.cls = o.cls.val ∧ z.placeDie = o.placeDie.val ∧
          z.share = (if s.queuePriv h.q.val then o.share else y.share)) ∧
    (∀ (o : ObjId) (y : Obj), s.obj o.toNat = some y → y.part = p → y.live = true →
      ((∀ q ∈ s.hostq.sess, q.2.cache ≠ o ∧ (q.2.journal ≠ o ∨ q.2.journal = 0xFFFF#16)) →
        ∃ u : State, exec (.deleteObject h o) s = .next u ∧ ∀ z, u.obj o.toNat = some z → z.state = .deleting) ∧
      ((∃ q ∈ s.hostq.sess, q.2.cache = o) →
        exec (.deleteObject h o) s = .next (s.notIdle.completeCmd (s.cmdRef h) .objectState 0))) ∧
    (∀ o : InstallOp, (Fmt.ofCode o.format.val).isSome = true → (groupSize o.group.val).isSome = true →
      (Policy.ofCode o.policy.val).isSome = true → s.flash.inst.isSome = true →
      exec (.install h o) s = .next (s.notIdle.completeCmd (s.cmdRef h) .busy 0)) ∧
    (∀ (o : InstallOp) (fm : Fmt) (n : Nat) (pol : Policy), Fmt.ofCode o.format.val = some fm → groupSize o.group.val = some n →
      Policy.ofCode o.policy.val = some pol → s.flash.inst = none → s.fld Fld.ONYX_STATUS_STATE = onyxMounted →
      let w := ceilDiv o.wBytes.toNat 65536
      let tiles := w + ceilDiv w (blocksPerScaleTile fm n)
      fm.isWeight = true → ObjKind.weights.permits pol = true → o.placeDie.val ≤ 5 → 1 ≤ o.wBytes.toNat → tiles ≤ 4194304 →
      o.sBytes.toNat = w * scaleRecordBytes fm n → s.entryRoom tiles = true → s.tooLarge p .weights pol tiles 0 (dirCount tiles) = false →
      s.within (Fld.OBJ_QUOTA_FLASH_LIMIT p) (s.fld (Fld.OBJ_USE_FLASH_TILES p) + tiles) = true →
      ∃ (u : State) (j : Install) (x : Obj), exec (.install h o) s = .next u ∧ u.flash.inst = some j ∧ j.cmd = s.cmdRef h ∧ j.wTiles = w ∧ j.tiles = tiles ∧
        j.fmt = o.format.val ∧ j.group = o.group.val ∧ j.threshold = s.fld Fld.CTAB_CTRL_RAW_THRESHOLD ∧
        u.obj j.object = some x ∧ x.state = .installing ∧ x.kind = .weights ∧ x.part = p ∧ x.size = tiles ∧ x.policy = pol) ∧
    (∀ (o : ObjId) (y : Obj) (j : Install), s.obj o.toNat = some y → y.part = p → s.flash.inst = some j → j.object = o.toNat →
      (∀ q ∈ s.place.moves, q.1 / 2 ^ 22 ≠ o.toNat) → s.place.replaceT = [] →
      ∃ u : State, exec (.abortInstall h o) s = .next u ∧ u.flash.inst = none ∧ u.obj o.toNat = none ∧ u.mem = s.mem) ∧
    ∀ count : BitVec 29, count.toNat ≤ 2 ^ 28 → (∀ pg ∈ s.place.pages, pagePart pg = p → pageIdx pg < count.toNat) →
      (∀ d ∈ s.place.dir, d.2.home = .host ∨ d.2.moving = true → pageIdx d.2.page < count.toNat) →
      (∀ d ∈ s.place.oldPages, pageIdx d.2 < count.toNat) → (∀ d ∈ s.place.moves, ∀ pg, d.2.dest = .page pg → pageIdx pg < count.toNat) → p < 16 →
      ∃ u : State, exec (.shrinkHostPages h count) s = .next (u.completeCmd (s.cmdRef h) .success 0) ∧ s.sameMemory u ∧
        u.fld (Fld.PARTN_HPT_COUNT_COUNT p) = min (s.fld (Fld.PARTN_HPT_COUNT_COUNT p)) count.toNat

/-- Flash pages are read, programmed and erased, and Onyx mounts, formats and checkpoints (R254, R255, R258, R259, R263, R264, R265,
R267, R268, R275, R277, R281). A page read that has its turn reads and counts readable codewords, and one that has not does nothing; an
unreadable one is counted and recorded; a patrol reads each page once in a pass. A vault page moves 512 entries to the vault; copies A
and B of a commit follow each other; a program without work does nothing. An erased block is free, or retired on failure. MOUNT serves an
anchored population whose checkpoint can be read, shows one without an anchor UNFORMATTED and fails another; FORMAT leaves a flash that
holds no object, MOUNTED, or FAILED where its system area found no block in service; CHECKPOINT goes on in the other journal set, behind
an anchor that names it on each of lanes 0 to 3 whose block is in service (programs of the device's own fail as free values say, log
entry 79); PATROL_START begins a pass. -/
def Obligations.FlashIsReadAndProgrammed : Prop :=
  (∀ (lane : LaneId) (block : BlockId) (page : PageId) (outs : List CodeRead) (us : BitVec 16) (s : State), s.boot.fault = none →
    s.onyxRun = true → s.awaitsReadBack (blockKey lane block.toNat) = false →
    let key := pageKey lane block.toNat page.toNat
    let cell := NMap.find s.flash.nand key
    let ch := laneChan lane
    let passes := s.now < s.flash.patrolAt + 86400000000 * s.fld Fld.ONYX_PATROL_DAYS
    (cell = none → exec (.flashPageRead lane block page outs us) s = .next s ∧
      (NMap.find s.flash.sys key = none → passes → exec (.patrol lane block page outs us) s = .next s)) ∧
    (key ∈ s.flash.patrolled → passes → exec (.patrol lane block page outs us) s = .next s) ∧
    (∀ cws, cell = some cws → s.onyxBackground = true → s.turn ch 8 = true → key ∉ s.flash.patrolled → passes →
      ∃ t, exec (.patrol lane block page outs us) s = .next t ∧ t.ctr (Ct.FCH_READS ch) = (s.ctr (Ct.FCH_READS ch)).plus 1 ∧
        t.flash.patrolled = s.flash.patrolled ++ [key] ∧ t.flash.nand = s.flash.nand ∧ s.sameMemory t) ∧
    (s.pageTurn lane block.toNat page.toNat = false → exec (.flashPageRead lane block page outs us) s = .next s) ∧
    (∀ cws, cell = some cws → s.pageTurn lane block.toNat page.toNat = true → s.place.jobs = [] → (∀ p ∈ cws.zipIdx,
        let r := outs.getD p.2 ⟨0#16, 0, false, false⟩
        let asked := ((s.pageSector lane block.toNat page.toNat p.2).bind s.sectorOwner).getD (p.1.handle.toNat, p.1.sector.toNat)
        r.failed = false ∧ r.retries.val ≤ s.retryMax ∧ (r.soft = true → s.fld Fld.ONYX_ECC_POLICY_SOFT_EN = 1) ∧
          p.1.ok asked.1 asked.2 = true ∧ codeKey lane block.toNat page.toNat p.2 ∉ s.flash.unread) →
      ∃ t, exec (.flashPageRead lane block page outs us) s = .next t ∧ t.ctr (Ct.FCH_READS ch) = (s.ctr (Ct.FCH_READS ch)).plus 1 ∧
        t.ctr (Ct.FCH_UNREADABLE ch) = s.ctr (Ct.FCH_UNREADABLE ch) ∧ t.flash.nand = s.flash.nand ∧ t.flash.unread = s.flash.unread ∧ s.sameMemory t) ∧
    (∀ (c : CodeWord) (r : CodeRead), cell = some [c] → outs = [r] → r.failed = true → s.pageTurn lane block.toNat page.toNat = true → s.flash.img.objs = [] → s.place.jobs = [] →
      ∃ t, exec (.flashPageRead lane block page outs us) s = .next t ∧ t.ctr (Ct.FCH_UNREADABLE ch) = (s.ctr (Ct.FCH_UNREADABLE ch)).plus 1 ∧
        t.ctr Ct.ONYX_UNREADABLE_SECTORS = (s.ctr Ct.ONYX_UNREADABLE_SECTORS).plus 1 ∧
        t.told .flashUnreadable ch c.handle.toNat c.sector.toNat ∧ codeKey lane block.toNat page.toNat 0 ∈ t.flash.unread ∧ s.sameMemory t)) ∧
  (∀ (us : BitVec 16) (s : State), s.onyxUp = true → s.programTurn .vault = true → s.flash.vaultFlush = 0 → 512 ≤ s.flash.vaultBuf.length →
    ∃ t, exec (.flashProgramComplete .vault true us) s = .next t ∧ t.flash.vaultBuf = s.flash.vaultBuf.drop 512 ∧
      (∃ old, t.flash.vault = old ++ s.flash.vaultBuf.take 512) ∧ t.flash.jq.getLast? = some [] ∧ s.sameMemory t ∧
      (s.flash.vaultAt.2 ≠ 0 →
        t.flash.vault = (s.flash.vault ++ s.flash.vaultBuf.take 512).drop ((s.flash.vault ++ s.flash.vaultBuf.take 512).length - 2097152) ∧
        t.flash.jq = s.flash.jq ++ [[]] ∧
        let at_ := setPlace s.flash.vaultAt.2;
        (NMap.find t.flash.sys (pageKey at_.1 (s.flash.setBlock (4 + s.flash.vaultAt.1) at_.1) at_.2)).map (·.body) =
          some (.vault (s.flash.vaultBuf.take 512)))) ∧
  (∀ (us : BitVec 16) (c : Commit) (s : State), s.onyxUp = true → s.programTurn .journal = true → s.flash.copyB = some c →
    ∃ t, exec (.flashProgramComplete .journal true us) s = .next t ∧ t.flash.copyB = none ∧ t.flash.epoch = s.flash.epoch ∧ t.flash.jq = s.flash.jq ∧
      s.sameMemory t) ∧
  (∀ (us : BitVec 16) (rest : List (List JRec)) (l : List (Nat × BitVec 32)) (s : State), s.onyxUp = true → s.programTurn .journal = true →
    s.fld Fld.PWR_STATUS_PWRFAIL = 0 → s.flash.copyB = none → s.flash.jq = [.readCounts l] :: rest → s.flash.jcount + 1 < s.journalFull →
    ∃ t, exec (.flashProgramComplete .journal true us) s = .next t ∧ t.flash.epoch = s.flash.epoch + 1#64 ∧
      t.flash.copyB = some (mkCommit (s.flash.epoch + 1#64) [.readCounts l]) ∧ t.flash.jq = rest ∧ t.flash.jcount = s.flash.jcount + 1 ∧
      t.ctr Ct.ONYX_JOURNAL_COMMITS = (s.ctr Ct.ONYX_JOURNAL_COMMITS).plus 1 ∧ s.sameMemory t) ∧
  (∀ (k : FlashProg) (ok : Bool) (us : BitVec 16) (s : State),
    (s.onyxUp = false ∨ s.programTurn k = false ∨ k = .install ∧ s.flash.inst = none ∧ FlashProg.install ∉ s.flash.inProgress) →
    exec (.flashProgramComplete k ok us) s = .next s) ∧
  (∀ (lane : LaneId) (block : BlockId) (s : State), let k := blockKey lane block.toNat
    s.onyxRun = true → (s.flash.img.block k).use = .erasing → k ∉ s.flash.suspects → s.flash.img.bands = [] →
    (∃ t, exec (.flashEraseComplete lane block false) s = .next t ∧ (t.flash.img.block k).use = .retired ∧ t.blockPages k = [] ∧
      t.ctr (Ct.FCH_ERASE_FAILS (laneChan lane)) = (s.ctr (Ct.FCH_ERASE_FAILS (laneChan lane))).plus 1 ∧
      t.ctr Ct.ONYX_RETIRED_BLOCKS = (s.ctr Ct.ONYX_RETIRED_BLOCKS).plus 1 ∧ s.sameMemory t) ∧
    ((s.flash.img.block k).erases + 1 < s.fld Fld.ONYX_WEAR_PE_LIMIT →
      ∃ t, exec (.flashEraseComplete lane block true) s = .next t ∧
        t.flash.img.block k = { use := .free, erases := (s.flash.img.block k).erases + 1, reads := 0#32 } ∧ t.blockPages k = [] ∧
        t.ctr (Ct.FCH_ERASES (laneChan lane)) = (s.ctr (Ct.FCH_ERASES (laneChan lane))).plus 1 ∧ s.sameMemory t)) ∧
  (∀ s : State, s.serves Rg.ONYX_CMD = true → s.onyxRun = true →
    exec .patrolStart s = .next { s with flash := { s.flash with patrolAt := s.now, patrolled := [] } } ∧
    (s.flash.jq = [] → s.flash.copyB = none → s.flash.inst = none → (∀ l, l < 4 → 2 ≤ s.flash.setBlock s.flash.jset l) →
      s.flash.jset < 2 → (s.flash.cset = 2 ∨ s.flash.cset = 3) →
      ∃ t, exec .checkpoint s = .next t ∧ t.flash.jcount = 0 ∧ t.flash.jset = 1 - s.flash.jset ∧ t.flash.cset = 5 - s.flash.cset ∧
        (∀ l, l < 4 → (∃ b, b < 2 ∧ (t.flash.img.block (blockKey l b)).use = .retired) ∨
          ∃ p ∈ t.flash.sys, p.1 / 2 ^ 32 = l ∧ ∃ a, p.2.body = .anchor a ∧ a.epoch = t.flash.epoch ∧ a.ckpt = (5 - s.flash.cset, 0) ∧
            a.jour = (1 - s.flash.jset, 0) ∧ a.nextHandle = s.flash.nextHandle) ∧
        t.ctr Ct.ONYX_CHECKPOINTS = (s.ctr Ct.ONYX_CHECKPOINTS).plus 1 ∧ s.sameMemory t)) ∧
  (∀ (d : Discovery) (s : State), s.fld Fld.BOOT_STATE_STATE = 4 → s.fld Fld.ONYX_STATUS_STATE ≤ 1 →
    let spoilt := d.spoilt.map fun p => pageKey p.1.val p.2.1.toNat p.2.2.toNat
    ((oneGeom d = none ∨ d.anchorBad = true) → ∃ t, exec (.mount d) s = .next t ∧ t.fld Fld.ONYX_STATUS_STATE = onyxFailed ∧
      t.fld Fld.BOOT_STATE_STATE = 8 ∧ t.fld Fld.BOOT_STATE_FAIL_CODE = 7) ∧
    ∀ g, oneGeom d = some g → d.anchorBad = false → ∃ t, exec (.mount d) s = .next t ∧ t.flash.geom = some g ∧
      (s.flash.anchorOf spoilt = none → t.fld Fld.BOOT_STATE_STATE = 5 ∧ t.fld Fld.ONYX_STATUS_STATE = onyxUnformatted) ∧
      (∀ a img, s.flash.anchorOf spoilt = some a → s.flash.loadCkpt spoilt a.ckpt.1 a.ckpt.2 = some img →
        let x := replayed img (s.flash.commitsFrom spoilt a.jour.1 s.flash.sys.length (a.epoch + 1#64) 0)
        ((∀ l, l < 4 → ∀ b, b < 2 → (x.block (blockKey l b)).use ≠ .retired) → t.fld Fld.BOOT_STATE_STATE = 5 ∧ t.onyxUp = true) ∧
        ((∃ l, l < 4 ∧ ∃ b, b < 2 ∧ (x.block (blockKey l b)).use = .retired) →
          t.fld Fld.BOOT_STATE_STATE = 8 ∧ t.fld Fld.ONYX_STATUS_STATE = onyxFailed))) ∧
  (∀ (d : Discovery) (g : FlashGeom) (s : State), s.serves Rg.ONYX_CMD = true → s.fld Fld.ONYX_STATUS_STATE = onyxUnformatted →
    s.fld Fld.PWR_STATUS_PWRFAIL = 0 → oneGeom d = some g → s.flash.inst = none → s.flash.jq = [] →
    let img := formatBlocks (s.fld Fld.ONYX_WEAR_PE_LIMIT) s.flash.img [] []
    (∀ l, l < 4 → ∀ b, b < 2 → (img.block (blockKey l b)).use = .free) →
    (∀ l, l < 16 → (img.setBlocks g l (4 + vaultSets g.pages.val)).length = 4 + vaultSets g.pages.val) →
    ∃ t, exec (.format d ⟨[], []⟩) s = .next t ∧ t.flash.nand = [] ∧ t.flash.img.objs = [] ∧ t.flash.geom = some g ∧
      (t.onyxUp = true ∨ t.fld Fld.ONYX_STATUS_STATE = onyxFailed) ∧
      (∀ l, l < 4 → (∃ b, b < 2 ∧ (t.flash.img.block (blockKey l b)).use = .retired) ∨
        ∃ p ∈ t.flash.sys, p.1 / 2 ^ 32 = l ∧ ∃ a, p.2.body = .anchor a ∧ a.epoch = 0#64 ∧ a.nextHandle = 1) ∧
      (∀ id, id < 64 → t.fld (Fld.CTAB_ID_STATE_STATE id) = 0))

/-- Onyx keeps its blocks, and the encoders code segments with tables that go live (R169, R177, R178, R266, R272, R273, R274, R276,
R281). READ_COUNTS waits its minute and journals the counts. A refresh and a wear-level move that have their turn put a new block in the
old one's place in its band, counted by cause; below the spread nothing moves. Compaction gives an object its new place; where nothing
can move it does nothing. A counted segment holds a table and its bytes; a coded one is counted, coded and raw tiles apart; an allocated
table goes LIVE in every cluster while it is held or referred to. -/
def Obligations.OnyxAndEncodersWork : Prop :=
  (∀ s : State, s.onyxRun = true → s.flash.counted.length ≤ 2000 → ∃ t, exec .readCounts s = .next t ∧ t.flash.counted = [] ∧
    t.flash.countedAt = s.flash.countedAt + 60000000 ∧ t.now = max s.now (s.flash.countedAt + 60000000) ∧
    t.flash.jq.length = s.flash.jq.length + (if s.flash.counted = [] then 0 else 1) ∧ s.sameRegs t [(wdogLeft 0).addr, (wdogLeft 1).addr] ∧
    s.sameMemory t) ∧
  (∀ (lane : LaneId) (block : BlockId) (why : RefreshWhy) (b new : Nat) (blocks : List Nat) (s : State), let k := blockKey lane block.toNat
    s.onyxBackground = true → s.flash.queue.find? (fun q => q.1 == k) = some (k, why) → s.refreshTurn k = true →
    (s.flash.img.block k).use = .band b → s.freeBlock lane = some new → s.flash.jq = [] → s.flash.copyB = none →
    NMap.find s.flash.img.bands b = some blocks →
    ∃ t, exec (.blockRefresh lane ⟨block, 0#8⟩) s = .next t ∧ NMap.find t.flash.img.bands b = some (blocks.set lane new) ∧
      (∀ q ∈ t.flash.queue, q.1 ≠ k) ∧ t.flash.epoch = s.flash.epoch + 1#64 ∧ s.sameMemory t ∧
      let c := match why with | .reads => Ct.ONYX_READ_REFRESHES | .ecc => Ct.ONYX_ECC_REFRESHES
      t.ctr c = (s.ctr c).plus 1) ∧
  (∀ (lane : LaneId) (old b new : Nat) (x : BlockInfo) (blocks : List Nat) (s : State), s.onyxBackground = true →
    s.flash.img.laneBlocks lane = [(old, x)] → x.use = .band b → s.wornBlock lane = some new → s.flash.jq = [] → s.flash.copyB = none →
    NMap.find s.flash.img.bands b = some blocks →
    (s.turn (laneChan lane) 7 = true → x.erases + s.fld Fld.ONYX_WEAR_WL_SPREAD < s.flash.img.blank.erases →
      ∃ t, exec (.wearLevelMove ⟨lane, 0#8⟩) s = .next t ∧ NMap.find t.flash.img.bands b = some (blocks.set lane new) ∧
        t.ctr Ct.ONYX_WL_MOVES = (s.ctr Ct.ONYX_WL_MOVES).plus 1 ∧ s.sameMemory t) ∧
    (s.flash.img.blank.erases ≤ x.erases + s.fld Fld.ONYX_WEAR_WL_SPREAD → exec (.wearLevelMove ⟨lane, 0#8⟩) s = .next s)) ∧
  (∀ s : State, s.compactNext = none → exec .compaction s = .next s) ∧
  (∀ (hd base : Nat) (o : OnyxObj) (s : State), s.compactNext = some (hd, o) → s.onyxBackground = true →
    (∀ ch, ch < 16 → s.turn ch 7 = true) →
    s.frontier o = (base, []) → s.flash.jq = [] → s.flash.copyB = none → NMap.find s.flash.img.objs hd = some o →
    ∃ t, exec .compaction s = .next t ∧ NMap.find t.flash.img.objs hd = some { o with base := base } ∧
      t.ctr Ct.ONYX_COMPACTIONS = (s.ctr Ct.ONYX_COMPACTIONS).plus 1 ∧ s.sameMemory t) ∧
  (∀ (m : DieId) (i : Install) (seg : Nat) (data : List Byte) (s : State), s.flash.inst = some i → s.onyxRun = true →
    (NMap.find i.encs m.val = some ⟨seg, none, data⟩ →
      ∃ t, exec (.encSegmentReceived m) s = .next t ∧ t.fld (Fld.ENC_STATUS_PASS m) = 1 ∧
        t.ctr (Ct.ENC_BYTES_IN m) = (s.ctr (Ct.ENC_BYTES_IN m)).plus (min (2 ^ 24) (i.wBytes - 2 ^ 24 * seg)) ∧ s.sameMemory t ∧
        ∃ j id, t.flash.inst = some j ∧ id < 64 ∧ id ∈ j.held ∧
          NMap.find j.encs m.val = some ⟨seg, some (id, t.fld (Fld.CTAB_ID_STATE_GEN id)), s.segBytes i seg⟩) ∧
    (∀ id gen, NMap.find i.encs m.val = some ⟨seg, some (id, gen), data⟩ →
      ∃ t n, exec (.encSegmentCoded m) s = .next t ∧ t.ctr (Ct.ENC_SEGMENTS_DONE m) = (s.ctr (Ct.ENC_SEGMENTS_DONE m)).plus 1 ∧
        n ≤ (i.segTiles seg).length ∧ t.ctr (Ct.ENC_TILES_CODED m) = (s.ctr (Ct.ENC_TILES_CODED m)).plus n ∧
        t.ctr (Ct.ENC_TILES_RAW m) = (s.ctr (Ct.ENC_TILES_RAW m)).plus ((i.segTiles seg).length - n) ∧ t.mem = s.mem)) ∧
  (∀ (id : Fin 64) (s : State),
    (s.fld (Fld.CTAB_ID_STATE_STATE id) ≠ 1 → exec (.tableLive id) s = .next s) ∧
    (s.fld (Fld.CTAB_ID_STATE_STATE id) = 1 → (s.tableHeld id = true ∨ s.fld (Fld.CTAB_ID_REFS_REFS id) ≠ 0) →
      ∃ t, exec (.tableLive id) s = .next t ∧ t.fld (Fld.CTAB_ID_STATE_STATE id) = 2 ∧ s.sameMemory t ∧
        ∀ c, c < 64 → ∀ x, NMap.find s.flash.img.tables id = some x → NMap.get {} (t.cluster c).tables id = ⟨x.lens, x.gen, true⟩))

/-- The recorder accepts entries in order, limits codes, summarises, flushes and answers (R419, R421, R423, R424, R426, R427, R428, R429,
R433, R435, R438). The first waiting entry takes the next SEQ with its source's class, unit and details, or is suppressed and counted
beyond LIMIT. A window's end summarises its drops and opens the next. OP_TIME comes at a whole number of hours. A flush with nothing left
completes, else FLUSH_BUSY shows. READ_SEQ gives READY, PENDING or GONE with the entry's words, GONE for a sequence not yet given; a
vault read in its turn completes it, GONE where its page cannot be read (a free value, log entry 83). CTR_CLEAR clears one counter or its
block's. KICK reloads a watchdog and counts what the core's SRAM corrected (log entry 59). The sideband answers SELECT, HEAD, TIME and
unused commands, and takes an address. -/
def Obligations.RecorderAcceptsAndAnswers : Prop :=
  (∀ s : State, s.intake = [] → exec .jasperAccept s = .next s) ∧
  (∀ (e : JReq) (rest : List JReq) (s : State), s.intake = e :: rest →
    ((limited e = false ∨ NMap.get 0 s.jsp.counts e.code < s.fld Fld.JSP_RATE_LIMIT) →
      ∃ t x, exec .jasperAccept s = .next t ∧ t.intake = rest ∧ t.mem = s.mem ∧ t.ctr Ct.JSP_RECORDED = (s.ctr Ct.JSP_RECORDED).plus 1 ∧
        t.rd Rg.JSP_NEXT_SEQ = s.rd Rg.JSP_NEXT_SEQ + 1#32 ∧ t.jsp.ring.getLast? = some x ∧ x.seq = s.rd Rg.JSP_NEXT_SEQ ∧ x.cls = e.cls ∧
        x.kind = e.kind ∧ x.code = e.code ∧ x.unit = e.unit ∧ x.d0 = e.d0 ∧ x.d1 = e.d1 ∧ x.tick = s.tickNo) ∧
    (limited e = true → s.fld Fld.JSP_RATE_LIMIT ≤ NMap.get 0 s.jsp.counts e.code →
      ∃ t, exec .jasperAccept s = .next t ∧ t.intake = rest ∧ t.jsp.ring = s.jsp.ring ∧ s.sameRegs t [] ∧ s.sameMemory t ∧
        t.ctr Ct.JSP_SUPPRESSED = (s.ctr Ct.JSP_SUPPRESSED).plus 1 ∧ s.sameCtrs t [Ct.JSP_SUPPRESSED])) ∧
  (∀ s : State, s.jsp.supp = [] → ∃ t, exec .rateWindowEnd s = .next t ∧ t.jsp.counts = [] ∧ t.jsp.drops = 0 ∧ t.intake = s.intake ∧
    t.jsp.windowAt = s.jsp.windowAt + 1000 * s.fld Fld.JSP_RATE_WINDOW_MS ∧ t.now = max s.now t.jsp.windowAt ∧ s.sameMemory t ∧
    (s.jsp.drops = 0 → t.jsp.ring = s.jsp.ring) ∧
    (0 < s.jsp.drops → ∃ x, t.jsp.ring.getLast? = some x ∧ x.code = 0x0004 ∧ x.cls = 0 ∧ x.d1 = BitVec.ofNat 32 s.jsp.drops ∧
      x.seq = s.rd Rg.JSP_NEXT_SEQ)) ∧
  (∀ s : State, s.fld Fld.JSP_OP_SECONDS_SECONDS + (s.now - s.jsp.secondAt) / 1000000 + 3600 < 2 ^ 32 → s.jsp.secondAt ≤ s.now →
    ∃ t, exec .opTime s = .next t ∧ t.told .opTime 0 0 0 ∧ t.fld Fld.JSP_OP_SECONDS_SECONDS % 3600 = 0 ∧ t.jsp.opAt = t.fld Fld.JSP_OP_SECONDS_SECONDS ∧ s.sameMemory t ∧
      s.sameRegs t [Rg.JSP_OP_SECONDS, (wdogLeft 0).addr, (wdogLeft 1).addr]) ∧
  (∀ s : State, s.serves Rg.JSP_CTRL = true →
    ∃ t, exec .flush s = .next t ∧ s.sameMemory t ∧
      if s.onyxUp = true ∧ s.fld Fld.JSP_STATUS_REBASED = 1 ∧ s.passVault.vaultIdle = true
      then t.ctr Ct.JSP_FLUSHES = (s.ctr Ct.JSP_FLUSHES).plus 1 ∧ s.sameRegs t []
      else t.fld Fld.JSP_STATUS_FLUSH_BUSY = 1 ∧ t.flash.vaultFlush = t.flash.vaultBuf.length ∧ s.sameRegs t [Rg.JSP_STATUS]) ∧
  (∀ (q : BitVec 32) (s : State), s.serves Rg.JSP_READ_SEQ = true →
    ∃ t, exec (.readSeq q) s = .next t ∧ t.rd Rg.JSP_READ_SEQ = q ∧ s.sameMemory t ∧ s.sameCtrs t [] ∧
      (∀ e, s.notYet q = false → s.ringEntry q = some e → t.fld Fld.JSP_READ_STATUS_STATE = 0 ∧
        ∀ w, w < 8 → t.fld (Fld.JSP_ENTRY_WORD w) = leNat ((e.bytes.drop (4 * w)).take 4)) ∧
      (s.notYet q = false → s.ringEntry q = none → (s.vaultEntry q).isSome = true → t.fld Fld.JSP_READ_STATUS_STATE = 1) ∧
      (s.notYet q = true ∨ s.ringEntry q = none ∧ s.vaultEntry q = none → t.fld Fld.JSP_READ_STATUS_STATE = 2 ∧ ∀ w, w < 8 → t.fld (Fld.JSP_ENTRY_WORD w) = 0)) ∧
  (∀ (e : BitVec 256) (s : State), s.fld Fld.JSP_READ_STATUS_STATE = 1 → s.vaultEntry (s.rd Rg.JSP_READ_SEQ) = some e → s.jsp.sel = none →
    (s.vaultTurn (s.rd Rg.JSP_READ_SEQ) = false → exec .vaultReadComplete s = .next s) ∧
    (s.vaultTurn (s.rd Rg.JSP_READ_SEQ) = true → ∃ t, exec .vaultReadComplete s = .next t ∧ s.sameMemory t ∧
      ((s.readVault (s.rd Rg.JSP_READ_SEQ)).1 ≠ none → t.fld Fld.JSP_READ_STATUS_STATE = 0 ∧
        ∀ w, w < 8 → t.fld (Fld.JSP_ENTRY_WORD w) = leNat (((leBytes 32 e.toNat).drop (4 * w)).take 4)) ∧
      ((s.readVault (s.rd Rg.JSP_READ_SEQ)).1 = none → t.fld Fld.JSP_READ_STATUS_STATE = 2 ∧ ∀ w, w < 8 → t.fld (Fld.JSP_ENTRY_WORD w) = 0))) ∧
  (∀ (ofs : BitVec 26) (s : State), s.serves Rg.JSP_CTR_CLEAR = true →
    let a := 4 * ofs.toNat
    (regAt a = .counterLo → ∃ t, exec (.ctrClearCounter ofs) s = .next t ∧ t.ctr a = {} ∧
      s.sameCtrs t (a :: if s.powerState = 0 then [] else [resCtr s.powerState]) ∧ s.sameRegs t [] ∧ s.sameMemory t) ∧
    (regAt a ≠ .counterLo → ∃ t, exec (.ctrClearCounter ofs) s = .next t ∧ t.told .unusedValue 0 Rg.JSP_CTR_CLEAR a ∧ s.sameRegs t []) ∧
    (∀ b, decodeBlk a = some b → b.1 ≠ .hq → b.1 ≠ .hqq →
      ∃ t, exec (.ctrClearBlock ofs) s = .next t ∧ s.sameRegs t [] ∧ s.sameMemory t ∧
        (∀ c, decodeBlk c = some b → t.ctr c = {}) ∧
        ∀ c, decodeBlk c ≠ some b → (s.powerState = 0 ∨ c ≠ resCtr s.powerState) → t.ctr c = s.ctr c) ∧
    (decodeBlk a = none → ∃ t, exec (.ctrClearBlock ofs) s = .next t ∧ t.told .unusedValue 0 Rg.JSP_CTR_CLEAR (a + 2 ^ 28) ∧ s.sameRegs t [])) ∧
  (∀ (core : Fin 2) (n : BitVec 16) (s : State), ∃ t, exec (.kick ⟨core, n⟩) s = .next t ∧ t.fld (wdogLeft core) = s.fld Fld.JSP_WDOG_CTRL_PERIOD_MS ∧
    t.ctr Ct.JSP_MGMT_ECC_CORRECTED = (s.ctr Ct.JSP_MGMT_ECC_CORRECTED).plus n.toNat ∧
    s.sameRegs t [Fld.JSP_WDOG_STATUS_LEFT0_MS.addr] ∧ s.sameCtrs t [Ct.JSP_MGMT_ECC_CORRECTED] ∧ s.sameMemory t) ∧
  (∀ (q : BitVec 32) (s : State), s.sidebandUp = true →
    (∃ t, exec (.select (.select q)) s = .next t ∧ t.outs = s.outs ++ [.i3c (s.selectBytes q)] ∧ s.sameRegs t [] ∧ s.sameMemory t) ∧
    (∀ b : BitVec 8, b ≠ 1#8 → b ≠ 2#8 → b ≠ 3#8 →
      ∃ t, exec (.select (.other b)) s = .next t ∧ t.outs = s.outs ++ [.i3c [0xFF#8]] ∧ s.sameRegs t [] ∧ s.sameMemory t) ∧
    (∀ a, s.boot.i3cAddr = some a → ∃ t, exec (.select (.setDasa a)) s = .next t ∧ t.boot.i3cDyn = some a ∧ s.sameRegs t [] ∧ s.sameMemory t) ∧
    (∀ a, s.boot.i3cDyn = none → ∃ t, exec (.select (.entDaa a)) s = .next t ∧ t.boot.i3cDyn = some a ∧ s.sameRegs t [] ∧ s.sameMemory t) ∧
    (∃ t, exec .head s = .next t ∧ t.outs = s.outs ++ [.i3c (leBytes 4 (s.rd Rg.JSP_NEXT_SEQ).toNat ++ leBytes 4 (s.rd Rg.JSP_OLDEST_SRAM).toNat ++
      leBytes 4 (s.rd Rg.JSP_OLDEST_VAULT).toNat ++ leBytes 4 (s.rd Rg.JSP_JOURNALLED).toNat ++ leBytes 4 (s.rd Rg.JSP_STATUS).toNat)] ∧
      s.sameRegs t [] ∧ s.sameMemory t) ∧
    ∃ t, exec .time s = .next t ∧ t.outs = s.outs ++ [.i3c (leBytes 4 (t.rd Rg.JSP_OP_SECONDS).toNat ++ leBytes 4 (t.rd Rg.JSP_POWER_CYCLES).toNat)] ∧
      s.sameRegs t [Rg.JSP_OP_SECONDS] ∧ s.sameMemory t) ∧
  ∀ (i : Instr) (s : State), (i = .head ∨ ∃ q, i = .select q) → s.sidebandUp = false → exec i s = .next s

/-- Resets return the device to the start of start-up and keep what they must (R129, R325, R332, R361, R362, R364, R391, R392, R397,
R415, R425, R433). A cold reset clears all but NAND, NOR and host memory. Every warm cause sets its bit and leaves BOOT.STATE at RESET,
no session, no object and the stacks empty, with NAND, NOR and lookup slots kept; pins, and a rail below its limit, hold the reset. A
short pulse, a pulse on a device that has left (log entry 82) and a write without the confirmation do nothing. PWRFAIL_N records and
flushes, and during start-up resets. Function Level Resets, once configuration requests are answered, and a hot reset disable the
function's queues, rings and page table and no other's; its sessions close at once, or at the next tick start while the group ticks. -/
def Obligations.ResetsReturnToStart : Prop :=
  (∀ (i : Instr) (s : State), (i = .coldReset ∨ i = .supplyLow .aonDeep) →
    ∃ t, exec i s = .next t ∧ t.mem = [] ∧ t.host = s.host ∧ t.boot.nor = s.boot.nor ∧ t.flash.nand = s.flash.nand ∧ t.flash.sys = s.flash.sys ∧
      t.jsp.ring = [] ∧ t.rd Rg.JSP_NEXT_SEQ = 0#32 ∧ t.rd Rg.JSP_OP_SECONDS = 0#32 ∧ t.fld Fld.BOOT_RESET_CAUSE_COLD = 1 ∧
      t.fld Fld.BOOT_STATE_STATE = 0 ∧ t.place.objs = [] ∧ t.hostq.sess = [] ∧ t.pending = s.pending) ∧
  (∀ (i : Instr) (cause : Fld) (s : State),
    ((∃ ns : BitVec 32, i = .sysRstN ns ∧ 100 ≤ ns.toNat ∧ s.link.left = false ∧ cause = Fld.BOOT_RESET_CAUSE_SYS_RST) ∨
      (i = .perstN true ∧ heldPerst ∉ s.boot.heldBy ∧ cause = Fld.BOOT_RESET_CAUSE_PERST) ∨
      (i = .warm 0 0xA5C3#16 ∧ s.serves Rg.BOOT_RESET_CTRL = true ∧ cause = Fld.BOOT_RESET_CAUSE_SOFTWARE) ∨
      (∃ ue, i = .watchdog ⟨0, ue⟩ ∧ cause = Fld.BOOT_RESET_CAUSE_WATCHDOG0) ∨ (∃ ue, i = .watchdog ⟨1, ue⟩ ∧ cause = Fld.BOOT_RESET_CAUSE_WATCHDOG1) ∨
      ∃ target requester : Member, i = .resetRequest target requester ∧ target.val = s.me ∧ s.link.left = false ∧ cause = Fld.BOOT_RESET_CAUSE_SOFTWARE) →
    NMap.sorted s.cores →
    ∃ t, exec i s = .next t ∧ t.fld cause = 1 ∧ t.fld Fld.BOOT_STATE_STATE = 0 ∧ t.fld Fld.GARNET_CTRL_ENABLE = 0 ∧
      t.fld Fld.GARNET_STATUS_STATE = 0 ∧ t.mem = [] ∧ t.boot.nor = s.boot.nor ∧ t.boot.rpmc = s.boot.rpmc ∧ t.flash.nand = s.flash.nand ∧
      t.flash.sys = s.flash.sys ∧ t.flash.sets = s.flash.sets ∧ t.place.objs = [] ∧ t.hostq.sess = [] ∧ t.pending = s.pending ∧
      (∀ c, (t.core c).vec.luts = (s.core c).vec.luts) ∧ (i = .perstN true → heldPerst ∈ t.boot.heldBy)) ∧
  (∀ (rail : Rail) (s : State), rail ≠ .aonDeep → s.starting = false → s.intake = [] → s.jsp.supp = [] → s.jsp.drops = 0 →
    ∃ t, exec (.supplyLow rail) s = .next t ∧ t.rd Rg.BOOT_RESET_CAUSE = 0#32 ∧ t.fld Fld.BOOT_STATE_STATE = 0 ∧
      heldSupply ∈ t.boot.heldBy ∧ t.mem = [] ∧ t.jsp.ring = s.jsp.ring ∧ t.rd Rg.JSP_NEXT_SEQ = s.rd Rg.JSP_NEXT_SEQ ∧ t.host = s.host) ∧
  (∀ (ns : BitVec 32) (s : State), (ns.toNat < 100 ∨ s.link.left = true) → exec (.sysRstN ns) s = .next s) ∧
  (∀ (fn : FnId) (confirm : BitVec 16) (s : State), (fn.val ≠ 0 ∨ confirm ≠ 0xA5C3#16) → exec (.warm fn confirm) s = .next s) ∧
  (∀ s : State, ∃ t, exec (.perstN false) s = .next t ∧ heldPerst ∉ t.boot.heldBy ∧ s.sameRegs t [] ∧ s.sameMemory t) ∧
  (∀ s : State, (s.fld Fld.PWR_STATUS_PWRFAIL = 1 → exec .pwrfailNFall s = .next s) ∧
    (s.fld Fld.PWR_STATUS_PWRFAIL = 0 → s.starting = false → s.intake.length ≤ 64 → ∃ t, exec .pwrfailNFall s = .next t ∧
      t.fld Fld.PWR_STATUS_PWRFAIL = 1 ∧ t.fld Fld.PWR_EVENTS_PWRFAIL_SEEN = 1 ∧ t.mem = s.mem ∧ t.intake = [] ∧ t.flash.inProgress = s.inProgressNow ∧
      t.ctr Ct.PWR_PWRFAIL_COUNT = (s.ctr Ct.PWR_PWRFAIL_COUNT).plus 1 ∧ t.jsp.ring.getLast?.map (·.code) = some 0x0005) ∧
    (s.fld Fld.PWR_STATUS_PWRFAIL = 0 → s.starting = true → ∃ t, exec .pwrfailNFall s = .next t ∧ t.fld Fld.PWR_STATUS_PWRFAIL = 1 ∧
      heldPwrfail ∈ t.boot.heldBy ∧ t.fld Fld.BOOT_STATE_STATE = 0 ∧ t.mem = []) ∧
    ∃ t, exec .pwrfailNRise s = .next t ∧ t.fld Fld.PWR_STATUS_PWRFAIL = 0 ∧ heldPwrfail ∉ t.boot.heldBy ∧ t.flash.inProgress = [] ∧
      (s.power.refill = false → s.sameMemory t)) ∧
  (∀ (fn : FnId) (s : State), s.configUp = false → exec (.functionLevelReset fn) s = .next s) ∧
  (∀ (i : Instr) (s : State), (i = .hotReset ∨ i = .functionLevelReset 0 ∧ s.configUp = true) →
    ∃ t, exec i s = .next t ∧ (s.place.moves = [] → s.place.replaceT = [] → t.mem = s.mem) ∧ (i = .hotReset → t.rd Rg.HQ_LINK = 0#32) ∧ (∀ q, q < 256 → t.fld (Fld.HQ_Q_CFG_ENABLE q) = 0 ∧ t.fld (Fld.HQ_Q_STATUS_RUNNING q) = 0) ∧
      (∀ x ∈ t.hostq.staged, 256 ≤ x.q) ∧ ∀ p : PartId, t.inForce (Fld.PARTN_OUT_CFG_ENABLE p) = 0 ∧ t.inForce (Fld.PARTN_EVT_CFG_ENABLE p) = 0 ∧
        t.inForce (Fld.PARTN_HPT_COUNT_COUNT p) = 0 ∧
        (s.ticking = true → p.val ∈ t.hostq.closing ∧ t.fld (Fld.PARTN_STATUS_FLR_ACTIVE p) = 1) ∧
        (s.ticking = false → t.fld (Fld.PARTN_STATUS_FLR_ACTIVE p) = 0 ∧ ∀ x ∈ t.hostq.sess, x.2.part ≠ p)) ∧
  ∀ (fn : FnId) (s : State), 1 ≤ fn.val → s.configUp = true →
    (s.hostq.numVfs < fn.val → exec (.functionLevelReset fn) s = .next s) ∧
    (fn.val ≤ s.hostq.numVfs → s.hostq.numVfs ≤ 16 → ∃ t, exec (.functionLevelReset fn) s = .next t ∧ t.told .flr (fn.val - 1) fn.val 0 ∧
      (s.place.moves = [] → s.place.replaceT = [] → t.mem = s.mem) ∧ t.inForce (Fld.PARTN_OUT_CFG_ENABLE (fn.val - 1)) = 0 ∧
      (s.ticking = true → fn.val - 1 ∈ t.hostq.closing ∧ t.fld (Fld.PARTN_STATUS_FLR_ACTIVE (fn.val - 1)) = 1) ∧
      (s.ticking = false → ∀ x ∈ t.hostq.sess, x.2.part ≠ fn.val - 1) ∧
      (∀ q, q < 256 → s.ownerFn q = fn.val → t.fld (Fld.HQ_Q_CFG_ENABLE q) = 0) ∧
      (∀ q, q < 256 → s.ownerFn q ≠ fn.val → t.rd (Rg.HQ_Q_CFG q) = s.rd (Rg.HQ_Q_CFG q)) ∧
      ∀ p : PartId, p.val ≠ fn.val - 1 → t.rd (Rg.PARTN_OUT_CFG p) = s.rd (Rg.PARTN_OUT_CFG p))

/-- The package cap, sensors, supplies, power states and wakes follow their rules (R399, R402, R404, R405, R406, R408, R409, R410, R411,
R412, R414, R416). A power average is shown with its peak and, above the cap, recorded; steps of the cap lower every cluster that runs
above code 0. A cool sample is only kept, a die trip resets and holds, also in a reset held already, an optical trip takes its engine
down. A cluster too hot is lowered; a supply ramp ends with its code in force. The idle device enters the state its times permit with its
clocks off; objects other than WEIGHTS keep it out of S4, with a record. A wake returns it to S0 in no less than its wake time; a request
or the timer starts a clock. -/
def Obligations.PowerAndThermalRulesHold : Prop :=
  (∀ (w : BitVec 16) (s : State),
    (w.toNat ≤ s.fld Fld.PWR_CAP_CAP_W → ∃ t, exec (.powerAverage w) s = .next t ∧ t.fld Fld.PWR_POWER_AVG_W = w.toNat ∧
      s.sameRegs t [Rg.PWR_POWER] ∧ s.sameCtrs t [] ∧ s.sameMemory t ∧ t.lastEvent = s.lastEvent) ∧
    (s.fld Fld.PWR_CAP_CAP_W < w.toNat → s.power.capSide ≠ 2 → ∃ t, exec (.powerAverage w) s = .next t ∧ t.fld Fld.PWR_POWER_AVG_W = w.toNat ∧
      t.fld Fld.PWR_EVENTS_CAP_ACTIVE = 1 ∧ t.power.capSide = 2 ∧ t.told .packageCap 0 w.toNat (s.fld Fld.PWR_CAP_CAP_W) ∧ s.sameMemory t)) ∧
  (∀ s : State, (s.ticking = true → exec .capStepTimer s = .next s) ∧
    (s.ticking = false → ∃ t, exec .capStepTimer s = .next t ∧ t.now = max s.now (NMap.get 0 s.power.stepAt 64 + 1000) ∧
      NMap.find t.power.stepAt 64 = some t.now ∧ s.sameMemory t ∧
      (s.power.capSide = 2 → ∀ k, k < 64 → 0 < s.fld (freqNow k) → s.fld (freqNow k) ≤ 8 → t.fld (freqNow k) < s.fld (freqNow k)))) ∧
  (∀ (i : Fin 77) (v : BitVec 11) (s : State), s.boot.heldBy = [] →
    (64 ≤ i.val → i.val ≤ 68 → v.toInt < 400 → i.val ∉ s.power.warns → i.val ∉ s.power.thermN → ∃ t, exec (.sensorSample i v) s = .next t ∧
      NMap.find t.power.temps i = some v.toInt ∧ t.power.prevs = (match NMap.find s.power.temps i with
        | some x => NMap.ins s.power.prevs i x
        | none => s.power.prevs) ∧ t.lastEvent = s.lastEvent ∧ s.sameRegs t [Fld.PWR_SENSOR_TEMP.addr] ∧ s.sameCtrs t [] ∧ s.sameMemory t) ∧
    (i.val ≤ 68 → 460 ≤ v.toInt → ∃ t, exec (.sensorSample i v) s = .next t ∧ heldTrip ∈ t.boot.heldBy ∧ t.fld Fld.PWR_EVENTS_TRIP_SEEN = 1 ∧
      t.fld Fld.BOOT_STATE_STATE = 0 ∧ t.fld Fld.PWR_STATUS_THERM_N = 1 ∧ t.mem = []) ∧
    (69 ≤ i.val → 360 ≤ v.toInt → i.val - 69 ∉ s.power.oeDown → ∃ t, exec (.sensorSample i v) s = .next t ∧ i.val - 69 ∈ t.power.oeDown ∧
      t.fld Fld.PWR_EVENTS_OE_TRIP = 1 ∧ t.fld Fld.PWR_STATUS_THERM_N = 1 ∧ t.told .oeTrip (i.val - 69) v.toNat 0 ∧ s.sameMemory t)) ∧
  (∀ (i : Fin 77) (v : BitVec 11) (s : State), s.boot.heldBy ≠ [] → i.val ≤ 68 → 460 ≤ v.toInt → ∃ t, exec (.sensorSample i v) s = .next t ∧
    heldTrip ∈ t.boot.heldBy ∧ (∀ x ∈ s.boot.heldBy, x ∈ t.boot.heldBy) ∧ t.fld Fld.PWR_EVENTS_TRIP_SEEN = 1 ∧ t.fld Fld.PWR_STATUS_THERM_N = 1 ∧
    NMap.find t.power.temps i = some v.toInt ∧ s.sameMemory t) ∧
  (∀ (k : ClusterId) (s : State), (k.val ∉ s.power.caps → k.val ∉ s.power.hots → exec (.thermalStepTimer k) s = .next s) ∧
    (∀ x : Int, k.val ∈ s.power.caps → s.temp k = some x → 420 ≤ x → k.val ∉ s.power.hots → 0 < s.fld (freqNow k) → s.fld (freqNow k) ≤ 8 →
      ∃ t, exec (.thermalStepTimer k) s = .next t ∧ t.fld (freqNow k) < s.fld (freqNow k) ∧
        t.ctr Ct.PWR_THERMAL_STEPS = (s.ctr Ct.PWR_THERMAL_STEPS).plus 1 ∧ t.now = max s.now (NMap.get 0 s.power.stepAt k + 1000) ∧ s.sameMemory t)) ∧
  (∀ (k : ClusterId) (s : State), (NMap.find s.power.ramps k = none → exec (.supplyRampDone k) s = .next s) ∧
    (∀ c, NMap.find s.power.ramps k = some c → c < 16 → ∃ t, exec (.supplyRampDone k) s = .next t ∧ t.fld (freqNow k) = c ∧
      NMap.find t.power.ramps k = none ∧ (∀ j : ClusterId, j ≠ k → t.fld (freqNow j) = s.fld (freqNow j)) ∧ s.sameMemory t)) ∧
  (∀ s : State, ((s.idle = false ∨ s.fld Fld.GARNET_CTRL_ENABLE = 1 ∨ s.fld Fld.PWR_STATUS_WAKING = 1 ∨ s.fld Fld.PWR_STATUS_PWRFAIL = 1) →
      exec .powerStateEntry s = .next s.notIdle) ∧
    (∀ since st, s.idle = true → s.fld Fld.GARNET_CTRL_ENABLE = 0 → s.fld Fld.PWR_STATUS_WAKING = 0 → s.fld Fld.PWR_STATUS_PWRFAIL = 0 →
      s.power.idleSince = some since → s.deeper.find? (fun st => decide (since + idleTime st ≤ s.now)) = some st →
      ∃ t, exec .powerStateEntry s = .next t ∧ t.powerState = st ∧ (∀ k, k < 64 → t.fld (Fld.CLC_STATUS_CLOCK_ON k) = 0) ∧
        (st = 1 → s.sameMemory t) ∧ (st ≤ 3 → t.mem = s.mem ∧ t.host = s.host)) ∧
    (∀ since, s.idle = true → s.fld Fld.GARNET_CTRL_ENABLE = 0 → s.fld Fld.PWR_STATUS_WAKING = 0 → s.fld Fld.PWR_STATUS_PWRFAIL = 0 →
      s.power.idleSince = some since → s.powerState = 3 → s.stateEnabled 4 = true → s.tolerates 4 = true → s.otherObjects ≠ 0 →
      ∃ t, exec .powerStateEntry s = .next t ∧ t.powerState = 3 ∧ t.now = max s.now (since + idleTime 4) ∧
        t.told .hostSetting 0 Rg.PWR_CTRL s.otherObjects ∧ s.sameMemory t)) ∧
  (∀ s : State, s.serves Rg.PWR_CTRL = true → (s.powerState = 0 → exec .wake s = .next s.notIdle) ∧
    (s.powerState ≠ 0 → s.fld Fld.PWR_STATUS_WAKING = 0 → ∃ t, exec .wake s = .next t ∧ t.fld Fld.PWR_STATUS_WAKING = 1 ∧ t.power.wakeAt = s.now ∧
      t.powerState = s.powerState ∧ s.sameMemory t)) ∧
  (∀ (k : ClusterId) (s : State), ∃ t, exec (.wakeRequest k) s = .next t ∧ t.fld (Fld.CLC_STATUS_CLOCK_ON k) = 1 ∧
    t.fld (Fld.CLC_STATUS_POWERED k) = 1 ∧ (s.fld (Fld.CLC_STATUS_POWERED k) = 1 → s.sameRegs t [Rg.CLC_STATUS k]) ∧ s.sameMemory t) ∧
  (∀ s : State, (s.fld Fld.PWR_STATUS_WAKING = 0 ∨ s.stacksAwake = false → exec .wakeComplete s = .next s) ∧
    (s.fld Fld.PWR_STATUS_WAKING = 1 → s.stacksAwake = true → ∃ t, exec .wakeComplete s = .next t ∧ t.powerState = 0 ∧
      t.fld Fld.PWR_STATUS_WAKING = 0 ∧ t.now = max s.now (s.power.wakeAt + wakeTime s.powerState) ∧
      t.ctr Ct.PWR_WAKES = (s.ctr Ct.PWR_WAKES).plus 1 ∧ ∀ k, k < 64 → t.fld (Fld.CLC_STATUS_CLOCK_ON k) = 1)) ∧
  (∀ s : State, (s.ticking = false ∨ s.fld Fld.GARNET_STATUS_TIMER_EXPIRED ≠ 0 ∨ s.powerState ≠ 0) → exec .clockUngate s = .next s) ∧
  ∀ s : State, s.ticking = true → s.fld Fld.GARNET_STATUS_TIMER_EXPIRED = 0 → s.powerState = 0 →
    ∃ t, exec .clockUngate s = .next t ∧ t.now = max s.now (s.garnet.expireAt - 3) ∧ s.sameMemory t ∧
      ∀ k, k < 64 → s.fld (Fld.CLC_STATUS_POWERED k) = 1 → t.fld (Fld.CLC_STATUS_CLOCK_ON k) = 1

/-- Start-up passes its steps, waits for READY, and fails by code (R362, R363, R364, R365, R366, R367, R375, R380, R382, R384, R389,
R393). Start-up with a valid first slot leaves the boot ROM's state, and time brings firmware and stack training (log entry 25); a secret
that its digest does not confirm ends it in RECOVERY. Stacks, self-test, optics and ports are settled at their times, and a failure ends
start-up with its FAIL_CODE. READY needs all its conditions and sets the lock. A failed entropy source ends start-up or stops until it
recovers. TEST needs its unlock. -/
def Obligations.StartUpGoesOn : Prop :=
  (∀ (puf : BitVec 32) (s : State), (s.boot.heldBy ≠ [] ∧ s.boot.heldBy ≠ [heldSupply] ∨ s.boot.heldBy = [] ∧ s.fld Fld.BOOT_STATE_STATE ≠ 0) →
    exec (.startup puf) s = .next s) ∧
  (∀ (puf : BitVec 32) (s : State), s.boot.heldBy = [heldSupply] → ∃ u : State, u.boot.heldBy = [] ∧ u.now = s.now + 1000 ∧ u.boot.zeroAt = u.now ∧
    u.boot.nor = s.boot.nor ∧ exec (.startup puf) s = exec (.startup puf) u) ∧
  (∀ (puf : BitVec 32) (s : State), s.boot.heldBy = [] → s.fld Fld.BOOT_STATE_STATE = 0 →
    let helper := s.boot.nor.rdBlk 0x20000 4096
    let secret := Config.pufSecret puf helper
    let rom := ((s.clockTo (s.boot.zeroAt + 44000)).setFld Fld.BOOT_ID_VENDOR_ID Config.vendorId.toNat).each (List.range 16) fun s n =>
      s.setFld (Fld.FCH_STATUS_STATE n) 1
    let u := (rom.startEntry.identify secret).openRecord secret
    (word256 (sha256 (bytes256 secret)) ≠ Config.helperDigest helper → ∃ t, exec (.startup puf) s = .next t ∧
      t.fld Fld.BOOT_STATE_STATE = 7 ∧ t.fld Fld.BOOT_STATE_FAIL_CODE = 2 ∧ t.now = max s.now (s.boot.zeroAt + 44000) ∧ s.sameMemory t) ∧
    (word256 (sha256 (bytes256 secret)) = Config.helperDigest helper → u = none → ∃ t, exec (.startup puf) s = .next t ∧
      t.fld Fld.BOOT_STATE_STATE = 7 ∧ t.fld Fld.BOOT_STATE_FAIL_CODE = 3) ∧
    ∀ v, word256 (sha256 (bytes256 secret)) = Config.helperDigest helper → u = some v →
      slotCheck v.boot.nor (v.fld Fld.BOOT_MIN_SVN_SVN) (v.fld Fld.BOOT_STATE_OWNED == 1) v.boot.ownerHash (firstSlot v.boot.nor) = 0 →
      leNat ((certOf s.boot.nor).take 2) = 1 → ((certOf s.boot.nor).drop 16).take 48 = v.boot.idKey →
      ∃ t, exec (.startup puf) s = .next t ∧ t.fld Fld.BOOT_STATE_STATE = 1 ∧ t.fld Fld.BOOT_STATE_SLOT = firstSlot v.boot.nor ∧
        t.boot.nor = v.boot.nor ∧ t.boot.cert = certOf s.boot.nor ∧ t.boot.idKey = v.boot.idKey) ∧
  (∀ s : State, s.pending = [] → (s.fld Fld.BOOT_STATE_STATE = 1 → ∃ t, step s = .next t ∧ t.fld Fld.BOOT_STATE_STATE = 2 ∧ t.now = s.now + 1) ∧
    (s.fld Fld.BOOT_STATE_STATE = 2 → s.now + 1 < s.boot.zeroAt + 50000 → ∃ t, step s = .next t ∧ t.fld Fld.BOOT_STATE_STATE = 2) ∧
    (s.fld Fld.BOOT_STATE_STATE = 2 → s.boot.zeroAt + 50000 ≤ s.now + 1 → ∃ t, step s = .next t ∧ t.fld Fld.BOOT_STATE_STATE = 3 ∧
      (∀ st : StackId, t.fld (Fld.STK_STATUS_STATE st) = memTraining) ∧ ∀ ch, ch < 1536 → t.fld (Fld.CH_STATUS_STATE ch) = memTraining)) ∧
  (∀ (small : Bool) (s : State), s.inStart = true → s.boot.identified = false →
    ∃ t, exec (.stacksIdentified small) s = .next t ∧ t.boot.identified = true ∧ t.fld Fld.BOOT_CAPACITY_STACK_GIB = (if small then 36 else 48) ∧
      t.fld Fld.BOOT_REV_SUBSYSTEM = (if small then 0x0432 else 0x0576) ∧ t.now = max s.now (s.boot.zeroAt + 100000) ∧ s.sameMemory t ∧
      (leNat ((s.boot.cert.drop 68).take 2) = (if small then 0x0432 else 0x0576) → t.fld Fld.BOOT_STATE_STATE = s.fld Fld.BOOT_STATE_STATE) ∧
      (leNat ((s.boot.cert.drop 68).take 2) ≠ (if small then 0x0432 else 0x0576) → t.fld Fld.BOOT_STATE_STATE = 7 ∧ t.fld Fld.BOOT_STATE_FAIL_CODE = 4)) ∧
  (∀ s : State, s.inStart = true → s.boot.identified = false → exec (.selfTest none) s = .next s ∧ exec .opticalEnginesSettled s = .next s ∧
    ∀ w h eyes, exec (.stackTrainingDone w h eyes) s = .next s) ∧
  (∀ s : State, s.inStart = true → s.boot.identified = true → s.fld Fld.BOOT_SELF_TEST_DONE = 0 →
    (∃ t, exec (.selfTest none) s = .next t ∧ t.fld Fld.BOOT_SELF_TEST_DONE = 1 ∧ t.fld Fld.BOOT_SELF_TEST_PASS = 1 ∧
      t.now = max s.now (s.boot.zeroAt + 600000) ∧ (∀ g, g < 2048 → t.fld (Fld.ENG_STATUS_COMP_BANK g) = 1) ∧
      s.sameRegs t ([Fld.BOOT_SELF_TEST_DONE.addr, (wdogLeft 0).addr, (wdogLeft 1).addr] ++ (List.range 2048).map fun g => (Fld.ENG_STATUS_COMP_BANK g).addr) ∧ s.sameMemory t) ∧
    ∀ k : ClusterId, ∃ t, exec (.selfTest (some k)) s = .next t ∧ t.fld Fld.BOOT_SELF_TEST_DONE = 1 ∧ t.fld Fld.BOOT_SELF_TEST_CLUSTER = k ∧
      t.fld Fld.BOOT_STATE_STATE = 8 ∧ t.fld Fld.BOOT_STATE_FAIL_CODE = 5 ∧ s.sameMemory t) ∧
  (∀ s : State, s.inStart = true → s.boot.identified = true → s.boot.optics = false →
    ∃ t, exec .opticalEnginesSettled s = .next t ∧ t.boot.optics = true ∧ t.now = max s.now (s.boot.zeroAt + 3900000) ∧ s.sameMemory t ∧
      ∀ p : PortId, 12 ≤ p.val → s.fld (Fld.LNK_CTRL_ENABLE p) = 1 → p.val / 2 ∉ s.power.oeDown →
        s.hasPeer (bundleOf p) = true → s.spanLen (bundleOf p) none ≤ 3 → t.pState p = pTraining) ∧
  (∀ s : State, s.inStart = true → s.boot.portsTold = false →
    ∃ t, exec .portWaitExpiry s = .next t ∧ t.waitOver = true ∧ t.boot.portsTold = true ∧ t.now = max s.now (s.boot.zeroAt + 8000000) ∧ s.sameRegs t [(wdogLeft 0).addr, (wdogLeft 1).addr] ∧ s.sameMemory t ∧
      (s.portsAwaited = [] → t.lastEvent = s.lastEvent) ∧ ∀ p, s.portsAwaited = [p] → t.told .portNotUp p 0 0) ∧
  (∀ s : State, (s.readyNow = false → exec .ready s = .next s) ∧
    (s.readyNow = true → ∃ t, exec .ready s = .next t ∧ t.fld Fld.BOOT_STATE_STATE = 6 ∧ t.fld Fld.BOOT_STATE_LOCKED = 1 ∧ s.sameMemory t ∧
      (s.onyxUp = false → t.fld Fld.JSP_STATUS_REBASED = 1)) ∧
    ∀ p, s.readyNow = true → s.onyxUp = true → s.boot.portsTold = false → s.waitOver = true → s.portsAwaited = [p] →
      ∃ t, exec .ready s = .next t ∧ t.told .portNotUp p 0 0) ∧
  (∀ (ap : Bool) (s : State), s.boot.heldBy = [] →
    (s.starting = true → ∃ t, exec (.entropyFail ap) s = .next t ∧ t.fld Fld.BOOT_STATE_STATE = 8 ∧ t.fld Fld.BOOT_STATE_FAIL_CODE = 8 ∧
      s.sameMemory t) ∧
    (s.fld Fld.BOOT_STATE_STATE = 6 → s.boot.entropyStopped = false → ∃ t, exec (.entropyFail ap) s = .next t ∧ t.boot.entropyStopped = true ∧
      t.told .entropyFail 0 (bit1 ap) 0 ∧ s.sameRegs t [] ∧ s.sameMemory t)) ∧
  (∀ s : State, (s.boot.entropyStopped = false → exec .entropySourceRecovers s = .next s) ∧
    (s.boot.entropyStopped = true → ∃ t, exec .entropySourceRecovers s = .next t ∧ t.boot.entropyStopped = false ∧ s.sameRegs t [] ∧
      s.sameMemory t)) ∧
  ∀ (v : Bool) (s : State), s.serves Rg.BOOT_TEST = true →
    (s.fld Fld.BOOT_STATE_TEST_UNLOCKED = 1 → ∃ t, exec (.testEnable v) s = .next t ∧ t.fld Fld.BOOT_TEST_ENABLE = bit1 v ∧
      s.sameRegs t [Rg.BOOT_TEST] ∧ s.sameMemory t) ∧
    (s.fld Fld.BOOT_STATE_TEST_UNLOCKED = 0 → ∃ t, exec (.testEnable v) s = .next t ∧ t.told .testDenied 0 Rg.BOOT_TEST 0 ∧ s.sameRegs t [] ∧
      s.sameMemory t)

/-- Mailbox and DOE requests wait in order, answer, measure, and change owner, security version and NOR (R368, R378, R381, R384, R385,
R386, R387, R388, R392, R394). A command written to SEC.CMD makes the mailbox BUSY and waits with the request then in SEC.BUFFER, behind
what waits already; while BUSY such a write, and a write of SEC.BUFFER, has no effect. A DOE request waits the same way. In a step
without a command the request in front goes on (log entry 28): GET_IDENTITY, GET_CERT, ATTEST and NOR_READ return their bytes; EXTEND
hashes a digest into a register; SET_OWNER of an unowned device and COMMIT_SVN write a record, and the counter rises in the next such
step; NOR_WRITE stores 4 KiB a step and no other byte; an unused OP is INVALID_OP. The mailbox is DONE with RESULT and response; over DOE
the response goes out, and OPs but the first three are refused. -/
def Obligations.MailboxCommandsRun : Prop :=
  (∀ (i : Instr) (op : Nat) (s : State), (i, op) ∈ [(Instr.getIdentity, 1), (.getCert, 2), (.attest, 3), (.extend, 4), (.setOwner, 5), (.commitSvn, 6),
      (.norWrite, 7), (.norRead, 8)] ∨ (∃ b : BitVec 8, i = .invalidOp b ∧ op = b.toNat) → s.serves Rg.SEC_CMD = true →
    (s.fld Fld.SEC_STATUS_STATE = 1 → exec i s = .next s) ∧
    (s.fld Fld.SEC_STATUS_STATE ≠ 1 → ∃ t, exec i s = .next t ∧ t.fld Fld.SEC_STATUS_STATE = 1 ∧
      t.boot.mails = s.boot.mails ++ [{ doe := false, op, req := s.boot.buffer.rdBlk 0 (s.fld Fld.SEC_REQ_LEN_BYTES) }] ∧
      s.sameRegs t [Fld.SEC_STATUS_STATE.addr] ∧ s.sameCtrs t [] ∧ s.sameMemory t)) ∧
  (∀ (j : Fin 12288) (w : RegWrite) (s : State), w.bar4 = false → w.mgmt = false → w.fn.val = 0 → w.size.val = 4 → w.ofs.toNat = Rg.SEC_BUFFER j → s.serves (Rg.SEC_BUFFER j) = true →
    s.fld Fld.SEC_STATUS_STATE = 1 → exec (.registerWrite w) s = .next s) ∧
  (∀ (op : BitVec 32) (req : List (BitVec 32)) (s : State), s.configUp = true → ∃ t, exec (.doeRequest (op :: req)) s = .next t ∧
    t.boot.mails = s.boot.mails ++ [{ doe := true, op := op.toNat, req := req.flatMap fun w => leBytes 4 w.toNat }] ∧ s.sameRegs t [] ∧
    s.sameCtrs t [] ∧ s.sameMemory t) ∧
  ∀ (j : MailJob) (rest : List MailJob) (s : State), s.pending = [] → s.boot.mails = j :: rest → 3 ≤ s.fld Fld.BOOT_STATE_STATE → j.req.length ≤ 49152 →
    let req := j.req
    let done := fun (t : State) (r : MailResult) (rsp : List Byte) => t.boot.mails = rest ∧ t.mem = s.mem ∧ t.host = s.host ∧
      (j.doe = true → [OutEv.doe (BitVec.ofNat 32 r.code :: wordsOf rsp)] <:+ t.outs ∧ t.boot.buffer = s.boot.buffer) ∧
      (j.doe = false → t.fld Fld.SEC_STATUS_STATE = 2 ∧ t.fld Fld.SEC_STATUS_RESULT = r.code ∧ t.fld Fld.SEC_RSP_LEN_BYTES = rsp.length ∧
        t.boot.buffer.rdN 0 rsp.length = rsp)
    let quiet := fun (t : State) => t.boot.nor = s.boot.nor ∧ t.boot.rpmc = s.boot.rpmc ∧ ∀ i : Fin 8, t.mr i = s.mr i
    let part := fun (t : State) (n : Nat) => t.boot.mails = { j with done := n } :: rest ∧
      t.fld Fld.SEC_STATUS_STATE = s.fld Fld.SEC_STATUS_STATE ∧ t.boot.rpmc = s.boot.rpmc ∧ t.boot.buffer = s.boot.buffer ∧ t.mem = s.mem ∧ t.host = s.host
    (j.doe = true → j.op = 0 ∨ 3 < j.op → ∃ t, step s = .next t ∧ done t .notPermitted [] ∧ quiet t) ∧
    (s.boot.idKey.length = 48 →
      (j.op = 1 → ∃ t, step s = .next t ∧ done t .success (s.serialBytes ++ s.boot.idKey ++ s.reportFlags) ∧ quiet t) ∧
      (j.op = 2 → s.boot.cert.length = 29920 → ∃ t, step s = .next t ∧ done t .success s.boot.cert ∧ quiet t) ∧
      (j.op = 3 → req.length = 32 → ∃ t rnd, step s = .next t ∧
        done t .success (s.report req ++ idSign (s.boot.secret.getD 0#256) rnd (s.report req)) ∧ quiet t)) ∧
    (s.boot.idKey = [] → 1 ≤ j.op → j.op ≤ 3 → ∃ t, step s = .next t ∧ done t .noIdentity [] ∧ quiet t) ∧
    (j.doe = false →
      (∀ i : Fin 8, j.op = 4 → s.fld Fld.BOOT_STATE_STATE = 6 → req.length = 36 → (req.getD 0 0#8).toNat = i.val → 5 ≤ i.val →
        ∃ t, step s = .next t ∧ done t .success [] ∧ t.mr i = sha256 (s.mr i ++ req.drop 4) ∧ (∀ j : Fin 8, j ≠ i → t.mr j = s.mr j)) ∧
      (∀ secret : BitVec 256, j.done = 0 → s.boot.secret = some secret → s.boot.rpmc.2 + 1 < 2 ^ 32 →
        let key := hkdf (bytes256 secret) infoSvn 32
        let wrote := fun (t : State) (bs : List Byte) => part t 1 ∧ t.boot.nor.rdN (recordAt (1 - s.boot.record)) 96 = bs
        recordOk s.boot.nor key s.boot.rpmc.2 s.boot.record = true →
        (j.op = 5 → s.fld Fld.BOOT_STATE_STATE = 6 ∨ s.fld Fld.BOOT_STATE_STATE = 7 → s.fld Fld.BOOT_STATE_OWNED = 0 → req.length = 32 →
          ∃ t, step s = .next t ∧ wrote t (svnRecord key (s.boot.rpmc.2 + 1) (recordSvn s.boot.nor s.boot.record) (req.any (· != 0#8)) req)) ∧
        (j.op = 6 → s.fld Fld.BOOT_STATE_STATE = 6 → req.length = 4 → recordSvn s.boot.nor s.boot.record ≤ leNat req → leNat req ≤ s.fld Fld.BOOT_IMAGE_SVN_SVN →
          ∃ t, step s = .next t ∧ wrote t (svnRecord key (s.boot.rpmc.2 + 1) (leNat req) (recordOwned s.boot.nor s.boot.record)
            (recordHash s.boot.nor s.boot.record)))) ∧
      (j.op = 5 ∨ j.op = 6 → j.done = 1 → ∃ t, step s = .next t ∧ done t .success [] ∧ t.boot.rpmc = (s.boot.rpmc.1, s.boot.rpmc.2 + 1) ∧
        t.boot.record = 1 - s.boot.record ∧ t.boot.nor = s.boot.nor) ∧
      (∀ a n, leNat (req.take 4) = a → leNat ((req.drop 4).take 4) = n → 6 ≤ s.fld Fld.BOOT_STATE_STATE → 1 ≤ n → n ≤ 32768 →
        (j.op = 7 → req.length = 8 + n → j.done < n → s.norMayWrite a n = true → ∃ t, step s = .next t ∧
          (n ≤ j.done + 4096 → done t .success [] ∧ t.boot.rpmc = s.boot.rpmc) ∧ (j.done + 4096 < n → part t (j.done + 4096)) ∧
          ∀ k, t.boot.nor.rd k = (if a + j.done ≤ k ∧ k < a + min n (j.done + 4096) then req.getD (8 + (k - a)) 0#8 else s.boot.nor.rd k)) ∧
        (j.op = 7 → req.length = 8 + n → s.norMayWrite a n = false → ∃ t, step s = .next t ∧ done t .notPermitted [] ∧ quiet t) ∧
        (j.op = 8 → req.length = 8 → a + n ≤ 0x4000000 → ∃ t, step s = .next t ∧ done t .success (s.boot.nor.rdBlk a n) ∧ quiet t)) ∧
      (j.op = 0 ∨ 9 ≤ j.op → ∃ t, step s = .next t ∧ done t .invalidOp [] ∧ quiet t))

/-- BAR reads of each size latch and clear by path, and writes obey access types (R12, R13, R14, R17, R252, R283, R364, R367, R391, R434,
R449). What a path (BAR0 or management firmware) does not serve reads 0 and takes no write; a VF reads at its own offsets. A counter's
low half latches its high half and SAT for the reading path. A read of 1, 2 or 4 bytes gives those bytes of the word and clears the RC
fields they reach, in the reading path's copy alone; one of 8 bytes is two of 4, the lower first. Behind a bridge in reset a read gives 0
and the first is recorded (log entry 60). A write of a word of the PF's MSI-X table sets its bits, and a message that waited goes out
once unmasked; a read gives the word. OBJ.ENTRY_0 latches the selected object's entry, ONYX.EPOCH_LO its high half. A 32-bit write sets
RW fields in range, keeps a field whose value is unused, and leaves RWL fields as they are, with a record, once the lock is set. -/
def Obligations.RegistersReadAndWrite : Prop :=
  (∀ (r : RegRead) (mgmt : Bool) (i : Instr) (s : State), (i = .counterLowRead r mgmt ∨ i = .rcRead r mgmt) → r.bar4 = false → 1 ≤ r.size.val → r.ofs.toNat % 4 + r.size.val ≤ 4 →
    (s.hostq.numVfs < r.fn.val ∨ r.fn.val = 0 ∧ s.pathServes mgmt (r.ofs.toNat / 4 * 4) = false) → exec i s = .next { s with ret := [0#32] }) ∧
  (∀ (r : RegRead) (d : Nat) (s : State), r.bar4 = false → r.size.val = 4 → r.ofs.toNat % 4 = 0 → 1 ≤ r.fn.val → r.fn.val ≤ s.hostq.numVfs →
    vfOffset r.fn.val r.ofs.toNat = some d → exec (.rcRead r false) s = exec (.rcRead { r with fn := 0, ofs := BitVec.ofNat 28 d } false) s) ∧
  (∀ (r : RegRead) (s : State), let a := r.ofs.toNat
    r.bar4 = false → r.fn.val = 0 → r.size.val = 4 → regAt a = .counterLo → s.powerState = 0 →
    (s.serves a = true → s.poweredOff a = false → ∃ t, exec (.counterLowRead r false) s = .next t ∧ t.ret = [(s.ctr a).val.setWidth 32] ∧
      NMap.get 0#32 t.latchHost a = (s.ctr a).high ∧ t.latchMgmt = s.latchMgmt ∧ s.sameRegs t [] ∧ s.sameCtrs t [] ∧ s.sameMemory t ∧
      ∀ h : RegRead, h.bar4 = false → h.fn.val = 0 → h.size.val = 4 → h.ofs.toNat = a + 4 → regAt (a + 4) = .counterHi a →
        t.serves (a + 4) = true → t.poweredOff (a + 4) = false → ∃ u, exec (.rcRead h false) t = .next u ∧ u.ret = [(s.ctr a).high]) ∧
    (s.servesMgmt a = true → s.poweredOff a = false → ∃ t, exec (.counterLowRead r true) s = .next t ∧ t.ret = [(s.ctr a).val.setWidth 32] ∧ NMap.get 0#32 t.latchMgmt a = (s.ctr a).high ∧
      t.latchHost = s.latchHost ∧ s.sameRegs t [] ∧ s.sameCtrs t [] ∧ s.sameMemory t)) ∧
  (∀ (r : RegRead) (b : Blk) (d : RegDef) (i : Nat) (s : State), let a := r.ofs.toNat / 4 * 4
    let en := (laneBits r.ofs.toNat r.size.val 0#64 a).1
    let rc := d.mask en (· == .rc)
    let got := fun (w : BitVec 32) => [(w &&& en) >>> (8 * (r.ofs.toNat - a))]
    r.bar4 = false → r.fn.val = 0 → 1 ≤ r.size.val → r.ofs.toNat % 4 + r.size.val ≤ 4 → regAt a = .word b d i → b ≠ .obj → b ≠ .onyx → b ≠ .jsp →
    (s.serves a = true → s.poweredOff a = false → ∃ t, exec (.rcRead r false) s = .next t ∧
      t.ret = got (s.shown a &&& ~~~(d.mask en (· == .wo))) ∧ t.rd a = s.rd a &&& ~~~rc ∧ t.rcMgmt = s.rcMgmt ∧ s.sameRegs t [a] ∧
      s.sameCtrs t [] ∧ s.sameMemory t) ∧
    (s.servesMgmt a = true → s.poweredOff a = false → ∃ t, exec (.rcRead r true) s = .next t ∧
      t.ret = got ((s.shown a &&& ~~~(rc ||| d.mask en (· == .wo))) ||| (s.rdMgmt a &&& rc)) ∧ t.rdMgmt a = s.rdMgmt a &&& ~~~rc ∧
      s.sameRegs t [] ∧ s.sameCtrs t [] ∧ s.sameMemory t)) ∧
  (∀ (r : RegRead) (mgmt : Bool) (k : Nat) (s : State), r.bar4 = false → r.fn.val = 0 → r.size.val = 4 → r.ofs.toNat % 4 = 0 →
    s.pathServes mgmt r.ofs.toNat = true → s.inReset r.ofs.toNat = some k → k ∉ s.power.bridged → ∃ t, exec (.rcRead r mgmt) s = .next t ∧ t.ret = [0#32] ∧
      k ∈ t.power.bridged ∧ t.told .bridgeDiscard k r.ofs.toNat 0 ∧ s.sameMemory t) ∧
  (∀ (r : RegRead) (mgmt : Bool) (s : State), r.bar4 = false → r.size.val = 8 → r.ofs.toNat % 8 = 0 → r.ofs.toNat + 8 < 2 ^ 28 →
    ∃ t u, exec (.rcRead { r with size := 4 } mgmt) s = .next t ∧ exec (.rcRead { r with ofs := r.ofs + 4#28, size := 4 } mgmt) t = .next u ∧
      exec (.rcRead r mgmt) s = .next { u with ret := t.ret ++ u.ret }) ∧
  (∀ (v : Fin 256) (j : Fin 4) (s : State), let ofs := BitVec.ofNat 28 (0x100000 + 16 * v.val + 4 * j.val)
    (∀ w : RegWrite, w.bar4 = true → w.fn.val = 0 → w.ofs = ofs → w.size.val = 4 → ∃ t, exec (.registerWrite w) s = .next t ∧
      t.msixEntry v = bvSet (32 * j.val) 32 (s.msixEntry v) (w.data.setWidth 32 &&& msixBits j).toNat ∧
      (∀ k, k ≠ v.val → t.msixEntry k = s.msixEntry k) ∧ s.sameRegs t [] ∧ s.sameCtrs t [] ∧ s.sameMemory t ∧
      (v.val ∈ s.hostq.pba → bvBit 96 (t.msixEntry v) = false → v.val ∉ t.hostq.pba ∧ t.outs = s.outs ++
        [.msix (s.ownerFn v) (s.withinFn v) ((t.msixEntry v).extractLsb' 0 64) ((t.msixEntry v).extractLsb' 64 32)])) ∧
    ∀ (r : RegRead) (mgmt : Bool), r.bar4 = true → r.fn.val = 0 → r.ofs = ofs → r.size.val = 4 →
      exec (.rcRead r mgmt) s = .next { s with ret := [(s.msixEntry v).extractLsb' (32 * j.val) 32] }) ∧
  (∀ s : State, s.serves (Rg.OBJ_ENTRY 0) = true → let bs := s.entryBytes (s.fld Fld.OBJ_SELECT_INDEX)
    ∃ t, exec .entry0Read s = .next t ∧ t.ret = [BitVec.ofNat 32 (leNat (bs.take 4))] ∧ s.sameCtrs t [] ∧ s.sameMemory t ∧
      (∀ w, w < 8 → t.fld (Fld.OBJ_ENTRY_WORD w) = leNat ((bs.drop (4 * w)).take 4)) ∧ s.sameRegs t ((List.range 8).map Rg.OBJ_ENTRY)) ∧
  (∀ s : State, s.serves Rg.ONYX_EPOCH_LO = true → ∃ t, exec .epochLoRead s = .next t ∧ t.ret = [s.rd Rg.ONYX_EPOCH_LO] ∧
    t.fld Fld.ONYX_EPOCH_HI_EPOCH_HI = s.flash.epoch.toNat / 2 ^ 32 ∧ s.sameRegs t [Rg.ONYX_EPOCH_HI] ∧ s.sameCtrs t [] ∧ s.sameMemory t) ∧
  (∀ (w : RegWrite) (s : State), (s.hostq.numVfs < w.fn.val ∨ w.bar4 = false ∧ w.fn.val = 0 ∧ w.ofs.toNat % 4 = 0 ∧ w.size.val = 4 ∧
    s.pathServes w.mgmt w.ofs.toNat = false) →
    exec (.registerWrite w) s = .next s) ∧
  (∀ (ms limit : Nat) (w : RegWrite) (s : State), w.bar4 = false → w.fn.val = 0 → w.ofs.toNat = Rg.JSP_RATE → w.size.val = 4 → w.data = BitVec.ofNat 64 (ms + 2 ^ 14 * limit) →
    ms < 2 ^ 14 → limit < 2 ^ 8 → s.pathServes w.mgmt Rg.JSP_RATE = true →
    ∃ t, exec (.registerWrite w) s = .next t ∧ t.fld Fld.JSP_RATE_WINDOW_MS = (if 100 ≤ ms ∧ ms ≤ 10000 then ms else s.fld Fld.JSP_RATE_WINDOW_MS) ∧
      t.fld Fld.JSP_RATE_LIMIT = (if 1 ≤ limit then limit else s.fld Fld.JSP_RATE_LIMIT) ∧ s.sameRegs t [Rg.JSP_RATE] ∧ s.sameCtrs t [] ∧
      s.sameMemory t ∧ t.lastEvent = s.lastEvent) ∧
  ∀ (ms : Nat) (w : RegWrite) (s : State), w.bar4 = false → w.fn.val = 0 → w.ofs.toNat = Rg.JSP_WDOG_CTRL → w.size.val = 4 → w.data = BitVec.ofNat 64 ms →
    100 ≤ ms → ms ≤ 10000 → s.pathServes w.mgmt Rg.JSP_WDOG_CTRL = true →
    (s.fld Fld.BOOT_STATE_LOCKED = 0 → ∃ t, exec (.registerWrite w) s = .next t ∧ t.fld Fld.JSP_WDOG_CTRL_PERIOD_MS = ms ∧
      s.sameRegs t [Rg.JSP_WDOG_CTRL] ∧ s.sameMemory t) ∧
    (s.fld Fld.BOOT_STATE_LOCKED = 1 → ∃ t, exec (.registerWrite w) s = .next t ∧ t.told .rwlLocked 0 Rg.JSP_WDOG_CTRL ms ∧ s.sameRegs t [] ∧
      s.sameMemory t)
end

