-- ==== Sys2Proof/Laws/Bits.lean ====
section
/-! SUPPORT. The laws of bit fields: what a field reads after a field is written. -/

namespace Sys2Proof.Machine

theorem getLsbD_bvMask {n : Nat} (lo w i : Nat) : (bvMask lo w : BitVec n).getLsbD i = (decide (i < n) && decide (lo ≤ i ∧ i < lo + w)) := by
  unfold bvMask
  rw [BitVec.getLsbD_shiftLeft, BitVec.getLsbD_setWidth, BitVec.getLsbD_allOnes]
  rw [Bool.eq_iff_iff]
  simp only [Bool.and_eq_true, Bool.not_eq_true', decide_eq_true_eq, decide_eq_false_iff_not]
  omega

/-- Bit by bit, a field write. -/
theorem getLsbD_bvSet {n : Nat} (lo w : Nat) (x : BitVec n) (v i : Nat) :
    (bvSet lo w x v).getLsbD i = if lo ≤ i ∧ i < lo + w then decide (i < n) && v.testBit (i - lo) else x.getLsbD i := by
  unfold bvSet
  rw [BitVec.getLsbD_or, BitVec.getLsbD_and, BitVec.getLsbD_not, getLsbD_bvMask, BitVec.getLsbD_shiftLeft, BitVec.getLsbD_setWidth,
    BitVec.getLsbD_ofNat]
  by_cases h : lo ≤ i ∧ i < lo + w
  · have h1 : ¬(i < lo) := by omega
    have h2 : i - lo < w := by omega
    by_cases hn : i < n
    · have h3 : i - lo < n := by omega
      simp [h, h1, h2, hn, h3]
    · have hx : x.getLsbD i = false := BitVec.getLsbD_of_ge x i (by omega)
      simp [h, hn]
  · by_cases hn : i < n
    · by_cases h1 : i < lo
      · have h2 : ¬(lo ≤ i) := by omega
        simp [h1, h2, hn]
      · have h2 : ¬(i < lo + w) := by omega
        have h3 : ¬(i - lo < w) := by omega
        simp [h2, h3, hn]
    · have hx : x.getLsbD i = false := BitVec.getLsbD_of_ge x i (by omega)
      simp [h, hn, hx]

/-- A field just written reads as the low bits of what was written. -/
theorem bvGet_bvSet_same {n : Nat} (lo w : Nat) (x : BitVec n) (v : Nat) (h : lo + w ≤ n) : bvGet lo w (bvSet lo w x v) = v % 2 ^ w := by
  have : (bvSet lo w x v).extractLsb' lo w = BitVec.ofNat w v := by
    apply BitVec.eq_of_getLsbD_eq
    intro i hi
    rw [BitVec.getLsbD_extractLsb', getLsbD_bvSet, BitVec.getLsbD_ofNat]
    have h1 : lo ≤ lo + i ∧ lo + i < lo + w := by omega
    have h2 : lo + i < n := by omega
    simp [h1, h2, hi]
  unfold bvGet
  rw [this, BitVec.toNat_ofNat]

/-- A field that shares no bit with the one written reads as before. -/
theorem bvGet_bvSet_disjoint {n : Nat} (lo w lo' w' : Nat) (x : BitVec n) (v : Nat) (h : lo' + w' ≤ lo ∨ lo + w ≤ lo') :
    bvGet lo' w' (bvSet lo w x v) = bvGet lo' w' x := by
  have : (bvSet lo w x v).extractLsb' lo' w' = x.extractLsb' lo' w' := by
    apply BitVec.eq_of_getLsbD_eq
    intro i hi
    rw [BitVec.getLsbD_extractLsb', BitVec.getLsbD_extractLsb', getLsbD_bvSet]
    have h1 : ¬(lo ≤ lo' + i ∧ lo' + i < lo + w) := by omega
    simp [h1]
  unfold bvGet
  rw [this]

theorem bvGet_lt {n : Nat} (lo w : Nat) (x : BitVec n) : bvGet lo w x < 2 ^ w := by
  unfold bvGet; exact (x.extractLsb' lo w).isLt

/-- Writing a field with what it holds changes nothing. -/
theorem bvSet_bvGet {n : Nat} (lo w : Nat) (x : BitVec n) : bvSet lo w x (bvGet lo w x) = x := by
  apply BitVec.eq_of_getLsbD_eq
  intro i hi
  rw [getLsbD_bvSet]
  split
  · unfold bvGet
    have h1 : i - lo < w := by omega
    have h2 : lo + (i - lo) = i := by omega
    rw [BitVec.testBit_toNat, BitVec.getLsbD_extractLsb']
    simp [h1, h2, hi]
  · rfl

theorem leBytes_succ (n v : Nat) : leBytes (n + 1) v = BitVec.ofNat 8 v :: leBytes n (v / 256) := by
  simp only [leBytes, List.range_succ_eq_map, List.map_cons, List.map_map, Nat.mul_zero, Nat.shiftRight_zero, List.cons.injEq, true_and]
  refine List.map_congr_left fun i _ => ?_
  simp only [Function.comp, Nat.succ_eq_add_one]
  rw [show 8 * (i + 1) = 8 + 8 * i by omega, Nat.shiftRight_add, Nat.shiftRight_eq_div_pow v 8]

theorem leNat_leBytes (n v : Nat) : leNat (leBytes n v) = v % 256 ^ n := by
  induction n generalizing v with
  | zero => simp [leBytes, leNat, Nat.mod_one]
  | succ n ih =>
    rw [leBytes_succ, leNat, ih, BitVec.toNat_ofNat, show 256 ^ (n + 1) = 256 * 256 ^ n by rw [Nat.pow_succ, Nat.mul_comm], Nat.mod_mul]

theorem length_leBytes (n v : Nat) : (leBytes n v).length = n := by simp [leBytes]

end Sys2Proof.Machine
end

