-- ==== Sys2Proof/Laws/Maps.lean ====
section
/-! SUPPORT. The laws of finite maps and byte memories: what a read gives after each operation, and that every operation keeps the
canonical form. -/

namespace Sys2Proof.Machine

variable {β : Type}

/-! ### Reads -/

theorem NMap.find_ins_same (m : NMap β) (k : Nat) (v : β) : (m.ins k v).find k = some v := by
  induction m with
  | nil => simp [NMap.ins, NMap.find]
  | cons p m ih =>
    obtain ⟨j, w⟩ := p
    unfold NMap.ins
    split
    · simp [NMap.find]
    · split
      · simp [NMap.find]
      · simp [NMap.find, *]

theorem NMap.find_ins_ne (m : NMap β) {k k' : Nat} (v : β) (h : k ≠ k') : (m.ins k v).find k' = m.find k' := by
  induction m with
  | nil => simp [NMap.ins, NMap.find, h]
  | cons p m ih =>
    obtain ⟨j, w⟩ := p
    unfold NMap.ins
    split
    · subst_vars
      simp [NMap.find, h]
    · split
      · simp [NMap.find, h]
      · simp [NMap.find, ih]

theorem NMap.find_del_same (m : NMap β) (k : Nat) : (m.del k).find k = none := by
  induction m with
  | nil => simp [NMap.del, NMap.find]
  | cons p m ih =>
    obtain ⟨j, w⟩ := p
    unfold NMap.del
    split <;> simp [NMap.find, *]

theorem NMap.find_del_ne (m : NMap β) {k k' : Nat} (h : k ≠ k') : (m.del k).find k' = m.find k' := by
  induction m with
  | nil => simp [NMap.del, NMap.find]
  | cons p m ih =>
    obtain ⟨j, w⟩ := p
    unfold NMap.del
    split
    · subst_vars
      simp [NMap.find, h, ih]
    · simp [NMap.find, ih]

/-- A key just written reads as what was written. -/
@[simp] theorem NMap.get_set_same [DecidableEq β] (d : β) (m : NMap β) (k : Nat) (v : β) : NMap.get d (NMap.set d m k v) k = v := by
  unfold NMap.get NMap.set
  split
  · simp [NMap.find_del_same, *]
  · simp [NMap.find_ins_same]

/-- Every other key reads as before. -/
theorem NMap.get_set_ne [DecidableEq β] (d d' : β) (m : NMap β) {k k' : Nat} (v : β) (h : k ≠ k') :
    NMap.get d (NMap.set d' m k v) k' = NMap.get d m k' := by
  unfold NMap.get NMap.set
  split
  · rw [NMap.find_del_ne m h]
  · rw [NMap.find_ins_ne m v h]

theorem NMap.find_append (m l : NMap β) (k : Nat) : NMap.find (m ++ l) k = (m.find k).or (l.find k) := by
  induction m with
  | nil => simp [NMap.find]
  | cons p m ih =>
    obtain ⟨j, w⟩ := p
    simp only [List.cons_append, NMap.find]
    split <;> simp [*]

theorem NMap.find_filter (p : Nat → Bool) (m : NMap β) (k : Nat) :
    NMap.find (m.filter fun e => p e.1) k = if p k then m.find k else none := by
  induction m with
  | nil => simp [NMap.find]
  | cons e m ih =>
    obtain ⟨j, w⟩ := e
    by_cases hp : p j
    · simp only [List.filter, hp, NMap.find]
      by_cases hj : j = k
      · subst hj; simp [hp]
      · simp [hj, ih]
    · have hp' : p j = false := by simpa using hp
      simp only [List.filter, hp', NMap.find]
      by_cases hj : j = k
      · subst hj; simp [hp', ih]
      · simp [hj, ih]

theorem NMap.find_mapD_of_fix [DecidableEq β] (d : β) (f : β → β) (m : NMap β) (hs : m.sorted) (hd : f d = d) (k : Nat) :
    NMap.get d (NMap.mapD d f m) k = f (NMap.get d m k) := by
  induction m with
  | nil => simp [NMap.mapD, NMap.get, NMap.find, hd]
  | cons e m ih =>
    obtain ⟨j, w⟩ := e
    have hm : NMap.sorted m := by unfold NMap.sorted at hs ⊢; exact (List.pairwise_cons.mp hs).2
    have hlt : ∀ q ∈ m, j < q.1 := by unfold NMap.sorted at hs; exact fun q hq => (List.pairwise_cons.mp hs).1 q hq
    have ih := ih hm
    unfold NMap.get at ih ⊢
    unfold NMap.mapD at ih ⊢
    simp only [List.map_cons, List.filter_cons, NMap.find]
    by_cases hj : j = k
    · subst hj
      have hn : NMap.find ((m.map fun p => (p.1, f p.2)).filter fun p => p.2 != d) j = none := by
        have : ∀ l : NMap β, (∀ q ∈ l, j < q.1) → NMap.find l j = none := by
          intro l hl
          induction l with
          | nil => rfl
          | cons q l ihl =>
            obtain ⟨a, b⟩ := q
            have ha : j < a := hl (a, b) (by simp)
            have : a ≠ j := by omega
            simp only [NMap.find, this, if_false]
            exact ihl fun q hq => hl q (by simp [hq])
        refine this _ fun q hq => ?_
        obtain ⟨hq, -⟩ := List.mem_filter.mp hq
        obtain ⟨r, hr, rfl⟩ := List.mem_map.mp hq
        exact hlt r hr
      by_cases hf : f w = d
      · simp [hf, hn]
      · simp [hf, NMap.find]
    · by_cases hf : f w = d
      · simpa [hf, hj] using ih
      · simpa [hf, hj, NMap.find] using ih

/-! ### The canonical form -/

theorem NMap.mem_del {m : NMap β} {k : Nat} {p : Nat × β} (h : p ∈ m.del k) : p ∈ m ∧ p.1 ≠ k := by
  induction m with
  | nil => simp [NMap.del] at h
  | cons e m ih =>
    obtain ⟨j, w⟩ := e
    unfold NMap.del at h
    split at h
    · exact ⟨List.mem_cons_of_mem _ (ih h).1, (ih h).2⟩
    · rcases List.mem_cons.mp h with rfl | h
      · exact ⟨by simp, by assumption⟩
      · exact ⟨List.mem_cons_of_mem _ (ih h).1, (ih h).2⟩

theorem NMap.mem_ins {m : NMap β} {k : Nat} {v : β} {p : Nat × β} (h : p ∈ m.ins k v) : p = (k, v) ∨ p ∈ m := by
  induction m with
  | nil => simp [NMap.ins] at h; exact .inl h
  | cons e m ih =>
    obtain ⟨j, w⟩ := e
    unfold NMap.ins at h
    split at h
    · rcases List.mem_cons.mp h with h | h
      · exact .inl h
      · exact .inr (List.mem_cons_of_mem _ h)
    · split at h
      · rcases List.mem_cons.mp h with h | h
        · exact .inl h
        · exact .inr h
      · rcases List.mem_cons.mp h with h | h
        · exact .inr (by simp [h])
        · rcases ih h with h | h
          · exact .inl h
          · exact .inr (List.mem_cons_of_mem _ h)

theorem NMap.sorted_ins {m : NMap β} (hs : m.sorted) (k : Nat) (v : β) : (m.ins k v).sorted := by
  induction m with
  | nil => simp [NMap.ins, NMap.sorted]
  | cons e m ih =>
    obtain ⟨j, w⟩ := e
    unfold NMap.sorted at hs
    obtain ⟨h1, h2⟩ := List.pairwise_cons.mp hs
    unfold NMap.ins
    split
    · subst_vars; exact List.pairwise_cons.mpr ⟨h1, h2⟩
    · split
      · refine List.pairwise_cons.mpr ⟨fun q hq => ?_, hs⟩
        rcases List.mem_cons.mp hq with rfl | hq
        · assumption
        · have := h1 q hq; simp at this ⊢; omega
      · refine List.pairwise_cons.mpr ⟨fun q hq => ?_, ih h2⟩
        rcases NMap.mem_ins hq with rfl | hq
        · simp; omega
        · exact h1 q hq

theorem NMap.sorted_del {m : NMap β} (hs : m.sorted) (k : Nat) : (m.del k).sorted := by
  induction m with
  | nil => simp [NMap.del, NMap.sorted]
  | cons e m ih =>
    obtain ⟨j, w⟩ := e
    unfold NMap.sorted at hs
    obtain ⟨h1, h2⟩ := List.pairwise_cons.mp hs
    unfold NMap.del
    split
    · exact ih h2
    · exact List.pairwise_cons.mpr ⟨fun q hq => h1 q (NMap.mem_del hq).1, ih h2⟩

/-- A write keeps the canonical form. -/
theorem NMap.canon_set [DecidableEq β] {d : β} {m : NMap β} (h : NMap.canon d m) (k : Nat) (v : β) : NMap.canon d (NMap.set d m k v) := by
  unfold NMap.set
  split
  · exact ⟨NMap.sorted_del h.1 k, fun p hp => h.2 p (NMap.mem_del hp).1⟩
  · refine ⟨NMap.sorted_ins h.1 k v, fun p hp => ?_⟩
    rcases NMap.mem_ins hp with rfl | hp
    · assumption
    · exact h.2 p hp

theorem NMap.canon_nil (d : β) : NMap.canon d ([] : NMap β) := ⟨List.Pairwise.nil, by simp⟩

theorem NMap.canon_filter {d : β} {m : NMap β} (h : NMap.canon d m) (p : Nat × β → Bool) : NMap.canon d (m.filter p) :=
  ⟨List.Pairwise.filter p h.1, fun q hq => h.2 q (List.mem_filter.mp hq).1⟩

theorem NMap.canon_append {d : β} {m l : NMap β} (hm : NMap.canon d m) (hl : NMap.canon d l) (h : ∀ p ∈ m, ∀ q ∈ l, p.1 < q.1) :
    NMap.canon d (m ++ l) := by
  refine ⟨List.pairwise_append.mpr ⟨hm.1, hl.1, h⟩, fun p hp => ?_⟩
  rcases List.mem_append.mp hp with hp | hp
  · exact hm.2 p hp
  · exact hl.2 p hp

theorem NMap.canon_shift {d : β} {m : NMap β} (h : NMap.canon d m) (a : Nat) : NMap.canon d (m.map fun p => (p.1 + a, p.2)) := by
  refine ⟨List.pairwise_map.mpr (h.1.imp fun hab => by simpa using hab), fun p hp => ?_⟩
  obtain ⟨q, hq, rfl⟩ := List.mem_map.mp hp
  exact h.2 q hq

/-! ### Byte memories -/

@[simp] theorem Mem.rd_wr_same (m : Mem) (a : Nat) (b : Byte) : (m.wr a b).rd a = b := by simp [Mem.rd, Mem.wr]

theorem Mem.rd_wr_ne (m : Mem) {a k : Nat} (b : Byte) (h : a ≠ k) : (m.wr a b).rd k = m.rd k := by
  simp [Mem.rd, Mem.wr, NMap.get_set_ne _ _ _ _ h]

/-- Bytes written from `a` upward read back; every other byte reads as before. -/
theorem Mem.rd_wrN (m : Mem) (a : Nat) (bs : List Byte) (k : Nat) :
    (m.wrN a bs).rd k = if a ≤ k ∧ k < a + bs.length then bs.getD (k - a) 0#8 else m.rd k := by
  induction bs generalizing m a with
  | nil => simp [Mem.wrN]
  | cons b bs ih =>
    rw [Mem.wrN, ih]
    by_cases hk : k = a
    · subst hk; simp
    · rw [Mem.rd_wr_ne _ _ (Ne.symm hk)]
      by_cases h : a + 1 ≤ k ∧ k < a + 1 + bs.length
      · have h' : a ≤ k ∧ k < a + (b :: bs).length := by simp; omega
        rw [if_pos h, if_pos h']
        have : k - a = (k - (a + 1)) + 1 := by omega
        rw [this]; simp
      · have h' : ¬(a ≤ k ∧ k < a + (b :: bs).length) := by simp at h ⊢; omega
        rw [if_neg h, if_neg h']

theorem Mem.rd_clear (m : Mem) (a n k : Nat) : (m.clear a n).rd k = if a ≤ k ∧ k < a + n then 0#8 else m.rd k := by
  unfold Mem.rd NMap.get Mem.clear
  rw [NMap.find_filter (fun j => decide (j < a ∨ a + n ≤ j))]
  by_cases h : a ≤ k ∧ k < a + n
  · have : ¬(k < a ∨ a + n ≤ k) := by omega
    simp [h, this, Mem.unlisted]
  · have : k < a ∨ a + n ≤ k := by omega
    simp [h, this]

theorem NMap.find_shift (m : NMap β) (a k : Nat) :
    NMap.find (m.map fun p => (p.1 + a, p.2)) k = if a ≤ k then m.find (k - a) else none := by
  induction m with
  | nil => simp [NMap.find]
  | cons e m ih =>
    obtain ⟨j, w⟩ := e
    simp only [List.map_cons, NMap.find, ih]
    by_cases h : a ≤ k
    · have : (j + a = k) ↔ j = k - a := by omega
      simp [h, this]
    · have : j + a ≠ k := by omega
      simp [h, this]

/-- The bytes of `src` stand at [a, a+n); every other byte reads as before. -/
theorem Mem.rd_paste (m : Mem) (a n : Nat) (src : Mem) (k : Nat) :
    (m.paste a n src).rd k = if a ≤ k ∧ k < a + n then src.rd (k - a) else m.rd k := by
  unfold Mem.rd NMap.get Mem.paste
  rw [NMap.find_append, NMap.find_append, NMap.find_filter (fun j => decide (j < a)), NMap.find_filter (fun j => decide (a + n ≤ j)),
    NMap.find_shift, NMap.find_filter (fun j => decide (j < n))]
  by_cases h1 : k < a
  · have h2 : ¬(a ≤ k) := by omega
    have h3 : ¬(a + n ≤ k) := by omega
    simp [h1, h2, h3]
  · have h2 : a ≤ k := by omega
    by_cases h3 : k < a + n
    · have h4 : k - a < n := by omega
      have h5 : ¬(a + n ≤ k) := by omega
      simp [h1, h2, h3, h4, h5]
    · have h4 : ¬(k - a < n) := by omega
      have h5 : a + n ≤ k := by omega
      simp [h1, h2, h3, h4, h5]

theorem Mem.find_zipIdx (bs : List Byte) (i k : Nat) :
    NMap.find ((bs.zipIdx i).map fun p => (p.2, p.1)) k = if i ≤ k then bs[k - i]? else none := by
  induction bs generalizing i with
  | nil => simp [NMap.find]
  | cons b bs ih =>
    simp only [List.zipIdx_cons, List.map_cons, NMap.find, ih]
    by_cases hk : i = k
    · subst hk; simp
    · by_cases h : i + 1 ≤ k
      · have h2 : i ≤ k := by omega
        have h3 : k - i = (k - (i + 1)) + 1 := by omega
        simp only [hk, h, h2, if_true, if_false]
        rw [h3]; simp
      · have h2 : ¬(i ≤ k) := by omega
        simp [hk, h, h2]

theorem NMap.get_filter_ne [DecidableEq β] (d : β) (m : NMap β) (h : m.sorted) (k : Nat) :
    NMap.get d (m.filter fun p => p.2 != d) k = NMap.get d m k := by
  have := NMap.find_mapD_of_fix d id m h rfl k
  simpa [NMap.mapD] using this

theorem Mem.sorted_zipIdx (bs : List Byte) (i : Nat) : NMap.sorted ((bs.zipIdx i).map fun p => (p.2, p.1)) := by
  induction bs generalizing i with
  | nil => exact List.Pairwise.nil
  | cons b bs ih =>
    refine List.pairwise_cons.mpr ⟨fun q hq => ?_, ih (i + 1)⟩
    obtain ⟨r, hr, rfl⟩ := List.mem_map.mp hq
    have := List.mem_zipIdx hr
    simp; omega

theorem Mem.rd_ofBytes (bs : List Byte) (k : Nat) : (Mem.ofBytes bs).rd k = bs.getD k 0#8 := by
  unfold Mem.rd Mem.ofBytes
  rw [NMap.get_filter_ne _ _ (Mem.sorted_zipIdx bs 0), NMap.get, Mem.find_zipIdx]
  simp [Mem.unlisted]

theorem Mem.rd_wrBlk (m : Mem) (a : Nat) (bs : List Byte) (k : Nat) :
    (m.wrBlk a bs).rd k = if a ≤ k ∧ k < a + bs.length then bs.getD (k - a) 0#8 else m.rd k := by
  unfold Mem.wrBlk; rw [Mem.rd_paste, Mem.rd_ofBytes]

theorem Mem.wf_wr {m : Mem} (h : m.wf) (a : Nat) (b : Byte) : (m.wr a b).wf := NMap.canon_set h a b

theorem Mem.wf_wrN {m : Mem} (h : m.wf) (a : Nat) (bs : List Byte) : (m.wrN a bs).wf := by
  induction bs generalizing m a with
  | nil => exact h
  | cons b bs ih => exact ih (Mem.wf_wr h a b) (a + 1)

theorem Mem.wf_wrLe {m : Mem} (h : m.wf) (a n v : Nat) : (m.wrLe a n v).wf := Mem.wf_wrN h a _

theorem Mem.wf_clear {m : Mem} (h : m.wf) (a n : Nat) : (m.clear a n).wf := NMap.canon_filter h _

theorem Mem.wf_ofBytes (bs : List Byte) : (Mem.ofBytes bs).wf := by
  refine ⟨List.Pairwise.filter _ (Mem.sorted_zipIdx bs 0), fun p hp => ?_⟩
  simpa using (List.mem_filter.mp hp).2

theorem Mem.wf_slice {m : Mem} (h : m.wf) (a n : Nat) : (m.slice a n).wf := by
  have hf : Mem.wf (m.filter fun p => decide (a ≤ p.1 ∧ p.1 < a + n)) := NMap.canon_filter h _
  refine ⟨?_, fun p hp => ?_⟩
  · refine List.pairwise_map.mpr (List.Pairwise.imp_of_mem (fun {x y} hx hy hxy => ?_) hf.1)
    have h1 := (List.mem_filter.mp hx).2
    have h2 := (List.mem_filter.mp hy).2
    simp at h1 h2
    show x.1 - a < y.1 - a
    omega
  · obtain ⟨q, hq, rfl⟩ := List.mem_map.mp hp
    exact hf.2 q hq

theorem Mem.wf_paste {m src : Mem} (h : m.wf) (hs : src.wf) (a n : Nat) : (m.paste a n src).wf := by
  have h1 : NMap.canon Mem.unlisted (m.filter fun p => decide (p.1 < a)) := NMap.canon_filter h _
  have h2 := NMap.canon_shift (NMap.canon_filter hs fun p => decide (p.1 < n)) a
  have h3 : NMap.canon Mem.unlisted (m.filter fun p => decide (a + n ≤ p.1)) := NMap.canon_filter h _
  refine NMap.canon_append (NMap.canon_append h1 h2 fun p hp q hq => ?_) h3 fun p hp q hq => ?_
  · have hp := (List.mem_filter.mp hp).2
    obtain ⟨r, -, rfl⟩ := List.mem_map.mp hq
    simp at hp ⊢; omega
  · have hq := (List.mem_filter.mp hq).2
    simp at hq
    rcases List.mem_append.mp hp with hp | hp
    · have hp := (List.mem_filter.mp hp).2
      simp at hp; omega
    · obtain ⟨r, hr, rfl⟩ := List.mem_map.mp hp
      have hr := (List.mem_filter.mp hr).2
      simp at hr ⊢; omega

theorem Mem.wf_wrBlk {m : Mem} (h : m.wf) (a : Nat) (bs : List Byte) : (m.wrBlk a bs).wf := Mem.wf_paste h (Mem.wf_ofBytes bs) a _

theorem NMap.find_none_of_lt {m : NMap β} {k : Nat} (h : ∀ p ∈ m, k < p.1) : m.find k = none := by
  induction m with
  | nil => rfl
  | cons e m ih =>
    obtain ⟨j, w⟩ := e
    have hj : k < j := h (j, w) (by simp)
    have : j ≠ k := by omega
    simp only [NMap.find, this, if_false]
    exact ih fun p hp => h p (by simp [hp])

theorem Mem.walk_eq (n : Nat) (m : Mem) (a : Nat) (hs : NMap.sorted m) (ha : ∀ p ∈ m, a ≤ p.1) : Mem.walk n m a = m.rdN a n := by
  induction n generalizing m a with
  | zero => simp [Mem.walk, Mem.rdN]
  | succ n ih =>
    have hr : ∀ l : Mem, l.rdN a (n + 1) = l.rd a :: l.rdN (a + 1) n := by
      intro l
      simp only [Mem.rdN, List.range_succ_eq_map, List.map_cons, List.map_map, Nat.add_zero]
      congr 1
      apply List.map_congr_left
      intro i _
      simp [Nat.add_comm, Nat.add_left_comm]
    rw [hr]
    cases m with
    | nil => simp [Mem.walk, ih [] (a + 1) hs (by simp), Mem.rd, NMap.get, NMap.find]
    | cons e m =>
      obtain ⟨j, w⟩ := e
      obtain ⟨h1, h2⟩ := List.pairwise_cons.mp hs
      unfold Mem.walk
      by_cases hj : j = a
      · subst hj
        have hm : ∀ p ∈ m, j + 1 ≤ p.1 := fun p hp => h1 p hp
        rw [if_pos rfl, ih m (j + 1) h2 hm]
        congr 1
        · simp [Mem.rd, NMap.get, NMap.find]
        · apply List.map_congr_left
          intro i _
          have : j ≠ j + 1 + i := by omega
          simp [Mem.rd, NMap.get, NMap.find, this]
      · have hja : a ≤ j := ha (j, w) (by simp)
        have hm : ∀ p ∈ (j, w) :: m, a + 1 ≤ p.1 := by
          intro p hp
          rcases List.mem_cons.mp hp with rfl | hp
          · simp; omega
          · have := h1 p hp; simp at this; omega
        rw [if_neg hj, ih _ (a + 1) hs hm]
        congr 1
        have : NMap.find ((j, w) :: m) a = none := NMap.find_none_of_lt fun p hp => by have := hm p hp; omega
        simp [Mem.rd, NMap.get, this]

theorem Mem.find_dropWhile (m : Mem) (a k : Nat) (h : a ≤ k) : NMap.find (m.dropWhile fun p => decide (p.1 < a)) k = NMap.find m k := by
  induction m with
  | nil => rfl
  | cons e m ih =>
    obtain ⟨j, w⟩ := e
    by_cases hj : j < a
    · have : j ≠ k := by omega
      simp [List.dropWhile, hj, NMap.find, this, ih]
    · simp [List.dropWhile, hj]

/-- On a canonical memory the one-pass read gives the bytes one by one. -/
theorem Mem.rdBlk_eq {m : Mem} (h : m.wf) (a n : Nat) : m.rdBlk a n = m.rdN a n := by
  have hs : NMap.sorted (m.dropWhile fun p => decide (p.1 < a)) := List.Pairwise.sublist (List.dropWhile_sublist _) h.1
  have key : ∀ l : Mem, NMap.sorted l → ∀ p ∈ l.dropWhile (fun p => decide (p.1 < a)), a ≤ p.1 := by
    intro l hl
    induction l with
    | nil => simp
    | cons e l ih =>
      obtain ⟨j, w⟩ := e
      obtain ⟨h1, h2⟩ := List.pairwise_cons.mp hl
      by_cases hj : j < a
      · simpa [List.dropWhile, hj] using ih h2
      · intro p hp
        simp only [List.dropWhile, hj, decide_false] at hp
        rcases List.mem_cons.mp hp with rfl | hp
        · simp; omega
        · have := h1 p hp; simp at this; omega
  unfold Mem.rdBlk
  rw [Mem.walk_eq n _ a hs (key m h.1)]
  apply List.map_congr_left
  intro i _
  unfold Mem.rd NMap.get
  rw [Mem.find_dropWhile m a (a + i) (by omega)]

end Sys2Proof.Machine
end

