-- ==== Sys2Proof/Laws/State.lean ====
section
/-! SUPPORT. What each named update of the state leaves as it was, field by field, and what a register, a field, a counter, a core, an
engine or a cluster reads after it was written. -/

namespace Sys2Proof.Machine

variable (s : State)

/-! ### `wr` -/

@[simp] theorem State.wr_pending (r : Nat) (v : BitVec 32) : (s.wr r v).pending = s.pending := (rfl)
@[simp] theorem State.wr_now (r : Nat) (v : BitVec 32) : (s.wr r v).now = s.now := (rfl)
@[simp] theorem State.wr_free (r : Nat) (v : BitVec 32) : (s.wr r v).free = s.free := (rfl)
@[simp] theorem State.wr_rcMgmt (r : Nat) (v : BitVec 32) : (s.wr r v).rcMgmt = s.rcMgmt := (rfl)
@[simp] theorem State.wr_ctrs (r : Nat) (v : BitVec 32) : (s.wr r v).ctrs = s.ctrs := (rfl)
@[simp] theorem State.wr_latchHost (r : Nat) (v : BitVec 32) : (s.wr r v).latchHost = s.latchHost := (rfl)
@[simp] theorem State.wr_latchMgmt (r : Nat) (v : BitVec 32) : (s.wr r v).latchMgmt = s.latchMgmt := (rfl)
@[simp] theorem State.wr_held (r : Nat) (v : BitVec 32) : (s.wr r v).held = s.held := (rfl)
@[simp] theorem State.wr_ret (r : Nat) (v : BitVec 32) : (s.wr r v).ret = s.ret := (rfl)
@[simp] theorem State.wr_retBytes (r : Nat) (v : BitVec 32) : (s.wr r v).retBytes = s.retBytes := (rfl)
@[simp] theorem State.wr_retBad (r : Nat) (v : BitVec 32) : (s.wr r v).retBad = s.retBad := (rfl)
@[simp] theorem State.wr_cores (r : Nat) (v : BitVec 32) : (s.wr r v).cores = s.cores := (rfl)
@[simp] theorem State.wr_engs (r : Nat) (v : BitVec 32) : (s.wr r v).engs = s.engs := (rfl)
@[simp] theorem State.wr_clusters (r : Nat) (v : BitVec 32) : (s.wr r v).clusters = s.clusters := (rfl)
@[simp] theorem State.wr_flights (r : Nat) (v : BitVec 32) : (s.wr r v).flights = s.flights := (rfl)
@[simp] theorem State.wr_fetches (r : Nat) (v : BitVec 32) : (s.wr r v).fetches = s.fetches := (rfl)
@[simp] theorem State.wr_garnet (r : Nat) (v : BitVec 32) : (s.wr r v).garnet = s.garnet := (rfl)
@[simp] theorem State.wr_marks (r : Nat) (v : BitVec 32) : (s.wr r v).marks = s.marks := (rfl)
@[simp] theorem State.wr_lastEvent (r : Nat) (v : BitVec 32) : (s.wr r v).lastEvent = s.lastEvent := (rfl)
@[simp] theorem State.wr_abandonCause (r : Nat) (v : BitVec 32) : (s.wr r v).abandonCause = s.abandonCause := (rfl)
@[simp] theorem State.wr_mem (r : Nat) (v : BitVec 32) : (s.wr r v).mem = s.mem := (rfl)
@[simp] theorem State.wr_chk (r : Nat) (v : BitVec 32) : (s.wr r v).chk = s.chk := (rfl)
@[simp] theorem State.wr_chans (r : Nat) (v : BitVec 32) : (s.wr r v).chans = s.chans := (rfl)
@[simp] theorem State.wr_stackTab (r : Nat) (v : BitVec 32) : (s.wr r v).stackTab = s.stackTab := (rfl)
@[simp] theorem State.wr_place (r : Nat) (v : BitVec 32) : (s.wr r v).place = s.place := (rfl)
@[simp] theorem State.wr_host (r : Nat) (v : BitVec 32) : (s.wr r v).host = s.host := (rfl)
@[simp] theorem State.wr_hostq (r : Nat) (v : BitVec 32) : (s.wr r v).hostq = s.hostq := (rfl)
@[simp] theorem State.wr_flash (r : Nat) (v : BitVec 32) : (s.wr r v).flash = s.flash := (rfl)
@[simp] theorem State.wr_link (r : Nat) (v : BitVec 32) : (s.wr r v).link = s.link := (rfl)
@[simp] theorem State.wr_boot (r : Nat) (v : BitVec 32) : (s.wr r v).boot = s.boot := (rfl)
@[simp] theorem State.wr_power (r : Nat) (v : BitVec 32) : (s.wr r v).power = s.power := (rfl)
@[simp] theorem State.wr_intake (r : Nat) (v : BitVec 32) : (s.wr r v).intake = s.intake := (rfl)
@[simp] theorem State.wr_jsp (r : Nat) (v : BitVec 32) : (s.wr r v).jsp = s.jsp := (rfl)
@[simp] theorem State.wr_outs (r : Nat) (v : BitVec 32) : (s.wr r v).outs = s.outs := (rfl)
@[simp] theorem State.wr_ctr (r : Nat) (v : BitVec 32) (a : Nat) : (s.wr r v).ctr a = s.ctr a := (rfl)
@[simp] theorem State.wr_core (r : Nat) (v : BitVec 32) (c : Nat) : (s.wr r v).core c = s.core c := (rfl)
@[simp] theorem State.wr_eng (r : Nat) (v : BitVec 32) (g : Nat) : (s.wr r v).eng g = s.eng g := (rfl)
@[simp] theorem State.wr_cluster (r : Nat) (v : BitVec 32) (k : Nat) : (s.wr r v).cluster k = s.cluster k := (rfl)

/-! ### `setFld` -/

@[simp] theorem State.setFld_pending (x : Fld) (v : Nat) : (s.setFld x v).pending = s.pending := (rfl)
@[simp] theorem State.setFld_now (x : Fld) (v : Nat) : (s.setFld x v).now = s.now := (rfl)
@[simp] theorem State.setFld_free (x : Fld) (v : Nat) : (s.setFld x v).free = s.free := (rfl)
@[simp] theorem State.setFld_rcMgmt (x : Fld) (v : Nat) : (s.setFld x v).rcMgmt = s.rcMgmt := (rfl)
@[simp] theorem State.setFld_ctrs (x : Fld) (v : Nat) : (s.setFld x v).ctrs = s.ctrs := (rfl)
@[simp] theorem State.setFld_latchHost (x : Fld) (v : Nat) : (s.setFld x v).latchHost = s.latchHost := (rfl)
@[simp] theorem State.setFld_latchMgmt (x : Fld) (v : Nat) : (s.setFld x v).latchMgmt = s.latchMgmt := (rfl)
@[simp] theorem State.setFld_held (x : Fld) (v : Nat) : (s.setFld x v).held = s.held := (rfl)
@[simp] theorem State.setFld_ret (x : Fld) (v : Nat) : (s.setFld x v).ret = s.ret := (rfl)
@[simp] theorem State.setFld_retBytes (x : Fld) (v : Nat) : (s.setFld x v).retBytes = s.retBytes := (rfl)
@[simp] theorem State.setFld_retBad (x : Fld) (v : Nat) : (s.setFld x v).retBad = s.retBad := (rfl)
@[simp] theorem State.setFld_cores (x : Fld) (v : Nat) : (s.setFld x v).cores = s.cores := (rfl)
@[simp] theorem State.setFld_engs (x : Fld) (v : Nat) : (s.setFld x v).engs = s.engs := (rfl)
@[simp] theorem State.setFld_clusters (x : Fld) (v : Nat) : (s.setFld x v).clusters = s.clusters := (rfl)
@[simp] theorem State.setFld_flights (x : Fld) (v : Nat) : (s.setFld x v).flights = s.flights := (rfl)
@[simp] theorem State.setFld_fetches (x : Fld) (v : Nat) : (s.setFld x v).fetches = s.fetches := (rfl)
@[simp] theorem State.setFld_garnet (x : Fld) (v : Nat) : (s.setFld x v).garnet = s.garnet := (rfl)
@[simp] theorem State.setFld_marks (x : Fld) (v : Nat) : (s.setFld x v).marks = s.marks := (rfl)
@[simp] theorem State.setFld_lastEvent (x : Fld) (v : Nat) : (s.setFld x v).lastEvent = s.lastEvent := (rfl)
@[simp] theorem State.setFld_abandonCause (x : Fld) (v : Nat) : (s.setFld x v).abandonCause = s.abandonCause := (rfl)
@[simp] theorem State.setFld_mem (x : Fld) (v : Nat) : (s.setFld x v).mem = s.mem := (rfl)
@[simp] theorem State.setFld_chk (x : Fld) (v : Nat) : (s.setFld x v).chk = s.chk := (rfl)
@[simp] theorem State.setFld_chans (x : Fld) (v : Nat) : (s.setFld x v).chans = s.chans := (rfl)
@[simp] theorem State.setFld_stackTab (x : Fld) (v : Nat) : (s.setFld x v).stackTab = s.stackTab := (rfl)
@[simp] theorem State.setFld_place (x : Fld) (v : Nat) : (s.setFld x v).place = s.place := (rfl)
@[simp] theorem State.setFld_host (x : Fld) (v : Nat) : (s.setFld x v).host = s.host := (rfl)
@[simp] theorem State.setFld_hostq (x : Fld) (v : Nat) : (s.setFld x v).hostq = s.hostq := (rfl)
@[simp] theorem State.setFld_flash (x : Fld) (v : Nat) : (s.setFld x v).flash = s.flash := (rfl)
@[simp] theorem State.setFld_link (x : Fld) (v : Nat) : (s.setFld x v).link = s.link := (rfl)
@[simp] theorem State.setFld_boot (x : Fld) (v : Nat) : (s.setFld x v).boot = s.boot := (rfl)
@[simp] theorem State.setFld_power (x : Fld) (v : Nat) : (s.setFld x v).power = s.power := (rfl)
@[simp] theorem State.setFld_intake (x : Fld) (v : Nat) : (s.setFld x v).intake = s.intake := (rfl)
@[simp] theorem State.setFld_jsp (x : Fld) (v : Nat) : (s.setFld x v).jsp = s.jsp := (rfl)
@[simp] theorem State.setFld_outs (x : Fld) (v : Nat) : (s.setFld x v).outs = s.outs := (rfl)
@[simp] theorem State.setFld_ctr (x : Fld) (v : Nat) (a : Nat) : (s.setFld x v).ctr a = s.ctr a := (rfl)
@[simp] theorem State.setFld_core (x : Fld) (v : Nat) (c : Nat) : (s.setFld x v).core c = s.core c := (rfl)
@[simp] theorem State.setFld_eng (x : Fld) (v : Nat) (g : Nat) : (s.setFld x v).eng g = s.eng g := (rfl)
@[simp] theorem State.setFld_cluster (x : Fld) (v : Nat) (k : Nat) : (s.setFld x v).cluster k = s.cluster k := (rfl)

/-! ### `raise` -/

@[simp] theorem State.raise_pending (x : Fld) : (s.raise x).pending = s.pending := (rfl)
@[simp] theorem State.raise_now (x : Fld) : (s.raise x).now = s.now := (rfl)
@[simp] theorem State.raise_free (x : Fld) : (s.raise x).free = s.free := (rfl)
@[simp] theorem State.raise_rcMgmt (x : Fld) : (s.raise x).rcMgmt = s.rcMgmt := (rfl)
@[simp] theorem State.raise_ctrs (x : Fld) : (s.raise x).ctrs = s.ctrs := (rfl)
@[simp] theorem State.raise_latchHost (x : Fld) : (s.raise x).latchHost = s.latchHost := (rfl)
@[simp] theorem State.raise_latchMgmt (x : Fld) : (s.raise x).latchMgmt = s.latchMgmt := (rfl)
@[simp] theorem State.raise_held (x : Fld) : (s.raise x).held = s.held := (rfl)
@[simp] theorem State.raise_ret (x : Fld) : (s.raise x).ret = s.ret := (rfl)
@[simp] theorem State.raise_retBytes (x : Fld) : (s.raise x).retBytes = s.retBytes := (rfl)
@[simp] theorem State.raise_retBad (x : Fld) : (s.raise x).retBad = s.retBad := (rfl)
@[simp] theorem State.raise_cores (x : Fld) : (s.raise x).cores = s.cores := (rfl)
@[simp] theorem State.raise_engs (x : Fld) : (s.raise x).engs = s.engs := (rfl)
@[simp] theorem State.raise_clusters (x : Fld) : (s.raise x).clusters = s.clusters := (rfl)
@[simp] theorem State.raise_flights (x : Fld) : (s.raise x).flights = s.flights := (rfl)
@[simp] theorem State.raise_fetches (x : Fld) : (s.raise x).fetches = s.fetches := (rfl)
@[simp] theorem State.raise_garnet (x : Fld) : (s.raise x).garnet = s.garnet := (rfl)
@[simp] theorem State.raise_marks (x : Fld) : (s.raise x).marks = s.marks := (rfl)
@[simp] theorem State.raise_lastEvent (x : Fld) : (s.raise x).lastEvent = s.lastEvent := (rfl)
@[simp] theorem State.raise_abandonCause (x : Fld) : (s.raise x).abandonCause = s.abandonCause := (rfl)
@[simp] theorem State.raise_mem (x : Fld) : (s.raise x).mem = s.mem := (rfl)
@[simp] theorem State.raise_chk (x : Fld) : (s.raise x).chk = s.chk := (rfl)
@[simp] theorem State.raise_chans (x : Fld) : (s.raise x).chans = s.chans := (rfl)
@[simp] theorem State.raise_stackTab (x : Fld) : (s.raise x).stackTab = s.stackTab := (rfl)
@[simp] theorem State.raise_place (x : Fld) : (s.raise x).place = s.place := (rfl)
@[simp] theorem State.raise_host (x : Fld) : (s.raise x).host = s.host := (rfl)
@[simp] theorem State.raise_hostq (x : Fld) : (s.raise x).hostq = s.hostq := (rfl)
@[simp] theorem State.raise_flash (x : Fld) : (s.raise x).flash = s.flash := (rfl)
@[simp] theorem State.raise_link (x : Fld) : (s.raise x).link = s.link := (rfl)
@[simp] theorem State.raise_boot (x : Fld) : (s.raise x).boot = s.boot := (rfl)
@[simp] theorem State.raise_power (x : Fld) : (s.raise x).power = s.power := (rfl)
@[simp] theorem State.raise_intake (x : Fld) : (s.raise x).intake = s.intake := (rfl)
@[simp] theorem State.raise_jsp (x : Fld) : (s.raise x).jsp = s.jsp := (rfl)
@[simp] theorem State.raise_outs (x : Fld) : (s.raise x).outs = s.outs := (rfl)
@[simp] theorem State.raise_ctr (x : Fld) (a : Nat) : (s.raise x).ctr a = s.ctr a := (rfl)
@[simp] theorem State.raise_core (x : Fld) (c : Nat) : (s.raise x).core c = s.core c := (rfl)
@[simp] theorem State.raise_eng (x : Fld) (g : Nat) : (s.raise x).eng g = s.eng g := (rfl)
@[simp] theorem State.raise_cluster (x : Fld) (k : Nat) : (s.raise x).cluster k = s.cluster k := (rfl)

/-! ### `count` -/

@[simp] theorem State.count_pending (r n : Nat) : (s.count r n).pending = s.pending := (rfl)
@[simp] theorem State.count_now (r n : Nat) : (s.count r n).now = s.now := (rfl)
@[simp] theorem State.count_free (r n : Nat) : (s.count r n).free = s.free := (rfl)
@[simp] theorem State.count_regs (r n : Nat) : (s.count r n).regs = s.regs := (rfl)
@[simp] theorem State.count_rcMgmt (r n : Nat) : (s.count r n).rcMgmt = s.rcMgmt := (rfl)
@[simp] theorem State.count_latchHost (r n : Nat) : (s.count r n).latchHost = s.latchHost := (rfl)
@[simp] theorem State.count_latchMgmt (r n : Nat) : (s.count r n).latchMgmt = s.latchMgmt := (rfl)
@[simp] theorem State.count_held (r n : Nat) : (s.count r n).held = s.held := (rfl)
@[simp] theorem State.count_ret (r n : Nat) : (s.count r n).ret = s.ret := (rfl)
@[simp] theorem State.count_retBytes (r n : Nat) : (s.count r n).retBytes = s.retBytes := (rfl)
@[simp] theorem State.count_retBad (r n : Nat) : (s.count r n).retBad = s.retBad := (rfl)
@[simp] theorem State.count_cores (r n : Nat) : (s.count r n).cores = s.cores := (rfl)
@[simp] theorem State.count_engs (r n : Nat) : (s.count r n).engs = s.engs := (rfl)
@[simp] theorem State.count_clusters (r n : Nat) : (s.count r n).clusters = s.clusters := (rfl)
@[simp] theorem State.count_flights (r n : Nat) : (s.count r n).flights = s.flights := (rfl)
@[simp] theorem State.count_fetches (r n : Nat) : (s.count r n).fetches = s.fetches := (rfl)
@[simp] theorem State.count_garnet (r n : Nat) : (s.count r n).garnet = s.garnet := (rfl)
@[simp] theorem State.count_marks (r n : Nat) : (s.count r n).marks = s.marks := (rfl)
@[simp] theorem State.count_lastEvent (r n : Nat) : (s.count r n).lastEvent = s.lastEvent := (rfl)
@[simp] theorem State.count_abandonCause (r n : Nat) : (s.count r n).abandonCause = s.abandonCause := (rfl)
@[simp] theorem State.count_mem (r n : Nat) : (s.count r n).mem = s.mem := (rfl)
@[simp] theorem State.count_chk (r n : Nat) : (s.count r n).chk = s.chk := (rfl)
@[simp] theorem State.count_chans (r n : Nat) : (s.count r n).chans = s.chans := (rfl)
@[simp] theorem State.count_stackTab (r n : Nat) : (s.count r n).stackTab = s.stackTab := (rfl)
@[simp] theorem State.count_place (r n : Nat) : (s.count r n).place = s.place := (rfl)
@[simp] theorem State.count_host (r n : Nat) : (s.count r n).host = s.host := (rfl)
@[simp] theorem State.count_hostq (r n : Nat) : (s.count r n).hostq = s.hostq := (rfl)
@[simp] theorem State.count_flash (r n : Nat) : (s.count r n).flash = s.flash := (rfl)
@[simp] theorem State.count_link (r n : Nat) : (s.count r n).link = s.link := (rfl)
@[simp] theorem State.count_boot (r n : Nat) : (s.count r n).boot = s.boot := (rfl)
@[simp] theorem State.count_power (r n : Nat) : (s.count r n).power = s.power := (rfl)
@[simp] theorem State.count_intake (r n : Nat) : (s.count r n).intake = s.intake := (rfl)
@[simp] theorem State.count_jsp (r n : Nat) : (s.count r n).jsp = s.jsp := (rfl)
@[simp] theorem State.count_outs (r n : Nat) : (s.count r n).outs = s.outs := (rfl)
@[simp] theorem State.count_rd (r n : Nat) (a : Nat) : (s.count r n).rd a = s.rd a := (rfl)
@[simp] theorem State.count_fld (r n : Nat) (f : Fld) : (s.count r n).fld f = s.fld f := (rfl)
@[simp] theorem State.count_inForce (r n : Nat) (f : Fld) : (s.count r n).inForce f = s.inForce f := (rfl)
@[simp] theorem State.count_core (r n : Nat) (c : Nat) : (s.count r n).core c = s.core c := (rfl)
@[simp] theorem State.count_eng (r n : Nat) (g : Nat) : (s.count r n).eng g = s.eng g := (rfl)
@[simp] theorem State.count_cluster (r n : Nat) (k : Nat) : (s.count r n).cluster k = s.cluster k := (rfl)

/-! ### `setCore` -/

@[simp] theorem State.setCore_pending (i : Nat) (x : CoreSt) : (s.setCore i x).pending = s.pending := (rfl)
@[simp] theorem State.setCore_now (i : Nat) (x : CoreSt) : (s.setCore i x).now = s.now := (rfl)
@[simp] theorem State.setCore_free (i : Nat) (x : CoreSt) : (s.setCore i x).free = s.free := (rfl)
@[simp] theorem State.setCore_regs (i : Nat) (x : CoreSt) : (s.setCore i x).regs = s.regs := (rfl)
@[simp] theorem State.setCore_rcMgmt (i : Nat) (x : CoreSt) : (s.setCore i x).rcMgmt = s.rcMgmt := (rfl)
@[simp] theorem State.setCore_ctrs (i : Nat) (x : CoreSt) : (s.setCore i x).ctrs = s.ctrs := (rfl)
@[simp] theorem State.setCore_latchHost (i : Nat) (x : CoreSt) : (s.setCore i x).latchHost = s.latchHost := (rfl)
@[simp] theorem State.setCore_latchMgmt (i : Nat) (x : CoreSt) : (s.setCore i x).latchMgmt = s.latchMgmt := (rfl)
@[simp] theorem State.setCore_held (i : Nat) (x : CoreSt) : (s.setCore i x).held = s.held := (rfl)
@[simp] theorem State.setCore_ret (i : Nat) (x : CoreSt) : (s.setCore i x).ret = s.ret := (rfl)
@[simp] theorem State.setCore_retBytes (i : Nat) (x : CoreSt) : (s.setCore i x).retBytes = s.retBytes := (rfl)
@[simp] theorem State.setCore_retBad (i : Nat) (x : CoreSt) : (s.setCore i x).retBad = s.retBad := (rfl)
@[simp] theorem State.setCore_engs (i : Nat) (x : CoreSt) : (s.setCore i x).engs = s.engs := (rfl)
@[simp] theorem State.setCore_clusters (i : Nat) (x : CoreSt) : (s.setCore i x).clusters = s.clusters := (rfl)
@[simp] theorem State.setCore_flights (i : Nat) (x : CoreSt) : (s.setCore i x).flights = s.flights := (rfl)
@[simp] theorem State.setCore_fetches (i : Nat) (x : CoreSt) : (s.setCore i x).fetches = s.fetches := (rfl)
@[simp] theorem State.setCore_garnet (i : Nat) (x : CoreSt) : (s.setCore i x).garnet = s.garnet := (rfl)
@[simp] theorem State.setCore_marks (i : Nat) (x : CoreSt) : (s.setCore i x).marks = s.marks := (rfl)
@[simp] theorem State.setCore_lastEvent (i : Nat) (x : CoreSt) : (s.setCore i x).lastEvent = s.lastEvent := (rfl)
@[simp] theorem State.setCore_abandonCause (i : Nat) (x : CoreSt) : (s.setCore i x).abandonCause = s.abandonCause := (rfl)
@[simp] theorem State.setCore_mem (i : Nat) (x : CoreSt) : (s.setCore i x).mem = s.mem := (rfl)
@[simp] theorem State.setCore_chk (i : Nat) (x : CoreSt) : (s.setCore i x).chk = s.chk := (rfl)
@[simp] theorem State.setCore_chans (i : Nat) (x : CoreSt) : (s.setCore i x).chans = s.chans := (rfl)
@[simp] theorem State.setCore_stackTab (i : Nat) (x : CoreSt) : (s.setCore i x).stackTab = s.stackTab := (rfl)
@[simp] theorem State.setCore_place (i : Nat) (x : CoreSt) : (s.setCore i x).place = s.place := (rfl)
@[simp] theorem State.setCore_host (i : Nat) (x : CoreSt) : (s.setCore i x).host = s.host := (rfl)
@[simp] theorem State.setCore_hostq (i : Nat) (x : CoreSt) : (s.setCore i x).hostq = s.hostq := (rfl)
@[simp] theorem State.setCore_flash (i : Nat) (x : CoreSt) : (s.setCore i x).flash = s.flash := (rfl)
@[simp] theorem State.setCore_link (i : Nat) (x : CoreSt) : (s.setCore i x).link = s.link := (rfl)
@[simp] theorem State.setCore_boot (i : Nat) (x : CoreSt) : (s.setCore i x).boot = s.boot := (rfl)
@[simp] theorem State.setCore_power (i : Nat) (x : CoreSt) : (s.setCore i x).power = s.power := (rfl)
@[simp] theorem State.setCore_intake (i : Nat) (x : CoreSt) : (s.setCore i x).intake = s.intake := (rfl)
@[simp] theorem State.setCore_jsp (i : Nat) (x : CoreSt) : (s.setCore i x).jsp = s.jsp := (rfl)
@[simp] theorem State.setCore_outs (i : Nat) (x : CoreSt) : (s.setCore i x).outs = s.outs := (rfl)
@[simp] theorem State.setCore_rd (i : Nat) (x : CoreSt) (a : Nat) : (s.setCore i x).rd a = s.rd a := (rfl)
@[simp] theorem State.setCore_fld (i : Nat) (x : CoreSt) (f : Fld) : (s.setCore i x).fld f = s.fld f := (rfl)
@[simp] theorem State.setCore_inForce (i : Nat) (x : CoreSt) (f : Fld) : (s.setCore i x).inForce f = s.inForce f := (rfl)
@[simp] theorem State.setCore_ctr (i : Nat) (x : CoreSt) (a : Nat) : (s.setCore i x).ctr a = s.ctr a := (rfl)
@[simp] theorem State.setCore_eng (i : Nat) (x : CoreSt) (g : Nat) : (s.setCore i x).eng g = s.eng g := (rfl)
@[simp] theorem State.setCore_cluster (i : Nat) (x : CoreSt) (k : Nat) : (s.setCore i x).cluster k = s.cluster k := (rfl)

/-! ### `modCore` -/

@[simp] theorem State.modCore_pending (i : Nat) (x : CoreSt → CoreSt) : (s.modCore i x).pending = s.pending := (rfl)
@[simp] theorem State.modCore_now (i : Nat) (x : CoreSt → CoreSt) : (s.modCore i x).now = s.now := (rfl)
@[simp] theorem State.modCore_free (i : Nat) (x : CoreSt → CoreSt) : (s.modCore i x).free = s.free := (rfl)
@[simp] theorem State.modCore_regs (i : Nat) (x : CoreSt → CoreSt) : (s.modCore i x).regs = s.regs := (rfl)
@[simp] theorem State.modCore_rcMgmt (i : Nat) (x : CoreSt → CoreSt) : (s.modCore i x).rcMgmt = s.rcMgmt := (rfl)
@[simp] theorem State.modCore_ctrs (i : Nat) (x : CoreSt → CoreSt) : (s.modCore i x).ctrs = s.ctrs := (rfl)
@[simp] theorem State.modCore_latchHost (i : Nat) (x : CoreSt → CoreSt) : (s.modCore i x).latchHost = s.latchHost := (rfl)
@[simp] theorem State.modCore_latchMgmt (i : Nat) (x : CoreSt → CoreSt) : (s.modCore i x).latchMgmt = s.latchMgmt := (rfl)
@[simp] theorem State.modCore_held (i : Nat) (x : CoreSt → CoreSt) : (s.modCore i x).held = s.held := (rfl)
@[simp] theorem State.modCore_ret (i : Nat) (x : CoreSt → CoreSt) : (s.modCore i x).ret = s.ret := (rfl)
@[simp] theorem State.modCore_retBytes (i : Nat) (x : CoreSt → CoreSt) : (s.modCore i x).retBytes = s.retBytes := (rfl)
@[simp] theorem State.modCore_retBad (i : Nat) (x : CoreSt → CoreSt) : (s.modCore i x).retBad = s.retBad := (rfl)
@[simp] theorem State.modCore_engs (i : Nat) (x : CoreSt → CoreSt) : (s.modCore i x).engs = s.engs := (rfl)
@[simp] theorem State.modCore_clusters (i : Nat) (x : CoreSt → CoreSt) : (s.modCore i x).clusters = s.clusters := (rfl)
@[simp] theorem State.modCore_flights (i : Nat) (x : CoreSt → CoreSt) : (s.modCore i x).flights = s.flights := (rfl)
@[simp] theorem State.modCore_fetches (i : Nat) (x : CoreSt → CoreSt) : (s.modCore i x).fetches = s.fetches := (rfl)
@[simp] theorem State.modCore_garnet (i : Nat) (x : CoreSt → CoreSt) : (s.modCore i x).garnet = s.garnet := (rfl)
@[simp] theorem State.modCore_marks (i : Nat) (x : CoreSt → CoreSt) : (s.modCore i x).marks = s.marks := (rfl)
@[simp] theorem State.modCore_lastEvent (i : Nat) (x : CoreSt → CoreSt) : (s.modCore i x).lastEvent = s.lastEvent := (rfl)
@[simp] theorem State.modCore_abandonCause (i : Nat) (x : CoreSt → CoreSt) : (s.modCore i x).abandonCause = s.abandonCause := (rfl)
@[simp] theorem State.modCore_mem (i : Nat) (x : CoreSt → CoreSt) : (s.modCore i x).mem = s.mem := (rfl)
@[simp] theorem State.modCore_chk (i : Nat) (x : CoreSt → CoreSt) : (s.modCore i x).chk = s.chk := (rfl)
@[simp] theorem State.modCore_chans (i : Nat) (x : CoreSt → CoreSt) : (s.modCore i x).chans = s.chans := (rfl)
@[simp] theorem State.modCore_stackTab (i : Nat) (x : CoreSt → CoreSt) : (s.modCore i x).stackTab = s.stackTab := (rfl)
@[simp] theorem State.modCore_place (i : Nat) (x : CoreSt → CoreSt) : (s.modCore i x).place = s.place := (rfl)
@[simp] theorem State.modCore_host (i : Nat) (x : CoreSt → CoreSt) : (s.modCore i x).host = s.host := (rfl)
@[simp] theorem State.modCore_hostq (i : Nat) (x : CoreSt → CoreSt) : (s.modCore i x).hostq = s.hostq := (rfl)
@[simp] theorem State.modCore_flash (i : Nat) (x : CoreSt → CoreSt) : (s.modCore i x).flash = s.flash := (rfl)
@[simp] theorem State.modCore_link (i : Nat) (x : CoreSt → CoreSt) : (s.modCore i x).link = s.link := (rfl)
@[simp] theorem State.modCore_boot (i : Nat) (x : CoreSt → CoreSt) : (s.modCore i x).boot = s.boot := (rfl)
@[simp] theorem State.modCore_power (i : Nat) (x : CoreSt → CoreSt) : (s.modCore i x).power = s.power := (rfl)
@[simp] theorem State.modCore_intake (i : Nat) (x : CoreSt → CoreSt) : (s.modCore i x).intake = s.intake := (rfl)
@[simp] theorem State.modCore_jsp (i : Nat) (x : CoreSt → CoreSt) : (s.modCore i x).jsp = s.jsp := (rfl)
@[simp] theorem State.modCore_outs (i : Nat) (x : CoreSt → CoreSt) : (s.modCore i x).outs = s.outs := (rfl)
@[simp] theorem State.modCore_rd (i : Nat) (x : CoreSt → CoreSt) (a : Nat) : (s.modCore i x).rd a = s.rd a := (rfl)
@[simp] theorem State.modCore_fld (i : Nat) (x : CoreSt → CoreSt) (f : Fld) : (s.modCore i x).fld f = s.fld f := (rfl)
@[simp] theorem State.modCore_inForce (i : Nat) (x : CoreSt → CoreSt) (f : Fld) : (s.modCore i x).inForce f = s.inForce f := (rfl)
@[simp] theorem State.modCore_ctr (i : Nat) (x : CoreSt → CoreSt) (a : Nat) : (s.modCore i x).ctr a = s.ctr a := (rfl)
@[simp] theorem State.modCore_eng (i : Nat) (x : CoreSt → CoreSt) (g : Nat) : (s.modCore i x).eng g = s.eng g := (rfl)
@[simp] theorem State.modCore_cluster (i : Nat) (x : CoreSt → CoreSt) (k : Nat) : (s.modCore i x).cluster k = s.cluster k := (rfl)

/-! ### `setEng` -/

@[simp] theorem State.setEng_pending (i : Nat) (x : EngSt) : (s.setEng i x).pending = s.pending := (rfl)
@[simp] theorem State.setEng_now (i : Nat) (x : EngSt) : (s.setEng i x).now = s.now := (rfl)
@[simp] theorem State.setEng_free (i : Nat) (x : EngSt) : (s.setEng i x).free = s.free := (rfl)
@[simp] theorem State.setEng_regs (i : Nat) (x : EngSt) : (s.setEng i x).regs = s.regs := (rfl)
@[simp] theorem State.setEng_rcMgmt (i : Nat) (x : EngSt) : (s.setEng i x).rcMgmt = s.rcMgmt := (rfl)
@[simp] theorem State.setEng_ctrs (i : Nat) (x : EngSt) : (s.setEng i x).ctrs = s.ctrs := (rfl)
@[simp] theorem State.setEng_latchHost (i : Nat) (x : EngSt) : (s.setEng i x).latchHost = s.latchHost := (rfl)
@[simp] theorem State.setEng_latchMgmt (i : Nat) (x : EngSt) : (s.setEng i x).latchMgmt = s.latchMgmt := (rfl)
@[simp] theorem State.setEng_held (i : Nat) (x : EngSt) : (s.setEng i x).held = s.held := (rfl)
@[simp] theorem State.setEng_ret (i : Nat) (x : EngSt) : (s.setEng i x).ret = s.ret := (rfl)
@[simp] theorem State.setEng_retBytes (i : Nat) (x : EngSt) : (s.setEng i x).retBytes = s.retBytes := (rfl)
@[simp] theorem State.setEng_retBad (i : Nat) (x : EngSt) : (s.setEng i x).retBad = s.retBad := (rfl)
@[simp] theorem State.setEng_cores (i : Nat) (x : EngSt) : (s.setEng i x).cores = s.cores := (rfl)
@[simp] theorem State.setEng_clusters (i : Nat) (x : EngSt) : (s.setEng i x).clusters = s.clusters := (rfl)
@[simp] theorem State.setEng_flights (i : Nat) (x : EngSt) : (s.setEng i x).flights = s.flights := (rfl)
@[simp] theorem State.setEng_fetches (i : Nat) (x : EngSt) : (s.setEng i x).fetches = s.fetches := (rfl)
@[simp] theorem State.setEng_garnet (i : Nat) (x : EngSt) : (s.setEng i x).garnet = s.garnet := (rfl)
@[simp] theorem State.setEng_marks (i : Nat) (x : EngSt) : (s.setEng i x).marks = s.marks := (rfl)
@[simp] theorem State.setEng_lastEvent (i : Nat) (x : EngSt) : (s.setEng i x).lastEvent = s.lastEvent := (rfl)
@[simp] theorem State.setEng_abandonCause (i : Nat) (x : EngSt) : (s.setEng i x).abandonCause = s.abandonCause := (rfl)
@[simp] theorem State.setEng_mem (i : Nat) (x : EngSt) : (s.setEng i x).mem = s.mem := (rfl)
@[simp] theorem State.setEng_chk (i : Nat) (x : EngSt) : (s.setEng i x).chk = s.chk := (rfl)
@[simp] theorem State.setEng_chans (i : Nat) (x : EngSt) : (s.setEng i x).chans = s.chans := (rfl)
@[simp] theorem State.setEng_stackTab (i : Nat) (x : EngSt) : (s.setEng i x).stackTab = s.stackTab := (rfl)
@[simp] theorem State.setEng_place (i : Nat) (x : EngSt) : (s.setEng i x).place = s.place := (rfl)
@[simp] theorem State.setEng_host (i : Nat) (x : EngSt) : (s.setEng i x).host = s.host := (rfl)
@[simp] theorem State.setEng_hostq (i : Nat) (x : EngSt) : (s.setEng i x).hostq = s.hostq := (rfl)
@[simp] theorem State.setEng_flash (i : Nat) (x : EngSt) : (s.setEng i x).flash = s.flash := (rfl)
@[simp] theorem State.setEng_link (i : Nat) (x : EngSt) : (s.setEng i x).link = s.link := (rfl)
@[simp] theorem State.setEng_boot (i : Nat) (x : EngSt) : (s.setEng i x).boot = s.boot := (rfl)
@[simp] theorem State.setEng_power (i : Nat) (x : EngSt) : (s.setEng i x).power = s.power := (rfl)
@[simp] theorem State.setEng_intake (i : Nat) (x : EngSt) : (s.setEng i x).intake = s.intake := (rfl)
@[simp] theorem State.setEng_jsp (i : Nat) (x : EngSt) : (s.setEng i x).jsp = s.jsp := (rfl)
@[simp] theorem State.setEng_outs (i : Nat) (x : EngSt) : (s.setEng i x).outs = s.outs := (rfl)
@[simp] theorem State.setEng_rd (i : Nat) (x : EngSt) (a : Nat) : (s.setEng i x).rd a = s.rd a := (rfl)
@[simp] theorem State.setEng_fld (i : Nat) (x : EngSt) (f : Fld) : (s.setEng i x).fld f = s.fld f := (rfl)
@[simp] theorem State.setEng_inForce (i : Nat) (x : EngSt) (f : Fld) : (s.setEng i x).inForce f = s.inForce f := (rfl)
@[simp] theorem State.setEng_ctr (i : Nat) (x : EngSt) (a : Nat) : (s.setEng i x).ctr a = s.ctr a := (rfl)
@[simp] theorem State.setEng_core (i : Nat) (x : EngSt) (c : Nat) : (s.setEng i x).core c = s.core c := (rfl)
@[simp] theorem State.setEng_cluster (i : Nat) (x : EngSt) (k : Nat) : (s.setEng i x).cluster k = s.cluster k := (rfl)

/-! ### `modEng` -/

@[simp] theorem State.modEng_pending (i : Nat) (x : EngSt → EngSt) : (s.modEng i x).pending = s.pending := (rfl)
@[simp] theorem State.modEng_now (i : Nat) (x : EngSt → EngSt) : (s.modEng i x).now = s.now := (rfl)
@[simp] theorem State.modEng_free (i : Nat) (x : EngSt → EngSt) : (s.modEng i x).free = s.free := (rfl)
@[simp] theorem State.modEng_regs (i : Nat) (x : EngSt → EngSt) : (s.modEng i x).regs = s.regs := (rfl)
@[simp] theorem State.modEng_rcMgmt (i : Nat) (x : EngSt → EngSt) : (s.modEng i x).rcMgmt = s.rcMgmt := (rfl)
@[simp] theorem State.modEng_ctrs (i : Nat) (x : EngSt → EngSt) : (s.modEng i x).ctrs = s.ctrs := (rfl)
@[simp] theorem State.modEng_latchHost (i : Nat) (x : EngSt → EngSt) : (s.modEng i x).latchHost = s.latchHost := (rfl)
@[simp] theorem State.modEng_latchMgmt (i : Nat) (x : EngSt → EngSt) : (s.modEng i x).latchMgmt = s.latchMgmt := (rfl)
@[simp] theorem State.modEng_held (i : Nat) (x : EngSt → EngSt) : (s.modEng i x).held = s.held := (rfl)
@[simp] theorem State.modEng_ret (i : Nat) (x : EngSt → EngSt) : (s.modEng i x).ret = s.ret := (rfl)
@[simp] theorem State.modEng_retBytes (i : Nat) (x : EngSt → EngSt) : (s.modEng i x).retBytes = s.retBytes := (rfl)
@[simp] theorem State.modEng_retBad (i : Nat) (x : EngSt → EngSt) : (s.modEng i x).retBad = s.retBad := (rfl)
@[simp] theorem State.modEng_cores (i : Nat) (x : EngSt → EngSt) : (s.modEng i x).cores = s.cores := (rfl)
@[simp] theorem State.modEng_clusters (i : Nat) (x : EngSt → EngSt) : (s.modEng i x).clusters = s.clusters := (rfl)
@[simp] theorem State.modEng_flights (i : Nat) (x : EngSt → EngSt) : (s.modEng i x).flights = s.flights := (rfl)
@[simp] theorem State.modEng_fetches (i : Nat) (x : EngSt → EngSt) : (s.modEng i x).fetches = s.fetches := (rfl)
@[simp] theorem State.modEng_garnet (i : Nat) (x : EngSt → EngSt) : (s.modEng i x).garnet = s.garnet := (rfl)
@[simp] theorem State.modEng_marks (i : Nat) (x : EngSt → EngSt) : (s.modEng i x).marks = s.marks := (rfl)
@[simp] theorem State.modEng_lastEvent (i : Nat) (x : EngSt → EngSt) : (s.modEng i x).lastEvent = s.lastEvent := (rfl)
@[simp] theorem State.modEng_abandonCause (i : Nat) (x : EngSt → EngSt) : (s.modEng i x).abandonCause = s.abandonCause := (rfl)
@[simp] theorem State.modEng_mem (i : Nat) (x : EngSt → EngSt) : (s.modEng i x).mem = s.mem := (rfl)
@[simp] theorem State.modEng_chk (i : Nat) (x : EngSt → EngSt) : (s.modEng i x).chk = s.chk := (rfl)
@[simp] theorem State.modEng_chans (i : Nat) (x : EngSt → EngSt) : (s.modEng i x).chans = s.chans := (rfl)
@[simp] theorem State.modEng_stackTab (i : Nat) (x : EngSt → EngSt) : (s.modEng i x).stackTab = s.stackTab := (rfl)
@[simp] theorem State.modEng_place (i : Nat) (x : EngSt → EngSt) : (s.modEng i x).place = s.place := (rfl)
@[simp] theorem State.modEng_host (i : Nat) (x : EngSt → EngSt) : (s.modEng i x).host = s.host := (rfl)
@[simp] theorem State.modEng_hostq (i : Nat) (x : EngSt → EngSt) : (s.modEng i x).hostq = s.hostq := (rfl)
@[simp] theorem State.modEng_flash (i : Nat) (x : EngSt → EngSt) : (s.modEng i x).flash = s.flash := (rfl)
@[simp] theorem State.modEng_link (i : Nat) (x : EngSt → EngSt) : (s.modEng i x).link = s.link := (rfl)
@[simp] theorem State.modEng_boot (i : Nat) (x : EngSt → EngSt) : (s.modEng i x).boot = s.boot := (rfl)
@[simp] theorem State.modEng_power (i : Nat) (x : EngSt → EngSt) : (s.modEng i x).power = s.power := (rfl)
@[simp] theorem State.modEng_intake (i : Nat) (x : EngSt → EngSt) : (s.modEng i x).intake = s.intake := (rfl)
@[simp] theorem State.modEng_jsp (i : Nat) (x : EngSt → EngSt) : (s.modEng i x).jsp = s.jsp := (rfl)
@[simp] theorem State.modEng_outs (i : Nat) (x : EngSt → EngSt) : (s.modEng i x).outs = s.outs := (rfl)
@[simp] theorem State.modEng_rd (i : Nat) (x : EngSt → EngSt) (a : Nat) : (s.modEng i x).rd a = s.rd a := (rfl)
@[simp] theorem State.modEng_fld (i : Nat) (x : EngSt → EngSt) (f : Fld) : (s.modEng i x).fld f = s.fld f := (rfl)
@[simp] theorem State.modEng_inForce (i : Nat) (x : EngSt → EngSt) (f : Fld) : (s.modEng i x).inForce f = s.inForce f := (rfl)
@[simp] theorem State.modEng_ctr (i : Nat) (x : EngSt → EngSt) (a : Nat) : (s.modEng i x).ctr a = s.ctr a := (rfl)
@[simp] theorem State.modEng_core (i : Nat) (x : EngSt → EngSt) (c : Nat) : (s.modEng i x).core c = s.core c := (rfl)
@[simp] theorem State.modEng_cluster (i : Nat) (x : EngSt → EngSt) (k : Nat) : (s.modEng i x).cluster k = s.cluster k := (rfl)

/-! ### `setCluster` -/

@[simp] theorem State.setCluster_pending (i : Nat) (x : ClusterSt) : (s.setCluster i x).pending = s.pending := (rfl)
@[simp] theorem State.setCluster_now (i : Nat) (x : ClusterSt) : (s.setCluster i x).now = s.now := (rfl)
@[simp] theorem State.setCluster_free (i : Nat) (x : ClusterSt) : (s.setCluster i x).free = s.free := (rfl)
@[simp] theorem State.setCluster_regs (i : Nat) (x : ClusterSt) : (s.setCluster i x).regs = s.regs := (rfl)
@[simp] theorem State.setCluster_rcMgmt (i : Nat) (x : ClusterSt) : (s.setCluster i x).rcMgmt = s.rcMgmt := (rfl)
@[simp] theorem State.setCluster_ctrs (i : Nat) (x : ClusterSt) : (s.setCluster i x).ctrs = s.ctrs := (rfl)
@[simp] theorem State.setCluster_latchHost (i : Nat) (x : ClusterSt) : (s.setCluster i x).latchHost = s.latchHost := (rfl)
@[simp] theorem State.setCluster_latchMgmt (i : Nat) (x : ClusterSt) : (s.setCluster i x).latchMgmt = s.latchMgmt := (rfl)
@[simp] theorem State.setCluster_held (i : Nat) (x : ClusterSt) : (s.setCluster i x).held = s.held := (rfl)
@[simp] theorem State.setCluster_ret (i : Nat) (x : ClusterSt) : (s.setCluster i x).ret = s.ret := (rfl)
@[simp] theorem State.setCluster_retBytes (i : Nat) (x : ClusterSt) : (s.setCluster i x).retBytes = s.retBytes := (rfl)
@[simp] theorem State.setCluster_retBad (i : Nat) (x : ClusterSt) : (s.setCluster i x).retBad = s.retBad := (rfl)
@[simp] theorem State.setCluster_cores (i : Nat) (x : ClusterSt) : (s.setCluster i x).cores = s.cores := (rfl)
@[simp] theorem State.setCluster_engs (i : Nat) (x : ClusterSt) : (s.setCluster i x).engs = s.engs := (rfl)
@[simp] theorem State.setCluster_flights (i : Nat) (x : ClusterSt) : (s.setCluster i x).flights = s.flights := (rfl)
@[simp] theorem State.setCluster_fetches (i : Nat) (x : ClusterSt) : (s.setCluster i x).fetches = s.fetches := (rfl)
@[simp] theorem State.setCluster_garnet (i : Nat) (x : ClusterSt) : (s.setCluster i x).garnet = s.garnet := (rfl)
@[simp] theorem State.setCluster_marks (i : Nat) (x : ClusterSt) : (s.setCluster i x).marks = s.marks := (rfl)
@[simp] theorem State.setCluster_lastEvent (i : Nat) (x : ClusterSt) : (s.setCluster i x).lastEvent = s.lastEvent := (rfl)
@[simp] theorem State.setCluster_abandonCause (i : Nat) (x : ClusterSt) : (s.setCluster i x).abandonCause = s.abandonCause := (rfl)
@[simp] theorem State.setCluster_mem (i : Nat) (x : ClusterSt) : (s.setCluster i x).mem = s.mem := (rfl)
@[simp] theorem State.setCluster_chk (i : Nat) (x : ClusterSt) : (s.setCluster i x).chk = s.chk := (rfl)
@[simp] theorem State.setCluster_chans (i : Nat) (x : ClusterSt) : (s.setCluster i x).chans = s.chans := (rfl)
@[simp] theorem State.setCluster_stackTab (i : Nat) (x : ClusterSt) : (s.setCluster i x).stackTab = s.stackTab := (rfl)
@[simp] theorem State.setCluster_place (i : Nat) (x : ClusterSt) : (s.setCluster i x).place = s.place := (rfl)
@[simp] theorem State.setCluster_host (i : Nat) (x : ClusterSt) : (s.setCluster i x).host = s.host := (rfl)
@[simp] theorem State.setCluster_hostq (i : Nat) (x : ClusterSt) : (s.setCluster i x).hostq = s.hostq := (rfl)
@[simp] theorem State.setCluster_flash (i : Nat) (x : ClusterSt) : (s.setCluster i x).flash = s.flash := (rfl)
@[simp] theorem State.setCluster_link (i : Nat) (x : ClusterSt) : (s.setCluster i x).link = s.link := (rfl)
@[simp] theorem State.setCluster_boot (i : Nat) (x : ClusterSt) : (s.setCluster i x).boot = s.boot := (rfl)
@[simp] theorem State.setCluster_power (i : Nat) (x : ClusterSt) : (s.setCluster i x).power = s.power := (rfl)
@[simp] theorem State.setCluster_intake (i : Nat) (x : ClusterSt) : (s.setCluster i x).intake = s.intake := (rfl)
@[simp] theorem State.setCluster_jsp (i : Nat) (x : ClusterSt) : (s.setCluster i x).jsp = s.jsp := (rfl)
@[simp] theorem State.setCluster_outs (i : Nat) (x : ClusterSt) : (s.setCluster i x).outs = s.outs := (rfl)
@[simp] theorem State.setCluster_rd (i : Nat) (x : ClusterSt) (a : Nat) : (s.setCluster i x).rd a = s.rd a := (rfl)
@[simp] theorem State.setCluster_fld (i : Nat) (x : ClusterSt) (f : Fld) : (s.setCluster i x).fld f = s.fld f := (rfl)
@[simp] theorem State.setCluster_inForce (i : Nat) (x : ClusterSt) (f : Fld) : (s.setCluster i x).inForce f = s.inForce f := (rfl)
@[simp] theorem State.setCluster_ctr (i : Nat) (x : ClusterSt) (a : Nat) : (s.setCluster i x).ctr a = s.ctr a := (rfl)
@[simp] theorem State.setCluster_core (i : Nat) (x : ClusterSt) (c : Nat) : (s.setCluster i x).core c = s.core c := (rfl)
@[simp] theorem State.setCluster_eng (i : Nat) (x : ClusterSt) (g : Nat) : (s.setCluster i x).eng g = s.eng g := (rfl)

/-! ### `modCluster` -/

@[simp] theorem State.modCluster_pending (i : Nat) (x : ClusterSt → ClusterSt) : (s.modCluster i x).pending = s.pending := (rfl)
@[simp] theorem State.modCluster_now (i : Nat) (x : ClusterSt → ClusterSt) : (s.modCluster i x).now = s.now := (rfl)
@[simp] theorem State.modCluster_free (i : Nat) (x : ClusterSt → ClusterSt) : (s.modCluster i x).free = s.free := (rfl)
@[simp] theorem State.modCluster_regs (i : Nat) (x : ClusterSt → ClusterSt) : (s.modCluster i x).regs = s.regs := (rfl)
@[simp] theorem State.modCluster_rcMgmt (i : Nat) (x : ClusterSt → ClusterSt) : (s.modCluster i x).rcMgmt = s.rcMgmt := (rfl)
@[simp] theorem State.modCluster_ctrs (i : Nat) (x : ClusterSt → ClusterSt) : (s.modCluster i x).ctrs = s.ctrs := (rfl)
@[simp] theorem State.modCluster_latchHost (i : Nat) (x : ClusterSt → ClusterSt) : (s.modCluster i x).latchHost = s.latchHost := (rfl)
@[simp] theorem State.modCluster_latchMgmt (i : Nat) (x : ClusterSt → ClusterSt) : (s.modCluster i x).latchMgmt = s.latchMgmt := (rfl)
@[simp] theorem State.modCluster_held (i : Nat) (x : ClusterSt → ClusterSt) : (s.modCluster i x).held = s.held := (rfl)
@[simp] theorem State.modCluster_ret (i : Nat) (x : ClusterSt → ClusterSt) : (s.modCluster i x).ret = s.ret := (rfl)
@[simp] theorem State.modCluster_retBytes (i : Nat) (x : ClusterSt → ClusterSt) : (s.modCluster i x).retBytes = s.retBytes := (rfl)
@[simp] theorem State.modCluster_retBad (i : Nat) (x : ClusterSt → ClusterSt) : (s.modCluster i x).retBad = s.retBad := (rfl)
@[simp] theorem State.modCluster_cores (i : Nat) (x : ClusterSt → ClusterSt) : (s.modCluster i x).cores = s.cores := (rfl)
@[simp] theorem State.modCluster_engs (i : Nat) (x : ClusterSt → ClusterSt) : (s.modCluster i x).engs = s.engs := (rfl)
@[simp] theorem State.modCluster_flights (i : Nat) (x : ClusterSt → ClusterSt) : (s.modCluster i x).flights = s.flights := (rfl)
@[simp] theorem State.modCluster_fetches (i : Nat) (x : ClusterSt → ClusterSt) : (s.modCluster i x).fetches = s.fetches := (rfl)
@[simp] theorem State.modCluster_garnet (i : Nat) (x : ClusterSt → ClusterSt) : (s.modCluster i x).garnet = s.garnet := (rfl)
@[simp] theorem State.modCluster_marks (i : Nat) (x : ClusterSt → ClusterSt) : (s.modCluster i x).marks = s.marks := (rfl)
@[simp] theorem State.modCluster_lastEvent (i : Nat) (x : ClusterSt → ClusterSt) : (s.modCluster i x).lastEvent = s.lastEvent := (rfl)
@[simp] theorem State.modCluster_abandonCause (i : Nat) (x : ClusterSt → ClusterSt) : (s.modCluster i x).abandonCause = s.abandonCause := (rfl)
@[simp] theorem State.modCluster_mem (i : Nat) (x : ClusterSt → ClusterSt) : (s.modCluster i x).mem = s.mem := (rfl)
@[simp] theorem State.modCluster_chk (i : Nat) (x : ClusterSt → ClusterSt) : (s.modCluster i x).chk = s.chk := (rfl)
@[simp] theorem State.modCluster_chans (i : Nat) (x : ClusterSt → ClusterSt) : (s.modCluster i x).chans = s.chans := (rfl)
@[simp] theorem State.modCluster_stackTab (i : Nat) (x : ClusterSt → ClusterSt) : (s.modCluster i x).stackTab = s.stackTab := (rfl)
@[simp] theorem State.modCluster_place (i : Nat) (x : ClusterSt → ClusterSt) : (s.modCluster i x).place = s.place := (rfl)
@[simp] theorem State.modCluster_host (i : Nat) (x : ClusterSt → ClusterSt) : (s.modCluster i x).host = s.host := (rfl)
@[simp] theorem State.modCluster_hostq (i : Nat) (x : ClusterSt → ClusterSt) : (s.modCluster i x).hostq = s.hostq := (rfl)
@[simp] theorem State.modCluster_flash (i : Nat) (x : ClusterSt → ClusterSt) : (s.modCluster i x).flash = s.flash := (rfl)
@[simp] theorem State.modCluster_link (i : Nat) (x : ClusterSt → ClusterSt) : (s.modCluster i x).link = s.link := (rfl)
@[simp] theorem State.modCluster_boot (i : Nat) (x : ClusterSt → ClusterSt) : (s.modCluster i x).boot = s.boot := (rfl)
@[simp] theorem State.modCluster_power (i : Nat) (x : ClusterSt → ClusterSt) : (s.modCluster i x).power = s.power := (rfl)
@[simp] theorem State.modCluster_intake (i : Nat) (x : ClusterSt → ClusterSt) : (s.modCluster i x).intake = s.intake := (rfl)
@[simp] theorem State.modCluster_jsp (i : Nat) (x : ClusterSt → ClusterSt) : (s.modCluster i x).jsp = s.jsp := (rfl)
@[simp] theorem State.modCluster_outs (i : Nat) (x : ClusterSt → ClusterSt) : (s.modCluster i x).outs = s.outs := (rfl)
@[simp] theorem State.modCluster_rd (i : Nat) (x : ClusterSt → ClusterSt) (a : Nat) : (s.modCluster i x).rd a = s.rd a := (rfl)
@[simp] theorem State.modCluster_fld (i : Nat) (x : ClusterSt → ClusterSt) (f : Fld) : (s.modCluster i x).fld f = s.fld f := (rfl)
@[simp] theorem State.modCluster_inForce (i : Nat) (x : ClusterSt → ClusterSt) (f : Fld) : (s.modCluster i x).inForce f = s.inForce f := (rfl)
@[simp] theorem State.modCluster_ctr (i : Nat) (x : ClusterSt → ClusterSt) (a : Nat) : (s.modCluster i x).ctr a = s.ctr a := (rfl)
@[simp] theorem State.modCluster_core (i : Nat) (x : ClusterSt → ClusterSt) (c : Nat) : (s.modCluster i x).core c = s.core c := (rfl)
@[simp] theorem State.modCluster_eng (i : Nat) (x : ClusterSt → ClusterSt) (g : Nat) : (s.modCluster i x).eng g = s.eng g := (rfl)

/-! ### `out` -/

@[simp] theorem State.out_pending (e : OutEv) : (s.out e).pending = s.pending := (rfl)
@[simp] theorem State.out_now (e : OutEv) : (s.out e).now = s.now := (rfl)
@[simp] theorem State.out_free (e : OutEv) : (s.out e).free = s.free := (rfl)
@[simp] theorem State.out_regs (e : OutEv) : (s.out e).regs = s.regs := (rfl)
@[simp] theorem State.out_rcMgmt (e : OutEv) : (s.out e).rcMgmt = s.rcMgmt := (rfl)
@[simp] theorem State.out_ctrs (e : OutEv) : (s.out e).ctrs = s.ctrs := (rfl)
@[simp] theorem State.out_latchHost (e : OutEv) : (s.out e).latchHost = s.latchHost := (rfl)
@[simp] theorem State.out_latchMgmt (e : OutEv) : (s.out e).latchMgmt = s.latchMgmt := (rfl)
@[simp] theorem State.out_held (e : OutEv) : (s.out e).held = s.held := (rfl)
@[simp] theorem State.out_ret (e : OutEv) : (s.out e).ret = s.ret := (rfl)
@[simp] theorem State.out_retBytes (e : OutEv) : (s.out e).retBytes = s.retBytes := (rfl)
@[simp] theorem State.out_retBad (e : OutEv) : (s.out e).retBad = s.retBad := (rfl)
@[simp] theorem State.out_cores (e : OutEv) : (s.out e).cores = s.cores := (rfl)
@[simp] theorem State.out_engs (e : OutEv) : (s.out e).engs = s.engs := (rfl)
@[simp] theorem State.out_clusters (e : OutEv) : (s.out e).clusters = s.clusters := (rfl)
@[simp] theorem State.out_flights (e : OutEv) : (s.out e).flights = s.flights := (rfl)
@[simp] theorem State.out_fetches (e : OutEv) : (s.out e).fetches = s.fetches := (rfl)
@[simp] theorem State.out_garnet (e : OutEv) : (s.out e).garnet = s.garnet := (rfl)
@[simp] theorem State.out_marks (e : OutEv) : (s.out e).marks = s.marks := (rfl)
@[simp] theorem State.out_lastEvent (e : OutEv) : (s.out e).lastEvent = s.lastEvent := (rfl)
@[simp] theorem State.out_abandonCause (e : OutEv) : (s.out e).abandonCause = s.abandonCause := (rfl)
@[simp] theorem State.out_mem (e : OutEv) : (s.out e).mem = s.mem := (rfl)
@[simp] theorem State.out_chk (e : OutEv) : (s.out e).chk = s.chk := (rfl)
@[simp] theorem State.out_chans (e : OutEv) : (s.out e).chans = s.chans := (rfl)
@[simp] theorem State.out_stackTab (e : OutEv) : (s.out e).stackTab = s.stackTab := (rfl)
@[simp] theorem State.out_place (e : OutEv) : (s.out e).place = s.place := (rfl)
@[simp] theorem State.out_host (e : OutEv) : (s.out e).host = s.host := (rfl)
@[simp] theorem State.out_hostq (e : OutEv) : (s.out e).hostq = s.hostq := (rfl)
@[simp] theorem State.out_flash (e : OutEv) : (s.out e).flash = s.flash := (rfl)
@[simp] theorem State.out_link (e : OutEv) : (s.out e).link = s.link := (rfl)
@[simp] theorem State.out_boot (e : OutEv) : (s.out e).boot = s.boot := (rfl)
@[simp] theorem State.out_power (e : OutEv) : (s.out e).power = s.power := (rfl)
@[simp] theorem State.out_intake (e : OutEv) : (s.out e).intake = s.intake := (rfl)
@[simp] theorem State.out_jsp (e : OutEv) : (s.out e).jsp = s.jsp := (rfl)
@[simp] theorem State.out_rd (e : OutEv) (a : Nat) : (s.out e).rd a = s.rd a := (rfl)
@[simp] theorem State.out_fld (e : OutEv) (f : Fld) : (s.out e).fld f = s.fld f := (rfl)
@[simp] theorem State.out_inForce (e : OutEv) (f : Fld) : (s.out e).inForce f = s.inForce f := (rfl)
@[simp] theorem State.out_ctr (e : OutEv) (a : Nat) : (s.out e).ctr a = s.ctr a := (rfl)
@[simp] theorem State.out_core (e : OutEv) (c : Nat) : (s.out e).core c = s.core c := (rfl)
@[simp] theorem State.out_eng (e : OutEv) (g : Nat) : (s.out e).eng g = s.eng g := (rfl)
@[simp] theorem State.out_cluster (e : OutEv) (k : Nat) : (s.out e).cluster k = s.cluster k := (rfl)

/-! ### `modPlace` -/

@[simp] theorem State.modPlace_pending (x : PlaceSt → PlaceSt) : (s.modPlace x).pending = s.pending := (rfl)
@[simp] theorem State.modPlace_now (x : PlaceSt → PlaceSt) : (s.modPlace x).now = s.now := (rfl)
@[simp] theorem State.modPlace_free (x : PlaceSt → PlaceSt) : (s.modPlace x).free = s.free := (rfl)
@[simp] theorem State.modPlace_regs (x : PlaceSt → PlaceSt) : (s.modPlace x).regs = s.regs := (rfl)
@[simp] theorem State.modPlace_rcMgmt (x : PlaceSt → PlaceSt) : (s.modPlace x).rcMgmt = s.rcMgmt := (rfl)
@[simp] theorem State.modPlace_ctrs (x : PlaceSt → PlaceSt) : (s.modPlace x).ctrs = s.ctrs := (rfl)
@[simp] theorem State.modPlace_latchHost (x : PlaceSt → PlaceSt) : (s.modPlace x).latchHost = s.latchHost := (rfl)
@[simp] theorem State.modPlace_latchMgmt (x : PlaceSt → PlaceSt) : (s.modPlace x).latchMgmt = s.latchMgmt := (rfl)
@[simp] theorem State.modPlace_held (x : PlaceSt → PlaceSt) : (s.modPlace x).held = s.held := (rfl)
@[simp] theorem State.modPlace_ret (x : PlaceSt → PlaceSt) : (s.modPlace x).ret = s.ret := (rfl)
@[simp] theorem State.modPlace_retBytes (x : PlaceSt → PlaceSt) : (s.modPlace x).retBytes = s.retBytes := (rfl)
@[simp] theorem State.modPlace_retBad (x : PlaceSt → PlaceSt) : (s.modPlace x).retBad = s.retBad := (rfl)
@[simp] theorem State.modPlace_cores (x : PlaceSt → PlaceSt) : (s.modPlace x).cores = s.cores := (rfl)
@[simp] theorem State.modPlace_engs (x : PlaceSt → PlaceSt) : (s.modPlace x).engs = s.engs := (rfl)
@[simp] theorem State.modPlace_clusters (x : PlaceSt → PlaceSt) : (s.modPlace x).clusters = s.clusters := (rfl)
@[simp] theorem State.modPlace_flights (x : PlaceSt → PlaceSt) : (s.modPlace x).flights = s.flights := (rfl)
@[simp] theorem State.modPlace_fetches (x : PlaceSt → PlaceSt) : (s.modPlace x).fetches = s.fetches := (rfl)
@[simp] theorem State.modPlace_garnet (x : PlaceSt → PlaceSt) : (s.modPlace x).garnet = s.garnet := (rfl)
@[simp] theorem State.modPlace_marks (x : PlaceSt → PlaceSt) : (s.modPlace x).marks = s.marks := (rfl)
@[simp] theorem State.modPlace_lastEvent (x : PlaceSt → PlaceSt) : (s.modPlace x).lastEvent = s.lastEvent := (rfl)
@[simp] theorem State.modPlace_abandonCause (x : PlaceSt → PlaceSt) : (s.modPlace x).abandonCause = s.abandonCause := (rfl)
@[simp] theorem State.modPlace_mem (x : PlaceSt → PlaceSt) : (s.modPlace x).mem = s.mem := (rfl)
@[simp] theorem State.modPlace_chk (x : PlaceSt → PlaceSt) : (s.modPlace x).chk = s.chk := (rfl)
@[simp] theorem State.modPlace_chans (x : PlaceSt → PlaceSt) : (s.modPlace x).chans = s.chans := (rfl)
@[simp] theorem State.modPlace_stackTab (x : PlaceSt → PlaceSt) : (s.modPlace x).stackTab = s.stackTab := (rfl)
@[simp] theorem State.modPlace_host (x : PlaceSt → PlaceSt) : (s.modPlace x).host = s.host := (rfl)
@[simp] theorem State.modPlace_hostq (x : PlaceSt → PlaceSt) : (s.modPlace x).hostq = s.hostq := (rfl)
@[simp] theorem State.modPlace_flash (x : PlaceSt → PlaceSt) : (s.modPlace x).flash = s.flash := (rfl)
@[simp] theorem State.modPlace_link (x : PlaceSt → PlaceSt) : (s.modPlace x).link = s.link := (rfl)
@[simp] theorem State.modPlace_boot (x : PlaceSt → PlaceSt) : (s.modPlace x).boot = s.boot := (rfl)
@[simp] theorem State.modPlace_power (x : PlaceSt → PlaceSt) : (s.modPlace x).power = s.power := (rfl)
@[simp] theorem State.modPlace_intake (x : PlaceSt → PlaceSt) : (s.modPlace x).intake = s.intake := (rfl)
@[simp] theorem State.modPlace_jsp (x : PlaceSt → PlaceSt) : (s.modPlace x).jsp = s.jsp := (rfl)
@[simp] theorem State.modPlace_outs (x : PlaceSt → PlaceSt) : (s.modPlace x).outs = s.outs := (rfl)
@[simp] theorem State.modPlace_rd (x : PlaceSt → PlaceSt) (a : Nat) : (s.modPlace x).rd a = s.rd a := (rfl)
@[simp] theorem State.modPlace_fld (x : PlaceSt → PlaceSt) (f : Fld) : (s.modPlace x).fld f = s.fld f := (rfl)
@[simp] theorem State.modPlace_inForce (x : PlaceSt → PlaceSt) (f : Fld) : (s.modPlace x).inForce f = s.inForce f := (rfl)
@[simp] theorem State.modPlace_ctr (x : PlaceSt → PlaceSt) (a : Nat) : (s.modPlace x).ctr a = s.ctr a := (rfl)
@[simp] theorem State.modPlace_core (x : PlaceSt → PlaceSt) (c : Nat) : (s.modPlace x).core c = s.core c := (rfl)
@[simp] theorem State.modPlace_eng (x : PlaceSt → PlaceSt) (g : Nat) : (s.modPlace x).eng g = s.eng g := (rfl)
@[simp] theorem State.modPlace_cluster (x : PlaceSt → PlaceSt) (k : Nat) : (s.modPlace x).cluster k = s.cluster k := (rfl)

/-! ### `modMarks` -/

@[simp] theorem State.modMarks_pending (x : Marks → Marks) : (s.modMarks x).pending = s.pending := (rfl)
@[simp] theorem State.modMarks_now (x : Marks → Marks) : (s.modMarks x).now = s.now := (rfl)
@[simp] theorem State.modMarks_free (x : Marks → Marks) : (s.modMarks x).free = s.free := (rfl)
@[simp] theorem State.modMarks_regs (x : Marks → Marks) : (s.modMarks x).regs = s.regs := (rfl)
@[simp] theorem State.modMarks_rcMgmt (x : Marks → Marks) : (s.modMarks x).rcMgmt = s.rcMgmt := (rfl)
@[simp] theorem State.modMarks_ctrs (x : Marks → Marks) : (s.modMarks x).ctrs = s.ctrs := (rfl)
@[simp] theorem State.modMarks_latchHost (x : Marks → Marks) : (s.modMarks x).latchHost = s.latchHost := (rfl)
@[simp] theorem State.modMarks_latchMgmt (x : Marks → Marks) : (s.modMarks x).latchMgmt = s.latchMgmt := (rfl)
@[simp] theorem State.modMarks_held (x : Marks → Marks) : (s.modMarks x).held = s.held := (rfl)
@[simp] theorem State.modMarks_ret (x : Marks → Marks) : (s.modMarks x).ret = s.ret := (rfl)
@[simp] theorem State.modMarks_retBytes (x : Marks → Marks) : (s.modMarks x).retBytes = s.retBytes := (rfl)
@[simp] theorem State.modMarks_retBad (x : Marks → Marks) : (s.modMarks x).retBad = s.retBad := (rfl)
@[simp] theorem State.modMarks_cores (x : Marks → Marks) : (s.modMarks x).cores = s.cores := (rfl)
@[simp] theorem State.modMarks_engs (x : Marks → Marks) : (s.modMarks x).engs = s.engs := (rfl)
@[simp] theorem State.modMarks_clusters (x : Marks → Marks) : (s.modMarks x).clusters = s.clusters := (rfl)
@[simp] theorem State.modMarks_flights (x : Marks → Marks) : (s.modMarks x).flights = s.flights := (rfl)
@[simp] theorem State.modMarks_fetches (x : Marks → Marks) : (s.modMarks x).fetches = s.fetches := (rfl)
@[simp] theorem State.modMarks_garnet (x : Marks → Marks) : (s.modMarks x).garnet = s.garnet := (rfl)
@[simp] theorem State.modMarks_lastEvent (x : Marks → Marks) : (s.modMarks x).lastEvent = s.lastEvent := (rfl)
@[simp] theorem State.modMarks_abandonCause (x : Marks → Marks) : (s.modMarks x).abandonCause = s.abandonCause := (rfl)
@[simp] theorem State.modMarks_mem (x : Marks → Marks) : (s.modMarks x).mem = s.mem := (rfl)
@[simp] theorem State.modMarks_chk (x : Marks → Marks) : (s.modMarks x).chk = s.chk := (rfl)
@[simp] theorem State.modMarks_chans (x : Marks → Marks) : (s.modMarks x).chans = s.chans := (rfl)
@[simp] theorem State.modMarks_stackTab (x : Marks → Marks) : (s.modMarks x).stackTab = s.stackTab := (rfl)
@[simp] theorem State.modMarks_place (x : Marks → Marks) : (s.modMarks x).place = s.place := (rfl)
@[simp] theorem State.modMarks_host (x : Marks → Marks) : (s.modMarks x).host = s.host := (rfl)
@[simp] theorem State.modMarks_hostq (x : Marks → Marks) : (s.modMarks x).hostq = s.hostq := (rfl)
@[simp] theorem State.modMarks_flash (x : Marks → Marks) : (s.modMarks x).flash = s.flash := (rfl)
@[simp] theorem State.modMarks_link (x : Marks → Marks) : (s.modMarks x).link = s.link := (rfl)
@[simp] theorem State.modMarks_boot (x : Marks → Marks) : (s.modMarks x).boot = s.boot := (rfl)
@[simp] theorem State.modMarks_power (x : Marks → Marks) : (s.modMarks x).power = s.power := (rfl)
@[simp] theorem State.modMarks_intake (x : Marks → Marks) : (s.modMarks x).intake = s.intake := (rfl)
@[simp] theorem State.modMarks_jsp (x : Marks → Marks) : (s.modMarks x).jsp = s.jsp := (rfl)
@[simp] theorem State.modMarks_outs (x : Marks → Marks) : (s.modMarks x).outs = s.outs := (rfl)
@[simp] theorem State.modMarks_rd (x : Marks → Marks) (a : Nat) : (s.modMarks x).rd a = s.rd a := (rfl)
@[simp] theorem State.modMarks_fld (x : Marks → Marks) (f : Fld) : (s.modMarks x).fld f = s.fld f := (rfl)
@[simp] theorem State.modMarks_inForce (x : Marks → Marks) (f : Fld) : (s.modMarks x).inForce f = s.inForce f := (rfl)
@[simp] theorem State.modMarks_ctr (x : Marks → Marks) (a : Nat) : (s.modMarks x).ctr a = s.ctr a := (rfl)
@[simp] theorem State.modMarks_core (x : Marks → Marks) (c : Nat) : (s.modMarks x).core c = s.core c := (rfl)
@[simp] theorem State.modMarks_eng (x : Marks → Marks) (g : Nat) : (s.modMarks x).eng g = s.eng g := (rfl)
@[simp] theorem State.modMarks_cluster (x : Marks → Marks) (k : Nat) : (s.modMarks x).cluster k = s.cluster k := (rfl)

/-! ### `modFlash` -/

@[simp] theorem State.modFlash_pending (x : FlashSt → FlashSt) : (s.modFlash x).pending = s.pending := (rfl)
@[simp] theorem State.modFlash_now (x : FlashSt → FlashSt) : (s.modFlash x).now = s.now := (rfl)
@[simp] theorem State.modFlash_free (x : FlashSt → FlashSt) : (s.modFlash x).free = s.free := (rfl)
@[simp] theorem State.modFlash_regs (x : FlashSt → FlashSt) : (s.modFlash x).regs = s.regs := (rfl)
@[simp] theorem State.modFlash_rcMgmt (x : FlashSt → FlashSt) : (s.modFlash x).rcMgmt = s.rcMgmt := (rfl)
@[simp] theorem State.modFlash_ctrs (x : FlashSt → FlashSt) : (s.modFlash x).ctrs = s.ctrs := (rfl)
@[simp] theorem State.modFlash_latchHost (x : FlashSt → FlashSt) : (s.modFlash x).latchHost = s.latchHost := (rfl)
@[simp] theorem State.modFlash_latchMgmt (x : FlashSt → FlashSt) : (s.modFlash x).latchMgmt = s.latchMgmt := (rfl)
@[simp] theorem State.modFlash_held (x : FlashSt → FlashSt) : (s.modFlash x).held = s.held := (rfl)
@[simp] theorem State.modFlash_ret (x : FlashSt → FlashSt) : (s.modFlash x).ret = s.ret := (rfl)
@[simp] theorem State.modFlash_retBytes (x : FlashSt → FlashSt) : (s.modFlash x).retBytes = s.retBytes := (rfl)
@[simp] theorem State.modFlash_retBad (x : FlashSt → FlashSt) : (s.modFlash x).retBad = s.retBad := (rfl)
@[simp] theorem State.modFlash_cores (x : FlashSt → FlashSt) : (s.modFlash x).cores = s.cores := (rfl)
@[simp] theorem State.modFlash_engs (x : FlashSt → FlashSt) : (s.modFlash x).engs = s.engs := (rfl)
@[simp] theorem State.modFlash_clusters (x : FlashSt → FlashSt) : (s.modFlash x).clusters = s.clusters := (rfl)
@[simp] theorem State.modFlash_flights (x : FlashSt → FlashSt) : (s.modFlash x).flights = s.flights := (rfl)
@[simp] theorem State.modFlash_fetches (x : FlashSt → FlashSt) : (s.modFlash x).fetches = s.fetches := (rfl)
@[simp] theorem State.modFlash_garnet (x : FlashSt → FlashSt) : (s.modFlash x).garnet = s.garnet := (rfl)
@[simp] theorem State.modFlash_marks (x : FlashSt → FlashSt) : (s.modFlash x).marks = s.marks := (rfl)
@[simp] theorem State.modFlash_lastEvent (x : FlashSt → FlashSt) : (s.modFlash x).lastEvent = s.lastEvent := (rfl)
@[simp] theorem State.modFlash_abandonCause (x : FlashSt → FlashSt) : (s.modFlash x).abandonCause = s.abandonCause := (rfl)
@[simp] theorem State.modFlash_mem (x : FlashSt → FlashSt) : (s.modFlash x).mem = s.mem := (rfl)
@[simp] theorem State.modFlash_chk (x : FlashSt → FlashSt) : (s.modFlash x).chk = s.chk := (rfl)
@[simp] theorem State.modFlash_chans (x : FlashSt → FlashSt) : (s.modFlash x).chans = s.chans := (rfl)
@[simp] theorem State.modFlash_stackTab (x : FlashSt → FlashSt) : (s.modFlash x).stackTab = s.stackTab := (rfl)
@[simp] theorem State.modFlash_place (x : FlashSt → FlashSt) : (s.modFlash x).place = s.place := (rfl)
@[simp] theorem State.modFlash_host (x : FlashSt → FlashSt) : (s.modFlash x).host = s.host := (rfl)
@[simp] theorem State.modFlash_hostq (x : FlashSt → FlashSt) : (s.modFlash x).hostq = s.hostq := (rfl)
@[simp] theorem State.modFlash_link (x : FlashSt → FlashSt) : (s.modFlash x).link = s.link := (rfl)
@[simp] theorem State.modFlash_boot (x : FlashSt → FlashSt) : (s.modFlash x).boot = s.boot := (rfl)
@[simp] theorem State.modFlash_power (x : FlashSt → FlashSt) : (s.modFlash x).power = s.power := (rfl)
@[simp] theorem State.modFlash_intake (x : FlashSt → FlashSt) : (s.modFlash x).intake = s.intake := (rfl)
@[simp] theorem State.modFlash_jsp (x : FlashSt → FlashSt) : (s.modFlash x).jsp = s.jsp := (rfl)
@[simp] theorem State.modFlash_outs (x : FlashSt → FlashSt) : (s.modFlash x).outs = s.outs := (rfl)
@[simp] theorem State.modFlash_rd (x : FlashSt → FlashSt) (a : Nat) : (s.modFlash x).rd a = s.rd a := (rfl)
@[simp] theorem State.modFlash_fld (x : FlashSt → FlashSt) (f : Fld) : (s.modFlash x).fld f = s.fld f := (rfl)
@[simp] theorem State.modFlash_inForce (x : FlashSt → FlashSt) (f : Fld) : (s.modFlash x).inForce f = s.inForce f := (rfl)
@[simp] theorem State.modFlash_ctr (x : FlashSt → FlashSt) (a : Nat) : (s.modFlash x).ctr a = s.ctr a := (rfl)
@[simp] theorem State.modFlash_core (x : FlashSt → FlashSt) (c : Nat) : (s.modFlash x).core c = s.core c := (rfl)
@[simp] theorem State.modFlash_eng (x : FlashSt → FlashSt) (g : Nat) : (s.modFlash x).eng g = s.eng g := (rfl)
@[simp] theorem State.modFlash_cluster (x : FlashSt → FlashSt) (k : Nat) : (s.modFlash x).cluster k = s.cluster k := (rfl)

/-! ### `modHost` -/

@[simp] theorem State.modHost_pending (x : HostSt → HostSt) : (s.modHost x).pending = s.pending := (rfl)
@[simp] theorem State.modHost_now (x : HostSt → HostSt) : (s.modHost x).now = s.now := (rfl)
@[simp] theorem State.modHost_free (x : HostSt → HostSt) : (s.modHost x).free = s.free := (rfl)
@[simp] theorem State.modHost_regs (x : HostSt → HostSt) : (s.modHost x).regs = s.regs := (rfl)
@[simp] theorem State.modHost_rcMgmt (x : HostSt → HostSt) : (s.modHost x).rcMgmt = s.rcMgmt := (rfl)
@[simp] theorem State.modHost_ctrs (x : HostSt → HostSt) : (s.modHost x).ctrs = s.ctrs := (rfl)
@[simp] theorem State.modHost_latchHost (x : HostSt → HostSt) : (s.modHost x).latchHost = s.latchHost := (rfl)
@[simp] theorem State.modHost_latchMgmt (x : HostSt → HostSt) : (s.modHost x).latchMgmt = s.latchMgmt := (rfl)
@[simp] theorem State.modHost_held (x : HostSt → HostSt) : (s.modHost x).held = s.held := (rfl)
@[simp] theorem State.modHost_ret (x : HostSt → HostSt) : (s.modHost x).ret = s.ret := (rfl)
@[simp] theorem State.modHost_retBytes (x : HostSt → HostSt) : (s.modHost x).retBytes = s.retBytes := (rfl)
@[simp] theorem State.modHost_retBad (x : HostSt → HostSt) : (s.modHost x).retBad = s.retBad := (rfl)
@[simp] theorem State.modHost_cores (x : HostSt → HostSt) : (s.modHost x).cores = s.cores := (rfl)
@[simp] theorem State.modHost_engs (x : HostSt → HostSt) : (s.modHost x).engs = s.engs := (rfl)
@[simp] theorem State.modHost_clusters (x : HostSt → HostSt) : (s.modHost x).clusters = s.clusters := (rfl)
@[simp] theorem State.modHost_flights (x : HostSt → HostSt) : (s.modHost x).flights = s.flights := (rfl)
@[simp] theorem State.modHost_fetches (x : HostSt → HostSt) : (s.modHost x).fetches = s.fetches := (rfl)
@[simp] theorem State.modHost_garnet (x : HostSt → HostSt) : (s.modHost x).garnet = s.garnet := (rfl)
@[simp] theorem State.modHost_marks (x : HostSt → HostSt) : (s.modHost x).marks = s.marks := (rfl)
@[simp] theorem State.modHost_lastEvent (x : HostSt → HostSt) : (s.modHost x).lastEvent = s.lastEvent := (rfl)
@[simp] theorem State.modHost_abandonCause (x : HostSt → HostSt) : (s.modHost x).abandonCause = s.abandonCause := (rfl)
@[simp] theorem State.modHost_mem (x : HostSt → HostSt) : (s.modHost x).mem = s.mem := (rfl)
@[simp] theorem State.modHost_chk (x : HostSt → HostSt) : (s.modHost x).chk = s.chk := (rfl)
@[simp] theorem State.modHost_chans (x : HostSt → HostSt) : (s.modHost x).chans = s.chans := (rfl)
@[simp] theorem State.modHost_stackTab (x : HostSt → HostSt) : (s.modHost x).stackTab = s.stackTab := (rfl)
@[simp] theorem State.modHost_place (x : HostSt → HostSt) : (s.modHost x).place = s.place := (rfl)
@[simp] theorem State.modHost_host (x : HostSt → HostSt) : (s.modHost x).host = s.host := (rfl)
@[simp] theorem State.modHost_flash (x : HostSt → HostSt) : (s.modHost x).flash = s.flash := (rfl)
@[simp] theorem State.modHost_link (x : HostSt → HostSt) : (s.modHost x).link = s.link := (rfl)
@[simp] theorem State.modHost_boot (x : HostSt → HostSt) : (s.modHost x).boot = s.boot := (rfl)
@[simp] theorem State.modHost_power (x : HostSt → HostSt) : (s.modHost x).power = s.power := (rfl)
@[simp] theorem State.modHost_intake (x : HostSt → HostSt) : (s.modHost x).intake = s.intake := (rfl)
@[simp] theorem State.modHost_jsp (x : HostSt → HostSt) : (s.modHost x).jsp = s.jsp := (rfl)
@[simp] theorem State.modHost_outs (x : HostSt → HostSt) : (s.modHost x).outs = s.outs := (rfl)
@[simp] theorem State.modHost_rd (x : HostSt → HostSt) (a : Nat) : (s.modHost x).rd a = s.rd a := (rfl)
@[simp] theorem State.modHost_fld (x : HostSt → HostSt) (f : Fld) : (s.modHost x).fld f = s.fld f := (rfl)
@[simp] theorem State.modHost_inForce (x : HostSt → HostSt) (f : Fld) : (s.modHost x).inForce f = s.inForce f := (rfl)
@[simp] theorem State.modHost_ctr (x : HostSt → HostSt) (a : Nat) : (s.modHost x).ctr a = s.ctr a := (rfl)
@[simp] theorem State.modHost_core (x : HostSt → HostSt) (c : Nat) : (s.modHost x).core c = s.core c := (rfl)
@[simp] theorem State.modHost_eng (x : HostSt → HostSt) (g : Nat) : (s.modHost x).eng g = s.eng g := (rfl)
@[simp] theorem State.modHost_cluster (x : HostSt → HostSt) (k : Nat) : (s.modHost x).cluster k = s.cluster k := (rfl)

/-! ### `modBoot` -/

@[simp] theorem State.modBoot_pending (x : BootSt → BootSt) : (s.modBoot x).pending = s.pending := (rfl)
@[simp] theorem State.modBoot_now (x : BootSt → BootSt) : (s.modBoot x).now = s.now := (rfl)
@[simp] theorem State.modBoot_free (x : BootSt → BootSt) : (s.modBoot x).free = s.free := (rfl)
@[simp] theorem State.modBoot_regs (x : BootSt → BootSt) : (s.modBoot x).regs = s.regs := (rfl)
@[simp] theorem State.modBoot_rcMgmt (x : BootSt → BootSt) : (s.modBoot x).rcMgmt = s.rcMgmt := (rfl)
@[simp] theorem State.modBoot_ctrs (x : BootSt → BootSt) : (s.modBoot x).ctrs = s.ctrs := (rfl)
@[simp] theorem State.modBoot_latchHost (x : BootSt → BootSt) : (s.modBoot x).latchHost = s.latchHost := (rfl)
@[simp] theorem State.modBoot_latchMgmt (x : BootSt → BootSt) : (s.modBoot x).latchMgmt = s.latchMgmt := (rfl)
@[simp] theorem State.modBoot_held (x : BootSt → BootSt) : (s.modBoot x).held = s.held := (rfl)
@[simp] theorem State.modBoot_ret (x : BootSt → BootSt) : (s.modBoot x).ret = s.ret := (rfl)
@[simp] theorem State.modBoot_retBytes (x : BootSt → BootSt) : (s.modBoot x).retBytes = s.retBytes := (rfl)
@[simp] theorem State.modBoot_retBad (x : BootSt → BootSt) : (s.modBoot x).retBad = s.retBad := (rfl)
@[simp] theorem State.modBoot_cores (x : BootSt → BootSt) : (s.modBoot x).cores = s.cores := (rfl)
@[simp] theorem State.modBoot_engs (x : BootSt → BootSt) : (s.modBoot x).engs = s.engs := (rfl)
@[simp] theorem State.modBoot_clusters (x : BootSt → BootSt) : (s.modBoot x).clusters = s.clusters := (rfl)
@[simp] theorem State.modBoot_flights (x : BootSt → BootSt) : (s.modBoot x).flights = s.flights := (rfl)
@[simp] theorem State.modBoot_fetches (x : BootSt → BootSt) : (s.modBoot x).fetches = s.fetches := (rfl)
@[simp] theorem State.modBoot_garnet (x : BootSt → BootSt) : (s.modBoot x).garnet = s.garnet := (rfl)
@[simp] theorem State.modBoot_marks (x : BootSt → BootSt) : (s.modBoot x).marks = s.marks := (rfl)
@[simp] theorem State.modBoot_lastEvent (x : BootSt → BootSt) : (s.modBoot x).lastEvent = s.lastEvent := (rfl)
@[simp] theorem State.modBoot_abandonCause (x : BootSt → BootSt) : (s.modBoot x).abandonCause = s.abandonCause := (rfl)
@[simp] theorem State.modBoot_mem (x : BootSt → BootSt) : (s.modBoot x).mem = s.mem := (rfl)
@[simp] theorem State.modBoot_chk (x : BootSt → BootSt) : (s.modBoot x).chk = s.chk := (rfl)
@[simp] theorem State.modBoot_chans (x : BootSt → BootSt) : (s.modBoot x).chans = s.chans := (rfl)
@[simp] theorem State.modBoot_stackTab (x : BootSt → BootSt) : (s.modBoot x).stackTab = s.stackTab := (rfl)
@[simp] theorem State.modBoot_place (x : BootSt → BootSt) : (s.modBoot x).place = s.place := (rfl)
@[simp] theorem State.modBoot_host (x : BootSt → BootSt) : (s.modBoot x).host = s.host := (rfl)
@[simp] theorem State.modBoot_hostq (x : BootSt → BootSt) : (s.modBoot x).hostq = s.hostq := (rfl)
@[simp] theorem State.modBoot_flash (x : BootSt → BootSt) : (s.modBoot x).flash = s.flash := (rfl)
@[simp] theorem State.modBoot_link (x : BootSt → BootSt) : (s.modBoot x).link = s.link := (rfl)
@[simp] theorem State.modBoot_power (x : BootSt → BootSt) : (s.modBoot x).power = s.power := (rfl)
@[simp] theorem State.modBoot_intake (x : BootSt → BootSt) : (s.modBoot x).intake = s.intake := (rfl)
@[simp] theorem State.modBoot_jsp (x : BootSt → BootSt) : (s.modBoot x).jsp = s.jsp := (rfl)
@[simp] theorem State.modBoot_outs (x : BootSt → BootSt) : (s.modBoot x).outs = s.outs := (rfl)
@[simp] theorem State.modBoot_rd (x : BootSt → BootSt) (a : Nat) : (s.modBoot x).rd a = s.rd a := (rfl)
@[simp] theorem State.modBoot_fld (x : BootSt → BootSt) (f : Fld) : (s.modBoot x).fld f = s.fld f := (rfl)
@[simp] theorem State.modBoot_inForce (x : BootSt → BootSt) (f : Fld) : (s.modBoot x).inForce f = s.inForce f := (rfl)
@[simp] theorem State.modBoot_ctr (x : BootSt → BootSt) (a : Nat) : (s.modBoot x).ctr a = s.ctr a := (rfl)
@[simp] theorem State.modBoot_core (x : BootSt → BootSt) (c : Nat) : (s.modBoot x).core c = s.core c := (rfl)
@[simp] theorem State.modBoot_eng (x : BootSt → BootSt) (g : Nat) : (s.modBoot x).eng g = s.eng g := (rfl)
@[simp] theorem State.modBoot_cluster (x : BootSt → BootSt) (k : Nat) : (s.modBoot x).cluster k = s.cluster k := (rfl)

/-! ### `modPower` -/

@[simp] theorem State.modPower_pending (x : PowerSt → PowerSt) : (s.modPower x).pending = s.pending := (rfl)
@[simp] theorem State.modPower_now (x : PowerSt → PowerSt) : (s.modPower x).now = s.now := (rfl)
@[simp] theorem State.modPower_free (x : PowerSt → PowerSt) : (s.modPower x).free = s.free := (rfl)
@[simp] theorem State.modPower_regs (x : PowerSt → PowerSt) : (s.modPower x).regs = s.regs := (rfl)
@[simp] theorem State.modPower_rcMgmt (x : PowerSt → PowerSt) : (s.modPower x).rcMgmt = s.rcMgmt := (rfl)
@[simp] theorem State.modPower_ctrs (x : PowerSt → PowerSt) : (s.modPower x).ctrs = s.ctrs := (rfl)
@[simp] theorem State.modPower_latchHost (x : PowerSt → PowerSt) : (s.modPower x).latchHost = s.latchHost := (rfl)
@[simp] theorem State.modPower_latchMgmt (x : PowerSt → PowerSt) : (s.modPower x).latchMgmt = s.latchMgmt := (rfl)
@[simp] theorem State.modPower_held (x : PowerSt → PowerSt) : (s.modPower x).held = s.held := (rfl)
@[simp] theorem State.modPower_ret (x : PowerSt → PowerSt) : (s.modPower x).ret = s.ret := (rfl)
@[simp] theorem State.modPower_retBytes (x : PowerSt → PowerSt) : (s.modPower x).retBytes = s.retBytes := (rfl)
@[simp] theorem State.modPower_retBad (x : PowerSt → PowerSt) : (s.modPower x).retBad = s.retBad := (rfl)
@[simp] theorem State.modPower_cores (x : PowerSt → PowerSt) : (s.modPower x).cores = s.cores := (rfl)
@[simp] theorem State.modPower_engs (x : PowerSt → PowerSt) : (s.modPower x).engs = s.engs := (rfl)
@[simp] theorem State.modPower_clusters (x : PowerSt → PowerSt) : (s.modPower x).clusters = s.clusters := (rfl)
@[simp] theorem State.modPower_flights (x : PowerSt → PowerSt) : (s.modPower x).flights = s.flights := (rfl)
@[simp] theorem State.modPower_fetches (x : PowerSt → PowerSt) : (s.modPower x).fetches = s.fetches := (rfl)
@[simp] theorem State.modPower_garnet (x : PowerSt → PowerSt) : (s.modPower x).garnet = s.garnet := (rfl)
@[simp] theorem State.modPower_marks (x : PowerSt → PowerSt) : (s.modPower x).marks = s.marks := (rfl)
@[simp] theorem State.modPower_lastEvent (x : PowerSt → PowerSt) : (s.modPower x).lastEvent = s.lastEvent := (rfl)
@[simp] theorem State.modPower_abandonCause (x : PowerSt → PowerSt) : (s.modPower x).abandonCause = s.abandonCause := (rfl)
@[simp] theorem State.modPower_mem (x : PowerSt → PowerSt) : (s.modPower x).mem = s.mem := (rfl)
@[simp] theorem State.modPower_chk (x : PowerSt → PowerSt) : (s.modPower x).chk = s.chk := (rfl)
@[simp] theorem State.modPower_chans (x : PowerSt → PowerSt) : (s.modPower x).chans = s.chans := (rfl)
@[simp] theorem State.modPower_stackTab (x : PowerSt → PowerSt) : (s.modPower x).stackTab = s.stackTab := (rfl)
@[simp] theorem State.modPower_place (x : PowerSt → PowerSt) : (s.modPower x).place = s.place := (rfl)
@[simp] theorem State.modPower_host (x : PowerSt → PowerSt) : (s.modPower x).host = s.host := (rfl)
@[simp] theorem State.modPower_hostq (x : PowerSt → PowerSt) : (s.modPower x).hostq = s.hostq := (rfl)
@[simp] theorem State.modPower_flash (x : PowerSt → PowerSt) : (s.modPower x).flash = s.flash := (rfl)
@[simp] theorem State.modPower_link (x : PowerSt → PowerSt) : (s.modPower x).link = s.link := (rfl)
@[simp] theorem State.modPower_boot (x : PowerSt → PowerSt) : (s.modPower x).boot = s.boot := (rfl)
@[simp] theorem State.modPower_intake (x : PowerSt → PowerSt) : (s.modPower x).intake = s.intake := (rfl)
@[simp] theorem State.modPower_jsp (x : PowerSt → PowerSt) : (s.modPower x).jsp = s.jsp := (rfl)
@[simp] theorem State.modPower_outs (x : PowerSt → PowerSt) : (s.modPower x).outs = s.outs := (rfl)
@[simp] theorem State.modPower_rd (x : PowerSt → PowerSt) (a : Nat) : (s.modPower x).rd a = s.rd a := (rfl)
@[simp] theorem State.modPower_fld (x : PowerSt → PowerSt) (f : Fld) : (s.modPower x).fld f = s.fld f := (rfl)
@[simp] theorem State.modPower_inForce (x : PowerSt → PowerSt) (f : Fld) : (s.modPower x).inForce f = s.inForce f := (rfl)
@[simp] theorem State.modPower_ctr (x : PowerSt → PowerSt) (a : Nat) : (s.modPower x).ctr a = s.ctr a := (rfl)
@[simp] theorem State.modPower_core (x : PowerSt → PowerSt) (c : Nat) : (s.modPower x).core c = s.core c := (rfl)
@[simp] theorem State.modPower_eng (x : PowerSt → PowerSt) (g : Nat) : (s.modPower x).eng g = s.eng g := (rfl)
@[simp] theorem State.modPower_cluster (x : PowerSt → PowerSt) (k : Nat) : (s.modPower x).cluster k = s.cluster k := (rfl)

/-! ### `modJsp` -/

@[simp] theorem State.modJsp_pending (x : JasperSt → JasperSt) : (s.modJsp x).pending = s.pending := (rfl)
@[simp] theorem State.modJsp_now (x : JasperSt → JasperSt) : (s.modJsp x).now = s.now := (rfl)
@[simp] theorem State.modJsp_free (x : JasperSt → JasperSt) : (s.modJsp x).free = s.free := (rfl)
@[simp] theorem State.modJsp_regs (x : JasperSt → JasperSt) : (s.modJsp x).regs = s.regs := (rfl)
@[simp] theorem State.modJsp_rcMgmt (x : JasperSt → JasperSt) : (s.modJsp x).rcMgmt = s.rcMgmt := (rfl)
@[simp] theorem State.modJsp_ctrs (x : JasperSt → JasperSt) : (s.modJsp x).ctrs = s.ctrs := (rfl)
@[simp] theorem State.modJsp_latchHost (x : JasperSt → JasperSt) : (s.modJsp x).latchHost = s.latchHost := (rfl)
@[simp] theorem State.modJsp_latchMgmt (x : JasperSt → JasperSt) : (s.modJsp x).latchMgmt = s.latchMgmt := (rfl)
@[simp] theorem State.modJsp_held (x : JasperSt → JasperSt) : (s.modJsp x).held = s.held := (rfl)
@[simp] theorem State.modJsp_ret (x : JasperSt → JasperSt) : (s.modJsp x).ret = s.ret := (rfl)
@[simp] theorem State.modJsp_retBytes (x : JasperSt → JasperSt) : (s.modJsp x).retBytes = s.retBytes := (rfl)
@[simp] theorem State.modJsp_retBad (x : JasperSt → JasperSt) : (s.modJsp x).retBad = s.retBad := (rfl)
@[simp] theorem State.modJsp_cores (x : JasperSt → JasperSt) : (s.modJsp x).cores = s.cores := (rfl)
@[simp] theorem State.modJsp_engs (x : JasperSt → JasperSt) : (s.modJsp x).engs = s.engs := (rfl)
@[simp] theorem State.modJsp_clusters (x : JasperSt → JasperSt) : (s.modJsp x).clusters = s.clusters := (rfl)
@[simp] theorem State.modJsp_flights (x : JasperSt → JasperSt) : (s.modJsp x).flights = s.flights := (rfl)
@[simp] theorem State.modJsp_fetches (x : JasperSt → JasperSt) : (s.modJsp x).fetches = s.fetches := (rfl)
@[simp] theorem State.modJsp_garnet (x : JasperSt → JasperSt) : (s.modJsp x).garnet = s.garnet := (rfl)
@[simp] theorem State.modJsp_marks (x : JasperSt → JasperSt) : (s.modJsp x).marks = s.marks := (rfl)
@[simp] theorem State.modJsp_lastEvent (x : JasperSt → JasperSt) : (s.modJsp x).lastEvent = s.lastEvent := (rfl)
@[simp] theorem State.modJsp_abandonCause (x : JasperSt → JasperSt) : (s.modJsp x).abandonCause = s.abandonCause := (rfl)
@[simp] theorem State.modJsp_mem (x : JasperSt → JasperSt) : (s.modJsp x).mem = s.mem := (rfl)
@[simp] theorem State.modJsp_chk (x : JasperSt → JasperSt) : (s.modJsp x).chk = s.chk := (rfl)
@[simp] theorem State.modJsp_chans (x : JasperSt → JasperSt) : (s.modJsp x).chans = s.chans := (rfl)
@[simp] theorem State.modJsp_stackTab (x : JasperSt → JasperSt) : (s.modJsp x).stackTab = s.stackTab := (rfl)
@[simp] theorem State.modJsp_place (x : JasperSt → JasperSt) : (s.modJsp x).place = s.place := (rfl)
@[simp] theorem State.modJsp_host (x : JasperSt → JasperSt) : (s.modJsp x).host = s.host := (rfl)
@[simp] theorem State.modJsp_hostq (x : JasperSt → JasperSt) : (s.modJsp x).hostq = s.hostq := (rfl)
@[simp] theorem State.modJsp_flash (x : JasperSt → JasperSt) : (s.modJsp x).flash = s.flash := (rfl)
@[simp] theorem State.modJsp_link (x : JasperSt → JasperSt) : (s.modJsp x).link = s.link := (rfl)
@[simp] theorem State.modJsp_boot (x : JasperSt → JasperSt) : (s.modJsp x).boot = s.boot := (rfl)
@[simp] theorem State.modJsp_power (x : JasperSt → JasperSt) : (s.modJsp x).power = s.power := (rfl)
@[simp] theorem State.modJsp_intake (x : JasperSt → JasperSt) : (s.modJsp x).intake = s.intake := (rfl)
@[simp] theorem State.modJsp_outs (x : JasperSt → JasperSt) : (s.modJsp x).outs = s.outs := (rfl)
@[simp] theorem State.modJsp_rd (x : JasperSt → JasperSt) (a : Nat) : (s.modJsp x).rd a = s.rd a := (rfl)
@[simp] theorem State.modJsp_fld (x : JasperSt → JasperSt) (f : Fld) : (s.modJsp x).fld f = s.fld f := (rfl)
@[simp] theorem State.modJsp_inForce (x : JasperSt → JasperSt) (f : Fld) : (s.modJsp x).inForce f = s.inForce f := (rfl)
@[simp] theorem State.modJsp_ctr (x : JasperSt → JasperSt) (a : Nat) : (s.modJsp x).ctr a = s.ctr a := (rfl)
@[simp] theorem State.modJsp_core (x : JasperSt → JasperSt) (c : Nat) : (s.modJsp x).core c = s.core c := (rfl)
@[simp] theorem State.modJsp_eng (x : JasperSt → JasperSt) (g : Nat) : (s.modJsp x).eng g = s.eng g := (rfl)
@[simp] theorem State.modJsp_cluster (x : JasperSt → JasperSt) (k : Nat) : (s.modJsp x).cluster k = s.cluster k := (rfl)

/-! ### `modPort` -/

@[simp] theorem State.modPort_pending (p : Nat) (x : PortSt → PortSt) : (s.modPort p x).pending = s.pending := (rfl)
@[simp] theorem State.modPort_now (p : Nat) (x : PortSt → PortSt) : (s.modPort p x).now = s.now := (rfl)
@[simp] theorem State.modPort_free (p : Nat) (x : PortSt → PortSt) : (s.modPort p x).free = s.free := (rfl)
@[simp] theorem State.modPort_regs (p : Nat) (x : PortSt → PortSt) : (s.modPort p x).regs = s.regs := (rfl)
@[simp] theorem State.modPort_rcMgmt (p : Nat) (x : PortSt → PortSt) : (s.modPort p x).rcMgmt = s.rcMgmt := (rfl)
@[simp] theorem State.modPort_ctrs (p : Nat) (x : PortSt → PortSt) : (s.modPort p x).ctrs = s.ctrs := (rfl)
@[simp] theorem State.modPort_latchHost (p : Nat) (x : PortSt → PortSt) : (s.modPort p x).latchHost = s.latchHost := (rfl)
@[simp] theorem State.modPort_latchMgmt (p : Nat) (x : PortSt → PortSt) : (s.modPort p x).latchMgmt = s.latchMgmt := (rfl)
@[simp] theorem State.modPort_held (p : Nat) (x : PortSt → PortSt) : (s.modPort p x).held = s.held := (rfl)
@[simp] theorem State.modPort_ret (p : Nat) (x : PortSt → PortSt) : (s.modPort p x).ret = s.ret := (rfl)
@[simp] theorem State.modPort_retBytes (p : Nat) (x : PortSt → PortSt) : (s.modPort p x).retBytes = s.retBytes := (rfl)
@[simp] theorem State.modPort_retBad (p : Nat) (x : PortSt → PortSt) : (s.modPort p x).retBad = s.retBad := (rfl)
@[simp] theorem State.modPort_cores (p : Nat) (x : PortSt → PortSt) : (s.modPort p x).cores = s.cores := (rfl)
@[simp] theorem State.modPort_engs (p : Nat) (x : PortSt → PortSt) : (s.modPort p x).engs = s.engs := (rfl)
@[simp] theorem State.modPort_clusters (p : Nat) (x : PortSt → PortSt) : (s.modPort p x).clusters = s.clusters := (rfl)
@[simp] theorem State.modPort_flights (p : Nat) (x : PortSt → PortSt) : (s.modPort p x).flights = s.flights := (rfl)
@[simp] theorem State.modPort_fetches (p : Nat) (x : PortSt → PortSt) : (s.modPort p x).fetches = s.fetches := (rfl)
@[simp] theorem State.modPort_garnet (p : Nat) (x : PortSt → PortSt) : (s.modPort p x).garnet = s.garnet := (rfl)
@[simp] theorem State.modPort_marks (p : Nat) (x : PortSt → PortSt) : (s.modPort p x).marks = s.marks := (rfl)
@[simp] theorem State.modPort_lastEvent (p : Nat) (x : PortSt → PortSt) : (s.modPort p x).lastEvent = s.lastEvent := (rfl)
@[simp] theorem State.modPort_abandonCause (p : Nat) (x : PortSt → PortSt) : (s.modPort p x).abandonCause = s.abandonCause := (rfl)
@[simp] theorem State.modPort_mem (p : Nat) (x : PortSt → PortSt) : (s.modPort p x).mem = s.mem := (rfl)
@[simp] theorem State.modPort_chk (p : Nat) (x : PortSt → PortSt) : (s.modPort p x).chk = s.chk := (rfl)
@[simp] theorem State.modPort_chans (p : Nat) (x : PortSt → PortSt) : (s.modPort p x).chans = s.chans := (rfl)
@[simp] theorem State.modPort_stackTab (p : Nat) (x : PortSt → PortSt) : (s.modPort p x).stackTab = s.stackTab := (rfl)
@[simp] theorem State.modPort_place (p : Nat) (x : PortSt → PortSt) : (s.modPort p x).place = s.place := (rfl)
@[simp] theorem State.modPort_host (p : Nat) (x : PortSt → PortSt) : (s.modPort p x).host = s.host := (rfl)
@[simp] theorem State.modPort_hostq (p : Nat) (x : PortSt → PortSt) : (s.modPort p x).hostq = s.hostq := (rfl)
@[simp] theorem State.modPort_flash (p : Nat) (x : PortSt → PortSt) : (s.modPort p x).flash = s.flash := (rfl)
@[simp] theorem State.modPort_boot (p : Nat) (x : PortSt → PortSt) : (s.modPort p x).boot = s.boot := (rfl)
@[simp] theorem State.modPort_power (p : Nat) (x : PortSt → PortSt) : (s.modPort p x).power = s.power := (rfl)
@[simp] theorem State.modPort_intake (p : Nat) (x : PortSt → PortSt) : (s.modPort p x).intake = s.intake := (rfl)
@[simp] theorem State.modPort_jsp (p : Nat) (x : PortSt → PortSt) : (s.modPort p x).jsp = s.jsp := (rfl)
@[simp] theorem State.modPort_outs (p : Nat) (x : PortSt → PortSt) : (s.modPort p x).outs = s.outs := (rfl)
@[simp] theorem State.modPort_rd (p : Nat) (x : PortSt → PortSt) (a : Nat) : (s.modPort p x).rd a = s.rd a := (rfl)
@[simp] theorem State.modPort_fld (p : Nat) (x : PortSt → PortSt) (f : Fld) : (s.modPort p x).fld f = s.fld f := (rfl)
@[simp] theorem State.modPort_inForce (p : Nat) (x : PortSt → PortSt) (f : Fld) : (s.modPort p x).inForce f = s.inForce f := (rfl)
@[simp] theorem State.modPort_ctr (p : Nat) (x : PortSt → PortSt) (a : Nat) : (s.modPort p x).ctr a = s.ctr a := (rfl)
@[simp] theorem State.modPort_core (p : Nat) (x : PortSt → PortSt) (c : Nat) : (s.modPort p x).core c = s.core c := (rfl)
@[simp] theorem State.modPort_eng (p : Nat) (x : PortSt → PortSt) (g : Nat) : (s.modPort p x).eng g = s.eng g := (rfl)
@[simp] theorem State.modPort_cluster (p : Nat) (x : PortSt → PortSt) (k : Nat) : (s.modPort p x).cluster k = s.cluster k := (rfl)

/-! ### `modChan` -/

@[simp] theorem State.modChan_pending (i : Nat) (x : ChanSt → ChanSt) : (s.modChan i x).pending = s.pending := (rfl)
@[simp] theorem State.modChan_now (i : Nat) (x : ChanSt → ChanSt) : (s.modChan i x).now = s.now := (rfl)
@[simp] theorem State.modChan_free (i : Nat) (x : ChanSt → ChanSt) : (s.modChan i x).free = s.free := (rfl)
@[simp] theorem State.modChan_regs (i : Nat) (x : ChanSt → ChanSt) : (s.modChan i x).regs = s.regs := (rfl)
@[simp] theorem State.modChan_rcMgmt (i : Nat) (x : ChanSt → ChanSt) : (s.modChan i x).rcMgmt = s.rcMgmt := (rfl)
@[simp] theorem State.modChan_ctrs (i : Nat) (x : ChanSt → ChanSt) : (s.modChan i x).ctrs = s.ctrs := (rfl)
@[simp] theorem State.modChan_latchHost (i : Nat) (x : ChanSt → ChanSt) : (s.modChan i x).latchHost = s.latchHost := (rfl)
@[simp] theorem State.modChan_latchMgmt (i : Nat) (x : ChanSt → ChanSt) : (s.modChan i x).latchMgmt = s.latchMgmt := (rfl)
@[simp] theorem State.modChan_held (i : Nat) (x : ChanSt → ChanSt) : (s.modChan i x).held = s.held := (rfl)
@[simp] theorem State.modChan_ret (i : Nat) (x : ChanSt → ChanSt) : (s.modChan i x).ret = s.ret := (rfl)
@[simp] theorem State.modChan_retBytes (i : Nat) (x : ChanSt → ChanSt) : (s.modChan i x).retBytes = s.retBytes := (rfl)
@[simp] theorem State.modChan_retBad (i : Nat) (x : ChanSt → ChanSt) : (s.modChan i x).retBad = s.retBad := (rfl)
@[simp] theorem State.modChan_cores (i : Nat) (x : ChanSt → ChanSt) : (s.modChan i x).cores = s.cores := (rfl)
@[simp] theorem State.modChan_engs (i : Nat) (x : ChanSt → ChanSt) : (s.modChan i x).engs = s.engs := (rfl)
@[simp] theorem State.modChan_clusters (i : Nat) (x : ChanSt → ChanSt) : (s.modChan i x).clusters = s.clusters := (rfl)
@[simp] theorem State.modChan_flights (i : Nat) (x : ChanSt → ChanSt) : (s.modChan i x).flights = s.flights := (rfl)
@[simp] theorem State.modChan_fetches (i : Nat) (x : ChanSt → ChanSt) : (s.modChan i x).fetches = s.fetches := (rfl)
@[simp] theorem State.modChan_garnet (i : Nat) (x : ChanSt → ChanSt) : (s.modChan i x).garnet = s.garnet := (rfl)
@[simp] theorem State.modChan_marks (i : Nat) (x : ChanSt → ChanSt) : (s.modChan i x).marks = s.marks := (rfl)
@[simp] theorem State.modChan_lastEvent (i : Nat) (x : ChanSt → ChanSt) : (s.modChan i x).lastEvent = s.lastEvent := (rfl)
@[simp] theorem State.modChan_abandonCause (i : Nat) (x : ChanSt → ChanSt) : (s.modChan i x).abandonCause = s.abandonCause := (rfl)
@[simp] theorem State.modChan_mem (i : Nat) (x : ChanSt → ChanSt) : (s.modChan i x).mem = s.mem := (rfl)
@[simp] theorem State.modChan_chk (i : Nat) (x : ChanSt → ChanSt) : (s.modChan i x).chk = s.chk := (rfl)
@[simp] theorem State.modChan_stackTab (i : Nat) (x : ChanSt → ChanSt) : (s.modChan i x).stackTab = s.stackTab := (rfl)
@[simp] theorem State.modChan_place (i : Nat) (x : ChanSt → ChanSt) : (s.modChan i x).place = s.place := (rfl)
@[simp] theorem State.modChan_host (i : Nat) (x : ChanSt → ChanSt) : (s.modChan i x).host = s.host := (rfl)
@[simp] theorem State.modChan_hostq (i : Nat) (x : ChanSt → ChanSt) : (s.modChan i x).hostq = s.hostq := (rfl)
@[simp] theorem State.modChan_flash (i : Nat) (x : ChanSt → ChanSt) : (s.modChan i x).flash = s.flash := (rfl)
@[simp] theorem State.modChan_link (i : Nat) (x : ChanSt → ChanSt) : (s.modChan i x).link = s.link := (rfl)
@[simp] theorem State.modChan_boot (i : Nat) (x : ChanSt → ChanSt) : (s.modChan i x).boot = s.boot := (rfl)
@[simp] theorem State.modChan_power (i : Nat) (x : ChanSt → ChanSt) : (s.modChan i x).power = s.power := (rfl)
@[simp] theorem State.modChan_intake (i : Nat) (x : ChanSt → ChanSt) : (s.modChan i x).intake = s.intake := (rfl)
@[simp] theorem State.modChan_jsp (i : Nat) (x : ChanSt → ChanSt) : (s.modChan i x).jsp = s.jsp := (rfl)
@[simp] theorem State.modChan_outs (i : Nat) (x : ChanSt → ChanSt) : (s.modChan i x).outs = s.outs := (rfl)
@[simp] theorem State.modChan_rd (i : Nat) (x : ChanSt → ChanSt) (a : Nat) : (s.modChan i x).rd a = s.rd a := (rfl)
@[simp] theorem State.modChan_fld (i : Nat) (x : ChanSt → ChanSt) (f : Fld) : (s.modChan i x).fld f = s.fld f := (rfl)
@[simp] theorem State.modChan_inForce (i : Nat) (x : ChanSt → ChanSt) (f : Fld) : (s.modChan i x).inForce f = s.inForce f := (rfl)
@[simp] theorem State.modChan_ctr (i : Nat) (x : ChanSt → ChanSt) (a : Nat) : (s.modChan i x).ctr a = s.ctr a := (rfl)
@[simp] theorem State.modChan_core (i : Nat) (x : ChanSt → ChanSt) (c : Nat) : (s.modChan i x).core c = s.core c := (rfl)
@[simp] theorem State.modChan_eng (i : Nat) (x : ChanSt → ChanSt) (g : Nat) : (s.modChan i x).eng g = s.eng g := (rfl)
@[simp] theorem State.modChan_cluster (i : Nat) (x : ChanSt → ChanSt) (k : Nat) : (s.modChan i x).cluster k = s.cluster k := (rfl)

/-! ### `modStack` -/

@[simp] theorem State.modStack_pending (i : Nat) (x : StackSt → StackSt) : (s.modStack i x).pending = s.pending := (rfl)
@[simp] theorem State.modStack_now (i : Nat) (x : StackSt → StackSt) : (s.modStack i x).now = s.now := (rfl)
@[simp] theorem State.modStack_free (i : Nat) (x : StackSt → StackSt) : (s.modStack i x).free = s.free := (rfl)
@[simp] theorem State.modStack_regs (i : Nat) (x : StackSt → StackSt) : (s.modStack i x).regs = s.regs := (rfl)
@[simp] theorem State.modStack_rcMgmt (i : Nat) (x : StackSt → StackSt) : (s.modStack i x).rcMgmt = s.rcMgmt := (rfl)
@[simp] theorem State.modStack_ctrs (i : Nat) (x : StackSt → StackSt) : (s.modStack i x).ctrs = s.ctrs := (rfl)
@[simp] theorem State.modStack_latchHost (i : Nat) (x : StackSt → StackSt) : (s.modStack i x).latchHost = s.latchHost := (rfl)
@[simp] theorem State.modStack_latchMgmt (i : Nat) (x : StackSt → StackSt) : (s.modStack i x).latchMgmt = s.latchMgmt := (rfl)
@[simp] theorem State.modStack_held (i : Nat) (x : StackSt → StackSt) : (s.modStack i x).held = s.held := (rfl)
@[simp] theorem State.modStack_ret (i : Nat) (x : StackSt → StackSt) : (s.modStack i x).ret = s.ret := (rfl)
@[simp] theorem State.modStack_retBytes (i : Nat) (x : StackSt → StackSt) : (s.modStack i x).retBytes = s.retBytes := (rfl)
@[simp] theorem State.modStack_retBad (i : Nat) (x : StackSt → StackSt) : (s.modStack i x).retBad = s.retBad := (rfl)
@[simp] theorem State.modStack_cores (i : Nat) (x : StackSt → StackSt) : (s.modStack i x).cores = s.cores := (rfl)
@[simp] theorem State.modStack_engs (i : Nat) (x : StackSt → StackSt) : (s.modStack i x).engs = s.engs := (rfl)
@[simp] theorem State.modStack_clusters (i : Nat) (x : StackSt → StackSt) : (s.modStack i x).clusters = s.clusters := (rfl)
@[simp] theorem State.modStack_flights (i : Nat) (x : StackSt → StackSt) : (s.modStack i x).flights = s.flights := (rfl)
@[simp] theorem State.modStack_fetches (i : Nat) (x : StackSt → StackSt) : (s.modStack i x).fetches = s.fetches := (rfl)
@[simp] theorem State.modStack_garnet (i : Nat) (x : StackSt → StackSt) : (s.modStack i x).garnet = s.garnet := (rfl)
@[simp] theorem State.modStack_marks (i : Nat) (x : StackSt → StackSt) : (s.modStack i x).marks = s.marks := (rfl)
@[simp] theorem State.modStack_lastEvent (i : Nat) (x : StackSt → StackSt) : (s.modStack i x).lastEvent = s.lastEvent := (rfl)
@[simp] theorem State.modStack_abandonCause (i : Nat) (x : StackSt → StackSt) : (s.modStack i x).abandonCause = s.abandonCause := (rfl)
@[simp] theorem State.modStack_mem (i : Nat) (x : StackSt → StackSt) : (s.modStack i x).mem = s.mem := (rfl)
@[simp] theorem State.modStack_chk (i : Nat) (x : StackSt → StackSt) : (s.modStack i x).chk = s.chk := (rfl)
@[simp] theorem State.modStack_chans (i : Nat) (x : StackSt → StackSt) : (s.modStack i x).chans = s.chans := (rfl)
@[simp] theorem State.modStack_place (i : Nat) (x : StackSt → StackSt) : (s.modStack i x).place = s.place := (rfl)
@[simp] theorem State.modStack_host (i : Nat) (x : StackSt → StackSt) : (s.modStack i x).host = s.host := (rfl)
@[simp] theorem State.modStack_hostq (i : Nat) (x : StackSt → StackSt) : (s.modStack i x).hostq = s.hostq := (rfl)
@[simp] theorem State.modStack_flash (i : Nat) (x : StackSt → StackSt) : (s.modStack i x).flash = s.flash := (rfl)
@[simp] theorem State.modStack_link (i : Nat) (x : StackSt → StackSt) : (s.modStack i x).link = s.link := (rfl)
@[simp] theorem State.modStack_boot (i : Nat) (x : StackSt → StackSt) : (s.modStack i x).boot = s.boot := (rfl)
@[simp] theorem State.modStack_power (i : Nat) (x : StackSt → StackSt) : (s.modStack i x).power = s.power := (rfl)
@[simp] theorem State.modStack_intake (i : Nat) (x : StackSt → StackSt) : (s.modStack i x).intake = s.intake := (rfl)
@[simp] theorem State.modStack_jsp (i : Nat) (x : StackSt → StackSt) : (s.modStack i x).jsp = s.jsp := (rfl)
@[simp] theorem State.modStack_outs (i : Nat) (x : StackSt → StackSt) : (s.modStack i x).outs = s.outs := (rfl)
@[simp] theorem State.modStack_rd (i : Nat) (x : StackSt → StackSt) (a : Nat) : (s.modStack i x).rd a = s.rd a := (rfl)
@[simp] theorem State.modStack_fld (i : Nat) (x : StackSt → StackSt) (f : Fld) : (s.modStack i x).fld f = s.fld f := (rfl)
@[simp] theorem State.modStack_inForce (i : Nat) (x : StackSt → StackSt) (f : Fld) : (s.modStack i x).inForce f = s.inForce f := (rfl)
@[simp] theorem State.modStack_ctr (i : Nat) (x : StackSt → StackSt) (a : Nat) : (s.modStack i x).ctr a = s.ctr a := (rfl)
@[simp] theorem State.modStack_core (i : Nat) (x : StackSt → StackSt) (c : Nat) : (s.modStack i x).core c = s.core c := (rfl)
@[simp] theorem State.modStack_eng (i : Nat) (x : StackSt → StackSt) (g : Nat) : (s.modStack i x).eng g = s.eng g := (rfl)
@[simp] theorem State.modStack_cluster (i : Nat) (x : StackSt → StackSt) (k : Nat) : (s.modStack i x).cluster k = s.cluster k := (rfl)

/-! ### `giveJasper` -/

@[simp] theorem State.giveJasper_pending (e : JReq) : (s.giveJasper e).pending = s.pending := by unfold State.giveJasper; dsimp only; split <;> rfl
@[simp] theorem State.giveJasper_now (e : JReq) : (s.giveJasper e).now = s.now := by unfold State.giveJasper; dsimp only; split <;> rfl
@[simp] theorem State.giveJasper_free (e : JReq) : (s.giveJasper e).free = s.free := by unfold State.giveJasper; dsimp only; split <;> rfl
@[simp] theorem State.giveJasper_regs (e : JReq) : (s.giveJasper e).regs = s.regs := by unfold State.giveJasper; dsimp only; split <;> rfl
@[simp] theorem State.giveJasper_rcMgmt (e : JReq) : (s.giveJasper e).rcMgmt = s.rcMgmt := by unfold State.giveJasper; dsimp only; split <;> rfl
@[simp] theorem State.giveJasper_latchHost (e : JReq) : (s.giveJasper e).latchHost = s.latchHost := by unfold State.giveJasper; dsimp only; split <;> rfl
@[simp] theorem State.giveJasper_latchMgmt (e : JReq) : (s.giveJasper e).latchMgmt = s.latchMgmt := by unfold State.giveJasper; dsimp only; split <;> rfl
@[simp] theorem State.giveJasper_held (e : JReq) : (s.giveJasper e).held = s.held := by unfold State.giveJasper; dsimp only; split <;> rfl
@[simp] theorem State.giveJasper_ret (e : JReq) : (s.giveJasper e).ret = s.ret := by unfold State.giveJasper; dsimp only; split <;> rfl
@[simp] theorem State.giveJasper_retBytes (e : JReq) : (s.giveJasper e).retBytes = s.retBytes := by unfold State.giveJasper; dsimp only; split <;> rfl
@[simp] theorem State.giveJasper_retBad (e : JReq) : (s.giveJasper e).retBad = s.retBad := by unfold State.giveJasper; dsimp only; split <;> rfl
@[simp] theorem State.giveJasper_cores (e : JReq) : (s.giveJasper e).cores = s.cores := by unfold State.giveJasper; dsimp only; split <;> rfl
@[simp] theorem State.giveJasper_engs (e : JReq) : (s.giveJasper e).engs = s.engs := by unfold State.giveJasper; dsimp only; split <;> rfl
@[simp] theorem State.giveJasper_clusters (e : JReq) : (s.giveJasper e).clusters = s.clusters := by unfold State.giveJasper; dsimp only; split <;> rfl
@[simp] theorem State.giveJasper_flights (e : JReq) : (s.giveJasper e).flights = s.flights := by unfold State.giveJasper; dsimp only; split <;> rfl
@[simp] theorem State.giveJasper_fetches (e : JReq) : (s.giveJasper e).fetches = s.fetches := by unfold State.giveJasper; dsimp only; split <;> rfl
@[simp] theorem State.giveJasper_garnet (e : JReq) : (s.giveJasper e).garnet = s.garnet := by unfold State.giveJasper; dsimp only; split <;> rfl
@[simp] theorem State.giveJasper_marks (e : JReq) : (s.giveJasper e).marks = s.marks := by unfold State.giveJasper; dsimp only; split <;> rfl
@[simp] theorem State.giveJasper_abandonCause (e : JReq) : (s.giveJasper e).abandonCause = s.abandonCause := by unfold State.giveJasper; dsimp only; split <;> rfl
@[simp] theorem State.giveJasper_mem (e : JReq) : (s.giveJasper e).mem = s.mem := by unfold State.giveJasper; dsimp only; split <;> rfl
@[simp] theorem State.giveJasper_chk (e : JReq) : (s.giveJasper e).chk = s.chk := by unfold State.giveJasper; dsimp only; split <;> rfl
@[simp] theorem State.giveJasper_chans (e : JReq) : (s.giveJasper e).chans = s.chans := by unfold State.giveJasper; dsimp only; split <;> rfl
@[simp] theorem State.giveJasper_stackTab (e : JReq) : (s.giveJasper e).stackTab = s.stackTab := by unfold State.giveJasper; dsimp only; split <;> rfl
@[simp] theorem State.giveJasper_place (e : JReq) : (s.giveJasper e).place = s.place := by unfold State.giveJasper; dsimp only; split <;> rfl
@[simp] theorem State.giveJasper_host (e : JReq) : (s.giveJasper e).host = s.host := by unfold State.giveJasper; dsimp only; split <;> rfl
@[simp] theorem State.giveJasper_hostq (e : JReq) : (s.giveJasper e).hostq = s.hostq := by unfold State.giveJasper; dsimp only; split <;> rfl
@[simp] theorem State.giveJasper_flash (e : JReq) : (s.giveJasper e).flash = s.flash := by unfold State.giveJasper; dsimp only; split <;> rfl
@[simp] theorem State.giveJasper_link (e : JReq) : (s.giveJasper e).link = s.link := by unfold State.giveJasper; dsimp only; split <;> rfl
@[simp] theorem State.giveJasper_boot (e : JReq) : (s.giveJasper e).boot = s.boot := by unfold State.giveJasper; dsimp only; split <;> rfl
@[simp] theorem State.giveJasper_power (e : JReq) : (s.giveJasper e).power = s.power := by unfold State.giveJasper; dsimp only; split <;> rfl
@[simp] theorem State.giveJasper_outs (e : JReq) : (s.giveJasper e).outs = s.outs := by unfold State.giveJasper; dsimp only; split <;> rfl
@[simp] theorem State.giveJasper_rd (e : JReq) (a : Nat) : (s.giveJasper e).rd a = s.rd a := by unfold State.giveJasper; dsimp only; split <;> rfl
@[simp] theorem State.giveJasper_fld (e : JReq) (f : Fld) : (s.giveJasper e).fld f = s.fld f := by unfold State.giveJasper; dsimp only; split <;> rfl
@[simp] theorem State.giveJasper_inForce (e : JReq) (f : Fld) : (s.giveJasper e).inForce f = s.inForce f := by unfold State.giveJasper; dsimp only; split <;> rfl
@[simp] theorem State.giveJasper_core (e : JReq) (c : Nat) : (s.giveJasper e).core c = s.core c := by unfold State.giveJasper; dsimp only; split <;> rfl
@[simp] theorem State.giveJasper_eng (e : JReq) (g : Nat) : (s.giveJasper e).eng g = s.eng g := by unfold State.giveJasper; dsimp only; split <;> rfl
@[simp] theorem State.giveJasper_cluster (e : JReq) (k : Nat) : (s.giveJasper e).cluster k = s.cluster k := by unfold State.giveJasper; dsimp only; split <;> rfl

/-! ### `jasperK` -/

@[simp] theorem State.jasperK_pending (e : JCode) (n u d d2 : Nat) : (s.jasperK e n u d d2).pending = s.pending := State.giveJasper_pending s _
@[simp] theorem State.jasperK_now (e : JCode) (n u d d2 : Nat) : (s.jasperK e n u d d2).now = s.now := State.giveJasper_now s _
@[simp] theorem State.jasperK_free (e : JCode) (n u d d2 : Nat) : (s.jasperK e n u d d2).free = s.free := State.giveJasper_free s _
@[simp] theorem State.jasperK_regs (e : JCode) (n u d d2 : Nat) : (s.jasperK e n u d d2).regs = s.regs := State.giveJasper_regs s _
@[simp] theorem State.jasperK_rcMgmt (e : JCode) (n u d d2 : Nat) : (s.jasperK e n u d d2).rcMgmt = s.rcMgmt := State.giveJasper_rcMgmt s _
@[simp] theorem State.jasperK_latchHost (e : JCode) (n u d d2 : Nat) : (s.jasperK e n u d d2).latchHost = s.latchHost := State.giveJasper_latchHost s _
@[simp] theorem State.jasperK_latchMgmt (e : JCode) (n u d d2 : Nat) : (s.jasperK e n u d d2).latchMgmt = s.latchMgmt := State.giveJasper_latchMgmt s _
@[simp] theorem State.jasperK_held (e : JCode) (n u d d2 : Nat) : (s.jasperK e n u d d2).held = s.held := State.giveJasper_held s _
@[simp] theorem State.jasperK_ret (e : JCode) (n u d d2 : Nat) : (s.jasperK e n u d d2).ret = s.ret := State.giveJasper_ret s _
@[simp] theorem State.jasperK_retBytes (e : JCode) (n u d d2 : Nat) : (s.jasperK e n u d d2).retBytes = s.retBytes := State.giveJasper_retBytes s _
@[simp] theorem State.jasperK_retBad (e : JCode) (n u d d2 : Nat) : (s.jasperK e n u d d2).retBad = s.retBad := State.giveJasper_retBad s _
@[simp] theorem State.jasperK_cores (e : JCode) (n u d d2 : Nat) : (s.jasperK e n u d d2).cores = s.cores := State.giveJasper_cores s _
@[simp] theorem State.jasperK_engs (e : JCode) (n u d d2 : Nat) : (s.jasperK e n u d d2).engs = s.engs := State.giveJasper_engs s _
@[simp] theorem State.jasperK_clusters (e : JCode) (n u d d2 : Nat) : (s.jasperK e n u d d2).clusters = s.clusters := State.giveJasper_clusters s _
@[simp] theorem State.jasperK_flights (e : JCode) (n u d d2 : Nat) : (s.jasperK e n u d d2).flights = s.flights := State.giveJasper_flights s _
@[simp] theorem State.jasperK_fetches (e : JCode) (n u d d2 : Nat) : (s.jasperK e n u d d2).fetches = s.fetches := State.giveJasper_fetches s _
@[simp] theorem State.jasperK_garnet (e : JCode) (n u d d2 : Nat) : (s.jasperK e n u d d2).garnet = s.garnet := State.giveJasper_garnet s _
@[simp] theorem State.jasperK_marks (e : JCode) (n u d d2 : Nat) : (s.jasperK e n u d d2).marks = s.marks := State.giveJasper_marks s _
@[simp] theorem State.jasperK_abandonCause (e : JCode) (n u d d2 : Nat) : (s.jasperK e n u d d2).abandonCause = s.abandonCause := State.giveJasper_abandonCause s _
@[simp] theorem State.jasperK_mem (e : JCode) (n u d d2 : Nat) : (s.jasperK e n u d d2).mem = s.mem := State.giveJasper_mem s _
@[simp] theorem State.jasperK_chk (e : JCode) (n u d d2 : Nat) : (s.jasperK e n u d d2).chk = s.chk := State.giveJasper_chk s _
@[simp] theorem State.jasperK_chans (e : JCode) (n u d d2 : Nat) : (s.jasperK e n u d d2).chans = s.chans := State.giveJasper_chans s _
@[simp] theorem State.jasperK_stackTab (e : JCode) (n u d d2 : Nat) : (s.jasperK e n u d d2).stackTab = s.stackTab := State.giveJasper_stackTab s _
@[simp] theorem State.jasperK_place (e : JCode) (n u d d2 : Nat) : (s.jasperK e n u d d2).place = s.place := State.giveJasper_place s _
@[simp] theorem State.jasperK_host (e : JCode) (n u d d2 : Nat) : (s.jasperK e n u d d2).host = s.host := State.giveJasper_host s _
@[simp] theorem State.jasperK_hostq (e : JCode) (n u d d2 : Nat) : (s.jasperK e n u d d2).hostq = s.hostq := State.giveJasper_hostq s _
@[simp] theorem State.jasperK_flash (e : JCode) (n u d d2 : Nat) : (s.jasperK e n u d d2).flash = s.flash := State.giveJasper_flash s _
@[simp] theorem State.jasperK_link (e : JCode) (n u d d2 : Nat) : (s.jasperK e n u d d2).link = s.link := State.giveJasper_link s _
@[simp] theorem State.jasperK_boot (e : JCode) (n u d d2 : Nat) : (s.jasperK e n u d d2).boot = s.boot := State.giveJasper_boot s _
@[simp] theorem State.jasperK_power (e : JCode) (n u d d2 : Nat) : (s.jasperK e n u d d2).power = s.power := State.giveJasper_power s _
@[simp] theorem State.jasperK_outs (e : JCode) (n u d d2 : Nat) : (s.jasperK e n u d d2).outs = s.outs := State.giveJasper_outs s _
@[simp] theorem State.jasperK_rd (e : JCode) (n u d d2 : Nat) (a : Nat) : (s.jasperK e n u d d2).rd a = s.rd a := State.giveJasper_rd s _ a
@[simp] theorem State.jasperK_fld (e : JCode) (n u d d2 : Nat) (f : Fld) : (s.jasperK e n u d d2).fld f = s.fld f := State.giveJasper_fld s _ f
@[simp] theorem State.jasperK_inForce (e : JCode) (n u d d2 : Nat) (f : Fld) : (s.jasperK e n u d d2).inForce f = s.inForce f := State.giveJasper_inForce s _ f
@[simp] theorem State.jasperK_core (e : JCode) (n u d d2 : Nat) (c : Nat) : (s.jasperK e n u d d2).core c = s.core c := State.giveJasper_core s _ c
@[simp] theorem State.jasperK_eng (e : JCode) (n u d d2 : Nat) (g : Nat) : (s.jasperK e n u d d2).eng g = s.eng g := State.giveJasper_eng s _ g
@[simp] theorem State.jasperK_cluster (e : JCode) (n u d d2 : Nat) (k : Nat) : (s.jasperK e n u d d2).cluster k = s.cluster k := State.giveJasper_cluster s _ k

/-! ### `jasperAlone` -/

@[simp] theorem State.jasperAlone_pending (e : JCode) (u d d2 : Nat) (al : Bool) : (s.jasperAlone e u d d2 al).pending = s.pending := State.giveJasper_pending s _
@[simp] theorem State.jasperAlone_now (e : JCode) (u d d2 : Nat) (al : Bool) : (s.jasperAlone e u d d2 al).now = s.now := State.giveJasper_now s _
@[simp] theorem State.jasperAlone_free (e : JCode) (u d d2 : Nat) (al : Bool) : (s.jasperAlone e u d d2 al).free = s.free := State.giveJasper_free s _
@[simp] theorem State.jasperAlone_regs (e : JCode) (u d d2 : Nat) (al : Bool) : (s.jasperAlone e u d d2 al).regs = s.regs := State.giveJasper_regs s _
@[simp] theorem State.jasperAlone_rcMgmt (e : JCode) (u d d2 : Nat) (al : Bool) : (s.jasperAlone e u d d2 al).rcMgmt = s.rcMgmt := State.giveJasper_rcMgmt s _
@[simp] theorem State.jasperAlone_latchHost (e : JCode) (u d d2 : Nat) (al : Bool) : (s.jasperAlone e u d d2 al).latchHost = s.latchHost := State.giveJasper_latchHost s _
@[simp] theorem State.jasperAlone_latchMgmt (e : JCode) (u d d2 : Nat) (al : Bool) : (s.jasperAlone e u d d2 al).latchMgmt = s.latchMgmt := State.giveJasper_latchMgmt s _
@[simp] theorem State.jasperAlone_held (e : JCode) (u d d2 : Nat) (al : Bool) : (s.jasperAlone e u d d2 al).held = s.held := State.giveJasper_held s _
@[simp] theorem State.jasperAlone_ret (e : JCode) (u d d2 : Nat) (al : Bool) : (s.jasperAlone e u d d2 al).ret = s.ret := State.giveJasper_ret s _
@[simp] theorem State.jasperAlone_retBytes (e : JCode) (u d d2 : Nat) (al : Bool) : (s.jasperAlone e u d d2 al).retBytes = s.retBytes := State.giveJasper_retBytes s _
@[simp] theorem State.jasperAlone_retBad (e : JCode) (u d d2 : Nat) (al : Bool) : (s.jasperAlone e u d d2 al).retBad = s.retBad := State.giveJasper_retBad s _
@[simp] theorem State.jasperAlone_cores (e : JCode) (u d d2 : Nat) (al : Bool) : (s.jasperAlone e u d d2 al).cores = s.cores := State.giveJasper_cores s _
@[simp] theorem State.jasperAlone_engs (e : JCode) (u d d2 : Nat) (al : Bool) : (s.jasperAlone e u d d2 al).engs = s.engs := State.giveJasper_engs s _
@[simp] theorem State.jasperAlone_clusters (e : JCode) (u d d2 : Nat) (al : Bool) : (s.jasperAlone e u d d2 al).clusters = s.clusters := State.giveJasper_clusters s _
@[simp] theorem State.jasperAlone_flights (e : JCode) (u d d2 : Nat) (al : Bool) : (s.jasperAlone e u d d2 al).flights = s.flights := State.giveJasper_flights s _
@[simp] theorem State.jasperAlone_fetches (e : JCode) (u d d2 : Nat) (al : Bool) : (s.jasperAlone e u d d2 al).fetches = s.fetches := State.giveJasper_fetches s _
@[simp] theorem State.jasperAlone_garnet (e : JCode) (u d d2 : Nat) (al : Bool) : (s.jasperAlone e u d d2 al).garnet = s.garnet := State.giveJasper_garnet s _
@[simp] theorem State.jasperAlone_marks (e : JCode) (u d d2 : Nat) (al : Bool) : (s.jasperAlone e u d d2 al).marks = s.marks := State.giveJasper_marks s _
@[simp] theorem State.jasperAlone_abandonCause (e : JCode) (u d d2 : Nat) (al : Bool) : (s.jasperAlone e u d d2 al).abandonCause = s.abandonCause := State.giveJasper_abandonCause s _
@[simp] theorem State.jasperAlone_mem (e : JCode) (u d d2 : Nat) (al : Bool) : (s.jasperAlone e u d d2 al).mem = s.mem := State.giveJasper_mem s _
@[simp] theorem State.jasperAlone_chk (e : JCode) (u d d2 : Nat) (al : Bool) : (s.jasperAlone e u d d2 al).chk = s.chk := State.giveJasper_chk s _
@[simp] theorem State.jasperAlone_chans (e : JCode) (u d d2 : Nat) (al : Bool) : (s.jasperAlone e u d d2 al).chans = s.chans := State.giveJasper_chans s _
@[simp] theorem State.jasperAlone_stackTab (e : JCode) (u d d2 : Nat) (al : Bool) : (s.jasperAlone e u d d2 al).stackTab = s.stackTab := State.giveJasper_stackTab s _
@[simp] theorem State.jasperAlone_place (e : JCode) (u d d2 : Nat) (al : Bool) : (s.jasperAlone e u d d2 al).place = s.place := State.giveJasper_place s _
@[simp] theorem State.jasperAlone_host (e : JCode) (u d d2 : Nat) (al : Bool) : (s.jasperAlone e u d d2 al).host = s.host := State.giveJasper_host s _
@[simp] theorem State.jasperAlone_hostq (e : JCode) (u d d2 : Nat) (al : Bool) : (s.jasperAlone e u d d2 al).hostq = s.hostq := State.giveJasper_hostq s _
@[simp] theorem State.jasperAlone_flash (e : JCode) (u d d2 : Nat) (al : Bool) : (s.jasperAlone e u d d2 al).flash = s.flash := State.giveJasper_flash s _
@[simp] theorem State.jasperAlone_link (e : JCode) (u d d2 : Nat) (al : Bool) : (s.jasperAlone e u d d2 al).link = s.link := State.giveJasper_link s _
@[simp] theorem State.jasperAlone_boot (e : JCode) (u d d2 : Nat) (al : Bool) : (s.jasperAlone e u d d2 al).boot = s.boot := State.giveJasper_boot s _
@[simp] theorem State.jasperAlone_power (e : JCode) (u d d2 : Nat) (al : Bool) : (s.jasperAlone e u d d2 al).power = s.power := State.giveJasper_power s _
@[simp] theorem State.jasperAlone_outs (e : JCode) (u d d2 : Nat) (al : Bool) : (s.jasperAlone e u d d2 al).outs = s.outs := State.giveJasper_outs s _
@[simp] theorem State.jasperAlone_rd (e : JCode) (u d d2 : Nat) (al : Bool) (a : Nat) : (s.jasperAlone e u d d2 al).rd a = s.rd a := State.giveJasper_rd s _ a
@[simp] theorem State.jasperAlone_fld (e : JCode) (u d d2 : Nat) (al : Bool) (f : Fld) : (s.jasperAlone e u d d2 al).fld f = s.fld f := State.giveJasper_fld s _ f
@[simp] theorem State.jasperAlone_inForce (e : JCode) (u d d2 : Nat) (al : Bool) (f : Fld) : (s.jasperAlone e u d d2 al).inForce f = s.inForce f := State.giveJasper_inForce s _ f
@[simp] theorem State.jasperAlone_core (e : JCode) (u d d2 : Nat) (al : Bool) (c : Nat) : (s.jasperAlone e u d d2 al).core c = s.core c := State.giveJasper_core s _ c
@[simp] theorem State.jasperAlone_eng (e : JCode) (u d d2 : Nat) (al : Bool) (g : Nat) : (s.jasperAlone e u d d2 al).eng g = s.eng g := State.giveJasper_eng s _ g
@[simp] theorem State.jasperAlone_cluster (e : JCode) (u d d2 : Nat) (al : Bool) (k : Nat) : (s.jasperAlone e u d d2 al).cluster k = s.cluster k := State.giveJasper_cluster s _ k

/-! ### `jasper` -/

@[simp] theorem State.jasper_pending (e : JCode) (u d d2 : Nat) : (s.jasper e u d d2).pending = s.pending := State.jasperK_pending s e _ u d d2
@[simp] theorem State.jasper_now (e : JCode) (u d d2 : Nat) : (s.jasper e u d d2).now = s.now := State.jasperK_now s e _ u d d2
@[simp] theorem State.jasper_free (e : JCode) (u d d2 : Nat) : (s.jasper e u d d2).free = s.free := State.jasperK_free s e _ u d d2
@[simp] theorem State.jasper_regs (e : JCode) (u d d2 : Nat) : (s.jasper e u d d2).regs = s.regs := State.jasperK_regs s e _ u d d2
@[simp] theorem State.jasper_rcMgmt (e : JCode) (u d d2 : Nat) : (s.jasper e u d d2).rcMgmt = s.rcMgmt := State.jasperK_rcMgmt s e _ u d d2
@[simp] theorem State.jasper_latchHost (e : JCode) (u d d2 : Nat) : (s.jasper e u d d2).latchHost = s.latchHost := State.jasperK_latchHost s e _ u d d2
@[simp] theorem State.jasper_latchMgmt (e : JCode) (u d d2 : Nat) : (s.jasper e u d d2).latchMgmt = s.latchMgmt := State.jasperK_latchMgmt s e _ u d d2
@[simp] theorem State.jasper_held (e : JCode) (u d d2 : Nat) : (s.jasper e u d d2).held = s.held := State.jasperK_held s e _ u d d2
@[simp] theorem State.jasper_ret (e : JCode) (u d d2 : Nat) : (s.jasper e u d d2).ret = s.ret := State.jasperK_ret s e _ u d d2
@[simp] theorem State.jasper_retBytes (e : JCode) (u d d2 : Nat) : (s.jasper e u d d2).retBytes = s.retBytes := State.jasperK_retBytes s e _ u d d2
@[simp] theorem State.jasper_retBad (e : JCode) (u d d2 : Nat) : (s.jasper e u d d2).retBad = s.retBad := State.jasperK_retBad s e _ u d d2
@[simp] theorem State.jasper_cores (e : JCode) (u d d2 : Nat) : (s.jasper e u d d2).cores = s.cores := State.jasperK_cores s e _ u d d2
@[simp] theorem State.jasper_engs (e : JCode) (u d d2 : Nat) : (s.jasper e u d d2).engs = s.engs := State.jasperK_engs s e _ u d d2
@[simp] theorem State.jasper_clusters (e : JCode) (u d d2 : Nat) : (s.jasper e u d d2).clusters = s.clusters := State.jasperK_clusters s e _ u d d2
@[simp] theorem State.jasper_flights (e : JCode) (u d d2 : Nat) : (s.jasper e u d d2).flights = s.flights := State.jasperK_flights s e _ u d d2
@[simp] theorem State.jasper_fetches (e : JCode) (u d d2 : Nat) : (s.jasper e u d d2).fetches = s.fetches := State.jasperK_fetches s e _ u d d2
@[simp] theorem State.jasper_garnet (e : JCode) (u d d2 : Nat) : (s.jasper e u d d2).garnet = s.garnet := State.jasperK_garnet s e _ u d d2
@[simp] theorem State.jasper_marks (e : JCode) (u d d2 : Nat) : (s.jasper e u d d2).marks = s.marks := State.jasperK_marks s e _ u d d2
@[simp] theorem State.jasper_abandonCause (e : JCode) (u d d2 : Nat) : (s.jasper e u d d2).abandonCause = s.abandonCause := State.jasperK_abandonCause s e _ u d d2
@[simp] theorem State.jasper_mem (e : JCode) (u d d2 : Nat) : (s.jasper e u d d2).mem = s.mem := State.jasperK_mem s e _ u d d2
@[simp] theorem State.jasper_chk (e : JCode) (u d d2 : Nat) : (s.jasper e u d d2).chk = s.chk := State.jasperK_chk s e _ u d d2
@[simp] theorem State.jasper_chans (e : JCode) (u d d2 : Nat) : (s.jasper e u d d2).chans = s.chans := State.jasperK_chans s e _ u d d2
@[simp] theorem State.jasper_stackTab (e : JCode) (u d d2 : Nat) : (s.jasper e u d d2).stackTab = s.stackTab := State.jasperK_stackTab s e _ u d d2
@[simp] theorem State.jasper_place (e : JCode) (u d d2 : Nat) : (s.jasper e u d d2).place = s.place := State.jasperK_place s e _ u d d2
@[simp] theorem State.jasper_host (e : JCode) (u d d2 : Nat) : (s.jasper e u d d2).host = s.host := State.jasperK_host s e _ u d d2
@[simp] theorem State.jasper_hostq (e : JCode) (u d d2 : Nat) : (s.jasper e u d d2).hostq = s.hostq := State.jasperK_hostq s e _ u d d2
@[simp] theorem State.jasper_flash (e : JCode) (u d d2 : Nat) : (s.jasper e u d d2).flash = s.flash := State.jasperK_flash s e _ u d d2
@[simp] theorem State.jasper_link (e : JCode) (u d d2 : Nat) : (s.jasper e u d d2).link = s.link := State.jasperK_link s e _ u d d2
@[simp] theorem State.jasper_boot (e : JCode) (u d d2 : Nat) : (s.jasper e u d d2).boot = s.boot := State.jasperK_boot s e _ u d d2
@[simp] theorem State.jasper_power (e : JCode) (u d d2 : Nat) : (s.jasper e u d d2).power = s.power := State.jasperK_power s e _ u d d2
@[simp] theorem State.jasper_outs (e : JCode) (u d d2 : Nat) : (s.jasper e u d d2).outs = s.outs := State.jasperK_outs s e _ u d d2
@[simp] theorem State.jasper_rd (e : JCode) (u d d2 : Nat) (a : Nat) : (s.jasper e u d d2).rd a = s.rd a := State.jasperK_rd s e _ u d d2 a
@[simp] theorem State.jasper_fld (e : JCode) (u d d2 : Nat) (f : Fld) : (s.jasper e u d d2).fld f = s.fld f := State.jasperK_fld s e _ u d d2 f
@[simp] theorem State.jasper_inForce (e : JCode) (u d d2 : Nat) (f : Fld) : (s.jasper e u d d2).inForce f = s.inForce f := State.jasperK_inForce s e _ u d d2 f
@[simp] theorem State.jasper_core (e : JCode) (u d d2 : Nat) (c : Nat) : (s.jasper e u d d2).core c = s.core c := State.jasperK_core s e _ u d d2 c
@[simp] theorem State.jasper_eng (e : JCode) (u d d2 : Nat) (g : Nat) : (s.jasper e u d d2).eng g = s.eng g := State.jasperK_eng s e _ u d d2 g
@[simp] theorem State.jasper_cluster (e : JCode) (u d d2 : Nat) (k : Nat) : (s.jasper e u d d2).cluster k = s.cluster k := State.jasperK_cluster s e _ u d d2 k

/-! ### Reads after writes -/

@[simp] theorem State.when_true (f : State → State) : s.when true f = f s := (rfl)
@[simp] theorem State.when_false (f : State → State) : s.when false f = s := (rfl)

/-- The register word just written. -/
@[simp] theorem State.rd_wr_same (a : Nat) (v : BitVec 32) : (s.wr a v).rd a = v := by
  unfold State.rd State.wr
  dsimp only
  split
  · simp [NMap.find_del_same, *]
  · simp [NMap.find_ins_same]

/-- Every other register word. -/
theorem State.rd_wr_ne {a b : Nat} (v : BitVec 32) (h : a ≠ b) : (s.wr a v).rd b = s.rd b := by
  unfold State.rd State.wr
  dsimp only
  split
  · rw [NMap.find_del_ne _ h]
  · rw [NMap.find_ins_ne _ _ h]

/-- A field just written holds the low bits of the value. -/
theorem State.fld_setFld_same (f : Fld) (v : Nat) (h : f.lo + f.w ≤ 32) : (s.setFld f v).fld f = v % 2 ^ f.w := by
  unfold State.fld State.setFld
  rw [State.rd_wr_same, bvGet_bvSet_same _ _ _ _ h]

/-- A field of another register reads as before. -/
theorem State.fld_setFld_addr (f g : Fld) (v : Nat) (h : f.addr ≠ g.addr) : (s.setFld f v).fld g = s.fld g := by
  unfold State.fld State.setFld
  rw [State.rd_wr_ne s _ h]

/-- A field of the same register that shares no bit with the one written reads as before. -/
theorem State.fld_setFld_disjoint (f g : Fld) (v : Nat) (h : g.lo + g.w ≤ f.lo ∨ f.lo + f.w ≤ g.lo) :
    (s.setFld f v).fld g = s.fld g := by
  by_cases ha : f.addr = g.addr
  · unfold State.fld State.setFld
    rw [ha, State.rd_wr_same, bvGet_bvSet_disjoint _ _ _ _ _ _ h]
  · exact State.fld_setFld_addr s f g v ha

/-- A field not yet listed as held is in force as it stands. -/
theorem State.inForce_of_not_held (f : Fld) (h : NMap.find s.held f.addr = none) : s.inForce f = s.fld f := by
  simp [State.inForce, State.rdForce, State.fld, h]

@[simp] theorem State.fld_lt (f : Fld) : s.fld f < 2 ^ f.w := bvGet_lt _ _ _

@[simp] theorem State.core_setCore_same (c : Nat) (x : CoreSt) : (s.setCore c x).core c = x := NMap.get_set_same _ _ _ _
theorem State.core_setCore_ne {c d : Nat} (x : CoreSt) (h : c ≠ d) : (s.setCore c x).core d = s.core d := NMap.get_set_ne _ _ _ _ h
@[simp] theorem State.core_modCore_same (c : Nat) (f : CoreSt → CoreSt) : (s.modCore c f).core c = f (s.core c) := NMap.get_set_same _ _ _ _
theorem State.core_modCore_ne {c d : Nat} (f : CoreSt → CoreSt) (h : c ≠ d) : (s.modCore c f).core d = s.core d := NMap.get_set_ne _ _ _ _ h
@[simp] theorem State.eng_modEng_same (g : Nat) (f : EngSt → EngSt) : (s.modEng g f).eng g = f (s.eng g) := NMap.get_set_same _ _ _ _
theorem State.eng_modEng_ne {g h : Nat} (f : EngSt → EngSt) (hn : g ≠ h) : (s.modEng g f).eng h = s.eng h := NMap.get_set_ne _ _ _ _ hn
@[simp] theorem State.cluster_modCluster_same (k : Nat) (f : ClusterSt → ClusterSt) : (s.modCluster k f).cluster k = f (s.cluster k) :=
  NMap.get_set_same _ _ _ _
theorem State.cluster_modCluster_ne {k l : Nat} (f : ClusterSt → ClusterSt) (h : k ≠ l) : (s.modCluster k f).cluster l = s.cluster l :=
  NMap.get_set_ne _ _ _ _ h
@[simp] theorem State.ctr_count_same (a n : Nat) : (s.count a n).ctr a = (s.ctr a).plus n := NMap.get_set_same _ _ _ _
theorem State.ctr_count_ne {a b : Nat} (n : Nat) (h : a ≠ b) : (s.count a n).ctr b = s.ctr b := NMap.get_set_ne _ _ _ _ h

/-- A counter never falls. -/
theorem Ctr.plus_ge (c : Ctr) (n : Nat) : c.val.toNat ≤ (c.plus n).val.toNat := by
  unfold Ctr.plus
  have := c.val.isLt
  split
  · simp only [BitVec.toNat_ofNat]
    rw [Nat.mod_eq_of_lt (by assumption)]
    omega
  · simp only [BitVec.toNat_allOnes]
    omega

/-- BAR0 reaches no register that it does not serve. -/
theorem State.bar0_of_not {a : Nat} (f : State → State) (h : s.serves a = false) : s.bar0 a f = s := by simp [State.bar0, State.access, h]
/-- BAR0 reaches a register that it serves in a group out of reset and a block that is powered. -/
theorem State.bar0_of_serves {a : Nat} (f : State → State) (h : s.serves a = true) (hr : s.inReset a = none) (hp : s.poweredOff a = false) :
    s.bar0 a f = f s := by
  simp [State.bar0, State.access, State.wakeAccess, h, hr, hp]
/-- What the access, the discarded write's event and the wake keep, a BAR0 access keeps. -/
theorem State.access_keeps {β : Type} (P : State → β) (b : Bool) (a : Nat) (f : State → State) (hf : ∀ t, P (f t) = P t)
    (hd : ∀ (t : State) k, P (t.bridgeDiscard k a) = P t) (hw : P (s.wakeAccess a) = P s) : P (s.access b a f) = P s := by
  unfold State.access
  split
  · rfl
  · split
    · exact hd _ _
    · exact (hf _).trans hw

/-! ### Runs over a list -/

@[simp] theorem State.each_nil {α : Type} (f : State → α → State) : s.each [] f = s := rfl
@[simp] theorem State.each_cons {α : Type} (x : α) (xs : List α) (f : State → α → State) : s.each (x :: xs) f = (f s x).each xs f := rfl

/-- What every pass keeps, the run keeps. -/
theorem State.each_keeps {α β : Type} (P : State → β) (xs : List α) (f : State → α → State) (h : ∀ t x, x ∈ xs → P (f t x) = P t) :
    P (s.each xs f) = P s := by
  induction xs generalizing s with
  | nil => rfl
  | cons x xs ih =>
    rw [State.each_cons, ih _ fun t y hy => h t y (by simp [hy]), h s x (by simp)]

/-- An invariant of every pass holds after the run. -/
theorem State.each_inv {α : Type} (P : State → Prop) (xs : List α) (f : State → α → State) (h0 : P s)
    (h : ∀ t x, x ∈ xs → P t → P (f t x)) : P (s.each xs f) := by
  induction xs generalizing s with
  | nil => exact h0
  | cons x xs ih => exact ih _ (h s x (by simp) h0) fun t y hy => h t y (by simp [hy])

/-- What `f` keeps, `f` under a condition keeps. -/
theorem State.when_keeps {β : Type} (P : State → β) (b : Bool) (f : State → State) (h : P (f s) = P s) : P (s.when b f) = P s := by
  cases b
  · rfl
  · exact h

/-- Where the event stands that was given to the recorder: last in the intake queue, or dropped and counted where 64 wait (R421, R427). -/
theorem State.giveJasper_intake (e : JReq) : (s.giveJasper e).intake = if s.intake.length < 64 then s.intake ++ [e] else s.intake := by
  unfold State.giveJasper
  dsimp only
  split <;> rfl

/-- The same of an event by its code. -/
theorem State.jasper_intake (e : JCode) (u d d2 : Nat) :
    (s.jasper e u d d2).intake =
      if s.intake.length < 64 then
        s.intake ++ [{ cls := e.cls, kind := e.kind, code := e.code, unit := u, d0 := BitVec.ofNat 32 d, d1 := BitVec.ofNat 32 d2 }]
      else s.intake := s.giveJasper_intake _

/-- The intake queue never passes 64 entries (R421). -/
theorem State.giveJasper_bounded (e : JReq) (h : s.intake.length ≤ 64) : (s.giveJasper e).intake.length ≤ 64 := by
  rw [s.giveJasper_intake e]
  split
  · simp; omega
  · exact h

/-! ### The passing of time -/

/-- What each change that the passing of time makes keeps, beside the clock, it keeps. -/
theorem State.pass_keeps {β : Type} (P : State → β) (n : Nat)
    (h1 : ∀ (t : State) a m, P (t.count a m) = P t) (h2 : ∀ (t : State) c m, P (t.modCore c fun x => { x with idleUs := x.idleUs + m }) = P t)
    (h3 : ∀ (t : State) k v, P (t.setFld (wdogLeft k) v) = P t) : P (s.pass n) = P { s with now := s.now + n } := by
  unfold State.pass
  split
  · subst_vars; rfl
  · dsimp only
    refine (State.when_keeps _ P _ _ (State.each_keeps _ P _ _ fun t f hf => ?_)).trans ?_
    · simp only [List.mem_cons, List.not_mem_nil, or_false] at hf
      rcases hf with rfl | rfl
      · exact h3 t 0 _
      · exact h3 t 1 _
    · refine (State.each_keeps _ P _ _ fun t _ _ => State.when_keeps t P _ _ (h1 t _ _)).trans ?_
      refine (State.each_keeps _ P _ _ fun t _ _ => State.when_keeps t P _ _ (h1 t _ _)).trans ?_
      refine (State.each_keeps _ P _ _ fun t c _ => ?_).trans ?_
      · split
        · exact h2 t c n
        · rfl
      · exact State.each_keeps _ P _ _ fun t _ _ => h1 t _ _

@[simp] theorem State.pass_pending (n : Nat) : (s.pass n).pending = s.pending := s.pass_keeps (·.pending) n (fun _ _ _ => rfl) (fun _ _ _ => rfl) fun _ _ _ => rfl
@[simp] theorem State.pass_free (n : Nat) : (s.pass n).free = s.free := s.pass_keeps (·.free) n (fun _ _ _ => rfl) (fun _ _ _ => rfl) fun _ _ _ => rfl
@[simp] theorem State.pass_rcMgmt (n : Nat) : (s.pass n).rcMgmt = s.rcMgmt := s.pass_keeps (·.rcMgmt) n (fun _ _ _ => rfl) (fun _ _ _ => rfl) fun _ _ _ => rfl
@[simp] theorem State.pass_latchHost (n : Nat) : (s.pass n).latchHost = s.latchHost := s.pass_keeps (·.latchHost) n (fun _ _ _ => rfl) (fun _ _ _ => rfl) fun _ _ _ => rfl
@[simp] theorem State.pass_latchMgmt (n : Nat) : (s.pass n).latchMgmt = s.latchMgmt := s.pass_keeps (·.latchMgmt) n (fun _ _ _ => rfl) (fun _ _ _ => rfl) fun _ _ _ => rfl
@[simp] theorem State.pass_held (n : Nat) : (s.pass n).held = s.held := s.pass_keeps (·.held) n (fun _ _ _ => rfl) (fun _ _ _ => rfl) fun _ _ _ => rfl
@[simp] theorem State.pass_ret (n : Nat) : (s.pass n).ret = s.ret := s.pass_keeps (·.ret) n (fun _ _ _ => rfl) (fun _ _ _ => rfl) fun _ _ _ => rfl
@[simp] theorem State.pass_retBytes (n : Nat) : (s.pass n).retBytes = s.retBytes := s.pass_keeps (·.retBytes) n (fun _ _ _ => rfl) (fun _ _ _ => rfl) fun _ _ _ => rfl
@[simp] theorem State.pass_retBad (n : Nat) : (s.pass n).retBad = s.retBad := s.pass_keeps (·.retBad) n (fun _ _ _ => rfl) (fun _ _ _ => rfl) fun _ _ _ => rfl
@[simp] theorem State.pass_engs (n : Nat) : (s.pass n).engs = s.engs := s.pass_keeps (·.engs) n (fun _ _ _ => rfl) (fun _ _ _ => rfl) fun _ _ _ => rfl
@[simp] theorem State.pass_clusters (n : Nat) : (s.pass n).clusters = s.clusters := s.pass_keeps (·.clusters) n (fun _ _ _ => rfl) (fun _ _ _ => rfl) fun _ _ _ => rfl
@[simp] theorem State.pass_flights (n : Nat) : (s.pass n).flights = s.flights := s.pass_keeps (·.flights) n (fun _ _ _ => rfl) (fun _ _ _ => rfl) fun _ _ _ => rfl
@[simp] theorem State.pass_fetches (n : Nat) : (s.pass n).fetches = s.fetches := s.pass_keeps (·.fetches) n (fun _ _ _ => rfl) (fun _ _ _ => rfl) fun _ _ _ => rfl
@[simp] theorem State.pass_garnet (n : Nat) : (s.pass n).garnet = s.garnet := s.pass_keeps (·.garnet) n (fun _ _ _ => rfl) (fun _ _ _ => rfl) fun _ _ _ => rfl
@[simp] theorem State.pass_marks (n : Nat) : (s.pass n).marks = s.marks := s.pass_keeps (·.marks) n (fun _ _ _ => rfl) (fun _ _ _ => rfl) fun _ _ _ => rfl
@[simp] theorem State.pass_lastEvent (n : Nat) : (s.pass n).lastEvent = s.lastEvent := s.pass_keeps (·.lastEvent) n (fun _ _ _ => rfl) (fun _ _ _ => rfl) fun _ _ _ => rfl
@[simp] theorem State.pass_abandonCause (n : Nat) : (s.pass n).abandonCause = s.abandonCause := s.pass_keeps (·.abandonCause) n (fun _ _ _ => rfl) (fun _ _ _ => rfl) fun _ _ _ => rfl
@[simp] theorem State.pass_mem (n : Nat) : (s.pass n).mem = s.mem := s.pass_keeps (·.mem) n (fun _ _ _ => rfl) (fun _ _ _ => rfl) fun _ _ _ => rfl
@[simp] theorem State.pass_chk (n : Nat) : (s.pass n).chk = s.chk := s.pass_keeps (·.chk) n (fun _ _ _ => rfl) (fun _ _ _ => rfl) fun _ _ _ => rfl
@[simp] theorem State.pass_chans (n : Nat) : (s.pass n).chans = s.chans := s.pass_keeps (·.chans) n (fun _ _ _ => rfl) (fun _ _ _ => rfl) fun _ _ _ => rfl
@[simp] theorem State.pass_stackTab (n : Nat) : (s.pass n).stackTab = s.stackTab := s.pass_keeps (·.stackTab) n (fun _ _ _ => rfl) (fun _ _ _ => rfl) fun _ _ _ => rfl
@[simp] theorem State.pass_place (n : Nat) : (s.pass n).place = s.place := s.pass_keeps (·.place) n (fun _ _ _ => rfl) (fun _ _ _ => rfl) fun _ _ _ => rfl
@[simp] theorem State.pass_host (n : Nat) : (s.pass n).host = s.host := s.pass_keeps (·.host) n (fun _ _ _ => rfl) (fun _ _ _ => rfl) fun _ _ _ => rfl
@[simp] theorem State.pass_hostq (n : Nat) : (s.pass n).hostq = s.hostq := s.pass_keeps (·.hostq) n (fun _ _ _ => rfl) (fun _ _ _ => rfl) fun _ _ _ => rfl
@[simp] theorem State.pass_flash (n : Nat) : (s.pass n).flash = s.flash := s.pass_keeps (·.flash) n (fun _ _ _ => rfl) (fun _ _ _ => rfl) fun _ _ _ => rfl
@[simp] theorem State.pass_link (n : Nat) : (s.pass n).link = s.link := s.pass_keeps (·.link) n (fun _ _ _ => rfl) (fun _ _ _ => rfl) fun _ _ _ => rfl
@[simp] theorem State.pass_boot (n : Nat) : (s.pass n).boot = s.boot := s.pass_keeps (·.boot) n (fun _ _ _ => rfl) (fun _ _ _ => rfl) fun _ _ _ => rfl
@[simp] theorem State.pass_power (n : Nat) : (s.pass n).power = s.power := s.pass_keeps (·.power) n (fun _ _ _ => rfl) (fun _ _ _ => rfl) fun _ _ _ => rfl
@[simp] theorem State.pass_intake (n : Nat) : (s.pass n).intake = s.intake := s.pass_keeps (·.intake) n (fun _ _ _ => rfl) (fun _ _ _ => rfl) fun _ _ _ => rfl
@[simp] theorem State.pass_jsp (n : Nat) : (s.pass n).jsp = s.jsp := s.pass_keeps (·.jsp) n (fun _ _ _ => rfl) (fun _ _ _ => rfl) fun _ _ _ => rfl
@[simp] theorem State.pass_outs (n : Nat) : (s.pass n).outs = s.outs := s.pass_keeps (·.outs) n (fun _ _ _ => rfl) (fun _ _ _ => rfl) fun _ _ _ => rfl
@[simp] theorem State.pass_eng (n : Nat) (g : Nat) : (s.pass n).eng g = s.eng g := s.pass_keeps (·.eng g) n (fun _ _ _ => rfl) (fun _ _ _ => rfl) fun _ _ _ => rfl
@[simp] theorem State.pass_cluster (n : Nat) (k : Nat) : (s.pass n).cluster k = s.cluster k := s.pass_keeps (·.cluster k) n (fun _ _ _ => rfl) (fun _ _ _ => rfl) fun _ _ _ => rfl

/-- The clock moves on by as much. -/
@[simp] theorem State.pass_now (n : Nat) : (s.pass n).now = s.now + n :=
  s.pass_keeps State.now n (fun _ _ _ => rfl) (fun _ _ _ => rfl) fun _ _ _ => rfl

/-- No core buffer changes while time passes. -/
@[simp] theorem State.pass_buf (n c : Nat) : ((s.pass n).core c).buf = (s.core c).buf := by
  refine s.pass_keeps (fun t => (t.core c).buf) n (fun _ _ _ => rfl) (fun t d m => ?_) fun _ _ _ => rfl
  by_cases h : d = c
  · subst h; simp
  · simp [State.core_modCore_ne t _ h]

/-- Registers but the watchdogs' are as before. -/
theorem State.pass_rd (n a : Nat) (h : a ≠ Rg.JSP_WDOG_STATUS) : (s.pass n).rd a = s.rd a :=
  s.pass_keeps (·.rd a) n (fun _ _ _ => rfl) (fun _ _ _ => rfl) fun t k v =>
    State.rd_wr_ne t _ (by unfold wdogLeft; split <;> exact Ne.symm h)

/-- The clock stands at the later of the two moments. -/
@[simp] theorem State.clockTo_now (t : Nat) : (s.clockTo t).now = max s.now t := by simp [State.clockTo]; omega

@[simp] theorem State.clockTo_pending (t : Nat) : (s.clockTo t).pending = s.pending := State.pass_pending s _
@[simp] theorem State.clockTo_free (t : Nat) : (s.clockTo t).free = s.free := State.pass_free s _
@[simp] theorem State.clockTo_rcMgmt (t : Nat) : (s.clockTo t).rcMgmt = s.rcMgmt := State.pass_rcMgmt s _
@[simp] theorem State.clockTo_latchHost (t : Nat) : (s.clockTo t).latchHost = s.latchHost := State.pass_latchHost s _
@[simp] theorem State.clockTo_latchMgmt (t : Nat) : (s.clockTo t).latchMgmt = s.latchMgmt := State.pass_latchMgmt s _
@[simp] theorem State.clockTo_held (t : Nat) : (s.clockTo t).held = s.held := State.pass_held s _
@[simp] theorem State.clockTo_ret (t : Nat) : (s.clockTo t).ret = s.ret := State.pass_ret s _
@[simp] theorem State.clockTo_retBytes (t : Nat) : (s.clockTo t).retBytes = s.retBytes := State.pass_retBytes s _
@[simp] theorem State.clockTo_retBad (t : Nat) : (s.clockTo t).retBad = s.retBad := State.pass_retBad s _
@[simp] theorem State.clockTo_engs (t : Nat) : (s.clockTo t).engs = s.engs := State.pass_engs s _
@[simp] theorem State.clockTo_clusters (t : Nat) : (s.clockTo t).clusters = s.clusters := State.pass_clusters s _
@[simp] theorem State.clockTo_flights (t : Nat) : (s.clockTo t).flights = s.flights := State.pass_flights s _
@[simp] theorem State.clockTo_fetches (t : Nat) : (s.clockTo t).fetches = s.fetches := State.pass_fetches s _
@[simp] theorem State.clockTo_garnet (t : Nat) : (s.clockTo t).garnet = s.garnet := State.pass_garnet s _
@[simp] theorem State.clockTo_marks (t : Nat) : (s.clockTo t).marks = s.marks := State.pass_marks s _
@[simp] theorem State.clockTo_lastEvent (t : Nat) : (s.clockTo t).lastEvent = s.lastEvent := State.pass_lastEvent s _
@[simp] theorem State.clockTo_abandonCause (t : Nat) : (s.clockTo t).abandonCause = s.abandonCause := State.pass_abandonCause s _
@[simp] theorem State.clockTo_mem (t : Nat) : (s.clockTo t).mem = s.mem := State.pass_mem s _
@[simp] theorem State.clockTo_chk (t : Nat) : (s.clockTo t).chk = s.chk := State.pass_chk s _
@[simp] theorem State.clockTo_chans (t : Nat) : (s.clockTo t).chans = s.chans := State.pass_chans s _
@[simp] theorem State.clockTo_stackTab (t : Nat) : (s.clockTo t).stackTab = s.stackTab := State.pass_stackTab s _
@[simp] theorem State.clockTo_place (t : Nat) : (s.clockTo t).place = s.place := State.pass_place s _
@[simp] theorem State.clockTo_host (t : Nat) : (s.clockTo t).host = s.host := State.pass_host s _
@[simp] theorem State.clockTo_hostq (t : Nat) : (s.clockTo t).hostq = s.hostq := State.pass_hostq s _
@[simp] theorem State.clockTo_flash (t : Nat) : (s.clockTo t).flash = s.flash := State.pass_flash s _
@[simp] theorem State.clockTo_link (t : Nat) : (s.clockTo t).link = s.link := State.pass_link s _
@[simp] theorem State.clockTo_boot (t : Nat) : (s.clockTo t).boot = s.boot := State.pass_boot s _
@[simp] theorem State.clockTo_power (t : Nat) : (s.clockTo t).power = s.power := State.pass_power s _
@[simp] theorem State.clockTo_intake (t : Nat) : (s.clockTo t).intake = s.intake := State.pass_intake s _
@[simp] theorem State.clockTo_jsp (t : Nat) : (s.clockTo t).jsp = s.jsp := State.pass_jsp s _
@[simp] theorem State.clockTo_outs (t : Nat) : (s.clockTo t).outs = s.outs := State.pass_outs s _
@[simp] theorem State.clockTo_eng (t : Nat) (g : Nat) : (s.clockTo t).eng g = s.eng g := State.pass_eng s _ g
@[simp] theorem State.clockTo_cluster (t : Nat) (k : Nat) : (s.clockTo t).cluster k = s.cluster k := State.pass_cluster s _ k
@[simp] theorem State.clockTo_buf (t c : Nat) : ((s.clockTo t).core c).buf = (s.core c).buf := State.pass_buf s _ c
theorem State.clockTo_rd (t a : Nat) (h : a ≠ Rg.JSP_WDOG_STATUS) : (s.clockTo t).rd a = s.rd a := State.pass_rd s _ a h

end Sys2Proof.Machine
end

