-- ==== Sys2Proof/Laws/Frames.lean ====
section
/-! SUPPORT. What the shared operations of a core leave as it was, field by field. -/

namespace Sys2Proof.Machine

variable (s : State)

/-! ### `closeSlots` -/

@[simp] theorem State.closeSlots_pending (k : Nat) : (s.closeSlots k).pending = s.pending := by unfold State.closeSlots; split <;> first | rfl | exact s.each_keeps (fun t => t.pending) _ _ fun t x _ => State.when_keeps t (fun t => t.pending) _ _ rfl
@[simp] theorem State.closeSlots_now (k : Nat) : (s.closeSlots k).now = s.now := by unfold State.closeSlots; split <;> first | rfl | exact s.each_keeps (fun t => t.now) _ _ fun t x _ => State.when_keeps t (fun t => t.now) _ _ rfl
@[simp] theorem State.closeSlots_free (k : Nat) : (s.closeSlots k).free = s.free := by unfold State.closeSlots; split <;> first | rfl | exact s.each_keeps (fun t => t.free) _ _ fun t x _ => State.when_keeps t (fun t => t.free) _ _ rfl
@[simp] theorem State.closeSlots_regs (k : Nat) : (s.closeSlots k).regs = s.regs := by unfold State.closeSlots; split <;> first | rfl | exact s.each_keeps (fun t => t.regs) _ _ fun t x _ => State.when_keeps t (fun t => t.regs) _ _ rfl
@[simp] theorem State.closeSlots_rcMgmt (k : Nat) : (s.closeSlots k).rcMgmt = s.rcMgmt := by unfold State.closeSlots; split <;> first | rfl | exact s.each_keeps (fun t => t.rcMgmt) _ _ fun t x _ => State.when_keeps t (fun t => t.rcMgmt) _ _ rfl
@[simp] theorem State.closeSlots_ctrs (k : Nat) : (s.closeSlots k).ctrs = s.ctrs := by unfold State.closeSlots; split <;> first | rfl | exact s.each_keeps (fun t => t.ctrs) _ _ fun t x _ => State.when_keeps t (fun t => t.ctrs) _ _ rfl
@[simp] theorem State.closeSlots_latchHost (k : Nat) : (s.closeSlots k).latchHost = s.latchHost := by unfold State.closeSlots; split <;> first | rfl | exact s.each_keeps (fun t => t.latchHost) _ _ fun t x _ => State.when_keeps t (fun t => t.latchHost) _ _ rfl
@[simp] theorem State.closeSlots_latchMgmt (k : Nat) : (s.closeSlots k).latchMgmt = s.latchMgmt := by unfold State.closeSlots; split <;> first | rfl | exact s.each_keeps (fun t => t.latchMgmt) _ _ fun t x _ => State.when_keeps t (fun t => t.latchMgmt) _ _ rfl
@[simp] theorem State.closeSlots_held (k : Nat) : (s.closeSlots k).held = s.held := by unfold State.closeSlots; split <;> first | rfl | exact s.each_keeps (fun t => t.held) _ _ fun t x _ => State.when_keeps t (fun t => t.held) _ _ rfl
@[simp] theorem State.closeSlots_ret (k : Nat) : (s.closeSlots k).ret = s.ret := by unfold State.closeSlots; split <;> first | rfl | exact s.each_keeps (fun t => t.ret) _ _ fun t x _ => State.when_keeps t (fun t => t.ret) _ _ rfl
@[simp] theorem State.closeSlots_retBytes (k : Nat) : (s.closeSlots k).retBytes = s.retBytes := by unfold State.closeSlots; split <;> first | rfl | exact s.each_keeps (fun t => t.retBytes) _ _ fun t x _ => State.when_keeps t (fun t => t.retBytes) _ _ rfl
@[simp] theorem State.closeSlots_retBad (k : Nat) : (s.closeSlots k).retBad = s.retBad := by unfold State.closeSlots; split <;> first | rfl | exact s.each_keeps (fun t => t.retBad) _ _ fun t x _ => State.when_keeps t (fun t => t.retBad) _ _ rfl
@[simp] theorem State.closeSlots_cores (k : Nat) : (s.closeSlots k).cores = s.cores := by unfold State.closeSlots; split <;> first | rfl | exact s.each_keeps (fun t => t.cores) _ _ fun t x _ => State.when_keeps t (fun t => t.cores) _ _ rfl
@[simp] theorem State.closeSlots_engs (k : Nat) : (s.closeSlots k).engs = s.engs := by unfold State.closeSlots; split <;> first | rfl | exact s.each_keeps (fun t => t.engs) _ _ fun t x _ => State.when_keeps t (fun t => t.engs) _ _ rfl
@[simp] theorem State.closeSlots_flights (k : Nat) : (s.closeSlots k).flights = s.flights := by unfold State.closeSlots; split <;> first | rfl | exact s.each_keeps (fun t => t.flights) _ _ fun t x _ => State.when_keeps t (fun t => t.flights) _ _ rfl
@[simp] theorem State.closeSlots_fetches (k : Nat) : (s.closeSlots k).fetches = s.fetches := by unfold State.closeSlots; split <;> first | rfl | exact s.each_keeps (fun t => t.fetches) _ _ fun t x _ => State.when_keeps t (fun t => t.fetches) _ _ rfl
@[simp] theorem State.closeSlots_garnet (k : Nat) : (s.closeSlots k).garnet = s.garnet := by unfold State.closeSlots; split <;> first | rfl | exact s.each_keeps (fun t => t.garnet) _ _ fun t x _ => State.when_keeps t (fun t => t.garnet) _ _ rfl
@[simp] theorem State.closeSlots_marks (k : Nat) : (s.closeSlots k).marks = s.marks := by unfold State.closeSlots; split <;> first | rfl | exact s.each_keeps (fun t => t.marks) _ _ fun t x _ => State.when_keeps t (fun t => t.marks) _ _ rfl
@[simp] theorem State.closeSlots_lastEvent (k : Nat) : (s.closeSlots k).lastEvent = s.lastEvent := by unfold State.closeSlots; split <;> first | rfl | exact s.each_keeps (fun t => t.lastEvent) _ _ fun t x _ => State.when_keeps t (fun t => t.lastEvent) _ _ rfl
@[simp] theorem State.closeSlots_abandonCause (k : Nat) : (s.closeSlots k).abandonCause = s.abandonCause := by unfold State.closeSlots; split <;> first | rfl | exact s.each_keeps (fun t => t.abandonCause) _ _ fun t x _ => State.when_keeps t (fun t => t.abandonCause) _ _ rfl
@[simp] theorem State.closeSlots_mem (k : Nat) : (s.closeSlots k).mem = s.mem := by unfold State.closeSlots; split <;> first | rfl | exact s.each_keeps (fun t => t.mem) _ _ fun t x _ => State.when_keeps t (fun t => t.mem) _ _ rfl
@[simp] theorem State.closeSlots_chk (k : Nat) : (s.closeSlots k).chk = s.chk := by unfold State.closeSlots; split <;> first | rfl | exact s.each_keeps (fun t => t.chk) _ _ fun t x _ => State.when_keeps t (fun t => t.chk) _ _ rfl
@[simp] theorem State.closeSlots_chans (k : Nat) : (s.closeSlots k).chans = s.chans := by unfold State.closeSlots; split <;> first | rfl | exact s.each_keeps (fun t => t.chans) _ _ fun t x _ => State.when_keeps t (fun t => t.chans) _ _ rfl
@[simp] theorem State.closeSlots_stackTab (k : Nat) : (s.closeSlots k).stackTab = s.stackTab := by unfold State.closeSlots; split <;> first | rfl | exact s.each_keeps (fun t => t.stackTab) _ _ fun t x _ => State.when_keeps t (fun t => t.stackTab) _ _ rfl
@[simp] theorem State.closeSlots_place (k : Nat) : (s.closeSlots k).place = s.place := by unfold State.closeSlots; split <;> first | rfl | exact s.each_keeps (fun t => t.place) _ _ fun t x _ => State.when_keeps t (fun t => t.place) _ _ rfl
@[simp] theorem State.closeSlots_host (k : Nat) : (s.closeSlots k).host = s.host := by unfold State.closeSlots; split <;> first | rfl | exact s.each_keeps (fun t => t.host) _ _ fun t x _ => State.when_keeps t (fun t => t.host) _ _ rfl
@[simp] theorem State.closeSlots_hostq (k : Nat) : (s.closeSlots k).hostq = s.hostq := by unfold State.closeSlots; split <;> first | rfl | exact s.each_keeps (fun t => t.hostq) _ _ fun t x _ => State.when_keeps t (fun t => t.hostq) _ _ rfl
@[simp] theorem State.closeSlots_flash (k : Nat) : (s.closeSlots k).flash = s.flash := by unfold State.closeSlots; split <;> first | rfl | exact s.each_keeps (fun t => t.flash) _ _ fun t x _ => State.when_keeps t (fun t => t.flash) _ _ rfl
@[simp] theorem State.closeSlots_link (k : Nat) : (s.closeSlots k).link = s.link := by unfold State.closeSlots; split <;> first | rfl | exact s.each_keeps (fun t => t.link) _ _ fun t x _ => State.when_keeps t (fun t => t.link) _ _ rfl
@[simp] theorem State.closeSlots_boot (k : Nat) : (s.closeSlots k).boot = s.boot := by unfold State.closeSlots; split <;> first | rfl | exact s.each_keeps (fun t => t.boot) _ _ fun t x _ => State.when_keeps t (fun t => t.boot) _ _ rfl
@[simp] theorem State.closeSlots_power (k : Nat) : (s.closeSlots k).power = s.power := by unfold State.closeSlots; split <;> first | rfl | exact s.each_keeps (fun t => t.power) _ _ fun t x _ => State.when_keeps t (fun t => t.power) _ _ rfl
@[simp] theorem State.closeSlots_intake (k : Nat) : (s.closeSlots k).intake = s.intake := by unfold State.closeSlots; split <;> first | rfl | exact s.each_keeps (fun t => t.intake) _ _ fun t x _ => State.when_keeps t (fun t => t.intake) _ _ rfl
@[simp] theorem State.closeSlots_jsp (k : Nat) : (s.closeSlots k).jsp = s.jsp := by unfold State.closeSlots; split <;> first | rfl | exact s.each_keeps (fun t => t.jsp) _ _ fun t x _ => State.when_keeps t (fun t => t.jsp) _ _ rfl
@[simp] theorem State.closeSlots_outs (k : Nat) : (s.closeSlots k).outs = s.outs := by unfold State.closeSlots; split <;> first | rfl | exact s.each_keeps (fun t => t.outs) _ _ fun t x _ => State.when_keeps t (fun t => t.outs) _ _ rfl
@[simp] theorem State.closeSlots_rd (k : Nat) (z : Nat) : (s.closeSlots k).rd z = s.rd z := by unfold State.closeSlots; split <;> first | rfl | exact s.each_keeps (fun t => t.rd z) _ _ fun t x _ => State.when_keeps t (fun t => t.rd z) _ _ rfl
@[simp] theorem State.closeSlots_fld (k : Nat) (z : Fld) : (s.closeSlots k).fld z = s.fld z := by unfold State.closeSlots; split <;> first | rfl | exact s.each_keeps (fun t => t.fld z) _ _ fun t x _ => State.when_keeps t (fun t => t.fld z) _ _ rfl
@[simp] theorem State.closeSlots_inForce (k : Nat) (z : Fld) : (s.closeSlots k).inForce z = s.inForce z := by unfold State.closeSlots; split <;> first | rfl | exact s.each_keeps (fun t => t.inForce z) _ _ fun t x _ => State.when_keeps t (fun t => t.inForce z) _ _ rfl
@[simp] theorem State.closeSlots_ctr (k : Nat) (z : Nat) : (s.closeSlots k).ctr z = s.ctr z := by unfold State.closeSlots; split <;> first | rfl | exact s.each_keeps (fun t => t.ctr z) _ _ fun t x _ => State.when_keeps t (fun t => t.ctr z) _ _ rfl
@[simp] theorem State.closeSlots_core (k : Nat) (z : Nat) : (s.closeSlots k).core z = s.core z := by unfold State.closeSlots; split <;> first | rfl | exact s.each_keeps (fun t => t.core z) _ _ fun t x _ => State.when_keeps t (fun t => t.core z) _ _ rfl
@[simp] theorem State.closeSlots_eng (k : Nat) (z : Nat) : (s.closeSlots k).eng z = s.eng z := by unfold State.closeSlots; split <;> first | rfl | exact s.each_keeps (fun t => t.eng z) _ _ fun t x _ => State.when_keeps t (fun t => t.eng z) _ _ rfl

/-! ### `complete` -/

@[simp] theorem State.complete_pending (c q : Nat) (b : Option Bool) : (s.complete c q b).pending = s.pending := by unfold State.complete; simp
@[simp] theorem State.complete_now (c q : Nat) (b : Option Bool) : (s.complete c q b).now = s.now := by unfold State.complete; simp
@[simp] theorem State.complete_free (c q : Nat) (b : Option Bool) : (s.complete c q b).free = s.free := by unfold State.complete; simp
@[simp] theorem State.complete_regs (c q : Nat) (b : Option Bool) : (s.complete c q b).regs = s.regs := by unfold State.complete; simp
@[simp] theorem State.complete_rcMgmt (c q : Nat) (b : Option Bool) : (s.complete c q b).rcMgmt = s.rcMgmt := by unfold State.complete; simp
@[simp] theorem State.complete_ctrs (c q : Nat) (b : Option Bool) : (s.complete c q b).ctrs = s.ctrs := by unfold State.complete; simp
@[simp] theorem State.complete_latchHost (c q : Nat) (b : Option Bool) : (s.complete c q b).latchHost = s.latchHost := by unfold State.complete; simp
@[simp] theorem State.complete_latchMgmt (c q : Nat) (b : Option Bool) : (s.complete c q b).latchMgmt = s.latchMgmt := by unfold State.complete; simp
@[simp] theorem State.complete_held (c q : Nat) (b : Option Bool) : (s.complete c q b).held = s.held := by unfold State.complete; simp
@[simp] theorem State.complete_ret (c q : Nat) (b : Option Bool) : (s.complete c q b).ret = s.ret := by unfold State.complete; simp
@[simp] theorem State.complete_retBytes (c q : Nat) (b : Option Bool) : (s.complete c q b).retBytes = s.retBytes := by unfold State.complete; simp
@[simp] theorem State.complete_retBad (c q : Nat) (b : Option Bool) : (s.complete c q b).retBad = s.retBad := by unfold State.complete; simp
@[simp] theorem State.complete_engs (c q : Nat) (b : Option Bool) : (s.complete c q b).engs = s.engs := by unfold State.complete; simp
@[simp] theorem State.complete_flights (c q : Nat) (b : Option Bool) : (s.complete c q b).flights = s.flights := by unfold State.complete; simp
@[simp] theorem State.complete_fetches (c q : Nat) (b : Option Bool) : (s.complete c q b).fetches = s.fetches := by unfold State.complete; simp
@[simp] theorem State.complete_garnet (c q : Nat) (b : Option Bool) : (s.complete c q b).garnet = s.garnet := by unfold State.complete; simp
@[simp] theorem State.complete_marks (c q : Nat) (b : Option Bool) : (s.complete c q b).marks = s.marks := by unfold State.complete; simp
@[simp] theorem State.complete_lastEvent (c q : Nat) (b : Option Bool) : (s.complete c q b).lastEvent = s.lastEvent := by unfold State.complete; simp
@[simp] theorem State.complete_abandonCause (c q : Nat) (b : Option Bool) : (s.complete c q b).abandonCause = s.abandonCause := by unfold State.complete; simp
@[simp] theorem State.complete_mem (c q : Nat) (b : Option Bool) : (s.complete c q b).mem = s.mem := by unfold State.complete; simp
@[simp] theorem State.complete_chk (c q : Nat) (b : Option Bool) : (s.complete c q b).chk = s.chk := by unfold State.complete; simp
@[simp] theorem State.complete_chans (c q : Nat) (b : Option Bool) : (s.complete c q b).chans = s.chans := by unfold State.complete; simp
@[simp] theorem State.complete_stackTab (c q : Nat) (b : Option Bool) : (s.complete c q b).stackTab = s.stackTab := by unfold State.complete; simp
@[simp] theorem State.complete_place (c q : Nat) (b : Option Bool) : (s.complete c q b).place = s.place := by unfold State.complete; simp
@[simp] theorem State.complete_host (c q : Nat) (b : Option Bool) : (s.complete c q b).host = s.host := by unfold State.complete; simp
@[simp] theorem State.complete_hostq (c q : Nat) (b : Option Bool) : (s.complete c q b).hostq = s.hostq := by unfold State.complete; simp
@[simp] theorem State.complete_flash (c q : Nat) (b : Option Bool) : (s.complete c q b).flash = s.flash := by unfold State.complete; simp
@[simp] theorem State.complete_link (c q : Nat) (b : Option Bool) : (s.complete c q b).link = s.link := by unfold State.complete; simp
@[simp] theorem State.complete_boot (c q : Nat) (b : Option Bool) : (s.complete c q b).boot = s.boot := by unfold State.complete; simp
@[simp] theorem State.complete_power (c q : Nat) (b : Option Bool) : (s.complete c q b).power = s.power := by unfold State.complete; simp
@[simp] theorem State.complete_intake (c q : Nat) (b : Option Bool) : (s.complete c q b).intake = s.intake := by unfold State.complete; simp
@[simp] theorem State.complete_jsp (c q : Nat) (b : Option Bool) : (s.complete c q b).jsp = s.jsp := by unfold State.complete; simp
@[simp] theorem State.complete_outs (c q : Nat) (b : Option Bool) : (s.complete c q b).outs = s.outs := by unfold State.complete; simp
@[simp] theorem State.complete_rd (c q : Nat) (b : Option Bool) (z : Nat) : (s.complete c q b).rd z = s.rd z := by unfold State.complete; simp
@[simp] theorem State.complete_fld (c q : Nat) (b : Option Bool) (z : Fld) : (s.complete c q b).fld z = s.fld z := by unfold State.complete; simp
@[simp] theorem State.complete_inForce (c q : Nat) (b : Option Bool) (z : Fld) : (s.complete c q b).inForce z = s.inForce z := by unfold State.complete; simp
@[simp] theorem State.complete_ctr (c q : Nat) (b : Option Bool) (z : Nat) : (s.complete c q b).ctr z = s.ctr z := by unfold State.complete; simp
@[simp] theorem State.complete_eng (c q : Nat) (b : Option Bool) (z : Nat) : (s.complete c q b).eng z = s.eng z := by unfold State.complete; simp

/-! ### `sendSig` -/

@[simp] theorem State.sendSig_pending (x y : Nat) (e : SigKind) (n m : Nat) : (s.sendSig x y e n m).pending = s.pending := (rfl)
@[simp] theorem State.sendSig_now (x y : Nat) (e : SigKind) (n m : Nat) : (s.sendSig x y e n m).now = s.now := (rfl)
@[simp] theorem State.sendSig_free (x y : Nat) (e : SigKind) (n m : Nat) : (s.sendSig x y e n m).free = s.free := (rfl)
@[simp] theorem State.sendSig_regs (x y : Nat) (e : SigKind) (n m : Nat) : (s.sendSig x y e n m).regs = s.regs := (rfl)
@[simp] theorem State.sendSig_rcMgmt (x y : Nat) (e : SigKind) (n m : Nat) : (s.sendSig x y e n m).rcMgmt = s.rcMgmt := (rfl)
@[simp] theorem State.sendSig_ctrs (x y : Nat) (e : SigKind) (n m : Nat) : (s.sendSig x y e n m).ctrs = s.ctrs := (rfl)
@[simp] theorem State.sendSig_latchHost (x y : Nat) (e : SigKind) (n m : Nat) : (s.sendSig x y e n m).latchHost = s.latchHost := (rfl)
@[simp] theorem State.sendSig_latchMgmt (x y : Nat) (e : SigKind) (n m : Nat) : (s.sendSig x y e n m).latchMgmt = s.latchMgmt := (rfl)
@[simp] theorem State.sendSig_held (x y : Nat) (e : SigKind) (n m : Nat) : (s.sendSig x y e n m).held = s.held := (rfl)
@[simp] theorem State.sendSig_ret (x y : Nat) (e : SigKind) (n m : Nat) : (s.sendSig x y e n m).ret = s.ret := (rfl)
@[simp] theorem State.sendSig_retBytes (x y : Nat) (e : SigKind) (n m : Nat) : (s.sendSig x y e n m).retBytes = s.retBytes := (rfl)
@[simp] theorem State.sendSig_retBad (x y : Nat) (e : SigKind) (n m : Nat) : (s.sendSig x y e n m).retBad = s.retBad := (rfl)
@[simp] theorem State.sendSig_cores (x y : Nat) (e : SigKind) (n m : Nat) : (s.sendSig x y e n m).cores = s.cores := (rfl)
@[simp] theorem State.sendSig_engs (x y : Nat) (e : SigKind) (n m : Nat) : (s.sendSig x y e n m).engs = s.engs := (rfl)
@[simp] theorem State.sendSig_clusters (x y : Nat) (e : SigKind) (n m : Nat) : (s.sendSig x y e n m).clusters = s.clusters := (rfl)
@[simp] theorem State.sendSig_fetches (x y : Nat) (e : SigKind) (n m : Nat) : (s.sendSig x y e n m).fetches = s.fetches := (rfl)
@[simp] theorem State.sendSig_garnet (x y : Nat) (e : SigKind) (n m : Nat) : (s.sendSig x y e n m).garnet = s.garnet := (rfl)
@[simp] theorem State.sendSig_marks (x y : Nat) (e : SigKind) (n m : Nat) : (s.sendSig x y e n m).marks = s.marks := (rfl)
@[simp] theorem State.sendSig_lastEvent (x y : Nat) (e : SigKind) (n m : Nat) : (s.sendSig x y e n m).lastEvent = s.lastEvent := (rfl)
@[simp] theorem State.sendSig_abandonCause (x y : Nat) (e : SigKind) (n m : Nat) : (s.sendSig x y e n m).abandonCause = s.abandonCause := (rfl)
@[simp] theorem State.sendSig_mem (x y : Nat) (e : SigKind) (n m : Nat) : (s.sendSig x y e n m).mem = s.mem := (rfl)
@[simp] theorem State.sendSig_chk (x y : Nat) (e : SigKind) (n m : Nat) : (s.sendSig x y e n m).chk = s.chk := (rfl)
@[simp] theorem State.sendSig_chans (x y : Nat) (e : SigKind) (n m : Nat) : (s.sendSig x y e n m).chans = s.chans := (rfl)
@[simp] theorem State.sendSig_stackTab (x y : Nat) (e : SigKind) (n m : Nat) : (s.sendSig x y e n m).stackTab = s.stackTab := (rfl)
@[simp] theorem State.sendSig_place (x y : Nat) (e : SigKind) (n m : Nat) : (s.sendSig x y e n m).place = s.place := (rfl)
@[simp] theorem State.sendSig_host (x y : Nat) (e : SigKind) (n m : Nat) : (s.sendSig x y e n m).host = s.host := (rfl)
@[simp] theorem State.sendSig_hostq (x y : Nat) (e : SigKind) (n m : Nat) : (s.sendSig x y e n m).hostq = s.hostq := (rfl)
@[simp] theorem State.sendSig_flash (x y : Nat) (e : SigKind) (n m : Nat) : (s.sendSig x y e n m).flash = s.flash := (rfl)
@[simp] theorem State.sendSig_link (x y : Nat) (e : SigKind) (n m : Nat) : (s.sendSig x y e n m).link = s.link := (rfl)
@[simp] theorem State.sendSig_boot (x y : Nat) (e : SigKind) (n m : Nat) : (s.sendSig x y e n m).boot = s.boot := (rfl)
@[simp] theorem State.sendSig_power (x y : Nat) (e : SigKind) (n m : Nat) : (s.sendSig x y e n m).power = s.power := (rfl)
@[simp] theorem State.sendSig_intake (x y : Nat) (e : SigKind) (n m : Nat) : (s.sendSig x y e n m).intake = s.intake := (rfl)
@[simp] theorem State.sendSig_jsp (x y : Nat) (e : SigKind) (n m : Nat) : (s.sendSig x y e n m).jsp = s.jsp := (rfl)
@[simp] theorem State.sendSig_outs (x y : Nat) (e : SigKind) (n m : Nat) : (s.sendSig x y e n m).outs = s.outs := (rfl)
@[simp] theorem State.sendSig_rd (x y : Nat) (e : SigKind) (n m : Nat) (z : Nat) : (s.sendSig x y e n m).rd z = s.rd z := (rfl)
@[simp] theorem State.sendSig_fld (x y : Nat) (e : SigKind) (n m : Nat) (z : Fld) : (s.sendSig x y e n m).fld z = s.fld z := (rfl)
@[simp] theorem State.sendSig_inForce (x y : Nat) (e : SigKind) (n m : Nat) (z : Fld) : (s.sendSig x y e n m).inForce z = s.inForce z := (rfl)
@[simp] theorem State.sendSig_ctr (x y : Nat) (e : SigKind) (n m : Nat) (z : Nat) : (s.sendSig x y e n m).ctr z = s.ctr z := (rfl)
@[simp] theorem State.sendSig_core (x y : Nat) (e : SigKind) (n m : Nat) (z : Nat) : (s.sendSig x y e n m).core z = s.core z := (rfl)
@[simp] theorem State.sendSig_eng (x y : Nat) (e : SigKind) (n m : Nat) (z : Nat) : (s.sendSig x y e n m).eng z = s.eng z := (rfl)
@[simp] theorem State.sendSig_cluster (x y : Nat) (e : SigKind) (n m : Nat) (z : Nat) : (s.sendSig x y e n m).cluster z = s.cluster z := (rfl)

/-! ### `crossBridges` -/

@[simp] theorem State.crossBridges_pending (x y n : Nat) : (s.crossBridges x y n).pending = s.pending := by unfold State.crossBridges; dsimp only; (repeat' split) <;> simp
@[simp] theorem State.crossBridges_now (x y n : Nat) : (s.crossBridges x y n).now = s.now := by unfold State.crossBridges; dsimp only; (repeat' split) <;> simp
@[simp] theorem State.crossBridges_free (x y n : Nat) : (s.crossBridges x y n).free = s.free := by unfold State.crossBridges; dsimp only; (repeat' split) <;> simp
@[simp] theorem State.crossBridges_regs (x y n : Nat) : (s.crossBridges x y n).regs = s.regs := by unfold State.crossBridges; dsimp only; (repeat' split) <;> simp
@[simp] theorem State.crossBridges_rcMgmt (x y n : Nat) : (s.crossBridges x y n).rcMgmt = s.rcMgmt := by unfold State.crossBridges; dsimp only; (repeat' split) <;> simp
@[simp] theorem State.crossBridges_latchHost (x y n : Nat) : (s.crossBridges x y n).latchHost = s.latchHost := by unfold State.crossBridges; dsimp only; (repeat' split) <;> simp
@[simp] theorem State.crossBridges_latchMgmt (x y n : Nat) : (s.crossBridges x y n).latchMgmt = s.latchMgmt := by unfold State.crossBridges; dsimp only; (repeat' split) <;> simp
@[simp] theorem State.crossBridges_held (x y n : Nat) : (s.crossBridges x y n).held = s.held := by unfold State.crossBridges; dsimp only; (repeat' split) <;> simp
@[simp] theorem State.crossBridges_ret (x y n : Nat) : (s.crossBridges x y n).ret = s.ret := by unfold State.crossBridges; dsimp only; (repeat' split) <;> simp
@[simp] theorem State.crossBridges_retBytes (x y n : Nat) : (s.crossBridges x y n).retBytes = s.retBytes := by unfold State.crossBridges; dsimp only; (repeat' split) <;> simp
@[simp] theorem State.crossBridges_retBad (x y n : Nat) : (s.crossBridges x y n).retBad = s.retBad := by unfold State.crossBridges; dsimp only; (repeat' split) <;> simp
@[simp] theorem State.crossBridges_cores (x y n : Nat) : (s.crossBridges x y n).cores = s.cores := by unfold State.crossBridges; dsimp only; (repeat' split) <;> simp
@[simp] theorem State.crossBridges_engs (x y n : Nat) : (s.crossBridges x y n).engs = s.engs := by unfold State.crossBridges; dsimp only; (repeat' split) <;> simp
@[simp] theorem State.crossBridges_clusters (x y n : Nat) : (s.crossBridges x y n).clusters = s.clusters := by unfold State.crossBridges; dsimp only; (repeat' split) <;> simp
@[simp] theorem State.crossBridges_flights (x y n : Nat) : (s.crossBridges x y n).flights = s.flights := by unfold State.crossBridges; dsimp only; (repeat' split) <;> simp
@[simp] theorem State.crossBridges_fetches (x y n : Nat) : (s.crossBridges x y n).fetches = s.fetches := by unfold State.crossBridges; dsimp only; (repeat' split) <;> simp
@[simp] theorem State.crossBridges_garnet (x y n : Nat) : (s.crossBridges x y n).garnet = s.garnet := by unfold State.crossBridges; dsimp only; (repeat' split) <;> simp
@[simp] theorem State.crossBridges_marks (x y n : Nat) : (s.crossBridges x y n).marks = s.marks := by unfold State.crossBridges; dsimp only; (repeat' split) <;> simp
@[simp] theorem State.crossBridges_lastEvent (x y n : Nat) : (s.crossBridges x y n).lastEvent = s.lastEvent := by unfold State.crossBridges; dsimp only; (repeat' split) <;> simp
@[simp] theorem State.crossBridges_abandonCause (x y n : Nat) : (s.crossBridges x y n).abandonCause = s.abandonCause := by unfold State.crossBridges; dsimp only; (repeat' split) <;> simp
@[simp] theorem State.crossBridges_mem (x y n : Nat) : (s.crossBridges x y n).mem = s.mem := by unfold State.crossBridges; dsimp only; (repeat' split) <;> simp
@[simp] theorem State.crossBridges_chk (x y n : Nat) : (s.crossBridges x y n).chk = s.chk := by unfold State.crossBridges; dsimp only; (repeat' split) <;> simp
@[simp] theorem State.crossBridges_chans (x y n : Nat) : (s.crossBridges x y n).chans = s.chans := by unfold State.crossBridges; dsimp only; (repeat' split) <;> simp
@[simp] theorem State.crossBridges_stackTab (x y n : Nat) : (s.crossBridges x y n).stackTab = s.stackTab := by unfold State.crossBridges; dsimp only; (repeat' split) <;> simp
@[simp] theorem State.crossBridges_place (x y n : Nat) : (s.crossBridges x y n).place = s.place := by unfold State.crossBridges; dsimp only; (repeat' split) <;> simp
@[simp] theorem State.crossBridges_host (x y n : Nat) : (s.crossBridges x y n).host = s.host := by unfold State.crossBridges; dsimp only; (repeat' split) <;> simp
@[simp] theorem State.crossBridges_hostq (x y n : Nat) : (s.crossBridges x y n).hostq = s.hostq := by unfold State.crossBridges; dsimp only; (repeat' split) <;> simp
@[simp] theorem State.crossBridges_flash (x y n : Nat) : (s.crossBridges x y n).flash = s.flash := by unfold State.crossBridges; dsimp only; (repeat' split) <;> simp
@[simp] theorem State.crossBridges_link (x y n : Nat) : (s.crossBridges x y n).link = s.link := by unfold State.crossBridges; dsimp only; (repeat' split) <;> simp
@[simp] theorem State.crossBridges_boot (x y n : Nat) : (s.crossBridges x y n).boot = s.boot := by unfold State.crossBridges; dsimp only; (repeat' split) <;> simp
@[simp] theorem State.crossBridges_power (x y n : Nat) : (s.crossBridges x y n).power = s.power := by unfold State.crossBridges; dsimp only; (repeat' split) <;> simp
@[simp] theorem State.crossBridges_intake (x y n : Nat) : (s.crossBridges x y n).intake = s.intake := by unfold State.crossBridges; dsimp only; (repeat' split) <;> simp
@[simp] theorem State.crossBridges_jsp (x y n : Nat) : (s.crossBridges x y n).jsp = s.jsp := by unfold State.crossBridges; dsimp only; (repeat' split) <;> simp
@[simp] theorem State.crossBridges_outs (x y n : Nat) : (s.crossBridges x y n).outs = s.outs := by unfold State.crossBridges; dsimp only; (repeat' split) <;> simp
@[simp] theorem State.crossBridges_rd (x y n : Nat) (z : Nat) : (s.crossBridges x y n).rd z = s.rd z := by unfold State.crossBridges; dsimp only; (repeat' split) <;> simp
@[simp] theorem State.crossBridges_fld (x y n : Nat) (z : Fld) : (s.crossBridges x y n).fld z = s.fld z := by unfold State.crossBridges; dsimp only; (repeat' split) <;> simp
@[simp] theorem State.crossBridges_inForce (x y n : Nat) (z : Fld) : (s.crossBridges x y n).inForce z = s.inForce z := by unfold State.crossBridges; dsimp only; (repeat' split) <;> simp
@[simp] theorem State.crossBridges_core (x y n : Nat) (z : Nat) : (s.crossBridges x y n).core z = s.core z := by unfold State.crossBridges; dsimp only; (repeat' split) <;> simp
@[simp] theorem State.crossBridges_eng (x y n : Nat) (z : Nat) : (s.crossBridges x y n).eng z = s.eng z := by unfold State.crossBridges; dsimp only; (repeat' split) <;> simp
@[simp] theorem State.crossBridges_cluster (x y n : Nat) (z : Nat) : (s.crossBridges x y n).cluster z = s.cluster z := by unfold State.crossBridges; dsimp only; (repeat' split) <;> simp

/-! ### `ccParity` -/

@[simp] theorem State.ccParity_pending (k u o : Nat) : (s.ccParity k u o).pending = s.pending := by unfold State.ccParity; simp
@[simp] theorem State.ccParity_now (k u o : Nat) : (s.ccParity k u o).now = s.now := by unfold State.ccParity; simp
@[simp] theorem State.ccParity_free (k u o : Nat) : (s.ccParity k u o).free = s.free := by unfold State.ccParity; simp
@[simp] theorem State.ccParity_regs (k u o : Nat) : (s.ccParity k u o).regs = s.regs := by unfold State.ccParity; simp
@[simp] theorem State.ccParity_rcMgmt (k u o : Nat) : (s.ccParity k u o).rcMgmt = s.rcMgmt := by unfold State.ccParity; simp
@[simp] theorem State.ccParity_latchHost (k u o : Nat) : (s.ccParity k u o).latchHost = s.latchHost := by unfold State.ccParity; simp
@[simp] theorem State.ccParity_latchMgmt (k u o : Nat) : (s.ccParity k u o).latchMgmt = s.latchMgmt := by unfold State.ccParity; simp
@[simp] theorem State.ccParity_held (k u o : Nat) : (s.ccParity k u o).held = s.held := by unfold State.ccParity; simp
@[simp] theorem State.ccParity_ret (k u o : Nat) : (s.ccParity k u o).ret = s.ret := by unfold State.ccParity; simp
@[simp] theorem State.ccParity_retBytes (k u o : Nat) : (s.ccParity k u o).retBytes = s.retBytes := by unfold State.ccParity; simp
@[simp] theorem State.ccParity_retBad (k u o : Nat) : (s.ccParity k u o).retBad = s.retBad := by unfold State.ccParity; simp
@[simp] theorem State.ccParity_cores (k u o : Nat) : (s.ccParity k u o).cores = s.cores := by unfold State.ccParity; simp
@[simp] theorem State.ccParity_engs (k u o : Nat) : (s.ccParity k u o).engs = s.engs := by unfold State.ccParity; simp
@[simp] theorem State.ccParity_clusters (k u o : Nat) : (s.ccParity k u o).clusters = s.clusters := by unfold State.ccParity; simp
@[simp] theorem State.ccParity_flights (k u o : Nat) : (s.ccParity k u o).flights = s.flights := by unfold State.ccParity; simp
@[simp] theorem State.ccParity_fetches (k u o : Nat) : (s.ccParity k u o).fetches = s.fetches := by unfold State.ccParity; simp
@[simp] theorem State.ccParity_garnet (k u o : Nat) : (s.ccParity k u o).garnet = s.garnet := by unfold State.ccParity; simp
@[simp] theorem State.ccParity_marks (k u o : Nat) : (s.ccParity k u o).marks = s.marks := by unfold State.ccParity; simp
@[simp] theorem State.ccParity_abandonCause (k u o : Nat) : (s.ccParity k u o).abandonCause = s.abandonCause := by unfold State.ccParity; simp
@[simp] theorem State.ccParity_mem (k u o : Nat) : (s.ccParity k u o).mem = s.mem := by unfold State.ccParity; simp
@[simp] theorem State.ccParity_chk (k u o : Nat) : (s.ccParity k u o).chk = s.chk := by unfold State.ccParity; simp
@[simp] theorem State.ccParity_chans (k u o : Nat) : (s.ccParity k u o).chans = s.chans := by unfold State.ccParity; simp
@[simp] theorem State.ccParity_stackTab (k u o : Nat) : (s.ccParity k u o).stackTab = s.stackTab := by unfold State.ccParity; simp
@[simp] theorem State.ccParity_place (k u o : Nat) : (s.ccParity k u o).place = s.place := by unfold State.ccParity; simp
@[simp] theorem State.ccParity_host (k u o : Nat) : (s.ccParity k u o).host = s.host := by unfold State.ccParity; simp
@[simp] theorem State.ccParity_hostq (k u o : Nat) : (s.ccParity k u o).hostq = s.hostq := by unfold State.ccParity; simp
@[simp] theorem State.ccParity_flash (k u o : Nat) : (s.ccParity k u o).flash = s.flash := by unfold State.ccParity; simp
@[simp] theorem State.ccParity_link (k u o : Nat) : (s.ccParity k u o).link = s.link := by unfold State.ccParity; simp
@[simp] theorem State.ccParity_boot (k u o : Nat) : (s.ccParity k u o).boot = s.boot := by unfold State.ccParity; simp
@[simp] theorem State.ccParity_power (k u o : Nat) : (s.ccParity k u o).power = s.power := by unfold State.ccParity; simp
@[simp] theorem State.ccParity_outs (k u o : Nat) : (s.ccParity k u o).outs = s.outs := by unfold State.ccParity; simp
@[simp] theorem State.ccParity_rd (k u o : Nat) (z : Nat) : (s.ccParity k u o).rd z = s.rd z := by unfold State.ccParity; simp
@[simp] theorem State.ccParity_fld (k u o : Nat) (z : Fld) : (s.ccParity k u o).fld z = s.fld z := by unfold State.ccParity; simp
@[simp] theorem State.ccParity_inForce (k u o : Nat) (z : Fld) : (s.ccParity k u o).inForce z = s.inForce z := by unfold State.ccParity; simp
@[simp] theorem State.ccParity_core (k u o : Nat) (z : Nat) : (s.ccParity k u o).core z = s.core z := by unfold State.ccParity; simp
@[simp] theorem State.ccParity_eng (k u o : Nat) (z : Nat) : (s.ccParity k u o).eng z = s.eng z := by unfold State.ccParity; simp
@[simp] theorem State.ccParity_cluster (k u o : Nat) (z : Nat) : (s.ccParity k u o).cluster z = s.cluster z := by unfold State.ccParity; simp

/-! ### `ccServed` -/

@[simp] theorem State.ccServed_pending (c : CoreId) (k n : Nat) : (s.ccServed c k n).pending = s.pending := by unfold State.ccServed; simp
@[simp] theorem State.ccServed_now (c : CoreId) (k n : Nat) : (s.ccServed c k n).now = s.now := by unfold State.ccServed; simp
@[simp] theorem State.ccServed_free (c : CoreId) (k n : Nat) : (s.ccServed c k n).free = s.free := by unfold State.ccServed; simp
@[simp] theorem State.ccServed_regs (c : CoreId) (k n : Nat) : (s.ccServed c k n).regs = s.regs := by unfold State.ccServed; simp
@[simp] theorem State.ccServed_rcMgmt (c : CoreId) (k n : Nat) : (s.ccServed c k n).rcMgmt = s.rcMgmt := by unfold State.ccServed; simp
@[simp] theorem State.ccServed_latchHost (c : CoreId) (k n : Nat) : (s.ccServed c k n).latchHost = s.latchHost := by unfold State.ccServed; simp
@[simp] theorem State.ccServed_latchMgmt (c : CoreId) (k n : Nat) : (s.ccServed c k n).latchMgmt = s.latchMgmt := by unfold State.ccServed; simp
@[simp] theorem State.ccServed_held (c : CoreId) (k n : Nat) : (s.ccServed c k n).held = s.held := by unfold State.ccServed; simp
@[simp] theorem State.ccServed_ret (c : CoreId) (k n : Nat) : (s.ccServed c k n).ret = s.ret := by unfold State.ccServed; simp
@[simp] theorem State.ccServed_retBytes (c : CoreId) (k n : Nat) : (s.ccServed c k n).retBytes = s.retBytes := by unfold State.ccServed; simp
@[simp] theorem State.ccServed_retBad (c : CoreId) (k n : Nat) : (s.ccServed c k n).retBad = s.retBad := by unfold State.ccServed; simp
@[simp] theorem State.ccServed_cores (c : CoreId) (k n : Nat) : (s.ccServed c k n).cores = s.cores := by unfold State.ccServed; simp
@[simp] theorem State.ccServed_engs (c : CoreId) (k n : Nat) : (s.ccServed c k n).engs = s.engs := by unfold State.ccServed; simp
@[simp] theorem State.ccServed_clusters (c : CoreId) (k n : Nat) : (s.ccServed c k n).clusters = s.clusters := by unfold State.ccServed; simp
@[simp] theorem State.ccServed_flights (c : CoreId) (k n : Nat) : (s.ccServed c k n).flights = s.flights := by unfold State.ccServed; simp
@[simp] theorem State.ccServed_fetches (c : CoreId) (k n : Nat) : (s.ccServed c k n).fetches = s.fetches := by unfold State.ccServed; simp
@[simp] theorem State.ccServed_garnet (c : CoreId) (k n : Nat) : (s.ccServed c k n).garnet = s.garnet := by unfold State.ccServed; simp
@[simp] theorem State.ccServed_marks (c : CoreId) (k n : Nat) : (s.ccServed c k n).marks = s.marks := by unfold State.ccServed; simp
@[simp] theorem State.ccServed_lastEvent (c : CoreId) (k n : Nat) : (s.ccServed c k n).lastEvent = s.lastEvent := by unfold State.ccServed; simp
@[simp] theorem State.ccServed_abandonCause (c : CoreId) (k n : Nat) : (s.ccServed c k n).abandonCause = s.abandonCause := by unfold State.ccServed; simp
@[simp] theorem State.ccServed_mem (c : CoreId) (k n : Nat) : (s.ccServed c k n).mem = s.mem := by unfold State.ccServed; simp
@[simp] theorem State.ccServed_chk (c : CoreId) (k n : Nat) : (s.ccServed c k n).chk = s.chk := by unfold State.ccServed; simp
@[simp] theorem State.ccServed_chans (c : CoreId) (k n : Nat) : (s.ccServed c k n).chans = s.chans := by unfold State.ccServed; simp
@[simp] theorem State.ccServed_stackTab (c : CoreId) (k n : Nat) : (s.ccServed c k n).stackTab = s.stackTab := by unfold State.ccServed; simp
@[simp] theorem State.ccServed_place (c : CoreId) (k n : Nat) : (s.ccServed c k n).place = s.place := by unfold State.ccServed; simp
@[simp] theorem State.ccServed_host (c : CoreId) (k n : Nat) : (s.ccServed c k n).host = s.host := by unfold State.ccServed; simp
@[simp] theorem State.ccServed_hostq (c : CoreId) (k n : Nat) : (s.ccServed c k n).hostq = s.hostq := by unfold State.ccServed; simp
@[simp] theorem State.ccServed_flash (c : CoreId) (k n : Nat) : (s.ccServed c k n).flash = s.flash := by unfold State.ccServed; simp
@[simp] theorem State.ccServed_link (c : CoreId) (k n : Nat) : (s.ccServed c k n).link = s.link := by unfold State.ccServed; simp
@[simp] theorem State.ccServed_boot (c : CoreId) (k n : Nat) : (s.ccServed c k n).boot = s.boot := by unfold State.ccServed; simp
@[simp] theorem State.ccServed_power (c : CoreId) (k n : Nat) : (s.ccServed c k n).power = s.power := by unfold State.ccServed; simp
@[simp] theorem State.ccServed_intake (c : CoreId) (k n : Nat) : (s.ccServed c k n).intake = s.intake := by unfold State.ccServed; simp
@[simp] theorem State.ccServed_jsp (c : CoreId) (k n : Nat) : (s.ccServed c k n).jsp = s.jsp := by unfold State.ccServed; simp
@[simp] theorem State.ccServed_outs (c : CoreId) (k n : Nat) : (s.ccServed c k n).outs = s.outs := by unfold State.ccServed; simp
@[simp] theorem State.ccServed_rd (c : CoreId) (k n : Nat) (z : Nat) : (s.ccServed c k n).rd z = s.rd z := by unfold State.ccServed; simp
@[simp] theorem State.ccServed_fld (c : CoreId) (k n : Nat) (z : Fld) : (s.ccServed c k n).fld z = s.fld z := by unfold State.ccServed; simp
@[simp] theorem State.ccServed_inForce (c : CoreId) (k n : Nat) (z : Fld) : (s.ccServed c k n).inForce z = s.inForce z := by unfold State.ccServed; simp
@[simp] theorem State.ccServed_core (c : CoreId) (k n : Nat) (z : Nat) : (s.ccServed c k n).core z = s.core z := by unfold State.ccServed; simp
@[simp] theorem State.ccServed_eng (c : CoreId) (k n : Nat) (z : Nat) : (s.ccServed c k n).eng z = s.eng z := by unfold State.ccServed; simp
@[simp] theorem State.ccServed_cluster (c : CoreId) (k n : Nat) (z : Nat) : (s.ccServed c k n).cluster z = s.cluster z := by unfold State.ccServed; simp

/-! ### `actParity` -/

@[simp] theorem State.actParity_pending (c : Nat) : (s.actParity c).pending = s.pending := State.jasper_pending s _ _ _ _
@[simp] theorem State.actParity_now (c : Nat) : (s.actParity c).now = s.now := State.jasper_now s _ _ _ _
@[simp] theorem State.actParity_free (c : Nat) : (s.actParity c).free = s.free := State.jasper_free s _ _ _ _
@[simp] theorem State.actParity_regs (c : Nat) : (s.actParity c).regs = s.regs := State.jasper_regs s _ _ _ _
@[simp] theorem State.actParity_rcMgmt (c : Nat) : (s.actParity c).rcMgmt = s.rcMgmt := State.jasper_rcMgmt s _ _ _ _
@[simp] theorem State.actParity_latchHost (c : Nat) : (s.actParity c).latchHost = s.latchHost := State.jasper_latchHost s _ _ _ _
@[simp] theorem State.actParity_latchMgmt (c : Nat) : (s.actParity c).latchMgmt = s.latchMgmt := State.jasper_latchMgmt s _ _ _ _
@[simp] theorem State.actParity_held (c : Nat) : (s.actParity c).held = s.held := State.jasper_held s _ _ _ _
@[simp] theorem State.actParity_ret (c : Nat) : (s.actParity c).ret = s.ret := State.jasper_ret s _ _ _ _
@[simp] theorem State.actParity_retBytes (c : Nat) : (s.actParity c).retBytes = s.retBytes := State.jasper_retBytes s _ _ _ _
@[simp] theorem State.actParity_retBad (c : Nat) : (s.actParity c).retBad = s.retBad := State.jasper_retBad s _ _ _ _
@[simp] theorem State.actParity_cores (c : Nat) : (s.actParity c).cores = s.cores := State.jasper_cores s _ _ _ _
@[simp] theorem State.actParity_engs (c : Nat) : (s.actParity c).engs = s.engs := State.jasper_engs s _ _ _ _
@[simp] theorem State.actParity_clusters (c : Nat) : (s.actParity c).clusters = s.clusters := State.jasper_clusters s _ _ _ _
@[simp] theorem State.actParity_flights (c : Nat) : (s.actParity c).flights = s.flights := State.jasper_flights s _ _ _ _
@[simp] theorem State.actParity_fetches (c : Nat) : (s.actParity c).fetches = s.fetches := State.jasper_fetches s _ _ _ _
@[simp] theorem State.actParity_garnet (c : Nat) : (s.actParity c).garnet = s.garnet := State.jasper_garnet s _ _ _ _
@[simp] theorem State.actParity_abandonCause (c : Nat) : (s.actParity c).abandonCause = s.abandonCause := State.jasper_abandonCause s _ _ _ _
@[simp] theorem State.actParity_mem (c : Nat) : (s.actParity c).mem = s.mem := State.jasper_mem s _ _ _ _
@[simp] theorem State.actParity_chk (c : Nat) : (s.actParity c).chk = s.chk := State.jasper_chk s _ _ _ _
@[simp] theorem State.actParity_chans (c : Nat) : (s.actParity c).chans = s.chans := State.jasper_chans s _ _ _ _
@[simp] theorem State.actParity_stackTab (c : Nat) : (s.actParity c).stackTab = s.stackTab := State.jasper_stackTab s _ _ _ _
@[simp] theorem State.actParity_place (c : Nat) : (s.actParity c).place = s.place := State.jasper_place s _ _ _ _
@[simp] theorem State.actParity_host (c : Nat) : (s.actParity c).host = s.host := State.jasper_host s _ _ _ _
@[simp] theorem State.actParity_hostq (c : Nat) : (s.actParity c).hostq = s.hostq := State.jasper_hostq s _ _ _ _
@[simp] theorem State.actParity_flash (c : Nat) : (s.actParity c).flash = s.flash := State.jasper_flash s _ _ _ _
@[simp] theorem State.actParity_link (c : Nat) : (s.actParity c).link = s.link := State.jasper_link s _ _ _ _
@[simp] theorem State.actParity_boot (c : Nat) : (s.actParity c).boot = s.boot := State.jasper_boot s _ _ _ _
@[simp] theorem State.actParity_power (c : Nat) : (s.actParity c).power = s.power := State.jasper_power s _ _ _ _
@[simp] theorem State.actParity_outs (c : Nat) : (s.actParity c).outs = s.outs := State.jasper_outs s _ _ _ _
@[simp] theorem State.actParity_rd (c : Nat) (z : Nat) : (s.actParity c).rd z = s.rd z := State.jasper_rd s _ _ _ _ z
@[simp] theorem State.actParity_fld (c : Nat) (z : Fld) : (s.actParity c).fld z = s.fld z := State.jasper_fld s _ _ _ _ z
@[simp] theorem State.actParity_inForce (c : Nat) (z : Fld) : (s.actParity c).inForce z = s.inForce z := State.jasper_inForce s _ _ _ _ z
@[simp] theorem State.actParity_core (c : Nat) (z : Nat) : (s.actParity c).core z = s.core z := State.jasper_core s _ _ _ _ z
@[simp] theorem State.actParity_eng (c : Nat) (z : Nat) : (s.actParity c).eng z = s.eng z := State.jasper_eng s _ _ _ _ z
@[simp] theorem State.actParity_cluster (c : Nat) (z : Nat) : (s.actParity c).cluster z = s.cluster z := State.jasper_cluster s _ _ _ _ z

/-! ### `seqError` -/

@[simp] theorem State.seqError_pending (c : Nat) (f : Fld) (pc : Nat) (p : BitVec 16) : (s.seqError c f pc p).pending = s.pending := (State.jasper_pending _ _ _ _ _).trans ((State.raise_pending _ _).trans (s.when_keeps (fun t => t.pending) _ _ (State.setFld_pending s _ _)))
@[simp] theorem State.seqError_now (c : Nat) (f : Fld) (pc : Nat) (p : BitVec 16) : (s.seqError c f pc p).now = s.now := (State.jasper_now _ _ _ _ _).trans ((State.raise_now _ _).trans (s.when_keeps (fun t => t.now) _ _ (State.setFld_now s _ _)))
@[simp] theorem State.seqError_free (c : Nat) (f : Fld) (pc : Nat) (p : BitVec 16) : (s.seqError c f pc p).free = s.free := (State.jasper_free _ _ _ _ _).trans ((State.raise_free _ _).trans (s.when_keeps (fun t => t.free) _ _ (State.setFld_free s _ _)))
@[simp] theorem State.seqError_rcMgmt (c : Nat) (f : Fld) (pc : Nat) (p : BitVec 16) : (s.seqError c f pc p).rcMgmt = s.rcMgmt := (State.jasper_rcMgmt _ _ _ _ _).trans ((State.raise_rcMgmt _ _).trans (s.when_keeps (fun t => t.rcMgmt) _ _ (State.setFld_rcMgmt s _ _)))
@[simp] theorem State.seqError_latchHost (c : Nat) (f : Fld) (pc : Nat) (p : BitVec 16) : (s.seqError c f pc p).latchHost = s.latchHost := (State.jasper_latchHost _ _ _ _ _).trans ((State.raise_latchHost _ _).trans (s.when_keeps (fun t => t.latchHost) _ _ (State.setFld_latchHost s _ _)))
@[simp] theorem State.seqError_latchMgmt (c : Nat) (f : Fld) (pc : Nat) (p : BitVec 16) : (s.seqError c f pc p).latchMgmt = s.latchMgmt := (State.jasper_latchMgmt _ _ _ _ _).trans ((State.raise_latchMgmt _ _).trans (s.when_keeps (fun t => t.latchMgmt) _ _ (State.setFld_latchMgmt s _ _)))
@[simp] theorem State.seqError_held (c : Nat) (f : Fld) (pc : Nat) (p : BitVec 16) : (s.seqError c f pc p).held = s.held := (State.jasper_held _ _ _ _ _).trans ((State.raise_held _ _).trans (s.when_keeps (fun t => t.held) _ _ (State.setFld_held s _ _)))
@[simp] theorem State.seqError_ret (c : Nat) (f : Fld) (pc : Nat) (p : BitVec 16) : (s.seqError c f pc p).ret = s.ret := (State.jasper_ret _ _ _ _ _).trans ((State.raise_ret _ _).trans (s.when_keeps (fun t => t.ret) _ _ (State.setFld_ret s _ _)))
@[simp] theorem State.seqError_retBytes (c : Nat) (f : Fld) (pc : Nat) (p : BitVec 16) : (s.seqError c f pc p).retBytes = s.retBytes := (State.jasper_retBytes _ _ _ _ _).trans ((State.raise_retBytes _ _).trans (s.when_keeps (fun t => t.retBytes) _ _ (State.setFld_retBytes s _ _)))
@[simp] theorem State.seqError_retBad (c : Nat) (f : Fld) (pc : Nat) (p : BitVec 16) : (s.seqError c f pc p).retBad = s.retBad := (State.jasper_retBad _ _ _ _ _).trans ((State.raise_retBad _ _).trans (s.when_keeps (fun t => t.retBad) _ _ (State.setFld_retBad s _ _)))
@[simp] theorem State.seqError_cores (c : Nat) (f : Fld) (pc : Nat) (p : BitVec 16) : (s.seqError c f pc p).cores = s.cores := (State.jasper_cores _ _ _ _ _).trans ((State.raise_cores _ _).trans (s.when_keeps (fun t => t.cores) _ _ (State.setFld_cores s _ _)))
@[simp] theorem State.seqError_engs (c : Nat) (f : Fld) (pc : Nat) (p : BitVec 16) : (s.seqError c f pc p).engs = s.engs := (State.jasper_engs _ _ _ _ _).trans ((State.raise_engs _ _).trans (s.when_keeps (fun t => t.engs) _ _ (State.setFld_engs s _ _)))
@[simp] theorem State.seqError_clusters (c : Nat) (f : Fld) (pc : Nat) (p : BitVec 16) : (s.seqError c f pc p).clusters = s.clusters := (State.jasper_clusters _ _ _ _ _).trans ((State.raise_clusters _ _).trans (s.when_keeps (fun t => t.clusters) _ _ (State.setFld_clusters s _ _)))
@[simp] theorem State.seqError_flights (c : Nat) (f : Fld) (pc : Nat) (p : BitVec 16) : (s.seqError c f pc p).flights = s.flights := (State.jasper_flights _ _ _ _ _).trans ((State.raise_flights _ _).trans (s.when_keeps (fun t => t.flights) _ _ (State.setFld_flights s _ _)))
@[simp] theorem State.seqError_fetches (c : Nat) (f : Fld) (pc : Nat) (p : BitVec 16) : (s.seqError c f pc p).fetches = s.fetches := (State.jasper_fetches _ _ _ _ _).trans ((State.raise_fetches _ _).trans (s.when_keeps (fun t => t.fetches) _ _ (State.setFld_fetches s _ _)))
@[simp] theorem State.seqError_garnet (c : Nat) (f : Fld) (pc : Nat) (p : BitVec 16) : (s.seqError c f pc p).garnet = s.garnet := (State.jasper_garnet _ _ _ _ _).trans ((State.raise_garnet _ _).trans (s.when_keeps (fun t => t.garnet) _ _ (State.setFld_garnet s _ _)))
@[simp] theorem State.seqError_marks (c : Nat) (f : Fld) (pc : Nat) (p : BitVec 16) : (s.seqError c f pc p).marks = s.marks := (State.jasper_marks _ _ _ _ _).trans ((State.raise_marks _ _).trans (s.when_keeps (fun t => t.marks) _ _ (State.setFld_marks s _ _)))
@[simp] theorem State.seqError_abandonCause (c : Nat) (f : Fld) (pc : Nat) (p : BitVec 16) : (s.seqError c f pc p).abandonCause = s.abandonCause := (State.jasper_abandonCause _ _ _ _ _).trans ((State.raise_abandonCause _ _).trans (s.when_keeps (fun t => t.abandonCause) _ _ (State.setFld_abandonCause s _ _)))
@[simp] theorem State.seqError_mem (c : Nat) (f : Fld) (pc : Nat) (p : BitVec 16) : (s.seqError c f pc p).mem = s.mem := (State.jasper_mem _ _ _ _ _).trans ((State.raise_mem _ _).trans (s.when_keeps (fun t => t.mem) _ _ (State.setFld_mem s _ _)))
@[simp] theorem State.seqError_chk (c : Nat) (f : Fld) (pc : Nat) (p : BitVec 16) : (s.seqError c f pc p).chk = s.chk := (State.jasper_chk _ _ _ _ _).trans ((State.raise_chk _ _).trans (s.when_keeps (fun t => t.chk) _ _ (State.setFld_chk s _ _)))
@[simp] theorem State.seqError_chans (c : Nat) (f : Fld) (pc : Nat) (p : BitVec 16) : (s.seqError c f pc p).chans = s.chans := (State.jasper_chans _ _ _ _ _).trans ((State.raise_chans _ _).trans (s.when_keeps (fun t => t.chans) _ _ (State.setFld_chans s _ _)))
@[simp] theorem State.seqError_stackTab (c : Nat) (f : Fld) (pc : Nat) (p : BitVec 16) : (s.seqError c f pc p).stackTab = s.stackTab := (State.jasper_stackTab _ _ _ _ _).trans ((State.raise_stackTab _ _).trans (s.when_keeps (fun t => t.stackTab) _ _ (State.setFld_stackTab s _ _)))
@[simp] theorem State.seqError_place (c : Nat) (f : Fld) (pc : Nat) (p : BitVec 16) : (s.seqError c f pc p).place = s.place := (State.jasper_place _ _ _ _ _).trans ((State.raise_place _ _).trans (s.when_keeps (fun t => t.place) _ _ (State.setFld_place s _ _)))
@[simp] theorem State.seqError_host (c : Nat) (f : Fld) (pc : Nat) (p : BitVec 16) : (s.seqError c f pc p).host = s.host := (State.jasper_host _ _ _ _ _).trans ((State.raise_host _ _).trans (s.when_keeps (fun t => t.host) _ _ (State.setFld_host s _ _)))
@[simp] theorem State.seqError_hostq (c : Nat) (f : Fld) (pc : Nat) (p : BitVec 16) : (s.seqError c f pc p).hostq = s.hostq := (State.jasper_hostq _ _ _ _ _).trans ((State.raise_hostq _ _).trans (s.when_keeps (fun t => t.hostq) _ _ (State.setFld_hostq s _ _)))
@[simp] theorem State.seqError_flash (c : Nat) (f : Fld) (pc : Nat) (p : BitVec 16) : (s.seqError c f pc p).flash = s.flash := (State.jasper_flash _ _ _ _ _).trans ((State.raise_flash _ _).trans (s.when_keeps (fun t => t.flash) _ _ (State.setFld_flash s _ _)))
@[simp] theorem State.seqError_link (c : Nat) (f : Fld) (pc : Nat) (p : BitVec 16) : (s.seqError c f pc p).link = s.link := (State.jasper_link _ _ _ _ _).trans ((State.raise_link _ _).trans (s.when_keeps (fun t => t.link) _ _ (State.setFld_link s _ _)))
@[simp] theorem State.seqError_boot (c : Nat) (f : Fld) (pc : Nat) (p : BitVec 16) : (s.seqError c f pc p).boot = s.boot := (State.jasper_boot _ _ _ _ _).trans ((State.raise_boot _ _).trans (s.when_keeps (fun t => t.boot) _ _ (State.setFld_boot s _ _)))
@[simp] theorem State.seqError_power (c : Nat) (f : Fld) (pc : Nat) (p : BitVec 16) : (s.seqError c f pc p).power = s.power := (State.jasper_power _ _ _ _ _).trans ((State.raise_power _ _).trans (s.when_keeps (fun t => t.power) _ _ (State.setFld_power s _ _)))
@[simp] theorem State.seqError_outs (c : Nat) (f : Fld) (pc : Nat) (p : BitVec 16) : (s.seqError c f pc p).outs = s.outs := (State.jasper_outs _ _ _ _ _).trans ((State.raise_outs _ _).trans (s.when_keeps (fun t => t.outs) _ _ (State.setFld_outs s _ _)))
@[simp] theorem State.seqError_core (c : Nat) (f : Fld) (pc : Nat) (p : BitVec 16) (z : Nat) : (s.seqError c f pc p).core z = s.core z := (State.jasper_core _ _ _ _ _ z).trans ((State.raise_core _ _ z).trans (s.when_keeps (fun t => t.core z) _ _ (State.setFld_core s _ _ z)))
@[simp] theorem State.seqError_eng (c : Nat) (f : Fld) (pc : Nat) (p : BitVec 16) (z : Nat) : (s.seqError c f pc p).eng z = s.eng z := (State.jasper_eng _ _ _ _ _ z).trans ((State.raise_eng _ _ z).trans (s.when_keeps (fun t => t.eng z) _ _ (State.setFld_eng s _ _ z)))
@[simp] theorem State.seqError_cluster (c : Nat) (f : Fld) (pc : Nat) (p : BitVec 16) (z : Nat) : (s.seqError c f pc p).cluster z = s.cluster z := (State.jasper_cluster _ _ _ _ _ z).trans ((State.raise_cluster _ _ z).trans (s.when_keeps (fun t => t.cluster z) _ _ (State.setFld_cluster s _ _ z)))

/-! ### `markSuspect` -/

@[simp] theorem State.markSuspect_pending (k l : Nat) (x : BitVec 32) : (s.markSuspect k l x).pending = s.pending := by unfold State.markSuspect State.flagRows; dsimp only; refine (State.modCluster_pending _ _ _).trans ((State.when_keeps _ (fun t => t.pending) _ _ (State.count_pending _ _ _)).trans ?_); split <;> rfl
@[simp] theorem State.markSuspect_now (k l : Nat) (x : BitVec 32) : (s.markSuspect k l x).now = s.now := by unfold State.markSuspect State.flagRows; dsimp only; refine (State.modCluster_now _ _ _).trans ((State.when_keeps _ (fun t => t.now) _ _ (State.count_now _ _ _)).trans ?_); split <;> rfl
@[simp] theorem State.markSuspect_free (k l : Nat) (x : BitVec 32) : (s.markSuspect k l x).free = s.free := by unfold State.markSuspect State.flagRows; dsimp only; refine (State.modCluster_free _ _ _).trans ((State.when_keeps _ (fun t => t.free) _ _ (State.count_free _ _ _)).trans ?_); split <;> rfl
@[simp] theorem State.markSuspect_regs (k l : Nat) (x : BitVec 32) : (s.markSuspect k l x).regs = s.regs := by unfold State.markSuspect State.flagRows; dsimp only; refine (State.modCluster_regs _ _ _).trans ((State.when_keeps _ (fun t => t.regs) _ _ (State.count_regs _ _ _)).trans ?_); split <;> rfl
@[simp] theorem State.markSuspect_rcMgmt (k l : Nat) (x : BitVec 32) : (s.markSuspect k l x).rcMgmt = s.rcMgmt := by unfold State.markSuspect State.flagRows; dsimp only; refine (State.modCluster_rcMgmt _ _ _).trans ((State.when_keeps _ (fun t => t.rcMgmt) _ _ (State.count_rcMgmt _ _ _)).trans ?_); split <;> rfl
@[simp] theorem State.markSuspect_latchHost (k l : Nat) (x : BitVec 32) : (s.markSuspect k l x).latchHost = s.latchHost := by unfold State.markSuspect State.flagRows; dsimp only; refine (State.modCluster_latchHost _ _ _).trans ((State.when_keeps _ (fun t => t.latchHost) _ _ (State.count_latchHost _ _ _)).trans ?_); split <;> rfl
@[simp] theorem State.markSuspect_latchMgmt (k l : Nat) (x : BitVec 32) : (s.markSuspect k l x).latchMgmt = s.latchMgmt := by unfold State.markSuspect State.flagRows; dsimp only; refine (State.modCluster_latchMgmt _ _ _).trans ((State.when_keeps _ (fun t => t.latchMgmt) _ _ (State.count_latchMgmt _ _ _)).trans ?_); split <;> rfl
@[simp] theorem State.markSuspect_held (k l : Nat) (x : BitVec 32) : (s.markSuspect k l x).held = s.held := by unfold State.markSuspect State.flagRows; dsimp only; refine (State.modCluster_held _ _ _).trans ((State.when_keeps _ (fun t => t.held) _ _ (State.count_held _ _ _)).trans ?_); split <;> rfl
@[simp] theorem State.markSuspect_ret (k l : Nat) (x : BitVec 32) : (s.markSuspect k l x).ret = s.ret := by unfold State.markSuspect State.flagRows; dsimp only; refine (State.modCluster_ret _ _ _).trans ((State.when_keeps _ (fun t => t.ret) _ _ (State.count_ret _ _ _)).trans ?_); split <;> rfl
@[simp] theorem State.markSuspect_retBytes (k l : Nat) (x : BitVec 32) : (s.markSuspect k l x).retBytes = s.retBytes := by unfold State.markSuspect State.flagRows; dsimp only; refine (State.modCluster_retBytes _ _ _).trans ((State.when_keeps _ (fun t => t.retBytes) _ _ (State.count_retBytes _ _ _)).trans ?_); split <;> rfl
@[simp] theorem State.markSuspect_retBad (k l : Nat) (x : BitVec 32) : (s.markSuspect k l x).retBad = s.retBad := by unfold State.markSuspect State.flagRows; dsimp only; refine (State.modCluster_retBad _ _ _).trans ((State.when_keeps _ (fun t => t.retBad) _ _ (State.count_retBad _ _ _)).trans ?_); split <;> rfl
@[simp] theorem State.markSuspect_cores (k l : Nat) (x : BitVec 32) : (s.markSuspect k l x).cores = s.cores := by unfold State.markSuspect State.flagRows; dsimp only; refine (State.modCluster_cores _ _ _).trans ((State.when_keeps _ (fun t => t.cores) _ _ (State.count_cores _ _ _)).trans ?_); split <;> rfl
@[simp] theorem State.markSuspect_engs (k l : Nat) (x : BitVec 32) : (s.markSuspect k l x).engs = s.engs := by unfold State.markSuspect State.flagRows; dsimp only; refine (State.modCluster_engs _ _ _).trans ((State.when_keeps _ (fun t => t.engs) _ _ (State.count_engs _ _ _)).trans ?_); split <;> rfl
@[simp] theorem State.markSuspect_flights (k l : Nat) (x : BitVec 32) : (s.markSuspect k l x).flights = s.flights := by unfold State.markSuspect State.flagRows; dsimp only; refine (State.modCluster_flights _ _ _).trans ((State.when_keeps _ (fun t => t.flights) _ _ (State.count_flights _ _ _)).trans ?_); split <;> rfl
@[simp] theorem State.markSuspect_fetches (k l : Nat) (x : BitVec 32) : (s.markSuspect k l x).fetches = s.fetches := by unfold State.markSuspect State.flagRows; dsimp only; refine (State.modCluster_fetches _ _ _).trans ((State.when_keeps _ (fun t => t.fetches) _ _ (State.count_fetches _ _ _)).trans ?_); split <;> rfl
@[simp] theorem State.markSuspect_garnet (k l : Nat) (x : BitVec 32) : (s.markSuspect k l x).garnet = s.garnet := by unfold State.markSuspect State.flagRows; dsimp only; refine (State.modCluster_garnet _ _ _).trans ((State.when_keeps _ (fun t => t.garnet) _ _ (State.count_garnet _ _ _)).trans ?_); split <;> rfl
@[simp] theorem State.markSuspect_lastEvent (k l : Nat) (x : BitVec 32) : (s.markSuspect k l x).lastEvent = s.lastEvent := by unfold State.markSuspect State.flagRows; dsimp only; refine (State.modCluster_lastEvent _ _ _).trans ((State.when_keeps _ (fun t => t.lastEvent) _ _ (State.count_lastEvent _ _ _)).trans ?_); split <;> rfl
@[simp] theorem State.markSuspect_abandonCause (k l : Nat) (x : BitVec 32) : (s.markSuspect k l x).abandonCause = s.abandonCause := by unfold State.markSuspect State.flagRows; dsimp only; refine (State.modCluster_abandonCause _ _ _).trans ((State.when_keeps _ (fun t => t.abandonCause) _ _ (State.count_abandonCause _ _ _)).trans ?_); split <;> rfl
@[simp] theorem State.markSuspect_mem (k l : Nat) (x : BitVec 32) : (s.markSuspect k l x).mem = s.mem := by unfold State.markSuspect State.flagRows; dsimp only; refine (State.modCluster_mem _ _ _).trans ((State.when_keeps _ (fun t => t.mem) _ _ (State.count_mem _ _ _)).trans ?_); split <;> rfl
@[simp] theorem State.markSuspect_chk (k l : Nat) (x : BitVec 32) : (s.markSuspect k l x).chk = s.chk := by unfold State.markSuspect State.flagRows; dsimp only; refine (State.modCluster_chk _ _ _).trans ((State.when_keeps _ (fun t => t.chk) _ _ (State.count_chk _ _ _)).trans ?_); split <;> rfl
@[simp] theorem State.markSuspect_chans (k l : Nat) (x : BitVec 32) : (s.markSuspect k l x).chans = s.chans := by unfold State.markSuspect State.flagRows; dsimp only; refine (State.modCluster_chans _ _ _).trans ((State.when_keeps _ (fun t => t.chans) _ _ (State.count_chans _ _ _)).trans ?_); split <;> rfl
@[simp] theorem State.markSuspect_stackTab (k l : Nat) (x : BitVec 32) : (s.markSuspect k l x).stackTab = s.stackTab := by unfold State.markSuspect State.flagRows; dsimp only; refine (State.modCluster_stackTab _ _ _).trans ((State.when_keeps _ (fun t => t.stackTab) _ _ (State.count_stackTab _ _ _)).trans ?_); split <;> rfl
@[simp] theorem State.markSuspect_place (k l : Nat) (x : BitVec 32) : (s.markSuspect k l x).place = s.place := by unfold State.markSuspect State.flagRows; dsimp only; refine (State.modCluster_place _ _ _).trans ((State.when_keeps _ (fun t => t.place) _ _ (State.count_place _ _ _)).trans ?_); split <;> rfl
@[simp] theorem State.markSuspect_host (k l : Nat) (x : BitVec 32) : (s.markSuspect k l x).host = s.host := by unfold State.markSuspect State.flagRows; dsimp only; refine (State.modCluster_host _ _ _).trans ((State.when_keeps _ (fun t => t.host) _ _ (State.count_host _ _ _)).trans ?_); split <;> rfl
@[simp] theorem State.markSuspect_hostq (k l : Nat) (x : BitVec 32) : (s.markSuspect k l x).hostq = s.hostq := by unfold State.markSuspect State.flagRows; dsimp only; refine (State.modCluster_hostq _ _ _).trans ((State.when_keeps _ (fun t => t.hostq) _ _ (State.count_hostq _ _ _)).trans ?_); split <;> rfl
@[simp] theorem State.markSuspect_flash (k l : Nat) (x : BitVec 32) : (s.markSuspect k l x).flash = s.flash := by unfold State.markSuspect State.flagRows; dsimp only; refine (State.modCluster_flash _ _ _).trans ((State.when_keeps _ (fun t => t.flash) _ _ (State.count_flash _ _ _)).trans ?_); split <;> rfl
@[simp] theorem State.markSuspect_link (k l : Nat) (x : BitVec 32) : (s.markSuspect k l x).link = s.link := by unfold State.markSuspect State.flagRows; dsimp only; refine (State.modCluster_link _ _ _).trans ((State.when_keeps _ (fun t => t.link) _ _ (State.count_link _ _ _)).trans ?_); split <;> rfl
@[simp] theorem State.markSuspect_boot (k l : Nat) (x : BitVec 32) : (s.markSuspect k l x).boot = s.boot := by unfold State.markSuspect State.flagRows; dsimp only; refine (State.modCluster_boot _ _ _).trans ((State.when_keeps _ (fun t => t.boot) _ _ (State.count_boot _ _ _)).trans ?_); split <;> rfl
@[simp] theorem State.markSuspect_power (k l : Nat) (x : BitVec 32) : (s.markSuspect k l x).power = s.power := by unfold State.markSuspect State.flagRows; dsimp only; refine (State.modCluster_power _ _ _).trans ((State.when_keeps _ (fun t => t.power) _ _ (State.count_power _ _ _)).trans ?_); split <;> rfl
@[simp] theorem State.markSuspect_intake (k l : Nat) (x : BitVec 32) : (s.markSuspect k l x).intake = s.intake := by unfold State.markSuspect State.flagRows; dsimp only; refine (State.modCluster_intake _ _ _).trans ((State.when_keeps _ (fun t => t.intake) _ _ (State.count_intake _ _ _)).trans ?_); split <;> rfl
@[simp] theorem State.markSuspect_jsp (k l : Nat) (x : BitVec 32) : (s.markSuspect k l x).jsp = s.jsp := by unfold State.markSuspect State.flagRows; dsimp only; refine (State.modCluster_jsp _ _ _).trans ((State.when_keeps _ (fun t => t.jsp) _ _ (State.count_jsp _ _ _)).trans ?_); split <;> rfl
@[simp] theorem State.markSuspect_outs (k l : Nat) (x : BitVec 32) : (s.markSuspect k l x).outs = s.outs := by unfold State.markSuspect State.flagRows; dsimp only; refine (State.modCluster_outs _ _ _).trans ((State.when_keeps _ (fun t => t.outs) _ _ (State.count_outs _ _ _)).trans ?_); split <;> rfl
@[simp] theorem State.markSuspect_rd (k l : Nat) (x : BitVec 32) (z : Nat) : (s.markSuspect k l x).rd z = s.rd z := by unfold State.markSuspect State.flagRows; dsimp only; refine (State.modCluster_rd _ _ _ z).trans ((State.when_keeps _ (fun t => t.rd z) _ _ (State.count_rd _ _ _ z)).trans ?_); split <;> rfl
@[simp] theorem State.markSuspect_fld (k l : Nat) (x : BitVec 32) (z : Fld) : (s.markSuspect k l x).fld z = s.fld z := by unfold State.markSuspect State.flagRows; dsimp only; refine (State.modCluster_fld _ _ _ z).trans ((State.when_keeps _ (fun t => t.fld z) _ _ (State.count_fld _ _ _ z)).trans ?_); split <;> rfl
@[simp] theorem State.markSuspect_inForce (k l : Nat) (x : BitVec 32) (z : Fld) : (s.markSuspect k l x).inForce z = s.inForce z := by unfold State.markSuspect State.flagRows; dsimp only; refine (State.modCluster_inForce _ _ _ z).trans ((State.when_keeps _ (fun t => t.inForce z) _ _ (State.count_inForce _ _ _ z)).trans ?_); split <;> rfl
@[simp] theorem State.markSuspect_core (k l : Nat) (x : BitVec 32) (z : Nat) : (s.markSuspect k l x).core z = s.core z := by unfold State.markSuspect State.flagRows; dsimp only; refine (State.modCluster_core _ _ _ z).trans ((State.when_keeps _ (fun t => t.core z) _ _ (State.count_core _ _ _ z)).trans ?_); split <;> rfl
@[simp] theorem State.markSuspect_eng (k l : Nat) (x : BitVec 32) (z : Nat) : (s.markSuspect k l x).eng z = s.eng z := by unfold State.markSuspect State.flagRows; dsimp only; refine (State.modCluster_eng _ _ _ z).trans ((State.when_keeps _ (fun t => t.eng z) _ _ (State.count_eng _ _ _ z)).trans ?_); split <;> rfl

/-! ### `guardRec` -/

@[simp] theorem State.guardRec_pending (c q : Nat) (p : Prog) (r : Recs) : (s.guardRec c q p r).pending = s.pending := by unfold State.guardRec; dsimp only; (repeat' split) <;> first | rfl | exact (State.when_keeps _ (fun t => t.pending) _ _ (State.markSuspect_pending _ _ _ _)).trans rfl
@[simp] theorem State.guardRec_now (c q : Nat) (p : Prog) (r : Recs) : (s.guardRec c q p r).now = s.now := by unfold State.guardRec; dsimp only; (repeat' split) <;> first | rfl | exact (State.when_keeps _ (fun t => t.now) _ _ (State.markSuspect_now _ _ _ _)).trans rfl
@[simp] theorem State.guardRec_free (c q : Nat) (p : Prog) (r : Recs) : (s.guardRec c q p r).free = s.free := by unfold State.guardRec; dsimp only; (repeat' split) <;> first | rfl | exact (State.when_keeps _ (fun t => t.free) _ _ (State.markSuspect_free _ _ _ _)).trans rfl
@[simp] theorem State.guardRec_regs (c q : Nat) (p : Prog) (r : Recs) : (s.guardRec c q p r).regs = s.regs := by unfold State.guardRec; dsimp only; (repeat' split) <;> first | rfl | exact (State.when_keeps _ (fun t => t.regs) _ _ (State.markSuspect_regs _ _ _ _)).trans rfl
@[simp] theorem State.guardRec_rcMgmt (c q : Nat) (p : Prog) (r : Recs) : (s.guardRec c q p r).rcMgmt = s.rcMgmt := by unfold State.guardRec; dsimp only; (repeat' split) <;> first | rfl | exact (State.when_keeps _ (fun t => t.rcMgmt) _ _ (State.markSuspect_rcMgmt _ _ _ _)).trans rfl
@[simp] theorem State.guardRec_latchHost (c q : Nat) (p : Prog) (r : Recs) : (s.guardRec c q p r).latchHost = s.latchHost := by unfold State.guardRec; dsimp only; (repeat' split) <;> first | rfl | exact (State.when_keeps _ (fun t => t.latchHost) _ _ (State.markSuspect_latchHost _ _ _ _)).trans rfl
@[simp] theorem State.guardRec_latchMgmt (c q : Nat) (p : Prog) (r : Recs) : (s.guardRec c q p r).latchMgmt = s.latchMgmt := by unfold State.guardRec; dsimp only; (repeat' split) <;> first | rfl | exact (State.when_keeps _ (fun t => t.latchMgmt) _ _ (State.markSuspect_latchMgmt _ _ _ _)).trans rfl
@[simp] theorem State.guardRec_held (c q : Nat) (p : Prog) (r : Recs) : (s.guardRec c q p r).held = s.held := by unfold State.guardRec; dsimp only; (repeat' split) <;> first | rfl | exact (State.when_keeps _ (fun t => t.held) _ _ (State.markSuspect_held _ _ _ _)).trans rfl
@[simp] theorem State.guardRec_ret (c q : Nat) (p : Prog) (r : Recs) : (s.guardRec c q p r).ret = s.ret := by unfold State.guardRec; dsimp only; (repeat' split) <;> first | rfl | exact (State.when_keeps _ (fun t => t.ret) _ _ (State.markSuspect_ret _ _ _ _)).trans rfl
@[simp] theorem State.guardRec_retBytes (c q : Nat) (p : Prog) (r : Recs) : (s.guardRec c q p r).retBytes = s.retBytes := by unfold State.guardRec; dsimp only; (repeat' split) <;> first | rfl | exact (State.when_keeps _ (fun t => t.retBytes) _ _ (State.markSuspect_retBytes _ _ _ _)).trans rfl
@[simp] theorem State.guardRec_retBad (c q : Nat) (p : Prog) (r : Recs) : (s.guardRec c q p r).retBad = s.retBad := by unfold State.guardRec; dsimp only; (repeat' split) <;> first | rfl | exact (State.when_keeps _ (fun t => t.retBad) _ _ (State.markSuspect_retBad _ _ _ _)).trans rfl
@[simp] theorem State.guardRec_cores (c q : Nat) (p : Prog) (r : Recs) : (s.guardRec c q p r).cores = s.cores := by unfold State.guardRec; dsimp only; (repeat' split) <;> first | rfl | exact (State.when_keeps _ (fun t => t.cores) _ _ (State.markSuspect_cores _ _ _ _)).trans rfl
@[simp] theorem State.guardRec_engs (c q : Nat) (p : Prog) (r : Recs) : (s.guardRec c q p r).engs = s.engs := by unfold State.guardRec; dsimp only; (repeat' split) <;> first | rfl | exact (State.when_keeps _ (fun t => t.engs) _ _ (State.markSuspect_engs _ _ _ _)).trans rfl
@[simp] theorem State.guardRec_flights (c q : Nat) (p : Prog) (r : Recs) : (s.guardRec c q p r).flights = s.flights := by unfold State.guardRec; dsimp only; (repeat' split) <;> first | rfl | exact (State.when_keeps _ (fun t => t.flights) _ _ (State.markSuspect_flights _ _ _ _)).trans rfl
@[simp] theorem State.guardRec_fetches (c q : Nat) (p : Prog) (r : Recs) : (s.guardRec c q p r).fetches = s.fetches := by unfold State.guardRec; dsimp only; (repeat' split) <;> first | rfl | exact (State.when_keeps _ (fun t => t.fetches) _ _ (State.markSuspect_fetches _ _ _ _)).trans rfl
@[simp] theorem State.guardRec_garnet (c q : Nat) (p : Prog) (r : Recs) : (s.guardRec c q p r).garnet = s.garnet := by unfold State.guardRec; dsimp only; (repeat' split) <;> first | rfl | exact (State.when_keeps _ (fun t => t.garnet) _ _ (State.markSuspect_garnet _ _ _ _)).trans rfl
@[simp] theorem State.guardRec_lastEvent (c q : Nat) (p : Prog) (r : Recs) : (s.guardRec c q p r).lastEvent = s.lastEvent := by unfold State.guardRec; dsimp only; (repeat' split) <;> first | rfl | exact (State.when_keeps _ (fun t => t.lastEvent) _ _ (State.markSuspect_lastEvent _ _ _ _)).trans rfl
@[simp] theorem State.guardRec_abandonCause (c q : Nat) (p : Prog) (r : Recs) : (s.guardRec c q p r).abandonCause = s.abandonCause := by unfold State.guardRec; dsimp only; (repeat' split) <;> first | rfl | exact (State.when_keeps _ (fun t => t.abandonCause) _ _ (State.markSuspect_abandonCause _ _ _ _)).trans rfl
@[simp] theorem State.guardRec_mem (c q : Nat) (p : Prog) (r : Recs) : (s.guardRec c q p r).mem = s.mem := by unfold State.guardRec; dsimp only; (repeat' split) <;> first | rfl | exact (State.when_keeps _ (fun t => t.mem) _ _ (State.markSuspect_mem _ _ _ _)).trans rfl
@[simp] theorem State.guardRec_chk (c q : Nat) (p : Prog) (r : Recs) : (s.guardRec c q p r).chk = s.chk := by unfold State.guardRec; dsimp only; (repeat' split) <;> first | rfl | exact (State.when_keeps _ (fun t => t.chk) _ _ (State.markSuspect_chk _ _ _ _)).trans rfl
@[simp] theorem State.guardRec_chans (c q : Nat) (p : Prog) (r : Recs) : (s.guardRec c q p r).chans = s.chans := by unfold State.guardRec; dsimp only; (repeat' split) <;> first | rfl | exact (State.when_keeps _ (fun t => t.chans) _ _ (State.markSuspect_chans _ _ _ _)).trans rfl
@[simp] theorem State.guardRec_stackTab (c q : Nat) (p : Prog) (r : Recs) : (s.guardRec c q p r).stackTab = s.stackTab := by unfold State.guardRec; dsimp only; (repeat' split) <;> first | rfl | exact (State.when_keeps _ (fun t => t.stackTab) _ _ (State.markSuspect_stackTab _ _ _ _)).trans rfl
@[simp] theorem State.guardRec_place (c q : Nat) (p : Prog) (r : Recs) : (s.guardRec c q p r).place = s.place := by unfold State.guardRec; dsimp only; (repeat' split) <;> first | rfl | exact (State.when_keeps _ (fun t => t.place) _ _ (State.markSuspect_place _ _ _ _)).trans rfl
@[simp] theorem State.guardRec_host (c q : Nat) (p : Prog) (r : Recs) : (s.guardRec c q p r).host = s.host := by unfold State.guardRec; dsimp only; (repeat' split) <;> first | rfl | exact (State.when_keeps _ (fun t => t.host) _ _ (State.markSuspect_host _ _ _ _)).trans rfl
@[simp] theorem State.guardRec_hostq (c q : Nat) (p : Prog) (r : Recs) : (s.guardRec c q p r).hostq = s.hostq := by unfold State.guardRec; dsimp only; (repeat' split) <;> first | rfl | exact (State.when_keeps _ (fun t => t.hostq) _ _ (State.markSuspect_hostq _ _ _ _)).trans rfl
@[simp] theorem State.guardRec_flash (c q : Nat) (p : Prog) (r : Recs) : (s.guardRec c q p r).flash = s.flash := by unfold State.guardRec; dsimp only; (repeat' split) <;> first | rfl | exact (State.when_keeps _ (fun t => t.flash) _ _ (State.markSuspect_flash _ _ _ _)).trans rfl
@[simp] theorem State.guardRec_link (c q : Nat) (p : Prog) (r : Recs) : (s.guardRec c q p r).link = s.link := by unfold State.guardRec; dsimp only; (repeat' split) <;> first | rfl | exact (State.when_keeps _ (fun t => t.link) _ _ (State.markSuspect_link _ _ _ _)).trans rfl
@[simp] theorem State.guardRec_boot (c q : Nat) (p : Prog) (r : Recs) : (s.guardRec c q p r).boot = s.boot := by unfold State.guardRec; dsimp only; (repeat' split) <;> first | rfl | exact (State.when_keeps _ (fun t => t.boot) _ _ (State.markSuspect_boot _ _ _ _)).trans rfl
@[simp] theorem State.guardRec_power (c q : Nat) (p : Prog) (r : Recs) : (s.guardRec c q p r).power = s.power := by unfold State.guardRec; dsimp only; (repeat' split) <;> first | rfl | exact (State.when_keeps _ (fun t => t.power) _ _ (State.markSuspect_power _ _ _ _)).trans rfl
@[simp] theorem State.guardRec_intake (c q : Nat) (p : Prog) (r : Recs) : (s.guardRec c q p r).intake = s.intake := by unfold State.guardRec; dsimp only; (repeat' split) <;> first | rfl | exact (State.when_keeps _ (fun t => t.intake) _ _ (State.markSuspect_intake _ _ _ _)).trans rfl
@[simp] theorem State.guardRec_jsp (c q : Nat) (p : Prog) (r : Recs) : (s.guardRec c q p r).jsp = s.jsp := by unfold State.guardRec; dsimp only; (repeat' split) <;> first | rfl | exact (State.when_keeps _ (fun t => t.jsp) _ _ (State.markSuspect_jsp _ _ _ _)).trans rfl
@[simp] theorem State.guardRec_outs (c q : Nat) (p : Prog) (r : Recs) : (s.guardRec c q p r).outs = s.outs := by unfold State.guardRec; dsimp only; (repeat' split) <;> first | rfl | exact (State.when_keeps _ (fun t => t.outs) _ _ (State.markSuspect_outs _ _ _ _)).trans rfl
@[simp] theorem State.guardRec_rd (c q : Nat) (p : Prog) (r : Recs) (z : Nat) : (s.guardRec c q p r).rd z = s.rd z := by unfold State.guardRec; dsimp only; (repeat' split) <;> first | rfl | exact (State.when_keeps _ (fun t => t.rd z) _ _ (State.markSuspect_rd _ _ _ _ z)).trans rfl
@[simp] theorem State.guardRec_fld (c q : Nat) (p : Prog) (r : Recs) (z : Fld) : (s.guardRec c q p r).fld z = s.fld z := by unfold State.fld; rw [State.guardRec_rd]
@[simp] theorem State.guardRec_inForce (c q : Nat) (p : Prog) (r : Recs) (z : Fld) : (s.guardRec c q p r).inForce z = s.inForce z := by unfold State.inForce State.rdForce; rw [State.guardRec_held, State.guardRec_rd]
@[simp] theorem State.guardRec_core (c q : Nat) (p : Prog) (r : Recs) (z : Nat) : (s.guardRec c q p r).core z = s.core z := by unfold State.guardRec; dsimp only; (repeat' split) <;> first | rfl | exact (State.when_keeps _ (fun t => t.core z) _ _ (State.markSuspect_core _ _ _ _ z)).trans rfl
@[simp] theorem State.guardRec_eng (c q : Nat) (p : Prog) (r : Recs) (z : Nat) : (s.guardRec c q p r).eng z = s.eng z := by unfold State.guardRec; dsimp only; (repeat' split) <;> first | rfl | exact (State.when_keeps _ (fun t => t.eng z) _ _ (State.markSuspect_eng _ _ _ _ z)).trans rfl

/-! ### What changes -/

/-- Closing a slot touches the guard's fields of a cluster, not its cache. -/
@[simp] theorem State.closeSlots_cache (k j : Nat) : ((s.closeSlots k).cluster j).cache = (s.cluster j).cache := by
  unfold State.closeSlots
  split
  · rfl
  refine s.each_keeps (fun t => (t.cluster j).cache) _ _ fun t x _ => State.when_keeps t (fun t => (t.cluster j).cache) _ _ ?_
  by_cases h : k = j
  · subst h
    rw [State.cluster_modCluster_same]
  · rw [State.cluster_modCluster_ne _ _ h]

/-- Where every byte is good, consuming some changes nothing (R249). -/
theorem State.consume_good (c : Nat) (l : List (Nat × Nat)) (h : (s.core c).bufBad = []) : s.consume c l = s := by
  unfold State.consume
  simp [h]

/-- An instruction that leaves its queue leaves the core buffer. -/
@[simp] theorem State.complete_buf (c q d : Nat) (b : Option Bool) : ((s.complete c q b).core d).buf = (s.core d).buf := by
  unfold State.complete
  rw [State.closeSlots_core]
  by_cases h : c = d
  · subst h
    rw [State.core_modCore_same]
    cases b with
    | none => rfl
    | some x => unfold CoreSt.pop; cases x <;> rfl
  · rw [State.core_modCore_ne _ _ h]

/-- It leaves the cluster caches. -/
@[simp] theorem State.complete_cache (c q k : Nat) (b : Option Bool) : ((s.complete c q b).cluster k).cache = (s.cluster k).cache := by
  unfold State.complete
  rw [State.closeSlots_cache]
  rfl

/-- It leaves the other cores. -/
theorem State.complete_core_ne (q : Nat) (b : Option Bool) {c d : Nat} (h : c ≠ d) : (s.complete c q b).core d = s.core d := by
  unfold State.complete
  rw [State.closeSlots_core, State.core_modCore_ne _ _ h]

/-- An instruction at the head of its queue runs: it completes, or its queue waits as the meaning says. -/
theorem State.issue_atHead {c q : Nat} {i : Instr} (run : Prog → State → RunOut) (h : s.atHead c q i = true) :
    ∃ (p : Prog) (b : Option Bool), ((s.core c).seg = none → p.seg = none) ∧
      s.issue c q i run = if (run p s).2 then (run p s).1.complete c q b else (run p s).1 := by
  unfold State.atHead at h
  unfold State.issue
  split
  · exact ⟨_, _, fun _ => rfl, rfl⟩
  · rename_i e inSeg he
    rw [he] at h
    simp only [Option.all_some, decide_eq_true_eq] at h
    rw [if_pos h]
    refine ⟨_, _, fun hs => ?_, rfl⟩
    simp [hs]

/-- An instruction that waits at the head of its queue, or stands behind another head, changes nothing. -/
theorem State.issue_waits {c q : Nat} {i : Instr} {run : Prog → State → RunOut} (h : ∀ p, run p s = (s, false)) : s.issue c q i run = s := by
  unfold State.issue
  repeat' first | split | simp [h]

/-- A suspect mark leaves the cluster caches. -/
@[simp] theorem State.markSuspect_cache (k l j : Nat) (x : BitVec 32) : ((s.markSuspect k l x).cluster j).cache = (s.cluster j).cache := by
  have hf : ∀ t : State, ((t.flagRows (s.slotEnt k l) x).cluster j) = t.cluster j := fun t => by unfold State.flagRows; split <;> rfl
  unfold State.markSuspect
  dsimp only
  by_cases h : k = j
  · subst h
    rw [State.cluster_modCluster_same, State.when_keeps _ (fun t => t.cluster k) _ _ (State.count_cluster _ _ _ _), hf]
  · rw [State.cluster_modCluster_ne _ _ h, State.when_keeps _ (fun t => t.cluster j) _ _ (State.count_cluster _ _ _ _), hf]

/-- A guard record leaves the cluster caches. -/
@[simp] theorem State.guardRec_cache (c q : Nat) (p : Prog) (r : Recs) (j : Nat) :
    ((s.guardRec c q p r).cluster j).cache = (s.cluster j).cache := by
  unfold State.guardRec
  dsimp only
  split
  · rfl
  · split
    · rfl
    · refine (State.when_keeps _ (fun t => (t.cluster j).cache) _ _ (State.markSuspect_cache _ _ _ _ _)).trans ?_
      by_cases h : clusterOf c = j
      · subst h
        rw [State.cluster_modCluster_same]; rfl
      · rw [State.cluster_modCluster_ne _ _ h]; rfl

end Sys2Proof.Machine
end

