-- ==== Sys2Proof/Laws/Keeps.lean ====
section
/-! SUPPORT. What every operation and every command keeps: the queue of commands, the promises of the NOR's counter, the direction of the
clock and of the model's own record, the bound of the intake queue and the canonical form of the byte memories. -/

namespace Sys2Proof.Machine

/-- `s` keeps, from `a` on, what the model keeps everywhere. -/
structure Keeps (a s : State) : Prop where
  pending : s.pending = a.pending
  rpmc : rpmcKept a.boot.rpmc s.boot.rpmc
  now : a.now ≤ s.now
  free : a.free ≤ s.free
  outs : a.outs <+: s.outs
  intake : s.intake.length ≤ 64
  mem : s.mem.wf
  host : s.host.wf
  nor : s.boot.nor.wf
  buffer : s.boot.buffer.wf
  cores : ∀ p ∈ s.cores, p.2.buf.wf
  clusters : ∀ p ∈ s.clusters, p.2.cache.wf

theorem rpmcKept_refl (x : Option (BitVec 256) × Nat) : rpmcKept x x := ⟨fun _ h => h, fun _ => Nat.le_refl _⟩

variable {a s t : State}

/-- A state that differs only in fields outside the promise. -/
theorem Keeps.same (h : Keeps a s) (h1 : t.pending = s.pending) (h2 : t.boot.rpmc = s.boot.rpmc) (h3 : s.now ≤ t.now)
    (h4 : s.free ≤ t.free) (h5 : t.outs = s.outs) (h6 : t.intake = s.intake) (h7 : t.mem = s.mem) (h8 : t.host = s.host)
    (h9 : t.boot.nor = s.boot.nor) (h10 : t.boot.buffer = s.boot.buffer) (h11 : t.cores = s.cores) (h12 : t.clusters = s.clusters) :
    Keeps a t where
  pending := h1 ▸ h.pending
  rpmc := h2 ▸ h.rpmc
  now := Nat.le_trans h.now h3
  free := Nat.le_trans h.free h4
  outs := h5 ▸ h.outs
  intake := h6 ▸ h.intake
  mem := h7 ▸ h.mem
  host := h8 ▸ h.host
  nor := h9 ▸ h.nor
  buffer := h10 ▸ h.buffer
  cores := h11 ▸ h.cores
  clusters := h12 ▸ h.clusters

/-- A record update outside the promise. -/
theorem Keeps.upd (h : Keeps a s) {nowN : Nat} {freeN : Nat} {regsN : NMap (BitVec 32)} {rcMgmtN : NMap (BitVec 32)} {ctrsN : NMap Ctr} {latchHostN : NMap (BitVec 32)} {latchMgmtN : NMap (BitVec 32)} {heldN : NMap (BitVec 32)} {retN : List (BitVec 32)} {retBytesN : List Byte} {retBadN : Bool} {engsN : NMap EngSt} {flightsN : List Flight} {fetchesN : NMap FetchRun} {garnetN : GarnetSt} {marksN : Marks} {lastEventN : Option JReq} {abandonCauseN : Option JReq} {chkN : NMap (BitVec 64)} {chansN : NMap ChanSt} {stackTabN : NMap StackSt} {placeN : PlaceSt} {hostqN : HostSt} {flashN : FlashSt} {linkN : LinkSt} {bootN : BootSt} {powerN : PowerSt} {jspN : JasperSt}
    (h1 : s.now ≤ nowN) (h2 : s.free ≤ freeN) (h3 : bootN.rpmc = s.boot.rpmc) (h4 : bootN.nor = s.boot.nor) (h5 : bootN.buffer = s.boot.buffer) :
    Keeps a { pending := s.pending, now := nowN, free := freeN, regs := regsN, rcMgmt := rcMgmtN, ctrs := ctrsN, latchHost := latchHostN, latchMgmt := latchMgmtN, held := heldN, ret := retN, retBytes := retBytesN, retBad := retBadN, cores := s.cores, engs := engsN, clusters := s.clusters, flights := flightsN, fetches := fetchesN, garnet := garnetN, marks := marksN, lastEvent := lastEventN, abandonCause := abandonCauseN, mem := s.mem, chk := chkN, chans := chansN, stackTab := stackTabN, place := placeN, host := s.host, hostq := hostqN, flash := flashN, link := linkN, boot := bootN, power := powerN, intake := s.intake, jsp := jspN, outs := s.outs } :=
  h.same rfl h3 h1 h2 rfl rfl rfl rfl h4 h5 rfl rfl

theorem NMap.find_mem {β : Type} {m : NMap β} {k : Nat} {v : β} (h : m.find k = some v) : (k, v) ∈ m := by
  induction m with
  | nil => simp [NMap.find] at h
  | cons e m ih =>
    obtain ⟨j, w⟩ := e
    unfold NMap.find at h
    split at h
    · subst_vars
      simp_all
    · exact List.mem_cons_of_mem _ (ih h)

theorem NMap.all_get {β : Type} {P : β → Prop} {d : β} {m : NMap β} (h : ∀ p ∈ m, P p.2) (hd : P d) (k : Nat) : P (NMap.get d m k) := by
  unfold NMap.get
  cases hf : NMap.find m k with
  | none => exact hd
  | some v => exact h _ (NMap.find_mem hf)

theorem NMap.all_set {β : Type} [DecidableEq β] {P : β → Prop} {d : β} {m : NMap β} (h : ∀ p ∈ m, P p.2) (k : Nat) (v : β) (hv : P v) :
    ∀ p ∈ NMap.set d m k v, P p.2 := by
  intro p hp
  unfold NMap.set at hp
  split at hp
  · exact h p (NMap.mem_del hp).1
  · rcases NMap.mem_ins hp with rfl | hp
    · exact hv
    · exact h p hp

theorem NMap.all_mapD {β : Type} [DecidableEq β] {P : β → Prop} {d : β} {m : NMap β} (h : ∀ p ∈ m, P p.2) (f : β → β)
    (hf : ∀ x, P x → P (f x)) : ∀ p ∈ NMap.mapD d f m, P p.2 := by
  intro p hp
  obtain ⟨hp, -⟩ := List.mem_filter.mp hp
  obtain ⟨q, hq, rfl⟩ := List.mem_map.mp hp
  exact hf _ (h q hq)

theorem Mem.wf_nil : Mem.wf [] := NMap.canon_nil _

/-- Each core's buffer and each cluster's cache. -/
theorem Keeps.core (h : Keeps a s) (c : Nat) : (s.core c).buf.wf := NMap.all_get (P := fun x : CoreSt => x.buf.wf) h.cores Mem.wf_nil c
theorem Keeps.cluster (h : Keeps a s) (k : Nat) : (s.cluster k).cache.wf :=
  NMap.all_get (P := fun x : ClusterSt => x.cache.wf) h.clusters Mem.wf_nil k

theorem State.setCore_keeps (h : Keeps a s) (c : Nat) (x : CoreSt) (hx : x.buf.wf) : Keeps a (s.setCore c x) :=
  { h with cores := NMap.all_set (P := fun x : CoreSt => x.buf.wf) h.cores c x hx }

theorem State.modCore_keeps (h : Keeps a s) (c : Nat) (f : CoreSt → CoreSt) (hf : ∀ x : CoreSt, x.buf.wf → (f x).buf.wf) : Keeps a (s.modCore c f) :=
  State.setCore_keeps h c _ (hf _ (h.core c))

theorem State.modEng_keeps (h : Keeps a s) (g : Nat) (f : EngSt → EngSt) : Keeps a (s.modEng g f) := { h with }

theorem State.modCluster_keeps (h : Keeps a s) (k : Nat) (f : ClusterSt → ClusterSt) (hf : ∀ x : ClusterSt, x.cache.wf → (f x).cache.wf) :
    Keeps a (s.modCluster k f) :=
  { h with clusters := NMap.all_set (P := fun x : ClusterSt => x.cache.wf) h.clusters k _ (hf _ (h.cluster k)) }

theorem State.wr_keeps (h : Keeps a s) (r : Nat) (v : BitVec 32) : Keeps a (s.wr r v) := { h with }
theorem State.setFld_keeps (h : Keeps a s) (f : Fld) (v : Nat) : Keeps a (s.setFld f v) := { h with }
theorem State.raise_keeps (h : Keeps a s) (f : Fld) : Keeps a (s.raise f) := { h with }
theorem State.count_keeps (h : Keeps a s) (r n : Nat) : Keeps a (s.count r n) := { h with }
theorem State.out_keeps (h : Keeps a s) (e : OutEv) : Keeps a (s.out e) := { h with outs := h.outs.trans (List.prefix_append _ _) }
theorem State.fresh_keeps (h : Keeps a s) : Keeps a s.fresh.2 := { h with free := Nat.le_trans h.free (Nat.le_succ _) }
theorem State.giveJasper_keeps (h : Keeps a s) (e : JReq) : Keeps a (s.giveJasper e) := by
  have hi := State.giveJasper_bounded s e h.intake
  unfold State.giveJasper at hi ⊢
  dsimp only at hi ⊢
  split
  · rename_i hl
    rw [if_pos hl] at hi
    exact { h with intake := hi }
  · exact { h with }
theorem State.jasperK_keeps (h : Keeps a s) (e : JCode) (n u d d2 : Nat) : Keeps a (s.jasperK e n u d d2) := State.giveJasper_keeps h _
theorem State.jasperAlone_keeps (h : Keeps a s) (e : JCode) (u d d2 : Nat) (b : Bool) : Keeps a (s.jasperAlone e u d d2 b) := State.giveJasper_keeps h _
theorem State.jasper_keeps (h : Keeps a s) (e : JCode) (u d d2 : Nat) : Keeps a (s.jasper e u d d2) := State.jasperK_keeps h e _ u d d2
theorem State.modPlace_keeps (h : Keeps a s) (f : PlaceSt → PlaceSt) : Keeps a (s.modPlace f) := { h with }
theorem State.modMarks_keeps (h : Keeps a s) (f : Marks → Marks) : Keeps a (s.modMarks f) := { h with }
theorem State.modFlash_keeps (h : Keeps a s) (f : FlashSt → FlashSt) : Keeps a (s.modFlash f) := { h with }
theorem State.modHost_keeps (h : Keeps a s) (f : HostSt → HostSt) : Keeps a (s.modHost f) := { h with }
theorem State.modPower_keeps (h : Keeps a s) (f : PowerSt → PowerSt) : Keeps a (s.modPower f) := { h with }
theorem State.modJsp_keeps (h : Keeps a s) (f : JasperSt → JasperSt) : Keeps a (s.modJsp f) := { h with }
theorem State.modPort_keeps (h : Keeps a s) (p : Nat) (f : PortSt → PortSt) : Keeps a (s.modPort p f) := { h with }
theorem State.modChan_keeps (h : Keeps a s) (c : Nat) (f : ChanSt → ChanSt) : Keeps a (s.modChan c f) := { h with }
theorem State.modStack_keeps (h : Keeps a s) (c : Nat) (f : StackSt → StackSt) : Keeps a (s.modStack c f) := { h with }

theorem State.each_keepsK {α : Type} (h : Keeps a s) (xs : List α) (f : State → α → State) (hf : ∀ t x, Keeps a t → Keeps a (f t x)) :
    Keeps a (s.each xs f) := State.each_inv s (Keeps a) xs f h fun t x _ ht => hf t x ht
theorem State.when_keepsK (h : Keeps a s) (b : Bool) (f : State → State) (hf : ∀ t, Keeps a t → Keeps a (f t)) : Keeps a (s.when b f) := by
  cases b
  · exact h
  · exact hf s h
theorem State.pass_keepsK (h : Keeps a s) (n : Nat) : Keeps a (s.pass n) := by
  unfold State.pass
  split
  · exact h
  · dsimp only
    refine State.when_keepsK (State.each_keepsK (State.each_keepsK (State.each_keepsK (State.each_keepsK ?_ _ _ fun _ _ h => State.count_keeps h _ _)
      _ _ fun t c h => ?_) _ _ fun _ _ h => State.when_keepsK h _ _ fun _ h => State.count_keeps h _ _) _ _ fun _ _ h =>
        State.when_keepsK h _ _ fun _ h => State.count_keeps h _ _) _ _ fun _ h => State.each_keepsK h _ _ fun _ _ h => State.setFld_keeps h _ _
    · exact { h with now := Nat.le_trans h.now (Nat.le_add_right _ _) }
    · split
      · exact State.modCore_keeps h _ _ fun _ h => h
      · exact h
theorem State.clockTo_keeps (h : Keeps a s) (t : Nat) : Keeps a (s.clockTo t) := State.pass_keepsK h _
theorem Keeps.ite {c : Prop} [Decidable c] {x y : State} (hx : Keeps a x) (hy : Keeps a y) : Keeps a (if c then x else y) := by
  split <;> assumption
theorem Keeps.foldl {α : Type} (xs : List α) (f : State → α → State) (h : Keeps a s) (hf : ∀ t x, Keeps a t → Keeps a (f t x)) :
    Keeps a (xs.foldl f s) := State.each_inv s (Keeps a) xs f h fun t x _ ht => hf t x ht
theorem Keeps.foldl2 {α β : Type} (xs : List α) (f : β × State → α → β × State) (p : β × State) (h : Keeps a p.2)
    (hf : ∀ q x, Keeps a q.2 → Keeps a (f q x).2) : Keeps a (xs.foldl f p).2 := by
  induction xs generalizing p with
  | nil => exact h
  | cons x xs ih => exact ih _ (hf p x h)
theorem Keeps.foldl3 {α β γ : Type} (xs : List α) (f : β × γ × State → α → β × γ × State) (p : β × γ × State) (h : Keeps a p.2.2)
    (hf : ∀ q x, Keeps a q.2.2 → Keeps a (f q x).2.2) : Keeps a (xs.foldl f p).2.2 := by
  induction xs generalizing p with
  | nil => exact h
  | cons x xs ih => exact ih _ (hf p x h)

/-- A state named on the way. -/
theorem Keeps.cut {P : Prop} (x : State) (hx : Keeps a x) (hp : Keeps a x → P) : P := hp hx
theorem Keeps.cut2 {β : Type} {P : Prop} (x : β × State) (hx : Keeps a x.2) (hp : Keeps a x.2 → P) : P := hp hx
theorem Keeps.cut1 {β : Type} {P : Prop} (x : State × β) (hx : Keeps a x.1) (hp : Keeps a x.1 → P) : P := hp hx
theorem Keeps.cut3 {β γ : Type} {P : Prop} (x : β × γ × State) (hx : Keeps a x.2.2) (hp : Keeps a x.2.2 → P) : P := hp hx

theorem State.maxRc_keeps (h : Keeps a s) (f : Fld) (v : Nat) : Keeps a (s.maxRc f v) := by
  unfold State.maxRc
  dsimp only
  split <;> split <;> exact { h with }

theorem State.setEng_keeps (h : Keeps a s) (g : Nat) (x : EngSt) : Keeps a (s.setEng g x) := { h with }
theorem State.setCluster_keeps (h : Keeps a s) (k : Nat) (x : ClusterSt) (hx : x.cache.wf) : Keeps a (s.setCluster k x) :=
  { h with clusters := NMap.all_set (P := fun x : ClusterSt => x.cache.wf) h.clusters k x hx }
theorem State.crossBridges_keeps (h : Keeps a s) (x y n : Nat) : Keeps a (s.crossBridges x y n) := by
  unfold State.crossBridges
  dsimp only
  repeat' first
    | with_reducible exact h
    | with_reducible apply State.count_keeps
    | split

theorem Keeps.mapCores (h : Keeps a s) (f : CoreSt → CoreSt) (hf : ∀ x : CoreSt, x.buf.wf → (f x).buf.wf) :
    ∀ p ∈ NMap.mapD {} f s.cores, p.2.buf.wf := NMap.all_mapD (P := fun x : CoreSt => x.buf.wf) h.cores f hf
theorem Keeps.mapClusters (h : Keeps a s) (f : ClusterSt → ClusterSt) (hf : ∀ x : ClusterSt, x.cache.wf → (f x).cache.wf) :
    ∀ p ∈ NMap.mapD {} f s.clusters, p.2.cache.wf := NMap.all_mapD (P := fun x : ClusterSt => x.cache.wf) h.clusters f hf

/-- Every next state of an outcome keeps the promise. -/
structure OutKeeps (a : State) (o : Host.Outcome State Fault Refusal) : Prop where
  get : ∀ t, o = .next t → Keeps a t
theorem OutKeeps.next (h : Keeps a s) : OutKeeps a (.next s) := ⟨fun t ht => by injection ht with ht; exact ht ▸ h⟩
theorem OutKeeps.fault (a : State) (f : Fault) : OutKeeps a (.fault f) := ⟨fun t ht => by injection ht⟩

/-! ### Buffers -/

theorem State.fresh_keeps2 {t0 : State} {x0 : Nat} (he0 : s.fresh = (x0, t0)) (h : Keeps a s) : Keeps a t0 := by
  have := State.fresh_keeps h
  rw [he0] at this
  exact this
theorem CoreSt.put_wf {x : CoreSt} (h : x.buf.wf) (p : Nat) (bs : List Byte) : (x.put p bs).buf.wf := Mem.wf_wrBlk h _ _
theorem CoreSt.pop_wf {x : CoreSt} (h : x.buf.wf) (q : Nat) (b : Bool) : (x.pop q b).buf.wf := by
  unfold CoreSt.pop
  split <;> exact h
theorem CoreSt.push_wf {x : CoreSt} (h : x.buf.wf) (b : Bool) (q : Nat) (e : QEnt) : (x.push b q e).buf.wf := by
  unfold CoreSt.push
  split <;> exact h
theorem CoreSt.pushLayer_wf {x : CoreSt} (h : x.buf.wf) (c : CoreId) (n : BitVec 16) (i : Nat) (pid : BitVec 16) : (x.pushLayer c n i pid).buf.wf := by
  unfold CoreSt.pushLayer
  generalize List.finRange 8 = l
  induction l generalizing x with
  | nil => exact h
  | cons q l ih => exact ih (CoreSt.push_wf h _ _ _)
theorem CoreSt.subAt_wf {x : CoreSt} (h : x.buf.wf) (o t p u : Nat) : (x.subAt o t p u).buf.wf := by
  unfold CoreSt.subAt
  dsimp only
  split <;> exact h
theorem CoreSt.store_wf {x : CoreSt} (h : x.buf.wf) (t : VTy) (p : Nat) (l : List (Nat × Nat)) : (x.store t p l).buf.wf := by
  unfold CoreSt.store
  induction l generalizing x with
  | nil => exact h
  | cons e l ih => exact ih (CoreSt.put_wf h _ _)

end Sys2Proof.Machine
end

