-- ==== Sys2Proof/Laws/KeepsOps.lean ====
section
/-! SUPPORT. What the shared operations keep (see `Keeps`): one lemma for each operation and each command. -/

namespace Sys2Proof.Machine

/-! ### Ops -/

theorem State.forceFld_keeps {k0 s : State} (hK : Keeps k0 s) (f : Fld) (v : Nat) : Keeps k0 (State.forceFld s f v) := by
  unfold State.forceFld
  repeat' first
    | with_reducible assumption
    | (with_reducible apply State.setFld_keeps)
    | fail_if_no_progress (with_reducible refine Keeps.upd ?_ (Nat.le_refl _) (Nat.le_refl _) rfl rfl rfl)

/-! ### HostMem -/

theorem State.sendMsix_keeps {b0 s : State} (h : Keeps b0 s) (v : Nat) : Keeps b0 (s.sendMsix v) := by
  unfold State.sendMsix
  dsimp only
  split
  · exact { h with }
  · exact { h with outs := h.outs.trans (List.prefix_append _ _) }

theorem State.signalVector_keeps {k0 s : State} (hK : Keeps k0 s) (v : Nat) : Keeps k0 (State.signalVector s v) := by
  unfold State.signalVector
  repeat' first
    | with_reducible assumption
    | (with_reducible apply State.sendMsix_keeps)
    | fail_if_no_progress (with_reducible refine Keeps.upd ?_ (Nat.le_refl _) (Nat.le_refl _) rfl rfl rfl)
    | (intro x; clear_value x)
    | split
    | lift_lets -underBinder

theorem State.hostWrite_keeps {b0 s : State} (h : Keeps b0 s) (p : Nat) (bs : List Byte) : Keeps b0 (s.hostWrite p bs) :=
  { h with host := Mem.wf_wrBlk h.host _ _ }

theorem State.writeEvent_keeps {k0 s : State} (hK : Keeps k0 s) (p : Nat) (bs : List Byte) : Keeps k0 (State.writeEvent s p bs) := by
  unfold State.writeEvent
  repeat' first
    | with_reducible assumption
    | (with_reducible apply State.hostWrite_keeps)
    | (with_reducible apply State.setFld_keeps)
    | (with_reducible apply State.signalVector_keeps)
    | (with_reducible apply State.when_keepsK)
    | (intro _ _; beta_reduce)

theorem State.postEvent_keeps {k0 s : State} (hK : Keeps k0 s) (p : Nat) (type : Nat) (object : Nat) (session : Nat) (detail : Nat) (payload : List Byte) : Keeps k0 (State.postEvent s p type object session detail payload) := by
  unfold State.postEvent
  repeat' first
    | with_reducible assumption
    | (with_reducible apply State.count_keeps)
    | (with_reducible apply State.raise_keeps)
    | (with_reducible apply State.writeEvent_keeps)
    | fail_if_no_progress (with_reducible refine Keeps.upd ?_ (Nat.le_refl _) (Nat.le_refl _) rfl rfl rfl)
    | split

theorem State.postAll_keeps {k0 s : State} (hK : Keeps k0 s) (type : Nat) (object : Nat) (session : Nat) (detail : Nat) (payload : List Byte) : Keeps k0 (State.postAll s type object session detail payload) := by
  unfold State.postAll
  repeat' first
    | with_reducible assumption
    | (with_reducible apply State.postEvent_keeps)
    | (with_reducible apply State.each_keepsK)
    | (intro _ _ _; beta_reduce)

theorem State.modQueue_keeps {k0 s : State} (hK : Keeps k0 s) (q : Nat) (f : QueueSt → QueueSt) : Keeps k0 (State.modQueue s q f) := by
  unfold State.modQueue
  repeat' first
    | with_reducible assumption
    | fail_if_no_progress (with_reducible refine Keeps.upd ?_ (Nat.le_refl _) (Nat.le_refl _) rfl rfl rfl)

theorem State.putCompletion_keeps {k0 s : State} (hK : Keeps k0 s) (q : Nat) (e : BitVec 128) : Keeps k0 (State.putCompletion s q e) := by
  unfold State.putCompletion
  repeat' first
    | with_reducible assumption
    | (with_reducible apply State.hostWrite_keeps)
    | (with_reducible apply State.setFld_keeps)
    | (with_reducible apply State.modQueue_keeps)
    | (with_reducible apply State.count_keeps)
    | (with_reducible apply State.signalVector_keeps)
    | (with_reducible apply State.when_keepsK)
    | (intro _ _; beta_reduce)

theorem State.completeCmd_keeps {k0 s : State} (hK : Keeps k0 s) (c : CmdRef) (st : Status) (result : Nat) : Keeps k0 (State.completeCmd s c st result) := by
  unfold State.completeCmd
  repeat' first
    | with_reducible assumption
    | (with_reducible apply State.putCompletion_keeps)
    | (with_reducible apply State.modQueue_keeps)
    | split

theorem State.drainCq_keeps {b0 s : State} (h : Keeps b0 s) (q n : Nat) : Keeps b0 (s.drainCq q n) := by
  induction n generalizing s with
  | zero => exact h
  | succ n ih =>
    unfold State.drainCq
    split
    · exact h
    · split
      · exact ih (State.putCompletion_keeps (State.modQueue_keeps h _ _) _ _)
      · exact h

theorem State.recountPages_keeps {k0 s : State} (hK : Keeps k0 s) : Keeps k0 (State.recountPages s) := by
  unfold State.recountPages
  repeat' first
    | with_reducible assumption
    | (with_reducible apply State.setFld_keeps)

theorem State.takePages_keeps {k0 s : State} (hK : Keeps k0 s) : Keeps k0 (State.takePages s) := by
  unfold State.takePages
  repeat' first
    | with_reducible assumption
    | (with_reducible apply State.recountPages_keeps)
    | fail_if_no_progress (with_reducible refine Keeps.upd ?_ (Nat.le_refl _) (Nat.le_refl _) rfl rfl rfl)

theorem State.startRing_keeps {k0 s : State} (hK : Keeps k0 s) (enable : Fld) (prod : Fld) (was : Bool) : Keeps k0 (State.startRing s enable prod was) := by
  unfold State.startRing
  repeat' first
    | with_reducible assumption
    | (with_reducible apply State.setFld_keeps)
    | (with_reducible apply State.when_keepsK)
    | (intro _ _; beta_reduce)

theorem State.releaseHeld_keeps {k0 s : State} (hK : Keeps k0 s) (keep : Nat → Bool) : Keeps k0 (State.releaseHeld s keep) := by
  unfold State.releaseHeld
  repeat' first
    | with_reducible assumption
    | (with_reducible apply State.startRing_keeps)
    | (with_reducible apply State.recountPages_keeps)
    | (with_reducible apply State.each_keepsK)
    | fail_if_no_progress (with_reducible refine Keeps.upd ?_ (Nat.le_refl _) (Nat.le_refl _) rfl rfl rfl)
    | (intro _ _ _; beta_reduce)

theorem State.hostTileFailed_keeps {k0 s : State} (hK : Keeps k0 s) (p : Nat) (o : Nat) (t : Nat) : Keeps k0 (State.hostTileFailed s p o t) := by
  unfold State.hostTileFailed
  repeat' first
    | with_reducible assumption
    | (with_reducible apply State.count_keeps)
    | (with_reducible apply State.jasper_keeps)
    | (with_reducible apply State.postEvent_keeps)

/-! ### FlashOps -/

theorem State.modImg_keeps {k0 s : State} (hK : Keeps k0 s) (f : OnyxImg → OnyxImg) : Keeps k0 (State.modImg s f) := by
  unfold State.modImg
  repeat' first
    | with_reducible assumption
    | (with_reducible apply State.modFlash_keeps)

theorem State.putSys_keeps {k0 s : State} (hK : Keeps k0 s) (lane : Nat) (block : Nat) (page : Nat) (b : SysBody) (epoch : BitVec 64) (data : List Byte) : Keeps k0 (State.putSys s lane block page b epoch data) := by
  unfold State.putSys
  repeat' first
    | with_reducible assumption
    | (with_reducible apply State.count_keeps)
    | (with_reducible apply State.modFlash_keeps)

theorem State.putPage_keeps {k0 s : State} (hK : Keeps k0 s) (lane : Nat) (block : Nat) (page : Nat) (cws : List CodeWord) : Keeps k0 (State.putPage s lane block page cws) := by
  unfold State.putPage
  repeat' first
    | with_reducible assumption
    | (with_reducible apply State.count_keeps)
    | (with_reducible apply State.modFlash_keeps)

theorem State.wipeBlock_keeps {k0 s : State} (hK : Keeps k0 s) (k : Nat) : Keeps k0 (State.wipeBlock s k) := by
  unfold State.wipeBlock
  repeat' first
    | with_reducible assumption
    | (with_reducible apply State.modFlash_keeps)

theorem State.queueRefresh_keeps {k0 s : State} (hK : Keeps k0 s) (k : Nat) (why : RefreshWhy) : Keeps k0 (State.queueRefresh s k why) := by
  unfold State.queueRefresh
  repeat' first
    | with_reducible assumption
    | (with_reducible apply State.modFlash_keeps)
    | split

theorem State.countReads_keeps {k0 s : State} (hK : Keeps k0 s) (k : Nat) (n : Nat) : Keeps k0 (State.countReads s k n) := by
  unfold State.countReads
  repeat' first
    | with_reducible assumption
    | (with_reducible apply State.modImg_keeps)
    | (with_reducible apply State.modFlash_keeps)
    | (with_reducible apply State.queueRefresh_keeps)
    | (with_reducible apply State.when_keepsK)
    | (intro _ _; beta_reduce)

theorem State.journal_keeps {k0 s : State} (hK : Keeps k0 s) (recs : List JRec) : Keeps k0 (State.journal s recs) := by
  unfold State.journal
  repeat' first
    | with_reducible assumption
    | (with_reducible apply State.modFlash_keeps)

theorem State.retireBlock_keeps {k0 s : State} (hK : Keeps k0 s) (lane : Nat) (block : Nat) (why : RetireWhy) : Keeps k0 (State.retireBlock s lane block why) := by
  unfold State.retireBlock
  repeat' first
    | with_reducible assumption
    | (with_reducible apply State.modImg_keeps)
    | (with_reducible apply State.journal_keeps)
    | (with_reducible apply State.count_keeps)
    | (with_reducible apply State.jasper_keeps)

theorem State.onyxSet_keeps {k0 s : State} (hK : Keeps k0 s) (v : Nat) : Keeps k0 (State.onyxSet s v) := by
  unfold State.onyxSet
  repeat' first
    | with_reducible assumption
    | (with_reducible apply State.setFld_keeps)
    | (with_reducible apply State.jasper_keeps)
    | split

theorem State.refreshOnyx_keeps {k0 s : State} (hK : Keeps k0 s) : Keeps k0 (State.refreshOnyx s) := by
  unfold State.refreshOnyx
  repeat' first
    | with_reducible assumption
    | (with_reducible apply State.setFld_keeps)
    | (with_reducible apply State.onyxSet_keeps)
    | (intro x; refine Keeps.cut (a := k0) x ?_ (fun hx => ?_); rotate_left; clear_value x; rotate_right; subst x)
    | (intro x; clear_value x)
    | split
    | lift_lets -underBinder

theorem State.drawRead_keeps {k0 s : State} (hK : Keeps k0 s) : Keeps k0 (State.drawRead s).2 := by
  unfold State.drawRead
  repeat' first
    | with_reducible assumption
    | (with_reducible apply State.fresh_keeps)
theorem State.decodeCode_keeps {k0 s : State} (hK : Keeps k0 s) (lane : Nat) (block : Nat) (page : Nat) (slot : Nat) (asked : Nat × Nat) (fits : Bool) (r : CodeRead) (alone : Bool) : Keeps k0 (State.decodeCode s lane block page slot asked fits r alone).2 := by
  unfold State.decodeCode
  repeat' first
    | with_reducible assumption
    | (with_reducible apply State.count_keeps)
    | (with_reducible apply State.countReads_keeps)
    | (with_reducible apply State.jasperAlone_keeps)
    | (with_reducible apply State.modFlash_keeps)
    | (with_reducible apply State.queueRefresh_keeps)
    | (with_reducible apply State.when_keepsK)
    | (intro x; refine Keeps.cut (a := k0) x ?_ (fun hx => ?_); rotate_left; clear_value x; rotate_right; subst x)
    | (intro x; clear_value x)
    | (intro _ _; beta_reduce)
    | split
    | lift_lets -underBinder
theorem State.pageRead_keeps {k0 s : State} (hK : Keeps k0 s) (lane : Nat) (block : Nat) (us : Nat) : Keeps k0 (State.pageRead s lane block us) := by
  unfold State.pageRead
  repeat' first
    | with_reducible assumption
    | (with_reducible apply State.count_keeps)
    | (with_reducible apply State.maxRc_keeps)
    | (with_reducible apply State.countReads_keeps)

theorem State.readSysPage_keeps {k0 s : State} (hK : Keeps k0 s) (key : Nat) (outs : List CodeRead) (us : Nat) : Keeps k0 (State.readSysPage s key outs us).2 := by
  unfold State.readSysPage
  repeat' first
    | with_reducible assumption
    | (with_reducible apply State.decodeCode_keeps)
    | (with_reducible apply State.pageRead_keeps)
    | (with_reducible apply State.setFld_keeps)
    | (with_reducible apply Keeps.foldl2)
    | (intro _ _ _; beta_reduce)
    | split
theorem State.failDests_keeps {b0 s : State} (h : Keeps b0 s) (lane : Nat) (pick : State → Option Nat) (n : Nat) :
    Keeps b0 (s.failDests lane pick n) := by
  induction n generalizing s with
  | zero => exact h
  | succ n ih =>
    unfold State.failDests
    split
    · exact h
    · exact ih (State.refreshOnyx_keeps (State.retireBlock_keeps (State.count_keeps h _ _) _ _ _))

theorem State.copyDest_keeps {k0 s : State} (hK : Keeps k0 s) (lane : Nat) : Keeps k0 (State.copyDest s lane).2 := by
  unfold State.copyDest
  repeat' first
    | with_reducible assumption
    | (with_reducible apply State.fresh_keeps)
    | (with_reducible apply State.failDests_keeps)
theorem State.copyDest_keeps2 {k0 s t0 : State} {x0} {lane : Nat} (he0 : State.copyDest s lane = (x0, t0)) (hK : Keeps k0 s) : Keeps k0 t0 := by have := State.copyDest_keeps hK lane; rw [he0] at this; exact this

theorem State.moveSys_keeps {k0 s : State} (hK : Keeps k0 s) (set : Nat) (lane : Nat) : Keeps k0 (State.moveSys s set lane) := by
  unfold State.moveSys
  repeat' first
    | with_reducible assumption
    | (with_reducible refine State.copyDest_keeps2 ‹State.copyDest _ _ = _› ?_)
    | (with_reducible apply State.onyxSet_keeps)
    | (with_reducible apply State.modImg_keeps)
    | (with_reducible apply State.modFlash_keeps)
    | (with_reducible apply State.drawRead_keeps)
    | (with_reducible apply State.readSysPage_keeps)
    | (with_reducible apply State.count_keeps)
    | (with_reducible apply State.refreshOnyx_keeps)
    | (with_reducible apply State.each_keepsK)
    | (intro _ _ _; beta_reduce)
    | split

theorem State.replaceSys_keeps {k0 s : State} (hK : Keeps k0 s) (set : Nat) (lane : Nat) (why : RetireWhy) : Keeps k0 (State.replaceSys s set lane why) := by
  unfold State.replaceSys
  repeat' first
    | with_reducible assumption
    | (with_reducible apply State.retireBlock_keeps)
    | (with_reducible apply State.moveSys_keeps)

theorem State.failSystem_keeps {k0 s : State} (hK : Keeps k0 s) (set : Nat) (lane : Nat) : Keeps k0 (State.failSystem s set lane) := by
  unfold State.failSystem
  repeat' first
    | with_reducible assumption
    | (with_reducible apply State.count_keeps)
    | (with_reducible apply State.replaceSys_keeps)

theorem State.eraseSys_keeps {k0 s : State} (hK : Keeps k0 s) (lane : Nat) (block : Nat) : Keeps k0 (State.eraseSys s lane block).2 := by
  unfold State.eraseSys
  repeat' first
    | with_reducible assumption
    | (with_reducible refine State.fresh_keeps2 ‹State.fresh _ = _› ?_)
    | (with_reducible apply State.modFlash_keeps)
    | (with_reducible apply State.count_keeps)
    | (with_reducible apply State.retireBlock_keeps)
    | (with_reducible apply State.modImg_keeps)
    | (intro x; refine Keeps.cut (a := k0) x ?_ (fun hx => ?_); rotate_left; clear_value x; rotate_right; subst x)
    | (intro x; clear_value x)
    | split
    | lift_lets -underBinder
theorem State.eraseSet_keeps {k0 s : State} (hK : Keeps k0 s) (set : Nat) : Keeps k0 (State.eraseSet s set) := by
  unfold State.eraseSet
  repeat' first
    | with_reducible assumption
    | (with_reducible apply State.eraseSys_keeps)
    | (with_reducible apply State.moveSys_keeps)
    | (with_reducible apply State.each_keepsK)
    | (with_reducible apply State.when_keepsK)
    | (intro x; refine Keeps.cut2 (a := k0) x ?_ (fun hx => ?_); rotate_left; clear_value x; rotate_right; subst x)
    | (intro _ _ _; beta_reduce)
    | (intro _ _; beta_reduce)
    | split
    | lift_lets -underBinder

theorem State.putAnchor_keeps {k0 s : State} (hK : Keeps k0 s) (a : Anchor) : Keeps k0 (State.putAnchor s a) := by
  unfold State.putAnchor
  repeat' first
    | with_reducible assumption
    | (with_reducible apply State.eraseSys_keeps)
    | (with_reducible refine State.fresh_keeps2 ‹State.fresh _ = _› ?_)
    | (with_reducible apply State.count_keeps)
    | (with_reducible apply State.retireBlock_keeps)
    | (with_reducible apply State.putSys_keeps)
    | (with_reducible apply State.each_keepsK)
    | (with_reducible apply State.when_keepsK)
    | (intro _ _ _; beta_reduce)
    | (intro _ _; beta_reduce)
    | split

/-! ### StackOps -/

theorem State.stackState_keeps {k0 s : State} (hK : Keeps k0 s) (st : Nat) (v : Nat) : Keeps k0 (State.stackState s st v) := by
  unfold State.stackState
  repeat' first
    | with_reducible assumption
    | (with_reducible apply State.setFld_keeps)

theorem State.recordMark_keeps {k0 s : State} (hK : Keeps k0 s) (ch : Nat) (lane : Nat) : Keeps k0 (State.recordMark s ch lane) := by
  unfold State.recordMark
  repeat' first
    | with_reducible assumption
    | (with_reducible apply State.modFlash_keeps)
    | (with_reducible apply State.putAnchor_keeps)
    | split

theorem State.recordDue_keeps {k0 s : State} (hK : Keeps k0 s) : Keeps k0 (State.recordDue s) := by
  unfold State.recordDue
  repeat' first
    | with_reducible assumption
    | (with_reducible apply State.modFlash_keeps)
    | (with_reducible apply State.recordMark_keeps)
    | (with_reducible apply State.each_keepsK)
    | (intro _ _ _; beta_reduce)

theorem State.failChannel_keeps {k0 s : State} (hK : Keeps k0 s) (ch : Nat) (lane : Nat) : Keeps k0 (State.failChannel s ch lane) := by
  unfold State.failChannel
  repeat' first
    | with_reducible assumption
    | (with_reducible apply State.setFld_keeps)
    | (with_reducible apply State.stackState_keeps)
    | (with_reducible apply State.jasper_keeps)
    | fail_if_no_progress (with_reducible refine Keeps.upd ?_ (Nat.le_refl _) (Nat.le_refl _) rfl rfl rfl)

theorem State.markLane_keeps {k0 s : State} (hK : Keeps k0 s) (ch : Nat) (lane : Nat) : Keeps k0 (State.markLane s ch lane) := by
  unfold State.markLane
  repeat' first
    | with_reducible assumption
    | (with_reducible apply State.failChannel_keeps)
    | (with_reducible apply State.raise_keeps)
    | (with_reducible apply State.setFld_keeps)
    | (with_reducible apply State.modChan_keeps)
    | (with_reducible apply State.jasper_keeps)
    | (with_reducible apply State.recordMark_keeps)
    | split

theorem State.inject_keeps {k0 s : State} (hK : Keeps k0 s) (ch : Nat) (write : Bool) : Keeps k0 (State.inject s ch write).2 := by
  unfold State.inject
  repeat' first
    | with_reducible assumption
    | (with_reducible apply State.setFld_keeps)
    | (with_reducible apply State.modChan_keeps)
    | (intro x; clear_value x)
    | split
    | lift_lets -underBinder
theorem State.touch_keeps {k0 s : State} (hK : Keeps k0 s) (l : BurstLoc) : Keeps k0 (State.touch s l) := by
  unfold State.touch
  repeat' first
    | with_reducible assumption
    | (with_reducible apply State.count_keeps)
    | (with_reducible apply State.modChan_keeps)
    | (intro x; refine Keeps.cut (a := k0) x ?_ (fun hx => ?_); rotate_left; clear_value x; rotate_right; subst x)
    | split
    | lift_lets -underBinder

theorem State.laneRuns_keeps {k0 s : State} (hK : Keeps k0 s) (ch : Nat) (lanes : List Nat) : Keeps k0 (State.laneRuns s ch lanes) := by
  unfold State.laneRuns
  repeat' first
    | with_reducible assumption
    | (with_reducible apply State.modChan_keeps)
    | (with_reducible apply State.markLane_keeps)
    | (with_reducible apply State.each_keepsK)
    | (intro _ _ _; beta_reduce)

theorem State.readBurst_keeps {b0 s : State} (h : Keeps b0 s) (b : Nat) (errs : ErrVec) : Keeps b0 (s.readBurst b errs).2 := by
  have hj := State.inject_keeps (State.touch_keeps h (burstLoc b)) (burstLoc b).chan false
  unfold State.readBurst
  dsimp only
  split
  · exact h
  · generalize State.inject _ _ _ = p at hj ⊢
    obtain ⟨inj, t⟩ := p
    dsimp only at hj ⊢
    split
    · exact State.laneRuns_keeps hj _ _
    · exact State.laneRuns_keeps (State.each_keepsK (State.count_keeps hj _ _) _ _ fun _ _ h => State.count_keeps h _ _) _ _
    · exact State.count_keeps hj _ _
    · exact State.laneRuns_keeps (State.jasperAlone_keeps (State.raise_keeps (State.count_keeps hj _ _) _) _ _ _ _ _) _ _
theorem State.writeBurst_keeps {b0 s : State} (h : Keeps b0 s) (b : Nat) (data : List Byte) (poison : Bool) : Keeps b0 (s.writeBurst b data poison) := by
  have hj := State.inject_keeps (State.touch_keeps h (burstLoc b)) (burstLoc b).chan true
  unfold State.writeBurst
  dsimp only
  split
  · exact h
  · generalize State.inject _ _ _ = p at hj ⊢
    obtain ⟨inj, t⟩ := p
    exact { hj with mem := Mem.wf_wrBlk hj.mem _ _ }

theorem State.writePart_keeps {k0 s : State} (hK : Keeps k0 s) (b : Nat) (i : Nat) (bs : List Byte) : Keeps k0 (State.writePart s b i bs) := by
  unfold State.writePart
  repeat' first
    | with_reducible assumption
    | (with_reducible apply State.writeBurst_keeps)
    | (with_reducible apply State.readBurst_keeps)
    | (with_reducible apply State.count_keeps)
    | split

theorem State.ask_keeps {k0 s : State} (hK : Keeps k0 s) (part : Option Nat) (bs : List Nat) : Keeps k0 (State.ask s part bs) := by
  unfold State.ask
  repeat' first
    | with_reducible assumption
    | (with_reducible apply State.modStack_keeps)
    | (with_reducible apply State.each_keepsK)
    | (intro _ _ _; beta_reduce)

theorem State.readBursts_keeps {k0 s : State} (hK : Keeps k0 s) (b : Nat) (n : Nat) : Keeps k0 (State.readBursts s b n).2 := by
  unfold State.readBursts
  repeat' first
    | with_reducible assumption
    | (with_reducible apply State.readBurst_keeps)
    | (with_reducible apply Keeps.foldl2)
    | (intro _ _ _; beta_reduce)
theorem State.writeSpan_keeps {b0 s : State} (h : Keeps b0 s) (a n : Nat) (bs : List Byte) : Keeps b0 (s.writeSpan a n bs) := by
  induction n generalizing s a bs with
  | zero => exact h
  | succ n ih =>
    unfold State.writeSpan
    split
    · exact h
    · exact ih (State.writePart_keeps h _ _ _) _ _

theorem State.readSpan_keeps {k0 s : State} (hK : Keeps k0 s) (part : Option Nat) (a : Nat) (n : Nat) : Keeps k0 (State.readSpan s part a n).2 := by
  unfold State.readSpan
  repeat' first
    | with_reducible assumption
    | (with_reducible apply State.ask_keeps)
    | (with_reducible apply State.readBursts_keeps)
theorem State.readFrame_keepsBy {b0 s : State} (read : State → Nat → Nat → (List Byte × List Nat) × State)
    (hr : ∀ t a n, Keeps b0 t → Keeps b0 (read t a n).2) (h : Keeps b0 s) (f stored k a : Nat) :
    Keeps b0 (let r := read s a k
      if stored ≤ 65536 then ((r.1.1.take stored, r.1.2), r.2)
      else
        let t := read (r.2.count (Ct.MOV_TAIL_READS (frameDie f)) 1) (r.2.tailSpa f) 64
        (((r.1.1 ++ t.1.1).take stored, r.1.2 ++ t.1.2.map fun _ => 1024), t.2)).2 := by
  dsimp only
  split
  · exact hr _ _ _ h
  · exact hr _ _ _ (State.count_keeps (hr _ _ _ h) _ _)
theorem State.readFrame_keeps {b0 s : State} (h : Keeps b0 s) (part : Option Nat) (f stored : Nat) : Keeps b0 (s.readFrame part f stored).2 :=
  State.readFrame_keepsBy (fun t a n => t.readSpan part a n) (fun _ _ _ ht => State.readSpan_keeps ht _ _ _) h f stored
    (64 * ceilDiv (min stored 65536) 64) (frameSpa f)
theorem State.putSpan_keeps {k0 s : State} (hK : Keeps k0 s) (part : Option Nat) (a : Nat) (bs : List Byte) : Keeps k0 (State.putSpan s part a bs) := by
  unfold State.putSpan
  repeat' first
    | with_reducible assumption
    | (with_reducible apply State.ask_keeps)
    | (with_reducible apply State.writeSpan_keeps)

theorem State.writeFrame_keeps {k0 s : State} (hK : Keeps k0 s) (part : Option Nat) (f : Nat) (bs : List Byte) : Keeps k0 (State.writeFrame s part f bs) := by
  unfold State.writeFrame
  repeat' first
    | with_reducible assumption
    | (with_reducible apply State.putSpan_keeps)
    | (intro x; refine Keeps.cut (a := k0) x ?_ (fun hx => ?_); rotate_left; clear_value x; rotate_right; subst x)
    | (intro x; clear_value x)
    | split
    | lift_lets -underBinder

/-! ### WakeOps -/

theorem State.notIdle_keeps {k0 s : State} (hK : Keeps k0 s) : Keeps k0 (State.notIdle s) := by
  unfold State.notIdle
  repeat' first
    | with_reducible assumption
    | (with_reducible apply State.modPower_keeps)

theorem State.beginWake_keeps {k0 s : State} (hK : Keeps k0 s) : Keeps k0 (State.beginWake s) := by
  unfold State.beginWake
  repeat' first
    | with_reducible assumption
    | (with_reducible apply State.raise_keeps)
    | (with_reducible apply State.modPower_keeps)
    | (with_reducible apply State.setFld_keeps)
    | (with_reducible apply State.stackState_keeps)
    | (with_reducible apply State.each_keepsK)
    | (intro x; refine Keeps.cut (a := k0) x ?_ (fun hx => ?_); rotate_left; clear_value x; rotate_right; subst x)
    | (intro _ _ _; beta_reduce)
    | split
    | lift_lets -underBinder

theorem State.syncResidency_keeps {k0 s : State} (hK : Keeps k0 s) : Keeps k0 (State.syncResidency s) := by
  unfold State.syncResidency
  repeat' first
    | with_reducible assumption
    | (with_reducible apply State.modPower_keeps)
    | (with_reducible apply State.count_keeps)
    | (intro x; clear_value x)
    | split
    | lift_lets -underBinder

theorem State.wakeAccess_keeps {k0 s : State} (hK : Keeps k0 s) (a : Nat) : Keeps k0 (State.wakeAccess s a) := by
  unfold State.wakeAccess
  repeat' first
    | with_reducible assumption
    | (with_reducible apply State.notIdle_keeps)
    | (with_reducible apply State.beginWake_keeps)
    | split

theorem State.bridgeDiscard_keeps {k0 s : State} (hK : Keeps k0 s) (k : Nat) (a : Nat) : Keeps k0 (State.bridgeDiscard s k a) := by
  unfold State.bridgeDiscard
  repeat' first
    | with_reducible assumption
    | (with_reducible apply State.modPower_keeps)
    | (with_reducible apply State.jasper_keeps)
    | split

theorem State.access_keepsK {k0 s : State} (hK : Keeps k0 s) (b : Bool) (a : Nat) (f : State → State) (hf : ∀ t, Keeps k0 t → Keeps k0 (f t)) :
    Keeps k0 (s.access b a f) := by
  unfold State.access
  split
  · exact hK
  · split
    · exact State.bridgeDiscard_keeps hK _ _
    · exact hf _ (State.wakeAccess_keeps hK _)

theorem State.bar0_keeps {k0 s : State} (hK : Keeps k0 s) (a : Nat) (f : State → State) (hf : ∀ t, Keeps k0 t → Keeps k0 (f t)) :
    Keeps k0 (s.bar0 a f) := State.access_keepsK hK _ a f hf

/-! ### OnyxOps -/

theorem State.indexEntry_keeps {k0 s : State} (hK : Keeps k0 s) (handle : Nat) (t : Nat) : Keeps k0 (State.indexEntry s handle t).2 := by
  unfold State.indexEntry
  repeat' first
    | with_reducible assumption
    | (with_reducible apply State.readSpan_keeps)
    | split
theorem State.originTile_keeps {k0 s : State} (hK : Keeps k0 s) (handle : Nat) (t : Nat) : Keeps k0 (State.originTile s handle t).2 := by
  unfold State.originTile
  repeat' first
    | with_reducible assumption
    | (with_reducible apply State.indexEntry_keeps)
    | split
theorem State.originTile_keeps2 {k0 s t0 : State} {x0} {handle : Nat} {t : Nat} (he0 : State.originTile s handle t = (x0, t0)) (hK : Keeps k0 s) : Keeps k0 t0 := by have := State.originTile_keeps hK handle t; rw [he0] at this; exact this

theorem State.readCode_keeps {k0 s : State} (hK : Keeps k0 s) (lane : Nat) (block : Nat) (page : Nat) (slot : Nat) (c : CodeWord) (r : CodeRead) (alone : Bool) : Keeps k0 (State.readCode s lane block page slot c r alone).2 := by
  unfold State.readCode
  repeat' first
    | with_reducible assumption
    | (with_reducible apply State.decodeCode_keeps)
theorem State.readPage_keeps {k0 s : State} (hK : Keeps k0 s) (lane : Nat) (block : Nat) (page : Nat) (cws : List CodeWord) (outs : List CodeRead) (us : Nat) (alone : Bool) : Keeps k0 (State.readPage s lane block page cws outs us alone).2 := by
  unfold State.readPage
  repeat' first
    | with_reducible assumption
    | (with_reducible apply State.readCode_keeps)
    | (with_reducible apply State.pageRead_keeps)
    | (with_reducible apply State.setFld_keeps)
    | (with_reducible apply Keeps.foldl2)
    | (intro _ _ _; beta_reduce)
theorem State.readOwn_keeps {k0 s : State} (hK : Keeps k0 s) (lane : Nat) (block : Nat) (page : Nat) (cws : List CodeWord) : Keeps k0 (State.readOwn s lane block page cws) := by
  unfold State.readOwn
  repeat' first
    | with_reducible assumption
    | (with_reducible apply State.drawRead_keeps)
    | (with_reducible apply State.readPage_keeps)

/-! ### ObjOps -/

theorem State.modObj_keeps {k0 s : State} (hK : Keeps k0 s) (o : Nat) (f : Obj → Obj) : Keeps k0 (State.modObj s o f) := by
  unfold State.modObj
  repeat' first
    | with_reducible assumption
    | (with_reducible apply State.modPlace_keeps)
    | split

theorem State.recountObjs_keeps {k0 s : State} (hK : Keeps k0 s) : Keeps k0 (State.recountObjs s) := by
  unfold State.recountObjs
  repeat' first
    | with_reducible assumption
    | (with_reducible apply State.setFld_keeps)

theorem State.useObj_keeps {k0 s : State} (hK : Keeps k0 s) (o : Nat) : Keeps k0 (State.useObj s o) := by
  unfold State.useObj
  repeat' first
    | with_reducible assumption
    | (with_reducible apply State.modObj_keeps)

theorem State.recountFrames_keeps {k0 s : State} (hK : Keeps k0 s) (m : Nat) : Keeps k0 (State.recountFrames s m) := by
  unfold State.recountFrames
  repeat' first
    | with_reducible assumption
    | (with_reducible apply State.setFld_keeps)

theorem State.stopDrain_keeps {k0 s : State} (hK : Keeps k0 s) (m : Nat) : Keeps k0 (State.stopDrain s m) := by
  unfold State.stopDrain
  repeat' first
    | with_reducible assumption
    | (with_reducible apply State.modPlace_keeps)
    | split

theorem State.setFrame_keeps {k0 s : State} (hK : Keeps k0 s) (f : Nat) (u : Option FrameUse) : Keeps k0 (State.setFrame s f u) := by
  unfold State.setFrame
  repeat' first
    | with_reducible assumption
    | (with_reducible apply State.modPlace_keeps)
    | (with_reducible apply State.recountFrames_keeps)
    | (with_reducible apply State.stopDrain_keeps)

theorem State.takeFrame_keeps {b0 s t0 : State} {x0 : Nat} {m : Nat} {u : FrameUse} (he0 : s.takeFrame m u = some (x0, t0)) (h : Keeps b0 s) :
    Keeps b0 t0 := by
  unfold State.takeFrame at he0
  dsimp only at he0
  split at he0
  · exact absurd he0 (by simp)
  · simp only [Option.some.injEq, Prod.mk.injEq] at he0
    rw [← he0.2]
    exact State.setFrame_keeps (State.fresh_keeps h) _ _

theorem State.takeSpread_keeps {k0 s : State} (hK : Keeps k0 s) (n : Nat) (u : FrameUse) : Keeps k0 (State.takeSpread s n u).2 := by
  unfold State.takeSpread
  repeat' first
    | with_reducible assumption
    | (with_reducible refine State.takeFrame_keeps ‹State.takeFrame _ _ _ = _› ?_)
    | (with_reducible apply Keeps.foldl2)
    | (intro _ _ _; beta_reduce)
    | split
theorem State.takePage_keeps {b0 s t0 : State} {x0 : Nat} {p : Nat} (he0 : s.takePage p = some (x0, t0)) (h : Keeps b0 s) : Keeps b0 t0 := by
  unfold State.takePage at he0
  dsimp only at he0
  split at he0
  · exact absurd he0 (by simp)
  · simp only [Option.some.injEq, Prod.mk.injEq] at he0
    rw [← he0.2]
    exact State.recountPages_keeps (State.modPlace_keeps (State.fresh_keeps h) _)

theorem State.freePage_keeps {k0 s : State} (hK : Keeps k0 s) (pg : Nat) : Keeps k0 (State.freePage s pg) := by
  unfold State.freePage
  repeat' first
    | with_reducible assumption
    | (with_reducible apply State.modPlace_keeps)
    | (with_reducible apply State.recountPages_keeps)

theorem State.writeDir_keeps {k0 s : State} (hK : Keeps k0 s) (o : Nat) (x : Obj) (t : Nat) : Keeps k0 (State.writeDir s o x t) := by
  unfold State.writeDir
  repeat' first
    | with_reducible assumption
    | (with_reducible apply State.ask_keeps)
    | (with_reducible apply State.writeBurst_keeps)
    | split

theorem State.initDir_keeps {k0 s : State} (hK : Keeps k0 s) (o : Nat) : Keeps k0 (State.initDir s o) := by
  unfold State.initDir
  repeat' first
    | with_reducible assumption
    | (with_reducible apply State.writeDir_keeps)
    | (with_reducible apply State.each_keepsK)
    | (intro _ _ _; beta_reduce)
    | split

theorem State.charge_keeps {k0 s : State} (hK : Keeps k0 s) (f : Fld) (up : Bool) : Keeps k0 (State.charge s f up) := by
  unfold State.charge
  repeat' first
    | with_reducible assumption
    | (with_reducible apply State.setFld_keeps)

theorem State.setDir_keeps {k0 s : State} (hK : Keeps k0 s) (o : Nat) (t : Nat) (e : DirEnt) : Keeps k0 (State.setDir s o t e) := by
  unfold State.setDir
  repeat' first
    | with_reducible assumption
    | (with_reducible apply State.modPlace_keeps)
    | (with_reducible apply State.writeDir_keeps)
    | (with_reducible apply State.recountPages_keeps)
    | (with_reducible apply State.charge_keeps)
    | (with_reducible apply State.modObj_keeps)
    | (with_reducible apply State.when_keepsK)
    | (intro _ _; beta_reduce)
    | split

theorem State.withholdParts_keeps {k0 s : State} (hK : Keeps k0 s) (ps : List Nat) : Keeps k0 (State.withholdParts s ps) := by
  unfold State.withholdParts
  repeat' first
    | with_reducible assumption
    | (with_reducible apply State.modMarks_keeps)

theorem State.tellWithheld_keeps {k0 s : State} (hK : Keeps k0 s) (ps : List Nat) (o : Nat) (t : Nat) : Keeps k0 (State.tellWithheld s ps o t) := by
  unfold State.tellWithheld
  repeat' first
    | with_reducible assumption
    | (with_reducible apply State.modMarks_keeps)
    | (with_reducible apply State.postEvent_keeps)
    | (with_reducible apply State.each_keepsK)
    | (intro _ _ _; beta_reduce)

theorem State.quarantine_keeps {k0 s : State} (hK : Keeps k0 s) (o : Nat) (cause : Nat) : Keeps k0 (State.quarantine s o cause) := by
  unfold State.quarantine
  repeat' first
    | with_reducible assumption
    | (with_reducible apply State.modObj_keeps)
    | (with_reducible apply State.count_keeps)
    | (with_reducible apply State.jasper_keeps)
    | (with_reducible apply State.postEvent_keeps)
    | (with_reducible apply State.each_keepsK)
    | (intro _ _ _; beta_reduce)
    | split

theorem State.recountMovers_keeps {k0 s : State} (hK : Keeps k0 s) (m : Nat) : Keeps k0 (State.recountMovers s m) := by
  unfold State.recountMovers
  repeat' first
    | with_reducible assumption
    | (with_reducible apply State.setFld_keeps)

theorem State.startMove_keeps {k0 s : State} (hK : Keeps k0 s) (o : Nat) (t : Nat) (dest : Dest) (die : Nat) (evict : Bool) : Keeps k0 (State.startMove s o t dest die evict) := by
  unfold State.startMove
  repeat' first
    | with_reducible assumption
    | (with_reducible apply State.notIdle_keeps)
    | (with_reducible apply State.fresh_keeps)
    | (with_reducible apply State.setDir_keeps)
    | (with_reducible apply State.modPlace_keeps)
    | (with_reducible apply State.recountMovers_keeps)
    | split

theorem State.replaceTiles_keeps {k0 s : State} (hK : Keeps k0 s) : Keeps k0 (State.replaceTiles s) := by
  unfold State.replaceTiles
  repeat' first
    | with_reducible assumption
    | (with_reducible apply State.modPlace_keeps)
    | (with_reducible refine State.takeFrame_keeps ‹State.takeFrame _ _ _ = _› ?_)
    | (with_reducible apply State.startMove_keeps)
    | (with_reducible apply State.each_keepsK)
    | (intro _ _ _; beta_reduce)
    | split

theorem State.freeUp_keeps {k0 s : State} (hK : Keeps k0 s) (f : Nat) : Keeps k0 (State.freeUp s f) := by
  unfold State.freeUp
  repeat' first
    | with_reducible assumption
    | (with_reducible apply State.setFrame_keeps)
    | (with_reducible apply State.replaceTiles_keeps)

theorem State.freeFrames_keeps {k0 s : State} (hK : Keeps k0 s) (u : FrameUse) : Keeps k0 (State.freeFrames s u) := by
  unfold State.freeFrames
  repeat' first
    | with_reducible assumption
    | (with_reducible apply State.freeUp_keeps)
    | (with_reducible apply State.each_keepsK)
    | (intro _ _ _; beta_reduce)

theorem State.releaseFrame_keeps {k0 s : State} (hK : Keeps k0 s) (f : Nat) : Keeps k0 (State.releaseFrame s f) := by
  unfold State.releaseFrame
  repeat' first
    | with_reducible assumption
    | (with_reducible apply State.setFrame_keeps)
    | (with_reducible apply State.freeUp_keeps)
    | split

theorem State.dropDest_keeps {k0 s : State} (hK : Keeps k0 s) (d : Dest) : Keeps k0 (State.dropDest s d) := by
  unfold State.dropDest
  repeat' first
    | with_reducible assumption
    | (with_reducible apply State.freeUp_keeps)
    | (with_reducible apply State.freePage_keeps)
    | split

theorem State.dropMove_keeps {k0 s : State} (hK : Keeps k0 s) (o : Nat) (t : Nat) : Keeps k0 (State.dropMove s o t) := by
  unfold State.dropMove
  repeat' first
    | with_reducible assumption
    | (with_reducible apply State.modPlace_keeps)
    | (with_reducible apply State.setDir_keeps)
    | (with_reducible apply State.dropDest_keeps)
    | (with_reducible apply State.recountMovers_keeps)
    | (with_reducible apply State.when_keepsK)
    | (intro _ _; beta_reduce)
    | split

theorem State.abandonMove_keeps {k0 s : State} (hK : Keeps k0 s) (o : Nat) (t : Nat) : Keeps k0 (State.abandonMove s o t) := by
  unfold State.abandonMove
  repeat' first
    | with_reducible assumption
    | (with_reducible apply State.dropMove_keeps)
    | (with_reducible apply State.modPlace_keeps)
    | (with_reducible apply State.each_keepsK)
    | (intro _ _ _; beta_reduce)
    | split

theorem State.failFetches_keeps {k0 s : State} (hK : Keeps k0 s) (o : Nat) (t : Nat) : Keeps k0 (State.failFetches s o t) := by
  unfold State.failFetches
  repeat' first
    | with_reducible assumption
    | fail_if_no_progress (with_reducible refine Keeps.upd ?_ (Nat.le_refl _) (Nat.le_refl _) rfl rfl rfl)

theorem State.endRefetch_keeps {k0 s : State} (hK : Keeps k0 s) (o : Nat) (t : Nat) (die : Nat) : Keeps k0 (State.endRefetch s o t die) := by
  unfold State.endRefetch
  repeat' first
    | with_reducible assumption
    | (with_reducible apply State.modPlace_keeps)
    | (with_reducible apply State.recountMovers_keeps)

theorem State.failTile_keeps {k0 s : State} (hK : Keeps k0 s) (o : Nat) (t : Nat) (cause : Nat) : Keeps k0 (State.failTile s o t cause) := by
  unfold State.failTile
  repeat' first
    | with_reducible assumption
    | (with_reducible apply State.hostTileFailed_keeps)
    | (with_reducible apply State.quarantine_keeps)
    | (with_reducible apply State.abandonMove_keeps)
    | (with_reducible apply State.failFetches_keeps)
    | (with_reducible apply State.endRefetch_keeps)
    | (with_reducible apply State.releaseFrame_keeps)
    | (with_reducible apply State.when_keepsK)
    | (intro x; refine Keeps.cut (a := k0) x ?_ (fun hx => ?_); rotate_left; clear_value x; rotate_right; subst x)
    | (intro _ _; beta_reduce)
    | split
    | lift_lets -underBinder

theorem State.startWait_keeps {k0 s : State} (hK : Keeps k0 s) (o : Nat) (t : Nat) : Keeps k0 (State.startWait s o t) := by
  unfold State.startWait
  repeat' first
    | with_reducible assumption
    | (with_reducible apply State.modPlace_keeps)
    | (intro x; clear_value x)
    | split
    | lift_lets -underBinder

theorem State.startRefetch_keeps {k0 s : State} (hK : Keeps k0 s) (o : Nat) (t : Nat) (die : Nat) (old : Option Nat) : Keeps k0 (State.startRefetch s o t die old) := by
  unfold State.startRefetch
  repeat' first
    | with_reducible assumption
    | (with_reducible refine State.fresh_keeps2 ‹State.fresh _ = _› ?_)
    | (with_reducible apply State.modPlace_keeps)
    | (with_reducible apply State.count_keeps)
    | (with_reducible apply State.recountMovers_keeps)
    | (intro x; refine Keeps.cut (a := k0) x ?_ (fun hx => ?_); rotate_left; clear_value x; rotate_right; subst x)
    | (intro x; clear_value x)
    | split
    | lift_lets -underBinder

theorem State.poisonTile_keeps {k0 s : State} (hK : Keeps k0 s) (o : Nat) (t : Nat) : Keeps k0 (State.poisonTile s o t) := by
  unfold State.poisonTile
  repeat' first
    | with_reducible assumption
    | (with_reducible apply State.setDir_keeps)
    | (with_reducible apply State.count_keeps)
    | (with_reducible apply State.jasper_keeps)
    | (with_reducible apply State.modPlace_keeps)
    | (with_reducible apply State.startRefetch_keeps)
    | (with_reducible apply State.postEvent_keeps)
    | (with_reducible apply State.withholdParts_keeps)
    | (with_reducible apply State.when_keepsK)
    | (intro _ _; beta_reduce)
    | split

theorem State.lookup_keeps {k0 s : State} (hK : Keeps k0 s) (o : Nat) (x : Obj) (t : Nat) : Keeps k0 (State.lookup s o x t) := by
  unfold State.lookup
  repeat' first
    | with_reducible assumption
    | (with_reducible apply State.count_keeps)
    | (with_reducible apply State.ask_keeps)
    | (with_reducible apply State.readBurst_keeps)
    | (with_reducible apply State.modPlace_keeps)
    | (with_reducible apply State.poisonTile_keeps)
    | (intro x; refine Keeps.cut (a := k0) x ?_ (fun hx => ?_); rotate_left; clear_value x; rotate_right; subst x)
    | (intro x; refine Keeps.cut2 (a := k0) x ?_ (fun hx => ?_); rotate_left; clear_value x; rotate_right; subst x)
    | (intro x; clear_value x)
    | split
    | lift_lets -underBinder

theorem State.badFrame_keeps {k0 s : State} (hK : Keeps k0 s) (o : Nat) (x : Obj) (t : Nat) (f : Nat) : Keeps k0 (State.badFrame s o x t f) := by
  unfold State.badFrame
  repeat' first
    | with_reducible assumption
    | (with_reducible apply State.jasper_keeps)
    | (with_reducible apply State.poisonTile_keeps)

theorem State.nearPath_keeps {k0 s : State} (hK : Keeps k0 s) (d : Nat) (f : Nat) (n : Nat) : Keeps k0 (State.nearPath s d f n) := by
  unfold State.nearPath
  repeat' first
    | with_reducible assumption
    | (with_reducible apply State.count_keeps)
    | (with_reducible apply State.crossBridges_keeps)
    | (with_reducible apply State.when_keepsK)
    | (intro _ _; beta_reduce)

theorem State.ioPath_keeps {k0 s : State} (hK : Keeps k0 s) (d : Nat) (n : Nat) : Keeps k0 (State.ioPath s d n) := by
  unfold State.ioPath
  repeat' first
    | with_reducible assumption
    | (with_reducible apply State.count_keeps)

theorem State.homePath_keeps {k0 s : State} (hK : Keeps k0 s) (d : Nat) (e : DirEnt) (n : Nat) : Keeps k0 (State.homePath s d e n) := by
  unfold State.homePath
  repeat' first
    | with_reducible assumption
    | (with_reducible apply State.nearPath_keeps)
    | (with_reducible apply State.ioPath_keeps)
    | split

theorem State.toOrigin_keeps {k0 s : State} (hK : Keeps k0 s) (o : Nat) (t : Nat) : Keeps k0 (State.toOrigin s o t) := by
  unfold State.toOrigin
  repeat' first
    | with_reducible assumption
    | (with_reducible apply State.setDir_keeps)
    | (with_reducible apply State.count_keeps)
    | (with_reducible apply State.setFrame_keeps)
    | (with_reducible apply State.releaseFrame_keeps)
    | (intro x; refine Keeps.cut (a := k0) x ?_ (fun hx => ?_); rotate_left; clear_value x; rotate_right; subst x)
    | (intro x; clear_value x)
    | split
    | lift_lets -underBinder

theorem State.evict_keeps {k0 s : State} (hK : Keeps k0 s) (v : Victim) : Keeps k0 (State.evict s v) := by
  unfold State.evict
  repeat' first
    | with_reducible assumption
    | (with_reducible apply State.count_keeps)
    | (with_reducible apply State.toOrigin_keeps)
    | (with_reducible refine State.takePage_keeps ‹State.takePage _ _ = _› ?_)
    | (with_reducible apply State.startMove_keeps)
    | (intro x; refine Keeps.cut (a := k0) x ?_ (fun hx => ?_); rotate_left; clear_value x; rotate_right; subst x)
    | split
    | lift_lets -underBinder

theorem State.roomOn_keeps {b0 s : State} (h : Keeps b0 s) (o t m : Nat) (p : Option Nat) (freeToo : Bool) :
    Keeps b0 (s.roomOn o t m p freeToo).2 := by
  unfold State.roomOn
  split
  · rename_i f u he
    cases freeToo
    · exact absurd he (by simp)
    · exact State.takeFrame_keeps (if_pos rfl ▸ he) h
  · split
    · exact h
    · rename_i v _
      have hv := State.evict_keeps h v
      dsimp only
      generalize State.evict _ _ = u at hv ⊢
      split
      · dsimp only
        with_reducible exact State.setFrame_keeps hv _ _
      · exact hv
theorem State.roomOn_keeps2 {b0 s t0 : State} {x0} {o t m : Nat} {p : Option Nat} {freeToo : Bool} (he0 : s.roomOn o t m p freeToo = (x0, t0)) (h : Keeps b0 s) : Keeps b0 t0 := by
  have := State.roomOn_keeps h o t m p freeToo; rw [he0] at this; exact this

theorem State.roomAmong_keeps {b0 s : State} (h : Keeps b0 s) (o t : Nat) (p : Option Nat) (l : List Nat) : Keeps b0 (s.roomAmong o t p l).2 := by
  induction l generalizing s with
  | nil => exact h
  | cons m l ih =>
    have hr := State.roomOn_keeps h o t m p true
    unfold State.roomAmong
    dsimp only
    split
    · exact ih hr
    · exact hr
theorem State.roomAmong_keeps2 {b0 s t0 : State} {x0} {o t : Nat} {p : Option Nat} {l : List Nat} (he0 : s.roomAmong o t p l = (x0, t0)) (h : Keeps b0 s) : Keeps b0 t0 := by
  have := State.roomAmong_keeps h o t p l; rw [he0] at this; exact this

theorem State.findRoom_keeps {k0 s : State} (hK : Keeps k0 s) (o : Nat) (t : Nat) (m : Nat) : Keeps k0 (State.findRoom s o t m).2 := by
  unfold State.findRoom
  repeat' first
    | with_reducible assumption
    | (with_reducible apply State.roomOn_keeps)
    | (with_reducible apply State.roomAmong_keeps)
    | split
theorem State.placeTile_keeps {k0 s : State} (hK : Keeps k0 s) (o : Nat) (t : Nat) (m : Nat) : Keeps k0 (State.placeTile s o t m).2 := by
  unfold State.placeTile
  repeat' first
    | with_reducible assumption
    | (with_reducible apply State.findRoom_keeps)
    | (with_reducible apply State.startMove_keeps)
    | (intro x; refine Keeps.cut2 (a := k0) x ?_ (fun hx => ?_); rotate_left; clear_value x; rotate_right; subst x)
    | split
    | lift_lets -underBinder
theorem State.placeTile_keeps2 {k0 s t0 : State} {x0} {o : Nat} {t : Nat} {m : Nat} (he0 : State.placeTile s o t m = (x0, t0)) (hK : Keeps k0 s) : Keeps k0 t0 := by have := State.placeTile_keeps hK o t m; rw [he0] at this; exact this

theorem State.noteRewrite_keeps {k0 s : State} (hK : Keeps k0 s) (o : Nat) (t : Nat) (ofs : Nat) (n : Nat) : Keeps k0 (State.noteRewrite s o t ofs n) := by
  unfold State.noteRewrite
  repeat' first
    | with_reducible assumption
    | (with_reducible apply State.setDir_keeps)
    | (with_reducible apply State.modPlace_keeps)
    | (intro x; clear_value x)
    | split
    | lift_lets -underBinder

theorem State.writeHome_keeps {k0 s : State} (hK : Keeps k0 s) (o : Nat) (t : Nat) (ofs : Nat) (e : DirEnt) (bs : List Byte) : Keeps k0 (State.writeHome s o t ofs e bs) := by
  unfold State.writeHome
  repeat' first
    | with_reducible assumption
    | (with_reducible apply State.putSpan_keeps)
    | (with_reducible apply State.noteRewrite_keeps)
    | (with_reducible apply State.hostWrite_keeps)
    | (with_reducible apply State.when_keepsK)
    | (intro _ _; beta_reduce)
    | split

theorem State.writeTile_keeps {k0 s : State} (hK : Keeps k0 s) (o : Nat) (t : Nat) (ofs : Nat) (bs : List Byte) : Keeps k0 (State.writeTile s o t ofs bs) := by
  unfold State.writeTile
  repeat' first
    | with_reducible assumption
    | (with_reducible apply State.jasper_keeps)
    | (with_reducible apply State.modPlace_keeps)
    | (with_reducible apply State.writeHome_keeps)
    | (intro x; clear_value x)
    | split
    | lift_lets -underBinder

theorem State.giveHome_keeps {b0 s : State} (h : Keeps b0 s) (o t : Nat) : Keeps b0 (s.giveHome o t) := by
  unfold State.giveHome
  split
  · exact h
  · rename_i x _
    split
    · exact h
    · split
      · split
        · exact h
        · rename_i pg u he
          split at he
          · exact State.count_keeps (State.count_keeps (State.setDir_keeps (State.hostWrite_keeps (State.takePage_keeps he h) _ _) _ _ _) _ _) _ _
          · exact absurd he (by simp)
      · split
        · exact h
        · rename_i f u he
          split at he
          · exact State.count_keeps (State.count_keeps (State.count_keeps (State.setDir_keeps (State.writeFrame_keeps (State.takeFrame_keeps he h) _ _ _)
              _ _ _) _ _) _ _) _ _
          · exact absurd he (by simp)

theorem State.readHome_keeps {k0 s : State} (hK : Keeps k0 s) (part : Option Nat) (o : Nat) (x : Obj) (t : Nat) (e : DirEnt) : Keeps k0 (State.readHome s part o x t e).2 := by
  unfold State.readHome
  repeat' first
    | with_reducible assumption
    | (with_reducible apply State.jasper_keeps)
    | (with_reducible apply State.readFrame_keeps)
    | (with_reducible refine State.originTile_keeps2 ‹State.originTile _ _ _ = _› ?_)
    | split
theorem State.readHome_keeps2 {k0 s t0 : State} {x0} {part : Option Nat} {o : Nat} {x : Obj} {t : Nat} {e : DirEnt} (he0 : State.readHome s part o x t e = (x0, t0)) (hK : Keeps k0 s) : Keeps k0 t0 := by have := State.readHome_keeps hK part o x t e; rw [he0] at this; exact this

theorem State.readTile_keeps {k0 s : State} (hK : Keeps k0 s) (o : Nat) (t : Nat) (ofs : Nat) (n : Nat) : Keeps k0 (State.readTile s o t ofs n).2 := by
  unfold State.readTile
  repeat' first
    | with_reducible assumption
    | (with_reducible apply State.badFrame_keeps)
    | (with_reducible apply State.readSpan_keeps)
    | (with_reducible apply State.poisonTile_keeps)
    | (with_reducible apply State.failTile_keeps)
    | (intro x; refine Keeps.cut2 (a := k0) x ?_ (fun hx => ?_); rotate_left; clear_value x; rotate_right; subst x)
    | (intro x; clear_value x)
    | split
    | lift_lets -underBinder
theorem State.readProg_keeps {k0 s : State} (hK : Keeps k0 s) (d : Nat) (part : Option Nat) (a : Nat) : Keeps k0 (State.readProg s d part a).2 := by
  unfold State.readProg
  repeat' first
    | with_reducible assumption
    | (with_reducible apply State.lookup_keeps)
    | (with_reducible apply State.badFrame_keeps)
    | (with_reducible apply State.nearPath_keeps)
    | (with_reducible apply State.readSpan_keeps)
    | (with_reducible apply State.poisonTile_keeps)
    | (with_reducible apply State.when_keepsK)
    | (intro x; refine Keeps.cut (a := k0) x ?_ (fun hx => ?_); rotate_left; clear_value x; rotate_right; subst x)
    | (intro x; refine Keeps.cut2 (a := k0) x ?_ (fun hx => ?_); rotate_left; clear_value x; rotate_right; subst x)
    | (intro x; clear_value x)
    | (intro _ _; beta_reduce)
    | split
    | lift_lets -underBinder
theorem State.recountTables_keeps {k0 s : State} (hK : Keeps k0 s) : Keeps k0 (State.recountTables s) := by
  unfold State.recountTables
  repeat' first
    | with_reducible assumption
    | (with_reducible apply State.setFld_keeps)

theorem State.settleTable_keeps {k0 s : State} (hK : Keeps k0 s) (id : Nat) : Keeps k0 (State.settleTable s id) := by
  unfold State.settleTable
  repeat' first
    | with_reducible assumption
    | (with_reducible apply State.setFld_keeps)
    | (with_reducible apply State.recountTables_keeps)
    | (with_reducible apply State.modCluster_keeps)
    | (with_reducible apply State.each_keepsK)
    | (intro _ _ _; beta_reduce)
    | (intro _ _; beta_reduce)
    | split

theorem State.refTable_keeps {k0 s : State} (hK : Keeps k0 s) (id : Nat) (n : Nat) : Keeps k0 (State.refTable s id n) := by
  unfold State.refTable
  repeat' first
    | with_reducible assumption
    | (with_reducible apply State.setFld_keeps)

theorem State.unrefTable_keeps {k0 s : State} (hK : Keeps k0 s) (id : Nat) (n : Nat) : Keeps k0 (State.unrefTable s id n) := by
  unfold State.unrefTable
  repeat' first
    | with_reducible assumption
    | (with_reducible apply State.setFld_keeps)
    | (with_reducible apply State.settleTable_keeps)

theorem State.returnRefs_keeps {b0 s : State} (h : Keeps b0 s) : Keeps b0 s.returnRefs := by
  unfold State.returnRefs
  have h1 := State.each_keepsK h s.place.heldRefs (fun s id => s.unrefTable id 1) fun _ _ h => State.unrefTable_keeps h _ _
  dsimp only
  have h2 := State.modPlace_keeps h1 fun p => { p with heldRefs := [] }
  generalize hg : State.modPlace _ _ = t at h2 ⊢
  have h3 := State.each_keepsK h2 (t.cores.flatMap fun c => c.2.fills.filterMap (·.ref)) (fun s id => s.unrefTable id 1)
    fun _ _ h => State.unrefTable_keeps h _ _
  generalize State.each _ _ _ = u at h3 ⊢
  exact { h3 with cores := h3.mapCores (fun x => { x with fills := x.fills.map fun f => { f with ref := none } }) fun _ h => h }

theorem State.endDelete_keeps {k0 s : State} (hK : Keeps k0 s) (x : Obj) (cmds : List CmdRef) : Keeps k0 (State.endDelete s x cmds) := by
  unfold State.endDelete
  repeat' first
    | with_reducible assumption
    | (with_reducible apply State.setFld_keeps)
    | (with_reducible apply State.unrefTable_keeps)
    | (with_reducible apply State.journal_keeps)
    | (with_reducible apply State.modFlash_keeps)
    | (with_reducible apply State.completeCmd_keeps)
    | (with_reducible apply State.each_keepsK)
    | (intro _ _ _; beta_reduce)
    | split

theorem State.dropObject_keeps {k0 s : State} (hK : Keeps k0 s) (o : Nat) : Keeps k0 (State.dropObject s o) := by
  unfold State.dropObject
  repeat' first
    | with_reducible assumption
    | (with_reducible apply State.abandonMove_keeps)
    | (with_reducible apply State.modPlace_keeps)
    | (with_reducible apply State.recountMovers_keeps)
    | (with_reducible apply State.freePage_keeps)
    | (with_reducible apply State.releaseFrame_keeps)
    | (with_reducible apply State.setFld_keeps)
    | (with_reducible apply State.recountObjs_keeps)
    | (with_reducible apply State.completeCmd_keeps)
    | (with_reducible apply State.endDelete_keeps)
    | (with_reducible apply State.each_keepsK)
    | (intro _ _ _; beta_reduce)
    | split

theorem State.settleDeletes_keeps {k0 s : State} (hK : Keeps k0 s) : Keeps k0 (State.settleDeletes s) := by
  unfold State.settleDeletes
  repeat' first
    | with_reducible assumption
    | (with_reducible apply State.dropObject_keeps)
    | (with_reducible apply State.each_keepsK)
    | (intro _ _ _; beta_reduce)

/-! ### CoreOps -/

theorem State.abandonStep_keeps {b0 s : State} (h : Keeps b0 s) (received : Bool) : Keeps b0 (s.abandonStep received) := by
  unfold State.abandonStep
  split
  · exact h
  · have h1 := State.setFld_keeps h Fld.GARNET_STATUS_STATE stAbandoning
    dsimp only
    generalize State.setFld _ _ _ = t at h1 ⊢
    refine State.jasper_keeps (State.each_keepsK ?_ _ _ fun _ _ h => State.when_keepsK h _ _ fun _ h => State.setFld_keeps h _ _) _ _ _ _
    exact { h1 with
      cores := h1.mapCores CoreSt.stop fun _ h => h
      clusters := h1.mapClusters (fun x => { x with closing := [], rerunQ := [] }) fun _ h => h }

theorem State.seqError_keeps {k0 s : State} (hK : Keeps k0 s) (c : Nat) (f : Fld) (pc : Nat) (pid : BitVec 16) : Keeps k0 (State.seqError s c f pc pid) := by
  unfold State.seqError
  repeat' first
    | with_reducible assumption
    | (with_reducible apply State.setFld_keeps)
    | (with_reducible apply State.raise_keeps)
    | (with_reducible apply State.jasper_keeps)
    | (with_reducible apply State.when_keepsK)
    | (intro _ _; beta_reduce)

theorem State.unusedEnc_keeps {k0 s : State} (hK : Keeps k0 s) (c : Nat) (p : Prog) : Keeps k0 (State.unusedEnc s c p) := by
  unfold State.unusedEnc
  repeat' first
    | with_reducible assumption
    | (with_reducible apply State.seqError_keeps)
    | (with_reducible apply State.abandonStep_keeps)

theorem State.fetchError_keeps {k0 s : State} (hK : Keeps k0 s) (c : Nat) (p : Prog) : Keeps k0 (State.fetchError s c p) := by
  unfold State.fetchError
  repeat' first
    | with_reducible assumption
    | (with_reducible apply State.seqError_keeps)
    | (with_reducible apply State.abandonStep_keeps)

theorem State.engCmdErr_keeps {k0 s : State} (hK : Keeps k0 s) (g : Nat) (p : Prog) : Keeps k0 (State.engCmdErr s g p) := by
  unfold State.engCmdErr
  repeat' first
    | with_reducible assumption
    | (with_reducible apply State.raise_keeps)
    | (with_reducible apply State.jasper_keeps)
    | (with_reducible apply State.abandonStep_keeps)

theorem State.vecCmdErr_keeps {k0 s : State} (hK : Keeps k0 s) (c : Nat) (p : Prog) : Keeps k0 (State.vecCmdErr s c p) := by
  unfold State.vecCmdErr
  repeat' first
    | with_reducible assumption
    | (with_reducible apply State.raise_keeps)
    | (with_reducible apply State.jasper_keeps)
    | (with_reducible apply State.abandonStep_keeps)

theorem State.addSig_keeps {k0 s : State} (hK : Keeps k0 s) (c : Nat) (k : SigKind) (n : Nat) (amt : Nat) : Keeps k0 (State.addSig s c k n amt) := by
  unfold State.addSig
  repeat' first
    | with_reducible assumption
    | (with_reducible apply State.setFld_keeps)
    | (with_reducible apply State.seqError_keeps)
    | (with_reducible apply State.abandonStep_keeps)
    | (intro x; refine Keeps.cut (a := k0) x ?_ (fun hx => ?_); rotate_left; clear_value x; rotate_right; subst x)
    | (intro x; clear_value x)
    | split
    | lift_lets -underBinder

theorem State.sendSig_keeps {k0 s : State} (hK : Keeps k0 s) (src : Nat) (dst : Nat) (k : SigKind) (n : Nat) (amt : Nat) : Keeps k0 (State.sendSig s src dst k n amt) := by
  unfold State.sendSig
  repeat' first
    | with_reducible assumption
    | fail_if_no_progress (with_reducible refine Keeps.upd ?_ (Nat.le_refl _) (Nat.le_refl _) rfl rfl rfl)

theorem State.actParity_keeps {k0 s : State} (hK : Keeps k0 s) (c : Nat) : Keeps k0 (State.actParity s c) := by
  unfold State.actParity
  repeat' first
    | with_reducible assumption
    | (with_reducible apply State.jasper_keeps)
    | fail_if_no_progress (with_reducible refine Keeps.upd ?_ (Nat.le_refl _) (Nat.le_refl _) rfl rfl rfl)

theorem State.withholdSess_keeps {k0 s : State} (hK : Keeps k0 s) (o : Nat) : Keeps k0 (State.withholdSess s o) := by
  unfold State.withholdSess
  repeat' first
    | with_reducible assumption
    | (with_reducible apply State.modMarks_keeps)
    | split

theorem State.substituteAt_keeps {k0 s : State} (hK : Keeps k0 s) (c : Nat) (object : Nat) (tile : Nat) (a : Nat) (units : Nat) : Keeps k0 (State.substituteAt s c object tile a units) := by
  unfold State.substituteAt
  repeat' first
    | with_reducible assumption
    | (with_reducible apply State.modCore_keeps)
    | (with_reducible apply State.count_keeps)
    | (with_reducible apply State.jasper_keeps)
    | (with_reducible apply State.withholdParts_keeps)
    | (with_reducible apply State.tellWithheld_keeps)
    | with_reducible exact CoreSt.subAt_wf ‹_› _ _ _ _
    | (intro x; refine Keeps.cut (a := k0) x ?_ (fun hx => ?_); rotate_left; clear_value x; rotate_right; subst x)
    | (intro _ _; beta_reduce)
    | split
    | lift_lets -underBinder

theorem State.refetchRead_keeps {k0 s : State} (hK : Keeps k0 s) (c : Nat) (o : Nat) (t : Nat) : Keeps k0 (State.refetchRead s c o t).2 := by
  unfold State.refetchRead
  repeat' first
    | with_reducible assumption
    | (with_reducible refine State.readHome_keeps2 ‹State.readHome _ _ _ _ _ _ = _› ?_)
    | (with_reducible apply State.failTile_keeps)
    | (with_reducible apply State.homePath_keeps)
    | (with_reducible apply State.poisonTile_keeps)
    | (with_reducible apply State.when_keepsK)
    | (intro x; clear_value x)
    | (intro _ _; beta_reduce)
    | split
    | lift_lets -underBinder
theorem State.refetchPut_keeps {b0 s : State} (h : Keeps b0 s) (c o t a : Nat) (r : Refetched) : Keeps b0 (s.refetchPut c o t a r).2 := by
  unfold State.refetchPut
  split
  · exact h
  · exact State.substituteAt_keeps h _ _ _ _ _
  · dsimp only
    refine State.modCore_keeps h _ _ fun x hx => ?_
    exact Mem.wf_wrBlk hx _ _
theorem State.parityAt_keeps {k0 s : State} (hK : Keeps k0 s) (c : Nat) (u : Nat) : Keeps k0 (State.parityAt s c u) := by
  unfold State.parityAt
  repeat' first
    | with_reducible assumption
    | (with_reducible apply State.actParity_keeps)
    | (with_reducible apply State.withholdSess_keeps)
    | (with_reducible apply State.poisonTile_keeps)
    | (with_reducible apply State.withholdParts_keeps)
    | (with_reducible apply State.tellWithheld_keeps)
    | (with_reducible apply State.count_keeps)
    | (with_reducible apply State.modCore_keeps)
    | (with_reducible apply State.refetchRead_keeps)
    | (with_reducible apply State.refetchPut_keeps)
    | (intro x; clear_value x)
    | (intro _ _; beta_reduce)
    | split
    | lift_lets -underBinder

theorem State.consume_keeps {k0 s : State} (hK : Keeps k0 s) (c : Nat) (ranges : List (Nat × Nat)) : Keeps k0 (State.consume s c ranges) := by
  unfold State.consume
  repeat' first
    | with_reducible assumption
    | (with_reducible apply State.parityAt_keeps)
    | (with_reducible apply State.each_keepsK)
    | (intro _ _ _; beta_reduce)

theorem State.flagRows_keeps {k0 s : State} (hK : Keeps k0 s) (e : BitVec 512) (rows : BitVec 32) : Keeps k0 (State.flagRows s e rows) := by
  unfold State.flagRows
  repeat' first
    | with_reducible assumption
    | fail_if_no_progress (with_reducible refine Keeps.upd ?_ (Nat.le_refl _) (Nat.le_refl _) rfl rfl rfl)
    | split

theorem State.markSuspect_keeps {k0 s : State} (hK : Keeps k0 s) (k : Nat) (l : Nat) (rows : BitVec 32) : Keeps k0 (State.markSuspect s k l rows) := by
  unfold State.markSuspect
  repeat' first
    | with_reducible assumption
    | (with_reducible apply State.flagRows_keeps)
    | (with_reducible apply State.count_keeps)
    | (with_reducible apply State.modCluster_keeps)
    | (with_reducible apply State.when_keepsK)
    | (intro _ _; beta_reduce)

theorem State.guardRec_keeps {k0 s : State} (hK : Keeps k0 s) (c : Nat) (q : Nat) (p : Prog) (r : Recs) : Keeps k0 (State.guardRec s c q p r) := by
  unfold State.guardRec
  repeat' first
    | with_reducible assumption
    | (with_reducible apply State.count_keeps)
    | (with_reducible apply State.modCluster_keeps)
    | (with_reducible apply State.markSuspect_keeps)
    | (with_reducible apply State.when_keepsK)
    | (intro x; refine Keeps.cut (a := k0) x ?_ (fun hx => ?_); rotate_left; clear_value x; rotate_right; subst x)
    | (intro x; clear_value x)
    | (intro _ _; beta_reduce)
    | split
    | lift_lets -underBinder

theorem State.draw_keeps {b0 s t0 : State} {c : CoreId} {q : Nat} {f : Fld} {k : Nat} (he0 : s.draw c q f k = some t0) (h : Keeps b0 s) : Keeps b0 t0 := by
  unfold State.draw at he0
  split at he0
  · simp only [Option.some.injEq] at he0
    rw [← he0]
    exact State.setFld_keeps h _ _
  · exact absurd he0 (by simp)

theorem State.closeSlots_keeps {k0 s : State} (hK : Keeps k0 s) (k : Nat) : Keeps k0 (State.closeSlots s k) := by
  unfold State.closeSlots
  repeat' first
    | with_reducible assumption
    | (with_reducible apply State.modCluster_keeps)
    | (with_reducible apply State.each_keepsK)
    | (with_reducible apply State.when_keepsK)
    | (intro _ _ _; beta_reduce)
    | (intro _ _; beta_reduce)
    | split

theorem State.complete_keeps {b0 s : State} (h : Keeps b0 s) (c q : Nat) (f : Option Bool) : Keeps b0 (s.complete c q f) := by
  unfold State.complete
  refine State.closeSlots_keeps (State.modCore_keeps h _ _ fun x hx => ?_) _
  cases f with
  | none => exact hx
  | some b => exact CoreSt.pop_wf (x := { x with idleUs := 0 }) hx _ _

theorem State.issue_keeps {b0 s : State} (h : Keeps b0 s) (c q : Nat) (i : Instr) (run : Prog → State → RunOut)
    (hr : ∀ p t, Keeps b0 t → Keeps b0 (run p t).1) : Keeps b0 (s.issue c q i run) := by
  unfold State.issue
  dsimp only
  repeat' first
    | exact State.complete_keeps (hr _ _ h) _ _ _
    | exact hr _ _ h
    | exact h
    | split

/-! ### LinkOps -/

theorem State.injected_keeps {k0 s : State} (hK : Keeps k0 s) (p : Nat) (n : Nat) : Keeps k0 (State.injected s p n) := by
  unfold State.injected
  repeat' first
    | with_reducible assumption
    | (with_reducible apply State.count_keeps)
    | (with_reducible apply State.setFld_keeps)
    | (with_reducible apply State.when_keepsK)
    | (intro _ _; beta_reduce)

theorem State.injectFlit_keeps {k0 s : State} (hK : Keeps k0 s) (p : Nat) (f : TxFlit) : Keeps k0 (State.injectFlit s p f).1 := by
  unfold State.injectFlit
  repeat' first
    | with_reducible assumption
    | (with_reducible apply State.modPort_keeps)
    | (with_reducible apply State.injected_keeps)
    | (intro x; refine Keeps.cut (a := k0) x ?_ (fun hx => ?_); rotate_left; clear_value x; rotate_right; subst x)
    | (intro x; clear_value x)
    | split
    | lift_lets -underBinder
theorem State.turnCr_keeps {k0 s : State} (hK : Keeps k0 s) (p : Nat) : Keeps k0 (State.turnCr s p) := by
  unfold State.turnCr
  repeat' first
    | with_reducible assumption
    | (with_reducible apply State.modPort_keeps)

theorem State.emit_keeps {k0 s : State} (hK : Keeps k0 s) (p : Nat) (f : TxFlit) (isNew : Bool) : Keeps k0 (State.emit s p f isNew) := by
  unfold State.emit
  repeat' first
    | with_reducible assumption
    | (with_reducible apply State.injectFlit_keeps)
    | (with_reducible apply State.out_keeps)
    | (with_reducible apply State.turnCr_keeps)
    | (with_reducible apply State.each_keepsK)
    | (intro _ _ _; beta_reduce)
    | split

theorem State.emitPlain_keeps {k0 s : State} (hK : Keeps k0 s) (p : Nat) (type : Nat) (payload : List Byte) : Keeps k0 (State.emitPlain s p type payload) := by
  unfold State.emitPlain
  repeat' first
    | with_reducible assumption
    | (with_reducible apply State.emit_keeps)

theorem State.emitLanes_keeps {k0 s : State} (hK : Keeps k0 s) (p : Nat) : Keeps k0 (State.emitLanes s p) := by
  unfold State.emitLanes
  repeat' first
    | with_reducible assumption
    | (with_reducible apply State.out_keeps)
    | (with_reducible apply State.turnCr_keeps)
    | split

theorem State.sendFlit_keeps {k0 s : State} (hK : Keeps k0 s) (p : Nat) (m : TxMsg) : Keeps k0 (State.sendFlit s p m) := by
  unfold State.sendFlit
  repeat' first
    | with_reducible assumption
    | (with_reducible apply State.modPort_keeps)
    | (with_reducible apply State.count_keeps)
    | (with_reducible apply State.emit_keeps)
    | split

theorem State.pumpN_keeps {b0 s : State} (h : Keeps b0 s) (p n : Nat) : Keeps b0 (s.pumpN p n) := by
  induction n generalizing s with
  | zero => exact h
  | succ n ih =>
    unfold State.pumpN
    split
    · exact h
    · split
      · exact h
      · exact ih (State.sendFlit_keeps h _ _)

theorem State.pump_keeps {k0 s : State} (hK : Keeps k0 s) (p : Nat) : Keeps k0 (State.pump s p) := by
  unfold State.pump
  repeat' first
    | with_reducible assumption
    | (with_reducible apply State.pumpN_keeps)

theorem State.announce_keeps {k0 s : State} (hK : Keeps k0 s) (p : Nat) : Keeps k0 (State.announce s p) := by
  unfold State.announce
  repeat' first
    | with_reducible assumption
    | (with_reducible apply State.emitPlain_keeps)
    | (with_reducible apply State.each_keepsK)
    | (intro _ _ _; beta_reduce)
    | split

theorem State.pumpAll_keeps {k0 s : State} (hK : Keeps k0 s) : Keeps k0 (State.pumpAll s) := by
  unfold State.pumpAll
  repeat' first
    | with_reducible assumption
    | (with_reducible apply State.pump_keeps)
    | (with_reducible apply State.each_keepsK)
    | (intro _ _ _; beta_reduce)

theorem State.putPort_keeps {k0 s : State} (hK : Keeps k0 s) (p : Nat) (m : TxMsg) : Keeps k0 (State.putPort s p m) := by
  unfold State.putPort
  repeat' first
    | with_reducible assumption
    | (with_reducible apply State.modPort_keeps)
    | (with_reducible apply State.pump_keeps)

theorem State.putBundle_keeps {k0 s : State} (hK : Keeps k0 s) (b : Bundle) (m : TxMsg) : Keeps k0 (State.putBundle s b m) := by
  unfold State.putBundle
  repeat' first
    | with_reducible assumption
    | (with_reducible apply State.putPort_keeps)
    | fail_if_no_progress (with_reducible refine Keeps.upd ?_ (Nat.le_refl _) (Nat.le_refl _) rfl rfl rfl)
    | split

theorem State.replayFrom_keeps {k0 s : State} (hK : Keeps k0 s) (p : Nat) (seq : BitVec 16) : Keeps k0 (State.replayFrom s p seq) := by
  unfold State.replayFrom
  repeat' first
    | with_reducible assumption
    | (with_reducible apply State.count_keeps)
    | (with_reducible apply State.modPort_keeps)
    | (with_reducible apply State.emit_keeps)
    | (with_reducible apply State.each_keepsK)
    | (intro _ _ _; beta_reduce)
    | split

theorem State.parkPort_keeps {k0 s : State} (hK : Keeps k0 s) (p : Nat) : Keeps k0 (State.parkPort s p) := by
  unfold State.parkPort
  repeat' first
    | with_reducible assumption
    | (with_reducible apply State.modPort_keeps)
    | fail_if_no_progress (with_reducible refine Keeps.upd ?_ (Nat.le_refl _) (Nat.le_refl _) rfl rfl rfl)

theorem State.closePort_keeps {k0 s : State} (hK : Keeps k0 s) (p : Nat) : Keeps k0 (State.closePort s p) := by
  unfold State.closePort
  repeat' first
    | with_reducible assumption
    | (with_reducible apply State.parkPort_keeps)
    | (with_reducible apply State.setFld_keeps)

theorem State.trainPort_keeps {k0 s : State} (hK : Keeps k0 s) (p : Nat) : Keeps k0 (State.trainPort s p) := by
  unfold State.trainPort
  repeat' first
    | with_reducible assumption
    | (with_reducible apply State.closePort_keeps)
    | (with_reducible apply State.setFld_keeps)
    | (with_reducible apply State.modPort_keeps)
    | (with_reducible apply State.beginWake_keeps)
    | (intro x; refine Keeps.cut (a := k0) x ?_ (fun hx => ?_); rotate_left; clear_value x; rotate_right; subst x)
    | split
    | lift_lets -underBinder

theorem State.refreshOpen_keeps {k0 s : State} (hK : Keeps k0 s) : Keeps k0 (State.refreshOpen s) := by
  unfold State.refreshOpen
  repeat' first
    | with_reducible assumption
    | (with_reducible apply State.setFld_keeps)

theorem State.emitRecord_keeps {k0 s : State} (hK : Keeps k0 s) (p : Nat) (q : Nat) : Keeps k0 (State.emitRecord s p q) := by
  unfold State.emitRecord
  repeat' first
    | with_reducible assumption
    | (with_reducible apply State.emitPlain_keeps)
    | split

theorem State.portDown_keeps {k0 s : State} (hK : Keeps k0 s) (p : Nat) (cause : Nat) : Keeps k0 (State.portDown s p cause) := by
  unfold State.portDown
  repeat' first
    | with_reducible assumption
    | (with_reducible apply State.modPort_keeps)
    | (with_reducible apply State.setFld_keeps)
    | (with_reducible apply State.count_keeps)
    | (with_reducible apply State.jasper_keeps)
    | (with_reducible apply State.trainPort_keeps)
    | (with_reducible apply State.emitRecord_keeps)
    | (with_reducible apply State.refreshOpen_keeps)
    | (with_reducible apply State.each_keepsK)
    | (with_reducible apply State.when_keepsK)
    | (intro _ _ _; beta_reduce)
    | (intro _ _; beta_reduce)
    | split

theorem State.handback_keeps {k0 s : State} (hK : Keeps k0 s) (p : Nat) (last : BitVec 16) (valid : Bool) : Keeps k0 (State.handback s p last valid) := by
  unfold State.handback
  repeat' first
    | with_reducible assumption
    | (with_reducible apply State.modPort_keeps)
    | (with_reducible apply State.trainPort_keeps)
    | (with_reducible apply State.putBundle_keeps)
    | (with_reducible apply State.each_keepsK)
    | (intro _ _ _; beta_reduce)
    | split

theorem State.showPeer_keeps {k0 s : State} (hK : Keeps k0 s) (p : Nat) (peer : Nat) (peerPort : Nat) (twin : Bool) : Keeps k0 (State.showPeer s p peer peerPort twin) := by
  unfold State.showPeer
  repeat' first
    | with_reducible assumption
    | (with_reducible apply State.setFld_keeps)

theorem State.portUp_keeps {k0 s : State} (hK : Keeps k0 s) (p : Nat) (good : BitVec 4) (peer : Nat) (peerPort : Nat) (twin : Bool) : Keeps k0 (State.portUp s p good peer peerPort twin) := by
  unfold State.portUp
  repeat' first
    | with_reducible assumption
    | (with_reducible apply State.setFld_keeps)
    | (with_reducible apply State.showPeer_keeps)
    | (with_reducible apply State.parkPort_keeps)
    | (with_reducible apply State.modPort_keeps)
    | (with_reducible apply State.putBundle_keeps)
    | (with_reducible apply State.refreshOpen_keeps)
    | (with_reducible apply State.each_keepsK)
    | fail_if_no_progress (with_reducible refine Keeps.upd ?_ (Nat.le_refl _) (Nat.le_refl _) rfl rfl rfl)
    | (intro _ _ _; beta_reduce)

theorem State.resumeLinks_keeps {k0 s : State} (hK : Keeps k0 s) : Keeps k0 (State.resumeLinks s) := by
  unfold State.resumeLinks
  repeat' first
    | with_reducible assumption
    | (with_reducible apply State.emitLanes_keeps)
    | (with_reducible apply State.emitRecord_keeps)
    | (with_reducible apply State.trainPort_keeps)
    | (with_reducible apply State.pump_keeps)
    | (with_reducible apply State.each_keepsK)
    | (intro _ _ _; beta_reduce)
    | split

theorem State.replay_keeps {k0 s : State} (hK : Keeps k0 s) (p : Nat) (seq : BitVec 16) : Keeps k0 (State.replay s p seq) := by
  unfold State.replay
  repeat' first
    | with_reducible assumption
    | (with_reducible apply State.portDown_keeps)
    | (with_reducible apply State.replayFrom_keeps)
    | split

theorem State.dropLanes_keeps {k0 s : State} (hK : Keeps k0 s) (p : Nat) (ls : List Nat) : Keeps k0 (State.dropLanes s p ls) := by
  unfold State.dropLanes
  repeat' first
    | with_reducible assumption
    | (with_reducible apply State.setFld_keeps)
    | (with_reducible apply State.count_keeps)
    | (with_reducible apply State.raise_keeps)
    | (with_reducible apply State.jasper_keeps)
    | (with_reducible apply State.each_keepsK)
    | (intro x; refine Keeps.cut (a := k0) x ?_ (fun hx => ?_); rotate_left; clear_value x; rotate_right; subst x)
    | (intro x; clear_value x)
    | (intro _ _ _; beta_reduce)
    | split
    | lift_lets -underBinder

theorem State.freeFlits_keeps {k0 s : State} (hK : Keeps k0 s) (p : Nat) (v : Nat) (n : Nat) : Keeps k0 (State.freeFlits s p v n) := by
  unfold State.freeFlits
  repeat' first
    | with_reducible assumption
    | (with_reducible apply State.modPort_keeps)

theorem State.takeFlow_keeps {k0 s : State} (hK : Keeps k0 s) (p : Nat) (h : BitVec 96) : Keeps k0 (State.takeFlow s p h) := by
  unfold State.takeFlow
  repeat' first
    | with_reducible assumption
    | (with_reducible apply State.modPort_keeps)

theorem State.sendNak_keeps {k0 s : State} (hK : Keeps k0 s) (p : Nat) : Keeps k0 (State.sendNak s p) := by
  unfold State.sendNak
  repeat' first
    | with_reducible assumption
    | (with_reducible apply State.count_keeps)
    | (with_reducible apply State.modPort_keeps)
    | (with_reducible apply State.emitPlain_keeps)
    | split

theorem State.takeMsgFlit_keeps {k0 s : State} (hK : Keeps k0 s) (p : Nat) (type : Nat) (vc : Nat) (last : Bool) (payload : List Byte) : Keeps k0 (State.takeMsgFlit s p type vc last payload) := by
  unfold State.takeMsgFlit
  repeat' first
    | with_reducible assumption
    | (with_reducible apply State.freeFlits_keeps)
    | (with_reducible apply State.modPort_keeps)
    | (intro x; refine Keeps.cut (a := k0) x ?_ (fun hx => ?_); rotate_left; clear_value x; rotate_right; subst x)
    | (intro x; clear_value x)
    | split
    | lift_lets -underBinder

theorem State.acceptFlit_keeps {k0 s : State} (hK : Keeps k0 s) (p : Nat) (type : Nat) (vc : Nat) (last : Bool) (payload : List Byte) : Keeps k0 (State.acceptFlit s p type vc last payload).1 := by
  unfold State.acceptFlit
  repeat' first
    | with_reducible assumption
    | (with_reducible apply State.count_keeps)
    | (with_reducible apply State.modPort_keeps)
    | (with_reducible apply State.freeFlits_keeps)
    | (with_reducible apply State.takeMsgFlit_keeps)
    | (intro x; refine Keeps.cut (a := k0) x ?_ (fun hx => ?_); rotate_left; clear_value x; rotate_right; subst x)
    | split
    | lift_lets -underBinder
theorem State.rxFlit_keeps {k0 s : State} (hK : Keeps k0 s) (p : Nat) (f : FlitIn) : Keeps k0 (State.rxFlit s p f).1 := by
  unfold State.rxFlit
  repeat' first
    | with_reducible assumption
    | (with_reducible apply State.count_keeps)
    | (with_reducible apply State.takeFlow_keeps)
    | (with_reducible apply State.acceptFlit_keeps)
    | (with_reducible apply State.sendNak_keeps)
    | (with_reducible apply State.replay_keeps)
    | (with_reducible apply State.pump_keeps)
    | (with_reducible apply State.each_keepsK)
    | (intro x; refine Keeps.cut (a := k0) x ?_ (fun hx => ?_); rotate_left; clear_value x; rotate_right; subst x)
    | (intro x; refine Keeps.cut1 (a := k0) x ?_ (fun hx => ?_); rotate_left; clear_value x; rotate_right; subst x)
    | (intro x; clear_value x)
    | (intro _ _ _; beta_reduce)
    | split
    | lift_lets -underBinder

/-! ### TopoOps -/

theorem State.setMState_keeps {k0 s : State} (hK : Keeps k0 s) (m : Nat) (v : Nat) : Keeps k0 (State.setMState s m v) := by
  unfold State.setMState
  repeat' first
    | with_reducible assumption
    | (with_reducible apply State.setFld_keeps)
    | (with_reducible apply State.refreshOpen_keeps)

theorem State.sendTensor_keeps {k0 s : State} (hK : Keeps k0 s) (m : TensorMsg) : Keeps k0 (State.sendTensor s m) := by
  unfold State.sendTensor
  repeat' first
    | with_reducible assumption
    | (with_reducible apply State.putBundle_keeps)
    | (with_reducible apply State.jasper_keeps)
    | fail_if_no_progress (with_reducible refine Keeps.upd ?_ (Nat.le_refl _) (Nat.le_refl _) rfl rfl rfl)
    | split

theorem State.sendMgmt_keeps {k0 s : State} (hK : Keeps k0 s) (m : MgmtMsg) : Keeps k0 (State.sendMgmt s m) := by
  unfold State.sendMgmt
  repeat' first
    | with_reducible assumption
    | (with_reducible apply State.putBundle_keeps)
    | (with_reducible apply State.jasper_keeps)
    | split

theorem State.tell_keeps {k0 s : State} (hK : Keeps k0 s) (ms : List Nat) (kind : Nat) (payload : List Byte) : Keeps k0 (State.tell s ms kind payload) := by
  unfold State.tell
  repeat' first
    | with_reducible assumption
    | (with_reducible apply State.sendMgmt_keeps)
    | (with_reducible apply State.each_keepsK)
    | (intro _ _ _; beta_reduce)

theorem State.tellTopo_keeps {k0 s : State} (hK : Keeps k0 s) (m : Nat) (v : Nat) : Keeps k0 (State.tellTopo s m v) := by
  unfold State.tellTopo
  repeat' first
    | with_reducible assumption
    | (with_reducible apply State.tell_keeps)

theorem State.tellLeaving_keeps {k0 s : State} (hK : Keeps k0 s) (cause : LeaveCause) : Keeps k0 (State.tellLeaving s cause) := by
  unfold State.tellLeaving
  repeat' first
    | with_reducible assumption
    | (with_reducible apply State.tell_keeps)
    | fail_if_no_progress (with_reducible refine Keeps.upd ?_ (Nat.le_refl _) (Nat.le_refl _) rfl rfl rfl)

theorem State.startRelink_keeps {k0 s : State} (hK : Keeps k0 s) (m : Nat) (bs : List Bundle) : Keeps k0 (State.startRelink s m bs) := by
  unfold State.startRelink
  repeat' first
    | with_reducible assumption
    | fail_if_no_progress (with_reducible refine Keeps.upd ?_ (Nat.le_refl _) (Nat.le_refl _) rfl rfl rfl)

theorem State.memberLost_keeps {k0 s : State} (hK : Keeps k0 s) (m : Nat) (cause : Nat) : Keeps k0 (State.memberLost s m cause) := by
  unfold State.memberLost
  repeat' first
    | with_reducible assumption
    | (with_reducible apply State.setMState_keeps)
    | (with_reducible apply State.setFld_keeps)
    | (with_reducible apply State.tell_keeps)
    | (with_reducible apply State.sendMgmt_keeps)
    | (with_reducible apply State.postAll_keeps)
    | (with_reducible apply State.count_keeps)
    | (with_reducible apply State.jasper_keeps)
    | (with_reducible apply State.abandonStep_keeps)
    | (with_reducible apply State.releaseHeld_keeps)
    | (with_reducible apply State.each_keepsK)
    | (with_reducible apply State.when_keepsK)
    | fail_if_no_progress (with_reducible refine Keeps.upd ?_ (Nat.le_refl _) (Nat.le_refl _) rfl rfl rfl)
    | (intro x; refine Keeps.cut (a := k0) x ?_ (fun hx => ?_); rotate_left; clear_value x; rotate_right; subst x)
    | (intro x; clear_value x)
    | (intro _ _ _; beta_reduce)
    | (intro _ _; beta_reduce)
    | split
    | lift_lets -underBinder

theorem State.requestReset_keeps {k0 s : State} (hK : Keeps k0 s) (m : Nat) (bs : List Bundle) : Keeps k0 (State.requestReset s m bs) := by
  unfold State.requestReset
  repeat' first
    | with_reducible assumption
    | (with_reducible apply State.putBundle_keeps)
    | (with_reducible apply State.count_keeps)
    | (with_reducible apply State.out_keeps)
    | (with_reducible apply State.jasper_keeps)
    | (with_reducible apply State.startRelink_keeps)
    | (with_reducible apply State.when_keepsK)
    | (intro _ _; beta_reduce)
    | split

theorem State.trainEnd_keeps {k0 s : State} (hK : Keeps k0 s) (p : Nat) (r : TrainEnd) (skip : Option Nat) : Keeps k0 (State.trainEnd s p r skip) := by
  unfold State.trainEnd
  repeat' first
    | with_reducible assumption
    | (with_reducible apply State.trainPort_keeps)
    | (with_reducible apply State.showPeer_keeps)
    | (with_reducible apply State.setFld_keeps)
    | (with_reducible apply State.count_keeps)
    | (with_reducible apply State.jasper_keeps)
    | (with_reducible apply State.refreshOpen_keeps)
    | (with_reducible apply State.portUp_keeps)
    | (with_reducible apply State.setMState_keeps)
    | (with_reducible apply State.tellTopo_keeps)
    | (intro x; refine Keeps.cut (a := k0) x ?_ (fun hx => ?_); rotate_left; clear_value x; rotate_right; subst x)
    | (intro x; clear_value x)
    | split
    | lift_lets -underBinder

theorem State.retrainHeld_keeps {k0 s : State} (hK : Keeps k0 s) (m : Nat) : Keeps k0 (State.retrainHeld s m) := by
  unfold State.retrainHeld
  repeat' first
    | with_reducible assumption
    | (with_reducible apply State.trainPort_keeps)
    | (with_reducible apply State.each_keepsK)
    | (with_reducible apply State.when_keepsK)
    | (with_reducible apply Keeps.foldl)
    | (intro _ _ _; beta_reduce)
    | (intro _ _; beta_reduce)

theorem State.moveSwitch_keeps {k0 s : State} (hK : Keeps k0 s) (close : Bool) (k : Nat) : Keeps k0 (State.moveSwitch s close k) := by
  unfold State.moveSwitch
  repeat' first
    | with_reducible assumption
    | (with_reducible apply State.setFld_keeps)
    | (with_reducible apply State.count_keeps)
    | (with_reducible apply State.portDown_keeps)
    | (with_reducible apply State.each_keepsK)
    | (with_reducible apply State.when_keepsK)
    | fail_if_no_progress (with_reducible refine Keeps.upd ?_ (Nat.le_refl _) (Nat.le_refl _) rfl rfl rfl)
    | (intro x; refine Keeps.cut (a := k0) x ?_ (fun hx => ?_); rotate_left; clear_value x; rotate_right; subst x)
    | (intro x; clear_value x)
    | (intro _ _ _; beta_reduce)
    | (intro _ _; beta_reduce)
    | split
    | lift_lets -underBinder

theorem State.closeSwitches_keeps {k0 s : State} (hK : Keeps k0 s) : Keeps k0 (State.closeSwitches s) := by
  unfold State.closeSwitches
  repeat' first
    | with_reducible assumption
    | (with_reducible apply State.moveSwitch_keeps)
    | (with_reducible apply State.each_keepsK)
    | (intro _ _ _; beta_reduce)

/-! ### GarnetOps -/

theorem State.refreshTokens_keeps {k0 s : State} (hK : Keeps k0 s) : Keeps k0 (State.refreshTokens s) := by
  unfold State.refreshTokens
  repeat' first
    | with_reducible assumption
    | (with_reducible apply State.setFld_keeps)

theorem State.holdToken_keeps {k0 s : State} (hK : Keeps k0 s) (m : Nat) : Keeps k0 (State.holdToken s m) := by
  unfold State.holdToken
  repeat' first
    | with_reducible assumption
    | (with_reducible apply State.setFld_keeps)
    | (with_reducible apply State.refreshTokens_keeps)

theorem State.flood_keeps {k0 s : State} (hK : Keeps k0 s) (t : Token) (from_ : Option Nat) : Keeps k0 (State.flood s t from_) := by
  unfold State.flood
  repeat' first
    | with_reducible assumption
    | (with_reducible apply State.modPort_keeps)
    | (with_reducible apply State.each_keepsK)
    | (intro _ _ _; beta_reduce)

theorem State.sendTicks_keeps {k0 s : State} (hK : Keeps k0 s) : Keeps k0 (State.sendTicks s) := by
  unfold State.sendTicks
  repeat' first
    | with_reducible assumption
    | (with_reducible apply State.pump_keeps)
    | (with_reducible apply State.each_keepsK)
    | (intro _ _ _; beta_reduce)

theorem State.staleToken_keeps {k0 s : State} (hK : Keeps k0 s) : Keeps k0 (State.staleToken s) := by
  unfold State.staleToken
  repeat' first
    | with_reducible assumption
    | (with_reducible apply State.count_keeps)
    | (with_reducible apply State.raise_keeps)

theorem State.judgeToken_keeps {k0 s : State} (hK : Keeps k0 s) (t : Token) : Keeps k0 (State.judgeToken s t) := by
  unfold State.judgeToken
  repeat' first
    | with_reducible assumption
    | (with_reducible apply State.holdToken_keeps)
    | (with_reducible apply State.raise_keeps)
    | (with_reducible apply State.abandonStep_keeps)
    | (with_reducible apply State.jasper_keeps)
    | (with_reducible apply State.staleToken_keeps)
    | fail_if_no_progress (with_reducible refine Keeps.upd ?_ (Nat.le_refl _) (Nat.le_refl _) rfl rfl rfl)
    | (intro x; refine Keeps.cut (a := k0) x ?_ (fun hx => ?_); rotate_left; clear_value x; rotate_right; subst x)
    | (intro x; clear_value x)
    | split
    | lift_lets -underBinder

theorem State.rxToken_keeps {k0 s : State} (hK : Keeps k0 s) (p : Nat) (t : Token) : Keeps k0 (State.rxToken s p t) := by
  unfold State.rxToken
  repeat' first
    | with_reducible assumption
    | (with_reducible apply State.staleToken_keeps)
    | (with_reducible apply State.flood_keeps)
    | (with_reducible apply State.judgeToken_keeps)
    | fail_if_no_progress (with_reducible refine Keeps.upd ?_ (Nat.le_refl _) (Nat.le_refl _) rfl rfl rfl)
    | (intro x; refine Keeps.cut (a := k0) x ?_ (fun hx => ?_); rotate_left; clear_value x; rotate_right; subst x)
    | (intro x; clear_value x)
    | split
    | lift_lets -underBinder

theorem State.issueDone_keeps {k0 s : State} (hK : Keeps k0 s) (abandon : Bool) : Keeps k0 (State.issueDone s abandon) := by
  unfold State.issueDone
  repeat' first
    | with_reducible assumption
    | (with_reducible apply State.raise_keeps)
    | (with_reducible apply State.holdToken_keeps)
    | (with_reducible apply State.flood_keeps)
    | (with_reducible apply State.sendTicks_keeps)
    | (with_reducible apply State.when_keepsK)
    | fail_if_no_progress (with_reducible refine Keeps.upd ?_ (Nat.le_refl _) (Nat.le_refl _) rfl rfl rfl)
    | (intro _ _; beta_reduce)

/-! ### JasperOps -/

theorem State.syncSeconds_keeps {k0 s : State} (hK : Keeps k0 s) : Keeps k0 (State.syncSeconds s) := by
  unfold State.syncSeconds
  repeat' first
    | with_reducible assumption
    | (with_reducible apply State.setFld_keeps)
    | (with_reducible apply State.modJsp_keeps)
    | (intro x; clear_value x)
    | split
    | lift_lets -underBinder

theorem State.deviceError_keeps {k0 s : State} (hK : Keeps k0 s) (code : Nat) (e : JEntry) : Keeps k0 (State.deviceError s code e) := by
  unfold State.deviceError
  repeat' first
    | with_reducible assumption
    | (with_reducible apply State.postEvent_keeps)
    | (with_reducible apply State.postAll_keeps)
    | split

theorem State.showSeqs_keeps {k0 s : State} (hK : Keeps k0 s) : Keeps k0 (State.showSeqs s) := by
  unfold State.showSeqs
  repeat' first
    | with_reducible assumption
    | (with_reducible apply State.setFld_keeps)

theorem State.passVault_keeps {k0 s : State} (hK : Keeps k0 s) : Keeps k0 (State.passVault s) := by
  unfold State.passVault
  repeat' first
    | with_reducible assumption
    | (with_reducible apply State.modFlash_keeps)
    | (with_reducible apply State.modJsp_keeps)
    | split

theorem State.requestFlush_keeps {k0 s : State} (hK : Keeps k0 s) : Keeps k0 (State.requestFlush s) := by
  unfold State.requestFlush
  repeat' first
    | with_reducible assumption
    | (with_reducible apply State.passVault_keeps)
    | (with_reducible apply State.count_keeps)
    | (with_reducible apply State.modFlash_keeps)
    | (with_reducible apply State.raise_keeps)
    | (intro x; refine Keeps.cut (a := k0) x ?_ (fun hx => ?_); rotate_left; clear_value x; rotate_right; subst x)
    | split
    | lift_lets -underBinder

theorem State.resumeFlush_keeps {k0 s : State} (hK : Keeps k0 s) : Keeps k0 (State.resumeFlush s) := by
  unfold State.resumeFlush
  repeat' first
    | with_reducible assumption
    | (with_reducible apply State.setFld_keeps)
    | (with_reducible apply State.requestFlush_keeps)
    | split

theorem State.record_keeps {k0 s : State} (hK : Keeps k0 s) (e : JReq) (error : Option Nat) : Keeps k0 (State.record s e error) := by
  unfold State.record
  repeat' first
    | with_reducible assumption
    | (with_reducible apply State.syncSeconds_keeps)
    | (with_reducible apply State.modJsp_keeps)
    | (with_reducible apply State.count_keeps)
    | (with_reducible apply State.setFld_keeps)
    | (with_reducible apply State.showSeqs_keeps)
    | (with_reducible apply State.out_keeps)
    | (with_reducible apply State.deviceError_keeps)
    | (with_reducible apply State.passVault_keeps)
    | (with_reducible apply State.requestFlush_keeps)
    | (with_reducible apply State.when_keepsK)
    | (intro _ _; beta_reduce)
    | split

theorem State.accept_keeps {k0 s : State} (hK : Keeps k0 s) (e : JReq) : Keeps k0 (State.accept s e) := by
  unfold State.accept
  repeat' first
    | with_reducible assumption
    | (with_reducible apply State.count_keeps)
    | (with_reducible apply State.modJsp_keeps)
    | (with_reducible apply State.record_keeps)
    | (intro x; refine Keeps.cut (a := k0) x ?_ (fun hx => ?_); rotate_left; clear_value x; rotate_right; subst x)
    | (intro x; clear_value x)
    | split
    | lift_lets -underBinder

theorem State.takeIntake_keeps {b0 s : State} (h : Keeps b0 s) : Keeps b0 s.takeIntake := by
  unfold State.takeIntake
  split
  · exact h
  · rename_i e rest he
    refine State.accept_keeps ?_ _
    have := h.intake
    rw [he] at this
    exact { h with intake := by simp at this; show rest.length ≤ 64; omega }

theorem State.drainIntake_keeps {k0 s : State} (hK : Keeps k0 s) : Keeps k0 (State.drainIntake s) := by
  unfold State.drainIntake
  repeat' first
    | with_reducible assumption
    | (with_reducible apply State.takeIntake_keeps)
    | (with_reducible apply State.each_keepsK)
    | (intro _ _ _; beta_reduce)

theorem State.writeSummaries_keeps {k0 s : State} (hK : Keeps k0 s) : Keeps k0 (State.writeSummaries s) := by
  unfold State.writeSummaries
  repeat' first
    | with_reducible assumption
    | (with_reducible apply State.modJsp_keeps)
    | (with_reducible apply State.record_keeps)
    | (with_reducible apply State.each_keepsK)
    | (intro x; refine Keeps.cut (a := k0) x ?_ (fun hx => ?_); rotate_left; clear_value x; rotate_right; subst x)
    | (intro x; clear_value x)
    | (intro _ _ _; beta_reduce)
    | split
    | lift_lets -underBinder

theorem State.rebase_keeps {k0 s : State} (hK : Keeps k0 s) (seq : Nat) (secs : Nat) (cycles : Nat) : Keeps k0 (State.rebase s seq secs cycles) := by
  unfold State.rebase
  repeat' first
    | with_reducible assumption
    | (with_reducible apply State.syncSeconds_keeps)
    | (with_reducible apply State.modJsp_keeps)
    | (with_reducible apply State.setFld_keeps)
    | (with_reducible apply State.raise_keeps)
    | (with_reducible apply State.showSeqs_keeps)

theorem State.rebaseVault_keeps {k0 s : State} (hK : Keeps k0 s) : Keeps k0 (State.rebaseVault s) := by
  unfold State.rebaseVault
  repeat' first
    | with_reducible assumption
    | (with_reducible apply State.showSeqs_keeps)
    | (with_reducible apply State.rebase_keeps)
    | split

theorem State.rebaseLost_keeps {k0 s : State} (hK : Keeps k0 s) : Keeps k0 (State.rebaseLost s) := by
  unfold State.rebaseLost
  repeat' first
    | with_reducible assumption
    | (with_reducible apply State.rebase_keeps)
    | (with_reducible apply State.raise_keeps)
    | split

theorem State.readVault_keeps {k0 s : State} (hK : Keeps k0 s) (seq : BitVec 32) : Keeps k0 (State.readVault s seq).2 := by
  unfold State.readVault
  repeat' first
    | with_reducible assumption
    | (with_reducible apply State.drawRead_keeps)
    | (with_reducible apply State.readSysPage_keeps)
    | (with_reducible apply State.modFlash_keeps)
    | (with_reducible apply State.showSeqs_keeps)
    | (intro x; refine Keeps.cut2 (a := k0) x ?_ (fun hx => ?_); rotate_left; clear_value x; rotate_right; subst x)
    | split
    | lift_lets -underBinder
theorem State.readVault_keeps2 {k0 s t0 : State} {x0} {seq : BitVec 32} (he0 : State.readVault s seq = (x0, t0)) (hK : Keeps k0 s) : Keeps k0 t0 := by have := State.readVault_keeps hK seq; rw [he0] at this; exact this

theorem State.latchEntry_keeps {k0 s : State} (hK : Keeps k0 s) (bs : List Byte) : Keeps k0 (State.latchEntry s bs) := by
  unfold State.latchEntry
  repeat' first
    | with_reducible assumption
    | (with_reducible apply State.setFld_keeps)
    | (with_reducible apply State.each_keepsK)
    | (intro _ _ _; beta_reduce)

theorem State.writeReadSeq_keeps {k0 s : State} (hK : Keeps k0 s) (seq : BitVec 32) : Keeps k0 (State.writeReadSeq s seq) := by
  unfold State.writeReadSeq
  repeat' first
    | with_reducible assumption
    | (with_reducible apply State.setFld_keeps)
    | (with_reducible apply State.latchEntry_keeps)
    | (intro x; refine Keeps.cut (a := k0) x ?_ (fun hx => ?_); rotate_left; clear_value x; rotate_right; subst x)
    | split
    | lift_lets -underBinder

theorem State.endVaultRead_keeps {k0 s : State} (hK : Keeps k0 s) : Keeps k0 (State.endVaultRead s) := by
  unfold State.endVaultRead
  repeat' first
    | with_reducible assumption
    | (with_reducible apply State.latchEntry_keeps)
    | (with_reducible apply State.setFld_keeps)
    | (with_reducible apply State.modJsp_keeps)
    | (with_reducible apply State.out_keeps)
    | (with_reducible apply State.when_keepsK)
    | (intro _ _; beta_reduce)

theorem State.clearCtr_keeps {k0 s : State} (hK : Keeps k0 s) (a : Nat) : Keeps k0 (State.clearCtr s a) := by
  unfold State.clearCtr
  repeat' first
    | with_reducible assumption
    | (with_reducible apply State.syncResidency_keeps)
    | fail_if_no_progress (with_reducible refine Keeps.upd ?_ (Nat.le_refl _) (Nat.le_refl _) rfl rfl rfl)

theorem State.clearOne_keeps {k0 s : State} (hK : Keeps k0 s) (a : Nat) : Keeps k0 (State.clearOne s a) := by
  unfold State.clearOne
  repeat' first
    | with_reducible assumption
    | (with_reducible apply State.clearCtr_keeps)
    | (with_reducible apply State.jasper_keeps)
    | split

theorem State.clearBlock_keeps {k0 s : State} (hK : Keeps k0 s) (a : Nat) : Keeps k0 (State.clearBlock s a) := by
  unfold State.clearBlock
  repeat' first
    | with_reducible assumption
    | (with_reducible apply State.jasper_keeps)
    | (with_reducible apply State.syncResidency_keeps)
    | fail_if_no_progress (with_reducible refine Keeps.upd ?_ (Nat.le_refl _) (Nat.le_refl _) rfl rfl rfl)
    | split

/-! ### ResetOps -/

theorem State.survivors_keeps {b0 s : State} (h : Keeps b0 s) : Keeps b0 s.survivors := by
  unfold State.survivors
  refine State.each_keepsK ?_ _ _ fun _ _ h => State.setFld_keeps h _ _
  exact { h with intake := Nat.zero_le _, mem := Mem.wf_nil, buffer := Mem.wf_nil, cores := nofun, clusters := nofun }

theorem State.freshLuts_keeps {b0 s : State} (h : Keeps b0 s) : Keeps b0 s.freshLuts := by
  unfold State.freshLuts
  generalize List.range 512 = l
  have h1 := State.fresh_keeps h
  generalize State.fresh s = q at h1 ⊢
  obtain ⟨tag, u⟩ := q
  dsimp only at h1 ⊢
  refine { h1 with cores := fun p hp => ?_ }
  obtain ⟨c, -, rfl⟩ := List.mem_map.mp hp
  exact Mem.wf_nil

theorem State.coldStart_keeps {b0 s : State} (h : Keeps b0 s) : Keeps b0 s.coldStart :=
  State.when_keepsK (State.closeSwitches_keeps (State.freshLuts_keeps (State.survivors_keeps h))) _ _ fun _ h => State.out_keeps h _

theorem State.warmStart_keeps {b0 s : State} (h : Keeps b0 s) (causes : List Fld) : Keeps b0 (s.warmStart causes) := by
  have h1 := State.drainIntake_keeps (State.writeSummaries_keeps (State.syncSeconds_keeps h))
  unfold State.warmStart
  dsimp only
  generalize State.drainIntake _ = t at h1 ⊢
  have h2 := State.each_keepsK (State.wr_keeps (State.each_keepsK (State.survivors_keeps h1) alwaysOn (fun r f => r.setFld f (t.fld f))
    fun _ _ h => State.setFld_keeps h _ _) Fld.BOOT_RESET_CAUSE_COLD.addr (if t.starting then t.rd Fld.BOOT_RESET_CAUSE_COLD.addr else 0#32)) causes
    (fun r f => r.raise f) fun _ _ h => State.raise_keeps h _
  generalize State.each _ causes _ = u at h2 ⊢
  refine State.closeSwitches_keeps ?_
  exact { h2 with
    cores := h1.mapCores (fun x => { (default : CoreSt) with vec := { (default : VFile) with luts := x.vec.luts, lutTag := x.vec.lutTag } })
      fun _ _ => Mem.wf_nil }

theorem State.timeZero_keeps {k0 s : State} (hK : Keeps k0 s) : Keeps k0 (State.timeZero s) := by
  unfold State.timeZero
  repeat' first
    | with_reducible assumption
    | fail_if_no_progress (with_reducible refine Keeps.upd ?_ (Nat.le_refl _) (Nat.le_refl _) rfl rfl rfl)

theorem State.release_keeps {k0 s : State} (hK : Keeps k0 s) (why : Nat) : Keeps k0 (State.release s why) := by
  unfold State.release
  repeat' first
    | with_reducible assumption
    | (with_reducible apply State.timeZero_keeps)
    | fail_if_no_progress (with_reducible refine Keeps.upd ?_ (Nat.le_refl _) (Nat.le_refl _) rfl rfl rfl)
    | split

theorem State.leaveAndReset_keeps {k0 s : State} (hK : Keeps k0 s) (cause : LeaveCause) (causes : List Fld) : Keeps k0 (State.leaveAndReset s cause causes) := by
  unfold State.leaveAndReset
  repeat' first
    | with_reducible assumption
    | (with_reducible apply State.tellLeaving_keeps)
    | (with_reducible apply State.warmStart_keeps)
    | fail_if_no_progress (with_reducible refine Keeps.upd ?_ (Nat.le_refl _) (Nat.le_refl _) rfl rfl rfl)

theorem State.endStart_keeps {k0 s : State} (hK : Keeps k0 s) (st : Nat) (code : Nat) : Keeps k0 (State.endStart s st code) := by
  unfold State.endStart
  repeat' first
    | with_reducible assumption
    | (with_reducible apply State.abandonStep_keeps)
    | (with_reducible apply State.forceFld_keeps)
    | (with_reducible apply State.setFld_keeps)
    | (with_reducible apply State.closeSwitches_keeps)
    | (with_reducible apply State.rebaseLost_keeps)
    | (intro x; refine Keeps.cut (a := k0) x ?_ (fun hx => ?_); rotate_left; clear_value x; rotate_right; subst x)
    | split
    | lift_lets -underBinder

theorem State.actOnFault_keeps {k0 s : State} (hK : Keeps k0 s) : Keeps k0 (State.actOnFault s) := by
  unfold State.actOnFault
  repeat' first
    | with_reducible assumption
    | (with_reducible apply State.endStart_keeps)
    | (with_reducible apply State.leaveAndReset_keeps)
    | fail_if_no_progress (with_reducible refine Keeps.upd ?_ (Nat.le_refl _) (Nat.le_refl _) rfl rfl rfl)
    | (intro (x : BootSt); subst x)
    | (intro x; refine Keeps.cut (a := k0) x ?_ (fun hx => ?_); rotate_left; clear_value x; rotate_right; subst x)
    | split
    | lift_lets -underBinder

theorem State.actOnNew_keeps {b0 t : State} (h : Keeps b0 t) (s : State) : Keeps b0 (s.actOnNew t) := by
  unfold State.actOnNew
  split
  · exact State.actOnFault_keeps h
  · exact h

theorem State.issueAct_keeps {b0 s : State} (h : Keeps b0 s) (c q : Nat) (i : Instr) (run : Prog → State → RunOut)
    (hr : ∀ p t, Keeps b0 t → Keeps b0 (run p t).1) : Keeps b0 (s.issueAct c q i run) :=
  State.actOnNew_keeps (State.issue_keeps h c q i run hr) s

end Sys2Proof.Machine
end

