-- ==== Sys2Proof/Laws/KeepsCores.lean ====
section
/-! SUPPORT. What the cores, the sequencer and the placement of objects keep (see `Keeps`): one lemma for each operation and each command. -/

namespace Sys2Proof.Machine

/-! ### Matrix -/

theorem State.busy_keeps {k0 s : State} (hK : Keeps k0 s) (g : Nat) (n : Nat) : Keeps k0 (State.busy s g n) := by
  unfold State.busy
  repeat' first
    | with_reducible assumption
    | (with_reducible apply State.count_keeps)
    | (with_reducible apply State.modEng_keeps)

theorem runSetup_keeps {k0 s : State} (hK : Keeps k0 s) (c : CoreId) (e : EngId) (o : SetupOp) (p : Prog) : Keeps k0 (runSetup c e o p s).1 := by
  unfold runSetup
  repeat' first
    | with_reducible assumption
    | (with_reducible apply State.unusedEnc_keeps)
    | (with_reducible apply State.engCmdErr_keeps)
    | (with_reducible apply State.modEng_keeps)
    | (with_reducible apply State.busy_keeps)
    | split
theorem State.putBank_keeps {k0 s : State} (hK : Keeps k0 s) (c : CoreId) (e : EngId) (p : Prog) (r : BankRun) : Keeps k0 (State.putBank s c e p r) := by
  unfold State.putBank
  repeat' first
    | with_reducible assumption
    | (with_reducible apply State.modEng_keeps)
    | (with_reducible apply State.wr_keeps)
    | (with_reducible apply State.setFld_keeps)
    | (with_reducible apply State.count_keeps)
    | (with_reducible apply State.raise_keeps)
    | (with_reducible apply State.jasper_keeps)
    | (with_reducible apply State.guardRec_keeps)
    | (with_reducible apply State.each_keepsK)
    | (with_reducible apply State.when_keepsK)
    | (intro _ _ _; beta_reduce)
    | (intro _ _; beta_reduce)

theorem State.expTable_keeps {k0 s : State} (hK : Keeps k0 s) (c : CoreId) (g : Nat) (id : Nat) (gen : Nat) : Keeps k0 (State.expTable s c g id gen).2 := by
  unfold State.expTable
  repeat' first
    | with_reducible assumption
    | (with_reducible apply State.modEng_keeps)
    | (with_reducible apply State.setFld_keeps)
    | (with_reducible apply State.count_keeps)
    | (intro x; clear_value x)
    | split
    | lift_lets -underBinder
theorem runStored_keeps {k0 s : State} (hK : Keeps k0 s) (c : CoreId) (e : EngId) (o : SetupOp) (op : RunOp) (st : TileStart) (h : TileHdr) (b0 : Nat) (t : TileRun) : Keeps k0 (runStored c e o op st h b0 s t).1 := by
  unfold runStored
  repeat' first
    | with_reducible assumption
    | (with_reducible apply State.expTable_keeps)
    | (with_reducible apply State.setFld_keeps)
    | (with_reducible apply State.count_keeps)
    | (with_reducible apply State.modEng_keeps)
    | (with_reducible apply State.when_keepsK)
    | (intro _ _; beta_reduce)
    | split
theorem runTiles_keeps {b0 s : State} (h : Keeps b0 s) (c : CoreId) (e : EngId) (o : SetupOp) (op : RunOp) (n : Nat) (t : TileRun) :
    Keeps b0 (runTiles c e o op n s t).2.1 := by
  induction n generalizing s t with
  | zero => exact h
  | succ n ih =>
    unfold runTiles
    split
    · exact h
    · dsimp only
      split
      · exact h
      · split
        · exact ih (runStored_keeps h _ _ _ _ _ _ _ _) _
        · exact ih h _

theorem State.substitute_keeps {k0 s : State} (hK : Keeps k0 s) (object : Nat) (tile : Nat) : Keeps k0 (State.substitute s object tile) := by
  unfold State.substitute
  repeat' first
    | with_reducible assumption
    | (with_reducible apply State.modEng_keeps)
    | (with_reducible apply State.substituteAt_keeps)
    | (with_reducible apply State.each_keepsK)
    | (intro _ _ _; beta_reduce)
    | split

theorem State.runCost_keeps {k0 s : State} (hK : Keeps k0 s) (g : Nat) (w : Walk) : Keeps k0 (State.runCost s g w) := by
  unfold State.runCost
  repeat' first
    | with_reducible assumption
    | (with_reducible apply State.count_keeps)
    | (with_reducible apply State.modEng_keeps)

theorem State.putRun_keeps {k0 s : State} (hK : Keeps k0 s) (c : CoreId) (e : EngId) (p : Prog) (t : TileRun) : Keeps k0 (State.putRun s c e p t) := by
  unfold State.putRun
  repeat' first
    | with_reducible assumption
    | (with_reducible apply State.putBank_keeps)
    | (with_reducible apply State.count_keeps)
    | (with_reducible apply State.modEng_keeps)
    | (with_reducible apply State.guardRec_keeps)

theorem State.holdRun_keeps {k0 s : State} (hK : Keeps k0 s) (g : Nat) (h : Hold) : Keeps k0 (State.holdRun s g h) := by
  unfold State.holdRun
  repeat' first
    | with_reducible assumption
    | (with_reducible apply State.modEng_keeps)

theorem State.holdPoison_keeps {k0 s : State} (hK : Keeps k0 s) (c : CoreId) (e : EngId) (t : TileAt) : Keeps k0 (State.holdPoison s c e t) := by
  unfold State.holdPoison
  repeat' first
    | with_reducible assumption
    | (with_reducible apply State.substituteAt_keeps)
    | (with_reducible apply State.startWait_keeps)
    | (with_reducible apply State.holdRun_keeps)
    | split

theorem State.tileFault_keeps {k0 s : State} (hK : Keeps k0 s) (c : CoreId) (e : EngId) (why : StopWhy) (t : TileAt) (sc : Option TileAt) : Keeps k0 (State.tileFault s c e why t sc) := by
  unfold State.tileFault
  repeat' first
    | with_reducible assumption
    | (with_reducible apply State.raise_keeps)
    | (with_reducible apply State.count_keeps)
    | (with_reducible apply State.jasper_keeps)
    | (with_reducible apply State.poisonTile_keeps)
    | (with_reducible apply State.holdPoison_keeps)
    | (with_reducible apply State.modEng_keeps)
    | (with_reducible apply State.holdRun_keeps)
    | (with_reducible apply State.quarantine_keeps)
    | (with_reducible apply State.substitute_keeps)
    | (with_reducible apply State.substituteAt_keeps)
    | (with_reducible apply State.when_keepsK)
    | (intro x; refine Keeps.cut (a := k0) x ?_ (fun hx => ?_); rotate_left; clear_value x; rotate_right; subst x)
    | (intro x; clear_value x)
    | (intro _ _; beta_reduce)
    | split
    | lift_lets -underBinder

theorem State.waitDecode_keeps {k0 s : State} (hK : Keeps k0 s) (g : Nat) (continues : Decode → Bool) : Keeps k0 (State.waitDecode s g continues).2 := by
  unfold State.waitDecode
  repeat' first
    | with_reducible assumption
    | (with_reducible apply State.modEng_keeps)
    | split
theorem runOn_keeps {b0 s : State} (h : Keeps b0 s) (c : CoreId) (e : EngId) (p : Prog) (r : RunHeld) (start : BankRun) : Keeps b0 (runOn c e p r start s).1 := by
  unfold runOn
  generalize 4096 = n
  lift_lets
  intro g out t u
  have ht : Keeps b0 out.2.1 := runTiles_keeps h c e r.setup r.op n _
  have hp : Keeps b0 u := State.putRun_keeps ht c e p t
  clear_value u t out
  split
  · dsimp only
    with_reducible refine State.runCost_keeps (State.modCore_keeps (State.modEng_keeps hp _ _) _ _ ?_) _ _
    exact fun _ h => h
  · with_reducible exact State.engCmdErr_keeps (State.runCost_keeps hp _ _) _ _
  · dsimp only
    with_reducible refine State.tileFault_keeps (State.when_keepsK (State.modEng_keeps hp _ _) _ _ ?_) _ _ _ _ _
    intro t ht
    with_reducible refine State.modCore_keeps ht _ _ ?_
    exact fun _ h => h

theorem runCache_keeps {k0 s : State} (hK : Keeps k0 s) (c : CoreId) (e : EngId) (o : SetupOp) (op : RunOp) (p : Prog) (start : BankRun) : Keeps k0 (runCache c e o op p start s).1 := by
  unfold runCache
  repeat' first
    | with_reducible assumption
    | (with_reducible apply State.count_keeps)
    | (with_reducible apply State.modEng_keeps)
    | (with_reducible apply State.modCore_keeps)
    | (with_reducible apply State.holdRun_keeps)
    | (with_reducible apply State.waitDecode_keeps)
    | (with_reducible apply State.withholdSess_keeps)
    | (with_reducible apply State.actParity_keeps)
    | (with_reducible apply State.consume_keeps)
    | (with_reducible apply State.putRun_keeps)
    | (with_reducible apply State.runCost_keeps)
    | (with_reducible apply State.each_keepsK)
    | (with_reducible apply State.when_keepsK)
    | (intro x; clear_value x)
    | (intro _ _ _; beta_reduce)
    | (intro _ _; beta_reduce)
    | split
    | lift_lets -underBinder
theorem runBegin_keeps {k0 s : State} (hK : Keeps k0 s) (c : CoreId) (e : EngId) (o : SetupOp) (op : RunOp) (p : Prog) : Keeps k0 (runBegin c e o op p s).1 := by
  unfold runBegin
  repeat' first
    | with_reducible assumption
    | (with_reducible apply State.engCmdErr_keeps)
    | (with_reducible apply State.waitDecode_keeps)
    | (with_reducible apply State.consume_keeps)
    | (with_reducible apply runOn_keeps)
    | (with_reducible apply runCache_keeps)
    | (intro x; refine Keeps.cut (a := k0) x ?_ (fun hx => ?_); rotate_left; clear_value x; rotate_right; subst x)
    | (intro x; refine Keeps.cut2 (a := k0) x ?_ (fun hx => ?_); rotate_left; clear_value x; rotate_right; subst x)
    | (intro x; clear_value x)
    | split
    | lift_lets -underBinder
theorem runRun_keeps {k0 s : State} (hK : Keeps k0 s) (c : CoreId) (e : EngId) (op : RunOp) (p : Prog) : Keeps k0 (runRun c e op p s).1 := by
  unfold runRun
  repeat' first
    | with_reducible assumption
    | (with_reducible apply runOn_keeps)
    | (with_reducible apply runBegin_keeps)
    | (with_reducible apply State.engCmdErr_keeps)
    | (intro x; clear_value x)
    | split
    | lift_lets -underBinder
theorem runReadout_keeps {k0 s : State} (hK : Keeps k0 s) (c : CoreId) (e : EngId) (op : ReadoutOp) (p : Prog) : Keeps k0 (runReadout c e op p s).1 := by
  unfold runReadout
  repeat' first
    | with_reducible assumption
    | (with_reducible apply State.engCmdErr_keeps)
    | (with_reducible apply State.consume_keeps)
    | (with_reducible apply State.modCore_keeps)
    | (with_reducible apply State.maxRc_keeps)
    | (with_reducible apply State.guardRec_keeps)
    | (with_reducible apply State.busy_keeps)
    | with_reducible exact CoreSt.put_wf ‹_› _ _
    | (intro x; refine Keeps.cut (a := k0) x ?_ (fun hx => ?_); rotate_left; clear_value x; rotate_right; subst x)
    | (intro x; clear_value x)
    | (intro _ _; beta_reduce)
    | split
    | lift_lets -underBinder
theorem runReadraw_keeps {k0 s : State} (hK : Keeps k0 s) (c : CoreId) (e : EngId) (op : RawOp) (p : Prog) : Keeps k0 (runReadraw c e op p s).1 := by
  unfold runReadraw
  repeat' first
    | with_reducible assumption
    | (with_reducible apply State.engCmdErr_keeps)
    | (with_reducible apply State.modCore_keeps)
    | (with_reducible apply State.maxRc_keeps)
    | (with_reducible apply State.busy_keeps)
    | with_reducible exact CoreSt.put_wf ‹_› _ _
    | (intro x; refine Keeps.cut (a := k0) x ?_ (fun hx => ?_); rotate_left; clear_value x; rotate_right; subst x)
    | (intro x; clear_value x)
    | (intro _ _; beta_reduce)
    | split
    | lift_lets -underBinder
theorem runMerge_keeps {k0 s : State} (hK : Keeps k0 s) (c : CoreId) (e : EngId) (op : RawOp) (p : Prog) : Keeps k0 (runMerge c e op p s).1 := by
  unfold runMerge
  repeat' first
    | with_reducible assumption
    | (with_reducible apply State.engCmdErr_keeps)
    | (with_reducible apply State.consume_keeps)
    | (with_reducible apply State.putBank_keeps)
    | (with_reducible apply State.busy_keeps)
    | (intro x; refine Keeps.cut (a := k0) x ?_ (fun hx => ?_); rotate_left; clear_value x; rotate_right; subst x)
    | (intro x; clear_value x)
    | split
    | lift_lets -underBinder
theorem execSetup_keeps {k0 s : State} (hK : Keeps k0 s) (c : CoreId) (e : EngId) (o : SetupOp) : OutKeeps k0 (execSetup c e o s) := by
  unfold execSetup
  repeat' first
    | with_reducible assumption
    | (with_reducible apply OutKeeps.next)
    | (with_reducible apply State.issue_keeps)
    | (with_reducible apply runSetup_keeps)
    | (intro _ _ _; beta_reduce)

theorem execRun_keeps {k0 s : State} (hK : Keeps k0 s) (c : CoreId) (e : EngId) (o : RunOp) : OutKeeps k0 (execRun c e o s) := by
  unfold execRun
  repeat' first
    | with_reducible assumption
    | (with_reducible apply OutKeeps.next)
    | (with_reducible apply State.issueAct_keeps)
    | (with_reducible apply runRun_keeps)
    | (intro _ _ _; beta_reduce)

theorem execReadout_keeps {k0 s : State} (hK : Keeps k0 s) (c : CoreId) (e : EngId) (o : ReadoutOp) : OutKeeps k0 (execReadout c e o s) := by
  unfold execReadout
  repeat' first
    | with_reducible assumption
    | (with_reducible apply OutKeeps.next)
    | (with_reducible apply State.issueAct_keeps)
    | (with_reducible apply runReadout_keeps)
    | (intro _ _ _; beta_reduce)

theorem execReadraw_keeps {k0 s : State} (hK : Keeps k0 s) (c : CoreId) (e : EngId) (o : RawOp) : OutKeeps k0 (execReadraw c e o s) := by
  unfold execReadraw
  repeat' first
    | with_reducible assumption
    | (with_reducible apply OutKeeps.next)
    | (with_reducible apply State.issue_keeps)
    | (with_reducible apply runReadraw_keeps)
    | (intro _ _ _; beta_reduce)

theorem execMerge_keeps {k0 s : State} (hK : Keeps k0 s) (c : CoreId) (e : EngId) (o : RawOp) : OutKeeps k0 (execMerge c e o s) := by
  unfold execMerge
  repeat' first
    | with_reducible assumption
    | (with_reducible apply OutKeeps.next)
    | (with_reducible apply State.issueAct_keeps)
    | (with_reducible apply runMerge_keeps)
    | (intro _ _ _; beta_reduce)

/-! ### Fetch -/

theorem State.placeOrRead_keeps {k0 s : State} (hK : Keeps k0 s) (o : Nat) (t : Nat) (die : Nat) (src : Source) (tiers : List Tier) : Keeps k0 (State.placeOrRead s o t die src tiers).2 := by
  unfold State.placeOrRead
  repeat' first
    | with_reducible assumption
    | (with_reducible refine State.placeTile_keeps2 ‹State.placeTile _ _ _ _ = _› ?_)
    | (with_reducible apply State.count_keeps)
    | split
theorem State.sourceOf_keeps {b0 s : State} (h : Keeps b0 s) (c o : Nat) (x : Obj) (t : Nat) : Keeps b0 (s.sourceOf c o x t).2 := by
  have hl := State.lookup_keeps h o x t
  have hp := fun (src : Source) (tiers : List Tier) => State.placeOrRead_keeps hl o t (x.dieFor t) src tiers
  unfold State.sourceOf
  dsimp only
  generalize State.lookup s o x t = u at hl hp ⊢
  repeat' first
    | with_reducible exact hl
    | with_reducible exact hp _ _
    | exact State.when_keepsK hl _ _ fun _ h => State.count_keeps h _ _
    | split
theorem runFetch_keeps {k0 s : State} (hK : Keeps k0 s) (c : CoreId) (f : FetchOp) (inSeg : Option Bool) (p : Prog) : Keeps k0 (runFetch c f inSeg p s).1 := by
  unfold runFetch
  repeat' first
    | with_reducible assumption
    | (with_reducible apply State.fetchError_keeps)
    | (with_reducible refine State.draw_keeps ‹State.draw _ _ _ _ _ = _› ?_)
    | (with_reducible apply State.useObj_keeps)
    | (with_reducible apply State.modObj_keeps)
    | (with_reducible apply State.sourceOf_keeps)
    | (with_reducible apply State.refTable_keeps)
    | (with_reducible apply State.fresh_keeps)
    | (with_reducible apply State.modCore_keeps)
    | (with_reducible apply State.count_keeps)
    | (with_reducible apply State.when_keepsK)
    | (with_reducible apply Keeps.foldl2)
    | fail_if_no_progress (with_reducible refine Keeps.upd ?_ (Nat.le_refl _) (Nat.le_refl _) rfl rfl rfl)
    | (intro x; refine Keeps.cut (a := k0) x ?_ (fun hx => ?_); rotate_left; clear_value x; rotate_right; subst x)
    | (intro x; refine Keeps.cut2 (a := k0) x ?_ (fun hx => ?_); rotate_left; clear_value x; rotate_right; subst x)
    | (intro x; clear_value x)
    | (intro _ _ _; beta_reduce)
    | (intro _ _; beta_reduce)
    | split
    | lift_lets -underBinder
theorem execFetch_keeps {k0 s : State} (hK : Keeps k0 s) (c : CoreId) (f : FetchOp) : OutKeeps k0 (execFetch c f s) := by
  unfold execFetch
  repeat' first
    | with_reducible assumption
    | (with_reducible apply OutKeeps.next)
    | (with_reducible apply State.issue_keeps)
    | (with_reducible apply runFetch_keeps)
    | (with_reducible apply State.actOnFault_keeps)
    | (intro _ _ _; beta_reduce)

theorem State.arriveFrame_keeps {k0 s : State} (hK : Keeps k0 s) (c : Nat) (o : Nat) (x : Obj) (q : FetchTile) (f : Nat) : Keeps k0 (State.arriveFrame s c o x q f).2 := by
  unfold State.arriveFrame
  repeat' first
    | with_reducible assumption
    | (with_reducible apply State.badFrame_keeps)
    | (with_reducible apply State.readFrame_keeps)
    | (with_reducible apply State.poisonTile_keeps)
    | (with_reducible apply State.startWait_keeps)
    | (with_reducible apply State.withholdParts_keeps)
    | (with_reducible apply State.when_keepsK)
    | (intro _ _; beta_reduce)
    | split
theorem State.arriveTile_keeps {k0 s : State} (hK : Keeps k0 s) (c : Nat) (o : Nat) (x : Obj) (q : FetchTile) : Keeps k0 (State.arriveTile s c o x q).2 := by
  unfold State.arriveTile
  repeat' first
    | with_reducible assumption
    | (with_reducible apply State.failTile_keeps)
    | (with_reducible refine State.originTile_keeps2 ‹State.originTile _ _ _ = _› ?_)
    | (with_reducible apply State.arriveFrame_keeps)
    | (intro (x : State → _); subst x)
    | (intro x; clear_value x)
    | split
    | lift_lets -underBinder
    | dsimp only
theorem State.fillBuffer_keeps {k0 s : State} (hK : Keeps k0 s) (c : Nat) (o : Nat) (x : Obj) (q : FetchTile) (slot : Nat) (a : Arrived) : Keeps k0 (State.fillBuffer s c o x q slot a) := by
  unfold State.fillBuffer
  repeat' first
    | with_reducible assumption
    | (with_reducible apply State.modPlace_keeps)
    | (with_reducible apply State.modCore_keeps)
    | with_reducible exact Mem.wf_wrBlk ‹_› _ _
    | (intro _ _; beta_reduce)

theorem State.fillCache_keeps {k0 s : State} (hK : Keeps k0 s) (k : Nat) (q : FetchTile) (slot : Nat) (a : Arrived) : Keeps k0 (State.fillCache s k q slot a) := by
  unfold State.fillCache
  repeat' first
    | with_reducible assumption
    | (with_reducible apply State.modCluster_keeps)
    | (with_reducible apply State.count_keeps)
    | (with_reducible apply State.jasper_keeps)
    | (with_reducible apply State.modPlace_keeps)
    | (with_reducible apply State.when_keepsK)
    | with_reducible exact Mem.wf_wrBlk ‹_› _ _
    | (intro _ _; beta_reduce)
    | split

theorem State.fetchPath_keeps {k0 s : State} (hK : Keeps k0 s) (c : Nat) (o : Nat) (x : Obj) (q : FetchTile) : Keeps k0 (State.fetchPath s c o x q) := by
  unfold State.fetchPath
  repeat' first
    | with_reducible assumption
    | (with_reducible apply State.nearPath_keeps)
    | (with_reducible apply State.ioPath_keeps)
    | (with_reducible apply State.homePath_keeps)
    | split

theorem State.deliver_keeps {k0 s : State} (hK : Keeps k0 s) (c : Nat) (r : FetchRun) (x : Obj) (q : FetchTile) (slot : Nat) : Keeps k0 (State.deliver s c r x q slot).2 := by
  unfold State.deliver
  repeat' first
    | with_reducible assumption
    | (with_reducible apply State.arriveTile_keeps)
    | (with_reducible apply State.fetchPath_keeps)
    | (with_reducible apply State.count_keeps)
    | (with_reducible apply State.jasper_keeps)
    | (with_reducible apply State.withholdParts_keeps)
    | (with_reducible apply State.tellWithheld_keeps)
    | (with_reducible apply State.fillCache_keeps)
    | (with_reducible apply State.fillBuffer_keeps)
    | (with_reducible apply State.when_keepsK)
    | (intro _ _; beta_reduce)
    | split
theorem State.arriveParity_keeps {k0 s : State} (hK : Keeps k0 s) (c : Nat) (op : FetchOp) (bad : List Nat) : Keeps k0 (State.arriveParity s c op bad) := by
  unfold State.arriveParity
  repeat' first
    | with_reducible assumption
    | (with_reducible apply State.modCluster_keeps)
    | (with_reducible apply State.modCore_keeps)
    | (intro _ _; beta_reduce)
    | split

theorem execFetchDataArrival_keeps {k0 s : State} (hK : Keeps k0 s) (c : CoreId) (bad : List (BitVec 12)) : OutKeeps k0 (execFetchDataArrival c bad s) := by
  unfold execFetchDataArrival
  repeat' first
    | with_reducible assumption
    | (with_reducible apply OutKeeps.next)
    | (with_reducible apply State.actOnFault_keeps)
    | (with_reducible apply State.deliver_keeps)
    | (with_reducible apply State.arriveParity_keeps)
    | (with_reducible apply State.count_keeps)
    | (with_reducible apply State.modCore_keeps)
    | (with_reducible apply State.complete_keeps)
    | (with_reducible apply State.fetchError_keeps)
    | (with_reducible apply State.settleDeletes_keeps)
    | (with_reducible apply Keeps.foldl3)
    | fail_if_no_progress (with_reducible refine Keeps.upd ?_ (Nat.le_refl _) (Nat.le_refl _) rfl rfl rfl)
    | (intro x; clear_value x)
    | (intro _ _ _; beta_reduce)
    | (intro _ _; beta_reduce)
    | split
    | lift_lets -underBinder

theorem State.returnRef_keeps {k0 s : State} (hK : Keeps k0 s) (c : Nat) (a : Nat) : Keeps k0 (State.returnRef s c a) := by
  unfold State.returnRef
  repeat' first
    | with_reducible assumption
    | (with_reducible apply State.modCore_keeps)
    | (with_reducible apply State.unrefTable_keeps)
    | (intro _ _; beta_reduce)
    | split

theorem execTileSumCheck_keeps {k0 s : State} (hK : Keeps k0 s) (c : CoreId) (e : EngId) : OutKeeps k0 (execTileSumCheck c e s) := by
  unfold execTileSumCheck
  repeat' first
    | with_reducible assumption
    | (with_reducible apply OutKeeps.next)
    | (with_reducible apply State.modEng_keeps)
    | (with_reducible apply State.setFld_keeps)
    | (with_reducible apply State.returnRef_keeps)
    | (with_reducible apply State.raise_keeps)
    | (with_reducible apply State.count_keeps)
    | (with_reducible apply State.jasper_keeps)
    | (with_reducible apply State.modCore_keeps)
    | (with_reducible apply State.poisonTile_keeps)
    | (with_reducible apply State.abandonStep_keeps)
    | (with_reducible apply State.when_keepsK)
    | (intro _ _; beta_reduce)
    | split

theorem State.endHold_keeps {k0 s : State} (hK : Keeps k0 s) (g : Nat) (h : Hold) (tile : Refetched) (scale : Refetched) : Keeps k0 (State.endHold s g h tile scale) := by
  unfold State.endHold
  repeat' first
    | with_reducible assumption
    | (with_reducible apply State.refetchPut_keeps)
    | (with_reducible apply State.modEng_keeps)
    | (with_reducible apply State.withholdSess_keeps)
    | (with_reducible apply State.startWait_keeps)
    | (with_reducible apply State.when_keepsK)
    | (intro x; refine Keeps.cut (a := k0) x ?_ (fun hx => ?_); rotate_left; clear_value x; rotate_right; subst x)
    | (intro x; refine Keeps.cut2 (a := k0) x ?_ (fun hx => ?_); rotate_left; clear_value x; rotate_right; subst x)
    | (intro x; clear_value x)
    | (intro _ _; beta_reduce)
    | split
    | lift_lets -underBinder

theorem State.alsoTo_keeps {k0 s : State} (hK : Keeps k0 s) (g : Nat) (o : Nat) (t : Nat) (r : Refetched) : Keeps k0 (State.alsoTo s g o t r) := by
  unfold State.alsoTo
  repeat' first
    | with_reducible assumption
    | (with_reducible apply State.homePath_keeps)
    | split

theorem execTileRefetchComplete_keeps {k0 s : State} (hK : Keeps k0 s) (c : CoreId) (e : EngId) : OutKeeps k0 (execTileRefetchComplete c e s) := by
  unfold execTileRefetchComplete
  repeat' first
    | with_reducible assumption
    | (with_reducible apply OutKeeps.next)
    | (with_reducible apply State.actOnFault_keeps)
    | (with_reducible apply State.refetchRead_keeps)
    | (with_reducible apply State.alsoTo_keeps)
    | (with_reducible apply State.endHold_keeps)
    | (with_reducible apply State.each_keepsK)
    | (with_reducible apply State.when_keepsK)
    | (intro _ _ _; beta_reduce)
    | (intro _ _; beta_reduce)
    | split

/-! ### Placement -/

theorem State.settleJobs_keeps {k0 s : State} (hK : Keeps k0 s) : Keeps k0 (State.settleJobs s) := by
  unfold State.settleJobs
  repeat' first
    | with_reducible assumption
    | (with_reducible apply State.modPlace_keeps)
    | (with_reducible apply State.forceFld_keeps)
    | (with_reducible apply State.recountPages_keeps)
    | (with_reducible apply State.completeCmd_keeps)
    | (with_reducible apply State.each_keepsK)
    | (intro _ _ _; beta_reduce)
    | split

theorem State.jobTile_keeps {k0 s : State} (hK : Keeps k0 s) (j : Job) (x : Obj) (t : Nat) : Keeps k0 (State.jobTile s j x t).2 := by
  unfold State.jobTile
  repeat' first
    | with_reducible assumption
    | (with_reducible apply State.fresh_keeps)
    | (with_reducible apply State.modPlace_keeps)
    | (with_reducible apply State.recountPages_keeps)
    | (with_reducible apply State.startMove_keeps)
    | (with_reducible refine State.roomAmong_keeps2 ‹State.roomAmong _ _ _ _ _ = _› ?_)
    | (with_reducible refine State.takeFrame_keeps ‹State.takeFrame _ _ _ = _› ?_)
    | (with_reducible apply State.toOrigin_keeps)
    | (intro (x : State → _); subst x)
    | (intro x; clear_value x)
    | split
    | lift_lets -underBinder
    | dsimp only
theorem State.tryTile_keeps {k0 s : State} (hK : Keeps k0 s) (j : Job) (x : Obj) (t : Nat) : Keeps k0 (State.tryTile s j x t).2 := by
  unfold State.tryTile
  repeat' first
    | with_reducible assumption
    | (with_reducible apply State.jobTile_keeps)
    | split
theorem State.tryTile_keeps2 {k0 s t0 : State} {x0} {j : Job} {x : Obj} {t : Nat} (he0 : State.tryTile s j x t = (x0, t0)) (hK : Keeps k0 s) : Keeps k0 t0 := by have := State.tryTile_keeps hK j x t; rw [he0] at this; exact this

theorem State.runJob_keeps {b0 s : State} (h : Keeps b0 s) (j : Job) (n : Nat) : Keeps b0 (s.runJob j n).2 := by
  induction n generalizing s j with
  | zero => exact h
  | succ n ih =>
    unfold State.runJob
    split
    · exact h
    · split
      · exact h
      · split
        · rename_i he
          exact ih (State.tryTile_keeps2 he h) _
        · rename_i he
          exact State.tryTile_keeps2 he h
theorem State.runLater_keeps {k0 s : State} (hK : Keeps k0 s) (j : Job) : Keeps k0 (State.runLater s j).2 := by
  unfold State.runLater
  repeat' first
    | with_reducible assumption
    | (with_reducible refine State.tryTile_keeps2 ‹State.tryTile _ _ _ _ = _› ?_)
    | (with_reducible apply Keeps.foldl2)
    | (intro _ _ _; beta_reduce)
    | split
theorem State.advanceJobs_keeps {k0 s : State} (hK : Keeps k0 s) : Keeps k0 (State.advanceJobs s) := by
  unfold State.advanceJobs
  repeat' first
    | with_reducible assumption
    | (with_reducible apply State.runLater_keeps)
    | (with_reducible apply State.runJob_keeps)
    | (with_reducible apply State.modPlace_keeps)
    | (with_reducible apply State.settleJobs_keeps)
    | (with_reducible apply Keeps.foldl2)
    | (intro _ _ _; beta_reduce)

theorem State.startJob_keeps {k0 s : State} (hK : Keeps k0 s) (j : Job) : Keeps k0 (State.startJob s j) := by
  unfold State.startJob
  repeat' first
    | with_reducible assumption
    | (with_reducible apply State.modPlace_keeps)
    | (with_reducible apply State.completeCmd_keeps)
    | (with_reducible apply State.advanceJobs_keeps)
    | (with_reducible apply State.each_keepsK)
    | (intro _ _ _; beta_reduce)
    | split

theorem State.movePath_keeps {k0 s : State} (hK : Keeps k0 s) (from_ : DirEnt) (dest : Dest) (n : Nat) : Keeps k0 (State.movePath s from_ dest n) := by
  unfold State.movePath
  repeat' first
    | with_reducible assumption
    | (with_reducible apply State.count_keeps)
    | split

theorem State.intoStack_keeps {k0 s : State} (hK : Keeps k0 s) (e : DirEnt) (bs : List Byte) : Keeps k0 (State.intoStack s e bs) := by
  unfold State.intoStack
  repeat' first
    | with_reducible assumption
    | (with_reducible apply State.count_keeps)
    | (with_reducible apply State.when_keepsK)
    | (intro _ _; beta_reduce)

theorem State.switchTo_keeps {k0 s : State} (hK : Keeps k0 s) (o : Nat) (x : Obj) (t : Nat) (m : Move) (bs : List Byte) : Keeps k0 (State.switchTo s o x t m bs) := by
  unfold State.switchTo
  repeat' first
    | with_reducible assumption
    | (with_reducible apply State.writeFrame_keeps)
    | (with_reducible apply State.hostWrite_keeps)
    | (with_reducible apply State.count_keeps)
    | (with_reducible apply State.movePath_keeps)
    | (with_reducible apply State.setDir_keeps)
    | (with_reducible apply State.setFrame_keeps)
    | (with_reducible apply State.modPlace_keeps)
    | (with_reducible apply State.writeHome_keeps)
    | (with_reducible apply State.intoStack_keeps)
    | (with_reducible apply State.recountMovers_keeps)
    | (with_reducible apply State.each_keepsK)
    | (intro _ _ _; beta_reduce)
    | split

theorem execMoveSwitch_keeps {k0 s : State} (hK : Keeps k0 s) (o : ObjId) (t : TileId) : OutKeeps k0 (execMoveSwitch o t s) := by
  unfold execMoveSwitch
  repeat' first
    | with_reducible assumption
    | (with_reducible apply OutKeeps.next)
    | (with_reducible apply State.actOnFault_keeps)
    | (with_reducible apply State.abandonMove_keeps)
    | (with_reducible apply State.advanceJobs_keeps)
    | (with_reducible apply State.failTile_keeps)
    | (with_reducible refine State.readHome_keeps2 ‹State.readHome _ _ _ _ _ _ = _› ?_)
    | (with_reducible apply State.switchTo_keeps)
    | (with_reducible apply State.poisonTile_keeps)
    | split

theorem execMoveSourceFree_keeps {b0 s : State} (h : Keeps b0 s) (o : ObjId) (t : TileId) : OutKeeps b0 (execMoveSourceFree o t s) := by
  unfold execMoveSourceFree
  refine OutKeeps.next (State.actOnFault_keeps (State.advanceJobs_keeps ?_))
  dsimp only
  have h1 := fun l => State.each_keepsK h l (fun s f => s.releaseFrame f) fun _ _ h => State.releaseFrame_keeps h _
  split
  · split
    · exact h1 _
    · exact State.freePage_keeps (State.modPlace_keeps (h1 _) _) _
  · exact h1 _

theorem State.evictDown_keeps {b0 s : State} (h : Keeps b0 s) (m high n : Nat) : Keeps b0 (s.evictDown m high n) := by
  induction n generalizing s with
  | zero => exact h
  | succ n ih =>
    unfold State.evictDown
    split
    · exact h
    · split
      · exact ih (State.evict_keeps h _)
      · exact h

theorem execBackgroundEviction_keeps {k0 s : State} (hK : Keeps k0 s) (m : DieId) : OutKeeps k0 (execBackgroundEviction m s) := by
  unfold execBackgroundEviction
  repeat' first
    | with_reducible assumption
    | (with_reducible apply OutKeeps.next)
    | (with_reducible apply State.actOnFault_keeps)
    | (with_reducible apply State.modPlace_keeps)
    | (with_reducible apply State.evictDown_keeps)
    | split

theorem execPoisonWaitExpiry_keeps {k0 s : State} (hK : Keeps k0 s) (o : ObjId) (t : TileId) : OutKeeps k0 (execPoisonWaitExpiry o t s) := by
  unfold execPoisonWaitExpiry
  repeat' first
    | with_reducible assumption
    | (with_reducible apply OutKeeps.next)
    | (with_reducible apply State.actOnFault_keeps)
    | (with_reducible apply State.modPlace_keeps)
    | (with_reducible apply State.substitute_keeps)
    | split

theorem State.resumeHeld_keeps {k0 s : State} (hK : Keeps k0 s) (o : Nat) (t : Nat) (bs : List Byte) : Keeps k0 (State.resumeHeld s o t bs) := by
  unfold State.resumeHeld
  repeat' first
    | with_reducible assumption
    | (with_reducible apply State.homePath_keeps)
    | (with_reducible apply State.modCore_keeps)
    | (with_reducible apply State.modEng_keeps)
    | (with_reducible apply State.modPlace_keeps)
    | (with_reducible apply State.each_keepsK)
    | (with_reducible apply Keeps.foldl)
    | with_reducible exact Mem.wf_wrBlk ‹_› _ _
    | (intro _ _ _; beta_reduce)
    | (intro _ _; beta_reduce)
    | split

theorem State.retireFrame_keeps {k0 s : State} (hK : Keeps k0 s) (f : Nat) : Keeps k0 (State.retireFrame s f) := by
  unfold State.retireFrame
  repeat' first
    | with_reducible assumption
    | (with_reducible apply State.setFrame_keeps)
    | (with_reducible apply State.count_keeps)
    | (with_reducible apply State.jasper_keeps)

theorem State.zeroFrame_keeps {b0 s : State} (h : Keeps b0 s) (part : Option Nat) (f : Nat) : Keeps b0 (s.zeroFrame part f).2 := by
  have read : ∀ r : (List Byte × List Nat) × State, Keeps b0 r.2 → Keeps b0 (if r.1.2 = [] then (some f, r.2) else (none, r.2)).2 := by
    intro r hr
    split <;> exact hr
  rw [State.zeroFrame]
  exact read _ (State.readFrame_keeps (State.count_keeps (State.writeFrame_keeps h part f _) _ _) part f _)
theorem State.freshFrame_keeps {k0 s : State} (hK : Keeps k0 s) (o : Nat) (t : Nat) (r : Refetch) : Keeps k0 (State.freshFrame s o t r).2 := by
  unfold State.freshFrame
  repeat' first
    | with_reducible assumption
    | (with_reducible refine State.roomOn_keeps2 ‹State.roomOn _ _ _ _ _ _ = _› ?_)
    | (with_reducible apply State.modPlace_keeps)
    | (with_reducible apply State.zeroFrame_keeps)
    | split
theorem State.refetchTo_keeps {k0 s : State} (hK : Keeps k0 s) (o : Nat) (t : Nat) (f : Nat) (r : Refetch) (bs : List Byte) : Keeps k0 (State.refetchTo s o t f r bs) := by
  unfold State.refetchTo
  repeat' first
    | with_reducible assumption
    | (with_reducible apply State.writeFrame_keeps)
    | (with_reducible apply State.count_keeps)
    | (with_reducible apply State.setDir_keeps)
    | (with_reducible apply State.setFrame_keeps)
    | split

theorem State.refetchAway_keeps {k0 s : State} (hK : Keeps k0 s) (o : Nat) (t : Nat) (r : Refetch) : Keeps k0 (State.refetchAway s o t r) := by
  unfold State.refetchAway
  repeat' first
    | with_reducible assumption
    | (with_reducible apply State.setDir_keeps)
    | (with_reducible apply State.modPlace_keeps)
    | (with_reducible apply State.count_keeps)
    | (with_reducible apply State.retireFrame_keeps)
    | split

theorem State.refetchDone_keeps {k0 s : State} (hK : Keeps k0 s) (o : Nat) (x : Obj) (t : Nat) (r : Refetch) (bs : List Byte) : Keeps k0 (State.refetchDone s o x t r bs) := by
  unfold State.refetchDone
  repeat' first
    | with_reducible assumption
    | (with_reducible apply State.endRefetch_keeps)
    | (with_reducible apply State.setDir_keeps)
    | (with_reducible apply State.resumeHeld_keeps)
    | (with_reducible apply State.freshFrame_keeps)
    | (with_reducible apply State.refetchTo_keeps)
    | (with_reducible apply State.refetchAway_keeps)
    | (intro x; refine Keeps.cut2 (a := k0) x ?_ (fun hx => ?_); rotate_left; clear_value x; rotate_right; subst x)
    | (intro x; clear_value x)
    | split
    | lift_lets -underBinder

theorem execRefetchSwitch_keeps {k0 s : State} (hK : Keeps k0 s) (o : ObjId) (t : TileId) : OutKeeps k0 (execRefetchSwitch o t s) := by
  unfold execRefetchSwitch
  repeat' first
    | with_reducible assumption
    | (with_reducible apply OutKeeps.next)
    | (with_reducible apply State.actOnFault_keeps)
    | (with_reducible refine State.originTile_keeps2 ‹State.originTile _ _ _ = _› ?_)
    | (with_reducible apply State.refetchDone_keeps)
    | (with_reducible apply State.failTile_keeps)
    | (with_reducible apply State.substitute_keeps)
    | split

theorem execFrameReadback_keeps {b0 s : State} (h : Keeps b0 s) (f : BitVec 24) (clean : Bool) : OutKeeps b0 (execFrameReadback f clean s) := by
  unfold execFrameReadback
  refine OutKeeps.next (State.actOnFault_keeps ?_)
  split
  · split
    · exact h
    · have hz := State.zeroFrame_keeps h ((s.obj ‹_›).map fun x => x.part) f.toNat
      dsimp only
      split
      · exact State.advanceJobs_keeps (State.releaseFrame_keeps hz _)
      · exact State.retireFrame_keeps hz _
  · exact h

theorem State.addressNone_keeps {k0 s : State} (hK : Keeps k0 s) (fn : FnId) (a : Nat) : Keeps k0 (State.addressNone s fn a) := by
  unfold State.addressNone
  repeat' first
    | with_reducible assumption
    | (with_reducible apply State.jasperK_keeps)
    | split

theorem State.bar2Wake_keeps {k0 s : State} (hK : Keeps k0 s) (e : DirEnt) : Keeps k0 (State.bar2Wake s e) := by
  unfold State.bar2Wake
  repeat' first
    | with_reducible assumption
    | (with_reducible apply State.notIdle_keeps)
    | (with_reducible apply State.beginWake_keeps)
    | split

theorem State.bar2Piece_keeps {k0 s : State} (hK : Keeps k0 s) (fn : FnId) (a : Nat) (n : Nat) : Keeps k0 (State.bar2Piece s fn a n).2 := by
  unfold State.bar2Piece
  repeat' first
    | with_reducible assumption
    | (with_reducible apply State.addressNone_keeps)
    | (with_reducible apply State.lookup_keeps)
    | (with_reducible apply State.bar2Wake_keeps)
    | (with_reducible apply State.badFrame_keeps)
    | (with_reducible apply State.readSpan_keeps)
    | (with_reducible apply State.count_keeps)
    | (with_reducible apply State.poisonTile_keeps)
    | (with_reducible apply State.failTile_keeps)
    | (with_reducible refine State.originTile_keeps2 ‹State.originTile _ _ _ = _› ?_)
    | (intro x; refine Keeps.cut (a := k0) x ?_ (fun hx => ?_); rotate_left; clear_value x; rotate_right; subst x)
    | (intro x; refine Keeps.cut2 (a := k0) x ?_ (fun hx => ?_); rotate_left; clear_value x; rotate_right; subst x)
    | (intro x; clear_value x)
    | split
    | lift_lets -underBinder
theorem execBar2Read_keeps {b0 s : State} (h : Keeps b0 s) (fn : FnId) (ofs : BitVec 36) (len : BitVec 32) : OutKeeps b0 (execBar2Read fn ofs len s) := by
  unfold execBar2Read
  split
  · exact OutKeeps.fault _ _
  · split
    · exact OutKeeps.next { h with }
    · refine OutKeeps.next ?_
      have h1 := State.actOnFault_keeps (Keeps.foldl2 (tilePieces ‹_› len.toNat) (fun (acc : List Byte × State) p =>
        ((acc.1 ++ (acc.2.bar2Piece fn p.1 p.2).1, (acc.2.bar2Piece fn p.1 p.2).2) : List Byte × State)) ([], s) h
        fun q p hq => State.bar2Piece_keeps hq _ _ _)
      exact { h1 with }

theorem State.bar2Put_keeps {k0 s : State} (hK : Keeps k0 s) (fn : FnId) (a : Nat) (bs : List Byte) : Keeps k0 (State.bar2Put s fn a bs) := by
  unfold State.bar2Put
  repeat' first
    | with_reducible assumption
    | (with_reducible apply State.addressNone_keeps)
    | (with_reducible apply State.lookup_keeps)
    | (with_reducible apply State.bar2Wake_keeps)
    | (with_reducible apply State.intoStack_keeps)
    | (with_reducible apply State.writeTile_keeps)
    | (with_reducible refine State.takePage_keeps ‹State.takePage _ _ = _› ?_)
    | (with_reducible apply State.startMove_keeps)
    | (with_reducible refine State.placeTile_keeps2 ‹State.placeTile _ _ _ _ = _› ?_)
    | (with_reducible apply State.when_keepsK)
    | (intro x; refine Keeps.cut (a := k0) x ?_ (fun hx => ?_); rotate_left; clear_value x; rotate_right; subst x)
    | (intro x; clear_value x)
    | (intro _ _; beta_reduce)
    | split
    | lift_lets -underBinder

theorem execBar2Write_keeps {k0 s : State} (hK : Keeps k0 s) (fn : FnId) (ofs : BitVec 36) (data : List (BitVec 8)) : OutKeeps k0 (execBar2Write fn ofs data s) := by
  unfold execBar2Write
  repeat' first
    | with_reducible assumption
    | (with_reducible apply OutKeeps.next)
    | exact OutKeeps.fault _ _
    | (with_reducible apply State.bar2Put_keeps)
    | (with_reducible apply State.actOnFault_keeps)
    | (with_reducible apply Keeps.foldl)
    | (intro _ _ _; beta_reduce)
    | split

/-! ### VectorExec -/

theorem State.vecReads_keeps {b0 s : State} (h : Keeps b0 s) (c : CoreId) (r : VOut) : Keeps b0 (s.vecReads c r) := by
  unfold State.vecReads
  split
  · exact State.consume_keeps h _ _
  · exact h

theorem runVec_keeps {k0 s : State} (hK : Keeps k0 s) (c : CoreId) (w : VWord) (op : VCtx → VWord → VFile → VOut) (k : ElemKind) (cost : VWord → Nat) (p : Prog) : Keeps k0 (runVec c w op k cost p s).1 := by
  unfold runVec
  repeat' first
    | with_reducible assumption
    | (with_reducible apply State.vecReads_keeps)
    | (with_reducible apply State.unusedEnc_keeps)
    | (with_reducible apply State.vecCmdErr_keeps)
    | (with_reducible apply State.modCore_keeps)
    | (with_reducible apply State.guardRec_keeps)
    | (with_reducible apply State.count_keeps)
    | (intro x; refine Keeps.cut (a := k0) x ?_ (fun hx => ?_); rotate_left; clear_value x; rotate_right; subst x)
    | (intro x; clear_value x)
    | (intro _ _; beta_reduce)
    | split
    | lift_lets -underBinder
theorem State.vec_keeps {b0 s : State} (h : Keeps b0 s) (c : CoreId) (i : Instr) (w : VWord) (op : VCtx → VWord → VFile → VOut) (k : ElemKind)
    (cost : VWord → Nat) : Keeps b0 (s.vec c i w op k cost) :=
  State.issueAct_keeps h _ _ _ _ fun p _ ht => runVec_keeps ht c w op k cost p

theorem runVst_keeps {k0 s : State} (hK : Keeps k0 s) (c : CoreId) (w : VWord) (p : Prog) : Keeps k0 (runVst c w p s).1 := by
  unfold runVst
  repeat' first
    | with_reducible assumption
    | (with_reducible apply State.modCore_keeps)
    | (with_reducible apply State.count_keeps)
    | (with_reducible apply State.vecCmdErr_keeps)
    | (with_reducible apply State.unusedEnc_keeps)
    | with_reducible exact CoreSt.put_wf ‹_› _ _
    | with_reducible exact CoreSt.store_wf ‹_› _ _ _
    | (intro x; clear_value x)
    | (intro _ _; beta_reduce)
    | split
    | lift_lets -underBinder
theorem execVld_keeps {k0 s : State} (hK : Keeps k0 s) (c : CoreId) (w : VWord) : OutKeeps k0 (execVld c w s) := by
  unfold execVld
  repeat' first
    | with_reducible assumption
    | (with_reducible apply OutKeeps.next)
    | (with_reducible apply State.vec_keeps)

theorem execVst_keeps {k0 s : State} (hK : Keeps k0 s) (c : CoreId) (w : VWord) : OutKeeps k0 (execVst c w s) := by
  unfold execVst
  repeat' first
    | with_reducible assumption
    | (with_reducible apply OutKeeps.next)
    | (with_reducible apply State.issue_keeps)
    | (with_reducible apply runVst_keeps)
    | (intro _ _ _; beta_reduce)

theorem execVldx_keeps {k0 s : State} (hK : Keeps k0 s) (c : CoreId) (w : VWord) : OutKeeps k0 (execVldx c w s) := by
  unfold execVldx
  repeat' first
    | with_reducible assumption
    | (with_reducible apply OutKeeps.next)
    | (with_reducible apply State.vec_keeps)

theorem execVmov_keeps {k0 s : State} (hK : Keeps k0 s) (c : CoreId) (w : VWord) : OutKeeps k0 (execVmov c w s) := by
  unfold execVmov
  repeat' first
    | with_reducible assumption
    | (with_reducible apply OutKeeps.next)
    | (with_reducible apply State.vec_keeps)

theorem execVsplat_keeps {k0 s : State} (hK : Keeps k0 s) (c : CoreId) (w : VWord) : OutKeeps k0 (execVsplat c w s) := by
  unfold execVsplat
  repeat' first
    | with_reducible assumption
    | (with_reducible apply OutKeeps.next)
    | (with_reducible apply State.vec_keeps)

theorem execVsplathi_keeps {k0 s : State} (hK : Keeps k0 s) (c : CoreId) (w : VWord) : OutKeeps k0 (execVsplathi c w s) := by
  unfold execVsplathi
  repeat' first
    | with_reducible assumption
    | (with_reducible apply OutKeeps.next)
    | (with_reducible apply State.vec_keeps)

theorem execViota_keeps {k0 s : State} (hK : Keeps k0 s) (c : CoreId) (w : VWord) : OutKeeps k0 (execViota c w s) := by
  unfold execViota
  repeat' first
    | with_reducible assumption
    | (with_reducible apply OutKeeps.next)
    | (with_reducible apply State.vec_keeps)

theorem execVbcast_keeps {k0 s : State} (hK : Keeps k0 s) (c : CoreId) (w : VWord) : OutKeeps k0 (execVbcast c w s) := by
  unfold execVbcast
  repeat' first
    | with_reducible assumption
    | (with_reducible apply OutKeeps.next)
    | (with_reducible apply State.vec_keeps)

theorem execVlutld_keeps {k0 s : State} (hK : Keeps k0 s) (c : CoreId) (w : VWord) : OutKeeps k0 (execVlutld c w s) := by
  unfold execVlutld
  repeat' first
    | with_reducible assumption
    | (with_reducible apply OutKeeps.next)
    | (with_reducible apply State.vec_keeps)

theorem execVadd_keeps {k0 s : State} (hK : Keeps k0 s) (c : CoreId) (w : VWord) : OutKeeps k0 (execVadd c w s) := by
  unfold execVadd
  repeat' first
    | with_reducible assumption
    | (with_reducible apply OutKeeps.next)
    | (with_reducible apply State.vec_keeps)

theorem execVaddi_keeps {k0 s : State} (hK : Keeps k0 s) (c : CoreId) (w : VWord) : OutKeeps k0 (execVaddi c w s) := by
  unfold execVaddi
  repeat' first
    | with_reducible assumption
    | (with_reducible apply OutKeeps.next)
    | (with_reducible apply State.vec_keeps)

theorem execVsub_keeps {k0 s : State} (hK : Keeps k0 s) (c : CoreId) (w : VWord) : OutKeeps k0 (execVsub c w s) := by
  unfold execVsub
  repeat' first
    | with_reducible assumption
    | (with_reducible apply OutKeeps.next)
    | (with_reducible apply State.vec_keeps)

theorem execVsubi_keeps {k0 s : State} (hK : Keeps k0 s) (c : CoreId) (w : VWord) : OutKeeps k0 (execVsubi c w s) := by
  unfold execVsubi
  repeat' first
    | with_reducible assumption
    | (with_reducible apply OutKeeps.next)
    | (with_reducible apply State.vec_keeps)

theorem execVadds_keeps {k0 s : State} (hK : Keeps k0 s) (c : CoreId) (w : VWord) : OutKeeps k0 (execVadds c w s) := by
  unfold execVadds
  repeat' first
    | with_reducible assumption
    | (with_reducible apply OutKeeps.next)
    | (with_reducible apply State.vec_keeps)

theorem execVaddsi_keeps {k0 s : State} (hK : Keeps k0 s) (c : CoreId) (w : VWord) : OutKeeps k0 (execVaddsi c w s) := by
  unfold execVaddsi
  repeat' first
    | with_reducible assumption
    | (with_reducible apply OutKeeps.next)
    | (with_reducible apply State.vec_keeps)

theorem execVsubs_keeps {k0 s : State} (hK : Keeps k0 s) (c : CoreId) (w : VWord) : OutKeeps k0 (execVsubs c w s) := by
  unfold execVsubs
  repeat' first
    | with_reducible assumption
    | (with_reducible apply OutKeeps.next)
    | (with_reducible apply State.vec_keeps)

theorem execVsubsi_keeps {k0 s : State} (hK : Keeps k0 s) (c : CoreId) (w : VWord) : OutKeeps k0 (execVsubsi c w s) := by
  unfold execVsubsi
  repeat' first
    | with_reducible assumption
    | (with_reducible apply OutKeeps.next)
    | (with_reducible apply State.vec_keeps)

theorem execVmul_keeps {k0 s : State} (hK : Keeps k0 s) (c : CoreId) (w : VWord) : OutKeeps k0 (execVmul c w s) := by
  unfold execVmul
  repeat' first
    | with_reducible assumption
    | (with_reducible apply OutKeeps.next)
    | (with_reducible apply State.vec_keeps)

theorem execVmuli_keeps {k0 s : State} (hK : Keeps k0 s) (c : CoreId) (w : VWord) : OutKeeps k0 (execVmuli c w s) := by
  unfold execVmuli
  repeat' first
    | with_reducible assumption
    | (with_reducible apply OutKeeps.next)
    | (with_reducible apply State.vec_keeps)

theorem execVmulsh_keeps {k0 s : State} (hK : Keeps k0 s) (c : CoreId) (w : VWord) : OutKeeps k0 (execVmulsh c w s) := by
  unfold execVmulsh
  repeat' first
    | with_reducible assumption
    | (with_reducible apply OutKeeps.next)
    | (with_reducible apply State.vec_keeps)

theorem execVmulshi_keeps {k0 s : State} (hK : Keeps k0 s) (c : CoreId) (w : VWord) : OutKeeps k0 (execVmulshi c w s) := by
  unfold execVmulshi
  repeat' first
    | with_reducible assumption
    | (with_reducible apply OutKeeps.next)
    | (with_reducible apply State.vec_keeps)

theorem execVmin_keeps {k0 s : State} (hK : Keeps k0 s) (c : CoreId) (w : VWord) : OutKeeps k0 (execVmin c w s) := by
  unfold execVmin
  repeat' first
    | with_reducible assumption
    | (with_reducible apply OutKeeps.next)
    | (with_reducible apply State.vec_keeps)

theorem execVmini_keeps {k0 s : State} (hK : Keeps k0 s) (c : CoreId) (w : VWord) : OutKeeps k0 (execVmini c w s) := by
  unfold execVmini
  repeat' first
    | with_reducible assumption
    | (with_reducible apply OutKeeps.next)
    | (with_reducible apply State.vec_keeps)

theorem execVmax_keeps {k0 s : State} (hK : Keeps k0 s) (c : CoreId) (w : VWord) : OutKeeps k0 (execVmax c w s) := by
  unfold execVmax
  repeat' first
    | with_reducible assumption
    | (with_reducible apply OutKeeps.next)
    | (with_reducible apply State.vec_keeps)

theorem execVmaxi_keeps {k0 s : State} (hK : Keeps k0 s) (c : CoreId) (w : VWord) : OutKeeps k0 (execVmaxi c w s) := by
  unfold execVmaxi
  repeat' first
    | with_reducible assumption
    | (with_reducible apply OutKeeps.next)
    | (with_reducible apply State.vec_keeps)

theorem execVabs_keeps {k0 s : State} (hK : Keeps k0 s) (c : CoreId) (w : VWord) : OutKeeps k0 (execVabs c w s) := by
  unfold execVabs
  repeat' first
    | with_reducible assumption
    | (with_reducible apply OutKeeps.next)
    | (with_reducible apply State.vec_keeps)

theorem execVneg_keeps {k0 s : State} (hK : Keeps k0 s) (c : CoreId) (w : VWord) : OutKeeps k0 (execVneg c w s) := by
  unfold execVneg
  repeat' first
    | with_reducible assumption
    | (with_reducible apply OutKeeps.next)
    | (with_reducible apply State.vec_keeps)

theorem execVand_keeps {k0 s : State} (hK : Keeps k0 s) (c : CoreId) (w : VWord) : OutKeeps k0 (execVand c w s) := by
  unfold execVand
  repeat' first
    | with_reducible assumption
    | (with_reducible apply OutKeeps.next)
    | (with_reducible apply State.vec_keeps)

theorem execVandi_keeps {k0 s : State} (hK : Keeps k0 s) (c : CoreId) (w : VWord) : OutKeeps k0 (execVandi c w s) := by
  unfold execVandi
  repeat' first
    | with_reducible assumption
    | (with_reducible apply OutKeeps.next)
    | (with_reducible apply State.vec_keeps)

theorem execVor_keeps {k0 s : State} (hK : Keeps k0 s) (c : CoreId) (w : VWord) : OutKeeps k0 (execVor c w s) := by
  unfold execVor
  repeat' first
    | with_reducible assumption
    | (with_reducible apply OutKeeps.next)
    | (with_reducible apply State.vec_keeps)

theorem execVori_keeps {k0 s : State} (hK : Keeps k0 s) (c : CoreId) (w : VWord) : OutKeeps k0 (execVori c w s) := by
  unfold execVori
  repeat' first
    | with_reducible assumption
    | (with_reducible apply OutKeeps.next)
    | (with_reducible apply State.vec_keeps)

theorem execVxor_keeps {k0 s : State} (hK : Keeps k0 s) (c : CoreId) (w : VWord) : OutKeeps k0 (execVxor c w s) := by
  unfold execVxor
  repeat' first
    | with_reducible assumption
    | (with_reducible apply OutKeeps.next)
    | (with_reducible apply State.vec_keeps)

theorem execVxori_keeps {k0 s : State} (hK : Keeps k0 s) (c : CoreId) (w : VWord) : OutKeeps k0 (execVxori c w s) := by
  unfold execVxori
  repeat' first
    | with_reducible assumption
    | (with_reducible apply OutKeeps.next)
    | (with_reducible apply State.vec_keeps)

theorem execVshl_keeps {k0 s : State} (hK : Keeps k0 s) (c : CoreId) (w : VWord) : OutKeeps k0 (execVshl c w s) := by
  unfold execVshl
  repeat' first
    | with_reducible assumption
    | (with_reducible apply OutKeeps.next)
    | (with_reducible apply State.vec_keeps)

theorem execVshli_keeps {k0 s : State} (hK : Keeps k0 s) (c : CoreId) (w : VWord) : OutKeeps k0 (execVshli c w s) := by
  unfold execVshli
  repeat' first
    | with_reducible assumption
    | (with_reducible apply OutKeeps.next)
    | (with_reducible apply State.vec_keeps)

theorem execVsra_keeps {k0 s : State} (hK : Keeps k0 s) (c : CoreId) (w : VWord) : OutKeeps k0 (execVsra c w s) := by
  unfold execVsra
  repeat' first
    | with_reducible assumption
    | (with_reducible apply OutKeeps.next)
    | (with_reducible apply State.vec_keeps)

theorem execVsrai_keeps {k0 s : State} (hK : Keeps k0 s) (c : CoreId) (w : VWord) : OutKeeps k0 (execVsrai c w s) := by
  unfold execVsrai
  repeat' first
    | with_reducible assumption
    | (with_reducible apply OutKeeps.next)
    | (with_reducible apply State.vec_keeps)

theorem execVsrr_keeps {k0 s : State} (hK : Keeps k0 s) (c : CoreId) (w : VWord) : OutKeeps k0 (execVsrr c w s) := by
  unfold execVsrr
  repeat' first
    | with_reducible assumption
    | (with_reducible apply OutKeeps.next)
    | (with_reducible apply State.vec_keeps)

theorem execVsrri_keeps {k0 s : State} (hK : Keeps k0 s) (c : CoreId) (w : VWord) : OutKeeps k0 (execVsrri c w s) := by
  unfold execVsrri
  repeat' first
    | with_reducible assumption
    | (with_reducible apply OutKeeps.next)
    | (with_reducible apply State.vec_keeps)

theorem execVshls_keeps {k0 s : State} (hK : Keeps k0 s) (c : CoreId) (w : VWord) : OutKeeps k0 (execVshls c w s) := by
  unfold execVshls
  repeat' first
    | with_reducible assumption
    | (with_reducible apply OutKeeps.next)
    | (with_reducible apply State.vec_keeps)

theorem execVshlsi_keeps {k0 s : State} (hK : Keeps k0 s) (c : CoreId) (w : VWord) : OutKeeps k0 (execVshlsi c w s) := by
  unfold execVshlsi
  repeat' first
    | with_reducible assumption
    | (with_reducible apply OutKeeps.next)
    | (with_reducible apply State.vec_keeps)

theorem execVcls_keeps {k0 s : State} (hK : Keeps k0 s) (c : CoreId) (w : VWord) : OutKeeps k0 (execVcls c w s) := by
  unfold execVcls
  repeat' first
    | with_reducible assumption
    | (with_reducible apply OutKeeps.next)
    | (with_reducible apply State.vec_keeps)

theorem execVcvt_keeps {k0 s : State} (hK : Keeps k0 s) (c : CoreId) (w : VWord) : OutKeeps k0 (execVcvt c w s) := by
  unfold execVcvt
  repeat' first
    | with_reducible assumption
    | (with_reducible apply OutKeeps.next)
    | (with_reducible apply State.vec_keeps)

theorem execVdesc_keeps {k0 s : State} (hK : Keeps k0 s) (c : CoreId) (w : VWord) : OutKeeps k0 (execVdesc c w s) := by
  unfold execVdesc
  repeat' first
    | with_reducible assumption
    | (with_reducible apply OutKeeps.next)
    | (with_reducible apply State.vec_keeps)

theorem execVqscale_keeps {k0 s : State} (hK : Keeps k0 s) (c : CoreId) (w : VWord) : OutKeeps k0 (execVqscale c w s) := by
  unfold execVqscale
  repeat' first
    | with_reducible assumption
    | (with_reducible apply OutKeeps.next)
    | (with_reducible apply State.vec_keeps)

theorem execVquant_keeps {k0 s : State} (hK : Keeps k0 s) (c : CoreId) (w : VWord) : OutKeeps k0 (execVquant c w s) := by
  unfold execVquant
  repeat' first
    | with_reducible assumption
    | (with_reducible apply OutKeeps.next)
    | (with_reducible apply State.vec_keeps)

theorem execVdeq_keeps {k0 s : State} (hK : Keeps k0 s) (c : CoreId) (w : VWord) : OutKeeps k0 (execVdeq c w s) := by
  unfold execVdeq
  repeat' first
    | with_reducible assumption
    | (with_reducible apply OutKeeps.next)
    | (with_reducible apply State.vec_keeps)

theorem execVexts_keeps {k0 s : State} (hK : Keeps k0 s) (c : CoreId) (w : VWord) : OutKeeps k0 (execVexts c w s) := by
  unfold execVexts
  repeat' first
    | with_reducible assumption
    | (with_reducible apply OutKeeps.next)
    | (with_reducible apply State.vec_keeps)

theorem execVcmp_keeps {k0 s : State} (hK : Keeps k0 s) (c : CoreId) (w : VWord) : OutKeeps k0 (execVcmp c w s) := by
  unfold execVcmp
  repeat' first
    | with_reducible assumption
    | (with_reducible apply OutKeeps.next)
    | (with_reducible apply State.vec_keeps)

theorem execVsel_keeps {k0 s : State} (hK : Keeps k0 s) (c : CoreId) (w : VWord) : OutKeeps k0 (execVsel c w s) := by
  unfold execVsel
  repeat' first
    | with_reducible assumption
    | (with_reducible apply OutKeeps.next)
    | (with_reducible apply State.vec_keeps)

theorem execVmlog_keeps {k0 s : State} (hK : Keeps k0 s) (c : CoreId) (w : VWord) : OutKeeps k0 (execVmlog c w s) := by
  unfold execVmlog
  repeat' first
    | with_reducible assumption
    | (with_reducible apply OutKeeps.next)
    | (with_reducible apply State.vec_keeps)

theorem execVmpop_keeps {k0 s : State} (hK : Keeps k0 s) (c : CoreId) (w : VWord) : OutKeeps k0 (execVmpop c w s) := by
  unfold execVmpop
  repeat' first
    | with_reducible assumption
    | (with_reducible apply OutKeeps.next)
    | (with_reducible apply State.vec_keeps)

theorem execVmfirst_keeps {k0 s : State} (hK : Keeps k0 s) (c : CoreId) (w : VWord) : OutKeeps k0 (execVmfirst c w s) := by
  unfold execVmfirst
  repeat' first
    | with_reducible assumption
    | (with_reducible apply OutKeeps.next)
    | (with_reducible apply State.vec_keeps)

theorem execVmsetn_keeps {k0 s : State} (hK : Keeps k0 s) (c : CoreId) (w : VWord) : OutKeeps k0 (execVmsetn c w s) := by
  unfold execVmsetn
  repeat' first
    | with_reducible assumption
    | (with_reducible apply OutKeeps.next)
    | (with_reducible apply State.vec_keeps)

theorem execVrsum_keeps {k0 s : State} (hK : Keeps k0 s) (c : CoreId) (w : VWord) : OutKeeps k0 (execVrsum c w s) := by
  unfold execVrsum
  repeat' first
    | with_reducible assumption
    | (with_reducible apply OutKeeps.next)
    | (with_reducible apply State.vec_keeps)

theorem execVrmax_keeps {k0 s : State} (hK : Keeps k0 s) (c : CoreId) (w : VWord) : OutKeeps k0 (execVrmax c w s) := by
  unfold execVrmax
  repeat' first
    | with_reducible assumption
    | (with_reducible apply OutKeeps.next)
    | (with_reducible apply State.vec_keeps)

theorem execVrmin_keeps {k0 s : State} (hK : Keeps k0 s) (c : CoreId) (w : VWord) : OutKeeps k0 (execVrmin c w s) := by
  unfold execVrmin
  repeat' first
    | with_reducible assumption
    | (with_reducible apply OutKeeps.next)
    | (with_reducible apply State.vec_keeps)

theorem execVrmaxi_keeps {k0 s : State} (hK : Keeps k0 s) (c : CoreId) (w : VWord) : OutKeeps k0 (execVrmaxi c w s) := by
  unfold execVrmaxi
  repeat' first
    | with_reducible assumption
    | (with_reducible apply OutKeeps.next)
    | (with_reducible apply State.vec_keeps)

theorem execVscan_keeps {k0 s : State} (hK : Keeps k0 s) (c : CoreId) (w : VWord) : OutKeeps k0 (execVscan c w s) := by
  unfold execVscan
  repeat' first
    | with_reducible assumption
    | (with_reducible apply OutKeeps.next)
    | (with_reducible apply State.vec_keeps)

theorem execVtopk_keeps {k0 s : State} (hK : Keeps k0 s) (c : CoreId) (w : VWord) : OutKeeps k0 (execVtopk c w s) := by
  unfold execVtopk
  repeat' first
    | with_reducible assumption
    | (with_reducible apply OutKeeps.next)
    | (with_reducible apply State.vec_keeps)

theorem execVtopkp_keeps {k0 s : State} (hK : Keeps k0 s) (c : CoreId) (w : VWord) : OutKeeps k0 (execVtopkp c w s) := by
  unfold execVtopkp
  repeat' first
    | with_reducible assumption
    | (with_reducible apply OutKeeps.next)
    | (with_reducible apply State.vec_keeps)

theorem execVcompress_keeps {k0 s : State} (hK : Keeps k0 s) (c : CoreId) (w : VWord) : OutKeeps k0 (execVcompress c w s) := by
  unfold execVcompress
  repeat' first
    | with_reducible assumption
    | (with_reducible apply OutKeeps.next)
    | (with_reducible apply State.vec_keeps)

theorem execVexpand_keeps {k0 s : State} (hK : Keeps k0 s) (c : CoreId) (w : VWord) : OutKeeps k0 (execVexpand c w s) := by
  unfold execVexpand
  repeat' first
    | with_reducible assumption
    | (with_reducible apply OutKeeps.next)
    | (with_reducible apply State.vec_keeps)

theorem execVlut_keeps {k0 s : State} (hK : Keeps k0 s) (c : CoreId) (w : VWord) : OutKeeps k0 (execVlut c w s) := by
  unfold execVlut
  repeat' first
    | with_reducible assumption
    | (with_reducible apply OutKeeps.next)
    | (with_reducible apply State.vec_keeps)

theorem execVrand_keeps {k0 s : State} (hK : Keeps k0 s) (c : CoreId) (w : VWord) : OutKeeps k0 (execVrand c w s) := by
  unfold execVrand
  repeat' first
    | with_reducible assumption
    | (with_reducible apply OutKeeps.next)
    | (with_reducible apply State.vec_keeps)

theorem execVacc_keeps {k0 s : State} (hK : Keeps k0 s) (c : CoreId) (w : VWord) : OutKeeps k0 (execVacc c w s) := by
  unfold execVacc
  repeat' first
    | with_reducible assumption
    | (with_reducible apply OutKeeps.next)
    | (with_reducible apply State.vec_keeps)

theorem execVaccraw_keeps {k0 s : State} (hK : Keeps k0 s) (c : CoreId) (w : VWord) : OutKeeps k0 (execVaccraw c w s) := by
  unfold execVaccraw
  repeat' first
    | with_reducible assumption
    | (with_reducible apply OutKeeps.next)
    | (with_reducible apply State.vec_keeps)

/-! ### Sequencer -/

theorem State.dispatched_keeps {k0 s : State} (hK : Keeps k0 s) (c : Nat) (inSeg : Bool) (i : Nat) : Keeps k0 (State.dispatched s c inSeg i) := by
  unfold State.dispatched
  repeat' first
    | with_reducible assumption
    | (with_reducible apply State.setFld_keeps)
    | (with_reducible apply State.modCore_keeps)
    | (intro _ _; beta_reduce)
    | split

theorem State.codeLine_keeps {k0 s : State} (hK : Keeps k0 s) (c : Nat) (a : Nat) : Keeps k0 (State.codeLine s c a).2 := by
  unfold State.codeLine
  repeat' first
    | with_reducible assumption
    | (with_reducible apply State.readProg_keeps)
    | (with_reducible apply State.modCore_keeps)
    | (intro x; refine Keeps.cut2 (a := k0) x ?_ (fun hx => ?_); rotate_left; clear_value x; rotate_right; subst x)
    | (intro _ _; beta_reduce)
    | split
    | lift_lets -underBinder
theorem State.codeWord_keeps {k0 s : State} (hK : Keeps k0 s) (c : Nat) (a : Nat) : Keeps k0 (State.codeWord s c a).2 := by
  unfold State.codeWord
  repeat' first
    | with_reducible assumption
    | (with_reducible apply State.codeLine_keeps)
theorem State.codeWord_keeps2 {k0 s t0 : State} {x0} {c : Nat} {a : Nat} (he0 : State.codeWord s c a = (x0, t0)) (hK : Keeps k0 s) : Keeps k0 t0 := by have := State.codeWord_keeps hK c a; rw [he0] at this; exact this

theorem State.dispatchFrom_keeps {k0 s : State} (hK : Keeps k0 s) (c : CoreId) (inSeg : Bool) (base : Nat) (i : Nat) (count : Nat) (pid : BitVec 16) : Keeps k0 (State.dispatchFrom s c inSeg base i count pid) := by
  unfold State.dispatchFrom
  repeat' first
    | with_reducible assumption
    | (with_reducible refine State.codeWord_keeps2 ‹State.codeWord _ _ _ = _› ?_)
    | (with_reducible apply State.fetchError_keeps)
    | (with_reducible apply State.seqError_keeps)
    | (with_reducible apply State.abandonStep_keeps)
    | (with_reducible apply State.dispatched_keeps)
    | (with_reducible apply State.unusedEnc_keeps)
    | (with_reducible apply State.modCore_keeps)
    | (with_reducible apply State.closeSlots_keeps)
    | (with_reducible apply State.when_keepsK)
    | with_reducible exact CoreSt.push_wf ‹_› _ _ _
    | with_reducible exact CoreSt.pushLayer_wf ‹_› _ _ _ _
    | (intro (x : State → _); subst x)
    | (intro x; clear_value x)
    | (intro _ _; beta_reduce)
    | split
    | lift_lets -underBinder

theorem execDispatch_keeps {k0 s : State} (hK : Keeps k0 s) (c : CoreId) : OutKeeps k0 (execDispatch c s) := by
  unfold execDispatch
  repeat' first
    | with_reducible assumption
    | (with_reducible apply OutKeeps.next)
    | (with_reducible apply State.actOnFault_keeps)
    | (with_reducible apply State.dispatchFrom_keeps)
    | split

theorem execNop_keeps {k0 s : State} (hK : Keeps k0 s) (c : CoreId) : OutKeeps k0 (execNop c s) := by
  unfold execNop
  repeat' first
    | with_reducible assumption
    | (with_reducible apply OutKeeps.next)
    | (with_reducible apply State.modCore_keeps)
    | (intro _ _; beta_reduce)

theorem runLayer_keeps {k0 s : State} (hK : Keeps k0 s) (c : CoreId) (q : QId) (n : BitVec 16) (p : Prog) : Keeps k0 (runLayer c q n p s).1 := by
  unfold runLayer
  repeat' first
    | with_reducible assumption
    | (with_reducible apply State.modCore_keeps)
    | (with_reducible apply State.modEng_keeps)
    | (intro _ _; beta_reduce)
    | split
theorem execLayer_keeps {k0 s : State} (hK : Keeps k0 s) (c : CoreId) (q : QId) (n : BitVec 16) : OutKeeps k0 (execLayer c q n s) := by
  unfold execLayer
  repeat' first
    | with_reducible assumption
    | (with_reducible apply OutKeeps.next)
    | (with_reducible apply State.issue_keeps)
    | (with_reducible apply runLayer_keeps)
    | (intro _ _ _; beta_reduce)

theorem State.asideEngines_keeps {k0 s : State} (hK : Keeps k0 s) (c : Nat) (restore : Bool) : Keeps k0 (State.asideEngines s c restore) := by
  unfold State.asideEngines
  repeat' first
    | with_reducible assumption
    | (with_reducible apply State.modEng_keeps)
    | (with_reducible apply State.each_keepsK)
    | (intro _ _ _; beta_reduce)

theorem State.endSegment_keeps {k0 s : State} (hK : Keeps k0 s) (c : Nat) (g : SegRun) : Keeps k0 (State.endSegment s c g) := by
  unfold State.endSegment
  repeat' first
    | with_reducible assumption
    | (with_reducible apply State.modCore_keeps)
    | (with_reducible apply State.asideEngines_keeps)
    | (with_reducible apply State.setFld_keeps)
    | (intro _ _; beta_reduce)
    | split

theorem execStepEnd_keeps {k0 s : State} (hK : Keeps k0 s) (c : CoreId) : OutKeeps k0 (execStepEnd c s) := by
  unfold execStepEnd
  repeat' first
    | with_reducible assumption
    | (with_reducible apply OutKeeps.next)
    | (with_reducible apply State.endSegment_keeps)
    | (with_reducible apply State.seqError_keeps)
    | (with_reducible apply State.setFld_keeps)
    | (with_reducible apply State.raise_keeps)
    | (with_reducible apply State.modCore_keeps)
    | (with_reducible apply State.closeSlots_keeps)
    | (with_reducible apply State.when_keepsK)
    | (intro _ _; beta_reduce)
    | split

theorem runWait_keeps {k0 s : State} (hK : Keeps k0 s) (c : CoreId) (t : TokenOp) (p : Prog) : Keeps k0 (runWait c t p s).1 := by
  unfold runWait
  repeat' first
    | with_reducible assumption
    | (with_reducible apply State.unusedEnc_keeps)
    | (with_reducible refine State.draw_keeps ‹State.draw _ _ _ _ _ = _› ?_)
    | split
theorem execWait_keeps {k0 s : State} (hK : Keeps k0 s) (c : CoreId) (t : TokenOp) : OutKeeps k0 (execWait c t s) := by
  unfold execWait
  repeat' first
    | with_reducible assumption
    | (with_reducible apply OutKeeps.next)
    | (with_reducible apply State.issue_keeps)
    | (with_reducible apply runWait_keeps)
    | (intro _ _ _; beta_reduce)

theorem runSignal_keeps {k0 s : State} (hK : Keeps k0 s) (c : CoreId) (t : TokenOp) (p : Prog) : Keeps k0 (runSignal c t p s).1 := by
  unfold runSignal
  repeat' first
    | with_reducible assumption
    | (with_reducible apply State.unusedEnc_keeps)
    | (with_reducible apply State.sendSig_keeps)
    | split
theorem execSignal_keeps {k0 s : State} (hK : Keeps k0 s) (c : CoreId) (t : TokenOp) : OutKeeps k0 (execSignal c t s) := by
  unfold execSignal
  repeat' first
    | with_reducible assumption
    | (with_reducible apply OutKeeps.next)
    | (with_reducible apply State.issue_keeps)
    | (with_reducible apply runSignal_keeps)
    | (intro _ _ _; beta_reduce)

theorem runCreditReturn_keeps {k0 s : State} (hK : Keeps k0 s) (c : CoreId) (t : TokenOp) (p : Prog) : Keeps k0 (runCreditReturn c t p s).1 := by
  unfold runCreditReturn
  repeat' first
    | with_reducible assumption
    | (with_reducible apply State.unusedEnc_keeps)
    | (with_reducible apply State.sendSig_keeps)
    | split
theorem execCreditReturn_keeps {k0 s : State} (hK : Keeps k0 s) (c : CoreId) (t : TokenOp) : OutKeeps k0 (execCreditReturn c t s) := by
  unfold execCreditReturn
  repeat' first
    | with_reducible assumption
    | (with_reducible apply OutKeeps.next)
    | (with_reducible apply State.issue_keeps)
    | (with_reducible apply runCreditReturn_keeps)
    | (intro _ _ _; beta_reduce)

theorem State.arrive_keeps {k0 s : State} (hK : Keeps k0 s) (f : Flight) : Keeps k0 (State.arrive s f) := by
  unfold State.arrive
  repeat' first
    | with_reducible assumption
    | (with_reducible apply State.seqError_keeps)
    | (with_reducible apply State.addSig_keeps)
    | split

theorem execSignalArrival_keeps {k0 s : State} (hK : Keeps k0 s) (i : Nat) : OutKeeps k0 (execSignalArrival i s) := by
  unfold execSignalArrival
  repeat' first
    | with_reducible assumption
    | (with_reducible apply OutKeeps.next)
    | (with_reducible apply State.arrive_keeps)
    | fail_if_no_progress (with_reducible refine Keeps.upd ?_ (Nat.le_refl _) (Nat.le_refl _) rfl rfl rfl)
    | split

theorem State.ccParity_keeps {k0 s : State} (hK : Keeps k0 s) (k : Nat) (unit : Nat) (op : Nat) : Keeps k0 (State.ccParity s k unit op) := by
  unfold State.ccParity
  repeat' first
    | with_reducible assumption
    | (with_reducible apply State.count_keeps)
    | (with_reducible apply State.jasper_keeps)

theorem State.ccServed_keeps {k0 s : State} (hK : Keeps k0 s) (c : CoreId) (k : Nat) (n : Nat) : Keeps k0 (State.ccServed s c k n) := by
  unfold State.ccServed
  repeat' first
    | with_reducible assumption
    | (with_reducible apply State.count_keeps)
    | (with_reducible apply State.crossBridges_keeps)

theorem runRead_keeps {k0 s : State} (hK : Keeps k0 s) (c : CoreId) (o : CacheOp) (p : Prog) : Keeps k0 (runRead c o p s).1 := by
  unfold runRead
  repeat' first
    | with_reducible assumption
    | (with_reducible apply State.vecCmdErr_keeps)
    | (with_reducible apply State.modCore_keeps)
    | (with_reducible apply State.ccParity_keeps)
    | (with_reducible apply State.ccServed_keeps)
    | (with_reducible apply State.each_keepsK)
    | with_reducible exact CoreSt.put_wf ‹_› _ _
    | (intro _ _ _; beta_reduce)
    | (intro _ _; beta_reduce)
    | split
theorem execRead_keeps {k0 s : State} (hK : Keeps k0 s) (c : CoreId) (o : CacheOp) : OutKeeps k0 (execRead c o s) := by
  unfold execRead
  repeat' first
    | with_reducible assumption
    | (with_reducible apply OutKeeps.next)
    | (with_reducible apply State.issue_keeps)
    | (with_reducible apply runRead_keeps)
    | (intro _ _ _; beta_reduce)

theorem runWrite_keeps {k0 s : State} (hK : Keeps k0 s) (c : CoreId) (o : CacheOp) (p : Prog) : Keeps k0 (runWrite c o p s).1 := by
  unfold runWrite
  repeat' first
    | with_reducible assumption
    | (with_reducible apply State.vecCmdErr_keeps)
    | (with_reducible refine State.draw_keeps ‹State.draw _ _ _ _ _ = _› ?_)
    | (with_reducible apply State.consume_keeps)
    | (with_reducible apply State.modCluster_keeps)
    | (with_reducible apply State.ccServed_keeps)
    | with_reducible exact Mem.wf_wrBlk ‹_› _ _
    | (intro _ _; beta_reduce)
    | split
theorem execWrite_keeps {k0 s : State} (hK : Keeps k0 s) (c : CoreId) (o : CacheOp) : OutKeeps k0 (execWrite c o s) := by
  unfold execWrite
  repeat' first
    | with_reducible assumption
    | (with_reducible apply OutKeeps.next)
    | (with_reducible apply State.issueAct_keeps)
    | (with_reducible apply runWrite_keeps)
    | (intro _ _ _; beta_reduce)

theorem runCombine_keeps {b0 s : State} (h : Keeps b0 s) (code : Nat) (op : BitVec 32 → BitVec 32 → BitVec 32) (c : CoreId) (o : CacheOp) (p : Prog) :
    Keeps b0 (runCombine code op c o p s).1 := by
  have put : ∀ (l bad : List Nat) (buf : Mem) (m : Mem), m.wf → (l.foldl (fun m i => if bad.contains i = true then m
      else m.wrBlk (o.cca + 64 * i) (combineUnit op m buf (o.cca + 64 * i) (o.cba + 64 * i))) m).wf := by
    intro l bad buf
    induction l with
    | nil => exact fun _ h => h
    | cons i l ih =>
      intro m hm
      refine ih _ ?_
      dsimp only
      split
      · exact hm
      · exact Mem.wf_wrBlk hm _ _
  unfold runCombine
  split
  · exact State.vecCmdErr_keeps h _ _
  · split
    · exact h
    · rename_i t ht
      have h1 := State.consume_keeps (State.draw_keeps ht h) c [(o.cba, 64 * o.units)]
      dsimp only
      generalize State.consume t c _ = u at h1 ⊢
      with_reducible refine State.ccServed_keeps (State.each_keepsK (State.modCluster_keeps h1 _ _ ?_) _ _ fun _ _ h => State.ccParity_keeps h _ _ _) _ _ _
      intro x hx
      exact put _ _ _ _ hx

theorem execAdd_keeps {k0 s : State} (hK : Keeps k0 s) (c : CoreId) (o : CacheOp) : OutKeeps k0 (execAdd c o s) := by
  unfold execAdd
  repeat' first
    | with_reducible assumption
    | (with_reducible apply OutKeeps.next)
    | (with_reducible apply State.issueAct_keeps)
    | (with_reducible apply runCombine_keeps)
    | (intro _ _ _; beta_reduce)

theorem execMax_keeps {k0 s : State} (hK : Keeps k0 s) (c : CoreId) (o : CacheOp) : OutKeeps k0 (execMax c o s) := by
  unfold execMax
  repeat' first
    | with_reducible assumption
    | (with_reducible apply OutKeeps.next)
    | (with_reducible apply State.issueAct_keeps)
    | (with_reducible apply runCombine_keeps)
    | (intro _ _ _; beta_reduce)

theorem runFetchAdd_keeps {b0 s : State} (h : Keeps b0 s) (c : CoreId) (o : CacheOp) (p : Prog) : Keeps b0 (runFetchAdd c o p s).1 := by
  unfold runFetchAdd
  split
  · exact State.vecCmdErr_keeps h _ _
  · refine State.ccServed_keeps (State.when_keepsK (State.modCore_keeps (State.when_keepsK (State.consume_keeps h _ _) _ _ fun _ h =>
      State.modCluster_keeps h _ _ fun x hx => Mem.wf_wrLe hx _ _ _) _ _ fun x hx => ?_) _ _ fun _ h => State.ccParity_keeps h _ _ _) _ _ _
    dsimp only
    split <;> exact CoreSt.put_wf hx _ _

theorem execFetchAdd_keeps {k0 s : State} (hK : Keeps k0 s) (c : CoreId) (o : CacheOp) : OutKeeps k0 (execFetchAdd c o s) := by
  unfold execFetchAdd
  repeat' first
    | with_reducible assumption
    | (with_reducible apply OutKeeps.next)
    | (with_reducible apply State.issueAct_keeps)
    | (with_reducible apply runFetchAdd_keeps)
    | (intro _ _ _; beta_reduce)

theorem State.verdict_keeps {k0 s : State} (hK : Keeps k0 s) (k : Nat) (l : Nat) : Keeps k0 (State.verdict s k l) := by
  unfold State.verdict
  repeat' first
    | with_reducible assumption
    | fail_if_no_progress (with_reducible refine Keeps.upd ?_ (Nat.le_refl _) (Nat.le_refl _) rfl rfl rfl)
    | (intro x; clear_value x)
    | split
    | lift_lets -underBinder

theorem State.modSlot_keeps {k0 s : State} (hK : Keeps k0 s) (k : Nat) (l : Nat) (f : SlotCnt → SlotCnt) : Keeps k0 (State.modSlot s k l f) := by
  unfold State.modSlot
  repeat' first
    | with_reducible assumption
    | (with_reducible apply State.modCluster_keeps)
    | (intro _ _; beta_reduce)

theorem State.modWin_keeps {k0 s : State} (hK : Keeps k0 s) (k : Nat) (l : Nat) (f : SlotWin → SlotWin) : Keeps k0 (State.modWin s k l f) := by
  unfold State.modWin
  repeat' first
    | with_reducible assumption
    | (with_reducible apply State.modCluster_keeps)
    | (with_reducible apply State.when_keepsK)
    | (intro _ _; beta_reduce)

theorem State.decideSlot_keeps {k0 s : State} (hK : Keeps k0 s) (k : Nat) (l : Nat) : Keeps k0 (State.decideSlot s k l) := by
  unfold State.decideSlot
  repeat' first
    | with_reducible assumption
    | (with_reducible apply State.modCluster_keeps)
    | (with_reducible apply State.verdict_keeps)
    | (with_reducible apply State.setFld_keeps)
    | (with_reducible apply State.markSuspect_keeps)
    | (with_reducible apply State.count_keeps)
    | (with_reducible apply State.modSlot_keeps)
    | (with_reducible apply State.modWin_keeps)
    | (with_reducible apply State.jasper_keeps)
    | (intro (x : State → _); subst x)
    | (intro x; refine Keeps.cut (a := k0) x ?_ (fun hx => ?_); rotate_left; clear_value x; rotate_right; subst x)
    | (intro x; clear_value x)
    | (intro _ _; beta_reduce)
    | split
    | lift_lets -underBinder

theorem execGuardDecision_keeps {k0 s : State} (hK : Keeps k0 s) (k : ClusterId) (l : Fin 512) : OutKeeps k0 (execGuardDecision k l s) := by
  unfold execGuardDecision
  repeat' first
    | with_reducible assumption
    | (with_reducible apply OutKeeps.next)
    | (with_reducible apply State.modCluster_keeps)
    | (with_reducible apply State.decideSlot_keeps)
    | (intro _ _; beta_reduce)
    | split

theorem execRerunStart_keeps {k0 s : State} (hK : Keeps k0 s) (k : ClusterId) : OutKeeps k0 (execRerunStart k s) := by
  unfold execRerunStart
  repeat' first
    | with_reducible assumption
    | (with_reducible apply OutKeeps.next)
    | (with_reducible apply State.modCluster_keeps)
    | (with_reducible apply State.raise_keeps)
    | (with_reducible apply State.setFld_keeps)
    | (with_reducible apply State.count_keeps)
    | (with_reducible apply State.jasper_keeps)
    | (with_reducible apply State.modSlot_keeps)
    | (with_reducible apply State.modWin_keeps)
    | (with_reducible apply State.modCore_keeps)
    | (with_reducible apply State.each_keepsK)
    | (intro _ _ _; beta_reduce)
    | (intro _ _; beta_reduce)
    | split

theorem execRerunSegmentStart_keeps {k0 s : State} (hK : Keeps k0 s) (c : CoreId) : OutKeeps k0 (execRerunSegmentStart c s) := by
  unfold execRerunSegmentStart
  repeat' first
    | with_reducible assumption
    | (with_reducible apply OutKeeps.next)
    | (with_reducible apply State.actOnFault_keeps)
    | (with_reducible refine State.codeWord_keeps2 ‹State.codeWord _ _ _ = _› ?_)
    | (with_reducible apply State.fetchError_keeps)
    | (with_reducible apply State.seqError_keeps)
    | (with_reducible apply State.abandonStep_keeps)
    | (with_reducible apply State.asideEngines_keeps)
    | (with_reducible apply State.modCore_keeps)
    | (intro x; clear_value x)
    | (intro _ _; beta_reduce)
    | split
    | lift_lets -underBinder

theorem execRerunComplete_keeps {k0 s : State} (hK : Keeps k0 s) (k : ClusterId) : OutKeeps k0 (execRerunComplete k s) := by
  unfold execRerunComplete
  repeat' first
    | with_reducible assumption
    | (with_reducible apply OutKeeps.next)
    | (with_reducible apply State.setFld_keeps)
    | (with_reducible apply State.modCore_keeps)
    | (with_reducible apply State.verdict_keeps)
    | (with_reducible apply State.each_keepsK)
    | (intro _ _ _; beta_reduce)
    | (intro _ _; beta_reduce)
    | split

theorem State.reportSlot_keeps {k0 s : State} (hK : Keeps k0 s) (k : Nat) (l : Nat) (steps : Nat) : Keeps k0 (State.reportSlot s k l steps) := by
  unfold State.reportSlot
  repeat' first
    | with_reducible assumption
    | (with_reducible apply State.count_keeps)
    | (with_reducible apply State.jasper_keeps)
    | (with_reducible apply State.postEvent_keeps)
    | (intro x; refine Keeps.cut (a := k0) x ?_ (fun hx => ?_); rotate_left; clear_value x; rotate_right; subst x)
    | (intro x; clear_value x)
    | split
    | lift_lets -underBinder

theorem execGuardWindowEnd_keeps {k0 s : State} (hK : Keeps k0 s) (k : ClusterId) : OutKeeps k0 (execGuardWindowEnd k s) := by
  unfold execGuardWindowEnd
  repeat' first
    | with_reducible assumption
    | (with_reducible apply OutKeeps.next)
    | (with_reducible apply State.reportSlot_keeps)
    | (with_reducible apply State.modCluster_keeps)
    | (with_reducible apply State.each_keepsK)
    | (intro _ _ _; beta_reduce)
    | (intro _ _; beta_reduce)
    | split

end Sys2Proof.Machine
end

