-- ==== Sys2Proof/Laws/KeepsLinks.lean ====
section
/-! SUPPORT. What the links, the plane, Jasper, the power and the stacks keep (see `Keeps`): one lemma for each operation and each command. -/

namespace Sys2Proof.Machine

/-! ### Links -/

theorem State.linkUnits_keeps {k0 s : State} (hK : Keeps k0 s) (d : Nat) (n : Nat) (out : Bool) : Keeps k0 (State.linkUnits s d n out) := by
  unfold State.linkUnits
  repeat' first
    | with_reducible assumption
    | (with_reducible apply State.count_keeps)

theorem runSend_keeps {k0 s : State} (hK : Keeps k0 s) (c : CoreId) (o : SendOp) (p : Prog) : Keeps k0 (runSend c o p s).1 := by
  unfold runSend
  repeat' first
    | with_reducible assumption
    | (with_reducible apply State.unusedEnc_keeps)
    | (with_reducible apply State.vecCmdErr_keeps)
    | (with_reducible refine State.draw_keeps ‹State.draw _ _ _ _ _ = _› ?_)
    | (with_reducible apply State.consume_keeps)
    | (with_reducible apply State.linkUnits_keeps)
    | (with_reducible apply State.sendTensor_keeps)
    | (intro x; clear_value x)
    | split
    | lift_lets -underBinder
theorem execSend_keeps {k0 s : State} (hK : Keeps k0 s) (c : CoreId) (o : SendOp) : OutKeeps k0 (execSend c o s) := by
  unfold execSend
  repeat' first
    | with_reducible assumption
    | (with_reducible apply OutKeeps.next)
    | (with_reducible apply State.issueAct_keeps)
    | (with_reducible apply runSend_keeps)
    | (intro _ _ _; beta_reduce)

theorem runRelease_keeps {k0 s : State} (hK : Keeps k0 s) (c : CoreId) (o : ReleaseOp) (p : Prog) : Keeps k0 (runRelease c o p s).1 := by
  unfold runRelease
  repeat' first
    | with_reducible assumption
    | (with_reducible apply State.unusedEnc_keeps)
    | (with_reducible apply State.vecCmdErr_keeps)
    | (with_reducible apply State.sendTensor_keeps)
    | split
theorem execRelease_keeps {k0 s : State} (hK : Keeps k0 s) (c : CoreId) (o : ReleaseOp) : OutKeeps k0 (execRelease c o s) := by
  unfold execRelease
  repeat' first
    | with_reducible assumption
    | (with_reducible apply OutKeeps.next)
    | (with_reducible apply State.issue_keeps)
    | (with_reducible apply runRelease_keeps)
    | (intro _ _ _; beta_reduce)

theorem State.atPort_keeps {b0 s : State} (h : Keeps b0 s) (port : Option PortId) (f : State → Nat → State)
    (hf : ∀ t p, Keeps b0 t → Keeps b0 (f t p)) : Keeps b0 (s.atPort port f) := by
  unfold State.atPort
  split
  · exact hf _ _ h
  · exact h

theorem State.wireDecode_keeps {k0 s : State} (hK : Keeps k0 s) (port : Option PortId) (wire : Nat) (bs : List Byte) : Keeps k0 (State.wireDecode s port wire bs).2 := by
  unfold State.wireDecode
  repeat' first
    | with_reducible assumption
    | (with_reducible apply State.atPort_keeps)
    | (with_reducible apply State.count_keeps)
    | (with_reducible apply State.raise_keeps)
    | (with_reducible apply Keeps.foldl2)
    | (intro x; refine Keeps.cut (a := k0) x ?_ (fun hx => ?_); rotate_left; clear_value x; rotate_right; subst x)
    | (intro x; clear_value x)
    | (intro _ _ _; beta_reduce)
    | split
    | lift_lets -underBinder
theorem State.discardMsg_keeps {k0 s : State} (hK : Keeps k0 s) (port : Option PortId) (h : TensorHdr) (check : Nat) : Keeps k0 (State.discardMsg s port h check) := by
  unfold State.discardMsg
  repeat' first
    | with_reducible assumption
    | (with_reducible apply State.atPort_keeps)
    | (with_reducible apply State.count_keeps)
    | (with_reducible apply State.jasper_keeps)
    | (intro _ _ _; beta_reduce)

theorem State.refreshHold_keeps {k0 s : State} (hK : Keeps k0 s) : Keeps k0 (State.refreshHold s) := by
  unfold State.refreshHold
  repeat' first
    | with_reducible assumption
    | (with_reducible apply State.setFld_keeps)
    | (with_reducible apply State.each_keepsK)
    | (intro _ _ _; beta_reduce)

theorem State.holdMsg_keeps {k0 s : State} (hK : Keeps k0 s) (port : Option PortId) (m : TensorMsg) : Keeps k0 (State.holdMsg s port m) := by
  unfold State.holdMsg
  repeat' first
    | with_reducible assumption
    | (with_reducible apply State.refreshHold_keeps)
    | (with_reducible apply State.atPort_keeps)
    | (with_reducible apply State.count_keeps)
    | (with_reducible apply State.freeFlits_keeps)
    | (with_reducible apply State.modPort_keeps)
    | (with_reducible apply State.raise_keeps)
    | fail_if_no_progress (with_reducible refine Keeps.upd ?_ (Nat.le_refl _) (Nat.le_refl _) rfl rfl rfl)
    | (intro _ _ _; beta_reduce)
    | split

theorem State.landMsg_keeps {k0 s : State} (hK : Keeps k0 s) (port : Option PortId) (m : TensorMsg) : Keeps k0 (State.landMsg s port m) := by
  unfold State.landMsg
  repeat' first
    | with_reducible assumption
    | (with_reducible apply State.wireDecode_keeps)
    | (with_reducible apply State.linkUnits_keeps)
    | (with_reducible apply State.modCluster_keeps)
    | (with_reducible apply State.count_keeps)
    | (with_reducible apply State.modCore_keeps)
    | (with_reducible apply State.arrive_keeps)
    | with_reducible exact CoreSt.put_wf ‹_› _ _
    | with_reducible exact Mem.wf_wrBlk ‹_› _ _
    | (intro _ _; beta_reduce)
    | split

theorem State.checkMsg_keeps {k0 s : State} (hK : Keeps k0 s) (port : Option PortId) (m : TensorMsg) : Keeps k0 (State.checkMsg s port m) := by
  unfold State.checkMsg
  repeat' first
    | with_reducible assumption
    | (with_reducible apply State.atPort_keeps)
    | (with_reducible apply State.freeFlits_keeps)
    | (with_reducible apply State.discardMsg_keeps)
    | (with_reducible apply State.holdMsg_keeps)
    | (with_reducible apply State.raise_keeps)
    | (with_reducible apply State.count_keeps)
    | (with_reducible apply State.jasper_keeps)
    | (with_reducible apply State.landMsg_keeps)
    | (intro (x : State → _); subst x)
    | (intro x; refine Keeps.cut (a := k0) x ?_ (fun hx => ?_); rotate_left; clear_value x; rotate_right; subst x)
    | (intro x; clear_value x)
    | (intro _ _ _; beta_reduce)
    | split
    | lift_lets -underBinder

theorem State.takeArrived_keeps {k0 s : State} (hK : Keeps k0 s) (p : Nat) (vc : Nat) (is : List Byte → Bool) : Keeps k0 (State.takeArrived s p vc is) := by
  unfold State.takeArrived
  repeat' first
    | with_reducible assumption
    | (with_reducible apply State.modPort_keeps)
    | split

theorem execTensorMessage_keeps {k0 s : State} (hK : Keeps k0 s) (p : Option PortId) (m : TensorMsg) : OutKeeps k0 (execTensorMessage p m s) := by
  unfold execTensorMessage
  repeat' first
    | with_reducible assumption
    | (with_reducible apply OutKeeps.next)
    | (with_reducible apply State.checkMsg_keeps)
    | (with_reducible apply State.takeArrived_keeps)
    | fail_if_no_progress (with_reducible refine Keeps.upd ?_ (Nat.le_refl _) (Nat.le_refl _) rfl rfl rfl)
    | split

theorem execHoldAreaMove_keeps {k0 s : State} (hK : Keeps k0 s) (p : PortId) : OutKeeps k0 (execHoldAreaMove p s) := by
  unfold execHoldAreaMove
  repeat' first
    | with_reducible assumption
    | (with_reducible apply OutKeeps.next)
    | (with_reducible apply State.modPort_keeps)
    | (with_reducible apply State.setFld_keeps)
    | (with_reducible apply State.holdMsg_keeps)
    | (with_reducible apply State.when_keepsK)
    | (intro _ _; beta_reduce)
    | split

theorem State.deliverHeld_keeps {k0 s : State} (hK : Keeps k0 s) : Keeps k0 (State.deliverHeld s) := by
  unfold State.deliverHeld
  repeat' first
    | with_reducible assumption
    | (with_reducible apply State.refreshHold_keeps)
    | (with_reducible apply State.checkMsg_keeps)
    | (with_reducible apply State.atPort_keeps)
    | (with_reducible apply State.modPort_keeps)
    | (with_reducible apply State.setFld_keeps)
    | (with_reducible apply State.each_keepsK)
    | fail_if_no_progress (with_reducible refine Keeps.upd ?_ (Nat.le_refl _) (Nat.le_refl _) rfl rfl rfl)
    | (intro x; refine Keeps.cut (a := k0) x ?_ (fun hx => ?_); rotate_left; clear_value x; rotate_right; subst x)
    | (intro x; clear_value x)
    | (intro _ _ _; beta_reduce)
    | split
    | lift_lets -underBinder

theorem execMessageForward_keeps {k0 s : State} (hK : Keeps k0 s) (p : PortId) (m : LinkMsg) : OutKeeps k0 (execMessageForward p m s) := by
  unfold execMessageForward
  repeat' first
    | with_reducible assumption
    | (with_reducible apply OutKeeps.next)
    | (with_reducible apply State.takeArrived_keeps)
    | (with_reducible apply State.freeFlits_keeps)
    | (with_reducible apply State.discardMsg_keeps)
    | (with_reducible apply State.putBundle_keeps)
    | (with_reducible apply State.count_keeps)
    | (with_reducible apply State.jasper_keeps)
    | (intro x; refine Keeps.cut (a := k0) x ?_ (fun hx => ?_); rotate_left; clear_value x; rotate_right; subst x)
    | split
    | lift_lets -underBinder

theorem State.receive_keeps {k0 s : State} (hK : Keeps k0 s) (p : PortId) (f : FlitIn) : Keeps k0 (State.receive s p f) := by
  unfold State.receive
  repeat' first
    | with_reducible assumption
    | (with_reducible apply State.rxFlit_keeps)
    | (with_reducible apply State.rxToken_keeps)
    | (with_reducible apply State.sendTicks_keeps)
    | (with_reducible apply State.emitPlain_keeps)
    | (with_reducible apply State.each_keepsK)
    | (with_reducible apply State.when_keepsK)
    | (intro _ _ _; beta_reduce)
    | (intro _ _; beta_reduce)

theorem execSequencedFlit_keeps {k0 s : State} (hK : Keeps k0 s) (p : PortId) (f : FlitIn) : OutKeeps k0 (execSequencedFlit p f s) := by
  unfold execSequencedFlit
  repeat' first
    | with_reducible assumption
    | (with_reducible apply OutKeeps.next)
    | (with_reducible apply State.receive_keeps)
    | (with_reducible apply State.beginWake_keeps)

theorem execIdle_keeps {k0 s : State} (hK : Keeps k0 s) (p : PortId) (f : FlitIn) : OutKeeps k0 (execIdle p f s) := by
  unfold execIdle
  repeat' first
    | with_reducible assumption
    | (with_reducible apply OutKeeps.next)
    | (with_reducible apply State.rxFlit_keeps)
    | (with_reducible apply State.rxToken_keeps)
    | (with_reducible apply State.sendTicks_keeps)
    | (with_reducible apply State.each_keepsK)
    | (intro _ _ _; beta_reduce)

theorem execNak_keeps {k0 s : State} (hK : Keeps k0 s) (p : PortId) (f : FlitIn) : OutKeeps k0 (execNak p f s) := by
  unfold execNak
  repeat' first
    | with_reducible assumption
    | (with_reducible apply OutKeeps.next)
    | (with_reducible apply State.receive_keeps)

theorem execNakRetryTimeout_keeps {k0 s : State} (hK : Keeps k0 s) (p : PortId) : OutKeeps k0 (execNakRetryTimeout p s) := by
  unfold execNakRetryTimeout
  repeat' first
    | with_reducible assumption
    | (with_reducible apply OutKeeps.next)
    | (with_reducible apply State.clockTo_keeps)
    | (with_reducible apply State.sendNak_keeps)
    | split

theorem execReplayTimeout_keeps {k0 s : State} (hK : Keeps k0 s) (p : PortId) : OutKeeps k0 (execReplayTimeout p s) := by
  unfold execReplayTimeout
  repeat' first
    | with_reducible assumption
    | (with_reducible apply OutKeeps.next)
    | (with_reducible apply State.clockTo_keeps)
    | (with_reducible apply State.replay_keeps)
    | split

theorem State.degrade_keeps {k0 s : State} (hK : Keeps k0 s) (p : Nat) : Keeps k0 (State.degrade s p) := by
  unfold State.degrade
  repeat' first
    | with_reducible assumption
    | (with_reducible apply State.portDown_keeps)
    | (with_reducible apply State.setFld_keeps)
    | (with_reducible apply State.modPort_keeps)
    | (with_reducible apply State.emitLanes_keeps)
    | (with_reducible apply State.refreshOpen_keeps)
    | (intro x; clear_value x)
    | split
    | lift_lets -underBinder

theorem execLaneFail_keeps {k0 s : State} (hK : Keeps k0 s) (p : PortId) (lane : Fin 4) : OutKeeps k0 (execLaneFail p lane s) := by
  unfold execLaneFail
  repeat' first
    | with_reducible assumption
    | (with_reducible apply OutKeeps.next)
    | (with_reducible apply State.dropLanes_keeps)
    | (with_reducible apply State.degrade_keeps)
    | split

theorem execLinkCtrl_keeps {k0 s : State} (hK : Keeps k0 s) (p : PortId) (r : LinkCtrl) : OutKeeps k0 (execLinkCtrl p r s) := by
  unfold execLinkCtrl
  repeat' first
    | with_reducible assumption
    | (with_reducible apply OutKeeps.next)
    | (with_reducible apply State.dropLanes_keeps)
    | (with_reducible apply State.degrade_keeps)
    | (with_reducible apply State.emitLanes_keeps)
    | (with_reducible apply State.modPort_keeps)
    | (with_reducible apply State.handback_keeps)
    | (with_reducible apply State.emitRecord_keeps)
    | (with_reducible apply State.portDown_keeps)
    | (with_reducible apply State.when_keepsK)
    | (intro _ _; beta_reduce)
    | split

theorem execRestripeDone_keeps {k0 s : State} (hK : Keeps k0 s) (p : PortId) : OutKeeps k0 (execRestripeDone p s) := by
  unfold execRestripeDone
  repeat' first
    | with_reducible assumption
    | (with_reducible apply OutKeeps.next)
    | (with_reducible apply State.setFld_keeps)
    | (with_reducible apply State.modPort_keeps)
    | (with_reducible apply State.replayFrom_keeps)
    | (with_reducible apply State.pump_keeps)
    | (with_reducible apply State.refreshOpen_keeps)
    | split

theorem execPortTrained_keeps {k0 s : State} (hK : Keeps k0 s) (p : PortId) (r : TrainEnd) : OutKeeps k0 (execPortTrained p r s) := by
  unfold execPortTrained
  repeat' first
    | with_reducible assumption
    | (with_reducible apply OutKeeps.next)
    | (with_reducible apply State.clockTo_keeps)
    | (with_reducible apply State.trainEnd_keeps)
    | (with_reducible apply State.beginWake_keeps)
    | split

theorem execRetrain_keeps {k0 s : State} (hK : Keeps k0 s) (p : PortId) : OutKeeps k0 (execRetrain p s) := by
  unfold execRetrain
  repeat' first
    | with_reducible assumption
    | (with_reducible apply OutKeeps.next)
    | (with_reducible apply State.bar0_keeps)
    | (with_reducible apply State.portDown_keeps)
    | (intro _ _; beta_reduce)

theorem execRelinkWaitExpiry_keeps {k0 s : State} (hK : Keeps k0 s) (b : Bundle) : OutKeeps k0 (execRelinkWaitExpiry b s) := by
  unfold execRelinkWaitExpiry
  repeat' first
    | with_reducible assumption
    | (with_reducible apply OutKeeps.next)
    | (with_reducible apply State.clockTo_keeps)
    | (with_reducible apply State.closePort_keeps)
    | (with_reducible apply State.refreshOpen_keeps)
    | (with_reducible apply State.portDown_keeps)
    | (with_reducible apply State.trainPort_keeps)
    | (with_reducible apply State.each_keepsK)
    | fail_if_no_progress (with_reducible refine Keeps.upd ?_ (Nat.le_refl _) (Nat.le_refl _) rfl rfl rfl)
    | (intro x; refine Keeps.cut (a := k0) x ?_ (fun hx => ?_); rotate_left; clear_value x; rotate_right; subst x)
    | (intro x; clear_value x)
    | (intro _ _ _; beta_reduce)
    | split
    | lift_lets -underBinder

theorem State.relinkPort_keeps {k0 s : State} (hK : Keeps k0 s) (b : Bundle) (p : PortId) (r : TrainEnd) : Keeps k0 (State.relinkPort s b p r) := by
  unfold State.relinkPort
  repeat' first
    | with_reducible assumption
    | (with_reducible apply State.trainEnd_keeps)
    | (with_reducible apply State.trainPort_keeps)
    | (with_reducible apply State.setMState_keeps)
    | (with_reducible apply State.tellTopo_keeps)
    | (with_reducible apply State.count_keeps)
    | (with_reducible apply State.jasper_keeps)
    | fail_if_no_progress (with_reducible refine Keeps.upd ?_ (Nat.le_refl _) (Nat.le_refl _) rfl rfl rfl)
    | (intro x; refine Keeps.cut (a := k0) x ?_ (fun hx => ?_); rotate_left; clear_value x; rotate_right; subst x)
    | (intro x; clear_value x)
    | split
    | lift_lets -underBinder

theorem execRelinkAttempt_keeps {k0 s : State} (hK : Keeps k0 s) (b : Bundle) (results : List (PortId × TrainEnd)) : OutKeeps k0 (execRelinkAttempt b results s) := by
  unfold execRelinkAttempt
  repeat' first
    | with_reducible assumption
    | (with_reducible apply OutKeeps.next)
    | (with_reducible apply State.clockTo_keeps)
    | (with_reducible apply State.relinkPort_keeps)
    | (with_reducible apply State.each_keepsK)
    | (intro _ _ _; beta_reduce)
    | split

theorem State.writeLnkInj_keeps {k0 s : State} (hK : Keeps k0 s) (p : Nat) (w : BitVec 32) (arm : Bool) : Keeps k0 (State.writeLnkInj s p w arm) := by
  unfold State.writeLnkInj
  repeat' first
    | with_reducible assumption
    | (with_reducible apply State.jasper_keeps)
    | (with_reducible apply State.wr_keeps)
    | (with_reducible apply State.modPort_keeps)
    | (with_reducible apply State.emit_keeps)
    | (intro x; refine Keeps.cut (a := k0) x ?_ (fun hx => ?_); rotate_left; clear_value x; rotate_right; subst x)
    | (intro x; clear_value x)
    | split
    | lift_lets -underBinder

theorem execLnkInjArm_keeps {k0 s : State} (hK : Keeps k0 s) (p : PortId) (w : BitVec 32) : OutKeeps k0 (execLnkInjArm p w s) := by
  unfold execLnkInjArm
  repeat' first
    | with_reducible assumption
    | (with_reducible apply OutKeeps.next)
    | (with_reducible apply State.bar0_keeps)
    | (with_reducible apply State.writeLnkInj_keeps)
    | (intro _ _; beta_reduce)

/-! ### Plane -/

theorem State.takeMgmt_keeps {k0 s : State} (hK : Keeps k0 s) (kind : Nat) (payload : List Byte) : Keeps k0 (State.takeMgmt s kind payload) := by
  unfold State.takeMgmt
  repeat' first
    | with_reducible assumption
    | (with_reducible apply State.modPort_keeps)
    | (with_reducible apply State.freeFlits_keeps)
    | (with_reducible apply State.each_keepsK)
    | (intro x; clear_value x)
    | (intro _ _ _; beta_reduce)
    | split
    | lift_lets -underBinder

theorem execTickToken_keeps {k0 s : State} (hK : Keeps k0 s) (p : PortId) (t : Token) : OutKeeps k0 (execTickToken p t s) := by
  unfold execTickToken
  repeat' first
    | with_reducible assumption
    | (with_reducible apply OutKeeps.next)
    | (with_reducible apply State.rxToken_keeps)
    | (with_reducible apply State.sendTicks_keeps)
    | (with_reducible apply State.count_keeps)
    | split

theorem execMemberSilent_keeps {k0 s : State} (hK : Keeps k0 s) (m : Member) : OutKeeps k0 (execMemberSilent m s) := by
  unfold execMemberSilent
  repeat' first
    | with_reducible assumption
    | (with_reducible apply OutKeeps.next)
    | (with_reducible apply State.clockTo_keeps)
    | (with_reducible apply State.raise_keeps)
    | (with_reducible apply State.jasper_keeps)
    | (with_reducible apply State.memberLost_keeps)
    | (with_reducible apply State.requestReset_keeps)
    | (with_reducible apply State.when_keepsK)
    | (intro _ _; beta_reduce)
    | split

theorem execLoss_keeps {k0 s : State} (hK : Keeps k0 s) (src : Member) (lost : Member) (leaving : Bool) (tick : BitVec 32) : OutKeeps k0 (execLoss src lost leaving tick s) := by
  unfold execLoss
  repeat' first
    | with_reducible assumption
    | (with_reducible apply OutKeeps.next)
    | (with_reducible apply State.takeMgmt_keeps)
    | (with_reducible apply State.memberLost_keeps)
    | (with_reducible apply State.setMState_keeps)
    | split

theorem execLeaving_keeps {k0 s : State} (hK : Keeps k0 s) (src : Member) (cause : LeaveCause) (tick : BitVec 32) : OutKeeps k0 (execLeaving src cause tick s) := by
  unfold execLeaving
  repeat' first
    | with_reducible assumption
    | (with_reducible apply OutKeeps.next)
    | (with_reducible apply State.takeMgmt_keeps)
    | (with_reducible apply State.memberLost_keeps)
    | (with_reducible apply State.setMState_keeps)
    | (with_reducible apply State.startRelink_keeps)
    | (with_reducible apply State.when_keepsK)
    | (intro _ _; beta_reduce)
    | split

theorem execTopoUpdate_keeps {k0 s : State} (hK : Keeps k0 s) (m : Member) (st : MemberState) : OutKeeps k0 (execTopoUpdate m st s) := by
  unfold execTopoUpdate
  repeat' first
    | with_reducible assumption
    | (with_reducible apply OutKeeps.next)
    | (with_reducible apply State.takeMgmt_keeps)
    | (with_reducible apply State.setMState_keeps)
    | (with_reducible apply State.retrainHeld_keeps)
    | (with_reducible apply State.when_keepsK)
    | (intro _ _; beta_reduce)

theorem execTakeover_keeps {k0 s : State} (hK : Keeps k0 s) (group : BitVec 16) (lost : Member) (tick : BitVec 32) : OutKeeps k0 (execTakeover group lost tick s) := by
  unfold execTakeover
  repeat' first
    | with_reducible assumption
    | (with_reducible apply OutKeeps.next)
    | (with_reducible apply State.takeMgmt_keeps)
    | (with_reducible apply State.postAll_keeps)
    | (with_reducible apply State.jasper_keeps)

theorem execThermalNotice_keeps {k0 s : State} (hK : Keeps k0 s) (src : Member) (stack : Fin 16) (temp : BitVec 16) (tick : BitVec 32) : OutKeeps k0 (execThermalNotice src stack temp tick s) := by
  unfold execThermalNotice
  repeat' first
    | with_reducible assumption
    | (with_reducible apply OutKeeps.next)
    | (with_reducible apply State.takeMgmt_keeps)
    | (with_reducible apply State.postAll_keeps)
    | split

theorem execMgmtKindUnused_keeps {k0 s : State} (hK : Keeps k0 s) (m : MgmtMsg) : OutKeeps k0 (execMgmtKindUnused m s) := by
  unfold execMgmtKindUnused
  repeat' first
    | with_reducible assumption
    | (with_reducible apply OutKeeps.next)
    | (with_reducible apply State.takeMgmt_keeps)
    | (with_reducible apply State.jasper_keeps)
    | split

theorem State.openSwitches_keeps {k0 s : State} (hK : Keeps k0 s) (cmd : Nat) (ks : List Nat) : Keeps k0 (State.openSwitches s cmd ks) := by
  unfold State.openSwitches
  repeat' first
    | with_reducible assumption
    | (with_reducible apply State.jasper_keeps)
    | (with_reducible apply State.moveSwitch_keeps)
    | (with_reducible apply State.each_keepsK)
    | (intro _ _ _; beta_reduce)
    | split

theorem execOpenRing_keeps {k0 s : State} (hK : Keeps k0 s) : OutKeeps k0 (execOpenRing s) := by
  unfold execOpenRing
  repeat' first
    | with_reducible assumption
    | (with_reducible apply OutKeeps.next)
    | (with_reducible apply State.bar0_keeps)
    | (with_reducible apply State.openSwitches_keeps)
    | (intro _ _; beta_reduce)

theorem execOpenPlane_keeps {k0 s : State} (hK : Keeps k0 s) : OutKeeps k0 (execOpenPlane s) := by
  unfold execOpenPlane
  repeat' first
    | with_reducible assumption
    | (with_reducible apply OutKeeps.next)
    | (with_reducible apply State.bar0_keeps)
    | (with_reducible apply State.openSwitches_keeps)
    | (intro _ _; beta_reduce)

theorem State.leaveNow_keeps {k0 s : State} (hK : Keeps k0 s) : Keeps k0 (State.leaveNow s) := by
  unfold State.leaveNow
  repeat' first
    | with_reducible assumption
    | (with_reducible apply State.tellLeaving_keeps)
    | (with_reducible apply State.closeSwitches_keeps)
    | fail_if_no_progress (with_reducible refine Keeps.upd ?_ (Nat.le_refl _) (Nat.le_refl _) rfl rfl rfl)

theorem State.askLeave_keeps {k0 s : State} (hK : Keeps k0 s) : Keeps k0 (State.askLeave s) := by
  unfold State.askLeave
  repeat' first
    | with_reducible assumption
    | (with_reducible apply State.leaveNow_keeps)
    | fail_if_no_progress (with_reducible refine Keeps.upd ?_ (Nat.le_refl _) (Nat.le_refl _) rfl rfl rfl)
    | split

theorem execLeave_keeps {k0 s : State} (hK : Keeps k0 s) : OutKeeps k0 (execLeave s) := by
  unfold execLeave
  repeat' first
    | with_reducible assumption
    | (with_reducible apply OutKeeps.next)
    | (with_reducible apply State.bar0_keeps)
    | (with_reducible apply State.askLeave_keeps)

theorem execAgateSensorCheck_keeps {k0 s : State} (hK : Keeps k0 s) (sw : Fin 6) (closed : Bool) : OutKeeps k0 (execAgateSensorCheck sw closed s) := by
  unfold execAgateSensorCheck
  repeat' first
    | with_reducible assumption
    | (with_reducible apply OutKeeps.next)
    | (with_reducible apply State.clockTo_keeps)
    | (with_reducible apply State.setFld_keeps)
    | (with_reducible apply State.jasper_keeps)
    | split

theorem execAgateSwitchMovementDone_keeps {k0 s : State} (hK : Keeps k0 s) (sw : Fin 6) : OutKeeps k0 (execAgateSwitchMovementDone sw s) := by
  unfold execAgateSwitchMovementDone
  repeat' first
    | with_reducible assumption
    | (with_reducible apply OutKeeps.next)
    | (with_reducible apply State.setFld_keeps)
    | (with_reducible apply State.trainPort_keeps)
    | (with_reducible apply State.each_keepsK)
    | (intro _ _ _; beta_reduce)
    | split

/-! ### Jasper -/

theorem execJasperAccept_keeps {k0 s : State} (hK : Keeps k0 s) : OutKeeps k0 (execJasperAccept s) := by
  unfold execJasperAccept
  repeat' first
    | with_reducible assumption
    | (with_reducible apply OutKeeps.next)
    | (with_reducible apply State.takeIntake_keeps)

theorem execRateWindowEnd_keeps {k0 s : State} (hK : Keeps k0 s) : OutKeeps k0 (execRateWindowEnd s) := by
  unfold execRateWindowEnd
  repeat' first
    | with_reducible assumption
    | (with_reducible apply OutKeeps.next)
    | (with_reducible apply State.clockTo_keeps)
    | (with_reducible apply State.writeSummaries_keeps)
    | (with_reducible apply State.modJsp_keeps)

theorem execOpTime_keeps {k0 s : State} (hK : Keeps k0 s) : OutKeeps k0 (execOpTime s) := by
  unfold execOpTime
  repeat' first
    | with_reducible assumption
    | (with_reducible apply OutKeeps.next)
    | (with_reducible apply State.syncSeconds_keeps)
    | (with_reducible apply State.clockTo_keeps)
    | (with_reducible apply State.modJsp_keeps)
    | (with_reducible apply State.jasper_keeps)
    | split

theorem execFlush_keeps {k0 s : State} (hK : Keeps k0 s) : OutKeeps k0 (execFlush s) := by
  unfold execFlush
  repeat' first
    | with_reducible assumption
    | (with_reducible apply OutKeeps.next)
    | (with_reducible apply State.bar0_keeps)
    | (with_reducible apply State.requestFlush_keeps)

theorem execReadSeq_keeps {k0 s : State} (hK : Keeps k0 s) (seq : BitVec 32) : OutKeeps k0 (execReadSeq seq s) := by
  unfold execReadSeq
  repeat' first
    | with_reducible assumption
    | (with_reducible apply OutKeeps.next)
    | (with_reducible apply State.bar0_keeps)
    | (with_reducible apply State.writeReadSeq_keeps)
    | (intro _ _; beta_reduce)

theorem execVaultReadComplete_keeps {k0 s : State} (hK : Keeps k0 s) : OutKeeps k0 (execVaultReadComplete s) := by
  unfold execVaultReadComplete
  repeat' first
    | with_reducible assumption
    | (with_reducible apply OutKeeps.next)
    | (with_reducible refine State.readVault_keeps2 ‹State.readVault _ _ = _› ?_)
    | (with_reducible apply State.latchEntry_keeps)
    | (with_reducible apply State.setFld_keeps)
    | (with_reducible apply State.modJsp_keeps)
    | (with_reducible apply State.out_keeps)
    | split

theorem execCtrClearCounter_keeps {k0 s : State} (hK : Keeps k0 s) (ofs : BitVec 26) : OutKeeps k0 (execCtrClearCounter ofs s) := by
  unfold execCtrClearCounter
  repeat' first
    | with_reducible assumption
    | (with_reducible apply OutKeeps.next)
    | (with_reducible apply State.bar0_keeps)
    | (with_reducible apply State.clearOne_keeps)
    | (intro _ _; beta_reduce)

theorem execCtrClearBlock_keeps {k0 s : State} (hK : Keeps k0 s) (ofs : BitVec 26) : OutKeeps k0 (execCtrClearBlock ofs s) := by
  unfold execCtrClearBlock
  repeat' first
    | with_reducible assumption
    | (with_reducible apply OutKeeps.next)
    | (with_reducible apply State.bar0_keeps)
    | (with_reducible apply State.clearBlock_keeps)
    | (intro _ _; beta_reduce)

theorem execKick_keeps {k0 s : State} (hK : Keeps k0 s) (k : Kick) : OutKeeps k0 (execKick k s) := by
  unfold execKick
  repeat' first
    | with_reducible assumption
    | (with_reducible apply OutKeeps.next)
    | (with_reducible apply State.count_keeps)
    | (with_reducible apply State.setFld_keeps)

theorem execSelect_keeps {k0 s : State} (hK : Keeps k0 s) (x : I3cIn) : OutKeeps k0 (execSelect x s) := by
  unfold execSelect
  repeat' first
    | with_reducible assumption
    | (with_reducible apply OutKeeps.next)
    | (with_reducible apply State.modJsp_keeps)
    | (with_reducible apply State.out_keeps)
    | fail_if_no_progress (with_reducible refine Keeps.upd ?_ (Nat.le_refl _) (Nat.le_refl _) rfl rfl rfl)
    | split

theorem execHead_keeps {k0 s : State} (hK : Keeps k0 s) : OutKeeps k0 (execHead s) := by
  unfold execHead
  repeat' first
    | with_reducible assumption
    | (with_reducible apply OutKeeps.next)
    | (with_reducible apply State.out_keeps)
    | split

theorem execTime_keeps {k0 s : State} (hK : Keeps k0 s) : OutKeeps k0 (execTime s) := by
  unfold execTime
  repeat' first
    | with_reducible assumption
    | (with_reducible apply OutKeeps.next)
    | (with_reducible apply State.syncSeconds_keeps)
    | (with_reducible apply State.out_keeps)
    | split

/-! ### PowerOps -/

theorem State.refreshSupplies_keeps {k0 s : State} (hK : Keeps k0 s) : Keeps k0 (State.refreshSupplies s) := by
  unfold State.refreshSupplies
  repeat' first
    | with_reducible assumption
    | (with_reducible apply State.setFld_keeps)
    | (with_reducible apply State.raise_keeps)
    | (with_reducible apply State.jasper_keeps)
    | (with_reducible apply State.each_keepsK)
    | (with_reducible apply State.when_keepsK)
    | (intro _ _ _; beta_reduce)
    | (intro _ _; beta_reduce)

theorem State.applyCode_keeps {k0 s : State} (hK : Keeps k0 s) (k : Nat) : Keeps k0 (State.applyCode s k) := by
  unfold State.applyCode
  repeat' first
    | with_reducible assumption
    | (with_reducible apply State.modPower_keeps)
    | (with_reducible apply State.setFld_keeps)
    | (intro x; clear_value x)
    | split
    | lift_lets -underBinder

theorem State.applyCodes_keeps {k0 s : State} (hK : Keeps k0 s) : Keeps k0 (State.applyCodes s) := by
  unfold State.applyCodes
  repeat' first
    | with_reducible assumption
    | (with_reducible apply State.applyCode_keeps)
    | (with_reducible apply State.refreshSupplies_keeps)
    | (with_reducible apply State.each_keepsK)
    | (intro _ _ _; beta_reduce)

theorem State.capStep_keeps {k0 s : State} (hK : Keeps k0 s) : Keeps k0 (State.capStep s) := by
  unfold State.capStep
  repeat' first
    | with_reducible assumption
    | (with_reducible apply State.modPower_keeps)
    | (with_reducible apply State.count_keeps)
    | (with_reducible apply State.applyCodes_keeps)
    | (with_reducible apply State.each_keepsK)
    | (intro x; clear_value x)
    | (intro _ _ _; beta_reduce)
    | split
    | lift_lets -underBinder

theorem State.thermalLower_keeps {k0 s : State} (hK : Keeps k0 s) (k : Nat) (nbr : Option Nat) : Keeps k0 (State.thermalLower s k nbr) := by
  unfold State.thermalLower
  repeat' first
    | with_reducible assumption
    | (with_reducible apply State.modPower_keeps)
    | (with_reducible apply State.count_keeps)
    | (with_reducible apply State.applyCode_keeps)
    | (with_reducible apply State.refreshSupplies_keeps)
    | (with_reducible apply State.raise_keeps)
    | (with_reducible apply State.jasper_keeps)
    | (intro x; refine Keeps.cut (a := k0) x ?_ (fun hx => ?_); rotate_left; clear_value x; rotate_right; subst x)
    | (intro x; clear_value x)
    | split
    | lift_lets -underBinder

theorem State.thermalRelease_keeps {k0 s : State} (hK : Keeps k0 s) : Keeps k0 (State.thermalRelease s) := by
  unfold State.thermalRelease
  repeat' first
    | with_reducible assumption
    | (with_reducible apply State.modPower_keeps)

theorem State.refreshThermN_keeps {k0 s : State} (hK : Keeps k0 s) : Keeps k0 (State.refreshThermN s) := by
  unfold State.refreshThermN
  repeat' first
    | with_reducible assumption
    | (with_reducible apply State.setFld_keeps)
    | (with_reducible apply State.out_keeps)
    | (intro x; clear_value x)
    | split
    | lift_lets -underBinder

theorem State.assertThermN_keeps {k0 s : State} (hK : Keeps k0 s) (cause : Nat) : Keeps k0 (State.assertThermN s cause) := by
  unfold State.assertThermN
  repeat' first
    | with_reducible assumption
    | (with_reducible apply State.modPower_keeps)
    | (with_reducible apply State.refreshThermN_keeps)

theorem State.releaseThermN_keeps {k0 s : State} (hK : Keeps k0 s) (cause : Nat) : Keeps k0 (State.releaseThermN s cause) := by
  unfold State.releaseThermN
  repeat' first
    | with_reducible assumption
    | (with_reducible apply State.modPower_keeps)
    | (with_reducible apply State.refreshThermN_keeps)

theorem State.showSensor_keeps {k0 s : State} (hK : Keeps k0 s) : Keeps k0 (State.showSensor s) := by
  unfold State.showSensor
  repeat' first
    | with_reducible assumption
    | (with_reducible apply State.setFld_keeps)

theorem State.refreshTol_keeps {k0 s : State} (hK : Keeps k0 s) : Keeps k0 (State.refreshTol s) := by
  unfold State.refreshTol
  repeat' first
    | with_reducible assumption
    | (with_reducible apply State.setFld_keeps)

theorem State.wakeForTol_keeps {k0 s : State} (hK : Keeps k0 s) : Keeps k0 (State.wakeForTol s) := by
  unfold State.wakeForTol
  repeat' first
    | with_reducible assumption
    | (with_reducible apply State.beginWake_keeps)
    | split

theorem State.dropCluster_keeps {b0 s : State} (h : Keeps b0 s) (k : Nat) : Keeps b0 (s.dropCluster k) := by
  have h1 := State.fresh_keeps h
  unfold State.dropCluster
  dsimp only
  generalize State.fresh s = q at h1 ⊢
  refine State.each_keepsK ?_ _ _ fun _ _ h => State.modCore_keeps h _ _ fun _ h => h
  exact { h1 with cores := fun p hp => h1.cores p (List.mem_filter.mp hp).1, clusters := fun p hp => h1.clusters p (NMap.mem_del hp).1 }

theorem State.clusterOff_keeps {k0 s : State} (hK : Keeps k0 s) (k : Nat) : Keeps k0 (State.clusterOff s k) := by
  unfold State.clusterOff
  repeat' first
    | with_reducible assumption
    | (with_reducible apply State.dropCluster_keeps)
    | (with_reducible apply State.setFld_keeps)

theorem State.loadTable_keeps {k0 s : State} (hK : Keeps k0 s) (id : Nat) (k : Nat) : Keeps k0 (State.loadTable s id k) := by
  unfold State.loadTable
  repeat' first
    | with_reducible assumption
    | (with_reducible apply State.modCluster_keeps)
    | (intro _ _; beta_reduce)
    | split

theorem State.clusterOn_keeps {k0 s : State} (hK : Keeps k0 s) (k : Nat) : Keeps k0 (State.clusterOn s k) := by
  unfold State.clusterOn
  repeat' first
    | with_reducible assumption
    | (with_reducible apply State.raise_keeps)
    | (with_reducible apply State.setFld_keeps)
    | (with_reducible apply State.loadTable_keeps)
    | (with_reducible apply State.each_keepsK)
    | (intro _ _ _; beta_reduce)
    | split

/-! ### Stacks -/

theorem execBurstRead_keeps {k0 s : State} (hK : Keeps k0 s) (spa : BitVec 40) (errs : BurstErrs) : OutKeeps k0 (execBurstRead spa errs s) := by
  unfold execBurstRead
  repeat' first
    | with_reducible assumption
    | (with_reducible apply OutKeeps.next)
    | exact OutKeeps.fault _ _
    | (with_reducible apply State.readBurst_keeps)
    | (with_reducible apply State.poisonTile_keeps)
    | (with_reducible apply State.actOnFault_keeps)
    | fail_if_no_progress (with_reducible refine Keeps.upd ?_ (Nat.le_refl _) (Nat.le_refl _) rfl rfl rfl)
    | split

theorem execBurstWrite_keeps {k0 s : State} (hK : Keeps k0 s) (spa : BitVec 40) (data : List (BitVec 8)) : OutKeeps k0 (execBurstWrite spa data s) := by
  unfold execBurstWrite
  repeat' first
    | with_reducible assumption
    | (with_reducible apply OutKeeps.next)
    | exact OutKeeps.fault _ _
    | (with_reducible apply State.writeSpan_keeps)
    | (with_reducible apply State.noteRewrite_keeps)
    | (with_reducible apply State.actOnFault_keeps)
    | split

theorem execScrub_keeps {k0 s : State} (hK : Keeps k0 s) (spa : BitVec 40) (errs : BurstErrs) : OutKeeps k0 (execScrub spa errs s) := by
  unfold execScrub
  repeat' first
    | with_reducible assumption
    | (with_reducible apply OutKeeps.next)
    | exact OutKeeps.fault _ _
    | (with_reducible apply State.ask_keeps)
    | (with_reducible apply State.readBurst_keeps)
    | (with_reducible apply State.writeBurst_keeps)
    | (with_reducible apply State.poisonTile_keeps)
    | (with_reducible apply State.count_keeps)
    | (with_reducible apply State.actOnFault_keeps)
    | (intro x; refine Keeps.cut (a := k0) x ?_ (fun hx => ?_); rotate_left; clear_value x; rotate_right; subst x)
    | (intro x; refine Keeps.cut2 (a := k0) x ?_ (fun hx => ?_); rotate_left; clear_value x; rotate_right; subst x)
    | (intro x; clear_value x)
    | split
    | lift_lets -underBinder

theorem execRefreshCommand_keeps {k0 s : State} (hK : Keeps k0 s) (ch : ChanId) (bank : Fin 16) : OutKeeps k0 (execRefreshCommand ch bank s) := by
  unfold execRefreshCommand
  repeat' first
    | with_reducible assumption
    | (with_reducible apply OutKeeps.next)
    | (with_reducible apply State.modChan_keeps)
    | split

theorem execRecentre_keeps {k0 s : State} (hK : Keeps k0 s) (ch : ChanId) (eyes : List LaneEye) : OutKeeps k0 (execRecentre ch eyes s) := by
  unfold execRecentre
  repeat' first
    | with_reducible assumption
    | (with_reducible apply OutKeeps.next)
    | (with_reducible apply State.modChan_keeps)
    | (with_reducible apply State.markLane_keeps)
    | (with_reducible apply State.actOnFault_keeps)
    | (with_reducible apply State.each_keepsK)
    | (intro _ _ _; beta_reduce)
    | split

theorem execRegulatorEpoch_keeps {k0 s : State} (hK : Keeps k0 s) (st : StackId) (reqs : List RegReq) : OutKeeps k0 (execRegulatorEpoch st reqs s) := by
  unfold execRegulatorEpoch
  repeat' first
    | with_reducible assumption
    | (with_reducible apply OutKeeps.next)
    | (with_reducible apply State.count_keeps)
    | (with_reducible apply State.each_keepsK)
    | (with_reducible apply State.when_keepsK)
    | fail_if_no_progress (with_reducible refine Keeps.upd ?_ (Nat.le_refl _) (Nat.le_refl _) rfl rfl rfl)
    | (intro _ _ _; beta_reduce)
    | (intro _ _; beta_reduce)
    | split

theorem State.capApply_keeps {k0 s : State} (hK : Keeps k0 s) (st : Nat) : Keeps k0 (State.capApply s st) := by
  unfold State.capApply
  repeat' first
    | with_reducible assumption
    | (with_reducible apply State.setFld_keeps)
    | (with_reducible apply State.raise_keeps)
    | (with_reducible apply State.modStack_keeps)
    | (with_reducible apply State.tell_keeps)

theorem State.capsDue_keeps {k0 s : State} (hK : Keeps k0 s) : Keeps k0 (State.capsDue s) := by
  unfold State.capsDue
  repeat' first
    | with_reducible assumption
    | (with_reducible apply State.capApply_keeps)
    | (with_reducible apply State.each_keepsK)
    | (intro _ _ _; beta_reduce)

theorem State.setHot_keeps {k0 s : State} (hK : Keeps k0 s) (st : Nat) (hot : Bool) : Keeps k0 (State.setHot s st hot) := by
  unfold State.setHot
  repeat' first
    | with_reducible assumption
    | (with_reducible apply State.setFld_keeps)
    | (with_reducible apply State.modStack_keeps)
    | (with_reducible apply State.each_keepsK)
    | (intro _ _ _; beta_reduce)
    | split

theorem State.stackWarns_keeps {k0 s : State} (hK : Keeps k0 s) (st : Nat) (t : Nat) : Keeps k0 (State.stackWarns s st t) := by
  unfold State.stackWarns
  repeat' first
    | with_reducible assumption
    | (with_reducible apply State.raise_keeps)
    | (with_reducible apply State.count_keeps)
    | (with_reducible apply State.jasper_keeps)
    | (with_reducible apply State.postAll_keeps)
    | (with_reducible apply State.assertThermN_keeps)
    | (with_reducible apply State.modStack_keeps)
    | (with_reducible apply State.capApply_keeps)
    | (with_reducible apply State.when_keepsK)
    | (intro x; refine Keeps.cut (a := k0) x ?_ (fun hx => ?_); rotate_left; clear_value x; rotate_right; subst x)
    | (intro _ _; beta_reduce)
    | split
    | lift_lets -underBinder

theorem execStackTempSample_keeps {k0 s : State} (hK : Keeps k0 s) (st : StackId) (temps : List (BitVec 11)) : OutKeeps k0 (execStackTempSample st temps s) := by
  unfold execStackTempSample
  repeat' first
    | with_reducible assumption
    | (with_reducible apply OutKeeps.next)
    | (with_reducible apply State.setFld_keeps)
    | (with_reducible apply State.modStack_keeps)
    | (with_reducible apply State.maxRc_keeps)
    | (with_reducible apply State.setHot_keeps)
    | (with_reducible apply State.stackWarns_keeps)
    | (with_reducible apply State.jasper_keeps)
    | (with_reducible apply State.releaseThermN_keeps)
    | (with_reducible apply State.raise_keeps)
    | (with_reducible apply State.count_keeps)
    | (with_reducible apply State.stackState_keeps)
    | (with_reducible apply State.assertThermN_keeps)
    | (with_reducible apply State.actOnFault_keeps)
    | fail_if_no_progress (with_reducible refine Keeps.upd ?_ (Nat.le_refl _) (Nat.le_refl _) rfl rfl rfl)
    | (intro (x : BootSt); subst x)
    | (intro x; refine Keeps.cut (a := k0) x ?_ (fun hx => ?_); rotate_left; clear_value x; rotate_right; subst x)
    | (intro x; clear_value x)
    | split
    | lift_lets -underBinder

theorem execThermalCapApply_keeps {k0 s : State} (hK : Keeps k0 s) (st : StackId) : OutKeeps k0 (execThermalCapApply st s) := by
  unfold execThermalCapApply
  repeat' first
    | with_reducible assumption
    | (with_reducible apply OutKeeps.next)
    | (with_reducible apply State.capApply_keeps)
    | split

theorem State.clearWithhold_keeps {k0 s : State} (hK : Keeps k0 s) : Keeps k0 (State.clearWithhold s) := by
  unfold State.clearWithhold
  repeat' first
    | with_reducible assumption
    | (with_reducible apply State.setFld_keeps)
    | (with_reducible apply State.issueDone_keeps)
    | (with_reducible apply State.each_keepsK)
    | (intro x; refine Keeps.cut (a := k0) x ?_ (fun hx => ?_); rotate_left; clear_value x; rotate_right; subst x)
    | (intro _ _ _; beta_reduce)
    | split
    | lift_lets -underBinder

theorem execWithholdAutoExpiry_keeps {k0 s : State} (hK : Keeps k0 s) (st : StackId) : OutKeeps k0 (execWithholdAutoExpiry st s) := by
  unfold execWithholdAutoExpiry
  repeat' first
    | with_reducible assumption
    | (with_reducible apply OutKeeps.next)
    | (with_reducible apply State.clockTo_keeps)
    | (with_reducible apply State.jasper_keeps)
    | (with_reducible apply State.clearWithhold_keeps)
    | split

theorem execStackTrainingDone_keeps {b0 s : State} (h : Keeps b0 s) (width height : BitVec 8) (eyes : List LaneEye) :
    OutKeeps b0 (execStackTrainingDone width height eyes s) := by
  unfold execStackTrainingDone
  refine OutKeeps.next ?_
  dsimp only
  split
  · exact h
  · generalize hu : State.clockTo _ _ = u
    have h1 : Keeps b0 u := hu ▸ State.clockTo_keeps h _
    generalize List.map _ (List.flatMap _ _) = res
    generalize hv : State.each _ _ _ = v
    have hv : Keeps b0 v := by
      rw [← hv]
      refine State.each_keepsK (State.each_keepsK (State.each_keepsK (s := { u with regs := _, mem := [], chk := [], chans := [] })
        { h1 with mem := Mem.wf_nil } _ _ fun _ _ h => State.stackState_keeps (State.setFld_keeps h _ _) _ _)
        _ _ fun _ _ h => State.recountFrames_keeps h _) _ _ fun _ _ h => State.jasper_keeps h _ _ _ _
    repeat' first
      | with_reducible exact hv
      | with_reducible exact State.setFld_keeps (State.setFld_keeps hv _ _) _ _
      | with_reducible exact State.endStart_keeps (State.setFld_keeps hv _ _) _ _
      | with_reducible exact State.actOnFault_keeps (Keeps.upd hv (Nat.le_refl _) (Nat.le_refl _) rfl rfl rfl)
      | split

theorem State.writeChInj_keeps {k0 s : State} (hK : Keeps k0 s) (ch : Nat) (w : BitVec 32) : Keeps k0 (State.writeChInj s ch w) := by
  unfold State.writeChInj
  repeat' first
    | with_reducible assumption
    | (with_reducible apply State.jasper_keeps)
    | (with_reducible apply State.wr_keeps)
    | (with_reducible apply State.modChan_keeps)
    | split

theorem execChInjArm_keeps {k0 s : State} (hK : Keeps k0 s) (ch : ChanId) (w : BitVec 32) : OutKeeps k0 (execChInjArm ch w s) := by
  unfold execChInjArm
  repeat' first
    | with_reducible assumption
    | (with_reducible apply OutKeeps.next)
    | (with_reducible apply State.bar0_keeps)
    | (with_reducible apply State.writeChInj_keeps)
    | (intro _ _; beta_reduce)

end Sys2Proof.Machine
end

