-- ==== Sys2Proof/Laws/KeepsFlash.lean ====
section
/-! SUPPORT. What the flash and the host commands keep (see `Keeps`): one lemma for each operation and each command. -/

namespace Sys2Proof.Machine

/-! ### Install -/

theorem State.dropBands_keeps {k0 s : State} (hK : Keeps k0 s) : Keeps k0 (State.dropBands s) := by
  unfold State.dropBands
  repeat' first
    | with_reducible assumption
    | (with_reducible apply State.modImg_keeps)
    | (with_reducible apply State.modFlash_keeps)

theorem State.formBand_keeps {b0 s t0 : State} {b : Nat} (he0 : s.formBand b = some t0) (h : Keeps b0 s) : Keeps b0 t0 := by
  unfold State.formBand at he0
  dsimp only at he0
  split at he0
  · injection he0 with he0
    exact he0 ▸ State.journal_keeps (State.modImg_keeps h _) _
  · exact absurd he0 (by simp)

theorem State.showEnc_keeps {k0 s : State} (hK : Keeps k0 s) (m : Nat) (busy : Bool) (pass : Bool) (object : Nat) (seg : Nat) : Keeps k0 (State.showEnc s m busy pass object seg) := by
  unfold State.showEnc
  repeat' first
    | with_reducible assumption
    | (with_reducible apply State.setFld_keeps)

theorem State.handOut_keeps {k0 s : State} (hK : Keeps k0 s) : Keeps k0 (State.handOut s) := by
  unfold State.handOut
  repeat' first
    | with_reducible assumption
    | (with_reducible apply State.modFlash_keeps)
    | (with_reducible apply State.showEnc_keeps)
    | (with_reducible apply State.each_keepsK)
    | (intro _ _ _; beta_reduce)
    | split

theorem State.allocTable_keeps {k0 s : State} (hK : Keeps k0 s) (id : Nat) (lens : List Nat) : Keeps k0 (State.allocTable s id lens) := by
  unfold State.allocTable
  repeat' first
    | with_reducible assumption
    | (with_reducible apply State.setFld_keeps)
    | (with_reducible apply State.count_keeps)
    | (with_reducible apply State.modImg_keeps)
    | (with_reducible apply State.journal_keeps)

theorem State.takeTable_keeps {k0 s : State} (hK : Keeps k0 s) (m : Nat) (seg : Nat) (id : Nat) (data : List Byte) : Keeps k0 (State.takeTable s m seg id data) := by
  unfold State.takeTable
  repeat' first
    | with_reducible assumption
    | (with_reducible apply State.modFlash_keeps)
    | (with_reducible apply State.setFld_keeps)

theorem State.receiveSeg_keeps {k0 s : State} (hK : Keeps k0 s) (i : Install) (m : Nat) (seg : Nat) : Keeps k0 (State.receiveSeg s i m seg) := by
  unfold State.receiveSeg
  repeat' first
    | with_reducible assumption
    | (with_reducible apply State.count_keeps)
    | (with_reducible apply State.takeTable_keeps)
    | (with_reducible apply State.allocTable_keeps)
    | (with_reducible apply State.when_keepsK)
    | (intro x; refine Keeps.cut (a := k0) x ?_ (fun hx => ?_); rotate_left; clear_value x; rotate_right; subst x)
    | (intro x; clear_value x)
    | (intro _ _; beta_reduce)
    | split
    | lift_lets -underBinder

theorem State.modInst_keeps {k0 s : State} (hK : Keeps k0 s) (f : Install → Install) : Keeps k0 (State.modInst s f) := by
  unfold State.modInst
  repeat' first
    | with_reducible assumption
    | (with_reducible apply State.modFlash_keeps)

theorem State.endInstall_keeps {k0 s : State} (hK : Keeps k0 s) (i : Install) : Keeps k0 (State.endInstall s i) := by
  unfold State.endInstall
  repeat' first
    | with_reducible assumption
    | (with_reducible apply State.modFlash_keeps)
    | (with_reducible apply State.showEnc_keeps)
    | (with_reducible apply State.freeFrames_keeps)
    | (with_reducible apply State.settleTable_keeps)
    | (with_reducible apply State.each_keepsK)
    | (intro _ _ _; beta_reduce)

theorem State.abortInst_keeps {k0 s : State} (hK : Keeps k0 s) (st : Status) (cmds : List CmdRef) : Keeps k0 (State.abortInst s st cmds) := by
  unfold State.abortInst
  repeat' first
    | with_reducible assumption
    | (with_reducible apply State.completeCmd_keeps)
    | (with_reducible apply State.endInstall_keeps)
    | (with_reducible apply State.dropObject_keeps)
    | (with_reducible apply State.journal_keeps)
    | (with_reducible apply State.modFlash_keeps)
    | (with_reducible apply State.dropBands_keeps)
    | (with_reducible apply State.refreshOnyx_keeps)
    | (with_reducible apply State.each_keepsK)
    | (intro _ _ _; beta_reduce)
    | split

theorem State.installPump_keeps {k0 s : State} (hK : Keeps k0 s) : Keeps k0 (State.installPump s) := by
  unfold State.installPump
  repeat' first
    | with_reducible assumption
    | (with_reducible apply State.modInst_keeps)
    | (with_reducible refine State.formBand_keeps ‹State.formBand _ _ = _› ?_)
    | (with_reducible apply State.refreshOnyx_keeps)
    | (with_reducible apply State.abortInst_keeps)
    | (with_reducible apply State.journal_keeps)
    | (intro x; refine Keeps.cut (a := k0) x ?_ (fun hx => ?_); rotate_left; clear_value x; rotate_right; subst x)
    | (intro x; clear_value x)
    | split
    | lift_lets -underBinder

theorem State.codeSeg_keeps {k0 s : State} (hK : Keeps k0 s) (i : Install) (m : Nat) (seg : Nat) (id : Nat) (gen : Nat) (data : List Byte) : Keeps k0 (State.codeSeg s i m seg id gen data) := by
  unfold State.codeSeg
  repeat' first
    | with_reducible assumption
    | (with_reducible apply State.count_keeps)
    | (with_reducible apply State.showEnc_keeps)
    | (with_reducible apply State.modInst_keeps)
    | (with_reducible apply State.handOut_keeps)
    | (with_reducible apply State.installPump_keeps)

theorem State.beginObject_keeps {k0 s : State} (hK : Keeps k0 s) : Keeps k0 (State.beginObject s) := by
  unfold State.beginObject
  repeat' first
    | with_reducible assumption
    | (with_reducible apply State.fresh_keeps)
    | (with_reducible apply State.modObj_keeps)
    | (with_reducible apply State.modInst_keeps)
    | (with_reducible apply State.journal_keeps)
    | split

theorem State.makeLive_keeps {k0 s : State} (hK : Keeps k0 s) (o : Nat) : Keeps k0 (State.makeLive s o) := by
  unfold State.makeLive
  repeat' first
    | with_reducible assumption
    | (with_reducible apply State.modObj_keeps)
    | (with_reducible apply State.startJob_keeps)
    | (with_reducible apply State.when_keepsK)
    | (intro _ _; beta_reduce)
    | split

theorem State.takeSystem_keeps {k0 s : State} (hK : Keeps k0 s) : Keeps k0 (State.takeSystem s) := by
  unfold State.takeSystem
  repeat' first
    | with_reducible assumption
    | (with_reducible apply State.takeSpread_keeps)

theorem State.indexFrames_keeps {k0 s : State} (hK : Keeps k0 s) (handle : Nat) (tiles : List (Nat × Nat × Nat)) : Keeps k0 (State.indexFrames s handle tiles) := by
  unfold State.indexFrames
  repeat' first
    | with_reducible assumption
    | (with_reducible apply State.takeSpread_keeps)
    | (with_reducible apply State.modFlash_keeps)
    | (with_reducible apply State.writeFrame_keeps)
    | (with_reducible apply State.each_keepsK)
    | (intro _ _ _; beta_reduce)

theorem State.commitInstall_keeps {k0 s : State} (hK : Keeps k0 s) (i : Install) : Keeps k0 (State.commitInstall s i) := by
  unfold State.commitInstall
  repeat' first
    | with_reducible assumption
    | (with_reducible apply State.refTable_keeps)
    | (with_reducible apply State.setFld_keeps)
    | (with_reducible apply State.endInstall_keeps)
    | (with_reducible apply State.modImg_keeps)
    | (with_reducible apply State.indexFrames_keeps)
    | (with_reducible apply State.modObj_keeps)
    | (with_reducible apply State.makeLive_keeps)
    | (with_reducible apply State.completeCmd_keeps)
    | (with_reducible apply State.each_keepsK)
    | (intro _ _ _; beta_reduce)
    | split

/-! ### Onyx -/

theorem State.failSector_keeps {k0 s : State} (hK : Keeps k0 s) (handle : Nat) (sector : Nat) : Keeps k0 (State.failSector s handle sector) := by
  unfold State.failSector
  repeat' first
    | with_reducible assumption
    | (with_reducible apply State.failTile_keeps)
    | (with_reducible apply State.substitute_keeps)
    | (with_reducible apply State.when_keepsK)
    | (intro x; clear_value x)
    | (intro _ _; beta_reduce)
    | split
    | lift_lets -underBinder

theorem State.readBack_keeps {k0 s : State} (hK : Keeps k0 s) (lane : Nat) (block : Nat) (outs : List CodeRead) : Keeps k0 (State.readBack s lane block outs) := by
  unfold State.readBack
  repeat' first
    | with_reducible assumption
    | (with_reducible apply State.pageRead_keeps)
    | (with_reducible apply State.modFlash_keeps)
    | (with_reducible apply State.retireBlock_keeps)
    | (with_reducible apply State.refreshOnyx_keeps)
    | (with_reducible apply State.modImg_keeps)
    | split

theorem execFlashPageRead_keeps {k0 s : State} (hK : Keeps k0 s) (lane : LaneId) (block : BlockId) (page : PageId) (outs : List CodeRead) (us : BitVec 16) : OutKeeps k0 (execFlashPageRead lane block page outs us s) := by
  unfold execFlashPageRead
  repeat' first
    | with_reducible assumption
    | (with_reducible apply OutKeeps.next)
    | (with_reducible apply State.actOnFault_keeps)
    | (with_reducible apply State.readBack_keeps)
    | (with_reducible apply State.readPage_keeps)
    | (with_reducible apply State.failSector_keeps)
    | (with_reducible apply State.advanceJobs_keeps)
    | (with_reducible apply State.each_keepsK)
    | (intro _ _ _; beta_reduce)
    | split

theorem State.newPass_keeps {k0 s : State} (hK : Keeps k0 s) : Keeps k0 (State.newPass s) := by
  unfold State.newPass
  repeat' first
    | with_reducible assumption
    | (with_reducible apply State.modFlash_keeps)

theorem execPatrol_keeps {k0 s : State} (hK : Keeps k0 s) (lane : LaneId) (block : BlockId) (page : PageId) (outs : List CodeRead) (us : BitVec 16) : OutKeeps k0 (execPatrol lane block page outs us s) := by
  unfold execPatrol
  repeat' first
    | with_reducible assumption
    | (with_reducible apply OutKeeps.next)
    | (with_reducible apply State.newPass_keeps)
    | (with_reducible apply State.readPage_keeps)
    | (with_reducible apply State.modFlash_keeps)
    | (with_reducible apply State.readSysPage_keeps)
    | (with_reducible apply State.when_keepsK)
    | (intro x; refine Keeps.cut (a := k0) x ?_ (fun hx => ?_); rotate_left; clear_value x; rotate_right; subst x)
    | (intro x; clear_value x)
    | split
    | lift_lets -underBinder

theorem State.startPatrol_keeps {k0 s : State} (hK : Keeps k0 s) : Keeps k0 (State.startPatrol s) := by
  unfold State.startPatrol
  repeat' first
    | with_reducible assumption
    | (with_reducible apply State.newPass_keeps)
    | split

theorem execPatrolStart_keeps {k0 s : State} (hK : Keeps k0 s) : OutKeeps k0 (execPatrolStart s) := by
  unfold execPatrolStart
  repeat' first
    | with_reducible assumption
    | (with_reducible apply OutKeeps.next)
    | (with_reducible apply State.bar0_keeps)
    | (with_reducible apply State.startPatrol_keeps)

theorem State.vaultJournalled_keeps {k0 s : State} (hK : Keeps k0 s) : Keeps k0 (State.vaultJournalled s) := by
  unfold State.vaultJournalled
  repeat' first
    | with_reducible assumption
    | (with_reducible apply State.modJsp_keeps)
    | (with_reducible apply State.setFld_keeps)
    | (with_reducible apply State.count_keeps)
    | (intro x; refine Keeps.cut (a := k0) x ?_ (fun hx => ?_); rotate_left; clear_value x; rotate_right; subst x)
    | split
    | lift_lets -underBinder

theorem State.landRec_keeps {k0 s : State} (hK : Keeps k0 s) (epoch : BitVec 64) (r : JRec) : Keeps k0 (State.landRec s epoch r) := by
  unfold State.landRec
  repeat' first
    | with_reducible assumption
    | (with_reducible apply State.modImg_keeps)
    | (with_reducible apply State.modInst_keeps)
    | (with_reducible apply State.handOut_keeps)
    | (with_reducible apply State.installPump_keeps)
    | (with_reducible apply State.commitInstall_keeps)
    | (with_reducible apply State.modFlash_keeps)
    | (with_reducible apply State.completeCmd_keeps)
    | (with_reducible apply State.freeFrames_keeps)
    | (with_reducible apply State.each_keepsK)
    | (intro x; refine Keeps.cut (a := k0) x ?_ (fun hx => ?_); rotate_left; clear_value x; rotate_right; subst x)
    | (intro _ _ _; beta_reduce)
    | split
    | lift_lets -underBinder

theorem State.commitAt_keeps {k0 s : State} (hK : Keeps k0 s) (n : Nat) : Keeps k0 (State.commitAt s n) := by
  unfold State.commitAt
  repeat' first
    | with_reducible assumption
    | (with_reducible apply State.putSys_keeps)
    | (with_reducible apply State.modFlash_keeps)
    | (with_reducible apply State.count_keeps)
    | (with_reducible apply State.landRec_keeps)
    | (with_reducible apply State.vaultJournalled_keeps)
    | (with_reducible apply State.dropBands_keeps)
    | (with_reducible apply State.refreshOnyx_keeps)
    | (with_reducible apply State.each_keepsK)
    | (intro _ _ _; beta_reduce)
    | split

theorem State.commitHead_keeps {k0 s : State} (hK : Keeps k0 s) : Keeps k0 (State.commitHead s) := by
  unfold State.commitHead
  repeat' first
    | with_reducible assumption
    | (with_reducible apply State.commitAt_keeps)

theorem State.landCopyB_keeps {k0 s : State} (hK : Keeps k0 s) : Keeps k0 (State.landCopyB s) := by
  unfold State.landCopyB
  repeat' first
    | with_reducible assumption
    | (with_reducible apply State.putSys_keeps)
    | (with_reducible apply State.modFlash_keeps)
    | split

theorem State.flushJournal_keeps {k0 s : State} (hK : Keeps k0 s) : Keeps k0 (State.flushJournal s) := by
  unfold State.flushJournal
  repeat' first
    | with_reducible assumption
    | (with_reducible apply State.landCopyB_keeps)
    | (with_reducible apply State.commitHead_keeps)
    | (with_reducible apply State.each_keepsK)
    | (intro _ _ _; beta_reduce)

theorem State.commitNow_keeps {k0 s : State} (hK : Keeps k0 s) (recs : List JRec) : Keeps k0 (State.commitNow s recs) := by
  unfold State.commitNow
  repeat' first
    | with_reducible assumption
    | (with_reducible apply State.journal_keeps)
    | (with_reducible apply State.flushJournal_keeps)

theorem State.putCkpt_keeps {k0 s : State} (hK : Keeps k0 s) (set : Nat) (n : Nat) : Keeps k0 (State.putCkpt s set n) := by
  unfold State.putCkpt
  repeat' first
    | with_reducible assumption
    | (with_reducible apply State.fresh_keeps)
    | (with_reducible apply State.failSystem_keeps)
    | (with_reducible apply State.putSys_keeps)
    | (with_reducible apply State.each_keepsK)
    | (with_reducible apply State.when_keepsK)
    | (intro _ _ _; beta_reduce)
    | (intro _ _; beta_reduce)

theorem State.checkpointNow_keeps {k0 s : State} (hK : Keeps k0 s) : Keeps k0 (State.checkpointNow s) := by
  unfold State.checkpointNow
  repeat' first
    | with_reducible assumption
    | (with_reducible apply State.flushJournal_keeps)
    | (with_reducible apply State.eraseSet_keeps)
    | (with_reducible apply State.putCkpt_keeps)
    | (with_reducible apply State.commitNow_keeps)
    | (with_reducible apply State.landCopyB_keeps)
    | (with_reducible apply State.count_keeps)
    | (with_reducible apply State.putAnchor_keeps)
    | (with_reducible apply State.modFlash_keeps)
    | (with_reducible apply State.refreshOnyx_keeps)
    | (intro x; refine Keeps.cut (a := k0) x ?_ (fun hx => ?_); rotate_left; clear_value x; rotate_right; subst x)
    | (intro x; clear_value x)
    | split
    | lift_lets -underBinder

theorem State.askCheckpoint_keeps {k0 s : State} (hK : Keeps k0 s) : Keeps k0 (State.askCheckpoint s) := by
  unfold State.askCheckpoint
  repeat' first
    | with_reducible assumption
    | (with_reducible apply State.checkpointNow_keeps)
    | split

theorem execCheckpoint_keeps {k0 s : State} (hK : Keeps k0 s) : OutKeeps k0 (execCheckpoint s) := by
  unfold execCheckpoint
  repeat' first
    | with_reducible assumption
    | (with_reducible apply OutKeeps.next)
    | (with_reducible apply State.bar0_keeps)
    | (with_reducible apply State.askCheckpoint_keeps)

theorem State.journalProgram_keeps {k0 s : State} (hK : Keeps k0 s) (ok : Bool) (us : Nat) : Keeps k0 (State.journalProgram s ok us) := by
  unfold State.journalProgram
  repeat' first
    | with_reducible assumption
    | (with_reducible apply State.maxRc_keeps)
    | (with_reducible apply State.failSystem_keeps)
    | (with_reducible apply State.landCopyB_keeps)
    | (with_reducible apply State.commitAt_keeps)
    | (with_reducible apply State.modFlash_keeps)
    | (with_reducible apply State.checkpointNow_keeps)
    | (intro x; refine Keeps.cut (a := k0) x ?_ (fun hx => ?_); rotate_left; clear_value x; rotate_right; subst x)
    | (intro x; clear_value x)
    | split
    | lift_lets -underBinder

theorem execReadCounts_keeps {k0 s : State} (hK : Keeps k0 s) : OutKeeps k0 (execReadCounts s) := by
  unfold execReadCounts
  repeat' first
    | with_reducible assumption
    | (with_reducible apply OutKeeps.next)
    | (with_reducible apply State.clockTo_keeps)
    | (with_reducible apply State.modFlash_keeps)
    | (with_reducible apply State.journal_keeps)
    | (intro x; refine Keeps.cut (a := k0) x ?_ (fun hx => ?_); rotate_left; clear_value x; rotate_right; subst x)
    | (intro x; clear_value x)
    | split
    | lift_lets -underBinder

theorem State.copyPages_keeps {k0 s : State} (hK : Keeps k0 s) (lane : Nat) (old : Nat) (new : Nat) (pages : List (Nat × List CodeWord)) : Keeps k0 (State.copyPages s lane old new pages) := by
  unfold State.copyPages
  repeat' first
    | with_reducible assumption
    | (with_reducible apply State.readOwn_keeps)
    | (with_reducible apply State.putPage_keeps)
    | (with_reducible apply State.each_keepsK)
    | (intro _ _ _; beta_reduce)

theorem State.relocate_keeps {k0 s : State} (hK : Keeps k0 s) (lane : Nat) (old : Nat) (new : Nat) (band : Nat) : Keeps k0 (State.relocate s lane old new band) := by
  unfold State.relocate
  repeat' first
    | with_reducible assumption
    | (with_reducible apply State.copyPages_keeps)
    | (with_reducible apply State.modFlash_keeps)
    | (with_reducible apply State.commitNow_keeps)

theorem State.refreshSys_keeps {k0 s : State} (hK : Keeps k0 s) (lane : Nat) (block : Nat) (why : RefreshWhy) (fails : Nat) : Keeps k0 (State.refreshSys s lane block why fails) := by
  unfold State.refreshSys
  repeat' first
    | with_reducible assumption
    | (with_reducible apply State.failDests_keeps)
    | (with_reducible apply State.count_keeps)
    | (with_reducible apply State.moveSys_keeps)
    | (with_reducible apply State.modImg_keeps)
    | (with_reducible apply State.modFlash_keeps)
    | (intro x; refine Keeps.cut (a := k0) x ?_ (fun hx => ?_); rotate_left; clear_value x; rotate_right; subst x)
    | split
    | lift_lets -underBinder

theorem execBlockRefresh_keeps {k0 s : State} (hK : Keeps k0 s) (lane : LaneId) (m : BlockMove) : OutKeeps k0 (execBlockRefresh lane m s) := by
  unfold execBlockRefresh
  repeat' first
    | with_reducible assumption
    | (with_reducible apply OutKeeps.next)
    | (with_reducible apply State.failDests_keeps)
    | (with_reducible apply State.count_keeps)
    | (with_reducible apply State.relocate_keeps)
    | (with_reducible apply State.refreshSys_keeps)
    | (intro x; refine Keeps.cut (a := k0) x ?_ (fun hx => ?_); rotate_left; clear_value x; rotate_right; subst x)
    | split
    | lift_lets -underBinder

theorem execWearLevelMove_keeps {k0 s : State} (hK : Keeps k0 s) (m : LaneMove) : OutKeeps k0 (execWearLevelMove m s) := by
  unfold execWearLevelMove
  repeat' first
    | with_reducible assumption
    | (with_reducible apply OutKeeps.next)
    | (with_reducible apply State.failDests_keeps)
    | (with_reducible apply State.count_keeps)
    | (with_reducible apply State.relocate_keeps)
    | (intro x; refine Keeps.cut (a := k0) x ?_ (fun hx => ?_); rotate_left; clear_value x; rotate_right; subst x)
    | split
    | lift_lets -underBinder

theorem State.swapBlock_keeps {b0 s t0 : State} {lane old page band : Nat} (he0 : s.swapBlock lane old page band = some t0) (h : Keeps b0 s) :
    Keeps b0 t0 := by
  have hc := State.copyDest_keeps h lane
  unfold State.swapBlock at he0
  generalize State.copyDest s lane = q at hc he0
  obtain ⟨d, u⟩ := q
  cases d with
  | none => exact absurd he0 (by simp)
  | some new =>
    dsimp only at he0
    injection he0 with he0
    exact he0 ▸ State.refreshOnyx_keeps (State.retireBlock_keeps (State.commitNow_keeps (State.copyPages_keeps hc _ _ _ _) _) _ _ _)

theorem State.copyPage_keeps {b0 s : State} (h : Keeps b0 s) (fails : List Nat) (first : Bool) (i j : Nat) : Keeps b0 (s.copyPage fails first i j) := by
  have hs : ∀ (b : Bool) (f : Nat × Nat × Nat × Nat), Keeps b0 (s.when b fun s => let s := s.count (Ct.FCH_PROGRAM_FAILS f.1) 1; (s.swapBlock f.2.1 f.2.2.1 f.2.2.2 (j / s.geom.bandSectors)).getD s) :=
    fun b f => by
      refine State.when_keepsK h b _ fun t ht => ?_
      have hc := State.count_keeps ht (Ct.FCH_PROGRAM_FAILS f.1) 1
      dsimp only
      generalize State.count t _ _ = u at hc ⊢
      cases he : u.swapBlock f.2.1 f.2.2.1 f.2.2.2 (j / u.geom.bandSectors) with
      | none => exact hc
      | some v => exact State.swapBlock_keeps he hc
  unfold State.copyPage
  split
  · split
    · exact h
    · rename_i l2 b2 q2 _ _ _ _ _ _
      have hu := hs (first && fails.contains l2) (laneChan l2, l2, b2, q2)
      dsimp only at hu ⊢
      generalize State.when s _ _ = u at hu ⊢
      split
      · exact hu
      · exact State.putPage_keeps (State.readOwn_keeps hu _ _ _ _) _ _ _ _
  · exact h

theorem execCompaction_keeps {b0 s : State} (h : Keeps b0 s) : OutKeeps b0 (execCompaction s) := by
  have bind : ∀ (l : List Nat) (x : Option State), (∀ t, x = some t → Keeps b0 t) →
      ∀ t, l.foldl (fun (acc : Option State) b => acc.bind fun s => s.formBand b) x = some t → Keeps b0 t := by
    intro l
    induction l with
    | nil => exact fun _ h t ht => h t ht
    | cons b l ih =>
      intro x hx
      refine ih _ fun t ht => ?_
      obtain ⟨u, hu, hu2⟩ := Option.bind_eq_some_iff.mp ht
      exact State.formBand_keeps hu2 (hx u hu)
  unfold execCompaction
  refine OutKeeps.next ?_
  split
  · exact h
  · split
    · exact h
    · dsimp only
      split
      · exact h
      · rename_i he
        have h1 := bind _ _ (fun t ht => by injection ht with ht; exact ht ▸ h) _ he
        exact State.commitNow_keeps (State.count_keeps (Keeps.foldl _ _ (State.fresh_keeps h1) fun t x ht => State.copyPage_keeps ht _ _ _ _) _ _) _

theorem State.installSwap_keeps {k0 s : State} (hK : Keeps k0 s) (lane : Nat) (old : Nat) (page : Nat) (band : Nat) : Keeps k0 (State.installSwap s lane old page band) := by
  unfold State.installSwap
  repeat' first
    | with_reducible assumption
    | (with_reducible refine State.swapBlock_keeps ‹State.swapBlock _ _ _ _ _ = _› ?_)
    | (with_reducible apply State.retireBlock_keeps)
    | (with_reducible apply State.abortInst_keeps)
    | split

theorem State.installFail_keeps {k0 s : State} (hK : Keeps k0 s) (lane : Nat) (old : Nat) (page : Nat) (band : Nat) : Keeps k0 (State.installFail s lane old page band) := by
  unfold State.installFail
  repeat' first
    | with_reducible assumption
    | (with_reducible apply State.count_keeps)
    | (with_reducible apply State.installSwap_keeps)
    | (with_reducible apply State.retireBlock_keeps)
    | (intro x; refine Keeps.cut (a := k0) x ?_ (fun hx => ?_); rotate_left; clear_value x; rotate_right; subst x)
    | split
    | lift_lets -underBinder

theorem State.installProgram_keeps {k0 s : State} (hK : Keeps k0 s) (ok : Bool) (us : Nat) : Keeps k0 (State.installProgram s ok us) := by
  unfold State.installProgram
  repeat' first
    | with_reducible assumption
    | (with_reducible apply State.maxRc_keeps)
    | (with_reducible apply State.installSwap_keeps)
    | (with_reducible apply State.installFail_keeps)
    | (with_reducible apply State.putPage_keeps)
    | (with_reducible apply State.modInst_keeps)
    | (with_reducible apply State.installPump_keeps)
    | (intro x; refine Keeps.cut (a := k0) x ?_ (fun hx => ?_); rotate_left; clear_value x; rotate_right; subst x)
    | (intro x; clear_value x)
    | split
    | lift_lets -underBinder

theorem State.vaultProgram_keeps {k0 s : State} (hK : Keeps k0 s) (ok : Bool) (us : Nat) : Keeps k0 (State.vaultProgram s ok us) := by
  unfold State.vaultProgram
  repeat' first
    | with_reducible assumption
    | (with_reducible apply State.maxRc_keeps)
    | (with_reducible apply State.failSystem_keeps)
    | (with_reducible apply State.eraseSet_keeps)
    | (with_reducible apply State.modFlash_keeps)
    | (with_reducible apply State.putSys_keeps)
    | (with_reducible apply State.modJsp_keeps)
    | (with_reducible apply State.journal_keeps)
    | (with_reducible apply State.showSeqs_keeps)
    | (intro x; clear_value x)
    | split
    | lift_lets -underBinder

theorem execFlashProgramComplete_keeps {k0 s : State} (hK : Keeps k0 s) (k : FlashProg) (ok : Bool) (us : BitVec 16) : OutKeeps k0 (execFlashProgramComplete k ok us s) := by
  unfold execFlashProgramComplete
  repeat' first
    | with_reducible assumption
    | (with_reducible apply OutKeeps.next)
    | (with_reducible apply State.installProgram_keeps)
    | (with_reducible apply State.modFlash_keeps)
    | (with_reducible apply State.journalProgram_keeps)
    | (with_reducible apply State.vaultProgram_keeps)
    | split

theorem State.returnBands_keeps {k0 s : State} (hK : Keeps k0 s) : Keeps k0 (State.returnBands s) := by
  unfold State.returnBands
  repeat' first
    | with_reducible assumption
    | (with_reducible apply State.journal_keeps)
    | (with_reducible apply State.each_keepsK)
    | (intro _ _ _; beta_reduce)

theorem execFlashEraseComplete_keeps {k0 s : State} (hK : Keeps k0 s) (lane : LaneId) (block : BlockId) (ok : Bool) : OutKeeps k0 (execFlashEraseComplete lane block ok s) := by
  unfold execFlashEraseComplete
  repeat' first
    | with_reducible assumption
    | (with_reducible apply OutKeeps.next)
    | (with_reducible apply State.wipeBlock_keeps)
    | (with_reducible apply State.modFlash_keeps)
    | (with_reducible apply State.count_keeps)
    | (with_reducible apply State.retireBlock_keeps)
    | (with_reducible apply State.returnBands_keeps)
    | (with_reducible apply State.refreshOnyx_keeps)
    | (with_reducible apply State.modImg_keeps)
    | split

theorem execEncSegmentReceived_keeps {k0 s : State} (hK : Keeps k0 s) (m : DieId) : OutKeeps k0 (execEncSegmentReceived m s) := by
  unfold execEncSegmentReceived
  repeat' first
    | with_reducible assumption
    | (with_reducible apply OutKeeps.next)
    | (with_reducible apply State.receiveSeg_keeps)
    | split

theorem execEncSegmentCoded_keeps {k0 s : State} (hK : Keeps k0 s) (m : DieId) : OutKeeps k0 (execEncSegmentCoded m s) := by
  unfold execEncSegmentCoded
  repeat' first
    | with_reducible assumption
    | (with_reducible apply OutKeeps.next)
    | (with_reducible apply State.codeSeg_keeps)
    | split

theorem State.spreadTable_keeps {k0 s : State} (hK : Keeps k0 s) (id : Nat) : Keeps k0 (State.spreadTable s id) := by
  unfold State.spreadTable
  repeat' first
    | with_reducible assumption
    | (with_reducible apply State.modCluster_keeps)
    | (with_reducible apply State.each_keepsK)
    | (intro _ _ _; beta_reduce)
    | (intro _ _; beta_reduce)

theorem execTableLive_keeps {k0 s : State} (hK : Keeps k0 s) (id : Fin 64) : OutKeeps k0 (execTableLive id s) := by
  unfold execTableLive
  repeat' first
    | with_reducible assumption
    | (with_reducible apply OutKeeps.next)
    | (with_reducible apply State.setFld_keeps)
    | (with_reducible apply State.spreadTable_keeps)
    | (with_reducible apply State.recountTables_keeps)
    | (with_reducible apply State.settleTable_keeps)
    | split

/-! ### Mount -/

theorem State.showChan_keeps {k0 s : State} (hK : Keeps k0 s) (n : Nat) (ts : List TargetGeom) : Keeps k0 (State.showChan s n ts) := by
  unfold State.showChan
  repeat' first
    | with_reducible assumption
    | (with_reducible apply State.setFld_keeps)
    | split

theorem State.showChans_keeps {k0 s : State} (hK : Keeps k0 s) (d : Discovery) : Keeps k0 (State.showChans s d) := by
  unfold State.showChans
  repeat' first
    | with_reducible assumption
    | (with_reducible apply State.showChan_keeps)
    | (with_reducible apply Keeps.foldl)
    | (intro _ _ _; beta_reduce)

theorem State.discard_keeps {k0 s : State} (hK : Keeps k0 s) (h : Nat) (o : OnyxObj) : Keeps k0 (State.discard s h o) := by
  unfold State.discard
  repeat' first
    | with_reducible assumption
    | (with_reducible apply State.modImg_keeps)
    | (with_reducible apply State.raise_keeps)
    | (with_reducible apply State.count_keeps)
    | (with_reducible apply State.jasper_keeps)
    | (with_reducible apply State.postEvent_keeps)

theorem State.mountRead_keeps {k0 s : State} (hK : Keeps k0 s) (sec : Nat) : Keeps k0 (State.mountRead s sec) := by
  unfold State.mountRead
  repeat' first
    | with_reducible assumption
    | (with_reducible apply State.readOwn_keeps)
    | split

theorem State.mountSys_keeps {k0 s : State} (hK : Keeps k0 s) (spoilt : List Nat) (key : Nat) : Keeps k0 (State.mountSys s spoilt key) := by
  unfold State.mountSys
  repeat' first
    | with_reducible assumption
    | (with_reducible apply State.drawRead_keeps)
    | (with_reducible apply State.readSysPage_keeps)

theorem State.loadIndex_keeps {k0 s : State} (hK : Keeps k0 s) (h : Nat) (o : OnyxObj) : Keeps k0 (State.loadIndex s h o) := by
  unfold State.loadIndex
  repeat' first
    | with_reducible assumption
    | (with_reducible apply State.mountRead_keeps)
    | (with_reducible apply State.modImg_keeps)
    | (with_reducible apply State.each_keepsK)
    | (intro _ _ _; beta_reduce)

theorem State.reenter_keeps {k0 s : State} (hK : Keeps k0 s) (h : Nat) (o : OnyxObj) : Keeps k0 (State.reenter s h o) := by
  unfold State.reenter
  repeat' first
    | with_reducible assumption
    | (with_reducible apply State.takeSpread_keeps)
    | (with_reducible apply State.modPlace_keeps)
    | (with_reducible apply State.setFld_keeps)
    | (with_reducible apply State.recountObjs_keeps)
    | (with_reducible apply State.initDir_keeps)
    | (with_reducible apply State.indexFrames_keeps)

theorem State.restoreTable_keeps {k0 s : State} (hK : Keeps k0 s) (id : Nat) : Keeps k0 (State.restoreTable s id) := by
  unfold State.restoreTable
  repeat' first
    | with_reducible assumption
    | (with_reducible apply State.setFld_keeps)
    | (with_reducible apply State.spreadTable_keeps)
    | (with_reducible apply State.raise_keeps)
    | (with_reducible apply State.jasper_keeps)
    | (intro x; refine Keeps.cut (a := k0) x ?_ (fun hx => ?_); rotate_left; clear_value x; rotate_right; subst x)
    | (intro x; clear_value x)
    | split
    | lift_lets -underBinder

theorem State.lastPage_keeps {k0 s : State} (hK : Keeps k0 s) (last : List (LaneId × BlockId × List CodeRead)) (k : Nat) : Keeps k0 (State.lastPage s last k) := by
  unfold State.lastPage
  repeat' first
    | with_reducible assumption
    | (with_reducible apply State.readPage_keeps)
    | split

theorem State.mountFrom_keeps {k0 s : State} (hK : Keeps k0 s) (d : Discovery) (spoilt : List Nat) (a : Anchor) (img : OnyxImg) (cs : List Commit) : Keeps k0 (State.mountFrom s d spoilt a img cs) := by
  unfold State.mountFrom
  repeat' first
    | with_reducible assumption
    | (with_reducible apply State.modFlash_keeps)
    | (with_reducible apply State.discard_keeps)
    | (with_reducible apply State.modImg_keeps)
    | (with_reducible apply State.loadIndex_keeps)
    | (with_reducible apply State.reenter_keeps)
    | (with_reducible apply State.takeSystem_keeps)
    | (with_reducible apply State.restoreTable_keeps)
    | (with_reducible apply State.recountTables_keeps)
    | (with_reducible apply State.setFld_keeps)
    | (with_reducible apply State.mountSys_keeps)
    | (with_reducible apply State.countReads_keeps)
    | (with_reducible apply State.lastPage_keeps)
    | (with_reducible apply State.onyxSet_keeps)
    | (with_reducible apply State.refreshOnyx_keeps)
    | (with_reducible apply State.rebaseVault_keeps)
    | (with_reducible apply State.passVault_keeps)
    | (with_reducible apply State.resumeFlush_keeps)
    | (with_reducible apply State.recordDue_keeps)
    | (with_reducible apply State.startJob_keeps)
    | (with_reducible apply State.each_keepsK)
    | (with_reducible apply State.when_keepsK)
    | (intro _ _ _; beta_reduce)
    | (intro _ _; beta_reduce)

theorem State.mountOn_keeps {k0 s : State} (hK : Keeps k0 s) (d : Discovery) : Keeps k0 (State.mountOn s d) := by
  unfold State.mountOn
  repeat' first
    | with_reducible assumption
    | (with_reducible apply State.onyxSet_keeps)
    | (with_reducible apply State.setFld_keeps)
    | (with_reducible apply State.endStart_keeps)
    | (with_reducible apply State.mountFrom_keeps)
    | (intro x; clear_value x)
    | split
    | lift_lets -underBinder

theorem execMount_keeps {k0 s : State} (hK : Keeps k0 s) (d : Discovery) : OutKeeps k0 (execMount d s) := by
  unfold execMount
  repeat' first
    | with_reducible assumption
    | (with_reducible apply OutKeeps.next)
    | (with_reducible apply State.onyxSet_keeps)
    | (with_reducible apply State.showChans_keeps)
    | (with_reducible apply State.modFlash_keeps)
    | (with_reducible apply State.mountOn_keeps)
    | (with_reducible apply State.endStart_keeps)
    | split

theorem State.writeFormat_keeps {k0 s : State} (hK : Keeps k0 s) (g : FlashGeom) (img : OnyxImg) (n : Nat) : Keeps k0 (State.writeFormat s g img n) := by
  unfold State.writeFormat
  repeat' first
    | with_reducible assumption
    | (with_reducible apply State.putCkpt_keeps)
    | (with_reducible apply State.count_keeps)
    | (with_reducible apply State.putAnchor_keeps)
    | (with_reducible apply State.setFld_keeps)
    | (with_reducible apply State.each_keepsK)
    | fail_if_no_progress (with_reducible refine Keeps.upd ?_ (Nat.le_refl _) (Nat.le_refl _) rfl rfl rfl)
    | (intro _ _ _; beta_reduce)

theorem State.retireAtFormat_keeps {k0 s : State} (hK : Keeps k0 s) (g : FlashGeom) (old : OnyxImg) (img : OnyxImg) (fails : List Nat) : Keeps k0 (State.retireAtFormat s g old img fails) := by
  unfold State.retireAtFormat
  repeat' first
    | with_reducible assumption
    | (with_reducible apply State.count_keeps)
    | (with_reducible apply State.jasper_keeps)
    | (with_reducible apply State.each_keepsK)
    | (intro _ _ _; beta_reduce)

theorem State.formatEnds_keeps {k0 s : State} (hK : Keeps k0 s) (ok : Bool) : Keeps k0 (State.formatEnds s ok) := by
  unfold State.formatEnds
  repeat' first
    | with_reducible assumption
    | (with_reducible apply State.onyxSet_keeps)
    | (with_reducible apply State.refreshOnyx_keeps)
    | (with_reducible apply State.rebaseVault_keeps)
    | (with_reducible apply State.passVault_keeps)
    | (with_reducible apply State.resumeFlush_keeps)
    | (with_reducible apply State.recordDue_keeps)
    | (with_reducible apply State.setFld_keeps)
    | (with_reducible apply State.endStart_keeps)
    | (with_reducible apply State.when_keepsK)
    | (intro _ _; beta_reduce)
    | split

theorem State.formatFlash_keeps {k0 s : State} (hK : Keeps k0 s) (d : Discovery) (bad : List Nat) (fails : List Nat) : Keeps k0 (State.formatFlash s d bad fails) := by
  unfold State.formatFlash
  repeat' first
    | with_reducible assumption
    | (with_reducible apply State.notIdle_keeps)
    | (with_reducible apply State.abortInst_keeps)
    | (with_reducible apply State.flushJournal_keeps)
    | (with_reducible apply State.onyxSet_keeps)
    | (with_reducible apply State.showChans_keeps)
    | (with_reducible apply State.formatEnds_keeps)
    | (with_reducible apply State.count_keeps)
    | (with_reducible apply State.retireAtFormat_keeps)
    | (with_reducible apply State.freeFrames_keeps)
    | (with_reducible apply State.writeFormat_keeps)
    | (with_reducible apply State.takeSystem_keeps)
    | (with_reducible apply State.recountTables_keeps)
    | (with_reducible apply State.modFlash_keeps)
    | (with_reducible apply State.each_keepsK)
    | (with_reducible apply State.when_keepsK)
    | (intro x; refine Keeps.cut (a := k0) x ?_ (fun hx => ?_); rotate_left; clear_value x; rotate_right; subst x)
    | (intro x; clear_value x)
    | (intro _ _ _; beta_reduce)
    | split
    | lift_lets -underBinder

theorem execFormat_keeps {k0 s : State} (hK : Keeps k0 s) (d : Discovery) (m : FormatIn) : OutKeeps k0 (execFormat d m s) := by
  unfold execFormat
  repeat' first
    | with_reducible assumption
    | (with_reducible apply OutKeeps.next)
    | (with_reducible apply State.bar0_keeps)
    | (with_reducible apply State.formatFlash_keeps)
    | (intro _ _; beta_reduce)

/-! ### Sessions -/

theorem State.refuse_keeps {k0 s : State} (hK : Keeps k0 s) (st : Status) : Keeps k0 (State.refuse s st).2 := by
  unfold State.refuse
  repeat' first
    | with_reducible assumption
theorem State.placeObj_keeps {k0 s : State} (hK : Keeps k0 s) (o : Nat) (pol : Policy) (cls : Nat) (die : Nat) (share : Option (BitVec 16)) (ref : CmdRef) (wait : Bool) : Keeps k0 (State.placeObj s o pol cls die share ref wait).2 := by
  unfold State.placeObj
  repeat' first
    | with_reducible assumption
    | (with_reducible apply State.refuse_keeps)
    | (with_reducible apply State.modObj_keeps)
    | (with_reducible apply State.startJob_keeps)
    | (intro x; refine Keeps.cut (a := k0) x ?_ (fun hx => ?_); rotate_left; clear_value x; rotate_right; subst x)
    | (intro x; clear_value x)
    | split
    | lift_lets -underBinder
theorem State.recountSess_keeps {k0 s : State} (hK : Keeps k0 s) : Keeps k0 (State.recountSess s) := by
  unfold State.recountSess
  repeat' first
    | with_reducible assumption
    | (with_reducible apply State.setFld_keeps)

theorem State.setSession_keeps {k0 s : State} (hK : Keeps k0 s) (i : Nat) (x : Session) : Keeps k0 (State.setSession s i x) := by
  unfold State.setSession
  repeat' first
    | with_reducible assumption
    | (with_reducible apply State.modHost_keeps)
    | (with_reducible apply State.recountSess_keeps)

theorem State.journalToken_keeps {k0 s : State} (hK : Keeps k0 s) (x : Session) (p : Nat) : Keeps k0 (State.journalToken s x p).2 := by
  unfold State.journalToken
  repeat' first
    | with_reducible assumption
    | (with_reducible apply State.readTile_keeps)
    | split
theorem State.doOpen_keeps {k0 s : State} (hK : Keeps k0 s) (p : Nat) (o : OpenOp) : Keeps k0 (State.doOpen s p o).2 := by
  unfold State.doOpen
  repeat' first
    | with_reducible assumption
    | (with_reducible apply State.refuse_keeps)
    | (with_reducible apply State.setSession_keeps)
    | (intro x; clear_value x)
    | (intro _ _ _; beta_reduce)
    | split
    | lift_lets -underBinder
theorem State.onSession_keeps {b0 s : State} (h : Keeps b0 s) (p i : Nat) (f : Session → CmdOut) (hf : ∀ x, Keeps b0 (f x).2) : Keeps b0 (s.onSession p i f).2 := by
  unfold State.onSession
  split
  · exact State.refuse_keeps h _
  · split
    · exact State.refuse_keeps h _
    · exact hf _

theorem State.doPrefill_keeps {k0 s : State} (hK : Keeps k0 s) (p : Nat) (i : Nat) (count : Nat) (addr : Nat) (tokens : List (BitVec 32)) (ref : CmdRef) : Keeps k0 (State.doPrefill s p i count addr tokens ref).2 := by
  unfold State.doPrefill
  repeat' first
    | with_reducible assumption
    | (with_reducible apply State.onSession_keeps)
    | (with_reducible apply State.refuse_keeps)
    | (with_reducible apply State.setSession_keeps)
    | (with_reducible apply State.modHost_keeps)
    | (intro (_ : Session))
    | split
theorem State.doDecode_keeps {k0 s : State} (hK : Keeps k0 s) (p : Nat) (i : Nat) (budget : Nat) (stop : BitVec 32) : Keeps k0 (State.doDecode s p i budget stop).2 := by
  unfold State.doDecode
  repeat' first
    | with_reducible assumption
    | (with_reducible apply State.onSession_keeps)
    | (with_reducible apply State.refuse_keeps)
    | (with_reducible apply State.setSession_keeps)
    | (intro (_ : Session))
    | split
theorem State.doParams_keeps {k0 s : State} (hK : Keeps k0 s) (p : Nat) (i : Nat) (o : SessParams) : Keeps k0 (State.doParams s p i o).2 := by
  unfold State.doParams
  repeat' first
    | with_reducible assumption
    | (with_reducible apply State.onSession_keeps)
    | (with_reducible apply State.refuse_keeps)
    | (with_reducible apply State.setSession_keeps)
    | (intro (_ : Session))
    | split
theorem State.doTruncate_keeps {k0 s : State} (hK : Keeps k0 s) (p : Nat) (i : Nat) (pos : Nat) : Keeps k0 (State.doTruncate s p i pos).2 := by
  unfold State.doTruncate
  repeat' first
    | with_reducible assumption
    | (with_reducible apply State.onSession_keeps)
    | (with_reducible apply State.refuse_keeps)
    | (with_reducible apply State.journalToken_keeps)
    | (with_reducible apply State.setSession_keeps)
    | (intro (_ : Session))
    | split
theorem State.doPark_keeps {k0 s : State} (hK : Keeps k0 s) (p : Nat) (i : Nat) (from_ : SessState) (to_ : SessState) (pol : Option Policy) (ref : CmdRef) (wait : Bool) : Keeps k0 (State.doPark s p i from_ to_ pol ref wait).2 := by
  unfold State.doPark
  repeat' first
    | with_reducible assumption
    | (with_reducible apply State.onSession_keeps)
    | (with_reducible apply State.refuse_keeps)
    | (with_reducible apply State.placeObj_keeps)
    | (with_reducible apply State.setSession_keeps)
    | (intro (_ : Session))
    | (intro x; refine Keeps.cut2 (a := k0) x ?_ (fun hx => ?_); rotate_left; clear_value x; rotate_right; subst x)
    | split
    | lift_lets -underBinder
theorem State.endSession_keeps {k0 s : State} (hK : Keeps k0 s) (i : Nat) : Keeps k0 (State.endSession s i) := by
  unfold State.endSession
  repeat' first
    | with_reducible assumption
    | (with_reducible apply State.modHost_keeps)
    | (with_reducible apply State.completeCmd_keeps)
    | (with_reducible apply State.recountSess_keeps)
    | (with_reducible apply State.each_keepsK)
    | (intro _ _ _; beta_reduce)
    | split

theorem State.doClose_keeps {k0 s : State} (hK : Keeps k0 s) (p : Nat) (i : Nat) : Keeps k0 (State.doClose s p i).2 := by
  unfold State.doClose
  repeat' first
    | with_reducible assumption
    | (with_reducible apply State.onSession_keeps)
    | (with_reducible apply State.endSession_keeps)
    | (intro (_ : Session))

/-! ### Objects -/

theorem State.newEntry_keeps {k0 s : State} (hK : Keeps k0 s) (x : Obj) : Keeps k0 (State.newEntry s x).2 := by
  unfold State.newEntry
  repeat' first
    | with_reducible assumption
    | (with_reducible apply State.fresh_keeps)
    | (with_reducible apply State.takeSpread_keeps)
    | (with_reducible apply State.modPlace_keeps)
    | (with_reducible apply State.recountObjs_keeps)
    | (with_reducible apply State.initDir_keeps)
theorem State.pinTile_keeps {b0 s : State} (h : Keeps b0 s) (o t : Nat) : Keeps b0 (s.pinTile o t) := by
  unfold State.pinTile
  generalize 65536 = n
  split
  · exact h
  · dsimp only
    split
    · exact h
    · rename_i f u he
      obtain ⟨d, -, hd⟩ := Option.bind_eq_some_iff.mp he
      with_reducible exact State.count_keeps (State.count_keeps (State.count_keeps (State.setDir_keeps (State.writeFrame_keeps (State.takeFrame_keeps hd h) _ _ _)
        _ _ _) _ _) _ _) _ _

theorem State.doCreate_keeps {k0 s : State} (hK : Keeps k0 s) (p : Nat) (o : CreateOp) : Keeps k0 (State.doCreate s p o).2 := by
  unfold State.doCreate
  repeat' first
    | with_reducible assumption
    | (with_reducible apply State.refuse_keeps)
    | (with_reducible apply State.newEntry_keeps)
    | (with_reducible apply State.pinTile_keeps)
    | (with_reducible apply State.each_keepsK)
    | (intro x; refine Keeps.cut2 (a := k0) x ?_ (fun hx => ?_); rotate_left; clear_value x; rotate_right; subst x)
    | (intro x; clear_value x)
    | (intro _ _ _; beta_reduce)
    | split
    | lift_lets -underBinder
theorem State.doPlacement_keeps {k0 s : State} (hK : Keeps k0 s) (p : Nat) (o : PlaceOp) (priv : Bool) (ref : CmdRef) (wait : Bool) : Keeps k0 (State.doPlacement s p o priv ref wait).2 := by
  unfold State.doPlacement
  repeat' first
    | with_reducible assumption
    | (with_reducible apply State.refuse_keeps)
    | (with_reducible apply State.placeObj_keeps)
    | split
theorem State.doDelete_keeps {k0 s : State} (hK : Keeps k0 s) (p : Nat) (o : Nat) (ref : CmdRef) : Keeps k0 (State.doDelete s p o ref).2 := by
  unfold State.doDelete
  repeat' first
    | with_reducible assumption
    | (with_reducible apply State.refuse_keeps)
    | (with_reducible apply State.modObj_keeps)
    | (with_reducible apply State.settleDeletes_keeps)
    | split
theorem State.doInstall_keeps {k0 s : State} (hK : Keeps k0 s) (p : Nat) (o : InstallOp) (ref : CmdRef) : Keeps k0 (State.doInstall s p o ref).2 := by
  unfold State.doInstall
  repeat' first
    | with_reducible assumption
    | (with_reducible apply State.refuse_keeps)
    | (with_reducible apply State.newEntry_keeps)
    | (with_reducible apply State.modFlash_keeps)
    | (with_reducible apply State.takeSpread_keeps)
    | (with_reducible apply State.beginObject_keeps)
    | (intro x; refine Keeps.cut (a := k0) x ?_ (fun hx => ?_); rotate_left; clear_value x; rotate_right; subst x)
    | (intro x; refine Keeps.cut2 (a := k0) x ?_ (fun hx => ?_); rotate_left; clear_value x; rotate_right; subst x)
    | (intro x; clear_value x)
    | split
    | lift_lets -underBinder
theorem State.doAbort_keeps {k0 s : State} (hK : Keeps k0 s) (p : Nat) (o : Nat) (ref : CmdRef) : Keeps k0 (State.doAbort s p o ref).2 := by
  unfold State.doAbort
  repeat' first
    | with_reducible assumption
    | (with_reducible apply State.refuse_keeps)
    | (with_reducible apply State.abortInst_keeps)
    | split
theorem State.doShrink_keeps {k0 s : State} (hK : Keeps k0 s) (p : Nat) (count : Nat) (ref : CmdRef) : Keeps k0 (State.doShrink s p count ref).2 := by
  unfold State.doShrink
  repeat' first
    | with_reducible assumption
    | (with_reducible apply State.refuse_keeps)
    | (with_reducible apply State.forceFld_keeps)
    | (with_reducible apply State.recountPages_keeps)
    | (with_reducible apply State.modPlace_keeps)
    | (with_reducible apply State.advanceJobs_keeps)
    | (intro x; clear_value x)
    | split
    | lift_lets -underBinder

/-! ### Commands -/

theorem State.queueError_keeps {k0 s : State} (hK : Keeps k0 s) (q : Nat) (cause : Nat) : Keeps k0 (State.queueError s q cause) := by
  unfold State.queueError
  repeat' first
    | with_reducible assumption
    | (with_reducible apply State.setFld_keeps)
    | (with_reducible apply State.raise_keeps)
    | (with_reducible apply State.count_keeps)
    | (with_reducible apply State.jasper_keeps)

theorem State.onDoorbell_keeps {b0 s : State} (h : Keeps b0 s) (fn q : Nat) (f : Nat → State → State)
    (hf : ∀ d t, Keeps b0 t → Keeps b0 (f d t)) : Keeps b0 (s.onDoorbell fn q f) := by
  have h1 := State.beginWake_keeps (State.notIdle_keeps h)
  unfold State.onDoorbell
  split
  · exact h
  · dsimp only
    split
    · exact hf _ _ h1
    · exact h1

theorem State.ringTail_keeps {k0 s : State} (hK : Keeps k0 s) (fn : Nat) (q : Nat) (v : Nat) : Keeps k0 (State.ringTail s fn q v) := by
  unfold State.ringTail
  repeat' first
    | with_reducible assumption
    | (with_reducible apply State.onDoorbell_keeps)
    | (with_reducible apply State.queueError_keeps)
    | (with_reducible apply State.modQueue_keeps)
    | (intro _ _ _; beta_reduce)
    | split

theorem State.ringHead_keeps {k0 s : State} (hK : Keeps k0 s) (fn : Nat) (q : Nat) (v : Nat) : Keeps k0 (State.ringHead s fn q v) := by
  unfold State.ringHead
  repeat' first
    | with_reducible assumption
    | (with_reducible apply State.onDoorbell_keeps)
    | (with_reducible apply State.modQueue_keeps)
    | (with_reducible apply State.drainCq_keeps)
    | (intro _ _ _; beta_reduce)
    | split

theorem execSqTail_keeps {k0 s : State} (hK : Keeps k0 s) (fn : FnId) (q : QueueId) (v : BitVec 16) : OutKeeps k0 (execSqTail fn q v s) := by
  unfold execSqTail
  repeat' first
    | with_reducible assumption
    | (with_reducible apply OutKeeps.next)
    | (with_reducible apply State.ringTail_keeps)

theorem execCqHead_keeps {k0 s : State} (hK : Keeps k0 s) (fn : FnId) (q : QueueId) (v : BitVec 16) : OutKeeps k0 (execCqHead fn q v s) := by
  unfold execCqHead
  repeat' first
    | with_reducible assumption
    | (with_reducible apply OutKeeps.next)
    | (with_reducible apply State.ringHead_keeps)

theorem State.startQueue_keeps {k0 s : State} (hK : Keeps k0 s) (q : Nat) : Keeps k0 (State.startQueue s q) := by
  unfold State.startQueue
  repeat' first
    | with_reducible assumption
    | (with_reducible apply State.wr_keeps)
    | (with_reducible apply State.modQueue_keeps)
    | (with_reducible apply State.setFld_keeps)
    | (with_reducible apply State.raise_keeps)

theorem State.stopQueue_keeps {k0 s : State} (hK : Keeps k0 s) (q : Nat) : Keeps k0 (State.stopQueue s q) := by
  unfold State.stopQueue
  repeat' first
    | with_reducible assumption
    | (with_reducible apply State.setFld_keeps)
    | (with_reducible apply State.modQueue_keeps)
    | (with_reducible apply State.modHost_keeps)
    | (with_reducible apply State.recountSess_keeps)

theorem State.writeQCfg_keeps {k0 s : State} (hK : Keeps k0 s) (q : Nat) (v : BitVec 32) : Keeps k0 (State.writeQCfg s q v) := by
  unfold State.writeQCfg
  repeat' first
    | with_reducible assumption
    | (with_reducible apply State.setFld_keeps)
    | (with_reducible apply State.startQueue_keeps)
    | (with_reducible apply State.stopQueue_keeps)
    | (with_reducible apply State.when_keepsK)
    | (intro x; refine Keeps.cut (a := k0) x ?_ (fun hx => ?_); rotate_left; clear_value x; rotate_right; subst x)
    | (intro x; clear_value x)
    | (intro _ _; beta_reduce)
    | split
    | lift_lets -underBinder

theorem execQCfgEnable_keeps {k0 s : State} (hK : Keeps k0 s) (q : QueueId) (v : BitVec 32) : OutKeeps k0 (execQCfgEnable q v s) := by
  unfold execQCfgEnable
  repeat' first
    | with_reducible assumption
    | (with_reducible apply OutKeeps.next)
    | (with_reducible apply State.bar0_keeps)
    | (with_reducible apply State.writeQCfg_keeps)
    | (intro _ _; beta_reduce)

theorem State.runCommand_keeps {b0 s : State} (h : Keeps b0 s) (x : CmdHdr) (f : Nat → CmdRef → State → CmdOut)
    (hf : ∀ p r t, Keeps b0 t → Keeps b0 (f p r t).2) : Keeps b0 (s.runCommand x f) := by
  have h1 := State.notIdle_keeps h
  unfold State.runCommand
  dsimp only
  generalize State.notIdle s = t at h1 ⊢
  repeat' first
    | with_reducible exact h1
    | with_reducible exact State.completeCmd_keeps h1 _ _ _
    | with_reducible exact State.completeCmd_keeps (hf _ _ _ h1) _ _ _
    | with_reducible exact hf _ _ _ h1
    | split

theorem State.stage_keeps {k0 s : State} (hK : Keeps k0 s) (h : CmdHdr) (e : BitVec 512) : Keeps k0 (State.stage s h e) := by
  unfold State.stage
  repeat' first
    | with_reducible assumption
    | (with_reducible apply State.completeCmd_keeps)
    | (with_reducible apply State.modHost_keeps)
    | (with_reducible apply State.recountSess_keeps)
    | (intro x; clear_value x)
    | split
    | lift_lets -underBinder

theorem State.takeCommand_keeps {b0 s : State} (h : Keeps b0 s) (x : CmdHdr) (e : BitVec 512) (f : Nat → CmdRef → State → CmdOut)
    (hf : ∀ p r t, Keeps b0 t → Keeps b0 (f p r t).2) : Keeps b0 (s.takeCommand x e f) := by
  unfold State.takeCommand
  refine State.actOnFault_keeps ?_
  split
  · exact State.stage_keeps (State.notIdle_keeps h) _ _
  · exact State.runCommand_keeps h _ _ hf

theorem execOpenSession_keeps {k0 s : State} (hK : Keeps k0 s) (h : CmdHdr) (o : OpenOp) : OutKeeps k0 (execOpenSession h o s) := by
  unfold execOpenSession
  repeat' first
    | with_reducible assumption
    | (with_reducible apply OutKeeps.next)
    | (with_reducible apply State.takeCommand_keeps)
    | (with_reducible apply State.doOpen_keeps)
    | (intro (_ : Keeps _ _))
    | (intro _ _ _; beta_reduce)

theorem execPrefill_keeps {k0 s : State} (hK : Keeps k0 s) (h : CmdHdr) (i : SessId) (count : BitVec 17) (addr : BitVec 64) : OutKeeps k0 (execPrefill h i count addr s) := by
  unfold execPrefill
  repeat' first
    | with_reducible assumption
    | (with_reducible apply OutKeeps.next)
    | (with_reducible apply State.takeCommand_keeps)
    | (with_reducible apply State.doPrefill_keeps)
    | (intro (_ : Keeps _ _))
    | (intro _ _ _; beta_reduce)

theorem execDecode_keeps {k0 s : State} (hK : Keeps k0 s) (h : CmdHdr) (i : SessId) (budget : BitVec 32) (stop : BitVec 32) : OutKeeps k0 (execDecode h i budget stop s) := by
  unfold execDecode
  repeat' first
    | with_reducible assumption
    | (with_reducible apply OutKeeps.next)
    | (with_reducible apply State.takeCommand_keeps)
    | (with_reducible apply State.doDecode_keeps)
    | (intro (_ : Keeps _ _))
    | (intro _ _ _; beta_reduce)

theorem execSetParams_keeps {k0 s : State} (hK : Keeps k0 s) (h : CmdHdr) (i : SessId) (o : SessParams) : OutKeeps k0 (execSetParams h i o s) := by
  unfold execSetParams
  repeat' first
    | with_reducible assumption
    | (with_reducible apply OutKeeps.next)
    | (with_reducible apply State.takeCommand_keeps)
    | (with_reducible apply State.doParams_keeps)
    | (intro (_ : Keeps _ _))
    | (intro _ _ _; beta_reduce)

theorem execTruncate_keeps {k0 s : State} (hK : Keeps k0 s) (h : CmdHdr) (i : SessId) (pos : BitVec 32) : OutKeeps k0 (execTruncate h i pos s) := by
  unfold execTruncate
  repeat' first
    | with_reducible assumption
    | (with_reducible apply OutKeeps.next)
    | (with_reducible apply State.takeCommand_keeps)
    | (with_reducible apply State.doTruncate_keeps)
    | (intro (_ : Keeps _ _))
    | (intro _ _ _; beta_reduce)

theorem execPark_keeps {k0 s : State} (hK : Keeps k0 s) (h : CmdHdr) (i : SessId) : OutKeeps k0 (execPark h i s) := by
  unfold execPark
  repeat' first
    | with_reducible assumption
    | (with_reducible apply OutKeeps.next)
    | (with_reducible apply State.takeCommand_keeps)
    | (with_reducible apply State.doPark_keeps)
    | (intro (_ : Keeps _ _))
    | (intro _ _ _; beta_reduce)

theorem execUnpark_keeps {k0 s : State} (hK : Keeps k0 s) (h : CmdHdr) (i : SessId) (policy : Fin 8) : OutKeeps k0 (execUnpark h i policy s) := by
  unfold execUnpark
  repeat' first
    | with_reducible assumption
    | (with_reducible apply OutKeeps.next)
    | (with_reducible apply State.takeCommand_keeps)
    | (with_reducible apply State.doPark_keeps)
    | (intro (_ : Keeps _ _))
    | (intro _ _ _; beta_reduce)

theorem execCloseSession_keeps {k0 s : State} (hK : Keeps k0 s) (h : CmdHdr) (i : SessId) : OutKeeps k0 (execCloseSession h i s) := by
  unfold execCloseSession
  repeat' first
    | with_reducible assumption
    | (with_reducible apply OutKeeps.next)
    | (with_reducible apply State.takeCommand_keeps)
    | (with_reducible apply State.doClose_keeps)
    | (intro (_ : Keeps _ _))
    | (intro _ _ _; beta_reduce)

theorem execCreateObject_keeps {k0 s : State} (hK : Keeps k0 s) (h : CmdHdr) (o : CreateOp) : OutKeeps k0 (execCreateObject h o s) := by
  unfold execCreateObject
  repeat' first
    | with_reducible assumption
    | (with_reducible apply OutKeeps.next)
    | (with_reducible apply State.takeCommand_keeps)
    | (with_reducible apply State.doCreate_keeps)
    | (intro (_ : Keeps _ _))
    | (intro _ _ _; beta_reduce)

theorem execSetPlacement_keeps {k0 s : State} (hK : Keeps k0 s) (h : CmdHdr) (o : PlaceOp) : OutKeeps k0 (execSetPlacement h o s) := by
  unfold execSetPlacement
  repeat' first
    | with_reducible assumption
    | (with_reducible apply OutKeeps.next)
    | (with_reducible apply State.takeCommand_keeps)
    | (with_reducible apply State.doPlacement_keeps)
    | (intro (_ : Keeps _ _))
    | (intro _ _ _; beta_reduce)

theorem execDeleteObject_keeps {k0 s : State} (hK : Keeps k0 s) (h : CmdHdr) (o : ObjId) : OutKeeps k0 (execDeleteObject h o s) := by
  unfold execDeleteObject
  repeat' first
    | with_reducible assumption
    | (with_reducible apply OutKeeps.next)
    | (with_reducible apply State.takeCommand_keeps)
    | (with_reducible apply State.doDelete_keeps)
    | (intro (_ : Keeps _ _))
    | (intro _ _ _; beta_reduce)

theorem execInstall_keeps {k0 s : State} (hK : Keeps k0 s) (h : CmdHdr) (o : InstallOp) : OutKeeps k0 (execInstall h o s) := by
  unfold execInstall
  repeat' first
    | with_reducible assumption
    | (with_reducible apply OutKeeps.next)
    | (with_reducible apply State.takeCommand_keeps)
    | (with_reducible apply State.doInstall_keeps)
    | (intro (_ : Keeps _ _))
    | (intro _ _ _; beta_reduce)

theorem execAbortInstall_keeps {k0 s : State} (hK : Keeps k0 s) (h : CmdHdr) (o : ObjId) : OutKeeps k0 (execAbortInstall h o s) := by
  unfold execAbortInstall
  repeat' first
    | with_reducible assumption
    | (with_reducible apply OutKeeps.next)
    | (with_reducible apply State.takeCommand_keeps)
    | (with_reducible apply State.doAbort_keeps)
    | (intro (_ : Keeps _ _))
    | (intro _ _ _; beta_reduce)

theorem execShrinkHostPages_keeps {k0 s : State} (hK : Keeps k0 s) (h : CmdHdr) (count : BitVec 29) : OutKeeps k0 (execShrinkHostPages h count s) := by
  unfold execShrinkHostPages
  repeat' first
    | with_reducible assumption
    | (with_reducible apply OutKeeps.next)
    | (with_reducible apply State.takeCommand_keeps)
    | (with_reducible apply State.doShrink_keeps)
    | (intro (_ : Keeps _ _))
    | (intro _ _ _; beta_reduce)

theorem State.runEntry_keeps {k0 s : State} (hK : Keeps k0 s) (h : CmdHdr) (e : BitVec 512) (tokens : List (BitVec 32)) (p : Nat) (ref : CmdRef) : Keeps k0 (State.runEntry s h e tokens p ref).2 := by
  unfold State.runEntry
  repeat' first
    | with_reducible assumption
    | (with_reducible apply State.doOpen_keeps)
    | (with_reducible apply State.doPrefill_keeps)
    | (with_reducible apply State.doDecode_keeps)
    | (with_reducible apply State.doParams_keeps)
    | (with_reducible apply State.doTruncate_keeps)
    | (with_reducible apply State.doPark_keeps)
    | (with_reducible apply State.doClose_keeps)
    | (with_reducible apply State.doCreate_keeps)
    | (with_reducible apply State.doPlacement_keeps)
    | (with_reducible apply State.doDelete_keeps)
    | (with_reducible apply State.doInstall_keeps)
    | (with_reducible apply State.doAbort_keeps)
    | (with_reducible apply State.doShrink_keeps)
    | (with_reducible apply State.refuse_keeps)
    | (intro x; clear_value x)
    | split
    | lift_lets -underBinder
theorem State.applyEntry_keeps {k0 s : State} (hK : Keeps k0 s) (x : Staged) : Keeps k0 (State.applyEntry s x) := by
  unfold State.applyEntry
  repeat' first
    | with_reducible assumption
    | (with_reducible apply State.runCommand_keeps)
    | (with_reducible apply State.runEntry_keeps)
    | (with_reducible apply State.completeCmd_keeps)
    | (intro (_ : Keeps _ _))
    | (intro x; clear_value x)
    | (intro _ _ _; beta_reduce)
    | split
    | lift_lets -underBinder

theorem State.applyStaged_keeps {k0 s : State} (hK : Keeps k0 s) (n : Nat) : Keeps k0 (State.applyStaged s n) := by
  unfold State.applyStaged
  repeat' first
    | with_reducible assumption
    | (with_reducible apply State.modHost_keeps)
    | (with_reducible apply State.recountSess_keeps)
    | (with_reducible apply State.applyEntry_keeps)
    | (with_reducible apply State.each_keepsK)
    | (intro _ _ _; beta_reduce)
    | split

theorem State.fetchEntry_keeps {k0 s : State} (hK : Keeps k0 s) (q : Nat) : Keeps k0 (State.fetchEntry s q) := by
  unfold State.fetchEntry
  repeat' first
    | with_reducible assumption
    | (with_reducible apply State.setFld_keeps)
    | (with_reducible apply State.stage_keeps)

theorem execSqFetch_keeps {k0 s : State} (hK : Keeps k0 s) : OutKeeps k0 (execSqFetch s) := by
  unfold execSqFetch
  repeat' first
    | with_reducible assumption
    | (with_reducible apply OutKeeps.next)
    | (with_reducible apply State.modHost_keeps)
    | (with_reducible apply State.fetchEntry_keeps)
    | (with_reducible apply State.each_keepsK)
    | (intro _ _ _; beta_reduce)
    | split

theorem execCommandApply_keeps {k0 s : State} (hK : Keeps k0 s) : OutKeeps k0 (execCommandApply s) := by
  unfold execCommandApply
  repeat' first
    | with_reducible assumption
    | (with_reducible apply OutKeeps.next)
    | (with_reducible apply State.applyStaged_keeps)
    | (with_reducible apply State.actOnFault_keeps)
    | split

theorem State.hostReadFails_keeps {b0 s : State} (h : Keeps b0 s) (r : HostRead) : Keeps b0 (s.hostReadFails r) := by
  cases r with
  | tile o t =>
    simp only [State.hostReadFails]
    split
    · exact State.actOnFault_keeps (State.advanceJobs_keeps (State.failTile_keeps h _ _ _))
    · exact h
  | queue q =>
    simp only [State.hostReadFails]
    split
    · exact State.queueError_keeps (State.count_keeps h _ _) _ _
    · exact h
  | prefill q =>
    simp only [State.hostReadFails]
    split
    · exact h
    · rename_i x _
      have h1 := State.recountSess_keeps (State.modHost_keeps h fun y => { y with staged := y.staged.erase x })
      generalize State.recountSess _ = u at h1 ⊢
      exact State.completeCmd_keeps (State.count_keeps h1 _ _) _ _ _
  | install =>
    simp only [State.hostReadFails]
    split
    · exact State.abortInst_keeps (State.count_keeps h _ _) _ _
    · exact h

theorem execHostReadComplete_keeps {k0 s : State} (hK : Keeps k0 s) (r : HostRead) (st : HostStatus) : OutKeeps k0 (execHostReadComplete r st s) := by
  unfold execHostReadComplete
  repeat' first
    | with_reducible assumption
    | (with_reducible apply OutKeeps.next)
    | (with_reducible apply State.hostReadFails_keeps)
    | split

theorem execCompletionTimeout_keeps {k0 s : State} (hK : Keeps k0 s) (r : HostRead) : OutKeeps k0 (execCompletionTimeout r s) := by
  unfold execCompletionTimeout
  repeat' first
    | with_reducible assumption
    | (with_reducible apply OutKeeps.next)
    | (with_reducible apply State.count_keeps)
    | (with_reducible apply State.hostReadFails_keeps)

theorem State.writeEvtCons_keeps {k0 s : State} (hK : Keeps k0 s) (p : Nat) (v : BitVec 32) : Keeps k0 (State.writeEvtCons s p v) := by
  unfold State.writeEvtCons
  repeat' first
    | with_reducible assumption
    | (with_reducible apply State.wr_keeps)
    | (with_reducible apply State.modHost_keeps)
    | (with_reducible apply State.writeEvent_keeps)
    | (intro x; refine Keeps.cut (a := k0) x ?_ (fun hx => ?_); rotate_left; clear_value x; rotate_right; subst x)
    | (intro x; clear_value x)
    | split
    | lift_lets -underBinder

theorem execEvtCons_keeps {k0 s : State} (hK : Keeps k0 s) (p : PartId) (v : BitVec 32) : OutKeeps k0 (execEvtCons p v s) := by
  unfold execEvtCons
  repeat' first
    | with_reducible assumption
    | (with_reducible apply OutKeeps.next)
    | (with_reducible apply State.bar0_keeps)
    | (with_reducible apply State.writeEvtCons_keeps)
    | (intro _ _; beta_reduce)

theorem execCoalesceTimeout_keeps {k0 s : State} (hK : Keeps k0 s) (v : QueueId) : OutKeeps k0 (execCoalesceTimeout v s) := by
  unfold execCoalesceTimeout
  repeat' first
    | with_reducible assumption
    | (with_reducible apply OutKeeps.next)
    | (with_reducible apply State.clockTo_keeps)
    | (with_reducible apply State.modHost_keeps)
    | (with_reducible apply State.sendMsix_keeps)
    | split

theorem execLtrChange_keeps {k0 s : State} (hK : Keeps k0 s) : OutKeeps k0 (execLtrChange s) := by
  unfold execLtrChange
  repeat' first
    | with_reducible assumption
    | (with_reducible apply OutKeeps.next)
    | (with_reducible apply State.modHost_keeps)
    | (with_reducible apply State.out_keeps)
    | split

theorem execSrIovVfEnable_keeps {k0 s : State} (hK : Keeps k0 s) (n : FnId) : OutKeeps k0 (execSrIovVfEnable n s) := by
  unfold execSrIovVfEnable
  repeat' first
    | with_reducible assumption
    | (with_reducible apply OutKeeps.next)
    | (with_reducible apply State.modHost_keeps)
    | (with_reducible apply State.setFld_keeps)
    | (with_reducible apply State.each_keepsK)
    | (intro _ _ _; beta_reduce)
    | split

theorem execMaxSnoopLatencyWrite_keeps {k0 s : State} (hK : Keeps k0 s) (us : Option (BitVec 24)) (ltr : Bool) : OutKeeps k0 (execMaxSnoopLatencyWrite us ltr s) := by
  unfold execMaxSnoopLatencyWrite
  repeat' first
    | with_reducible assumption
    | (with_reducible apply OutKeeps.next)
    | (with_reducible apply State.modHost_keeps)
    | (with_reducible apply State.refreshTol_keeps)
    | (with_reducible apply State.wakeForTol_keeps)
    | split

theorem execPcieLinkTrained_keeps {k0 s : State} (hK : Keeps k0 s) (speed : Fin 8) (width : Fin 16) (flit : Bool) : OutKeeps k0 (execPcieLinkTrained speed width flit s) := by
  unfold execPcieLinkTrained
  repeat' first
    | with_reducible assumption
    | (with_reducible apply OutKeeps.next)
    | (with_reducible apply State.setFld_keeps)
    | split

/-! ### StepObject -/

theorem State.writeObj_keeps {b0 s : State} (h : Keeps b0 s) (o n a : Nat) (bs : List Byte) : Keeps b0 (s.writeObj o n a bs) := by
  induction n generalizing s a bs with
  | zero => exact h
  | succ n ih =>
    unfold State.writeObj
    split
    · exact h
    · exact ih (State.writeTile_keeps h _ _ _ _) _ _

theorem State.stepSession_keeps {k0 s : State} (hK : Keeps k0 s) (i : Nat) (r : SlotRun) : Keeps k0 (State.stepSession s i r) := by
  unfold State.stepSession
  repeat' first
    | with_reducible assumption
    | (with_reducible apply State.modHost_keeps)
    | split

theorem State.shareChunk_keeps {b0 : State} (q : Share × State) (h : Keeps b0 q.2) (i : Nat) : Keeps b0 (State.shareChunk q i).2 := by
  unfold State.shareChunk
  obtain ⟨x, s⟩ := q
  dsimp only at h ⊢
  repeat' first
    | with_reducible exact h
    | with_reducible exact State.stepSession_keeps h _ _
    | split

theorem State.clearSample_keeps {k0 s : State} (hK : Keeps k0 s) : Keeps k0 (State.clearSample s) := by
  unfold State.clearSample
  repeat' first
    | with_reducible assumption
    | (with_reducible apply State.modHost_keeps)

theorem State.shareBudget_keeps {b0 s : State} (h : Keeps b0 s) (size : Nat) : Keeps b0 (s.shareBudget size).2 := by
  rw [State.shareBudget]
  exact Keeps.foldl2 _ State.shareChunk _ (State.each_keepsK (State.when_keepsK h _ _ fun _ h => State.jasperK_keeps h _ _ _ _ _) _ _
    fun _ _ h => State.when_keepsK h _ _ fun _ h => State.stepSession_keeps h _ _) fun q x hq => State.shareChunk_keeps q hq x

theorem State.writeSample_keeps {k0 s : State} (hK : Keeps k0 s) (o : Nat) (a : Share) : Keeps k0 (State.writeSample s o a) := by
  unfold State.writeSample
  repeat' first
    | with_reducible assumption
    | (with_reducible apply State.writeObj_keeps)
    | (with_reducible apply State.writeTile_keeps)
    | (with_reducible apply State.each_keepsK)
    | (with_reducible apply State.when_keepsK)
    | (intro _ _ _; beta_reduce)
    | (intro _ _; beta_reduce)

theorem State.sample_keeps {k0 s : State} (hK : Keeps k0 s) : Keeps k0 (State.sample s) := by
  unfold State.sample
  repeat' first
    | with_reducible assumption
    | (with_reducible apply State.clearSample_keeps)
    | (with_reducible apply State.shareBudget_keeps)
    | (with_reducible apply State.writeSample_keeps)
    | (intro x; refine Keeps.cut (a := k0) x ?_ (fun hx => ?_); rotate_left; clear_value x; rotate_right; subst x)
    | split
    | lift_lets -underBinder

theorem State.readTokens_keeps {k0 s : State} (hK : Keeps k0 s) : Keeps k0 (State.readTokens s).2 := by
  unfold State.readTokens
  repeat' first
    | with_reducible assumption
    | (with_reducible apply State.readTile_keeps)
    | (with_reducible apply Keeps.foldl2)
    | (intro _ _ _; beta_reduce)
    | split
theorem State.journalRec_keeps {k0 s : State} (hK : Keeps k0 s) (x : Session) (p : Nat) (tok : BitVec 32) (prompt : Bool) (suspect : Bool) : Keeps k0 (State.journalRec s x p tok prompt suspect) := by
  unfold State.journalRec
  repeat' first
    | with_reducible assumption
    | (with_reducible apply State.writeTile_keeps)
    | split

theorem State.journalSlot_keeps {k0 s : State} (hK : Keeps k0 s) (e : SlotEnd) : Keeps k0 (State.journalSlot s e) := by
  unfold State.journalSlot
  repeat' first
    | with_reducible assumption
    | (with_reducible apply State.journalRec_keeps)
    | (with_reducible apply State.each_keepsK)
    | (with_reducible apply State.when_keepsK)
    | (intro _ _ _; beta_reduce)
    | (intro _ _; beta_reduce)
    | split

theorem State.writeRing_keeps {k0 s : State} (hK : Keeps k0 s) (p : Nat) (es : List SlotEnd) : Keeps k0 (State.writeRing s p es) := by
  unfold State.writeRing
  repeat' first
    | with_reducible assumption
    | (with_reducible apply State.hostWrite_keeps)
    | (with_reducible apply State.count_keeps)
    | (with_reducible apply State.setFld_keeps)
    | (with_reducible apply State.signalVector_keeps)
    | (with_reducible apply State.each_keepsK)
    | (with_reducible apply State.when_keepsK)
    | (intro _ _ _; beta_reduce)
    | (intro _ _; beta_reduce)
    | split

theorem State.commitSlot_keeps {k0 s : State} (hK : Keeps k0 s) (e : SlotEnd) : Keeps k0 (State.commitSlot s e) := by
  unfold State.commitSlot
  repeat' first
    | with_reducible assumption
    | (with_reducible apply State.setSession_keeps)
    | (with_reducible apply State.modHost_keeps)
    | (with_reducible apply State.completeCmd_keeps)
    | (with_reducible apply State.each_keepsK)
    | (intro _ _ _; beta_reduce)
    | split

theorem State.ringFull_keeps {k0 s : State} (hK : Keeps k0 s) (p : Nat) (n : Nat) : Keeps k0 (State.ringFull s p n) := by
  unfold State.ringFull
  repeat' first
    | with_reducible assumption
    | (with_reducible apply State.count_keeps)
    | (with_reducible apply State.raise_keeps)
    | (with_reducible apply State.postEvent_keeps)

theorem State.journalHomes_keeps {k0 s : State} (hK : Keeps k0 s) (es : List SlotEnd) : Keeps k0 (State.journalHomes s es).2 := by
  unfold State.journalHomes
  repeat' first
    | with_reducible assumption
    | (with_reducible apply State.giveHome_keeps)
    | (with_reducible apply State.each_keepsK)
    | (intro _ _ _; beta_reduce)
theorem State.commitSessions_keeps {b0 s t0 : State} (he0 : s.commitSessions = some t0) (h : Keeps b0 s) : Keeps b0 t0 := by
  have h1 := State.readTokens_keeps h
  unfold State.commitSessions at he0
  dsimp only at he0
  generalize State.readTokens s = r at h1 he0
  split at he0
  · exact absurd he0 (by simp)
  · simp only [Option.some.injEq] at he0
    subst he0
    refine State.clearSample_keeps (State.each_keepsK (State.each_keepsK (State.each_keepsK (State.journalHomes_keeps (State.each_keepsK h1 _ _
      fun _ _ h => State.ringFull_keeps h _ _) _) _ _ fun _ _ h => State.journalSlot_keeps h _) _ _ fun _ _ h => State.writeRing_keeps h _ _)
      _ _ fun _ _ h => State.commitSlot_keeps h _)

end Sys2Proof.Machine
end

