-- ==== Sys2Proof/Laws/KeepsBoot.lean ====
section
/-! SUPPORT. What the ticks, the power states, the resets, start-up and the register writes keep (see `Keeps`): one lemma for each operation and each command. -/

namespace Sys2Proof.Machine

/-! ### Tick -/

theorem State.wrDefer_keeps {k0 s : State} (hK : Keeps k0 s) (a : Nat) (v : BitVec 32) : Keeps k0 (State.wrDefer s a v) := by
  unfold State.wrDefer
  repeat' first
    | with_reducible assumption
    | (with_reducible apply State.wr_keeps)
    | fail_if_no_progress (with_reducible refine Keeps.upd ?_ (Nat.le_refl _) (Nat.le_refl _) rfl rfl rfl)
    | split

theorem State.checkShares_keeps {k0 s : State} (hK : Keeps k0 s) (st : Nat) : Keeps k0 (State.checkShares s st) := by
  unfold State.checkShares
  repeat' first
    | with_reducible assumption
    | (with_reducible apply State.jasper_keeps)
    | (with_reducible apply State.when_keepsK)
    | (intro _ _; beta_reduce)

theorem State.formGroup_keeps {k0 s : State} (hK : Keeps k0 s) : Keeps k0 (State.formGroup s) := by
  unfold State.formGroup
  repeat' first
    | with_reducible assumption
    | (with_reducible apply State.wr_keeps)
    | (with_reducible apply State.setFld_keeps)
    | (with_reducible apply State.raise_keeps)
    | (with_reducible apply State.issueDone_keeps)
    | (with_reducible apply State.judgeToken_keeps)
    | (with_reducible apply State.modHost_keeps)
    | (with_reducible apply State.recountSess_keeps)
    | (with_reducible apply State.completeCmd_keeps)
    | (with_reducible apply State.takePages_keeps)
    | (with_reducible apply State.refreshTokens_keeps)
    | (with_reducible apply State.notIdle_keeps)
    | (with_reducible apply State.beginWake_keeps)
    | (with_reducible apply State.each_keepsK)
    | fail_if_no_progress (with_reducible refine Keeps.upd ?_ (Nat.le_refl _) (Nat.le_refl _) rfl rfl rfl)
    | (intro _ _ _; beta_reduce)
    | split

theorem State.stopGroup_keeps {k0 s : State} (hK : Keeps k0 s) : Keeps k0 (State.stopGroup s) := by
  unfold State.stopGroup
  repeat' first
    | with_reducible assumption
    | (with_reducible apply State.releaseHeld_keeps)
    | (with_reducible apply State.setFld_keeps)
    | (with_reducible apply State.refreshTokens_keeps)

theorem State.leaveGroup_keeps {k0 s : State} (hK : Keeps k0 s) : Keeps k0 (State.leaveGroup s) := by
  unfold State.leaveGroup
  repeat' first
    | with_reducible assumption
    | (with_reducible apply State.stopGroup_keeps)
    | fail_if_no_progress (with_reducible refine Keeps.upd ?_ (Nat.le_refl _) (Nat.le_refl _) rfl rfl rfl)

theorem State.settleHeld_keeps {k0 s : State} (hK : Keeps k0 s) : Keeps k0 (State.settleHeld s) := by
  unfold State.settleHeld
  repeat' first
    | with_reducible assumption
    | (with_reducible apply State.releaseHeld_keeps)
    | (with_reducible apply State.leaveGroup_keeps)
    | (with_reducible apply State.formGroup_keeps)
    | (with_reducible apply State.refreshTokens_keeps)
    | (intro x; refine Keeps.cut (a := k0) x ?_ (fun hx => ?_); rotate_left; clear_value x; rotate_right; subst x)
    | (intro x; clear_value x)
    | split
    | lift_lets -underBinder

theorem State.settleTick_keeps {k0 s : State} (hK : Keeps k0 s) : Keeps k0 (State.settleTick s) := by
  unfold State.settleTick
  repeat' first
    | with_reducible assumption
    | (with_reducible apply State.releaseHeld_keeps)
    | (with_reducible apply State.takePages_keeps)
    | (with_reducible apply State.checkShares_keeps)
    | (with_reducible apply State.each_keepsK)
    | (intro _ _ _; beta_reduce)

theorem State.setEnable_keeps {k0 s : State} (hK : Keeps k0 s) (on : Bool) : Keeps k0 (State.setEnable s on) := by
  unfold State.setEnable
  repeat' first
    | with_reducible assumption
    | (with_reducible apply State.wrDefer_keeps)
    | (with_reducible apply State.leaveGroup_keeps)
    | (with_reducible apply State.formGroup_keeps)
    | (intro x; refine Keeps.cut (a := k0) x ?_ (fun hx => ?_); rotate_left; clear_value x; rotate_right; subst x)
    | (intro x; clear_value x)
    | split
    | lift_lets -underBinder

theorem execGarnetEnableSet_keeps {k0 s : State} (hK : Keeps k0 s) : OutKeeps k0 (execGarnetEnableSet s) := by
  unfold execGarnetEnableSet
  repeat' first
    | with_reducible assumption
    | (with_reducible apply OutKeeps.next)
    | (with_reducible apply State.bar0_keeps)
    | (with_reducible apply State.setEnable_keeps)
    | (intro _ _; beta_reduce)

theorem execGarnetEnableClear_keeps {k0 s : State} (hK : Keeps k0 s) : OutKeeps k0 (execGarnetEnableClear s) := by
  unfold execGarnetEnableClear
  repeat' first
    | with_reducible assumption
    | (with_reducible apply OutKeeps.next)
    | (with_reducible apply State.bar0_keeps)
    | (with_reducible apply State.setEnable_keeps)
    | (intro _ _; beta_reduce)

theorem State.setWithhold_keeps {k0 s : State} (hK : Keeps k0 s) (v : Bool) : Keeps k0 (State.setWithhold s v) := by
  unfold State.setWithhold
  repeat' first
    | with_reducible assumption
    | (with_reducible apply State.raise_keeps)
    | (with_reducible apply State.clearWithhold_keeps)
    | split

theorem execWithhold_keeps {k0 s : State} (hK : Keeps k0 s) (v : Bool) : OutKeeps k0 (execWithhold v s) := by
  unfold execWithhold
  repeat' first
    | with_reducible assumption
    | (with_reducible apply OutKeeps.next)
    | (with_reducible apply State.bar0_keeps)
    | (with_reducible apply State.setWithhold_keeps)
    | (intro _ _; beta_reduce)

theorem State.endStep_keeps {b0 s : State} (h : Keeps b0 s) (abandon : Bool) : Keeps b0 (s.endStep abandon) := by
  unfold State.endStep
  dsimp only
  generalize hu : State.capsDue _ = u
  have h1 : Keeps b0 u := by
    rw [← hu]
    refine State.capsDue_keeps (State.setFld_keeps (State.each_keepsK (State.returnRefs_keeps h) _ _ fun _ _ h => State.modCluster_keeps h _ _ fun x hx => ?_) _ _)
    split <;> exact hx
  have h2 : Keeps b0 { u with garnet := { u.garnet with doneAt := u.now } } := { h1 with }
  generalize { u with garnet := { u.garnet with doneAt := u.now } } = v at h2 ⊢
  have h3 : Keeps b0 (State.settleHeld (if v.fld Fld.GARNET_CTRL_WITHHOLD = 1 ∨ (!v.ticking) = true then v else v.issueDone abandon)) := by
    refine State.settleHeld_keeps ?_
    split
    · exact h2
    · exact State.issueDone_keeps h2 _
  generalize State.settleHeld _ = w at h3 ⊢
  have h4 : Keeps b0 (if w.ticking = true then w else w.stopGroup) := by
    split
    · exact h3
    · exact State.stopGroup_keeps h3
  generalize (if w.ticking = true then w else w.stopGroup) = x at h4 ⊢
  split
  · exact State.leaveNow_keeps h4
  · exact h4

theorem State.committed_keeps {b0 s : State} (h : Keeps b0 s) : Keeps b0 s.committed := by
  unfold State.committed
  refine State.endStep_keeps ?_ _
  with_reducible exact { h with clusters := h.mapClusters (fun x => { x with last := x.cur }) fun _ h => h }

theorem execStepCommit_keeps {b0 s : State} (h : Keeps b0 s) : OutKeeps b0 (execStepCommit s) := by
  unfold execStepCommit
  refine OutKeeps.next ?_
  split
  · split
    · rename_i he
      exact State.actOnFault_keeps (State.committed_keeps (State.commitSessions_keeps he h))
    · exact h
  · exact h

theorem execAbandonDone_keeps {k0 s : State} (hK : Keeps k0 s) : OutKeeps k0 (execAbandonDone s) := by
  unfold execAbandonDone
  repeat' first
    | with_reducible assumption
    | (with_reducible apply OutKeeps.next)
    | (with_reducible apply State.drainIntake_keeps)
    | (with_reducible apply State.count_keeps)
    | (with_reducible apply State.postEvent_keeps)
    | (with_reducible apply State.clearSample_keeps)
    | (with_reducible apply State.setFld_keeps)
    | (with_reducible apply State.endStep_keeps)
    | (with_reducible apply State.each_keepsK)
    | fail_if_no_progress (with_reducible refine Keeps.upd ?_ (Nat.le_refl _) (Nat.le_refl _) rfl rfl rfl)
    | (intro _ _ _; beta_reduce)
    | split

theorem State.clearCore_keeps {k0 s : State} (hK : Keeps k0 s) (c : Nat) : Keeps k0 (State.clearCore s c) := by
  unfold State.clearCore
  repeat' first
    | with_reducible assumption
    | (with_reducible apply State.fresh_keeps)
    | (with_reducible apply State.modCore_keeps)
    | (with_reducible apply State.raise_keeps)
    | (with_reducible apply State.setFld_keeps)
    | (with_reducible apply State.wr_keeps)
    | (with_reducible apply State.each_keepsK)
    | (intro _ _ _; beta_reduce)
    | (intro _ _; beta_reduce)

theorem State.startCore_keeps {k0 s : State} (hK : Keeps k0 s) (c : Nat) : Keeps k0 (State.startCore s c) := by
  unfold State.startCore
  repeat' first
    | with_reducible assumption
    | (with_reducible apply State.clearCore_keeps)
    | (with_reducible apply State.codeWord_keeps)
    | (with_reducible apply State.codeLine_keeps)
    | (with_reducible apply State.modCore_keeps)
    | (with_reducible apply State.setFld_keeps)
    | (with_reducible apply State.fetchError_keeps)
    | (with_reducible apply State.seqError_keeps)
    | (with_reducible apply State.abandonStep_keeps)
    | (with_reducible apply State.each_keepsK)
    | (intro x; refine Keeps.cut (a := k0) x ?_ (fun hx => ?_); rotate_left; clear_value x; rotate_right; subst x)
    | (intro x; refine Keeps.cut2 (a := k0) x ?_ (fun hx => ?_); rotate_left; clear_value x; rotate_right; subst x)
    | (intro x; clear_value x)
    | (intro _ _ _; beta_reduce)
    | (intro _ _; beta_reduce)
    | split
    | lift_lets -underBinder

theorem State.startEngine_keeps {k0 s : State} (hK : Keeps k0 s) (g : Nat) : Keeps k0 (State.startEngine s g) := by
  unfold State.startEngine
  repeat' first
    | with_reducible assumption
    | (with_reducible apply State.modEng_keeps)
    | (with_reducible apply State.wr_keeps)
    | (with_reducible apply State.setFld_keeps)

theorem State.slotTable_keeps {k0 s : State} (hK : Keeps k0 s) (k : Nat) : Keeps k0 (State.slotTable s k).2 := by
  unfold State.slotTable
  repeat' first
    | with_reducible assumption
    | (with_reducible apply State.readProg_keeps)
    | (with_reducible apply Keeps.foldl2)
    | (intro x; clear_value x)
    | (intro _ _ _; beta_reduce)
    | split
    | lift_lets -underBinder
theorem State.startCluster_keeps {k0 s : State} (hK : Keeps k0 s) (k : Nat) : Keeps k0 (State.startCluster s k) := by
  unfold State.startCluster
  repeat' first
    | with_reducible assumption
    | (with_reducible apply State.setFld_keeps)
    | (with_reducible apply State.raise_keeps)
    | (with_reducible apply State.slotTable_keeps)
    | (with_reducible apply State.modCluster_keeps)
    | (with_reducible apply State.jasper_keeps)
    | (with_reducible apply State.each_keepsK)
    | (with_reducible apply State.when_keepsK)
    | (intro _ _ _; beta_reduce)
    | (intro _ _; beta_reduce)

theorem State.countOverrun_keeps {k0 s : State} (hK : Keeps k0 s) : Keeps k0 (State.countOverrun s) := by
  unfold State.countOverrun
  repeat' first
    | with_reducible assumption
    | (with_reducible apply State.count_keeps)
    | (with_reducible apply State.maxRc_keeps)
    | (with_reducible apply State.when_keepsK)
    | (intro _ _; beta_reduce)

theorem State.nextTick_keeps {k0 s : State} (hK : Keeps k0 s) : Keeps k0 (State.nextTick s) := by
  unfold State.nextTick
  repeat' first
    | with_reducible assumption
    | (with_reducible apply State.wr_keeps)
    | (with_reducible apply State.setFld_keeps)
    | (with_reducible apply State.holdToken_keeps)
    | (with_reducible apply State.refreshTokens_keeps)
    | (with_reducible apply State.each_keepsK)
    | fail_if_no_progress (with_reducible refine Keeps.upd ?_ (Nat.le_refl _) (Nat.le_refl _) rfl rfl rfl)
    | (intro _ _ _; beta_reduce)

theorem State.closeParts_keeps {k0 s : State} (hK : Keeps k0 s) : Keeps k0 (State.closeParts s) := by
  unfold State.closeParts
  repeat' first
    | with_reducible assumption
    | (with_reducible apply State.endSession_keeps)
    | (with_reducible apply State.setFld_keeps)
    | (with_reducible apply State.modHost_keeps)
    | (with_reducible apply State.each_keepsK)
    | (intro _ _ _; beta_reduce)

theorem State.applyAtTick_keeps {k0 s : State} (hK : Keeps k0 s) : Keeps k0 (State.applyAtTick s) := by
  unfold State.applyAtTick
  repeat' first
    | with_reducible assumption
    | (with_reducible apply State.makeLive_keeps)
    | (with_reducible apply State.closeParts_keeps)
    | (with_reducible apply State.applyStaged_keeps)
    | (with_reducible apply State.settleDeletes_keeps)
    | (with_reducible apply State.setFld_keeps)
    | (with_reducible apply State.modStack_keeps)
    | (with_reducible apply State.thermalRelease_keeps)
    | (with_reducible apply State.capStep_keeps)
    | (with_reducible apply State.applyCodes_keeps)
    | (with_reducible apply State.each_keepsK)
    | (with_reducible apply State.when_keepsK)
    | (intro _ _ _; beta_reduce)
    | (intro _ _; beta_reduce)

theorem State.startStep_keeps {k0 s : State} (hK : Keeps k0 s) : Keeps k0 (State.startStep s) := by
  unfold State.startStep
  repeat' first
    | with_reducible assumption
    | (with_reducible apply State.setFld_keeps)
    | (with_reducible apply State.startCluster_keeps)
    | (with_reducible apply State.startCore_keeps)
    | (with_reducible apply State.startEngine_keeps)
    | (with_reducible apply State.each_keepsK)
    | fail_if_no_progress (with_reducible refine Keeps.upd ?_ (Nat.le_refl _) (Nat.le_refl _) rfl rfl rfl)
    | (intro _ _ _; beta_reduce)

theorem State.startTick_keeps {k0 s : State} (hK : Keeps k0 s) : Keeps k0 (State.startTick s) := by
  unfold State.startTick
  repeat' first
    | with_reducible assumption
    | (with_reducible apply State.countOverrun_keeps)
    | (with_reducible apply State.nextTick_keeps)
    | (with_reducible apply State.settleTick_keeps)
    | (with_reducible apply State.applyAtTick_keeps)
    | (with_reducible apply State.sample_keeps)
    | (with_reducible apply State.startStep_keeps)
    | (with_reducible apply State.deliverHeld_keeps)
    | (with_reducible apply State.raise_keeps)
    | (with_reducible apply State.abandonStep_keeps)
    | (intro x; refine Keeps.cut (a := k0) x ?_ (fun hx => ?_); rotate_left; clear_value x; rotate_right; subst x)
    | split
    | lift_lets -underBinder

theorem execTickStart_keeps {k0 s : State} (hK : Keeps k0 s) : OutKeeps k0 (execTickStart s) := by
  unfold execTickStart
  repeat' first
    | with_reducible assumption
    | (with_reducible apply OutKeeps.next)
    | (with_reducible apply State.startTick_keeps)
    | (with_reducible apply State.actOnFault_keeps)
    | split

theorem execTickTimerExpiry_keeps {k0 s : State} (hK : Keeps k0 s) : OutKeeps k0 (execTickTimerExpiry s) := by
  unfold execTickTimerExpiry
  repeat' first
    | with_reducible assumption
    | (with_reducible apply OutKeeps.next)
    | (with_reducible apply State.clockTo_keeps)
    | (with_reducible apply State.raise_keeps)
    | split

theorem execHang_keeps {k0 s : State} (hK : Keeps k0 s) (c : CoreId) : OutKeeps k0 (execHang c s) := by
  unfold execHang
  repeat' first
    | with_reducible assumption
    | (with_reducible apply OutKeeps.next)
    | (with_reducible apply State.clockTo_keeps)
    | (with_reducible apply State.seqError_keeps)
    | (with_reducible apply State.abandonStep_keeps)
    | split

theorem State.idleTick_keeps {b0 s : State} (h : Keeps b0 s) : Keeps b0 s.idleTick :=
  State.each_keepsK (State.syncSeconds_keeps (State.syncResidency_keeps (State.pass_keepsK h 1))) _ _ fun _ _ h => State.announce_keeps h _

/-! ### Power -/

theorem execPowerAverage_keeps {k0 s : State} (hK : Keeps k0 s) (w : BitVec 16) : OutKeeps k0 (execPowerAverage w s) := by
  unfold execPowerAverage
  repeat' first
    | with_reducible assumption
    | (with_reducible apply OutKeeps.next)
    | (with_reducible apply State.setFld_keeps)
    | (with_reducible apply State.maxRc_keeps)
    | (with_reducible apply State.modPower_keeps)
    | (with_reducible apply State.raise_keeps)
    | (with_reducible apply State.jasper_keeps)
    | split

theorem execCapStepTimer_keeps {k0 s : State} (hK : Keeps k0 s) : OutKeeps k0 (execCapStepTimer s) := by
  unfold execCapStepTimer
  repeat' first
    | with_reducible assumption
    | (with_reducible apply OutKeeps.next)
    | (with_reducible apply State.clockTo_keeps)
    | (with_reducible apply State.modPower_keeps)
    | (with_reducible apply State.capStep_keeps)
    | split

theorem State.sensorWarning_keeps {k0 s : State} (hK : Keeps k0 s) (i : Nat) (code : Nat) : Keeps k0 (State.sensorWarning s i code) := by
  unfold State.sensorWarning
  repeat' first
    | with_reducible assumption
    | (with_reducible apply State.modPower_keeps)
    | (with_reducible apply State.releaseThermN_keeps)
    | (with_reducible apply State.jasper_keeps)
    | (with_reducible apply State.assertThermN_keeps)
    | (with_reducible apply State.when_keepsK)
    | (intro x; refine Keeps.cut (a := k0) x ?_ (fun hx => ?_); rotate_left; clear_value x; rotate_right; subst x)
    | (intro x; clear_value x)
    | (intro _ _; beta_reduce)
    | split
    | lift_lets -underBinder

theorem State.clusterCap_keeps {k0 s : State} (hK : Keeps k0 s) (k : Nat) (code : Nat) : Keeps k0 (State.clusterCap s k code) := by
  unfold State.clusterCap
  repeat' first
    | with_reducible assumption
    | (with_reducible apply State.modPower_keeps)
    | (with_reducible apply State.thermalLower_keeps)
    | (with_reducible apply State.raise_keeps)
    | (with_reducible apply State.jasper_keeps)
    | split

theorem State.neighbourTemp_keeps {k0 s : State} (hK : Keeps k0 s) (i : Nat) (a : Nat) : Keeps k0 (State.neighbourTemp s i a) := by
  unfold State.neighbourTemp
  repeat' first
    | with_reducible assumption
    | (with_reducible apply State.modPower_keeps)
    | (with_reducible apply State.thermalLower_keeps)
    | split

theorem State.opticTrip_keeps {k0 s : State} (hK : Keeps k0 s) (i : Nat) (t : Int) (code : Nat) : Keeps k0 (State.opticTrip s i t code) := by
  unfold State.opticTrip
  repeat' first
    | with_reducible assumption
    | (with_reducible apply State.modPower_keeps)
    | (with_reducible apply State.releaseThermN_keeps)
    | (with_reducible apply State.trainPort_keeps)
    | (with_reducible apply State.refreshOpen_keeps)
    | (with_reducible apply State.portDown_keeps)
    | (with_reducible apply State.raise_keeps)
    | (with_reducible apply State.jasper_keeps)
    | (with_reducible apply State.assertThermN_keeps)
    | (with_reducible apply State.each_keepsK)
    | (with_reducible apply State.when_keepsK)
    | (intro x; refine Keeps.cut (a := k0) x ?_ (fun hx => ?_); rotate_left; clear_value x; rotate_right; subst x)
    | (intro x; clear_value x)
    | (intro _ _ _; beta_reduce)
    | (intro _ _; beta_reduce)
    | split
    | lift_lets -underBinder

theorem State.dieTrip_keeps {k0 s : State} (hK : Keeps k0 s) (i : Nat) (code : Nat) : Keeps k0 (State.dieTrip s i code) := by
  unfold State.dieTrip
  repeat' first
    | with_reducible assumption
    | (with_reducible apply State.raise_keeps)
    | (with_reducible apply State.jasper_keeps)
    | (with_reducible apply State.assertThermN_keeps)
    | (with_reducible apply State.warmStart_keeps)
    | fail_if_no_progress (with_reducible refine Keeps.upd ?_ (Nat.le_refl _) (Nat.le_refl _) rfl rfl rfl)

theorem State.thermNEnd_keeps {k0 s : State} (hK : Keeps k0 s) (i : Nat) : Keeps k0 (State.thermNEnd s i) := by
  unfold State.thermNEnd
  repeat' first
    | with_reducible assumption
    | (with_reducible apply State.releaseThermN_keeps)
    | (with_reducible apply State.when_keepsK)
    | (intro _ _; beta_reduce)

theorem State.sampleInReset_keeps {k0 s : State} (hK : Keeps k0 s) (i : Nat) (t : Int) : Keeps k0 (State.sampleInReset s i t) := by
  unfold State.sampleInReset
  repeat' first
    | with_reducible assumption
    | (with_reducible apply State.thermNEnd_keeps)
    | (with_reducible apply State.raise_keeps)
    | (with_reducible apply State.assertThermN_keeps)
    | (with_reducible apply State.release_keeps)
    | fail_if_no_progress (with_reducible refine Keeps.upd ?_ (Nat.le_refl _) (Nat.le_refl _) rfl rfl rfl)
    | (intro x; refine Keeps.cut (a := k0) x ?_ (fun hx => ?_); rotate_left; clear_value x; rotate_right; subst x)
    | split
    | lift_lets -underBinder

theorem execSensorSample_keeps {k0 s : State} (hK : Keeps k0 s) (i : Fin 77) (temp : BitVec 11) : OutKeeps k0 (execSensorSample i temp s) := by
  unfold execSensorSample
  repeat' first
    | with_reducible assumption
    | (with_reducible apply OutKeeps.next)
    | (with_reducible apply State.modPower_keeps)
    | (with_reducible apply State.sampleInReset_keeps)
    | (with_reducible apply State.dieTrip_keeps)
    | (with_reducible apply State.sensorWarning_keeps)
    | (with_reducible apply State.thermNEnd_keeps)
    | (with_reducible apply State.clusterCap_keeps)
    | (with_reducible apply State.neighbourTemp_keeps)
    | (with_reducible apply State.opticTrip_keeps)
    | (with_reducible apply State.showSensor_keeps)
    | (with_reducible apply State.each_keepsK)
    | (intro _ _ _; beta_reduce)
    | split

theorem execThermalStepTimer_keeps {k0 s : State} (hK : Keeps k0 s) (k : ClusterId) : OutKeeps k0 (execThermalStepTimer k s) := by
  unfold execThermalStepTimer
  repeat' first
    | with_reducible assumption
    | (with_reducible apply OutKeeps.next)
    | (with_reducible apply State.clockTo_keeps)
    | (with_reducible apply State.modPower_keeps)
    | (with_reducible apply State.thermalLower_keeps)
    | (with_reducible apply State.when_keepsK)
    | (intro _ _; beta_reduce)
    | split

theorem execSupplyRampDone_keeps {k0 s : State} (hK : Keeps k0 s) (k : ClusterId) : OutKeeps k0 (execSupplyRampDone k s) := by
  unfold execSupplyRampDone
  repeat' first
    | with_reducible assumption
    | (with_reducible apply OutKeeps.next)
    | (with_reducible apply State.modPower_keeps)
    | (with_reducible apply State.setFld_keeps)
    | (with_reducible apply State.refreshSupplies_keeps)
    | split

theorem State.enterS3_keeps {k0 s : State} (hK : Keeps k0 s) : Keeps k0 (State.enterS3 s) := by
  unfold State.enterS3
  repeat' first
    | with_reducible assumption
    | (with_reducible apply State.setFld_keeps)
    | (with_reducible apply State.stackState_keeps)
    | (with_reducible apply State.each_keepsK)
    | (intro _ _ _; beta_reduce)
    | split

theorem State.dropStacks_keeps {b0 s : State} (h : Keeps b0 s) : Keeps b0 s.dropStacks := by
  unfold State.dropStacks
  dsimp only
  refine State.each_keepsK ?_ _ _ fun _ _ h => State.recountFrames_keeps h _
  have h1 := State.modPlace_keeps (State.each_keepsK h s.place.objs (fun s p =>
    ((s.setFld (Fld.OBJ_USE_STACK_TILES p.2.part) (s.fld (Fld.OBJ_USE_STACK_TILES p.2.part) - p.2.resident)).modObj p.1 fun x =>
      { x with resident := 0, dirFrames := [] })) fun _ _ h => State.modObj_keeps (State.setFld_keeps h _ _) _ _)
    fun p => { p with dir := [], dirCache := [], replaceT := [], rewritten := [], frames := p.frames.filter fun f => f.2 == .retired }
  exact { h1 with mem := Mem.wf_nil }

theorem State.enterS4_keeps {k0 s : State} (hK : Keeps k0 s) : Keeps k0 (State.enterS4 s) := by
  unfold State.enterS4
  repeat' first
    | with_reducible assumption
    | (with_reducible apply State.requestFlush_keeps)
    | (with_reducible apply State.checkpointNow_keeps)
    | (with_reducible apply State.modFlash_keeps)
    | (with_reducible apply State.setFld_keeps)
    | (with_reducible apply State.leaveNow_keeps)
    | (with_reducible apply State.closePort_keeps)
    | (with_reducible apply State.stackState_keeps)
    | (with_reducible apply State.dropStacks_keeps)
    | (with_reducible apply State.each_keepsK)
    | (intro _ _ _; beta_reduce)
    | split

theorem State.enterState_keeps {k0 s : State} (hK : Keeps k0 s) (st : Nat) : Keeps k0 (State.enterState s st) := by
  unfold State.enterState
  repeat' first
    | with_reducible assumption
    | (with_reducible apply State.syncResidency_keeps)
    | (with_reducible apply State.modPower_keeps)
    | (with_reducible apply State.setFld_keeps)
    | (with_reducible apply State.clusterOff_keeps)
    | (with_reducible apply State.enterS3_keeps)
    | (with_reducible apply State.enterS4_keeps)
    | (with_reducible apply State.each_keepsK)
    | (with_reducible apply State.when_keepsK)
    | (intro _ _ _; beta_reduce)
    | (intro _ _; beta_reduce)

theorem execPowerStateEntry_keeps {k0 s : State} (hK : Keeps k0 s) : OutKeeps k0 (execPowerStateEntry s) := by
  unfold execPowerStateEntry
  repeat' first
    | with_reducible assumption
    | (with_reducible apply OutKeeps.next)
    | (with_reducible apply State.notIdle_keeps)
    | (with_reducible apply State.modPower_keeps)
    | (with_reducible apply State.clockTo_keeps)
    | (with_reducible apply State.jasper_keeps)
    | (with_reducible apply State.enterState_keeps)
    | (with_reducible apply State.when_keepsK)
    | (intro x; refine Keeps.cut (a := k0) x ?_ (fun hx => ?_); rotate_left; clear_value x; rotate_right; subst x)
    | (intro x; clear_value x)
    | (intro _ _; beta_reduce)
    | split
    | lift_lets -underBinder

theorem execWake_keeps {k0 s : State} (hK : Keeps k0 s) : OutKeeps k0 (execWake s) := by
  unfold execWake
  repeat' first
    | with_reducible assumption
    | (with_reducible apply OutKeeps.next)
    | (with_reducible apply State.bar0_keeps)
    | (with_reducible apply State.notIdle_keeps)
    | (with_reducible apply State.beginWake_keeps)
    | (intro _ _; beta_reduce)

theorem execWakeRequest_keeps {k0 s : State} (hK : Keeps k0 s) (k : ClusterId) : OutKeeps k0 (execWakeRequest k s) := by
  unfold execWakeRequest
  repeat' first
    | with_reducible assumption
    | (with_reducible apply OutKeeps.next)
    | (with_reducible apply State.clusterOn_keeps)

theorem State.restoreObjects_keeps {k0 s : State} (hK : Keeps k0 s) : Keeps k0 (State.restoreObjects s) := by
  unfold State.restoreObjects
  repeat' first
    | with_reducible assumption
    | (with_reducible apply State.modFlash_keeps)
    | (with_reducible apply State.takeSystem_keeps)
    | (with_reducible apply State.indexFrames_keeps)
    | (with_reducible apply State.takeSpread_keeps)
    | (with_reducible apply State.modObj_keeps)
    | (with_reducible apply State.initDir_keeps)
    | (with_reducible apply State.startJob_keeps)
    | (with_reducible apply State.each_keepsK)
    | (with_reducible apply State.when_keepsK)
    | (intro _ _ _; beta_reduce)
    | (intro _ _; beta_reduce)

theorem execWakeComplete_keeps {k0 s : State} (hK : Keeps k0 s) : OutKeeps k0 (execWakeComplete s) := by
  unfold execWakeComplete
  repeat' first
    | with_reducible assumption
    | (with_reducible apply OutKeeps.next)
    | (with_reducible apply State.clockTo_keeps)
    | (with_reducible apply State.syncResidency_keeps)
    | (with_reducible apply State.modPower_keeps)
    | (with_reducible apply State.clusterOn_keeps)
    | (with_reducible apply State.setFld_keeps)
    | (with_reducible apply State.stackState_keeps)
    | (with_reducible apply State.resumeLinks_keeps)
    | (with_reducible apply State.restoreObjects_keeps)
    | (with_reducible apply State.trainPort_keeps)
    | (with_reducible apply State.count_keeps)
    | (with_reducible apply State.each_keepsK)
    | (with_reducible apply State.when_keepsK)
    | (intro _ _ _; beta_reduce)
    | (intro _ _; beta_reduce)
    | split

theorem execClockUngate_keeps {k0 s : State} (hK : Keeps k0 s) : OutKeeps k0 (execClockUngate s) := by
  unfold execClockUngate
  repeat' first
    | with_reducible assumption
    | (with_reducible apply OutKeeps.next)
    | (with_reducible apply State.clockTo_keeps)
    | (with_reducible apply State.raise_keeps)
    | (with_reducible apply State.each_keepsK)
    | (with_reducible apply State.when_keepsK)
    | (intro _ _ _; beta_reduce)
    | (intro _ _; beta_reduce)
    | split

/-! ### Resets -/

theorem execColdReset_keeps {k0 s : State} (hK : Keeps k0 s) : OutKeeps k0 (execColdReset s) := by
  unfold execColdReset
  repeat' first
    | with_reducible assumption
    | (with_reducible apply OutKeeps.next)
    | (with_reducible apply State.coldStart_keeps)

theorem State.restartAt_keeps {k0 s : State} (hK : Keeps k0 s) (t : Nat) : Keeps k0 (State.restartAt s t) := by
  unfold State.restartAt
  repeat' first
    | with_reducible assumption
    | (with_reducible apply State.clockTo_keeps)
    | (with_reducible apply State.timeZero_keeps)

theorem execSysRstN_keeps {k0 s : State} (hK : Keeps k0 s) (ns : BitVec 32) : OutKeeps k0 (execSysRstN ns s) := by
  unfold execSysRstN
  repeat' first
    | with_reducible assumption
    | (with_reducible apply OutKeeps.next)
    | (with_reducible apply State.warmStart_keeps)
    | (with_reducible apply State.restartAt_keeps)
    | split

theorem State.hold_keeps {k0 s : State} (hK : Keeps k0 s) (why : Nat) : Keeps k0 (State.hold s why) := by
  unfold State.hold
  repeat' first
    | with_reducible assumption
    | fail_if_no_progress (with_reducible refine Keeps.upd ?_ (Nat.le_refl _) (Nat.le_refl _) rfl rfl rfl)

theorem execPerstN_keeps {k0 s : State} (hK : Keeps k0 s) (low : Bool) : OutKeeps k0 (execPerstN low s) := by
  unfold execPerstN
  repeat' first
    | with_reducible assumption
    | (with_reducible apply OutKeeps.next)
    | (with_reducible apply State.release_keeps)
    | (with_reducible apply State.warmStart_keeps)
    | (with_reducible apply State.hold_keeps)
    | split

theorem State.writeResetCtrl_keeps {k0 s : State} (hK : Keeps k0 s) (fn : Nat) (confirm : Nat) : Keeps k0 (State.writeResetCtrl s fn confirm) := by
  unfold State.writeResetCtrl
  repeat' first
    | with_reducible assumption
    | (with_reducible apply State.leaveAndReset_keeps)
    | split

theorem execWarm_keeps {k0 s : State} (hK : Keeps k0 s) (fn : FnId) (confirm : BitVec 16) : OutKeeps k0 (execWarm fn confirm s) := by
  unfold execWarm
  repeat' first
    | with_reducible assumption
    | (with_reducible apply OutKeeps.next)
    | (with_reducible apply State.bar0_keeps)
    | (with_reducible apply State.writeResetCtrl_keeps)
    | (intro _ _; beta_reduce)

theorem execSupplyLow_keeps {k0 s : State} (hK : Keeps k0 s) (rail : Rail) : OutKeeps k0 (execSupplyLow rail s) := by
  unfold execSupplyLow
  repeat' first
    | with_reducible assumption
    | (with_reducible apply OutKeeps.next)
    | (with_reducible apply State.coldStart_keeps)
    | (with_reducible apply State.warmStart_keeps)
    | (with_reducible apply State.hold_keeps)
    | split

theorem execPwrfailNFall_keeps {k0 s : State} (hK : Keeps k0 s) : OutKeeps k0 (execPwrfailNFall s) := by
  unfold execPwrfailNFall
  repeat' first
    | with_reducible assumption
    | (with_reducible apply OutKeeps.next)
    | (with_reducible apply State.modFlash_keeps)
    | (with_reducible apply State.drainIntake_keeps)
    | (with_reducible apply State.raise_keeps)
    | (with_reducible apply State.jasper_keeps)
    | (with_reducible apply State.endVaultRead_keeps)
    | (with_reducible apply State.warmStart_keeps)
    | (with_reducible apply State.hold_keeps)
    | (with_reducible apply State.beginWake_keeps)
    | (with_reducible apply State.count_keeps)
    | split

theorem execPwrfailNRise_keeps {k0 s : State} (hK : Keeps k0 s) : OutKeeps k0 (execPwrfailNRise s) := by
  unfold execPwrfailNRise
  repeat' first
    | with_reducible assumption
    | (with_reducible apply OutKeeps.next)
    | (with_reducible apply State.modFlash_keeps)
    | (with_reducible apply State.setFld_keeps)
    | (with_reducible apply State.release_keeps)
    | (with_reducible apply State.modPower_keeps)
    | (with_reducible apply State.restoreObjects_keeps)
    | (with_reducible apply State.recordDue_keeps)
    | (with_reducible apply State.resumeLinks_keeps)
    | (with_reducible apply State.when_keepsK)
    | (intro _ _; beta_reduce)

theorem execWatchdog_keeps {k0 s : State} (hK : Keeps k0 s) (w : MgmtStop) : OutKeeps k0 (execWatchdog w s) := by
  unfold execWatchdog
  repeat' first
    | with_reducible assumption
    | (with_reducible apply OutKeeps.next)
    | (with_reducible apply State.clockTo_keeps)
    | (with_reducible apply State.jasper_keeps)
    | (with_reducible apply State.leaveAndReset_keeps)
    | split

theorem execResetRequest_keeps {k0 s : State} (hK : Keeps k0 s) (target : Member) (requester : Member) : OutKeeps k0 (execResetRequest target requester s) := by
  unfold execResetRequest
  repeat' first
    | with_reducible assumption
    | (with_reducible apply OutKeeps.next)
    | (with_reducible apply State.takeMgmt_keeps)
    | (with_reducible apply State.jasper_keeps)
    | (with_reducible apply State.leaveAndReset_keeps)
    | (with_reducible apply State.startRelink_keeps)
    | (intro x; refine Keeps.cut (a := k0) x ?_ (fun hx => ?_); rotate_left; clear_value x; rotate_right; subst x)
    | split
    | lift_lets -underBinder

theorem State.flrInstall_keeps {k0 s : State} (hK : Keeps k0 s) (mine : Nat → Bool) : Keeps k0 (State.flrInstall s mine) := by
  unfold State.flrInstall
  repeat' first
    | with_reducible assumption
    | (with_reducible apply State.abortInst_keeps)
    | (with_reducible apply State.when_keepsK)
    | (intro _ _; beta_reduce)
    | split

theorem State.flrPart_keeps {k0 s : State} (hK : Keeps k0 s) (fn : Nat) (p : Nat) : Keeps k0 (State.flrPart s fn p) := by
  unfold State.flrPart
  repeat' first
    | with_reducible assumption
    | (with_reducible apply State.forceFld_keeps)
    | (with_reducible apply State.recountPages_keeps)
    | (with_reducible apply State.modHost_keeps)
    | (with_reducible apply State.raise_keeps)
    | (with_reducible apply State.closeParts_keeps)
    | (with_reducible apply State.modObj_keeps)
    | (with_reducible apply State.settleDeletes_keeps)
    | (with_reducible apply State.jasper_keeps)
    | (with_reducible apply State.each_keepsK)
    | (with_reducible apply State.when_keepsK)
    | (intro _ _ _; beta_reduce)

theorem State.flrQueue_keeps {k0 s : State} (hK : Keeps k0 s) (q : Nat) : Keeps k0 (State.flrQueue s q) := by
  unfold State.flrQueue
  repeat' first
    | with_reducible assumption
    | (with_reducible apply State.setFld_keeps)
    | (with_reducible apply State.stopQueue_keeps)

theorem State.flr_keeps {k0 s : State} (hK : Keeps k0 s) (fn : Nat) : Keeps k0 (State.flr s fn) := by
  unfold State.flr
  repeat' first
    | with_reducible assumption
    | (with_reducible apply State.flrInstall_keeps)
    | (with_reducible apply State.flrQueue_keeps)
    | (with_reducible apply State.flrPart_keeps)
    | (with_reducible apply State.each_keepsK)
    | (intro _ _ _; beta_reduce)
    | split

theorem execFunctionLevelReset_keeps {k0 s : State} (hK : Keeps k0 s) (fn : FnId) : OutKeeps k0 (execFunctionLevelReset fn s) := by
  unfold execFunctionLevelReset
  repeat' first
    | with_reducible assumption
    | (with_reducible apply OutKeeps.next)
    | (with_reducible apply State.flr_keeps)
    | split

theorem execHotReset_keeps {k0 s : State} (hK : Keeps k0 s) : OutKeeps k0 (execHotReset s) := by
  unfold execHotReset
  repeat' first
    | with_reducible assumption
    | (with_reducible apply OutKeeps.next)
    | (with_reducible apply State.flr_keeps)
    | (with_reducible apply State.wr_keeps)

/-! ### Boot -/

theorem rpmcKept_trans {x y z : Option (BitVec 256) × Nat} (h : rpmcKept x y) (h2 : rpmcKept y z) : rpmcKept x z := by
  refine ⟨fun k hk => h2.1 k (h.1 k hk), fun hx => ?_⟩
  cases hk : x.1 with
  | none => exact absurd hk hx
  | some k => exact Nat.le_trans (h.2 hx) (h2.2 (by rw [h.1 k hk]; simp))
theorem State.modBoot_keeps {b0 s : State} (h : Keeps b0 s) (f : BootSt → BootSt) (hr : ∀ b, rpmcKept b.rpmc (f b).rpmc)
    (hn : ∀ b : BootSt, b.nor.wf → (f b).nor.wf) (hb : ∀ b : BootSt, b.buffer.wf → (f b).buffer.wf) : Keeps b0 (s.modBoot f) :=
  { h with rpmc := rpmcKept_trans h.rpmc (hr _), nor := hn _ h.nor, buffer := hb _ h.buffer }

theorem State.identify_keeps {k0 s : State} (hK : Keeps k0 s) (secret : BitVec 256) : Keeps k0 (State.identify s secret) := by
  unfold State.identify
  repeat' first
    | with_reducible assumption
    | (with_reducible apply State.modBoot_keeps)
    | (with_reducible apply State.setFld_keeps)
    | exact fun _ => rpmcKept_refl _
    | with_reducible exact fun _ h => h

theorem State.noIdentity_keeps {k0 s : State} (hK : Keeps k0 s) : Keeps k0 (State.noIdentity s) := by
  unfold State.noIdentity
  repeat' first
    | with_reducible assumption
    | (with_reducible apply State.modBoot_keeps)
    | (with_reducible apply State.setFld_keeps)
    | exact fun _ => rpmcKept_refl _
    | with_reducible exact fun _ h => h

theorem State.openRecord_keeps {b0 s t0 : State} {secret : BitVec 256} (he0 : State.openRecord s secret = some t0) (h : Keeps b0 s) : Keeps b0 t0 := by
  have fin : ∀ (u : State) (i : Nat), Keeps b0 u → Keeps b0 (((u.modBoot fun b => { b with record := i, ownerHash := word256 (recordHash b.nor i) }).setFld
      Fld.BOOT_STATE_OWNED (bit1 (recordOwned (u.modBoot fun b => { b with record := i, ownerHash := word256 (recordHash b.nor i) }).boot.nor i))).setFld
      Fld.BOOT_MIN_SVN_SVN (recordSvn (u.modBoot fun b => { b with record := i, ownerHash := word256 (recordHash b.nor i) }).boot.nor i)) := fun u i hu =>
    State.setFld_keeps (State.setFld_keeps (State.modBoot_keeps hu (fun b => { b with record := i, ownerHash := word256 (recordHash b.nor i) }) (fun _ => rpmcKept_refl _) (fun _ h => h) (fun _ h => h)) _ _) _ _
  unfold State.openRecord at he0
  dsimp only at he0
  cases hk : s.boot.rpmc.1 with
  | none =>
    rw [hk] at he0
    injection he0 with he0
    rw [← he0]
    refine fin _ _ { h with rpmc := rpmcKept_trans h.rpmc ⟨fun k hk2 => ?_, fun hk2 => absurd hk hk2⟩, nor := Mem.wf_wrBlk h.nor _ _ }
    rw [hk] at hk2
    exact absurd hk2 (by simp)
  | some k =>
    rw [hk] at he0
    dsimp only at he0
    split at he0
    · injection he0 with he0
      exact he0 ▸ fin _ _ h
    · exact absurd he0 (by simp)

theorem State.updateRecord_keeps {b0 s t0 : State} {minSvn : Nat} {owned : Bool} {hash : List Byte} (he0 : State.updateRecord s minSvn owned hash = some t0) (h : Keeps b0 s) : Keeps b0 t0 := by
  unfold State.updateRecord at he0
  dsimp only at he0
  split at he0
  · exact absurd he0 (by simp)
  · split at he0
    · injection he0 with he0
      rw [← he0]
      exact { h with nor := Mem.wf_wrBlk h.nor _ _ }
    · exact absurd he0 (by simp)

theorem State.bumpCounter_keeps {b0 s : State} (h : Keeps b0 s) : Keeps b0 s.bumpCounter :=
  { h with rpmc := rpmcKept_trans h.rpmc ⟨fun _ hk => hk, fun _ => Nat.le_succ s.boot.rpmc.2⟩ }

theorem State.cfgField_keeps {k0 s : State} (hK : Keeps k0 s) (r : CfgRec) (at_ : Nat) (lo : Nat) (w : Nat) (f : Fld) : Keeps k0 (State.cfgField s r at_ lo w f) := by
  unfold State.cfgField
  repeat' first
    | with_reducible assumption
    | (with_reducible apply State.setFld_keeps)
    | (with_reducible apply State.jasper_keeps)
    | (intro x; clear_value x)
    | split
    | lift_lets -underBinder

theorem State.cfgDefaults_keeps {k0 s : State} (hK : Keeps k0 s) : Keeps k0 (State.cfgDefaults s) := by
  unfold State.cfgDefaults
  repeat' first
    | with_reducible assumption
    | (with_reducible apply State.setFld_keeps)
    | (with_reducible apply State.raise_keeps)
    | (with_reducible apply State.each_keepsK)
    | (intro _ _ _; beta_reduce)

theorem State.cfgTopology_keeps {k0 s : State} (hK : Keeps k0 s) (r : CfgRec) : Keeps k0 (State.cfgTopology s r) := by
  unfold State.cfgTopology
  repeat' first
    | with_reducible assumption
    | (with_reducible apply State.cfgField_keeps)
    | (with_reducible apply State.setFld_keeps)
    | (with_reducible apply State.each_keepsK)
    | (intro _ _ _; beta_reduce)

theorem State.cfgTick_keeps {k0 s : State} (hK : Keeps k0 s) (r : CfgRec) : Keeps k0 (State.cfgTick s r) := by
  unfold State.cfgTick
  repeat' first
    | with_reducible assumption
    | (with_reducible apply State.cfgField_keeps)
    | (with_reducible apply State.each_keepsK)
    | (intro _ _ _; beta_reduce)

theorem State.cfgPorts_keeps {k0 s : State} (hK : Keeps k0 s) (r : CfgRec) : Keeps k0 (State.cfgPorts s r) := by
  unfold State.cfgPorts
  repeat' first
    | with_reducible assumption
    | (with_reducible apply State.cfgField_keeps)
    | (with_reducible apply State.each_keepsK)
    | (intro _ _ _; beta_reduce)

theorem State.cfgPartitions_keeps {k0 s : State} (hK : Keeps k0 s) (r : CfgRec) : Keeps k0 (State.cfgPartitions s r) := by
  unfold State.cfgPartitions
  repeat' first
    | with_reducible assumption
    | (with_reducible apply State.cfgField_keeps)
    | (with_reducible apply State.each_keepsK)
    | (intro _ _ _; beta_reduce)

theorem State.cfgRegulators_keeps {k0 s : State} (hK : Keeps k0 s) (r : CfgRec) : Keeps k0 (State.cfgRegulators s r) := by
  unfold State.cfgRegulators
  repeat' first
    | with_reducible assumption
    | (with_reducible apply State.cfgField_keeps)
    | (with_reducible apply State.jasper_keeps)
    | (with_reducible apply State.checkShares_keeps)
    | (with_reducible apply State.each_keepsK)
    | (intro x; clear_value x)
    | (intro _ _ _; beta_reduce)
    | split
    | lift_lets -underBinder

theorem State.cfgLaneMap_keeps {k0 s : State} (hK : Keeps k0 s) (r : CfgRec) : Keeps k0 (State.cfgLaneMap s r) := by
  unfold State.cfgLaneMap
  repeat' first
    | with_reducible assumption
    | (with_reducible apply State.modBoot_keeps)
    | (with_reducible apply State.jasper_keeps)
    | (with_reducible apply State.each_keepsK)
    | exact fun _ => rpmcKept_refl _
    | with_reducible exact fun _ h => h
    | (intro x; clear_value x)
    | (intro _ _ _; beta_reduce)
    | split
    | lift_lets -underBinder

theorem State.cfgFlash_keeps {k0 s : State} (hK : Keeps k0 s) (r : CfgRec) : Keeps k0 (State.cfgFlash s r) := by
  unfold State.cfgFlash
  repeat' first
    | with_reducible assumption
    | (with_reducible apply State.cfgField_keeps)
    | (with_reducible apply State.modBoot_keeps)
    | exact fun _ => rpmcKept_refl _
    | with_reducible exact fun _ h => h

theorem State.cfgPower_keeps {k0 s : State} (hK : Keeps k0 s) (r : CfgRec) : Keeps k0 (State.cfgPower s r) := by
  unfold State.cfgPower
  repeat' first
    | with_reducible assumption
    | (with_reducible apply State.cfgField_keeps)
    | (with_reducible apply State.each_keepsK)
    | (intro _ _ _; beta_reduce)

theorem State.cfgRecord_keeps {k0 s : State} (hK : Keeps k0 s) (r : CfgRec) : Keeps k0 (State.cfgRecord s r) := by
  unfold State.cfgRecord
  repeat' first
    | with_reducible assumption
    | (with_reducible apply State.cfgTopology_keeps)
    | (with_reducible apply State.cfgTick_keeps)
    | (with_reducible apply State.cfgPorts_keeps)
    | (with_reducible apply State.cfgPartitions_keeps)
    | (with_reducible apply State.cfgRegulators_keeps)
    | (with_reducible apply State.cfgLaneMap_keeps)
    | (with_reducible apply State.modBoot_keeps)
    | (with_reducible apply State.cfgFlash_keeps)
    | (with_reducible apply State.cfgPower_keeps)
    | (with_reducible apply State.jasper_keeps)
    | exact fun _ => rpmcKept_refl _
    | with_reducible exact fun _ h => h
    | split

theorem State.configure_keeps {b0 s : State} (h : Keeps b0 s) (rs : List CfgRec) : Keeps b0 (s.configure rs) := by
  have h1 : ∀ (l : List CfgRec) (p : State × List Nat), Keeps b0 p.1 → Keeps b0 (l.foldl (fun (a : State × List Nat) r =>
      if r.type ∈ a.2 then (a.1.jasper .configRecord 0 r.type r.off, a.2) else (a.1.cfgRecord r, r.type :: a.2)) p).1 := by
    intro l
    induction l with
    | nil => exact fun _ h => h
    | cons r l ih =>
      intro p hp
      refine ih _ ?_
      dsimp only
      split
      · exact State.jasper_keeps hp _ _ _ _
      · exact State.cfgRecord_keeps hp _
  have h2 := h1 rs (s.cfgDefaults, []) (State.cfgDefaults_keeps h)
  unfold State.configure
  dsimp only
  generalize List.foldl _ _ _ = r at h2 ⊢
  exact State.refreshOpen_keeps (State.applyCodes_keeps (State.setFld_keeps h2 _ _))

theorem State.extendMr_keeps {k0 s : State} (hK : Keeps k0 s) (i : Nat) (d : List Byte) : Keeps k0 (State.extendMr s i d) := by
  unfold State.extendMr
  repeat' first
    | with_reducible assumption
    | (with_reducible apply State.setFld_keeps)
    | (with_reducible apply State.each_keepsK)
    | (intro _ _ _; beta_reduce)

theorem State.measure_keeps {k0 s : State} (hK : Keeps k0 s) (k : Nat) : Keeps k0 (State.measure s k) := by
  unfold State.measure
  repeat' first
    | with_reducible assumption
    | (with_reducible apply State.extendMr_keeps)

theorem State.startEntry_keeps {k0 s : State} (hK : Keeps k0 s) : Keeps k0 (State.startEntry s) := by
  unfold State.startEntry
  repeat' first
    | with_reducible assumption
    | (with_reducible apply State.jasper_keeps)

theorem State.loadRngKeys_keeps {k0 s : State} (hK : Keeps k0 s) : Keeps k0 (State.loadRngKeys s) := by
  unfold State.loadRngKeys
  repeat' first
    | with_reducible assumption
    | (with_reducible apply State.fresh_keeps)
    | (with_reducible apply State.wr_keeps)
    | (with_reducible apply State.each_keepsK)
    | (intro _ _ _; beta_reduce)

theorem State.bootSlot_keeps {k0 s : State} (hK : Keeps k0 s) (k : Nat) : Keeps k0 (State.bootSlot s k) := by
  unfold State.bootSlot
  repeat' first
    | with_reducible assumption
    | (with_reducible apply State.setFld_keeps)
    | (with_reducible apply State.noIdentity_keeps)
    | (with_reducible apply State.endStart_keeps)
    | (with_reducible apply State.measure_keeps)
    | (intro x; refine Keeps.cut (a := k0) x ?_ (fun hx => ?_); rotate_left; clear_value x; rotate_right; subst x)
    | (intro x; clear_value x)
    | split
    | lift_lets -underBinder

theorem State.firmwareStart_keeps {k0 s : State} (hK : Keeps k0 s) : Keeps k0 (State.firmwareStart s) := by
  unfold State.firmwareStart
  repeat' first
    | with_reducible assumption
    | (with_reducible apply State.configure_keeps)
    | (with_reducible apply State.loadRngKeys_keeps)
    | (with_reducible apply State.setFld_keeps)

theorem State.trainStart_keeps {k0 s : State} (hK : Keeps k0 s) : Keeps k0 (State.trainStart s) := by
  unfold State.trainStart
  repeat' first
    | with_reducible assumption
    | (with_reducible apply State.stackState_keeps)
    | (with_reducible apply State.setFld_keeps)
    | (with_reducible apply State.each_keepsK)
    | (intro _ _ _; beta_reduce)

theorem State.bootOn_keeps {k0 s : State} (hK : Keeps k0 s) : Keeps k0 (State.bootOn s) := by
  unfold State.bootOn
  repeat' first
    | with_reducible assumption
    | (with_reducible apply State.firmwareStart_keeps)
    | (with_reducible apply State.clockTo_keeps)
    | (with_reducible apply State.trainStart_keeps)
    | (intro x; refine Keeps.cut (a := k0) x ?_ (fun hx => ?_); rotate_left; clear_value x; rotate_right; subst x)
    | split
    | lift_lets -underBinder

theorem State.bootStep_keeps {k0 s : State} (hK : Keeps k0 s) : Keeps k0 (State.bootStep s) := by
  unfold State.bootStep
  repeat' first
    | with_reducible assumption
    | (with_reducible apply State.firmwareStart_keeps)
    | (with_reducible apply State.trainStart_keeps)
    | split

theorem State.trySlots_keeps {k0 s : State} (hK : Keeps k0 s) : Keeps k0 (State.trySlots s) := by
  unfold State.trySlots
  repeat' first
    | with_reducible assumption
    | (with_reducible apply State.jasper_keeps)
    | (with_reducible apply State.bootSlot_keeps)
    | (with_reducible apply State.raise_keeps)
    | (with_reducible apply State.endStart_keeps)
    | (intro (x : State → _); subst x)
    | (intro x; refine Keeps.cut (a := k0) x ?_ (fun hx => ?_); rotate_left; clear_value x; rotate_right; subst x)
    | (intro x; clear_value x)
    | split
    | lift_lets -underBinder

theorem State.startUp_keeps {k0 s : State} (hK : Keeps k0 s) (pufRead : BitVec 32) : Keeps k0 (State.startUp s pufRead) := by
  unfold State.startUp
  repeat' first
    | with_reducible assumption
    | (with_reducible apply State.clockTo_keeps)
    | (with_reducible apply State.setFld_keeps)
    | (with_reducible apply State.startEntry_keeps)
    | (with_reducible apply State.endStart_keeps)
    | (with_reducible apply State.identify_keeps)
    | (with_reducible refine State.openRecord_keeps ‹State.openRecord _ _ = _› ?_)
    | (with_reducible apply State.trySlots_keeps)
    | (with_reducible apply State.each_keepsK)
    | (intro x; refine Keeps.cut (a := k0) x ?_ (fun hx => ?_); rotate_left; clear_value x; rotate_right; subst x)
    | (intro x; clear_value x)
    | (intro _ _ _; beta_reduce)
    | split
    | lift_lets -underBinder

theorem State.railBack_keeps {k0 s : State} (hK : Keeps k0 s) : Keeps k0 (State.railBack s) := by
  unfold State.railBack
  repeat' first
    | with_reducible assumption
    | (with_reducible apply State.clockTo_keeps)
    | (with_reducible apply State.release_keeps)
    | split

theorem execStartup_keeps {k0 s : State} (hK : Keeps k0 s) (pufRead : BitVec 32) : OutKeeps k0 (execStartup pufRead s) := by
  unfold execStartup
  repeat' first
    | with_reducible assumption
    | (with_reducible apply OutKeeps.next)
    | (with_reducible apply State.railBack_keeps)
    | (with_reducible apply State.startUp_keeps)
    | split

theorem execStacksIdentified_keeps {k0 s : State} (hK : Keeps k0 s) (small : Bool) : OutKeeps k0 (execStacksIdentified small s) := by
  unfold execStacksIdentified
  repeat' first
    | with_reducible assumption
    | (with_reducible apply OutKeeps.next)
    | (with_reducible apply State.bootOn_keeps)
    | (with_reducible apply State.clockTo_keeps)
    | (with_reducible apply State.modBoot_keeps)
    | (with_reducible apply State.setFld_keeps)
    | (with_reducible apply State.recountFrames_keeps)
    | (with_reducible apply State.noIdentity_keeps)
    | (with_reducible apply State.endStart_keeps)
    | (with_reducible apply State.each_keepsK)
    | exact fun _ => rpmcKept_refl _
    | with_reducible exact fun _ h => h
    | (intro x; refine Keeps.cut (a := k0) x ?_ (fun hx => ?_); rotate_left; clear_value x; rotate_right; subst x)
    | (intro x; clear_value x)
    | (intro _ _ _; beta_reduce)
    | split
    | lift_lets -underBinder

theorem execSelfTest_keeps {k0 s : State} (hK : Keeps k0 s) (failing : Option ClusterId) : OutKeeps k0 (execSelfTest failing s) := by
  unfold execSelfTest
  repeat' first
    | with_reducible assumption
    | (with_reducible apply OutKeeps.next)
    | (with_reducible apply State.clockTo_keeps)
    | (with_reducible apply State.raise_keeps)
    | (with_reducible apply State.setFld_keeps)
    | (with_reducible apply State.endStart_keeps)
    | (with_reducible apply State.each_keepsK)
    | (intro _ _ _; beta_reduce)
    | split

theorem execOpticalEnginesSettled_keeps {k0 s : State} (hK : Keeps k0 s) : OutKeeps k0 (execOpticalEnginesSettled s) := by
  unfold execOpticalEnginesSettled
  repeat' first
    | with_reducible assumption
    | (with_reducible apply OutKeeps.next)
    | (with_reducible apply State.clockTo_keeps)
    | (with_reducible apply State.modBoot_keeps)
    | (with_reducible apply State.trainPort_keeps)
    | (with_reducible apply State.each_keepsK)
    | exact fun _ => rpmcKept_refl _
    | with_reducible exact fun _ h => h
    | (intro _ _ _; beta_reduce)
    | split

theorem State.tellPorts_keeps {k0 s : State} (hK : Keeps k0 s) : Keeps k0 (State.tellPorts s) := by
  unfold State.tellPorts
  repeat' first
    | with_reducible assumption
    | (with_reducible apply State.modBoot_keeps)
    | (with_reducible apply State.jasper_keeps)
    | (with_reducible apply State.each_keepsK)
    | exact fun _ => rpmcKept_refl _
    | with_reducible exact fun _ h => h
    | (intro _ _ _; beta_reduce)
    | split

theorem execPortWaitExpiry_keeps {k0 s : State} (hK : Keeps k0 s) : OutKeeps k0 (execPortWaitExpiry s) := by
  unfold execPortWaitExpiry
  repeat' first
    | with_reducible assumption
    | (with_reducible apply OutKeeps.next)
    | (with_reducible apply State.clockTo_keeps)
    | (with_reducible apply State.tellPorts_keeps)
    | split

theorem execReady_keeps {k0 s : State} (hK : Keeps k0 s) : OutKeeps k0 (execReady s) := by
  unfold execReady
  repeat' first
    | with_reducible assumption
    | (with_reducible apply OutKeeps.next)
    | (with_reducible apply State.tellPorts_keeps)
    | (with_reducible apply State.raise_keeps)
    | (with_reducible apply State.setFld_keeps)
    | (with_reducible apply State.rebaseLost_keeps)
    | fail_if_no_progress (with_reducible refine Keeps.upd ?_ (Nat.le_refl _) (Nat.le_refl _) rfl rfl rfl)
    | (intro x; refine Keeps.cut (a := k0) x ?_ (fun hx => ?_); rotate_left; clear_value x; rotate_right; subst x)
    | (intro x; clear_value x)
    | split
    | lift_lets -underBinder

theorem execEntropyFail_keeps {k0 s : State} (hK : Keeps k0 s) (adaptive : Bool) : OutKeeps k0 (execEntropyFail adaptive s) := by
  unfold execEntropyFail
  repeat' first
    | with_reducible assumption
    | (with_reducible apply OutKeeps.next)
    | (with_reducible apply State.endStart_keeps)
    | (with_reducible apply State.modBoot_keeps)
    | (with_reducible apply State.jasper_keeps)
    | exact fun _ => rpmcKept_refl _
    | with_reducible exact fun _ h => h
    | split

theorem execEntropySourceRecovers_keeps {k0 s : State} (hK : Keeps k0 s) : OutKeeps k0 (execEntropySourceRecovers s) := by
  unfold execEntropySourceRecovers
  repeat' first
    | with_reducible assumption
    | (with_reducible apply OutKeeps.next)
    | (with_reducible apply State.modBoot_keeps)
    | (with_reducible apply State.beginObject_keeps)
    | exact fun _ => rpmcKept_refl _
    | with_reducible exact fun _ h => h
    | split

theorem State.writeTest_keeps {k0 s : State} (hK : Keeps k0 s) (v : Bool) : Keeps k0 (State.writeTest s v) := by
  unfold State.writeTest
  repeat' first
    | with_reducible assumption
    | (with_reducible apply State.setFld_keeps)
    | (with_reducible apply State.jasper_keeps)
    | split

theorem execTestEnable_keeps {k0 s : State} (hK : Keeps k0 s) (v : Bool) : OutKeeps k0 (execTestEnable v s) := by
  unfold execTestEnable
  repeat' first
    | with_reducible assumption
    | (with_reducible apply OutKeeps.next)
    | (with_reducible apply State.bar0_keeps)
    | (with_reducible apply State.writeTest_keeps)
    | (intro _ _; beta_reduce)

theorem State.mailNo_keeps {k0 s : State} (hK : Keeps k0 s) (r : MailResult) : Keeps k0 (State.mailNo s r).1 := by
  unfold State.mailNo
  repeat' first
    | with_reducible assumption
theorem State.mailIdentity_keeps {k0 s : State} (hK : Keeps k0 s) : Keeps k0 (State.mailIdentity s).1 := by
  unfold State.mailIdentity
  repeat' first
    | with_reducible assumption
    | (with_reducible apply State.mailNo_keeps)
    | split
theorem State.mailCert_keeps {k0 s : State} (hK : Keeps k0 s) : Keeps k0 (State.mailCert s).1 := by
  unfold State.mailCert
  repeat' first
    | with_reducible assumption
    | (with_reducible apply State.mailNo_keeps)
    | split
theorem State.mailAttest_keeps {k0 s : State} (hK : Keeps k0 s) (req : List Byte) : Keeps k0 (State.mailAttest s req).1 := by
  unfold State.mailAttest
  repeat' first
    | with_reducible assumption
    | (with_reducible apply State.mailNo_keeps)
    | (with_reducible apply State.fresh_keeps)
    | split
theorem State.mailExtend_keeps {k0 s : State} (hK : Keeps k0 s) (req : List Byte) : Keeps k0 (State.mailExtend s req).1 := by
  unfold State.mailExtend
  repeat' first
    | with_reducible assumption
    | (with_reducible apply State.mailNo_keeps)
    | (with_reducible apply State.extendMr_keeps)
    | (intro x; clear_value x)
    | split
    | lift_lets -underBinder
theorem State.mailOwner_keeps {k0 s : State} (hK : Keeps k0 s) (req : List Byte) : Keeps k0 (State.mailOwner s req).1 := by
  unfold State.mailOwner
  repeat' first
    | with_reducible assumption
    | (with_reducible apply State.mailNo_keeps)
    | (with_reducible refine State.updateRecord_keeps ‹State.updateRecord _ _ _ _ = _› ?_)
    | (intro x; clear_value x)
    | split
    | lift_lets -underBinder
theorem State.mailSvn_keeps {k0 s : State} (hK : Keeps k0 s) (req : List Byte) : Keeps k0 (State.mailSvn s req).1 := by
  unfold State.mailSvn
  repeat' first
    | with_reducible assumption
    | (with_reducible apply State.mailNo_keeps)
    | (with_reducible refine State.updateRecord_keeps ‹State.updateRecord _ _ _ _ = _› ?_)
    | (intro x; clear_value x)
    | split
    | lift_lets -underBinder
theorem State.mailNorWrite_keeps {k0 s : State} (hK : Keeps k0 s) (req : List Byte) (done : Nat) : Keeps k0 (State.mailNorWrite s req done).1 := by
  unfold State.mailNorWrite
  repeat' first
    | with_reducible assumption
    | (with_reducible apply State.mailNo_keeps)
    | (with_reducible apply State.modBoot_keeps)
    | exact fun _ => rpmcKept_refl _
    | with_reducible exact fun _ h => h
    | exact fun _ h => Mem.wf_wrBlk h _ _
    | (intro x; clear_value x)
    | split
    | lift_lets -underBinder
theorem State.mailNorRead_keeps {k0 s : State} (hK : Keeps k0 s) (req : List Byte) : Keeps k0 (State.mailNorRead s req).1 := by
  unfold State.mailNorRead
  repeat' first
    | with_reducible assumption
    | (with_reducible apply State.mailNo_keeps)
    | (intro x; clear_value x)
    | split
    | lift_lets -underBinder
theorem State.mail_keeps {k0 s : State} (hK : Keeps k0 s) (j : MailJob) : Keeps k0 (State.mail s j).1 := by
  unfold State.mail
  repeat' first
    | with_reducible assumption
    | (with_reducible apply State.mailNo_keeps)
    | (with_reducible apply State.mailIdentity_keeps)
    | (with_reducible apply State.mailCert_keeps)
    | (with_reducible apply State.mailAttest_keeps)
    | (with_reducible apply State.mailExtend_keeps)
    | (with_reducible apply State.mailOwner_keeps)
    | (with_reducible apply State.bumpCounter_keeps)
    | (with_reducible apply State.mailSvn_keeps)
    | (with_reducible apply State.mailNorWrite_keeps)
    | (with_reducible apply State.mailNorRead_keeps)
    | split
theorem State.mailEnd_keeps {k0 s : State} (hK : Keeps k0 s) (j : MailJob) (res : MailResult) (rsp : List Byte) : Keeps k0 (State.mailEnd s j res rsp) := by
  unfold State.mailEnd
  repeat' first
    | with_reducible assumption
    | (with_reducible apply State.modBoot_keeps)
    | (with_reducible apply State.out_keeps)
    | (with_reducible apply State.setFld_keeps)
    | exact fun _ => rpmcKept_refl _
    | with_reducible exact fun _ h => h
    | exact fun _ h => Mem.wf_wrBlk h _ _
    | split

theorem State.mailStep_keeps {k0 s : State} (hK : Keeps k0 s) : Keeps k0 (State.mailStep s) := by
  unfold State.mailStep
  repeat' first
    | with_reducible assumption
    | (with_reducible apply State.mail_keeps)
    | (with_reducible apply State.modBoot_keeps)
    | (with_reducible apply State.mailEnd_keeps)
    | exact fun _ => rpmcKept_refl _
    | with_reducible exact fun _ h => h
    | (intro x; refine Keeps.cut1 (a := k0) x ?_ (fun hx => ?_); rotate_left; clear_value x; rotate_right; subst x)
    | split
    | lift_lets -underBinder

theorem State.mailTake_keeps {k0 s : State} (hK : Keeps k0 s) (j : MailJob) : Keeps k0 (State.mailTake s j) := by
  unfold State.mailTake
  repeat' first
    | with_reducible assumption
    | (with_reducible apply State.modBoot_keeps)
    | (with_reducible apply State.notIdle_keeps)
    | exact fun _ => rpmcKept_refl _
    | with_reducible exact fun _ h => h

theorem State.writeSecCmd_keeps {k0 s : State} (hK : Keeps k0 s) (op : Nat) : Keeps k0 (State.writeSecCmd s op) := by
  unfold State.writeSecCmd
  repeat' first
    | with_reducible assumption
    | (with_reducible apply State.setFld_keeps)
    | (with_reducible apply State.mailTake_keeps)
    | split

theorem State.mailbox_keeps {k0 s : State} (hK : Keeps k0 s) (op : Nat) : Keeps k0 (State.mailbox s op) := by
  unfold State.mailbox
  repeat' first
    | with_reducible assumption
    | (with_reducible apply State.bar0_keeps)
    | (with_reducible apply State.writeSecCmd_keeps)
    | (intro _ _; beta_reduce)

theorem execGetIdentity_keeps {k0 s : State} (hK : Keeps k0 s) : OutKeeps k0 (execGetIdentity s) := by
  unfold execGetIdentity
  repeat' first
    | with_reducible assumption
    | (with_reducible apply OutKeeps.next)
    | (with_reducible apply State.mailbox_keeps)

theorem execGetCert_keeps {k0 s : State} (hK : Keeps k0 s) : OutKeeps k0 (execGetCert s) := by
  unfold execGetCert
  repeat' first
    | with_reducible assumption
    | (with_reducible apply OutKeeps.next)
    | (with_reducible apply State.mailbox_keeps)

theorem execAttest_keeps {k0 s : State} (hK : Keeps k0 s) : OutKeeps k0 (execAttest s) := by
  unfold execAttest
  repeat' first
    | with_reducible assumption
    | (with_reducible apply OutKeeps.next)
    | (with_reducible apply State.mailbox_keeps)

theorem execExtend_keeps {k0 s : State} (hK : Keeps k0 s) : OutKeeps k0 (execExtend s) := by
  unfold execExtend
  repeat' first
    | with_reducible assumption
    | (with_reducible apply OutKeeps.next)
    | (with_reducible apply State.mailbox_keeps)

theorem execSetOwner_keeps {k0 s : State} (hK : Keeps k0 s) : OutKeeps k0 (execSetOwner s) := by
  unfold execSetOwner
  repeat' first
    | with_reducible assumption
    | (with_reducible apply OutKeeps.next)
    | (with_reducible apply State.mailbox_keeps)

theorem execCommitSvn_keeps {k0 s : State} (hK : Keeps k0 s) : OutKeeps k0 (execCommitSvn s) := by
  unfold execCommitSvn
  repeat' first
    | with_reducible assumption
    | (with_reducible apply OutKeeps.next)
    | (with_reducible apply State.mailbox_keeps)

theorem execNorWrite_keeps {k0 s : State} (hK : Keeps k0 s) : OutKeeps k0 (execNorWrite s) := by
  unfold execNorWrite
  repeat' first
    | with_reducible assumption
    | (with_reducible apply OutKeeps.next)
    | (with_reducible apply State.mailbox_keeps)

theorem execNorRead_keeps {k0 s : State} (hK : Keeps k0 s) : OutKeeps k0 (execNorRead s) := by
  unfold execNorRead
  repeat' first
    | with_reducible assumption
    | (with_reducible apply OutKeeps.next)
    | (with_reducible apply State.mailbox_keeps)

theorem execInvalidOp_keeps {k0 s : State} (hK : Keeps k0 s) (op : BitVec 8) : OutKeeps k0 (execInvalidOp op s) := by
  unfold execInvalidOp
  repeat' first
    | with_reducible assumption
    | (with_reducible apply OutKeeps.next)
    | (with_reducible apply State.mailbox_keeps)

theorem execDoeRequest_keeps {k0 s : State} (hK : Keeps k0 s) (words : List (BitVec 32)) : OutKeeps k0 (execDoeRequest words s) := by
  unfold execDoeRequest
  repeat' first
    | with_reducible assumption
    | (with_reducible apply OutKeeps.next)
    | (with_reducible apply State.mailTake_keeps)
    | split

theorem State.idleStep_keeps {k0 s : State} (hK : Keeps k0 s) : Keeps k0 (State.idleStep s) := by
  unfold State.idleStep
  repeat' first
    | with_reducible assumption
    | (with_reducible apply State.idleTick_keeps)
    | (with_reducible apply State.bootStep_keeps)
    | (with_reducible apply State.mailStep_keeps)

/-! ### Regs -/

theorem State.latchRead_keeps {k0 s : State} (hK : Keeps k0 s) (b : Blk) (off : Nat) (i : Nat) : Keeps k0 (State.latchRead s b off i) := by
  unfold State.latchRead
  repeat' first
    | with_reducible assumption
    | (with_reducible apply State.setFld_keeps)
    | (with_reducible apply State.syncSeconds_keeps)
    | (with_reducible apply State.each_keepsK)
    | (intro _ _ _; beta_reduce)
    | split

theorem State.readWord_keeps {k0 s : State} (hK : Keeps k0 s) (a : Nat) (on : BitVec 32) (mgmt : Bool) : Keeps k0 (State.readWord s a on mgmt).1 := by
  unfold State.readWord
  repeat' first
    | with_reducible assumption
    | (with_reducible apply State.syncResidency_keeps)
    | (with_reducible apply State.latchRead_keeps)
    | (with_reducible apply State.wr_keeps)
    | fail_if_no_progress (with_reducible refine Keeps.upd ?_ (Nat.le_refl _) (Nat.le_refl _) rfl rfl rfl)
    | (intro x; refine Keeps.cut (a := k0) x ?_ (fun hx => ?_); rotate_left; clear_value x; rotate_right; subst x)
    | (intro x; clear_value x)
    | split
    | lift_lets -underBinder
theorem State.readAt_keeps {k0 s : State} (hK : Keeps k0 s) (d : Nat) (on : BitVec 32) (mgmt : Bool) : Keeps k0 (State.readAt s d on mgmt).1 := by
  unfold State.readAt
  repeat' first
    | with_reducible assumption
    | (with_reducible apply State.bridgeDiscard_keeps)
    | (with_reducible apply State.wakeAccess_keeps)
    | (with_reducible apply State.readWord_keeps)
    | split
theorem State.plainWrite_keeps {k0 s : State} (hK : Keeps k0 s) (b : Blk) (r : RegDef) (a : Nat) (on : BitVec 32) (raw : BitVec 32) : Keeps k0 (State.plainWrite s b r a on raw) := by
  unfold State.plainWrite
  repeat' first
    | with_reducible assumption
    | (with_reducible apply State.jasper_keeps)
    | (with_reducible apply State.wrDefer_keeps)
    | (with_reducible apply State.wr_keeps)
    | (with_reducible apply State.when_keepsK)
    | (intro _ _; beta_reduce)
    | split

theorem State.testWrite_keeps {b0 s : State} (h : Keeps b0 s) (p : Nat) (f : State → State) (hf : ∀ t, Keeps b0 t → Keeps b0 (f t)) :
    Keeps b0 (s.testWrite p f) := by
  unfold State.testWrite
  split
  · exact State.jasper_keeps h _ _ _ _
  · exact hf _ h

theorem State.orderedWrite_keeps {k0 s : State} (hK : Keeps k0 s) (b : Blk) (r : RegDef) (a : Nat) (on : BitVec 32) (raw : BitVec 32) (loAt : Nat) (hiAt : Nat) (w : Nat) : Keeps k0 (State.orderedWrite s b r a on raw loAt hiAt w) := by
  unfold State.orderedWrite
  repeat' first
    | with_reducible assumption
    | (with_reducible apply State.jasper_keeps)
    | (with_reducible apply State.plainWrite_keeps)
    | (intro x; clear_value x)
    | split
    | lift_lets -underBinder

theorem State.writeGarnetCtrl_keeps {k0 s : State} (hK : Keeps k0 s) (r : RegDef) (on : BitVec 32) (raw : BitVec 32) : Keeps k0 (State.writeGarnetCtrl s r on raw) := by
  unfold State.writeGarnetCtrl
  repeat' first
    | with_reducible assumption
    | (with_reducible apply State.plainWrite_keeps)
    | (with_reducible apply State.setWithhold_keeps)
    | (with_reducible apply State.setEnable_keeps)
    | (intro x; refine Keeps.cut (a := k0) x ?_ (fun hx => ?_); rotate_left; clear_value x; rotate_right; subst x)
    | (intro x; clear_value x)
    | split
    | lift_lets -underBinder

theorem State.keepOwn_keeps {k0 s : State} (hK : Keeps k0 s) : Keeps k0 (State.keepOwn s) := by
  unfold State.keepOwn
  repeat' first
    | with_reducible assumption
    | (with_reducible apply State.wrDefer_keeps)
    | (with_reducible apply State.refreshTokens_keeps)
    | (intro x; refine Keeps.cut (a := k0) x ?_ (fun hx => ?_); rotate_left; clear_value x; rotate_right; subst x)
    | (intro x; clear_value x)
    | split
    | lift_lets -underBinder

theorem State.writeLnkCtrl_keeps {k0 s : State} (hK : Keeps k0 s) (p : Nat) (r : RegDef) (on : BitVec 32) (raw : BitVec 32) : Keeps k0 (State.writeLnkCtrl s p r on raw) := by
  unfold State.writeLnkCtrl
  repeat' first
    | with_reducible assumption
    | (with_reducible apply State.plainWrite_keeps)
    | (with_reducible apply State.trainPort_keeps)
    | (with_reducible apply State.portDown_keeps)
    | (intro x; refine Keeps.cut (a := k0) x ?_ (fun hx => ?_); rotate_left; clear_value x; rotate_right; subst x)
    | (intro x; clear_value x)
    | split
    | lift_lets -underBinder

theorem State.writeOnyxCmd_keeps {k0 s : State} (hK : Keeps k0 s) (op : Nat) (raw : BitVec 32) : Keeps k0 (State.writeOnyxCmd s op raw) := by
  unfold State.writeOnyxCmd
  repeat' first
    | with_reducible assumption
    | (with_reducible apply State.formatFlash_keeps)
    | (with_reducible apply State.askCheckpoint_keeps)
    | (with_reducible apply State.startPatrol_keeps)
    | (with_reducible apply State.jasper_keeps)
    | split

theorem State.writeHptCount_keeps {k0 s : State} (hK : Keeps k0 s) (p : Nat) (on : BitVec 32) (raw : BitVec 32) : Keeps k0 (State.writeHptCount s p on raw) := by
  unfold State.writeHptCount
  repeat' first
    | with_reducible assumption
    | (with_reducible apply State.jasper_keeps)
    | (with_reducible apply State.wrDefer_keeps)
    | (with_reducible apply State.recountPages_keeps)
    | (intro x; refine Keeps.cut (a := k0) x ?_ (fun hx => ?_); rotate_left; clear_value x; rotate_right; subst x)
    | (intro x; clear_value x)
    | split
    | lift_lets -underBinder

theorem State.writeRingCfg_keeps {k0 s : State} (hK : Keeps k0 s) (p : Nat) (r : RegDef) (a : Nat) (enable : Fld) (prod : Fld) (on : BitVec 32) (raw : BitVec 32) : Keeps k0 (State.writeRingCfg s p r a enable prod on raw) := by
  unfold State.writeRingCfg
  repeat' first
    | with_reducible assumption
    | (with_reducible apply State.plainWrite_keeps)
    | (with_reducible apply State.startRing_keeps)

theorem State.writeWord_keeps {k0 s : State} (hK : Keeps k0 s) (fn : Nat) (a : Nat) (on : BitVec 32) (raw : BitVec 32) : Keeps k0 (State.writeWord s fn a on raw) := by
  unfold State.writeWord
  repeat' first
    | with_reducible assumption
    | (with_reducible apply State.plainWrite_keeps)
    | (with_reducible apply State.writeResetCtrl_keeps)
    | (with_reducible apply State.writeTest_keeps)
    | (with_reducible apply State.writeSecCmd_keeps)
    | (with_reducible apply State.modBoot_keeps)
    | (with_reducible apply State.writeGarnetCtrl_keeps)
    | (with_reducible apply State.keepOwn_keeps)
    | (with_reducible apply State.openSwitches_keeps)
    | (with_reducible apply State.askLeave_keeps)
    | (with_reducible apply State.writeLnkCtrl_keeps)
    | (with_reducible apply State.writeLnkInj_keeps)
    | (with_reducible apply State.testWrite_keeps)
    | (with_reducible apply State.writeChInj_keeps)
    | (with_reducible apply State.orderedWrite_keeps)
    | (with_reducible apply State.writeOnyxCmd_keeps)
    | (with_reducible apply State.requestFlush_keeps)
    | (with_reducible apply State.writeReadSeq_keeps)
    | (with_reducible apply State.clearBlock_keeps)
    | (with_reducible apply State.clearOne_keeps)
    | (with_reducible apply State.notIdle_keeps)
    | (with_reducible apply State.beginWake_keeps)
    | (with_reducible apply State.refreshTol_keeps)
    | (with_reducible apply State.wakeForTol_keeps)
    | (with_reducible apply State.showSensor_keeps)
    | (with_reducible apply State.writeQCfg_keeps)
    | (with_reducible apply State.setFld_keeps)
    | (with_reducible apply State.writeRingCfg_keeps)
    | (with_reducible apply State.writeEvtCons_keeps)
    | (with_reducible apply State.writeHptCount_keeps)
    | exact fun _ => rpmcKept_refl _
    | with_reducible exact fun _ h => h
    | exact fun _ h => Mem.wf_wrLe h _ _ _
    | (intro x; refine Keeps.cut (a := k0) x ?_ (fun hx => ?_); rotate_left; clear_value x; rotate_right; subst x)
    | (intro x; clear_value x)
    | (intro _ _; beta_reduce)
    | split
    | lift_lets -underBinder

theorem State.writeReg_keeps {k0 s : State} (hK : Keeps k0 s) (fn : Nat) (ofs : Nat) (n : Nat) (data : BitVec 64) (mgmt : Bool) : Keeps k0 (State.writeReg s fn ofs n data mgmt) := by
  unfold State.writeReg
  repeat' first
    | with_reducible assumption
    | (with_reducible apply State.access_keepsK)
    | (with_reducible apply State.writeWord_keeps)
    | (with_reducible apply State.each_keepsK)
    | (intro _ _ _; beta_reduce)
    | (intro _ _; beta_reduce)
    | split

theorem State.readReg_keeps {k0 s : State} (hK : Keeps k0 s) (fn : Nat) (ofs : Nat) (n : Nat) (mgmt : Bool) : Keeps k0 (State.readReg s fn ofs n mgmt) := by
  unfold State.readReg
  repeat' first
    | with_reducible assumption
    | (with_reducible apply State.readAt_keeps)
    | (with_reducible apply Keeps.foldl)
    | fail_if_no_progress (with_reducible refine Keeps.upd ?_ (Nat.le_refl _) (Nat.le_refl _) rfl rfl rfl)
    | (intro _ _ _; beta_reduce)
    | split

theorem State.readBar4_keeps {k0 s : State} (hK : Keeps k0 s) (fn : Nat) (ofs : Nat) (n : Nat) : Keeps k0 (State.readBar4 s fn ofs n) := by
  unfold State.readBar4
  repeat' first
    | with_reducible assumption
    | fail_if_no_progress (with_reducible refine Keeps.upd ?_ (Nat.le_refl _) (Nat.le_refl _) rfl rfl rfl)

theorem State.writeMsix_keeps {k0 s : State} (hK : Keeps k0 s) (v : Nat) (w : Nat) (on : BitVec 32) (raw : BitVec 32) : Keeps k0 (State.writeMsix s v w on raw) := by
  unfold State.writeMsix
  repeat' first
    | with_reducible assumption
    | (with_reducible apply State.modHost_keeps)
    | (with_reducible apply State.sendMsix_keeps)
    | (intro x; refine Keeps.cut (a := k0) x ?_ (fun hx => ?_); rotate_left; clear_value x; rotate_right; subst x)
    | (intro x; clear_value x)
    | split
    | lift_lets -underBinder

theorem State.writeBar4_keeps {k0 s : State} (hK : Keeps k0 s) (fn : Nat) (ofs : Nat) (n : Nat) (data : BitVec 64) : Keeps k0 (State.writeBar4 s fn ofs n data) := by
  unfold State.writeBar4
  repeat' first
    | with_reducible assumption
    | (with_reducible apply State.ringTail_keeps)
    | (with_reducible apply State.ringHead_keeps)
    | (with_reducible apply State.writeMsix_keeps)
    | (with_reducible apply State.each_keepsK)
    | (intro _ _ _; beta_reduce)
    | split

theorem State.readBar_keeps {k0 s : State} (hK : Keeps k0 s) (r : RegRead) (mgmt : Bool) : Keeps k0 (State.readBar s r mgmt) := by
  unfold State.readBar
  repeat' first
    | with_reducible assumption
    | (with_reducible apply State.readBar4_keeps)
    | (with_reducible apply State.readReg_keeps)
    | split

theorem execCounterLowRead_keeps {k0 s : State} (hK : Keeps k0 s) (r : RegRead) (mgmt : Bool) : OutKeeps k0 (execCounterLowRead r mgmt s) := by
  unfold execCounterLowRead
  repeat' first
    | with_reducible assumption
    | (with_reducible apply OutKeeps.next)
    | (with_reducible apply State.readBar_keeps)

theorem execRcRead_keeps {k0 s : State} (hK : Keeps k0 s) (r : RegRead) (mgmt : Bool) : OutKeeps k0 (execRcRead r mgmt s) := by
  unfold execRcRead
  repeat' first
    | with_reducible assumption
    | (with_reducible apply OutKeeps.next)
    | (with_reducible apply State.readBar_keeps)

theorem execEntry0Read_keeps {k0 s : State} (hK : Keeps k0 s) : OutKeeps k0 (execEntry0Read s) := by
  unfold execEntry0Read
  repeat' first
    | with_reducible assumption
    | (with_reducible apply OutKeeps.next)
    | (with_reducible apply State.readReg_keeps)

theorem execEpochLoRead_keeps {k0 s : State} (hK : Keeps k0 s) : OutKeeps k0 (execEpochLoRead s) := by
  unfold execEpochLoRead
  repeat' first
    | with_reducible assumption
    | (with_reducible apply OutKeeps.next)
    | (with_reducible apply State.readReg_keeps)

theorem execRegisterWrite_keeps {k0 s : State} (hK : Keeps k0 s) (w : RegWrite) : OutKeeps k0 (execRegisterWrite w s) := by
  unfold execRegisterWrite
  repeat' first
    | with_reducible assumption
    | (with_reducible apply OutKeeps.next)
    | (with_reducible apply State.writeBar4_keeps)
    | (with_reducible apply State.writeReg_keeps)
    | split

end Sys2Proof.Machine
end

