-- ==== Sys2Proof/Laws/KeepsExec.lean ====
section
/-! SUPPORT. What every command and every step keeps. -/

namespace Sys2Proof.Machine

/-- A command keeps the promise, whichever it is. -/
theorem exec_keeps {b0 s : State} (hK : Keeps b0 s) (i : Instr) : OutKeeps b0 (exec i s) := by
  cases i with
  | dispatch c => exact execDispatch_keeps hK _
  | nop c => exact execNop_keeps hK _
  | layer c q n => exact execLayer_keeps hK _ _ _
  | stepEnd c => exact execStepEnd_keeps hK _
  | fetch c f => exact execFetch_keeps hK _ _
  | fetchDataArrival c bad => exact execFetchDataArrival_keeps hK _ _
  | wait c t => exact execWait_keeps hK _ _
  | signal c t => exact execSignal_keeps hK _ _
  | creditReturn c t => exact execCreditReturn_keeps hK _ _
  | signalArrival j => exact execSignalArrival_keeps hK _
  | send c o => exact execSend_keeps hK _ _
  | release c o => exact execRelease_keeps hK _ _
  | read c o => exact execRead_keeps hK _ _
  | write c o => exact execWrite_keeps hK _ _
  | add c o => exact execAdd_keeps hK _ _
  | max c o => exact execMax_keeps hK _ _
  | fetchAdd c o => exact execFetchAdd_keeps hK _ _
  | setup c e o => exact execSetup_keeps hK _ _ _
  | run c e o => exact execRun_keeps hK _ _ _
  | readout c e o => exact execReadout_keeps hK _ _ _
  | readraw c e o => exact execReadraw_keeps hK _ _ _
  | merge c e o => exact execMerge_keeps hK _ _ _
  | tileSumCheck c e => exact execTileSumCheck_keeps hK _ _
  | tileRefetchComplete c e => exact execTileRefetchComplete_keeps hK _ _
  | vld c w => exact execVld_keeps hK _ _
  | vst c w => exact execVst_keeps hK _ _
  | vldx c w => exact execVldx_keeps hK _ _
  | vmov c w => exact execVmov_keeps hK _ _
  | vsplat c w => exact execVsplat_keeps hK _ _
  | vsplathi c w => exact execVsplathi_keeps hK _ _
  | viota c w => exact execViota_keeps hK _ _
  | vbcast c w => exact execVbcast_keeps hK _ _
  | vlutld c w => exact execVlutld_keeps hK _ _
  | vadd c w => exact execVadd_keeps hK _ _
  | vaddi c w => exact execVaddi_keeps hK _ _
  | vsub c w => exact execVsub_keeps hK _ _
  | vsubi c w => exact execVsubi_keeps hK _ _
  | vadds c w => exact execVadds_keeps hK _ _
  | vaddsi c w => exact execVaddsi_keeps hK _ _
  | vsubs c w => exact execVsubs_keeps hK _ _
  | vsubsi c w => exact execVsubsi_keeps hK _ _
  | vmul c w => exact execVmul_keeps hK _ _
  | vmuli c w => exact execVmuli_keeps hK _ _
  | vmulsh c w => exact execVmulsh_keeps hK _ _
  | vmulshi c w => exact execVmulshi_keeps hK _ _
  | vmin c w => exact execVmin_keeps hK _ _
  | vmini c w => exact execVmini_keeps hK _ _
  | vmax c w => exact execVmax_keeps hK _ _
  | vmaxi c w => exact execVmaxi_keeps hK _ _
  | vabs c w => exact execVabs_keeps hK _ _
  | vneg c w => exact execVneg_keeps hK _ _
  | vand c w => exact execVand_keeps hK _ _
  | vandi c w => exact execVandi_keeps hK _ _
  | vor c w => exact execVor_keeps hK _ _
  | vori c w => exact execVori_keeps hK _ _
  | vxor c w => exact execVxor_keeps hK _ _
  | vxori c w => exact execVxori_keeps hK _ _
  | vshl c w => exact execVshl_keeps hK _ _
  | vshli c w => exact execVshli_keeps hK _ _
  | vsra c w => exact execVsra_keeps hK _ _
  | vsrai c w => exact execVsrai_keeps hK _ _
  | vsrr c w => exact execVsrr_keeps hK _ _
  | vsrri c w => exact execVsrri_keeps hK _ _
  | vshls c w => exact execVshls_keeps hK _ _
  | vshlsi c w => exact execVshlsi_keeps hK _ _
  | vcls c w => exact execVcls_keeps hK _ _
  | vcvt c w => exact execVcvt_keeps hK _ _
  | vdesc c w => exact execVdesc_keeps hK _ _
  | vqscale c w => exact execVqscale_keeps hK _ _
  | vquant c w => exact execVquant_keeps hK _ _
  | vdeq c w => exact execVdeq_keeps hK _ _
  | vexts c w => exact execVexts_keeps hK _ _
  | vcmp c w => exact execVcmp_keeps hK _ _
  | vsel c w => exact execVsel_keeps hK _ _
  | vmlog c w => exact execVmlog_keeps hK _ _
  | vmpop c w => exact execVmpop_keeps hK _ _
  | vmfirst c w => exact execVmfirst_keeps hK _ _
  | vmsetn c w => exact execVmsetn_keeps hK _ _
  | vrsum c w => exact execVrsum_keeps hK _ _
  | vrmax c w => exact execVrmax_keeps hK _ _
  | vrmin c w => exact execVrmin_keeps hK _ _
  | vrmaxi c w => exact execVrmaxi_keeps hK _ _
  | vscan c w => exact execVscan_keeps hK _ _
  | vtopk c w => exact execVtopk_keeps hK _ _
  | vtopkp c w => exact execVtopkp_keeps hK _ _
  | vcompress c w => exact execVcompress_keeps hK _ _
  | vexpand c w => exact execVexpand_keeps hK _ _
  | vlut c w => exact execVlut_keeps hK _ _
  | vrand c w => exact execVrand_keeps hK _ _
  | vacc c w => exact execVacc_keeps hK _ _
  | vaccraw c w => exact execVaccraw_keeps hK _ _
  | tickTimerExpiry => exact execTickTimerExpiry_keeps hK
  | tickStart => exact execTickStart_keeps hK
  | tickToken p t => exact execTickToken_keeps hK _ _
  | stepCommit => have := execStepCommit_keeps hK; exact this
  | hang c => exact execHang_keeps hK _
  | abandonDone => exact execAbandonDone_keeps hK
  | memberSilent m => exact execMemberSilent_keeps hK _
  | tensorMessage p m => exact execTensorMessage_keeps hK _ _
  | holdAreaMove p => exact execHoldAreaMove_keeps hK _
  | messageForward p m => exact execMessageForward_keeps hK _ _
  | loss src lost leaving tick => exact execLoss_keeps hK _ _ _ _
  | resetRequest target requester => exact execResetRequest_keeps hK _ _
  | leaving src cause tick => exact execLeaving_keeps hK _ _ _
  | topoUpdate m st => exact execTopoUpdate_keeps hK _ _
  | takeover group lost tick => exact execTakeover_keeps hK _ _ _
  | thermalNotice src stack temp tick => exact execThermalNotice_keeps hK _ _ _ _
  | mgmtKindUnused m => exact execMgmtKindUnused_keeps hK _
  | sequencedFlit p f => exact execSequencedFlit_keeps hK _ _
  | idle p f => exact execIdle_keeps hK _ _
  | nak p f => exact execNak_keeps hK _ _
  | nakRetryTimeout p => exact execNakRetryTimeout_keeps hK _
  | replayTimeout p => exact execReplayTimeout_keeps hK _
  | laneFail p lane => exact execLaneFail_keeps hK _ _
  | linkCtrl p r => exact execLinkCtrl_keeps hK _ _
  | restripeDone p => exact execRestripeDone_keeps hK _
  | portTrained p r => exact execPortTrained_keeps hK _ _
  | retrain p => exact execRetrain_keeps hK _
  | relinkWaitExpiry b => exact execRelinkWaitExpiry_keeps hK _
  | relinkAttempt b results => exact execRelinkAttempt_keeps hK _ _
  | openRing => exact execOpenRing_keeps hK
  | openPlane => exact execOpenPlane_keeps hK
  | leave => exact execLeave_keeps hK
  | agateSensorCheck sw closed => exact execAgateSensorCheck_keeps hK _ _
  | garnetEnableSet => exact execGarnetEnableSet_keeps hK
  | garnetEnableClear => exact execGarnetEnableClear_keeps hK
  | withhold v => exact execWithhold_keeps hK _
  | guardDecision k l => exact execGuardDecision_keeps hK _ _
  | rerunStart k => exact execRerunStart_keeps hK _
  | rerunSegmentStart c => exact execRerunSegmentStart_keeps hK _
  | rerunComplete k => exact execRerunComplete_keeps hK _
  | guardWindowEnd k => exact execGuardWindowEnd_keeps hK _
  | burstRead spa errs => exact execBurstRead_keeps hK _ _
  | burstWrite spa data => exact execBurstWrite_keeps hK _ _
  | scrub spa errs => exact execScrub_keeps hK _ _
  | refreshCommand ch bank => exact execRefreshCommand_keeps hK _ _
  | recentre ch eyes => exact execRecentre_keeps hK _ _
  | regulatorEpoch st reqs => exact execRegulatorEpoch_keeps hK _ _
  | stackTempSample st temps => exact execStackTempSample_keeps hK _ _
  | thermalCapApply st => exact execThermalCapApply_keeps hK _
  | withholdAutoExpiry st => exact execWithholdAutoExpiry_keeps hK _
  | stackTrainingDone width height eyes => exact execStackTrainingDone_keeps hK _ _ _
  | chInjArm ch w => exact execChInjArm_keeps hK _ _
  | lnkInjArm p w => exact execLnkInjArm_keeps hK _ _
  | moveSwitch o t => exact execMoveSwitch_keeps hK _ _
  | moveSourceFree o t => exact execMoveSourceFree_keeps hK _ _
  | backgroundEviction m => exact execBackgroundEviction_keeps hK _
  | poisonWaitExpiry o t => exact execPoisonWaitExpiry_keeps hK _ _
  | refetchSwitch o t => exact execRefetchSwitch_keeps hK _ _
  | frameReadback f clean => exact execFrameReadback_keeps hK _ _
  | hostReadComplete r st => exact execHostReadComplete_keeps hK _ _
  | completionTimeout r => exact execCompletionTimeout_keeps hK _
  | bar2Read fn ofs len => exact execBar2Read_keeps hK _ _ _
  | bar2Write fn ofs data => exact execBar2Write_keeps hK _ _ _
  | flashPageRead lane block page outs us => exact execFlashPageRead_keeps hK _ _ _ _ _
  | flashProgramComplete k ok us => exact execFlashProgramComplete_keeps hK _ _ _
  | flashEraseComplete lane block ok => exact execFlashEraseComplete_keeps hK _ _ _
  | mount d => exact execMount_keeps hK _
  | readCounts => exact execReadCounts_keeps hK
  | blockRefresh lane m => exact execBlockRefresh_keeps hK _ _
  | patrol lane block page outs us => exact execPatrol_keeps hK _ _ _ _ _
  | wearLevelMove m => exact execWearLevelMove_keeps hK _
  | compaction => exact execCompaction_keeps hK
  | encSegmentReceived m => exact execEncSegmentReceived_keeps hK _
  | encSegmentCoded m => exact execEncSegmentCoded_keeps hK _
  | tableLive id => exact execTableLive_keeps hK _
  | format d m => exact execFormat_keeps hK _ _
  | checkpoint => exact execCheckpoint_keeps hK
  | patrolStart => exact execPatrolStart_keeps hK
  | jasperAccept => exact execJasperAccept_keeps hK
  | rateWindowEnd => exact execRateWindowEnd_keeps hK
  | opTime => exact execOpTime_keeps hK
  | flush => exact execFlush_keeps hK
  | readSeq seq => exact execReadSeq_keeps hK _
  | vaultReadComplete => exact execVaultReadComplete_keeps hK
  | ctrClearCounter ofs => exact execCtrClearCounter_keeps hK _
  | ctrClearBlock ofs => exact execCtrClearBlock_keeps hK _
  | kick k => exact execKick_keeps hK _
  | watchdog w => exact execWatchdog_keeps hK _
  | select x => exact execSelect_keeps hK _
  | head => exact execHead_keeps hK
  | time => exact execTime_keeps hK
  | coldReset => exact execColdReset_keeps hK
  | sysRstN ns => exact execSysRstN_keeps hK _
  | perstN low => exact execPerstN_keeps hK _
  | warm fn confirm => exact execWarm_keeps hK _ _
  | supplyLow rail => exact execSupplyLow_keeps hK _
  | pwrfailNFall => exact execPwrfailNFall_keeps hK
  | pwrfailNRise => exact execPwrfailNRise_keeps hK
  | hotReset => exact execHotReset_keeps hK
  | startup pufRead => exact execStartup_keeps hK _
  | selfTest failing => exact execSelfTest_keeps hK _
  | ready => exact execReady_keeps hK
  | portWaitExpiry => exact execPortWaitExpiry_keeps hK
  | entropyFail adaptive => exact execEntropyFail_keeps hK _
  | testEnable v => exact execTestEnable_keeps hK _
  | getIdentity => exact execGetIdentity_keeps hK
  | getCert => exact execGetCert_keeps hK
  | attest => exact execAttest_keeps hK
  | extend => exact execExtend_keeps hK
  | setOwner => exact execSetOwner_keeps hK
  | commitSvn => exact execCommitSvn_keeps hK
  | norWrite => exact execNorWrite_keeps hK
  | norRead => exact execNorRead_keeps hK
  | doeRequest words => exact execDoeRequest_keeps hK _
  | sqTail fn q v => exact execSqTail_keeps hK _ _ _
  | cqHead fn q v => exact execCqHead_keeps hK _ _ _
  | sqFetch => exact execSqFetch_keeps hK
  | commandApply => exact execCommandApply_keeps hK
  | openSession h o => exact execOpenSession_keeps hK _ _
  | prefill h sess count addr => exact execPrefill_keeps hK _ _ _ _
  | decode h sess budget stop => exact execDecode_keeps hK _ _ _ _
  | setParams h sess o => exact execSetParams_keeps hK _ _ _
  | truncate h sess pos => exact execTruncate_keeps hK _ _ _
  | park h sess => exact execPark_keeps hK _ _
  | unpark h sess policy => exact execUnpark_keeps hK _ _ _
  | closeSession h sess => exact execCloseSession_keeps hK _ _
  | createObject h o => exact execCreateObject_keeps hK _ _
  | setPlacement h o => exact execSetPlacement_keeps hK _ _
  | deleteObject h o => exact execDeleteObject_keeps hK _ _
  | install h o => exact execInstall_keeps hK _ _
  | abortInstall h o => exact execAbortInstall_keeps hK _ _
  | shrinkHostPages h count => exact execShrinkHostPages_keeps hK _ _
  | qCfgEnable q v => exact execQCfgEnable_keeps hK _ _
  | evtCons p v => exact execEvtCons_keeps hK _ _
  | functionLevelReset fn => exact execFunctionLevelReset_keeps hK _
  | coalesceTimeout v => exact execCoalesceTimeout_keeps hK _
  | ltrChange => exact execLtrChange_keeps hK
  | powerAverage w => exact execPowerAverage_keeps hK _
  | capStepTimer => exact execCapStepTimer_keeps hK
  | sensorSample j temp => exact execSensorSample_keeps hK _ _
  | thermalStepTimer k => exact execThermalStepTimer_keeps hK _
  | supplyRampDone k => exact execSupplyRampDone_keeps hK _
  | powerStateEntry => exact execPowerStateEntry_keeps hK
  | wake => exact execWake_keeps hK
  | wakeRequest k => exact execWakeRequest_keeps hK _
  | wakeComplete => exact execWakeComplete_keeps hK
  | clockUngate => exact execClockUngate_keeps hK
  | counterLowRead r mgmt => exact execCounterLowRead_keeps hK _ _
  | rcRead r mgmt => exact execRcRead_keeps hK _ _
  | entry0Read => exact execEntry0Read_keeps hK
  | epochLoRead => exact execEpochLoRead_keeps hK
  | registerWrite w => exact execRegisterWrite_keeps hK _
  | agateSwitchMovementDone sw => exact execAgateSwitchMovementDone_keeps hK _
  | pcieLinkTrained speed width flit => exact execPcieLinkTrained_keeps hK _ _ _
  | stacksIdentified small => exact execStacksIdentified_keeps hK _
  | opticalEnginesSettled => exact execOpticalEnginesSettled_keeps hK
  | entropySourceRecovers => exact execEntropySourceRecovers_keeps hK
  | srIovVfEnable n => exact execSrIovVfEnable_keeps hK _
  | maxSnoopLatencyWrite us ltr => exact execMaxSnoopLatencyWrite_keeps hK _ _
  | invalidOp op => exact execInvalidOp_keeps hK _

end Sys2Proof.Machine
end

