-- ==== Sys2Proof/Laws/Vector.lean ====
section
/-! SUPPORT. The vector registers read after a write, and what every vector instruction does beside its result. -/

namespace Sys2Proof.Machine

/-! ### Registers, masks, elements -/

theorem VFile.reg_setReg_same (f : VFile) (n : Nat) (v : BitVec 32768) : (f.setReg n v).reg n = v := by
  simp [VFile.reg, VFile.setReg, NMap.find_ins_same]

theorem VFile.reg_setReg_ne (f : VFile) {n m : Nat} (v : BitVec 32768) (h : n ≠ m) : (f.setReg n v).reg m = f.reg m := by
  unfold VFile.reg VFile.setReg; rw [NMap.find_ins_ne _ _ h]

@[simp] theorem VFile.mask_setReg (f : VFile) (n m : Nat) (v : BitVec 32768) : (f.setReg n v).mask m = f.mask m := rfl
@[simp] theorem VFile.lut_setReg (f : VFile) (n m : Nat) (v : BitVec 32768) : (f.setReg n v).lut m = f.lut m := rfl
@[simp] theorem VFile.reg_setMask (f : VFile) (n m : Nat) (v : BitVec 4096) : (f.setMask n v).reg m = f.reg m := rfl
@[simp] theorem VFile.lut_setMask (f : VFile) (n m : Nat) (v : BitVec 4096) : (f.setMask n v).lut m = f.lut m := rfl
@[simp] theorem VFile.reg_setLut (f : VFile) (n m : Nat) (v : BitVec 16384) : (f.setLut n v).reg m = f.reg m := rfl
@[simp] theorem VFile.mask_setLut (f : VFile) (n m : Nat) (v : BitVec 16384) : (f.setLut n v).mask m = f.mask m := rfl

theorem VFile.mask_setMask_same (f : VFile) (n : Nat) (v : BitVec 4096) : (f.setMask n v).mask n = v := by
  simp [VFile.mask, VFile.setMask, NMap.find_ins_same]

theorem VFile.mask_setMask_ne (f : VFile) {n m : Nat} (v : BitVec 4096) (h : n ≠ m) : (f.setMask n v).mask m = f.mask m := by
  unfold VFile.mask VFile.setMask; rw [NMap.find_ins_ne _ _ h]

theorem VFile.lut_setLut_same (f : VFile) (n : Nat) (v : BitVec 16384) : (f.setLut n v).lut n = v := by
  simp [VFile.lut, VFile.setLut, NMap.find_ins_same]

theorem VFile.lut_setLut_ne (f : VFile) {n m : Nat} (v : BitVec 16384) (h : n ≠ m) : (f.setLut n v).lut m = f.lut m := by
  unfold VFile.lut VFile.setLut; rw [NMap.find_ins_ne _ _ h]

theorem VTy.bits_pos (t : VTy) : 0 < t.bits := by cases t <;> decide
theorem VTy.cap_pos (t : VTy) : 0 < t.cap := by cases t <;> decide
theorem VTy.bits_mul_cap (t : VTy) : t.bits * t.cap = 32768 := by cases t <;> decide

theorem toCode_lt (b : Nat) (v : Int) : toCode b v < 2 ^ b := (BitVec.ofInt b v).isLt

/-- The element just written, unsigned. -/
theorem VFile.getU_set_same (f : VFile) (t : VTy) (n i : Nat) (v : Int) : (f.set t n i v).getU t n i = toCode t.bits v := by
  have hi : i % t.cap < t.cap := Nat.mod_lt _ t.cap_pos
  have h : t.bits * (i % t.cap) + t.bits ≤ 32768 := by
    rw [← t.bits_mul_cap, ← Nat.mul_succ]; exact Nat.mul_le_mul_left _ hi
  unfold VFile.getU VFile.set
  rw [VFile.reg_setReg_same, bvGet_bvSet_same _ _ _ _ h, Nat.mod_eq_of_lt (toCode_lt _ _)]

/-- Any other element of the group, unsigned. -/
theorem VFile.getU_set_ne (f : VFile) (t : VTy) (n : Nat) {i j : Nat} (v : Int) (h : i ≠ j) : (f.set t n i v).getU t n j = f.getU t n j := by
  unfold VFile.getU VFile.set
  by_cases hr : n + i / t.cap = n + j / t.cap
  · rw [hr, VFile.reg_setReg_same]
    have hq : i / t.cap = j / t.cap := by omega
    have hm : i % t.cap ≠ j % t.cap := fun e => h (by rw [← Nat.div_add_mod i t.cap, ← Nat.div_add_mod j t.cap, hq, e])
    refine bvGet_bvSet_disjoint _ _ _ _ _ _ ?_
    rcases Nat.lt_or_gt_of_ne hm with hl | hl
    · exact .inr (by rw [← Nat.mul_succ]; exact Nat.mul_le_mul_left _ hl)
    · exact .inl (by rw [← Nat.mul_succ]; exact Nat.mul_le_mul_left _ hl)
  · rw [VFile.reg_setReg_ne _ _ hr]

theorem VFile.reg_set_lt (f : VFile) (t : VTy) {n m : Nat} (i : Nat) (v : Int) (h : m < n) : (f.set t n i v).reg m = f.reg m :=
  VFile.reg_setReg_ne _ _ (Nat.ne_of_gt (Nat.lt_of_lt_of_le h (Nat.le_add_right _ _)))

@[simp] theorem VFile.mask_set (f : VFile) (t : VTy) (n i m : Nat) (v : Int) : (f.set t n i v).mask m = f.mask m := rfl
@[simp] theorem VFile.lut_set (f : VFile) (t : VTy) (n i m : Nat) (v : Int) : (f.set t n i v).lut m = f.lut m := rfl

theorem sx_toCode (b : Nat) (v : Int) : sx b (toCode b v) = wrapW b v := by
  unfold sx toCode wrapW
  rw [BitVec.ofNat_toNat, BitVec.setWidth_eq]

/-- The element just written. -/
theorem VFile.get_set_same (f : VFile) (t : VTy) (n i : Nat) (v : Int) : (f.set t n i v).get t n i = wrapW t.bits v := by
  unfold VFile.get; rw [VFile.getU_set_same, sx_toCode]

/-- The elements of a list written: those of the list took their values, the rest is as before. -/
theorem VFile.setAll_wrote (t : VTy) (d : Nat) (g : Nat → Int) : ∀ (is : List Nat) (f : VFile), f.wrote (f.setAll t d is g) t d is fun i => wrapW t.bits (g i)
  | [], f => ⟨fun _ h => (nomatch h), fun _ _ => rfl, fun _ _ => rfl, fun _ => rfl, fun _ => rfl⟩
  | i :: is, f => by
    obtain ⟨h1, h2, h3, h4, h5⟩ := VFile.setAll_wrote t d g is (f.set t d i (g i))
    have he : f.setAll t d (i :: is) g = (f.set t d i (g i)).setAll t d is g := rfl
    rw [he]
    refine ⟨fun j hj => ?_, fun j hj => ?_, fun n hn => ?_, fun n => ?_, fun n => ?_⟩
    · by_cases hm : j ∈ is
      · exact h1 j hm
      · have : j = i := by simpa [hm] using hj
        subst this
        unfold VFile.get; rw [h2 j hm, VFile.getU_set_same, sx_toCode]
    · simp only [List.mem_cons, not_or] at hj
      rw [h2 j hj.2, VFile.getU_set_ne _ _ _ _ (Ne.symm hj.1)]
    · rw [h3 n hn, VFile.reg_set_lt _ _ _ _ hn]
    · rw [h4, VFile.mask_set]
    · rw [h5, VFile.lut_set]

/-- Values that fit their type come back as they were written. -/
theorem VFile.wrote_congr {f f' : VFile} {t : VTy} {d : Nat} {is : List Nat} {g g' : Nat → Int} (h : f.wrote f' t d is g)
    (hg : ∀ i ∈ is, g i = g' i) : f.wrote f' t d is g' := ⟨fun i hi => (h.1 i hi).trans (hg i hi), h.2⟩

theorem wrapW_of_fits {b : Nat} (hb : 0 < b) {v : Int} (h1 : minOf b ≤ v) (h2 : v ≤ maxOf b) : wrapW b v = v := by
  unfold minOf at h1; unfold maxOf at h2; unfold wrapW
  obtain ⟨k, rfl⟩ : ∃ k, b = k + 1 := ⟨b - 1, by omega⟩
  simp only [Nat.add_sub_cancel] at h1 h2
  rw [BitVec.toInt_ofInt, Int.bmod_eq_of_le] <;> (have : (2 : Int) ^ (k + 1) = 2 * 2 ^ k := by rw [Int.pow_succ]; omega) <;> push_cast <;> omega

theorem wrapW_bounds {b : Nat} (hb : 0 < b) (v : Int) : minOf b ≤ wrapW b v ∧ wrapW b v ≤ maxOf b := by
  obtain ⟨k, rfl⟩ : ∃ k, b = k + 1 := ⟨b - 1, by omega⟩
  have h1 := BitVec.le_toInt (BitVec.ofInt (k + 1) v)
  have h2 := BitVec.toInt_lt (x := BitVec.ofInt (k + 1) v)
  simp only [Nat.add_sub_cancel] at h1 h2
  unfold minOf maxOf wrapW
  simp only [Nat.add_sub_cancel]
  omega

theorem wrapW_wrapW {b : Nat} (hb : 0 < b) (v : Int) : wrapW b (wrapW b v) = wrapW b v :=
  wrapW_of_fits hb (wrapW_bounds hb v).1 (wrapW_bounds hb v).2

theorem VFile.get_bounds (f : VFile) (t : VTy) (n i : Nat) : minOf t.bits ≤ f.get t n i ∧ f.get t n i ≤ maxOf t.bits := by
  obtain ⟨k, hk⟩ : ∃ k, t.bits = k + 1 := ⟨t.bits - 1, by have := t.bits_pos; omega⟩
  unfold VFile.get sx minOf maxOf
  have h1 := BitVec.le_toInt (BitVec.ofNat t.bits (f.getU t n i))
  have h2 := BitVec.toInt_lt (x := BitVec.ofNat t.bits (f.getU t n i))
  omega

/-- Bits of a mask written. -/
theorem VFile.putBits_wrote (f : VFile) (d : Nat) (is : List Nat) (g : Nat → Bool) (h : ∀ i ∈ is, i < 4096) :
    f.wroteMask (f.putBits d is g) d is g := by
  have key : ∀ (is : List Nat) (m : BitVec 4096), (∀ i ∈ is, i < 4096) → ∀ j,
      (is.foldl (fun m i => bvPut i m (g i)) m).getLsbD j = if j ∈ is then g j else m.getLsbD j := by
    intro is
    induction is with
    | nil => intro m _ j; simp
    | cons i is ih =>
      intro m hm j
      rw [List.foldl_cons, ih _ (fun x hx => hm x (List.mem_cons_of_mem _ hx))]
      have hi := hm i List.mem_cons_self
      by_cases hj : j ∈ is
      · simp [hj]
      · rw [if_neg hj, bvPut, getLsbD_bvSet]
        by_cases he : j = i
        · subst he; cases g j <;> simp [hi]
        · rw [if_neg (by omega), if_neg (by simp [he, hj])]
  refine ⟨fun i hi => ?_, fun i hi => ?_, fun n hn => ?_, fun n => rfl, fun n => rfl⟩
  · rw [VFile.putBits, VFile.mask_setMask_same, key _ _ h, if_pos hi]
  · rw [VFile.putBits, VFile.mask_setMask_same, key _ _ h, if_neg hi]
  · rw [VFile.putBits, VFile.mask_setMask_ne _ _ (Ne.symm hn)]

/-! ### The rest of the machine -/

/-! ### The rest of the machine -/

variable (s : State)

/-- The counters a suspect mark does not count in. -/
theorem State.markSuspect_ctr_ne (k l : Nat) (x : BitVec 32) {a : Nat} (h : Ct.GUARD_SUSPECT_COUNT k ≠ a) : (s.markSuspect k l x).ctr a = s.ctr a := by
  unfold State.markSuspect State.flagRows
  dsimp only
  rw [State.modCluster_ctr]
  refine (State.when_keeps _ (fun t => t.ctr a) _ _ (State.ctr_count_ne _ _ h)).trans ?_
  split <;> rfl

/-- The counters a guard record does not count in. -/
theorem State.guardRec_ctr_ne (c q : Nat) (p : Prog) (r : Recs) {a : Nat} (h1 : Ct.GUARD_SAT_TOTAL (clusterOf c) ≠ a)
    (h2 : Ct.GUARD_UNGUARDED_SAT (clusterOf c) ≠ a) (h3 : Ct.GUARD_SUSPECT_COUNT (clusterOf c) ≠ a) : (s.guardRec c q p r).ctr a = s.ctr a := by
  unfold State.guardRec
  dsimp only
  split
  · rfl
  · split
    · rw [State.ctr_count_ne _ _ h2, State.ctr_count_ne _ _ h1]
    · refine (State.when_keeps _ (fun t => t.ctr a) _ _ (State.markSuspect_ctr_ne _ _ _ _ h3)).trans ?_
      rw [State.modCluster_ctr, State.ctr_count_ne _ _ h1]

/-- A guard record with saturations counts them. -/
theorem State.guardRec_satTotal (c q : Nat) (p : Prog) (r : Recs) (h : 0 < r.sats) :
    (s.guardRec c q p r).ctr (Ct.GUARD_SAT_TOTAL (clusterOf c)) = (s.ctr (Ct.GUARD_SAT_TOTAL (clusterOf c))).plus r.sats := by
  unfold State.guardRec
  dsimp only
  rw [if_neg (by omega)]
  split
  · rw [State.ctr_count_ne _ _ (by simp [Ct.GUARD_UNGUARDED_SAT, Ct.GUARD_SAT_TOTAL]), State.ctr_count_same]
  · refine (State.when_keeps _ (fun t => t.ctr _) _ _
      (State.markSuspect_ctr_ne _ _ _ _ (by simp [Ct.GUARD_SUSPECT_COUNT, Ct.GUARD_SAT_TOTAL]))).trans ?_
    rw [State.modCluster_ctr, State.ctr_count_same]

/-- A record of nothing changes nothing. -/
theorem State.guardRec_none (c q : Nat) (p : Prog) (r : Recs) (h1 : r.sats = 0) (h2 : r.vals = []) : s.guardRec c q p r = s := by
  unfold State.guardRec
  dsimp only
  rw [if_pos ⟨h1, h2⟩]

/-- The counters of a core's vector engine lie apart from the guard's. -/
theorem vecCtr_ne_guard (c : CoreId) : ∀ a ∈ [Ct.VEC_BUSY_CYCLES c, Ct.VEC_ELEMENTS c], Ct.GUARD_SAT_TOTAL (clusterOf c) ≠ a ∧
    Ct.GUARD_UNGUARDED_SAT (clusterOf c) ≠ a ∧ Ct.GUARD_SUSPECT_COUNT (clusterOf c) ≠ a := by
  intro a ha
  simp only [List.mem_cons, List.not_mem_nil, or_false] at ha
  unfold Ct.GUARD_SAT_TOTAL Ct.GUARD_UNGUARDED_SAT Ct.GUARD_SUSPECT_COUNT clusterOf
  rcases ha with rfl | rfl <;> simp only [Ct.VEC_BUSY_CYCLES, Ct.VEC_ELEMENTS, coreBase] <;> omega

/-- Where no fault of the device's own is new, nothing is acted on. -/
theorem State.actOnNew_same (t : State) (h : t.boot.fault = s.boot.fault) : s.actOnNew t = t := by
  unfold State.actOnNew State.actOnFault
  split
  · rename_i hn
    rw [h, Option.isNone_iff_eq_none.mp hn]
  · rfl

/-- What every vector instruction does that its function carries out: its registers become the function's, its cycles, elements and
saturations count, and nothing else of the machine changes. -/
theorem State.vec_ok {c : CoreId} {i : Instr} {w : VWord} {op : VCtx → VWord → VFile → VOut} {k : ElemKind} {cost : VWord → Nat} {r : VRes}
    (h : s.atHead c 4 i = true) (ho : op (s.vecCtx c) w (s.core c).vec = .ok r) (hr : s.consume c r.reads = s) :
    ((s.vec c i w op k cost).core c).vec = r.file ∧ s.vecDone (s.vec c i w op k cost) c (cost w) (k.count (s.core c).vec w) r.sats := by
  obtain ⟨p, b, -, he⟩ := s.issue_atHead (runVec c w op k cost) h
  unfold State.vec
  have hrun : runVec c w op k cost p s = ((((s.modCore c fun y => { y with vec := r.file }).guardRec c 4 p { src := .vector, rows := [], n := r.sats }).count
      (Ct.VEC_BUSY_CYCLES c) (cost w)).count (Ct.VEC_ELEMENTS c) (k.count (s.core c).vec w), true) := by
    unfold runVec
    simp only [ho, State.vecReads, hr]
  have ha : s.issueAct c 4 i (runVec c w op k cost) = s.issue c 4 i (runVec c w op k cost) := by
    refine s.actOnNew_same _ ?_
    rw [he, hrun, if_pos rfl]
    simp
  rw [ha, he, hrun, if_pos rfl]
  dsimp only
  have hB := vecCtr_ne_guard c (Ct.VEC_BUSY_CYCLES c) (by simp)
  have hE := vecCtr_ne_guard c (Ct.VEC_ELEMENTS c) (by simp)
  have hBE : Ct.VEC_ELEMENTS c ≠ Ct.VEC_BUSY_CYCLES c := by simp [Ct.VEC_ELEMENTS, Ct.VEC_BUSY_CYCLES]
  refine ⟨?_, ?_, ?_, fun hs => ?_, fun a ha => ?_, fun a _ => ?_, ⟨?_, ?_, ?_, ?_, fun d => ?_, fun d => ?_⟩, fun d hd => ?_, ?_, ?_⟩
  · unfold State.complete
    rw [State.closeSlots_core, State.core_modCore_same]
    cases b with
    | none => simp
    | some x => unfold CoreSt.pop; cases x <;> simp
  · rw [State.complete_ctr, State.ctr_count_ne _ _ hBE, State.ctr_count_same, State.guardRec_ctr_ne _ _ _ _ _ hB.1 hB.2.1 hB.2.2, State.modCore_ctr]
  · rw [State.complete_ctr, State.ctr_count_same, State.ctr_count_ne _ _ hBE.symm, State.guardRec_ctr_ne _ _ _ _ _ hE.1 hE.2.1 hE.2.2, State.modCore_ctr]
  · rw [State.complete_ctr, State.ctr_count_ne _ _ hE.1.symm, State.ctr_count_ne _ _ hB.1.symm, State.guardRec_satTotal _ _ _ _ _ (by simpa [Recs.sats] using hs)]
    simp [Recs.sats]
  · simp only [List.mem_append, List.mem_cons, List.not_mem_nil, or_false, not_or] at ha
    rw [State.complete_ctr, State.ctr_count_ne _ _ (Ne.symm ha.1.2), State.ctr_count_ne _ _ (Ne.symm ha.1.1)]
    by_cases hs : r.sats = 0
    · rw [State.guardRec_none _ _ _ _ _ (by simpa [Recs.sats] using hs) rfl, State.modCore_ctr]
    · have := ha.2
      simp only [hs, if_false, List.mem_cons, List.not_mem_nil, or_false, not_or] at this
      rw [State.guardRec_ctr_ne _ _ _ _ _ (Ne.symm this.1) (Ne.symm this.2.1) (Ne.symm this.2.2), State.modCore_ctr]
  · simp
  · simp
  · simp
  · simp
  · simp
  · rw [State.complete_buf]
    simp only [State.count_core, State.guardRec_core]
    by_cases hd : c.val = d
    · subst hd; simp
    · rw [State.core_modCore_ne _ _ hd]
  · simp
  · rw [State.complete_core_ne _ _ _ (Ne.symm hd)]
    simp only [State.count_core, State.guardRec_core]
    rw [State.core_modCore_ne _ _ (Ne.symm hd)]
  · simp
  · simp

/-- An instruction that reads no core-buffer byte consumes nothing. -/
@[simp] theorem State.consume_nil (c : Nat) : s.consume c [] = s := by
  unfold State.consume
  simp

end Sys2Proof.Machine
end

