-- ==== Sys2Proof/WellFormed.lean ====
section
/-! DEFINITION. Well-formed commands: those that can come to the device. Each check names what an operand of the environment must be; a
command that a check refuses describes no event. The meanings are total all the same. -/

namespace Sys2Proof

/-- A sequence of 64 bytes, which one stack burst carries (R191). -/
def burstWf (spa : BitVec 40) (data : List Byte) : Bool := spa.toNat % 64 == 0 && data.length == 64

/-- An access of 1, 2, 4 or 8 bytes, aligned on its size; the management path is the PF's, to BAR0 (R12, R443). -/
def RegWrite.wf (w : RegWrite) : Bool :=
  (w.size == 1 || w.size == 2 || w.size == 4 || w.size == 8) && w.ofs.toNat % w.size.val == 0 && (!w.mgmt || (w.fn == 0 && !w.bar4))

/-- An access of 1, 2, 4 or 8 bytes, aligned on its size; the management path is the PF's, to BAR0 (R12, R13). -/
def RegRead.wf (r : RegRead) (mgmt : Bool) : Bool :=
  (r.size == 1 || r.size == 2 || r.size == 4 || r.size == 8) && r.ofs.toNat % r.size.val == 0 && (!mgmt || (r.fn == 0 && !r.bar4))

/-- A flit of 256 bytes over four lanes at most (R286, R287). -/
def FlitIn.wf (f : FlitIn) : Bool := f.lanes.length == 4 && (f.lanes.map List.length).sum == 256

/-- Wire bytes of a 64 B unit on a wire format (R297, R298): raw, L8; the last two values are unused. -/
def TensorMsg.wf (m : TensorMsg) : Bool :=
  let u := m.hdr.unitsM1.toNat + 1
  if m.hdr.wire.val = 0 then m.data.length == 64 * u
  else if m.hdr.wire.val = 1 then m.data.length == 33 * u
  else if m.hdr.wire.val = 2 then m.data.length == 33 * u / 2
  else true

/-- LENGTH names the payload (R300). -/
def MgmtMsg.wf (m : MgmtMsg) : Bool := m.payload.length == m.length.toNat

/-- The sixteen flash channels, with at most eight targets on each (R253, R254), and four codewords to a page. -/
def Discovery.wf (d : Discovery) : Bool :=
  d.chans.length == 16 && (d.chans.all fun c => decide (c.length ≤ 8)) && d.last.all fun p => p.2.2.length == 4

/-- A page of four codewords (R258). -/
def pageWf (outs : List CodeRead) : Bool := outs.length == 4

/-- Rates and widths of the PCIe link (R328, R359). -/
def linkWf (speed : Fin 8) (width : Fin 16) : Bool := (speed == 0 || 5 ≤ speed.val) && (width == 4 || width == 8)

/-- Well-formed commands. -/
def Instr.wf : Instr → Bool
  | .burstWrite spa data => burstWf spa data
  | .burstRead spa _ | .scrub spa _ => spa.toNat % 64 == 0
  | .bar2Write _ _ data => data != []
  | .bar2Read _ _ len => len != 0#32
  | .sequencedFlit _ f | .idle _ f | .nak _ f => f.wf
  | .tensorMessage _ m => m.wf
  | .mgmtKindUnused m => m.wf
  | .messageForward _ (.tensor m) => m.wf
  | .messageForward _ (.mgmt m) => m.wf
  | .mount d | .format d _ => d.wf
  | .flashPageRead _ _ _ outs _ | .patrol _ _ _ outs _ => pageWf outs
  | .recentre ch eyes => eyes.all fun e => e.ch == ch
  | .stackTempSample _ temps => temps.length == 4
  | .relinkAttempt b results => (results.all fun r => decide (r.1.val < 12)) && b != .twin && b != .expansion
  | .counterLowRead r mgmt | .rcRead r mgmt => r.wf mgmt
  | .registerWrite w => w.wf
  | .pcieLinkTrained speed width _ => linkWf speed width
  | .doeRequest words => words != []
  | .dispatch .. | .nop .. | .layer .. | .stepEnd .. | .fetch .. | .fetchDataArrival .. | .wait .. | .signal .. | .creditReturn .. |
    .signalArrival .. | .send .. | .release .. | .read .. | .write .. | .add .. | .max .. | .fetchAdd .. | .setup .. | .run .. |
    .readout .. | .readraw .. | .merge .. | .tileSumCheck .. | .tileRefetchComplete .. | .vld .. | .vst .. | .vldx .. | .vmov .. |
    .vsplat .. | .vsplathi .. | .viota .. | .vbcast .. | .vlutld .. | .vadd .. | .vaddi .. | .vsub .. | .vsubi .. | .vadds .. |
    .vaddsi .. | .vsubs .. | .vsubsi .. | .vmul .. | .vmuli .. | .vmulsh .. | .vmulshi .. | .vmin .. | .vmini .. | .vmax .. | .vmaxi
    .. | .vabs .. | .vneg .. | .vand .. | .vandi .. | .vor .. | .vori .. | .vxor .. | .vxori .. | .vshl .. | .vshli .. | .vsra .. |
    .vsrai .. | .vsrr .. | .vsrri .. | .vshls .. | .vshlsi .. | .vcls .. | .vcvt .. | .vdesc .. | .vqscale .. | .vquant .. | .vdeq ..
    | .vexts .. | .vcmp .. | .vsel .. | .vmlog .. | .vmpop .. | .vmfirst .. | .vmsetn .. | .vrsum .. | .vrmax .. | .vrmin .. | .vrmaxi
    .. | .vscan .. | .vtopk .. | .vtopkp .. | .vcompress .. | .vexpand .. | .vlut .. | .vrand .. | .vacc .. | .vaccraw .. |
    .tickTimerExpiry | .tickStart | .tickToken .. | .stepCommit | .hang .. | .abandonDone | .memberSilent .. | .holdAreaMove .. |
    .loss .. | .resetRequest .. | .leaving .. | .topoUpdate .. | .takeover .. | .thermalNotice .. | .nakRetryTimeout .. |
    .replayTimeout .. | .laneFail .. | .linkCtrl .. | .restripeDone .. | .portTrained .. | .retrain .. | .relinkWaitExpiry .. |
    .openRing | .openPlane | .leave | .agateSensorCheck .. | .garnetEnableSet | .garnetEnableClear | .withhold .. | .guardDecision ..
    | .rerunStart .. | .rerunSegmentStart .. | .rerunComplete .. | .guardWindowEnd .. | .refreshCommand .. | .regulatorEpoch .. |
    .thermalCapApply .. | .withholdAutoExpiry .. | .stackTrainingDone .. | .chInjArm .. | .lnkInjArm .. | .moveSwitch .. |
    .moveSourceFree .. | .backgroundEviction .. | .poisonWaitExpiry .. | .refetchSwitch .. | .frameReadback .. | .hostReadComplete ..
    | .completionTimeout .. | .flashProgramComplete .. | .flashEraseComplete .. | .readCounts | .blockRefresh .. | .wearLevelMove .. |
    .compaction | .encSegmentReceived .. | .encSegmentCoded .. | .tableLive .. | .checkpoint | .patrolStart | .jasperAccept |
    .rateWindowEnd | .opTime | .flush | .readSeq .. | .vaultReadComplete | .ctrClearCounter .. | .ctrClearBlock .. | .kick .. |
    .watchdog .. | .select .. | .head | .time | .coldReset | .sysRstN .. | .perstN .. | .warm .. | .supplyLow .. | .pwrfailNFall |
    .pwrfailNRise | .hotReset | .startup .. | .selfTest .. | .ready | .portWaitExpiry | .entropyFail .. | .testEnable .. |
    .getIdentity | .getCert | .attest | .extend | .setOwner | .commitSvn | .norWrite | .norRead | .sqTail .. | .cqHead .. | .sqFetch |
    .commandApply | .openSession .. | .prefill .. | .decode .. | .setParams .. | .truncate .. | .park .. | .unpark .. | .closeSession
    .. | .createObject .. | .setPlacement .. | .deleteObject .. | .install .. | .abortInstall .. | .shrinkHostPages .. | .qCfgEnable
    .. | .evtCons .. | .functionLevelReset .. | .coalesceTimeout .. | .ltrChange | .powerAverage .. | .capStepTimer | .sensorSample ..
    | .thermalStepTimer .. | .supplyRampDone .. | .powerStateEntry | .wake | .wakeRequest .. | .wakeComplete | .clockUngate |
    .entry0Read | .epochLoRead | .agateSwitchMovementDone .. | .stacksIdentified .. | .opticalEnginesSettled | .entropySourceRecovers
    | .srIovVfEnable .. | .maxSnoopLatencyWrite .. | .invalidOp .. => true

end Sys2Proof
end

