-- ==== Sys2Proof/Tests/Slice0.lean ====
section
/-! SUPPORT. Tests of the model: words written out from the encoding tables of the spec, terms that each check of WellFormed refuses,
single steps on small states, and for every statement about a state or an operand a witness that its premises are met together, at the
limits of their ranges where they have any. The premises of StartUpGoesOn about the secret speak of `Config.pufSecret` and
`Config.helperDigest`, which are opaque (log entry 22): no closed witness of these can exist, and its other premises have one here. -/

open Sys2Proof Sys2Proof.Machine

namespace Sys2Proof.Tests

set_option Elab.async false

/-! ### Words of step programs -/

/-- The instruction that a word of core 3's program gives. -/
def word (w : Nat) : Option Instr := (decodeWord 3 (BitVec.ofNat 64 w)).map Prod.snd

/-- R108: engine 2, U8, group 0, grid 5, compensated, 32 tokens, panel at 0x1234, A16, source 2, four head groups, scales at 0x0ABC. -/
theorem test_word_setup : word 0b0000_10_0000_0001_00_101_1_11111_001001000110100_0100_10_11_00101010111100_00 =
    some (.setup 3 2 ⟨1, 0, 5, true, 31, 0x1234#15, 4, 2, 3, 0x0ABC#14⟩) := by decide

/-- R109: engine 1, source 0x8000, block offset 64, 4,095 blocks, no ACCUMULATE, SCALE_CONT, chunk 2,047. -/
theorem test_word_run : word 0b0000_01_0001_1000000000000000_1000000_111111111111_0_1_11111111111_000000 =
    some (.run 3 1 ⟨0x8000#16, 64#7, 4095#12, false, true, 2047#11⟩) := by decide

/-- R110. -/
theorem test_word_readout : word 0b0000_11_0010_000000000000001_100000000000000_0111_1010_0000000000000000 =
    some (.readout 3 3 ⟨1#15, 0x4000#15, 7, 10⟩) := by decide

/-- R110. -/
theorem test_word_merge : word 0b0000_00_0100_111111111111111_000000000000000000000000000000000000000 = some (.merge 3 0 ⟨0x7FFF#15⟩) := by decide

/-- R119, R122: VMULSHI on I16 under mask 5, V1 from V2, 4,096 elements, c = −1 and k = 5; VB is spare. -/
theorem test_word_vmulshi : word 0b0001_00011011_1_101_01_00001_00010_11111_111111111111_1111111111111_000101 =
    some (.vmulshi 3 ⟨true, 5, 1, 1, 2, 31, 4095, 0x7FFC5#19⟩) := by decide

/-- R122: VTOPKP is opcode 0x59. -/
theorem test_word_vtopkp : word 0b0001_01011001_0_000_10_00100_00000_00000_000000000101_0000000000000000001 =
    some (.vtopkp 3 ⟨false, 0, 2, 4, 0, 0, 5, 1#19⟩) := by decide

/-- R48: to the cluster cache, credit 9, slot 1,023, 20 units, object 0x0102, tile 3. -/
theorem test_word_fetch : word 0b0010_1_01001_1111111111_010100_0000000100000010_0000000000000000000011 =
    some (.fetch 3 ⟨true, 9, 1023, 20, 0x0102#16, 3#22⟩) := by decide

/-- R136: a signal from Q6 to counter T33 of core 511, by 255. -/
theorem test_word_signal : word 0b0011_01_110_0_111111111_100001_11111111_0000000000000000000000000000000 =
    some (.signal 3 ⟨6, false, 511, 33, 255#8⟩) := by decide

/-- R136: OP 0b11 is an unused encoding. -/
theorem test_word_token_unused : word 0b0011_11_110_0_111111111_000001_11111111_0000000000000000000000000000000 = none := by decide

/-- R137: channel 17, 1,024 units from unit 5, offset 0x00FF, amount 2, L8 from A16. -/
theorem test_word_send : word 0b0100_00_10001_000000000000101_1111111111_0000000011111111_00000010_01_00 =
    some (.send 3 ⟨17, 5#15, 1023#10, 0xFF#16, 2#8, 1⟩) := by decide

/-- R137: OP 0b10 and 0b11 are unused encodings. -/
theorem test_word_link_unused :
    word 0b0100_10_10001_000000000000101_1111111111_0000000011111111_00000010_01_00 = none ∧
    word 0b0100_11_10001_000000000000101_1111111111_0000000011111111_00000010_01_00 = none := by decide

/-- R138: MAX into unit 65,535 of cluster 63, from unit 1, two units, credit 31. -/
theorem test_word_max : word 0b0101_011_1111111111111111_000000000000001_0000000001_11111_0000_111111_0 =
    some (.max 3 ⟨0xFFFF#16, 1#15, 1#10, 31, 0, 63⟩) := by decide

/-- R47, R45: LAYER stands in every queue, STEP_END ends dispatch, and classes from 0x7 on are unused. -/
theorem test_word_control :
    decodeWord 3 0x6100_0000_0000_0123#64 = some (.every 0x123#16, .layer 3 0 0x123#16) ∧
    decodeWord 3 0x6200_0000_0000_0000#64 = some (.stop, .stepEnd 3) ∧
    decodeWord 3 0x6300_0000_0000_0000#64 = none ∧ decodeWord 3 0x7000_0000_0000_0000#64 = none := by decide

/-! ### Ill-formed commands -/

/-- What a flit brings on four lanes. -/
def flitIn (n : Nat) : FlitIn := ⟨List.replicate 4 (List.replicate n 0#8), false, []⟩
/-- A tensor message of two units on a wire format with `n` bytes. -/
def tensorIn (wire : Fin 4) (n : Nat) : TensorMsg :=
  ⟨{ destMember := 1, destCore := 0, toCache := false, destAddr := 0#17, unitsM1 := 1#10, token := 0, amount := 1#8, part := 0, tick := 0#32,
     srcMember := 0, srcCore := 0, wire := wire, groupId := 0#16, hops := 0#8 }, List.replicate n 0#8⟩
/-- A management message that names three bytes and carries `n`. -/
def mgmtIn (n : Nat) : MgmtMsg := ⟨1, false, 0xFF#8, 3#13, 0, false, List.replicate n 0#8⟩
/-- A read of BAR0 of `size` bytes at `ofs`. -/
def readIn (ofs : Nat) (size : Fin 9) (fn : FnId) : RegRead := ⟨fn, false, BitVec.ofNat 28 ofs, size⟩

theorem test_wf_burst : (Instr.burstWrite 64#40 (List.replicate 64 0#8)).wf = true ∧ (Instr.burstWrite 32#40 (List.replicate 64 0#8)).wf = false ∧
    (Instr.burstWrite 64#40 (List.replicate 63 0#8)).wf = false ∧ (Instr.burstRead 1#40 []).wf = false ∧ (Instr.scrub 63#40 []).wf = false := by decide
theorem test_wf_bar2 : (Instr.bar2Write 0 0#36 []).wf = false ∧ (Instr.bar2Read 0 0#36 0#32).wf = false ∧ (Instr.bar2Read 0 0#36 1#32).wf = true := by decide
theorem test_wf_flit : (Instr.idle 3 (flitIn 64)).wf = true ∧ (Instr.idle 3 (flitIn 63)).wf = false ∧ (Instr.nak 3 ⟨[], false, []⟩).wf = false := by decide +kernel
theorem test_wf_message : (Instr.tensorMessage none (tensorIn 0 128)).wf = true ∧ (Instr.tensorMessage none (tensorIn 0 66)).wf = false ∧
    (Instr.messageForward 3 (.tensor (tensorIn 1 66))).wf = true ∧ (Instr.messageForward 3 (.tensor (tensorIn 2 66))).wf = false ∧
    (Instr.messageForward 3 (.mgmt (mgmtIn 2))).wf = false ∧ (Instr.mgmtKindUnused (mgmtIn 4)).wf = false ∧ (Instr.mgmtKindUnused (mgmtIn 3)).wf = true := by decide +kernel
theorem test_wf_discovery : (Instr.mount ⟨List.replicate 15 [], false, [], [], 0#16⟩).wf = false ∧ (Instr.mount ⟨List.replicate 16 [], false, [], [], 0#16⟩).wf = true := by decide
theorem test_wf_page : (Instr.flashPageRead 0 0#20 0#12 [] 0#16).wf = false ∧ (Instr.flashPageRead 0 0#20 0#12 (List.replicate 4 ⟨0#16, 0, false, false⟩) 0#16).wf = true := by decide
theorem test_wf_stack : (Instr.stackTempSample 3 [0#11]).wf = false ∧ (Instr.stackTempSample 3 (List.replicate 4 0#11)).wf = true := by decide
theorem test_wf_relink : (Instr.relinkAttempt .twin []).wf = false ∧ (Instr.relinkAttempt .expansion []).wf = false := by decide
theorem test_wf_read : (Instr.rcRead (readIn 8 8 0) false).wf = true ∧ (Instr.rcRead (readIn 4 8 0) false).wf = false ∧ (Instr.rcRead (readIn 3 1 9) false).wf = true ∧
    (Instr.rcRead (readIn 0 3 0) false).wf = false ∧ (Instr.counterLowRead (readIn 0 4 1) true).wf = false := by decide
theorem test_wf_write : (Instr.registerWrite ⟨0, false, 2#28, 2, 0#64, false⟩).wf = true ∧ (Instr.registerWrite ⟨0, false, 2#28, 4, 0#64, false⟩).wf = false ∧
    (Instr.registerWrite ⟨0, false, 0#28, 0, 0#64, true⟩).wf = false := by decide
theorem test_wf_link : (Instr.pcieLinkTrained 5 8 true).wf = true ∧ (Instr.pcieLinkTrained 4 8 true).wf = false ∧ (Instr.pcieLinkTrained 0 2 true).wf = false := by decide
theorem test_wf_doe : (Instr.doeRequest []).wf = false ∧ (Instr.doeRequest [1#32]).wf = true := by decide

/-! ### Witnesses of the statements -/

/-- Fields given values one after another. -/
def fl (s : State) (l : List (Fld × Nat)) : State := l.foldl (fun s p => s.setFld p.1 p.2) s

/-- The device in OPERATING, which serves BAR0. -/
def wUp : State := fl State.reset [(Fld.BOOT_STATE_STATE, 6)]

/-- A step is running and core 3's main program is in progress. -/
def wRun : State := fl wUp [(Fld.GARNET_STATUS_STATE, stRunning), (Fld.SEQ_STATUS_RUNNING 3, 1)]

/-- An object of kind CODE of one tile at unified tile 5, homed in frame 7. -/
def wObj (k : ObjKind) : Obj :=
  { state := .live, kind := k, part := 0, policy := .pinned, cls := 0, salt := 0#8, base := 5, size := 1, placeDie := 0, share := 0#16
    session := 0#16, age := 0#32, origin := 0#32, resident := 1, dirFrames := [3], firstDie := none, dying := none, goLive := false }

/-- `s` with object 9 of kind `k` homed in frame 7. -/
def wPlaced (k : ObjKind) (s : State) : State :=
  { s with place := { s.place with objs := [(9, wObj k)], dir := [(tileKey 9 0, { home := .stack, frame := 7 })], frames := [(7, .tile 9 0)] } }

/-- `s` whose core 3 runs the program at unified tile 5, whose first word is `w`. -/
def wCode (w : BitVec 64) (s : State) : State :=
  let s := wPlaced .code { s with mem := Mem.wrN [] (frameSpa 7 + 128) (leBytes 8 w.toNat) }
  s.setCore 3 { s.core 3 with prog := 5 * 65536, count := 4, pid := 0x77#16 }

/-- A WAIT word: queue 2, T5, 3 (R136). -/
def wWait : TokenOp := { queue := 2, self := true, target := 0, counter := 5, amount := 3#8 }
def wWaitWord : BitVec 64 := BitVec.ofNat 64 (3 * 2 ^ 60 + 2 * 2 ^ 55 + 2 ^ 54 + 5 * 2 ^ 39 + 3 * 2 ^ 31)
def wEnt (i : Instr) : QEnt := ⟨i, 0, 0x77#16⟩

/-- `s` with instruction `i` at the head of queue `q` of core 3. -/
def wHead (q : Nat) (i : Instr) (s : State) : State := s.modCore 3 fun x => { x with q := NMap.ins x.q q [wEnt i] }

def wDisp : State := wCode wWaitWord wRun
def wDispFull : State := wDisp.modCore 3 fun x => { x with q := [(2, List.replicate 32 (wEnt (.nop 3)))] }
def wStop : State := wCode (BitVec.ofNat 64 (6 * 2 ^ 60 + 2 * 2 ^ 56)) wRun
/-- `s` with core 3's re-run segment of 4 instructions at unified tile 5, whose second set of queue 2 holds `n` entries. -/
def wSegIn (n : Nat) (s : State) : State :=
  (fl s [(Fld.SEQ_STATUS_RUNNING 3, 0)]).modCore 3 fun x => { x with seg := some ⟨6, 5 * 65536, 0, 4, 0x55#16, true, false, false, [(2, List.replicate n (wEnt (.nop 3)))], 9⟩ }
def wDispSeg (n : Nat) : State := wSegIn n wDisp
def wStopSeg : State := wSegIn 0 wStop

theorem witness_DispatchFillsQueues :
    wDisp.tickState = stRunning ∧ (wDisp.core 3).inSeg = false ∧ wDisp.fld (Fld.SEQ_STATUS_RUNNING 3) = 1 ∧ (wDisp.core 3).dispatched = false ∧ (wDisp.codeWord 3 ((wDisp.core 3).prog + 128 + 8 * (wDisp.core 3).next)).1 = some wWaitWord ∧ (wDisp.codeWord 3 ((wDisp.core 3).prog + 128 + 8 * (wDisp.core 3).next)).2.boot.fault = none ∧ decodeWord 3 wWaitWord = some (.queue 2, .wait 3 wWait) ∧ (wDisp.core 3).next + 1 ≠ (wDisp.core 3).count ∧ ((wDisp.core 3).queue 2).length < 32 ∧
    wDispFull.tickState = stRunning ∧ (wDispFull.core 3).inSeg = false ∧ wDispFull.fld (Fld.SEQ_STATUS_RUNNING 3) = 1 ∧ (wDispFull.core 3).dispatched = false ∧ (wDispFull.codeWord 3 ((wDispFull.core 3).prog + 128 + 8 * (wDispFull.core 3).next)).1 = some wWaitWord ∧ (wDispFull.codeWord 3 ((wDispFull.core 3).prog + 128 + 8 * (wDispFull.core 3).next)).2.boot.fault = none ∧ (wDispFull.core 3).next + 1 ≠ (wDispFull.core 3).count ∧ ((wDispFull.core 3).queue 2).length = 32 ∧
    (wDispSeg 7).tickState = stRunning ∧ ((wDispSeg 7).core 3).seg = some ⟨6, 5 * 65536, 0, 4, 0x55#16, true, false, false, [(2, List.replicate 7 (wEnt (.nop 3)))], 9⟩ ∧ ((wDispSeg 7).codeWord 3 (5 * 65536 + 128)).1 = some wWaitWord ∧ ((wDispSeg 7).codeWord 3 (5 * 65536 + 128)).2.boot.fault = none ∧ (((wDispSeg 7).core 3).segQueue 2).length < 8 ∧ 8 ≤ (((wDispSeg 8).core 3).segQueue 2).length ∧
    wStop.tickState = stRunning ∧ (wStop.core 3).inSeg = false ∧ wStop.fld (Fld.SEQ_STATUS_RUNNING 3) = 1 ∧ (wStop.core 3).dispatched = false ∧ ((wStop.codeWord 3 ((wStop.core 3).prog + 128 + 8 * (wStop.core 3).next)).1).bind (decodeWord 3) = some (.stop, .stepEnd 3) ∧ (wStop.codeWord 3 ((wStop.core 3).prog + 128 + 8 * (wStop.core 3).next)).2.boot.fault = none := by
  decide +kernel

theorem witness_DispatchFillsQueues_2 :
    wStopSeg.tickState = stRunning ∧ ((wStopSeg.codeWord 3 (5 * 65536 + 128)).1).bind (decodeWord 3) = some (.stop, .stepEnd 3) ∧ (wStopSeg.codeWord 3 (5 * 65536 + 128)).2.boot.fault = none ∧ (wStopSeg.core 3).seg = some ⟨6, 5 * 65536, 0, 4, 0x55#16, true, false, false, [(2, [])], 9⟩ := by
  decide +kernel

def wLayer : State := wHead 4 (.layer 3 4 0x12#16) wRun
/-- Core 3 has dispatched its STEP_END. -/
def wEnd (tok : Nat) : State :=
  let s := fl wRun [(tokFld 3 1, tok)]
  s.modCore 3 fun x => { x with dispatched := true }
def wSegRun (a : Nat) (begun ended : Bool) : SegRun := ⟨6, a, 0, 0, 0#16, begun, false, ended, [], 0⟩
def wEndSeg : State := wRun.modCore 3 fun x => { x with seg := some { wSegRun 0 true false with stopped := true, mainPc := 9 } }

theorem witness_NopLayerStepEndEffects :
    (wRun.core 3).idleUs = 0 ∧
    wLayer.atHead 3 4 (.layer 3 4 0x12#16) = true ∧ (wLayer.core 3).seg = none ∧
    (wEnd 0).mayEnd 3 = true ∧ (wEnd 0).balanced 3 = true ∧ ((wEnd 0).core 3).seg = none ∧ ((wEnd 0).core 3).dispatched = true ∧ (wEnd 1).mayEnd 3 = true ∧ (wEnd 1).balanced 3 = false ∧
    (wEndSeg.core 3).seg = some { wSegRun 0 true false with stopped := true, mainPc := 9 } ∧ (List.range 8).all (fun q => ((wEndSeg.core 3).segQueue q).isEmpty) = true := by
  decide

def wTok (v : Nat) (i : Instr) : State := wHead 2 i (fl wRun [(tokFld 3 5, v)])

theorem witness_TokensMoveByAmount :
    (wTok 3 (.wait 3 wWait)).atHead 3 2 (.wait 3 wWait) = true ∧ wWait.amount ≠ 0#8 ∧ wWait.amount.toNat ≤ (wTok 3 (.wait 3 wWait)).leftFor 3 2 (tokFld 3 5) ∧ (wTok 2 (.wait 3 wWait)).leftFor 3 2 (tokFld 3 5) < wWait.amount.toNat ∧
    (wTok 3 (.signal 3 wWait)).atHead 3 2 (.signal 3 wWait) = true ∧
    (wTok 3 (.creditReturn 3 wWait)).atHead 3 2 (.creditReturn 3 wWait) = true ∧ wWait.counter.val < 32 := by
  decide

/-- A signal of 3 is on its way to T5 of core 3, which holds `v`. -/
def wFly (v : Nat) (k : SigKind) : State :=
  { fl wRun [(tokFld 3 5, v), (credFld 3 5, v)] with flights := [⟨some 0, 3, k, 5, 3, 8⟩, ⟨some 0, 4, k, 1, 1, 8⟩] }
def wLate : State := fl (wFly 5 .token) [(Fld.SEQ_STATUS_ENDED 3, 1)]

theorem witness_TokensMoveByAmount2 :
    (wFly 0xFFFC .token).flights[0]? = some ⟨some 0, 3, .token, 5, 3, 8⟩ ∧ (wFly 0xFFFC .token).fld (Fld.SEQ_STATUS_ENDED 3) = 0 ∧ (wFly 0xFFFC .token).fld (sigFld 3 .token 5) + 3 = 0xFFFF ∧ (wFly 0xFFFC .credit).fld (sigFld 3 .credit 5) + 3 = 0xFFFF ∧
    wLate.flights[0]? = some ⟨some 0, 3, .token, 5, 3, 8⟩ ∧ wLate.fld (Fld.SEQ_STATUS_ENDED 3) = 1 ∧ (wLate.core 3).inSeg = false := by
  decide

theorem witness_OverflowingCounterStops :
    0xFFFF < (wFly 0xFFFD .token).fld (sigFld 3 .token 5) + 3 ∧ 0xFFFF < (wFly 0xFFFD .credit).fld (sigFld 3 .credit 5) + 3 ∧ (wFly 0xFFFD .token).flights[0]? = some ⟨some 0, 3, .token, 5, 3, 8⟩ ∧ (wFly 0xFFFD .token).tickState = stRunning ∧ (wFly 0xFFFD .token).fld (Fld.SEQ_STATUS_ENDED 3) = 0 := by
  decide

/-- One unit from cluster 2's cache unit 3 to buffer unit 5, credit counter 4, word 2. -/
def wCop : CacheOp := { cc := 3#16, cb := 5#15, len := 0#10, credit := 4, word := 2, cluster := 2 }
def wCache (i : Instr) : State :=
  let s := wHead 7 i (fl wRun [(credFld 3 4, 1)])
  let s := s.modCore 3 fun x => { x with buf := Mem.wrN [] 320 [1, 2, 3, 0x80, 0xFF, 0xFF, 0xFF, 0xFF, 7] }
  s.modCluster 2 fun x => { x with cache := Mem.wrN [] 192 [0xFF, 5, 0, 0, 1, 0, 0, 0, 250, 255, 255, 255] }

theorem witness_CacheReadAndWriteMoveUnits :
    (wCache (.read 3 wCop)).atHead 3 7 (.read 3 wCop) = true ∧ wCop.ok wCop.units = true ∧ ((wCache (.read 3 wCop)).cluster 2).badIn 3 1 = [] ∧ ((wCache (.read 3 wCop)).cluster 2).cache.wf ∧
    (wCache (.write 3 wCop)).atHead 3 7 (.write 3 wCop) = true ∧ wCop.credits ≤ (wCache (.write 3 wCop)).leftFor 3 7 (credFld 3 4) ∧ ((wCache (.write 3 wCop)).core 3).bad wCop.cba (64 * wCop.units) = false ∧ ((wCache (.write 3 wCop)).core 3).buf.wf := by
  decide

theorem witness_CacheCombineUpdatesWords :
    (wCache (.add 3 wCop)).atHead 3 7 (.add 3 wCop) = true ∧ (wCache (.max 3 wCop)).atHead 3 7 (.max 3 wCop) = true ∧ wCop.ok wCop.units = true ∧ wCop.credits ≤ (wCache (.add 3 wCop)).leftFor 3 7 (credFld 3 4) ∧ ((wCache (.add 3 wCop)).core 3).bad wCop.cba (64 * wCop.units) = false ∧ ((wCache (.add 3 wCop)).cluster 2).badIn 3 1 = [] ∧
    (wCache (.fetchAdd 3 wCop)).atHead 3 7 (.fetchAdd 3 wCop) = true ∧ wCop.ok 1 = true ∧ ((wCache (.fetchAdd 3 wCop)).core 3).bad (wCop.cba + 4 * wCop.word.val) 4 = false ∧ ((wCache (.fetchAdd 3 wCop)).cluster 2).cacheBad.contains 3 = false := by
  decide

/-- A slot entry: guarded, RERUN_EN, VERDICT_EN, cores 1 and 2, verdict token 5, threshold 4 over READOUT saturations, cost 100. -/
def wSlot : BitVec 512 := 0x400000064000400050607#512
def wGuard (sats margin : Nat) : State :=
  let s := fl wRun [(Fld.GUARD_CTRL_ENABLE 2, 1), (Fld.GUARD_MARGIN_LEFT_LEFT_US 2, margin)]
  s.modCluster 2 fun x => { x with slots := [(6, wSlot)], closing := [6], cur := [(6, { mainSats := [(2, sats)], closed := true, rows := 5#32 })] }
/-- The same slot whose rows are all of the step. -/
def wAllRows : State := (wGuard 4 99).modCluster 2 fun x => { x with slots := [(6, wSlot ||| 16#512)] }
/-- The same slot with a mandatory re-run. -/
def wMust : State := (wGuard 4 99).modCluster 2 fun x => { x with slots := [(6, wSlot ||| 8#512)] }

theorem witness_GuardDecidesOnce :
    wMust.tickState = stRunning ∧ (wMust.cluster 2).closing.contains 6 = true ∧ wMust.slotRerunEn 2 6 = true ∧ wMust.inForce (Fld.GUARD_CTRL_ENABLE 2) = 1 ∧ slotFld 32 16 (wMust.slotEnt 2 6) ≤ countedSats (wMust.slotEnt 2 6) (NMap.get {} (wMust.cluster 2).cur 6) ∧ wMust.fld (Fld.GUARD_MARGIN_LEFT_LEFT_US 2) < slotFld 48 16 (wMust.slotEnt 2 6) ∧ bvBit 3 (wMust.slotEnt 2 6) = true ∧
    (wGuard 3 100).tickState = stRunning ∧ ((wGuard 3 100).cluster 2).closing.contains 6 = true ∧ countedSats wSlot (NMap.get {} ((wGuard 3 100).cluster 2).cur 6) < slotFld 32 16 wSlot ∧ (wGuard 3 100).slotEnt 2 6 = wSlot ∧
    (wGuard 4 100).inForce (Fld.GUARD_CTRL_ENABLE 2) = 1 ∧ (wGuard 4 100).slotRerunEn 2 6 = true ∧ slotFld 32 16 wSlot ≤ countedSats wSlot (NMap.get {} ((wGuard 4 100).cluster 2).cur 6) ∧ slotFld 48 16 wSlot ≤ (wGuard 4 100).fld (Fld.GUARD_MARGIN_LEFT_LEFT_US 2) ∧
    (wGuard 4 99).inForce (Fld.GUARD_CTRL_ENABLE 2) = 1 ∧ (wGuard 4 99).slotRerunEn 2 6 = true ∧ slotFld 32 16 wSlot ≤ countedSats wSlot (NMap.get {} ((wGuard 4 99).cluster 2).cur 6) ∧ (wGuard 4 99).fld (Fld.GUARD_MARGIN_LEFT_LEFT_US 2) < slotFld 48 16 wSlot ∧ bvBit 3 wSlot = false ∧
    bvBit 4 wSlot = false ∧ bvBit 4 (wAllRows.slotEnt 2 6) = true ∧ bvBit 3 (wAllRows.slotEnt 2 6) = false ∧ wAllRows.fld (Fld.GUARD_MARGIN_LEFT_LEFT_US 2) < slotFld 48 16 (wAllRows.slotEnt 2 6) := by
  decide +kernel

def wRerun : State := (wGuard 4 100).modCluster 2 fun x => { x with rerunQ := [6, 7] }
/-- The header of a segment of 3 words stands at unified tile 5. -/
def wSegHdr : State :=
  let s := wPlaced .code { wRun with mem := Mem.wrN [] (frameSpa 7) (leBytes 8 (3 + 0x55 * 2 ^ 32)) }
  s.modCore 3 fun x => { x with seg := some (wSegRun (5 * 65536) false false) }
def wRerunEnd : State :=
  let s := fl (wGuard 4 100) [(Fld.GUARD_STATUS_RERUN_ACTIVE 2, 1), (Fld.GUARD_STATUS_ACTIVE_SLOT 2, 6)]
  (s.modCore 17 fun x => { x with seg := some (wSegRun 0 true true) }).modCore 18 fun x => { x with seg := some (wSegRun 0 true true) }
def wWin : State := fl (wRerun.modCluster 2 fun x => { x with wins := [(6, { reruns := 2 })], winSteps := 4 }) [(Fld.GUARD_WINDOW_TICKS 2, 4)]

theorem witness_RerunRunsAndEnds :
    (wRerun.cluster 2).rerunQ = [6, 7] ∧ wRerun.tickState = stRunning ∧ wRerun.fld (Fld.GUARD_STATUS_RERUN_ACTIVE 2) = 0 ∧
    (wSegHdr.core 3).seg = some (wSegRun (5 * 65536) false false) ∧ (wSegHdr.codeWord 3 (5 * 65536)).1 = some (BitVec.ofNat 64 (3 + 0x55 * 2 ^ 32)) ∧ (wSegHdr.codeWord 3 (5 * 65536)).2.pinnedRange (5 * 65536) (128 + 8 * 3) = true ∧ (wSegHdr.codeWord 3 (5 * 65536)).2.boot.fault = none ∧
    wRerunEnd.fld (Fld.GUARD_STATUS_RERUN_ACTIVE 2) = 1 ∧ slotCores (wRerunEnd.slotEnt 2 (wRerunEnd.fld (Fld.GUARD_STATUS_ACTIVE_SLOT 2))) = [1, 2] ∧ (wRerunEnd.core 17).seg = some (wSegRun 0 true true) ∧ (wRerunEnd.core 18).seg = some (wSegRun 0 true true) ∧
    wWin.inForce (Fld.GUARD_CTRL_ENABLE 2) = 1 ∧ wWin.inForce (Fld.GUARD_WINDOW_TICKS 2) ≤ (wWin.cluster 2).winSteps := by
  decide +kernel

theorem witness_ReadoutValuesFallIntoBins :
    valueBin (-32768) = 15 ∧ valueBin 32766 = 14 ∧ valueBin 1 = 0 ∧ valueBin (-2) = 1 ∧ valueBin 16383 = 13 := by
  decide

/-- A vector word on mask 2 with MEN 1: N = `n1` + 1, VD `d`, VA `a`, VB `b`. -/
def wWord (ty : Fin 4) (n1 : Fin 4096) (d a b : Fin 32) (imm : BitVec 19) : VWord :=
  { men := true, msk := 2, ty := ty, vd := d, va := a, vb := b, nm1 := n1, imm := imm }
/-- The largest I8 group at the last registers, a group of I32 of which V28 to V31 are the last, and one short I16 group. -/
def wB : VWord := wWord 0 4095 31 30 31 0x7FFFF#19
def wI : VWord := wWord 2 4095 28 24 28 0#19
def wH : VWord := wWord 1 62 4 5 6 0#19
/-- Core 3's vector engine with something in its registers, mask 2 and lookup slot 1; `i` stands in Q4. -/
def wVec (i : Instr) : State :=
  (wHead 4 i wRun).modCore 3 fun x =>
    { x with vec := { regs := [(5, BitVec.ofNat 32768 0x7FFF8000123400FF), (24, BitVec.ofNat 32768 0x80000000FFFFFFFF), (30, BitVec.ofNat 32768 0x81FF7F)]
                      masks := [(2, BitVec.ofNat 4096 0x16)], luts := [(1, BitVec.ofNat 16384 0x1234)] } }

theorem witness_VectorLaneOperations :
    (wVec (.vadd 3 wB)).vecReady 3 (.vadd 3 wB) wB .i8 [(.i8, wB.vd.val, nOf wB), (.i8, wB.va.val, nOf wB), (.i8, wB.vb.val, nOf wB)] ∧
    (wVec (.vmulsh 3 wI)).vecReady 3 (.vmulsh 3 wI) wI .i32 [(.i32, wI.vd.val, nOf wI), (.i32, wI.va.val, nOf wI), (.i32, wI.vb.val, nOf wI)] ∧
    (wVec (.vsrr 3 wI)).vecReady 3 (.vsrr 3 wI) wI .i32 [(.i32, wI.vd.val, nOf wI), (.i32, wI.va.val, nOf wI), (.i32, wI.vb.val, nOf wI)] ∧
    (wVec (.vshls 3 wH)).vecReady 3 (.vshls 3 wH) wH .i16 [(.i16, wH.vd.val, nOf wH), (.i16, wH.va.val, nOf wH), (.i16, wH.vb.val, nOf wH)] := by
  decide

theorem witness_VectorImmediateOperations :
    (wVec (.vmulshi 3 wB)).vecReady 3 (.vmulshi 3 wB) wB .i8 [(.i8, wB.vd.val, nOf wB), (.i8, wB.va.val, nOf wB)] ∧
    (wVec (.vlut 3 wI)).vecReady 3 (.vlut 3 wI) wI .i32 [(.i32, wI.vd.val, nOf wI), (.i32, wI.va.val, nOf wI)] ∧
    (wVec (.vcls 3 wH)).vecReady 3 (.vcls 3 wH) wH .i16 [(.i16, wH.vd.val, nOf wH), (.i16, wH.va.val, nOf wH)] := by
  decide

def wBc : VWord := wWord 0 4095 31 30 0 4095#19

theorem witness_VectorGenerators :
    (wVec (.vsplat 3 wB)).vecReady 3 (.vsplat 3 wB) wB .i8 [(.i8, wB.vd.val, nOf wB)] ∧
    (wVec (.viota 3 wI)).vecReady 3 (.viota 3 wI) wI .i32 [(.i32, wI.vd.val, nOf wI)] ∧
    (wVec (.vbcast 3 wBc)).vecReady 3 (.vbcast 3 wBc) wBc .i8 [(.i8, wBc.vd.val, nOf wBc), (.i8, wBc.va.val, nOf wBc)] ∧ immF wBc 0 12 < ceilDiv (nOf wBc) VTy.i8.cap * VTy.i8.cap ∧
    (wVec (.vsplathi 3 wI)).vecReady 3 (.vsplathi 3 wI) wI .i32 [(.i32, wI.vd.val, nOf wI)] ∧
    (wVec (.vrand 3 wI)).vecReady 3 (.vrand 3 wI) wI .i32 [(.i32, wI.vd.val, nOf wI)] ∧ immF wI 0 16 ≠ 0xFFFF := by
  decide

/-- The last 4,096 bytes of the buffer as I8, and lookup data in its last 2 KiB. -/
def wLd : VWord := wWord 0 4095 31 31 28 (BitVec.ofNat 19 ((2 ^ 21 - 4096) / 4))
def wLut : VWord := wWord 0 0 0 0 0 (BitVec.ofNat 19 ((2 ^ 21 - 2048) / 64 + 2 ^ 15))

theorem witness_VectorLoadsAndStores :
    (wVec (.vld 3 wLd)).vecReady 3 (.vld 3 wLd) wLd .i8 [(.i8, wLd.vd.val, nOf wLd)] ∧ 4 * wLd.imm.toNat + nOf wLd * VTy.i8.bytes = 2 ^ 21 ∧ ((wVec (.vld 3 wLd)).core 3).bad (4 * wLd.imm.toNat) (nOf wLd * VTy.i8.bytes) = false ∧
    (wVec (.vldx 3 wLd)).vecReady 3 (.vldx 3 wLd) wLd .i8 [(.i8, wLd.vd.val, nOf wLd), (.i32, wLd.vb.val, nOf wLd)] ∧ ((wVec (.vldx 3 wLd)).core 3).bufBad = [] ∧
    (wVec (.vlutld 3 wLut)).vecReady 3 (.vlutld 3 wLut) wLut .i8 [] ∧ 64 * immF wLut 0 15 + 2048 = 2 ^ 21 ∧ ((wVec (.vlutld 3 wLut)).core 3).bad (64 * immF wLut 0 15) 2048 = false ∧
    (wVec (.vst 3 wLd)).vecReady 3 (.vst 3 wLd) wLd .i8 [(.i8, wLd.va.val, nOf wLd)] := by
  decide

/-- VCMP of condition 5 (not less) with a register, and of condition 0 with the immediate −1. -/
def wCmp : VWord := wWord 0 4095 7 30 31 (BitVec.ofNat 19 (5 * 2 ^ 16))
def wCmpI : VWord := wWord 2 4095 0 28 31 (BitVec.ofNat 19 0xFFFF)
def wLog : VWord := wWord 1 4095 7 9 10 3#19

theorem witness_VectorMasks :
    (wVec (.vcmp 3 wCmp)).vecReady 3 (.vcmp 3 wCmp) wCmp .i8 [(.i8, wCmp.va.val, nOf wCmp), (.i8, wCmp.vb.val, nOf wCmp)] ∧ immF wCmp 16 3 = 5 ∧ immF wCmp 15 1 = 0 ∧ wCmp.vd.val < 8 ∧ (wVec (.vcmp 3 wCmpI)).vecReady 3 (.vcmp 3 wCmpI) wCmpI .i32 [(.i32, wCmpI.va.val, nOf wCmpI)] ∧ immF wCmpI 16 3 = 0 ∧ immF wCmpI 15 1 ≠ 0 ∧
    (wVec (.vsel 3 wB)).vecReady 3 (.vsel 3 wB) wB .i8 [(.i8, wB.vd.val, nOf wB), (.i8, wB.va.val, nOf wB), (.i8, wB.vb.val, nOf wB)] ∧
    (wVec (.vmlog 3 wLog)).vecReady 3 (.vmlog 3 wLog) wLog .i16 [] ∧ wLog.vd.val < 8 ∧ immF wLog 0 2 = 3 ∧
    (wVec (.vmsetn 3 wLog)).vecReady 3 (.vmsetn 3 wLog) wLog .i16 [] ∧
    (wVec (.vmpop 3 wB)).vecReady 3 (.vmpop 3 wB) wB .i8 [] ∧ (wVec (.vmfirst 3 wB)).vecReady 3 (.vmfirst 3 wB) wB .i8 [] := by
  decide

theorem witness_VectorReductions :
    (wVec (.vrsum 3 wI)).vecReady 3 (.vrsum 3 wI) wI .i32 [(.i32, wI.va.val, nOf wI)] ∧ (wVec (.vrmax 3 wB)).vecReady 3 (.vrmax 3 wB) wB .i8 [(.i8, wB.va.val, nOf wB)] ∧ (wVec (.vrmin 3 wH)).vecReady 3 (.vrmin 3 wH) wH .i16 [(.i16, wH.va.val, nOf wH)] ∧ (wVec (.vrmaxi 3 wI)).vecReady 3 (.vrmaxi 3 wI) wI .i32 [(.i32, wI.va.val, nOf wI)] ∧ (wVec (.vscan 3 wI)).vecReady 3 (.vscan 3 wI) wI .i32 [(.i32, wI.vd.val, nOf wI), (.i32, wI.va.val, nOf wI)] := by
  decide

/-- K = 64 of a group. -/
def wTop : VWord := wWord 2 4095 31 24 28 63#19

theorem witness_VectorRanking :
    (wVec (.vtopk 3 wTop)).vecReady 3 (.vtopk 3 wTop) wTop .i32 [(.i32, wTop.vd.val, 2 * (immF wTop 0 6 + 1)), (.i32, wTop.va.val, nOf wTop)] ∧
    (wVec (.vtopkp 3 wTop)).vecReady 3 (.vtopkp 3 wTop) wTop .i32 [(.i32, wTop.vd.val, 2 * (immF wTop 0 6 + 1)), (.i32, wTop.va.val, nOf wTop)] ∧ nOf wTop % 2 = 0 ∧ wTop.va.val + ceilDiv (nOf wTop) 1024 ≤ wTop.vd.val ∧
    (wVec (.vcompress 3 wB)).vecReady 3 (.vcompress 3 wB) wB .i8 [(.i8, wB.vd.val, nOf wB), (.i8, wB.va.val, nOf wB)] ∧ (wVec (.vexpand 3 wH)).vecReady 3 (.vexpand 3 wH) wH .i16 [(.i16, wH.vd.val, nOf wH), (.i16, wH.va.val, nOf wH)] := by
  decide

def wCvt : VWord := wWord 0 4095 31 24 0 (BitVec.ofNat 19 (2 + 4 * 63))
/-- 64 entries from token row 30: the last ones of the bank; 32 entries of the last row shown raw. -/
def wAcc : VWord := wWord 2 63 31 0 0 (BitVec.ofNat 19 (63 * 2 ^ 6 + 30 * 2 ^ 12 + 3 * 2 ^ 17))
def wRaw : VWord := wWord 2 63 31 0 0 (BitVec.ofNat 19 (31 * 2 ^ 12))
/-- Two records of G4 in groups of 32. -/
def wRec : VWord := wWord 1 1 4 5 6 0#19

theorem witness_VectorConversions :
    VTy.ofCode (immF wCvt 0 2) = some .i32 ∧ (wVec (.vcvt 3 wCvt)).vecReady 3 (.vcvt 3 wCvt) wCvt .i8 [(.i8, wCvt.vd.val, nOf wCvt), (.i32, wCvt.va.val, nOf wCvt)] ∧
    (wVec (.vacc 3 wAcc)).vecReady 3 (.vacc 3 wAcc) wAcc .i32 [(.i32, wAcc.vd.val, nOf wAcc)] ∧ 32 * immF wAcc 12 5 + nOf wAcc = 1024 ∧
    (wVec (.vaccraw 3 wRaw)).vecReady 3 (.vaccraw 3 wRaw) wRaw .i32 [(.i32, wRaw.vd.val, nOf wRaw)] ∧ nOf wRaw % 2 = 0 ∧ 32 * immF wRaw 12 5 + nOf wRaw / 2 = 1024 ∧
    (wVec (.vdesc 3 wH)).vecReady 3 (.vdesc 3 wH) wH .i16 [(.i16, wH.vd.val, 1), (.i16, wH.va.val, nOf wH)] ∧
    Fmt.ofCode (immF wRec 15 4) = some .g4 ∧ Fmt.g4.isWeight = true ∧ groupSize (immF wRec 0 2) = some 32 ∧ (wVec (.vexts 3 wRec)).vecReady 3 (.vexts 3 wRec) wRec .i16 [(.i16, wRec.vd.val, nOf wRec), (.i8, wRec.va.val, nOf wRec * recordBytes .g4 32)] := by
  decide

/-- U4Z, groups of 64; G4, groups of 32. -/
def wU4 : VWord := wWord 1 4095 8 16 30 (BitVec.ofNat 19 (1 + 2 * 2 ^ 15))
def wG4 : VWord := wWord 1 4095 8 16 30 0#19

theorem witness_VectorQuantisation :
    Fmt.ofCode (immF wG4 15 4) = some .g4 ∧ groupSize (immF wG4 0 2) = some 32 ∧ (wVec (.vqscale 3 wG4)).vecReady 3 (.vqscale 3 wG4) wG4 .i16 [(.i16, wG4.vd.val, ceilDiv (nOf wG4) 32), (.i16, wG4.va.val, nOf wG4)] ∧
    Fmt.ofCode (immF wU4 15 4) = some .u4z ∧ Fmt.u4z.isWeight = true ∧ groupSize (immF wU4 0 2) = some 64 ∧ (wVec (.vquant 3 wU4)).vecReady 3 (.vquant 3 wU4) wU4 .i16 [(.i8, wU4.vd.val, ceilDiv (nOf wU4) 64 * recordBytes .u4z 64), (.i16, wU4.va.val, nOf wU4), (.i16, wU4.vb.val, ceilDiv (nOf wU4) 64)] ∧
    (wVec (.vdeq 3 wU4)).vecReady 3 (.vdeq 3 wU4) wU4 .i16 [(.i16, wU4.vd.val, nOf wU4), (.i8, wU4.va.val, ceilDiv (nOf wU4) 64 * recordBytes .u4z 64)] := by
  decide

def wT3 : VWord := wWord 3 0 0 0 0 0#19
/-- One register too many at VD, at VA and at VB; a load and a store one word past the buffer; one entry past the bank. -/
def wPast (d a b : Fin 32) : VWord := wWord 0 4095 d a b 0#19
def wI16 (d a b : Fin 32) : VWord := wWord 1 4095 d a b 0#19
def wMem : VWord := wWord 0 4095 0 0 0 (BitVec.ofNat 19 ((2 ^ 21 - 4092) / 4))
def wBank : VWord := wWord 2 64 0 0 0 (BitVec.ofNat 19 (30 * 2 ^ 12))

theorem witness_VectorErrorsAbandon :
    wT3.ty.val = 3 ∧ (wVec (.vadd 3 wT3)).atHead 3 4 (.vadd 3 wT3) = true ∧ wH.ty.val ≠ 2 ∧ (wVec (.vacc 3 wH)).atHead 3 4 (.vacc 3 wH) = true ∧ wI.ty.val ≠ 1 ∧ (wVec (.vdesc 3 wI)).atHead 3 4 (.vdesc 3 wI) = true ∧ (wVec (.vadd 3 wT3)).tickState = stRunning ∧
    (VTy.ofCode (wI16 31 0 0).ty.val = some .i16 ∧ 32 < (wI16 31 0 0).vd + ceilDiv (nOf (wI16 31 0 0)) VTy.i16.cap ∧ 32 < (wI16 0 31 0).va + ceilDiv (nOf (wI16 0 31 0)) VTy.i16.cap ∧ 32 < (wI16 0 0 31).vb + ceilDiv (nOf (wI16 0 0 31)) VTy.i16.cap) ∧
    VTy.ofCode wMem.ty.val = some .i8 ∧ 2 ^ 21 < 4 * wMem.imm.toNat + nOf wMem * VTy.i8.bytes ∧ VTy.ofCode wBank.ty.val = some .i32 ∧ 1024 < 32 * immF wBank 12 5 + nOf wBank ∧ (wVec (.vld 3 wMem)).atHead 3 4 (.vld 3 wMem) = true ∧ (wVec (.vst 3 wMem)).atHead 3 4 (.vst 3 wMem) = true ∧ (wVec (.vacc 3 wBank)).atHead 3 4 (.vacc 3 wBank) = true ∧ (wVec (.vsel 3 (wI16 0 0 31))).atHead 3 4 (.vsel 3 (wI16 0 0 31)) = true := by
  decide

/-- Engine 1 of core 3: rows of a G4 cache record, one token, A8, compensated. -/
def wSet : SetupOp := { format := 0, group := 0, grid := 0, comp := true, tokens := 0, actBase := 0#15, actFormat := 3, source := 2, headGroups := 0, scaleBase := 0#14 }
def wEng (o : SetupOp) (i : Instr) : State :=
  let s := (wHead 1 i wRun).modEng 13 fun x => { x with setup := some o, bank := [(0, { m := 100#32, h := 0#5, e := 0#16 })] }
  s.modCore 3 fun x => { x with buf := Mem.wrN [] 0 [0, 0, 0, 0] }
/-- A16 activations with a cache source. -/
def wSet16 : SetupOp := { wSet with actFormat := 4 }

theorem witness_SetupHolds :
    (wEng wSet (.setup 3 1 wSet)).atHead 3 1 (.setup 3 1 wSet) = true ∧ wSet.unused = false ∧ wSet.a16 = false ∧ wSet16.a16 = true ∧ wSet16.unused = false ∧ wSet16.tileMode = false ∧ ({ wSet with actFormat := 5 } : SetupOp).actFormat.val ≠ 3 ∧ ({ wSet with source := 3 } : SetupOp).source.val = 3 ∧ 2 ≤ ({ wSet with format := 2 } : SetupOp).format.val := by
  decide

def wRunOp : RunOp := { src := 8#16, blockOfs := 0#7, blocks := 1#12, accumulate := false, scaleCont := false, actChunk := 0#11 }
/-- Activations 1, 2, 3, ... with shift 0 and codes from 1 on in a page at byte 256. -/
def wActs : State :=
  (wEng wSet (.run 3 1 wRunOp)).modCore 3 fun x =>
    { x with buf := (Mem.wrN [] 64 ((List.range 32).flatMap fun i => [BitVec.ofNat 8 (i + 1), 0#8])).wrN 256 ((List.range 1056).map fun i => BitVec.ofNat 8 (i + 1)) }
/-- CACHE_COLS over a page whose scales are 0. -/
def wColSet : SetupOp := { wSet with source := 1 }
def wColOp : RunOp := { wRunOp with blocks := 2#12 }
def wCols : State := wEng wColSet (.run 3 1 wColOp)
def wTileSet : SetupOp := { wSet with source := 0, scaleBase := 64#14, actBase := 1024#15 }
def wTileOp : RunOp := { wRunOp with src := 1024#16 }
/-- The tile that the RUN meets is a substituted copy (R246), whose operands are zeros. -/
def wFill : Fill := { unit := 512, units := 1, object := 9, tile := 0, kind := .weight, fmt := 0, group := 0, poison := false, sub := true, dirty := [] }
def wTile : State := (wEng wTileSet (.run 3 1 wTileOp)).modCore 3 fun x => { x with fills := [wFill] }
/-- The same over a raw tile of zeros. -/
def wTileRaw : State := wEng wTileSet (.run 3 1 wTileOp)
def wTileFrom : TileRun :=
  { bank := { wTile.bankRun (engOf 3 1) with bank := [], comp := wTile.startComp (engOf 3 1) (some wTileSet) }
    walk := { addr := 32 * wTileOp.src.toNat
              pos := ⟨128 * wTileSet.scaleBase.toNat, wTileOp.blockOfs.toNat / (((groupSize (TileHdr.read (wTile.core 3).buf (32 * wTileOp.src.toNat)).group).getD 32) / 32), false⟩ } }
/-- The same page in normal mode, and going on from the bank. -/
def wColSetN : SetupOp := { wColSet with comp := false }
def wColsN : State := wEng wColSetN (.run 3 1 wColOp)
def wColOn : RunOp := { wColOp with accumulate := true }
def wColsOn (o : SetupOp) (comp : Nat) : State := fl (wEng o (.run 3 1 wColOn)) [(Fld.ENG_STATUS_COMP_BANK 13, comp)]
/-- A raw tile whose operands, scales and activations are not 0, one token of A8 or A16 activations. -/
def wTileSet16 : SetupOp := { wTileSet with actFormat := 4 }
def wTile3 : RunOp := { wTileOp with blocks := 3#12 }
def wTileBuf (o : SetupOp) : State :=
  (wEng o (.run 3 1 wTile3)).modCore 3 fun x =>
    { x with buf := ((Mem.wrN [] (8192 + 16) ((List.range 160).map fun i => BitVec.ofNat 8 (i % 3))).wrN (32768 + 256) ((List.range 96).map fun i => BitVec.ofNat 8 (7 * i + 1))).wrN 65536 ((List.range 96).flatMap fun i => [BitVec.ofNat 8 (i + 1), 0#8]) }
/-- What the first three blocks of that tile give for output `j`. -/
def wTileSum (s : State) (o : SetupOp) (st : TileStart) (h : TileHdr) (j : Nat) : Int :=
  let x := s.core 3
  let sym := decodeTile x.buf 32768 h []
  let blk := fun n => tileBlock s 3 o x.buf st.fg (blockSymbols st.fg.1 sym n) ⟨8192, 0, st.scSub⟩ 0 n
  let pass := fun n (i : Nat) => addend (blk n) (if o.a16 && i == 0 then 256 else 1) (actRow x o (s.eng 13).outliers n 0 i).1 j
  ((List.range 3).map fun n => pass n 0 + if o.a16 then pass n 1 else 0).sum
def wTileOk (s : State) : Option (TileStart × TileHdr) :=
  match tileStart s 3 (s.core 3) { addr := 32768, pos := ⟨8192, 0, false⟩ } 0 3 with
  | .ok st => st.hdr.bind fun h => if !h.coded && decide (3 ≤ blocksPerTile st.fg.1) then some (st, h) else none
  | _ => none

theorem witness_RunAddsProducts :
    wColsN.startComp (engOf 3 1) (some wColSetN) = false ∧ runBad (wColsN.eng (engOf 3 1)) wColSetN wColOp = false ∧ wColsN.atHead 3 1 (.run 3 1 wColOp) = true ∧
    (wColsOn wColSet 1).fld (Fld.ENG_STATUS_COMP_BANK (engOf 3 1)) = 1 ∧ (wColsOn wColSet 1).atHead 3 1 (.run 3 1 wColOn) = true ∧ (wColsOn wColSetN 0).fld (Fld.ENG_STATUS_COMP_BANK (engOf 3 1)) = 0 ∧ ((wColsOn wColSetN 0).eng (engOf 3 1)).bank.all (fun p => p.2.h == 0#5) = true ∧
    (wTileOk (wTileBuf wTileSet)).isSome = true ∧ (wTileOk (wTileBuf wTileSet16)).isSome = true ∧ (wTileBuf wTileSet16).startComp (engOf 3 1) (some wTileSet16) = true ∧ runBad ((wTileBuf wTileSet16).eng (engOf 3 1)) wTileSet16 wTile3 = false ∧ wTileSet16.a16 = true ∧ (wTileBuf wTileSet).startComp (engOf 3 1) (some wTileSet) = true ∧ runBad ((wTileBuf wTileSet).eng (engOf 3 1)) wTileSet wTile3 = false ∧ (wTileBuf wTileSet).atHead 3 1 (.run 3 1 wTile3) = true ∧
    wCols.atHead 3 1 (.run 3 1 wColOp) = true ∧ (wCols.eng (engOf 3 1)).setup = some wColSet ∧ (wCols.eng (engOf 3 1)).hold = none ∧ (wCols.eng (engOf 3 1)).run = none ∧ wColSet.a16 = false ∧ runBad (wCols.eng (engOf 3 1)) wColSet wColOp = false ∧ wColSet.tileMode = false ∧ (wCols.core 3).bufBad = [] ∧ wCols.startComp (engOf 3 1) (some wColSet) = true ∧ wColSet.t = 1 ∧
    ((List.range 2).all fun b => (List.range 32).all fun j => addend (cacheBlock wCols 3 wColSet wColOp b) 1 (actRow (wCols.core 3) wColSet [] b 0 0).1 j == 0) = true := by
  decide +kernel

theorem witness_RunAddsProducts_2 :
    wTile.atHead 3 1 (.run 3 1 wTileOp) = true ∧ (wTile.eng (engOf 3 1)).setup = some wTileSet ∧ (wTile.eng (engOf 3 1)).hold = none ∧ (wTile.eng (engOf 3 1)).dec = none ∧ (wTile.eng (engOf 3 1)).run = none ∧ (wTile.eng (engOf 3 1)).saved = none ∧ (wTile.core 3).bufBad = [] ∧ runBad (wTile.eng (engOf 3 1)) wTileSet wTileOp = false ∧ wTileSet.tileMode = true ∧
    (runTiles 3 1 wTileSet wTileOp 4096 wTile wTileFrom).1.isNone = true := by
  decide +kernel

/-- Column records from byte 320, results from the buffer's last row. -/
def wOut : ReadoutOp := { dest := 32767#15, colrec := 5#15, f := 2, fOut := 1 }
def wRawOp : RawOp := { addr := 32764#15 }
def wBankSt (i : Instr) (comp : Nat) : State :=
  let s := (wHead 1 i (fl wRun [(Fld.ENG_STATUS_COMP_BANK 13, comp)])).modEng 13 fun x =>
    { x with setup := some wSet, bank := [(0, { m := 100#32, h := 0#5, e := 0#16 }), (31, { m := BitVec.ofInt 32 (-7), h := 0#5, e := 0#16 })] }
  s.modCore 3 fun x => { x with buf := (Mem.wrN [] 320 [3, 0, 0, 0, 0, 1, 0, 0]).wrN (64 * 32764) [5, 0, 0, 0, 0, 0, 0, 0, 0xFE, 0xFF, 0xFF, 0xFF, 0xFF, 0xFF] }

theorem witness_ReadoutWritesA16 :
    (wBankSt (.readout 3 1 wOut) 0).atHead 3 1 (.readout 3 1 wOut) = true ∧ ((wBankSt (.readout 3 1 wOut) 0).eng (engOf 3 1)).setup = some wSet ∧ 64 * wOut.colrec.toNat + 256 ≤ 2 ^ 21 ∧ 64 * wOut.dest.toNat + 64 * wSet.t = 2 ^ 21 ∧ wSet.panel 0 + 64 ≤ 2 ^ 21 ∧
    (wBankSt (.readraw 3 1 wRawOp) 1).atHead 3 1 (.readraw 3 1 wRawOp) = true ∧ 64 * wRawOp.addr.toNat + 256 * wSet.t = 2 ^ 21 := by
  decide

theorem witness_MergeAddsRecords :
    (wBankSt (.merge 3 1 wRawOp) 1).atHead 3 1 (.merge 3 1 wRawOp) = true ∧ (wBankSt (.merge 3 1 wRawOp) 1).fld (Fld.ENG_STATUS_COMP_BANK (engOf 3 1)) = 1 ∧ (wBankSt (.merge 3 1 wRawOp) 0).fld (Fld.ENG_STATUS_COMP_BANK (engOf 3 1)) = 0 ∧
    (∀ j < 32, (((wBankSt (.merge 3 1 wRawOp) 0).eng (engOf 3 1)).bank.at j).h = 0#5 ∧ (((wBankSt (.merge 3 1 wRawOp) 0).eng (engOf 3 1)).bank.at j).m.toInt.natAbs + (sx 48 (((wBankSt (.merge 3 1 wRawOp) 0).core 3).buf.rdLe (64 * wRawOp.addr.toNat + 8 * j) 6)).natAbs < 2 ^ 31) := by
  decide

/-- A FETCH of tile 0 of object 9 into slot 511 of core 3's buffer, one unit on credit counter 4. -/
def wFop : FetchOp := { toCache := false, credit := 4, slot := 511, units := 1, object := 9#16, tile := 0#22 }
/-- Object 9 is of weights, its tile 0 stored in one unit in frame 7; its directory line is cached on die 0. -/
def wStored : OnyxObj := { index := 9, ent := wObj .weights, fmt := 0, group := 0, base := 0, sectors := 1, tiles := [(0, 1, 256)], refs := [], committed := true }
def wFet (k : ObjKind) (cred : Nat) (i : Instr) : State :=
  let s := wPlaced k (wHead 5 i (fl wRun [(credFld 3 4, cred)]))
  { s with place := { s.place with dirCache := [(0, [(9, 0)])] }, flash := { s.flash with img := { s.flash.img with objs := [(0, wStored)] } } }
def wFly1 (src : Source) : FetchTile := { tile := 0, units := 1, stored := 256, src := src, tiers := [] }

theorem witness_FetchDrawsAndWaits :
    (wFet .weights 1 (.fetch 3 wFop)).atHead 3 5 (.fetch 3 wFop) = true ∧ (wFet .weights 1 (.fetch 3 wFop)).boot.fault = none ∧ (wFet .weights 1 (.fetch 3 wFop)).fetches = [] ∧ wFop.units.val ≠ 0 ∧ wFop.slot.val + wFop.units.val = 512 ∧ (wFet .weights 1 (.fetch 3 wFop)).obj 9 = some (wObj .weights) ∧ (wObj .weights).live = true ∧ (wObj .weights).belongs ((wFet .weights 1 (.fetch 3 wFop)).partOf 3) = true ∧ (wFet .weights 1 (.fetch 3 wFop)).runTilesOf (wObj .weights) 64 0 1 = some [(0, 1, 256)] ∧ ((wObj .weights).dirBurst 0).all (fun b => (NMap.get [] (wFet .weights 1 (.fetch 3 wFop)).place.dirCache (frameDie (b / 1024))).contains (9, 0)) = true ∧ (wObj .weights).policy ≠ .resident ∧ wFop.units.val ≤ (wFet .weights 1 (.fetch 3 wFop)).leftFor 3 5 (credFld 3 4) ∧
    (wFet .weights 1 (.fetch 3 { wFop with units := 2 })).atHead 3 5 (.fetch 3 { wFop with units := 2 }) = true ∧ 512 < wFop.slot.val + 2 ∧ State.reset.obj 9 = none := by
  decide

/-- Core 3's fetch of that tile is in flight, from a frame, or from the registered host page 2 of partition 0 at 0x30000. -/
def wArr (src : Source) (toCache : Bool) : State :=
  let s := fl (wFet .weights 1 (.fetch 3 { wFop with toCache := toCache })) [(Fld.PARTN_HPT_COUNT_COUNT 0, 3)]
  { s with fetches := [(3, { op := { wFop with toCache := toCache }, prog := 0, pid := 0#16, inSeg := some false, tiles := [wFly1 src] })]
           mem := Mem.wrN [] (frameSpa 7) [0xAA, 0, 0xBB], host := (Mem.wrN [] 16 (leBytes 8 0x30001)).wrN 0x30000 [0xCC] }
/-- Object 9 is being deleted. -/
def wGone : State :=
  let s := wFet .weights 1 (.fetch 3 wFop)
  { s with place := { s.place with objs := [(9, { wObj .weights with state := .deleting })] } }

theorem witness_FetchDrawsAndWaits2 :
    (NMap.find (wArr .zeros true).fetches 3).isSome = true ∧ (wArr .zeros true).boot.fault = none ∧ wGone.obj 9 = some { wObj .weights with state := .deleting } ∧ ({ wObj .weights with state := .deleting } : Obj).live = false ∧ wGone.atHead 3 5 (.fetch 3 wFop) = true ∧ wGone.fetches = [] := by
  decide

theorem witness_FetchDataArrives :
    (wArr (.page 2) true).boot.fault = none ∧ (NMap.find (wArr (.page 2) true).fetches 3).isSome = true ∧ (wArr (.page 2) true).obj 9 = some (wObj .weights) ∧ (wFly1 (.page 2)).poison = false ∧ (wFly1 (.page 2)).units = 1 ∧ (wArr (.page 2) true).place.objs.all (fun p => p.2.state != .deleting) = true ∧ (wArr (.page 2) true).pageOk 2 = true ∧
    frameFl 7 < (wArr (.frame 7) false).frameN ∧ ({ wArr (.frame 7) false with fetches := [] }.readFrame (some ((wArr (.frame 7) false).partOf 3)) 7 256).1.2 = [] ∧ ({ wArr (.frame 7) false with fetches := [] }.readFrame (some ((wArr (.frame 7) false).partOf 3)) 7 256).2.boot.fault = none := by
  decide

def wSums (ok : Bool) : State :=
  wRun.modEng 13 fun x => { x with sums := [⟨9, 0, none, ok, 128, 4⟩] }
def wHeld : State :=
  let s := { wFet .weights 0 (.nop 3) with mem := Mem.wrN [] (frameSpa 7) [0xAA, 0, 0xBB] }
  s.modEng 13 fun x => { x with hold := some ⟨.parity, 9, 0, 4096, 4, none, []⟩, dec := some { addr := 4096, object := 9, tile := 0, block := 1, blocks := 128 } }

theorem witness_TileChecksAndRefetches :
    ((wSums true).eng (engOf 3 1)).sums = [⟨9, 0, none, true, 128, 4⟩] ∧ ((wSums false).eng (engOf 3 1)).sums = [⟨9, 0, none, false, 128, 4⟩] ∧
    (wHeld.eng (engOf 3 1)).hold = some ⟨.parity, 9, 0, 4096, 4, none, []⟩ ∧ wHeld.engs.all (fun p => p.1 == 13 || p.2.hold.isNone) = true ∧ wHeld.obj 9 = some (wObj .weights) ∧ (wObj .weights).state ≠ .quarantined ∧ (wHeld.dirEnt 9 (wObj .weights) 0).poisoned = false ∧ (match wHeld.readHome (some (wHeld.partOf 3)) 9 (wObj .weights) 0 (wHeld.dirEnt 9 (wObj .weights) 0) with | (.bytes _ [], u) => u.boot.fault.isNone | _ => false) = true := by
  decide

/-- Member 1 of a ring of four; port 0 to the east is up. -/
def wRing : State :=
  fl wRun [(Fld.GARNET_GROUP_MEMBER_INDEX, 1), (Fld.TOPO_SHAPE_RINGS, 1), (Fld.TOPO_SHAPE_RING_SIZE, 4), (Fld.LNK_STATUS_STATE 0, pUp), (Fld.LNK_CTRL_ENABLE 0, 1), (Fld.LNK_LANES_LANE_OK 0, 5)]
/-- Channel 5 of core 3 leads to core 7 of member `m`, its credits on counter 4. -/
def wChan (m : Nat) (cred : Nat) (i : Instr) : State :=
  fl (wHead 6 i wRing) [(Fld.VEC_LINK_CH_A_VALID 3 5, 1), (Fld.VEC_LINK_CH_A_PEER_MEMBER 3 5, m), (Fld.VEC_LINK_CH_A_PEER_CORE 3 5, 7),
    (Fld.VEC_LINK_CH_A_LOCAL_CREDIT 3 5, 4), (credFld 3 4, cred)]
/-- The last 65 units of the buffer, raw. -/
def wSend : SendOp := { ch := 5, src := 32703#15, len := 64#10, destOfs := 0#16, amount := 1#8, wire := 0 }
def wRel : ReleaseOp := { ch := 5, amount := 2#8 }

theorem witness_MessagesLeaveOnChannels :
    ((wChan 1 2 (.send 3 wSend)).core 3).bad (64 * wSend.src.toNat) (64 * (wSend.len.toNat + 1)) = false ∧ (wChan 1 2 (.send 3 wSend)).inForce (Fld.VEC_LINK_CH_A_VALID 3 5) = 1 ∧ wRing.linksQuiet = false ∧
    (wChan 1 2 (.send 3 wSend)).atHead 3 6 (.send 3 wSend) = true ∧ wSend.amount ≠ 0#8 ∧ wSend.wire.val ≠ 3 ∧ (wChan 1 2 (.send 3 wSend)).fld (Fld.VEC_LINK_CH_A_VALID 3 5) = 1 ∧ 64 * (wSend.src.toNat + wSend.len.toNat + 1) = 2 ^ 21 ∧ ceilDiv (wSend.len.toNat + 1) 64 = 2 ∧ (wChan 1 2 (.send 3 wSend)).fld (credFld 3 ((wChan 1 2 (.send 3 wSend)).fld (Fld.VEC_LINK_CH_A_LOCAL_CREDIT 3 5))) = 2 ∧ (wChan 1 2 (.send 3 wSend)).me = 1 ∧ (wChan 1 1 (.send 3 wSend)).fld (credFld 3 4) < 2 ∧
    (wChan 40 2 (.send 3 wSend)).route 40 = none ∧ (wChan 2 2 (.send 3 wSend)).route 2 = some .east ∧ (wChan 2 2 (.send 3 wSend)).pickPort ((wChan 2 2 (.send 3 wSend)).liveOf .east) = some 0 ∧ ((wChan 2 2 (.send 3 wSend)).port 0).queue = [] ∧
    (wChan 1 0 (.release 3 wRel)).atHead 3 6 (.release 3 wRel) = true ∧ wRel.amount ≠ 0#8 ∧ (wChan 1 0 (.release 3 wRel)).fld (Fld.VEC_LINK_CH_A_VALID 3 5) = 1 := by
  decide +kernel

/-- A raw message of one unit to the last unit of core 3's buffer, token 5. -/
def wHdr : TensorHdr :=
  { destMember := 1, destCore := 3, toCache := false, destAddr := 32767#17, unitsM1 := 0#10, token := 5, amount := 3#8, part := 0, tick := 7#32, srcMember := 2, srcCore := 9
    wire := 0, groupId := 0#16, hops := 0#8 }
def wMsg : TensorMsg := ⟨wHdr, (List.range 64).map fun i => BitVec.ofNat 8 (i + 1)⟩
/-- A credit message: no data, credit counter 5. -/
def wCredMsg : TensorMsg := ⟨{ wHdr with wire := 3 }, []⟩
def wTick (t tok : Nat) : State := (fl wRing [(tokFld 3 5, tok)]).wr Rg.GARNET_TICK (BitVec.ofNat 32 t)

theorem witness_OverflowingTensorStops :
    wMsg.hdr.destMember.val = (wTick 7 0xFFFD).me ∧ ((wTick 7 0xFFFD).port 0).blocked = [] ∧ (wTick 7 0xFFFD).tickState = stRunning ∧ wMsg.hdr.groupId.toNat = (wTick 7 0xFFFD).fld Fld.GARNET_GROUP_GROUP_ID ∧ wMsg.hdr.tick = (wTick 7 0xFFFD).tickNo ∧ wMsg.hdr.part.val = (wTick 7 0xFFFD).partOf wMsg.hdr.destCore ∧ wMsg.hdr.wire.val ≠ 3 ∧ wMsg.data ≠ [] ∧ wMsg.hdr.destAddr.toNat + wMsg.hdr.unitsM1.toNat + 1 = 32768 ∧ (wTick 7 0xFFFD).fld (Fld.SEQ_STATUS_ENDED wMsg.hdr.destCore) = 0 ∧ 0xFFFF < (wTick 7 0xFFFD).fld (sigFld 3 .token 5) + wMsg.hdr.amount.toNat ∧
    wCredMsg.hdr.wire.val = 3 ∧ wCredMsg.data = [] ∧ wCredMsg.hdr.token.val < 32 ∧ 0xFFFF < (fl (wTick 7 0) [(credFld 3 5, 0xFFFD)]).fld (sigFld 3 .credit 5) + wCredMsg.hdr.amount.toNat := by
  decide

theorem witness_MessagesAreDelivered :
    wMsg.hdr.destMember.val = (wTick 7 0xFFFC).me ∧ ((wTick 7 0xFFFC).port 0).blocked = [] ∧ (wTick 7 0xFFFC).tickState ≠ stDisabled ∧ wMsg.hdr.groupId.toNat = (wTick 7 0xFFFC).fld Fld.GARNET_GROUP_GROUP_ID ∧ wMsg.hdr.tick = (wTick 7 0xFFFC).tickNo ∧ wMsg.hdr.part.val = (wTick 7 0xFFFC).partOf wMsg.hdr.destCore ∧ wMsg.hdr.wire.val = 0 ∧ wMsg.data ≠ [] ∧ wMsg.hdr.destAddr.toNat + wMsg.hdr.unitsM1.toNat + 1 = 32768 ∧ (wTick 7 0xFFFC).fld (Fld.SEQ_STATUS_ENDED wMsg.hdr.destCore) = 0 ∧ (wTick 7 0xFFFC).fld (tokFld wMsg.hdr.destCore wMsg.hdr.token) + wMsg.hdr.amount.toNat = 0xFFFF ∧
    wMsg.hdr.tick = (wTick 6 0).tickNo + 1#32 ∧ (wTick 6 0).holdUsed + wMsg.data.length ≤ 8388608 ∧ ({ wHdr with groupId := 1#16 } : TensorHdr).groupId.toNat ≠ (wTick 7 0).fld Fld.GARNET_GROUP_GROUP_ID := by
  decide

def wBlocked : State := (fl wRing [(Fld.LNK_STATUS_HOLD_FULL 0, 1)]).modPort 0 fun x => { x with blocked := [⟨some 0, wMsg⟩] }
/-- A message for member 2 that has made `h` hops; port 4 of the way back to the west is up, its VC 2 without credit. -/
def wFwd (h : Nat) : TensorMsg := { wMsg with hdr := { wHdr with destMember := 2, hops := BitVec.ofNat 8 h } }
def wVia : State := wRing.modPort 0 fun x => { x with sentVc := [(2, 4096)] }

theorem witness_MessagesAreDelivered2 :
    (wBlocked.port 0).blocked = [⟨some 0, wMsg⟩] ∧ wBlocked.holdUsed + wMsg.data.length ≤ 8388608 ∧
    (wBlocked.port 0).blocked ≠ [] ∧ wMsg.hdr.destMember.val = wBlocked.me ∧
    (wVia.port 4).blocked = [] ∧ (wFwd 31).hdr.destMember.val ≠ wVia.me ∧ (wFwd 31).hdr.hops.toNat < 32 ∧ 32 ≤ (wFwd 32).hdr.hops.toNat ∧ ((wVia.takeArrived 4 2 fun bs => TensorMsg.ofBytes bs == wFwd 31).freeFlits 4 2 (flitsFor (wFwd 31).bytes.length)).routeOn 2 (some (bundleOf 4)) = some .east ∧ ((wVia.takeArrived 0 2 fun bs => TensorMsg.ofBytes bs == wFwd 31).freeFlits 0 2 (flitsFor (wFwd 31).bytes.length)).routeOn 2 (some (bundleOf 0)) = none ∧ (wVia.port 0).queue = [] ∧ (wVia.port 0).credits 2 = 0 := by
  decide

/-- 12 bytes of header and a payload of zeros, and the flit they make with their CRC. -/
def wBody (type vc seq : Nat) (ack : Option Nat) : List Byte :=
  leBytes 12 (type + 16 * vc + 2 ^ 8 * seq + (match ack with | some a => 2 ^ 24 * a + 2 ^ 40 | none => 0)) ++ List.replicate 240 0#8
/-- 256 bytes on the lanes 0 and 2 of port 0. -/
def wOnLanes (bs : List Byte) : FlitIn :=
  { lanes := [(List.range 128).map fun i => bs.getD (2 * i) 0#8, [], (List.range 128).map fun i => bs.getD (2 * i + 1) 0#8], uncorr := false, corrected := [] }
def wFlit (type vc seq : Nat) (ack : Option Nat) : FlitIn := wOnLanes (wBody type vc seq ack ++ leBytes 4 (crc32 (wBody type vc seq ack)).toNat)
def wGood (f : FlitIn) : Bool :=
  !f.uncorr && (wRing.flitOf 0 f).length == 256 && leNat ((wRing.flitOf 0 f).drop 252) == (crc32 ((wRing.flitOf 0 f).take 252)).toNat
def wHdrOf (f : FlitIn) : Nat × Nat × Nat :=
  let h := BitVec.ofNat 96 (leNat ((wRing.flitOf 0 f).take 12))
  (bvGet 0 4 h, bvGet 4 2 h, bvGet 8 16 h)


theorem unstripe_two (bs : List Byte) (h : bs.length = 256) :
    unstripe [(List.range 128).map fun i => bs.getD (2 * i) 0#8, (List.range 128).map fun i => bs.getD (2 * i + 1) 0#8] = bs := by
  refine List.ext_getElem (by simp [unstripe, h]) fun i h1 h2 => ?_
  have hi : i < 256 := h ▸ h2
  rcases Nat.mod_two_eq_zero_or_one i with hm | hm
  · have e : 2 * (i / 2) = i := by omega
    simp [unstripe, hm, List.getD_eq_getElem?_getD, show i / 2 < 128 by omega, e, List.getElem?_eq_getElem h2]
  · have e : 2 * (i / 2) + 1 = i := by omega
    simp [unstripe, hm, List.getD_eq_getElem?_getD, show i / 2 < 128 by omega, e, List.getElem?_eq_getElem h2]

theorem wRing_lanes : wRing.lanesOf 0 = [0, 2] := by decide

theorem flitOf_wOnLanes (bs : List Byte) (h : bs.length = 256) : wRing.flitOf 0 (wOnLanes bs) = bs := by
  have e : wRing.flitOf 0 (wOnLanes bs) = unstripe ([0, 2].map fun l => (wOnLanes bs).lanes.getD l []) := by rw [State.flitOf, wRing_lanes]
  rw [e]; exact unstripe_two bs h

theorem length_wBody (type vc seq : Nat) (ack : Option Nat) : (wBody type vc seq ack).length = 252 := by
  simp only [wBody, List.length_append, length_leBytes, List.length_replicate]

theorem flitOf_wFlit (type vc seq : Nat) (ack : Option Nat) :
    wRing.flitOf 0 (wFlit type vc seq ack) = wBody type vc seq ack ++ leBytes 4 (crc32 (wBody type vc seq ack)).toNat :=
  flitOf_wOnLanes _ (by rw [List.length_append, length_wBody, length_leBytes])

theorem wFlit_good (type vc seq : Nat) (ack : Option Nat) : wGood (wFlit type vc seq ack) = true := by
  have hl := length_wBody type vc seq ack
  unfold wGood
  rw [flitOf_wFlit, List.drop_left' hl, List.take_left' hl, leNat_leBytes, List.length_append, hl, length_leBytes,
    Nat.mod_eq_of_lt (show _ < 256 ^ 4 from (crc32 (wBody type vc seq ack)).isLt), beq_self_eq_true, beq_self_eq_true]
  rfl

theorem wHdrOf_wFlit (type vc seq : Nat) (ack : Option Nat) : wHdrOf (wFlit type vc seq ack) =
    (let h := BitVec.ofNat 96 (leNat (leBytes 12 (type + 16 * vc + 2 ^ 8 * seq + (match ack with | some a => 2 ^ 24 * a + 2 ^ 40 | none => 0))))
     (bvGet 0 4 h, bvGet 4 2 h, bvGet 8 16 h)) := by
  unfold wHdrOf
  rw [flitOf_wFlit]
  unfold wBody
  rw [List.append_assoc, List.take_left' (length_leBytes ..)]

theorem witness_goodFlits : [wFlit 1 2 0 none, wFlit 2 1 32767 none, wFlit 0 0 0 (some 4), wFlit 4 0 4 none].all wGood = true ∧
    [wFlit 1 2 0 none, wFlit 2 1 32767 none, wFlit 0 0 0 (some 4), wFlit 4 0 4 none].map wHdrOf = [(1, 2, 0), (2, 1, 32767), (0, 0, 0), (4, 0, 4)] := by
  simp only [List.all_cons, List.all_nil, wFlit_good, List.map_cons, List.map_nil, wHdrOf_wFlit]
  decide


def wTx (q : Nat) : TxFlit := ⟨1, 2, true, BitVec.ofNat 16 q, []⟩
def wPort (f : PortSt → PortSt) : State := wRing.modPort 0 f
/-- Flit 0 is there already. -/
def wLater : State := wPort fun x => { x with rxNext := 1 }
def wBad : FlitIn := { lanes := [], uncorr := false, corrected := [] }

theorem witness_FlitsInOrderAreAccepted :
    wRing.pState 0 = pUp ∧ wBad.uncorr = false ∧ (wRing.flitOf 0 wBad).length ≠ 256 ∧ ((wPort fun x => { x with nakAt := some 5 }).port 0).nakAt = some 5 ∧ ((wPort fun x => { x with unacked := [wTx 0] }).port 0).unacked = [wTx 0] ∧ (wRing.port 0).replays < 16 ∧ ((wPort fun x => { x with replays := 16 }).port 0).replays = 16 ∧ (wRing.port 0).rxNext.toNat = 0 ∧ wRing.linksQuiet = false ∧ 32768 ≤ (0#16 - (wLater.port 0).rxNext).toNat ∧ (wRing.port 0).nakAt = none ∧ [0, 2].Nodup ∧ (stripe [0, 2] (List.replicate 256 0#8)).length = 2 := by
  decide +kernel

def wLanes (st ok : Nat) : State := fl wRing [(Fld.LNK_STATUS_STATE 0, st), (Fld.LNK_LANES_LANE_OK 0, ok)]
def wBack : State := (fl wRing [(Fld.LNK_STATUS_STATE 0, pHandback)]).modPort 0 fun x => { x with sent := [mkTx 2 [1#8]], queue := [mkTx 2 [2#8]] }
def wTrained : TrainEnd := ⟨0b0011#4, 2, 4, false⟩
def wRelink (tr : Bool) : State :=
  let s := fl wRing [(Fld.LNK_STATUS_STATE 0, pTraining), (Fld.TOPO_MEMBER_STATE_STATE 0 2, 1)]
  { s with link := { s.link with relinks := [(0, ⟨2, 40, tr⟩)] } }
/-- Member 1 of a ring of eight, whose members 3 to 5 are bypassed, waits for its lost neighbour 2: the span would pass four positions. -/
def wFar : State :=
  let s := fl wRing [(Fld.TOPO_SHAPE_RING_SIZE, 8), (Fld.TOPO_MEMBER_STATE_STATE 0 2, 1), (Fld.TOPO_MEMBER_STATE_STATE 0 3, 2), (Fld.TOPO_MEMBER_STATE_STATE 0 4, 2), (Fld.TOPO_MEMBER_STATE_STATE 0 5, 2)]
  { s with link := { s.link with relinks := [(0, ⟨2, 40, false⟩)] } }
/-- Port 1 of the same bundle is up, its window full. -/
def wBackOn : State := (fl wBack [(Fld.LNK_STATUS_STATE 1, pUp)]).modPort 1 fun x => { x with unacked := List.replicate 1024 (wTx 0) }
/-- Port 1 trains again and still owes the peer its record. -/
def wOwes (st : Nat) : State := (fl wRing [(Fld.LNK_STATUS_STATE 1, st)]).modPort 1 fun x => { x with record := some (7#16, true) }
/-- Member 3 is lost; its nearer neighbour 2, bypassed, has come back. -/
def wNear : State :=
  let s := fl wRing [(Fld.LNK_STATUS_STATE 0, pTraining), (Fld.TOPO_MEMBER_STATE_STATE 0 3, 1), (Fld.TOPO_MEMBER_STATE_STATE 0 2, 2)]
  { s with link := { s.link with relinks := [(0, ⟨3, 40, true⟩)] } }

theorem witness_PortsChangeLanes :
    wBackOn.pState 0 = pHandback ∧ wBackOn.liveOf (bundleOf 0) = [1] ∧ (wBackOn.port 1).unacked.length = 1024 ∧
    (wOwes pDown).pState 1 = pDown ∧ (wOwes pTraining).pState 1 = pTraining ∧ ((wOwes pDown).port 1).record = some (7#16, true) ∧ wRing.linksQuiet = false ∧
    wNear.peerOk 0 wTrained (some 3) = true ∧ ((wNear.along .east).takeWhile fun m => m != wTrained.peer.val).contains 3 = false ∧ wNear.pState 0 = pTraining ∧ (((wRelink true).along .east).takeWhile fun m => m != 3).contains 2 = true ∧
    3 < wFar.spanLen .east (some 2) ∧ (wRelink false).spanLen .east (some 2) ≤ 3 ∧ NMap.find wFar.link.relinks (Bundle.num .east) = some ⟨2, 40, false⟩ ∧
    (wLanes pUp 0b0111).pState 0 = pUp ∧ ((wLanes pUp 0b0111).fld (Fld.LNK_LANES_LANE_OK 0)).testBit 2 = true ∧ (bitsSet (BitVec.ofNat 4 (0b0111 - 2 ^ 2))).length = 2 ∧ ((wLanes pUp 0b0110).fld (Fld.LNK_LANES_LANE_OK 0)).testBit 2 = true ∧ (bitsSet (BitVec.ofNat 4 (0b0110 - 2 ^ 2))).length = 1 ∧ 2 ≤ (bitsSet (BitVec.ofNat 4 ((wLanes pUp 0b0111).fld (Fld.LNK_LANES_LANE_OK 0)) &&& 0b1011#4)).length ∧
    wBack.pState 0 = pHandback ∧ wBack.liveOf (bundleOf 0) = [] ∧
    ((wLanes pDegrading 3).modPort 0 fun x => { x with agreed := some 3#4 }).pState 0 = pDegrading ∧ (((wLanes pDegrading 3).modPort 0 fun x => { x with agreed := some 3#4 }).port 0).agreed = some 3#4 ∧
    (wLanes pTraining 0).pState 0 = pTraining ∧ (bitsSet wTrained.good).length = 2 ∧ (wLanes pTraining 0).peerOk 0 wTrained none = true ∧ wRing.serves (Rg.LNK_CTRL 0) = true := by
  decide +kernel

theorem witness_PortsChangeLanes_2 :
    NMap.find (wRelink false).link.relinks (Bundle.num .east) = some ⟨2, 40, false⟩ ∧ NMap.find (wRelink true).link.relinks (Bundle.num .east) = some ⟨2, 40, true⟩ ∧ (wRelink true).pState 0 = pTraining ∧ (wRelink true).peerOk 0 { wTrained with peer := 3 } (some 2) = true ∧ bundleOf 0 = .east ∧
    wRing.serves (Rg.LNK_INJ_CTRL 0) = true ∧ wRing.fld Fld.BOOT_TEST_ENABLE = 0 ∧ (fl wRing [(Fld.BOOT_TEST_ENABLE, 1)]).fld Fld.BOOT_TEST_ENABLE = 1 := by
  decide +kernel

/-- Members 1 and 2 form a group; this device is 1. -/
def wGroup (st : Nat) : State :=
  fl wRing [(Fld.GARNET_CTRL_ENABLE, 1), (Fld.GARNET_MEMBERS_MEMBER 0, 6), (Fld.GARNET_STATUS_STATE, st)]
/-- Port 0 relinks to member 2 already. -/
def wRelinking : State := { wGroup stDone with link := { (wGroup stDone).link with relinks := [(0, ⟨2, 40, true⟩)] } }

theorem witness_LostMemberStopsGroup :
    (wGroup stRunning).inGroup 2 = true ∧ (wGroup stRunning).mState 2 = 0 ∧ (wGroup stRunning).me = 1 ∧ (wGroup stRunning).ticking = true ∧ (wGroup stRunning).silenceCounts 2 = true ∧ (3 : Nat) ≠ (wGroup stRunning).me ∧
    (NMap.find wRelinking.link.relinks (Bundle.num .east)).any (fun r => r.lost == 2) = true ∧ wRelinking.facing 2 = [.east] := by
  decide +kernel

/-- Partition 15 is enabled, with an event ring of 64 entries of which two are free. -/
def wEvents : State :=
  fl wRing [(Fld.PARTN_CTRL_ENABLE 15, 1), (Fld.PARTN_EVT_CFG_ENABLE 15, 1), (Fld.PARTN_EVT_CFG_LOG2 15, 6), (Fld.PARTN_EVT_PROD_PROD 15, 62)]
/-- This device has left. -/
def wLeft : State := { wRing with link := { wRing.link with left := true } }

theorem witness_FailoverMessagesApply :
    wEvents.inForce (Fld.PARTN_CTRL_ENABLE 15) = 1 ∧ 1 < wEvents.evtFree 15 ∧ wEvents.inForce (Fld.PARTN_EVT_CFG_ENABLE 15) = 1 ∧ wEvents.evtFree 15 = 2 ∧ wEvents.me = 1 ∧
    wLeft.link.left = true ∧ wLeft.me = 1 ∧
    (fl wRing [(Fld.TOPO_MEMBER_STATE_STATE 0 2, 1)]).mState 2 = 1 ∧ (fl wRing [(Fld.TOPO_MEMBER_STATE_STATE 0 2, 1)]).facing 2 = [.east] := by
  decide +kernel

/-- Member 1's device outside and in a group, its switch `k` at `v`. -/
def wSw (en : Nat) (v : Nat) (cmd : Option (Bool × Nat)) : State :=
  let s := fl wUp ([(Fld.GARNET_GROUP_MEMBER_INDEX, 1), (Fld.GARNET_CTRL_ENABLE, en), (Fld.LNK_CTRL_ENABLE 1, 1), (Fld.TOPO_SHAPE_RINGS, 1), (Fld.TOPO_SHAPE_RING_SIZE, 4)] ++ (List.range 6).map fun k => (Fld.TOPO_AGATE_STATUS_SW k, v))
  { s with link := { s.link with agate := match cmd with | some c => [(1, c)] | none => [] } }

theorem witness_AgateSwitchesMove :
    (wSw 0 1 none).serves Rg.TOPO_AGATE_CMD = true ∧ (wSw 1 1 none).serves Rg.TOPO_AGATE_CMD = true ∧ (wSw 1 1 none).fld Fld.GARNET_CTRL_ENABLE = 1 ∧ (wSw 0 1 none).fld (Fld.TOPO_AGATE_STATUS_SW 5) = 1 ∧ (wSw 0 0 none).fld (Fld.TOPO_AGATE_STATUS_SW 5) = 0 ∧ (wSw 0 1 none).inStep = false ∧ wRun.inStep = true ∧ wRun.serves Rg.TOPO_AGATE_CMD = true ∧
    NMap.find (wSw 0 2 (some (false, 30))).link.agate 1 = some (false, 30) ∧ (wSw 0 2 (some (false, 30))).fld (Fld.TOPO_AGATE_STATUS_SW 1) = 2 := by
  decide +kernel

/-- A group of this device alone, in state `st`, with its token withheld or not. -/
def wAlone (st wh : Nat) (l : List (Fld × Nat)) : State :=
  fl wUp ([(Fld.GARNET_CTRL_ENABLE, 1), (Fld.GARNET_STATUS_STATE, st), (Fld.GARNET_CTRL_WITHHOLD, wh)] ++ l)
/-- The same with the STEP_END of every core complete. -/
def wEnded : State :=
  { wAlone stRunning 1 [] with regs := ((List.range 512).map fun c => (Rg.SEQ_STATUS c, 2#32)) ++ (wAlone stRunning 1 []).regs }

theorem find_same {β : Type} (l m : NMap β) (v : β) (k : Nat) (h : ∀ p ∈ l, p.2 = v) (hk : ∃ p ∈ l, p.1 = k) : NMap.find (l ++ m) k = some v := by
  induction l with
  | nil => obtain ⟨p, hp, -⟩ := hk; cases hp
  | cons q l ih =>
    obtain ⟨j, w⟩ := q
    simp only [List.cons_append, NMap.find]
    split
    · exact congrArg some (h _ List.mem_cons_self)
    · refine ih (fun p hp => h p (List.mem_cons_of_mem _ hp)) ?_
      obtain ⟨p, hp, rfl⟩ := hk
      rcases List.mem_cons.1 hp with rfl | hp
      · exact absurd rfl ‹_›
      · exact ⟨p, hp, rfl⟩

theorem witness_allEnded : wEnded.stepEnded = true := by
  simp only [State.stepEnded, Bool.and_eq_true]
  constructor
  · refine List.all_eq_true.2 fun c hc => ?_
    have h : NMap.find wEnded.regs (Rg.SEQ_STATUS c) = some 2#32 :=
      find_same _ _ _ _ (fun p hp => by obtain ⟨_, -, rfl⟩ := List.mem_map.1 hp; rfl) ⟨_, List.mem_map.2 ⟨c, hc, rfl⟩, rfl⟩
    have h' : wEnded.rd (Fld.SEQ_STATUS_ENDED c).addr = 2#32 := by
      show (NMap.find wEnded.regs (Rg.SEQ_STATUS c)).getD _ = _
      rw [h]; rfl
    simp only [State.fld, h']; rfl
  · decide +kernel

def wTickAll : State := wAlone stDone 0 [(Fld.GARNET_STATUS_TIMER_EXPIRED, 1), (Fld.GARNET_STATUS_OWN_DONE, 1), (Fld.GARNET_STATUS_TOKENS_COMPLETE, 1)]
/-- The same at 9 µs, past its expiry at 5 and done at 7, with two members' tokens of the next step. -/
def wTickHeld : State := { wTickAll with now := 9, garnet := { wTickAll.garnet with expireAt := 5, doneAt := 7, heldNext := [2, 511] } }

theorem witness_TicksStartAndEnd :
    (wAlone stDone 0 []).ticking = true ∧ (wAlone stDone 0 []).fld Fld.GARNET_STATUS_TIMER_EXPIRED = 0 ∧ (wAlone stDone 0 []).fld Fld.GARNET_STATUS_OWN_DONE = 0 ∧ wUp.ticking = false ∧ (fl wUp [(Fld.PWR_STATUS_PWRFAIL, 1)]).fld Fld.PWR_STATUS_PWRFAIL = 1 ∧ (fl wUp [(Fld.PWR_STATUS_STATE, 1)]).powerState ≠ 0 ∧ wUp.mayStart = false ∧ wEnded.hostq.sess = [] ∧ wEnded.commitSessions = some wEnded.clearSample ∧
    wTickAll.ticking = true ∧ wTickAll.fld Fld.GARNET_STATUS_TIMER_EXPIRED = 1 ∧ wTickAll.fld Fld.GARNET_STATUS_OWN_DONE = 1 ∧ wTickAll.fld Fld.GARNET_STATUS_TOKENS_COMPLETE = 1 ∧ wTickAll.powerState = 0 ∧ wTickAll.fld Fld.PWR_STATUS_PWRFAIL = 0 ∧
    wRun.tickState = stRunning ∧ wRun.stepEnded = false ∧
    wEnded.tickState = stRunning ∧ wEnded.fld Fld.GARNET_CTRL_WITHHOLD = 1 ∧ wEnded.held = [] ∧ wEnded.ticking = true ∧ wEnded.link.leave = false ∧ wEnded.stackTab = [] ∧
    (wAlone stAbandoning 1 []).tickState = stAbandoning ∧ (wAlone stAbandoning 1 []).fld Fld.GARNET_CTRL_WITHHOLD = 1 ∧ (wAlone stAbandoning 1 []).held = [] ∧ (wAlone stAbandoning 1 []).ticking = true ∧ (wAlone stAbandoning 1 []).link.leave = false ∧ (wAlone stAbandoning 1 []).stackTab = [] := by
  decide +kernel

theorem witness_TicksStartAndEnd_2 :
    wRun.fld (Fld.SEQ_STATUS_RUNNING 3) = 1 ∧ wRun.stalledOn 3 = [] ∧ wRun.heldPoison 3 = false ∧
    wTickHeld.fld Fld.BOOT_STATE_STATE < 7 ∧ wTickHeld.garnet.heldNext = [2, 511] ∧ wTickHeld.ticking = true ∧ wTickHeld.mayStart = true := by
  decide +kernel

def wTokn : Token := ⟨5#16, 2, false, 8#32⟩
def wPair (en : Nat) : State := (fl wUp [(Fld.GARNET_CTRL_ENABLE, en), (Fld.GARNET_GROUP_GROUP_ID, 5), (Fld.GARNET_MEMBERS_MEMBER 0, 5), (Fld.GARNET_STATUS_STATE, stDone)]).wr Rg.GARNET_TICK 8#32

theorem witness_GroupsFormAndTokensCount :
    wUp.serves Rg.GARNET_CTRL = true ∧ wUp.inStep = false ∧ wUp.held = [] ∧ wUp.fld Fld.GARNET_CTRL_ENABLE = 0 ∧ wUp.fld Fld.GARNET_CTRL_WITHHOLD = 0 ∧
    (wAlone stDone 0 []).serves Rg.GARNET_CTRL = true ∧ (wAlone stDone 0 []).inStep = false ∧ (wAlone stDone 0 []).held = [] ∧ (wAlone stDone 0 []).fld Fld.GARNET_CTRL_ENABLE = 1 ∧ (wAlone stRunning 0 []).inStep = true ∧ (wAlone stRunning 0 []).held = [] ∧ (wAlone stDone 0 []).fld Fld.GARNET_STATUS_OWN_DONE = 0 ∧
    (wPair 1).carriesTicks 7 = true ∧ (wPair 1).carriesTicks 8 = false ∧ wTokn.group.toNat = (wPair 1).fld Fld.GARNET_GROUP_GROUP_ID ∧ wUp.fld Fld.GARNET_GROUP_GROUP_ID ≠ 5 ∧ (NMap.get [] (wPair 1).garnet.seen 2).contains 8#32 = false ∧ (wPair 1).ticking = true ∧ wTokn.tick = (wPair 1).tickNo := by
  decide

/-- Stack 0 and its channel 0 serve; burst 0 holds bytes, its stored check differing by `chk`. -/
def wStk (chk : BitVec 64) : State :=
  let s := fl wUp [(Fld.CH_STATUS_STATE 0, 2), (Fld.STK_STATUS_STATE 0, 2), (Fld.STK_SCRUB_ENABLE 0, 1)]
  { s with mem := Mem.wrN [] 0 [0x11, 0x22, 0, 0x44], chk := NMap.set 0#64 [] 0 chk }
def wMark : State := fl (wStk 0#64) [(Fld.CH_STATUS_MARKED 0, 1), (Fld.CH_STATUS_MARKED_LANE 0, 2)]
def wDead : State := fl (wStk 0#64) [(Fld.CH_STATUS_STATE 0, 4)]
def wOne : BurstErrs := [(5, 0x3C#8)]
/-- Three symbols of three lanes. -/
def wThree : BurstErrs := [(5, 1#8), (20, 1#8), (40, 7#8)]
def wGot (s : State) (errs : BurstErrs) : Decoded := rsDecode (s.markedLane 0) (ErrVec.add (chkErr (NMap.get 0#64 s.chk 0)) (errVec errs))

theorem witness_BurstsAreReadAndDecoded :
    (burstLoc 0).chan = 0 ∧ (burstLoc 0).stack = 0 ∧ (wStk 0#64).spaOk 0#40 = true ∧ (wStk 0#64).boot.fault = none ∧ wDead.chanDead 0 = true ∧ (wStk 0#64).chanDead 0 = false ∧ (wStk 0#64).tileInFrame ((wStk 0#64).spaFrame 0) = none ∧ (wStk 0#64).fld (Fld.CH_INJ_CTRL_ARM 0) = 0 ∧ (wStk 0#64).chans = [] ∧ (wStk 0#64).scrubs 0 = true ∧ wUp.scrubs 0 = false ∧ (wStk 0#64).mem.wf ∧
    wGot (wStk 0#64) [] = .clean ∧
    (match wGot (wStk 0#64) wOne with | .corrected _ => true | _ => false) = true ∧
    wGot (wStk (BitVec.allOnes 64)) [] = .poison ∧
    wGot wMark wThree = .uncorrectable ∧ wMark.markedLane 0 = some 2 := by
  decide +kernel

theorem witness_BurstsAreWrittenBack :
    (wStk 0#64).spaOk 0x3C#40 = true ∧ (wStk 0#64).boot.fault = none ∧ (wStk 0#64).mem.wf ∧ (wStk 0#64).tileInFrame ((wStk 0#64).spaFrame 0x3C) = none ∧ 0x3C + 4 ≤ 64 ∧ (wStk 0#64).chanDead 0 = false ∧ wDead.chanDead 0 = true ∧ (wStk 0#64).fld (Fld.CH_INJ_CTRL_ARM 0) = 0 ∧ NMap.get 0#64 (wStk 0#64).chk 0 = 0#64 := by
  decide

def wCap : State := { wStk 0#64 with stackTab := [(0, { capPend := true })] }
def wAuto : State := { fl (wStk 0#64) [(Fld.STK_THERM_WITHHOLD_AUTO 0, 1), (Fld.GARNET_CTRL_WITHHOLD, 1)] with stackTab := [(0, { heldAt := 10 })] }
def wTraining : State := fl { State.reset with boot := { State.reset.boot with identified := true } } ([(Fld.BOOT_STATE_STATE, 3)] ++ (List.range 12).map fun k => (Fld.STK_STATUS_STATE k, 1))

theorem witness_StacksAreKeptInOrder :
    (wStk 0#64).fld (Fld.CH_STATUS_STATE 0) = 2 ∧ (wStk 0#64).boot.fault = none ∧ (wStk 0#64).stackTab = [] ∧ (wStk 0#64).fld (Fld.STK_STATUS_STATE 0) = 2 ∧ (wStk 0#64).fld (Fld.STK_THERM_WARN 0) = 0 ∧ (wStk 0#64).fld (Fld.STK_THERM_THROTTLE 0) = 0 ∧ (327#11).toInt < 328 ∧ 440 ≤ (440#11).toInt ∧ (fl (wStk 0#64) [(Fld.BOOT_STATE_STATE, 5)]).starting = true ∧
    (NMap.get ({} : StackSt) wCap.stackTab 0).capPend = true ∧ wCap.inStep = false ∧ wAuto.fld (Fld.STK_THERM_WITHHOLD_AUTO 0) = 1 ∧
    (fl (wStk 0#64) [(Fld.PWR_STATUS_STATE, 4)]).powerState = 4 ∧ (fl (wStk 0#64) [(Fld.PWR_STATUS_STATE, 4)]).serves (Rg.CH_INJ_CTRL 0) = true ∧ (wStk 0#64).powerState ≠ 4 ∧
    wTraining.fld Fld.BOOT_STATE_STATE = 3 ∧ wTraining.boot.identified = true ∧ wTraining.boot.laneMap = [] ∧ wTraining.flash.anchor = none ∧ (List.range 12).all (fun k => wTraining.fld (Fld.STK_STATUS_STATE k) == 1) = true ∧ NMap.sorted wTraining.regs ∧
    (wStk 0#64).serves (Rg.CH_INJ_CTRL 0) = true ∧ (wStk 0#64).fld Fld.BOOT_TEST_ENABLE = 0 ∧ bvGet 3 5 0x2208F#32 = 17 ∧ bvGet 13 5 0x2208F#32 = 17 := by
  decide +kernel

/-- Object 9's tile is on its way from frame 7 to frame 8. -/
def wMove : State :=
  let s := wFet .weights 0 (.nop 3)
  { s with place := { s.place with frames := [(7, .tile 9 0), (8, .tile 9 0)], dir := [(tileKey 9 0, { home := .stack, moving := true, frame := 7 })], moves := [(tileKey 9 0, { dest := .frame 8, die := 0 })] } }
def wSrc : State := let s := wFet .work 0 (.nop 3); { s with place := { s.place with frames := [(7, .source 9 0)], dir := [] } }
/-- On die 0 one frame holds object 9's tile and `n` entries are retired frames, in `wEvict` all the rest; the dies of `d` evict. -/
def wEvictOf (n : Nat) (d : List Nat) : State :=
  let s := fl (wFet .weights 0 (.nop 3)) [(Fld.OBJ_WATERMARK_LOW, 2), (Fld.OBJ_WATERMARK_HIGH, 3)]
  { s with place := { s.place with objs := [(9, { wObj .weights with policy := .resident, age := 5#32 })]
                                   frames := (7, .tile 9 0) :: List.replicate n (8, .retired), dir := [(tileKey 9 0, { home := .stack, frame := 7 })], refetches := [], draining := d }
           fetches := [] }
def wEvict : State := wEvictOf 2356991 []
/-- Die 0 between LOW and HIGH free frames, its eviction begun. -/
def wDrain : State := wEvictOf 2356989 [0]
def wVictim : Victim := ⟨0, 5#32, 9, 0, 7⟩
def wWait2 (now : Nat) : State := { wFet .weights 0 (.nop 3) with now := now, place := { (wFet .weights 0 (.nop 3)).place with waits := [(tileKey 9 0, 5)] } }
/-- A codeword of `d` for sector 0 of handle 0. -/
def wSector (d : Mem) : CodeWord := ⟨d, 0#32, 0#32, 0#32, crc32c (d.rdBlk 0 4096)⟩
/-- The poisoned tile of frame 7 is being refetched to die 1; its origin is sector 0, in block 1 of lane 0. -/
def wRefetchOf (c : CodeWord) : State :=
  let s := wFet .weights 0 (.nop 3)
  { s with place := { s.place with refetches := [(tileKey 9 0, { die := 1, old := some 7 })], dir := [(tileKey 9 0, { home := .stack, poisoned := true, frame := 7 })] }
           flash := { s.flash with geom := some ⟨1, 1, 1, 4, 16#20, false⟩, nand := [(pageKey 0 1 0, [c])]
                                   img := { s.flash.img with bands := [(0, List.replicate 16 1)] } } }
def wRefetch : State := wRefetchOf (wSector [])
def wRb : State := let s := wFet .work 0 (.nop 3); { s with place := { s.place with frames := [(6, .readback 9)] } }

theorem wEvictOf_frameN (n : Nat) (d : List Nat) : (wEvictOf n d).frameN = 2356992 := by
  have : (wEvictOf n d).small = false := (rfl : _ = (wEvictOf 0 []).small).trans (by decide +kernel)
  simp only [State.frameN, this]; rfl

theorem evictionCondition_of (n : Nat) (d : List Nat) : (wEvictOf n d).freeCount 0 = (wEvictOf n d).frameN - (n + 1) ∧ (wEvictOf n d).victim 0 none = some wVictim := by
  have hf : (wEvictOf n d).place.frames = (7, FrameUse.tile 9 0) :: List.replicate n (8, FrameUse.retired) := rfl
  have hN := wEvictOf_frameN n d
  have ht : (wEvictOf n d).tick = 0#32 := (rfl : _ = (wEvictOf 0 []).tick).trans (by decide +kernel)
  constructor
  · unfold State.freeCount
    rw [hf, hN, List.filter_cons, List.filter_replicate, if_pos (by decide), if_pos (by decide), List.length_cons, List.length_replicate]
  · have h : (wEvictOf n d).victims 0 none = [wVictim] := by
      unfold State.victims
      rw [hf, List.filterMap_cons, List.filterMap_replicate_of_none rfl]
      simp only [ht]
      rfl
    simp only [State.victim, h]; rfl

theorem witness_evictionCondition : wEvict.freeCount 0 = 0 ∧ wEvict.victim 0 none = some wVictim := by
  have h := evictionCondition_of 2356991 []
  exact ⟨h.1.trans (by rw [wEvictOf_frameN]), h.2⟩

theorem witness_drainingCondition : wDrain.freeCount 0 = 2 ∧ wDrain.victim 0 none = some wVictim := by
  have h := evictionCondition_of 2356989 [0]
  exact ⟨h.1.trans (by rw [wEvictOf_frameN]), h.2⟩

theorem refetchOrigin_of (c : CodeWord) (hc : c.ok 0 0 = true) :
    ((wRefetchOf c).originTile 0 0).1.isSome = true ∧ ((wRefetchOf c).originTile 0 0).2 = wRefetchOf c := by
  have h1 : (wRefetchOf c).onyxObj 0 = some wStored := rfl
  have h2 : (wRefetchOf c).sectorPlace (wStored.base + (0 + 0)) = some (0, 1, 0, 0) := by
    have hg : (wRefetchOf c).geom = ⟨1, 1, 1, 4, 16#20, false⟩ := rfl
    have hb : (wRefetchOf c).flash.img.bands = [(0, List.replicate 16 1)] := rfl
    unfold State.sectorPlace
    rw [hg, hb]; decide
  have h3 : (NMap.find (wRefetchOf c).flash.nand (pageKey 0 1 0)).bind (·[0]?) = some c := rfl
  have hu : (wRefetchOf c).flash.unread = [] := rfl
  have h4 : (wRefetchOf c).readSector 0 wStored.base (0 + 0) = some (c.data.rdBlk 0 4096) := by
    unfold State.readSector
    rw [h2]; dsimp only; rw [h3]; dsimp only; rw [if_pos (by rw [hc, hu]; rfl)]
  have h5 : (wRefetchOf c).indexEntry 0 0 = (some (0, 1), wRefetchOf c) := rfl
  have h6 : wStored.tiles[0]? = some (0, 1, 256) := rfl
  have h7 : (wRefetchOf c).readSectors 0 wStored.base 0 1 = some (c.data.rdBlk 0 4096) := by
    unfold State.readSectors
    rw [List.range_one, List.foldl_cons, List.foldl_nil, h4]; rfl
  unfold State.originTile
  rw [h1]; dsimp only; rw [h5, h6]; dsimp only; rw [h7]; exact ⟨rfl, rfl⟩

theorem wSector_ok (d : Mem) : (wSector d).ok 0 0 = true := by simp [CodeWord.ok, wSector]

theorem witness_refetchOrigin : (wRefetch.originTile 0 0).1.isSome = true ∧ (wRefetch.originTile 0 0).2.boot.fault = none := by
  have h := refetchOrigin_of (wSector []) (wSector_ok [])
  exact ⟨h.1, (congrArg (fun t : State => t.boot.fault) h.2).trans (by decide)⟩


/-- A fetch of core 3 still reads frame 6. -/
def wRbBusy : State := { wRb with fetches := [(3, { op := wFop, prog := 0, pid := 0#16, inSeg := some false, tiles := [wFly1 (.frame 6)] })] }
/-- Object 9's tile is on its way from its origin to frame 8, while a fetch waits for the same flash channel. -/
def wMoveBehind : State :=
  { wRefetch with place := { wRefetch.place with refetches := [], dir := [(tileKey 9 0, { home := .origin, moving := true })], moves := [(tileKey 9 0, { dest := .frame 8, die := 0 })] }
                  fetches := [(3, { op := wFop, prog := 0, pid := 0#16, inSeg := some false, tiles := [wFly1 .origin] })] }

theorem witness_TilesMoveAndRefetch :
    NMap.find wMoveBehind.place.moves (tileKey 9 0) = some { dest := .frame 8, die := 0 } ∧ (wMoveBehind.dirEnt 9 (wObj .weights) 0).home = .origin ∧ wMoveBehind.destFails (.frame 8) = false ∧ wMoveBehind.moveTurn 9 0 { dest := .frame 8, die := 0 } = false ∧ ({ wMoveBehind with fetches := [] }).moveTurn 9 0 { dest := .frame 8, die := 0 } = true ∧ wMoveBehind.boot.fault = none ∧
    (List.range 1536).all (fun c => wRb.fld (Fld.CH_INJ_CTRL_ARM c) == 0 && !wRb.chanDead c) = true ∧
    wMove.boot.fault = none ∧ NMap.find wMove.place.moves (tileKey 9 0) = some { dest := .frame 8, die := 0 } ∧ wMove.obj 9 = some (wObj .weights) ∧ wMove.destReady 9 0 (.frame 8) = true ∧ wMove.hasMover 0 0 = true ∧ NMap.find wMove.place.refetches (tileKey 9 0) = none ∧ wMove.destFails (.frame 8) = false ∧ wMove.place.jobs = [] ∧ (match (wMove.readHome (some 0) 9 (wObj .weights) 0 (wMove.dirEnt 9 (wObj .weights) 0)).1 with | .bytes _ [] => true | _ => false) = true ∧ (wMove.readHome (some 0) 9 (wObj .weights) 0 (wMove.dirEnt 9 (wObj .weights) 0)).2.boot.fault = none ∧ NMap.find wSrc.place.moves (tileKey 9 0) = none ∧
    wSrc.boot.fault = none ∧ wSrc.fetches = [] ∧ wSrc.place.jobs = [] ∧ wSrc.place.replaceT = [] ∧ NMap.find wSrc.place.frames 7 = some (.source 9 0) ∧ wSrc.place.moves = [] ∧ wSrc.place.refetches = [] := by
  decide +kernel

theorem witness_TilesMoveAndRefetch_2 :
    wEvict.boot.fault = none ∧ wEvict.inForce Fld.OBJ_WATERMARK_LOW = 2 ∧ wEvict.inForce Fld.OBJ_WATERMARK_HIGH = 3 ∧ wEvict.place.moves = [] ∧ (wEvict.obj 9).map (·.kind) = some .weights ∧ wSrc.inForce Fld.OBJ_WATERMARK_LOW ≤ wSrc.freeCount 0 ∧
    wDrain.place.draining.contains 0 = true ∧ wDrain.place.moves = [] ∧ wDrain.coming 0 = 0 ∧ wEvict.coming 0 = 0 ∧ wSrc.place.draining.contains 0 = false ∧
    NMap.find (wWait2 0).place.waits (tileKey 9 0) = some 5 ∧ (wWait2 0).boot.fault = none ∧ (wWait2 0).now < 5 + (wWait2 0).inForce Fld.OBJ_POISON_WAIT_WAIT_US ∧ 5 + (wWait2 5000000).inForce Fld.OBJ_POISON_WAIT_WAIT_US ≤ (wWait2 5000000).now ∧
    NMap.find wRefetch.place.refetches (tileKey 9 0) = some { die := 1, old := some 7 } ∧ wRefetch.obj 9 = some (wObj .weights) ∧ wRefetch.hasMover 1 0 = true ∧ (wObj .weights).origin.toNat = 0 ∧ (wObj .weights).policy ≠ .stream ∧ 0 < wRefetch.freeCount 1 ∧
    NMap.find wRb.place.frames 6 = some (.readback 9) ∧ wRb.boot.fault = none ∧ wRb.frameRead 6 = false ∧ wRbBusy.frameRead 6 = true ∧ wRb.place.refetches = [] ∧ wRb.place.jobs = [] ∧ wRb.place.replaceT = [] ∧ wRb.place.moves = [] ∧ NMap.find wRbBusy.place.frames 6 = some (.readback 9) := by
  decide +kernel

/-- Object 9 of kind `k`, homed in the registered host page 2 of partition 0 at 0x30000. -/
def wHost (k : ObjKind) (mv : Bool) : State :=
  let s := fl (wFet k 0 (.nop 3)) [(Fld.PARTN_HPT_COUNT_COUNT 0, 3)]
  { s with place := { s.place with frames := [], pages := [2], dir := [(tileKey 9 0, { home := .host, page := 2, moving := mv })]
                                   moves := if mv then [(tileKey 9 0, { dest := .frame 8, die := 0 })] else [] }
           host := (Mem.wrN [] 16 (leBytes 8 0x30001)).wrN 0x30000 [0xCC, 1, 2, 3] }

theorem witness_Bar2ReachesTheHome :
    (wHost .work false).powerState < 3 ∧ (wHost .work false).boot.fault = none ∧ (wHost .work false).bar2Addr 3 5 = none ∧ (wHost .work false).bar2Addr 0 0x40000 = some 0x40000 ∧ (wHost .work false).bar2Tile 0 0x40000 = none ∧ (wHost .work false).bar2Addr 0 0x5FFFE = some 0x5FFFE ∧ (wHost .work false).bar2Tile 0 0x5FFFE = some (9, wObj .work, 0) ∧ 0x5FFFE % 65536 + 2 = 65536 ∧ ((wHost .work false).lookup 9 (wObj .work) 0).boot.fault = none ∧ ((wHost .work false).dirEnt 9 (wObj .work) 0).home = .host ∧ (wHost .work false).pageOk 2 = true ∧ (wHost .work false).pageAddr 2 = 0x30000 ∧ NMap.find (wHost .work false).place.moves (tileKey 9 0) = none ∧ ((wHost .work true).dirEnt 9 (wObj .work) 0).moving = true := by
  decide

/-- Queue 3 of the PF is enabled and running, its entries at 0x10000 and its completions at 0x40000; partition 0 is enabled. -/
def wQ : State :=
  fl wUp [(Fld.HQ_Q_CFG_ENABLE 3, 1), (Fld.HQ_Q_STATUS_RUNNING 3, 1), (Fld.PARTN_CTRL_ENABLE 0, 1), (Fld.HQ_SQ_BASE_LO_BASE_LO 3, 0x10000 / 64),
    (Fld.HQ_CQ_BASE_LO_BASE_LO 3, 0x40000 / 64)]
/-- An entry of queue 3 waits at its head. -/
def wEntry (cause : Nat) : State :=
  { (wQ.setFld (Fld.HQ_Q_STATUS_CAUSE 3) cause).modQueue 3 (fun x => { x with tail := 1 }) with host := Mem.wrN [] 0x10000 [0x20, 0, 0x34, 0x12, 0] }
def wCmd : CmdHdr := { q := 3, cid := 0x1234#16, part := 0, wait := false, atTick := false, applyTick := 0#32 }
/-- The CQ of queue 3 has no free entry. -/
def wFullQ : State := (wQ.setFld (Fld.HQ_Q_HEADS_CQ_TAIL 3) 15)
/-- A command of queue 3 is staged; a group is formed. -/
def wStaged : State := { wQ with hostq := { wQ.hostq with staged := [⟨3, BitVec.ofNat 512 0x3412000F, []⟩] } }
def wTicking : State := fl wQ [(Fld.GARNET_CTRL_ENABLE, 1), (Fld.GARNET_STATUS_STATE, stDone)]

theorem witness_QueuesAreServed :
    wStaged.ticking = false ∧ wStaged.inStep = false ∧ wStaged.fld Fld.PWR_STATUS_PWRFAIL = 0 ∧ wStaged.hostq.staged = [⟨3, BitVec.ofNat 512 0x3412000F, []⟩] ∧ (entryHdr 3 (BitVec.ofNat 512 0x3412000F)).atTick = false ∧ wStaged.fld (Fld.HQ_Q_CFG_ENABLE 3) = 1 ∧
    wTicking.mustStage wCmd = true ∧ wCmd.atTick = false ∧ wTicking.boot.fault = none ∧
    wQ.deviceQueue 1 3 = none ∧ wQ.deviceQueue 0 3 = some 3 ∧ wQ.powerState = 0 ∧ wQ.fld (Fld.HQ_Q_STATUS_RUNNING 3) = 1 ∧ 15 < wQ.sqSize 3 ∧ wQ.sqSize 3 ≤ 16 ∧ 15 < wQ.cqSize 3 ∧ (wQ.queue 3).blocked = [] ∧ (fl wUp [(Fld.PWR_STATUS_PWRFAIL, 1)]).fld Fld.PWR_STATUS_PWRFAIL = 1 ∧
    (List.range 256).all (fun q => !wQ.queueReady q) = true ∧
    wQ.fld Fld.PWR_STATUS_PWRFAIL = 0 ∧ (((List.range 256).map fun i => ((wEntry 0).hostq.turn + i) % 256).find? (wEntry 0).queueReady) = some 3 ∧ ((wEntry 0).queue 3).tail = ((wEntry 0).fld (Fld.HQ_Q_HEADS_SQ_HEAD 3) + 1) % (wEntry 0).sqSize 3 ∧ (wEntry 0).fld Fld.PWR_STATUS_PWRFAIL = 0 := by
  decide +kernel

theorem witness_QueuesAreServed_2 :
    wQ.ticking = false ∧ (entryHdr 3 0#512).atTick = false ∧ wQ.fld (Fld.HQ_Q_CFG_ENABLE 3) = 1 ∧ wQ.serves (Rg.HQ_Q_CFG 3) = true ∧ wUp.serves (Rg.HQ_Q_CFG 3) = true ∧ wUp.fld (Fld.HQ_Q_CFG_ENABLE 3) = 0 ∧ (9#32).getLsbD 0 = true ∧ bvGet 1 4 9#32 = 4 ∧ bvGet 1 4 25#32 = 12 ∧ (8#32).getLsbD 0 = false ∧ wQ.queuePart 3 < 16 := by
  decide +kernel

def wLost (n : Nat) : State := { fl wUp [(Fld.PARTN_EVT_CFG_ENABLE 2, 1), (Fld.PARTN_EVT_CFG_LOG2 2, 6), (Fld.PARTN_EVT_PROD_PROD 2, 70)] with hostq := { wUp.hostq with lostEvents := NMap.set 0 [] 2 n } }
/-- Vector 5 has a message pending, masked or not. -/
def wCoal (m : List Nat) : State := { wUp with hostq := { wUp.hostq with coal := [(5, ⟨1, 40⟩)], msix := if m.contains 5 then [] else [(5, 0x77#128)] } }
def wLtr : State := { wUp with hostq := { wUp.hostq with ltrEnable := true } }
/-- Configuration requests are answered. -/
def wCfg : State := { wUp with boot := { wUp.boot with identified := true } }

theorem witness_HostIsTold :
    wQ.runsNow wCmd 0 ∧ wFullQ.runsNow wCmd 0 ∧ wQ.session 7 = none ∧ wFullQ.session 7 = none ∧ wQ.fld (Fld.HQ_Q_CFG_ENABLE 3) = 1 ∧ wFullQ.fld (Fld.HQ_Q_CFG_ENABLE 3) = 1 ∧ (wQ.queue 3).blocked = [] ∧ wQ.cqRoom 3 = true ∧ wQ.fld (Fld.HQ_Q_CFG_IRQ_EN 3) = 0 ∧ wQ.addr64 (Rg.HQ_CQ_BASE_LO 3) (Rg.HQ_CQ_BASE_HI 3) = 0x40000 ∧ wFullQ.cqRoom 3 = false ∧
    (wLost 0).serves (Rg.PARTN_EVT_CONS 2) = true ∧ NMap.get 0 (wLost 0).hostq.lostEvents 2 = 0 ∧ 0 < NMap.get 0 (wLost 3).hostq.lostEvents 2 ∧ (wLost 3).inForce (Fld.PARTN_EVT_CFG_ENABLE 2) = 1 ∧ (wLost 3).inForce (Fld.PARTN_EVT_CFG_LOG2 2) = 6 ∧ (70#32).toNat = (wLost 3).fld (Fld.PARTN_EVT_PROD_PROD 2) ∧
    NMap.find (wCoal []).hostq.coal 5 = some ⟨1, 40⟩ ∧ NMap.find (wCoal [5]).hostq.coal 5 = some ⟨1, 40⟩ ∧ wLtr.hostq.ltrEnable = true ∧ wLtr.hostq.ltrSent ≠ some (wLtr.ltrNeed.getD 0) ∧ linkOk 6 4 true = true ∧ linkOk 7 5 true = false ∧
    wUp.configUp = false ∧ wCfg.configUp = true ∧ wCfg.powerState = 0 := by
  decide

def wPar : SessParams := ⟨100#32, 0x400#16, 32768#16, 0xFFFE#16⟩
def wSession (st : SessState) : Session :=
  { part := 0, state := st, slot := 4, output := true, cache := 9#16, journal := 0xFFFF#16, maxPos := 50#32, invTemp := 1#16, topP := 1#16, stream := 0#16, pos := 6
    lastTok := 3#32, prefill := [], dec := none, step := none }
/-- Cache object 9 of partition 0, of session 7, which is in state `st` or free. -/
def wSes (st : Option SessState) (pol : Policy) : State :=
  { wQ with place := { wQ.place with objs := [(9, { wObj .cache with session := 7#16, policy := pol, resident := 0 })] }
            hostq := { wQ.hostq with sess := match st with | some x => [(7, wSession x)] | none => [] } }
def wOpen : OpenOp := ⟨7, 4, false, 9#16, 0xFFFF#16, wPar⟩

theorem witness_SessionCommandsApply :
    (wSes none .pinned).runsNow wCmd 0 ∧ (wSes none .pinned).session 7 = none ∧ wPar.allowed = true ∧ (wSes none .pinned).hostq.sess = [] ∧ (wSes none .pinned).sessObj 0 7 9 .cache = .success ∧ wOpen.journal = 0xFFFF#16 ∧ wOpen.output = false ∧
    (wSes (some .idle) .pinned).runsNow wCmd 0 ∧ (wSes (some .idle) .pinned).session 7 = some (wSession .idle) ∧ (wSession .idle).part = 0 ∧ (65536#17).toNat ≤ (wSes (some .idle) .pinned).fld Fld.PART_PREFILL_FREE_TOKENS ∧ (0x10004#64).toNat % 4 = 0 ∧ (6#32).toNat ≤ (wSession .idle).pos ∧ (wSession .idle).prefill = [] ∧
    (wSes (some .idle) .pinned).obj 9 = some { wObj .cache with session := 7#16, policy := .pinned, resident := 0 } ∧ (wObj .cache).live = true ∧ ObjKind.cache.permits .host = true ∧ (wSes (some .idle) .pinned).tooLarge 0 .cache .host 1 1 0 = false ∧ ((wSes (some .idle) .pinned).framed (· == 9)) = [] ∧ ((wSes (some .idle) .pinned).paged (· == 9)) = [] ∧ (wSes (some .idle) .pinned).place.dir = [] ∧ (wSes (some .idle) .pinned).boot.fault = none ∧
    (wSes (some .parked) .host).runsNow wCmd 0 ∧ (wSes (some .parked) .host).session 7 = some (wSession .parked) ∧ unparkPolicy 1 = some .resident ∧ ObjKind.cache.permits .resident = true ∧ (wSes (some .parked) .host).tooLarge 0 .cache .resident 1 1 0 = false := by
  decide

def wCreate : CreateOp := { kind := 5, part := 0, policy := 0, cls := 2, size := 4194304#23, placeDie := 5, share := 1#16, session := 0#16 }
def wPlace : PlaceOp := ⟨9#16, 1, 7, 5, 3#16⟩
def wInstOp : InstallOp := { format := 0, group := 0, policy := 0, cls := 0, placeDie := 5, share := 0#16, wAddr := 0#64, wBytes := 65537#64, sAddr := 0#64, sBytes := BitVec.ofNat 64 (2 * scaleRecordBytes .g4 32) }
def wIns : Install := { handle := 1, object := 9, fmt := 0, group := 0, wAddr := 0, wBytes := 65536, sAddr := 0, sBytes := 0, wTiles := 1, tiles := 2, threshold := 97, tol := 10, salt := none, cmd := ⟨3, 1#16, 0#32⟩ }
/-- An installation of object 9 is running. -/
def wInst : State := { wPlaced .weights wQ with flash := { wQ.flash with inst := some wIns } }
def wMounted : State := fl wQ [(Fld.ONYX_STATUS_STATE, onyxMounted)]

theorem witness_ObjectCommandsApply :
    wQ.runsNow wCmd 0 ∧ ObjKind.ofCode wCreate.kind.val = some .code ∧ Policy.ofCode wCreate.policy.val = some .pinned ∧ ObjKind.code.permits .pinned = true ∧ wQ.entryRoom 4194304 = true ∧ wQ.tooLarge 0 .code .pinned 4194304 4194304 (dirCount 4194304) = false ∧ wQ.place.objs = [] ∧
    (wSes none .pinned).obj 9 = some { wObj .cache with session := 7#16, policy := .pinned, resident := 0 } ∧ (wSes none .pinned).tooLarge 0 .cache .resident 1 1 0 = false ∧ Policy.ofCode wPlace.policy.val = some .resident ∧ (wSes none .pinned).hostq.sess = [] ∧ (wSes (some .idle) .pinned).hostq.sess = [(7, wSession .idle)] ∧ (wSession .idle).cache = 9#16 ∧
    wInst.place.moves = [] ∧ wInst.place.replaceT = [] ∧ wInst.runsNow wCmd 0 ∧ wInst.flash.inst = some wIns ∧ wIns.object = 9 ∧ wInst.obj 9 = some (wObj .weights) ∧ Fmt.ofCode wInstOp.format.val = some .g4 ∧ groupSize wInstOp.group.val = some 32 := by
  decide

theorem witness_ObjectCommandsApply_2 :
    wMounted.runsNow wCmd 0 ∧ wMounted.flash.inst = none ∧ wMounted.fld Fld.ONYX_STATUS_STATE = onyxMounted ∧ Fmt.g4.isWeight = true ∧ ceilDiv wInstOp.wBytes.toNat 65536 = 2 ∧ wInstOp.sBytes.toNat = 2 * scaleRecordBytes .g4 32 ∧ wMounted.entryRoom 3 = true ∧ wMounted.tooLarge 0 .weights .pinned 3 0 (dirCount 3) = false ∧ wMounted.within (Fld.OBJ_QUOTA_FLASH_LIMIT 0) (wMounted.fld (Fld.OBJ_USE_FLASH_TILES 0) + 3) = true ∧ ceilDiv 2 (blocksPerScaleTile .g4 32) = 1 ∧
    wQ.place.oldPages = [] ∧ wQ.place.moves = [] ∧ wQ.place.pages = [] ∧ wQ.place.dir = [] ∧ (0#29).toNat ≤ 2 ^ 28 := by
  decide

/-- A target of one LUN of sixteen blocks of 256 pages. -/
def wTarget : TargetGeom := { luns := 1#8, planes := 1#8, pages := 256#16, blocks := 16#20, page := 16384#32, spare := 1024#16, mpIndep := false, needs := false, lunOk := 1#4 }
def wDisc : Discovery := { chans := List.replicate 16 [wTarget], anchorBad := false, spoilt := [], last := [], ms := 0#16 }
def wGeom : FlashGeom := ⟨1, 1, 1, 256, 16#20, false⟩
/-- Onyx serves this population; `f` is done to its state. -/
def wOny (f : FlashSt → FlashSt) : State :=
  (fl wUp [(Fld.ONYX_STATUS_STATE, onyxMounted), (Fld.ONYX_PATROL_DAYS, 7), (Fld.ONYX_WEAR_PE_LIMIT, 3000)]).modFlash fun x => f { x with geom := some wGeom }
/-- Page 0 of block 5 of lane 0 holds one codeword, of sector 0 of handle 0. -/
def wPage (done : List Nat) : State := wOny fun x => { x with nand := [(pageKey 0 5 0, [wSector []])], patrolled := done }
def wRead : CodeRead := ⟨0#16, 0, false, false⟩
def wVault (n : Nat) : State := wOny fun x => { x with vaultBuf := List.replicate n 1#256, sets := List.replicate 6 (List.replicate 16 3) }
def wCopyB : State := wOny fun x => { x with copyB := some (mkCommit 1#64 []) }
def wCounts : State := wOny fun x => { x with jq := [[.readCounts []], []] }
def wErase : State := wOny fun x => { x with img := { x.img with blocks := [(blockKey 0 5, { use := .erasing, erases := 3 })] } }
def wSets : State := wOny fun x => { x with sets := List.replicate 6 (List.replicate 16 2) }
/-- A page of the system area whose codewords say what was asked for. -/
def wSysPage (b : SysBody) : SysPage := ⟨(List.range 4).map fun k => ⟨[], BitVec.ofNat 32 b.handle, BitVec.ofNat 32 (b.sector 0 k), 0#32, crc32c (Mem.rdBlk [] 0 4096)⟩, b, 0⟩
def wAnchor : Anchor := { epoch := 3#64, ckpt := (2, 0), jour := (0, 0), nextHandle := 1, marks := [] }
/-- The flash as an anchor and a checkpoint of one page leave it. -/
def wStands : FlashSt := { sys := [(pageKey 0 0 0, wSysPage (.anchor wAnchor)), (pageKey 0 5 0, wSysPage (.ckpt 0 1 (some {})))], sets := [[], [], [5]] }
def wMounting (x : FlashSt) : State := { fl State.reset [(Fld.BOOT_STATE_STATE, 4)] with flash := x }
def wUnformatted : State := fl wUp [(Fld.ONYX_STATUS_STATE, onyxUnformatted), (Fld.ONYX_WEAR_PE_LIMIT, 3000)]

theorem wSysPage_ok (b : SysBody) (hb : b.handle < 2 ^ 32) (hs : ∀ k < 4, b.sector 0 k < 2 ^ 32) :
    ((wSysPage b).cws.length == 4 && (wSysPage b).cws.zipIdx.all fun c => c.1.ok (wSysPage b).body.handle ((wSysPage b).body.sector 0 c.2)) = true := by
  have h0 := Nat.mod_eq_of_lt (hs 0 (by decide))
  have h1 := Nat.mod_eq_of_lt (hs 1 (by decide))
  have h2 := Nat.mod_eq_of_lt (hs 2 (by decide))
  have h3 := Nat.mod_eq_of_lt (hs 3 (by decide))
  simp only [Nat.reducePow] at h0 h1 h2 h3 hb
  simp [wSysPage, CodeWord.ok, List.range_succ, Nat.mod_eq_of_lt hb, h0, h1, h2, h3]

theorem wStands_sys (key : Nat) (p : SysPage) (h : NMap.find wStands.sys key = some p) (b : SysBody) (hp : p = wSysPage b) (hk : key % 2 ^ 12 = 0)
    (hb : b.handle < 2 ^ 32) (hs : ∀ k < 4, b.sector 0 k < 2 ^ 32) : wStands.readSys [] key = some b := by
  subst hp
  unfold FlashSt.readSys
  rw [h]; dsimp only
  rw [hk, if_neg (by simp [show wStands.unread = [] from rfl]), if_pos (wSysPage_ok b hb hs)]
  rfl

theorem wStands_anchorRead : wStands.readSys [] (pageKey 0 0 0) = some (.anchor wAnchor) :=
  wStands_sys _ _ rfl (.anchor wAnchor) rfl (by decide) (by decide) (by decide)

theorem wStands_ckptRead : wStands.readSys [] (pageKey 0 5 0) = some (.ckpt 0 1 (some {})) :=
  wStands_sys _ _ rfl (.ckpt 0 1 (some {})) rfl (by decide) (by decide) (by decide)

theorem wStands_filter : wStands.sys.filter (fun p => decide (p.1 / 2 ^ 32 < 4) && decide (p.1 / 2 ^ 12 % 2 ^ 20 < 2)) = [(pageKey 0 0 0, wSysPage (.anchor wAnchor))] := by
  have h : wStands.sys = [(pageKey 0 0 0, wSysPage (.anchor wAnchor)), (pageKey 0 5 0, wSysPage (.ckpt 0 1 (some {})))] := rfl
  rw [h]
  simp [pageKey, blockKey]

theorem anchors_of_one {x : FlashSt} {bad : List Nat} {k : Nat} {p : SysPage} {a : Anchor}
    (hx : x.sys.filter (fun p => decide (p.1 / 2 ^ 32 < 4) && decide (p.1 / 2 ^ 12 % 2 ^ 20 < 2)) = [(k, p)])
    (h : x.readSys bad k = some (.anchor a)) : x.anchors bad = [(k, p.seq, a)] := by
  unfold FlashSt.anchors
  rw [hx]
  simp [h]

theorem anchorOf_one {x : FlashSt} {bad : List Nat} {k n : Nat} {a : Anchor} (h : x.anchors bad = [(k, n, a)]) (hv : a.version = 1#16) :
    x.anchorOf bad = some a := by
  unfold FlashSt.anchorOf
  rw [h]
  simp [hv]

theorem loadCkpt_one {x : FlashSt} {bad : List Nat} {c p : Nat} {img : OnyxImg}
    (h : x.readSys bad (x.setKey c p) = some (.ckpt 0 1 (some img))) : x.loadCkpt bad c p = some img := by
  unfold FlashSt.loadCkpt
  simp [h]

theorem witness_mountReads : wStands.anchorOf [] = some wAnchor :=
  anchorOf_one (anchors_of_one wStands_filter wStands_anchorRead) rfl

theorem wStands_ckptKey : wStands.setKey 2 0 = pageKey 0 5 0 := by decide

theorem witness_mountGoesOn : wStands.loadCkpt [] wAnchor.ckpt.1 wAnchor.ckpt.2 = some {} :=
  loadCkpt_one (by rw [show wAnchor.ckpt = (2, 0) from rfl, wStands_ckptKey]; exact wStands_ckptRead)

theorem witness_pageIsGood : NMap.find (wPage []).flash.nand (pageKey 0 5 0) = some [wSector []] ∧ (wSector []).ok 0 0 = true :=
  ⟨rfl, wSector_ok []⟩


/-- A block of the lane that holds the page is past twice RD_LIMIT. -/
def wPageBehind : State :=
  (fl (wPage []) [(Fld.ONYX_RD_LIMIT_LIMIT, 1)]).modFlash fun x =>
    { x with queue := [(blockKey 0 9, .reads)], img := { x.img with blocks := [(blockKey 0 9, { use := .band 3, reads := 3#32 })] } }
def wVaultOn : State := (wVault 513).modFlash fun x => { x with vaultAt := (0, 1) }
/-- The same flash, whose checkpoint holds a retired anchor block. -/
def wLost0 : FlashSt := { wStands with sys := [(pageKey 0 0 0, wSysPage (.anchor wAnchor)), (pageKey 0 5 0, wSysPage (.ckpt 0 1 (some { ({} : OnyxImg) with blocks := [(blockKey 0 1, { use := .retired })] })))] }

theorem witness_FlashIsReadAndProgrammed :
    (wPage []).pageTurn 0 5 0 = true ∧ wPageBehind.pageTurn 0 5 0 = false ∧ wPageBehind.onyxRun = true ∧ wPageBehind.boot.fault = none ∧ wPageBehind.awaitsReadBack (blockKey 0 5) = false ∧
    wVaultOn.onyxUp = true ∧ wVaultOn.programTurn .vault = true ∧ wVaultOn.flash.vaultFlush = 0 ∧ wVaultOn.flash.vaultBuf.length = 513 ∧ wVaultOn.flash.vaultAt.2 ≠ 0 ∧
    wSets.flash.jset < 2 ∧ wSets.flash.cset = 2 ∧ (replayed {} (wStands.commitsFrom [] 0 0 1#64 0)).blocks = [] ∧
    (wPage []).boot.fault = none ∧ (wPage []).onyxRun = true ∧ (wPage []).awaitsReadBack (blockKey 0 5) = false ∧ (wPage []).onyxBackground = true ∧ (wPage []).turn 0 8 = true ∧ (wPage []).flash.patrolled = [] ∧ (wPage []).now < (wPage []).flash.patrolAt + 86400000000 * (wPage []).fld Fld.ONYX_PATROL_DAYS ∧ (wPage []).place.jobs = [] ∧ pageKey 0 5 0 ∈ (wPage [pageKey 0 5 0]).flash.patrolled ∧ NMap.find (wPage []).flash.nand (pageKey 0 6 0) = none ∧ NMap.find (wPage []).flash.sys (pageKey 0 6 0) = none ∧
    wRead.failed = false ∧ wRead.retries.val ≤ (wPage []).retryMax ∧ ((wPage []).pageSector 0 5 0 0) = none ∧ codeKey 0 5 0 0 ∉ (wPage []).flash.unread ∧ (wPage []).flash.img.objs = [] := by
  decide +kernel

theorem witness_FlashIsReadAndProgrammed_2 :
    (wVault 513).onyxUp = true ∧ (wVault 513).programTurn .vault = true ∧ (wVault 513).flash.vaultFlush = 0 ∧ 512 ≤ (wVault 513).flash.vaultBuf.length ∧ (wVault 513).flash.vaultAt.2 = 0 ∧
    wCopyB.onyxUp = true ∧ wCopyB.programTurn .journal = true ∧ wCopyB.flash.copyB.isSome = true ∧ wCounts.programTurn .journal = true ∧ wCounts.fld Fld.PWR_STATUS_PWRFAIL = 0 ∧ wCounts.flash.copyB = none ∧ wCounts.flash.jq = [[.readCounts []], []] ∧ wCounts.flash.jcount + 1 < wCounts.journalFull ∧ wUp.onyxUp = false ∧ wCounts.flash.inst = none ∧
    (wErase.flash.img.block (blockKey 0 5)).use = .erasing ∧ wErase.onyxRun = true ∧ wErase.flash.suspects = [] ∧ wErase.flash.img.bands = [] ∧ (wErase.flash.img.block (blockKey 0 5)).erases + 1 < wErase.fld Fld.ONYX_WEAR_PE_LIMIT ∧
    wSets.serves Rg.ONYX_CMD = true ∧ wSets.onyxRun = true ∧ wSets.flash.jq = [] ∧ wSets.flash.copyB = none ∧ wSets.flash.inst = none ∧ (List.range 4).all (fun l => decide (2 ≤ wSets.flash.setBlock wSets.flash.jset l)) = true := by
  decide +kernel

theorem witness_FlashIsReadAndProgrammed_3 :
    (wMounting {}).fld Fld.BOOT_STATE_STATE = 4 ∧ (wMounting {}).fld Fld.ONYX_STATUS_STATE ≤ 1 ∧ oneGeom wDisc = some wGeom ∧ oneGeom { wDisc with chans := [] } = none ∧ ({} : FlashSt).anchorOf [] = none ∧ wDisc.anchorBad = false ∧ (wMounting wStands).fld Fld.BOOT_STATE_STATE = 4 ∧
    wUnformatted.serves Rg.ONYX_CMD = true ∧ wUnformatted.fld Fld.ONYX_STATUS_STATE = onyxUnformatted ∧ wUnformatted.fld Fld.PWR_STATUS_PWRFAIL = 0 ∧ wUnformatted.flash.inst = none ∧ wUnformatted.flash.jq = [] ∧
    (let img := formatBlocks (wUnformatted.fld Fld.ONYX_WEAR_PE_LIMIT) wUnformatted.flash.img [] []; (List.range 4).all (fun l => (List.range 2).all fun b => (img.block (blockKey l b)).use == .free) && (List.range 16).all (fun l => (img.setBlocks wGeom l (4 + vaultSets wGeom.pages.val)).length == 4 + vaultSets wGeom.pages.val)) = true := by
  decide +kernel

/-- Block 5 of lane 0 is of band 0 and block 6 is free; those not listed have been erased `e` times. -/
def wBand (e : Nat) (q : List (Nat × RefreshWhy)) : State :=
  wOny fun x => { x with img := { x.img with bands := [(0, [5])], blocks := [(blockKey 0 5, { use := .band 0, erases := 3 })], blank := { erases := e } }, queue := q }
/-- An object in band 1 of two, with a free band between. -/
def wComp : State :=
  wOny fun x => { x with img := { x.img with bands := [(0, List.replicate 16 7), (1, List.replicate 16 8)]
                                             blocks := (List.range 16).flatMap fun l => [(blockKey l 7, ({ use := .band 0 } : BlockInfo)), (blockKey l 8, { use := .band 1 })]
                                             objs := [(1, { wStored with base := 1 * wGeom.bandSectors })] } }
def wEnc (tab : Option (Nat × Nat)) : State := wOny fun x => { x with inst := some { wIns with encs := [(0, ⟨0, tab, []⟩)] } }
def wLive (st : Nat) : State := (fl (wOny fun x => { x with inst := some { wIns with held := [3] }, img := { x.img with tables := [(3, ⟨5#1024, 2⟩)] } }) [(Fld.CTAB_ID_STATE_STATE 3, st)])

theorem witness_OnyxAndEncodersWork :
    (wOny id).onyxRun = true ∧ (wOny id).flash.counted.length ≤ 2000 ∧
    (wBand 0 [(blockKey 0 5, .ecc)]).onyxBackground = true ∧ (wBand 0 [(blockKey 0 5, .ecc)]).refreshTurn (blockKey 0 5) = true ∧ (wBand 0 [(blockKey 0 5, .ecc)]).freeBlock 0 = some 0 ∧ ((wBand 0 [(blockKey 0 5, .ecc)]).flash.img.block (blockKey 0 5)).use = .band 0 ∧ (wBand 0 [(blockKey 0 5, .ecc)]).flash.jq = [] ∧ (wBand 0 [(blockKey 0 5, .ecc)]).flash.copyB = none ∧ NMap.find (wBand 0 [(blockKey 0 5, .ecc)]).flash.img.bands 0 = some [5] ∧
    (wBand 600000 []).flash.img.laneBlocks 0 = [(5, { use := .band 0, erases := 3 })] ∧ (wBand 600000 []).wornBlock 0 = some 0 ∧ (wBand 600000 []).turn 0 7 = true ∧ (wBand 600000 []).onyxBackground = true ∧ 3 + (wBand 600000 []).fld Fld.ONYX_WEAR_WL_SPREAD < 600000 ∧ (wBand 0 []).flash.img.blank.erases ≤ 3 + (wBand 0 []).fld Fld.ONYX_WEAR_WL_SPREAD ∧
    (wOny id).compactNext = none ∧
    (wComp.compactNext).map Prod.fst = some 1 ∧ wComp.onyxBackground = true ∧ (List.range 16).all (fun ch => wComp.turn ch 7) = true ∧ (wComp.frontier { wStored with base := 1 * wGeom.bandSectors }).2 = [] ∧ wComp.flash.jq = [] ∧ wComp.flash.copyB = none ∧
    (wEnc none).flash.inst.map (fun i => NMap.find i.encs 0) = some (some ⟨0, none, []⟩) ∧ (wEnc none).onyxRun = true ∧ (wEnc (some (3, 2))).flash.inst.map (fun i => NMap.find i.encs 0) = some (some ⟨0, some (3, 2), []⟩) ∧
    (wLive 0).fld (Fld.CTAB_ID_STATE_STATE 3) ≠ 1 ∧ (wLive 1).fld (Fld.CTAB_ID_STATE_STATE 3) = 1 ∧ (wLive 1).tableHeld 3 = true ∧ NMap.find (wLive 1).flash.img.tables 3 = some ⟨5#1024, 2⟩ := by
  decide +kernel

/-- An entry that only code 0x2002's limit can hold back, and one that no limit holds back. -/
def wReq : JReq := ⟨2, 1, 0x2002, 5, 7#32, 8#32, false⟩
def wFree : JReq := { wReq with code := 1, cls := 0 }
def wIntake (e : JReq) (n : Nat) : State := { fl wUp [(Fld.JSP_RATE_LIMIT, 16)] with intake := [e, wReq], jsp := { wUp.jsp with counts := [(0x2002, n)] } }
def wEntryJ : JEntry := ⟨9#32, 1#32, 0, 1, 2, 1, 0x2002, 5, 0#32, 7#32, 8#32⟩
def wRinged : State := { fl wUp [(Fld.JSP_NEXT_SEQ_SEQ, 10)] with jsp := { wUp.jsp with ring := [wEntryJ] } }
def wVaulted : State := { fl wUp [(Fld.JSP_NEXT_SEQ_SEQ, 10), (Fld.JSP_READ_STATUS_STATE, 1), (Fld.JSP_READ_SEQ_SEQ, 9)] with flash := { wUp.flash with vault := [9#256] } }
def wVaultUp : State := fl wUp [(Fld.ONYX_STATUS_STATE, onyxMounted), (Fld.JSP_STATUS_REBASED, 1)]
def wI3c : State := { wUp with boot := { wUp.boot with i3cAddr := some 0x30#7, i3cDyn := none } }
/-- A block of the lane that holds the vault page is past twice RD_LIMIT. -/
def wVaultSys : FlashSt := { wPageBehind.flash with sys := [(pageKey 0 5 0, wSysPage (.vault [9#256]))], vault := [9#256] }
def wVaultBehind : State := { fl wPageBehind [(Fld.JSP_NEXT_SEQ_SEQ, 10), (Fld.JSP_READ_STATUS_STATE, 1), (Fld.JSP_READ_SEQ_SEQ, 9)] with flash := wVaultSys }

theorem readSys_of {x : FlashSt} {k : Nat} {b : SysBody} (h : NMap.find x.sys k = some (wSysPage b)) (hu : x.unread = []) (hk : k % 2 ^ 12 = 0)
    (hb : b.handle < 2 ^ 32) (hs : ∀ k < 4, b.sector 0 k < 2 ^ 32) : x.readSys [] k = some b := by
  unfold FlashSt.readSys
  rw [h]; dsimp only
  rw [hk, if_neg (by simp [hu]), if_pos (wSysPage_ok b hb hs)]
  rfl

theorem vaultPage_one {x : FlashSt} {k : Nat} {p : SysPage} {e : BitVec 256} {q : BitVec 32} (hx : x.sys = [(k, p)])
    (h : x.readSys [] k = some (.vault [e])) (he : (e != 0#256 && e.extractLsb' 0 32 == q) = true) : x.vaultPage q = some k := by
  unfold FlashSt.vaultPage
  rw [hx]
  simpa [h] using he

theorem vaultTurn_of {s : State} {q : BitVec 32} {k : Nat} (h : s.flash.vaultPage q = some k) (ht : s.turn (laneChan (k / 2 ^ 32)) 3 = false) :
    s.vaultTurn q = false := by
  unfold State.vaultTurn
  rw [h]
  exact ht

theorem witness_vaultReadWaits : wVaultBehind.vaultTurn 9#32 = false :=
  vaultTurn_of (vaultPage_one rfl (readSys_of rfl rfl (by decide) (by decide) (by decide)) (by decide)) (by decide +kernel)


theorem witness_RecorderAcceptsAndAnswers :
    wUp.intake = [] ∧ limited wReq = true ∧ limited wFree = false ∧ (wIntake wReq 15).intake = [wReq, wReq] ∧ (wIntake wFree 15).intake = [wFree, wReq] ∧ NMap.get 0 (wIntake wReq 15).jsp.counts wReq.code < (wIntake wReq 15).fld Fld.JSP_RATE_LIMIT ∧ (wIntake wReq 16).fld Fld.JSP_RATE_LIMIT ≤ NMap.get 0 (wIntake wReq 16).jsp.counts wReq.code ∧
    wUp.jsp.supp = [] ∧ wUp.jsp.drops = 0 ∧ 0 < ({ wUp with jsp := { wUp.jsp with drops := 3 } } : State).jsp.drops ∧
    wUp.fld Fld.JSP_OP_SECONDS_SECONDS + (wUp.now - wUp.jsp.secondAt) / 1000000 + 3600 < 2 ^ 32 ∧ wUp.jsp.secondAt ≤ wUp.now ∧
    wUp.serves Rg.JSP_CTRL = true ∧ wUp.onyxUp = false ∧ wVaultUp.serves Rg.JSP_CTRL = true ∧ wVaultUp.onyxUp = true ∧ wVaultUp.fld Fld.JSP_STATUS_REBASED = 1 ∧ wVaultUp.passVault.vaultIdle = true ∧
    wUp.serves Rg.JSP_READ_SEQ = true ∧ wRinged.ringEntry 9#32 = some wEntryJ ∧ wVaulted.ringEntry 9#32 = none ∧ wVaulted.vaultEntry 9#32 = some 9#256 ∧ wUp.ringEntry 9#32 = none ∧ wUp.vaultEntry 9#32 = none ∧ wRinged.notYet 9#32 = false ∧ wVaulted.notYet 9#32 = false ∧ wUp.notYet 9#32 = true := by
  decide +kernel

theorem witness_RecorderAcceptsAndAnswers_2 :
    wVaulted.vaultTurn 9#32 = true ∧ wVaultBehind.fld Fld.JSP_READ_STATUS_STATE = 1 ∧ wVaultBehind.vaultEntry (wVaultBehind.rd Rg.JSP_READ_SEQ) = some 9#256 ∧ wVaultBehind.jsp.sel = none ∧
    wVaulted.fld Fld.JSP_READ_STATUS_STATE = 1 ∧ wVaulted.vaultEntry (wVaulted.rd Rg.JSP_READ_SEQ) = some 9#256 ∧ wVaulted.jsp.sel = none ∧
    wUp.serves Rg.JSP_CTR_CLEAR = true ∧ regAt (4 * (BitVec.ofNat 26 (Ct.JSP_RECORDED / 4)).toNat) = .counterLo ∧ regAt (4 * (0#26).toNat) ≠ .counterLo ∧ (decodeBlk (4 * (BitVec.ofNat 26 (Ct.JSP_RECORDED / 4)).toNat)).map (fun b => b.1 == .hq || b.1 == .hqq) = some false ∧ decodeBlk (4 * (0x3FFFFFF#26).toNat) = none ∧
    wUp.sidebandUp = true ∧ State.reset.sidebandUp = false ∧
    (fl wUp [(Fld.PWR_STATUS_STATE, 1)]).powerState = 1 ∧ wI3c.boot.i3cAddr = some 0x30#7 ∧ wI3c.boot.i3cDyn = none ∧ wI3c.sidebandUp = true := by
  decide +kernel

def wHoldBy (n : Nat) : State := { wUp with boot := { wUp.boot with heldBy := [n] } }
def wFail : State := fl wUp [(Fld.PWR_STATUS_PWRFAIL, 1)]
def wVf (n : Nat) : State := { wCfg with hostq := { wUp.hostq with numVfs := n } }
/-- A device that has left, and one in a group that ticks and answers configuration requests. -/
def wGoneOff : State := { wUp with link := { wUp.link with left := true } }
def wFlrTick : State := fl wCfg [(Fld.GARNET_CTRL_ENABLE, 1), (Fld.GARNET_STATUS_STATE, stDone)]

theorem witness_ResetsReturnToStart :
    (100#32).toNat = 100 ∧ (99#32).toNat < 100 ∧ heldPerst ∉ wUp.boot.heldBy ∧ wUp.serves Rg.BOOT_RESET_CTRL = true ∧ ((2 : Member)).val = (fl wUp [(Fld.GARNET_GROUP_MEMBER_INDEX, 2)]).me ∧ wUp.cores = [] ∧ Rail.main ≠ Rail.aonDeep ∧ wUp.starting = false ∧ wUp.intake = [] ∧ wUp.jsp.supp = [] ∧ wUp.jsp.drops = 0 ∧
    wFail.fld Fld.PWR_STATUS_PWRFAIL = 1 ∧ wUp.fld Fld.PWR_STATUS_PWRFAIL = 0 ∧ wUp.intake.length ≤ 64 ∧ State.reset.fld Fld.PWR_STATUS_PWRFAIL = 0 ∧ State.reset.starting = true ∧
    (wVf 2).hostq.numVfs < (3 : FnId).val ∧ (2 : FnId).val ≤ (wVf 2).hostq.numVfs ∧ (wVf 2).hostq.numVfs ≤ 16 ∧ (wVf 2).ownerFn 16 = 1 ∧ (wVf 2).ownerFn 3 = 0 := by
  decide +kernel

theorem witness_ResetsReturnToStart_2 :
    wGoneOff.link.left = true ∧ wUp.link.left = false ∧ wUp.configUp = false ∧ wCfg.configUp = true ∧ wCfg.place.moves = [] ∧ wCfg.place.replaceT = [] ∧ wFlrTick.ticking = true ∧ wFlrTick.configUp = true ∧ wCfg.ticking = false ∧ wFail.power.refill = false := by
  decide +kernel

def wTemp (l : List (Nat × Int)) (f : PowerSt → PowerSt) : State := { fl wUp [(freqNow 5, 8), (freqNow 6, 8)] with power := f { wUp.power with temps := l } }
def wIdleFor (n : Nat) : State := { fl wUp [(Fld.PWR_CTRL_S1_EN, 1)] with now := n, power := { wUp.power with idleSince := some 0 } }
def wAsleep (w : Nat) : State := fl wUp [(Fld.PWR_STATUS_STATE, 1), (Fld.PWR_STATUS_WAKING, w), (Fld.CLC_STATUS_POWERED 5, 1)]
def wTick1 (e : Nat) : State := fl wUp [(Fld.GARNET_CTRL_ENABLE, 1), (Fld.GARNET_STATUS_STATE, stDone), (Fld.GARNET_STATUS_TIMER_EXPIRED, e), (Fld.CLC_STATUS_POWERED 5, 1)]
/-- In S3 with S4 enabled and tolerated, but an object of code. -/
def wNoS4 : State :=
  let s := wPlaced .code (fl wUp [(Fld.PWR_CTRL_S4_EN, 1), (Fld.PWR_STATUS_STATE, 3), (Fld.PWR_WAKE_TOL_TOL_US, 2000000)])
  { s with power := { s.power with idleSince := some 0 } }

theorem witness_PowerAndThermalRulesHold :
    (5#16).toNat ≤ (fl wUp [(Fld.PWR_CAP_CAP_W, 600)]).fld Fld.PWR_CAP_CAP_W ∧ (fl wUp [(Fld.PWR_CAP_CAP_W, 600)]).fld Fld.PWR_CAP_CAP_W < (700#16).toNat ∧ wUp.power.capSide ≠ 2 ∧
    (wTick1 0).ticking = true ∧ wUp.ticking = false ∧ (wTemp [] fun p => { p with capSide := 2 }).power.capSide = 2 ∧ (wTemp [] fun p => { p with capSide := 2 }).fld (freqNow 5) = 8 ∧ (wTemp [] fun p => { p with capSide := 2 }).ticking = false ∧
    wUp.boot.heldBy = [] ∧ (64 : Fin 77).val ∉ wUp.power.warns ∧ (64 : Fin 77).val ∉ wUp.power.thermN ∧ (wHoldBy heldPerst).boot.heldBy ≠ [] ∧ (399#11).toInt < 400 ∧ 460 ≤ (460#11).toInt ∧ (69 : Fin 77).val - 69 ∉ wUp.power.oeDown ∧ 360 ≤ (360#11).toInt ∧
    (5 : ClusterId).val ∉ wUp.power.caps ∧ (5 : ClusterId).val ∉ wUp.power.hots ∧ (5 : ClusterId).val ∈ (wTemp [(5, 420)] fun p => { p with caps := [5] }).power.caps ∧ (wTemp [(5, 420)] fun p => { p with caps := [5] }).temp 5 = some 420 ∧ (5 : ClusterId).val ∉ (wTemp [(5, 420)] fun p => { p with caps := [5] }).power.hots ∧ (wTemp [(5, 420)] fun p => { p with caps := [5] }).fld (freqNow 5) = 8 ∧
    NMap.find wUp.power.ramps 5 = none ∧ NMap.find (wTemp [] fun p => { p with ramps := [(5, 15)] }).power.ramps 5 = some 15 := by
  decide +kernel

theorem witness_PowerAndThermalRulesHold_2 :
    State.reset.idle = false ∧ (wIdleFor 100).idle = true ∧ (wIdleFor 100).fld Fld.GARNET_CTRL_ENABLE = 0 ∧ (wIdleFor 100).fld Fld.PWR_STATUS_WAKING = 0 ∧ (wIdleFor 100).fld Fld.PWR_STATUS_PWRFAIL = 0 ∧ (wIdleFor 100).power.idleSince = some 0 ∧ (wIdleFor 100).deeper.find? (fun st => decide (0 + idleTime st ≤ (wIdleFor 100).now)) = some 1 ∧
    wNoS4.idle = true ∧ wNoS4.fld Fld.GARNET_CTRL_ENABLE = 0 ∧ wNoS4.fld Fld.PWR_STATUS_WAKING = 0 ∧ wNoS4.fld Fld.PWR_STATUS_PWRFAIL = 0 ∧ wNoS4.power.idleSince = some 0 ∧ wNoS4.powerState = 3 ∧ wNoS4.stateEnabled 4 = true ∧ wNoS4.tolerates 4 = true ∧ wNoS4.otherObjects = 1 ∧
    wUp.serves Rg.PWR_CTRL = true ∧ wUp.powerState = 0 ∧ (wAsleep 0).powerState ≠ 0 ∧ (wAsleep 0).serves Rg.PWR_CTRL = true ∧ (wAsleep 0).fld Fld.PWR_STATUS_WAKING = 0 ∧ (wAsleep 0).fld (Fld.CLC_STATUS_POWERED 5) = 1 ∧
    (wAsleep 0).fld Fld.PWR_STATUS_WAKING = 0 ∧ (wAsleep 1).fld Fld.PWR_STATUS_WAKING = 1 ∧ (wAsleep 1).stacksAwake = true ∧
    wUp.ticking = false ∧ (wTick1 0).fld Fld.GARNET_STATUS_TIMER_EXPIRED = 0 ∧ (wTick1 0).powerState = 0 ∧ (wTick1 0).fld (Fld.CLC_STATUS_POWERED 5) = 1 ∧ (wTick1 1).fld Fld.GARNET_STATUS_TIMER_EXPIRED ≠ 0 := by
  decide +kernel

def wBoot (st : Nat) (f : BootSt → BootSt) : State := { fl State.reset [(Fld.BOOT_STATE_STATE, st)] with boot := f State.reset.boot }
/-- The stacks are identified, with certificate bytes `l` at 68. -/
def wIdent (st : Nat) : State := wBoot st fun b => { b with identified := true }
def wCertOf (l : List Byte) : State := wBoot 3 fun b => { b with cert := List.replicate 68 0#8 ++ l }
def wOptics : State := fl (wIdent 3) [(Fld.LNK_CTRL_ENABLE 12, 1), (Fld.TOPO_SHAPE_TWIN, 1)]
def wWaits (n : Nat) : State := { wBoot 5 id with now := n }
def wReady : State := fl (wBoot 5 fun b => { b with identified := true }) ([(Fld.BOOT_SELF_TEST_PASS, 1), (Fld.ONYX_STATUS_STATE, onyxUnformatted)] ++ (List.range 12).map fun st => (Fld.STK_STATUS_STATE st, memReady))
def wPortDown : State := fl (wWaits 0) [(Fld.LNK_CTRL_ENABLE 13, 1)]
/-- All is ready but port 13, at 9 s. -/
def wPortLate : State := { fl wReady [(Fld.LNK_CTRL_ENABLE 13, 1), (Fld.ONYX_STATUS_STATE, onyxMounted)] with now := 9000000 }
def wUnlocked : State := fl wUp [(Fld.BOOT_STATE_TEST_UNLOCKED, 1)]

theorem witness_StartUpGoesOn :
    wUp.fld Fld.BOOT_STATE_STATE ≠ 0 ∧ State.reset.boot.heldBy = [] ∧ State.reset.fld Fld.BOOT_STATE_STATE = 0 ∧
    (wBoot 3 id).inStart = true ∧ (wBoot 3 id).boot.identified = false ∧ leNat (((wCertOf [0#8, 0#8]).boot.cert.drop 68).take 2) ≠ 0x0432 ∧ leNat (((wCertOf [0x76#8, 0x05#8]).boot.cert.drop 68).take 2) = 0x0576 ∧ (wCertOf []).boot.identified = false ∧
    (wIdent 3).fld Fld.BOOT_SELF_TEST_DONE = 0 ∧ (wIdent 5).inStart = true ∧ (wIdent 3).boot.identified = true ∧ (wBoot 3 id).boot.identified = false ∧ (wBoot 3 id).inStart = true ∧
    wOptics.inStart = true ∧ wOptics.boot.optics = false ∧ wOptics.fld (Fld.LNK_CTRL_ENABLE 12) = 1 ∧ 6 ∉ wOptics.power.oeDown ∧ wOptics.hasPeer (bundleOf 12) = true ∧ wOptics.spanLen (bundleOf 12) none ≤ 3 ∧
    (wWaits 0).inStart = true ∧ (wWaits 0).waitOver = false ∧ (wWaits 0).portsAwaited = [] ∧ (wWaits 0).boot.portsTold = false ∧ wPortDown.portsAwaited = [13] ∧ wPortDown.inStart = true ∧ wPortLate.readyNow = true ∧ wPortLate.onyxUp = true ∧ wPortLate.waitOver = true ∧ wPortLate.portsAwaited = [13] ∧ wPortLate.boot.portsTold = false := by
  decide +kernel

theorem witness_StartUpGoesOn_2 :
    (wBoot 1 id).fld Fld.BOOT_STATE_STATE = 1 ∧ (wBoot 2 id).fld Fld.BOOT_STATE_STATE = 2 ∧ (wBoot 2 id).now + 1 < (wBoot 2 id).boot.zeroAt + 50000 ∧ (wBoot 1 id).pending = [] ∧ { wBoot 2 id with now := 49999 }.boot.zeroAt + 50000 = 50000 ∧ (wHoldBy heldSupply).boot.heldBy = [heldSupply] ∧
    wUp.readyNow = false ∧ wReady.readyNow = true ∧ wReady.onyxUp = false ∧
    (wBoot 3 id).boot.heldBy = [] ∧ (wBoot 3 id).starting = true ∧ wUp.fld Fld.BOOT_STATE_STATE = 6 ∧ wUp.boot.entropyStopped = false ∧ (wBoot 6 fun b => { b with entropyStopped := true }).boot.entropyStopped = true ∧
    wUp.serves Rg.BOOT_TEST = true ∧ wUp.fld Fld.BOOT_STATE_TEST_UNLOCKED = 0 ∧ wUnlocked.serves Rg.BOOT_TEST = true ∧ wUnlocked.fld Fld.BOOT_STATE_TEST_UNLOCKED = 1 := by
  decide +kernel

/-- `s` with command `i` in front. -/
def wNext (i : Instr) (s : State) : State := { s with pending := i :: s.pending }
def wGoes (s : State) : Bool := match step s with | .next _ => true | _ => false
def wKeyed : State := { wUp with boot := { wUp.boot with rpmc := (some 5#256, 7) } }

theorem witness_OnlyFiveCommandsStop :
    wUp.spaOk (BitVec.ofNat 40 (2 ^ 38 - 64)) = false ∧ wUp.spaOk 0#40 = true ∧ wUp.dieBytes < (BitVec.ofNat 40 (wUp.dieBytes - 64)).toNat % 2 ^ 38 + (List.replicate 65 0#8).length ∧ (BitVec.ofNat 40 (wUp.dieBytes - 64)).toNat % 2 ^ 38 + (List.replicate 64 0#8).length = wUp.dieBytes ∧ wUp.spaOk (BitVec.ofNat 40 (wUp.dieBytes - 64)) = true ∧ 4096 < (4097#32).toNat ∧ ¬ 4096 < (4096#32).toNat ∧ 4096 < (List.replicate 4097 0#8).length ∧ ¬ 4096 < (List.replicate 4096 0#8).length := by
  decide +kernel

theorem witness_EveryStepKeepsMemories :
    State.reset.memoriesWf ∧ State.reset.intake.length ≤ 64 ∧ wGoes State.reset = true ∧ wUp.memoriesWf ∧ wUp.intake.length ≤ 64 ∧ wGoes (wNext (.burstWrite 64#40 [1#8, 0#8]) wUp) = true := by
  decide +kernel

theorem witness_EveryStepKeepsReplayCounter :
    wKeyed.memoriesWf ∧ wKeyed.intake.length ≤ 64 ∧ wGoes (wNext .commitSvn wKeyed) = true ∧ wKeyed.boot.rpmc.1 = some 5#256 := by
  decide +kernel

theorem witness_StepsGoForward :
    wUp.memoriesWf ∧ wUp.intake.length ≤ 64 ∧ wGoes (wNext (.nop 3) wUp) = true ∧ wUp.pending = [] := by
  decide +kernel

theorem witness_WordsComeBackFromEncoding :
    encodeWord (.wait 3 wWait) = some (3, wWaitWord) ∧ encodeWord (.nop 3) = some (3, BitVec.ofNat 64 (6 * 2 ^ 60)) := by
  decide

def wSecret : BitVec 256 := 7#256
def wRecordKey : List Byte := hkdf (bytes256 wSecret) infoSvn 32
/-- A device with its secret, counter at 5 and record 0 valid, whose mailbox holds `req`. -/
def wMail (req : List Byte) : State :=
  { fl wUp [(Fld.SEC_REQ_LEN_BYTES, req.length), (Fld.BOOT_IMAGE_SVN_SVN, 4)] with boot := { wUp.boot with
      secret := some wSecret, rpmc := (some 5#256, 5), idKey := List.replicate 48 3#8, buffer := Mem.wrN [] 0 req,
      nor := Mem.wrN [] (recordAt 0) (svnRecord wRecordKey 5 2 false (List.replicate 32 0#8)) } }
/-- The job `j` is in front, and the mailbox is BUSY. -/
def wJobs (j : MailJob) : State := (wMail []).modBoot (fun b => { b with mails := [j], cert := List.replicate 29920 1#8 }) |>.setFld Fld.SEC_STATUS_STATE 1
def wJob (op : Nat) (req : List Byte) (done : Nat) : State := wJobs ⟨false, op, req, done⟩
def wJobUp : State := (wJob 1 [] 0).modBoot fun b => { b with identified := true }
/-- A NOR_WRITE of `n` bytes at `a`. -/
def wNor (a n : Nat) : List Byte := leBytes 4 a ++ leBytes 4 n ++ List.replicate n 7#8
def wStep (s : State) (f : State → Bool) : Bool := match step s with | .next t => f t | _ => false
def wDone (r : MailResult) (t : State) : Bool := t.boot.mails.isEmpty && t.fld Fld.SEC_STATUS_STATE == 2 && t.fld Fld.SEC_STATUS_RESULT == r.code

theorem witness_MailboxCommandsRun :
    (wMail [1#8]).serves Rg.SEC_CMD = true ∧ (wMail [1#8]).fld Fld.SEC_STATUS_STATE = 0 ∧ (wJob 1 [] 0).serves Rg.SEC_CMD = true ∧ (wJob 1 [] 0).fld Fld.SEC_STATUS_STATE = 1 ∧ (wJob 1 [] 0).serves (Rg.SEC_BUFFER 5) = true ∧ wJobUp.configUp = true ∧ (wJob 1 [] 0).pending = [] ∧ 3 ≤ (wJob 1 [] 0).fld Fld.BOOT_STATE_STATE ∧
    (wJob 1 [] 0).boot.idKey.length = 48 ∧ (wJob 2 [] 0).boot.cert.length = 29920 ∧ wUp.boot.idKey = [] ∧
    (wJob 4 (5#8 :: List.replicate 35 9#8) 0).fld Fld.BOOT_STATE_STATE = 6 ∧ (5#8 :: List.replicate 35 9#8).length = 36 ∧ ((5#8 :: List.replicate 35 9#8).getD 0 0#8).toNat = (5 : Fin 8).val ∧
    (wJob 5 (List.replicate 32 9#8) 0).boot.secret = some wSecret ∧ (wJob 5 (List.replicate 32 9#8) 0).boot.rpmc.2 + 1 < 2 ^ 32 ∧ (wJob 5 (List.replicate 32 9#8) 0).fld Fld.BOOT_STATE_OWNED = 0 ∧ leNat [3#8, 0#8, 0#8, 0#8] = 3 ∧ recordSvn (wJob 6 [] 0).boot.nor 0 = 2 ∧ (wJob 6 [] 0).fld Fld.BOOT_IMAGE_SVN_SVN = 4 ∧
    recordOk (wMail []).boot.nor wRecordKey (wMail []).boot.rpmc.2 (wMail []).boot.record = true ∧
    leNat ((wNor 16 5000).take 4) = 16 ∧ leNat (((wNor 16 5000).drop 4).take 4) = 5000 ∧ (wNor 16 5000).length = 8 + 5000 ∧ (wJob 7 [] 0).norMayWrite 16 5000 = true ∧ (wJob 7 [] 0).norMayWrite 0x10000 1 = false ∧ leNat ((wNor 0x10000 1).take 4) = 0x10000 ∧ (leBytes 4 0x10000 ++ leBytes 4 32768).length = 8 := by
  decide +kernel

def wRead0 (a n : Nat) : RegRead := { fn := 0, bar4 := false, ofs := BitVec.ofNat 28 a, size := Fin.ofNat 9 n }
def wWrite0 (a v : Nat) : RegWrite := { fn := 0, bar4 := false, ofs := BitVec.ofNat 28 a, size := 4, data := BitVec.ofNat 64 v }
def wLocked : State := fl wUp [(Fld.BOOT_STATE_LOCKED, 1)]
/-- Vector 5 is unmasked and has nothing pending, or it is masked and a message of it waits. -/
def wPba : State := { wUp with hostq := { wUp.hostq with pba := [5] } }
/-- Cluster 5 is off while a wake goes on: its isolation bridge stands. -/
def wAsleepCl : State := fl wUp [(Fld.CLC_STATUS_POWERED 5, 0), (Fld.PWR_STATUS_WAKING, 1)]

theorem witness_RegistersReadAndWrite :
    State.reset.serves (Ct.JSP_RECORDED / 4 * 4) = false ∧ wUp.hostq.numVfs < ({ wRead0 0 4 with fn := 1 }).fn.val ∧ (1 : FnId).val ≤ (wVf 1).hostq.numVfs ∧ vfOffset 1 0x1000 = some (0x31000 + 0x20 * 16) ∧
    regAt (wRead0 Ct.JSP_RECORDED 4).ofs.toNat = .counterLo ∧ wUp.powerState = 0 ∧ wUp.serves Ct.JSP_RECORDED = true ∧ wUp.servesMgmt Ct.JSP_RECORDED = true ∧ State.reset.pathServes false Rg.JSP_RATE = false ∧ wUp.pathServes true Rg.JSP_RATE = true ∧ wUp.poweredOff Ct.JSP_RECORDED = false ∧ regAt (Ct.JSP_RECORDED + 4) = .counterHi Ct.JSP_RECORDED ∧
    (match regAt ((wRead0 Rg.PWR_CAP 2).ofs.toNat / 4 * 4) with | .word b _ _ => b != .obj && b != .onyx && b != .jsp | _ => false) = true ∧ wUp.serves Rg.PWR_CAP = true ∧ wUp.servesMgmt Rg.PWR_CAP = true ∧ wUp.poweredOff Rg.PWR_CAP = false ∧ (wRead0 (Rg.PWR_CAP + 2) 2).ofs.toNat % 4 + (wRead0 (Rg.PWR_CAP + 2) 2).size.val ≤ 4 ∧ (wRead0 (Rg.PWR_CAP / 8 * 8) 8).ofs.toNat % 8 = 0 ∧ (wRead0 (Rg.PWR_CAP / 8 * 8) 8).ofs.toNat + 8 < 2 ^ 28 ∧
    wAsleepCl.pathServes false (Rg.CLC_STATUS 5) = true ∧ wAsleepCl.inReset (Rg.CLC_STATUS 5) = some 5 ∧ 5 ∉ wAsleepCl.power.bridged ∧
    5 ∈ wPba.hostq.pba ∧ bvBit 96 (wUp.msixEntry 5) = true ∧
    wUp.serves (Rg.OBJ_ENTRY 0) = true ∧ wUp.serves Rg.ONYX_EPOCH_LO = true := by
  decide +kernel

theorem witness_RegistersReadAndWrite_2 :
    (wWrite0 Rg.JSP_RATE (100 + 2 ^ 14)).data = BitVec.ofNat 64 (100 + 2 ^ 14 * 1) ∧ wUp.serves Rg.JSP_RATE = true ∧ wUp.serves Rg.JSP_WDOG_CTRL = true ∧ wUp.fld Fld.BOOT_STATE_LOCKED = 0 ∧ wLocked.fld Fld.BOOT_STATE_LOCKED = 1 ∧ wLocked.serves Rg.JSP_WDOG_CTRL = true := by
  decide +kernel

/-! ### Single steps -/

/-- The state after one command, or `s` where it stops. -/
def after (i : Instr) (s : State) : State :=
  match exec i s with
  | .next t => t
  | _ => s

/-- Core 3's vector engine with V0 holding `v`, and `i` in Q4. -/
def vecWith (v : Nat) (i : Instr) : State := (wHead 4 i wRun).modCore 3 fun x => { x with vec := { regs := [(0, BitVec.ofNat 32768 v)] } }
/-- The low `n` bits of V1 after one vector instruction. -/
def v1After (n : Nat) (v : Nat) (i : Instr) : Nat := (NMap.get 0#32768 ((after i (vecWith v i)).core 3).vec.regs 1).toNat % 2 ^ n
/-- An unmasked word over V0 into V1: type, N and IMM. -/
def vw (ty : Fin 4) (n : Nat) (imm : Nat) : VWord := ⟨false, 0, ty, 1, 0, 0, Fin.ofNat 4096 (n - 1), BitVec.ofNat 19 imm⟩

/-- R127, the spec's example: VTOPK over [5, 9, 9, 3, 9] with K = 2 gives (9, 1), (9, 2). -/
theorem test_vtopk : v1After 128 (5 + 9 * 2 ^ 32 + 9 * 2 ^ 64 + 3 * 2 ^ 96 + 9 * 2 ^ 128) (.vtopk 3 (vw 2 5 1)) =
    9 + 1 * 2 ^ 32 + 9 * 2 ^ 64 + 2 * 2 ^ 96 := by decide +kernel
/-- R127, the example's second half: with (9, 0) added, VTOPKP gives (9, 0), (9, 1). -/
theorem test_vtopkp : v1After 128 (9 + 1 * 2 ^ 32 + 9 * 2 ^ 64 + 2 * 2 ^ 96 + 9 * 2 ^ 128) (.vtopkp 3 (vw 2 6 1)) =
    9 + 9 * 2 ^ 64 + 1 * 2 ^ 96 := by decide +kernel
/-- R122: VADDI wraps, VADDSI saturates: 127 + 1 on I8. -/
theorem test_vaddi : v1After 8 127 (.vaddi 3 (vw 0 1 1)) = 128 ∧ v1After 8 127 (.vaddsi 3 (vw 0 1 1)) = 127 := by decide +kernel
/-- R123: VABS and VNEG of the most negative I16 saturate. -/
theorem test_vabs : v1After 16 0x8000 (.vabs 3 (vw 1 1 0)) = 0x7FFF ∧ v1After 16 0x8000 (.vneg 3 (vw 1 1 0)) = 0x7FFF := by decide +kernel
/-- R122, R123: VCLS of 0 gives width − 1; of 0x40 on I8, 0. -/
theorem test_vcls : v1After 8 0 (.vcls 3 (vw 0 1 0)) = 7 ∧ v1After 8 0x40 (.vcls 3 (vw 0 1 0)) = 0 := by decide +kernel
/-- R122: VMULSHI rounds to even: 3 × 1 over 2 gives 2, 5 × 1 over 2 gives 2. -/
theorem test_vmulshi : v1After 16 3 (.vmulshi 3 (vw 1 1 (1 * 64 + 1))) = 2 ∧ v1After 16 5 (.vmulshi 3 (vw 1 1 (1 * 64 + 1))) = 2 := by decide +kernel
/-- R125: the exact sum of I32 elements saturates once. -/
theorem test_vrsum : v1After 32 (0x7FFFFFFF + 0x7FFFFFFF * 2 ^ 32 + 0x80000001 * 2 ^ 64) (.vrsum 3 (vw 2 3 0)) = 0x7FFFFFFF := by decide +kernel
/-- R121: an unused TYPE abandons the step. -/
theorem test_vector_unused : (after (.vadd 3 (vw 3 1 0)) (vecWith 0 (.vadd 3 (vw 3 1 0)))).fld (Fld.SEQ_ERROR_UNUSED_ENCODING 3) = 1 := by decide +kernel
/-- R49: a WAIT subtracts its amount. -/
theorem test_wait : (after (.wait 3 wWait) ((wHead 2 (.wait 3 wWait) wRun).setFld (tokFld 3 5) 4)).fld (tokFld 3 5) = 1 := by decide +kernel
/-- R415: PWRFAIL_N is recorded with code 0x0005. -/
theorem test_pwrfail : (after .pwrfailNFall wUp).jsp.ring.getLast?.map (·.code) = some 5 := by decide +kernel
/-- R397: a reset pulse under 100 ns does nothing, one of 100 ns is a warm reset. -/
theorem test_sysrst : (after (.sysRstN 99#32) wUp).fld Fld.BOOT_STATE_STATE = 6 ∧ (after (.sysRstN 100#32) wUp).fld Fld.BOOT_STATE_STATE = 0 := by decide +kernel
/-- R13: a value outside its range is not written. -/
theorem test_write_range : (after (.registerWrite (wWrite0 Rg.JSP_WDOG_CTRL 99)) wUp).fld Fld.JSP_WDOG_CTRL_PERIOD_MS = wUp.fld Fld.JSP_WDOG_CTRL_PERIOD_MS := by decide +kernel
/-- R191: the last burst of a die exists, the next does not. -/
theorem test_spa : exec (.burstRead (BitVec.ofNat 40 wUp.dieBytes) []) wUp = .fault .stackAddress := by rfl
/-- With nothing waiting a microsecond passes (log entry 8). -/
theorem test_tick : (match step State.reset with | .next t => t.now | _ => 0) = 1 := by decide +kernel

end Sys2Proof.Tests
end

section
/-! PROOFS. The state after reset: the values of the tables (R15) and the invariants. -/

namespace Sys2Proof.Machine

/-- Settles O4: each memory of the reset state is empty, and so is its intake queue. -/
theorem resetMeetsInvariants : Obligations.ResetMeetsInvariants :=
  ⟨⟨Mem.wf_nil, Mem.wf_nil, Mem.wf_nil, Mem.wf_nil, fun _ h => (nomatch h), fun _ h => (nomatch h)⟩, Nat.zero_le _⟩

/-- After reset a field reads the field of its register's reset word. -/
theorem State.fld_reset (f : Fld) : State.reset.fld f = bvGet f.lo f.w (resetWord f.addr) := rfl

/-- Settles O2: the register map of the reset state is empty, so each field listed reads its table's Reset column. -/
theorem resetLeavesTableValues : Obligations.ResetLeavesTableValues := by
  unfold Obligations.ResetLeavesTableValues
  refine ⟨?_, rfl, rfl⟩
  simp only [State.fld_reset]
  decide +kernel

end Sys2Proof.Machine
end

section
/-! PROOFS. The vector loads and stores between core buffer and registers (R122, R129). -/

namespace Sys2Proof.Machine

/-! ### Little-endian numbers in a byte memory -/

theorem Mem.rdLe_congr {m m' : Mem} {a n : Nat} (h : ∀ k, a ≤ k → k < a + n → m'.rd k = m.rd k) : m'.rdLe a n = m.rdLe a n := by
  unfold Mem.rdLe Mem.rdN
  congr 1
  refine List.map_congr_left fun i hi => h _ (by omega) ?_
  have := List.mem_range.mp hi
  omega

/-- A number reads back from memory that holds its bytes. -/
theorem Mem.rdLe_of_leBytes {m : Mem} {a n v : Nat} (h : ∀ r, r < n → m.rd (a + r) = (leBytes n v).getD r 0#8) (hv : v < 256 ^ n) :
    m.rdLe a n = v := by
  have hl : m.rdN a n = leBytes n v := by
    refine List.ext_getElem (by simp [Mem.rdN, length_leBytes]) fun i hi _ => ?_
    have hi : i < n := by simpa [Mem.rdN] using hi
    simp only [Mem.rdN, List.getElem_map, List.getElem_range]
    rw [h i hi, List.getD_eq_getElem _ _ (by rwa [length_leBytes])]
  rw [Mem.rdLe, hl, leNat_leBytes, Nat.mod_eq_of_lt hv]

/-- Chunks of one length laid end to end: byte `r` of chunk `j`. -/
theorem getD_flatMap_range {β : Type} {b n j r : Nat} (g : Nat → List β) (hg : ∀ i, (g i).length = b) (hj : j < n) (hr : r < b) (d : β) :
    ((List.range n).flatMap g).getD (j * b + r) d = (g j).getD r d := by
  induction n generalizing j with
  | zero => omega
  | succ n ih =>
    have hlen : ((List.range n).flatMap g).length = n * b := by simp [List.length_flatMap, hg]
    rw [List.range_succ, List.flatMap_append, List.flatMap_cons, List.flatMap_nil, List.append_nil]
    rcases Nat.lt_succ_iff_lt_or_eq.mp hj with hj | rfl
    · have : (j + 1) * b ≤ n * b := Nat.mul_le_mul_right _ hj
      rw [List.getD_append _ _ _ _ (by rw [hlen]; rw [Nat.succ_mul] at this; omega), ih hj]
    · rw [List.getD_append_right _ _ _ _ (by rw [hlen]; omega), hlen, Nat.add_sub_cancel_left]

/-- Elements of `b` bytes at the places of `js` in the array at `a` took the values of `g`; every byte beside them is as before. -/
def Mem.storedAt (m m' : Mem) (a b : Nat) (js : List Nat) (g : Nat → Nat) : Prop :=
  (∀ j ∈ js, m'.rdLe (a + j * b) b = g j) ∧
    ∀ k, (∀ j ∈ js, k < a + j * b ∨ a + (j + 1) * b ≤ k) → m'.rd k = m.rd k

/-- One element written. -/
theorem Mem.wrBlk_storedAt (m : Mem) (a b j : Nat) (g : Nat → Nat) (hg : g j < 256 ^ b) :
    m.storedAt (m.wrBlk (a + j * b) (leBytes b (g j))) a b [j] g := by
  refine ⟨fun i hi => ?_, fun k hk => ?_⟩
  · obtain rfl : i = j := by simpa using hi
    refine Mem.rdLe_of_leBytes (fun r hr => ?_) hg
    rw [Mem.rd_wrBlk, length_leBytes, if_pos (by omega), Nat.add_sub_cancel_left]
  · have := hk j (by simp)
    rw [Mem.rd_wrBlk, length_leBytes, if_neg (by rw [Nat.succ_mul] at this; omega)]

/-- One element after another. -/
theorem Mem.storedAt_cons {m m1 m2 : Mem} {a b j : Nat} {js : List Nat} {g : Nat → Nat} (h1 : m.storedAt m1 a b [j] g)
    (h2 : m1.storedAt m2 a b js g) : m.storedAt m2 a b (j :: js) g := by
  obtain ⟨hv1, hf1⟩ := h1
  obtain ⟨hv2, hf2⟩ := h2
  refine ⟨fun i hi => ?_, fun k hk => ?_⟩
  · by_cases hm : i ∈ js
    · exact hv2 i hm
    · obtain rfl : i = j := by simpa [hm] using hi
      rw [← hv1 i (by simp)]
      refine Mem.rdLe_congr fun k hk1 hk2 => hf2 k fun x hx => ?_
      rcases Nat.lt_or_gt_of_ne (fun e => hm (e ▸ hx) : i ≠ x) with hl | hl
      · have := Nat.mul_le_mul_right b hl
        rw [Nat.succ_mul] at this
        omega
      · have : (x + 1) * b ≤ i * b := Nat.mul_le_mul_right b hl
        exact .inr (by omega)
  · rw [hf2 k fun x hx => hk x (List.mem_cons_of_mem _ hx), hf1 k fun x hx => hk x (by simp_all)]

/-- A whole array written in one pass. -/
theorem Mem.wrBlk_flatMap_storedAt (m : Mem) (a b n : Nat) (g : Nat → Nat) (hg : ∀ j, g j < 256 ^ b) :
    m.storedAt (m.wrBlk a ((List.range n).flatMap fun j => leBytes b (g j))) a b (List.range n) g := by
  have hlen : ((List.range n).flatMap fun j => leBytes b (g j)).length = n * b := by simp [List.length_flatMap, length_leBytes]
  refine ⟨fun j hj => Mem.rdLe_of_leBytes (fun r hr => ?_) (hg j), fun k hk => ?_⟩
  · have hj := List.mem_range.mp hj
    have : (j + 1) * b ≤ n * b := Nat.mul_le_mul_right _ hj
    rw [Nat.succ_mul] at this
    rw [Mem.rd_wrBlk, hlen, if_pos (by omega), show a + j * b + r - a = j * b + r by omega,
      getD_flatMap_range _ (fun i => length_leBytes b (g i)) hj hr]
  · rw [Mem.rd_wrBlk, hlen]
    refine if_neg fun ⟨h1, h2⟩ => ?_
    have hb : 0 < b := Nat.pos_of_ne_zero fun e => by subst e; omega
    have hq : (k - a) / b < n := (Nat.div_lt_iff_lt_mul hb).mpr (by omega)
    have h3 := Nat.div_mul_le_self (k - a) b
    have h4 := Nat.lt_div_mul_add (a := k - a) hb
    have := hk _ (List.mem_range.mpr hq)
    rw [Nat.succ_mul] at this
    omega


/-! ### The checks of a vector instruction -/

/-- A used TYPE that the instruction allows. -/
theorem withType_eq {w : VWord} {t : VTy} {ok : VTy → Bool} (k : VTy → VOut) (ht : VTy.ofCode w.ty.val = some t) (hok : ok t = true) :
    withType w ok k = k t := by
  simp [withType, ht, hok]

/-- Groups that lie within V31. -/
theorem withGroups_eq {gs : List (VTy × Nat × Nat)} (k : VOut) (h : ∀ g ∈ gs, groupOk g.1 g.2.1 g.2.2) : withGroups gs k = k :=
  if_pos (List.all_eq_true.mpr h)

/-- A sign-extended element is its own wrap. -/
theorem wrapW_sx (b v : Nat) : wrapW b (sx b v) = sx b v := by
  unfold wrapW sx
  rw [BitVec.ofInt_toInt]

theorem wrapW_zero (b : Nat) : wrapW b 0 = 0 := by simp [wrapW]

theorem VTy.two_pow_bits (t : VTy) : 2 ^ t.bits = 256 ^ t.bytes := by cases t <;> decide

theorem VFile.getU_lt (f : VFile) (t : VTy) (n i : Nat) : f.getU t n i < 256 ^ t.bytes := t.two_pow_bits ▸ bvGet_lt _ _ _

/-- A range with no unit of bad parity is consumed without more (R249). -/
theorem State.consume_range_good {s : State} {c a n : Nat} (h : (s.core c).bad a n = false) : s.consume c [(a, n)] = s := by
  have hus : ((s.core c).bufBad.filter fun u => [(a, n)].any fun r => (unitsOf r.1 r.2).contains u) = [] := by
    refine List.filter_eq_nil_iff.mpr fun u hu hc => ?_
    have hne : (s.core c).bufBad.isEmpty = false := by
      cases hb : (s.core c).bufBad with
      | nil => rw [hb] at hu; exact nomatch hu
      | cons => rfl
    rw [CoreSt.bad, hne, Bool.not_false, Bool.true_and, List.any_eq_false] at h
    exact h u (by simpa using hc) (by simpa using hu)
  unfold State.consume
  simp only [hus]
  rfl

/-! ### VST -/

theorem CoreSt.store_cons (x : CoreSt) (t : VTy) (a : Nat) (p : Nat × Nat) (vals : List (Nat × Nat)) :
    x.store t a (p :: vals) = (x.put (a + p.1 * t.bytes) (leBytes t.bytes p.2)).store t a vals := rfl

/-- A store of elements, one by one, reaches the core buffer alone. -/
theorem CoreSt.store_vec (x : CoreSt) (t : VTy) (a : Nat) (vals : List (Nat × Nat)) : (x.store t a vals).vec = x.vec := by
  induction vals generalizing x with
  | nil => rfl
  | cons p vals ih => rw [CoreSt.store_cons, ih]; rfl

/-- It puts each element at its place. -/
theorem CoreSt.store_storedAt (x : CoreSt) (t : VTy) (a : Nat) (js : List Nat) (g : Nat → Nat) (hg : ∀ j, g j < 256 ^ t.bytes) :
    x.buf.storedAt (x.store t a (js.map fun j => (j, g j))).buf a t.bytes js g := by
  induction js generalizing x with
  | nil => exact ⟨fun _ h => (nomatch h), fun _ _ => rfl⟩
  | cons j js ih =>
    rw [List.map_cons, CoreSt.store_cons]
    exact Mem.storedAt_cons (Mem.wrBlk_storedAt x.buf a t.bytes j g (hg j)) (ih _)

/-- The core after VST has written its active elements: in one pass where all are active, else one by one (R122). -/
def CoreSt.vstWrite (w : VWord) (t : VTy) (y : CoreSt) : CoreSt :=
  let act := activeOf y.vec w
  if act.length == nOf w then y.put (4 * immU w) (act.flatMap fun i => leBytes t.bytes (y.vec.getU t w.va i))
  else y.store t (4 * immU w) (act.map fun i => (i, y.vec.getU t w.va i))

theorem CoreSt.vstWrite_vec (w : VWord) (t : VTy) (y : CoreSt) : (y.vstWrite w t).vec = y.vec := by
  unfold CoreSt.vstWrite
  dsimp only
  split
  · rfl
  · exact CoreSt.store_vec _ _ _ _

/-- Where as many elements are active as there are, all are. -/
theorem activeOf_eq_range {f : VFile} {w : VWord} (h : (activeOf f w).length = nOf w) : activeOf f w = List.range (nOf w) := by
  unfold activeOf at h ⊢
  exact List.filter_eq_self.mpr (List.length_filter_eq_length_iff.mp (h.trans List.length_range.symm))

theorem CoreSt.vstWrite_storedAt (w : VWord) (t : VTy) (y : CoreSt) :
    y.buf.storedAt (y.vstWrite w t).buf (4 * immU w) t.bytes (activeOf y.vec w) (y.vec.getU t w.va) := by
  unfold CoreSt.vstWrite
  dsimp only
  split
  · rename_i h
    rw [activeOf_eq_range (beq_iff_eq.mp h)]
    exact Mem.wrBlk_flatMap_storedAt _ _ _ _ _ fun j => VFile.getU_lt _ _ _ _
  · exact CoreSt.store_storedAt _ _ _ _ _ fun j => VFile.getU_lt _ _ _ _

/-- VST with its type, its group and its range in order writes its elements and counts (R122, R141). -/
theorem runVst_eq {c : CoreId} {w : VWord} {s : State} {t : VTy} (ht : VTy.ofCode w.ty.val = some t)
    (hg : groupOk t w.va (nOf w)) (hr : 4 * immU w + nOf w * t.bytes ≤ bufBytes) (p : Prog) :
    runVst c w p s = (((s.modCore c (CoreSt.vstWrite w t)).count (Ct.VEC_BUSY_CYCLES c) (costMem w)).count (Ct.VEC_ELEMENTS c)
      (activeOf (s.core c).vec w).length, true) := by
  have ho : ∃ r, vStore (s.vecCtx c) w (s.core c).vec = .ok r := by
    refine ⟨_, (withType_eq _ ht rfl).trans ((withGroups_eq _ (by simpa using hg)).trans (if_neg (by omega)))⟩
  obtain ⟨r, ho⟩ := ho
  unfold runVst
  simp only [ho, ht]
  rfl

/-- An instruction that completes leaves the vector registers of every core. -/
theorem State.complete_vec (s : State) (c q d : Nat) (b : Option Bool) : ((s.complete c q b).core d).vec = (s.core d).vec := by
  unfold State.complete
  rw [State.closeSlots_core]
  by_cases h : c = d
  · subst h
    rw [State.core_modCore_same]
    cases b with
    | none => rfl
    | some x => unfold CoreSt.pop; cases x <;> rfl
  · rw [State.core_modCore_ne _ _ h]

/-! ### The instructions as commands -/

/-- An address of VLDX lies in the 2 MiB of the core buffer (R5, R122). -/
theorem inBuf_iff {a : Int} : (decide (0 ≤ a) && decide (a < bufBytes)) = true ↔ 0 ≤ a ∧ a < 2 ^ 21 := by
  rw [Bool.and_eq_true, decide_eq_true_iff, decide_eq_true_iff]
  rfl

/-- VLD writes the array at byte 4 × IMM into the active elements of VD. -/
theorem exec_vld_writes (c : CoreId) (w : VWord) (s : State) (ty : VTy) (h : s.vecReady c (.vld c w) w ty [(ty, w.vd, nOf w)])
    (hr : 4 * w.imm.toNat + nOf w * ty.bytes ≤ 2 ^ 21) (hb : (s.core c).bad (4 * w.imm.toNat) (nOf w * ty.bytes) = false) :
    ∃ t, exec (.vld c w) s = .next t ∧
      (s.core c).vec.wrote (t.core c).vec ty w.vd (activeOf (s.core c).vec w)
        (fun j => sx ty.bits ((s.core c).buf.rdLe (4 * w.imm.toNat + j * ty.bytes) ty.bytes)) ∧
      s.vecDone t c (costMem w) (activeOf (s.core c).vec w).length 0 := by
  obtain ⟨hh, ht, hg⟩ := h
  have ho : vLoad (s.vecCtx c) w (s.core c).vec = .ok _ :=
    (withType_eq _ ht rfl).trans ((withGroups_eq _ hg).trans (if_neg (Nat.not_lt.mpr hr)))
  obtain ⟨hf, hd⟩ := s.vec_ok (k := .masked) (cost := costMem) hh ho (State.consume_range_good hb)
  refine ⟨_, rfl, ?_, hd⟩
  rw [hf]
  exact VFile.wrote_congr (VFile.setAll_wrote ..) fun j _ => wrapW_sx _ _

/-- VLDX writes the elements at the addresses of VB, 0 for one outside the core buffer. -/
theorem exec_vldx_writes (c : CoreId) (w : VWord) (s : State) (ty : VTy)
    (h : s.vecReady c (.vldx c w) w ty [(ty, w.vd, nOf w), (.i32, w.vb, nOf w)]) (hb : (s.core c).bufBad = []) :
    ∃ t, exec (.vldx c w) s = .next t ∧
      (s.core c).vec.wrote (t.core c).vec ty w.vd (activeOf (s.core c).vec w) (fun j =>
        if 0 ≤ ldxAddr ty w (s.core c).vec j ∧ ldxAddr ty w (s.core c).vec j < 2 ^ 21
          then sx ty.bits ((s.core c).buf.rdLe (ldxAddr ty w (s.core c).vec j).toNat ty.bytes) else 0) ∧
      s.vecDone t c (costPer 4 16 w) (activeOf (s.core c).vec w).length 0 := by
  obtain ⟨hh, ht, hg⟩ := h
  have ho : vLoadX (s.vecCtx c) w (s.core c).vec = .ok _ := (withType_eq _ ht rfl).trans (withGroups_eq _ hg)
  obtain ⟨hf, hd⟩ := s.vec_ok (k := .masked) (cost := costPer 4 16) hh ho (State.consume_good _ _ _ hb)
  refine ⟨_, rfl, ?_, hd⟩
  rw [hf]
  refine VFile.wrote_congr (VFile.setAll_wrote ..) fun j _ => ?_
  by_cases hin : 0 ≤ ldxAddr ty w (s.core c).vec j ∧ ldxAddr ty w (s.core c).vec j < 2 ^ 21
  · rw [if_pos hin, if_pos (inBuf_iff.mpr hin)]
    exact wrapW_sx _ _
  · rw [if_neg hin, if_neg (mt inBuf_iff.mp hin)]
    exact wrapW_zero _

/-- VLUTLD brings 2 KiB into its lookup slot. -/
theorem exec_vlutld_loads (c : CoreId) (w : VWord) (s : State) (ty : VTy) (h : s.vecReady c (.vlutld c w) w ty [])
    (hr : 64 * immF w 0 15 + 2048 ≤ 2 ^ 21) (hb : (s.core c).bad (64 * immF w 0 15) 2048 = false) :
    ∃ t, exec (.vlutld c w) s = .next t ∧
      (t.core c).vec = (s.core c).vec.setLut (immF w 15 3) (BitVec.ofNat 16384 ((s.core c).buf.rdLe (64 * immF w 0 15) 2048)) ∧
      s.vecDone t c 36 0 0 := by
  obtain ⟨hh, ht, -⟩ := h
  have ho : vLutLoad (s.vecCtx c) w (s.core c).vec = .ok _ := (withType_eq _ ht rfl).trans (if_neg (Nat.not_lt.mpr hr))
  obtain ⟨hf, hd⟩ := s.vec_ok (k := .zero) (cost := fun _ => 36) hh ho (State.consume_range_good hb)
  exact ⟨_, rfl, hf, hd⟩

/-- VST stores the active elements of VA; its counters move on and nothing else of the machine changes. -/
theorem exec_vst_stores (c : CoreId) (w : VWord) (s : State) (ty : VTy) (h : s.vecReady c (.vst c w) w ty [(ty, w.va, nOf w)])
    (hr : 4 * w.imm.toNat + nOf w * ty.bytes ≤ 2 ^ 21) :
    ∃ t, exec (.vst c w) s = .next t ∧
      (s.core c).buf.storedAt (t.core c).buf (4 * w.imm.toNat) ty.bytes (activeOf (s.core c).vec w) ((s.core c).vec.getU ty w.va) ∧
      (t.core c).vec = (s.core c).vec ∧ t.ctr (Ct.VEC_BUSY_CYCLES c) = (s.ctr (Ct.VEC_BUSY_CYCLES c)).plus (costMem w) ∧
      t.ctr (Ct.VEC_ELEMENTS c) = (s.ctr (Ct.VEC_ELEMENTS c)).plus (activeOf (s.core c).vec w).length ∧
      s.sameCtrs t [Ct.VEC_BUSY_CYCLES c, Ct.VEC_ELEMENTS c] ∧ s.sameRegs t [] ∧ (∀ d, d ≠ c.val → t.core d = s.core d) ∧ t.mem = s.mem ∧
      t.host = s.host ∧ ∀ k, (t.cluster k).cache = (s.cluster k).cache := by
  obtain ⟨hh, ht, hg⟩ := h
  have hg : groupOk ty w.va (nOf w) := hg _ (List.mem_singleton.mpr rfl)
  obtain ⟨p, b, -, he⟩ := s.issue_atHead (runVst c w) hh
  rw [runVst_eq ht hg hr, if_pos rfl] at he
  have hBE : Ct.VEC_ELEMENTS c ≠ Ct.VEC_BUSY_CYCLES c := by simp [Ct.VEC_ELEMENTS, Ct.VEC_BUSY_CYCLES]
  refine ⟨_, congrArg Host.Outcome.next he, ?_, ?_, ?_, ?_, fun a ha => ?_, fun a _ => ?_, fun d hd => ?_, ?_, ?_, fun k => ?_⟩
  · rw [State.complete_buf, State.count_core, State.count_core, State.core_modCore_same]
    exact CoreSt.vstWrite_storedAt _ _ _
  · rw [State.complete_vec, State.count_core, State.count_core, State.core_modCore_same, CoreSt.vstWrite_vec]
  · rw [State.complete_ctr, State.ctr_count_ne _ _ hBE, State.ctr_count_same, State.modCore_ctr]
  · rw [State.complete_ctr, State.ctr_count_same, State.ctr_count_ne _ _ hBE.symm, State.modCore_ctr]
  · simp only [List.mem_cons, List.not_mem_nil, or_false, not_or] at ha
    rw [State.complete_ctr, State.ctr_count_ne _ _ (Ne.symm ha.2), State.ctr_count_ne _ _ (Ne.symm ha.1), State.modCore_ctr]
  · simp
  · rw [State.complete_core_ne _ _ _ (Ne.symm hd), State.count_core, State.count_core, State.core_modCore_ne _ _ (Ne.symm hd)]
  · simp
  · simp
  · simp

/-- Settles O21, instruction by instruction. -/
theorem vectorLoadsAndStores : Obligations.VectorLoadsAndStores := by
  unfold Obligations.VectorLoadsAndStores
  refine ⟨exec_vld_writes, exec_vldx_writes, fun c w s ty h hr hb => ?_, fun c w s ty h hr => ?_⟩
  · obtain ⟨t, he, hv, hd⟩ := exec_vlutld_loads c w s ty h hr hb
    refine ⟨t, he, ?_, fun n hn => ?_, fun n => ?_, fun n => ?_, hd⟩
    · rw [hv, VFile.lut_setLut_same]
    · rw [hv, VFile.lut_setLut_ne _ _ (Ne.symm hn)]
    · rw [hv, VFile.reg_setLut]
    · rw [hv, VFile.mask_setLut]
  · obtain ⟨t, he, ⟨hv, hf⟩, hrest⟩ := exec_vst_stores c w s ty h hr
    exact ⟨t, he, hv, hf, hrest⟩

end Sys2Proof.Machine
end

section
/-! PROOFS. Reads and writes of registers over BAR0, BAR4 and the management path (R12 to R14, R17, R434, R449). -/

namespace Sys2Proof.Machine

/-! ### Words and lanes of an access (R12) -/

/-- An access within one word reaches that word. -/
theorem accessWords_within {o n : Nat} (h1 : 1 ≤ n) (h2 : o % 4 + n ≤ 4) : accessWords o n = [o / 4 * 4] := by
  have e0 : o / 4 * 4 + 4 * 0 < o + n := by omega
  have e1 : ¬ o / 4 * 4 + 4 * 1 < o + n := by omega
  have e2 : ¬ o / 4 * 4 + 4 * 2 < o + n := by omega
  rw [accessWords, show List.range 3 = [0, 1, 2] from rfl]
  simp only [List.filterMap_cons, List.filterMap_nil, if_pos e0, if_neg e1, if_neg e2]
  rfl

/-- An access of a whole word reaches that word. -/
theorem accessWords_four {o : Nat} (h : o % 4 = 0) : accessWords o 4 = [o] := by
  rw [accessWords_within (by omega) (by omega), Nat.div_mul_cancel (Nat.dvd_of_mod_eq_zero h)]

/-- An access of two words reaches both, the lower first. -/
theorem accessWords_eight {o : Nat} (h : o % 4 = 0) : accessWords o 8 = [o, o + 4] := by
  have e0 : o / 4 * 4 + 4 * 0 < o + 8 := by omega
  have e1 : o / 4 * 4 + 4 * 1 < o + 8 := by omega
  have e2 : ¬ o / 4 * 4 + 4 * 2 < o + 8 := by omega
  rw [accessWords, show List.range 3 = [0, 1, 2] from rfl]
  simp only [List.filterMap_cons, List.filterMap_nil, if_pos e0, if_pos e1, if_neg e2]
  rw [Nat.div_mul_cancel (Nat.dvd_of_mod_eq_zero h)]
  rfl

/-- A word that an access covers has all its bytes enabled, and takes the data from their place. -/
theorem laneBits_covered {o n a : Nat} (x : BitVec 64) (h1 : o ≤ a) (h2 : a + 4 ≤ o + n) :
    laneBits o n x a = (BitVec.allOnes 32, BitVec.ofNat 32 (leNat (leBytes 4 (x.toNat >>> (8 * (a - o)))))) := by
  have hb : ((List.range 4).map fun j =>
      if o ≤ a + j ∧ a + j < o + n then ((0xFF : Nat), (x.extractLsb' (8 * (a + j - o)) 8).toNat) else (0, 0)) =
      (List.range 4).map fun j => (0xFF, (x.extractLsb' (8 * (a + j - o)) 8).toNat) :=
    List.map_congr_left fun j hj => if_pos (by have := List.mem_range.mp hj; omega)
  unfold laneBits
  rw [hb]
  simp only [List.map_map, Function.comp_def]
  rw [Prod.mk.injEq]
  refine ⟨by decide, ?_⟩
  dsimp only [leBytes]
  congr 2
  refine List.map_congr_left fun j hj => BitVec.eq_of_toNat_eq ?_
  simp only [BitVec.extractLsb'_toNat, BitVec.toNat_ofNat, Nat.mod_mod, ← Nat.shiftRight_add]
  rw [show 8 * (a - o) + 8 * j = 8 * (a + j - o) by omega]

/-- Every bit of a word that an access covers is enabled. -/
theorem laneBits_on {o n a : Nat} (x : BitVec 64) (h1 : o ≤ a) (h2 : a + 4 ≤ o + n) : (laneBits o n x a).1 = BitVec.allOnes 32 := by
  rw [laneBits_covered x h1 h2]

/-- A write of one word takes the low 32 bits of the data. -/
theorem laneBits_word (a : Nat) (x : BitVec 64) : laneBits a 4 x a = (BitVec.allOnes 32, x.setWidth 32) := by
  rw [laneBits_covered x (Nat.le_refl a) (Nat.le_refl _), Nat.sub_self, leNat_leBytes]
  refine Prod.ext rfl (BitVec.eq_of_toNat_eq ?_)
  simp

/-! ### Word addresses -/

/-- What a choice gives has a property where both branches give it. -/
theorem forall_ite_eq_some {β : Type} {P : β → Prop} {c : Prop} [Decidable c] {x y : Option β} (hx : c → ∀ b, x = some b → P b)
    (hy : ¬ c → ∀ b, y = some b → P b) : ∀ b, (if c then x else y) = some b → P b := by
  split
  · exact hx ‹_›
  · exact hy ‹_›

/-- A block begins at a word, at or below the offsets that it holds (R440, R441). -/
theorem decodeBlk_base (a : Nat) : ∀ p : Blk × Nat, decodeBlk a = some p → p.2 % 4 = 0 ∧ p.2 ≤ a := by
  unfold decodeBlk
  repeat' refine forall_ite_eq_some (fun _ => ?_) fun _ => ?_
  all_goals simp only [Option.some.injEq, forall_eq', reduceCtorEq, false_implies, implies_true, dieBase, clusterBase, coreBase, engBase,
    memDieBase, stackBase, channelBase, true_and]
  all_goals omega

/-- Registers and the elements of register arrays lie at whole words. -/
theorem Blk.regs_aligned (b : Blk) : ∀ r ∈ b.regs, r.off % 4 = 0 ∧ r.stride % 4 = 0 := by
  cases b <;> decide

theorem RegDef.indexOf_aligned {r : RegDef} {o : Nat} (hr : r.off % 4 = 0 ∧ r.stride % 4 = 0) (h : (r.indexOf o).isSome) : o % 4 = 0 := by
  unfold RegDef.indexOf at h
  split at h
  · split at h
    · omega
    · exact nomatch h
  · split at h
    · rename_i hc
      obtain ⟨h1, h2, -⟩ := hc
      have : (o - r.off) % 4 = 0 := Nat.mod_eq_zero_of_dvd ((Nat.dvd_of_mod_eq_zero hr.2).trans (Nat.dvd_of_mod_eq_zero h2))
      omega
    · exact nomatch h

/-- A counter's low half lies at a whole word. -/
theorem regAt_counterLo_aligned {a : Nat} (h : regAt a = .counterLo) : a % 4 = 0 := by
  unfold regAt at h
  split at h
  · exact nomatch h
  · rename_i b base hd
    obtain ⟨h4, hle⟩ := decodeBlk_base a _ hd
    dsimp only at h
    split at h
    · rename_i r hf
      have := RegDef.indexOf_aligned (b.regs_aligned r (List.mem_of_find?_eq_some hf)) (by simpa using List.find?_some hf)
      omega
    · split at h <;> exact nomatch h


/-! ### The words that a read returns

A read appends its words to `ret`; everything else that it does is the same whatever `ret` holds. -/

/-- The state with `l` as the words returned. -/
def State.withRet (s : State) (l : List (BitVec 32)) : State := { s with ret := l }

section
variable (s : State) (l : List (BitVec 32))

@[simp] theorem State.withRet_self : s.withRet s.ret = s := (rfl)
@[simp] theorem State.withRet_withRet (l' : List (BitVec 32)) : (s.withRet l).withRet l' = s.withRet l' := (rfl)
@[simp] theorem State.ret_withRet : (s.withRet l).ret = l := (rfl)
@[simp] theorem State.now_withRet : (s.withRet l).now = s.now := (rfl)
@[simp] theorem State.jsp_withRet : (s.withRet l).jsp = s.jsp := (rfl)
@[simp] theorem State.power_withRet : (s.withRet l).power = s.power := (rfl)
@[simp] theorem State.fld_withRet (f : Fld) : (s.withRet l).fld f = s.fld f := (rfl)
@[simp] theorem State.rd_withRet (a : Nat) : (s.withRet l).rd a = s.rd a := (rfl)
@[simp] theorem State.powerState_withRet : (s.withRet l).powerState = s.powerState := (rfl)
@[simp] theorem State.shown_withRet (a : Nat) : (s.withRet l).shown a = s.shown a := (rfl)
@[simp] theorem State.pathServes_withRet (m : Bool) (a : Nat) : (s.withRet l).pathServes m a = s.pathServes m a := (rfl)
@[simp] theorem State.inReset_withRet (a : Nat) : (s.withRet l).inReset a = s.inReset a := (rfl)
@[simp] theorem State.poweredOff_withRet (a : Nat) : (s.withRet l).poweredOff a = s.poweredOff a := (rfl)
@[simp] theorem State.bar0Place_withRet (fn a : Nat) : (s.withRet l).bar0Place fn a = s.bar0Place fn a := (rfl)
theorem State.setFld_withRet (f : Fld) (v : Nat) : (s.withRet l).setFld f v = (s.setFld f v).withRet l := (rfl)
theorem State.raise_withRet (f : Fld) : (s.withRet l).raise f = (s.raise f).withRet l := (rfl)
theorem State.wr_withRet (a : Nat) (v : BitVec 32) : (s.withRet l).wr a v = (s.wr a v).withRet l := (rfl)
theorem State.modPower_withRet (f : PowerSt → PowerSt) : (s.withRet l).modPower f = (s.modPower f).withRet l := (rfl)
theorem State.notIdle_withRet : (s.withRet l).notIdle = s.notIdle.withRet l := (rfl)
theorem State.stackState_withRet (k v : Nat) : (s.withRet l).stackState k v = (s.stackState k v).withRet l := by
  unfold State.stackState
  simp only [State.setFld_withRet, State.fld_withRet]

theorem State.each_withRet {α : Type} (xs : List α) (f : State → α → State)
    (h : ∀ (t : State) (x : α), f (t.withRet l) x = (f t x).withRet l) : (s.withRet l).each xs f = (s.each xs f).withRet l := by
  induction xs generalizing s with
  | nil => rfl
  | cons x xs ih => rw [State.each_cons, h, ih, State.each_cons]

theorem State.beginWake_withRet : (s.withRet l).beginWake = s.beginWake.withRet l := by
  unfold State.beginWake
  simp only [State.powerState_withRet, State.fld_withRet, State.now_withRet, State.raise_withRet, State.modPower_withRet]
  split
  · rfl
  · split
    · refine State.each_withRet _ _ _ _ fun t k => ?_
      rw [State.each_withRet _ _ _ _ fun t c => State.setFld_withRet t l _ _, State.stackState_withRet]
    · rfl

theorem State.wakeAccess_withRet (a : Nat) : (s.withRet l).wakeAccess a = (s.wakeAccess a).withRet l := by
  unfold State.wakeAccess
  rw [State.poweredOff_withRet, State.notIdle_withRet, State.beginWake_withRet]
  split <;> rfl

theorem State.giveJasper_withRet (e : JReq) : (s.withRet l).giveJasper e = (s.giveJasper e).withRet l := by
  unfold State.giveJasper State.withRet
  dsimp only
  split <;> rfl

theorem State.bridgeDiscard_withRet (k a : Nat) : (s.withRet l).bridgeDiscard k a = (s.bridgeDiscard k a).withRet l := by
  unfold State.bridgeDiscard
  rw [State.power_withRet, State.modPower_withRet]
  split
  · rfl
  · exact State.giveJasper_withRet _ _ _

theorem State.syncResidency_withRet : (s.withRet l).syncResidency = s.syncResidency.withRet l := by
  unfold State.syncResidency
  simp only [State.powerState_withRet, State.now_withRet, State.power_withRet]
  split
  · rfl
  · split <;> rfl

theorem State.syncSeconds_withRet : (s.withRet l).syncSeconds = s.syncSeconds.withRet l := by
  unfold State.syncSeconds
  simp only [State.jsp_withRet, State.now_withRet]
  split <;> rfl

theorem State.latchRead_withRet (b : Blk) (off i : Nat) : (s.withRet l).latchRead b off i = (s.latchRead b off i).withRet l := by
  cases b
  case obj =>
    dsimp only [State.latchRead]
    split
    · exact State.each_withRet _ _ _ _ fun t w => State.setFld_withRet t l _ _
    · rfl
  case onyx =>
    dsimp only [State.latchRead]
    split <;> rfl
  case jsp => exact State.syncSeconds_withRet s l
  all_goals rfl

/-- Reading a word leaves to `ret` what it holds. -/
theorem State.readWord_withRet (a : Nat) (on : BitVec 32) (mgmt : Bool) :
    (s.withRet l).readWord a on mgmt = ((s.readWord a on mgmt).1.withRet l, (s.readWord a on mgmt).2) := by
  unfold State.readWord
  split
  · rfl
  · simp only [State.syncResidency_withRet]
    cases mgmt <;> rfl
  · rfl
  · simp only [State.latchRead_withRet]
    cases mgmt
    · simp only [State.shown_withRet, State.rd_withRet, State.wr_withRet, Bool.false_eq_true, if_false]
      split <;> rfl
    · rfl

theorem State.readAt_withRet (d : Nat) (on : BitVec 32) (mgmt : Bool) :
    (s.withRet l).readAt d on mgmt = ((s.readAt d on mgmt).1.withRet l, (s.readAt d on mgmt).2) := by
  unfold State.readAt
  rw [State.pathServes_withRet, State.inReset_withRet, State.wakeAccess_withRet, State.readWord_withRet]
  split
  · rfl
  · split
    · rw [State.bridgeDiscard_withRet]
    · rfl

/-- The word at `a` of function `fn`'s BAR0 read: 0 where the function has no register there (R445). -/
def State.readPlace (s : State) (fn a : Nat) (on : BitVec 32) (mgmt : Bool) : State × BitVec 32 :=
  match s.bar0Place fn a with
  | none => (s, 0#32)
  | some d => s.readAt d on mgmt

theorem State.readPlace_withRet (fn a : Nat) (on : BitVec 32) (mgmt : Bool) :
    (s.withRet l).readPlace fn a on mgmt = ((s.readPlace fn a on mgmt).1.withRet l, (s.readPlace fn a on mgmt).2) := by
  unfold State.readPlace
  rw [State.bar0Place_withRet]
  split
  · rfl
  · exact State.readAt_withRet s l _ on mgmt

/-- One word of a read: its bytes follow those returned so far. -/
def State.readLane (fn ofs n : Nat) (mgmt : Bool) (s : State) (a : Nat) : State :=
  let on := (laneBits ofs n 0#64 a).1
  (s.readPlace fn a on mgmt).1.withRet (s.ret ++ [((s.readPlace fn a on mgmt).2 &&& on) >>> (8 * (ofs - a))])

theorem State.readPlace_ret (fn a : Nat) (on : BitVec 32) (mgmt : Bool) : (s.readPlace fn a on mgmt).1.ret = s.ret := by
  have h := congrArg (fun r => r.1.ret) (s.readPlace_withRet s.ret fn a on mgmt)
  simpa using h

theorem State.readReg_eq (fn ofs n : Nat) (mgmt : Bool) :
    s.readReg fn ofs n mgmt = (accessWords ofs n).foldl (State.readLane fn ofs n mgmt) (s.withRet []) := by
  unfold State.readReg
  refine congrArg (fun f => List.foldl f _ _) (funext fun t => funext fun a => ?_)
  unfold State.readLane
  rw [← t.readPlace_ret fn a (laneBits ofs n 0#64 a).1 mgmt]
  rfl

/-- A read within one word. -/
theorem State.readReg_one {ofs n : Nat} (h1 : 1 ≤ n) (h2 : ofs % 4 + n ≤ 4) (fn : Nat) (mgmt : Bool) :
    s.readReg fn ofs n mgmt =
      let on := (laneBits ofs n 0#64 (ofs / 4 * 4)).1
      let r := s.readPlace fn (ofs / 4 * 4) on mgmt
      r.1.withRet [(r.2 &&& on) >>> (8 * (ofs - ofs / 4 * 4))] := by
  rw [State.readReg_eq, accessWords_within h1 h2, List.foldl_cons, List.foldl_nil, State.readLane, State.readPlace_withRet]
  rfl

/-- A read of one whole word. -/
theorem State.readReg_word {ofs : Nat} (h : ofs % 4 = 0) (fn : Nat) (mgmt : Bool) :
    s.readReg fn ofs 4 mgmt =
      (s.readPlace fn ofs (BitVec.allOnes 32) mgmt).1.withRet [(s.readPlace fn ofs (BitVec.allOnes 32) mgmt).2] := by
  rw [State.readReg_one s (by omega) (by omega), Nat.div_mul_cancel (Nat.dvd_of_mod_eq_zero h), laneBits_on 0#64 (Nat.le_refl _) (Nat.le_refl _)]
  simp only [BitVec.and_allOnes, Nat.sub_self, Nat.mul_zero, BitVec.ushiftRight_zero]

/-- A read of two words is one of the lower and then one of the upper. -/
theorem State.readReg_two {ofs : Nat} (h : ofs % 4 = 0) (fn : Nat) (mgmt : Bool) :
    s.readReg fn ofs 8 mgmt =
      let t := s.readReg fn ofs 4 mgmt
      let u := t.readReg fn (ofs + 4) 4 mgmt
      u.withRet (t.ret ++ u.ret) := by
  simp only [State.readReg_word s h, State.readReg_word _ (by omega : (ofs + 4) % 4 = 0)]
  rw [State.readReg_eq, accessWords_eight h]
  simp only [List.foldl_cons, List.foldl_nil, State.readLane, laneBits_on 0#64 (Nat.le_refl ofs) (by omega : ofs + 4 ≤ ofs + 8),
    laneBits_on 0#64 (by omega : ofs ≤ ofs + 4) (by omega : ofs + 4 + 4 ≤ ofs + 8), State.readPlace_withRet, State.withRet_withRet]
  simp only [State.ret_withRet, List.nil_append, List.cons_append, BitVec.and_allOnes, Nat.sub_self, Nat.sub_self_add, Nat.mul_zero,
    BitVec.ushiftRight_zero]

end


section
variable (s : State)

/-! ### What a read meets on its way -/

/-- Where the parts that hold bytes are the same, so is every byte. -/
theorem State.sameMemory_of_parts {s t : State} (hm : t.mem = s.mem) (hh : t.host = s.host) (hb : t.boot = s.boot) (hc : t.cores = s.cores)
    (hk : t.clusters = s.clusters) : s.sameMemory t :=
  ⟨hm, hh, by rw [hb], by rw [hb], fun c => by rw [State.core, hc]; rfl, fun k => by rw [State.cluster, hk]; rfl⟩

/-- A block that is powered on is in no group in reset (R391). -/
theorem State.inReset_of_powered {a : Nat} (h : s.poweredOff a = false) : s.inReset a = none := by
  unfold State.poweredOff at h
  unfold State.inReset
  cases hd : decodeBlk a with
  | none => rfl
  | some p =>
    rw [hd] at h
    dsimp only at h ⊢
    by_cases hc : inCluster p.1
    · rw [if_pos hc] at h
      simp [h]
    · simp [hc]

theorem State.wakeAccess_of_powered {a : Nat} (h : s.poweredOff a = false) : s.wakeAccess a = s := by
  simp [State.wakeAccess, h]

/-- The object table, Onyx and the recorder are never powered off (R408). -/
theorem State.poweredOff_of_always {a base : Nat} {b : Blk} (hd : decodeBlk a = some (b, base)) (hb : b = .obj ∨ b = .onyx ∨ b = .jsp) :
    s.poweredOff a = false := by
  unfold State.poweredOff
  rw [hd]
  rcases hb with rfl | rfl | rfl <;> simp [inCluster]

theorem State.readAt_unserved {d : Nat} {mgmt : Bool} (on : BitVec 32) (h : s.pathServes mgmt d = false) : s.readAt d on mgmt = (s, 0#32) := by
  simp [State.readAt, h]

theorem State.readAt_inReset {d k : Nat} {mgmt : Bool} (on : BitVec 32) (h : s.pathServes mgmt d = true) (hk : s.inReset d = some k) :
    s.readAt d on mgmt = (s.bridgeDiscard k d, 0#32) := by
  simp [State.readAt, h, hk]

theorem State.readAt_powered {d : Nat} {mgmt : Bool} (on : BitVec 32) (h : s.pathServes mgmt d = true) (hp : s.poweredOff d = false) :
    s.readAt d on mgmt = s.readWord d on mgmt := by
  simp [State.readAt, h, s.inReset_of_powered hp, s.wakeAccess_of_powered hp]

/-- A function that does not exist has no register (R445). -/
theorem State.readPlace_absent {fn : Nat} (a : Nat) (on : BitVec 32) (mgmt : Bool) (h : s.hostq.numVfs < fn) :
    s.readPlace fn a on mgmt = (s, 0#32) := by
  have hp : s.bar0Place fn a = none := by simp [State.bar0Place, show fn ≠ 0 by omega, show ¬ fn ≤ s.hostq.numVfs by omega]
  simp [State.readPlace, hp]

/-- The PF's offsets are the device's own (R445). -/
theorem State.readPlace_pf (a : Nat) (on : BitVec 32) (mgmt : Bool) : s.readPlace 0 a on mgmt = s.readAt a on mgmt := rfl

/-- A VF's offset stands for one of the device's (R445). -/
theorem State.readPlace_vf {fn a d : Nat} (on : BitVec 32) (mgmt : Bool) (h1 : 1 ≤ fn) (h2 : fn ≤ s.hostq.numVfs) (hd : vfOffset fn a = some d) :
    s.readPlace fn a on mgmt = s.readAt d on mgmt := by
  have hp : s.bar0Place fn a = some d := by simp [State.bar0Place, show fn ≠ 0 by omega, h2, hd]
  simp [State.readPlace, hp]

theorem State.readBar_bar0 {r : RegRead} (mgmt : Bool) (h : r.bar4 = false) :
    s.readBar r mgmt = s.readReg r.fn.val r.ofs.toNat r.size.val mgmt := by
  simp [State.readBar, h]

/-- The PF, or management firmware, reads within a word that its path serves and that is powered. -/
theorem State.readBar_within {r : RegRead} {mgmt : Bool} (hb : r.bar4 = false) (hf : r.fn.val = 0) (h1 : 1 ≤ r.size.val)
    (h2 : r.ofs.toNat % 4 + r.size.val ≤ 4) (hs : s.pathServes mgmt (r.ofs.toNat / 4 * 4) = true)
    (hp : s.poweredOff (r.ofs.toNat / 4 * 4) = false) :
    s.readBar r mgmt =
      let a := r.ofs.toNat / 4 * 4
      let on := (laneBits r.ofs.toNat r.size.val 0#64 a).1
      (s.readWord a on mgmt).1.withRet [((s.readWord a on mgmt).2 &&& on) >>> (8 * (r.ofs.toNat - a))] := by
  rw [State.readBar_bar0 s mgmt hb, State.readReg_one s h1 h2, hf]
  simp only [State.readPlace_pf, State.readAt_powered s _ hs hp]

/-- The same of a whole word. -/
theorem State.readBar_word {r : RegRead} {mgmt : Bool} (hb : r.bar4 = false) (hf : r.fn.val = 0) (hz : r.size.val = 4)
    (ha : r.ofs.toNat % 4 = 0) (hs : s.pathServes mgmt r.ofs.toNat = true) (hp : s.poweredOff r.ofs.toNat = false) :
    s.readBar r mgmt = (s.readWord r.ofs.toNat (BitVec.allOnes 32) mgmt).1.withRet [(s.readWord r.ofs.toNat (BitVec.allOnes 32) mgmt).2] := by
  rw [State.readBar_bar0 s mgmt hb, hz, State.readReg_word s ha, hf, State.readPlace_pf, State.readAt_powered s _ hs hp]

/-! ### Reads that their path does not serve, reads of a VF, reads of 8 bytes -/

/-- What a path does not serve reads 0 and changes nothing else (R364, R367, R445). -/
theorem exec_read_unserved (r : RegRead) (mgmt : Bool) (i : Instr) (s : State) (hi : i = .counterLowRead r mgmt ∨ i = .rcRead r mgmt)
    (hb : r.bar4 = false) (h1 : 1 ≤ r.size.val) (h2 : r.ofs.toNat % 4 + r.size.val ≤ 4)
    (h : s.hostq.numVfs < r.fn.val ∨ r.fn.val = 0 ∧ s.pathServes mgmt (r.ofs.toNat / 4 * 4) = false) :
    exec i s = .next { s with ret := [0#32] } := by
  have he : exec i s = .next (s.readBar r mgmt) := by rcases hi with rfl | rfl <;> rfl
  have hz : ∀ on, s.readPlace r.fn.val (r.ofs.toNat / 4 * 4) on mgmt = (s, 0#32) := fun on => by
    rcases h with h | ⟨hf, hs⟩
    · exact s.readPlace_absent _ on mgmt h
    · rw [hf, State.readPlace_pf, State.readAt_unserved s on hs]
  rw [he, State.readBar_bar0 s mgmt hb, State.readReg_one s h1 h2]
  simp only [hz, BitVec.zero_and, BitVec.zero_ushiftRight]
  rfl

/-- The device's offset of a VF's word is a word of the map (R445). -/
theorem vfOffset_word {v o d : Nat} (h : vfOffset v o = some d) (hv : v ≤ 16) (ho : o % 4 = 0) : d % 4 = 0 ∧ d < 2 ^ 28 := by
  revert h
  unfold vfOffset
  dsimp only
  split
  · rintro ⟨⟩; omega
  · split
    · rintro ⟨⟩; omega
    · split
      · rintro ⟨⟩; omega
      · exact fun h => nomatch h

/-- A VF reads the registers of the PF's map that its own offsets stand for (R445). -/
theorem exec_rcRead_vf (r : RegRead) (d : Nat) (s : State) (hb : r.bar4 = false) (hz : r.size.val = 4) (ha : r.ofs.toNat % 4 = 0)
    (h1 : 1 ≤ r.fn.val) (h2 : r.fn.val ≤ s.hostq.numVfs) (hd : vfOffset r.fn.val r.ofs.toNat = some d) :
    exec (.rcRead r false) s = exec (.rcRead { r with fn := 0, ofs := BitVec.ofNat 28 d } false) s := by
  obtain ⟨hd4, hlt⟩ := vfOffset_word hd (Nat.le_of_lt_succ r.fn.isLt) ha
  have ho : (BitVec.ofNat 28 d).toNat = d := by rw [BitVec.toNat_ofNat, Nat.mod_eq_of_lt hlt]
  refine congrArg Host.Outcome.next ?_
  rw [State.readBar_bar0 s false hb, State.readBar_bar0 (r := { r with fn := 0, ofs := BitVec.ofNat 28 d }) s false hb]
  simp only [hz, ho]
  rw [State.readReg_word s ha, State.readReg_word s hd4, State.readPlace_vf s _ false h1 h2 hd]
  rfl

/-- A read of 8 bytes is one of the lower word and then one of the upper (R12, log entry 70). -/
theorem exec_rcRead_two (r : RegRead) (mgmt : Bool) (s : State) (hb : r.bar4 = false) (hz : r.size.val = 8) (ha : r.ofs.toNat % 8 = 0)
    (hlt : r.ofs.toNat + 8 < 2 ^ 28) :
    ∃ t u, exec (.rcRead { r with size := 4 } mgmt) s = .next t ∧ exec (.rcRead { r with ofs := r.ofs + 4#28, size := 4 } mgmt) t = .next u ∧
      exec (.rcRead r mgmt) s = .next { u with ret := t.ret ++ u.ret } := by
  have ho : (r.ofs + 4#28).toNat = r.ofs.toNat + 4 := by
    rw [BitVec.toNat_add, BitVec.toNat_ofNat, Nat.mod_eq_of_lt (show 4 < 2 ^ 28 by omega), Nat.mod_eq_of_lt (by omega)]
  refine ⟨_, _, congrArg Host.Outcome.next (s.readBar_bar0 mgmt hb), congrArg Host.Outcome.next (State.readBar_bar0 _ mgmt hb), ?_⟩
  refine congrArg Host.Outcome.next ?_
  rw [State.readBar_bar0 s mgmt hb, hz, State.readReg_two s (by omega), ho]
  rfl

/-! ### Counters (R434) -/

/-- In S0 no residency counter moves on (R418). -/
theorem State.syncResidency_of_S0 (h : s.powerState = 0) : s.syncResidency = s.modPower fun p => { p with resAt := s.now } := if_pos h

/-- The low half of a counter read by the host latches its high half for the host. -/
theorem State.readWord_counterLo_host {a : Nat} (on : BitVec 32) (h : regAt a = .counterLo) (h0 : s.powerState = 0) :
    s.readWord a on false = ({ s.modPower fun p => { p with resAt := s.now } with latchHost := NMap.set 0#32 s.latchHost a (s.ctr a).high },
      (s.ctr a).val.setWidth 32) := by
  unfold State.readWord
  rw [h, State.syncResidency_of_S0 s h0]
  rfl

/-- Read by management firmware it latches for management firmware. -/
theorem State.readWord_counterLo_mgmt {a : Nat} (on : BitVec 32) (h : regAt a = .counterLo) (h0 : s.powerState = 0) :
    s.readWord a on true = ({ s.modPower fun p => { p with resAt := s.now } with latchMgmt := NMap.set 0#32 s.latchMgmt a (s.ctr a).high },
      (s.ctr a).val.setWidth 32) := by
  unfold State.readWord
  rw [h, State.syncResidency_of_S0 s h0]
  rfl

/-- The high half reads as it was latched for the host. -/
theorem State.readWord_counterHi_host {a lo : Nat} (on : BitVec 32) (h : regAt a = .counterHi lo) :
    s.readWord a on false = (s, NMap.get 0#32 s.latchHost lo) := by
  unfold State.readWord
  rw [h]
  rfl

/-! ### Words of fields (R12, R13) -/

/-- Blocks whose reads latch nothing. -/
theorem State.latchRead_none {b : Blk} (off i : Nat) (h1 : b ≠ .obj) (h2 : b ≠ .onyx) (h3 : b ≠ .jsp) : s.latchRead b off i = s := by
  unfold State.latchRead
  split
  · exact absurd rfl h1
  · exact absurd rfl h2
  · exact absurd rfl h3
  · rfl

/-- The host's read clears the RC fields that it reaches, and sees no WO field. -/
theorem State.readWord_word_host {a i : Nat} {b : Blk} {d : RegDef} (on : BitVec 32) (h : regAt a = .word b d i) :
    s.readWord a on false =
      let t := s.latchRead b d.off i
      let rc := d.mask on (· == .rc)
      (if rc = 0#32 then t else t.wr a (t.rd a &&& ~~~rc), t.shown a &&& ~~~(d.mask on (· == .wo))) := by
  unfold State.readWord
  rw [h]
  rfl

/-- Management firmware's read shows and clears its own copies of the RC fields. -/
theorem State.readWord_word_mgmt {a i : Nat} {b : Blk} {d : RegDef} (on : BitVec 32) (h : regAt a = .word b d i) :
    s.readWord a on true =
      let t := s.latchRead b d.off i
      let rc := d.mask on (· == .rc)
      ({ t with rcMgmt := NMap.set 0#32 t.rcMgmt a (t.rdMgmt a &&& ~~~rc) },
        (t.shown a &&& ~~~(rc ||| d.mask on (· == .wo))) ||| (t.rdMgmt a &&& rc)) := by
  unfold State.readWord
  rw [h]
  rfl

end


section
variable (s : State)

/-- No register word changed but those at the addresses of `as`, and neither a counter nor a byte. -/
def State.sameButRegs (s t : State) (as : List Nat) : Prop := s.sameRegs t as ∧ s.sameCtrs t [] ∧ s.sameMemory t

theorem State.sameMemory_withRet {s t : State} (l : List (BitVec 32)) (h : s.sameMemory t) : s.sameMemory (t.withRet l) := h
theorem State.sameCtrs_withRet {s t : State} {as : List Nat} (l : List (BitVec 32)) (h : s.sameCtrs t as) : s.sameCtrs (t.withRet l) as := h
theorem State.sameRegs_withRet {s t : State} {as : List Nat} (l : List (BitVec 32)) (h : s.sameRegs t as) : s.sameRegs (t.withRet l) as := h

/-- A counter's low half read on the host's path. -/
theorem exec_counterLowRead_host (r : RegRead) (s : State) (hb : r.bar4 = false) (hf : r.fn.val = 0) (hz : r.size.val = 4)
    (h : regAt r.ofs.toNat = .counterLo) (h0 : s.powerState = 0) (hs : s.serves r.ofs.toNat = true) (hp : s.poweredOff r.ofs.toNat = false) :
    ∃ t, exec (.counterLowRead r false) s = .next t ∧ t.ret = [(s.ctr r.ofs.toNat).val.setWidth 32] ∧
      NMap.get 0#32 t.latchHost r.ofs.toNat = (s.ctr r.ofs.toNat).high ∧ t.latchMgmt = s.latchMgmt ∧ s.sameButRegs t [] := by
  refine ⟨_, congrArg Host.Outcome.next (s.readBar_word hb hf hz (regAt_counterLo_aligned h) hs hp), ?_⟩
  rw [State.readWord_counterLo_host s _ h h0]
  exact ⟨rfl, NMap.get_set_same _ _ _ _, rfl, fun _ _ => rfl, fun _ _ => rfl, State.sameMemory_of_parts rfl rfl rfl rfl rfl⟩

/-- A counter's low half read on the management path. -/
theorem exec_counterLowRead_mgmt (r : RegRead) (s : State) (hb : r.bar4 = false) (hf : r.fn.val = 0) (hz : r.size.val = 4)
    (h : regAt r.ofs.toNat = .counterLo) (h0 : s.powerState = 0) (hs : s.servesMgmt r.ofs.toNat = true) (hp : s.poweredOff r.ofs.toNat = false) :
    ∃ t, exec (.counterLowRead r true) s = .next t ∧ t.ret = [(s.ctr r.ofs.toNat).val.setWidth 32] ∧
      NMap.get 0#32 t.latchMgmt r.ofs.toNat = (s.ctr r.ofs.toNat).high ∧ t.latchHost = s.latchHost ∧ s.sameButRegs t [] := by
  refine ⟨_, congrArg Host.Outcome.next (s.readBar_word hb hf hz (regAt_counterLo_aligned h) hs hp), ?_⟩
  rw [State.readWord_counterLo_mgmt s _ h h0]
  exact ⟨rfl, NMap.get_set_same _ _ _ _, rfl, fun _ _ => rfl, fun _ _ => rfl, State.sameMemory_of_parts rfl rfl rfl rfl rfl⟩

/-- A counter's high half read by the host. -/
theorem exec_rcRead_counterHi (r : RegRead) (lo : Nat) (s : State) (hb : r.bar4 = false) (hf : r.fn.val = 0) (hz : r.size.val = 4)
    (ha : r.ofs.toNat % 4 = 0) (h : regAt r.ofs.toNat = .counterHi lo) (hs : s.serves r.ofs.toNat = true) (hp : s.poweredOff r.ofs.toNat = false) :
    ∃ u, exec (.rcRead r false) s = .next u ∧ u.ret = [NMap.get 0#32 s.latchHost lo] := by
  refine ⟨_, congrArg Host.Outcome.next (s.readBar_word hb hf hz ha hs hp), ?_⟩
  rw [State.readWord_counterHi_host s _ h]
  rfl

/-- A host's read of bytes of a word whose read latches nothing. -/
theorem exec_rcRead_word_host (r : RegRead) (b : Blk) (d : RegDef) (i : Nat) (s : State) (hb : r.bar4 = false) (hf : r.fn.val = 0)
    (h1 : 1 ≤ r.size.val) (h2 : r.ofs.toNat % 4 + r.size.val ≤ 4) (h : regAt (r.ofs.toNat / 4 * 4) = .word b d i) (ho : b ≠ .obj)
    (hx : b ≠ .onyx) (hj : b ≠ .jsp) (hs : s.serves (r.ofs.toNat / 4 * 4) = true) (hp : s.poweredOff (r.ofs.toNat / 4 * 4) = false) :
    let a := r.ofs.toNat / 4 * 4
    let en := (laneBits r.ofs.toNat r.size.val 0#64 a).1
    ∃ t, exec (.rcRead r false) s = .next t ∧
      t.ret = [((s.shown a &&& ~~~(d.mask en (· == .wo))) &&& en) >>> (8 * (r.ofs.toNat - a))] ∧
      t.rd a = s.rd a &&& ~~~(d.mask en (· == .rc)) ∧ t.rcMgmt = s.rcMgmt ∧ s.sameButRegs t [a] := by
  intro a en
  refine ⟨_, congrArg Host.Outcome.next (s.readBar_within hb hf h1 h2 hs hp), ?_⟩
  simp only [State.readWord_word_host s _ h, s.latchRead_none _ _ ho hx hj]
  refine ⟨rfl, ?_⟩
  rw [State.rd_withRet]
  split
  · rename_i hrc
    have hrc : d.mask en (· == .rc) = 0#32 := hrc
    exact ⟨by rw [hrc, BitVec.not_zero, BitVec.and_allOnes], rfl, fun _ _ => rfl, fun _ _ => rfl, State.sameMemory_of_parts rfl rfl rfl rfl rfl⟩
  · refine ⟨State.rd_wr_same _ _ _, rfl, fun c hc => ?_, fun _ _ => rfl, State.sameMemory_of_parts rfl rfl rfl rfl rfl⟩
    exact State.rd_wr_ne _ _ fun e => hc (List.mem_singleton.mpr e.symm)

/-- The same by management firmware, on its own copies. -/
theorem exec_rcRead_word_mgmt (r : RegRead) (b : Blk) (d : RegDef) (i : Nat) (s : State) (hb : r.bar4 = false) (hf : r.fn.val = 0)
    (h1 : 1 ≤ r.size.val) (h2 : r.ofs.toNat % 4 + r.size.val ≤ 4) (h : regAt (r.ofs.toNat / 4 * 4) = .word b d i) (ho : b ≠ .obj)
    (hx : b ≠ .onyx) (hj : b ≠ .jsp) (hs : s.servesMgmt (r.ofs.toNat / 4 * 4) = true) (hp : s.poweredOff (r.ofs.toNat / 4 * 4) = false) :
    let a := r.ofs.toNat / 4 * 4
    let en := (laneBits r.ofs.toNat r.size.val 0#64 a).1
    let rc := d.mask en (· == .rc)
    ∃ t, exec (.rcRead r true) s = .next t ∧
      t.ret = [(((s.shown a &&& ~~~(rc ||| d.mask en (· == .wo))) ||| (s.rdMgmt a &&& rc)) &&& en) >>> (8 * (r.ofs.toNat - a))] ∧
      t.rdMgmt a = s.rdMgmt a &&& ~~~rc ∧ s.sameButRegs t [] := by
  intro a en rc
  refine ⟨_, congrArg Host.Outcome.next (s.readBar_within hb hf h1 h2 hs hp), ?_⟩
  simp only [State.readWord_word_mgmt s _ h, s.latchRead_none _ _ ho hx hj]
  exact ⟨rfl, NMap.get_set_same _ _ _ _, fun _ _ => rfl, fun _ _ => rfl, State.sameMemory_of_parts rfl rfl rfl rfl rfl⟩

/-! ### Reads behind a bridge in reset (R391, log entry 60) -/

theorem State.giveJasper_lastEvent (e : JReq) : (s.giveJasper e).lastEvent = some e := by
  unfold State.giveJasper
  dsimp only
  split <;> rfl

/-- An event by its code is the last that reached the recorder's intake. -/
theorem State.jasper_told (e : JCode) (u d0 d1 : Nat) : (s.jasper e u d0 d1).told e u d0 d1 := by
  unfold State.told State.jasper State.jasperK
  rw [State.giveJasper_lastEvent]
  rfl

/-- An event given to the recorder changes no byte. -/
theorem State.jasper_sameMemory (e : JCode) (u d0 d1 : Nat) : s.sameMemory (s.jasper e u d0 d1) :=
  State.sameMemory_of_parts (by simp) (by simp) (by simp) (by simp) (by simp)

/-- The first access that a bridge in reset discards is recorded. -/
theorem State.bridgeDiscard_first {k : Nat} (a : Nat) (h : k ∉ s.power.bridged) :
    s.bridgeDiscard k a = (s.modPower fun p => { p with bridged := addOnce p.bridged k }).jasper .bridgeDiscard k a 0 := by
  simp [State.bridgeDiscard, h]

theorem exec_rcRead_bridged (r : RegRead) (mgmt : Bool) (k : Nat) (s : State) (hb : r.bar4 = false) (hf : r.fn.val = 0) (hz : r.size.val = 4)
    (ha : r.ofs.toNat % 4 = 0) (hs : s.pathServes mgmt r.ofs.toNat = true) (hr : s.inReset r.ofs.toNat = some k) (hk : k ∉ s.power.bridged) :
    ∃ t, exec (.rcRead r mgmt) s = .next t ∧ t.ret = [0#32] ∧ k ∈ t.power.bridged ∧ t.told .bridgeDiscard k r.ofs.toNat 0 ∧
      s.sameMemory t := by
  have he : s.readBar r mgmt = (s.bridgeDiscard k r.ofs.toNat).withRet [0#32] := by
    rw [State.readBar_bar0 s mgmt hb, hz, State.readReg_word s ha, hf, State.readPlace_pf, State.readAt_inReset s _ hs hr]
  refine ⟨_, congrArg Host.Outcome.next he, rfl, ?_⟩
  rw [State.bridgeDiscard_first s _ hk]
  refine ⟨?_, State.jasper_told _ _ _ _ _, State.jasper_sameMemory _ _ _ _ _⟩
  rw [State.power_withRet, State.jasper_power]
  simp [State.modPower, addOnce, hk]

/-! ### OBJ.ENTRY_0 and ONYX.EPOCH_LO (R252, R283) -/

theorem bvSet_whole (x : BitVec 32) (v : Nat) : bvSet 0 32 x v = BitVec.ofNat 32 v := by
  apply BitVec.eq_of_getLsbD_eq
  intro i hi
  rw [getLsbD_bvSet, if_pos (by omega), BitVec.getLsbD_ofNat]
  rfl

theorem leNat_lt (bs : List Byte) : leNat bs < 256 ^ bs.length := by
  induction bs with
  | nil => exact Nat.one_pos
  | cons b bs ih =>
    have := b.isLt
    rw [leNat, List.length_cons, Nat.pow_succ]
    omega

/-- The words of OBJ.ENTRY written, one after another, leave every other register word. -/
theorem State.setEntry_rd_ne (g : Nat → Nat) (xs : List Nat) (a : Nat) (h : a ∉ xs.map Rg.OBJ_ENTRY) :
    (s.each xs fun t w => t.setFld (Fld.OBJ_ENTRY_WORD w) (g w)).rd a = s.rd a :=
  s.each_keeps (fun t => t.rd a) xs _ fun _ w hw =>
    State.rd_wr_ne _ _ fun e => h (List.mem_map.mpr ⟨w, hw, e⟩)

/-- Each of them holds its value. -/
theorem State.setEntry_rd (g : Nat → Nat) (xs : List Nat) {k : Nat} (h : k ∈ xs) :
    (s.each xs fun t w => t.setFld (Fld.OBJ_ENTRY_WORD w) (g w)).rd (Rg.OBJ_ENTRY k) = BitVec.ofNat 32 (g k) := by
  induction xs generalizing s with
  | nil => exact nomatch h
  | cons x xs ih =>
    rw [State.each_cons]
    by_cases hk : k ∈ xs
    · exact ih _ hk
    · obtain rfl : k = x := (List.mem_cons.mp h).resolve_right hk
      rw [State.setEntry_rd_ne]
      · exact (State.rd_wr_same _ _ _).trans (bvSet_whole _ _)
      · intro hm
        obtain ⟨j, hj, he⟩ := List.mem_map.mp hm
        obtain rfl : j = k := by unfold Rg.OBJ_ENTRY at he; omega
        exact hk hj

/-- A host's read of a word whose fields are neither cleared by reads nor write-only, in a block that is always powered. -/
theorem State.readReg_latched {a base i : Nat} {b : Blk} {d : RegDef} (ha : a % 4 = 0) (hs : s.serves a = true)
    (hd : decodeBlk a = some (b, base)) (hb : b = .obj ∨ b = .onyx ∨ b = .jsp) (h : regAt a = .word b d i)
    (hrc : d.mask (BitVec.allOnes 32) (· == .rc) = 0#32) (hwo : d.mask (BitVec.allOnes 32) (· == .wo) = 0#32) :
    s.readReg 0 a 4 false = (s.latchRead b d.off i).withRet [(s.latchRead b d.off i).rd a] := by
  have hsh : ∀ t : State, t.shown a = t.rd a := fun t => by
    unfold State.shown
    rw [hd]
    rcases hb with rfl | rfl | rfl <;> rfl
  rw [State.readReg_word s ha, State.readPlace_pf, State.readAt_powered s _ (show s.pathServes false a = true from hs) (s.poweredOff_of_always hd hb),
    State.readWord_word_host s _ h]
  simp only [hrc, hwo, hsh, if_true, BitVec.not_zero, BitVec.and_allOnes]

/-- Reading the first word of OBJ.ENTRY latches the selected object's entry in all of its words. -/
theorem State.latchRead_entry : s.latchRead .obj 0x20 0 = s.each (List.range 8) fun t w =>
    t.setFld (Fld.OBJ_ENTRY_WORD w) (leNat (((s.entryBytes (s.fld Fld.OBJ_SELECT_INDEX)).drop (4 * w)).take 4)) := by
  unfold State.latchRead
  exact if_pos ⟨rfl, rfl⟩

theorem State.latchRead_entry_sameMemory : s.sameMemory (s.latchRead .obj 0x20 0) := by
  rw [State.latchRead_entry]
  exact State.sameMemory_of_parts (s.each_keeps (·.mem) _ _ fun _ _ _ => rfl) (s.each_keeps (·.host) _ _ fun _ _ _ => rfl)
    (s.each_keeps (·.boot) _ _ fun _ _ _ => rfl) (s.each_keeps (·.cores) _ _ fun _ _ _ => rfl) (s.each_keeps (·.clusters) _ _ fun _ _ _ => rfl)

theorem State.latchRead_entry_sameCtrs : s.sameCtrs (s.latchRead .obj 0x20 0) [] := fun a _ => by
  rw [State.latchRead_entry]
  exact s.each_keeps (fun t => t.ctr a) _ _ fun _ _ _ => rfl

theorem exec_entry0Read_latches (s : State) (hs : s.serves (Rg.OBJ_ENTRY 0) = true) :
    let bs := s.entryBytes (s.fld Fld.OBJ_SELECT_INDEX)
    ∃ t, exec .entry0Read s = .next t ∧ t.ret = [BitVec.ofNat 32 (leNat (bs.take 4))] ∧ s.sameCtrs t [] ∧ s.sameMemory t ∧
      (∀ w, w < 8 → t.fld (Fld.OBJ_ENTRY_WORD w) = leNat ((bs.drop (4 * w)).take 4)) ∧ s.sameRegs t ((List.range 8).map Rg.OBJ_ENTRY) := by
  intro bs
  have hr := s.readReg_latched (a := Rg.OBJ_ENTRY 0) (d := ⟨0x20, 4, 8, .plain, [⟨0, 32, .ro, 0⟩]⟩) (i := 0) (base := 0x50000) (by decide) hs
    (by decide) (.inl rfl) (by decide) (by decide) (by decide)
  have hrd : ∀ w, w < 8 → (s.latchRead .obj 0x20 0).rd (Rg.OBJ_ENTRY w) = BitVec.ofNat 32 (leNat ((bs.drop (4 * w)).take 4)) := fun w hw => by
    rw [State.latchRead_entry]
    exact s.setEntry_rd (fun w => leNat ((bs.drop (4 * w)).take 4)) _ (List.mem_range.mpr hw)
  refine ⟨_, congrArg Host.Outcome.next hr, ?_, State.sameCtrs_withRet _ s.latchRead_entry_sameCtrs,
    State.sameMemory_withRet _ s.latchRead_entry_sameMemory, fun w hw => ?_, State.sameRegs_withRet _ fun a ha => ?_⟩
  · rw [State.ret_withRet, hrd 0 (by omega), Nat.mul_zero, List.drop_zero]
  · rw [State.fld_withRet, State.fld, show (Fld.OBJ_ENTRY_WORD w).addr = Rg.OBJ_ENTRY w from rfl, hrd w hw]
    have hlt := leNat_lt ((bs.drop (4 * w)).take 4)
    have hle : 256 ^ ((bs.drop (4 * w)).take 4).length ≤ 256 ^ 4 := Nat.pow_le_pow_right (by omega) (List.length_take_le _ _)
    simp only [Fld.OBJ_ENTRY_WORD, bvGet, BitVec.extractLsb'_toNat, BitVec.toNat_ofNat, Nat.shiftRight_zero]
    omega
  · rw [State.latchRead_entry]
    exact s.setEntry_rd_ne _ _ a ha

theorem exec_epochLoRead_latches (s : State) (hs : s.serves Rg.ONYX_EPOCH_LO = true) :
    ∃ t, exec .epochLoRead s = .next t ∧ t.ret = [s.rd Rg.ONYX_EPOCH_LO] ∧
      t.fld Fld.ONYX_EPOCH_HI_EPOCH_HI = s.flash.epoch.toNat / 2 ^ 32 ∧ s.sameRegs t [Rg.ONYX_EPOCH_HI] ∧ s.sameCtrs t [] ∧ s.sameMemory t := by
  have hr : s.readReg 0 Rg.ONYX_EPOCH_LO 4 false = _ :=
    s.readReg_latched (d := ⟨0x8, 0, 1, .plain, [⟨0, 32, .ro, 0⟩]⟩) (i := 0) (base := 0x240000) (by decide) hs (by decide) (.inr (.inl rfl))
      (by decide) (by decide) (by decide)
  refine ⟨_, congrArg Host.Outcome.next hr, ?_⟩
  have hl : s.latchRead .onyx 0x8 0 = s.setFld Fld.ONYX_EPOCH_HI_EPOCH_HI (s.flash.epoch.toNat / 2 ^ 32) := rfl
  rw [hl]
  refine ⟨?_, ?_, fun a ha => ?_, fun _ _ => rfl, State.sameMemory_of_parts rfl rfl rfl rfl rfl⟩
  · exact congrArg (fun x => [x]) (State.rd_wr_ne _ _ (by decide))
  · rw [State.fld_withRet, State.fld_setFld_same _ _ _ (by decide)]
    have := s.flash.epoch.isLt
    exact Nat.mod_eq_of_lt (by simp only [Fld.ONYX_EPOCH_HI_EPOCH_HI]; omega)
  · exact State.rd_wr_ne _ _ fun e => ha (List.mem_singleton.mpr e.symm)

end


section
variable (s : State)

/-! ### Writes that their path does not serve -/

/-- A function that does not exist writes nothing, and a path that does not serve a word does not write it (R364, R367, R443, R445). -/
theorem exec_registerWrite_unserved (w : RegWrite) (s : State) (h : s.hostq.numVfs < w.fn.val ∨ w.bar4 = false ∧ w.fn.val = 0 ∧
    w.ofs.toNat % 4 = 0 ∧ w.size.val = 4 ∧ s.pathServes w.mgmt w.ofs.toNat = false) : exec (.registerWrite w) s = .next s := by
  refine congrArg Host.Outcome.next ?_
  rcases h with h | ⟨hb, hf, ha, hz, hs⟩
  · split
    · simp [State.writeBar4, h]
    · have hp : ∀ a, s.bar0Place w.fn.val a = none := fun a => by
        simp [State.bar0Place, show w.fn.val ≠ 0 by omega, show ¬ w.fn.val ≤ s.hostq.numVfs by omega]
      refine s.each_inv (fun t => t = s) _ _ rfl fun t a _ ht => ?_
      rw [ht, hp]
  · rw [if_neg (by simp [hb]), State.writeReg, hf, hz, accessWords_four ha, State.each_cons, State.each_nil]
    simp [State.bar0Place, State.access, hs]

/-! ### The MSI-X table (R333, R449) -/

/-- Word `j` of entry `v` of the PF's table lies in BAR4 at its place. -/
theorem msixOfs_toNat (v : Fin 256) (j : Fin 4) :
    (BitVec.ofNat 28 (0x100000 + 16 * v.val + 4 * j.val)).toNat = 0x100000 + 16 * v.val + 4 * j.val := by
  rw [BitVec.toNat_ofNat, Nat.mod_eq_of_lt (by omega)]

/-- Masked, a vector's message waits; unmasked, it goes out (R449). The table and every other part stay. -/
theorem State.sendMsix_unmasked {v : Nat} (h : bvBit 96 (s.msixEntry v) = false) :
    s.sendMsix v = s.out (.msix (s.ownerFn v) (s.withinFn v) ((s.msixEntry v).extractLsb' 0 64) ((s.msixEntry v).extractLsb' 64 32)) := by
  simp [State.sendMsix, State.out, h]

theorem State.sameMemory_trans {s t u : State} (h : s.sameMemory t) (h' : t.sameMemory u) : s.sameMemory u := by
  obtain ⟨hm, hh, hn, hb, hc, hk⟩ := h
  obtain ⟨hm', hh', hn', hb', hc', hk'⟩ := h'
  exact ⟨hm'.trans hm, hh'.trans hh, hn'.trans hn, hb'.trans hb, fun c => (hc' c).trans (hc c), fun k => (hk' k).trans (hk k)⟩

theorem State.modHost_sameMemory (f : HostSt → HostSt) : s.sameMemory (s.modHost f) := State.sameMemory_of_parts rfl rfl rfl rfl rfl
theorem State.outs_out (e : OutEv) : (s.out e).outs = s.outs ++ [e] := (rfl)
theorem State.out_sameMemory (e : OutEv) : s.sameMemory (s.out e) := State.sameMemory_of_parts rfl rfl rfl rfl rfl

/-- The table after a write of a whole word of an entry. -/
def State.msixWritten (s : State) (v j : Nat) (raw : BitVec 32) : State :=
  s.modHost fun h => { h with msix := NMap.set (bvPut 96 0#128 true) h.msix v (bvSet (32 * j) 32 (s.msixEntry v) (raw &&& msixBits j).toNat) }

/-- The state once vector `v` has no message waiting. -/
def State.dropWaiting (s : State) (v : Nat) : State := s.modHost fun h => { h with pba := h.pba.filter (· != v) }

theorem State.msixEntry_dropWaiting (v k : Nat) : (s.dropWaiting v).msixEntry k = s.msixEntry k := (rfl)
theorem State.msixEntry_out (e : OutEv) (k : Nat) : (s.out e).msixEntry k = s.msixEntry k := (rfl)

theorem State.msixWritten_same (v j : Nat) (raw : BitVec 32) :
    (s.msixWritten v j raw).msixEntry v = bvSet (32 * j) 32 (s.msixEntry v) (raw &&& msixBits j).toNat := NMap.get_set_same _ _ _ _

theorem State.msixWritten_ne {v k : Nat} (j : Nat) (raw : BitVec 32) (h : k ≠ v) : (s.msixWritten v j raw).msixEntry k = s.msixEntry k :=
  NMap.get_set_ne _ _ _ _ (Ne.symm h)

/-- The state after a write of a whole word of an entry that sends a message which waited. -/
def State.msixSent (s : State) (v j : Nat) (raw : BitVec 32) : State :=
  ((s.msixWritten v j raw).dropWaiting v).out (.msix (s.ownerFn v) (s.withinFn v)
    (((s.msixWritten v j raw).msixEntry v).extractLsb' 0 64) (((s.msixWritten v j raw).msixEntry v).extractLsb' 64 32))

theorem State.msixSent_msixEntry (v j k : Nat) (raw : BitVec 32) : (s.msixSent v j raw).msixEntry k = (s.msixWritten v j raw).msixEntry k := by
  rw [State.msixSent, State.msixEntry_out, State.msixEntry_dropWaiting]
theorem State.msixSent_outs (v j : Nat) (raw : BitVec 32) : (s.msixSent v j raw).outs = s.outs ++ [.msix (s.ownerFn v) (s.withinFn v)
    (((s.msixWritten v j raw).msixEntry v).extractLsb' 0 64) (((s.msixWritten v j raw).msixEntry v).extractLsb' 64 32)] := by
  rw [State.msixSent, State.outs_out, State.dropWaiting, State.modHost_outs, State.msixWritten, State.modHost_outs]
theorem State.msixWritten_rd (v j a : Nat) (raw : BitVec 32) : (s.msixWritten v j raw).rd a = s.rd a := State.modHost_rd _ _ _
theorem State.msixWritten_ctr (v j a : Nat) (raw : BitVec 32) : (s.msixWritten v j raw).ctr a = s.ctr a := State.modHost_ctr _ _ _
theorem State.msixSent_rd (v j a : Nat) (raw : BitVec 32) : (s.msixSent v j raw).rd a = s.rd a := by
  rw [State.msixSent, State.out_rd, State.dropWaiting, State.modHost_rd, State.msixWritten_rd]
theorem State.msixSent_ctr (v j a : Nat) (raw : BitVec 32) : (s.msixSent v j raw).ctr a = s.ctr a := by
  rw [State.msixSent, State.out_ctr, State.dropWaiting, State.modHost_ctr, State.msixWritten_ctr]
theorem State.msixSent_sameMemory (v j : Nat) (raw : BitVec 32) : s.sameMemory (s.msixSent v j raw) :=
  State.sameMemory_trans (State.sameMemory_trans (s.modHost_sameMemory _) (State.modHost_sameMemory _ _)) (State.out_sameMemory _ _)
theorem State.msixSent_pba (v j : Nat) (raw : BitVec 32) : v ∉ (s.msixSent v j raw).hostq.pba := by
  simp [State.msixSent, State.dropWaiting, State.modHost]

/-- A message that waited goes out with the write that unmasks its vector; else the write changes the table alone. -/
theorem State.writeMsix_whole (v j : Nat) (raw : BitVec 32) :
    s.writeMsix v j (BitVec.allOnes 32) raw =
      if v ∈ s.hostq.pba ∧ bvBit 96 ((s.msixWritten v j raw).msixEntry v) = false then
        s.msixSent v j raw
      else s.msixWritten v j raw := by
  have hnew : (((s.msixEntry v).extractLsb' (32 * j) 32 : BitVec 32) &&& ~~~(BitVec.allOnes 32) ||| (raw &&& BitVec.allOnes 32)) &&& msixBits j =
      raw &&& msixBits j := by
    simp only [BitVec.not_allOnes, BitVec.and_zero, BitVec.zero_or, BitVec.and_allOnes]
  unfold State.writeMsix
  simp only [hnew]
  change (if (s.hostq.pba.contains v && !bvBit 96 ((s.msixWritten v j raw).msixEntry v)) = true then _ else s.msixWritten v j raw) = _
  simp only [Bool.and_eq_true, List.contains_iff_mem, Bool.not_eq_true']
  split
  · rename_i h
    exact State.sendMsix_unmasked ((s.msixWritten v j raw).dropWaiting v) h.2
  · rfl

theorem State.writeBar4_msix (v : Fin 256) (j : Fin 4) (data : BitVec 64) :
    s.writeBar4 0 (0x100000 + 16 * v.val + 4 * j.val) 4 data = s.writeMsix v.val j.val (BitVec.allOnes 32) (data.setWidth 32) := by
  have h1 : ¬ (0x100000 + 16 * v.val + 4 * j.val < 0x100000) := by omega
  have h2 : 0x100000 ≤ 0x100000 + 16 * v.val + 4 * j.val ∧ 0x100000 + 16 * v.val + 4 * j.val < 0x100000 + 16 * 256 := by omega
  have h3 : (0x100000 + 16 * v.val + 4 * j.val - 0x100000) / 16 = v.val := by omega
  have h4 : (0x100000 + 16 * v.val + 4 * j.val - 0x100000) % 16 / 4 = j.val := by omega
  unfold State.writeBar4
  simp only [msixPlace, if_true, Nat.not_lt_zero, if_false, h1, accessWords_four (show (0x100000 + 16 * v.val + 4 * j.val) % 4 = 0 by omega),
    State.each_cons, State.each_nil, if_pos h2, h3, h4, laneBits_word, msixVector]

theorem exec_registerWrite_msix (v : Fin 256) (j : Fin 4) (s : State) (w : RegWrite) (hb : w.bar4 = true) (hf : w.fn.val = 0)
    (ho : w.ofs = BitVec.ofNat 28 (0x100000 + 16 * v.val + 4 * j.val)) (hz : w.size.val = 4) :
    ∃ t, exec (.registerWrite w) s = .next t ∧
      t.msixEntry v = bvSet (32 * j.val) 32 (s.msixEntry v) (w.data.setWidth 32 &&& msixBits j).toNat ∧
      (∀ k, k ≠ v.val → t.msixEntry k = s.msixEntry k) ∧ s.sameRegs t [] ∧ s.sameCtrs t [] ∧ s.sameMemory t ∧
      (v.val ∈ s.hostq.pba → bvBit 96 (t.msixEntry v) = false → v.val ∉ t.hostq.pba ∧ t.outs = s.outs ++
        [.msix (s.ownerFn v) (s.withinFn v) ((t.msixEntry v).extractLsb' 0 64) ((t.msixEntry v).extractLsb' 64 32)]) := by
  refine ⟨_, congrArg Host.Outcome.next (if_pos hb), ?_⟩
  rw [hf, hz, ho, msixOfs_toNat, State.writeBar4_msix, State.writeMsix_whole]
  split
  · simp only [State.msixSent_msixEntry]
    exact ⟨s.msixWritten_same _ _ _, fun k hk => s.msixWritten_ne _ _ hk, fun _ _ => s.msixSent_rd _ _ _ _,
      fun _ _ => s.msixSent_ctr _ _ _ _, s.msixSent_sameMemory _ _ _, fun _ _ => ⟨s.msixSent_pba _ _ _, s.msixSent_outs _ _ _⟩⟩
  · rename_i h
    exact ⟨s.msixWritten_same _ _ _, fun k hk => s.msixWritten_ne _ _ hk, fun _ _ => s.msixWritten_rd _ _ _ _,
      fun _ _ => s.msixWritten_ctr _ _ _ _, s.modHost_sameMemory _, fun hm hu => absurd ⟨hm, hu⟩ h⟩

/-- A read of a word of the PF's table gives it. -/
theorem exec_rcRead_msix (v : Fin 256) (j : Fin 4) (s : State) (r : RegRead) (mgmt : Bool) (hb : r.bar4 = true) (hf : r.fn.val = 0)
    (ho : r.ofs = BitVec.ofNat 28 (0x100000 + 16 * v.val + 4 * j.val)) (hz : r.size.val = 4) :
    exec (.rcRead r mgmt) s = .next { s with ret := [(s.msixEntry v).extractLsb' (32 * j.val) 32] } := by
  have h2 : 0x100000 ≤ 0x100000 + 16 * v.val + 4 * j.val ∧ 0x100000 + 16 * v.val + 4 * j.val < 0x100000 + 16 * 256 := by omega
  have h3 : (0x100000 + 16 * v.val + 4 * j.val - 0x100000) / 16 = v.val := by omega
  have h4 : 8 * ((0x100000 + 16 * v.val + 4 * j.val - 0x100000) % 16) = 32 * j.val := by omega
  have hw : s.bar4Word 0 (0x100000 + 16 * v.val + 4 * j.val) = (s.msixEntry v.val).extractLsb' (32 * j.val) 32 := by
    unfold State.bar4Word
    simp only [msixPlace, if_true, Nat.not_lt_zero, if_false, if_pos h2, h3, h4, msixVector]
  refine congrArg Host.Outcome.next ((if_pos hb).trans ?_)
  rw [hf, hz, ho, msixOfs_toNat, State.readBar4, accessWords_four (by omega)]
  simp only [List.map_cons, List.map_nil, hw, laneBits_word, BitVec.and_allOnes, Nat.sub_self, Nat.mul_zero, BitVec.ushiftRight_zero]

/-! ### Writes of words (R12 to R14, R17) -/

/-- A write of a whole word by the PF, or by management firmware, where its path serves the word, no VF owns it and it is powered. -/
theorem exec_registerWrite_word {w : RegWrite} {a : Nat} (hb : w.bar4 = false) (hf : w.fn.val = 0) (ha : w.ofs.toNat = a) (h4 : a % 4 = 0)
    (hz : w.size.val = 4) (hs : s.pathServes w.mgmt a = true) (hn : s.notPfs a = false) (hp : s.poweredOff a = false) :
    exec (.registerWrite w) s = .next (s.writeWord 0 a (BitVec.allOnes 32) (w.data.setWidth 32)) := by
  refine congrArg Host.Outcome.next ((if_neg (by simp [hb])).trans ?_)
  rw [State.writeReg, hf, hz, ha, accessWords_four h4, State.each_cons, State.each_nil]
  simp [State.bar0Place, State.access, hs, hn, s.inReset_of_powered hp, s.wakeAccess_of_powered hp, laneBits_word]

/-- A field with a range that records nothing, written whole: it takes a value in its range and keeps its own value else (R17). -/
theorem writeField_ranged {b : Blk} {r : RegDef} {f : FieldDef} {g : Range} (locked : Bool) (raw : BitVec 32) (acc : BitVec 32 × Bool)
    (hr : rangeOf b r f.lo = some g) (he : g.event = false) (hon : bvGet f.lo f.w (BitVec.allOnes 32) ≠ 0)
    (ha : f.acc = .rw ∨ f.acc = .rwl ∧ locked = false) :
    writeField b r locked (BitVec.allOnes 32) raw raw acc f =
      (if g.least ≤ bvGet f.lo f.w raw ∧ bvGet f.lo f.w raw ≤ g.most then bvSet f.lo f.w acc.1 (bvGet f.lo f.w raw) else acc.1, acc.2) := by
  unfold writeField
  simp only [hr, he, if_neg hon, Bool.or_false]
  rcases ha with ha | ⟨ha, hl⟩
  · rw [ha]
    dsimp only
    split <;> rfl
  · rw [ha, hl]
    dsimp only
    rw [if_neg Bool.false_ne_true]
    split <;> rfl

/-- A locked field keeps its value (R14). -/
theorem writeField_locked {b : Blk} {r : RegDef} {f : FieldDef} (on raw v : BitVec 32) (acc : BitVec 32 × Bool) (ha : f.acc = .rwl) :
    writeField b r true on raw v acc f = acc := by
  unfold writeField
  rw [ha]
  dsimp only
  split <;> rfl

/-- A whole word written: each field in turn makes of the old word what its access type says. -/
theorem State.writtenWord_whole (b : Blk) (r : RegDef) (a : Nat) (raw : BitVec 32) (hk : r.kind ≠ .grid) :
    s.writtenWord b r a (BitVec.allOnes 32) raw =
      let locked := s.fld Fld.BOOT_STATE_LOCKED == 1
      let x := r.fields.foldl (writeField b r locked (BitVec.allOnes 32) raw raw) (s.rd a, false)
      (x.1, x.2, locked && r.fields.any fun f => f.acc == .rwl && bvGet f.lo f.w (BitVec.allOnes 32) != 0) := by
  unfold State.writtenWord
  simp only [if_neg hk, BitVec.not_allOnes, BitVec.and_zero, BitVec.zero_or, BitVec.and_allOnes]

/-- A plain register written where nothing is to be recorded. -/
theorem State.plainWrite_quiet {b : Blk} {r : RegDef} {a : Nat} {on raw v : BitVec 32} (hk : r.kind = .plain)
    (h : s.writtenWord b r a on raw = (v, false, false)) : s.plainWrite b r a on raw = s.wr a v := by
  unfold State.plainWrite
  simp [h, hk]

/-- A plain register written where the lock alone is to be recorded (R14, log entry 31). -/
theorem State.plainWrite_locked {b : Blk} {r : RegDef} {a : Nat} {on raw v : BitVec 32} (hk : r.kind = .plain)
    (h : s.writtenWord b r a on raw = (v, false, true)) : s.plainWrite b r a on raw = (s.jasper .rwlLocked 0 a raw.toNat).wr a v := by
  unfold State.plainWrite
  simp [h, hk]

/-- JSP.RATE (R438). -/
def rateDef : RegDef := ⟨0x48, 0, 1, .plain, [⟨0, 14, .rw, 0x3e8⟩, ⟨14, 8, .rw, 0x10⟩]⟩

/-- JSP.WDOG_CTRL (R438). -/
def wdogDef : RegDef := ⟨0x50, 0, 1, .plain, [⟨0, 14, .rwl, 0x3e8⟩]⟩

theorem regAt_rate : regAt Rg.JSP_RATE = .word .jsp rateDef 0 := by decide
theorem regAt_wdog : regAt Rg.JSP_WDOG_CTRL = .word .jsp wdogDef 0 := by decide

/-- A recorder's register is no VF's (R446). -/
theorem State.notPfs_jsp {a i : Nat} {d : RegDef} (h : regAt a = .word .jsp d i) : s.notPfs a = false := by
  unfold State.notPfs
  rw [h]
  rfl

theorem State.writeWord_rate (fn : Nat) (on raw : BitVec 32) :
    s.writeWord fn Rg.JSP_RATE on raw = s.plainWrite .jsp rateDef Rg.JSP_RATE on raw := by
  unfold State.writeWord
  rw [regAt_rate]
  rfl

theorem State.writeWord_wdog (fn : Nat) (on raw : BitVec 32) :
    s.writeWord fn Rg.JSP_WDOG_CTRL on raw = s.plainWrite .jsp wdogDef Rg.JSP_WDOG_CTRL on raw := by
  unfold State.writeWord
  rw [regAt_wdog]
  rfl

/-- JSP.RATE written: each of its fields takes a value in its range (R17, R438). -/
def rateWord (old : BitVec 32) (ms limit : Nat) : BitVec 32 :=
  let x := if 100 ≤ ms ∧ ms ≤ 10000 then bvSet 0 14 old ms else old
  if 1 ≤ limit then bvSet 14 8 x limit else x

theorem State.writtenWord_rate {ms limit : Nat} {raw : BitVec 32} (h1 : bvGet 0 14 raw = ms) (h2 : bvGet 14 8 raw = limit) :
    s.writtenWord .jsp rateDef Rg.JSP_RATE (BitVec.allOnes 32) raw = (rateWord (s.rd Rg.JSP_RATE) ms limit, false, false) := by
  have hl : limit ≤ 255 := by have := bvGet_lt 14 8 raw; omega
  rw [State.writtenWord_whole s _ _ _ _ (by decide)]
  simp only [rateDef, List.foldl_cons, List.foldl_nil]
  rw [writeField_ranged (g := ⟨.jsp, 0x48, 14, 1, 255, false⟩) _ _ _ (by decide) rfl (by decide) (.inl rfl),
    writeField_ranged (g := ⟨.jsp, 0x48, 0, 100, 10000, false⟩) _ _ _ (by decide) rfl (by decide) (.inl rfl)]
  simp [h1, h2, hl, rateWord]

/-- The fields of a word of JSP.RATE written. -/
theorem rateWord_window (old : BitVec 32) {ms : Nat} (limit : Nat) (h : ms < 2 ^ 14) :
    bvGet 0 14 (rateWord old ms limit) = if 100 ≤ ms ∧ ms ≤ 10000 then ms else bvGet 0 14 old := by
  have hx : ∀ x : BitVec 32, bvGet 0 14 (if 1 ≤ limit then bvSet 14 8 x limit else x) = bvGet 0 14 x := fun x => by
    split
    · exact bvGet_bvSet_disjoint _ _ _ _ _ _ (.inl (by omega))
    · rfl
  unfold rateWord
  rw [hx]
  split
  · rw [bvGet_bvSet_same _ _ _ _ (by omega), Nat.mod_eq_of_lt h]
  · rfl

theorem rateWord_limit (old : BitVec 32) (ms : Nat) {limit : Nat} (h : limit < 2 ^ 8) :
    bvGet 14 8 (rateWord old ms limit) = if 1 ≤ limit then limit else bvGet 14 8 old := by
  unfold rateWord
  dsimp only
  split
  · rw [bvGet_bvSet_same _ _ _ _ (by omega), Nat.mod_eq_of_lt h]
  · split
    · exact bvGet_bvSet_disjoint _ _ _ _ _ _ (.inr (by omega))
    · rfl

/-- A field of a word read from the data of a write. -/
theorem bvGet_setWidth_ofNat (lo w v : Nat) :
    bvGet lo w ((BitVec.ofNat 64 v).setWidth 32 : BitVec 32) = v % 2 ^ 32 / 2 ^ lo % 2 ^ w := by
  have h : ((BitVec.ofNat 64 v).setWidth 32 : BitVec 32) = BitVec.ofNat 32 v := BitVec.setWidth_ofNat_of_le (by omega) v
  rw [bvGet, h, BitVec.extractLsb'_toNat, BitVec.toNat_ofNat, Nat.shiftRight_eq_div_pow]

/-- A recorder's register is always powered, at a whole word. -/
theorem decodeBlk_rate : decodeBlk Rg.JSP_RATE = some (.jsp, 0x20000) := by decide
theorem decodeBlk_wdog : decodeBlk Rg.JSP_WDOG_CTRL = some (.jsp, 0x20000) := by decide

theorem exec_registerWrite_rate (ms limit : Nat) (w : RegWrite) (s : State) (hb : w.bar4 = false) (hf : w.fn.val = 0)
    (ho : w.ofs.toNat = Rg.JSP_RATE) (hz : w.size.val = 4) (hd : w.data = BitVec.ofNat 64 (ms + 2 ^ 14 * limit)) (hms : ms < 2 ^ 14)
    (hli : limit < 2 ^ 8) (hs : s.pathServes w.mgmt Rg.JSP_RATE = true) :
    ∃ t, exec (.registerWrite w) s = .next t ∧
      t.fld Fld.JSP_RATE_WINDOW_MS = (if 100 ≤ ms ∧ ms ≤ 10000 then ms else s.fld Fld.JSP_RATE_WINDOW_MS) ∧
      t.fld Fld.JSP_RATE_LIMIT = (if 1 ≤ limit then limit else s.fld Fld.JSP_RATE_LIMIT) ∧ s.sameRegs t [Rg.JSP_RATE] ∧ s.sameCtrs t [] ∧
      s.sameMemory t ∧ t.lastEvent = s.lastEvent := by
  have h1 : bvGet 0 14 (w.data.setWidth 32 : BitVec 32) = ms := by
    rw [hd, bvGet_setWidth_ofNat]
    omega
  have h2 : bvGet 14 8 (w.data.setWidth 32 : BitVec 32) = limit := by
    rw [hd, bvGet_setWidth_ofNat]
    omega
  refine ⟨_, exec_registerWrite_word s hb hf ho (by decide) hz hs (s.notPfs_jsp regAt_rate)
    (s.poweredOff_of_always decodeBlk_rate (.inr (.inr rfl))), ?_⟩
  rw [State.writeWord_rate, State.plainWrite_quiet s rfl (s.writtenWord_rate h1 h2)]
  refine ⟨?_, ?_, fun a ha => State.rd_wr_ne _ _ fun e => ha (List.mem_singleton.mpr e.symm), fun _ _ => rfl,
    State.sameMemory_of_parts rfl rfl rfl rfl rfl, rfl⟩
  · rw [State.fld, show Fld.JSP_RATE_WINDOW_MS.addr = Rg.JSP_RATE from rfl, State.rd_wr_same]
    exact rateWord_window _ _ hms
  · rw [State.fld, show Fld.JSP_RATE_LIMIT.addr = Rg.JSP_RATE from rfl, State.rd_wr_same]
    exact rateWord_limit _ _ hli

/-- JSP.WDOG_CTRL written with a period in its range while the lock is not set. -/
theorem State.writtenWord_wdog_free {ms : Nat} {raw : BitVec 32} (h : bvGet 0 14 raw = ms) (h1 : 100 ≤ ms) (h2 : ms ≤ 10000)
    (hl : s.fld Fld.BOOT_STATE_LOCKED = 0) :
    s.writtenWord .jsp wdogDef Rg.JSP_WDOG_CTRL (BitVec.allOnes 32) raw = (bvSet 0 14 (s.rd Rg.JSP_WDOG_CTRL) ms, false, false) := by
  rw [State.writtenWord_whole s _ _ _ _ (by decide), hl]
  simp only [wdogDef, List.foldl_cons, List.foldl_nil]
  rw [writeField_ranged (g := ⟨.jsp, 0x50, 0, 100, 10000, false⟩) (0 == 1) _ _ (by decide) rfl (by decide) (.inr ⟨rfl, rfl⟩)]
  simp [h, h1, h2]

/-- The same once the lock is set: the field keeps its value, and the write is to be recorded. -/
theorem State.writtenWord_wdog_locked (raw : BitVec 32) (hl : s.fld Fld.BOOT_STATE_LOCKED = 1) :
    s.writtenWord .jsp wdogDef Rg.JSP_WDOG_CTRL (BitVec.allOnes 32) raw = (s.rd Rg.JSP_WDOG_CTRL, false, true) := by
  rw [State.writtenWord_whole s _ _ _ _ (by decide), hl]
  simp only [wdogDef, List.foldl_cons, List.foldl_nil, beq_self_eq_true]
  rw [writeField_locked _ _ _ _ rfl]
  rfl

theorem exec_registerWrite_wdog (w : RegWrite) (s : State) (hb : w.bar4 = false) (hf : w.fn.val = 0)
    (ho : w.ofs.toNat = Rg.JSP_WDOG_CTRL) (hz : w.size.val = 4) (hs : s.pathServes w.mgmt Rg.JSP_WDOG_CTRL = true) :
    exec (.registerWrite w) s = .next (s.plainWrite .jsp wdogDef Rg.JSP_WDOG_CTRL (BitVec.allOnes 32) (w.data.setWidth 32)) := by
  rw [exec_registerWrite_word s hb hf ho (by decide) hz hs (s.notPfs_jsp regAt_wdog)
    (s.poweredOff_of_always decodeBlk_wdog (.inr (.inr rfl))), State.writeWord_wdog]

theorem exec_registerWrite_wdog_free (ms : Nat) (w : RegWrite) (s : State) (hb : w.bar4 = false) (hf : w.fn.val = 0)
    (ho : w.ofs.toNat = Rg.JSP_WDOG_CTRL) (hz : w.size.val = 4) (hd : w.data = BitVec.ofNat 64 ms) (h1 : 100 ≤ ms) (h2 : ms ≤ 10000)
    (hs : s.pathServes w.mgmt Rg.JSP_WDOG_CTRL = true) (hl : s.fld Fld.BOOT_STATE_LOCKED = 0) :
    ∃ t, exec (.registerWrite w) s = .next t ∧ t.fld Fld.JSP_WDOG_CTRL_PERIOD_MS = ms ∧ s.sameRegs t [Rg.JSP_WDOG_CTRL] ∧ s.sameMemory t := by
  have h : bvGet 0 14 (w.data.setWidth 32 : BitVec 32) = ms := by
    rw [hd, bvGet_setWidth_ofNat]
    omega
  refine ⟨_, exec_registerWrite_wdog w s hb hf ho hz hs, ?_⟩
  rw [State.plainWrite_quiet s rfl (s.writtenWord_wdog_free h h1 h2 hl)]
  refine ⟨?_, fun a ha => State.rd_wr_ne _ _ fun e => ha (List.mem_singleton.mpr e.symm), State.sameMemory_of_parts rfl rfl rfl rfl rfl⟩
  rw [State.fld, show Fld.JSP_WDOG_CTRL_PERIOD_MS.addr = Rg.JSP_WDOG_CTRL from rfl, State.rd_wr_same]
  exact (bvGet_bvSet_same 0 14 _ _ (by omega)).trans (Nat.mod_eq_of_lt (by omega))

theorem exec_registerWrite_wdog_locked (ms : Nat) (w : RegWrite) (s : State) (hb : w.bar4 = false) (hf : w.fn.val = 0)
    (ho : w.ofs.toNat = Rg.JSP_WDOG_CTRL) (hz : w.size.val = 4) (hd : w.data = BitVec.ofNat 64 ms) (h2 : ms ≤ 10000)
    (hs : s.pathServes w.mgmt Rg.JSP_WDOG_CTRL = true) (hl : s.fld Fld.BOOT_STATE_LOCKED = 1) :
    ∃ t, exec (.registerWrite w) s = .next t ∧ t.told .rwlLocked 0 Rg.JSP_WDOG_CTRL ms ∧ s.sameRegs t [] ∧ s.sameMemory t := by
  have hr : (w.data.setWidth 32 : BitVec 32).toNat = ms := by
    rw [hd, BitVec.toNat_setWidth, BitVec.toNat_ofNat]
    omega
  refine ⟨_, exec_registerWrite_wdog w s hb hf ho hz hs, ?_⟩
  rw [State.plainWrite_locked s rfl (s.writtenWord_wdog_locked _ hl), hr]
  refine ⟨s.jasper_told _ _ _ _, fun a _ => ?_, s.jasper_sameMemory _ _ _ _⟩
  by_cases ha : Rg.JSP_WDOG_CTRL = a
  · rw [← ha, State.rd_wr_same]
  · rw [State.rd_wr_ne _ _ ha, State.jasper_rd]

/-- Settles O60, access by access: the reads in the order of its clauses, then the writes. -/
theorem registersReadAndWrite : Obligations.RegistersReadAndWrite := by
  unfold Obligations.RegistersReadAndWrite
  refine ⟨exec_read_unserved, exec_rcRead_vf, fun r s => ?_, fun r b d i s => ?_, exec_rcRead_bridged, exec_rcRead_two,
    fun v j s => ⟨exec_registerWrite_msix v j s, exec_rcRead_msix v j s⟩, exec_entry0Read_latches, exec_epochLoRead_latches,
    exec_registerWrite_unserved, exec_registerWrite_rate, fun ms w s hb hf ho hz hd h1 h2 hs => ⟨fun hl => ?_, fun hl => ?_⟩⟩
  · intro a hb hf hz h h0
    refine ⟨fun hs hp => ?_, fun hs hp => ?_⟩
    · obtain ⟨t, he, hr, hlh, hlm, hreg, hctr, hmem⟩ := exec_counterLowRead_host r s hb hf hz h h0 hs hp
      refine ⟨t, he, hr, hlh, hlm, hreg, hctr, hmem, fun x hxb hxf hxz hxo hx hxs hxp => ?_⟩
      have ha := regAt_counterLo_aligned h
      rw [← hlh]
      exact exec_rcRead_counterHi x a t hxb hxf hxz (by omega) (by rw [hxo]; exact hx) (by rw [hxo]; exact hxs) (by rw [hxo]; exact hxp)
    · exact exec_counterLowRead_mgmt r s hb hf hz h h0 hs hp
  · intro a en rc got hb hf h1 h2 h ho hx hj
    exact ⟨exec_rcRead_word_host r b d i s hb hf h1 h2 h ho hx hj, exec_rcRead_word_mgmt r b d i s hb hf h1 h2 h ho hx hj⟩
  · exact exec_registerWrite_wdog_free ms w s hb hf ho hz hd h1 h2 hs hl
  · exact exec_registerWrite_wdog_locked ms w s hb hf ho hz hd h2 hs hl

end

end Sys2Proof.Machine
end

section
/-! PROOFS. A tick start of a state that no run reaches, and what it leaves of the tokens held (R30, R39, R332). -/

namespace Sys2Proof.Machine

/-! ### A partition that does not exist -/

/-- A group of this device alone, waiting for its next tick with every condition met and with the token of member 32 received for it. Partition
753 is to close. No partition has that number (R329) and no command asks for it, but the type of the state's list does not rule it out. Its
PARTN.STATUS, at 0x41000 + 0x100 * 753 + 4, would lie at 0x70104, the address of GARNET.TOKENS_HELD_1. -/
def strayClosing : State :=
  { regs := [(Fld.BOOT_STATE_STATE.addr, 6#32), (Rg.GARNET_CTRL, 1#32), (Rg.GARNET_STATUS, 0x1E#32)]
    garnet := { heldNext := [32] }
    hostq := { closing := [753] } }

/-! ### Starting a step with no object placed -/

/-- No object, no message held, no fault, no abandoned tick, and none of the tokens of members 32 to 63. -/
structure State.Blank (s : State) : Prop where
  objs : s.place.objs = []
  fault : s.boot.fault = none
  hold : s.link.hold = []
  ports : s.link.ports = []
  abandonFrom : s.garnet.abandonFrom = []
  tokens : s.rd (Rg.GARNET_TOKENS_HELD 1) = 0#32

variable {s : State}

theorem State.blank_iff : s.Blank ↔ s.place.objs = [] ∧ s.boot.fault = none ∧ s.link.hold = [] ∧ s.link.ports = [] ∧
    s.garnet.abandonFrom = [] ∧ s.rd (Rg.GARNET_TOKENS_HELD 1) = 0#32 :=
  ⟨fun ⟨ho, hf, hh, hp, ha, ht⟩ => ⟨ho, hf, hh, hp, ha, ht⟩, fun ⟨ho, hf, hh, hp, ha, ht⟩ => ⟨ho, hf, hh, hp, ha, ht⟩⟩

theorem State.Blank.wr (h : s.Blank) {a : Nat} (v : BitVec 32) (ha : a ≠ Rg.GARNET_TOKENS_HELD 1) : (s.wr a v).Blank :=
  { h with tokens := (s.rd_wr_ne v ha).trans h.tokens }

/-- The registers of links, clusters, cores and engines lie above those of the tick unit (R440). -/
theorem State.Blank.setFld (h : s.Blank) {f : Fld} (v : Nat) (hf : 0x80000 ≤ f.addr) : (s.setFld f v).Blank :=
  h.wr _ (Nat.ne_of_gt (Nat.lt_of_lt_of_le (by decide) hf))

theorem State.Blank.raise (h : s.Blank) {f : Fld} (hf : 0x80000 ≤ f.addr) : (s.raise f).Blank := h.setFld 1 hf

theorem State.Blank.jasper (h : s.Blank) (e : JCode) (u d d2 : Nat) : (s.jasper e u d d2).Blank where
  objs := by rw [State.jasper_place]; exact h.objs
  fault := by rw [State.jasper_boot]; exact h.fault
  hold := by rw [State.jasper_link]; exact h.hold
  ports := by rw [State.jasper_link]; exact h.ports
  abandonFrom := by rw [State.jasper_garnet]; exact h.abandonFrom
  tokens := by rw [State.jasper_rd]; exact h.tokens

theorem State.Blank.fresh (h : s.Blank) : s.fresh.2.Blank := { h with }
theorem State.Blank.modCore (h : s.Blank) (c : Nat) (f : CoreSt → CoreSt) : (s.modCore c f).Blank := { h with }
theorem State.Blank.modEng (h : s.Blank) (g : Nat) (f : EngSt → EngSt) : (s.modEng g f).Blank := { h with }
theorem State.Blank.modCluster (h : s.Blank) (k : Nat) (f : ClusterSt → ClusterSt) : (s.modCluster k f).Blank := { h with }

theorem State.Blank.when (h : s.Blank) {b : Bool} {f : State → State} (hf : s.Blank → (f s).Blank) : (s.when b f).Blank := by
  cases b
  · exact h
  · exact hf h

theorem clusterBase_ge (k : Nat) : 0x80000 ≤ clusterBase k := by unfold clusterBase; omega
theorem coreBase_ge (c : Nat) : 0x80000 ≤ coreBase c := by unfold coreBase clusterBase; omega
theorem engBase_ge (g : Nat) : 0x80000 ≤ engBase g := by unfold engBase coreBase clusterBase; omega

theorem State.Blank.abandonStep (h : s.Blank) (r : Bool) : (s.abandonStep r).Blank := by
  unfold State.abandonStep
  split
  · exact h
  · refine State.Blank.jasper (State.each_inv _ State.Blank _ _ ?_ fun t k _ ht => ht.when fun ht => ht.setFld 0 ?_) _ _ _ _
    · have hw := h.wr (bvSet Fld.GARNET_STATUS_STATE.lo Fld.GARNET_STATUS_STATE.w (s.rd Fld.GARNET_STATUS_STATE.addr) stAbandoning)
        (a := Fld.GARNET_STATUS_STATE.addr) (by decide)
      exact { hw with }
    · exact Nat.le_trans (clusterBase_ge k) (Nat.le_add_right_of_le (Nat.le_add_right _ _))

theorem State.Blank.seqError (h : s.Blank) {c : Nat} {f : Fld} (pc : Nat) (pid : BitVec 16) (hf : 0x80000 ≤ f.addr) :
    (s.seqError c f pc pid).Blank :=
  ((h.when fun h => h.setFld pc (Nat.le_add_right_of_le (coreBase_ge c))).raise hf).jasper _ _ _ _

theorem State.Blank.fetchError (h : s.Blank) (c : Nat) (p : Prog) : (s.fetchError c p).Blank :=
  (h.seqError p.idx p.pid (Nat.le_add_right_of_le (coreBase_ge c))).abandonStep false

/-! ### Programs and slot tables are read from objects -/

theorem State.objAt_of_no_objs (h : s.place.objs = []) (u : Nat) : s.objAt u = none := by rw [State.objAt, h]; rfl

/-- Where no object stands, a read of a program gives nothing and changes nothing. -/
theorem State.readProg_of_no_objs (h : s.place.objs = []) (d : Nat) (part : Option Nat) (a : Nat) : s.readProg d part a = (none, s) := by
  unfold State.readProg
  rw [State.objAt_of_no_objs h]

theorem State.codeLine_of_no_objs (h : s.place.objs = []) (c a : Nat) : (s.codeLine c a).2 = s := by
  unfold State.codeLine
  rw [State.readProg_of_no_objs h]
  split <;> rfl

theorem State.slotTable_of_no_objs (h : s.place.objs = []) (k : Nat) : s.slotTable k = ([], s) := by
  have hp : ∀ a n, s.pinnedRange a n = false := fun a n => by
    rw [State.pinnedRange, List.all_eq_false]
    exact ⟨0, List.mem_range.mpr (Nat.succ_pos _), by rw [State.objAt_of_no_objs h]; decide⟩
  unfold State.slotTable
  dsimp only
  rw [hp]
  rfl

theorem State.Blank.startCluster (h : s.Blank) (k : Nat) : (s.startCluster k).Blank := by
  have hk : ∀ n, 0x80000 ≤ clusterBase k + n := fun n => Nat.le_add_right_of_le (clusterBase_ge k)
  unfold State.startCluster
  dsimp only
  generalize hu : State.when _ _ _ = u
  have h1 : u.Blank := by
    rw [← hu]
    exact (h.setFld (f := Fld.CLC_STATUS_STEP_ENDED k) 0 (hk _)).when fun h => h.raise (f := Fld.CLC_STATUS_CLOCK_ON k) (hk _)
  rw [State.slotTable_of_no_objs h1.objs]
  exact (h1.modCluster k _).setFld (f := Fld.GUARD_MARGIN_LEFT_LEFT_US k) _ (Nat.le_add_right_of_le (hk _))

theorem State.Blank.clearCore (h : s.Blank) (c : Nat) : (s.clearCore c).Blank := by
  have hc : ∀ n, 0x80000 ≤ coreBase c + n := fun n => Nat.le_add_right_of_le (coreBase_ge c)
  refine State.each_inv _ State.Blank _ _ ?_ fun t i _ ht => ht.wr _ (Nat.ne_of_gt (Nat.lt_of_lt_of_le (by decide) (Nat.le_add_right_of_le (hc 0x100))))
  exact ((h.fresh.modCore c _).raise (f := Fld.SEQ_STATUS_RUNNING c) (hc _)).setFld (f := Fld.SEQ_STATUS_ENDED c) 0 (hc _)

theorem State.Blank.startCore (h : s.Blank) (c : Nat) : (s.startCore c).Blank := by
  have hc : ∀ n, 0x80000 ≤ coreBase c + n := fun n => Nat.le_add_right_of_le (coreBase_ge c)
  have h1 := h.clearCore c
  have hw : ∀ a, ((s.clearCore c).codeWord c a).2 = s.clearCore c := fun a => State.codeLine_of_no_objs h1.objs c a
  have hl : ∀ a, (((s.clearCore c).codeWord c a).2.codeLine c (a + 64)).2 = s.clearCore c := fun a => by
    rw [hw]
    exact State.codeLine_of_no_objs h1.objs c _
  unfold State.startCore
  dsimp only
  rw [hl]
  generalize hu : State.each _ (List.range 32) _ = u
  have h2 : u.Blank := by
    rw [← hu]
    exact State.each_inv _ State.Blank _ _ (h1.modCore c _) fun t j _ ht => ht.setFld (f := credFld c j) _ (Nat.le_add_right_of_le (hc 0x180))
  split
  · exact h2.fetchError _ _
  · split
    · exact (h2.seqError (f := Fld.SEQ_ERROR_PROGRAM_HEADER c) _ _ (hc _)).abandonStep _
    · split
      · exact h2.fetchError _ _
      · exact h2

theorem State.Blank.startEngine (h : s.Blank) (g : Nat) : (s.startEngine g).Blank := by
  have hg : ∀ n, 0x80000 ≤ engBase g + n := fun n => Nat.le_add_right_of_le (engBase_ge g)
  unfold State.startEngine
  dsimp only
  refine (((h.modEng g _).wr _ ?_).setFld (f := Fld.EXP_STATUS_DECODING g) _ (hg _)).setFld (f := Fld.ENG_STATUS_COMP_BANK g) _ (hg _)
  exact Nat.ne_of_gt (Nat.lt_of_lt_of_le (by decide) (hg 0xc))

theorem State.Blank.startStep (h : s.Blank) : s.startStep.Blank := by
  have h1 := h.wr (bvSet Fld.GARNET_STATUS_STATE.lo Fld.GARNET_STATUS_STATE.w (s.rd Fld.GARNET_STATUS_STATE.addr) stRunning)
    (a := Fld.GARNET_STATUS_STATE.addr) (by decide)
  unfold State.startStep
  refine State.each_inv _ State.Blank _ _ (State.each_inv _ State.Blank _ _ (State.each_inv _ State.Blank _ _ { h1 with } ?_) ?_) ?_
  · exact fun t k _ ht => ht.startCluster k
  · exact fun t c _ ht => ht.startCore c
  · exact fun t g _ ht => ht.startEngine g

/-- Nothing is held and nothing waits at a port, so nothing is delivered. -/
theorem State.Blank.deliverHeld (h : s.Blank) : s.deliverHeld.Blank := by
  unfold State.deliverHeld
  dsimp only
  rw [h.hold, State.each_nil]
  refine State.each_inv _ State.Blank _ _ (State.each_inv _ State.Blank _ _ { h with hold := rfl } fun t p _ ht => ht.setFld _ ?_) fun t p _ ht => ?_
  · exact Nat.le_add_right_of_le (Nat.le_add_right_of_le (by decide))
  · have hp : (t.port p).blocked = [] := by rw [State.port, ht.ports]; rfl
    rw [if_pos hp]
    exact ht

/-- Where nothing stands after the sampling, a step with nothing to run starts (R42). -/
theorem State.startTick_blank (h : s.countOverrun.nextTick.settleTick.applyAtTick.sample.Blank) : s.startTick.Blank := by
  have hd := h.startStep.deliverHeld
  unfold State.startTick
  dsimp only
  rw [if_pos hd.abandonFrom]
  exact hd

theorem State.Blank.holds_32 (h : s.Blank) : s.holds 32 = false := by
  rw [State.holds, State.fld, show (Fld.GARNET_TOKENS_HELD_HELD (32 / 32)).addr = Rg.GARNET_TOKENS_HELD 1 from rfl, h.tokens]
  rfl

/-- Partition 753 is taken out of its FLR before the step starts, and with that write the token of member 32 is gone. -/
theorem strayClosing_startTick : strayClosing.startTick.Blank := State.startTick_blank (State.blank_iff.mpr (by decide +kernel))

theorem exec_tickStart_strayClosing : exec .tickStart strayClosing = .next strayClosing.startTick := by
  have hm : strayClosing.mayStart = true := by decide +kernel
  have ha : strayClosing.startTick.actOnFault = strayClosing.startTick := by rw [State.actOnFault, strayClosing_startTick.fault]
  exact congrArg Host.Outcome.next ((if_pos hm).trans ha)

/-- The branch of a condition that does not hold, of the state that a command leaves. -/
theorem next_of_not {x : Host.Outcome State Fault Refusal} {c : Prop} [Decidable c] {P Q : State → Prop}
    (h : ∃ t, x = .next t ∧ if c then P t else Q t) (hx : x = .next s) (hc : ¬ c) : Q s := by
  obtain ⟨t, ht, hq⟩ := h
  rw [if_neg hc] at hq
  rw [hx, Host.Outcome.next.injEq] at ht
  exact ht ▸ hq

/-- What O42 says of the tokens held after a tick start that meets no fault. -/
theorem holds_of_ticksStartAndEnd (h : Obligations.TicksStartAndEnd) (ht : s.ticking = true)
    (he : s.fld Fld.GARNET_STATUS_TIMER_EXPIRED = 1) (ho : s.fld Fld.GARNET_STATUS_OWN_DONE = 1)
    (hc : s.fld Fld.GARNET_STATUS_TOKENS_COMPLETE = 1) (hb : s.fld Fld.BOOT_STATE_STATE < 7) (hp : s.powerState = 0)
    (hf : s.fld Fld.PWR_STATUS_PWRFAIL = 0) (hm : ∀ m ∈ s.garnet.heldNext, m < 512) (hn : s.startTick.boot.fault = none)
    (hx : exec .tickStart s = .next s.startTick) (m : Member) : s.startTick.holds m = true ↔ m.val ∈ s.garnet.heldNext := by
  obtain ⟨-, -, hstart, -⟩ := h
  obtain ⟨-, -, -, -, -, -, -, -, -, -, -, hheld, -⟩ :=
    next_of_not (hstart s ht he ho hc hb hp hf hm) hx (by rw [hn]; decide)
  exact hheld m

/-- Refutes O42 in its clause on TICK_START, which says of every state that exactly the tokens received for the tick are held: in
`strayClosing` the token of member 32 is received and, once the stray partition has been closed, not held. The clause lacks the premise that
the partitions to close are below 16. -/
theorem not_ticksStartAndEnd : ¬ Obligations.TicksStartAndEnd := by
  intro h
  have h32 := (holds_of_ticksStartAndEnd h (s := strayClosing) (by decide +kernel) (by decide +kernel) (by decide +kernel) (by decide +kernel)
    (by decide +kernel) (by decide +kernel) (by decide +kernel) (by decide) strayClosing_startTick.fault exec_tickStart_strayClosing
    ⟨32, by decide⟩).mpr (List.mem_singleton.mpr rfl)
  rw [strayClosing_startTick.holds_32] at h32
  exact Bool.noConfusion h32

end Sys2Proof.Machine
end

section
/-! PROOFS. The group forms and ends, its own token is held back, and tokens received are judged (R24, R31, R33, R36, R39, R213). -/

namespace Sys2Proof.Machine

section

variable {s t u : State}

/-! ### No byte changes -/

theorem State.sameMemory_refl (s : State) : s.sameMemory s := State.sameMemory_of_parts rfl rfl rfl rfl rfl
theorem State.wr_sameMemory (s : State) (a : Nat) (v : BitVec 32) : s.sameMemory (s.wr a v) := State.sameMemory_of_parts rfl rfl rfl rfl rfl
theorem State.setFld_sameMemory (s : State) (f : Fld) (v : Nat) : s.sameMemory (s.setFld f v) := s.wr_sameMemory _ _
theorem State.count_sameMemory (s : State) (a n : Nat) : s.sameMemory (s.count a n) := State.sameMemory_of_parts rfl rfl rfl rfl rfl

theorem State.each_sameMemory {α : Type} (s : State) (xs : List α) (f : State → α → State) (h : ∀ (t : State) x, t.sameMemory (f t x)) :
    s.sameMemory (s.each xs f) :=
  State.each_inv s s.sameMemory xs f s.sameMemory_refl fun t x _ ht => State.sameMemory_trans ht (h t x)

theorem State.refreshTokens_sameMemory (s : State) : s.sameMemory s.refreshTokens := s.setFld_sameMemory _ _
theorem State.holdToken_sameMemory (s : State) (m : Nat) : s.sameMemory (s.holdToken m) :=
  State.sameMemory_trans (s.setFld_sameMemory _ _) (State.refreshTokens_sameMemory _)
theorem State.staleToken_sameMemory (s : State) : s.sameMemory s.staleToken :=
  State.sameMemory_trans (s.count_sameMemory _ _) (State.setFld_sameMemory _ _ _)

/-! ### What goes out on the ports -/

/-- `t` is `s` after something was queued or sent on its ports: registers and counters below those of the links, the tick unit, the settings that
wait and every byte are the same (R440). -/
structure State.Sent (s t : State) : Prop where
  now : t.now = s.now
  held : t.held = s.held
  garnet : t.garnet = s.garnet
  rd : ∀ a, a < 0x100000 → t.rd a = s.rd a
  ctr : ∀ a, a < 0x100000 → t.ctr a = s.ctr a
  mem : s.sameMemory t

theorem State.Sent.refl (s : State) : s.Sent s := ⟨rfl, rfl, rfl, fun _ _ => rfl, fun _ _ => rfl, s.sameMemory_refl⟩

theorem State.Sent.modPort (h : s.Sent t) (p : Nat) (f : PortSt → PortSt) : s.Sent (t.modPort p f) := { h with }
theorem State.Sent.out (h : s.Sent t) (e : OutEv) : s.Sent (t.out e) := { h with }

theorem State.Sent.count (h : s.Sent t) {a : Nat} (n : Nat) (ha : 0x100000 ≤ a) : s.Sent (t.count a n) :=
  { h with ctr := fun b hb => (t.ctr_count_ne n (by omega)).trans (h.ctr b hb) }

theorem State.Sent.setFld (h : s.Sent t) {f : Fld} (v : Nat) (hf : 0x100000 ≤ f.addr) : s.Sent (t.setFld f v) :=
  { h with rd := fun b hb => (t.rd_wr_ne _ (by omega)).trans (h.rd b hb) }

theorem State.Sent.each {α : Type} (h : s.Sent t) (xs : List α) (f : State → α → State) (hf : ∀ u x, s.Sent u → s.Sent (f u x)) :
    s.Sent (t.each xs f) := State.each_inv t s.Sent xs f h fun u x _ hu => hf u x hu

theorem State.Sent.injected (h : s.Sent t) (p n : Nat) : s.Sent (t.injected p n) := by
  have hp : ∀ k, 0x100000 ≤ 0x100000 + 0x10000 * p + k := fun k => by omega
  have hc : s.Sent (t.count (Ct.LNK_INJECTED p) n) := h.count n (hp _)
  unfold State.injected State.when
  dsimp only
  split
  · exact hc.setFld (f := Fld.LNK_INJ_CTRL_ARM p) 0 (hp _)
  · exact hc

theorem State.Sent.ite {β : Type} {c : Prop} [Decidable c] {x y : State × β} (hx : s.Sent x.1) (hy : s.Sent y.1) :
    s.Sent (if c then x else y).1 := by
  split
  · exact hx
  · exact hy

theorem State.Sent.injectFlit (h : s.Sent t) (p : Nat) (f : TxFlit) : s.Sent (t.injectFlit p f).1 := by
  unfold State.injectFlit
  refine .ite h ?_
  dsimp only
  split
  · exact ((h.modPort _ _).modPort _ _).injected _ _
  · refine .ite ?_ ?_
    · dsimp only
      exact h.modPort _ _
    · split
      · exact (h.modPort _ _).injected _ _
      · exact (h.modPort _ _).injected _ _
      · dsimp only
        exact (h.modPort _ _).modPort _ _

theorem State.Sent.emit (h : s.Sent t) (p : Nat) (f : TxFlit) : s.Sent (t.emit p f true) := by
  unfold State.emit
  split
  · exact h
  · exact ((h.injectFlit p f).each _ _ fun u bs hu => hu.out _).modPort _ _

theorem State.Sent.sendFlit (h : s.Sent t) (p : Nat) (m : TxMsg) : s.Sent (t.sendFlit p m) := by
  unfold State.sendFlit
  split
  · exact h.modPort _ _
  · exact ((h.modPort _ _).count _ (by unfold Ct.LNK_TX_FLITS; omega)).emit _ _

theorem State.Sent.pumpN (h : s.Sent t) (p n : Nat) : s.Sent (t.pumpN p n) := by
  induction n generalizing t with
  | zero => exact h
  | succ n ih =>
    unfold State.pumpN
    split
    · exact h
    · split
      · exact h
      · exact ih (h.sendFlit _ _)

/-- Tokens queued go out on the ports, and that is all. -/
theorem State.sendTicks_sent (s : State) : s.Sent s.sendTicks := (State.Sent.refl s).each _ _ fun _ _ hu => hu.pumpN _ _

theorem State.flood_sent (s : State) (k : Token) (p : Option Nat) : s.Sent (s.flood k p) :=
  (State.Sent.refl s).each _ _ fun _ _ hu => hu.modPort _ _

theorem State.Sent.fld (h : s.Sent t) {f : Fld} (hf : f.addr < 0x100000) : t.fld f = s.fld f := by rw [State.fld, h.rd _ hf]; rfl

theorem State.Sent.ticking (h : s.Sent t) : t.ticking = s.ticking := by
  unfold State.ticking State.inForce State.rdForce
  rw [h.held, h.rd _ (by decide)]

/-- A port with nothing queued sends nothing. -/
theorem State.pumpN_of_empty {p : Nat} (h : (s.port p).queue = []) (n : Nat) : s.pumpN p n = s := by
  have hm : (s.port p).pickMsg = none := by
    unfold PortSt.pickMsg
    rw [h]
    exact List.findSome?_eq_none_iff.mpr fun v _ => by split <;> rfl
  cases n with
  | zero => rfl
  | succ n =>
    unfold State.pumpN
    rw [hm]
    split <;> rfl

theorem State.sendTicks_of_empty (h : ∀ p, (s.port p).queue = []) : s.sendTicks = s :=
  State.each_inv s (· = s) _ _ rfl fun t p _ ht => by subst ht; exact State.pumpN_of_empty (h p) _

/-! ### The registers that say where the tick stands -/

/-- CTRL, TICK and of STATUS the state, the timer and the own token (R58). -/
@[irreducible] def State.tickView (s : State) : BitVec 32 × BitVec 32 × Nat × Nat × Nat :=
  (s.rd Rg.GARNET_CTRL, s.tickNo, s.tickState, s.fld Fld.GARNET_STATUS_TIMER_EXPIRED, s.fld Fld.GARNET_STATUS_OWN_DONE)

theorem State.tickView_of_rd (h : ∀ a ∈ [Rg.GARNET_CTRL, Rg.GARNET_TICK, Rg.GARNET_STATUS], t.rd a = s.rd a) : t.tickView = s.tickView := by
  have hc := h _ (by simp : Rg.GARNET_CTRL ∈ _)
  have ht := h _ (by simp : Rg.GARNET_TICK ∈ _)
  have hs := h _ (by simp : Rg.GARNET_STATUS ∈ _)
  have hf : ∀ f : Fld, f.addr = Rg.GARNET_STATUS → t.fld f = s.fld f := fun f e => by rw [State.fld, e, hs, ← e]; rfl
  unfold State.tickView State.tickNo State.tickState
  rw [hc, ht, hf _ rfl, hf _ rfl, hf _ rfl]

theorem State.tickView_of_regs (h : t.regs = s.regs) : t.tickView = s.tickView :=
  State.tickView_of_rd fun a _ => by rw [State.rd, h]; rfl

/-- A field of another register, or one of STATUS above the own token's bit. -/
theorem State.tickView_setFld {f : Fld} (v : Nat)
    (h : f.addr ≠ Rg.GARNET_CTRL ∧ f.addr ≠ Rg.GARNET_TICK ∧ (f.addr = Rg.GARNET_STATUS → 4 ≤ f.lo)) : (s.setFld f v).tickView = s.tickView := by
  obtain ⟨hc, ht, hs⟩ := h
  have hf : ∀ g : Fld, g.addr = Rg.GARNET_STATUS → g.lo + g.w ≤ 4 → (s.setFld f v).fld g = s.fld g := fun g e hg => by
    by_cases ha : f.addr = Rg.GARNET_STATUS
    · exact s.fld_setFld_disjoint f g v (.inl (Nat.le_trans hg (hs ha)))
    · exact s.fld_setFld_addr f g v (fun e' => ha (e'.trans e))
  unfold State.tickView State.tickNo State.tickState
  rw [hf _ rfl (by decide), hf _ rfl (by decide), hf _ rfl (by decide), State.setFld, s.rd_wr_ne _ hc, s.rd_wr_ne _ ht]

/-- Registers outside the tick unit's block (R440). -/
theorem State.tickView_setFld_beside {f : Fld} (v : Nat) (h : f.addr < 0x70000 ∨ 0x70019 ≤ f.addr) : (s.setFld f v).tickView = s.tickView :=
  State.tickView_setFld v (by unfold Rg.GARNET_CTRL Rg.GARNET_TICK Rg.GARNET_STATUS; omega)

theorem State.Sent.tickView (h : s.Sent t) : t.tickView = s.tickView :=
  State.tickView_of_rd fun a ha => h.rd a (by simp only [List.mem_cons, List.not_mem_nil, or_false] at ha; rcases ha with rfl | rfl | rfl <;> decide)

theorem State.tickView_eq (h : t.tickView = s.tickView) : t.rd Rg.GARNET_CTRL = s.rd Rg.GARNET_CTRL ∧ t.tickNo = s.tickNo ∧
    t.tickState = s.tickState ∧ t.fld Fld.GARNET_STATUS_TIMER_EXPIRED = s.fld Fld.GARNET_STATUS_TIMER_EXPIRED ∧
    t.fld Fld.GARNET_STATUS_OWN_DONE = s.fld Fld.GARNET_STATUS_OWN_DONE := by
  unfold State.tickView at h
  simpa only [Prod.mk.injEq] using h

theorem State.tickState_of_view (h : t.tickView = s.tickView) : t.tickState = s.tickState := (State.tickView_eq h).2.2.1

theorem State.refreshTokens_tickView (s : State) : s.refreshTokens.tickView = s.tickView := State.tickView_setFld _ (by decide)

theorem State.holdToken_tickView (s : State) (m : Nat) : (s.holdToken m).tickView = s.tickView :=
  (State.refreshTokens_tickView _).trans (State.tickView_setFld_beside _ (.inr (Nat.le_add_right_of_le (by decide))))

theorem State.staleToken_tickView (s : State) : s.staleToken.tickView = s.tickView :=
  (State.tickView_setFld_beside (f := Fld.GARNET_EVENTS_STALE_TOKEN) _ (.inr (by decide))).trans (State.tickView_of_regs rfl)

theorem State.jasper_tickView (s : State) (e : JCode) (n d d2 : Nat) : (s.jasper e n d d2).tickView = s.tickView :=
  State.tickView_of_rd fun _ _ => s.jasper_rd _ _ _ _ _

/-- Where no step runs there is none to abandon (R54). -/
theorem State.abandonStep_of_not_running (h : s.tickState ≠ stRunning) (b : Bool) : s.abandonStep b = s := if_pos h

theorem State.judgeToken_tickView (h : s.tickState ≠ stRunning) (k : Token) : (s.judgeToken k).tickView = s.tickView := by
  have hh (u : State) (hu : u.regs = (s.holdToken k.member.val).regs) : u.tickView = s.tickView :=
    (State.tickView_of_regs hu).trans (s.holdToken_tickView _)
  have he (u : State) (hu : u.tickView = s.tickView) : ((u.raise Fld.GARNET_EVENTS_ABANDON_RECEIVED).abandonStep true).tickView = s.tickView := by
    have hr : (u.raise Fld.GARNET_EVENTS_ABANDON_RECEIVED).tickView = s.tickView := (State.tickView_setFld_beside _ (.inr (by decide))).trans hu
    rw [State.abandonStep_of_not_running fun e => h ((State.tickState_of_view hr).symm.trans e)]
    exact hr
  unfold State.judgeToken
  dsimp only
  split
  · split
    · exact hh _ rfl
    · split
      · exact hh _ rfl
      · exact he _ (hh _ rfl)
  · split
    · exact State.tickView_of_regs rfl
    · split
      · exact (State.jasper_tickView _ _ _ _ _).trans (State.tickView_setFld_beside (f := Fld.GARNET_EVENTS_FUTURE_TOKEN) _ (.inr (by decide)))
      · exact s.staleToken_tickView

/-! ### Completions, host pages and a wake say nothing of the tick -/

theorem State.sendMsix_tickView (s : State) (v : Nat) : (s.sendMsix v).tickView = s.tickView := by
  unfold State.sendMsix
  dsimp only
  split
  · exact State.tickView_of_regs rfl
  · exact State.tickView_of_regs rfl

theorem State.signalVector_tickView (s : State) (v : Nat) : (s.signalVector v).tickView = s.tickView := by
  unfold State.signalVector
  dsimp only
  split
  · exact (State.sendMsix_tickView _ v).trans (State.tickView_of_regs rfl)
  · exact State.tickView_of_regs rfl

/-- CQ_TAIL lies in the upper half of its word, of whatever queue. -/
theorem State.putCompletion_tickView (s : State) (q : Nat) (e : BitVec 128) : (s.putCompletion q e).tickView = s.tickView := by
  unfold State.putCompletion
  dsimp only
  refine (State.when_keeps _ State.tickView _ _ (State.signalVector_tickView _ _)).trans ?_
  refine (State.tickView_of_regs (State.count_regs _ _ _)).trans ?_
  refine (State.tickView_of_regs (State.when_keeps _ State.regs _ (State.modQueue · q fun x => { x with odd := !x.odd }) rfl)).trans ?_
  exact (State.tickView_setFld (f := Fld.HQ_Q_HEADS_CQ_TAIL q) _
    (by unfold Fld.HQ_Q_HEADS_CQ_TAIL Rg.GARNET_CTRL Rg.GARNET_TICK Rg.GARNET_STATUS; dsimp only; omega)).trans
    (State.tickView_of_regs rfl)

theorem State.completeCmd_tickView (s : State) (c : CmdRef) (st : Status) (n : Nat) : (s.completeCmd c st n).tickView = s.tickView := by
  unfold State.completeCmd
  dsimp only
  split
  · exact State.tickView_of_regs rfl
  · split
    · exact s.putCompletion_tickView _ _
    · exact State.tickView_of_regs rfl

theorem State.recountSess_tickView (s : State) : s.recountSess.tickView = s.tickView :=
  (State.tickView_setFld_beside _ (.inl (by decide))).trans (State.tickView_setFld_beside _ (.inl (by decide)))

theorem State.takePages_tickView (s : State) : s.takePages.tickView = s.tickView :=
  (State.tickView_setFld_beside (f := Fld.OBJ_HOST_PAGES_FREE_PAGES) _ (.inl (by decide))).trans (State.tickView_of_regs rfl)

theorem State.stackState_tickView (s : State) (st v : Nat) : (s.stackState st v).tickView = s.tickView := by
  refine (State.tickView_setFld_beside (f := Fld.MDC_STATUS_STACK_READY (st / 3)) _ (.inr ?_)).trans
    (State.tickView_setFld_beside (f := Fld.STK_STATUS_STATE st) _ (.inr ?_))
  · unfold Fld.MDC_STATUS_STACK_READY memDieBase
    dsimp only
    omega
  · unfold Fld.STK_STATUS_STATE stackBase memDieBase
    dsimp only
    omega

theorem State.modPower_tickView (s : State) (f : PowerSt → PowerSt) : (s.modPower f).tickView = s.tickView := State.tickView_of_regs rfl

theorem State.beginWake_tickView (s : State) : s.beginWake.tickView = s.tickView := by
  have hw (f : PowerSt → PowerSt) : ((s.raise Fld.PWR_STATUS_WAKING).modPower f).tickView = s.tickView :=
    (State.modPower_tickView _ f).trans (State.tickView_setFld_beside _ (.inl (by decide)))
  unfold State.beginWake
  dsimp only
  split
  · exact State.tickView_of_regs rfl
  · split
    · refine (State.each_keeps _ State.tickView _ _ fun t st _ => ?_).trans (hw _)
      refine (State.stackState_tickView _ _ _).trans (State.each_keeps _ State.tickView _ _ fun t c _ => ?_)
      exact State.tickView_setFld_beside (f := Fld.CH_STATUS_STATE _) _
        (.inr (by unfold Fld.CH_STATUS_STATE channelBase stackBase memDieBase; dsimp only; omega))
    · exact hw _

/-! ### The group forms (R36) -/

theorem State.issueDone_view (s : State) (b : Bool) : (s.issueDone b).tickView = (s.raise Fld.GARNET_STATUS_OWN_DONE).tickView := by
  unfold State.issueDone
  dsimp only
  refine (State.sendTicks_sent _).tickView.trans ((State.flood_sent _ _ _).tickView.trans ((State.holdToken_tickView _ _).trans ?_))
  refine (State.when_keeps _ State.tickView _ (State.raise · Fld.GARNET_EVENTS_ABANDON_SENT)
    (State.tickView_setFld_beside (f := Fld.GARNET_EVENTS_ABANDON_SENT) _ (.inr (by decide)))).trans ?_
  exact State.tickView_of_regs rfl

/-- The tick unit as R36 leaves it, where CTRL reads `w`: step `last` is done, the timer has expired, and the own token is out unless it is
withheld (R31). -/
structure State.Formed (w last : BitVec 32) (t : State) : Prop where
  ctrl : t.rd Rg.GARNET_CTRL = w
  tick : t.tickNo = last
  done : t.tickState = stDone
  timer : t.fld Fld.GARNET_STATUS_TIMER_EXPIRED = 1
  own : bvGet 2 1 w = 0 → t.fld Fld.GARNET_STATUS_OWN_DONE = 1

variable {w last : BitVec 32}

theorem State.Formed.congr (h : State.Formed w last s) (hv : t.tickView = s.tickView) : State.Formed w last t := by
  obtain ⟨hc, ht, hs, he, ho⟩ := State.tickView_eq hv
  exact ⟨hc.trans h.ctrl, ht.trans h.tick, hs.trans h.done, he.trans h.timer, fun hw => ho.trans (h.own hw)⟩

theorem State.Formed.judgeToken (h : State.Formed w last s) (k : Token) : State.Formed w last (s.judgeToken k) :=
  h.congr (State.judgeToken_tickView (by rw [h.done]; decide) k)

/-- The state and the timer's bit written, then the own token issued unless WITHHOLD is set. -/
theorem State.formed_of_tick (hc : s.rd Rg.GARNET_CTRL = w) (ht : s.tickNo = last) (hu : ((s.setFld Fld.GARNET_STATUS_STATE stDone).raise
    Fld.GARNET_STATUS_TIMER_EXPIRED).setFld Fld.GARNET_STATUS_OWN_DONE 0 = u) :
    State.Formed w last (if u.fld Fld.GARNET_CTRL_WITHHOLD = 1 then u else u.issueDone false) := by
  have hctrl : u.rd Rg.GARNET_CTRL = w := by
    rw [← hu, ← hc]
    exact (State.rd_wr_ne _ _ (by decide)).trans ((State.rd_wr_ne _ _ (by decide)).trans (State.rd_wr_ne _ _ (by decide)))
  have htick : u.tickNo = last := by
    rw [← hu, ← ht]
    exact (State.rd_wr_ne _ _ (by decide)).trans ((State.rd_wr_ne _ _ (by decide)).trans (State.rd_wr_ne _ _ (by decide)))
  have hdone : u.tickState = stDone := by
    rw [← hu, State.tickState, State.fld_setFld_disjoint _ _ _ _ (by decide), State.raise, State.fld_setFld_disjoint _ _ _ _ (by decide)]
    exact State.fld_setFld_same _ _ _ (by decide)
  have htimer : u.fld Fld.GARNET_STATUS_TIMER_EXPIRED = 1 := by
    rw [← hu, State.fld_setFld_disjoint _ _ _ _ (by decide)]
    exact State.fld_setFld_same _ _ _ (by decide)
  split
  case isTrue hw =>
    refine ⟨hctrl, htick, hdone, htimer, fun h0 => absurd hw ?_⟩
    rw [State.fld, show Fld.GARNET_CTRL_WITHHOLD.addr = Rg.GARNET_CTRL from rfl, hctrl]
    exact fun h1 => absurd (h0.symm.trans h1) (by decide)
  case isFalse =>
    refine State.Formed.congr ?_ (u.issueDone_view false)
    refine ⟨(State.rd_wr_ne _ _ (by decide)).trans hctrl, (State.rd_wr_ne _ _ (by decide)).trans htick,
      (State.fld_setFld_disjoint _ _ _ _ (by decide)).trans hdone, (State.fld_setFld_disjoint _ _ _ _ (by decide)).trans htimer,
      fun _ => State.fld_setFld_same _ _ _ (by decide)⟩

/-- The group forms as though step S − 1 were done (R36). -/
theorem State.formGroup_formed (s : State) : State.Formed (s.rd Rg.GARNET_CTRL) (s.rd Rg.GARNET_START_TICK - 1#32) s.formGroup := by
  unfold State.formGroup
  dsimp only
  refine State.Formed.congr ?_ (State.beginWake_tickView _)
  refine State.Formed.congr ?_ (State.modPower_tickView _ _)
  refine State.Formed.congr ?_ ((State.refreshTokens_tickView _).trans (State.takePages_tickView _))
  refine State.Formed.congr ?_ (State.each_keeps _ State.tickView _ _ fun t x _ => State.completeCmd_tickView t _ _ _)
  refine State.Formed.congr ?_ (State.recountSess_tickView _)
  refine State.Formed.congr ?_ (State.tickView_of_regs (State.modHost_regs _ _))
  refine State.each_inv _ (State.Formed _ _) _ _ ?_ fun t k _ ht => ht.judgeToken _
  refine State.formed_of_tick ?_ ?_ rfl
  · refine (State.each_keeps _ (State.rd · Rg.GARNET_CTRL) _ _ fun t i _ => ?_).trans (State.rd_wr_ne _ _ (by decide))
    exact State.rd_wr_ne _ _ (by unfold Fld.GARNET_TOKENS_HELD_HELD Rg.GARNET_CTRL; dsimp only; omega)
  · refine (State.each_keeps _ State.tickNo _ _ fun t i _ => ?_).trans (State.rd_wr_same _ _ _)
    exact State.rd_wr_ne _ _ (by unfold Fld.GARNET_TOKENS_HELD_HELD Rg.GARNET_TICK; dsimp only; omega)

/-! ### ENABLE written (R24, R36) -/

/-- The tick unit is never powered off (R408). -/
theorem State.garnet_powered (s : State) : s.poweredOff Rg.GARNET_CTRL = false := by
  unfold State.poweredOff
  rw [show decodeBlk Rg.GARNET_CTRL = some (.garnet, 0x70000) by decide]
  simp [inCluster]

theorem State.bar0_garnetCtrl (h : s.serves Rg.GARNET_CTRL = true) (f : State → State) : s.bar0 Rg.GARNET_CTRL f = f s :=
  s.bar0_of_serves f h (s.inReset_of_powered s.garnet_powered) s.garnet_powered

theorem State.ticking_of_not_held (h : s.held = []) : s.ticking = (s.fld Fld.GARNET_CTRL_ENABLE == 1) := by
  rw [State.ticking, s.inForce_of_not_held _ (by rw [h]; rfl)]

/-- Outside a step the bit written is in force at once. -/
theorem State.wrDefer_ctrl_of_idle (h : s.inStep = false) (v : BitVec 32) : s.wrDefer Rg.GARNET_CTRL v = s.wr Rg.GARNET_CTRL v := by
  have ht : toTickIf s.ticking Rg.GARNET_CTRL = false := by cases s.ticking <;> decide
  simp [State.wrDefer, h, ht]

/-- During a step the word before stays in force. -/
theorem State.wrDefer_ctrl_in_step (h : s.inStep = true) (hh : s.held = []) (v : BitVec 32) :
    s.wrDefer Rg.GARNET_CTRL v = { s with held := [(Rg.GARNET_CTRL, s.rd Rg.GARNET_CTRL)] }.wr Rg.GARNET_CTRL v := by
  unfold State.wrDefer
  rw [h, hh]
  rfl

theorem State.enable_wr (s : State) (w : BitVec 32) (on : Bool) : (s.wr Rg.GARNET_CTRL (bvPut 0 w on)).fld Fld.GARNET_CTRL_ENABLE = bit1 on := by
  rw [State.fld, show Fld.GARNET_CTRL_ENABLE.addr = Rg.GARNET_CTRL from rfl, State.rd_wr_same]
  refine (bvGet_bvSet_same 0 1 w _ (by decide)).trans ?_
  cases on <;> rfl

theorem State.ticking_wr (h : s.held = []) (w : BitVec 32) (on : Bool) : (s.wr Rg.GARNET_CTRL (bvPut 0 w on)).ticking = on := by
  refine (State.ticking_of_not_held (s := s.wr Rg.GARNET_CTRL (bvPut 0 w on)) h).trans ?_
  rw [State.enable_wr]
  cases on <;> rfl

theorem State.setEnable_forms (hs : s.inStep = false) (hh : s.held = []) (he : s.fld Fld.GARNET_CTRL_ENABLE = 0) :
    s.setEnable true = (s.wr Rg.GARNET_CTRL (bvPut 0 (s.rd Rg.GARNET_CTRL) true)).formGroup := by
  have hb : s.ticking = false := by rw [State.ticking_of_not_held hh, he]; rfl
  have ha : (s.wr Rg.GARNET_CTRL (bvPut 0 (s.rd Rg.GARNET_CTRL) true)).ticking = true := State.ticking_wr hh _ _
  unfold State.setEnable
  dsimp only
  rw [State.wrDefer_ctrl_of_idle hs, hb, ha]

theorem State.setEnable_leaves (hs : s.inStep = false) (hh : s.held = []) (he : s.fld Fld.GARNET_CTRL_ENABLE = 1) :
    s.setEnable false = (s.wr Rg.GARNET_CTRL (bvPut 0 (s.rd Rg.GARNET_CTRL) false)).leaveGroup := by
  have hb : s.ticking = true := by rw [State.ticking_of_not_held hh, he]; rfl
  have ha : (s.wr Rg.GARNET_CTRL (bvPut 0 (s.rd Rg.GARNET_CTRL) false)).ticking = false := State.ticking_wr hh _ _
  unfold State.setEnable
  dsimp only
  rw [State.wrDefer_ctrl_of_idle hs, hb, ha]

/-- ENABLE in force is that of the word held. -/
theorem State.inForce_ctrl_held (s : State) (w v : BitVec 32) :
    ({ s with held := [(Rg.GARNET_CTRL, w)] }.wr Rg.GARNET_CTRL v).inForce Fld.GARNET_CTRL_ENABLE = bvGet 0 1 w := rfl

theorem State.setEnable_waits (hs : s.inStep = true) (hh : s.held = []) (on : Bool) :
    s.setEnable on = { s with held := [(Rg.GARNET_CTRL, s.rd Rg.GARNET_CTRL)] }.wr Rg.GARNET_CTRL (bvPut 0 (s.rd Rg.GARNET_CTRL) on) := by
  have ha : ({ s with held := [(Rg.GARNET_CTRL, s.rd Rg.GARNET_CTRL)] }.wr Rg.GARNET_CTRL (bvPut 0 (s.rd Rg.GARNET_CTRL) on)).ticking = s.ticking := by
    rw [State.ticking_of_not_held hh, State.ticking, State.inForce_ctrl_held]
    rfl
  unfold State.setEnable
  dsimp only
  rw [State.wrDefer_ctrl_in_step hs hh, ha]
  cases s.ticking <;> rfl

theorem exec_garnetEnableSet_eq (h : s.serves Rg.GARNET_CTRL = true) : exec .garnetEnableSet s = .next (s.setEnable true) :=
  congrArg Host.Outcome.next (State.bar0_garnetCtrl h _)

theorem exec_garnetEnableClear_eq (h : s.serves Rg.GARNET_CTRL = true) : exec .garnetEnableClear s = .next (s.setEnable false) :=
  congrArg Host.Outcome.next (State.bar0_garnetCtrl h _)

theorem exec_withhold_eq (h : s.serves Rg.GARNET_CTRL = true) (v : Bool) : exec (.withhold v) s = .next (s.setWithhold v) :=
  congrArg Host.Outcome.next (State.bar0_garnetCtrl h _)

/-- GARNET_ENABLE_SET outside a step (R36). -/
theorem exec_garnetEnableSet_forms (h : s.serves Rg.GARNET_CTRL = true) (hs : s.inStep = false) (hh : s.held = [])
    (he : s.fld Fld.GARNET_CTRL_ENABLE = 0) :
    ∃ t, exec .garnetEnableSet s = .next t ∧ t.fld Fld.GARNET_CTRL_ENABLE = 1 ∧ t.tickState = stDone ∧
      t.tickNo = s.rd Rg.GARNET_START_TICK - 1#32 ∧ t.fld Fld.GARNET_STATUS_TIMER_EXPIRED = 1 ∧
      (s.fld Fld.GARNET_CTRL_WITHHOLD = 0 → t.fld Fld.GARNET_STATUS_OWN_DONE = 1) := by
  obtain ⟨hc, ht, hd, hx, ho⟩ := State.formGroup_formed (s.wr Rg.GARNET_CTRL (bvPut 0 (s.rd Rg.GARNET_CTRL) true))
  have hw : (s.wr Rg.GARNET_CTRL (bvPut 0 (s.rd Rg.GARNET_CTRL) true)).fld Fld.GARNET_CTRL_WITHHOLD = s.fld Fld.GARNET_CTRL_WITHHOLD :=
    s.fld_setFld_disjoint Fld.GARNET_CTRL_ENABLE _ _ (.inr (by decide))
  refine ⟨_, (exec_garnetEnableSet_eq h).trans (congrArg _ (State.setEnable_forms hs hh he)), ?_, hd, ?_, hx, fun h0 => ho (hw.trans h0)⟩
  · rw [State.fld, show Fld.GARNET_CTRL_ENABLE.addr = Rg.GARNET_CTRL from rfl, hc]
    exact s.enable_wr _ true
  · rw [ht, s.rd_wr_ne _ (by decide)]

/-- A ring that was in use and still is keeps its producer index. -/
theorem State.startRing_of_same {f : Fld} (g : Fld) {was : Bool} (h : was = (s.inForce f == 1)) : s.startRing f g was = s := by
  unfold State.startRing
  rw [h]
  cases s.inForce f == 1 <;> rfl

/-- Where no setting waits only the free pages are counted again. -/
theorem State.releaseHeld_of_none (h : s.held = []) (keep : Nat → Bool) : s.releaseHeld keep = s.recountPages := by
  have he : { s with held := s.held.filter fun p => keep p.1 } = s := by rw [h, List.filter_nil, ← h]
  unfold State.releaseHeld
  dsimp only
  rw [he]
  refine congrArg State.recountPages (State.each_inv s (· = s) _ _ rfl fun t p _ ht => ?_)
  subst ht
  rw [State.startRing_of_same _ rfl, State.startRing_of_same _ rfl]

theorem State.leaveGroup_of_none (h : s.held = []) :
    s.leaveGroup = (({ s with garnet := { s.garnet with watch := false } }.recountPages).setFld Fld.GARNET_STATUS_STATE stDisabled).refreshTokens := by
  unfold State.leaveGroup State.stopGroup
  rw [State.releaseHeld_of_none (s := { s with garnet := { s.garnet with watch := false } }) h]

/-- GARNET_ENABLE_CLEAR outside a step (R36). -/
theorem exec_garnetEnableClear_leaves (h : s.serves Rg.GARNET_CTRL = true) (hs : s.inStep = false) (hh : s.held = [])
    (he : s.fld Fld.GARNET_CTRL_ENABLE = 1) :
    ∃ t, exec .garnetEnableClear s = .next t ∧ t.fld Fld.GARNET_CTRL_ENABLE = 0 ∧ t.tickState = stDisabled ∧ s.sameMemory t ∧
      s.sameRegs t [Rg.GARNET_CTRL, Fld.GARNET_STATUS_STATE.addr, Fld.OBJ_HOST_PAGES_FREE_PAGES.addr] := by
  refine ⟨_, (exec_garnetEnableClear_eq h).trans (congrArg _ ((State.setEnable_leaves hs hh he).trans (State.leaveGroup_of_none hh))),
    ?_, ?_, State.sameMemory_of_parts rfl rfl rfl rfl rfl, fun a ha => ?_⟩
  · refine (State.fld_setFld_addr _ _ _ _ (by decide)).trans ((State.fld_setFld_addr _ _ _ _ (by decide)).trans
      ((State.fld_setFld_addr _ _ _ _ (by decide)).trans ?_))
    exact s.enable_wr _ false
  · exact (State.fld_setFld_disjoint _ _ _ _ (by decide)).trans (State.fld_setFld_same _ _ _ (by decide))
  · simp only [List.mem_cons, List.not_mem_nil, or_false, not_or] at ha
    obtain ⟨hc, hs, hp⟩ := ha
    exact (State.rd_wr_ne _ _ (Ne.symm hs)).trans ((State.rd_wr_ne _ _ (Ne.symm hs)).trans ((State.rd_wr_ne _ _ (Ne.symm hp)).trans
      (State.rd_wr_ne _ _ (Ne.symm hc))))

/-- During a step the bit written waits and the one in force stays (R24). -/
theorem exec_garnetEnable_waits {i : Instr} {v : Nat} (hi : i = .garnetEnableSet ∧ v = 1 ∨ i = .garnetEnableClear ∧ v = 0)
    (h : s.serves Rg.GARNET_CTRL = true) (hs : s.inStep = true) (hh : s.held = []) :
    ∃ t, exec i s = .next t ∧ t.fld Fld.GARNET_CTRL_ENABLE = v ∧ t.inForce Fld.GARNET_CTRL_ENABLE = s.fld Fld.GARNET_CTRL_ENABLE ∧
      t.tickState = s.tickState ∧ s.sameRegs t [Rg.GARNET_CTRL] ∧ s.sameMemory t := by
  obtain ⟨on, hx, rfl⟩ : ∃ on, exec i s = .next (s.setEnable on) ∧ bit1 on = v := by
    obtain ⟨rfl, rfl⟩ | ⟨rfl, rfl⟩ := hi
    · exact ⟨true, exec_garnetEnableSet_eq h, rfl⟩
    · exact ⟨false, exec_garnetEnableClear_eq h, rfl⟩
  refine ⟨_, hx.trans (congrArg _ (State.setEnable_waits hs hh on)), State.enable_wr _ _ on, State.inForce_ctrl_held _ _ _,
    State.fld_setFld_addr (f := Fld.GARNET_CTRL_ENABLE) _ _ _ (by decide), fun a ha => State.rd_wr_ne _ _ fun e => ha (List.mem_singleton.mpr e.symm),
    State.sameMemory_of_parts rfl rfl rfl rfl rfl⟩

/-! ### WITHHOLD written (R31, R213) -/

theorem State.issueDone_sameMemory (s : State) (b : Bool) : s.sameMemory (s.issueDone b) := by
  unfold State.issueDone
  dsimp only
  refine State.sameMemory_trans ?_ (State.sendTicks_sent _).mem
  refine State.sameMemory_trans ?_ (State.flood_sent _ _ _).mem
  refine State.sameMemory_trans ?_ (State.holdToken_sameMemory _ _)
  cases b
  · exact State.sameMemory_of_parts rfl rfl rfl rfl rfl
  · exact State.sameMemory_of_parts rfl rfl rfl rfl rfl

theorem exec_withhold_set (h : s.serves Rg.GARNET_CTRL = true) :
    ∃ t, exec (.withhold true) s = .next t ∧ t.fld Fld.GARNET_CTRL_WITHHOLD = 1 ∧ t.fld Fld.GARNET_CTRL_ENABLE = s.fld Fld.GARNET_CTRL_ENABLE ∧
      s.sameRegs t [Rg.GARNET_CTRL] ∧ s.sameMemory t :=
  ⟨_, exec_withhold_eq h true, s.fld_setFld_same Fld.GARNET_CTRL_WITHHOLD 1 (by decide),
    s.fld_setFld_disjoint Fld.GARNET_CTRL_WITHHOLD _ 1 (.inl (by decide)), fun _ ha => s.rd_wr_ne _ fun e => ha (List.mem_singleton.mpr e.symm),
    s.setFld_sameMemory _ _⟩

theorem State.clearWithhold_sameMemory (s : State) : s.sameMemory s.clearWithhold := by
  have hu := State.sameMemory_trans (s.setFld_sameMemory Fld.GARNET_CTRL_WITHHOLD 0)
    (State.each_sameMemory _ (List.range 12) (fun t st => t.setFld (Fld.STK_THERM_WITHHOLD_AUTO st) 0) fun t _ => t.setFld_sameMemory _ _)
  unfold State.clearWithhold
  dsimp only
  split
  · exact State.sameMemory_trans hu (State.issueDone_sameMemory _ _)
  · exact hu

/-- WITHHOLD falls, and the own token of a done step that was withheld goes out. -/
theorem State.clearWithhold_fld (s : State) : s.clearWithhold.fld Fld.GARNET_CTRL_WITHHOLD = 0 ∧
    (s.tickState = stDone → s.fld Fld.GARNET_STATUS_OWN_DONE = 0 → s.clearWithhold.fld Fld.GARNET_STATUS_OWN_DONE = 1) := by
  unfold State.clearWithhold
  dsimp only
  generalize hu : State.each _ _ _ = u
  obtain ⟨hc, -, hs, -, ho⟩ : _ ∧ _ ∧ _ ∧ _ ∧ _ := State.tickView_eq (s := s.setFld Fld.GARNET_CTRL_WITHHOLD 0) (t := u) <| by
    rw [← hu]
    refine State.each_keeps _ State.tickView _ _ fun t st _ => State.tickView_setFld_beside (f := Fld.STK_THERM_WITHHOLD_AUTO st) _ (.inr ?_)
    unfold Fld.STK_THERM_WITHHOLD_AUTO stackBase memDieBase
    dsimp only
    omega
  have hw : ∀ v : State, v.rd Rg.GARNET_CTRL = u.rd Rg.GARNET_CTRL → v.fld Fld.GARNET_CTRL_WITHHOLD = 0 := fun v hv => by
    rw [State.fld, show Fld.GARNET_CTRL_WITHHOLD.addr = Rg.GARNET_CTRL from rfl, hv, hc]
    exact s.fld_setFld_same Fld.GARNET_CTRL_WITHHOLD 0 (by decide)
  have hs := hs.trans (s.fld_setFld_addr Fld.GARNET_CTRL_WITHHOLD Fld.GARNET_STATUS_STATE 0 (by decide))
  have ho := ho.trans (s.fld_setFld_addr Fld.GARNET_CTRL_WITHHOLD Fld.GARNET_STATUS_OWN_DONE 0 (by decide))
  split
  case isTrue =>
    obtain ⟨hc', -, -, -, ho'⟩ := State.tickView_eq (u.issueDone_view u.garnet.abandoned)
    exact ⟨hw _ (hc'.trans (u.rd_wr_ne _ (by decide))), fun _ _ => ho'.trans (u.fld_setFld_same _ _ (by decide))⟩
  case isFalse hn => exact ⟨hw u rfl, fun h1 h0 => absurd ⟨hs.trans h1, ho.trans h0⟩ hn⟩

theorem exec_withhold_clear (h : s.serves Rg.GARNET_CTRL = true) :
    ∃ t, exec (.withhold false) s = .next t ∧ t.fld Fld.GARNET_CTRL_WITHHOLD = 0 ∧
      (s.tickState = stDone → s.fld Fld.GARNET_STATUS_OWN_DONE = 0 → t.fld Fld.GARNET_STATUS_OWN_DONE = 1) ∧ s.sameMemory t :=
  ⟨_, exec_withhold_eq h false, s.clearWithhold_fld.1, s.clearWithhold_fld.2, s.clearWithhold_sameMemory⟩

/-! ### Tokens received (R33, R39) -/

theorem exec_tickToken_of_carries {p : PortId} (h : s.carriesTicks p = true) (k : Token) :
    exec (.tickToken p k) s = .next (s.rxToken p k).sendTicks := congrArg Host.Outcome.next (if_pos h)

/-- A port outside the ring refuses the token. -/
theorem exec_tickToken_refused {p : PortId} (h : s.carriesTicks p = false) (k : Token) :
    exec (.tickToken p k) s = .next (s.count (Ct.LNK_BAD_FLITS p) 1) := congrArg Host.Outcome.next (if_neg (by rw [h]; decide))

/-- A token of another group is stale. -/
theorem exec_tickToken_stale {p : PortId} {k : Token} (h : s.carriesTicks p = true) (hg : k.group.toNat ≠ s.fld Fld.GARNET_GROUP_GROUP_ID) :
    ∃ t, exec (.tickToken p k) s = .next t ∧ t.ctr Ct.GARNET_STALE_TOKEN_COUNT = (s.ctr Ct.GARNET_STALE_TOKEN_COUNT).plus 1 ∧
      t.fld Fld.GARNET_EVENTS_STALE_TOKEN = 1 ∧ ((∀ q, (s.port q).queue = []) → s.sameRegs t [Fld.GARNET_EVENTS_STALE_TOKEN.addr]) ∧
      s.sameMemory t := by
  have hx : s.rxToken p k = s.staleToken := if_pos hg
  have ht := s.staleToken.sendTicks_sent
  refine ⟨_, (exec_tickToken_of_carries h k).trans (congrArg (Host.Outcome.next ∘ State.sendTicks) hx), ?_, ?_, fun hq a ha => ?_,
    State.sameMemory_trans s.staleToken_sameMemory ht.mem⟩
  · exact (ht.ctr _ (by decide)).trans (s.ctr_count_same _ _)
  · exact (ht.fld (by decide)).trans (State.fld_setFld_same _ _ _ (by decide))
  · rw [State.sendTicks_of_empty (s := s.staleToken) hq]
    exact State.rd_wr_ne _ _ fun e => ha (List.mem_singleton.mpr e.symm)

theorem State.holds_holdToken_same (s : State) (m : Nat) : (s.holdToken m).holds m = true := by
  unfold State.holds State.holdToken
  dsimp only
  rw [State.refreshTokens, State.fld_setFld_addr _ _ _ _ (by unfold Fld.GARNET_STATUS_TOKENS_COMPLETE Fld.GARNET_TOKENS_HELD_HELD; dsimp only; omega),
    State.fld_setFld_same _ (Fld.GARNET_TOKENS_HELD_HELD (m / 32)) _ (Nat.le_refl 32)]
  generalize s.fld (Fld.GARNET_TOKENS_HELD_HELD (m / 32)) = w
  rw [show (Fld.GARNET_TOKENS_HELD_HELD (m / 32)).w = 32 from rfl, Nat.testBit_mod_two_pow, decide_eq_true (Nat.mod_lt m (by decide))]
  split
  case isTrue hb => rw [hb]; rfl
  case isFalse hb =>
    rw [Nat.add_comm, Nat.testBit_two_pow_add_eq, Bool.eq_false_of_not_eq_true hb]
    rfl

/-- Where the group ticks, a token of the tick in progress that does not abandon it is held (R33). -/
theorem State.judgeToken_now {k : Token} (ht : k.tick = s.tickNo) (ha : k.abandon = false) : s.judgeToken k = s.holdToken k.member := by
  unfold State.judgeToken
  dsimp only
  rw [ht, ha, if_pos (by rw [BitVec.sub_self]; rfl)]
  rfl

/-- A bounded list holds the element put in last. -/
theorem mem_pushBounded {α : Type} {n : Nat} (hn : 0 < n) (xs : List α) (x : α) : x ∈ pushBounded n xs x := by
  have hl : (xs ++ [x]).length - n ≤ xs.length := by rw [List.length_append, List.length_singleton]; omega
  unfold pushBounded
  dsimp only
  rw [List.drop_append_of_le_length hl]
  exact List.mem_append_right _ (List.mem_singleton_self x)

/-- A token noted as received, with its time and tick (R37, R39). -/
def State.hear (s : State) (k : Token) : State :=
  { s with garnet := { s.garnet with
    seen := NMap.set [] s.garnet.seen k.member.val (pushBounded 64 (NMap.get [] s.garnet.seen k.member.val) k.tick)
    heardAt := NMap.ins s.garnet.heardAt k.member.val s.now
    heardTick := NMap.ins s.garnet.heardTick k.member.val k.tick } }

theorem State.hear_seen (s : State) (k : Token) : (NMap.get [] (s.hear k).garnet.seen k.member.val).contains k.tick = true := by
  unfold State.hear
  dsimp only
  rw [NMap.get_set_same]
  exact List.contains_iff_mem.mpr (mem_pushBounded (by decide) _ _)

theorem State.hear_heardAt (s : State) (k : Token) : NMap.find (s.hear k).garnet.heardAt k.member.val = some s.now := NMap.find_ins_same _ _ _

/-- A new token of the group is noted, passed on and judged while the group ticks. -/
theorem State.rxToken_new {k : Token} (p : Nat) (hg : k.group.toNat = s.fld Fld.GARNET_GROUP_GROUP_ID)
    (hn : (NMap.get [] s.garnet.seen k.member.val).contains k.tick = false) (ht : s.ticking = true) :
    s.rxToken p k = ((s.hear k).flood k (some p)).judgeToken k := by
  unfold State.rxToken
  rw [if_neg (not_not.mpr hg), if_neg (by rw [hn]; decide)]
  exact if_pos ((State.flood_sent (s.hear k) k (some p)).ticking.trans ht)

/-- A new token of the tick in progress is held. -/
theorem exec_tickToken_held {p : PortId} {k : Token} (h : s.carriesTicks p = true) (hg : k.group.toNat = s.fld Fld.GARNET_GROUP_GROUP_ID)
    (hn : (NMap.get [] s.garnet.seen k.member.val).contains k.tick = false) (ht : s.ticking = true) (hk : k.tick = s.tickNo)
    (ha : k.abandon = false) :
    ∃ t, exec (.tickToken p k) s = .next t ∧ t.holds k.member = true ∧ (NMap.get [] t.garnet.seen k.member.val).contains k.tick = true ∧
      NMap.find t.garnet.heardAt k.member.val = some s.now ∧ t.tickState = s.tickState ∧ s.sameMemory t := by
  have hv := State.flood_sent (s.hear k) k (some p.val)
  have hx : s.rxToken p k = ((s.hear k).flood k (some p.val)).holdToken k.member :=
    (State.rxToken_new p hg hn ht).trans (State.judgeToken_now (hk.trans (hv.rd _ (by decide)).symm) ha)
  generalize (s.hear k).flood k (some p.val) = v at hv hx
  have hh := (v.holdToken k.member).sendTicks_sent
  have hu : (v.holdToken k.member).sendTicks.garnet = (s.hear k).garnet := hh.garnet.trans hv.garnet
  refine ⟨_, (exec_tickToken_of_carries h k).trans (congrArg (Host.Outcome.next ∘ State.sendTicks) hx), ?_, ?_, ?_, ?_, ?_⟩
  · refine Eq.trans ?_ (v.holds_holdToken_same k.member)
    unfold State.holds
    rw [hh.fld (by unfold Fld.GARNET_TOKENS_HELD_HELD; have := k.member.isLt; dsimp only; omega)]
  · rw [hu]
    exact s.hear_seen k
  · rw [hu]
    exact s.hear_heardAt k
  · exact State.tickState_of_view (hh.tickView.trans ((v.holdToken_tickView _).trans (hv.tickView.trans (State.tickView_of_regs rfl))))
  · exact State.sameMemory_trans (t := s.hear k) (State.sameMemory_of_parts rfl rfl rfl rfl rfl)
      (State.sameMemory_trans hv.mem (State.sameMemory_trans (v.holdToken_sameMemory _) hh.mem))

/-- Settles O43, clause by clause: the tick unit forms and ends its group outside a step, and in one the bit written waits; WITHHOLD holds the
own token back; a token is judged by its group and its tick. -/
theorem groupsFormAndTokensCount : Obligations.GroupsFormAndTokensCount :=
  ⟨fun _ h hs hh he => exec_garnetEnableSet_forms h hs hh he, fun _ h hs hh he => exec_garnetEnableClear_leaves h hs hh he,
    fun _ _ _ hi h hs hh => exec_garnetEnable_waits hi h hs hh, fun _ h => ⟨exec_withhold_set h, exec_withhold_clear h⟩,
    fun _ _ _ h hg => exec_tickToken_stale h hg, fun _ _ _ h hg hn ht hk ha => exec_tickToken_held h hg hn ht hk ha,
    fun _ k _ h => exec_tickToken_refused h k⟩

end

end Sys2Proof.Machine
end

section
/-! PROOFS. Decoding takes back what encoding puts into a word (R45, R47, R48, R107 to R110, R119, R136 to R138). -/

namespace Sys2Proof.Machine

/-! ### Fields of a word -/

theorem ib_ofNat {lo n : Nat} (v : Nat) (h : lo + n ≤ 64) : ib (BitVec.ofNat 64 v) lo n = v / 2 ^ lo % 2 ^ n := by
  have hp : 2 ^ 64 = 2 ^ lo * 2 ^ n * 2 ^ (64 - lo - n) := by rw [← pow_add, ← pow_add]; congr 1; omega
  rw [ib, bvGet, BitVec.extractLsb'_toNat, BitVec.toNat_ofNat, Nat.shiftRight_eq_div_pow, hp, Nat.mul_assoc, Nat.mod_mul_right_div_self,
    Nat.mod_mul_right_mod]

/-- A field of `Fin` values reads the operand that stands in its bits. -/
theorem fin_ib {n lo k v : Nat} {hn : 0 < n} (x : Fin n) (h : lo + k ≤ 64) (hv : v / 2 ^ lo % 2 ^ k = x.val) :
    fin n hn (ib (BitVec.ofNat 64 v) lo k) = x := by
  apply Fin.ext
  simp only [fin, ib_ofNat v h, hv, Nat.mod_eq_of_lt x.isLt]

theorem ofNat_ib {lo k v : Nat} (x : BitVec k) (h : lo + k ≤ 64) (hv : v / 2 ^ lo % 2 ^ k = x.toNat) :
    BitVec.ofNat k (ib (BitVec.ofNat 64 v) lo k) = x := by
  rw [ib_ofNat v h, hv, BitVec.ofNat_toNat, BitVec.setWidth_eq]

theorem bvBit_ofNat {i v : Nat} (b : Bool) (h : i < 64) (hv : v / 2 ^ i % 2 = bit1 b) : bvBit i (BitVec.ofNat 64 v) = b := by
  rw [bvBit, BitVec.getLsbD_ofNat, Nat.testBit_eq_decide_div_mod_eq, hv]
  cases b <;> simp [h, bit1]

theorem bit1_lt (b : Bool) : bit1 b < 2 := by cases b <;> decide

/-! ### The operands of each class -/

theorem vword_encodeVector {op : Nat} (hop : op < 256) (v : VWord) :
    ib (BitVec.ofNat 64 (encodeVector op v)) 60 4 = 1 ∧ ib (BitVec.ofNat 64 (encodeVector op v)) 52 8 = op ∧
      vword (BitVec.ofNat 64 (encodeVector op v)) = v := by
  obtain ⟨men, msk, ty, vd, va, vb, nm1, imm⟩ := v
  have := bit1_lt men
  simp only [encodeVector]
  refine ⟨by rw [ib_ofNat _ (by decide)]; omega, by rw [ib_ofNat _ (by decide)]; omega, ?_⟩
  simp only [vword, VWord.mk.injEq]
  exact ⟨bvBit_ofNat _ (by decide) (by omega), fin_ib _ (by decide) (by omega), fin_ib _ (by decide) (by omega),
    fin_ib _ (by decide) (by omega), fin_ib _ (by decide) (by omega), fin_ib _ (by decide) (by omega),
    fin_ib _ (by decide) (by omega), ofNat_ib _ (by decide) (by omega)⟩

theorem tokenOp_encodeToken {op : Nat} (hop : op < 4) (t : TokenOp) :
    ib (BitVec.ofNat 64 (encodeToken op t)) 60 4 = 3 ∧ ib (BitVec.ofNat 64 (encodeToken op t)) 58 2 = op ∧
      tokenOp (BitVec.ofNat 64 (encodeToken op t)) = t := by
  obtain ⟨queue, self, target, counter, amount⟩ := t
  have := bit1_lt self
  simp only [encodeToken]
  refine ⟨by rw [ib_ofNat _ (by decide)]; omega, by rw [ib_ofNat _ (by decide)]; omega, ?_⟩
  simp only [tokenOp, TokenOp.mk.injEq]
  exact ⟨fin_ib _ (by decide) (by omega), bvBit_ofNat _ (by decide) (by omega), fin_ib _ (by decide) (by omega),
    fin_ib _ (by decide) (by omega), ofNat_ib _ (by decide) (by omega)⟩

theorem cacheOp_encodeCache {op : Nat} (hop : op < 8) (o : CacheOp) :
    ib (BitVec.ofNat 64 (encodeCache op o)) 60 4 = 5 ∧ ib (BitVec.ofNat 64 (encodeCache op o)) 57 3 = op ∧
      cacheOp (BitVec.ofNat 64 (encodeCache op o)) = o := by
  obtain ⟨cc, cb, len, credit, word, cluster⟩ := o
  simp only [encodeCache]
  refine ⟨by rw [ib_ofNat _ (by decide)]; omega, by rw [ib_ofNat _ (by decide)]; omega, ?_⟩
  simp only [cacheOp, CacheOp.mk.injEq]
  exact ⟨ofNat_ib _ (by decide) (by omega), ofNat_ib _ (by decide) (by omega), ofNat_ib _ (by decide) (by omega),
    fin_ib _ (by decide) (by omega), fin_ib _ (by decide) (by omega), fin_ib _ (by decide) (by omega)⟩

/-- The opcode of a vector instruction has 8 bits, and decodes to that instruction. -/
theorem decodeVector_of_vectorOp {i : Instr} {op : Nat} {c : CoreId} {v : VWord} (h : vectorOp i = some (op, c, v)) :
    op < 256 ∧ decodeVector c op v = some i := by
  unfold vectorOp at h
  split at h
  case h_68 => cases h
  all_goals
    cases h
    exact ⟨by decide, rfl⟩

/-! ### The classes of instruction words -/

theorem decodeWord_matrix {c : CoreId} {w : IWord} {i : Instr} (h : ib w 60 4 = 0) (hi : decodeMatrix c w = some i) :
    (decodeWord c w).map Prod.snd = some i := by
  simp [decodeWord, h, hi]

theorem decodeWord_vector {c : CoreId} {w : IWord} {i : Instr} (h : ib w 60 4 = 1)
    (hi : decodeVector c (ib w 52 8) (vword w) = some i) : (decodeWord c w).map Prod.snd = some i := by
  simp [decodeWord, h, hi]

theorem decodeWord_fetch {c : CoreId} {w : IWord} (h : ib w 60 4 = 2) : (decodeWord c w).map Prod.snd = some (decodeFetch c w) := by
  simp [decodeWord, h]

theorem decodeWord_token {c : CoreId} {w : IWord} {i : Instr} (h : ib w 60 4 = 3) (hi : decodeToken c w = some i) :
    (decodeWord c w).map Prod.snd = some i := by
  simp [decodeWord, h, hi]

theorem decodeWord_link {c : CoreId} {w : IWord} {i : Instr} (h : ib w 60 4 = 4) (hi : decodeLink c w = some i) :
    (decodeWord c w).map Prod.snd = some i := by
  simp [decodeWord, h, hi]

theorem decodeWord_cache {c : CoreId} {w : IWord} {i : Instr} (h : ib w 60 4 = 5) (hi : decodeCache c w = some i) :
    (decodeWord c w).map Prod.snd = some i := by
  simp [decodeWord, h, hi]

/-! ### Words of the matrix, fetch and link classes -/

/-- The word that stands in an answer of `encodeWord`, with its number under a name. -/
theorem ofNat_of_encodeWord {c c' : CoreId} {n : Nat} {w : IWord} (h : some (c, BitVec.ofNat 64 n) = some (c', w)) :
    ∃ v, v = n ∧ w = BitVec.ofNat 64 v := by
  cases h
  exact ⟨n, rfl, rfl⟩

theorem decode_setup {c : CoreId} {e : Fin 4} {o : SetupOp} {w : IWord} (h : encodeWord (.setup c e o) = some (c, w)) :
    (decodeWord c w).map Prod.snd = some (.setup c e o) := by
  obtain ⟨format, group, grid, comp, tokens, actBase, actFormat, source, headGroups, scaleBase⟩ := o
  have := bit1_lt comp
  obtain ⟨v, hv, rfl⟩ := ofNat_of_encodeWord h
  dsimp only at hv
  have hop : ib (BitVec.ofNat 64 v) 54 4 = 0 := by rw [ib_ofNat _ (by decide)]; omega
  refine decodeWord_matrix (by rw [ib_ofNat _ (by decide)]; omega) ?_
  simp only [decodeMatrix, hop, Option.some.injEq, Instr.setup.injEq, SetupOp.mk.injEq, true_and]
  exact ⟨fin_ib _ (by decide) (by omega), fin_ib _ (by decide) (by omega), fin_ib _ (by decide) (by omega),
    fin_ib _ (by decide) (by omega), bvBit_ofNat _ (by decide) (by omega), fin_ib _ (by decide) (by omega),
    ofNat_ib _ (by decide) (by omega), fin_ib _ (by decide) (by omega), fin_ib _ (by decide) (by omega),
    fin_ib _ (by decide) (by omega), ofNat_ib _ (by decide) (by omega)⟩

theorem decode_run {c : CoreId} {e : Fin 4} {o : RunOp} {w : IWord} (h : encodeWord (.run c e o) = some (c, w)) :
    (decodeWord c w).map Prod.snd = some (.run c e o) := by
  obtain ⟨src, blockOfs, blocks, accumulate, scaleCont, actChunk⟩ := o
  have := bit1_lt accumulate
  have := bit1_lt scaleCont
  obtain ⟨v, hv, rfl⟩ := ofNat_of_encodeWord h
  dsimp only at hv
  have hop : ib (BitVec.ofNat 64 v) 54 4 = 1 := by rw [ib_ofNat _ (by decide)]; omega
  refine decodeWord_matrix (by rw [ib_ofNat _ (by decide)]; omega) ?_
  simp only [decodeMatrix, hop, Option.some.injEq, Instr.run.injEq, RunOp.mk.injEq, true_and]
  exact ⟨fin_ib _ (by decide) (by omega), ofNat_ib _ (by decide) (by omega), ofNat_ib _ (by decide) (by omega),
    ofNat_ib _ (by decide) (by omega), bvBit_ofNat _ (by decide) (by omega), bvBit_ofNat _ (by decide) (by omega),
    ofNat_ib _ (by decide) (by omega)⟩

theorem decode_readout {c : CoreId} {e : Fin 4} {o : ReadoutOp} {w : IWord} (h : encodeWord (.readout c e o) = some (c, w)) :
    (decodeWord c w).map Prod.snd = some (.readout c e o) := by
  obtain ⟨dest, colrec, f, fOut⟩ := o
  obtain ⟨v, hv, rfl⟩ := ofNat_of_encodeWord h
  dsimp only at hv
  have hop : ib (BitVec.ofNat 64 v) 54 4 = 2 := by rw [ib_ofNat _ (by decide)]; omega
  refine decodeWord_matrix (by rw [ib_ofNat _ (by decide)]; omega) ?_
  simp only [decodeMatrix, hop, Option.some.injEq, Instr.readout.injEq, ReadoutOp.mk.injEq, true_and]
  exact ⟨fin_ib _ (by decide) (by omega), ofNat_ib _ (by decide) (by omega), ofNat_ib _ (by decide) (by omega),
    fin_ib _ (by decide) (by omega), fin_ib _ (by decide) (by omega)⟩

theorem decode_readraw {c : CoreId} {e : Fin 4} {o : RawOp} {w : IWord} (h : encodeWord (.readraw c e o) = some (c, w)) :
    (decodeWord c w).map Prod.snd = some (.readraw c e o) := by
  obtain ⟨v, hv, rfl⟩ := ofNat_of_encodeWord h
  have hop : ib (BitVec.ofNat 64 v) 54 4 = 3 := by rw [ib_ofNat _ (by decide)]; omega
  refine decodeWord_matrix (by rw [ib_ofNat _ (by decide)]; omega) ?_
  simp only [decodeMatrix, hop, fin_ib e (by decide) (show v / 2 ^ 58 % 2 ^ 2 = e.val by omega),
    ofNat_ib o.addr (by decide) (show v / 2 ^ 39 % 2 ^ 15 = o.addr.toNat by omega)]

theorem decode_merge {c : CoreId} {e : Fin 4} {o : RawOp} {w : IWord} (h : encodeWord (.merge c e o) = some (c, w)) :
    (decodeWord c w).map Prod.snd = some (.merge c e o) := by
  obtain ⟨v, hv, rfl⟩ := ofNat_of_encodeWord h
  have hop : ib (BitVec.ofNat 64 v) 54 4 = 4 := by rw [ib_ofNat _ (by decide)]; omega
  refine decodeWord_matrix (by rw [ib_ofNat _ (by decide)]; omega) ?_
  simp only [decodeMatrix, hop, fin_ib e (by decide) (show v / 2 ^ 58 % 2 ^ 2 = e.val by omega),
    ofNat_ib o.addr (by decide) (show v / 2 ^ 39 % 2 ^ 15 = o.addr.toNat by omega)]

theorem decode_fetch {c : CoreId} {f : FetchOp} {w : IWord} (h : encodeWord (.fetch c f) = some (c, w)) :
    (decodeWord c w).map Prod.snd = some (.fetch c f) := by
  obtain ⟨toCache, credit, slot, units, object, tile⟩ := f
  have := bit1_lt toCache
  obtain ⟨v, hv, rfl⟩ := ofNat_of_encodeWord h
  dsimp only at hv
  rw [decodeWord_fetch (by rw [ib_ofNat _ (by decide)]; omega)]
  simp only [decodeFetch, Option.some.injEq, Instr.fetch.injEq, FetchOp.mk.injEq, true_and]
  exact ⟨bvBit_ofNat _ (by decide) (by omega), fin_ib _ (by decide) (by omega), fin_ib _ (by decide) (by omega),
    fin_ib _ (by decide) (by omega), ofNat_ib _ (by decide) (by omega), ofNat_ib _ (by decide) (by omega)⟩

theorem decode_send {c : CoreId} {o : SendOp} {w : IWord} (h : encodeWord (.send c o) = some (c, w)) :
    (decodeWord c w).map Prod.snd = some (.send c o) := by
  obtain ⟨ch, src, len, destOfs, amount, wire⟩ := o
  obtain ⟨v, hv, rfl⟩ := ofNat_of_encodeWord h
  dsimp only at hv
  have hop : ib (BitVec.ofNat 64 v) 58 2 = 0 := by rw [ib_ofNat _ (by decide)]; omega
  refine decodeWord_link (by rw [ib_ofNat _ (by decide)]; omega) ?_
  simp only [decodeLink, hop, Option.some.injEq, Instr.send.injEq, SendOp.mk.injEq, true_and]
  exact ⟨fin_ib _ (by decide) (by omega), ofNat_ib _ (by decide) (by omega), ofNat_ib _ (by decide) (by omega),
    ofNat_ib _ (by decide) (by omega), ofNat_ib _ (by decide) (by omega), fin_ib _ (by decide) (by omega)⟩

theorem decode_release {c : CoreId} {o : ReleaseOp} {w : IWord} (h : encodeWord (.release c o) = some (c, w)) :
    (decodeWord c w).map Prod.snd = some (.release c o) := by
  obtain ⟨ch, amount⟩ := o
  obtain ⟨v, hv, rfl⟩ := ofNat_of_encodeWord h
  dsimp only at hv
  have hop : ib (BitVec.ofNat 64 v) 58 2 = 1 := by rw [ib_ofNat _ (by decide)]; omega
  refine decodeWord_link (by rw [ib_ofNat _ (by decide)]; omega) ?_
  simp only [decodeLink, hop, Option.some.injEq, Instr.release.injEq, ReleaseOp.mk.injEq, true_and]
  exact ⟨fin_ib _ (by decide) (by omega), ofNat_ib _ (by decide) (by omega)⟩

/-! ### Words of the token, cache, control and vector classes -/

theorem decode_token {c : CoreId} {t : TokenOp} {op : Nat} (hop : op < 4) {i : Instr}
    (hi : ∀ w, ib w 58 2 = op → tokenOp w = t → decodeToken c w = some i) :
    (decodeWord c (BitVec.ofNat 64 (encodeToken op t))).map Prod.snd = some i := by
  obtain ⟨hclass, hib, ht⟩ := tokenOp_encodeToken hop t
  exact decodeWord_token hclass (hi _ hib ht)

theorem decode_cache {c : CoreId} {o : CacheOp} {op : Nat} (hop : op < 8) {i : Instr}
    (hi : ∀ w, ib w 57 3 = op → cacheOp w = o → decodeCache c w = some i) :
    (decodeWord c (BitVec.ofNat 64 (encodeCache op o))).map Prod.snd = some i := by
  obtain ⟨hclass, hib, ho⟩ := cacheOp_encodeCache hop o
  exact decodeWord_cache hclass (hi _ hib ho)

theorem decode_vector {c : CoreId} {i : Instr} {op : Nat} {v : VWord} (h : vectorOp i = some (op, c, v)) :
    (decodeWord c (BitVec.ofNat 64 (encodeVector op v))).map Prod.snd = some i := by
  obtain ⟨hlt, hdec⟩ := decodeVector_of_vectorOp h
  obtain ⟨hclass, hop, hv⟩ := vword_encodeVector hlt v
  exact decodeWord_vector hclass (by rw [hop, hv, hdec])

theorem decode_layer (c : CoreId) (n : BitVec 16) :
    (decodeWord c (BitVec.ofNat 64 (6 * 2 ^ 60 + 1 * 2 ^ 56 + n.toNat))).map Prod.snd = some (.layer c 0 n) := by
  generalize hv : 6 * 2 ^ 60 + 1 * 2 ^ 56 + n.toNat = v
  have hclass : ib (BitVec.ofNat 64 v) 60 4 = 6 := by rw [ib_ofNat _ (by decide)]; omega
  have hop : ib (BitVec.ofNat 64 v) 56 4 = 1 := by rw [ib_ofNat _ (by decide)]; omega
  simp [decodeWord, hclass, hop, ofNat_ib n (by decide) (show v / 2 ^ 0 % 2 ^ 16 = n.toNat by omega)]

/-- Settles O8, constructor by constructor: each field of the word reads the operand that encoding put into its bits. -/
theorem wordsComeBackFromEncoding : Obligations.WordsComeBackFromEncoding := by
  unfold Obligations.WordsComeBackFromEncoding
  intro i c w h
  have hw := h
  unfold encodeWord at h
  split at h
  case h_1 => obtain rfl := congrArg Prod.fst (Option.some.inj h); exact decode_setup hw
  case h_2 => obtain rfl := congrArg Prod.fst (Option.some.inj h); exact decode_run hw
  case h_3 => obtain rfl := congrArg Prod.fst (Option.some.inj h); exact decode_readout hw
  case h_4 => obtain rfl := congrArg Prod.fst (Option.some.inj h); exact decode_readraw hw
  case h_5 => obtain rfl := congrArg Prod.fst (Option.some.inj h); exact decode_merge hw
  case h_6 => obtain rfl := congrArg Prod.fst (Option.some.inj h); exact decode_fetch hw
  case h_7 => cases h; exact decode_token (by decide) fun w hop ht => by simp only [decodeToken, hop, ht]
  case h_8 => cases h; exact decode_token (by decide) fun w hop ht => by simp only [decodeToken, hop, ht]
  case h_9 => cases h; exact decode_token (by decide) fun w hop ht => by simp only [decodeToken, hop, ht]
  case h_10 => obtain rfl := congrArg Prod.fst (Option.some.inj h); exact decode_send hw
  case h_11 => obtain rfl := congrArg Prod.fst (Option.some.inj h); exact decode_release hw
  case h_12 => cases h; exact decode_cache (by decide) fun w hop ho => by simp only [decodeCache, hop, ho]
  case h_13 => cases h; exact decode_cache (by decide) fun w hop ho => by simp only [decodeCache, hop, ho]
  case h_14 => cases h; exact decode_cache (by decide) fun w hop ho => by simp only [decodeCache, hop, ho]
  case h_15 => cases h; exact decode_cache (by decide) fun w hop ho => by simp only [decodeCache, hop, ho]
  case h_16 => cases h; exact decode_cache (by decide) fun w hop ho => by simp only [decodeCache, hop, ho]
  case h_17 => cases h; rfl
  case h_18 c' q n =>
    split at h
    · cases h; subst q; exact decode_layer c n
    · cases h
  case h_19 => cases h; rfl
  case h_20 =>
    obtain ⟨⟨op, c', v⟩, hv, he⟩ := Option.map_eq_some_iff.mp h
    cases he
    exact decode_vector hv

end Sys2Proof.Machine
end

section
/-! PROOFS. An error sets its bit and abandons the step that is running (R54, R59, R111, R121). -/

namespace Sys2Proof.Machine

variable (s : State)

/-- An event for the recorder counts nothing but a drop of its own. -/
theorem State.jasper_ctr_ne (e : JCode) (u d0 d1 : Nat) {a : Nat} (h : Ct.JSP_INTAKE_DROPS ≠ a) : (s.jasper e u d0 d1).ctr a = s.ctr a := by
  unfold State.jasper State.jasperK State.giveJasper
  dsimp only
  split
  · rfl
  · exact State.ctr_count_ne _ _ h

/-! ### The registers of a core lie apart from those that an abandonment writes -/

theorem coreReg_ne_status (c o : Nat) : coreBase c + o ≠ Rg.GARNET_STATUS := by
  unfold Rg.GARNET_STATUS coreBase clusterBase; omega

theorem coreReg_ne_guard (c k : Nat) {o : Nat} (h : o < 0x10000) : coreBase c + o ≠ Rg.GUARD_STATUS k := by
  unfold Rg.GUARD_STATUS coreBase clusterBase; omega

theorem coreReg_ne_drops (c o : Nat) : Ct.JSP_INTAKE_DROPS ≠ coreBase c + o := by
  unfold Ct.JSP_INTAKE_DROPS coreBase clusterBase; omega

/-! ### `abandonStep` -/

/-- What an abandonment does at once: every sequencer stops, and what waits or is on its way is discarded (R54). -/
def State.stopAll (s : State) (received : Bool) : State :=
  let s := s.setFld Fld.GARNET_STATUS_STATE stAbandoning
  { s with cores := NMap.mapD {} CoreSt.stop s.cores
           engs := NMap.mapD {} (fun x => { x with hold := none, run := none }) s.engs
           clusters := NMap.mapD {} (fun x => { x with closing := [], rerunQ := [] }) s.clusters
           flights := []
           fetches := []
           place := { s.place with heldRefs := s.place.heldRefs ++ s.fetchRefs }
           abandonCause := if received then none else s.lastEvent
           garnet := { s.garnet with abandoned := true } }

/-- No guard runs a re-run any more (R157). -/
def State.clearReruns (s : State) : State :=
  s.each (List.range 64) fun s k =>
    s.when (s.fld (Fld.GUARD_STATUS_RERUN_ACTIVE k) == 1) fun s => s.setFld (Fld.GUARD_STATUS_RERUN_ACTIVE k) 0

@[simp] theorem State.stopAll_ctr (b : Bool) (a : Nat) : (s.stopAll b).ctr a = s.ctr a := by simp [State.stopAll, State.ctr]
@[simp] theorem State.stopAll_boot (b : Bool) : (s.stopAll b).boot = s.boot := by simp [State.stopAll]
@[simp] theorem State.stopAll_mem (b : Bool) : (s.stopAll b).mem = s.mem := by simp [State.stopAll]
@[simp] theorem State.stopAll_flights (b : Bool) : (s.stopAll b).flights = [] := by simp [State.stopAll]
theorem State.stopAll_rd (b : Bool) {a : Nat} (h : a ≠ Rg.GARNET_STATUS) : (s.stopAll b).rd a = s.rd a := State.rd_wr_ne s _ h.symm

theorem State.abandonStep_running (b : Bool) (h : s.tickState = stRunning) :
    s.abandonStep b =
      (s.stopAll b).clearReruns.jasper .abandon 0 (bit1 b) ((s.stopAll b).clearReruns.rd Rg.GARNET_TICK).toNat :=
  if_neg (not_not.mpr h)

theorem State.clearReruns_keeps {β : Type} (P : State → β) (h : ∀ (t : State) k, P (t.setFld (Fld.GUARD_STATUS_RERUN_ACTIVE k) 0) = P t) :
    P s.clearReruns = P s :=
  s.each_keeps P _ _ fun t k _ => State.when_keeps t P _ _ (h t k)

/-- What an abandonment leaves as it was: whatever its three parts leave. -/
theorem State.abandonStep_keeps_of {β : Type} (P : State → β) (b : Bool) (hs : P (s.stopAll b) = P s)
    (hr : ∀ (t : State) k, P (t.setFld (Fld.GUARD_STATUS_RERUN_ACTIVE k) 0) = P t)
    (hj : ∀ (t : State) d0 d1, P (t.jasper .abandon 0 d0 d1) = P t) : P (s.abandonStep b) = P s := by
  by_cases h : s.tickState = stRunning
  · rw [s.abandonStep_running b h, hj, State.clearReruns_keeps _ P hr, hs]
  · rw [s.abandonStep_of_not_running h]

/-- An abandonment writes GARNET.STATUS and the guards' RERUN_ACTIVE, and no other register. -/
theorem State.abandonStep_rd (b : Bool) {a : Nat} (hg : a ≠ Rg.GARNET_STATUS) (hk : ∀ k, a ≠ Rg.GUARD_STATUS k) :
    (s.abandonStep b).rd a = s.rd a :=
  s.abandonStep_keeps_of (·.rd a) b (s.stopAll_rd b hg) (fun t k => State.rd_wr_ne t _ (hk k).symm) fun t _ _ => State.jasper_rd t _ _ _ _ a

theorem State.abandonStep_coreReg (b : Bool) (c : Nat) {o : Nat} (h : o < 0x10000) :
    (s.abandonStep b).rd (coreBase c + o) = s.rd (coreBase c + o) :=
  s.abandonStep_rd b (coreReg_ne_status c o) fun k => coreReg_ne_guard c k h

theorem State.abandonStep_ctr_ne (b : Bool) {a : Nat} (h : Ct.JSP_INTAKE_DROPS ≠ a) : (s.abandonStep b).ctr a = s.ctr a :=
  s.abandonStep_keeps_of (·.ctr a) b (s.stopAll_ctr b a) (fun _ _ => State.setFld_ctr _ _ _ a) fun t _ _ => t.jasper_ctr_ne _ _ _ _ h

@[simp] theorem State.abandonStep_boot (b : Bool) : (s.abandonStep b).boot = s.boot :=
  s.abandonStep_keeps_of (·.boot) b (s.stopAll_boot b) (fun _ _ => State.setFld_boot _ _ _) fun t _ _ => State.jasper_boot t _ _ _ _

@[simp] theorem State.abandonStep_mem (b : Bool) : (s.abandonStep b).mem = s.mem :=
  s.abandonStep_keeps_of (·.mem) b (s.stopAll_mem b) (fun _ _ => State.setFld_mem _ _ _) fun t _ _ => State.jasper_mem t _ _ _ _

/-- A running step goes to abandoning, and no signal is left on its way. -/
theorem State.abandonStep_stops (b : Bool) (h : s.tickState = stRunning) :
    (s.abandonStep b).tickState = stAbandoning ∧ (s.abandonStep b).flights = [] := by
  have hne : ∀ k, (Fld.GUARD_STATUS_RERUN_ACTIVE k).addr ≠ Fld.GARNET_STATUS_STATE.addr := fun k => by
    show Rg.GUARD_STATUS k ≠ Rg.GARNET_STATUS
    unfold Rg.GUARD_STATUS Rg.GARNET_STATUS clusterBase; omega
  rw [s.abandonStep_running b h]
  constructor
  · calc
      _ = (s.stopAll b).clearReruns.tickState := State.jasper_fld _ _ _ _ _ _
      _ = (s.stopAll b).tickState := State.clearReruns_keeps _ (·.tickState) fun t k => t.fld_setFld_addr _ _ 0 (hne k)
      _ = stAbandoning := s.fld_setFld_same Fld.GARNET_STATUS_STATE stAbandoning (by decide)
  · calc
      _ = (s.stopAll b).clearReruns.flights := State.jasper_flights _ _ _ _ _
      _ = (s.stopAll b).flights := State.clearReruns_keeps _ (·.flights) fun _ _ => State.setFld_flights _ _ _
      _ = [] := s.stopAll_flights b

/-! ### `seqError` -/

variable {c : Nat} {f : Fld}

/-- The bit of SEQ.ERROR is set. -/
theorem State.seqError_bit (pc : Nat) (pid : BitVec 16) (hw : f.w = 1) (hl : f.lo < 32) : (s.seqError c f pc pid).fld f = 1 := by
  unfold State.seqError
  rw [State.jasper_fld, State.raise, State.fld_setFld_same _ _ _ (by omega), hw]
  rfl

variable (hf : f.addr = Rg.SEQ_ERROR c)

include hf in
/-- SEQ.ERROR and SEQ.ERROR_PC are what it writes. -/
theorem State.seqError_rd (pc : Nat) (pid : BitVec 16) {a : Nat} (h1 : a ≠ Rg.SEQ_ERROR c) (h2 : a ≠ Rg.SEQ_ERROR_PC c) :
    (s.seqError c f pc pid).rd a = s.rd a := by
  unfold State.seqError
  rw [State.jasper_rd]
  exact (State.rd_wr_ne _ _ (hf ▸ h1.symm)).trans (State.when_keeps s (·.rd a) _ _ (State.rd_wr_ne s _ h2.symm))

omit hf in
theorem State.seqError_ctr_ne (pc : Nat) (pid : BitVec 16) {a : Nat} (h : Ct.JSP_INTAKE_DROPS ≠ a) :
    (s.seqError c f pc pid).ctr a = s.ctr a := by
  unfold State.seqError
  exact (State.jasper_ctr_ne _ _ _ _ _ h).trans (State.when_keeps s (·.ctr a) _ _ rfl)

include hf in
theorem State.seqError_tickState (pc : Nat) (pid : BitVec 16) : (s.seqError c f pc pid).tickState = s.tickState :=
  congrArg (bvGet _ _) (s.seqError_rd hf pc pid (coreReg_ne_status c 0x14).symm (coreReg_ne_status c 0x18).symm)

include hf in
/-- A core's error that abandons the step: its bit is set, and a running step is abandoned. -/
theorem State.seqError_abandonStep (pc : Nat) (pid : BitVec 16) (hw : f.w = 1) (hl : f.lo < 32) :
    ((s.seqError c f pc pid).abandonStep false).fld f = 1 ∧
      (s.tickState = stRunning → ((s.seqError c f pc pid).abandonStep false).tickState = stAbandoning ∧
        ((s.seqError c f pc pid).abandonStep false).flights = []) := by
  constructor
  · calc
      _ = (s.seqError c f pc pid).fld f := congrArg (bvGet _ _) (hf ▸ State.abandonStep_coreReg _ false c (o := 0x14) (by decide))
      _ = 1 := s.seqError_bit pc pid hw hl
  · intro h
    exact State.abandonStep_stops _ _ ((s.seqError_tickState hf pc pid).trans h)

/-! ### Errors of a core, of its vector engine and of its matrix engines -/

/-- The 1-bit field `f` is set and a step that ran in `s` is being abandoned, with no signal left on its way. -/
abbrev State.faults (s t : State) (f : Fld) : Prop :=
  t.fld f = 1 ∧ (s.tickState = stRunning → t.tickState = stAbandoning ∧ t.flights = [])

theorem State.faults.complete {s t : State} {f : Fld} (h : s.faults t f) (c q : Nat) (b : Option Bool) : s.faults (t.complete c q b) f := by
  simpa [State.faults, State.tickState] using h

theorem State.unusedEnc_faults (c : Nat) (p : Prog) : s.faults (s.unusedEnc c p) (Fld.SEQ_ERROR_UNUSED_ENCODING c) :=
  s.seqError_abandonStep rfl _ _ rfl (show 0 < 32 by decide)

theorem State.fetchError_faults (c : Nat) (p : Prog) : s.faults (s.fetchError c p) (Fld.SEQ_ERROR_FETCH_ERROR c) :=
  s.seqError_abandonStep rfl _ _ rfl (show 3 < 32 by decide)

/-- An error bit of one of a core's blocks, recorded, that abandons the step. -/
theorem State.raise_abandonStep (e : JCode) (u d0 d1 : Nat) {c o : Nat} {f : Fld} (hf : f.addr = coreBase c + o) (ho : o < 0x10000)
    (hw : f.w = 1) (hl : f.lo < 32) : s.faults (((s.raise f).jasper e u d0 d1).abandonStep false) f := by
  have hbit : (s.raise f).fld f = 1 := by rw [State.raise, State.fld_setFld_same _ _ _ (by omega), hw]; rfl
  constructor
  · calc
      _ = ((s.raise f).jasper e u d0 d1).fld f := congrArg (bvGet _ _) (hf ▸ State.abandonStep_coreReg _ false c ho)
      _ = 1 := (State.jasper_fld _ _ _ _ _ _).trans hbit
  · intro h
    refine State.abandonStep_stops _ _ ((State.jasper_fld _ _ _ _ _ _).trans (Eq.trans ?_ h))
    exact s.fld_setFld_addr f _ 1 (hf ▸ coreReg_ne_status c o)

theorem State.vecCmdErr_faults (c : Nat) (p : Prog) : s.faults (s.vecCmdErr c p) (Fld.VEC_STATUS_COMMAND_ERROR c) :=
  s.raise_abandonStep _ _ _ _ (Nat.add_assoc _ _ _) (by decide) rfl (show 1 < 32 by decide)

theorem State.engCmdErr_faults (g : Nat) (p : Prog) : s.faults (s.engCmdErr g p) (Fld.ENG_STATUS_COMMAND_ERROR g) :=
  s.raise_abandonStep _ _ _ _ (c := g / 4) (o := 0x4000 + 0x1000 * (g % 4) + 4) (show engBase g + 4 = _ by unfold engBase; omega)
    (by omega) rfl (show 4 < 32 by decide)

@[simp] theorem State.unusedEnc_boot (c : Nat) (p : Prog) : (s.unusedEnc c p).boot = s.boot := by simp [State.unusedEnc]
@[simp] theorem State.vecCmdErr_boot (c : Nat) (p : Prog) : (s.vecCmdErr c p).boot = s.boot := by simp [State.vecCmdErr]

theorem State.unusedEnc_ctr_ne (c : Nat) (p : Prog) {a : Nat} (h : Ct.JSP_INTAKE_DROPS ≠ a) : (s.unusedEnc c p).ctr a = s.ctr a := by
  rw [State.unusedEnc, State.abandonStep_ctr_ne _ _ h, State.seqError_ctr_ne _ _ _ h]

theorem State.vecCmdErr_ctr_ne (c : Nat) (p : Prog) {a : Nat} (h : Ct.JSP_INTAKE_DROPS ≠ a) : (s.vecCmdErr c p).ctr a = s.ctr a := by
  rw [State.vecCmdErr, State.abandonStep_ctr_ne _ _ h, State.jasper_ctr_ne _ _ _ _ _ h, State.raise_ctr]

/-- An instruction at the head of its queue that does nothing but fault. -/
theorem State.issue_faults {q : Nat} {i : Instr} {run : Prog → State → RunOut} {c : Nat} {f : Fld} {err : Prog → State}
    (h : s.atHead c q i = true) (hrun : ∀ p, run p s = (err p, true)) (he : ∀ p, s.faults (err p) f) : s.faults (s.issue c q i run) f := by
  obtain ⟨p, b, -, hi⟩ := s.issue_atHead run h
  rw [hi, hrun, if_pos rfl]
  exact (he p).complete _ _ _

end Sys2Proof.Machine
end

section
/-! PROOFS. SETUP holds for the later commands of its queue (R107, R108, R111). -/

namespace Sys2Proof.Machine

/-- SETUP at the head of its queue. -/
theorem exec_setup_holds (c : CoreId) (e : EngId) (o : SetupOp) (s : State) (h : s.atHead c e (.setup c e o)) (hu : o.unused = false)
    (ha : o.a16 = true → o.tileMode = true) :
    ∃ t, exec (.setup c e o) s = .next t ∧
      t.eng (engOf c e) = { s.eng (engOf c e) with setup := some o, dec := (s.eng (engOf c e)).dec.map fun d => { d with left := d.left - 1, idle := d.idle + 1 } } ∧
      (∀ g, g ≠ engOf c e → t.eng g = s.eng g) ∧
      t.ctr (Ct.ENG_BUSY_CYCLES (engOf c e)) = (s.ctr (Ct.ENG_BUSY_CYCLES (engOf c e))).plus 1 ∧
      s.sameCtrs t [Ct.ENG_BUSY_CYCLES (engOf c e)] ∧ s.sameRegs t [] ∧ s.sameMemory t := by
  obtain ⟨p, b, -, hi⟩ := s.issue_atHead (runSetup c e o) h
  have hrun : runSetup c e o p s = ((s.modEng (engOf c e) fun x => { x with setup := some o }).busy (engOf c e) 1, true) := by
    have : (o.a16 && !o.tileMode) = false := by cases h16 : o.a16 <;> simp_all
    simp [runSetup, hu, this]
  refine ⟨_, rfl, ?_⟩
  rw [hi, hrun, if_pos rfl]
  refine ⟨?_, fun g hg => ?_, ?_, fun a ha => ?_, fun a _ => ?_, ?_⟩
  · simp [State.busy]
  · rw [State.complete_eng, State.busy, State.eng_modEng_ne _ _ hg.symm, State.count_eng, State.eng_modEng_ne _ _ hg.symm]
  · simp [State.busy]
  · have ha : Ct.ENG_BUSY_CYCLES (engOf c e) ≠ a := fun he => ha (he ▸ List.mem_singleton_self _)
    rw [State.complete_ctr, State.busy, State.modEng_ctr, State.ctr_count_ne _ _ ha, State.modEng_ctr]
  · simp [State.busy]
  · exact ⟨by simp [State.busy], by simp [State.busy], by simp [State.busy], by simp [State.busy], fun d => by simp [State.busy],
      fun k => by simp [State.busy]⟩

/-- Settles O28: SETUP runs at the head of its queue, and each of its errors is the branch of `runSetup` that faults. -/
theorem setupHolds : Obligations.SetupHolds := by
  unfold Obligations.SetupHolds
  refine ⟨exec_setup_holds, fun c e o s h hbad => ?_, fun c e o s h hu ha ht => ?_⟩
  · have hu : o.unused = true := by
      simp only [SetupOp.unused, Bool.or_eq_true, Bool.not_eq_true', Bool.or_eq_false_iff, beq_eq_false_iff_ne, beq_iff_eq,
        Bool.and_eq_true, bne_iff_ne, decide_eq_true_eq]
      exact or_assoc.mpr hbad
    exact ⟨_, rfl, s.issue_faults h (fun p => by simp [runSetup, hu]) (s.unusedEnc_faults c)⟩
  · exact ⟨_, rfl, s.issue_faults h (fun p => by simp [runSetup, hu, ha, ht]) (s.engCmdErr_faults _)⟩

end Sys2Proof.Machine
end

section
/-! PROOFS. A vector instruction with an unused encoding or a range that passes its end abandons the step (R115, R116, R121). -/

namespace Sys2Proof.Machine

/-! ### How an instruction's function answers -/

theorem withType_unused {w : VWord} {ok : VTy → Bool} (k : VTy → VOut) (h : ∀ t ∈ VTy.ofCode w.ty.val, ok t = false) :
    withType w ok k = .unusedEnc := by
  unfold withType
  split
  · rename_i t ht
    rw [h t ht]; rfl
  · rfl

theorem ofCode_three {w : VWord} (h : w.ty.val = 3) {ok : VTy → Bool} : ∀ t ∈ VTy.ofCode w.ty.val, ok t = false := by
  rw [h]; exact fun t ht => nomatch ht

theorem ofCode_not_i32 {w : VWord} (h : w.ty.val ≠ 2) : ∀ t ∈ VTy.ofCode w.ty.val, onlyI32 t = false := by
  intro t ht
  unfold VTy.ofCode at ht
  split at ht <;> cases ht
  · rfl
  · rfl
  · contradiction

theorem ofCode_not_i16 {w : VWord} (h : w.ty.val ≠ 1) : ∀ t ∈ VTy.ofCode w.ty.val, onlyI16 t = false := by
  intro t ht
  unfold VTy.ofCode at ht
  split at ht <;> cases ht
  · rfl
  · contradiction
  · rfl

/-- A group that passes V31 is a command error. -/
theorem withGroups_cmdErr {gs : List (VTy × Nat × Nat)} (k : VOut) (h : ∃ g ∈ gs, 32 < g.2.1 + ceilDiv g.2.2 g.1.cap) :
    withGroups gs k = .cmdErr := by
  obtain ⟨g, hg, hlt⟩ := h
  refine if_neg fun hall => ?_
  have := List.all_eq_true.mp hall g hg
  simp only [groupOk, decide_eq_true_eq] at this
  omega

theorem withGroups_of_cmdErr {gs : List (VTy × Nat × Nat)} {k : VOut} (h : k = .cmdErr) : withGroups gs k = .cmdErr := by
  unfold withGroups
  split
  · exact h
  · rfl

variable {x : VCtx} {w : VWord} {f : VFile} {t : VTy}

theorem vLoad_cmdErr (ht : VTy.ofCode w.ty.val = some t)
    (h : 32 < w.vd + ceilDiv (nOf w) t.cap ∨ 2 ^ 21 < 4 * w.imm.toNat + nOf w * t.bytes) : vLoad x w f = .cmdErr := by
  refine (withType_eq _ ht rfl).trans ?_
  rcases h with h | h
  · exact withGroups_cmdErr _ ⟨_, List.mem_singleton_self _, h⟩
  · exact withGroups_of_cmdErr (if_pos h)

theorem vStore_cmdErr (ht : VTy.ofCode w.ty.val = some t)
    (h : 32 < w.va + ceilDiv (nOf w) t.cap ∨ 2 ^ 21 < 4 * w.imm.toNat + nOf w * t.bytes) : vStore x w f = .cmdErr := by
  refine (withType_eq _ ht rfl).trans ?_
  rcases h with h | h
  · exact withGroups_cmdErr _ ⟨_, List.mem_singleton_self _, h⟩
  · exact withGroups_of_cmdErr (if_pos h)

theorem vAcc_cmdErr (ht : VTy.ofCode w.ty.val = some .i32) (h : 1024 < 32 * immF w 12 5 + nOf w) : vAcc x w f = .cmdErr :=
  (withType_eq _ ht rfl).trans (if_pos h)

/-! ### What an instruction that cannot be carried out does -/

/-- The outcome of a vector instruction that faults: the error bit `b`, no element counted, the step abandoned. -/
abbrev State.vecFaults (s t : State) (c : CoreId) (b : Fld) : Prop :=
  t.fld b = 1 ∧ t.ctr (Ct.VEC_ELEMENTS c) = s.ctr (Ct.VEC_ELEMENTS c) ∧
    (s.tickState = stRunning → t.tickState = stAbandoning ∧ t.flights = [])

theorem vecElements_ne_drops (c : Nat) : Ct.JSP_INTAKE_DROPS ≠ Ct.VEC_ELEMENTS c := by
  unfold Ct.JSP_INTAKE_DROPS Ct.VEC_ELEMENTS coreBase clusterBase; omega

variable (s : State) {c : CoreId} {i : Instr}

theorem State.issue_unusedEnc {run : Prog → State → RunOut} (h : s.atHead c 4 i = true) (hrun : ∀ p, run p s = (s.unusedEnc c p, true)) :
    (s.issue c 4 i run).boot = s.boot ∧ s.vecFaults (s.issue c 4 i run) c (Fld.SEQ_ERROR_UNUSED_ENCODING c) := by
  obtain ⟨p, b, -, hi⟩ := s.issue_atHead run h
  obtain ⟨hbit, hstop⟩ := (s.unusedEnc_faults c p).complete c 4 b
  rw [hi, hrun, if_pos rfl]
  exact ⟨by simp, hbit, (State.complete_ctr _ _ _ _ _).trans (s.unusedEnc_ctr_ne c p (vecElements_ne_drops c)), hstop⟩

theorem State.issue_vecCmdErr {run : Prog → State → RunOut} (h : s.atHead c 4 i = true) (hrun : ∀ p, run p s = (s.vecCmdErr c p, true)) :
    (s.issue c 4 i run).boot = s.boot ∧ s.vecFaults (s.issue c 4 i run) c (Fld.VEC_STATUS_COMMAND_ERROR c) := by
  obtain ⟨p, b, -, hi⟩ := s.issue_atHead run h
  obtain ⟨hbit, hstop⟩ := (s.vecCmdErr_faults c p).complete c 4 b
  rw [hi, hrun, if_pos rfl]
  exact ⟨by simp, hbit, (State.complete_ctr _ _ _ _ _).trans (s.vecCmdErr_ctr_ne c p (vecElements_ne_drops c)), hstop⟩

variable {op : VCtx → VWord → VFile → VOut} {k : ElemKind} {cost : VWord → Nat}

theorem State.vec_unusedEnc (h : s.atHead c 4 i = true) (ho : ∀ x f, op x w f = .unusedEnc) :
    s.vecFaults (s.vec c i w op k cost) c (Fld.SEQ_ERROR_UNUSED_ENCODING c) := by
  obtain ⟨hb, hf⟩ := s.issue_unusedEnc (run := runVec c w op k cost) h fun p => by simp [runVec, ho, State.vecReads]
  rwa [State.vec, State.issueAct, s.actOnNew_same _ (by rw [hb])]

theorem State.vec_cmdErr (h : s.atHead c 4 i = true) (ho : ∀ x f, op x w f = .cmdErr) :
    s.vecFaults (s.vec c i w op k cost) c (Fld.VEC_STATUS_COMMAND_ERROR c) := by
  obtain ⟨hb, hf⟩ := s.issue_vecCmdErr (run := runVec c w op k cost) h fun p => by simp [runVec, ho, State.vecReads]
  rwa [State.vec, State.issueAct, s.actOnNew_same _ (by rw [hb])]

/-- An unused TYPE. -/
theorem exec_vector_unused (c : CoreId) (w : VWord) (s : State) (i : Instr)
    (hi : w.ty.val = 3 ∧ i ∈ [Instr.vadd c w, .vaddi c w, .vld c w, .vst c w, .vcmp c w, .vrsum c w, .vtopk c w, .vlut c w, .vrand c w] ∨
      w.ty.val ≠ 2 ∧ i ∈ [Instr.vsplathi c w, .vtopkp c w, .vacc c w, .vaccraw c w] ∨
      w.ty.val ≠ 1 ∧ i ∈ [Instr.vdesc c w, .vqscale c w, .vquant c w, .vdeq c w, .vexts c w])
    (h : s.atHead c 4 i) : ∃ t, exec i s = .next t ∧ s.vecFaults t c (Fld.SEQ_ERROR_UNUSED_ENCODING c) := by
  simp only [List.mem_cons, List.not_mem_nil, or_false] at hi
  rcases hi with ⟨ht, hi⟩ | ⟨ht, hi⟩ | ⟨ht, hi⟩
  · have hc := @ofCode_three w ht anyTy
    rcases hi with rfl | rfl | rfl | rfl | rfl | rfl | rfl | rfl | rfl
    case inr.inr.inr.inl =>
      have hst : ∀ x f, vStore x w f = .unusedEnc := fun _ _ => withType_unused _ hc
      exact ⟨_, rfl, (s.issue_unusedEnc h fun p => by simp [runVst, hst]).2⟩
    all_goals exact ⟨_, rfl, s.vec_unusedEnc h fun _ _ => withType_unused _ hc⟩
  · have hc := ofCode_not_i32 ht
    rcases hi with rfl | rfl | rfl | rfl
    all_goals exact ⟨_, rfl, s.vec_unusedEnc h fun _ _ => withType_unused _ hc⟩
  · have hc := ofCode_not_i16 ht
    rcases hi with rfl | rfl | rfl | rfl | rfl
    all_goals exact ⟨_, rfl, s.vec_unusedEnc h fun _ _ => withType_unused _ hc⟩

/-- A range that passes its end. -/
theorem exec_vector_cmdErr (c : CoreId) (w : VWord) (s : State) (ty : VTy) (i : Instr) (ht : VTy.ofCode w.ty.val = some ty)
    (hi : i ∈ [Instr.vadd c w, .vsub c w, .vmul c w, .vmin c w, .vand c w, .vshl c w, .vsel c w] ∧
        (32 < w.vd + ceilDiv (nOf w) ty.cap ∨ 32 < w.va + ceilDiv (nOf w) ty.cap ∨ 32 < w.vb + ceilDiv (nOf w) ty.cap) ∨
      i = .vld c w ∧ (32 < w.vd + ceilDiv (nOf w) ty.cap ∨ 2 ^ 21 < 4 * w.imm.toNat + nOf w * ty.bytes) ∨
      i = .vst c w ∧ (32 < w.va + ceilDiv (nOf w) ty.cap ∨ 2 ^ 21 < 4 * w.imm.toNat + nOf w * ty.bytes) ∨
      i = .vacc c w ∧ ty = .i32 ∧ 1024 < 32 * immF w 12 5 + nOf w)
    (h : s.atHead c 4 i) : ∃ t, exec i s = .next t ∧ s.vecFaults t c (Fld.VEC_STATUS_COMMAND_ERROR c) := by
  rcases hi with ⟨hi, hg⟩ | ⟨rfl, hg⟩ | ⟨rfl, hg⟩ | ⟨rfl, rfl, hg⟩
  · have hgroups : ∃ g ∈ [(ty, w.vd.val, nOf w), (ty, w.va.val, nOf w), (ty, w.vb.val, nOf w)], 32 < g.2.1 + ceilDiv g.2.2 g.1.cap := by
      simpa using hg
    simp only [List.mem_cons, List.not_mem_nil, or_false] at hi
    rcases hi with rfl | rfl | rfl | rfl | rfl | rfl | rfl
    all_goals exact ⟨_, rfl, s.vec_cmdErr h fun _ _ => (withType_eq _ ht rfl).trans (withGroups_cmdErr _ hgroups)⟩
  · exact ⟨_, rfl, s.vec_cmdErr h fun _ _ => vLoad_cmdErr ht hg⟩
  · have hst : ∀ x f, vStore x w f = .cmdErr := fun _ _ => vStore_cmdErr ht hg
    exact ⟨_, rfl, (s.issue_vecCmdErr h fun p => by simp [runVst, hst]).2⟩
  · exact ⟨_, rfl, s.vec_cmdErr h fun _ _ => vAcc_cmdErr ht hg⟩

/-- Settles O27: each case is the branch of the instruction's function that answers `.unusedEnc` or `.cmdErr`. -/
theorem vectorErrorsAbandon : Obligations.VectorErrorsAbandon := ⟨exec_vector_unused, exec_vector_cmdErr⟩

end Sys2Proof.Machine
end

section
/-! PROOFS. Tokens and credits: WAIT draws, SIGNAL and CREDIT_RETURN set out, a signal arrives (R49 to R53, R136). -/

namespace Sys2Proof.Machine

variable (s : State)

/-- Two counters of a core have distinct bits. -/
theorem tokFld_apart (c : Nat) {n m : Nat} (h : n ≠ m) : (tokFld c n).addr ≠ (tokFld c m).addr ∨
    (tokFld c m).lo + (tokFld c m).w ≤ (tokFld c n).lo ∨ (tokFld c n).lo + (tokFld c n).w ≤ (tokFld c m).lo := by
  simp only [tokFld, Rg.SEQ_TOKEN]
  omega

/-- Writing a field leaves one with distinct bits. -/
theorem State.fld_setFld_apart {f g : Fld} (v : Nat) (h : f.addr ≠ g.addr ∨ g.lo + g.w ≤ f.lo ∨ f.lo + f.w ≤ g.lo) :
    (s.setFld f v).fld g = s.fld g := by
  rcases h with h | h
  · exact s.fld_setFld_addr f g v h
  · exact s.fld_setFld_disjoint f g v h

theorem sigFld_width (c n : Nat) (k : SigKind) : (sigFld c k n).w = 16 ∧ (sigFld c k n).lo + 16 ≤ 32 := by
  cases k <;> exact ⟨rfl, by simp only [sigFld, tokFld, credFld]; omega⟩

/-- A counter that holds `v` reads `v`. -/
theorem State.fld_setFld_sig (c n : Nat) (k : SigKind) {v : Nat} (h : v ≤ 0xFFFF) :
    (s.setFld (sigFld c k n) v).fld (sigFld c k n) = v := by
  obtain ⟨hw, hl⟩ := sigFld_width c n k
  rw [State.fld_setFld_same _ _ _ (by omega), hw]
  omega

theorem State.sigFld_le (c n : Nat) (k : SigKind) : s.fld (sigFld c k n) ≤ 0xFFFF := by
  have h := s.fld_lt (sigFld c k n)
  rw [(sigFld_width c n k).1] at h
  omega

/-- A field written: no other register word changes, no byte, no counter, no signal. -/
theorem State.setFld_sameRegs (f : Fld) (v : Nat) : s.sameRegs (s.setFld f v) [f.addr] := fun _ ha =>
  State.rd_wr_ne s _ fun he => ha (he ▸ List.mem_singleton_self _)

/-- An instruction that has completed leaves registers, bytes, counters and signals as its meaning left them. -/
theorem State.complete_sameRegs {t : State} {as : List Nat} (h : s.sameRegs t as) (c q : Nat) (b : Option Bool) : s.sameRegs (t.complete c q b) as :=
  fun a ha => (State.complete_rd t c q b a).trans (h a ha)

theorem State.complete_sameMemory {t : State} (h : s.sameMemory t) (c q : Nat) (b : Option Bool) : s.sameMemory (t.complete c q b) := by
  obtain ⟨hm, hh, hn, hb, hc, hk⟩ := h
  exact ⟨by simpa using hm, by simpa using hh, by simpa using hn, by simpa using hb, fun d => by simpa using hc d, fun k => by simpa using hk k⟩

/-! ### WAIT, SIGNAL, CREDIT_RETURN -/

theorem exec_wait_draws (c : CoreId) (o : TokenOp) (s : State) (h : s.atHead c o.queue (.wait c o)) (h0 : o.amount ≠ 0#8)
    (hle : o.amount.toNat ≤ s.leftFor c o.queue (tokFld c o.counter)) :
    ∃ t, exec (.wait c o) s = .next t ∧ t.fld (tokFld c o.counter) = s.fld (tokFld c o.counter) - o.amount.toNat ∧
      (∀ n : Fin 64, n ≠ o.counter → t.fld (tokFld c n) = s.fld (tokFld c n)) ∧
      s.sameRegs t [(tokFld c o.counter).addr] ∧ s.sameMemory t ∧ t.ctrs = s.ctrs ∧ t.flights = s.flights := by
  obtain ⟨p, b, -, hi⟩ := s.issue_atHead (runWait c o) h
  have hrun : runWait c o p s = (s.setFld (tokFld c o.counter) (s.fld (tokFld c o.counter) - o.amount.toNat), true) := by
    simp [runWait, h0, State.draw, hle]
  refine ⟨_, rfl, ?_⟩
  rw [hi, hrun, if_pos rfl]
  refine ⟨?_, fun n hn => ?_, s.complete_sameRegs (s.setFld_sameRegs _ _) _ _ _, s.complete_sameMemory (s.setFld_sameMemory _ _) _ _ _, by simp, by simp⟩
  · exact (State.complete_fld _ _ _ _ _).trans
      (s.fld_setFld_sig c o.counter .token (Nat.le_trans (Nat.sub_le _ _) (s.sigFld_le c o.counter .token)))
  · rw [State.complete_fld, s.fld_setFld_apart _ (tokFld_apart c fun he => hn (Fin.ext he.symm))]

theorem exec_wait_holds (c : CoreId) (o : TokenOp) (s : State) (h0 : o.amount ≠ 0#8)
    (hlt : s.leftFor c o.queue (tokFld c o.counter) < o.amount.toNat) : exec (.wait c o) s = .next s := by
  have hrun : ∀ p, runWait c o p s = (s, false) := fun p => by simp [runWait, h0, State.draw, Nat.not_le.mpr hlt]
  exact congrArg _ (s.issue_waits hrun)

/-- An instruction of queue `q` that sends a signal and does nothing else. -/
theorem State.issue_sendSig {c : CoreId} {q : Nat} {i : Instr} {run : Prog → State → RunOut} {dst : Nat} {k : SigKind} {n amt : Nat}
    (h : s.atHead c q i = true) (hrun : ∀ p, run p s = (s.sendSig c dst k n amt, true)) :
    (s.issue c q i run).flights = s.flights ++ [⟨some c, dst, k, n, amt, sigCycles c dst⟩] ∧
      s.sameRegs (s.issue c q i run) [] ∧ s.sameMemory (s.issue c q i run) ∧ (s.issue c q i run).ctrs = s.ctrs := by
  obtain ⟨p, b, -, hi⟩ := s.issue_atHead run h
  rw [hi, hrun, if_pos rfl]
  have hm : s.sameMemory (s.sendSig c dst k n amt) := State.sameMemory_of_parts rfl rfl rfl rfl rfl
  exact ⟨by rw [State.complete_flights]; rfl, s.complete_sameRegs (t := s.sendSig c dst k n amt) (fun _ _ => rfl) _ _ _,
    s.complete_sameMemory hm _ _ _, by rw [State.complete_ctrs]; rfl⟩

theorem exec_signal_sets_out (c : CoreId) (o : TokenOp) (s : State) (h : s.atHead c o.queue (.signal c o)) (h0 : o.amount ≠ 0#8) :
    ∃ t, exec (.signal c o) s = .next t ∧
      t.flights = s.flights ++ [⟨some c, TokenOp.dst c o, .token, o.counter, o.amount.toNat, sigCycles c (TokenOp.dst c o)⟩] ∧
      s.sameRegs t [] ∧ s.sameMemory t ∧ t.ctrs = s.ctrs :=
  ⟨_, rfl, s.issue_sendSig h fun p => by simp [runSignal, h0]⟩

theorem exec_creditReturn_sets_out (c : CoreId) (o : TokenOp) (s : State) (h : s.atHead c o.queue (.creditReturn c o)) (h0 : o.amount ≠ 0#8)
    (hc : o.counter.val < 32) :
    ∃ t, exec (.creditReturn c o) s = .next t ∧
      t.flights = s.flights ++ [⟨some c, TokenOp.dst c o, .credit, o.counter, o.amount.toNat, sigCycles c (TokenOp.dst c o)⟩] ∧
      s.sameRegs t [] ∧ s.sameMemory t ∧ t.ctrs = s.ctrs :=
  ⟨_, rfl, s.issue_sendSig h fun p => by simp [runCreditReturn, h0, Nat.not_le.mpr hc]⟩

/-! ### A signal that arrives -/

/-- The signals on their way, replaced. -/
def State.withFlights (s : State) (l : List Flight) : State := { s with flights := l }

@[simp] theorem State.withFlights_fld (l : List Flight) (f : Fld) : (s.withFlights l).fld f = s.fld f := (rfl)
@[simp] theorem State.withFlights_rd (l : List Flight) (a : Nat) : (s.withFlights l).rd a = s.rd a := (rfl)
@[simp] theorem State.withFlights_core (l : List Flight) (c : Nat) : (s.withFlights l).core c = s.core c := (rfl)
@[simp] theorem State.withFlights_flights (l : List Flight) : (s.withFlights l).flights = l := (rfl)
@[simp] theorem State.withFlights_tickState (l : List Flight) : (s.withFlights l).tickState = s.tickState := (rfl)
theorem State.withFlights_sameMemory (l : List Flight) : s.sameMemory (s.withFlights l) := State.sameMemory_of_parts rfl rfl rfl rfl rfl

theorem exec_signalArrival {i : Nat} {f : Flight} (h : s.flights[i]? = some f) :
    exec (.signalArrival i) s = .next ((s.withFlights (s.flights.eraseIdx i)).arrive f) := by
  show execSignalArrival i s = _
  simp only [execSignalArrival, h]
  rfl

theorem CoreSt.inSeg_eq_true {x : CoreSt} (h : x.inSeg = true) : ∃ g, x.seg = some g ∧ g.ended = false := by
  simpa [CoreSt.inSeg, Option.any_eq_true] using h

theorem CoreSt.inSeg_eq_false {x : CoreSt} (h : x.inSeg = false) : ∀ g, x.seg = some g → g.ended = true := by
  intro g hg
  simpa [CoreSt.inSeg, hg] using h

/-- A signal adds on a core whose step or re-run segment has not ended (R49, R53). -/
theorem State.arrive_eq_addSig {f : Flight} (h : s.fld (Fld.SEQ_STATUS_ENDED f.dst) = 0 ∨ (s.core f.dst).inSeg = true) :
    s.arrive f = s.addSig f.dst f.kind f.ctr f.amt := by
  unfold State.arrive
  rcases h with h | h
  · simp [h]
  · obtain ⟨g, hg, he⟩ := CoreSt.inSeg_eq_true h
    simp [hg, he]

theorem State.arrive_eq_late {f : Flight} (h : s.fld (Fld.SEQ_STATUS_ENDED f.dst) = 1) (hs : (s.core f.dst).inSeg = false) :
    s.arrive f = s.seqError f.dst (Fld.SEQ_ERROR_LATE_SIGNAL f.dst) (s.fld (Fld.SEQ_PC_PC f.dst)) (s.core f.dst).pid := by
  have hended := CoreSt.inSeg_eq_false hs
  unfold State.arrive
  cases hg : (s.core f.dst).seg with
  | none => simp [h]
  | some g => simp [h, hended g hg]

/-- An addition that stays within 0xFFFF (R49). -/
theorem State.addSig_within {c n amt : Nat} {k : SigKind} (h : s.fld (sigFld c k n) + amt ≤ 0xFFFF) :
    s.addSig c k n amt = s.setFld (sigFld c k n) (s.fld (sigFld c k n) + amt) := if_pos h

theorem exec_signalArrival_adds (i : Nat) (f : Flight) (s : State) (h : s.flights[i]? = some f)
    (ha : s.fld (Fld.SEQ_STATUS_ENDED f.dst) = 0 ∨ (s.core f.dst).inSeg = true) (hle : s.fld (sigFld f.dst f.kind f.ctr) + f.amt ≤ 0xFFFF) :
    ∃ t, exec (.signalArrival i) s = .next t ∧ t.flights = s.flights.eraseIdx i ∧
      t.fld (sigFld f.dst f.kind f.ctr) = s.fld (sigFld f.dst f.kind f.ctr) + f.amt ∧
      s.sameRegs t [(sigFld f.dst f.kind f.ctr).addr] ∧ s.sameMemory t := by
  refine ⟨_, exec_signalArrival s h, ?_⟩
  rw [State.arrive_eq_addSig (s.withFlights (s.flights.eraseIdx i)) ha, State.addSig_within (s := s.withFlights (s.flights.eraseIdx i)) hle]
  exact ⟨rfl, State.fld_setFld_sig _ _ _ _ hle, State.setFld_sameRegs (s.withFlights _) _ _,
    State.sameMemory_trans (s.withFlights_sameMemory _) (State.setFld_sameMemory _ _ _)⟩

theorem State.seqError_sameMemory (c : Nat) (f : Fld) (pc : Nat) (pid : BitVec 16) : s.sameMemory (s.seqError c f pc pid) :=
  State.sameMemory_of_parts (State.seqError_mem _ _ _ _ _) (State.seqError_host _ _ _ _ _) (State.seqError_boot _ _ _ _ _)
    (State.seqError_cores _ _ _ _ _) (State.seqError_clusters _ _ _ _ _)

theorem exec_signalArrival_late (i : Nat) (f : Flight) (s : State) (h : s.flights[i]? = some f) (_ : f.dst < 512)
    (he : s.fld (Fld.SEQ_STATUS_ENDED f.dst) = 1) (hs : (s.core f.dst).inSeg = false) :
    ∃ t, exec (.signalArrival i) s = .next t ∧ t.flights = s.flights.eraseIdx i ∧ t.fld (Fld.SEQ_ERROR_LATE_SIGNAL f.dst) = 1 ∧
      t.tickState = s.tickState ∧ s.sameRegs t [Rg.SEQ_ERROR f.dst, (Fld.SEQ_ERROR_PC_ERROR_PC f.dst).addr] ∧ s.sameMemory t := by
  refine ⟨_, exec_signalArrival s h, ?_⟩
  rw [State.arrive_eq_late (s.withFlights (s.flights.eraseIdx i)) he hs]
  refine ⟨State.seqError_flights _ _ _ _ _, State.seqError_bit _ _ _ rfl (show 6 < 32 by decide), State.seqError_tickState _ rfl _ _, fun a ha => ?_,
    State.sameMemory_trans (s.withFlights_sameMemory _) (State.seqError_sameMemory _ _ _ _ _)⟩
  simp only [List.mem_cons, List.not_mem_nil, or_false, not_or] at ha
  exact State.seqError_rd _ rfl _ _ ha.1 ha.2

/-- Settles O11, an instruction a clause. -/
theorem tokensMoveByAmount : Obligations.TokensMoveByAmount :=
  ⟨exec_wait_draws, exec_wait_holds, exec_signal_sets_out, exec_creditReturn_sets_out, exec_signalArrival_adds, exec_signalArrival_late⟩

end Sys2Proof.Machine
end

section
/-! PROOFS. A token or credit counter that would pass 0xFFFF stops there, and the step is abandoned (R51). -/

namespace Sys2Proof.Machine

variable (s : State)

/-- The bit of SEQ.ERROR that an addition past 0xFFFF sets (R51). -/
def SigKind.overflow (k : SigKind) (c : Nat) : Fld :=
  match k with
  | .token => Fld.SEQ_ERROR_TOKEN_OVERFLOW c
  | .credit => Fld.SEQ_ERROR_CREDIT_OVERFLOW c

theorem SigKind.overflow_bit (k : SigKind) (c : Nat) : (k.overflow c).addr = Rg.SEQ_ERROR c ∧ (k.overflow c).w = 1 ∧ (k.overflow c).lo < 32 := by
  cases k
  · exact ⟨rfl, rfl, show 1 < 32 by decide⟩
  · exact ⟨rfl, rfl, show 2 < 32 by decide⟩

/-- Where the counter of a core lies in its block. -/
theorem sigFld_addr (c : Nat) {n : Nat} (k : SigKind) (h : n < 64) :
    ∃ o, (sigFld c k n).addr = coreBase c + o ∧ 0x100 ≤ o ∧ o < 0x200 := by
  cases k
  · exact ⟨0x100 + 4 * (n / 2), Nat.add_assoc _ _ _, by omega, by omega⟩
  · exact ⟨0x180 + 4 * (n / 2), Nat.add_assoc _ _ _, by omega, by omega⟩

/-- An addition past 0xFFFF leaves the counter there, sets its bit and abandons the step. -/
theorem State.addSig_over {c n amt : Nat} {k : SigKind} (hn : n < 64) (h : 0xFFFF < s.fld (sigFld c k n) + amt) :
    (s.addSig c k n amt).fld (sigFld c k n) = 0xFFFF ∧ s.faults (s.addSig c k n amt) (k.overflow c) := by
  obtain ⟨o, ha, h1, h2⟩ := sigFld_addr c k hn
  obtain ⟨hf, hw, hl⟩ := k.overflow_bit c
  let u := s.setFld (sigFld c k n) 0xFFFF
  have hu : s.addSig c k n amt = (u.seqError c (k.overflow c) (u.fld (Fld.SEQ_PC_PC c)) (u.core c).pid).abandonStep false := by
    rw [State.addSig.eq_def, if_neg (by omega)]
    cases k <;> rfl
  have hrun : u.tickState = s.tickState := s.fld_setFld_addr _ _ _ (ha ▸ coreReg_ne_status c o)
  rw [hu]
  refine ⟨?_, (u.seqError_abandonStep hf _ _ hw hl).imp_right fun hstop hs => hstop (hrun.trans hs)⟩
  calc
    _ = (u.seqError c (k.overflow c) (u.fld (Fld.SEQ_PC_PC c)) (u.core c).pid).fld (sigFld c k n) :=
      congrArg (bvGet _ _) (ha ▸ State.abandonStep_coreReg _ false c (by omega))
    _ = u.fld (sigFld c k n) :=
      congrArg (bvGet _ _) (u.seqError_rd hf _ _ (by rw [ha, Rg.SEQ_ERROR]; omega) (by rw [ha, Rg.SEQ_ERROR_PC]; omega))
    _ = 0xFFFF := s.fld_setFld_sig c n k (Nat.le_refl _)

theorem exec_signalArrival_overflows (i : Nat) (f : Flight) (s : State) (h : s.flights[i]? = some f)
    (ha : s.fld (Fld.SEQ_STATUS_ENDED f.dst) = 0 ∨ (s.core f.dst).inSeg = true) (hn : f.ctr < 64)
    (hlt : 0xFFFF < s.fld (sigFld f.dst f.kind f.ctr) + f.amt) :
    ∃ t, exec (.signalArrival i) s = .next t ∧ t.fld (sigFld f.dst f.kind f.ctr) = 0xFFFF ∧ s.faults t (f.kind.overflow f.dst) := by
  refine ⟨_, exec_signalArrival s h, ?_⟩
  rw [State.arrive_eq_addSig (s.withFlights (s.flights.eraseIdx i)) ha]
  exact State.addSig_over (s.withFlights (s.flights.eraseIdx i)) hn hlt

/-! ### A tensor message, from its port to its destination -/

/-- The links' state, replaced. -/
def State.withLink (s : State) (l : LinkSt) : State := { s with link := l }

@[simp] theorem State.withLink_fld (l : LinkSt) (f : Fld) : (s.withLink l).fld f = s.fld f := (rfl)
@[simp] theorem State.withLink_rd (l : LinkSt) (a : Nat) : (s.withLink l).rd a = s.rd a := (rfl)
@[simp] theorem State.withLink_ctr (l : LinkSt) (a : Nat) : (s.withLink l).ctr a = s.ctr a := (rfl)
@[simp] theorem State.withLink_core (l : LinkSt) (c : Nat) : (s.withLink l).core c = s.core c := (rfl)
@[simp] theorem State.withLink_cluster (l : LinkSt) (k : Nat) : (s.withLink l).cluster k = s.cluster k := (rfl)
@[simp] theorem State.withLink_tickState (l : LinkSt) : (s.withLink l).tickState = s.tickState := (rfl)
@[simp] theorem State.withLink_link (l : LinkSt) : (s.withLink l).link = l := (rfl)
theorem State.withLink_sameMemory (l : LinkSt) : s.sameMemory (s.withLink l) := State.sameMemory_of_parts rfl rfl rfl rfl rfl

/-- A message taken off the list of those that have come, on a port or from the device itself. -/
def State.received (s : State) (p : Option PortId) (m : TensorMsg) : State :=
  match p with
  | none => s.withLink { s.link with loop := s.link.loop.erase m }
  | some q => s.takeArrived q 2 fun bs => TensorMsg.ofBytes bs == m

theorem State.takeArrived_withLink (p vc : Nat) (is : List Byte → Bool) :
    ∃ ps, s.takeArrived p vc is = s.withLink { s.link with ports := ps } := by
  unfold State.takeArrived
  split
  · exact ⟨_, rfl⟩
  · exact ⟨s.link.ports, rfl⟩

/-- It changes the links' lists alone, and not the hold area. -/
theorem State.received_withLink (p : Option PortId) (m : TensorMsg) : ∃ l, s.received p m = s.withLink l ∧ l.hold = s.link.hold := by
  cases p with
  | none => exact ⟨_, rfl, rfl⟩
  | some q =>
    obtain ⟨ps, h⟩ := s.takeArrived_withLink q 2 fun bs => TensorMsg.ofBytes bs == m
    exact ⟨_, h, rfl⟩

/-- The flits of a message freed in the buffer of the port it came on (R293). -/
def State.freed (s : State) (p : Option PortId) (m : TensorMsg) : State :=
  s.atPort p fun s p => s.freeFlits p 2 (flitsFor m.bytes.length)

theorem State.freed_withLink (p : Option PortId) (m : TensorMsg) : ∃ l, s.freed p m = s.withLink l ∧ l.hold = s.link.hold := by
  cases p with
  | none => exact ⟨s.link, rfl, rfl⟩
  | some q => exact ⟨_, rfl, rfl⟩

theorem exec_tensorMessage {p : Option PortId} {m : TensorMsg} (hme : m.hdr.destMember.val = s.me)
    (hb : ∀ q, p = some q → (s.port q).blocked = []) : exec (.tensorMessage p m) s = .next ((s.received p m).checkMsg p m) := by
  show execTensorMessage p m s = _
  unfold execTensorMessage
  cases p with
  | none => simp [hme]; rfl
  | some q => simp [hme, hb q rfl]; rfl

/-- A message of the tick in progress that passes the checks of R303 lands. -/
theorem State.checkMsg_lands {p : Option PortId} {m : TensorMsg} (ht : s.tickState ≠ stDisabled)
    (hg : m.hdr.groupId.toNat = s.fld Fld.GARNET_GROUP_GROUP_ID) (hk : m.hdr.tick = s.tickNo) (hp : m.hdr.part.val = s.partOf m.hdr.destCore)
    (hw : (m.hdr.wire.val = 3 ↔ m.data = [])) (hd : m.hdr.destAddr.toNat + m.hdr.unitsM1.toNat < (if m.hdr.toCache then 65536 else 32768)) :
    s.checkMsg p m = (s.landMsg p m).freed p m := by
  have hw' : ((m.hdr.wire.val == 3) != (m.data == [])) = false := by
    by_cases h : m.data = []
    · simp [h, hw.mpr h]
    · rw [beq_eq_false_iff_ne.mpr (mt hw.mp h), beq_eq_false_iff_ne.mpr h]
      rfl
  unfold State.checkMsg
  simp only [ht, if_false, hg, ne_eq, not_true_eq_false, hk, BitVec.sub_self, BitVec.toNat_zero, Nat.zero_ne_one, hp, hw',
    Bool.false_eq_true, Nat.not_le.mpr hd]
  rfl

/-! ### Landing -/

/-- A coded wire's clamps and unused exponents count at the port, and change nothing else (R305). -/
theorem State.wireDecode_keeps_of {β : Type} (P : State → β) (p : Option PortId) (wire : Nat) (bs : List Byte)
    (hc : ∀ (t : State) (q : PortId) a n, (a = Ct.LNK_L8_FORMAT_ERRORS q ∨ a = Ct.LNK_L8_CLAMPS q) → P (t.count a n) = P t)
    (hr : ∀ (t : State) (q : PortId), P (t.raise (Fld.LNK_STATUS_L8_FORMAT q)) = P t) : P (s.wireDecode p wire bs).2 = P s := by
  unfold State.wireDecode
  split
  · rfl
  dsimp only
  generalize List.range (bs.length / 33) = is
  refine List.foldlRecOn (motive := fun (acc : List Byte × State) => P acc.2 = P s) is _ rfl fun acc hacc i _ => ?_
  dsimp only
  refine Eq.trans ?_ hacc
  cases p with
  | none => simp only [State.atPort, ite_self]
  | some q =>
    have hformat : ∀ b : Bool, P (if b then (acc.2.count (Ct.LNK_L8_FORMAT_ERRORS q) 1).raise (Fld.LNK_STATUS_L8_FORMAT q) else acc.2) = P acc.2 :=
      fun b => by cases b; exacts [rfl, (hr _ q).trans (hc _ q _ 1 (.inl rfl))]
    have hclamps : ∀ (t : State) (n : Nat), P (if n = 0 then t else t.count (Ct.LNK_L8_CLAMPS q) n) = P t :=
      fun t n => by split; exacts [rfl, hc t q _ n (.inr rfl)]
    exact (hclamps _ _).trans (hformat _)

/-- A message's bytes in place, before its amount is added (R305, R306). -/
def State.landed (s : State) (p : Option PortId) (m : TensorMsg) : State :=
  let h := m.hdr
  let c := h.destCore.val
  let r := s.wireDecode p h.wire m.data
  let s := r.2.linkUnits (dieOf c) r.1.length false
  let a := 64 * h.destAddr.toNat
  if r.1 = [] then s
  else if h.toCache then
    (s.modCluster (clusterOf c) fun x =>
      { x with cache := x.cache.wrBlk a r.1, cacheBad := x.cacheBad.filter fun u => !coversUnit a r.1.length u }).count
        (Ct.CLC_CC_OPS (clusterOf c)) (ceilDiv r.1.length 64)
  else s.modCore c fun x => x.put a r.1

theorem State.landMsg_eq (p : Option PortId) (m : TensorMsg) :
    s.landMsg p m = (s.landed p m).arrive ⟨none, m.hdr.destCore, if m.hdr.wire.val = 3 then .credit else .token, m.hdr.token, m.hdr.amount.toNat, 0⟩ := rfl

/-- What landing leaves: all that the clamps' registers, the counters, a cache and a core buffer do not touch. -/
theorem State.landed_rd (p : Option PortId) (m : TensorMsg) {a : Nat} (h : a < 0x100000 ∨ 0x200000 ≤ a) : (s.landed p m).rd a = s.rd a := by
  have hd : (s.wireDecode p m.hdr.wire m.data).2.rd a = s.rd a := by
    refine s.wireDecode_keeps_of (·.rd a) p _ _ (fun _ _ _ _ _ => rfl) fun t q => State.rd_wr_ne t _ ?_
    show 0x100000 + 0x10000 * q.val + 4 ≠ a
    omega
  unfold State.landed
  dsimp only
  split
  · exact hd
  · split <;> exact hd

theorem State.landed_inSeg (p : Option PortId) (m : TensorMsg) (c : Nat) : ((s.landed p m).core c).inSeg = (s.core c).inSeg := by
  have hd : (s.wireDecode p m.hdr.wire m.data).2.core c = s.core c := s.wireDecode_keeps_of (·.core c) p _ _ (fun _ _ _ _ _ => rfl) fun _ _ => rfl
  unfold State.landed
  dsimp only
  split
  · exact congrArg _ hd
  · split
    · exact congrArg _ hd
    · by_cases hc : m.hdr.destCore.val = c
      · subst hc
        rw [State.core_modCore_same]
        exact (congrArg CoreSt.inSeg hd :)
      · rw [State.core_modCore_ne _ _ hc]
        exact congrArg _ hd

theorem State.landed_fld (p : Option PortId) (m : TensorMsg) {f : Fld} (h : f.addr < 0x100000 ∨ 0x200000 ≤ f.addr) :
    (s.landed p m).fld f = s.fld f := congrArg (bvGet _ _) (s.landed_rd p m h)

/-- The counter that a message adds to: a credit counter for one without data, else a token (R297). -/
def msgKind (m : TensorMsg) : SigKind := if m.hdr.wire.val = 3 then .credit else .token

theorem coreReg_ge (c o : Nat) : 0x200000 ≤ coreBase c + o := by unfold coreBase clusterBase; omega

/-- A message that lands on a core whose counters still take signals adds its amount. -/
theorem State.landMsg_adds {p : Option PortId} {m : TensorMsg}
    (ha : s.fld (Fld.SEQ_STATUS_ENDED m.hdr.destCore) = 0 ∨ (s.core m.hdr.destCore).inSeg = true) :
    s.landMsg p m = (s.landed p m).addSig m.hdr.destCore (msgKind m) m.hdr.token m.hdr.amount.toNat := by
  rw [State.landMsg_eq]
  refine State.arrive_eq_addSig (f := ⟨none, m.hdr.destCore, (msgKind m), m.hdr.token, m.hdr.amount.toNat, 0⟩) _ ?_
  rw [State.landed_inSeg, State.landed_fld _ _ _ (.inr (coreReg_ge _ _))]
  exact ha

/-- A message whose amount carries its counter past 0xFFFF. -/
theorem State.landMsg_over {p : Option PortId} {m : TensorMsg}
    (ha : s.fld (Fld.SEQ_STATUS_ENDED m.hdr.destCore) = 0 ∨ (s.core m.hdr.destCore).inSeg = true)
    (hlt : 0xFFFF < s.fld (sigFld m.hdr.destCore (msgKind m) m.hdr.token) + m.hdr.amount.toNat) :
    (s.landMsg p m).fld (sigFld m.hdr.destCore (msgKind m) m.hdr.token) = 0xFFFF ∧ s.faults (s.landMsg p m) ((msgKind m).overflow m.hdr.destCore) := by
  obtain ⟨o, hsig, -, -⟩ := sigFld_addr m.hdr.destCore (msgKind m) m.hdr.token.isLt
  have hcount := s.landed_fld p m (f := sigFld m.hdr.destCore (msgKind m) m.hdr.token) (.inr (hsig ▸ coreReg_ge _ _))
  obtain ⟨hmax, hbit, hstop⟩ := (s.landed p m).addSig_over m.hdr.token.isLt (hcount ▸ hlt)
  have htick : (s.landed p m).tickState = s.tickState := s.landed_fld p m (.inl (by decide))
  rw [s.landMsg_adds ha]
  exact ⟨hmax, hbit, fun hs => hstop (htick.trans hs)⟩

theorem exec_tensorMessage_overflows (p : Option PortId) (m : TensorMsg) (s : State) (hme : m.hdr.destMember.val = s.me)
    (hb : ∀ q, p = some q → (s.port q).blocked = []) (ht : s.tickState ≠ stDisabled)
    (hg : m.hdr.groupId.toNat = s.fld Fld.GARNET_GROUP_GROUP_ID) (hk : m.hdr.tick = s.tickNo) (hp : m.hdr.part.val = s.partOf m.hdr.destCore)
    (hw : m.hdr.wire.val = 3 ↔ m.data = []) (hd : m.hdr.destAddr.toNat + m.hdr.unitsM1.toNat < (if m.hdr.toCache then 65536 else 32768))
    (ha : s.fld (Fld.SEQ_STATUS_ENDED m.hdr.destCore) = 0 ∨ (s.core m.hdr.destCore).inSeg = true)
    (hlt : 0xFFFF < s.fld (sigFld m.hdr.destCore (msgKind m) m.hdr.token) + m.hdr.amount.toNat) :
    ∃ t, exec (.tensorMessage p m) s = .next t ∧ t.fld (sigFld m.hdr.destCore (msgKind m) m.hdr.token) = 0xFFFF ∧
      s.faults t ((msgKind m).overflow m.hdr.destCore) := by
  obtain ⟨l, hl, -⟩ := s.received_withLink p m
  obtain ⟨l', hl', -⟩ := ((s.withLink l).landMsg p m).freed_withLink p m
  refine ⟨((s.withLink l).landMsg p m).withLink l', ?_, (s.withLink l).landMsg_over ha hlt⟩
  rw [exec_tensorMessage s hme hb, hl, State.checkMsg_lands (s.withLink l) ht hg hk hp hw hd, hl']

/-- Settles O12: both ways end in `addSig`, on a core whose counters still take signals. -/
theorem overflowingCounterStops : Obligations.OverflowingCounterStops := by
  refine ⟨fun i f s h ha _ hn hlt => ?_, fun p m s hme hb ht hg hk hp hw hd ha => ?_⟩
  · have hn' : f.ctr < 64 := by cases hkind : f.kind <;> simp only [hkind] at hn <;> omega
    obtain ⟨t, he, hmax, hbit, hstop⟩ := exec_signalArrival_overflows i f s h ha hn' hlt
    exact ⟨t, he, hmax, hbit, fun hs => (hstop hs).1⟩
  · intro k hlt
    have hw' : m.hdr.wire.val = 3 ↔ m.data = [] := by
      rcases hw with ⟨h3, h0⟩ | ⟨h3, h0, -⟩
      · exact iff_of_false h3 h0
      · exact iff_of_true h3 h0
    obtain ⟨t, he, hmax, hbit, hstop⟩ := exec_tensorMessage_overflows p m s hme hb ht hg hk hp hw' hd ha hlt
    exact ⟨t, he, hmax, hbit, fun hs => (hstop hs).1⟩

end Sys2Proof.Machine
end

section
/-! PROOFS. NOP, LAYER and STEP_END (R47, R53, R55, R59, R153). -/

namespace Sys2Proof.Machine

/-! ### NOP and LAYER -/

theorem exec_nop_idles (c : CoreId) (s : State) : ∃ t, exec (.nop c) s = .next t ∧ t.core c = { s.core c with idleUs := 0 } ∧
    (∀ d, d ≠ c.val → t.core d = s.core d) ∧ { t with cores := s.cores } = s :=
  ⟨_, rfl, State.core_modCore_same _ _ _, fun _ hd => State.core_modCore_ne _ _ hd.symm, rfl⟩

variable (s : State)

/-- A core changed in all but its buffer. -/
theorem State.modCore_sameMemory (c : Nat) (f : CoreSt → CoreSt) (h : (f (s.core c)).buf = (s.core c).buf) : s.sameMemory (s.modCore c f) := by
  refine ⟨rfl, rfl, rfl, rfl, fun d => ?_, fun _ => rfl⟩
  by_cases hd : c = d
  · subst hd; rw [State.core_modCore_same, h]
  · rw [State.core_modCore_ne _ _ hd]

theorem State.when_sameMemory (b : Bool) {f : State → State} (h : s.sameMemory (f s)) : s.sameMemory (s.when b f) := by
  cases b
  · exact s.sameMemory_refl
  · exact h

/-- LAYER of the main program puts its number in force in its queue. -/
def CoreSt.enterLayer (x : CoreSt) (q : QId) (n : BitVec 16) : CoreSt :=
  let ls := NMap.get [] x.entered q.val
  { x with layer := NMap.set 0xFFFF#16 x.layer q.val n
           entered := NMap.set [] x.entered q.val (if ls.contains n.toNat then ls else ls ++ [n.toNat]) }

/-- The engines, replaced. -/
def State.withEngs (s : State) (es : NMap EngSt) : State := { s with engs := es }

theorem State.withEngs_sameMemory (es : NMap EngSt) : s.sameMemory (s.withEngs es) := State.sameMemory_of_parts rfl rfl rfl rfl rfl

/-- Beside the queue's layer and an engine's outlier list LAYER changes nothing. -/
theorem runLayer_eq (c : CoreId) (q : QId) (n : BitVec 16) {p : Prog} (hp : p.seg = none) :
    ∃ es, runLayer c q n p s = ((s.modCore c fun x => x.enterLayer q n).withEngs es, true) := by
  unfold runLayer
  rw [hp, Option.isSome_none, if_neg Bool.false_ne_true]
  dsimp only
  split
  · exact ⟨_, rfl⟩
  · exact ⟨s.engs, rfl⟩

/-- An instruction that completes leaves the layers in force. -/
theorem State.complete_layer (c q d : Nat) (b : Option Bool) : ((s.complete c q b).core d).layer = (s.core d).layer := by
  unfold State.complete
  rw [State.closeSlots_core]
  by_cases h : c = d
  · subst h
    rw [State.core_modCore_same]
    cases b with
    | none => rfl
    | some x => unfold CoreSt.pop; cases x <;> rfl
  · rw [State.core_modCore_ne _ _ h]

theorem exec_layer_enters (c : CoreId) (q : QId) (n : BitVec 16) (s : State) (h : s.atHead c q (.layer c q n)) (hs : (s.core c).seg = none) :
    ∃ t, exec (.layer c q n) s = .next t ∧ NMap.get 0xFFFF#16 (t.core c).layer q = n ∧
      (∀ p : QId, p ≠ q → NMap.get 0xFFFF#16 (t.core c).layer p = NMap.get 0xFFFF#16 (s.core c).layer p) ∧
      s.sameRegs t [] ∧ s.sameMemory t := by
  obtain ⟨p, b, hp, hi⟩ := s.issue_atHead (runLayer c q n) h
  obtain ⟨es, hrun⟩ := runLayer_eq s c q n (hp hs)
  let u := (s.modCore c fun x => x.enterLayer q n).withEngs es
  have hcore : u.core c = (s.core c).enterLayer q n := State.core_modCore_same s c fun x => x.enterLayer q n
  have hmem : s.sameMemory u := State.sameMemory_trans (s.modCore_sameMemory c _ rfl) (State.withEngs_sameMemory _ _)
  have hexec : exec (.layer c q n) s = .next (u.complete c q b) := by
    show Host.Outcome.next (s.issue c q (.layer c q n) (runLayer c q n)) = _
    rw [hi, hrun, if_pos rfl]
  refine ⟨u.complete c q b, hexec, ?_, fun p hpq => ?_, s.complete_sameRegs (t := u) (fun _ _ => rfl) _ _ _, s.complete_sameMemory hmem _ _ _⟩
  · rw [State.complete_layer, hcore]
    exact NMap.get_set_same _ _ _ _
  · rw [State.complete_layer, hcore]
    exact NMap.get_set_ne _ _ _ _ fun he => hpq (Fin.ext he.symm)

/-! ### STEP_END -/

/-- Counters out of balance are recorded (R53). -/
def State.checkBalance (s : State) (c : CoreId) : State :=
  s.when (!s.balanced c) fun s => s.seqError c (Fld.SEQ_ERROR_UNBALANCED c) (s.fld (Fld.SEQ_PC_PC c)) (s.core c).pid

/-- RUNNING gives way to ENDED (R53). -/
def State.showEnded (s : State) (c : CoreId) : State :=
  ((s.setFld (Fld.SEQ_STATUS_RUNNING c) 0).raise (Fld.SEQ_STATUS_ENDED c)).modCore c fun x => { x with idleUs := 0 }

/-- A cluster whose eight cores have ended says so, and its clock may be gated (R405). -/
def State.gateCluster (s : State) (k : Nat) : State :=
  s.when (s.clusterEnded k) fun s =>
    let s := s.raise (Fld.CLC_STATUS_STEP_ENDED k)
    s.when (s.fld Fld.PWR_STATUS_STATE == 0 && s.fld Fld.PWR_CTRL_STEP_GATE == 1) fun s => s.setFld (Fld.CLC_STATUS_CLOCK_ON k) 0

theorem exec_stepEnd_main (c : CoreId) (hs : (s.core c).seg = none) (hd : s.tickState = stRunning → (s.core c).dispatched = true)
    (hm : s.mayEnd c) : exec (.stepEnd c) s = .next ((((s.checkBalance c).showEnded c).gateCluster (clusterOf c)).closeSlots (clusterOf c)) := by
  show execStepEnd c s = _
  have hgo : ¬ ((s.tickState = stRunning ∧ !(s.core c).dispatched) ∨ !s.mayEnd c) := by
    rintro (⟨hr, hn⟩ | hn)
    · simp [hd hr] at hn
    · simp [hm] at hn
  unfold execStepEnd
  simp only [hs, Option.filter_none, if_neg hgo]
  rfl

/-- A cluster's own registers lie apart from its cores'. -/
theorem State.gateCluster_coreReg (k c : Nat) {o : Nat} (h : o < 0x10000) : (s.gateCluster k).rd (coreBase c + o) = s.rd (coreBase c + o) := by
  have hne : clusterBase k + 0x0 ≠ coreBase c + o := by unfold coreBase clusterBase; omega
  refine State.when_keeps s (·.rd (coreBase c + o)) _ _ ((State.when_keeps _ (·.rd (coreBase c + o)) _ _ ?_).trans ?_)
  · exact State.rd_wr_ne _ _ hne
  · exact State.rd_wr_ne s _ hne

theorem State.gateCluster_sameMemory (k : Nat) : s.sameMemory (s.gateCluster k) :=
  s.when_sameMemory _ (State.sameMemory_trans (s.setFld_sameMemory _ _) (State.when_sameMemory _ _ (State.setFld_sameMemory _ _ _)))

theorem State.closeSlots_sameMemory (k : Nat) : s.sameMemory (s.closeSlots k) :=
  ⟨by simp, by simp, by simp, by simp, by simp, by simp⟩

theorem State.checkBalance_of_balanced {c : CoreId} (h : s.balanced c = true) : s.checkBalance c = s := by
  rw [State.checkBalance, h, Bool.not_true, State.when_false]

theorem State.checkBalance_of_not {c : CoreId} (h : s.balanced c = false) :
    s.checkBalance c = s.seqError c (Fld.SEQ_ERROR_UNBALANCED c) (s.fld (Fld.SEQ_PC_PC c)) (s.core c).pid := by
  rw [State.checkBalance, h, Bool.not_false, State.when_true]

theorem State.checkBalance_sameMemory (c : CoreId) : s.sameMemory (s.checkBalance c) := by
  cases h : s.balanced c
  · rw [s.checkBalance_of_not h]; exact s.seqError_sameMemory _ _ _ _
  · rw [s.checkBalance_of_balanced h]; exact s.sameMemory_refl

theorem State.showEnded_sameMemory (c : CoreId) : s.sameMemory (s.showEnded c) :=
  State.sameMemory_trans (State.sameMemory_trans (s.setFld_sameMemory _ _) (State.setFld_sameMemory _ (Fld.SEQ_STATUS_ENDED c) 1))
    (State.modCore_sameMemory _ _ _ rfl)

theorem State.showEnded_status (c : CoreId) :
    (s.showEnded c).fld (Fld.SEQ_STATUS_RUNNING c) = 0 ∧ (s.showEnded c).fld (Fld.SEQ_STATUS_ENDED c) = 1 := by
  simp only [State.showEnded, State.modCore_fld, State.raise]
  constructor
  · rw [State.fld_setFld_disjoint _ _ _ _ (.inl (show 0 + 1 ≤ 1 by decide)), State.fld_setFld_same _ _ _ (show 0 + 1 ≤ 32 by decide)]
    rfl
  · exact State.fld_setFld_same _ _ _ (show 1 + 1 ≤ 32 by decide)

theorem State.showEnded_error (c : CoreId) : (s.showEnded c).rd (Rg.SEQ_ERROR c) = s.rd (Rg.SEQ_ERROR c) := by
  have hne : coreBase c + 0x8 ≠ Rg.SEQ_ERROR c := by rw [Rg.SEQ_ERROR]; omega
  rw [State.showEnded, State.modCore_rd]
  exact (State.rd_wr_ne _ _ hne).trans (State.rd_wr_ne s _ hne)

theorem exec_stepEnd_ends (c : CoreId) (s : State) (hs : (s.core c).seg = none) (hd : s.tickState = stRunning → (s.core c).dispatched = true)
    (hm : s.mayEnd c) :
    ∃ t, exec (.stepEnd c) s = .next t ∧ t.fld (Fld.SEQ_STATUS_RUNNING c) = 0 ∧ t.fld (Fld.SEQ_STATUS_ENDED c) = 1 ∧
      (s.balanced c = false → t.fld (Fld.SEQ_ERROR_UNBALANCED c) = 1) ∧
      (s.balanced c = true → t.rd (Rg.SEQ_ERROR c) = s.rd (Rg.SEQ_ERROR c)) ∧ s.sameMemory t := by
  refine ⟨_, exec_stepEnd_main s c hs hd hm, ?_⟩
  let u := s.checkBalance c
  have hrd : ∀ o < 0x10000, (((u.showEnded c).gateCluster (clusterOf c)).closeSlots (clusterOf c)).rd (coreBase c + o) =
      (u.showEnded c).rd (coreBase c + o) := fun o ho => (State.closeSlots_rd _ _ _).trans (State.gateCluster_coreReg _ _ c ho)
  have herror := (hrd 0x14 (by decide)).trans (u.showEnded_error c)
  obtain ⟨hrun, hend⟩ := u.showEnded_status c
  refine ⟨(congrArg (bvGet _ _) (hrd 0x8 (by decide))).trans hrun, (congrArg (bvGet _ _) (hrd 0x8 (by decide))).trans hend, fun hb => ?_,
    fun hb => ?_, State.sameMemory_trans (State.sameMemory_trans (s.checkBalance_sameMemory c) (u.showEnded_sameMemory c))
      (State.sameMemory_trans (State.gateCluster_sameMemory _ _) (State.closeSlots_sameMemory _ _))⟩
  · have hbit : (s.checkBalance c).fld (Fld.SEQ_ERROR_UNBALANCED c) = 1 := by
      rw [s.checkBalance_of_not hb]
      exact s.seqError_bit _ _ rfl (show 5 < 32 by decide)
    exact (congrArg (bvGet _ _) herror).trans hbit
  · exact herror.trans (congrArg (State.rd · (Rg.SEQ_ERROR c)) (s.checkBalance_of_balanced hb))

/-! ### STEP_END of a segment -/

/-- Engines set aside or restored: nothing but the engines changes (R153). -/
theorem State.asideEngines_keeps_of {β : Type} (P : State → β) (c : Nat) (b : Bool) (h : ∀ (t : State) g f, P (t.modEng g f) = P t) :
    P (s.asideEngines c b) = P s :=
  s.each_keeps P _ _ fun t _ _ => h t _ _

theorem State.asideEngines_sameMemory (c : Nat) (b : Bool) : s.sameMemory (s.asideEngines c b) :=
  State.each_sameMemory _ _ _ fun _ _ => State.sameMemory_of_parts rfl rfl rfl rfl rfl

theorem exec_stepEnd_segment (c : CoreId) (g : SegRun) (s : State) (hg : (s.core c).seg = some g) (he : g.ended = false)
    (hst : g.stopped = true) (hq : ∀ q < 8, (s.core c).segQueue q = []) :
    ∃ t, exec (.stepEnd c) s = .next t ∧ (t.core c).seg = some { g with ended := true } ∧ (t.core c).q = (s.core c).q ∧
      t.fld (Fld.SEQ_PC_PC c) = g.mainPc % 2 ^ 20 ∧ s.sameRegs t [(Fld.SEQ_PC_PC c).addr] ∧ s.sameMemory t := by
  let f : CoreSt → CoreSt := fun x => { x with idleUs := 0, seg := some { g with ended := true } }
  let u := (s.modCore c f).asideEngines c true
  have hempty : (List.range 8).all (fun q => (NMap.get [] g.q q).isEmpty) = true := by
    refine List.all_eq_true.mpr fun q hmem => ?_
    have h := hq q (List.mem_range.mp hmem)
    rw [CoreSt.segQueue, hg] at h
    exact List.isEmpty_iff.mpr h
  have hexec : exec (.stepEnd c) s = .next (u.setFld (Fld.SEQ_PC_PC c) g.mainPc) := by
    show execStepEnd c s = _
    unfold execStepEnd
    simp only [hg, Option.filter_some, he, Bool.not_false, if_true]
    exact congrArg _ (if_pos (by rw [hst, hempty]; rfl))
  have hcore : u.core c = f (s.core c) :=
    (State.asideEngines_keeps_of _ (·.core c) _ _ fun _ _ _ => rfl).trans (State.core_modCore_same s c f)
  refine ⟨_, hexec, (congrArg CoreSt.seg hcore :), (congrArg CoreSt.q hcore :), u.fld_setFld_same _ _ (show 0 + 20 ≤ 32 by decide), fun a ha => ?_, ?_⟩
  · rw [u.setFld_sameRegs _ _ a ha]
    exact (State.asideEngines_keeps_of _ (·.rd a) _ _ fun _ _ _ => rfl).trans rfl
  · exact State.sameMemory_trans (State.sameMemory_trans (s.modCore_sameMemory c f rfl) (State.asideEngines_sameMemory _ _ _))
      (State.setFld_sameMemory _ _ _)

/-- Settles O10, an instruction a clause. -/
theorem nopLayerStepEndEffects : Obligations.NopLayerStepEndEffects :=
  ⟨exec_nop_idles, exec_layer_enters, exec_stepEnd_ends, exec_stepEnd_segment⟩

end Sys2Proof.Machine
end

section
/-! PROOFS. FETCH draws its credits and waits for its data (R42, R48, R50, R54, R228, R233, R234). -/

namespace Sys2Proof.Machine

variable (s : State)

theorem State.actOnFault_of_none (h : s.boot.fault = none) : s.actOnFault = s := by simp [State.actOnFault, h]

/-! ### Errors -/

theorem State.abandonStep_fetches (b : Bool) (h : s.tickState = stRunning) : (s.abandonStep b).fetches = [] := by
  rw [s.abandonStep_running b h]
  calc
    _ = (s.stopAll b).clearReruns.fetches := State.jasper_fetches _ _ _ _ _
    _ = (s.stopAll b).fetches := State.clearReruns_keeps _ (·.fetches) fun _ _ => State.setFld_fetches _ _ _
    _ = [] := by simp [State.stopAll]

/-- A fetch error sets its bit, and a step that runs loses its fetches with all that waits. -/
theorem State.fetchError_stops (c : Nat) (p : Prog) : (s.fetchError c p).fld (Fld.SEQ_ERROR_FETCH_ERROR c) = 1 ∧
    (s.tickState = stRunning → (s.fetchError c p).tickState = stAbandoning ∧ (s.fetchError c p).fetches = []) := by
  obtain ⟨hbit, hstop⟩ := s.fetchError_faults c p
  exact ⟨hbit, fun h => ⟨(hstop h).1, State.abandonStep_fetches _ _ ((s.seqError_tickState rfl _ _).trans h)⟩⟩

@[simp] theorem State.fetchError_boot (c : Nat) (p : Prog) : (s.fetchError c p).boot = s.boot := by simp [State.fetchError]

/-- What makes a fetch of one's own program an error: no units or too many, no object, one that is not live or of another partition, or a
run that does not end with a tile (R234). -/
theorem runFetch_error {c : CoreId} {f : FetchOp} {b : Option Bool} {p : Prog} (hn : NMap.find s.fetches c.val = none)
    (h : f.units.val = 0 ∨ (if f.toCache then 1024 else 512) < f.slot.val + f.units.val ∨ s.obj f.object.toNat = none ∨
      ∃ x, s.obj f.object.toNat = some x ∧
        (x.live = false ∨ x.belongs (s.partOf c) = false ∨ s.runTilesOf x 64 f.tile.toNat f.units.val = none)) :
    runFetch c f b p s = (s.fetchError c p, true) := by
  unfold runFetch
  rw [hn, if_neg (by simp)]
  dsimp only
  by_cases hu : f.units.val = 0 ∨ destUnits f.toCache < f.slot.val + f.units.val
  · rw [if_pos hu]
  · rw [if_neg hu]
    rcases h with h | h | h | ⟨x, hx, h⟩
    · exact absurd (.inl h) hu
    · exact absurd (.inr h) hu
    · simp [h]
    · rcases h with h | h | h <;> simp [hx, h]

theorem exec_fetch_error (c : CoreId) (f : FetchOp) (s : State) (h : s.atHead c 5 (.fetch c f)) (hb : s.boot.fault = none)
    (hn : NMap.find s.fetches c.val = none)
    (he : f.units.val = 0 ∨ (if f.toCache then 1024 else 512) < f.slot.val + f.units.val ∨ s.obj f.object.toNat = none ∨
      ∃ x, s.obj f.object.toNat = some x ∧
        (x.live = false ∨ x.belongs (s.partOf c) = false ∨ s.runTilesOf x 64 f.tile.toNat f.units.val = none)) :
    ∃ t, exec (.fetch c f) s = .next t ∧ t.fld (Fld.SEQ_ERROR_FETCH_ERROR c) = 1 ∧
      (s.tickState = stRunning → t.tickState = stAbandoning ∧ t.fetches = []) := by
  obtain ⟨p, b, -, hi⟩ := s.issue_atHead (runFetch c f (((s.core c).head 5).map (·.2))) h
  refine ⟨_, rfl, ?_⟩
  rw [hi, runFetch_error s hn he, if_pos rfl, State.actOnFault_of_none _ (by simpa using hb)]
  simpa [State.tickState] using s.fetchError_stops c p

theorem exec_fetch_waits (c : CoreId) (f : FetchOp) (s : State) (hb : s.boot.fault = none)
    (h : (NMap.find s.fetches c.val).isSome = true) : exec (.fetch c f) s = .next s := by
  have hrun : ∀ p, runFetch c f (((s.core c).head 5).map (·.2)) p s = (s, false) := fun p => if_pos h
  show Host.Outcome.next (State.actOnFault _) = _
  rw [s.issue_waits hrun, s.actOnFault_of_none hb]

/-! ### The object and the home of its tile -/

/-- The counters, replaced. -/
def State.withCtrs (s : State) (l : NMap Ctr) : State := { s with ctrs := l }

/-- The object table, replaced. -/
def State.withObjs (s : State) (l : NMap Obj) : State := s.modPlace fun p => { p with objs := l }

section
variable (l : NMap Ctr) (os : NMap Obj)
@[simp] theorem State.withCtrs_core (c : Nat) : (s.withCtrs l).core c = s.core c := (rfl)
@[simp] theorem State.withCtrs_boot : (s.withCtrs l).boot = s.boot := (rfl)
@[simp] theorem State.withCtrs_rd (a : Nat) : (s.withCtrs l).rd a = s.rd a := (rfl)
@[simp] theorem State.withCtrs_dirEnt (o : Nat) (x : Obj) (t : Nat) : (s.withCtrs l).dirEnt o x t = s.dirEnt o x t := (rfl)
@[simp] theorem State.withObjs_core (c : Nat) : (s.withObjs os).core c = s.core c := (rfl)
@[simp] theorem State.withObjs_boot : (s.withObjs os).boot = s.boot := (rfl)
@[simp] theorem State.withObjs_rd (a : Nat) : (s.withObjs os).rd a = s.rd a := (rfl)
@[simp] theorem State.withObjs_dirEnt (o : Nat) (x : Obj) (t : Nat) : (s.withObjs os).dirEnt o x t = s.dirEnt o x t := (rfl)
theorem State.withCtrs_sameMemory : s.sameMemory (s.withCtrs l) := State.sameMemory_of_parts rfl rfl rfl rfl rfl
theorem State.withObjs_sameMemory : s.sameMemory (s.withObjs os) := State.sameMemory_of_parts rfl rfl rfl rfl rfl
end

theorem State.modObj_of {o : Nat} {x : Obj} (h : s.obj o = some x) (f : Obj → Obj) : s.modObj o f = s.withObjs (NMap.ins s.place.objs o (f x)) := by
  simp [State.modObj, h, State.withObjs, State.modPlace]

theorem State.obj_withObjs_ins (o : Nat) (x : Obj) : (s.withObjs (NMap.ins s.place.objs o x)).obj o = some x := NMap.find_ins_same _ _ _

/-- An object that a fetch of die `d` reads in tick `n` (R232, R237). -/
def Obj.usedBy (x : Obj) (n : BitVec 32) (d : Nat) : Obj := { x with age := n, firstDie := some (x.firstDie.getD d) }

/-- Where a tile's data comes from at its home (R230). -/
def DirEnt.source (e : DirEnt) : Source :=
  match e.home with
  | .stack => .frame e.frame
  | .host => .page e.page
  | .origin => .origin
  | .none => .zeros

variable {o t : Nat} {x : Obj}

/-- A lookup that the directory cache answers counts a hit, and does nothing else (R228). -/
theorem State.lookup_cached (h : ∀ b, x.dirBurst t = some b → (NMap.get [] s.place.dirCache (frameDie (b / 1024))).contains (o, t / 8) = true) :
    ∃ l, s.lookup o x t = s.withCtrs l := by
  unfold State.lookup
  cases hb : x.dirBurst t with
  | none => exact ⟨s.ctrs, rfl⟩
  | some b =>
    dsimp only
    rw [if_pos (h b hb)]
    exact ⟨_, rfl⟩

/-- A fetch whose tile is not to be placed first reads it from its home (R230, R233). -/
theorem State.sourceOf_home (c : Nat) (hq : x.state ≠ .quarantined)
    (hhit : ∀ b, x.dirBurst t = some b → (NMap.get [] s.place.dirCache (frameDie (b / 1024))).contains (o, t / 8) = true)
    (hp : x.policy ≠ .resident ∨ (s.dirEnt o x t).home = .stack) :
    ∃ ts pois l, s.sourceOf c o x t = (((s.dirEnt o x t).source, ts, pois), s.withCtrs l) := by
  obtain ⟨l, hl⟩ := s.lookup_cached hhit
  have he : (s.withCtrs l).dirEnt o x t = s.dirEnt o x t := rfl
  unfold State.sourceOf DirEnt.source
  simp only [hl, if_neg hq, he]
  cases hh : (s.dirEnt o x t).home with
  | stack => exact ⟨_, _, l, rfl⟩
  | origin =>
    have hr : x.policy ≠ .resident := hp.resolve_right (by simp [hh])
    simp only [hr, false_and, if_false]
    cases (NMap.find (s.withCtrs l).place.replaceT (tileKey o t)).isSome <;> exact ⟨_, _, _, rfl⟩
  | host =>
    have hr : x.policy ≠ .resident := hp.resolve_right (by simp [hh])
    simp only [hr, false_and, if_false]
    exact ⟨_, _, l, rfl⟩
  | none =>
    have hr : x.policy ≠ .resident := hp.resolve_right (by simp [hh])
    simp only [hr, false_and, if_false]
    exact ⟨_, _, l, rfl⟩

/-! ### A fetch that starts -/

/-- A table reference is taken where the copy is coded (R179). -/
def State.refAny (s : State) (ref : Option Nat) : State := match ref with | some id => s.refTable id 1 | none => s

/-- A fetch noted as in flight, with the next number. -/
def State.noteFetch (s : State) (c : Nat) (r : Nat → FetchRun) : State :=
  { s.fresh.2 with fetches := NMap.ins s.fetches c (r (s.free + 1)) }

/-- A fetch whose tiles are known is noted as in flight, and holds its queue (log entry 19). -/
def State.putFetch (s : State) (c part : Nat) (inSeg : Option Bool) (r : Nat → FetchRun) : State :=
  ((s.noteFetch c r).when (inSeg == some false) fun s => s.modCore c fun y => { y with held := addOnce y.held 5 }).when
    ((r (s.free + 1)).tiles.any fun q => q.tiers != []) fun s => s.count (Ct.OBJ_STALL_FETCHES part) 1

/-- A use of an object changes its entry alone. -/
theorem State.useObj_by (hx : s.obj o = some x) (d : Nat) :
    ∃ objs, ((s.useObj o).modObj o fun y => { y with firstDie := some (y.firstDie.getD d) }) = s.withObjs objs ∧
      (s.withObjs objs).obj o = some (x.usedBy s.tick d) := by
  rw [State.useObj, s.modObj_of hx, State.modObj_of _ (s.obj_withObjs_ins _ _)]
  exact ⟨_, rfl, NMap.find_ins_same _ _ _⟩

/-- The state in which a fetch has drawn its credits, used its object, counted its lookup and taken a table's reference. -/
def State.fetchDrawn (s : State) (c : CoreId) (f : FetchOp) (objs : NMap Obj) (l : NMap Ctr) (ref : Option Nat) : State :=
  (((s.setFld (credFld c f.credit) (s.fld (credFld c f.credit) - f.units.val)).withObjs objs).withCtrs l).refAny ref

/-- A fetch of one tile that may start draws its credits and is noted as in flight. -/
theorem runFetch_starts (c : CoreId) (f : FetchOp) {n : Nat} (inSeg : Option Bool) (p : Prog) (hn : NMap.find s.fetches c.val = none)
    (hu : f.units.val ≠ 0) (hd : f.slot.val + f.units.val ≤ (if f.toCache then 1024 else 512)) (hx : s.obj f.object.toNat = some x)
    (hlive : x.live = true) (hpart : x.belongs (s.partOf c) = true) (hq : x.state ≠ .quarantined)
    (hrun : s.runTilesOf x 64 f.tile.toNat f.units.val = some [(f.tile.toNat, f.units.val, n)])
    (hhit : ∀ b, x.dirBurst f.tile.toNat = some b →
      (NMap.get [] s.place.dirCache (frameDie (b / 1024))).contains (f.object.toNat, f.tile.toNat / 8) = true)
    (hp : x.policy ≠ .resident ∨ (s.dirEnt f.object.toNat x f.tile.toNat).home = .stack) (hc : f.units.val ≤ s.leftFor c 5 (credFld c f.credit)) :
    ∃ objs l ts pois ref, runFetch c f inSeg p s =
      ((s.fetchDrawn c f objs l ref).putFetch c (s.partOf c) inSeg fun k =>
        ⟨f, p.idx, p.pid, inSeg, [⟨f.tile.toNat, f.units.val, n, (s.dirEnt f.object.toNat x f.tile.toNat).source, ts, pois, ref⟩], k⟩,
      false) := by
  let s1 := s.setFld (credFld c f.credit) (s.fld (credFld c f.credit) - f.units.val)
  obtain ⟨objs, hused, hobj⟩ := s1.useObj_by hx (dieOf c)
  have hent : (s1.withObjs objs).dirEnt f.object.toNat (x.usedBy s1.tick (dieOf c)) f.tile.toNat = s.dirEnt f.object.toNat x f.tile.toNat := rfl
  obtain ⟨ts, pois, l, hsrc⟩ := (s1.withObjs objs).sourceOf_home (o := f.object.toNat) (t := f.tile.toNat) (x := x.usedBy s1.tick (dieOf c)) c hq hhit (hent ▸ hp)
  rw [hent] at hsrc
  have hd' : ¬ (f.units.val = 0 ∨ destUnits f.toCache < f.slot.val + f.units.val) := by
    rw [not_or, Nat.not_lt]
    exact ⟨hu, hd⟩
  have hdraw : s.draw c 5 (credFld c f.credit) f.units.val = some s1 := if_pos hc
  refine ⟨objs, l, ts, pois, (s1.withObjs objs).tableOf (x.usedBy s1.tick (dieOf c)) f.tile.toNat
    (s.dirEnt f.object.toNat x f.tile.toNat), ?_⟩
  simp only [runFetch, hn, Option.isSome_none, Bool.false_eq_true, if_false, if_neg hd', hx, hlive, hpart, Bool.and_self, Bool.not_true, hrun, hdraw,
    hused, hobj, Option.getD_some, List.foldl_cons, List.foldl_nil, List.nil_append, hsrc, hent]
  rfl

/-! ### What a fetch that starts changes -/

variable (ref : Option Nat) (c part : Nat) (b : Option Bool) (r : Nat → FetchRun)

theorem State.refAny_keeps {β : Type} (P : State → β) (h : ∀ id, P (s.refTable id 1) = P s) : P (s.refAny ref) = P s := by
  cases ref with
  | none => rfl
  | some id => exact h id

theorem State.refAny_sameMemory : s.sameMemory (s.refAny ref) := by
  cases ref with
  | none => exact s.sameMemory_refl
  | some id => exact s.setFld_sameMemory _ _

theorem State.refAny_rd {a : Nat} (h : a < 0x09000000) : (s.refAny ref).rd a = s.rd a :=
  s.refAny_keeps ref (·.rd a) fun id => State.rd_wr_ne s _ (by show Rg.CTAB_ID_REFS id ≠ a; unfold Rg.CTAB_ID_REFS; omega)

theorem State.refAny_core (d : Nat) : (s.refAny ref).core d = s.core d := s.refAny_keeps ref (·.core d) fun _ => State.setFld_core s _ _ d

theorem State.refAny_boot : (s.refAny ref).boot = s.boot := s.refAny_keeps ref (·.boot) fun _ => State.setFld_boot s _ _

theorem State.fetchDrawn_core (c : CoreId) (f : FetchOp) (objs : NMap Obj) (l : NMap Ctr) (d : Nat) :
    (s.fetchDrawn c f objs l ref).core d = s.core d := by
  simp [State.fetchDrawn, State.refAny_core]

theorem State.fetchDrawn_boot (c : CoreId) (f : FetchOp) (objs : NMap Obj) (l : NMap Ctr) : (s.fetchDrawn c f objs l ref).boot = s.boot := by
  simp [State.fetchDrawn, State.refAny_boot]

theorem State.fetchDrawn_sameMemory (c : CoreId) (f : FetchOp) (objs : NMap Obj) (l : NMap Ctr) : s.sameMemory (s.fetchDrawn c f objs l ref) :=
  State.sameMemory_trans (State.sameMemory_trans (State.sameMemory_trans (s.setFld_sameMemory _ _) (State.withObjs_sameMemory _ objs))
    (State.withCtrs_sameMemory _ l)) (State.refAny_sameMemory _ ref)

/-- The registers of a core lie below those of the vault's tables. -/
theorem coreReg_lt_tables (c : CoreId) (o : Nat) (h : o < 0x10000) : coreBase c + o < 0x09000000 := by
  unfold coreBase clusterBase; omega

theorem State.fetchDrawn_credit (c : CoreId) (f : FetchOp) (objs : NMap Obj) (l : NMap Ctr) :
    (s.fetchDrawn c f objs l ref).fld (credFld c f.credit) = s.fld (credFld c f.credit) - f.units.val :=
  have hlow : (credFld c f.credit).addr < 0x09000000 := by
    have := coreReg_lt_tables c (0x180 + 4 * (f.credit.val / 2)) (by omega)
    simpa only [credFld, Rg.SEQ_CREDIT, Nat.add_assoc] using this
  calc
    (s.fetchDrawn c f objs l ref).fld (credFld c f.credit) =
        (s.setFld (credFld c f.credit) (s.fld (credFld c f.credit) - f.units.val)).fld (credFld c f.credit) :=
      congrArg (bvGet _ _) (by rw [State.fetchDrawn, State.refAny_rd _ ref hlow, State.withCtrs_rd, State.withObjs_rd])
    _ = _ := s.fld_setFld_sig c f.credit .credit (Nat.le_trans (Nat.sub_le _ _) (s.sigFld_le c f.credit .credit))

/-- A fetch noted as in flight keeps whatever neither its note, nor its hold of the queue, nor a count of a stall changes. -/
theorem State.putFetch_keeps_of {β : Type} (P : State → β) (hc : ∀ t : State, P (t.count (Ct.OBJ_STALL_FETCHES part) 1) = P t)
    (hh : ∀ t : State, P (t.modCore c fun y => { y with held := addOnce y.held 5 }) = P t) :
    P (s.putFetch c part b r) = P (s.noteFetch c r) := by
  unfold State.putFetch
  rw [State.when_keeps _ P _ _ (hc _), State.when_keeps _ P _ _ (hh _)]

theorem State.putFetch_find : NMap.find (s.putFetch c part b r).fetches c = some (r (s.free + 1)) := by
  rw [s.putFetch_keeps_of c part b r (·.fetches) (fun _ => rfl) fun _ => rfl]
  exact NMap.find_ins_same _ _ _

theorem State.putFetch_rd (a : Nat) : (s.putFetch c part b r).rd a = s.rd a :=
  s.putFetch_keeps_of c part b r (·.rd a) (fun _ => rfl) fun _ => rfl

theorem State.putFetch_boot : (s.putFetch c part b r).boot = s.boot :=
  s.putFetch_keeps_of c part b r (·.boot) (fun _ => rfl) fun _ => rfl

theorem State.putFetch_core_ne {d : Nat} (h : c ≠ d) : (s.putFetch c part b r).core d = s.core d :=
  s.putFetch_keeps_of c part b r (·.core d) (fun _ => rfl) fun t => t.core_modCore_ne _ h

/-- Of its own core it changes no more than the queues that the core holds. -/
theorem State.putFetch_core : (s.putFetch c part b r).core c =
    if b = some false then { s.core c with held := addOnce (s.core c).held 5 } else s.core c := by
  have hn : (s.noteFetch c r).core c = s.core c := rfl
  unfold State.putFetch
  rw [State.when_keeps _ (·.core c) _ _ rfl]
  by_cases hb : b = some false
  · rw [hb, if_pos rfl, beq_self_eq_true, State.when_true, State.core_modCore_same, hn]
  · rw [if_neg hb, beq_false_of_ne hb, State.when_false, hn]

theorem State.putFetch_sameMemory : s.sameMemory (s.putFetch c part b r) := by
  have hbuf : ∀ d, ((s.putFetch c part b r).core d).buf = (s.core d).buf := fun d => by
    by_cases h : c = d
    · subst h
      rw [State.putFetch_core]
      split <;> rfl
    · rw [State.putFetch_core_ne _ _ _ _ _ h]
  exact ⟨s.putFetch_keeps_of c part b r (·.mem) (fun _ => rfl) fun _ => rfl, s.putFetch_keeps_of c part b r (·.host) (fun _ => rfl) fun _ => rfl,
    by rw [State.putFetch_boot], by rw [State.putFetch_boot], hbuf,
    fun k => congrArg ClusterSt.cache (s.putFetch_keeps_of c part b r (·.cluster k) (fun _ => rfl) fun _ => rfl)⟩

theorem mem_addOnce {β : Type} [DecidableEq β] (l : List β) (x : β) : x ∈ addOnce l x := by
  unfold addOnce
  split
  · assumption
  · simp

theorem exec_fetch_starts (c : CoreId) (f : FetchOp) (s : State) (x : Obj) (n : Nat)
    (h : s.atHead c 5 (.fetch c f)) (hb : s.boot.fault = none) (hn : NMap.find s.fetches c.val = none) (hu : f.units.val ≠ 0)
    (hd : f.slot.val + f.units.val ≤ (if f.toCache then 1024 else 512)) (hx : s.obj f.object.toNat = some x) (hlive : x.live = true)
    (hpart : x.belongs (s.partOf c) = true) (hq : x.state ≠ .quarantined)
    (hrun : s.runTilesOf x 64 f.tile.toNat f.units.val = some [(f.tile.toNat, f.units.val, n)])
    (hhit : ∀ b, x.dirBurst f.tile.toNat = some b →
      (NMap.get [] s.place.dirCache (frameDie (b / 1024))).contains (f.object.toNat, f.tile.toNat / 8) = true)
    (hp : x.policy ≠ .resident ∨ (s.dirEnt f.object.toNat x f.tile.toNat).home = .stack) (hc : f.units.val ≤ s.leftFor c 5 (credFld c f.credit)) :
    let ent := s.dirEnt f.object.toNat x f.tile.toNat
    ∃ t r q, exec (.fetch c f) s = .next t ∧ t.fld (credFld c f.credit) = s.fld (credFld c f.credit) - f.units.val ∧
      NMap.find t.fetches c.val = some r ∧ r.op = f ∧ r.tiles = [q] ∧ q.tile = f.tile.toNat ∧ q.units = f.units.val ∧
      q.src = (match ent.home with | .stack => .frame ent.frame | .host => .page ent.page | .origin => .origin | .none => .zeros) ∧
      (∀ p, (t.core c).queue p = (s.core c).queue p ∧ (t.core c).segQueue p = (s.core c).segQueue p) ∧
      (((s.core c).head 5).map Prod.snd = some false → 5 ∈ (t.core c).held) ∧ (∀ d, d ≠ c.val → t.core d = s.core d) ∧ s.sameMemory t := by
  intro ent
  obtain ⟨p, b, -, hi⟩ := s.issue_atHead (runFetch c f (((s.core c).head 5).map (·.2))) h
  obtain ⟨objs, l, ts, pois, ref, hr⟩ := runFetch_starts s c f (((s.core c).head 5).map (·.2)) p hn hu hd hx hlive hpart hq hrun hhit hp hc
  rw [hr, if_neg (by simp)] at hi
  have hexec : exec (.fetch c f) s = .next _ :=
    congrArg Host.Outcome.next (congrArg State.actOnFault hi |>.trans
      (State.actOnFault_of_none _ (by rw [State.putFetch_boot, State.fetchDrawn_boot]; exact hb)))
  refine ⟨_, _, _, hexec, ?_, State.putFetch_find _ _ _ _ _, rfl, rfl, rfl, rfl, ?_, fun q => ?_, fun hh => ?_, fun d hd => ?_, ?_⟩
  · exact (congrArg (bvGet _ _) (State.putFetch_rd _ _ _ _ _ _)).trans (s.fetchDrawn_credit ref c f objs l)
  · rfl
  · rw [State.putFetch_core, State.fetchDrawn_core]
    split <;> exact ⟨rfl, rfl⟩
  · rw [State.putFetch_core, if_pos hh]
    exact mem_addOnce _ _
  · rw [State.putFetch_core_ne _ _ _ _ _ hd.symm, State.fetchDrawn_core]
  · exact State.sameMemory_trans (s.fetchDrawn_sameMemory ref c f objs l) (State.putFetch_sameMemory _ _ _ _ _)

/-- Settles O32: a fetch starts, waits for another, or is an error. -/
theorem fetchDrawsAndWaits : Obligations.FetchDrawsAndWaits := ⟨exec_fetch_starts, exec_fetch_waits, exec_fetch_error⟩

end Sys2Proof.Machine
end

section
/-! PROOFS. What reads and writes of the stacks leave alone: the state of the compute dies, the objects, and the compute dies' registers and
counters (R440). -/

namespace Sys2Proof.Machine

/-- The tick unit's STATUS, and the words of the clusters of the compute dies (R440). The model takes any number for a partition, so the three words
of a partition's block that an event writes are left out wherever that block would lie. -/
def computeAddr (a : Nat) : Prop :=
  a = Rg.GARNET_STATUS ∨ 0x02000000 ≤ a ∧ a < 0x09000000 ∧ a / 0x01000000 % 2 = 0 ∧ a % 0x100 ≠ 4 ∧ a % 0x100 ≠ 0x30 ∧ a % 0x100 ≠ 0xA0

/-- An address of a memory-side die. -/
theorem not_computeAddr_memDie {a : Nat} (h : 0x09000000 ≤ a) : ¬ computeAddr a := by
  unfold computeAddr Rg.GARNET_STATUS; omega

/-- An address of the I/O die below the clusters, and not the tick unit's STATUS. -/
theorem not_computeAddr_ioDie {a : Nat} (h : a < 0x02000000) (hg : a ≠ 0x70018) : ¬ computeAddr a := by
  unfold computeAddr Rg.GARNET_STATUS; omega

/-- `t` is `s` after something was read or written in the stacks: what the compute dies hold, the objects, and the compute dies' registers and counters
are the same. -/
structure State.StackSide (s t : State) : Prop where
  cores : t.cores = s.cores
  engs : t.engs = s.engs
  clusters : t.clusters = s.clusters
  flights : t.flights = s.flights
  fetches : t.fetches = s.fetches
  objs : t.place.objs = s.place.objs
  rd : ∀ a, computeAddr a → t.rd a = s.rd a
  ctr : ∀ a, computeAddr a → t.ctr a = s.ctr a

namespace State.StackSide

variable {s t u : State}

theorem refl (s : State) : s.StackSide s := ⟨rfl, rfl, rfl, rfl, rfl, rfl, fun _ _ => rfl, fun _ _ => rfl⟩

/-- The parts that the relation speaks of are the same. -/
theorem of_parts (h : s.StackSide t) (hc : u.cores = t.cores) (he : u.engs = t.engs) (hk : u.clusters = t.clusters) (hl : u.flights = t.flights)
    (hf : u.fetches = t.fetches) (ho : u.place.objs = t.place.objs) (hr : u.regs = t.regs) (hn : u.ctrs = t.ctrs) : s.StackSide u where
  cores := hc.trans h.cores
  engs := he.trans h.engs
  clusters := hk.trans h.clusters
  flights := hl.trans h.flights
  fetches := hf.trans h.fetches
  objs := ho.trans h.objs
  rd a ha := by rw [← h.rd a ha, State.rd, hr]; rfl
  ctr a ha := by rw [← h.ctr a ha, State.ctr, hn]; rfl

theorem trans (h : s.StackSide t) (h' : t.StackSide u) : s.StackSide u where
  cores := h'.cores.trans h.cores
  engs := h'.engs.trans h.engs
  clusters := h'.clusters.trans h.clusters
  flights := h'.flights.trans h.flights
  fetches := h'.fetches.trans h.fetches
  objs := h'.objs.trans h.objs
  rd a ha := (h'.rd a ha).trans (h.rd a ha)
  ctr a ha := (h'.ctr a ha).trans (h.ctr a ha)

variable (h : s.StackSide t)
include h

theorem setFld {f : Fld} (v : Nat) (hf : ¬ computeAddr f.addr) : s.StackSide (t.setFld f v) :=
  { h with rd := fun a ha => (t.rd_wr_ne _ fun (e : f.addr = a) => hf (e ▸ ha)).trans (h.rd a ha) }

theorem count {a : Nat} (n : Nat) (ha : ¬ computeAddr a) : s.StackSide (t.count a n) :=
  { h with ctr := fun b hb => (t.ctr_count_ne n fun (e : a = b) => ha (e ▸ hb)).trans (h.ctr b hb) }

theorem raise {f : Fld} (hf : ¬ computeAddr f.addr) : s.StackSide (t.raise f) := h.setFld 1 hf

theorem modFlash (f : FlashSt → FlashSt) : s.StackSide (t.modFlash f) := { h with }
theorem modImg (f : OnyxImg → OnyxImg) : s.StackSide (t.modImg f) := { h with }
theorem modChan (i : Nat) (f : ChanSt → ChanSt) : s.StackSide (t.modChan i f) := { h with }
theorem modStack (i : Nat) (f : StackSt → StackSt) : s.StackSide (t.modStack i f) := { h with }
theorem modMarks (f : Marks → Marks) : s.StackSide (t.modMarks f) := { h with }
theorem fresh : s.StackSide t.fresh.2 := { h with }
theorem hostWrite (a : Nat) (bs : List Byte) : s.StackSide (t.hostWrite a bs) := { h with }

theorem modPlace {f : PlaceSt → PlaceSt} (hf : (f t.place).objs = t.place.objs) : s.StackSide (t.modPlace f) :=
  h.of_parts rfl rfl rfl rfl rfl hf rfl rfl

theorem each {α : Type} (xs : List α) {f : State → α → State} (hf : ∀ u x, s.StackSide u → s.StackSide (f u x)) : s.StackSide (t.each xs f) :=
  State.each_inv t s.StackSide xs f h fun u x _ hu => hf u x hu

theorem when (b : Bool) {f : State → State} (hf : s.StackSide (f t)) : s.StackSide (t.when b f) := by
  cases b
  · exact h
  · exact hf

theorem giveJasper (e : JReq) : s.StackSide (t.giveJasper e) := by
  unfold State.giveJasper
  dsimp only
  split
  · exact h.of_parts rfl rfl rfl rfl rfl rfl rfl rfl
  · refine State.StackSide.count ?_ 1 (not_computeAddr_ioDie (by decide) (by decide))
    exact h.of_parts rfl rfl rfl rfl rfl rfl rfl rfl

theorem jasper (e : JCode) (n d0 d1 : Nat) : s.StackSide (t.jasper e n d0 d1) := h.giveJasper _

/-! ### Lanes, marks and channels (R198 to R201, R205, R220) -/

theorem retireBlock (lane block : Nat) (why : RetireWhy) : s.StackSide (t.retireBlock lane block why) :=
  ((h.modImg _).modFlash _ |>.count 1 (not_computeAddr_ioDie (by decide) (by decide))).jasper _ _ _ _

omit h in
theorem not_computeAddr_flash {lane o : Nat} (ho : o < 0x1000) : ¬ computeAddr (0x200000 + 0x1000 * laneChan lane + o) :=
  not_computeAddr_ioDie (by unfold laneChan; omega) (by omega)

theorem eraseSys (lane block : Nat) : s.StackSide (t.eraseSys lane block).2 := by
  unfold State.eraseSys
  dsimp only
  split
  · dsimp only
    exact ((h.fresh.modFlash _).count 1 (not_computeAddr_flash (o := 0x60) (by decide))).retireBlock _ _ _
  · split
    · dsimp only
      exact (((h.fresh.modFlash _).count 1 (not_computeAddr_flash (o := 0x30) (by decide))).modImg _).retireBlock _ _ _
    · dsimp only
      exact ((h.fresh.modFlash _).count 1 (not_computeAddr_flash (o := 0x30) (by decide))).modImg _

theorem putSys (lane block page : Nat) (b : SysBody) (epoch : BitVec 64) (data : List Byte) : s.StackSide (t.putSys lane block page b epoch data) :=
  (h.count 1 (not_computeAddr_flash (o := 0x28) (by decide))).modFlash _

theorem putAnchor (a : Anchor) : s.StackSide (t.putAnchor a) := by
  unfold State.putAnchor
  dsimp only
  refine (h.when _ (h.each _ fun u l hu => hu.when _ (hu.eraseSys _ _))).each _ fun u l hu => ?_
  split
  · exact hu
  · split
    · exact (hu.fresh.count 1 (not_computeAddr_flash (o := 0x58) (by decide))).retireBlock _ _ _
    · exact hu.fresh.putSys _ _ _ _ _ _

theorem recordMark (ch lane : Nat) : s.StackSide (t.recordMark ch lane) := by
  unfold State.recordMark
  split
  · exact h
  · split
    · exact h.modFlash _
    · split
      · exact h.putAnchor _
      · exact h

omit h in
theorem not_computeAddr_channel (ch o : Nat) : ¬ computeAddr (channelBase ch + o) :=
  not_computeAddr_memDie (by unfold channelBase stackBase memDieBase; omega)

omit h in
theorem not_computeAddr_stack (st o : Nat) : ¬ computeAddr (stackBase st + o) :=
  not_computeAddr_memDie (by unfold stackBase memDieBase; omega)

theorem stackState (st v : Nat) : s.StackSide (t.stackState st v) :=
  (h.setFld v (not_computeAddr_stack st _)).setFld _ (not_computeAddr_memDie (by
    show 0x09000000 ≤ Rg.MDC_STATUS _; unfold Rg.MDC_STATUS memDieBase; omega))

theorem failChannel (ch lane : Nat) : s.StackSide (t.failChannel ch lane) :=
  (((h.setFld _ (not_computeAddr_channel ch _)).stackState _ _).jasper _ _ _ _).of_parts rfl rfl rfl rfl rfl rfl rfl rfl

theorem markLane (ch lane : Nat) : s.StackSide (t.markLane ch lane) := by
  unfold State.markLane
  split
  · exact h
  · split
    · split
      · exact h
      · exact h.failChannel _ _
    · have hm := (h.raise (f := Fld.CH_STATUS_MARKED ch) (not_computeAddr_channel ch 0)).setFld (f := Fld.CH_STATUS_MARKED_LANE ch) lane
        (not_computeAddr_channel ch 0)
      exact (((hm.setFld _ (not_computeAddr_stack (ch / 128) 0)).modChan _ _).jasper _ _ _ _).recordMark _ _

theorem laneRuns (ch : Nat) (lanes : List Nat) : s.StackSide (t.laneRuns ch lanes) := (h.modChan _ _).each _ fun _ _ hu => hu.markLane _ _

/-! ### Bursts -/

theorem touch (l : BurstLoc) : s.StackSide (t.touch l) := by
  have hc := h.count 1 (not_computeAddr_channel l.chan 0x28)
  unfold State.touch
  dsimp only
  split
  · exact hc
  · exact (hc.count 1 (not_computeAddr_channel l.chan _)).modChan _ _

theorem inject (ch : Nat) (w : Bool) : s.StackSide (t.inject ch w).2 := by
  unfold State.inject
  split
  · exact h
  · split
    · exact h.setFld _ (not_computeAddr_channel ch _)
    · dsimp only
      split <;> exact h.of_parts rfl rfl rfl rfl rfl rfl rfl rfl

theorem readBurst (b : Nat) (errs : ErrVec) : s.StackSide (t.readBurst b errs).2 := by
  have hj := (h.touch (burstLoc b)).inject (burstLoc b).chan false
  unfold State.readBurst
  dsimp only
  split
  · exact h
  · generalize State.inject _ _ _ = p at hj ⊢
    obtain ⟨inj, u⟩ := p
    dsimp only at hj ⊢
    split
    · exact hj.laneRuns _ _
    · exact ((hj.count 1 (not_computeAddr_channel _ _)).each _ fun _ _ hu => hu.count 1 (not_computeAddr_memDie (by
        unfold Ct.CH_LANE_CE channelBase stackBase memDieBase; omega))).laneRuns _ _
    · exact hj.count 1 (not_computeAddr_channel _ _)
    · exact (((hj.count 1 (not_computeAddr_channel _ _)).raise (not_computeAddr_channel _ _)).giveJasper _).laneRuns _ _

theorem writeBurst (b : Nat) (data : List Byte) (poison : Bool) : s.StackSide (t.writeBurst b data poison) := by
  have hj := (h.touch (burstLoc b)).inject (burstLoc b).chan true
  unfold State.writeBurst
  dsimp only
  split
  · exact h
  · exact hj.of_parts rfl rfl rfl rfl rfl rfl rfl rfl

theorem ask (part : Option Nat) (bs : List Nat) : s.StackSide (t.ask part bs) := h.each _ fun _ _ hu => hu.modStack _ _

theorem readBursts (b n : Nat) : s.StackSide (t.readBursts b n).2 := by
  unfold State.readBursts
  refine List.foldlRecOn (motive := fun (acc : (List Byte × List Nat) × State) => s.StackSide acc.2) _ _ h fun acc ha i _ => ?_
  exact ha.readBurst _ _

theorem readSpan (part : Option Nat) (a n : Nat) : s.StackSide (t.readSpan part a n).2 := by
  unfold State.readSpan
  exact (h.ask _ _).readBursts _ _

/-- A tile in two spans, by whatever reads them. -/
theorem readFrameBy {read : State → Nat → Nat → (List Byte × List Nat) × State} (hr : ∀ u a n, s.StackSide u → s.StackSide (read u a n).2)
    (f stored k a : Nat) :
    s.StackSide (let r := read t a k
      if stored ≤ 65536 then ((r.1.1.take stored, r.1.2), r.2)
      else
        let v := read (r.2.count (Ct.MOV_TAIL_READS (frameDie f)) 1) (r.2.tailSpa f) 64
        (((r.1.1 ++ v.1.1).take stored, r.1.2 ++ v.1.2.map fun _ => 1024), v.2)).2 := by
  dsimp only
  split
  · exact hr _ _ _ h
  · exact hr _ _ _ ((hr _ _ _ h).count 1 (not_computeAddr_memDie (by unfold Ct.MOV_TAIL_READS memDieBase; omega)))

theorem readFrame (part : Option Nat) (f stored : Nat) : s.StackSide (t.readFrame part f stored).2 :=
  h.readFrameBy (read := fun u a n => u.readSpan part a n) (fun _ _ _ hu => hu.readSpan part _ _) f stored (64 * ceilDiv (min stored 65536) 64) (frameSpa f)

/-! ### Paths between dies (R18, R19, R444) -/

omit h in
theorem not_computeAddr_computeDie (d : Nat) {o : Nat} (ho : o < 0x1000) : ¬ computeAddr (dieBase d + o) := by
  unfold computeAddr dieBase Rg.GARNET_STATUS; omega

theorem crossBridges (a b n : Nat) : s.StackSide (t.crossBridges a b n) := by
  have hop : ∀ {u : State} (x : Nat), s.StackSide u →
      s.StackSide ((u.count (Ct.CDC_BRIDGE_NEXT_UNITS (x % 4)) n).count (Ct.CDC_BRIDGE_PREV_UNITS ((x + 1) % 4)) n) := fun x hu =>
    (hu.count n (not_computeAddr_computeDie _ (by decide))).count n (not_computeAddr_computeDie _ (by decide))
  unfold State.crossBridges
  dsimp only
  split
  · exact h
  · split
    · exact hop _ h
    · split
      · exact hop _ h
      · exact hop _ (hop _ h)

theorem bondUnits (d n : Nat) : s.StackSide (t.count (Ct.CDC_BOND_UNITS d) n) := h.count n (not_computeAddr_computeDie d (by decide))

theorem nearPath (d f n : Nat) : s.StackSide (t.nearPath d f n) := by
  have hb := (h.bondUnits (frameDie f) n).crossBridges d (frameDie f) n
  unfold State.nearPath
  dsimp only
  refine hb.when _ ?_
  exact hb.count (a := Ct.MDC_FAR_UNITS (frameDie f)) n (not_computeAddr_memDie (by unfold Ct.MDC_FAR_UNITS memDieBase; omega))

theorem ioPath (d n : Nat) : s.StackSide (t.ioPath d n) := (h.count n (not_computeAddr_memDie (by unfold Ct.MDC_IOD_IN_UNITS memDieBase; omega))).bondUnits _ _

theorem homePath (d : Nat) (e : DirEnt) (n : Nat) : s.StackSide (t.homePath d e n) := by
  unfold State.homePath
  split
  · exact h.nearPath _ _ _
  · exact h.ioPath _ _
  · exact h.ioPath _ _
  · exact h

/-! ### Events (R351, R355) -/

theorem sendMsix (v : Nat) : s.StackSide (t.sendMsix v) := by
  unfold State.sendMsix
  dsimp only
  split <;> exact h.of_parts rfl rfl rfl rfl rfl rfl rfl rfl

theorem signalVector (v : Nat) : s.StackSide (t.signalVector v) := by
  unfold State.signalVector
  dsimp only
  split
  · refine State.StackSide.sendMsix ?_ v
    exact h.of_parts rfl rfl rfl rfl rfl rfl rfl rfl
  · exact h.of_parts rfl rfl rfl rfl rfl rfl rfl rfl

omit h in
/-- The words that events write in a partition's block. -/
theorem not_computeAddr_part (p : Nat) {o : Nat} (ho : o = 4 ∨ o = 0x30 ∨ o = 0xA0) : ¬ computeAddr (0x41000 + 0x100 * p + o) := by
  unfold computeAddr Rg.GARNET_STATUS; omega

theorem writeEvent (p : Nat) (bs : List Byte) : s.StackSide (t.writeEvent p bs) := by
  have hp := ((h.hostWrite (t.addr64 (Rg.PARTN_EVT_BASE_LO p) (Rg.PARTN_EVT_BASE_HI p) + t.fld (Fld.PARTN_EVT_PROD_PROD p) %
    2 ^ t.inForce (Fld.PARTN_EVT_CFG_LOG2 p) * 64) bs).setFld (f := Fld.PARTN_EVT_PROD_PROD p) (t.fld (Fld.PARTN_EVT_PROD_PROD p) + 1)
    (not_computeAddr_part p (o := 0x30) (.inr (.inl rfl))))
  unfold State.writeEvent
  dsimp only
  exact (hp.hostWrite _ _).when _ ((hp.hostWrite _ _).signalVector _)

theorem postEvent (p type object session detail : Nat) (payload : List Byte) : s.StackSide (t.postEvent p type object session detail payload) := by
  unfold State.postEvent
  split
  · exact h
  · split
    · exact ((h.count (a := Ct.PARTN_EVENTS_LOST p) 1 (not_computeAddr_part p (.inr (.inr rfl)))).raise (f := Fld.PARTN_STATUS_EVENTS_LOST p)
        (not_computeAddr_part p (.inl rfl))).of_parts rfl rfl rfl rfl rfl rfl rfl rfl
    · exact h.writeEvent _ _

/-! ### Poisoned tiles (R245, R248) -/

theorem recountPages : s.StackSide t.recountPages := h.setFld (f := Fld.OBJ_HOST_PAGES_FREE_PAGES) _ (not_computeAddr_ioDie (by decide) (by decide))

theorem recountMovers (m : Nat) : s.StackSide (t.recountMovers m) :=
  h.setFld (f := Fld.MOV_STATUS_BUSY m) _ (not_computeAddr_memDie (by show _ ≤ Rg.MOV_STATUS m; unfold Rg.MOV_STATUS memDieBase; omega))

theorem writeDir (o : Nat) (x : Obj) (n : Nat) : s.StackSide (t.writeDir o x n) := by
  unfold State.writeDir
  split
  · exact h
  · exact (h.ask _ _).writeBurst _ _ _

/-- A directory entry written over one of the same home charges nobody and changes no object. -/
theorem setDir {o n : Nat} {x : Obj} {e : DirEnt} (hx : t.obj o = some x) (he : e.home = (t.dirEnt o x n).home) : s.StackSide (t.setDir o n e) := by
  unfold State.setDir
  simp only [hx, he]
  have hd : s.StackSide ((t.modPlace fun p =>
      { p with dir := if e = x.firstHome then NMap.del p.dir (tileKey o n) else NMap.ins p.dir (tileKey o n) e }).writeDir o x n) :=
    (h.modPlace rfl).writeDir _ _ _
  have hw := hd.when ((((t.dirEnt o x n).home == .host || (t.dirEnt o x n).home == .host) && t.dirEnt o x n != e)) hd.recountPages
  cases hh : (t.dirEnt o x n).home <;> simpa [hh, State.when] using hw

theorem startRefetch (o n die : Nat) (old : Option Nat) : s.StackSide (t.startRefetch o n die old) := by
  unfold State.startRefetch
  dsimp only
  split
  · exact h
  · exact ((h.fresh.modPlace rfl).count (a := Ct.OBJ_REFETCHES) 1 (not_computeAddr_ioDie (by decide) (by decide))).recountMovers _

theorem poisonTile (o n : Nat) : s.StackSide (t.poisonTile o n) := by
  unfold State.poisonTile
  split
  · exact h
  · rename_i x hx
    have hd := ((h.setDir (n := n) (e := { t.dirEnt o x n with poisoned := true }) hx rfl).count (a := Ct.OBJ_POISONED_TILES) 1
      (not_computeAddr_ioDie (by decide) (by decide))).jasper .tilePoisoned x.part o n
    have hm := h.when (!(t.dirEnt o x n).poisoned) (f := fun u => (((u.setDir o n { t.dirEnt o x n with poisoned := true }).count
      Ct.OBJ_POISONED_TILES 1).jasper .tilePoisoned x.part o n).modPlace fun p => { p with rewritten := NMap.del p.rewritten (tileKey o n) })
      (hd.modPlace rfl)
    dsimp only
    split
    · exact hm.startRefetch _ _ _ _
    · exact hm.when _ ((hm.jasper _ _ _ _).postEvent _ _ _ _ _ _)
    · exact hm.when _ ((hm.jasper _ _ _ _).postEvent _ _ _ _ _ _)
    · exact hm.when _ (hm.modMarks _)
    · exact hm

theorem badFrame (o : Nat) (x : Obj) (n f : Nat) : s.StackSide (t.badFrame o x n f) := (h.jasper _ _ _ _).poisonTile _ _

theorem lookup (o : Nat) (x : Obj) (n : Nat) : s.StackSide (t.lookup o x n) := by
  have hdir : ∀ {m o : Nat}, ¬ computeAddr (memDieBase m + 0xC03000 + o) := not_computeAddr_memDie (by unfold memDieBase; omega)
  unfold State.lookup
  split
  · exact h
  · rename_i b _
    dsimp only
    split
    · exact h.count _ hdir
    · have hr := (((h.count (a := Ct.MOV_DIR_MISSES (frameDie (b / 1024))) 1 hdir).ask none [b]).readBurst b [])
      split
      · exact (hr.modPlace rfl).poisonTile _ _
      · exact hr.modPlace rfl

/-- A program's read of its code (R42, R43). -/
theorem readProg (d : Nat) (part : Option Nat) (a : Nat) : s.StackSide (t.readProg d part a).2 := by
  unfold State.readProg
  split
  · exact h
  · rename_i o x _
    have hl := h.when (decide (a % 4096 < 64)) (f := fun u => u.lookup o x (a / 65536 - x.base)) (h.lookup _ _ _)
    dsimp only
    split
    · exact hl
    · split
      · exact hl.badFrame _ _ _ _
      · have hr := fun f y => (hl.when (decide (a % 4096 < 64)) (f := fun u => u.nearPath d f 1) (hl.nearPath _ _ _)).readSpan part y 64
        split
        · exact (hr _ _).poisonTile _ _
        · exact hr _ _

/-! ### Origins (R262) -/

theorem indexEntry (handle n : Nat) : s.StackSide (t.indexEntry handle n).2 := by
  unfold State.indexEntry
  split
  · dsimp only
    exact h.readSpan _ _ _
  · exact h

theorem originTile (handle n : Nat) : s.StackSide (t.originTile handle n).2 := by
  unfold State.originTile
  split
  · exact h
  · exact h.indexEntry _ _

end State.StackSide

end Sys2Proof.Machine
end

section
/-! PROOFS. DISPATCH reads the next word and puts its instruction into its queue (R44 to R47, R59, R153). -/

namespace Sys2Proof.Machine

variable (s : State)

/-- The read of a word of its program changes of the core no more than the burst that it holds (R43). -/
theorem State.codeWord_core (c a : Nat) : ∃ l, (s.codeWord c a).2.core c = { s.core c with line := l } := by
  have hp := (State.StackSide.refl s).readProg (dieOf c) (some (s.partOf c)) a
  have hc : (s.readProg (dieOf c) (some (s.partOf c)) a).2.core c = s.core c := by rw [State.core, hp.cores]; rfl
  unfold State.codeWord State.codeLine
  dsimp only
  split
  · exact ⟨_, rfl⟩
  · dsimp only
    split
    · exact ⟨_, by rw [State.core_modCore_same, hc]⟩
    · exact ⟨_, hc⟩

/-- Dispatch of a word that names a queue with room for it, or none. -/
theorem State.dispatchFrom_queue {c : CoreId} {b : Bool} {base i n : Nat} {pid : BitVec 16} {w : BitVec 64} {s1 : State} {q : Fin 8} {j : Instr}
    (hw : s.codeWord c (base + 128 + 8 * i) = (some w, s1)) (hd : decodeWord c w = some (.queue q, j)) (hn : i + 1 ≠ n) :
    s.dispatchFrom c b base i n pid =
      if queueRoom (s.core c) b q.val then (s1.dispatched c b i).modCore c fun x => x.push b q.val ⟨j, i, pid⟩ else s1 := by
  unfold State.dispatchFrom
  simp [hw, hd, hn]

theorem State.dispatchFrom_stop {c : CoreId} {b : Bool} {base i n : Nat} {pid : BitVec 16} {w : BitVec 64} {s1 : State} {j : Instr}
    (hw : s.codeWord c (base + 128 + 8 * i) = (some w, s1)) (hd : decodeWord c w = some (.stop, j)) :
    s.dispatchFrom c b base i n pid = ((s1.dispatched c b i).modCore c fun x =>
      if b then { x with seg := x.seg.map fun g => { g with stopped := true } } else { x with dispatched := true }).closeSlots (clusterOf c) := by
  unfold State.dispatchFrom
  simp [hw, hd]

theorem exec_dispatch_main {c : CoreId} (hr : s.tickState = stRunning) (hs : (s.core c).inSeg = false)
    (h1 : s.fld (Fld.SEQ_STATUS_RUNNING c) = 1) (hd : (s.core c).dispatched = false) :
    exec (.dispatch c) s =
      .next (s.dispatchFrom c false (s.core c).prog (s.core c).next (s.core c).count (s.core c).pid).actOnFault := by
  have hseg : (s.core c).seg.filter (fun g => !g.ended) = none := by
    simpa [Option.filter_eq_none_iff] using CoreSt.inSeg_eq_false hs
  show execDispatch c s = _
  simp [execDispatch, hr, hseg, h1, hd]

theorem exec_dispatch_seg {c : CoreId} {g : SegRun} (hr : s.tickState = stRunning) (hs : (s.core c).seg = some g) (he : g.ended = false)
    (hb : g.begun = true) (hst : g.stopped = false) :
    exec (.dispatch c) s = .next (s.dispatchFrom c true g.base g.next g.count g.pid).actOnFault := by
  show execDispatch c s = _
  simp [execDispatch, hr, hs, he, hb, hst, Option.filter_some]

/-! ### What a dispatch changes -/

/-- The state in which instruction `j` of index `i` has been put into queue `q`. -/
def State.queued (s : State) (c : Nat) (b : Bool) (q i : Nat) (j : Instr) (pid : BitVec 16) : State :=
  (s.dispatched c b i).modCore c fun x => x.push b q ⟨j, i, pid⟩

variable (c i q : Nat) (b : Bool) (j : Instr) (pid : BitVec 16)

theorem State.dispatched_boot : (s.dispatched c b i).boot = s.boot := by simp [State.dispatched]

theorem State.queued_sameRegs : s.sameRegs (s.queued c b q i j pid) [(Fld.SEQ_PC_PC c).addr] := fun a ha => by
  rw [State.queued, State.modCore_rd, State.dispatched, State.modCore_rd]
  exact s.setFld_sameRegs _ _ a ha

theorem State.queued_pc : (s.queued c b q i j pid).fld (Fld.SEQ_PC_PC c) = i % 2 ^ 20 := by
  rw [State.queued, State.modCore_fld, State.dispatched, State.modCore_fld]
  exact s.fld_setFld_same (Fld.SEQ_PC_PC c) i (show 0 + 20 ≤ 32 by decide)

theorem State.dispatched_sameMemory : s.sameMemory (s.dispatched c b i) :=
  State.sameMemory_trans (s.setFld_sameMemory _ _) (State.modCore_sameMemory _ c _ (by cases b <;> rfl))

theorem State.queued_sameMemory : s.sameMemory (s.queued c b q i j pid) :=
  State.sameMemory_trans (s.dispatched_sameMemory c i b) (State.modCore_sameMemory _ c _ (by cases b <;> rfl))

theorem State.dispatched_core_main : (s.dispatched c false i).core c = { s.core c with next := i + 1 } := by simp [State.dispatched]

theorem State.dispatched_core_seg {g : SegRun} (h : (s.core c).seg = some g) :
    (s.dispatched c true i).core c = { s.core c with seg := some { g with next := i + 1 } } := by simp [State.dispatched, h]

theorem State.queued_core : (s.queued c b q i j pid).core c = ((s.dispatched c b i).core c).push b q ⟨j, i, pid⟩ :=
  State.core_modCore_same _ _ _

theorem CoreSt.queue_push_same (x : CoreSt) (e : QEnt) : (x.push false q e).queue q = x.queue q ++ [e] := by
  simp [CoreSt.push, CoreSt.queue]

theorem CoreSt.queue_push_ne (x : CoreSt) (e : QEnt) {p : Nat} (h : q ≠ p) : (x.push false q e).queue p = x.queue p := by
  simp [CoreSt.push, CoreSt.queue, NMap.get_set_ne _ _ _ _ h]

theorem CoreSt.segQueue_push_same {x : CoreSt} {g : SegRun} (h : x.seg = some g) (e : QEnt) : (x.push true q e).segQueue q = x.segQueue q ++ [e] := by
  simp [CoreSt.push, CoreSt.segQueue, h]

theorem CoreSt.segQueue_push_ne {x : CoreSt} {g : SegRun} (h : x.seg = some g) (e : QEnt) {p : Nat} (hp : q ≠ p) :
    (x.push true q e).segQueue p = x.segQueue p := by
  simp [CoreSt.push, CoreSt.segQueue, h, NMap.get_set_ne _ _ _ _ hp]

/-! ### The statements -/

theorem exec_dispatch_queues (c : CoreId) (s s1 : State) (w : BitVec 64) (q : Fin 8) (i : Instr)
    (hr : s.tickState = stRunning) (hs : (s.core c).inSeg = false) (h1 : s.fld (Fld.SEQ_STATUS_RUNNING c) = 1) (hd : (s.core c).dispatched = false)
    (hw : s.codeWord c ((s.core c).prog + 128 + 8 * (s.core c).next) = (some w, s1)) (hf : s1.boot.fault = none)
    (hdec : decodeWord c w = some (.queue q, i)) (hn : (s.core c).next + 1 ≠ (s.core c).count) :
    (32 ≤ ((s.core c).queue q).length → exec (.dispatch c) s = .next s1) ∧
    (((s.core c).queue q).length < 32 →
      ∃ t, exec (.dispatch c) s = .next t ∧
        (t.core c).queue q = (s.core c).queue q ++ [⟨i, (s.core c).next, (s.core c).pid⟩] ∧
        (∀ p : Fin 8, p ≠ q → (t.core c).queue p = (s.core c).queue p) ∧ (∀ p, (t.core c).segQueue p = (s.core c).segQueue p) ∧
        (t.core c).next = (s.core c).next + 1 ∧
        t.fld (Fld.SEQ_PC_PC c) = (s.core c).next % 2 ^ 20 ∧ s1.sameRegs t [(Fld.SEQ_PC_PC c).addr] ∧ s1.sameMemory t) := by
  obtain ⟨l, hl⟩ := s.codeWord_core c ((s.core c).prog + 128 + 8 * (s.core c).next)
  rw [hw] at hl
  have hx := exec_dispatch_main s hr hs h1 hd
  rw [s.dispatchFrom_queue hw hdec hn] at hx
  constructor
  · intro h
    rw [hx, if_neg (by simpa [queueRoom] using h), s1.actOnFault_of_none hf]
  · intro h
    have hcore : (s1.queued c false q (s.core c).next i (s.core c).pid).core c =
        ({ s.core c with line := l, next := (s.core c).next + 1 } : CoreSt).push false q ⟨i, (s.core c).next, (s.core c).pid⟩ := by
      rw [State.queued_core, State.dispatched_core_main, hl]
    refine ⟨s1.queued c false q (s.core c).next i (s.core c).pid, ?_, ?_, fun p hp => ?_, fun p => ?_, ?_, s1.queued_pc c _ q false i _,
      s1.queued_sameRegs c _ q false i _, s1.queued_sameMemory c _ q false i _⟩
    · rw [hx, if_pos (by simpa [queueRoom] using h), State.actOnFault_of_none _ (by rw [State.modCore_boot, State.dispatched_boot, hf])]
      rfl
    · rw [hcore, CoreSt.queue_push_same]; rfl
    · rw [hcore, CoreSt.queue_push_ne _ _ _ fun he => hp (Fin.ext he.symm)]; rfl
    · rw [hcore]; rfl
    · rw [hcore]; rfl

theorem exec_dispatch_seg_queues (c : CoreId) (s s1 : State) (w : BitVec 64) (g : SegRun) (q : Fin 8) (i : Instr)
    (hr : s.tickState = stRunning) (hs : (s.core c).seg = some g) (he : g.ended = false) (hb : g.begun = true) (hst : g.stopped = false)
    (hw : s.codeWord c (g.base + 128 + 8 * g.next) = (some w, s1)) (hf : s1.boot.fault = none)
    (hdec : decodeWord c w = some (.queue q, i)) (hn : g.next + 1 ≠ g.count) :
    (8 ≤ ((s.core c).segQueue q).length → exec (.dispatch c) s = .next s1) ∧
    (((s.core c).segQueue q).length < 8 →
      ∃ t, exec (.dispatch c) s = .next t ∧
        (t.core c).segQueue q = (s.core c).segQueue q ++ [⟨i, g.next, g.pid⟩] ∧
        (∀ p : Fin 8, p ≠ q → (t.core c).segQueue p = (s.core c).segQueue p) ∧ (∀ p, (t.core c).queue p = (s.core c).queue p) ∧
        (t.core c).next = (s.core c).next ∧ (t.core c).seg.map SegRun.next = some (g.next + 1) ∧
        t.fld (Fld.SEQ_PC_PC c) = g.next % 2 ^ 20 ∧ s1.sameRegs t [(Fld.SEQ_PC_PC c).addr] ∧ s1.sameMemory t) := by
  obtain ⟨l, hl⟩ := s.codeWord_core c (g.base + 128 + 8 * g.next)
  rw [hw] at hl
  have hx := exec_dispatch_seg s hr hs he hb hst
  rw [s.dispatchFrom_queue hw hdec hn] at hx
  constructor
  · intro h
    rw [hx, if_neg (by simpa [queueRoom] using h), s1.actOnFault_of_none hf]
  · intro h
    have hcore : (s1.queued c true q g.next i g.pid).core c =
        ({ s.core c with line := l, seg := some { g with next := g.next + 1 } } : CoreSt).push true q ⟨i, g.next, g.pid⟩ := by
      rw [State.queued_core, State.dispatched_core_seg s1 c _ (g := g) (by rw [hl]; exact hs), hl]
    refine ⟨s1.queued c true q g.next i g.pid, ?_, ?_, fun p hp => ?_, fun p => ?_, ?_, ?_, s1.queued_pc c _ q true i _,
      s1.queued_sameRegs c _ q true i _, s1.queued_sameMemory c _ q true i _⟩
    · rw [hx, if_pos (by simpa [queueRoom] using h), State.actOnFault_of_none _ (by rw [State.modCore_boot, State.dispatched_boot, hf])]
      rfl
    · rw [hcore, CoreSt.segQueue_push_same _ rfl]; simp [CoreSt.segQueue, hs]
    · rw [hcore, CoreSt.segQueue_push_ne _ rfl _ fun he => hp (Fin.ext he.symm)]; simp [CoreSt.segQueue, hs]
    · rw [hcore]; rfl
    · rw [hcore]; rfl
    · rw [hcore]; rfl

theorem exec_dispatch_stops (c : CoreId) (s s1 : State) (w : BitVec 64)
    (hr : s.tickState = stRunning) (hs : (s.core c).inSeg = false) (h1 : s.fld (Fld.SEQ_STATUS_RUNNING c) = 1) (hd : (s.core c).dispatched = false)
    (hw : s.codeWord c ((s.core c).prog + 128 + 8 * (s.core c).next) = (some w, s1)) (hf : s1.boot.fault = none)
    (hdec : decodeWord c w = some (.stop, .stepEnd c)) :
    ∃ t, exec (.dispatch c) s = .next t ∧ (t.core c).dispatched = true ∧ (t.core c).q = (s.core c).q := by
  obtain ⟨l, hl⟩ := s.codeWord_core c ((s.core c).prog + 128 + 8 * (s.core c).next)
  rw [hw] at hl
  have hx := exec_dispatch_main s hr hs h1 hd
  rw [s.dispatchFrom_stop hw hdec, State.actOnFault_of_none _ (by simpa [State.dispatched] using hf)] at hx
  refine ⟨_, hx, ?_, ?_⟩ <;> rw [State.closeSlots_core, State.core_modCore_same, State.dispatched_core_main, hl] <;> rfl

theorem exec_dispatch_seg_stops (c : CoreId) (s s1 : State) (w : BitVec 64) (g : SegRun)
    (hr : s.tickState = stRunning) (hs : (s.core c).seg = some g) (he : g.ended = false) (hb : g.begun = true) (hst : g.stopped = false)
    (hw : s.codeWord c (g.base + 128 + 8 * g.next) = (some w, s1)) (hf : s1.boot.fault = none) (hdec : decodeWord c w = some (.stop, .stepEnd c)) :
    ∃ t, exec (.dispatch c) s = .next t ∧ (t.core c).seg = some { g with next := g.next + 1, stopped := true } := by
  obtain ⟨l, hl⟩ := s.codeWord_core c (g.base + 128 + 8 * g.next)
  rw [hw] at hl
  have hx := exec_dispatch_seg s hr hs he hb hst
  rw [s.dispatchFrom_stop hw hdec, State.actOnFault_of_none _ (by simpa [State.dispatched] using hf)] at hx
  refine ⟨_, hx, ?_⟩
  rw [State.closeSlots_core, State.core_modCore_same, State.dispatched_core_seg s1 c _ (g := g) (by rw [hl]; exact hs)]
  rfl

/-- Settles O9: an instruction of the program and one of a segment, and the end of either. -/
theorem dispatchFillsQueues : Obligations.DispatchFillsQueues :=
  ⟨exec_dispatch_queues, exec_dispatch_seg_queues, exec_dispatch_stops, exec_dispatch_seg_stops⟩

end Sys2Proof.Machine
end

section
/-! PROOFS. A fetch's data arrives (R48, R217, R230, R242, R244). -/

namespace Sys2Proof.Machine

variable (s : State)

/-- Deletions end nothing while no object is being deleted. -/
theorem State.settleDeletes_of_none (h : ∀ p ∈ s.place.objs, p.2.state ≠ .deleting) : s.settleDeletes = s := by
  have hn : (s.place.objs.filter fun p => p.2.state == .deleting && !(s.fetches.any fun f => f.2.op.object.toNat == p.1)) = [] := by
    rw [List.filter_eq_nil_iff]
    intro p hp
    simp [h p hp]
  rw [State.settleDeletes, hn]
  rfl

/-- A fetch that reads no origin has its turn (R281). -/
theorem State.fetchTurn_of_no_origin {r : FetchRun} (h : ∀ q ∈ r.tiles, q.src ≠ .origin) : s.fetchTurn r = true := by
  have hn : r.tiles.filter (fun q => q.src == .origin) = [] := by
    rw [List.filter_eq_nil_iff]
    intro q hq
    simp [h q hq]
  rw [State.fetchTurn, hn]
  rfl

/-! ### A tile that arrives good -/

/-- Bytes that arrive good: no unit is poisoned, and nothing is substituted. -/
def Arrived.good (bs : List Byte) : Arrived := ⟨bs, [], false, false, false⟩

/-- The bytes of a tile that is read from a host page, a frame, or nowhere. -/
def State.arriving (s : State) (c : Nat) (q : FetchTile) : List Byte :=
  match q.src with
  | .page pg => s.host.rdBlk (s.pageAddr pg) q.stored
  | .frame f => (s.readFrame (some (s.partOf c)) f q.stored).1.1
  | _ => List.replicate q.stored 0#8

/-- It can be read, and is good. -/
def State.arrivesGood (s : State) (c : Nat) (q : FetchTile) : Prop :=
  match q.src with
  | .page pg => s.pageOk pg = true
  | .frame f => frameFl f < s.frameN ∧ (s.readFrame (some (s.partOf c)) f q.stored).1.2 = [] ∧
      (s.readFrame (some (s.partOf c)) f q.stored).2.boot.fault = none
  | .zeros => True
  | _ => False

theorem State.arriveTile_good {c o : Nat} {x : Obj} {q : FetchTile} (hb : s.boot.fault = none) (hp : q.poison = false) (hg : s.arrivesGood c q) :
    ∃ u, s.arriveTile c o x q = (.good (s.arriving c q), u) ∧ s.StackSide u ∧ u.boot.fault = none := by
  unfold State.arrivesGood at hg
  unfold State.arriveTile State.arriving
  cases hs : q.src with
  | page pg =>
    rw [hs] at hg
    exact ⟨s, by simp [hg, hp, Arrived.good], .refl s, hb⟩
  | frame f =>
    rw [hs] at hg
    obtain ⟨hf, hbad, hfault⟩ := hg
    refine ⟨_, ?_, (State.StackSide.refl s).readFrame (some (s.partOf c)) f q.stored, hfault⟩
    simp [State.arriveFrame, Nat.not_le.mpr hf, hbad, hp, Arrived.good]
  | zeros => exact ⟨s, rfl, .refl s, hb⟩
  | origin => rw [hs] at hg; exact hg.elim
  | placed => rw [hs] at hg; exact hg.elim
  | subst => rw [hs] at hg; exact hg.elim

theorem State.nearPath_boot (d f n : Nat) : (s.nearPath d f n).boot = s.boot :=
  (State.when_keeps _ (·.boot) _ _ rfl).trans (State.crossBridges_boot _ _ _ _)

theorem State.homePath_boot (d : Nat) (e : DirEnt) (n : Nat) : (s.homePath d e n).boot = s.boot := by
  unfold State.homePath
  split
  · exact State.nearPath_boot _ _ _ _
  · rfl
  · rfl
  · rfl

theorem State.fetchPath_side (c o : Nat) (x : Obj) (q : FetchTile) : s.StackSide (s.fetchPath c o x q) ∧ (s.fetchPath c o x q).boot = s.boot := by
  have hs := State.StackSide.refl s
  unfold State.fetchPath
  split
  · exact ⟨hs.nearPath _ _ _, s.nearPath_boot _ _ _⟩
  · exact ⟨hs.ioPath _ _, rfl⟩
  · exact ⟨hs.ioPath _ _, rfl⟩
  · exact ⟨hs.homePath _ _ _, s.homePath_boot _ _ _⟩
  · exact ⟨hs, rfl⟩

/-- A good tile delivered to the core buffer or the cluster cache. -/
def State.fill (s : State) (c o : Nat) (x : Obj) (q : FetchTile) (op : FetchOp) (bs : List Byte) : State :=
  if op.toCache then s.fillCache (clusterOf c) q op.slot.val (.good bs) else s.fillBuffer c o x q op.slot.val (.good bs)

/-- A good tile goes to its place, and is no error. -/
theorem State.deliver_good {c : Nat} {r : FetchRun} {x : Obj} {q : FetchTile} (hb : s.boot.fault = none) (hp : q.poison = false)
    (hg : s.arrivesGood c q) :
    ∃ u, s.StackSide u ∧ u.boot.fault = none ∧ s.deliver c r x q r.op.slot.val =
      (false, u.fill c r.op.object.toNat x q r.op (s.arriving c q)) := by
  obtain ⟨u, hu, hside, hfault⟩ := s.arriveTile_good (o := r.op.object.toNat) (x := x) hb hp hg
  obtain ⟨hpath, hboot⟩ := u.fetchPath_side c r.op.object.toNat x q
  refine ⟨_, hside.trans hpath, by rw [hboot, hfault], ?_⟩
  unfold State.deliver State.fill
  simp [hu, Arrived.good]

/-! ### The destination -/

section
variable (c o : Nat) (x : Obj) (q : FetchTile) (slot k : Nat) (bs : List Byte)

theorem State.fillBuffer_buf (a : Arrived) : ((s.fillBuffer c o x q slot a).core c).buf = (s.core c).buf.wrBlk (4096 * slot) a.bytes := by
  simp [State.fillBuffer]

theorem State.fillBuffer_keeps_of {β : Type} (P : State → β) (a : Arrived)
    (hp : ∀ (t : State) (g : PlaceSt → List Nat), P (t.modPlace fun p => { p with heldRefs := g p }) = P t)
    (hc : ∀ (t : State) f, P (t.modCore c f) = P t) : P (s.fillBuffer c o x q slot a) = P s := by
  unfold State.fillBuffer
  exact (hc _ _).trans (hp s _)

theorem State.fillCache_good_keeps_of {β : Type} (P : State → β)
    (hp : ∀ (t : State) (g : PlaceSt → List Nat), P (t.modPlace fun p => { p with heldRefs := g p }) = P t)
    (hk : ∀ (t : State) f, P (t.modCluster k f) = P t) (hn : ∀ (t : State) n, P (t.count (Ct.CLC_CC_OPS k) n) = P t) :
    P (s.fillCache k q slot (.good bs)) = P s := by
  unfold State.fillCache
  simp only [Arrived.good, Bool.or_self, State.when_false]
  cases q.ref with
  | none => exact (hn _ _).trans (hk s _)
  | some id => exact (hp _ fun p => p.heldRefs ++ [id]).trans ((hn _ _).trans (hk s _))

theorem State.fillCache_good_cache : ((s.fillCache k q slot (.good bs)).cluster k).cache = (s.cluster k).cache.wrBlk (4096 * slot) bs := by
  unfold State.fillCache
  simp only [Arrived.good, Bool.or_self, State.when_false]
  cases q.ref <;> simp
end

section
variable (c o : Nat) (x : Obj) (q : FetchTile) (op : FetchOp) (bs : List Byte)

theorem State.fill_keeps_of {β : Type} (P : State → β)
    (hp : ∀ (t : State) (g : PlaceSt → List Nat), P (t.modPlace fun p => { p with heldRefs := g p }) = P t)
    (hc : ∀ (t : State) f, P (t.modCore c f) = P t)
    (hk : ∀ (t : State) f, P (t.modCluster (clusterOf c) f) = P t) (hn : ∀ (t : State) n, P (t.count (Ct.CLC_CC_OPS (clusterOf c)) n) = P t) :
    P (s.fill c o x q op bs) = P s := by
  unfold State.fill
  split
  · exact s.fillCache_good_keeps_of q _ _ bs P hp hk hn
  · exact s.fillBuffer_keeps_of c o x q _ P _ hp hc

@[simp] theorem State.fill_boot : (s.fill c o x q op bs).boot = s.boot :=
  s.fill_keeps_of c o x q op bs (·.boot) (fun _ _ => rfl) (fun _ _ => rfl) (fun _ _ => rfl) fun _ _ => rfl
@[simp] theorem State.fill_fetches : (s.fill c o x q op bs).fetches = s.fetches :=
  s.fill_keeps_of c o x q op bs (·.fetches) (fun _ _ => rfl) (fun _ _ => rfl) (fun _ _ => rfl) fun _ _ => rfl
@[simp] theorem State.fill_objs : (s.fill c o x q op bs).place.objs = s.place.objs :=
  s.fill_keeps_of c o x q op bs (·.place.objs) (fun _ _ => rfl) (fun _ _ => rfl) (fun _ _ => rfl) fun _ _ => rfl
theorem State.fill_ctr {a : Nat} (h : Ct.CLC_CC_OPS (clusterOf c) ≠ a) : (s.fill c o x q op bs).ctr a = s.ctr a :=
  s.fill_keeps_of c o x q op bs (·.ctr a) (fun _ _ => rfl) (fun _ _ => rfl) (fun _ _ => rfl) fun t n => t.ctr_count_ne n h

theorem State.fill_buf (h : op.toCache = false) : ((s.fill c o x q op bs).core c).buf = (s.core c).buf.wrBlk (4096 * op.slot.val) bs := by
  rw [State.fill, h, if_neg (by decide), State.fillBuffer_buf]; rfl
theorem State.fill_cache (h : op.toCache = true) :
    ((s.fill c o x q op bs).cluster (clusterOf c)).cache = (s.cluster (clusterOf c)).cache.wrBlk (4096 * op.slot.val) bs := by
  rw [State.fill, if_pos h, State.fillCache_good_cache]
end

/-! ### The end of a fetch -/

/-- A fetch that has delivered its tiles completes, and is counted. -/
def State.endFetch (s : State) (c : Nat) (r : FetchRun) : State :=
  ((((s.arriveParity c r.op []).count (Ct.CLC_FETCHES (clusterOf c)) 1).count (Ct.CLC_FETCH_UNITS (clusterOf c)) r.op.units.val).modCore c fun y =>
    { y with held := y.held.filter (· != 5) }).complete c 5 r.inSeg

section
variable (c : Nat) (op : FetchOp)

/-- No unit arrives with bad parity. -/
theorem State.arriveParity_keeps_of {β : Type} (P : State → β) (hc : ∀ (t : State) (l : CoreSt → List Nat), P (t.modCore c fun y => { y with bufBad := l y }) = P t)
    (hk : ∀ (t : State) (l : ClusterSt → List Nat), P (t.modCluster (clusterOf c) fun y => { y with cacheBad := l y }) = P t) : P (s.arriveParity c op []) = P s := by
  unfold State.arriveParity
  dsimp only
  split
  · exact hk s _
  · exact hc s _

variable (r : FetchRun)

theorem State.endFetch_boot : (s.endFetch c r).boot = s.boot := by
  rw [State.endFetch, State.complete_boot, State.modCore_boot, State.count_boot, State.count_boot]
  exact s.arriveParity_keeps_of c r.op (·.boot) (fun _ _ => rfl) fun _ _ => rfl
theorem State.endFetch_fetches : (s.endFetch c r).fetches = s.fetches := by
  rw [State.endFetch, State.complete_fetches, State.modCore_fetches, State.count_fetches, State.count_fetches]
  exact s.arriveParity_keeps_of c r.op (·.fetches) (fun _ _ => rfl) fun _ _ => rfl
theorem State.endFetch_objs : (s.endFetch c r).place.objs = s.place.objs := by
  rw [State.endFetch, State.complete_place, State.modCore_place, State.count_place, State.count_place]
  exact s.arriveParity_keeps_of c r.op (·.place.objs) (fun _ _ => rfl) fun _ _ => rfl

theorem State.endFetch_buf : ((s.endFetch c r).core c).buf = (s.core c).buf := by
  rw [State.endFetch, State.complete_buf, State.core_modCore_same, State.count_core, State.count_core]
  exact s.arriveParity_keeps_of c r.op (fun t => (t.core c).buf) (fun t l => by rw [State.core_modCore_same]) fun _ _ => rfl

theorem State.endFetch_cache : ((s.endFetch c r).cluster (clusterOf c)).cache = (s.cluster (clusterOf c)).cache := by
  rw [State.endFetch, State.complete_cache, State.modCore_cluster, State.count_cluster, State.count_cluster]
  exact s.arriveParity_keeps_of c r.op (fun t => (t.cluster (clusterOf c)).cache) (fun _ _ => rfl) fun t l => by rw [State.cluster_modCluster_same]

theorem State.endFetch_fetchCount : (s.endFetch c r).ctr (Ct.CLC_FETCHES (clusterOf c)) = (s.ctr (Ct.CLC_FETCHES (clusterOf c))).plus 1 := by
  rw [State.endFetch, State.complete_ctr, State.modCore_ctr, State.ctr_count_ne _ _ (by unfold Ct.CLC_FETCHES Ct.CLC_FETCH_UNITS; omega), State.ctr_count_same]
  exact congrArg (Ctr.plus · 1) (s.arriveParity_keeps_of c r.op (·.ctr _) (fun _ _ => rfl) fun _ _ => rfl)

theorem State.endFetch_unitCount :
    (s.endFetch c r).ctr (Ct.CLC_FETCH_UNITS (clusterOf c)) = (s.ctr (Ct.CLC_FETCH_UNITS (clusterOf c))).plus r.op.units.val := by
  rw [State.endFetch, State.complete_ctr, State.modCore_ctr, State.ctr_count_same, State.ctr_count_ne _ _ (by unfold Ct.CLC_FETCHES Ct.CLC_FETCH_UNITS; omega)]
  exact congrArg (Ctr.plus · _) (s.arriveParity_keeps_of c r.op (·.ctr _) (fun _ _ => rfl) fun _ _ => rfl)
end

/-! ### The statement -/

/-- The fetches in flight, replaced. -/
def State.withFetches (s : State) (l : NMap FetchRun) : State := { s with fetches := l }

@[simp] theorem State.withFetches_boot (l : NMap FetchRun) : (s.withFetches l).boot = s.boot := (rfl)
@[simp] theorem State.withFetches_ctr (l : NMap FetchRun) (a : Nat) : (s.withFetches l).ctr a = s.ctr a := (rfl)
@[simp] theorem State.withFetches_core (l : NMap FetchRun) (c : Nat) : (s.withFetches l).core c = s.core c := (rfl)
@[simp] theorem State.withFetches_cluster (l : NMap FetchRun) (k : Nat) : (s.withFetches l).cluster k = s.cluster k := (rfl)

/-- Bytes written from `a` on are read there, and the bytes beside them are as before. -/
theorem Mem.wrBlk_reads (m : Mem) (a : Nat) (bs : List Byte) : (∀ i, i < bs.length → (m.wrBlk a bs).rd (a + i) = bs.getD i 0#8) ∧
    ∀ k, k < a ∨ a + bs.length ≤ k → (m.wrBlk a bs).rd k = m.rd k := by
  refine ⟨fun i hi => ?_, fun k hk => ?_⟩
  · rw [Mem.rd_wrBlk, if_pos ⟨by omega, by omega⟩, Nat.add_sub_cancel_left]
  · rw [Mem.rd_wrBlk, if_neg (by omega)]

/-- A cluster's counters of fetches lie where reads of the stacks change nothing. -/
theorem computeAddr_cluster (c : CoreId) {o : Nat} (h : o = 0x10 ∨ o = 0x18) : computeAddr (clusterBase (clusterOf c) + o) := by
  have hc : c.val < 512 := c.isLt
  unfold computeAddr clusterBase clusterOf
  omega

theorem exec_fetchDataArrival_one {c : CoreId} {r : FetchRun} {x : Obj} {q : FetchTile} (hb : s.boot.fault = none)
    (hr : NMap.find s.fetches c.val = some r) (ht : r.tiles = [q]) (hx : s.obj r.op.object.toNat = some x) (hp : q.poison = false)
    (hd : ∀ p ∈ s.place.objs, p.2.state ≠ .deleting) (hg : (s.withFetches (NMap.del s.fetches c.val)).arrivesGood c q) :
    ∃ u, (s.withFetches (NMap.del s.fetches c.val)).StackSide u ∧ exec (.fetchDataArrival c []) s =
      .next ((u.fill c r.op.object.toNat x q r.op ((s.withFetches (NMap.del s.fetches c.val)).arriving c q)).endFetch c r) := by
  obtain ⟨u, hside, hfault, hdel⟩ := State.deliver_good _ (r := r) (x := x) (by simpa using hb) hp hg
  have hsrc : q.src ≠ .origin ∧ q.src ≠ .placed := by
    unfold State.arrivesGood at hg
    constructor <;> intro h <;> rw [h] at hg <;> exact hg
  have hturn : s.fetchTurn r = true := s.fetchTurn_of_no_origin (by simpa [ht] using hsrc.1)
  have hobjs : ∀ p ∈ ((u.fill c r.op.object.toNat x q r.op ((s.withFetches (NMap.del s.fetches c.val)).arriving c q)).endFetch c r).place.objs,
      p.2.state ≠ .deleting := by
    rw [State.endFetch_objs, State.fill_objs, hside.objs]
    exact hd
  refine ⟨u, hside, ?_⟩
  have hplaced : (q.src == Source.placed) = false := beq_false_of_ne hsrc.2
  have hrun : execFetchDataArrival c [] s = .next (State.actOnFault (State.settleDeletes
      (let s0 := s.withFetches (NMap.del s.fetches c.val)
       let d := s0.deliver c r ((s0.obj r.op.object.toNat).getD x) q r.op.slot.val
       if (false || d.1) = true then (d.2.endFetch c r).fetchError c ⟨r.prog, r.pid, none⟩ else d.2.endFetch c r))) := by
    simp only [execFetchDataArrival, hr, hx, ht, List.any_cons, List.any_nil, Bool.or_false, hplaced, Bool.false_and, hturn, Bool.not_true,
      Bool.false_eq_true, or_self, if_false, List.foldl_cons, List.foldl_nil]
    rfl
  have hx0 : (s.withFetches (NMap.del s.fetches c.val)).obj r.op.object.toNat = some x := hx
  refine hrun.trans (congrArg Host.Outcome.next ?_)
  simp only [hx0, Option.getD_some, hdel, Bool.or_self, Bool.false_eq_true, if_false]
  rw [State.settleDeletes_of_none _ hobjs]
  exact State.actOnFault_of_none _ (by rw [State.endFetch_boot, State.fill_boot, hfault])

/-- Settles O33: the bytes that arrive, and the counts. -/
theorem fetchDataArrives : Obligations.FetchDataArrives := by
  intro c s r x q hb hr ht hx hp hu hd s0 bs hsrc
  have hgood : (s.withFetches (NMap.del s.fetches c.val)).arrivesGood c q := by
    unfold State.arrivesGood
    cases h : q.src <;> rw [h] at hsrc <;> exact hsrc
  have hbytes : (s.withFetches (NMap.del s.fetches c.val)).arriving c q = bs := by
    unfold State.arriving
    cases h : q.src <;> simp only [bs, h] <;> rfl
  obtain ⟨u, hside, hx⟩ := exec_fetchDataArrival_one s hb hr ht hx hp hd hgood
  rw [hbytes] at hx
  refine ⟨_, hx, ?_, ?_, ?_, fun h => ?_, fun h => ?_⟩
  · rw [State.endFetch_fetches, State.fill_fetches, hside.fetches]
    exact NMap.find_del_same _ _
  · rw [State.endFetch_fetchCount, State.fill_ctr _ _ _ _ _ _ _ (by unfold Ct.CLC_CC_OPS Ct.CLC_FETCHES; omega),
      hside.ctr (Ct.CLC_FETCHES _) (computeAddr_cluster c (.inl rfl))]
    rfl
  · rw [State.endFetch_unitCount, State.fill_ctr _ _ _ _ _ _ _ (by unfold Ct.CLC_CC_OPS Ct.CLC_FETCH_UNITS; omega),
      hside.ctr (Ct.CLC_FETCH_UNITS _) (computeAddr_cluster c (.inr rfl))]
    rfl
  · have hbuf : (u.core c).buf = (s.core c).buf := by rw [State.core, hside.cores]; rfl
    rw [State.endFetch_buf, State.fill_buf _ _ _ _ _ _ _ h, hbuf]
    exact Mem.wrBlk_reads _ _ _
  · have hcache : (u.cluster (clusterOf c)).cache = (s.cluster (clusterOf c)).cache := by rw [State.cluster, hside.clusters]; rfl
    rw [State.endFetch_cache, State.fill_cache _ _ _ _ _ _ _ h, hcache]
    exact Mem.wrBlk_reads _ _ _

end Sys2Proof.Machine
end

section
/-! PROOFS. The check of a decoded tile (R185, R186), and the refetch of a tile that holds a port (R186, R187, R249). -/

namespace Sys2Proof.Machine

variable (s : State)

/-! ### A tile's table reference returns (R179) -/

theorem State.settleTable_keeps_of {β : Type} (P : State → β) (id : Nat)
    (hf : ∀ (t : State) (f : Fld) v, 0x09000000 ≤ f.addr → P (t.setFld f v) = P t)
    (hk : ∀ (t : State) k (g : ClusterSt → ClusterSt), (∀ x, (g x).cache = x.cache) → P (t.modCluster k g) = P t) : P (s.settleTable id) = P s := by
  have h1 : P (s.setFld (Fld.CTAB_ID_STATE_STATE id) 0) = P s := hf _ _ _ (by
    show 0x09000000 ≤ Rg.CTAB_ID_STATE id
    unfold Rg.CTAB_ID_STATE
    omega)
  have h2 : ∀ t : State, P t.recountTables = P t := fun t => hf t Fld.CTAB_STATUS_LIVE_COUNT _ (by decide)
  unfold State.settleTable
  split
  · refine (State.each_keeps _ P (List.range 64) _ fun t k _ => ?_).trans ((h2 _).trans h1)
    exact hk t k _ fun _ => rfl
  · rfl

/-- A reference that returns writes its table's registers and state, and the note of the copy. -/
theorem State.returnRef_keeps_of {β : Type} (P : State → β) (c a : Nat)
    (hc : ∀ (t : State) (l : CoreSt → List Fill), P (t.modCore c fun x => { x with fills := l x }) = P t)
    (hf : ∀ (t : State) (f : Fld) v, 0x09000000 ≤ f.addr → P (t.setFld f v) = P t)
    (hk : ∀ (t : State) k (g : ClusterSt → ClusterSt), (∀ x, (g x).cache = x.cache) → P (t.modCluster k g) = P t) : P (s.returnRef c a) = P s := by
  unfold State.returnRef
  split
  · split
    · refine (State.settleTable_keeps_of _ P _ hf hk).trans ((hf _ _ _ ?_).trans (hc _ fun x => mapWhere _ _ x.fills))
      show 0x09000000 ≤ Rg.CTAB_ID_REFS _
      unfold Rg.CTAB_ID_REFS
      omega
    · rfl
  · rfl

/-! ### The sum of the oldest tile -/

/-- The oldest tile is off the list, and its reference has returned. -/
def State.sumTaken (s : State) (c g : Nat) (k : SumCheck) (rest : List SumCheck) : State :=
  ((s.modEng g fun x =>
    { x with sums := rest, dec := match x.dec with | some d => if d.object = k.object ∧ d.tile = k.tile then none else x.dec | none => none }).when
      rest.isEmpty fun s => s.setFld (Fld.EXP_STATUS_DECODING g) 0).returnRef c k.addr

section
variable (c g : Nat) (k : SumCheck) (rest : List SumCheck)

theorem State.sumTaken_keeps_of {β : Type} (P : State → β) (he : ∀ t : State, ∀ f, P (t.modEng g f) = P t)
    (hd : ∀ t : State, P (t.setFld (Fld.EXP_STATUS_DECODING g) 0) = P t)
    (hc : ∀ (t : State) (l : CoreSt → List Fill), P (t.modCore c fun x => { x with fills := l x }) = P t)
    (hf : ∀ (t : State) (f : Fld) v, 0x09000000 ≤ f.addr → P (t.setFld f v) = P t)
    (hk : ∀ (t : State) k (f : ClusterSt → ClusterSt), (∀ x, (f x).cache = x.cache) → P (t.modCluster k f) = P t) : P (s.sumTaken c g k rest) = P s :=
  (State.returnRef_keeps_of _ P c k.addr hc hf hk).trans ((State.when_keeps _ P _ _ (hd _)).trans (he _ _))

theorem State.sumTaken_eng : ((s.sumTaken c g k rest).eng g).sums = rest := by
  have hr := fun t : State => t.returnRef_keeps_of (·.eng g) c k.addr (by simp) (by simp) (by simp)
  rw [State.sumTaken, hr, State.when_keeps _ (·.eng g) _ _ (State.setFld_eng _ _ _ _), State.eng_modEng_same]

theorem State.sumTaken_eng_ne {h : Nat} (hn : h ≠ g) : (s.sumTaken c g k rest).eng h = s.eng h :=
  s.sumTaken_keeps_of c g k rest (·.eng h) (fun t _ => t.eng_modEng_ne _ hn.symm) (by simp) (by simp) (by simp) (by simp)

/-- Whatever no change of an engine, a core, a cluster or a register touches. -/
theorem State.sumTaken_keeps {β : Type} (P : State → β) (h1 : ∀ (t : State) f, P (t.modEng g f) = P t) (h2 : ∀ (t : State) f v, P (t.setFld f v) = P t)
    (h3 : ∀ (t : State) f, P (t.modCore c f) = P t) (h4 : ∀ (t : State) k f, P (t.modCluster k f) = P t) : P (s.sumTaken c g k rest) = P s :=
  s.sumTaken_keeps_of c g k rest P h1 (fun t => h2 t _ _) (fun t _ => h3 t _) (fun t f v _ => h2 t f v) fun t k f _ => h4 t k f

theorem State.sumTaken_buf (d : Nat) : ((s.sumTaken c g k rest).core d).buf = (s.core d).buf := by
  refine s.sumTaken_keeps_of c g k rest (fun t => (t.core d).buf) (by simp) (by simp) (fun t l => ?_) (by simp) (by simp)
  by_cases h : c = d
  · rw [h, State.core_modCore_same]
  · rw [State.core_modCore_ne _ _ h]

theorem State.sumTaken_cache (j : Nat) : ((s.sumTaken c g k rest).cluster j).cache = (s.cluster j).cache := by
  refine s.sumTaken_keeps_of c g k rest (fun t => (t.cluster j).cache) (by simp) (by simp) (by simp) (by simp) fun t i f hf => ?_
  by_cases h : i = j
  · rw [h, State.cluster_modCluster_same, hf]
  · rw [State.cluster_modCluster_ne _ _ h]

theorem State.sumTaken_sameMemory : s.sameMemory (s.sumTaken c g k rest) := by
  have hboot := s.sumTaken_keeps c g k rest (·.boot) (by simp) (by simp) (by simp) (by simp)
  exact ⟨s.sumTaken_keeps c g k rest (·.mem) (by simp) (by simp) (by simp) (by simp),
    s.sumTaken_keeps c g k rest (·.host) (by simp) (by simp) (by simp) (by simp), by rw [hboot], by rw [hboot],
    s.sumTaken_buf c g k rest, s.sumTaken_cache c g k rest⟩

theorem State.sumTaken_ctr (a : Nat) : (s.sumTaken c g k rest).ctr a = s.ctr a :=
  s.sumTaken_keeps c g k rest (·.ctr a) (by simp) (by simp) (by simp) (by simp)

/-- EXP.STATUS apart, it writes registers of the tables only. -/
theorem State.sumTaken_rd {a : Nat} (hl : a < 0x09000000) (ha : a ≠ Rg.EXP_STATUS g) : (s.sumTaken c g k rest).rd a = s.rd a :=
  s.sumTaken_keeps_of c g k rest (·.rd a) (by simp) (fun t => t.rd_wr_ne _ ha.symm) (by simp) (fun t f v hf => t.rd_wr_ne _ (by omega)) (by simp)

end

/-- The expanders' registers lie below the memory-side dies. -/
theorem expStatus_lt (c : CoreId) (e : EngId) : Rg.EXP_STATUS (engOf c e) < 0x09000000 := by
  have hc : c.val < 512 := c.isLt
  have he : e.val < 4 := e.isLt
  unfold Rg.EXP_STATUS engBase coreBase clusterBase engOf
  omega

theorem State.sumTaken_decoding (c : CoreId) (e : EngId) (k : SumCheck) :
    (s.sumTaken c (engOf c e) k []).fld (Fld.EXP_STATUS_DECODING (engOf c e)) = 0 := by
  have hr : (s.sumTaken c (engOf c e) k []).rd (Rg.EXP_STATUS (engOf c e)) = _ :=
    State.returnRef_keeps_of _ (·.rd (Rg.EXP_STATUS (engOf c e))) c k.addr (fun _ _ => rfl)
      (fun t f v hf => t.rd_wr_ne _ (by have := expStatus_lt c e; omega)) fun _ _ _ _ => rfl
  calc
    _ = _ := congrArg (bvGet _ _) hr
    _ = 0 := State.fld_setFld_same _ (Fld.EXP_STATUS_DECODING (engOf c e)) 0 (show 0 + 1 ≤ 32 by decide)

theorem exec_tileSumCheck_good (c : CoreId) (e : EngId) (s : State) (k : SumCheck) (rest : List SumCheck)
    (hs : (s.eng (engOf c e)).sums = k :: rest) (hk : k.ok = true) :
    ∃ t, exec (.tileSumCheck c e) s = .next t ∧ (t.eng (engOf c e)).sums = rest ∧ (rest = [] → t.fld (Fld.EXP_STATUS_DECODING (engOf c e)) = 0) ∧
      (∀ g, g ≠ engOf c e → t.eng g = s.eng g) ∧ s.sameMemory t ∧ t.ctr (Ct.EXP_SUM_ERRORS (engOf c e)) = s.ctr (Ct.EXP_SUM_ERRORS (engOf c e)) := by
  have hx : exec (.tileSumCheck c e) s = .next (s.sumTaken c (engOf c e) k rest) := by
    show execTileSumCheck c e s = _
    simp only [execTileSumCheck, hs, hk, if_true]
    rfl
  exact ⟨_, hx, s.sumTaken_eng _ _ _ _, fun h => h ▸ s.sumTaken_decoding c e k, fun g hg => s.sumTaken_eng_ne _ _ _ _ hg,
    s.sumTaken_sameMemory _ _ _ _, s.sumTaken_ctr _ _ _ _ _⟩

/-! ### A sum that differs -/

/-- A bad sum is counted, recorded, noted for the tile, and the copy discarded; a second one on the tile poisons it (R186). -/
def State.sumBad (s : State) (c g : Nat) (k : SumCheck) : State :=
  let tick := s.tick.toNat
  let s := ((s.raise (Fld.EXP_STATUS_SUM_ERROR g)).count (Ct.EXP_SUM_ERRORS g) 1).jasper .sumError g k.object k.tile
  let again := (s.eng g).badSums.any fun f => f.object == k.object && f.tile == k.tile && decide ((tick + 2 ^ 32 - f.tick) % 2 ^ 32 ≤ 16)
  let s := s.modEng g fun x =>
    { x with badSums := (x.badSums.filter fun f => decide ((tick + 2 ^ 32 - f.tick) % 2 ^ 32 ≤ 16)) ++ [⟨k.object, k.tile, tick⟩] }
  let s := s.modCore c fun x => { x with fills := x.fills.filter fun f => !(64 * f.unit == k.addr) }
  s.when again fun s => s.poisonTile k.object k.tile

/-- What poisoning a tile leaves alone, a bad sum leaves as its raise and its count have it. -/
theorem State.sumBad_reads (c g : Nat) (k : SumCheck) {a : Nat} (h : computeAddr a) :
    (s.sumBad c g k).rd a = (s.raise (Fld.EXP_STATUS_SUM_ERROR g)).rd a ∧
      (Ct.JSP_INTAKE_DROPS ≠ a → (s.sumBad c g k).ctr a = (s.count (Ct.EXP_SUM_ERRORS g) 1).ctr a) := by
  unfold State.sumBad
  dsimp only
  have hp : ∀ (t : State) (b : Bool), t.StackSide (t.when b fun s => s.poisonTile k.object k.tile) := fun t b =>
    (State.StackSide.refl t).when b ((State.StackSide.refl t).poisonTile _ _)
  refine ⟨?_, fun hj => ?_⟩
  · rw [(hp _ _).rd a h]
    simp
  · rw [(hp _ _).ctr a h, State.modCore_ctr, State.modEng_ctr, State.jasper_ctr_ne _ _ _ _ _ hj]
    simp [State.ctr, State.count]

/-- The expanders' registers and counters are the compute dies'. -/
theorem computeAddr_exp (c : CoreId) (e : EngId) {o : Nat} (h : o = 0x800 ∨ o = 0x838) : computeAddr (engBase (engOf c e) + o) := by
  have hc : c.val < 512 := c.isLt
  have he : e.val < 4 := e.isLt
  unfold computeAddr engBase coreBase clusterBase engOf Rg.GARNET_STATUS
  omega

/-- An abandonment leaves the registers of the engines and expanders. -/
theorem State.abandonStep_engReg (b : Bool) (g : Nat) {o : Nat} (h : o < 0x1000) : (s.abandonStep b).rd (engBase g + o) = s.rd (engBase g + o) := by
  have he : engBase g + o = coreBase (g / 4) + (0x4000 + 0x1000 * (g % 4) + o) := by unfold engBase; omega
  rw [he]
  exact s.abandonStep_coreReg b _ (by omega)

theorem State.raise_fld {f : Fld} (hw : f.w = 1) (hl : f.lo < 32) : (s.raise f).fld f = 1 := by
  rw [State.raise, State.fld_setFld_same _ _ _ (by omega), hw]
  rfl

theorem exec_tileSumCheck_bad (c : CoreId) (e : EngId) (s : State) (k : SumCheck) (rest : List SumCheck)
    (hs : (s.eng (engOf c e)).sums = k :: rest) (hk : k.ok = false) :
    ∃ t, exec (.tileSumCheck c e) s = .next t ∧ t.fld (Fld.EXP_STATUS_SUM_ERROR (engOf c e)) = 1 ∧
      t.ctr (Ct.EXP_SUM_ERRORS (engOf c e)) = (s.ctr (Ct.EXP_SUM_ERRORS (engOf c e))).plus 1 ∧
      (s.tickState = stRunning → t.tickState = stAbandoning ∧ t.flights = []) := by
  have hx : exec (.tileSumCheck c e) s = .next (((s.sumTaken c (engOf c e) k rest).sumBad c (engOf c e) k).abandonStep false) := by
    show execTileSumCheck c e s = _
    simp only [execTileSumCheck, hs, hk, Bool.false_eq_true, if_false]
    rfl
  have hreads := fun a h => (s.sumTaken c (engOf c e) k rest).sumBad_reads c (engOf c e) k (a := a) h
  have hdrop : Ct.JSP_INTAKE_DROPS ≠ Ct.EXP_SUM_ERRORS (engOf c e) := by
    unfold Ct.JSP_INTAKE_DROPS Ct.EXP_SUM_ERRORS engBase coreBase clusterBase; omega
  have hstatus : Rg.EXP_STATUS (engOf c e) ≠ Rg.GARNET_STATUS := by
    unfold Rg.EXP_STATUS Rg.GARNET_STATUS engBase coreBase clusterBase; omega
  refine ⟨_, hx, ?_, ?_, fun hr => State.abandonStep_stops _ _ (Eq.trans (congrArg (bvGet _ _) ?_) hr)⟩
  · exact (congrArg (bvGet _ _) ((State.abandonStep_engReg _ false _ (by decide)).trans (hreads _ (computeAddr_exp c e (.inl rfl))).1)).trans
      (State.raise_fld _ (f := Fld.EXP_STATUS_SUM_ERROR (engOf c e)) rfl (show 4 < 32 by decide))
  · rw [State.abandonStep_ctr_ne _ _ hdrop, (hreads (Ct.EXP_SUM_ERRORS (engOf c e)) (computeAddr_exp c e (.inr rfl))).2 hdrop,
      State.ctr_count_same, State.sumTaken_ctr]
  · show State.rd _ Rg.GARNET_STATUS = s.rd Rg.GARNET_STATUS
    rw [(hreads Rg.GARNET_STATUS (.inl rfl)).1]
    exact (State.rd_wr_ne _ _ hstatus).trans (s.sumTaken_rd _ _ _ _ (by decide) hstatus.symm)

/-! ### A tile that comes again to a held port -/

/-- A run over a list in which one step reaches `Q` from anywhere, and each keeps it, reaches `Q`. -/
theorem State.each_reaches {α : Type} (Q : State → Prop) (xs : List α) (f : State → α → State) (hk : ∀ t, ∀ x ∈ xs, Q t → Q (f t x)) {y : α}
    (hy : y ∈ xs) (h : ∀ t, Q (f t y)) : Q (s.each xs f) := by
  induction xs generalizing s with
  | nil => exact absurd hy (by simp)
  | cons x xs ih =>
    have hk' : ∀ t, ∀ z ∈ xs, Q t → Q (f t z) := fun t z hz => hk t z (by simp [hz])
    rcases List.mem_cons.mp hy with rfl | hy
    · exact State.each_inv _ Q xs f (h s) hk'
    · exact ih (f s x) hk' hy

/-- A good copy read again from its home. -/
theorem State.refetchRead_good {c o t : Nat} {x : Obj} {bs : List Byte} {s1 : State} (hx : s.obj o = some x) (hq : x.state ≠ .quarantined)
    (hp : (s.dirEnt o x t).poisoned = false) (hr : s.readHome (some (s.partOf c)) o x t (s.dirEnt o x t) = (.bytes bs [], s1)) :
    s.refetchRead c o t = (.data bs [] false, s1.homePath (dieOf c) (s.dirEnt o x t) (ceilDiv bs.length 4096)) := by
  unfold State.refetchRead
  simp [hx, hq, hr, hp]

/-- Engine `g` takes a good copy of its tile alone: the bytes are in its core's buffer, and nothing holds it. -/
theorem State.endHold_good {h : Hold} (g : Nat) (bs : List Byte) (hs : h.scale = none) :
    s.endHold g h (.data bs [] false) .gone = (s.refetchPut (g / 4) h.object h.tile h.addr (.data bs [] false)).2.modEng g fun x =>
      { x with dec := none, sums := x.sums.filter (·.addr != h.addr), hold := none } := by
  simp [State.endHold, State.refetchPut, hs]

/-- Engine `g` of core `g / 4` has taken the bytes `bs` at `a`. -/
def State.took (g a : Nat) (bs : List Byte) (u : State) : Prop :=
  (u.eng g).hold = none ∧ (u.eng g).dec = none ∧ ∀ i, i < bs.length → (u.core (g / 4)).buf.rd (a + i) = bs.getD i 0#8

theorem State.endHold_took {h : Hold} (g : Nat) (bs : List Byte) (hs : h.scale = none) : (s.endHold g h (.data bs [] false) .gone).took g h.addr bs := by
  rw [State.endHold_good _ g bs hs]
  refine ⟨by simp, by simp, fun i hi => ?_⟩
  rw [State.modEng_core, State.refetchPut, State.core_modCore_same]
  exact (Mem.wrBlk_reads _ _ _).1 i hi

/-- Another core's engine that takes a copy leaves this one. -/
theorem State.endHold_good_ne {h : Hold} {g g' : Nat} (bs : List Byte) (hs : h.scale = none) (hg : g' / 4 ≠ g / 4) :
    (s.endHold g' h (.data bs [] false) .gone).eng g = s.eng g ∧ (s.endHold g' h (.data bs [] false) .gone).core (g / 4) = s.core (g / 4) := by
  rw [State.endHold_good _ g' bs hs, State.refetchPut]
  exact ⟨by rw [State.eng_modEng_ne _ _ (fun e => hg (by rw [e])), State.modCore_eng],
    by rw [State.modEng_core, State.core_modCore_ne _ _ hg]⟩

theorem State.endHold_good_boot {h : Hold} (g : Nat) (bs : List Byte) (hs : h.scale = none) : (s.endHold g h (.data bs [] false) .gone).boot = s.boot := by
  rw [State.endHold_good _ g bs hs, State.refetchPut, State.modEng_boot, State.modCore_boot]

/-- The way of a copy to another core's die. -/
theorem State.alsoTo_side (g o t : Nat) (r : Refetched) : s.StackSide (s.alsoTo g o t r) ∧ (s.alsoTo g o t r).boot = s.boot := by
  unfold State.alsoTo
  split
  · exact ⟨(State.StackSide.refl s).homePath _ _ _, s.homePath_boot _ _ _⟩
  · exact ⟨.refl s, rfl⟩

/-- What engine `p` does when a refetch of a tile without its scale tile has brought `bs` for core `c` (R187). -/
def State.passOn (c : Nat) (h : Hold) (bs : List Byte) (s : State) (p : Nat × EngSt) : State :=
  match p.2.hold with
  | some k => s.when (h.mergesWith k) fun s =>
    let s := s.when (p.1 / 4 != c) fun s =>
      let s := s.alsoTo p.1 k.object k.tile (.data bs [] false)
      match k.scale with
      | some (o, t, _) => s.alsoTo p.1 o t .gone
      | none => s
    s.endHold p.1 k (.data bs [] false) .gone
  | none => s

theorem Hold.mergesWith_scale {h k : Hold} (hs : h.scale = none) (hm : h.mergesWith k = true) : k.scale = none := by
  have : k.scale.isNone || k.scale.map (fun q => (q.1, q.2.1)) == h.scale.map fun q => (q.1, q.2.1) := by
    simp only [Hold.mergesWith, Bool.and_eq_true] at hm
    exact hm.2
  cases hk : k.scale with
  | none => rfl
  | some q => simp [hk, hs] at this

theorem Hold.mergesWith_self {h : Hold} (hw : h.why ≠ .poison) (hs : h.scale = none) : h.mergesWith h = true := by
  simp [Hold.mergesWith, hw, hs]

section
variable {c : Nat} {h : Hold} {bs : List Byte}

theorem State.passOn_boot (hs : h.scale = none) (p : Nat × EngSt) : (s.passOn c h bs p).boot = s.boot := by
  unfold State.passOn
  split
  · rename_i k _
    cases hm : h.mergesWith k with
    | false => rfl
    | true =>
      have hk := Hold.mergesWith_scale hs hm
      simp only [State.when_true, hk]
      exact (State.endHold_good_boot _ _ _ hk).trans (State.when_keeps s (·.boot) _ _ (s.alsoTo_side _ _ _ _).2)
  · rfl

theorem State.passOn_took (hw : h.why ≠ .poison) (hs : h.scale = none) {g : Nat} {y : EngSt} (hy : y.hold = some h) :
    (s.passOn c h bs (g, y)).took g h.addr bs := by
  unfold State.passOn
  simp only [hy, Hold.mergesWith_self hw hs, State.when_true]
  exact State.endHold_took _ g bs hs

theorem State.passOn_ne (hs : h.scale = none) {g : Nat} {p : Nat × EngSt} (hp : p.1 / 4 ≠ g / 4 ∨ p.2.hold = none) :
    (s.passOn c h bs p).eng g = s.eng g ∧ (s.passOn c h bs p).core (g / 4) = s.core (g / 4) := by
  unfold State.passOn
  split
  · rename_i k hk
    have hne : p.1 / 4 ≠ g / 4 := hp.resolve_right (by simp [hk])
    cases hm : h.mergesWith k with
    | false => exact ⟨rfl, rfl⟩
    | true =>
      have hsc := Hold.mergesWith_scale hs hm
      simp only [State.when_true, hsc]
      have hw : s.StackSide (s.when (p.1 / 4 != c) fun s => s.alsoTo p.1 k.object k.tile (.data bs [] false)) :=
        (State.StackSide.refl s).when _ (s.alsoTo_side _ _ _ _).1
      obtain ⟨he, hcore⟩ := State.endHold_good_ne (s.when (p.1 / 4 != c) fun s => s.alsoTo p.1 k.object k.tile (.data bs [] false)) bs hsc hne
      exact ⟨he.trans (by rw [State.eng, hw.engs]; rfl), hcore.trans (by rw [State.core, hw.cores]; rfl)⟩
  · exact ⟨rfl, rfl⟩

end

/-- An engine whose port is held is listed. -/
theorem State.eng_mem {g : Nat} (h : (s.eng g).hold ≠ none) : (g, s.eng g) ∈ s.engs := by
  unfold State.eng NMap.get at h ⊢
  cases hf : NMap.find s.engs g with
  | none => exact absurd (by rw [hf]; rfl) h
  | some y => exact NMap.find_mem hf

theorem exec_tileRefetchComplete_good (c : CoreId) (e : EngId) (s s1 : State) (h : Hold) (x : Obj) (bs : List Byte)
    (hh : (s.eng (engOf c e)).hold = some h) (hw : h.why ≠ .poison) (hs : h.scale = none) (hx : s.obj h.object = some x)
    (hq : x.state ≠ .quarantined) (hp : (s.dirEnt h.object x h.tile).poisoned = false)
    (ho : ∀ p ∈ s.engs, p.1 / 4 = c.val → p = (engOf c e, s.eng (engOf c e)) ∨ p.2.hold = none)
    (hr : s.readHome (some (s.partOf c)) h.object x h.tile (s.dirEnt h.object x h.tile) = (.bytes bs [], s1)) (hf : s1.boot.fault = none) :
    ∃ t, exec (.tileRefetchComplete c e) s = .next t ∧ (t.eng (engOf c e)).hold = none ∧ (t.eng (engOf c e)).dec = none ∧
      (∀ i, i < bs.length → (t.core c).buf.rd (h.addr + i) = bs.getD i 0#8) := by
  have hc : engOf c e / 4 = c.val := by have := e.isLt; unfold engOf; omega
  have hread := s.refetchRead_good hx hq hp hr
  have hmem : (engOf c e, s.eng (engOf c e)) ∈ s.engs := s.eng_mem (by simp [hh])
  have hrun : exec (.tileRefetchComplete c e) s =
      .next ((s1.homePath (dieOf c) (s.dirEnt h.object x h.tile) (ceilDiv bs.length 4096)).each s.engs (State.passOn c h bs)).actOnFault := by
    show execTileRefetchComplete c e s = _
    simp only [execTileRefetchComplete, hh, if_neg hw, hs, hread]
    rfl
  have htook : ((s1.homePath (dieOf c) (s.dirEnt h.object x h.tile) (ceilDiv bs.length 4096)).each s.engs (State.passOn c h bs)).took
      (engOf c e) h.addr bs := by
    refine State.each_reaches _ (State.took (engOf c e) h.addr bs) s.engs _ (fun t p hp ht => ?_) hmem fun t => t.passOn_took hw hs hh
    by_cases hpc : p = (engOf c e, s.eng (engOf c e))
    · rw [hpc]
      exact t.passOn_took hw hs hh
    · obtain ⟨heng, hcore⟩ := t.passOn_ne (c := c) (bs := bs) (g := engOf c e) hs (p := p) (by
        by_cases hd : p.1 / 4 = c.val
        · exact .inr ((ho p hp hd).resolve_left hpc)
        · exact .inl (hc.symm ▸ hd))
      exact ⟨by rw [heng]; exact ht.1, by rw [heng]; exact ht.2.1, by rw [hcore]; exact ht.2.2⟩
  obtain ⟨hhold, hdec, hbytes⟩ := htook
  refine ⟨_, hrun, ?_⟩
  rw [State.actOnFault_of_none _ (by rw [State.each_keeps _ (·.boot) _ _ fun t p _ => t.passOn_boot hs p, State.homePath_boot, hf])]
  exact ⟨hhold, hdec, hc ▸ hbytes⟩

/-- Settles O34: a sum that is good, one that is not, and a tile that comes again. -/
theorem tileChecksAndRefetches : Obligations.TileChecksAndRefetches :=
  ⟨exec_tileSumCheck_good, exec_tileSumCheck_bad, exec_tileRefetchComplete_good⟩

end Sys2Proof.Machine
end

section
/-! PROOFS. What a message that goes out on a port leaves alone (R290 to R294, R298, R309), and where it is queued. -/

namespace Sys2Proof.Machine

variable (s : State)

/-! ### The ports of a bundle -/

theorem ports_lt_sixteen (b : Bundle) {p : Nat} (h : p ∈ b.ports) : p < 16 := by
  cases b <;> simp only [Bundle.ports, List.mem_cons, List.not_mem_nil, or_false] at h <;> omega

theorem State.liveOf_lt {b : Bundle} {p : Nat} (h : p ∈ s.liveOf b) : p < 16 := by
  unfold State.liveOf at h
  dsimp only at h
  split at h <;> exact ports_lt_sixteen b (List.mem_of_mem_filter h)

/-- The port that is picked is one of those given. -/
theorem State.pickPort_mem {ps : List Nat} {p : Nat} (h : s.pickPort ps = some p) : p ∈ ps := by
  have hinv : ∀ (l : List Nat) (o : Option Nat), (∀ q, o = some q → q ∈ ps) → (∀ q ∈ l, q ∈ ps) →
      ∀ q, l.foldl (fun best p => match best with
        | none => some p
        | some q => if (s.port p).queued < (s.port q).queued then some p else some q) o = some q → q ∈ ps := by
    intro l
    induction l with
    | nil => exact fun o ho _ q hq => ho q hq
    | cons a l ih =>
      intro o ho hl
      have ha : a ∈ ps := hl a (by simp)
      refine ih _ (fun q hq => ?_) fun q hq => hl q (by simp [hq])
      cases o with
      | none => exact Option.some.inj hq ▸ ha
      | some r =>
        dsimp only at hq
        split at hq
        · exact Option.some.inj hq ▸ ha
        · exact Option.some.inj hq ▸ ho r rfl
  exact hinv ps none (by simp) (fun _ h => h) p h

/-! ### What the ports leave alone -/

/-- `P` says nothing of the links' own state, of what has left the device, nor of the registers and counters of the ports (R440). -/
structure LinkBlind {β : Type} (P : State → β) : Prop where
  link : ∀ (s : State) l, P (s.withLink l) = P s
  out : ∀ (s : State) e, P (s.out e) = P s
  count : ∀ (s : State) a n, 0x100000 ≤ a → a < 0x200000 → P (s.count a n) = P s
  setFld : ∀ (s : State) f v, 0x100000 ≤ f.addr → f.addr < 0x200000 → P (s.setFld f v) = P s

namespace LinkBlind

variable {β : Type} {P : State → β} (h : LinkBlind P) {p : Nat} (hp : p < 16)

include h in
theorem modPort (p : Nat) (f : PortSt → PortSt) : P (s.modPort p f) = P s := h.link s _

include h hp

theorem injected (n : Nat) : P (s.injected p n) = P s := by
  have hc : P (s.count (Ct.LNK_INJECTED p) n) = P s := h.count _ _ _ (by unfold Ct.LNK_INJECTED; omega) (by unfold Ct.LNK_INJECTED; omega)
  have hf : ∀ t : State, P (t.setFld (Fld.LNK_INJ_CTRL_ARM p) 0) = P t := fun t => h.setFld _ _ _
    (by unfold Fld.LNK_INJ_CTRL_ARM; dsimp only; omega) (by unfold Fld.LNK_INJ_CTRL_ARM; dsimp only; omega)
  unfold State.injected
  exact (State.when_keeps _ P _ (fun s => s.setFld (Fld.LNK_INJ_CTRL_ARM p) 0) (hf _)).trans hc

omit h hp in
/-- Of two results the view is the same, so of a choice between them. -/
theorem ite {γ : Type} {v : β} {c : Prop} [Decidable c] {x y : State × γ} (hx : P x.1 = v) (hy : P y.1 = v) : P (if c then x else y).1 = v := by
  split
  · exact hx
  · exact hy

theorem injectFlit (f : TxFlit) : P (s.injectFlit p f).1 = P s := by
  have hm := fun g => h.modPort s p g
  unfold State.injectFlit
  refine ite rfl ?_
  dsimp only
  split
  · exact (h.injected _ hp _).trans ((h.modPort _ _ _).trans (hm _))
  · refine ite ?_ ?_
    · dsimp only
      exact hm _
    · split
      · exact (h.injected _ hp _).trans (hm _)
      · exact (h.injected _ hp _).trans (hm _)
      · dsimp only
        exact (h.modPort _ _ _).trans (hm _)

theorem emit (f : TxFlit) (b : Bool) : P (s.emit p f b) = P s := by
  unfold State.emit
  split
  · rfl
  · dsimp only
    refine (h.modPort _ _ _).trans ((State.each_keeps _ P _ _ fun t _ _ => h.out t _).trans ?_)
    cases b
    · rfl
    · exact h.injectFlit s hp f

theorem sendFlit (m : TxMsg) : P (s.sendFlit p m) = P s := by
  unfold State.sendFlit
  split
  · exact h.modPort _ _ _
  · dsimp only
    exact (h.emit _ hp _ _).trans ((h.count _ _ _ (by unfold Ct.LNK_TX_FLITS; omega) (by unfold Ct.LNK_TX_FLITS; omega)).trans (h.modPort _ _ _))

theorem pumpN (n : Nat) : P (s.pumpN p n) = P s := by
  induction n generalizing s with
  | zero => rfl
  | succ n ih =>
    unfold State.pumpN
    split
    · rfl
    · split
      · rfl
      · exact (ih _).trans (h.sendFlit s hp _)

theorem putPort (m : TxMsg) : P (s.putPort p m) = P s := (h.pumpN _ hp _).trans (h.modPort _ _ _)

omit hp in
theorem putBundle (b : Bundle) (m : TxMsg) : P (s.putBundle b m) = P s := by
  unfold State.putBundle
  split
  · rename_i q hq
    exact h.putPort s (s.liveOf_lt (s.pickPort_mem hq)) m
  · exact h.link s _

omit hp in
theorem sendTensor (hj : ∀ (t : State) d, P (t.jasper .routeNone d 0 0) = P t) (m : TensorMsg) : P (s.sendTensor m) = P s := by
  unfold State.sendTensor
  split
  · exact h.link s _
  · split
    · exact h.putBundle s _ _
    · exact hj s _

omit hp in
theorem sendMgmt (hj : ∀ (t : State) d, P (t.jasper .routeNone d 0 0) = P t) (m : MgmtMsg) : P (s.sendMgmt m) = P s := by
  unfold State.sendMgmt
  split
  · split
    · rfl
    · exact h.putBundle s _ _
  · split
    · exact h.putBundle s _ _
    · exact hj s _

end LinkBlind

/-! ### Views that the ports leave alone -/

theorem linkBlind_rd {a : Nat} (h : a < 0x100000 ∨ 0x200000 ≤ a) : LinkBlind fun s => s.rd a where
  link _ _ := rfl
  out _ _ := rfl
  count _ _ _ _ _ := rfl
  setFld s f v hl hh := s.rd_wr_ne _ (by omega)

theorem linkBlind_ctr {a : Nat} (h : a < 0x100000 ∨ 0x200000 ≤ a) : LinkBlind fun s => s.ctr a where
  link _ _ := rfl
  out _ _ := rfl
  count s _ n hl hh := s.ctr_count_ne n (by omega)
  setFld _ _ _ _ _ := rfl

theorem linkBlind_mem : LinkBlind State.mem := ⟨fun _ _ => rfl, fun _ _ => rfl, fun _ _ _ _ _ => rfl, fun _ _ _ _ _ => rfl⟩
theorem linkBlind_host : LinkBlind State.host := ⟨fun _ _ => rfl, fun _ _ => rfl, fun _ _ _ _ _ => rfl, fun _ _ _ _ _ => rfl⟩
theorem linkBlind_boot : LinkBlind State.boot := ⟨fun _ _ => rfl, fun _ _ => rfl, fun _ _ _ _ _ => rfl, fun _ _ _ _ _ => rfl⟩
theorem linkBlind_cores : LinkBlind State.cores := ⟨fun _ _ => rfl, fun _ _ => rfl, fun _ _ _ _ _ => rfl, fun _ _ _ _ _ => rfl⟩
theorem linkBlind_clusters : LinkBlind State.clusters := ⟨fun _ _ => rfl, fun _ _ => rfl, fun _ _ _ _ _ => rfl, fun _ _ _ _ _ => rfl⟩
theorem linkBlind_held : LinkBlind State.held := ⟨fun _ _ => rfl, fun _ _ => rfl, fun _ _ _ _ _ => rfl, fun _ _ _ _ _ => rfl⟩

theorem State.sendTensor_boot (m : TensorMsg) : (s.sendTensor m).boot = s.boot := linkBlind_boot.sendTensor s (fun t _ => t.jasper_boot _ _ _ _) m

theorem State.sendTensor_rd {a : Nat} (h : a < 0x100000 ∨ 0x200000 ≤ a) (m : TensorMsg) : (s.sendTensor m).rd a = s.rd a :=
  (linkBlind_rd h).sendTensor s (fun t _ => t.jasper_rd _ _ _ _ a) m

theorem State.sendTensor_sameMemory (m : TensorMsg) : s.sameMemory (s.sendTensor m) :=
  State.sameMemory_of_parts (linkBlind_mem.sendTensor s (fun t _ => t.jasper_mem _ _ _ _) m)
    (linkBlind_host.sendTensor s (fun t _ => t.jasper_host _ _ _ _) m) (s.sendTensor_boot m)
    (linkBlind_cores.sendTensor s (fun t _ => t.jasper_cores _ _ _ _) m) (linkBlind_clusters.sendTensor s (fun t _ => t.jasper_clusters _ _ _ _) m)

/-! ### Where a message is queued -/

/-- A port sends nothing of VC 2 for now: the ports are quiet, its replay buffer is full, or nothing is queued and no credit of VC 2 is held. -/
def State.keepsMsg (s : State) (p : Nat) : Prop :=
  s.linksQuiet = true ∨ 1024 ≤ (s.port p).unacked.length ∨ (s.port p).queue = [] ∧ (s.port p).credits 2 = 0

theorem State.pumpN_of_stopped {p : Nat} (h : s.linksQuiet = true ∨ 1024 ≤ (s.port p).unacked.length ∨ (s.port p).pickMsg = none) (n : Nat) :
    s.pumpN p n = s := by
  cases n with
  | zero => rfl
  | succ n =>
    unfold State.pumpN
    split
    · rfl
    · rename_i hs
      simp only [not_or] at hs
      have hm : (s.port p).pickMsg = none := (h.resolve_left hs.2.1).resolve_left hs.2.2
      rw [hm]

/-- A port whose one message is of VC 2, without a credit for it, has nothing to send. -/
theorem PortSt.pickMsg_of_no_credit {x : PortSt} {bs : List Byte} (hq : x.queue = [mkTx 2 bs]) (hc : x.credits 2 = 0) : x.pickMsg = none := by
  unfold PortSt.pickMsg
  simp [hq, hc, mkTx]

/-- A tensor message put on a port that sends nothing for now waits there at the end of the queue. -/
theorem State.putPort_queue {p : Nat} (h : s.keepsMsg p) (bs : List Byte) : ((s.putPort p (mkTx 2 bs)).port p).queue = (s.port p).queue ++ [mkTx 2 bs] := by
  have hport : (s.modPort p fun x => { x with queue := x.queue ++ [mkTx 2 bs] }).port p = { s.port p with queue := (s.port p).queue ++ [mkTx 2 bs] } :=
    NMap.get_set_same _ _ _ _
  unfold State.putPort State.pump
  rw [State.pumpN_of_stopped _ ?_, hport]
  rw [hport]
  rcases h with h | h | ⟨hq, hc⟩
  · exact .inl h
  · exact .inr (.inl h)
  · exact .inr (.inr (PortSt.pickMsg_of_no_credit (bs := bs) (by simp [hq]) hc))

theorem State.sendTensor_queue {m : TensorMsg} {b : Bundle} {p : Nat} (hd : m.hdr.destMember.val ≠ s.me) (hr : s.route m.hdr.destMember = some b)
    (hp : s.pickPort (s.liveOf b) = some p) (h : s.keepsMsg p) : ((s.sendTensor m).port p).queue = (s.port p).queue ++ [mkTx 2 m.bytes] := by
  unfold State.sendTensor
  rw [if_neg hd, hr]
  dsimp only
  rw [State.putBundle, hp]
  exact s.putPort_queue h _

theorem State.sendTensor_loop {m : TensorMsg} (h : m.hdr.destMember.val = s.me) :
    s.sendTensor m = s.withLink { s.link with loop := s.link.loop ++ [m] } := if_pos h

theorem State.sendTensor_none {m : TensorMsg} (hd : m.hdr.destMember.val ≠ s.me) (hr : s.route m.hdr.destMember = none) :
    s.sendTensor m = s.jasper .routeNone m.hdr.destMember 0 0 := by
  unfold State.sendTensor
  rw [if_neg hd, hr]

end Sys2Proof.Machine
end

section
/-! PROOFS. SEND and RELEASE send one message over their channel (R49, R50, R137, R297, R298, R301). -/

namespace Sys2Proof.Machine

variable (s : State)

/-! ### The header and the way of a message -/

section
variable {t : State}

/-- The registers say over which bundle a message goes. -/
theorem State.route_of_regs (h : t.regs = s.regs) (d : Nat) : t.route d = s.route d := by
  have hr : ∀ u : State, u.route d = ({ s with regs := u.regs } : State).route d := fun _ => rfl
  rw [hr t, h]

theorem State.liveOf_of_regs (h : t.regs = s.regs) (b : Bundle) : t.liveOf b = s.liveOf b := by
  have hr : ∀ u : State, u.liveOf b = ({ s with regs := u.regs } : State).liveOf b := fun _ => rfl
  rw [hr t, h]

theorem State.me_of_regs (h : t.regs = s.regs) : t.me = s.me := by
  have hr : ∀ u : State, u.me = ({ s with regs := u.regs } : State).me := fun _ => rfl
  rw [hr t, h]

theorem State.linksQuiet_of_regs (h : t.regs = s.regs) : t.linksQuiet = s.linksQuiet := by
  have hr : ∀ u : State, u.linksQuiet = ({ s with regs := u.regs } : State).linksQuiet := fun _ => rfl
  rw [hr t, h]

theorem State.pickPort_of_link (h : t.link = s.link) (ps : List Nat) : t.pickPort ps = s.pickPort ps := by
  have hr : ∀ u : State, u.pickPort ps = ({ s with link := u.link } : State).pickPort ps := fun _ => rfl
  rw [hr t, h]

theorem State.keepsMsg_of_parts {p : Nat} (hq : t.linksQuiet = s.linksQuiet) (hl : t.link = s.link) (h : s.keepsMsg p) : t.keepsMsg p := by
  unfold State.keepsMsg at h ⊢
  rwa [hq, State.port, hl]
end

theorem State.chanHdr_count (a n c ch addr u t amt w : Nat) : (s.count a n).chanHdr c ch addr u t amt w = s.chanHdr c ch addr u t amt w := (rfl)

/-- A credit drawn changes no word but its counter's. -/
theorem State.inForce_setFld_ne (f g : Fld) (v : Nat) (h : f.addr ≠ g.addr) : (s.setFld f v).inForce g = s.inForce g := by
  unfold State.inForce State.rdForce
  rw [State.setFld_held, State.setFld, State.rd_wr_ne _ _ h]

/-- A core's credit counters lie between its other sequencer words and its vector engine's. -/
theorem credFld_addr (c : Nat) {n : Nat} (h : n < 32) : coreBase c + 0x180 ≤ (credFld c n).addr ∧ (credFld c n).addr < coreBase c + 0x1C0 := by
  simp only [credFld, Rg.SEQ_CREDIT]
  omega

theorem State.inForce_lt (f : Fld) : s.inForce f < 2 ^ f.w := bvGet_lt _ _ _

section
variable {n : Nat} (hn : n < 32) (v c ch : Nat)
include hn

/-- A credit drawn changes nothing of what a core's channel says. -/
theorem State.inForce_draw {f : Fld} (hf : f.addr < coreBase c + 0x180 ∨ coreBase c + 0x1C0 ≤ f.addr) :
    (s.setFld (credFld c n) v).inForce f = s.inForce f := by
  have := credFld_addr c hn
  exact s.inForce_setFld_ne _ _ _ (by omega)

theorem State.fld_draw {f : Fld} (hf : f.addr < coreBase c + 0x180 ∨ coreBase c + 0x1C0 ≤ f.addr) :
    (s.setFld (credFld c n) v).fld f = s.fld f := by
  have := credFld_addr c hn
  exact s.fld_setFld_addr _ _ _ (by omega)

theorem State.chanHdr_draw (addr u tok amt w : Nat) :
    (s.setFld (credFld c n) v).chanHdr c ch addr u tok amt w = s.chanHdr c ch addr u tok amt w := by
  have hA : coreBase c + 0x1C0 ≤ Rg.VEC_LINK_CH_A c ch := by unfold Rg.VEC_LINK_CH_A; omega
  have hB : coreBase c + 0x1C0 ≤ Rg.VEC_LINK_CH_B c ch := by unfold Rg.VEC_LINK_CH_B; omega
  have hg : Rg.GARNET_GROUP < coreBase c + 0x180 := by unfold Rg.GARNET_GROUP coreBase clusterBase; omega
  have hp : Rg.SEQ_PARTITION c < coreBase c + 0x180 := by unfold Rg.SEQ_PARTITION; omega
  have ht : (s.setFld (credFld c n) v).tickNo = s.tickNo := s.rd_wr_ne _ (by
    have := credFld_addr c hn
    unfold Rg.GARNET_TICK coreBase clusterBase at *
    omega)
  simp only [State.chanHdr, State.partOf, State.me, ht, s.inForce_draw hn v c (f := Fld.VEC_LINK_CH_A_PEER_MEMBER c ch) (.inr hA),
    s.inForce_draw hn v c (f := Fld.VEC_LINK_CH_A_PEER_CORE c ch) (.inr hA), s.inForce_draw hn v c (f := Fld.VEC_LINK_CH_B_PEER_DEST c ch) (.inr hB),
    s.inForce_draw hn v c (f := Fld.SEQ_PARTITION_PARTITION c) (.inl hp), s.fld_draw hn v c (f := Fld.GARNET_GROUP_MEMBER_INDEX) (.inl hg),
    s.fld_draw hn v c (f := Fld.GARNET_GROUP_GROUP_ID) (.inl hg)]

end

@[simp] theorem State.withLink_outs (l : LinkSt) : (s.withLink l).outs = s.outs := rfl

/-! ### SEND -/

/-- The message that SEND forms on its channel (R297, R298). -/
def State.sendMsg (s : State) (c : CoreId) (o : SendOp) : TensorMsg :=
  ⟨s.chanHdr c o.ch (s.inForce (Fld.VEC_LINK_CH_B_PEER_BASE c o.ch) + o.destOfs.toNat) o.len.toNat
    (s.inForce (Fld.VEC_LINK_CH_A_PEER_TOKEN c o.ch)) o.amount.toNat o.wire,
    wireEncode o.wire ((s.core c).buf.rdBlk (64 * o.src.toNat) (64 * (o.len.toNat + 1)))⟩

/-- The credit counter that a channel draws on. -/
def State.sendCredit (s : State) (c : CoreId) (o : SendOp) : Fld := credFld c (s.inForce (Fld.VEC_LINK_CH_A_LOCAL_CREDIT c o.ch))

/-- The state in which SEND has drawn its credits and counted its units. -/
def State.sendDrawn (s : State) (c : CoreId) (o : SendOp) : State :=
  (s.setFld (s.sendCredit c o) (s.fld (s.sendCredit c o) - ceilDiv (o.len.toNat + 1) 64)).linkUnits (dieOf c) (64 * (o.len.toNat + 1)) true

section
variable {c : CoreId} {o : SendOp} (p : Prog)
variable (ha : o.amount ≠ 0#8) (hw : o.wire.val ≠ 3) (hv : s.inForce (Fld.VEC_LINK_CH_A_VALID c o.ch) = 1)
variable (h2 : o.wire.val = 2 → (o.len.toNat + 1) % 2 = 0) (hr : 64 * (o.src.toNat + o.len.toNat + 1) ≤ 2 ^ 21)

theorem State.sendCredit_lt (c : CoreId) (o : SendOp) : s.inForce (Fld.VEC_LINK_CH_A_LOCAL_CREDIT c o.ch) < 32 := s.inForce_lt _

include ha hw hv h2 hr in
/-- A SEND that is neither an unused encoding nor a command error draws its credits first. -/
theorem runSend_draws : runSend c o p s = match s.draw c 6 (s.sendCredit c o) (ceilDiv (o.len.toNat + 1) 64) with
    | none => (s, false)
    | some u =>
      let u := u.consume c [(64 * o.src.toNat, 64 * (o.len.toNat + 1))]
      let data := wireEncode o.wire ((u.core c).buf.rdBlk (64 * o.src.toNat) (64 * (o.len.toNat + 1)))
      let u := u.linkUnits (dieOf c) (64 * (o.len.toNat + 1)) true
      (u.sendTensor ⟨u.chanHdr c o.ch (u.inForce (Fld.VEC_LINK_CH_B_PEER_BASE c o.ch) + o.destOfs.toNat) o.len.toNat
        (u.inForce (Fld.VEC_LINK_CH_A_PEER_TOKEN c o.ch)) o.amount.toNat o.wire, data⟩, true) := by
  have h1 : ¬ (o.amount = 0#8 ∨ o.wire.val = 3) := not_or.mpr ⟨ha, hw⟩
  have h2' : ¬ (s.inForce (Fld.VEC_LINK_CH_A_VALID c o.ch) = 0 ∨ (o.wire.val = 2 ∧ (o.len.toNat + 1) % 2 = 1) ∨
      64 * (o.src.toNat + (o.len.toNat + 1)) > bufBytes) := by
    unfold bufBytes
    omega
  unfold runSend
  dsimp only
  rw [if_neg h1, if_neg h2']
  rfl

include ha hw hv h2 hr in
theorem runSend_waits (h : s.leftFor c 6 (s.sendCredit c o) < ceilDiv (o.len.toNat + 1) 64) : runSend c o p s = (s, false) := by
  have hd : s.draw c 6 (s.sendCredit c o) (ceilDiv (o.len.toNat + 1) 64) = none := if_neg (Nat.not_le.mpr h)
  rw [runSend_draws s p ha hw hv h2 hr, hd]

include ha hw hv h2 hr in
theorem runSend_sends (h : ceilDiv (o.len.toNat + 1) 64 ≤ s.leftFor c 6 (s.sendCredit c o))
    (hg : (s.core c).bad (64 * o.src.toNat) (64 * (o.len.toNat + 1)) = false) :
    runSend c o p s = ((s.sendDrawn c o).sendTensor (s.sendMsg c o), true) := by
  have hd : s.draw c 6 (s.sendCredit c o) (ceilDiv (o.len.toNat + 1) 64) =
    some (s.setFld (s.sendCredit c o) (s.fld (s.sendCredit c o) - ceilDiv (o.len.toNat + 1) 64)) := if_pos h
  have hA : coreBase c + 0x1C0 ≤ Rg.VEC_LINK_CH_A c o.ch := by unfold Rg.VEC_LINK_CH_A; omega
  have hB : coreBase c + 0x1C0 ≤ Rg.VEC_LINK_CH_B c o.ch := by unfold Rg.VEC_LINK_CH_B; omega
  have hlt := s.sendCredit_lt c o
  rw [runSend_draws s p ha hw hv h2 hr, hd]
  dsimp only
  rw [State.consume_range_good (by simpa using hg)]
  unfold State.sendDrawn State.linkUnits
  dsimp only [if_true]
  simp only [State.chanHdr_count, State.count_inForce, State.setFld_core, State.sendCredit, s.chanHdr_draw hlt, s.inForce_draw hlt _ _ (f := Fld.VEC_LINK_CH_B_PEER_BASE c o.ch) (.inr hB),
    s.inForce_draw hlt _ _ (f := Fld.VEC_LINK_CH_A_PEER_TOKEN c o.ch) (.inr hA), if_true]
  rfl

end

section
variable (c : CoreId) (o : SendOp)

/-- The state in which SEND has drawn its credits. -/
abbrev State.sendPaid (s : State) (c : CoreId) (o : SendOp) : State :=
  s.setFld (s.sendCredit c o) (s.fld (s.sendCredit c o) - ceilDiv (o.len.toNat + 1) 64)

theorem State.sendDrawn_fld (f : Fld) : (s.sendDrawn c o).fld f = (s.sendPaid c o).fld f := by
  simp only [State.sendDrawn, State.linkUnits, State.count_fld]

theorem State.sendDrawn_regs : (s.sendDrawn c o).regs = (s.sendPaid c o).regs := by
  simp only [State.sendDrawn, State.linkUnits, State.count_regs]

theorem State.sendDrawn_link : (s.sendDrawn c o).link = s.link := by
  simp only [State.sendDrawn, State.linkUnits, State.count_link, State.setFld_link]

theorem State.sendDrawn_boot : (s.sendDrawn c o).boot = s.boot := by
  simp only [State.sendDrawn, State.linkUnits, State.count_boot, State.setFld_boot]

theorem State.sendDrawn_outs : (s.sendDrawn c o).outs = s.outs := by
  simp only [State.sendDrawn, State.linkUnits, State.count_outs, State.setFld_outs]

/-- A drawn credit changes nothing of which port a bundle picks. -/
theorem State.sendDrawn_pick (b : Bundle) :
    (s.sendDrawn c o).pickPort ((s.sendDrawn c o).liveOf b) = (s.sendPaid c o).pickPort ((s.sendPaid c o).liveOf b) := by
  rw [State.liveOf_of_regs (s.sendPaid c o) (s.sendDrawn_regs c o),
    State.pickPort_of_link (s.sendPaid c o) ((s.sendDrawn_link c o).trans (s.setFld_link _ _).symm)]

theorem State.sendDrawn_sameMemory : s.sameMemory (s.sendDrawn c o) :=
  State.sameMemory_trans (s.setFld_sameMemory _ _) (State.sameMemory_trans (State.count_sameMemory _ _ _) (State.count_sameMemory _ _ _))

theorem State.sendDrawn_fld_low {f : Fld} (hf : f.addr < 0x100000) : (s.sendDrawn c o).fld f = s.fld f :=
  (s.sendDrawn_fld c o f).trans (s.fld_draw (s.sendCredit_lt c o) _ c (.inl (by
    unfold coreBase clusterBase
    omega)))

theorem State.sendDrawn_me : (s.sendDrawn c o).me = s.me := s.sendDrawn_fld_low c o (by decide)

theorem State.sendDrawn_quiet : (s.sendDrawn c o).linksQuiet = s.linksQuiet := by
  unfold State.linksQuiet State.powerState
  rw [s.sendDrawn_fld_low c o (by decide), s.sendDrawn_fld_low c o (by decide)]

theorem State.sendDrawn_credit : (s.sendDrawn c o).fld (s.sendCredit c o) = s.fld (s.sendCredit c o) - ceilDiv (o.len.toNat + 1) 64 :=
  (s.sendDrawn_fld c o _).trans (s.fld_setFld_sig c _ .credit (Nat.le_trans (Nat.sub_le _ _) (s.sigFld_le c _ .credit)))

theorem State.sendCredit_addr : 0x200000 ≤ (s.sendCredit c o).addr := by
  have := credFld_addr c (s.sendCredit_lt c o)
  unfold coreBase clusterBase at this
  exact Nat.le_trans (by omega) this.1
end

theorem exec_send_sends (c : CoreId) (o : SendOp) (s : State) (h : s.atHead c 6 (.send c o)) (ha : o.amount ≠ 0#8) (hw : o.wire.val ≠ 3)
    (hv : s.inForce (Fld.VEC_LINK_CH_A_VALID c o.ch) = 1) (h2 : o.wire.val = 2 → (o.len.toNat + 1) % 2 = 0)
    (hr : 64 * (o.src.toNat + o.len.toNat + 1) ≤ 2 ^ 21) :
    let cr := credFld c (s.inForce (Fld.VEC_LINK_CH_A_LOCAL_CREDIT c o.ch))
    let need := ceilDiv (o.len.toNat + 1) 64
    need ≤ s.leftFor c 6 cr → (s.core c).bad (64 * o.src.toNat) (64 * (o.len.toNat + 1)) = false →
    let m : TensorMsg := ⟨s.chanHdr c o.ch (s.inForce (Fld.VEC_LINK_CH_B_PEER_BASE c o.ch) + o.destOfs.toNat) o.len.toNat
      (s.inForce (Fld.VEC_LINK_CH_A_PEER_TOKEN c o.ch)) o.amount.toNat o.wire,
      wireEncode o.wire ((s.core c).buf.rdBlk (64 * o.src.toNat) (64 * (o.len.toNat + 1)))⟩
    let s1 := s.setFld cr (s.fld cr - need)
    ∃ t, exec (.send c o) s = .next t ∧ t.fld cr = s.fld cr - need ∧ s.sameMemory t ∧
      (m.hdr.destMember.val = s.me → t.link.loop = s.link.loop ++ [m] ∧ t.outs = s.outs) ∧
      (m.hdr.destMember.val ≠ s.me → s1.route m.hdr.destMember = none → t.told .routeNone m.hdr.destMember 0 0) ∧
      (∀ b p, m.hdr.destMember.val ≠ s.me → s1.route m.hdr.destMember = some b → s1.pickPort (s1.liveOf b) = some p →
        (s.linksQuiet = true ∨ 1024 ≤ (s.port p).unacked.length ∨ (s.port p).queue = [] ∧ (s.port p).credits 2 = 0) →
        (t.port p).queue = (s.port p).queue ++ [mkTx 2 m.bytes]) := by
  intro cr need hneed hgood m s1
  obtain ⟨p, b, -, hi⟩ := s.issue_atHead (runSend c o) h
  rw [runSend_sends s p ha hw hv h2 hr hneed hgood, if_pos rfl] at hi
  have hs1 : s1 = s.sendPaid c o := rfl
  have hme := s.sendDrawn_me c o
  have hroute : ∀ d, (s.sendDrawn c o).route d = s1.route d := State.route_of_regs _ (s.sendDrawn_regs c o)
  have hpick : ∀ b, (s.sendDrawn c o).pickPort ((s.sendDrawn c o).liveOf b) = s1.pickPort (s1.liveOf b) := by
    rw [hs1]
    exact s.sendDrawn_pick c o
  have hport : ∀ q, (s.sendDrawn c o).port q = s.port q := fun q => by rw [State.port, s.sendDrawn_link c o]; rfl
  have hexec : exec (.send c o) s = .next (((s.sendDrawn c o).sendTensor m).complete c 6 b) :=
    congrArg Host.Outcome.next ((congrArg (State.actOnNew s) hi).trans
      (State.actOnNew_same s _ (by rw [State.complete_boot, State.sendTensor_boot, State.sendDrawn_boot])))
  have hcr : ((s.sendDrawn c o).sendTensor m).fld (s.sendCredit c o) = s.fld (s.sendCredit c o) - need := by
    rw [State.fld, State.sendTensor_rd _ (.inr (s.sendCredit_addr c o))]
    exact s.sendDrawn_credit c o
  refine ⟨_, hexec, ?_, ?_, fun hd => ?_, fun hd hn => ?_, fun b' q hd hb hq hk => ?_⟩
  · rw [State.complete_fld]
    exact hcr
  · exact s.complete_sameMemory (State.sameMemory_trans (s.sendDrawn_sameMemory c o) (State.sendTensor_sameMemory _ _)) _ _ _
  · rw [State.complete_link, State.complete_outs, State.sendTensor_loop _ (hd.trans hme.symm), State.withLink_link, State.withLink_outs, s.sendDrawn_link, s.sendDrawn_outs]
    exact ⟨rfl, rfl⟩
  · rw [State.told, State.complete_lastEvent, State.sendTensor_none _ (hme ▸ hd) ((hroute _).trans hn)]
    exact State.jasper_told _ _ _ _ _
  · rw [State.port, State.complete_link]
    refine (State.sendTensor_queue _ (hme ▸ hd) ((hroute _).trans hb) ((hpick b').trans hq) ?_).trans (by rw [hport])
    exact State.keepsMsg_of_parts s (s.sendDrawn_quiet c o) (s.sendDrawn_link c o) hk

theorem exec_send_waits (c : CoreId) (o : SendOp) (s : State) (_ : s.atHead c 6 (.send c o)) (ha : o.amount ≠ 0#8) (hw : o.wire.val ≠ 3)
    (hv : s.inForce (Fld.VEC_LINK_CH_A_VALID c o.ch) = 1) (h2 : o.wire.val = 2 → (o.len.toNat + 1) % 2 = 0)
    (hr : 64 * (o.src.toNat + o.len.toNat + 1) ≤ 2 ^ 21)
    (hl : s.leftFor c 6 (credFld c (s.inForce (Fld.VEC_LINK_CH_A_LOCAL_CREDIT c o.ch))) < ceilDiv (o.len.toNat + 1) 64) :
    exec (.send c o) s = .next s := by
  have hi := s.issue_waits (c := c) (q := 6) (i := .send c o) fun p => runSend_waits s p ha hw hv h2 hr hl
  show Host.Outcome.next (State.actOnNew s _) = _
  rw [hi, State.actOnNew_same s s rfl]

/-! ### RELEASE -/

theorem exec_release_sends (c : CoreId) (o : ReleaseOp) (s : State) (h : s.atHead c 6 (.release c o)) (ha : o.amount ≠ 0#8)
    (hv : s.inForce (Fld.VEC_LINK_CH_A_VALID c o.ch) = 1) :
    let m : TensorMsg := ⟨s.chanHdr c o.ch (s.inForce (Fld.VEC_LINK_CH_B_PEER_BASE c o.ch)) 0 (s.inForce (Fld.VEC_LINK_CH_B_PEER_CREDIT c o.ch))
      o.amount.toNat 3, []⟩
    ∃ t, exec (.release c o) s = .next t ∧ s.sameMemory t ∧
      (m.hdr.destMember.val = s.me → t.link.loop = s.link.loop ++ [m] ∧ s.sameRegs t []) ∧
      (m.hdr.destMember.val ≠ s.me → s.route m.hdr.destMember = none → t.told .routeNone m.hdr.destMember 0 0) ∧
      (∀ b p, m.hdr.destMember.val ≠ s.me → s.route m.hdr.destMember = some b → s.pickPort (s.liveOf b) = some p →
        (s.linksQuiet = true ∨ 1024 ≤ (s.port p).unacked.length ∨ (s.port p).queue = [] ∧ (s.port p).credits 2 = 0) →
        (t.port p).queue = (s.port p).queue ++ [mkTx 2 m.bytes]) := by
  intro m
  obtain ⟨p, b, -, hi⟩ := s.issue_atHead (runRelease c o) h
  have hrun : runRelease c o p s = (s.sendTensor m, true) := by
    unfold runRelease
    rw [if_neg ha, if_neg (by omega)]
  rw [hrun, if_pos rfl] at hi
  refine ⟨_, congrArg Host.Outcome.next hi, ?_, fun hd => ?_, fun hd hn => ?_, fun b' q hd hb hq hk => ?_⟩
  · exact s.complete_sameMemory (s.sendTensor_sameMemory m) _ _ _
  · rw [s.sendTensor_loop hd]
    refine ⟨?_, s.complete_sameRegs (fun a _ => ?_) _ _ _⟩
    · rw [State.complete_link, State.withLink_link]
    · exact State.withLink_rd _ _ _
  · rw [State.told, State.complete_lastEvent, s.sendTensor_none hd hn]
    exact State.jasper_told _ _ _ _ _
  · rw [State.port, State.complete_link]
    exact s.sendTensor_queue hd hb hq hk

/-- Settles O35: a SEND with its credits, one without, and RELEASE. -/
theorem messagesLeaveOnChannels : Obligations.MessagesLeaveOnChannels := ⟨exec_send_sends, exec_send_waits, exec_release_sends⟩

end Sys2Proof.Machine
end

section
/-! PROOFS. A tensor message is delivered, held, discarded or forwarded (R51, R301 to R306, R316). -/

namespace Sys2Proof.Machine

variable (s : State)

@[simp] theorem State.withLink_mem (l : LinkSt) : (s.withLink l).mem = s.mem := rfl
@[simp] theorem State.withLink_host (l : LinkSt) : (s.withLink l).host = s.host := rfl
@[simp] theorem State.withLink_lastEvent (l : LinkSt) : (s.withLink l).lastEvent = s.lastEvent := rfl

/-! ### Delivery -/

section
variable (p : Option PortId) (m : TensorMsg) (hw : m.hdr.wire.val = 0) (hd : m.data ≠ [])
include hw hd

/-- A raw message's bytes go as they are to the cluster cache or the core buffer (R305, R306). -/
theorem State.landed_raw : s.landed p m =
    if m.hdr.toCache then
      ((s.linkUnits (dieOf m.hdr.destCore) m.data.length false).modCluster (clusterOf m.hdr.destCore) fun x =>
        { x with cache := x.cache.wrBlk (64 * m.hdr.destAddr.toNat) m.data,
                 cacheBad := x.cacheBad.filter fun u => !coversUnit (64 * m.hdr.destAddr.toNat) m.data.length u }).count
        (Ct.CLC_CC_OPS (clusterOf m.hdr.destCore)) (ceilDiv m.data.length 64)
    else (s.linkUnits (dieOf m.hdr.destCore) m.data.length false).modCore m.hdr.destCore fun x => x.put (64 * m.hdr.destAddr.toNat) m.data := by
  have h : s.wireDecode p m.hdr.wire m.data = (m.data, s) := if_pos hw
  unfold State.landed
  dsimp only
  rw [h]
  dsimp only
  rw [if_neg hd]

theorem State.landed_raw_rd (a : Nat) : (s.landed p m).rd a = s.rd a := by
  rw [s.landed_raw p m hw hd]
  split <;> simp [State.linkUnits]

theorem State.landed_raw_mem : (s.landed p m).mem = s.mem := by
  rw [s.landed_raw p m hw hd]
  split <;> simp [State.linkUnits]

theorem State.landed_raw_host : (s.landed p m).host = s.host := by
  rw [s.landed_raw p m hw hd]
  split <;> simp [State.linkUnits]

theorem State.landed_raw_cache (h : m.hdr.toCache = true) :
    ((s.landed p m).cluster (clusterOf m.hdr.destCore)).cache =
      (s.cluster (clusterOf m.hdr.destCore)).cache.wrBlk (64 * m.hdr.destAddr.toNat) m.data ∧ ∀ c, (s.landed p m).core c = s.core c := by
  rw [s.landed_raw p m hw hd, if_pos h]
  simp [State.linkUnits]

theorem State.landed_raw_core (h : ¬ m.hdr.toCache = true) :
    ((s.landed p m).core m.hdr.destCore).buf = (s.core m.hdr.destCore).buf.wrBlk (64 * m.hdr.destAddr.toNat) m.data ∧
      ∀ k, (s.landed p m).cluster k = s.cluster k := by
  rw [s.landed_raw p m hw hd, if_neg h]
  simp [State.linkUnits, CoreSt.put]

end

theorem exec_tensorMessage_lands (p : Option PortId) (m : TensorMsg) (s : State) (hme : m.hdr.destMember.val = s.me)
    (hb : ∀ q, p = some q → (s.port q).blocked = []) (ht : s.tickState ≠ stDisabled)
    (hg : m.hdr.groupId.toNat = s.fld Fld.GARNET_GROUP_GROUP_ID) (hk : m.hdr.tick = s.tickNo)
    (hp : m.hdr.part.val = s.partOf m.hdr.destCore) (hw : m.hdr.wire.val = 0) (hd : m.data ≠ [])
    (ha : m.hdr.destAddr.toNat + m.hdr.unitsM1.toNat < (if m.hdr.toCache then 65536 else 32768))
    (he : s.fld (Fld.SEQ_STATUS_ENDED m.hdr.destCore) = 0)
    (hlt : s.fld (tokFld m.hdr.destCore m.hdr.token) + m.hdr.amount.toNat ≤ 0xFFFF) :
    let a := 64 * m.hdr.destAddr.toNat
    ∃ t, exec (.tensorMessage p m) s = .next t ∧
      t.fld (tokFld m.hdr.destCore m.hdr.token) = s.fld (tokFld m.hdr.destCore m.hdr.token) + m.hdr.amount.toNat ∧
      s.sameRegs t [(tokFld m.hdr.destCore m.hdr.token).addr] ∧ t.mem = s.mem ∧ t.host = s.host ∧
      (if m.hdr.toCache then
        (∀ i, i < m.data.length → (t.cluster (clusterOf m.hdr.destCore)).cache.rd (a + i) = m.data.getD i 0#8) ∧
        (∀ k, k < a ∨ a + m.data.length ≤ k →
          (t.cluster (clusterOf m.hdr.destCore)).cache.rd k = (s.cluster (clusterOf m.hdr.destCore)).cache.rd k) ∧
        ∀ c, (t.core c).buf = (s.core c).buf
      else
        (∀ i, i < m.data.length → (t.core m.hdr.destCore).buf.rd (a + i) = m.data.getD i 0#8) ∧
        (∀ k, k < a ∨ a + m.data.length ≤ k → (t.core m.hdr.destCore).buf.rd k = (s.core m.hdr.destCore).buf.rd k) ∧
        ∀ k, t.cluster k = s.cluster k) := by
  intro a
  obtain ⟨l, hl, -⟩ := s.received_withLink p m
  obtain ⟨l', hl', -⟩ := ((s.withLink l).landMsg p m).freed_withLink p m
  let u := (s.withLink l).landed p m
  have hkind : msgKind m = .token := if_neg (by omega)
  have hrd : ∀ x, u.rd x = s.rd x := (s.withLink l).landed_raw_rd p m hw hd
  have htok : u.fld (tokFld m.hdr.destCore m.hdr.token) = s.fld (tokFld m.hdr.destCore m.hdr.token) := congrArg (bvGet _ _) (hrd _)
  have hland : (s.withLink l).landMsg p m =
      u.setFld (tokFld m.hdr.destCore m.hdr.token) (s.fld (tokFld m.hdr.destCore m.hdr.token) + m.hdr.amount.toNat) := by
    rw [(s.withLink l).landMsg_adds (.inl he), hkind, ← htok]
    exact u.addSig_within (htok ▸ hlt)
  have hexec : exec (.tensorMessage p m) s = .next ((u.setFld (tokFld m.hdr.destCore m.hdr.token)
      (s.fld (tokFld m.hdr.destCore m.hdr.token) + m.hdr.amount.toNat)).withLink l') := by
    rw [exec_tensorMessage s hme hb, hl,
      State.checkMsg_lands (s.withLink l) ht hg hk hp (iff_of_false (by omega) hd) ha, hl', hland]
  refine ⟨_, hexec, ?_, fun x hx => ?_, ?_, ?_, ?_⟩
  · rw [State.withLink_fld]
    exact u.fld_setFld_sig _ _ .token hlt
  · rw [State.withLink_rd, State.setFld, State.rd_wr_ne _ _ fun h => hx (by rw [h]; exact List.mem_singleton_self _)]
    exact hrd x
  · rw [State.withLink_mem, State.setFld_mem]
    exact (s.withLink l).landed_raw_mem p m hw hd
  · rw [State.withLink_host, State.setFld_host]
    exact (s.withLink l).landed_raw_host p m hw hd
  · simp only [State.withLink_cluster, State.withLink_core, State.setFld_cluster, State.setFld_core]
    split
    · next hc =>
      obtain ⟨hcache, hcores⟩ := (s.withLink l).landed_raw_cache p m hw hd hc
      obtain ⟨hin, hout⟩ := (s.cluster (clusterOf m.hdr.destCore)).cache.wrBlk_reads a m.data
      rw [hcache]
      exact ⟨hin, hout, fun c => by rw [hcores]; rfl⟩
    · next hc =>
      obtain ⟨hbuf, hclusters⟩ := (s.withLink l).landed_raw_core p m hw hd hc
      obtain ⟨hin, hout⟩ := (s.core m.hdr.destCore).buf.wrBlk_reads a m.data
      rw [hbuf]
      exact ⟨hin, hout, hclusters⟩

/-! ### The hold area -/

/-- Flits freed in the buffer of a port change nothing of what waits, there or in the hold area. -/
theorem State.freeFlits_hold (p v n : Nat) : (s.freeFlits p v n).link.hold = s.link.hold := (rfl)
theorem State.port_modPort_same (p : Nat) (f : PortSt → PortSt) : (s.modPort p f).port p = f (s.port p) := NMap.get_set_same _ _ _ _
theorem State.freeFlits_blocked (p v n : Nat) : ((s.freeFlits p v n).port p).blocked = (s.port p).blocked := by
  rw [State.freeFlits, State.port_modPort_same]

@[simp] theorem State.refreshHold_link : s.refreshHold.link = s.link := State.each_keeps _ State.link _ _ fun t _ _ => t.setFld_link _ _
@[simp] theorem State.refreshHold_ctr (a : Nat) : s.refreshHold.ctr a = s.ctr a := State.each_keeps _ (·.ctr a) _ _ fun t _ _ => t.setFld_ctr _ _ a
theorem State.refreshHold_sameMemory : s.sameMemory s.refreshHold := State.each_sameMemory _ _ _ fun t _ => t.setFld_sameMemory _ _

/-- HOLD_USED is not the status of a port. -/
theorem State.refreshHold_fld {f : Fld} (h : ∀ q, (Fld.LNK_HOLD_USED_BYTES q).addr ≠ f.addr) : s.refreshHold.fld f = s.fld f :=
  State.each_keeps _ (·.fld f) _ _ fun t q _ => t.fld_setFld_addr _ _ _ (h q)

/-- The hold area with one message more. -/
def State.inHold (s : State) (p : PortId) (m : TensorMsg) : State := s.withLink { s.link with hold := s.link.hold ++ [⟨some p, m⟩] }

section
variable {p : PortId} {m : TensorMsg} (h : s.holdUsed + m.data.length ≤ 8388608)
include h

/-- A message that fits enters the hold area (R304). -/
theorem State.holdMsg_fits : s.holdMsg (some p) m =
    ((s.inHold p m).refreshHold.count (Ct.LNK_MSG_HELD p) 1).freeFlits p 2 (flitsFor m.bytes.length) := if_pos h

theorem State.holdMsg_hold : (s.holdMsg (some p) m).link.hold = s.link.hold ++ [⟨some p, m⟩] := by
  rw [s.holdMsg_fits h, State.freeFlits_hold, State.count_link, State.refreshHold_link]
  rfl

theorem State.holdMsg_ctr : (s.holdMsg (some p) m).ctr (Ct.LNK_MSG_HELD p) = (s.ctr (Ct.LNK_MSG_HELD p)).plus 1 := by
  rw [s.holdMsg_fits h, State.freeFlits, State.modPort_ctr, State.ctr_count_same, State.refreshHold_ctr]
  rfl

theorem State.holdMsg_sameMemory : s.sameMemory (s.holdMsg (some p) m) := by
  rw [s.holdMsg_fits h]
  exact State.sameMemory_trans (s.withLink_sameMemory _) (State.sameMemory_trans (State.refreshHold_sameMemory _)
    (State.sameMemory_trans (State.count_sameMemory _ _ _) (State.withLink_sameMemory _ _)))

theorem State.holdMsg_blocked : ((s.holdMsg (some p) m).port p).blocked = (s.port p).blocked := by
  rw [s.holdMsg_fits h, State.freeFlits_blocked, State.port, State.count_link, State.refreshHold_link]
  rfl

theorem State.holdMsg_full : (s.holdMsg (some p) m).fld (Fld.LNK_STATUS_HOLD_FULL p) = s.fld (Fld.LNK_STATUS_HOLD_FULL p) := by
  rw [s.holdMsg_fits h, State.freeFlits, State.modPort_fld, State.count_fld, State.refreshHold_fld _ fun q hq => ?_]
  · rfl
  · replace hq : 0x100000 + 0x10000 * q + 0x1c = 0x100000 + 0x10000 * p.val + 4 := hq
    omega

end

section
variable {p : Option PortId} {m : TensorMsg} (ht : s.tickState ≠ stDisabled)
include ht

/-- A message of the next tick goes to the hold area (R303, R304). -/
theorem State.checkMsg_next (hg : m.hdr.groupId.toNat = s.fld Fld.GARNET_GROUP_GROUP_ID) (hk : m.hdr.tick = s.tickNo + 1#32) :
    s.checkMsg p m = s.holdMsg p m := by
  have hnext : (m.hdr.tick - s.tickNo).toNat = 1 := by
    rw [hk]
    bv_omega
  unfold State.checkMsg
  dsimp only
  rw [if_neg ht, if_neg (not_not.mpr hg), if_pos hnext]

/-- A message of another group is discarded (R303). -/
theorem State.checkMsg_other (hg : m.hdr.groupId.toNat ≠ s.fld Fld.GARNET_GROUP_GROUP_ID) : s.checkMsg p m = (s.discardMsg p m.hdr 2).freed p m := by
  unfold State.checkMsg
  dsimp only
  rw [if_neg ht, if_pos hg]
  rfl

end

theorem exec_tensorMessage_held (p : PortId) (m : TensorMsg) (s : State) (hme : m.hdr.destMember.val = s.me) (hb : (s.port p).blocked = [])
    (ht : s.tickState ≠ stDisabled) (hg : m.hdr.groupId.toNat = s.fld Fld.GARNET_GROUP_GROUP_ID) (hk : m.hdr.tick = s.tickNo + 1#32)
    (hfit : s.holdUsed + m.data.length ≤ 8388608) :
    ∃ t, exec (.tensorMessage (some p) m) s = .next t ∧ t.link.hold = s.link.hold ++ [⟨some p, m⟩] ∧
      t.ctr (Ct.LNK_MSG_HELD p) = (s.ctr (Ct.LNK_MSG_HELD p)).plus 1 ∧ s.sameMemory t := by
  obtain ⟨l, hl, hhold⟩ := s.received_withLink (some p) m
  have hused : (s.withLink l).holdUsed = s.holdUsed := by rw [State.holdUsed, State.withLink_link, hhold]; rfl
  have hfit' : (s.withLink l).holdUsed + m.data.length ≤ 8388608 := hused ▸ hfit
  have hexec : exec (.tensorMessage (some p) m) s = .next ((s.withLink l).holdMsg (some p) m) := by
    rw [exec_tensorMessage s hme (fun q hq => Option.some.inj hq ▸ hb), hl, State.checkMsg_next (s.withLink l) ht hg hk]
  refine ⟨_, hexec, ?_, ?_, ?_⟩
  · rw [State.holdMsg_hold _ hfit', State.withLink_link, hhold]
  · rw [State.holdMsg_ctr _ hfit', State.withLink_ctr]
  · exact State.sameMemory_trans (s.withLink_sameMemory l) (State.holdMsg_sameMemory _ hfit')

/-- The state in which the first message that waited on a port has left it, and `rest` waits still. -/
def State.unblocked (s : State) (p : PortId) (rest : List HeldMsg) : State :=
  (s.modPort p fun x => { x with blocked := rest }).when (rest == []) fun s => s.setFld (Fld.LNK_STATUS_HOLD_FULL p) 0

section
variable (p : PortId) (rest : List HeldMsg)

theorem State.unblocked_link : (s.unblocked p rest).link = (s.modPort p fun x => { x with blocked := rest }).link :=
  State.when_keeps _ State.link _ _ (State.setFld_link _ _ _)

theorem State.unblocked_hold : (s.unblocked p rest).link.hold = s.link.hold := by
  rw [s.unblocked_link]
  rfl

theorem State.unblocked_blocked : ((s.unblocked p rest).port p).blocked = rest := by
  rw [State.port, s.unblocked_link]
  exact congrArg PortSt.blocked (s.port_modPort_same p _)

theorem State.unblocked_ctr (a : Nat) : (s.unblocked p rest).ctr a = s.ctr a :=
  (State.when_keeps _ (·.ctr a) _ _ (State.setFld_ctr _ _ _ _)).trans (s.modPort_ctr _ _ _)

theorem State.unblocked_sameMemory : s.sameMemory (s.unblocked p rest) :=
  State.sameMemory_trans (s.withLink_sameMemory _) (State.when_sameMemory _ _ (State.setFld_sameMemory _ _ _))

theorem State.unblocked_full : (s.unblocked p []).fld (Fld.LNK_STATUS_HOLD_FULL p) = 0 := by
  have h : s.unblocked p [] = (s.modPort p fun x => { x with blocked := [] }).setFld (Fld.LNK_STATUS_HOLD_FULL p) 0 := State.when_true _ _
  rw [h, State.fld_setFld_same _ _ _ (show 6 + 1 ≤ 32 by decide)]
  rfl

end

theorem exec_holdAreaMove_moves (p : PortId) (m : HeldMsg) (rest : List HeldMsg) (s : State) (hb : (s.port p).blocked = m :: rest)
    (hfit : s.holdUsed + m.msg.data.length ≤ 8388608) (hp : m.port = some p) :
    ∃ t, exec (.holdAreaMove p) s = .next t ∧ (t.port p).blocked = rest ∧ t.link.hold = s.link.hold ++ [m] ∧
      t.ctr (Ct.LNK_MSG_HELD p) = (s.ctr (Ct.LNK_MSG_HELD p)).plus 1 ∧ (rest = [] → t.fld (Fld.LNK_STATUS_HOLD_FULL p) = 0) ∧ s.sameMemory t := by
  obtain ⟨port, msg⟩ := m
  obtain rfl : port = some p := hp
  have hexec : exec (.holdAreaMove p) s = .next ((s.unblocked p rest).holdMsg (some p) msg) := by
    show execHoldAreaMove p s = _
    unfold execHoldAreaMove
    rw [hb]
    exact congrArg _ (if_pos hfit)
  have hfit' : (s.unblocked p rest).holdUsed + msg.data.length ≤ 8388608 := by
    rw [State.holdUsed, s.unblocked_hold]
    exact hfit
  refine ⟨_, hexec, ?_, ?_, ?_, fun hr => ?_, ?_⟩
  · rw [State.holdMsg_blocked _ hfit', s.unblocked_blocked]
  · rw [State.holdMsg_hold _ hfit', s.unblocked_hold]
  · rw [State.holdMsg_ctr _ hfit', s.unblocked_ctr]
  · rw [State.holdMsg_full _ hfit', hr, s.unblocked_full]
  · exact State.sameMemory_trans (s.unblocked_sameMemory p rest) (State.holdMsg_sameMemory _ hfit')

/-! ### Discarding and forwarding -/

section
variable (p : PortId) (m : TensorMsg)

theorem State.discardMsg_ctr (n : Nat) : (s.discardMsg (some p) m.hdr n).ctr (Ct.LNK_MSG_DISCARDED p) = (s.ctr (Ct.LNK_MSG_DISCARDED p)).plus 1 := by
  have h : Ct.JSP_INTAKE_DROPS ≠ Ct.LNK_MSG_DISCARDED p := by
    unfold Ct.JSP_INTAKE_DROPS Ct.LNK_MSG_DISCARDED
    omega
  exact (State.jasper_ctr_ne _ _ _ _ _ h).trans (s.ctr_count_same _ _)

theorem State.discardMsg_told (n : Nat) :
    (s.discardMsg (some p) m.hdr n).told .msgDiscarded p (m.hdr.srcMember + 2 ^ 16 * m.hdr.srcCore.val) n := State.jasper_told _ _ _ _ _

theorem State.discardMsg_rd (n a : Nat) : (s.discardMsg (some p) m.hdr n).rd a = s.rd a := State.jasper_rd _ _ _ _ _ _

theorem State.discardMsg_sameMemory (n : Nat) : s.sameMemory (s.discardMsg (some p) m.hdr n) :=
  State.sameMemory_trans (s.count_sameMemory _ _) (State.jasper_sameMemory _ _ _ _ _)

end

theorem exec_tensorMessage_discards (p : PortId) (m : TensorMsg) (s : State) (hme : m.hdr.destMember.val = s.me) (hb : (s.port p).blocked = [])
    (ht : s.tickState ≠ stDisabled) (hg : m.hdr.groupId.toNat ≠ s.fld Fld.GARNET_GROUP_GROUP_ID) :
    ∃ t, exec (.tensorMessage (some p) m) s = .next t ∧ t.ctr (Ct.LNK_MSG_DISCARDED p) = (s.ctr (Ct.LNK_MSG_DISCARDED p)).plus 1 ∧
      t.told .msgDiscarded p (m.hdr.srcMember + 2 ^ 16 * m.hdr.srcCore.val) 2 ∧ s.sameRegs t [] ∧ s.sameMemory t := by
  obtain ⟨l, hl, -⟩ := s.received_withLink (some p) m
  obtain ⟨l', hl', -⟩ := ((s.withLink l).discardMsg (some p) m.hdr 2).freed_withLink (some p) m
  have hexec : exec (.tensorMessage (some p) m) s = .next (((s.withLink l).discardMsg (some p) m.hdr 2).withLink l') := by
    rw [exec_tensorMessage s hme (fun q hq => Option.some.inj hq ▸ hb), hl, State.checkMsg_other (s.withLink l) ht hg, hl']
  refine ⟨_, hexec, ?_, ?_, fun a _ => ?_, ?_⟩
  · rw [State.withLink_ctr, State.discardMsg_ctr, State.withLink_ctr]
  · rw [State.told, State.withLink_lastEvent]
    exact State.discardMsg_told _ p m 2
  · rw [State.withLink_rd, State.discardMsg_rd, State.withLink_rd]
  · exact State.sameMemory_trans (State.sameMemory_trans (s.withLink_sameMemory l) (State.discardMsg_sameMemory _ p m 2)) (State.withLink_sameMemory _ l')

/-- The state in which a message that goes on has left the buffer of its port. -/
def State.passing (s : State) (p : PortId) (m : TensorMsg) : State :=
  (s.takeArrived p 2 fun bs => TensorMsg.ofBytes bs == m).freeFlits p 2 (flitsFor m.bytes.length)

section
variable (p : PortId) (m : TensorMsg)

theorem State.passing_withLink : ∃ l, s.passing p m = s.withLink l := by
  obtain ⟨ps, h⟩ := s.takeArrived_withLink p 2 fun bs => TensorMsg.ofBytes bs == m
  exact ⟨_, by rw [State.passing, h]; rfl⟩

theorem State.modPort_sends (f : PortSt → PortSt) (h : ∀ x, (f x).queue = x.queue ∧ (f x).unacked = x.unacked ∧ (f x).credits 2 = x.credits 2) (q : Nat) :
    ((s.modPort p f).port q).queue = (s.port q).queue ∧ ((s.modPort p f).port q).unacked = (s.port q).unacked ∧
      ((s.modPort p f).port q).credits 2 = (s.port q).credits 2 := by
  by_cases hpq : p.val = q
  · subst hpq
    rw [State.port_modPort_same]
    exact h _
  · have hne : (s.modPort p f).port q = s.port q := NMap.get_set_ne _ _ _ _ hpq
    rw [hne]
    exact ⟨rfl, rfl, rfl⟩

/-- A message that is taken out of a port's buffer changes nothing of what the ports send. -/
theorem State.passing_sends (q : Nat) : ((s.passing p m).port q).queue = (s.port q).queue ∧ ((s.passing p m).port q).unacked = (s.port q).unacked ∧
    ((s.passing p m).port q).credits 2 = (s.port q).credits 2 := by
  have htake : ((s.takeArrived p 2 fun bs => TensorMsg.ofBytes bs == m).port q).queue = (s.port q).queue ∧
      ((s.takeArrived p 2 fun bs => TensorMsg.ofBytes bs == m).port q).unacked = (s.port q).unacked ∧
      ((s.takeArrived p 2 fun bs => TensorMsg.ofBytes bs == m).port q).credits 2 = (s.port q).credits 2 := by
    unfold State.takeArrived
    split
    · next a _ => exact s.modPort_sends p (fun x => { x with arrived := x.arrived.erase a }) (fun x => ⟨rfl, rfl, rfl⟩) q
    · exact ⟨rfl, rfl, rfl⟩
  obtain ⟨hq, hu, hc⟩ := htake
  obtain ⟨hq', hu', hc'⟩ := (s.takeArrived p 2 fun bs => TensorMsg.ofBytes bs == m).modPort_sends p
    (fun x => { x with freed := NMap.set 0 x.freed 2 (NMap.get 0 x.freed 2 + flitsFor m.bytes.length), owed := 3 }) (fun x => ⟨rfl, rfl, rfl⟩) q
  exact ⟨hq'.trans hq, hu'.trans hu, hc'.trans hc⟩

theorem State.passing_keepsMsg {q : Nat} (h : s.keepsMsg q) : (s.passing p m).keepsMsg q := by
  obtain ⟨hq, hu, hc⟩ := s.passing_sends p m q
  have hquiet : (s.passing p m).linksQuiet = s.linksQuiet := by
    obtain ⟨l, hl⟩ := s.passing_withLink p m
    rw [hl]
    rfl
  unfold State.keepsMsg at h ⊢
  rwa [hquiet, hq, hu, hc]

end

/-- A message with one more hop (R302). -/
def hopped (m : TensorMsg) : TensorMsg := { m with hdr := { m.hdr with hops := m.hdr.hops + 1#8 } }

/-- What MESSAGE_FORWARD makes of a message that has left its port's buffer. -/
def State.passOnMsg (s : State) (p : PortId) (m : TensorMsg) : State :=
  if 32 < m.hdr.hops.toNat + 1 then s.discardMsg (some p) m.hdr 0
  else match s.routeOn m.hdr.destMember (some (bundleOf p)) with
    | some b => s.putBundle b (mkTx 2 (hopped m).bytes)
    | none => (s.count (Ct.LNK_MSG_DISCARDED p) 1).jasper .routeNone m.hdr.destMember 0 0

theorem State.putBundle_sameMemory (b : Bundle) (x : TxMsg) : s.sameMemory (s.putBundle b x) :=
  State.sameMemory_of_parts (linkBlind_mem.putBundle s b x) (linkBlind_host.putBundle s b x) (linkBlind_boot.putBundle s b x)
    (linkBlind_cores.putBundle s b x) (linkBlind_clusters.putBundle s b x)

section
variable (p : PortId) (m : TensorMsg)

theorem State.passOnMsg_sameMemory : s.sameMemory (s.passOnMsg p m) := by
  unfold State.passOnMsg
  split
  · exact s.discardMsg_sameMemory p m 0
  · split
    · exact s.putBundle_sameMemory _ _
    · exact State.sameMemory_trans (s.count_sameMemory _ _) (State.jasper_sameMemory _ _ _ _ _)

theorem State.passOnMsg_spent (h : 32 ≤ m.hdr.hops.toNat) : s.passOnMsg p m = s.discardMsg (some p) m.hdr 0 := if_pos (by omega)

theorem State.passOnMsg_lost (h : m.hdr.hops.toNat < 32) (hr : s.routeOn m.hdr.destMember (some (bundleOf p)) = none) :
    s.passOnMsg p m = (s.count (Ct.LNK_MSG_DISCARDED p) 1).jasper .routeNone m.hdr.destMember 0 0 := by
  rw [State.passOnMsg, if_neg (by omega), hr]

theorem State.passOnMsg_queue {b : Bundle} {q : Nat} (h : m.hdr.hops.toNat < 32) (hr : s.routeOn m.hdr.destMember (some (bundleOf p)) = some b)
    (hq : s.pickPort (s.liveOf b) = some q) (hk : s.keepsMsg q) :
    ((s.passOnMsg p m).port q).queue = (s.port q).queue ++ [mkTx 2 (hopped m).bytes] := by
  rw [State.passOnMsg, if_neg (by omega), hr]
  dsimp only
  rw [State.putBundle, hq]
  exact s.putPort_queue hk _

end

theorem exec_messageForward_passes (p : PortId) (m : TensorMsg) (s : State) (hme : m.hdr.destMember.val ≠ s.me) (hb : (s.port p).blocked = []) :
    let s1 := (s.takeArrived p 2 fun bs => TensorMsg.ofBytes bs == m).freeFlits p 2 (flitsFor m.bytes.length)
    ∃ t, exec (.messageForward p (.tensor m)) s = .next t ∧ s.sameMemory t ∧
      (32 ≤ m.hdr.hops.toNat → t.ctr (Ct.LNK_MSG_DISCARDED p) = (s.ctr (Ct.LNK_MSG_DISCARDED p)).plus 1 ∧
        t.told .msgDiscarded p (m.hdr.srcMember + 2 ^ 16 * m.hdr.srcCore.val) 0) ∧
      (m.hdr.hops.toNat < 32 → s1.routeOn m.hdr.destMember (some (bundleOf p)) = none →
        t.ctr (Ct.LNK_MSG_DISCARDED p) = (s.ctr (Ct.LNK_MSG_DISCARDED p)).plus 1 ∧ t.told .routeNone m.hdr.destMember 0 0) ∧
      (∀ b q, m.hdr.hops.toNat < 32 → s1.routeOn m.hdr.destMember (some (bundleOf p)) = some b → s1.pickPort (s1.liveOf b) = some q →
        (s.linksQuiet = true ∨ 1024 ≤ (s.port q).unacked.length ∨ (s.port q).queue = [] ∧ (s.port q).credits 2 = 0) →
        (t.port q).queue = (s.port q).queue ++ [mkTx 2 { m with hdr := { m.hdr with hops := m.hdr.hops + 1#8 } }.bytes]) := by
  intro s1
  have hexec : exec (.messageForward p (.tensor m)) s = .next ((s.passing p m).passOnMsg p m) := by
    show execMessageForward p (.tensor m) s = _
    unfold execMessageForward
    exact congrArg _ (if_neg (not_or.mpr ⟨hme, not_not.mpr hb⟩))
  obtain ⟨l, hl⟩ := s.passing_withLink p m
  have hctr : (s.passing p m).ctr (Ct.LNK_MSG_DISCARDED p) = s.ctr (Ct.LNK_MSG_DISCARDED p) := by rw [hl, State.withLink_ctr]
  have hmem : s.sameMemory (s.passing p m) := hl ▸ s.withLink_sameMemory l
  refine ⟨_, hexec, State.sameMemory_trans hmem (State.passOnMsg_sameMemory _ p m), fun hh => ?_, fun hh hr => ?_, fun b q hh hr hq hk => ?_⟩
  · rw [State.passOnMsg_spent (s.passing p m) p m hh, State.discardMsg_ctr, hctr]
    exact ⟨rfl, State.discardMsg_told _ p m 0⟩
  · have hne : Ct.JSP_INTAKE_DROPS ≠ Ct.LNK_MSG_DISCARDED p := by
      unfold Ct.JSP_INTAKE_DROPS Ct.LNK_MSG_DISCARDED
      omega
    rw [State.passOnMsg_lost (s.passing p m) p m hh hr, State.jasper_ctr_ne _ _ _ _ _ hne, State.ctr_count_same, hctr]
    exact ⟨rfl, State.jasper_told _ _ _ _ _⟩
  · rw [State.passOnMsg_queue (s.passing p m) p m hh hr hq (s.passing_keepsMsg p m hk), (s.passing_sends p m q).1]
    rfl

/-- Behind a message that waits for the hold area every other waits too (R304). -/
theorem exec_behind_blocked (p : PortId) (m : TensorMsg) (s : State) (hb : (s.port p).blocked ≠ []) :
    exec (.messageForward p (.tensor m)) s = .next s ∧ (m.hdr.destMember.val = s.me → exec (.tensorMessage (some p) m) s = .next s) := by
  refine ⟨?_, fun hme => ?_⟩
  · show execMessageForward p (.tensor m) s = _
    unfold execMessageForward
    exact congrArg _ (if_pos (.inr hb))
  · show execTensorMessage (some p) m s = _
    unfold execTensorMessage
    rw [if_neg (not_not.mpr hme)]
    exact congrArg _ (if_pos hb)

/-- Settles O36: what comes of a message is said by its member, its group, its tick and what waits before it. -/
theorem messagesAreDelivered : Obligations.MessagesAreDelivered :=
  ⟨exec_tensorMessage_lands, exec_tensorMessage_held, exec_tensorMessage_discards, exec_holdAreaMove_moves, exec_messageForward_passes,
    exec_behind_blocked⟩

end Sys2Proof.Machine
end

section
/-! PROOFS. A member that falls silent, leaves or is reported lost stops the group (R36, R54, R317 to R321, R325, R327). -/

namespace Sys2Proof.Machine

variable (s : State)

/-! ### What telling of a loss leaves alone -/

/-- Registers and counters that telling of a loss may change: the partitions' blocks, the count of free pages, the open rings and columns, the count of
reset requests, the ports' blocks and the memory-side dies' (R440). -/
def lossAside (a : Nat) : Prop :=
  0x41000 ≤ a ∧ a < 0x42000 ∨ a = 0x50044 ∨ 0x80010 ≤ a ∧ a < 0x80018 ∨ a = 0x80028 ∨ 0x100000 ≤ a ∧ a < 0x200000 ∨ 0x09000000 ≤ a

/-- `P` says nothing of the links' own state, the hosts' queues and memory, the recorder's intake and what has left the device, nor of the registers
and counters aside. -/
structure TellBlind {β : Type} (P : State → β) : Prop where
  link : ∀ (s : State) l, P (s.withLink l) = P s
  out : ∀ (s : State) e, P (s.out e) = P s
  hostq : ∀ (s : State) q, P { s with hostq := q } = P s
  hostWrite : ∀ (s : State) a bs, P (s.hostWrite a bs) = P s
  jasper : ∀ (s : State) e u d0 d1, P (s.jasper e u d0 d1) = P s
  count : ∀ (s : State) a n, lossAside a → P (s.count a n) = P s
  setFld : ∀ (s : State) f v, lossAside f.addr → P (s.setFld f v) = P s

namespace TellBlind

variable {β : Type} {P : State → β} (h : TellBlind P)
include h

theorem linkBlind : LinkBlind P where
  link := h.link
  out := h.out
  count s a n hl hh := h.count s a n (by unfold lossAside; omega)
  setFld s f v hl hh := h.setFld s f v (by unfold lossAside; omega)

theorem sendMgmt (m : MgmtMsg) : P (s.sendMgmt m) = P s := h.linkBlind.sendMgmt s (fun t _ => h.jasper t _ _ _ _) m

theorem tell (ms : List Nat) (kind : Nat) (payload : List Byte) : P (s.tell ms kind payload) = P s :=
  State.each_keeps _ P _ _ fun t _ _ => h.sendMgmt t _

theorem sendMsix (v : Nat) : P (s.sendMsix v) = P s := by
  unfold State.sendMsix
  dsimp only
  split
  · exact h.hostq s _
  · exact h.out s _

theorem signalVector (v : Nat) : P (s.signalVector v) = P s := by
  unfold State.signalVector
  dsimp only
  split
  · exact (h.sendMsix _ v).trans (h.hostq s _)
  · exact h.hostq s _

/-- A word of a partition's block is one aside. -/
theorem setPart {p o : Nat} (hp : p < 16) (ho : o < 0x100) (lo w v : Nat) : P (s.setFld ⟨(0x41000 + 0x100 * p) + o, lo, w⟩ v) = P s :=
  h.setFld s _ v (by unfold lossAside; dsimp only; omega)

theorem writeEvent {p : Nat} (hp : p < 16) (bs : List Byte) : P (s.writeEvent p bs) = P s := by
  unfold State.writeEvent
  dsimp only
  exact (State.when_keeps _ P _ _ (h.signalVector _ _)).trans
    ((h.hostWrite _ _ _).trans ((h.setPart _ hp (o := 0x30) (by decide) _ _ _).trans (h.hostWrite _ _ _)))

theorem postEvent {p : Nat} (hp : p < 16) (type object session detail : Nat) (payload : List Byte) :
    P (s.postEvent p type object session detail payload) = P s := by
  unfold State.postEvent
  split
  · rfl
  · split
    · exact (h.hostq _ _).trans ((h.setPart _ hp (o := 4) (by decide) _ _ _).trans
        (h.count _ _ _ (by unfold lossAside Ct.PARTN_EVENTS_LOST; omega)))
    · exact h.writeEvent s hp _

theorem postAll (type object session detail : Nat) (payload : List Byte) : P (s.postAll type object session detail payload) = P s :=
  State.each_keeps _ P _ _ fun t _ hp => h.postEvent t (List.mem_range.mp (List.mem_of_mem_filter hp)) _ _ _ _ _

theorem refreshOpen : P s.refreshOpen = P s :=
  (h.setFld _ _ _ (show lossAside 0x80014 from .inr (.inr (.inl (by decide))))).trans (h.setFld _ _ _ (show lossAside 0x80010 from .inr (.inr (.inl (by decide)))))

theorem recountPages : P s.recountPages = P s := h.setFld _ _ _ (.inr (.inl rfl))

theorem releaseHeld (hh : ∀ (t : State) l, P { t with held := l } = P t) (keep : Nat → Bool) : P (s.releaseHeld keep) = P s := by
  unfold State.releaseHeld
  dsimp only
  refine (h.recountPages _).trans ((State.each_keeps _ P _ _ fun t p hp => ?_).trans (hh s _))
  have hp16 : p < 16 := List.mem_range.mp hp
  exact (State.when_keeps _ P _ _ (h.setPart _ hp16 (o := 0x30) (by decide) _ _ _)).trans
    (State.when_keeps _ P _ _ (h.setPart _ hp16 (o := 0x14) (by decide) _ _ _))

theorem startRelink (m : Nat) (bs : List Bundle) : P (s.startRelink m bs) = P s := h.link s _

theorem requestReset (m : Nat) (bs : List Bundle) : P (s.requestReset m bs) = P s := by
  have hc : lossAside Ct.TOPO_RESET_REQUESTS := .inr (.inr (.inr (.inl rfl)))
  unfold State.requestReset
  split
  · rfl
  · dsimp only
    refine (State.when_keeps _ P _ _ ((h.startRelink _ _ _).trans (h.jasper _ _ _ _ _))).trans
      ((State.when_keeps _ P _ _ ((h.count _ _ _ hc).trans (h.out _ _))).trans ?_)
    split
    · exact (h.count _ _ _ hc).trans (h.linkBlind.putBundle s _ _)
    · rfl

end TellBlind

/-! ### Views that telling of a loss leaves alone -/

theorem tellBlind_fld {f : Fld} (h : ¬ lossAside f.addr) : TellBlind fun s => s.fld f where
  link _ _ := rfl
  out _ _ := rfl
  hostq _ _ := rfl
  hostWrite _ _ _ := rfl
  jasper s _ _ _ _ := s.jasper_fld _ _ _ _ f
  count _ _ _ _ := rfl
  setFld s _ v hg := s.fld_setFld_addr _ _ v fun e => h (e ▸ hg)

theorem tellBlind_losses : TellBlind fun s => s.ctr Ct.TOPO_LOSSES where
  link _ _ := rfl
  out _ _ := rfl
  hostq _ _ := rfl
  hostWrite _ _ _ := rfl
  jasper s _ _ _ _ := s.jasper_ctr_ne _ _ _ _ (by decide)
  count s a n ha := s.ctr_count_ne n fun e => by
    subst e
    unfold lossAside Ct.TOPO_LOSSES at ha
    omega
  setFld _ _ _ _ := rfl

theorem tellBlind_held : TellBlind State.held :=
  ⟨fun _ _ => rfl, fun _ _ => rfl, fun _ _ => rfl, fun _ _ _ => rfl, fun _ _ _ _ _ => State.jasper_held _ _ _ _ _, fun _ _ _ _ => rfl, fun _ _ _ _ => rfl⟩
theorem tellBlind_now : TellBlind State.now :=
  ⟨fun _ _ => rfl, fun _ _ => rfl, fun _ _ => rfl, fun _ _ _ => rfl, fun _ _ _ _ _ => State.jasper_now _ _ _ _ _, fun _ _ _ _ => rfl, fun _ _ _ _ => rfl⟩
theorem tellBlind_flights : TellBlind State.flights :=
  ⟨fun _ _ => rfl, fun _ _ => rfl, fun _ _ => rfl, fun _ _ _ => rfl, fun _ _ _ _ _ => State.jasper_flights _ _ _ _ _, fun _ _ _ _ => rfl, fun _ _ _ _ => rfl⟩
theorem tellBlind_mem : TellBlind State.mem :=
  ⟨fun _ _ => rfl, fun _ _ => rfl, fun _ _ => rfl, fun _ _ _ => rfl, fun _ _ _ _ _ => State.jasper_mem _ _ _ _ _, fun _ _ _ _ => rfl, fun _ _ _ _ => rfl⟩
theorem tellBlind_boot : TellBlind State.boot :=
  ⟨fun _ _ => rfl, fun _ _ => rfl, fun _ _ => rfl, fun _ _ _ => rfl, fun _ _ _ _ _ => State.jasper_boot _ _ _ _ _, fun _ _ _ _ => rfl, fun _ _ _ _ => rfl⟩

/-! ### The parts of a loss -/

/-- A member taken out of the membership set, which is in force at once. -/
def State.unlisted (s : State) (m : Nat) : State :=
  let w := s.fld (Fld.GARNET_MEMBERS_MEMBER (m / 32))
  let s := s.setFld (Fld.GARNET_MEMBERS_MEMBER (m / 32)) (if w.testBit (m % 32) then w - 2 ^ (m % 32) else w)
  { s with held := NMap.del (NMap.del s.held (Rg.GARNET_MEMBERS (m / 32))) Rg.GARNET_CTRL }

/-- A member marked lost and taken out of the membership, and the group stopped (R317). -/
def State.lossMarked (s : State) (m : Nat) : State :=
  let s := { s with garnet := { s.garnet with before := if s.garnet.before = [] then s.group else s.garnet.before } }.setMState m 1
  (s.unlisted m).setFld Fld.GARNET_CTRL_ENABLE 0

/-- A thermal withhold ends with the group (R325). -/
def State.withholdEnds (s : State) : State :=
  let autos := (List.range 12).filter fun st => s.fld (Fld.STK_THERM_WITHHOLD_AUTO st) == 1
  s.when (autos != []) fun s => (s.each autos fun s st => s.setFld (Fld.STK_THERM_WITHHOLD_AUTO st) 0).setFld Fld.GARNET_CTRL_WITHHOLD 0

/-- The plane, the twin and the hosts told of a loss (R321, R322, R352). -/
def State.lossTold (s : State) (m : Nat) (payload : List Byte) : State :=
  let s := s.tell s.livePlane 0x01 payload
  let s := s.when (s.fld Fld.TOPO_SHAPE_TWIN == 1) fun s => s.sendMgmt
    { s.mgmtTo 0 0x05 (leBytes 4 (s.fld Fld.GARNET_GROUP_GROUP_ID + 2 ^ 16 * m) ++ leBytes 4 s.garnet.lastCommit.toNat) with twin := true }
  s.postAll 0x06 0xFFFF 0xFFFF m payload

/-- The loss in the device's own registers, counter and recorder (R327, R421). -/
def State.lossNoted (s : State) (m cause : Nat) (last : BitVec 32) : State :=
  let s := ((s.setFld Fld.TOPO_LAST_LOSS_MEMBER m).setFld Fld.TOPO_LAST_LOSS_CAUSE cause).setFld Fld.TOPO_LAST_LOSS_TICK_TICK last.toNat
  (s.count Ct.TOPO_LOSSES 1).jasper .memberLost m cause last.toNat

/-- A running step is abandoned, and a done one is the group's last. -/
def State.lossEnds (s : State) : State :=
  if s.tickState = stRunning then s.abandonStep false
  else if s.tickState = stDone then (s.releaseHeld (toTickIf false)).setFld Fld.GARNET_STATUS_STATE stDisabled
  else s

theorem State.memberLost_eq (m cause : Nat) : s.memberLost m cause =
    (((s.lossMarked m).withholdEnds.lossTold m (leBytes 4 (m + 2 ^ 9 * cause) ++ leBytes 4 (s.lastTick m).toNat ++ List.replicate 8 0#8)).lossNoted
      m cause (s.lastTick m)).lossEnds := rfl

theorem State.withholdEnds_keeps {β : Type} {P : State → β} (h : TellBlind P) (hw : ∀ t : State, P (t.setFld Fld.GARNET_CTRL_WITHHOLD 0) = P t) :
    P s.withholdEnds = P s := by
  unfold State.withholdEnds
  refine State.when_keeps _ P _ _ ((hw _).trans (State.each_keeps _ P _ _ fun t st _ => h.setFld _ _ _ ?_))
  unfold lossAside Fld.STK_THERM_WITHHOLD_AUTO stackBase memDieBase
  dsimp only
  omega

theorem State.lossTold_keeps {β : Type} {P : State → β} (h : TellBlind P) (m : Nat) (payload : List Byte) : P (s.lossTold m payload) = P s :=
  (h.postAll _ _ _ _ _ _).trans ((State.when_keeps _ P _ _ (h.sendMgmt _ _)).trans (h.tell s _ _ _))

section
variable {β : Type} {P : State → β} (h : TellBlind P) (hh : ∀ (t : State) l, P { t with held := l } = P t)
include h

include hh in
theorem State.lossMarked_keeps (m : Nat) (hg : ∀ (t : State) g, P { t with garnet := g } = P t)
    (hs : ∀ (t : State) f v, f.addr = Rg.TOPO_MEMBER_STATE (m / 16) ∨ f.addr = Rg.GARNET_MEMBERS (m / 32) ∨ f.addr = Rg.GARNET_CTRL → P (t.setFld f v) = P t) :
    P (s.lossMarked m) = P s :=
  (hs _ _ _ (.inr (.inr rfl))).trans ((hh _ _).trans ((hs _ _ _ (.inr (.inl rfl))).trans
    ((h.refreshOpen _).trans ((hs _ _ _ (.inl rfl)).trans (hg s _)))))

theorem State.lossNoted_keeps (m cause : Nat) (last : BitVec 32)
    (hs : ∀ (t : State) f v, f.addr = Rg.TOPO_LAST_LOSS ∨ f.addr = Rg.TOPO_LAST_LOSS_TICK → P (t.setFld f v) = P t)
    (hc : ∀ t : State, P (t.count Ct.TOPO_LOSSES 1) = P t) : P (s.lossNoted m cause last) = P s :=
  (h.jasper _ _ _ _ _).trans ((hc _).trans ((hs _ _ _ (.inr rfl)).trans ((hs _ _ _ (.inl rfl)).trans (hs _ _ _ (.inl rfl)))))

include hh in
theorem State.lossEnds_keeps (hstop : ∀ (t : State), P (t.stopAll false) = P t)
    (hk : ∀ (t : State) k, P (t.setFld (Fld.GUARD_STATUS_RERUN_ACTIVE k) 0) = P t)
    (hs : ∀ (t : State) v, P (t.setFld Fld.GARNET_STATUS_STATE v) = P t) : P s.lossEnds = P s := by
  unfold State.lossEnds
  split
  · exact s.abandonStep_keeps_of P false (hstop s) hk fun t _ _ => h.jasper t _ _ _ _
  · split
    · exact (hs _ _).trans (h.releaseHeld s hh _)
    · rfl
end

@[simp] theorem State.stopAll_now (b : Bool) : (s.stopAll b).now = s.now := by simp [State.stopAll]

/-! ### Registers through a loss -/

theorem State.lossMarked_fld {m : Nat} {f : Fld} (ha : ¬ lossAside f.addr) (h1 : f.addr ≠ Rg.TOPO_MEMBER_STATE (m / 16))
    (h2 : f.addr ≠ Rg.GARNET_MEMBERS (m / 32)) (h3 : f.addr ≠ Rg.GARNET_CTRL) : (s.lossMarked m).fld f = s.fld f :=
  s.lossMarked_keeps (tellBlind_fld ha) (fun _ _ => rfl) m (fun _ _ => rfl) fun t g v hg => t.fld_setFld_addr g f v fun e => by
    rw [e] at hg
    exact hg.elim h1 (·.elim h2 h3)

theorem State.lossNoted_fld {m cause : Nat} {last : BitVec 32} {f : Fld} (ha : ¬ lossAside f.addr) (h1 : f.addr ≠ Rg.TOPO_LAST_LOSS)
    (h2 : f.addr ≠ Rg.TOPO_LAST_LOSS_TICK) : (s.lossNoted m cause last).fld f = s.fld f :=
  s.lossNoted_keeps (tellBlind_fld ha) m cause last (fun t g v hg => t.fld_setFld_addr g f v fun e => by
    rw [e] at hg
    exact hg.elim h1 h2) fun _ => rfl

theorem State.lossEnds_fld {f : Fld} (ha : ¬ lossAside f.addr) (hs : f.addr ≠ Rg.GARNET_STATUS) (hk : f.addr < 0x100000) :
    s.lossEnds.fld f = s.fld f :=
  s.lossEnds_keeps (tellBlind_fld ha) (fun _ _ => rfl) (fun t => congrArg (bvGet _ _) (t.stopAll_rd false hs))
    (fun t k => t.fld_setFld_addr _ _ _ fun e => by
      have hg : (Fld.GUARD_STATUS_RERUN_ACTIVE k).addr = Rg.GUARD_STATUS k := rfl
      rw [← e, hg] at hk
      unfold Rg.GUARD_STATUS clusterBase at hk
      omega)
    fun t v => t.fld_setFld_addr _ _ _ fun e => hs e.symm

/-- The state of a loss after the telling and the noting: the registers that neither writes are those of the mark. -/
theorem State.lossTold_fld {f : Fld} (ha : ¬ lossAside f.addr) (hw : f.addr ≠ Rg.GARNET_CTRL ∨ f.lo + f.w ≤ 2) (m : Nat) (payload : List Byte) :
    (s.withholdEnds.lossTold m payload).fld f = s.fld f :=
  (State.lossTold_keeps _ (tellBlind_fld ha) m payload).trans
    (s.withholdEnds_keeps (tellBlind_fld ha) fun t => t.fld_setFld_apart _ (hw.imp (fun h e => h e.symm) fun h => .inl h))

/-- What a loss does to a device: `t` is `s` after member `m` was declared lost. -/
structure State.lost (s t : State) (m cause : Nat) : Prop where
  state : t.mState m = 1
  enable : t.fld Fld.GARNET_CTRL_ENABLE = 0
  held : NMap.find t.held Rg.GARNET_CTRL = none
  member : (t.fld (Fld.GARNET_MEMBERS_MEMBER (m / 32))).testBit (m % 32) = false
  lastMember : t.fld Fld.TOPO_LAST_LOSS_MEMBER = m
  lastCause : t.fld Fld.TOPO_LAST_LOSS_CAUSE = cause
  lastTick : t.fld Fld.TOPO_LAST_LOSS_TICK_TICK = (s.lastTick m).toNat
  losses : t.ctr Ct.TOPO_LOSSES = (s.ctr Ct.TOPO_LOSSES).plus 1
  running : s.tickState = stRunning → t.tickState = stAbandoning ∧ t.flights = []
  done : s.tickState = stDone → t.tickState = stDisabled
  mem : t.mem = s.mem
  boot : t.boot = s.boot

section
variable (m cause : Nat)

/-- A register that neither the telling, the noting nor the end of a loss writes. -/
theorem State.memberLost_fld {f : Fld} (ha : ¬ lossAside f.addr) (hw : f.addr ≠ Rg.GARNET_CTRL ∨ f.lo + f.w ≤ 2) (h1 : f.addr ≠ Rg.TOPO_LAST_LOSS)
    (h2 : f.addr ≠ Rg.TOPO_LAST_LOSS_TICK) (hs : f.addr ≠ Rg.GARNET_STATUS) (hk : f.addr < 0x100000) :
    (s.memberLost m cause).fld f = (s.lossMarked m).fld f := by
  rw [s.memberLost_eq, State.lossEnds_fld _ ha hs hk, State.lossNoted_fld _ ha h1 h2, State.lossTold_fld _ ha hw]

theorem State.memberLost_keeps_of {β : Type} {P : State → β} (h : TellBlind P) (hg : ∀ (t : State) g, P { t with garnet := g } = P t)
    (hh : ∀ (t : State) l, P { t with held := l } = P t) (hs : ∀ (t : State) f v, P (t.setFld f v) = P t)
    (hc : ∀ t : State, P (t.count Ct.TOPO_LOSSES 1) = P t) (hstop : ∀ t : State, P (t.stopAll false) = P t) : P (s.memberLost m cause) = P s := by
  rw [s.memberLost_eq]
  exact (State.lossEnds_keeps _ h hh hstop (fun t _ => hs t _ _) fun t v => hs t _ v).trans
    ((State.lossNoted_keeps _ h _ _ _ (fun t f v _ => hs t f v) hc).trans ((State.lossTold_keeps _ h _ _).trans
      ((State.withholdEnds_keeps _ h fun t => hs t _ _).trans (s.lossMarked_keeps h hh m hg fun t f v _ => hs t f v))))

theorem State.memberLost_mem : (s.memberLost m cause).mem = s.mem :=
  s.memberLost_keeps_of m cause tellBlind_mem (fun _ _ => rfl) (fun _ _ => rfl) (fun _ _ _ => rfl) (fun _ => rfl) fun t => t.stopAll_mem false
theorem State.memberLost_boot : (s.memberLost m cause).boot = s.boot :=
  s.memberLost_keeps_of m cause tellBlind_boot (fun _ _ => rfl) (fun _ _ => rfl) (fun _ _ _ => rfl) (fun _ => rfl) fun t => t.stopAll_boot false
theorem State.memberLost_now : (s.memberLost m cause).now = s.now :=
  s.memberLost_keeps_of m cause tellBlind_now (fun _ _ => rfl) (fun _ _ => rfl) (fun _ _ _ => rfl) (fun _ => rfl) fun t => t.stopAll_now false

theorem State.lossMarked_losses : (s.lossMarked m).ctr Ct.TOPO_LOSSES = s.ctr Ct.TOPO_LOSSES :=
  s.lossMarked_keeps tellBlind_losses (fun _ _ => rfl) m (fun _ _ => rfl) fun t f v _ => t.setFld_ctr f v _
theorem State.lossEnds_losses : s.lossEnds.ctr Ct.TOPO_LOSSES = s.ctr Ct.TOPO_LOSSES :=
  s.lossEnds_keeps tellBlind_losses (fun _ _ => rfl) (fun t => t.stopAll_ctr _ _) (fun t _ => t.setFld_ctr _ _ _) fun t v => t.setFld_ctr _ v _

theorem State.lossNoted_losses (last : BitVec 32) : (s.lossNoted m cause last).ctr Ct.TOPO_LOSSES = (s.ctr Ct.TOPO_LOSSES).plus 1 := by
  unfold State.lossNoted
  rw [State.jasper_ctr_ne _ _ _ _ _ (by decide), State.ctr_count_same, State.setFld_ctr, State.setFld_ctr, State.setFld_ctr]

/-- A loss counts once. -/
theorem State.memberLost_losses : (s.memberLost m cause).ctr Ct.TOPO_LOSSES = (s.ctr Ct.TOPO_LOSSES).plus 1 := by
  rw [s.memberLost_eq, State.lossEnds_losses, State.lossNoted_losses, State.lossTold_keeps _ tellBlind_losses,
    State.withholdEnds_keeps _ tellBlind_losses fun t => t.setFld_ctr _ _ _, s.lossMarked_losses]

end

/-! ### The mark -/

/-- A bit that is set, taken away. -/
theorem testBit_sub_two_pow {w k : Nat} (h : w.testBit k = true) : (w - 2 ^ k).testBit k = false := by
  rw [Nat.testBit_eq_decide_div_mod_eq] at h ⊢
  have hodd : w / 2 ^ k % 2 = 1 := of_decide_eq_true h
  have hdiv : (w - 2 ^ k) / 2 ^ k = w / 2 ^ k - 1 := by simpa using Nat.sub_mul_div w (2 ^ k) 1
  rw [hdiv]
  exact decide_eq_false (by omega)

theorem not_lossAside_memberState {m : Nat} (hm : m < 512) : ¬ lossAside (Rg.TOPO_MEMBER_STATE (m / 16)) := by
  unfold lossAside Rg.TOPO_MEMBER_STATE
  omega

theorem not_lossAside_members {m : Nat} (hm : m < 512) : ¬ lossAside (Rg.GARNET_MEMBERS (m / 32)) := by
  unfold lossAside Rg.GARNET_MEMBERS
  omega

theorem not_lossAside_garnet {o : Nat} (h : o < 0x1000) : ¬ lossAside (0x70000 + o) := by
  unfold lossAside
  omega

section
variable {m : Nat} (hm : m < 512)

theorem State.lossMarked_enable : (s.lossMarked m).fld Fld.GARNET_CTRL_ENABLE = 0 := by
  rw [State.lossMarked, State.fld_setFld_same _ _ _ (by decide)]
  rfl

theorem State.unlisted_fld {f : Fld} (h : f.addr ≠ Rg.GARNET_MEMBERS (m / 32)) : (s.unlisted m).fld f = s.fld f :=
  s.fld_setFld_addr _ f _ h.symm

include hm in
theorem State.lossMarked_state : (s.lossMarked m).mState m = 1 := by
  have hc : Fld.GARNET_CTRL_ENABLE.addr ≠ (Fld.TOPO_MEMBER_STATE_STATE (m / 16) (m % 16)).addr := by
    show Rg.GARNET_CTRL ≠ Rg.TOPO_MEMBER_STATE (m / 16)
    unfold Rg.GARNET_CTRL Rg.TOPO_MEMBER_STATE
    omega
  have hm' : (Fld.TOPO_MEMBER_STATE_STATE (m / 16) (m % 16)).addr ≠ Rg.GARNET_MEMBERS (m / 32) := by
    show Rg.TOPO_MEMBER_STATE (m / 16) ≠ _
    unfold Rg.GARNET_MEMBERS Rg.TOPO_MEMBER_STATE
    omega
  unfold State.lossMarked State.mState
  dsimp only
  rw [State.fld_setFld_addr _ _ _ _ hc, State.unlisted_fld _ hm', State.setMState,
    (tellBlind_fld (f := Fld.TOPO_MEMBER_STATE_STATE (m / 16) (m % 16)) (not_lossAside_memberState hm)).refreshOpen,
    State.fld_setFld_same _ _ _ (show 2 * (m % 16) + 2 ≤ 32 by omega)]
  rfl

theorem State.unlisted_member : ((s.unlisted m).fld (Fld.GARNET_MEMBERS_MEMBER (m / 32))).testBit (m % 32) = false := by
  have hlt : s.fld (Fld.GARNET_MEMBERS_MEMBER (m / 32)) < 2 ^ (Fld.GARNET_MEMBERS_MEMBER (m / 32)).w := s.fld_lt _
  show ((s.setFld (Fld.GARNET_MEMBERS_MEMBER (m / 32)) _).fld _).testBit _ = false
  rw [State.fld_setFld_same _ _ _ (show 0 + 32 ≤ 32 by decide)]
  split
  · next h =>
    rw [Nat.mod_eq_of_lt (Nat.lt_of_le_of_lt (Nat.sub_le _ _) hlt)]
    exact testBit_sub_two_pow h
  · next h =>
    rw [Nat.mod_eq_of_lt hlt]
    exact Bool.eq_false_iff.mpr h

theorem State.lossMarked_member : ((s.lossMarked m).fld (Fld.GARNET_MEMBERS_MEMBER (m / 32))).testBit (m % 32) = false := by
  have hne : Fld.GARNET_CTRL_ENABLE.addr ≠ (Fld.GARNET_MEMBERS_MEMBER (m / 32)).addr := by
    show Rg.GARNET_CTRL ≠ Rg.GARNET_MEMBERS (m / 32)
    unfold Rg.GARNET_CTRL Rg.GARNET_MEMBERS
    omega
  unfold State.lossMarked
  dsimp only
  rw [State.fld_setFld_addr _ _ _ _ hne]
  exact State.unlisted_member _

theorem State.lossMarked_held : NMap.find (s.lossMarked m).held Rg.GARNET_CTRL = none := by
  unfold State.lossMarked
  rw [State.setFld_held]
  exact NMap.find_del_same _ _

end

theorem State.releaseHeld_held (keep : Nat → Bool) : (s.releaseHeld keep).held = s.held.filter fun p => keep p.1 := by
  unfold State.releaseHeld
  dsimp only
  exact (tellBlind_held.recountPages _).trans (State.each_keeps _ State.held _ _ fun t p _ =>
    (State.when_keeps _ State.held _ _ (State.setFld_held _ _ _)).trans (State.when_keeps _ State.held _ _ (State.setFld_held _ _ _)))

/-- The end of a loss holds no word anew. -/
theorem State.lossEnds_held {a : Nat} (h : NMap.find s.held a = none) : NMap.find s.lossEnds.held a = none := by
  unfold State.lossEnds
  split
  · have hk : (s.abandonStep false).held = s.held :=
      s.abandonStep_keeps_of State.held false (by simp [State.stopAll]) (fun t _ => t.setFld_held _ _) fun t _ _ => t.jasper_held _ _ _ _
    rw [hk, h]
  · split
    · rw [State.setFld_held, s.releaseHeld_held, NMap.find_filter, h, ite_self]
    · exact h

theorem State.memberLost_held (m cause : Nat) : NMap.find (s.memberLost m cause).held Rg.GARNET_CTRL = none := by
  rw [s.memberLost_eq]
  refine State.lossEnds_held _ ?_
  rw [State.lossNoted, State.jasper_held, State.count_held, State.setFld_held, State.setFld_held, State.setFld_held,
    State.lossTold_keeps _ tellBlind_held, State.withholdEnds_keeps _ tellBlind_held fun t => t.setFld_held _ _]
  exact s.lossMarked_held

/-! ### The whole of a loss -/

/-- The state of the tick unit is that before the loss until its end. -/
theorem State.lossNoted_tickState (m cause : Nat) (last : BitVec 32) (payload : List Byte) :
    (((s.lossMarked m).withholdEnds.lossTold m payload).lossNoted m cause last).tickState = s.tickState := by
  have ha : ¬ lossAside Fld.GARNET_STATUS_STATE.addr := not_lossAside_garnet (o := 0x18) (by decide)
  have h1 : Fld.GARNET_STATUS_STATE.addr ≠ Rg.TOPO_MEMBER_STATE (m / 16) := by
    show Rg.GARNET_STATUS ≠ _
    unfold Rg.GARNET_STATUS Rg.TOPO_MEMBER_STATE
    omega
  have h2 : Fld.GARNET_STATUS_STATE.addr ≠ Rg.GARNET_MEMBERS (m / 32) := by
    show Rg.GARNET_STATUS ≠ _
    unfold Rg.GARNET_STATUS Rg.GARNET_MEMBERS
    omega
  unfold State.tickState
  rw [State.lossNoted_fld _ ha (by decide) (by decide), State.lossTold_fld _ ha (.inl (by decide)), s.lossMarked_fld ha h1 h2 (by decide)]

section
variable {m cause : Nat} (hm : m < 512)
include hm

/-- A member that is declared lost stops the group (R317, R325). -/
theorem State.memberLost_lost (hc : cause < 4) : s.lost (s.memberLost m cause) m cause := by
  let u := (s.lossMarked m).withholdEnds.lossTold m (leBytes 4 (m + 2 ^ 9 * cause) ++ leBytes 4 (s.lastTick m).toNat ++ List.replicate 8 0#8)
  have hends : s.memberLost m cause = (u.lossNoted m cause (s.lastTick m)).lossEnds := s.memberLost_eq m cause
  have htick : (u.lossNoted m cause (s.lastTick m)).tickState = s.tickState := s.lossNoted_tickState m cause _ _
  have hloss : ∀ f : Fld, f.addr = Rg.TOPO_LAST_LOSS ∨ f.addr = Rg.TOPO_LAST_LOSS_TICK →
      (s.memberLost m cause).fld f = (((u.setFld Fld.TOPO_LAST_LOSS_MEMBER m).setFld Fld.TOPO_LAST_LOSS_CAUSE cause).setFld
        Fld.TOPO_LAST_LOSS_TICK_TICK (s.lastTick m).toNat).fld f := fun f hf => by
    unfold Rg.TOPO_LAST_LOSS Rg.TOPO_LAST_LOSS_TICK at hf
    rw [hends, State.lossEnds_fld _ (by unfold lossAside; omega) (by unfold Rg.GARNET_STATUS; omega) (by omega), State.lossNoted, State.jasper_fld,
      State.count_fld]
  have hfar : Rg.TOPO_MEMBER_STATE (m / 16) ≠ Rg.GARNET_CTRL ∧ Rg.TOPO_MEMBER_STATE (m / 16) ≠ Rg.TOPO_LAST_LOSS ∧
      Rg.TOPO_MEMBER_STATE (m / 16) ≠ Rg.TOPO_LAST_LOSS_TICK ∧ Rg.TOPO_MEMBER_STATE (m / 16) ≠ Rg.GARNET_STATUS ∧
      Rg.TOPO_MEMBER_STATE (m / 16) < 0x100000 := by
    unfold Rg.TOPO_MEMBER_STATE Rg.GARNET_CTRL Rg.TOPO_LAST_LOSS Rg.TOPO_LAST_LOSS_TICK Rg.GARNET_STATUS
    omega
  have hmem : Rg.GARNET_MEMBERS (m / 32) ≠ Rg.GARNET_CTRL ∧ Rg.GARNET_MEMBERS (m / 32) ≠ Rg.TOPO_LAST_LOSS ∧
      Rg.GARNET_MEMBERS (m / 32) ≠ Rg.TOPO_LAST_LOSS_TICK ∧ Rg.GARNET_MEMBERS (m / 32) ≠ Rg.GARNET_STATUS ∧ Rg.GARNET_MEMBERS (m / 32) < 0x100000 := by
    unfold Rg.GARNET_MEMBERS Rg.GARNET_CTRL Rg.TOPO_LAST_LOSS Rg.TOPO_LAST_LOSS_TICK Rg.GARNET_STATUS
    omega
  obtain ⟨hs1, hs2, hs3, hs4, hs5⟩ := hfar
  obtain ⟨hm1, hm2, hm3, hm4, hm5⟩ := hmem
  exact {
    state := (s.memberLost_fld m cause (f := Fld.TOPO_MEMBER_STATE_STATE (m / 16) (m % 16)) (not_lossAside_memberState hm) (.inl hs1) hs2 hs3 hs4
      hs5).trans (s.lossMarked_state hm)
    enable := (s.memberLost_fld m cause (f := Fld.GARNET_CTRL_ENABLE) (not_lossAside_garnet (o := 0) (by decide)) (.inr (by decide)) (by decide)
      (by decide) (by decide) (by decide)).trans s.lossMarked_enable
    held := s.memberLost_held m cause
    member := by
      rw [s.memberLost_fld m cause (f := Fld.GARNET_MEMBERS_MEMBER (m / 32)) (not_lossAside_members hm) (.inl hm1) hm2 hm3 hm4 hm5]
      exact s.lossMarked_member
    lastMember := by
      rw [hloss _ (.inl rfl), State.fld_setFld_addr _ _ _ _ (by decide), State.fld_setFld_disjoint _ _ _ _ (by decide),
        State.fld_setFld_same _ _ _ (by decide)]
      exact Nat.mod_eq_of_lt hm
    lastCause := by
      rw [hloss _ (.inl rfl), State.fld_setFld_addr _ _ _ _ (by decide), State.fld_setFld_same _ _ _ (by decide)]
      exact Nat.mod_eq_of_lt hc
    lastTick := by
      rw [hloss _ (.inr rfl), State.fld_setFld_same _ _ _ (by decide)]
      exact Nat.mod_eq_of_lt (s.lastTick m).isLt
    losses := s.memberLost_losses m cause
    running := fun hr => by
      rw [hends, State.lossEnds, if_pos (htick.trans hr)]
      exact State.abandonStep_stops _ false (htick.trans hr)
    done := fun hd => by
      have hne : ¬ (u.lossNoted m cause (s.lastTick m)).tickState = stRunning := by
        rw [htick, hd]
        decide
      rw [hends, State.lossEnds, if_neg hne, if_pos (htick.trans hd)]
      exact State.fld_setFld_same _ _ _ (by decide)
    mem := s.memberLost_mem m cause
    boot := s.memberLost_boot m cause }

end

/-- A loss sets no event of the tick unit. -/
theorem State.memberLost_event (m cause : Nat) :
    (s.memberLost m cause).fld Fld.GARNET_EVENTS_MEMBER_SILENT = s.fld Fld.GARNET_EVENTS_MEMBER_SILENT := by
  have ha : ¬ lossAside Fld.GARNET_EVENTS_MEMBER_SILENT.addr := not_lossAside_garnet (o := 0x1c) (by decide)
  have h1 : Fld.GARNET_EVENTS_MEMBER_SILENT.addr ≠ Rg.TOPO_MEMBER_STATE (m / 16) := by
    show Rg.GARNET_EVENTS ≠ _
    unfold Rg.GARNET_EVENTS Rg.TOPO_MEMBER_STATE
    omega
  have h2 : Fld.GARNET_EVENTS_MEMBER_SILENT.addr ≠ Rg.GARNET_MEMBERS (m / 32) := by
    show Rg.GARNET_EVENTS ≠ _
    unfold Rg.GARNET_EVENTS Rg.GARNET_MEMBERS
    omega
  rw [s.memberLost_fld m cause ha (.inl (by decide)) (by decide) (by decide) (by decide) (by decide), s.lossMarked_fld ha h1 h2 (by decide)]

/-! ### Before a loss and after it -/

section
variable {s} {t u : State} {m cause : Nat}

/-- What is told of a loss, or asked for, undoes none of it. -/
theorem State.lost.told (h : s.lost t m cause) (hm : m < 512) (hk : ∀ {β : Type} (P : State → β), TellBlind P → P u = P t) : s.lost u m cause where
  state := (hk _ (tellBlind_fld (f := Fld.TOPO_MEMBER_STATE_STATE (m / 16) (m % 16)) (not_lossAside_memberState hm))).trans h.state
  enable := (hk _ (tellBlind_fld (not_lossAside_garnet (o := 0) (by decide)))).trans h.enable
  held := by rw [hk _ tellBlind_held, h.held]
  member := by
    rw [hk _ (tellBlind_fld (f := Fld.GARNET_MEMBERS_MEMBER (m / 32)) (not_lossAside_members hm))]
    exact h.member
  lastMember := (hk _ (tellBlind_fld (f := Fld.TOPO_LAST_LOSS_MEMBER) (by unfold lossAside; decide))).trans h.lastMember
  lastCause := (hk _ (tellBlind_fld (f := Fld.TOPO_LAST_LOSS_CAUSE) (by unfold lossAside; decide))).trans h.lastCause
  lastTick := (hk _ (tellBlind_fld (f := Fld.TOPO_LAST_LOSS_TICK_TICK) (by unfold lossAside; decide))).trans h.lastTick
  losses := (hk _ tellBlind_losses).trans h.losses
  running hr := by
    obtain ⟨hstate, hflights⟩ := h.running hr
    exact ⟨(hk _ (tellBlind_fld (not_lossAside_garnet (o := 0x18) (by decide)))).trans hstate, (hk _ tellBlind_flights).trans hflights⟩
  done hd := (hk _ (tellBlind_fld (not_lossAside_garnet (o := 0x18) (by decide)))).trans (h.done hd)
  mem := (hk _ tellBlind_mem).trans h.mem
  boot := (hk _ tellBlind_boot).trans h.boot

/-- A loss is that of the state before, where nothing that it speaks of has changed since. -/
theorem State.lost.since (h : u.lost t m cause) (htick : u.lastTick m = s.lastTick m) (hctr : u.ctr Ct.TOPO_LOSSES = s.ctr Ct.TOPO_LOSSES)
    (hstate : u.tickState = s.tickState) (hmem : u.mem = s.mem) (hboot : u.boot = s.boot) : s.lost t m cause :=
  { h with
    lastTick := htick ▸ h.lastTick
    losses := hctr ▸ h.losses
    running := fun hr => h.running (hstate.trans hr)
    done := fun hd => h.done (hstate.trans hd)
    mem := h.mem.trans hmem
    boot := h.boot.trans hboot }

end

theorem State.lost.of_withLink {s t : State} {l : LinkSt} {m cause : Nat} (h : (s.withLink l).lost t m cause) : s.lost t m cause :=
  h.since rfl rfl rfl rfl rfl

/-! ### The three commands -/

/-- A management message that is taken from its port changes the ports' state alone. -/
theorem State.takeMgmt_withLink (kind : Nat) (payload : List Byte) :
    ∃ l, s.takeMgmt kind payload = s.withLink l ∧ l.relinks = s.link.relinks := by
  refine State.each_inv s (fun t => ∃ l, t = s.withLink l ∧ l.relinks = s.link.relinks) _ _ ⟨s.link, rfl, rfl⟩ fun t p _ ht => ?_
  obtain ⟨l, rfl, hl⟩ := ht
  dsimp only
  split
  · exact ⟨_, rfl, hl⟩
  · exact ⟨l, rfl, hl⟩

theorem exec_loss_lost {src lost : Member} {leaving : Bool} {tick : BitVec 32} (hsrc : src.val ≠ s.me) (hme : lost.val ≠ s.me)
    (hg : s.inGroup lost = true) (h0 : s.mState lost = 0) :
    ∃ t, exec (.loss src lost leaving tick) s = .next t ∧ s.lost t lost (bit1 leaving) := by
  obtain ⟨l, hl, -⟩ := s.takeMgmt_withLink 0x01 (leBytes 4 (lost + 2 ^ 9 * bit1 leaving) ++ leBytes 4 tick.toNat)
  have hno : ¬ (lost.val = (s.withLink l).me ∨ src.val = (s.withLink l).me ∨ (s.withLink l).mState lost ≠ 0) :=
    not_or.mpr ⟨hme, not_or.mpr ⟨hsrc, not_not.mpr h0⟩⟩
  have hexec : exec (.loss src lost leaving tick) s = .next ((s.withLink l).memberLost lost (bit1 leaving)) := by
    show execLoss src lost leaving tick s = _
    unfold execLoss
    dsimp only
    rw [hl, if_neg hno]
    exact congrArg _ (if_pos hg)
  have hcause : bit1 leaving < 4 := by cases leaving <;> decide
  exact ⟨_, hexec, ((s.withLink l).memberLost_lost lost.isLt hcause).of_withLink⟩

/-- Keys that are all listed with one value are found with it. -/
theorem find_foldl_ins {β : Type} (v : β) (bs : List Bundle) (r : NMap β) (b : Bundle) (h : b ∈ bs ∨ NMap.find r (Bundle.num b) = some v) :
    NMap.find (bs.foldl (fun r b => NMap.ins r (Bundle.num b) v) r) (Bundle.num b) = some v := by
  induction bs generalizing r with
  | nil => exact h.resolve_left (by simp)
  | cons a bs ih =>
    refine ih _ ?_
    by_cases hn : Bundle.num a = Bundle.num b
    · exact .inr (hn ▸ NMap.find_ins_same _ _ _)
    · dsimp only
      rw [NMap.find_ins_ne _ _ hn]
      exact h.imp_left fun hb => (List.mem_cons.mp hb).resolve_left fun e => hn (congrArg _ e.symm)

theorem exec_leaving_lost {src : Member} {cause : LeaveCause} {tick : BitVec 32} (hme : src.val ≠ s.me) (hg : s.inGroup src = true)
    (h0 : s.mState src = 0) :
    ∃ t, exec (.leaving src cause tick) s = .next t ∧ s.lost t src 1 ∧ ∀ b ∈ s.facing src,
      ((NMap.find s.link.relinks (Bundle.num b)).any fun r => r.lost == src.val) = false →
      NMap.find t.link.relinks (Bundle.num b) = some ⟨src, s.now, false⟩ := by
  obtain ⟨l, hl, hrel⟩ := s.takeMgmt_withLink 0x03 (leBytes 4 (LeaveCause.code cause) ++ leBytes 4 tick.toNat)
  have hno : ¬ (src.val = (s.withLink l).me ∨ 2 ≤ (s.withLink l).mState src) := not_or.mpr ⟨hme, by
    have : (s.withLink l).mState src = 0 := h0
    omega⟩
  have hlive : ¬ (s.withLink l).mState src = 1 := by
    have : (s.withLink l).mState src = 0 := h0
    omega
  let face := (s.facing src).filter fun b => !(NMap.find l.relinks (Bundle.num b)).any fun r => r.lost == src.val
  have hexec : exec (.leaving src cause tick) s =
      .next (((s.withLink l).memberLost src 1).when (face != []) fun s => s.startRelink src face) := by
    show execLeaving src cause tick s = _
    unfold execLeaving
    dsimp only
    rw [hl, if_neg hno, if_neg hlive, if_pos (show (s.withLink l).inGroup src = true from hg)]
    rfl
  have hkeeps : ∀ {β : Type} (P : State → β), TellBlind P →
      P (((s.withLink l).memberLost src 1).when (face != []) fun s => s.startRelink src face) = P ((s.withLink l).memberLost src 1) :=
    fun P h => State.when_keeps _ P _ _ (h.startRelink _ _ _)
  refine ⟨_, hexec, ?_, fun b hb hn => ?_⟩
  · exact (((s.withLink l).memberLost_lost src.isLt (by decide)).told src.isLt hkeeps).of_withLink
  · have hmem : b ∈ face := List.mem_filter.mpr ⟨hb, by rw [hrel, hn]; rfl⟩
    have hwhen : (face != []) = true := by
      rw [bne_iff_ne]
      exact List.ne_nil_of_mem hmem
    rw [hwhen, State.when_true]
    have hnow : ((s.withLink l).memberLost src 1).now = s.now := (s.withLink l).memberLost_now src 1
    rw [← hnow]
    exact find_foldl_ins _ face _ b (.inl hmem)

/-- Time that passes counts no loss. -/
theorem State.pass_losses (n : Nat) : (s.pass n).ctr Ct.TOPO_LOSSES = s.ctr Ct.TOPO_LOSSES := by
  unfold State.pass
  split
  · rfl
  · dsimp only
    refine (State.when_keeps _ (·.ctr Ct.TOPO_LOSSES) _ _ (State.each_keeps _ (·.ctr Ct.TOPO_LOSSES) _ _ fun t f _ => t.setFld_ctr _ _ _)).trans ?_
    refine (State.each_keeps _ (·.ctr Ct.TOPO_LOSSES) _ _ fun t p _ => State.when_keeps t (·.ctr Ct.TOPO_LOSSES) _ _ (t.ctr_count_ne n (by
      unfold Ct.LNK_HOLD_FULL_US Ct.TOPO_LOSSES
      omega))).trans ?_
    refine (State.each_keeps _ (·.ctr Ct.TOPO_LOSSES) _ _ fun t st _ => State.when_keeps t (·.ctr Ct.TOPO_LOSSES) _ _ (t.ctr_count_ne n (by
      unfold Ct.STK_THROTTLE_US stackBase memDieBase Ct.TOPO_LOSSES
      omega))).trans ?_
    refine (State.each_keeps _ (·.ctr Ct.TOPO_LOSSES) _ _ fun t c _ => ?_).trans ?_
    · split
      · exact t.modCore_ctr _ _ _
      · rfl
    · refine State.each_keeps _ (·.ctr Ct.TOPO_LOSSES) _ _ fun t a ha => t.ctr_count_ne n ?_
      simp only [List.mem_eraseDups, List.mem_flatMap, List.mem_map] at ha
      obtain ⟨c, -, tier, -, rfl⟩ := ha
      have hp : s.partOf c < 16 := s.inForce_lt (Fld.SEQ_PARTITION_PARTITION c)
      cases tier <;> simp only [stallCtr, Ct.OBJ_STALL_FAR_US, Ct.OBJ_STALL_HOST_US, Ct.OBJ_STALL_FLASH_US, Ct.TOPO_LOSSES] <;> omega

/-- The state in which silence has been found, at its moment (R37). -/
def State.silenceFound (s : State) (m : Nat) : State :=
  let s := s.clockTo ((NMap.find s.garnet.heardAt m).getD s.garnet.startAt + 4 * s.inForce Fld.GARNET_PERIOD_PERIOD_US)
  (s.raise Fld.GARNET_EVENTS_MEMBER_SILENT).jasper .memberSilent m 0 (s.lastTick m).toNat

section
variable (m : Nat)

theorem State.silenceFound_rd {a : Nat} (h : a ≠ Rg.JSP_WDOG_STATUS) (he : a ≠ Rg.GARNET_EVENTS) : (s.silenceFound m).rd a = s.rd a := by
  unfold State.silenceFound
  dsimp only
  rw [State.jasper_rd, State.raise, State.setFld, State.rd_wr_ne _ _ (show Fld.GARNET_EVENTS_MEMBER_SILENT.addr ≠ a from he.symm)]
  exact s.pass_rd _ a h

theorem State.silenceFound_lastTick : (s.silenceFound m).lastTick m = s.lastTick m := by
  have hg : (s.silenceFound m).garnet = s.garnet := by simp [State.silenceFound, State.raise]
  unfold State.lastTick
  rw [hg, s.silenceFound_rd m (by decide) (by decide)]

theorem State.silenceFound_tickState : (s.silenceFound m).tickState = s.tickState :=
  congrArg (bvGet _ _) (s.silenceFound_rd m (by decide) (by decide))

theorem State.silenceFound_losses : (s.silenceFound m).ctr Ct.TOPO_LOSSES = s.ctr Ct.TOPO_LOSSES := by
  unfold State.silenceFound
  dsimp only
  rw [State.jasper_ctr_ne _ _ _ _ _ (by decide), State.raise, State.setFld_ctr]
  exact s.pass_losses _

theorem State.silenceFound_event : (s.silenceFound m).fld Fld.GARNET_EVENTS_MEMBER_SILENT = 1 := by
  unfold State.silenceFound
  dsimp only
  rw [State.jasper_fld, State.raise, State.fld_setFld_same _ _ _ (by decide)]
  rfl

theorem State.silenceFound_mem : (s.silenceFound m).mem = s.mem := by simp [State.silenceFound, State.raise]
theorem State.silenceFound_boot : (s.silenceFound m).boot = s.boot := by simp [State.silenceFound, State.raise]

end

theorem exec_memberSilent_lost {m : Member} (hc : s.silenceCounts m = true) (hme : m.val ≠ s.me) (hg : s.inGroup m = true) (h0 : s.mState m = 0) :
    ∃ t, exec (.memberSilent m) s = .next t ∧ s.lost t m 0 ∧ t.fld Fld.GARNET_EVENTS_MEMBER_SILENT = 1 := by
  have hcond : (s.silenceCounts m && s.inGroup m && m.val != s.me && s.mState m == 0) = true := by simp [hc, hg, hme, h0]
  let v := s.clockTo ((NMap.find s.garnet.heardAt m).getD s.garnet.startAt + 4 * s.inForce Fld.GARNET_PERIOD_PERIOD_US)
  let face := v.facing m
  let b := face != [] && v.majority m
  have hexec : exec (.memberSilent m) s =
      .next (((s.silenceFound m).memberLost m 0).when b fun s => s.requestReset m face) := by
    show execMemberSilent m s = _
    unfold execMemberSilent
    rw [if_pos hcond]
    rfl
  have hkeeps : ∀ {β : Type} (P : State → β), TellBlind P →
      P (((s.silenceFound m).memberLost m 0).when b fun s => s.requestReset m face) = P ((s.silenceFound m).memberLost m 0) :=
    fun P h => State.when_keeps _ P _ _ (h.requestReset _ _ _)
  refine ⟨_, hexec, ?_, ?_⟩
  · exact (((s.silenceFound m).memberLost_lost m.isLt (by decide)).told m.isLt hkeeps).since (s.silenceFound_lastTick m) (s.silenceFound_losses m)
      (s.silenceFound_tickState m) (s.silenceFound_mem m) (s.silenceFound_boot m)
  · rw [hkeeps _ (tellBlind_fld (not_lossAside_garnet (o := 0x1c) (by decide))), State.memberLost_event, s.silenceFound_event]

/-- Settles O39: the three commands declare the member lost, and what each does beside leaves that as it is. -/
theorem lostMemberStopsGroup : Obligations.LostMemberStopsGroup := by
  intro i src lost cause s hi hme hg h0
  have hoff : ∀ {t : State}, s.lost t lost cause → t.inForce Fld.GARNET_CTRL_ENABLE = 0 :=
    fun h => (State.inForce_of_not_held _ _ h.held).trans h.enable
  rcases hi with ⟨leaving, tick, rfl, rfl, hsrc⟩ | ⟨c, tick, rfl, rfl⟩ | ⟨rfl, rfl, hc⟩
  · obtain ⟨t, hexec, h⟩ := exec_loss_lost s (leaving := leaving) (tick := tick) hsrc hme hg h0
    exact ⟨t, hexec, h.state, h.enable, hoff h, h.member, h.lastMember, h.lastCause, h.lastTick, h.losses, h.running, h.done, by simp, by simp,
      h.mem, congrArg _ h.boot⟩
  · obtain ⟨t, hexec, h, hrel⟩ := exec_leaving_lost s (cause := c) (tick := tick) hme hg h0
    exact ⟨t, hexec, h.state, h.enable, hoff h, h.member, h.lastMember, h.lastCause, h.lastTick, h.losses, h.running, h.done, by simp, fun _ => hrel,
      h.mem, congrArg _ h.boot⟩
  · obtain ⟨t, hexec, h, hev⟩ := exec_memberSilent_lost s hc hme hg h0
    exact ⟨t, hexec, h.state, h.enable, hoff h, h.member, h.lastMember, h.lastCause, h.lastTick, h.losses, h.running, h.done, fun _ => hev, by simp,
      h.mem, congrArg _ h.boot⟩

end Sys2Proof.Machine
end

section
/-! PROOFS. The reductions and the scan of the vector engine (R125, R126), after what they share with the conversions: saturated values,
single elements written, folds that pick one of their elements. -/

namespace Sys2Proof.Machine

/-! ### Saturation (R82, R83) -/

theorem minOf_le_maxOf (b : Nat) : minOf b ≤ maxOf b := by
  have : (0 : Int) < 2 ^ (b - 1) := by positivity
  unfold minOf maxOf
  omega

theorem clampI_eq {lo hi : Int} (h : lo ≤ hi) (x : Int) : clampI lo hi x = max lo (min hi x) := by
  unfold clampI
  split <;> [skip; split] <;> omega

theorem satW_eq (b : Nat) (v : Int) : satW b v = max (minOf b) (min (maxOf b) v) := clampI_eq (minOf_le_maxOf b) v

theorem satW_bounds (b : Nat) (v : Int) : minOf b ≤ satW b v ∧ satW b v ≤ maxOf b := by
  have := minOf_le_maxOf b
  rw [satW_eq]
  omega

/-- A saturated value fits its type. -/
theorem wrapW_satW {b : Nat} (hb : 0 < b) (v : Int) : wrapW b (satW b v) = satW b v :=
  wrapW_of_fits hb (satW_bounds b v).1 (satW_bounds b v).2

/-- A value lies outside its type exactly where saturation changes it. -/
theorem outW_eq_decide (b : Nat) (v : Int) : outW b v = decide (satW b v ≠ v) := by
  have := minOf_le_maxOf b
  rw [outW, ← Bool.decide_or, satW_eq]
  exact decide_eq_decide.mpr (by omega)

/-- The elements written are saturated ones. -/
theorem VFile.setAll_wrote_satW (f : VFile) (t : VTy) (d : Nat) (is : List Nat) (y : Nat → Int) :
    f.wrote (f.setAll t d is fun i => satW t.bits (y i)) t d is fun i => satW t.bits (y i) :=
  VFile.wrote_congr (VFile.setAll_wrote ..) fun _ _ => wrapW_satW t.bits_pos _

/-! ### Elements -/

theorem lt_of_mem_activeOf {f : VFile} {w : VWord} {j : Nat} (h : j ∈ activeOf f w) : j < 4096 := by
  have h1 := List.mem_range.mp (List.mem_filter.mp h).1
  have h2 := w.nm1.isLt
  rw [nOf] at h1
  omega

theorem activeOf_sorted (f : VFile) (w : VWord) : (activeOf f w).Pairwise (· < ·) := List.pairwise_lt_range.filter _

/-- Element 0 alone written. -/
theorem VFile.set_wrote {f : VFile} {t : VTy} {d : Nat} {v : Int} (h : wrapW t.bits v = v) : f.wrote (f.set t d 0 v) t d [0] fun _ => v :=
  VFile.wrote_congr (VFile.setAll_wrote t d (fun _ => v) [0] f) fun _ _ => h

/-- A value of any type fits an I32 element. -/
theorem wrapW_i32_of_bounds {t : VTy} {v : Int} (h : minOf t.bits ≤ v ∧ v ≤ maxOf t.bits) : wrapW VTy.i32.bits v = v := by
  refine wrapW_of_fits (by decide) ?_ ?_
  all_goals cases t <;> simp only [minOf, maxOf, VTy.bits] at h ⊢ <;> omega

/-! ### Folds that pick one of their elements -/

/-- `op` answers one of its two operands, and one that bounds both in the order `le`. -/
structure IsPick {α : Type} (op : α → α → α) (le : α → α → Prop) : Prop where
  picks : ∀ a b, op a b = a ∨ op a b = b
  left : ∀ a b, le a (op a b)
  right : ∀ a b, le b (op a b)
  refl : ∀ a, le a a
  trans : ∀ a b c, le a b → le b c → le a c
  antisymm : ∀ a b, le a b → le b a → a = b

section
variable {α : Type} {op : α → α → α} {le : α → α → Prop} (h : IsPick op le)
include h

/-- A fold of picks answers its start or an element, and one that bounds them all. -/
theorem IsPick.foldl_bounds (l : List α) (e : α) :
    le e (l.foldl op e) ∧ (∀ x ∈ l, le x (l.foldl op e)) ∧ (l.foldl op e = e ∨ l.foldl op e ∈ l) := by
  induction l generalizing e with
  | nil => exact ⟨h.refl e, by simp, .inl rfl⟩
  | cons a l ih =>
    obtain ⟨hs, hl, hp⟩ := ih (op e a)
    refine ⟨h.trans _ _ _ (h.left e a) hs, List.forall_mem_cons.mpr ⟨h.trans _ _ _ (h.right e a) hs, hl⟩, ?_⟩
    rcases hp with hp | hp
    · rw [List.foldl_cons, hp]
      rcases h.picks e a with he | he
      · exact .inl he
      · exact .inr (List.mem_cons.mpr (.inl he))
    · exact .inr (List.mem_cons_of_mem _ hp)

/-- A fold from a start below every element answers an element, or the start where there is none. -/
theorem IsPick.foldl_map {g : Nat → α} {e : α} {is : List Nat} (he : ∀ j ∈ is, le e (g j)) :
    (∀ j ∈ is, le (g j) ((is.map g).foldl op e)) ∧
      ((∃ j ∈ is, g j = (is.map g).foldl op e) ∨ is = [] ∧ (is.map g).foldl op e = e) := by
  obtain ⟨-, hl, hp⟩ := h.foldl_bounds (is.map g) e
  have hl : ∀ j ∈ is, le (g j) ((is.map g).foldl op e) := fun j hj => hl _ (List.mem_map_of_mem hj)
  refine ⟨hl, ?_⟩
  rcases hp with hp | hp
  · cases hi : is with
    | nil => exact .inr ⟨rfl, rfl⟩
    | cons j js =>
      rw [← hi]
      have hj : j ∈ is := hi ▸ List.mem_cons_self
      exact .inl ⟨j, hj, h.antisymm _ _ (hl j hj) (hp.symm ▸ he j hj)⟩
  · obtain ⟨j, hj, hg⟩ := List.mem_map.mp hp
    exact .inl ⟨j, hj, hg⟩

end

theorem isPick_max {α : Type} [LinearOrder α] : IsPick (max : α → α → α) (· ≤ ·) :=
  ⟨max_choice, le_max_left, le_max_right, le_refl, fun _ _ _ => le_trans, fun _ _ => le_antisymm⟩

theorem isPick_min {α : Type} [LinearOrder α] : IsPick (min : α → α → α) (fun a b => b ≤ a) :=
  ⟨min_choice, min_le_left, min_le_right, le_refl, fun _ _ _ h1 h2 => le_trans h2 h1, fun _ _ h1 h2 => le_antisymm h2 h1⟩

theorem opMax_eq (t : VTy) : opMax t = max := by
  funext a b
  rw [opMax, max_def]

theorem opMin_eq (t : VTy) : opMin t = min := by
  funext a b
  rw [opMin, min_def]

/-- The order in which VRMAXI picks: the larger value, then the lower position (R125). -/
theorem isPick_better : IsPick better fun a b => a.1 < b.1 ∨ a.1 = b.1 ∧ b.2 ≤ a.2 := by
  constructor
  case picks => intro a b; unfold better; split <;> simp
  case left => intro a b; unfold better; split <;> omega
  case right => intro a b; unfold better; split <;> omega
  case refl => intro a; omega
  case trans => intro a b c; omega
  case antisymm => intro a b h1 h2; exact Prod.ext (by omega) (by omega)

/-! ### VSCAN -/

/-- One element of VSCAN: the running sum, the registers and the saturations so far (R126). -/
def scanStep (t : VTy) (d : Nat) (g : Nat → Int) (p : Int × VFile × Nat) (i : Nat) : Int × VFile × Nat :=
  (p.1 + g i, p.2.1.set t d i (satW t.bits (p.1 + g i)), p.2.2 + bit1 (outW t.bits (p.1 + g i)))

/-- The sum of the elements of `is` up to `j`. -/
def sumUpTo (g : Nat → Int) (is : List Nat) (j : Nat) : Int := ((is.filter fun k => k ≤ j).map g).sum

/-- Of rising positions, those up to one of them are the ones before it and itself. -/
theorem sumUpTo_append {g : Nat → Int} {pre is : List Nat} {i : Nat} (h : (pre ++ i :: is).Pairwise (· < ·)) :
    sumUpTo g (pre ++ i :: is) i = (pre.map g).sum + g i := by
  obtain ⟨-, hi, hpre⟩ := List.pairwise_append.mp h
  have h1 : pre.filter (fun k => k ≤ i) = pre :=
    List.filter_eq_self.mpr fun k hk => decide_eq_true (Nat.le_of_lt (hpre k hk i List.mem_cons_self))
  have h2 : is.filter (fun k => k ≤ i) = [] :=
    List.filter_eq_nil_iff.mpr fun k hk => by simpa using (List.pairwise_cons.mp hi).1 k hk
  simp [sumUpTo, h1, h2]

/-- VSCAN over rising positions `is`, those of `pre` done: each element takes the saturated running sum. -/
theorem foldl_scanStep (t : VTy) (d : Nat) (g : Nat → Int) (pre is : List Nat) (f : VFile) (n : Nat) (h : (pre ++ is).Pairwise (· < ·)) :
    (is.foldl (scanStep t d g) ((pre.map g).sum, f, n)).2 =
      (f.setAll t d is fun j => satW t.bits (sumUpTo g (pre ++ is) j),
        n + (is.filter fun j => outW t.bits (sumUpTo g (pre ++ is) j)).length) := by
  induction is generalizing pre f n with
  | nil => rfl
  | cons i is ih =>
    have hsum := sumUpTo_append (g := g) h
    have hpre : pre ++ i :: is = pre ++ [i] ++ is := by simp
    have hstep : scanStep t d g ((pre.map g).sum, f, n) i =
        (((pre ++ [i]).map g).sum, f.set t d i (satW t.bits (sumUpTo g (pre ++ i :: is) i)),
          n + bit1 (outW t.bits (sumUpTo g (pre ++ i :: is) i))) := by
      rw [scanStep, hsum]
      simp
    rw [List.foldl_cons, hstep, ih _ _ _ (hpre ▸ h), ← hpre, List.filter_cons]
    refine Prod.ext rfl ?_
    cases outW t.bits (sumUpTo g (pre ++ i :: is) i) <;> simp [bit1]
    omega

/-! ### The instructions as commands -/

/-- VRSUM writes the sum, saturated once. -/
theorem exec_vrsum_sums (c : CoreId) (w : VWord) (s : State) (ty : VTy) (h : s.vecReady c (.vrsum c w) w ty [(ty, w.va, nOf w)]) :
    let f := (s.core c).vec
    let sum := ((activeOf f w).map fun j => f.get ty w.va j).sum
    ∃ t, exec (.vrsum c w) s = .next t ∧ f.wrote (t.core c).vec .i32 w.vd [0] (fun _ => satW 32 sum) ∧
      s.vecDone t c (costRed w) (activeOf f w).length (if satW 32 sum = sum then 0 else 1) := by
  intro f sum
  obtain ⟨hh, ht, hg⟩ := h
  have ho : vRSum (s.vecCtx c) w f = .ok { file := f.set .i32 w.vd 0 (satW 32 sum), buf := (s.core c).buf, sats := bit1 (outW 32 sum) } := by
    refine (withType_eq _ ht rfl).trans ((withGroups_eq _ hg).trans ?_)
    rw [← List.sum_eq_foldl]
    rfl
  obtain ⟨hf, hd⟩ := s.vec_ok (k := .masked) (cost := costRed) hh ho (s.consume_nil _)
  refine ⟨_, rfl, hf ▸ VFile.set_wrote (wrapW_satW (by decide) _), ?_⟩
  have hs : bit1 (outW 32 sum) = if satW 32 sum = sum then 0 else 1 := by
    rw [outW_eq_decide, bit1]
    by_cases he : satW 32 sum = sum <;> simp [he]
  exact hs ▸ hd

/-- VRMAX and VRMIN write the one picked of the active elements, or the identity where none is active. -/
theorem State.vec_reduce {c : CoreId} {w : VWord} {s : State} {ty : VTy} {i : Instr} {op : VTy → Int → Int → Int} {ident : VTy → Int}
    {le : Int → Int → Prop} (hp : IsPick (op ty) le) (hid : ∀ v, minOf ty.bits ≤ v ∧ v ≤ maxOf ty.bits → le (ident ty) v)
    (hib : minOf ty.bits ≤ ident ty ∧ ident ty ≤ maxOf ty.bits) (h : s.vecReady c i w ty [(ty, w.va, nOf w)]) :
    let f := (s.core c).vec
    let t := s.vec c i w (vReduce op ident) .masked costRed
    ∃ m, f.wrote (t.core c).vec .i32 w.vd [0] (fun _ => m) ∧ (∀ j ∈ activeOf f w, le (f.get ty w.va j) m) ∧
      ((∃ j ∈ activeOf f w, f.get ty w.va j = m) ∨ activeOf f w = [] ∧ m = ident ty) ∧
      s.vecDone t c (costRed w) (activeOf f w).length 0 := by
  intro f t
  obtain ⟨hh, ht, hg⟩ := h
  have ho : vReduce op ident (s.vecCtx c) w f = .ok _ := (withType_eq _ ht rfl).trans (withGroups_eq _ hg)
  obtain ⟨hf, hd⟩ := s.vec_ok (k := .masked) (cost := costRed) hh ho (s.consume_nil _)
  obtain ⟨hall, hone⟩ := hp.foldl_map (g := fun j => f.get ty w.va j) (e := ident ty) (is := activeOf f w) fun j _ => hid _ (f.get_bounds ..)
  generalize ((activeOf f w).map fun j => f.get ty w.va j).foldl (op ty) (ident ty) = m at hf hall hone
  have hm : minOf ty.bits ≤ m ∧ m ≤ maxOf ty.bits := by
    rcases hone with ⟨j, -, rfl⟩ | ⟨-, rfl⟩
    · exact f.get_bounds ty w.va j
    · exact hib
  exact ⟨m, hf ▸ VFile.set_wrote (wrapW_i32_of_bounds hm), hall, hone, hd⟩

/-- VRMAXI writes the largest value and the lowest position that holds it. -/
theorem exec_vrmaxi_picks (c : CoreId) (w : VWord) (s : State) (ty : VTy) (h : s.vecReady c (.vrmaxi c w) w ty [(ty, w.va, nOf w)]) :
    let f := (s.core c).vec
    ∃ t m p, exec (.vrmaxi c w) s = .next t ∧ f.wrote (t.core c).vec .i32 w.vd [0, 1] (fun j => if j = 0 then m else p) ∧
      (∀ j ∈ activeOf f w, f.get ty w.va j ≤ m ∧ (f.get ty w.va j = m → p ≤ j)) ∧
      ((∃ j ∈ activeOf f w, f.get ty w.va j = m ∧ p = j) ∨ activeOf f w = [] ∧ m = minOf ty.bits ∧ p = -1) ∧
      s.vecDone t c (costRed w) (activeOf f w).length 0 := by
  intro f
  obtain ⟨hh, ht, hg⟩ := h
  have ho : vRMaxI (s.vecCtx c) w f = .ok _ := (withType_eq _ ht rfl).trans (withGroups_eq _ hg)
  obtain ⟨hf, hd⟩ := s.vec_ok (k := .masked) (cost := costRed) hh ho (s.consume_nil _)
  obtain ⟨hall, hone⟩ := isPick_better.foldl_map (g := fun j => (f.get ty w.va j, j)) (e := (minOf ty.bits, 0xFFFFFFFF)) (is := activeOf f w)
    fun j hj => by
      have := (f.get_bounds ty w.va j).1
      have := lt_of_mem_activeOf hj
      dsimp only
      omega
  generalize ((activeOf f w).map fun j => (f.get ty w.va j, j)).foldl better (minOf ty.bits, 0xFFFFFFFF) = r at hf hall hone
  have hw : ∀ m p, m = r.1 → wrapW 32 m = m → wrapW 32 r.2 = p →
      f.wrote ((s.vec c (.vrmaxi c w) w vRMaxI .masked costRed).core c).vec .i32 w.vd [0, 1] (fun j => if j = 0 then m else p) := by
    rintro _ _ rfl hm rfl
    rw [hf]
    refine VFile.wrote_congr (VFile.setAll_wrote .i32 w.vd (fun j => if j = 0 then r.1 else r.2) [0, 1] f) fun j _ => ?_
    split
    · exact hm
    · rfl
  rcases hone with ⟨k, hk, rfl⟩ | ⟨hnil, rfl⟩
  · have hk32 : wrapW 32 (k : Int) = k := by
      have := lt_of_mem_activeOf hk
      exact wrapW_of_fits (by decide) (by simp only [minOf]; omega) (by simp only [maxOf]; omega)
    refine ⟨_, _, _, rfl, hw _ _ rfl (wrapW_i32_of_bounds (f.get_bounds ty w.va k)) hk32, fun j hj => ?_, .inl ⟨k, hk, rfl, rfl⟩, hd⟩
    have := hall j hj
    dsimp only at this
    omega
  · refine ⟨_, _, _, rfl, hw _ _ rfl (wrapW_i32_of_bounds ⟨le_refl _, minOf_le_maxOf _⟩)
      (show wrapW 32 0xFFFFFFFF = -1 by decide), fun j hj => ?_, .inr ⟨hnil, rfl, rfl⟩, hd⟩
    rw [hnil] at hj
    exact nomatch hj

/-- VSCAN writes the running sums, each saturated. -/
theorem exec_vscan_sums (c : CoreId) (w : VWord) (s : State) (ty : VTy)
    (h : s.vecReady c (.vscan c w) w ty [(ty, w.vd, nOf w), (ty, w.va, nOf w)]) :
    let f := (s.core c).vec
    let sum := fun j => (((activeOf f w).filter fun k => k ≤ j).map fun k => f.get ty w.va k).sum
    ∃ t, exec (.vscan c w) s = .next t ∧ f.wrote (t.core c).vec ty w.vd (activeOf f w) (fun j => satW ty.bits (sum j)) ∧
      s.vecDone t c (costScan w) (activeOf f w).length ((activeOf f w).filter fun j => satW ty.bits (sum j) ≠ sum j).length := by
  intro f sum
  obtain ⟨hh, ht, hg⟩ := h
  have hscan := foldl_scanStep ty w.vd (f.get ty w.va) [] (activeOf f w) f 0 (activeOf_sorted f w)
  have ho : vScan (s.vecCtx c) w f = .ok
      { file := ((activeOf f w).foldl (scanStep ty w.vd (f.get ty w.va)) (0, f, 0)).2.1, buf := (s.core c).buf
        sats := ((activeOf f w).foldl (scanStep ty w.vd (f.get ty w.va)) (0, f, 0)).2.2 } :=
    (withType_eq _ ht rfl).trans (withGroups_eq _ hg)
  obtain ⟨hf, hd⟩ := s.vec_ok (k := .masked) (cost := costScan) hh ho (s.consume_nil _)
  simp only [List.map_nil, List.sum_nil, List.nil_append, Nat.zero_add, outW_eq_decide] at hscan
  rw [hscan] at hf hd
  exact ⟨_, rfl, hf ▸ VFile.setAll_wrote_satW f ty w.vd (activeOf f w) sum, hd⟩

/-- Settles O23, instruction by instruction; VRMAX and VRMIN are folds that pick by the two orders of the integers. -/
theorem vectorReductions : Obligations.VectorReductions := by
  refine ⟨exec_vrsum_sums, fun c w s ty h => ?_, fun c w s ty h => ?_, exec_vrmaxi_picks, exec_vscan_sums⟩
  · obtain ⟨m, hw, hle, hone, hd⟩ := State.vec_reduce (op := opMax) (ident := fun t => minOf t.bits) (opMax_eq ty ▸ isPick_max)
      (fun _ hv => hv.1) ⟨le_refl _, minOf_le_maxOf _⟩ h
    exact ⟨_, m, rfl, hw, hle, hone, hd⟩
  · obtain ⟨m, hw, hle, hone, hd⟩ := State.vec_reduce (op := opMin) (ident := fun t => maxOf t.bits) (opMin_eq ty ▸ isPick_min)
      (fun _ hv => hv.2) ⟨minOf_le_maxOf _, le_refl _⟩ h
    exact ⟨_, m, rfl, hw, hle, hone, hd⟩

end Sys2Proof.Machine
end

section
/-! PROOFS. The conversions of the vector engine: VCVT, VACC, VACCRAW, VDESC and VEXTS (R124, R130, R132, R135). -/

namespace Sys2Proof.Machine

/-! ### VCVT, VACC, VACCRAW -/

/-- VCVT rounds each active element at its shift, saturates it and counts (R124). -/
theorem vCvt_ok {x : VCtx} {w : VWord} {f : VFile} {t ts : VTy} (ht : VTy.ofCode w.ty.val = some t)
    (hts : VTy.ofCode (immF w 0 2) = some ts) (hg : ∀ g ∈ [(t, w.vd.val, nOf w), (ts, w.va.val, nOf w)], groupOk g.1 g.2.1 g.2.2) :
    vCvt x w f = .ok
      { file := f.setAll t w.vd (activeOf f w) fun i => satW t.bits (rne (f.get ts w.va i) (2 ^ immF w 2 6)), buf := x.buf
        sats := ((activeOf f w).filter fun i => outW t.bits (rne (f.get ts w.va i) (2 ^ immF w 2 6))).length } := by
  unfold vCvt
  rw [withType_eq _ ht rfl, hts]
  exact withGroups_eq _ hg

/-- VCVT as a command. -/
theorem exec_vcvt_rounds (c : CoreId) (w : VWord) (s : State) (ty ts : VTy) (hts : VTy.ofCode (immF w 0 2) = some ts)
    (h : s.vecReady c (.vcvt c w) w ty [(ty, w.vd, nOf w), (ts, w.va, nOf w)]) :
    let f := (s.core c).vec
    let y := fun j => rne (f.get ts w.va j) (2 ^ immF w 2 6)
    ∃ t, exec (.vcvt c w) s = .next t ∧ f.wrote (t.core c).vec ty w.vd (activeOf f w) (fun j => satW ty.bits (y j)) ∧
      s.vecDone t c (costCvt w) (activeOf f w).length ((activeOf f w).filter fun j => satW ty.bits (y j) ≠ y j).length := by
  intro f y
  obtain ⟨hh, ht, hg⟩ := h
  obtain ⟨hf, hd⟩ := s.vec_ok (k := .masked) (cost := costCvt) hh (vCvt_ok ht hts hg) (s.consume_nil _)
  simp only [outW_eq_decide] at hd
  exact ⟨_, rfl, hf ▸ VFile.setAll_wrote_satW f ty w.vd (activeOf f w) y, hd⟩

/-- VACC rounds the values of entries of the bank. -/
theorem exec_vacc_rounds (c : CoreId) (w : VWord) (s : State) (h : s.vecReady c (.vacc c w) w .i32 [(.i32, w.vd, nOf w)])
    (hr : 32 * immF w 12 5 + nOf w ≤ 1024) :
    let f := (s.core c).vec
    let y := fun j => rne ((s.eng (4 * c.val + immF w 17 2)).bank.at (32 * immF w 12 5 + j)).value (2 ^ immF w 6 6)
    ∃ t, exec (.vacc c w) s = .next t ∧ f.wrote (t.core c).vec .i32 w.vd (activeOf f w) (fun j => satW 32 (y j)) ∧
      s.vecDone t c (costPer 6 32 w) (activeOf f w).length ((activeOf f w).filter fun j => satW 32 (y j) ≠ y j).length := by
  intro f y
  obtain ⟨hh, ht, hg⟩ := h
  have ho : vAcc (s.vecCtx c) w f = .ok _ :=
    (withType_eq _ ht rfl).trans ((if_neg (Nat.not_lt.mpr hr)).trans (withGroups_eq _ hg))
  obtain ⟨hf, hd⟩ := s.vec_ok (k := .masked) (cost := costPer 6 32) hh ho (s.consume_nil _)
  simp only [outW_eq_decide] at hd
  exact ⟨_, rfl, hf ▸ VFile.setAll_wrote_satW f .i32 w.vd (activeOf f w) y, hd⟩

/-- The word that shows shift, residual and mode of an entry (R135) fits an I32 element. -/
theorem wrapW_accParts (a : Acc) (b : Bool) :
    wrapW 32 (a.h.toNat + 32 * a.e.toNat + 2 ^ 21 * bit1 b : Nat) = a.h.toNat + 2 ^ 5 * a.e.toNat + 2 ^ 21 * bit1 b := by
  have hh := a.h.isLt
  have he := a.e.isLt
  have hb : bit1 b ≤ 1 := by cases b <;> decide
  refine (wrapW_of_fits (by decide) ?_ ?_).trans (by push_cast; rfl)
  · simp only [minOf]; omega
  · simp only [maxOf]; omega

/-- VACCRAW shows the parts of entries of the bank: the mantissa, then shift, residual and mode. -/
theorem exec_vaccraw_shows (c : CoreId) (w : VWord) (s : State) (h : s.vecReady c (.vaccraw c w) w .i32 [(.i32, w.vd, nOf w)])
    (he : nOf w % 2 = 0) (hr : 32 * immF w 12 5 + nOf w / 2 ≤ 1024) :
    let f := (s.core c).vec
    let g := 4 * c.val + immF w 17 2
    let a := fun j => (s.eng g).bank.at (32 * immF w 12 5 + j / 2)
    ∃ t, exec (.vaccraw c w) s = .next t ∧ f.wrote (t.core c).vec .i32 w.vd (activeOf f w) (fun j =>
        if j % 2 = 0 then (a j).m.toInt
        else (a j).h.toNat + 2 ^ 5 * (a j).e.toNat + 2 ^ 21 * (if s.fld (Fld.ENG_STATUS_COMP_BANK g) = 1 then 1 else 0)) ∧
      s.vecDone t c (costPer 6 32 w) (activeOf f w).length 0 := by
  intro f g a
  obtain ⟨hh, ht, hg⟩ := h
  have ho : vAccRaw (s.vecCtx c) w f = .ok _ :=
    (withType_eq _ ht rfl).trans ((if_neg (by omega)).trans ((if_neg (Nat.not_lt.mpr hr)).trans (withGroups_eq _ hg)))
  obtain ⟨hf, hd⟩ := s.vec_ok (k := .masked) (cost := costPer 6 32) hh ho (s.consume_nil _)
  refine ⟨_, rfl, ?_, hd⟩
  rw [hf]
  refine VFile.wrote_congr (VFile.setAll_wrote ..) fun j _ => ?_
  dsimp only
  split
  · exact wrapW_of_fits (by decide) (BitVec.le_toInt _) (Int.le_sub_one_of_lt BitVec.toInt_lt)
  · have hb : bit1 ((s.vecCtx c).comp (immF w 17 2)) = if s.fld (Fld.ENG_STATUS_COMP_BANK g) = 1 then 1 else 0 := by
      simp [bit1, State.vecCtx, g]
    refine (wrapW_accParts (a j) _).trans ?_
    rw [hb]
    push_cast
    rfl

/-! ### VDESC -/

theorem foldl_minMax (l : List Int) (a b : Int) :
    l.foldl (fun (p : Int × Int) v => (min p.1 v, max p.2 v)) (a, b) = (l.foldl min a, l.foldl max b) := by
  induction l generalizing a b with
  | nil => rfl
  | cons x l ih => exact ih _ _

/-- Extremes of a row that has elements. -/
theorem minMax_some {l : List Int} {p : Int × Int} (h : minMax l = some p) :
    p.1 ∈ l ∧ (∀ x ∈ l, p.1 ≤ x) ∧ p.2 ∈ l ∧ ∀ x ∈ l, x ≤ p.2 := by
  cases l with
  | nil => exact nomatch h
  | cons a l =>
    obtain rfl := Option.some.inj ((congrArg some (foldl_minMax l a a)).symm.trans h)
    obtain ⟨hlo, hlo', hmin⟩ := isPick_min.foldl_bounds l a
    obtain ⟨hhi, hhi', hmax⟩ := isPick_max.foldl_bounds l a
    exact ⟨List.mem_cons.mpr hmin, List.forall_mem_cons.mpr ⟨hlo, hlo'⟩, List.mem_cons.mpr hmax, List.forall_mem_cons.mpr ⟨hhi, hhi'⟩⟩

/-- At shift `k` the row from `lo` to `hi` fits 8 bits (R130). -/
def descFits (symmetric : Bool) (lo hi : Int) (k : Nat) : Prop :=
  if symmetric then rne hi (2 ^ k) ≤ 127 ∧ -128 ≤ rne lo (2 ^ k) else rne hi (2 ^ k) - rne lo (2 ^ k) ≤ 255

/-- The same as the truth value that the search of `descOf` evaluates. -/
def descFitsB (symmetric : Bool) (lo hi : Int) (k : Nat) : Bool :=
  if symmetric then decide (rne hi (2 ^ k) ≤ 127) && decide (-128 ≤ rne lo (2 ^ k)) else decide (rne hi (2 ^ k) - rne lo (2 ^ k) ≤ 255)

theorem descFitsB_iff {symmetric : Bool} {lo hi : Int} {k : Nat} : descFitsB symmetric lo hi k = true ↔ descFits symmetric lo hi k := by
  cases symmetric <;> simp [descFitsB, descFits]

theorem rne_i16_bounds {x : Int} (h : -32768 ≤ x ∧ x ≤ 32767) : -1 ≤ rne x (2 ^ 15) ∧ rne x (2 ^ 15) ≤ 1 := by
  unfold rne
  dsimp only
  split <;> omega

/-- At the largest shift every row of I16 fits. -/
theorem descFits_last {symmetric : Bool} {lo hi : Int} (hlo : -32768 ≤ lo ∧ lo ≤ 32767) (hhi : -32768 ≤ hi ∧ hi ≤ 32767) :
    descFits symmetric lo hi 15 := by
  have h1 := rne_i16_bounds hlo
  have h2 := rne_i16_bounds hhi
  unfold descFits
  split <;> omega

/-- The descriptor of a row of I16: the smallest shift that fits, and its zero point (R130). -/
theorem descOf_smallest (symmetric : Bool) {lo hi : Int} (hlo : -32768 ≤ lo ∧ lo ≤ 32767) (hhi : -32768 ≤ hi ∧ hi ≤ 32767) :
    let d := descOf symmetric lo hi
    d.1 < 16 ∧ descFits symmetric lo hi d.1 ∧ (∀ k, k < d.1 → ¬ descFits symmetric lo hi k) ∧
      d.2 = if symmetric then 0 else max (-128) (min 127 (-128 - rne lo (2 ^ d.1))) := by
  intro d
  have hsome : ((List.range 16).find? (descFitsB symmetric lo hi)).isSome = true :=
    List.find?_isSome.mpr ⟨15, by simp, descFitsB_iff.mpr (descFits_last hlo hhi)⟩
  obtain ⟨k, hk⟩ := Option.isSome_iff_exists.mp hsome
  have hd1 : d.1 = k := congrArg (·.getD 15) hk
  have hd2 : d.2 = if symmetric then 0 else clampI (-128) 127 (-128 - rne lo (2 ^ d.1)) := rfl
  obtain ⟨hfit, hk16, hleast⟩ := List.find?_range_eq_some.mp hk
  rw [hd2, hd1, clampI_eq (by decide)]
  refine ⟨List.mem_range.mp hk16, descFitsB_iff.mp hfit, fun j hj hf => ?_, rfl⟩
  have := hleast j hj
  rw [descFitsB_iff.mpr hf] at this
  exact nomatch this

theorem immF_bit (w : VWord) : (immF w 0 1 == 1) = bvBit 0 w.imm := by
  simp [immF, bvGet, bvBit, BitVec.extractLsb'_toNat, BitVec.getLsbD, Nat.testBit_zero, Bool.beq_eq_decide_eq]

theorem toCode_cast (b : Nat) (v : Int) : ((toCode b v : Nat) : Int) = v % 2 ^ b := by
  unfold toCode
  rw [BitVec.toNat_ofInt, Int.toNat_of_nonneg (Int.emod_nonneg _ (by positivity))]
  push_cast
  rfl

/-- What VDESC writes: a descriptor of 0 for a row with no active element, else that of the row's extremes (R130). -/
theorem vDesc_ok {x : VCtx} {w : VWord} {f : VFile} (ht : VTy.ofCode w.ty.val = some .i16)
    (hg : ∀ g ∈ [(VTy.i16, w.vd.val, 1), (VTy.i16, w.va.val, nOf w)], groupOk g.1 g.2.1 g.2.2) :
    ∃ d : Nat × Int, vDesc x w f = .ok { file := f.set .i16 w.vd 0 (toCode 8 d.2 + 256 * d.1 : Nat), buf := x.buf } ∧
      (minMax ((activeOf f w).map fun i => f.get .i16 w.va i) = none ∧ d = (0, 0) ∨
        ∃ p, minMax ((activeOf f w).map fun i => f.get .i16 w.va i) = some p ∧ d = descOf (bvBit 0 w.imm) p.1 p.2) := by
  unfold vDesc
  rw [withType_eq _ ht rfl, withGroups_eq _ hg, immF_bit]
  cases minMax ((activeOf f w).map fun i => f.get .i16 w.va i) with
  | none => exact ⟨_, rfl, .inl ⟨rfl, rfl⟩⟩
  | some p => exact ⟨_, rfl, .inr ⟨p, rfl, rfl⟩⟩

/-- VDESC writes the descriptor of its row into element 0. -/
theorem exec_vdesc_describes (c : CoreId) (w : VWord) (s : State)
    (h : s.vecReady c (.vdesc c w) w .i16 [(.i16, w.vd, 1), (.i16, w.va, nOf w)]) :
    let f := (s.core c).vec
    ∃ (t : State) (tau : Nat) (z : Int), exec (.vdesc c w) s = .next t ∧
      f.wrote (t.core c).vec .i16 w.vd [0] (fun _ => wrapW 16 (z % 256 + 256 * tau)) ∧
      s.vecDone t c (costPer 10 128 w) (activeOf f w).length 0 ∧ tau < 16 ∧ (activeOf f w = [] → tau = 0 ∧ z = 0) ∧
      (∀ lo hi, (∃ j ∈ activeOf f w, f.get .i16 w.va j = lo) → (∀ j ∈ activeOf f w, lo ≤ f.get .i16 w.va j) →
        (∃ j ∈ activeOf f w, f.get .i16 w.va j = hi) → (∀ j ∈ activeOf f w, f.get .i16 w.va j ≤ hi) →
        descFits (bvBit 0 w.imm) lo hi tau ∧ (∀ k, k < tau → ¬ descFits (bvBit 0 w.imm) lo hi k) ∧
        z = if bvBit 0 w.imm then 0 else max (-128) (min 127 (-128 - rne lo (2 ^ tau)))) := by
  intro f
  obtain ⟨hh, ht, hg⟩ := h
  obtain ⟨⟨tau, z⟩, ho, hd0⟩ := vDesc_ok (x := s.vecCtx c) (f := f) ht hg
  obtain ⟨hf, hd⟩ := s.vec_ok (k := .masked) (cost := costPer 10 128) hh ho (s.consume_nil _)
  have hw : f.wrote ((s.vec c (.vdesc c w) w vDesc .masked (costPer 10 128)).core c).vec .i16 w.vd [0] fun _ => wrapW 16 (z % 256 + 256 * tau) := by
    rw [hf]
    refine VFile.wrote_congr (VFile.setAll_wrote .i16 w.vd (fun _ => _) [0] f) fun _ _ => congrArg (wrapW 16) ?_
    push_cast
    rw [toCode_cast]
    rfl
  refine ⟨_, tau, z, rfl, hw, hd, ?_⟩
  rcases hd0 with ⟨hnone, hz⟩ | ⟨p, hp, hz⟩
  · obtain ⟨rfl, rfl⟩ := Prod.mk.inj hz
    have hnil : activeOf f w = [] := by
      cases ha : activeOf f w with
      | nil => rfl
      | cons => rw [ha] at hnone; exact nomatch hnone
    rw [hnil]
    exact ⟨by omega, fun _ => ⟨rfl, rfl⟩, fun _ _ ⟨_, hj, _⟩ => nomatch hj⟩
  · obtain ⟨hlo, hlo', hhi, hhi'⟩ := minMax_some hp
    obtain ⟨a, ha, hae⟩ := List.mem_map.mp hlo
    obtain ⟨b, hb, hbe⟩ := List.mem_map.mp hhi
    obtain ⟨h16, hfit, hleast, hzero⟩ := descOf_smallest (bvBit 0 w.imm) (hae ▸ f.get_bounds .i16 w.va a) (hbe ▸ f.get_bounds .i16 w.va b)
    rw [← hz] at h16 hfit hleast hzero
    refine ⟨h16, fun hnil => absurd ha (hnil ▸ List.not_mem_nil), fun lo hi ⟨j, hj, hje⟩ hl ⟨k, hk, hke⟩ hh => ?_⟩
    have h1 : lo = p.1 := le_antisymm (hae ▸ hl a ha) (hje ▸ hlo' _ (List.mem_map_of_mem hj))
    have h2 : hi = p.2 := le_antisymm (hke ▸ hhi' _ (List.mem_map_of_mem hk)) (hbe ▸ hh b hb)
    rw [h1, h2]
    exact ⟨hfit, hleast, hzero⟩

/-! ### VEXTS -/

/-- The subfields of IMM for a weight format and a used group (R132). -/
theorem quantImm_eq {w : VWord} {fm : Fmt} {n : Nat} (hf : Fmt.ofCode (immF w 15 4) = some fm) (hw : fm.isWeight = true)
    (hn : groupSize (immF w 0 2) = some n) : quantImm w = some (fm, immF w 12 3, immF w 6 6, immF w 2 4, n) := by
  simp [quantImm, hf, hn, hw]

/-- Bytes of a record before its scale byte. -/
theorem codeBytes_eq {fm : Fmt} (hw : fm.isWeight = true) (n : Nat) : (if fm.isNibble then n / 2 else n) = if fm = .u8 then n else n / 2 := by
  cases fm with
  | g4 | u8 | u4z => rfl
  | a8 | a16 | l8 => exact nomatch hw

theorem wrapW_i16_byte (f : VFile) (n i : Nat) : wrapW 16 (f.getU .i8 n i : Nat) = (f.getU .i8 n i : Nat) := by
  have h : f.getU .i8 n i < 256 := f.getU_lt .i8 n i
  exact wrapW_of_fits (by decide) (by simp only [minOf]; omega) (by simp only [maxOf]; omega)

/-- VEXTS writes the scale bytes of the records. -/
theorem exec_vexts_scales (c : CoreId) (w : VWord) (s : State) (fm : Fmt) (n : Nat) (hfm : Fmt.ofCode (immF w 15 4) = some fm)
    (hw : fm.isWeight) (hn : groupSize (immF w 0 2) = some n)
    (h : s.vecReady c (.vexts c w) w .i16 [(.i16, w.vd, nOf w), (.i8, w.va, nOf w * recordBytes fm n)]) :
    let f := (s.core c).vec
    ∃ t, exec (.vexts c w) s = .next t ∧ f.wrote (t.core c).vec .i16 w.vd (List.range (nOf w)) (fun j =>
        f.getU .i8 w.va (j * recordBytes fm n + (if fm = .u8 then n else n / 2))) ∧ s.vecDone t c (costPer 4 64 w) (nOf w) 0 := by
  intro f
  obtain ⟨hh, ht, hg⟩ := h
  have ho : vExts (s.vecCtx c) w f = .ok
      { file := f.setAll .i16 w.vd (List.range (nOf w)) fun i =>
          (f.getU .i8 w.va (i * recordBytes fm n + (if fm = .u8 then n else n / 2)) : Nat)
        buf := (s.core c).buf } := by
    unfold vExts
    rw [withType_eq _ ht rfl, quantImm_eq hfm hw hn, ← codeBytes_eq hw]
    exact withGroups_eq _ hg
  obtain ⟨hf, hd⟩ := s.vec_ok (k := .all) (cost := costPer 4 64) hh ho (s.consume_nil _)
  refine ⟨_, rfl, ?_, hd⟩
  rw [hf]
  exact VFile.wrote_congr (VFile.setAll_wrote ..) fun j _ => wrapW_i16_byte f _ _

/-- Settles O25, instruction by instruction. -/
theorem vectorConversions : Obligations.VectorConversions :=
  ⟨exec_vcvt_rounds, exec_vacc_rounds, exec_vaccraw_shows, exec_vdesc_describes, exec_vexts_scales⟩

end Sys2Proof.Machine
end

section
/-! PROOFS. Quantisation in the vector engine: VQSCALE, VQUANT and VDEQ (R62, R79 to R82, R131, R132). -/

namespace Sys2Proof.Machine

theorem groupSize_even {k n : Nat} (h : groupSize k = some n) : n % 2 = 0 := by
  unfold groupSize at h
  split at h <;> cases h <;> rfl

/-! ### VQSCALE -/

theorem scaleOf_le (m g : Int) (c f : Nat) : scaleOf m g c f ≤ 255 := by
  unfold scaleOf
  split <;> [skip; split] <;> omega

theorem wrapW_scaleOf (m g : Int) (c f : Nat) : wrapW 16 (scaleOf m g c f : Nat) = (scaleOf m g c f : Nat) := by
  have := scaleOf_le m g c f
  exact wrapW_of_fits (by decide) (by simp only [minOf]; omega) (by simp only [maxOf]; omega)

/-- The scale of R131 is the smallest up to 255 that covers the magnitude. -/
theorem scaleOf_smallest {m : Nat} {bound : Int} (c f : Nat) (hm : 0 < m) (hb : 0 < bound) :
    let sc : Int := scaleOf m bound c f
    0 < sc ∧ sc ≤ 255 ∧ (sc - 1) * (bound * 2 ^ f) < m * 2 ^ c ∧ (sc < 255 → m * 2 ^ c ≤ sc * (bound * 2 ^ f)) := by
  intro sc
  have hD : 0 < bound * 2 ^ f := by positivity
  have hM : 0 < (m : Int) * 2 ^ c := by positivity
  have hsc : sc = min 255 (((m : Int) * 2 ^ c + (bound * 2 ^ f - 1)) / (bound * 2 ^ f)).toNat := by
    refine congrArg Nat.cast ((if_neg (by omega)).trans (if_neg (Int.not_le.mpr hb))) |>.trans ?_
    push_cast
    rfl
  generalize bound * 2 ^ f = D at *
  generalize (m : Int) * 2 ^ c = M at *
  have h1 : (M + (D - 1)) / D * D ≤ M + (D - 1) := Int.ediv_mul_le _ hD.ne'
  have h2 : M + (D - 1) < ((M + (D - 1)) / D + 1) * D := Int.lt_ediv_add_one_mul_self _ hD
  have h3 : 1 ≤ (M + (D - 1)) / D := Int.le_ediv_of_mul_le hD (by omega)
  generalize (M + (D - 1)) / D = q at *
  rw [add_mul, one_mul] at h2
  refine ⟨by omega, by omega, ?_, fun hlt => ?_⟩
  · have hle : (sc - 1) * D ≤ (q - 1) * D := mul_le_mul_of_nonneg_right (by omega) hD.le
    rw [sub_mul q, one_mul] at hle
    omega
  · obtain rfl : sc = q := by omega
    omega

/-- The largest magnitude of group `g` of VA. -/
def groupMax (f : VFile) (w : VWord) (n g : Nat) : Int :=
  ((List.range n).filter fun r => n * g + r < nOf w).foldl (fun m r => max m ((f.get .i16 w.va (n * g + r)).natAbs : Int)) (0 : Nat)

theorem groupMax_eq (f : VFile) (w : VWord) (n g : Nat) :
    ∃ m : Nat, groupMax f w n g = m ∧ (∀ r, r < n → n * g + r < nOf w → (f.get .i16 w.va (n * g + r)).natAbs ≤ m) ∧
      (m = 0 ∨ ∃ r, r < n ∧ n * g + r < nOf w ∧ (f.get .i16 w.va (n * g + r)).natAbs = m) := by
  let is := (List.range n).filter fun r => n * g + r < nOf w
  have his : ∀ r, r ∈ is ↔ r < n ∧ n * g + r < nOf w := fun r => by simp [is]
  obtain ⟨hall, hone⟩ := (isPick_max (α := Int)).foldl_map (g := fun r => ((f.get .i16 w.va (n * g + r)).natAbs : Int)) (e := (0 : Nat)) (is := is)
    fun _ _ => Int.natCast_nonneg _
  rw [List.foldl_map] at hall hone
  change (∀ r ∈ is, _ ≤ groupMax f w n g) at hall
  change ((∃ r ∈ is, _ = groupMax f w n g) ∨ _ ∧ groupMax f w n g = _) at hone
  rcases hone with ⟨r, hr, he⟩ | ⟨-, he⟩
  · obtain ⟨h1, h2⟩ := (his r).mp hr
    exact ⟨_, he.symm, fun k h1 h2 => Int.ofNat_le.mp (he ▸ hall k ((his k).mpr ⟨h1, h2⟩)), .inr ⟨r, h1, h2, rfl⟩⟩
  · exact ⟨0, he, fun k h1 h2 => Int.ofNat_le.mp (he ▸ hall k ((his k).mpr ⟨h1, h2⟩)), .inl rfl⟩

/-- The bound of the grid that a scale is found for (R131). -/
def scaleBound (grid : Nat → Int) (fm : Fmt) : Int := if fm = .g4 then max (-(grid 0)) (grid 15) else 127

theorem vQScale_ok {x : VCtx} {w : VWord} {f : VFile} {fm : Fmt} {n : Nat} (ht : VTy.ofCode w.ty.val = some .i16)
    (hfm : Fmt.ofCode (immF w 15 4) = some fm) (hw : fm = .g4 ∨ fm = .u8) (hn : groupSize (immF w 0 2) = some n)
    (hg : ∀ g ∈ [(VTy.i16, w.vd.val, ceilDiv (nOf w) n), (.i16, w.va.val, nOf w)], groupOk g.1 g.2.1 g.2.2) :
    vQScale x w f = .ok
      { file := f.setAll .i16 w.vd (List.range (ceilDiv (nOf w) n)) fun g =>
          (scaleOf (groupMax f w n g) (scaleBound (x.grid (immF w 12 3)) fm) (immF w 6 6) (immF w 2 4) : Nat)
        buf := x.buf } := by
  have hweight : fm.isWeight = true ∧ fm ≠ .u4z := by rcases hw with rfl | rfl <;> decide
  unfold vQScale
  rw [withType_eq _ ht rfl, quantImm_eq hfm hweight.1 hn]
  refine (if_neg hweight.2).trans ?_
  exact withGroups_eq _ hg

/-- VQSCALE writes the scale of each group. -/
theorem exec_vqscale_scales (c : CoreId) (w : VWord) (s : State) (fm : Fmt) (n : Nat) (hfm : Fmt.ofCode (immF w 15 4) = some fm)
    (hw : fm = .g4 ∨ fm = .u8) (hn : groupSize (immF w 0 2) = some n)
    (h : s.vecReady c (.vqscale c w) w .i16 [(.i16, w.vd, ceilDiv (nOf w) n), (.i16, w.va, nOf w)]) :
    let f := (s.core c).vec
    let bound := scaleBound (s.gridVal c (immF w 12 3)) fm
    ∃ t sc, exec (.vqscale c w) s = .next t ∧ f.wrote (t.core c).vec .i16 w.vd (List.range (ceilDiv (nOf w) n)) sc ∧
      s.vecDone t c (costPer 8 128 w) (nOf w) 0 ∧
      ∀ g, g < ceilDiv (nOf w) n → ∃ m : Nat, (∀ r, r < n → n * g + r < nOf w → (f.get .i16 w.va (n * g + r)).natAbs ≤ m) ∧
        (m = 0 ∨ ∃ r, r < n ∧ n * g + r < nOf w ∧ (f.get .i16 w.va (n * g + r)).natAbs = m) ∧
        (m = 0 → sc g = 0) ∧ (0 < m → bound ≤ 0 → sc g = 255) ∧
        (0 < m → 0 < bound → 0 < sc g ∧ sc g ≤ 255 ∧ (sc g - 1) * (bound * 2 ^ immF w 2 4) < m * 2 ^ immF w 6 6 ∧
          (sc g < 255 → m * 2 ^ immF w 6 6 ≤ sc g * (bound * 2 ^ immF w 2 4))) := by
  intro f bound
  obtain ⟨hh, ht, hg⟩ := h
  obtain ⟨hf, hd⟩ := s.vec_ok (k := .all) (cost := costPer 8 128) hh (vQScale_ok ht hfm hw hn hg) (s.consume_nil _)
  refine ⟨_, fun g => (scaleOf (groupMax f w n g) bound (immF w 6 6) (immF w 2 4) : Nat), rfl, ?_, hd, fun g _ => ?_⟩
  · rw [hf]
    refine VFile.wrote_congr (VFile.setAll_wrote ..) fun g _ => ?_
    exact wrapW_scaleOf _ _ _ _
  · obtain ⟨m, hm, hall, hone⟩ := groupMax_eq f w n g
    dsimp only
    rw [hm]
    refine ⟨m, hall, hone, fun h0 => ?_, fun h0 hb => ?_, scaleOf_smallest _ _⟩
    · exact congrArg Nat.cast (if_pos (congrArg Nat.cast h0))
    · exact congrArg Nat.cast ((if_neg (by omega)).trans (if_pos hb))

/-! ### Records (R62, R132) -/

theorem packNibbles_length : ∀ l : List Nat, (packNibbles l).length = (l.length + 1) / 2
  | [] => rfl
  | [_] => by simp [packNibbles]
  | _ :: _ :: l => by
    simp only [packNibbles, List.length_cons, packNibbles_length l]
    omega

theorem packNibbles_getD : ∀ (l : List Nat) (k : Nat),
    (packNibbles l).getD k 0#8 = BitVec.ofNat 8 (l.getD (2 * k) 0 % 16 + 16 * (l.getD (2 * k + 1) 0 % 16))
  | [], _ => by simp [packNibbles]
  | [_], 0 => by simp [packNibbles]
  | [_], k + 1 => by simp [packNibbles, Nat.mul_add]
  | _ :: _ :: _, 0 => rfl
  | _ :: _ :: l, k + 1 => packNibbles_getD l k

/-- Code `r` of packed nibbles. -/
theorem packNibbles_nibble (l : List Nat) (r : Nat) :
    ((packNibbles l).getD (r / 2) 0#8).toNat / (if r % 2 = 0 then 1 else 16) % 16 = l.getD r 0 % 16 := by
  rw [packNibbles_getD, BitVec.toNat_ofNat]
  split
  · rw [show 2 * (r / 2) = r by omega]
    omega
  · rw [show 2 * (r / 2) + 1 = r by omega]
    omega

section
variable {fm : Fmt} {codes : List Int} {n s zw : Nat}

theorem length_packNibbles_codes (hl : codes.length = n) (hn : n % 2 = 0) : (packNibbles (codes.map Int.toNat)).length = n / 2 := by
  rw [packNibbles_length, List.length_map]
  omega

/-- A code of 4 bits in packed nibbles, whatever bytes follow them. -/
theorem packNibbles_code (hl : codes.length = n) (hn : n % 2 = 0) (tail : List Byte) {r : Nat} (hr : r < n) :
    ((packNibbles (codes.map Int.toNat) ++ tail).getD (r / 2) 0#8).toNat / (if r % 2 = 0 then 1 else 16) % 16 = (codes.getD r 0).toNat % 16 := by
  have hp := length_packNibbles_codes hl hn
  rw [List.getD_append _ _ _ _ (by omega), packNibbles_nibble]
  exact congrArg (· % 16) (List.getD_map codes 0 Int.toNat)

theorem length_recordOf (hw : fm.isWeight = true) (hl : codes.length = n) (hn : n % 2 = 0) :
    (recordOf fm codes s zw).length = recordBytes fm n := by
  have hp := length_packNibbles_codes hl hn
  cases fm with
  | g4 | u4z => simp only [recordOf, recordBytes, List.length_append, List.length_cons, List.length_nil, hp]
  | u8 => simp only [recordOf, recordBytes, List.length_append, List.length_cons, List.length_nil, List.length_map, hl]
  | a8 | a16 | l8 => exact nomatch hw

theorem scaleIndex_lt (hw : fm.isWeight = true) (n : Nat) : (if fm = .u8 then n else n / 2) < recordBytes fm n := by
  cases fm with
  | g4 | u8 => exact Nat.lt_succ_self _
  | u4z => exact Nat.lt_succ_of_lt (Nat.lt_succ_self _)
  | a8 | a16 | l8 => exact nomatch hw

theorem halfIndex_lt (hw : fm.isWeight = true) (h8 : fm ≠ .u8) {r : Nat} (hr : r < n) : r / 2 < recordBytes fm n := by
  have h := scaleIndex_lt hw n
  rw [if_neg h8] at h
  omega

/-- The parts of a record: its codes, of 8 bits or two to a byte, its scale byte, and the zero-point byte of U4Z. -/
theorem recordOf_parts (hw : fm.isWeight = true) (hl : codes.length = n) (hn : n % 2 = 0) :
    (∀ r, r < n → fm = .u8 → (recordOf fm codes s zw).getD r 0#8 = BitVec.ofInt 8 (codes.getD r 0)) ∧
      (∀ r, r < n → fm ≠ .u8 →
        ((recordOf fm codes s zw).getD (r / 2) 0#8).toNat / (if r % 2 = 0 then 1 else 16) % 16 = (codes.getD r 0).toNat % 16) ∧
      (recordOf fm codes s zw).getD (if fm = .u8 then n else n / 2) 0#8 = BitVec.ofNat 8 s ∧
      (fm = .u4z → (recordOf fm codes s zw).getD (n / 2 + 1) 0#8 = BitVec.ofNat 8 zw) := by
  have hp := length_packNibbles_codes hl hn
  cases fm with
  | g4 =>
    refine ⟨fun _ _ h => (nomatch h), fun r hr _ => packNibbles_code hl hn _ hr, ?_, fun h => nomatch h⟩
    exact (List.getD_append_right _ _ _ _ hp.le).trans (by simp [hp])
  | u4z =>
    refine ⟨fun _ _ h => (nomatch h), fun r hr _ => packNibbles_code hl hn _ hr, ?_, fun _ => ?_⟩
    · exact (List.getD_append_right _ _ _ _ hp.le).trans (by simp [hp])
    · exact (List.getD_append_right _ _ _ _ (hp.le.trans (Nat.le_succ _))).trans (by simp [hp])
  | u8 =>
    have hm : (codes.map (BitVec.ofInt 8)).length = n := by rw [List.length_map, hl]
    refine ⟨fun r hr _ => ?_, fun _ _ h => absurd rfl h, ?_, fun h => nomatch h⟩
    · refine (List.getD_append _ _ _ _ (by omega)).trans ?_
      exact List.getD_map codes 0 (BitVec.ofInt 8)
    · exact (List.getD_append_right _ _ _ _ hm.le).trans (by simp [hm])
  | a8 | a16 | l8 => exact nomatch hw

end

/-! ### Codes (R79 to R82) -/

/-- One midpoint of R80: the code goes up by one where the value lies above it, or on it below an odd code. -/
def gridStep (n d : Int) (v : Nat → Int) (code k : Nat) : Nat :=
  if 2 * n > (v k + v (k + 1)) * d then code + 1 else if 2 * n = (v k + v (k + 1)) * d ∧ k % 2 = 1 then code + 1 else code

theorem gridStep_le (n d : Int) (v : Nat → Int) (code k : Nat) : gridStep n d v code k ≤ code + 1 := by
  unfold gridStep
  split <;> [skip; split] <;> omega

theorem foldl_gridStep_le (n d : Int) (v : Nat → Int) (l : List Nat) (code : Nat) : l.foldl (gridStep n d v) code ≤ code + l.length := by
  induction l generalizing code with
  | nil => exact le_refl _
  | cons k l ih =>
    have := gridStep_le n d v code k
    have := ih (gridStep n d v code k)
    rw [List.foldl_cons, List.length_cons]
    omega

theorem gridCode_le (n d : Int) (v : Nat → Int) : gridCode n d v ≤ 15 := foldl_gridStep_le n d v (List.range 15) 0

/-- A code of G4 or U4Z has 4 bits. -/
theorem quantise_nibble {fm : Fmt} (hw : fm.isWeight = true) (h8 : fm ≠ .u8) (v : Nat → Int) (s zw : Nat) (n d : Int) :
    ∃ q : Nat, q < 16 ∧ (quantise fm v s zw n d).1 = q := by
  unfold quantise
  split
  · exact ⟨0, by decide, rfl⟩
  cases fm with
  | g4 => exact ⟨_, Nat.lt_succ_of_le (gridCode_le n d v), rfl⟩
  | u4z =>
    have h : 0 ≤ clampI 0 15 (rne n d + zw) ∧ clampI 0 15 (rne n d + zw) ≤ 15 := by
      rw [clampI_eq (by decide)]
      omega
    exact ⟨(clampI 0 15 (rne n d + zw)).toNat, by omega, (Int.toNat_of_nonneg h.1).symm⟩
  | u8 => exact absurd rfl h8
  | a8 | a16 | l8 => exact nomatch hw

/-- A code of U8 fits its byte. -/
theorem wrapW_quantise_u8 (v : Nat → Int) (s zw : Nat) (n d : Int) : wrapW 8 (quantise .u8 v s zw n d).1 = (quantise .u8 v s zw n d).1 := by
  unfold quantise
  split
  · rfl
  · show wrapW 8 (clampI (-127) 127 (rne n d)) = clampI (-127) 127 (rne n d)
    rw [clampI_eq (by decide)]
    exact wrapW_of_fits (by decide) (by simp only [minOf]; omega) (by simp only [maxOf]; omega)

/-! ### VQUANT -/

theorem zipIdx_eq_map_range (bytes : List Byte) : bytes.zipIdx = (List.range bytes.length).map fun i => (bytes.getD i 0#8, i) := by
  refine List.ext_getElem (by simp) fun i h1 h2 => ?_
  have hi : i < bytes.length := by simpa using h1
  simp [hi]

/-- Bytes written one after another from element 0 of a group. -/
theorem VFile.getU_bytes (f : VFile) (d : Nat) (bytes : List Byte) :
    let f' := bytes.zipIdx.foldl (fun acc p => acc.set .i8 d p.2 p.1.toInt) f
    (∀ i, i < bytes.length → f'.getU .i8 d i = (bytes.getD i 0#8).toNat) ∧ (∀ i, bytes.length ≤ i → f'.getU .i8 d i = f.getU .i8 d i) := by
  intro f'
  have hf' : f' = f.setAll .i8 d (List.range bytes.length) fun i => (bytes.getD i 0#8).toInt := by
    simp only [f', zipIdx_eq_map_range, List.foldl_map]
    rfl
  obtain ⟨hin, hout, -⟩ := VFile.setAll_wrote .i8 d (fun i => (bytes.getD i 0#8).toInt) (List.range bytes.length) f
  rw [← hf'] at hin hout
  refine ⟨fun i hi => ?_, fun i hi => hout i (by simpa using hi)⟩
  have hget : BitVec.ofNat 8 (f'.getU .i8 d i) = bytes.getD i 0#8 := by
    refine BitVec.eq_of_toInt_eq ((hin i (List.mem_range.mpr hi)).trans ?_)
    show (BitVec.ofInt 8 (bytes.getD i 0#8).toInt).toInt = _
    rw [BitVec.ofInt_toInt]
  rw [← hget, BitVec.toNat_ofNat]
  exact (Nat.mod_eq_of_lt (f'.getU_lt .i8 d i)).symm

/-- Element `r` of group `g` as a code, and whether it saturated (R132). -/
def quantElem (x : VCtx) (w : VWord) (f : VFile) (fm : Fmt) (n g r : Nat) : Int × Bool :=
  quantise fm (x.grid (immF w 12 3)) (f.getU .i16 w.vb g % 256) (f.getU .i16 w.vb g / 256 % 16)
    ((if n * g + r < nOf w then f.get .i16 w.va (n * g + r) else 0) * 2 ^ immF w 6 6) ((f.getU .i16 w.vb g % 256 : Nat) * 2 ^ immF w 2 4)

/-- The record of group `g` (R132). -/
def quantRecord (x : VCtx) (w : VWord) (f : VFile) (fm : Fmt) (n g : Nat) : List Byte :=
  recordOf fm ((List.range n).map fun r => (quantElem x w f fm n g r).1) (f.getU .i16 w.vb g % 256)
    (if f.getU .i16 w.vb g % 256 = 0 then 0 else f.getU .i16 w.vb g / 256 % 16)

/-- The parts of the record of group `g`: codes, scale and zero point. -/
theorem quantRecord_parts (x : VCtx) (w : VWord) (f : VFile) {fm : Fmt} (hw : fm.isWeight = true) {n : Nat} (hn : n % 2 = 0) (g : Nat) :
    let b := fun k => (quantRecord x w f fm n g).getD k 0#8
    (∀ r, r < n → fm = .u8 → (b r).toInt = (quantElem x w f fm n g r).1) ∧
      (∀ r, r < n → fm ≠ .u8 → (((b (r / 2)).toNat / (if r % 2 = 0 then 1 else 16) % 16 : Nat) : Int) = (quantElem x w f fm n g r).1) ∧
      (b (if fm = .u8 then n else n / 2)).toNat = f.getU .i16 w.vb g % 256 ∧
      (fm = .u4z → (b (n / 2 + 1)).toNat = if f.getU .i16 w.vb g % 256 = 0 then 0 else f.getU .i16 w.vb g / 256 % 16) := by
  intro b
  obtain ⟨h8, hnib, hscale, hzero⟩ := recordOf_parts (codes := (List.range n).map fun r => (quantElem x w f fm n g r).1)
    (s := f.getU .i16 w.vb g % 256) (zw := if f.getU .i16 w.vb g % 256 = 0 then 0 else f.getU .i16 w.vb g / 256 % 16) hw (by simp) hn
  have hcode : ∀ r, r < n → ((List.range n).map fun r => (quantElem x w f fm n g r).1).getD r 0 = (quantElem x w f fm n g r).1 :=
    fun r hr => by simp [hr]
  refine ⟨fun r hr hu => ?_, fun r hr hu => ?_, ?_, fun hu => ?_⟩
  · subst hu
    exact (congrArg BitVec.toInt ((h8 r hr rfl).trans (congrArg _ (hcode r hr)))).trans (wrapW_quantise_u8 ..)
  · obtain ⟨q, hq, he⟩ := quantise_nibble hw hu (x.grid (immF w 12 3)) (f.getU .i16 w.vb g % 256) (f.getU .i16 w.vb g / 256 % 16)
      ((if n * g + r < nOf w then f.get .i16 w.va (n * g + r) else 0) * 2 ^ immF w 6 6) ((f.getU .i16 w.vb g % 256 : Nat) * 2 ^ immF w 2 4)
    have he : (quantElem x w f fm n g r).1 = q := he
    refine (congrArg Nat.cast (hnib r hr hu)).trans ?_
    rw [hcode r hr, he, Int.toNat_natCast, Nat.mod_eq_of_lt hq]
  · exact (congrArg BitVec.toNat hscale).trans (by rw [BitVec.toNat_ofNat]; omega)
  · refine (congrArg BitVec.toNat (hzero hu)).trans ?_
    rw [BitVec.toNat_ofNat]
    split <;> omega

theorem vQuant_ok {x : VCtx} {w : VWord} {f : VFile} {fm : Fmt} {n : Nat} (ht : VTy.ofCode w.ty.val = some .i16)
    (hfm : Fmt.ofCode (immF w 15 4) = some fm) (hw : fm.isWeight = true) (hn : groupSize (immF w 0 2) = some n)
    (hg : ∀ g ∈ [(VTy.i8, w.vd.val, ceilDiv (nOf w) n * recordBytes fm n), (.i16, w.va.val, nOf w), (.i16, w.vb.val, ceilDiv (nOf w) n)],
      groupOk g.1 g.2.1 g.2.2) :
    vQuant x w f = .ok
      { file := ((List.range (ceilDiv (nOf w) n)).flatMap (quantRecord x w f fm n)).zipIdx.foldl (fun acc p => acc.set .i8 w.vd p.2 p.1.toInt) f
        buf := x.buf
        sats := ((List.range (ceilDiv (nOf w) n)).map fun g => ((List.range n).filter fun r => (quantElem x w f fm n g r).2).length).sum } := by
  unfold vQuant
  rw [withType_eq _ ht rfl, quantImm_eq hfm hw hn]
  refine (withGroups_eq _ hg).trans ?_
  simp only [List.flatMap_map, List.map_map, List.filter_map, List.length_map]
  rfl

/-- VQUANT writes the records of its groups one after another. -/
theorem exec_vquant_records (c : CoreId) (w : VWord) (s : State) (fm : Fmt) (n : Nat) (hfm : Fmt.ofCode (immF w 15 4) = some fm)
    (hw : fm.isWeight) (hn : groupSize (immF w 0 2) = some n)
    (h : s.vecReady c (.vquant c w) w .i16
      [(.i8, w.vd, ceilDiv (nOf w) n * recordBytes fm n), (.i16, w.va, nOf w), (.i16, w.vb, ceilDiv (nOf w) n)]) :
    let f := (s.core c).vec
    ∃ t, exec (.vquant c w) s = .next t ∧
      (∀ g, g < ceilDiv (nOf w) n → ∀ k, k < recordBytes fm n →
        (t.core c).vec.getU .i8 w.vd (g * recordBytes fm n + k) = ((quantRecord (s.vecCtx c) w f fm n g).getD k 0#8).toNat) ∧
      (∀ i, ceilDiv (nOf w) n * recordBytes fm n ≤ i → (t.core c).vec.getU .i8 w.vd i = f.getU .i8 w.vd i) ∧
      s.vecDone t c (costPer 8 32 w) (nOf w)
        ((List.range (ceilDiv (nOf w) n)).map fun g => ((List.range n).filter fun r => (quantElem (s.vecCtx c) w f fm n g r).2).length).sum := by
  intro f
  obtain ⟨hh, ht, hg⟩ := h
  obtain ⟨hf, hd⟩ := s.vec_ok (k := .all) (cost := costPer 8 32) hh (vQuant_ok ht hfm hw hn hg) (s.consume_nil _)
  have hrec : ∀ g, (quantRecord (s.vecCtx c) w f fm n g).length = recordBytes fm n := fun g =>
    length_recordOf hw (by simp) (groupSize_even hn)
  have hlen : ((List.range (ceilDiv (nOf w) n)).flatMap (quantRecord (s.vecCtx c) w f fm n)).length = ceilDiv (nOf w) n * recordBytes fm n := by
    simp [List.length_flatMap, hrec]
  obtain ⟨hin, hout⟩ := f.getU_bytes w.vd ((List.range (ceilDiv (nOf w) n)).flatMap (quantRecord (s.vecCtx c) w f fm n))
  rw [hlen] at hin hout
  refine ⟨_, rfl, fun g hgn k hk => ?_, fun i hi => ?_, hd⟩
  · have hlt : g * recordBytes fm n + k < ceilDiv (nOf w) n * recordBytes fm n := by
      have := Nat.mul_le_mul_right (recordBytes fm n) (Nat.succ_le_of_lt hgn)
      rw [Nat.succ_mul] at this
      omega
    rw [hf, hin _ hlt, getD_flatMap_range _ hrec hgn hk]
  · rw [hf, hout i hi]

/-! ### VDEQ -/

theorem gridVal_bounds (s : State) (c g k : Nat) : -128 ≤ s.gridVal c g k ∧ s.gridVal c g k ≤ 127 :=
  ⟨BitVec.le_toInt _, Int.le_sub_one_of_lt BitVec.toInt_lt⟩

/-- A number of 8 bits times a scale byte fits 16 bits. -/
theorem wrapW_mul_scale {a : Int} {b : Nat} (h1 : -128 ≤ a) (h2 : a ≤ 127) (hb : b < 256) : wrapW 16 (a * b) = a * b := by
  have h3 : -128 * (b : Int) ≤ a * b := mul_le_mul_of_nonneg_right h1 (by omega)
  have h4 : a * (b : Int) ≤ 127 * b := mul_le_mul_of_nonneg_right h2 (by omega)
  exact wrapW_of_fits (by decide) (by simp only [minOf]; omega) (by simp only [maxOf]; omega)

/-- The value of element `j` of the records in VA: grid value, code less zero point, or code, times the scale (R132). -/
def dequantValue (grid : Nat → Int) (fm : Fmt) (n : Nat) (f : VFile) (va j : Nat) : Int :=
  let byte := fun k => f.getU .i8 va (j / n * recordBytes fm n + k)
  let nib := byte (j % n / 2) / (if j % n % 2 = 0 then 1 else 16) % 16
  match fm with
  | .g4 => grid nib * byte (n / 2)
  | .u4z => ((nib : Int) - (byte (n / 2 + 1) % 16 : Nat)) * byte (n / 2)
  | _ => f.get .i8 va (j / n * recordBytes fm n + j % n) * byte n

theorem dequant_eq {x : VCtx} {fm : Fmt} {gr n : Nat} {f : VFile} {va : Nat} (hw : fm.isWeight = true) (j : Nat) :
    dequant x fm gr n f va (j / n) (j % n) = dequantValue (x.grid gr) fm n f va j := by
  cases fm with
  | g4 | u4z | u8 => rfl
  | a8 | a16 | l8 => exact nomatch hw

/-- The value fits I16: each of its factors is of 8 bits. -/
theorem wrapW_dequantValue {grid : Nat → Int} (hgrid : ∀ k, -128 ≤ grid k ∧ grid k ≤ 127) {fm : Fmt} (hw : fm.isWeight = true) (n : Nat)
    (f : VFile) (va j : Nat) : wrapW 16 (dequantValue grid fm n f va j) = dequantValue grid fm n f va j := by
  have hbyte : ∀ k, f.getU .i8 va k < 256 := f.getU_lt .i8 va
  cases fm with
  | g4 => exact wrapW_mul_scale (hgrid _).1 (hgrid _).2 (hbyte _)
  | u4z => exact wrapW_mul_scale (by omega) (by omega) (hbyte _)
  | u8 =>
    obtain ⟨h1, h2⟩ := f.get_bounds .i8 va (j / n * recordBytes .u8 n + j % n)
    exact wrapW_mul_scale h1 h2 (hbyte _)
  | a8 | a16 | l8 => exact nomatch hw

/-- VDEQ writes the values of its records. -/
theorem exec_vdeq_values (c : CoreId) (w : VWord) (s : State) (fm : Fmt) (n : Nat) (hfm : Fmt.ofCode (immF w 15 4) = some fm)
    (hw : fm.isWeight) (hn : groupSize (immF w 0 2) = some n)
    (h : s.vecReady c (.vdeq c w) w .i16 [(.i16, w.vd, nOf w), (.i8, w.va, ceilDiv (nOf w) n * recordBytes fm n)]) :
    let f := (s.core c).vec
    ∃ t, exec (.vdeq c w) s = .next t ∧
      f.wrote (t.core c).vec .i16 w.vd (List.range (nOf w)) (dequantValue (s.gridVal c (immF w 12 3)) fm n f w.va) ∧
      s.vecDone t c (costPer 4 64 w) (nOf w) 0 := by
  intro f
  obtain ⟨hh, ht, hg⟩ := h
  have ho : vDeq (s.vecCtx c) w f = .ok
      { file := f.setAll .i16 w.vd (List.range (nOf w)) fun i => dequant (s.vecCtx c) fm (immF w 12 3) n f w.va (i / n) (i % n)
        buf := (s.core c).buf } := by
    unfold vDeq
    rw [withType_eq _ ht rfl, quantImm_eq hfm hw hn]
    exact withGroups_eq _ hg
  obtain ⟨hf, hd⟩ := s.vec_ok (k := .all) (cost := costPer 4 64) hh ho (s.consume_nil _)
  refine ⟨_, rfl, ?_, hd⟩
  rw [hf]
  refine VFile.wrote_congr (VFile.setAll_wrote ..) fun j _ => ?_
  rw [dequant_eq hw]
  exact wrapW_dequantValue (fun k => gridVal_bounds s c _ k) hw n f w.va j

/-- Settles O26, instruction by instruction; what VQUANT writes is read off the parts of each record. -/
theorem vectorQuantisation : Obligations.VectorQuantisation := by
  refine ⟨exec_vqscale_scales, fun c w s fm n hfm hw hn h => ?_, fun c w s fm n hfm hw hn h => ?_⟩
  · obtain ⟨t, he, hrec, hout, hd⟩ := exec_vquant_records c w s fm n hfm hw hn h
    refine ⟨t, he, fun g hg => ?_, hout, hd⟩
    obtain ⟨h8, hnib, hscale, hzero⟩ := quantRecord_parts (s.vecCtx c) w (s.core c).vec hw (groupSize_even hn) g
    refine ⟨fun r hr hu => ?_, fun r hr hu => ?_, ?_, fun hu => ?_⟩
    · rw [VFile.get, hrec g hg r (by subst hu; exact Nat.lt_succ_of_lt hr)]
      exact (congrArg BitVec.toInt (BitVec.ofNat_toNat _ _)).trans (h8 r hr hu)
    · rw [hrec g hg (r / 2) (halfIndex_lt hw hu hr)]
      exact hnib r hr hu
    · exact (hrec g hg _ (scaleIndex_lt hw n)).trans hscale
    · rw [Nat.add_assoc]
      exact (hrec g hg _ (by subst hu; exact Nat.lt_succ_self _)).trans (hzero hu)
  · obtain ⟨t, he, hv, hd⟩ := exec_vdeq_values c w s fm n hfm hw hn h
    refine ⟨t, he, VFile.wrote_congr hv fun j _ => ?_, hd⟩
    cases fm with
    | g4 | u4z | u8 => rfl
    | a8 | a16 | l8 => exact nomatch hw

end Sys2Proof.Machine
end

section
/-! PROOFS. READOUT writes rounded, saturated results and READRAW the raw entries (R82, R94, R103 to R106, R114). -/

namespace Sys2Proof.Machine

theorem bvGet_ofNat {m lo w : Nat} (v : Nat) (h : lo + w ≤ m) : bvGet lo w (BitVec.ofNat m v) = v / 2 ^ lo % 2 ^ w := by
  have hp : 2 ^ m = 2 ^ lo * 2 ^ w * 2 ^ (m - lo - w) := by rw [← pow_add, ← pow_add]; congr 1; omega
  rw [bvGet, BitVec.extractLsb'_toNat, BitVec.toNat_ofNat, Nat.shiftRight_eq_div_pow, hp, Nat.mul_assoc, Nat.mod_mul_right_div_self,
    Nat.mod_mul_right_mod]

/-- Rows of `n` values each, end to end. -/
theorem flatMap_range_map {β : Type} (T n : Nat) (F : Nat → Nat → β) :
    ((List.range T).flatMap fun t => (List.range n).map (F t)) = (List.range (n * T)).map fun k => F (k / n) (k % n) := by
  induction T with
  | zero => rfl
  | succ T ih =>
    rw [List.range_succ, List.flatMap_append, ih, Nat.mul_succ, List.range_add, List.map_append, List.flatMap_singleton, List.map_map]
    congr 1
    refine List.map_congr_left fun j hj => ?_
    have hj := List.mem_range.mp hj
    have hn : 0 < n := by omega
    simp only [Function.comp_apply]
    rw [Nat.mul_add_div hn, Nat.div_eq_of_lt hj, Nat.mul_add_mod, Nat.mod_eq_of_lt hj, Nat.add_zero]

/-! ### What a write of the core buffer by an engine leaves alone -/

/-- The larger of a high-water mark and a value: it reaches the register word and its management copy alone (R13). -/
theorem State.maxRc_view {β : Type} (P : State → β) (hset : ∀ (t : State) f v, P (t.setFld f v) = P t)
    (hrc : ∀ (t : State) m, P { t with rcMgmt := m } = P t) (s : State) (f : Fld) (v : Nat) : P (s.maxRc f v) = P s := by
  have h1 : P (if v > s.fld f then s.setFld f v else s) = P s := by
    split
    · exact hset _ _ _
    · rfl
  unfold State.maxRc
  dsimp only
  split
  · exact (hrc _ _).trans h1
  · exact h1

theorem State.maxRc_sameRegs (s : State) (f : Fld) (v : Nat) : s.sameRegs (s.maxRc f v) [f.addr] := by
  have h1 : s.sameRegs (if v > s.fld f then s.setFld f v else s) [f.addr] := by
    split
    · exact s.setFld_sameRegs f v
    · exact fun _ _ => rfl
  unfold State.maxRc
  dsimp only
  split
  · exact h1
  · exact h1

/-- Core `c` has written `bs` to its buffer at `a`, and the register words of `as` may have changed; engines, other cores and other
memories have not, and no fault of the device's own has come. -/
structure State.wroteBuf (s t : State) (c : CoreId) (a : Nat) (bs : List Byte) (as : List Nat) : Prop where
  buf : (t.core c).buf = (s.core c).buf.wrBlk a bs
  cores : ∀ b, b ≠ c.val → t.core b = s.core b
  eng : ∀ g, t.eng g = s.eng g
  regs : s.sameRegs t as
  mem : t.mem = s.mem
  host : t.host = s.host
  cache : ∀ n, (t.cluster n).cache = (s.cluster n).cache
  boot : t.boot = s.boot

section
variable {s t : State} {c : CoreId} {a : Nat} {bs : List Byte} {as : List Nat}

theorem State.put_wroteBuf (s : State) (c : CoreId) (a : Nat) (bs : List Byte) :
    s.wroteBuf (s.modCore c fun y => y.put a bs) c a bs [] where
  buf := by rw [State.core_modCore_same]; rfl
  cores := fun _ hb => s.core_modCore_ne _ hb.symm
  eng := fun _ => rfl
  regs := fun _ _ => rfl
  mem := rfl
  host := rfl
  cache := fun _ => rfl
  boot := rfl

theorem State.wroteBuf.maxRc (h : s.wroteBuf t c a bs []) (f : Fld) (v : Nat) : s.wroteBuf (t.maxRc f v) c a bs [f.addr] where
  buf := (t.maxRc_view (fun t => (t.core c).buf) (fun _ _ _ => rfl) (fun _ _ => rfl) f v).trans h.buf
  cores := fun b hb => (t.maxRc_view (fun t => t.core b) (fun _ _ _ => rfl) (fun _ _ => rfl) f v).trans (h.cores b hb)
  eng := fun g => (t.maxRc_view (fun t => t.eng g) (fun _ _ _ => rfl) (fun _ _ => rfl) f v).trans (h.eng g)
  regs := fun b hb => (t.maxRc_sameRegs f v b hb).trans (h.regs b List.not_mem_nil)
  mem := (t.maxRc_view (·.mem) (fun _ _ _ => rfl) (fun _ _ => rfl) f v).trans h.mem
  host := (t.maxRc_view (·.host) (fun _ _ _ => rfl) (fun _ _ => rfl) f v).trans h.host
  cache := fun n => (t.maxRc_view (fun t => (t.cluster n).cache) (fun _ _ _ => rfl) (fun _ _ => rfl) f v).trans (h.cache n)
  boot := (t.maxRc_view (·.boot) (fun _ _ _ => rfl) (fun _ _ => rfl) f v).trans h.boot

theorem State.wroteBuf.guardRec (h : s.wroteBuf t c a bs as) (q : Nat) (p : Prog) (r : Recs) : s.wroteBuf (t.guardRec c q p r) c a bs as where
  buf := by rw [State.guardRec_core, h.buf]
  cores := fun b hb => by rw [State.guardRec_core, h.cores b hb]
  eng := fun g => by rw [State.guardRec_eng, h.eng]
  regs := fun b hb => by rw [State.guardRec_rd, h.regs b hb]
  mem := by rw [State.guardRec_mem, h.mem]
  host := by rw [State.guardRec_host, h.host]
  cache := fun n => by rw [State.guardRec_cache, h.cache]
  boot := by rw [State.guardRec_boot, h.boot]

end

/-- An engine of core `c` has written `bs` to the core buffer at `a`, and its expander may have gone on meanwhile; beside the largest shift
no register word, no other core or engine and no other memory has changed. -/
def State.engineWrote (s u : State) (c : CoreId) (e : EngId) (a : Nat) (bs : List Byte) : Prop :=
  (u.core c).buf = (s.core c).buf.wrBlk a bs ∧
    u.eng (engOf c e) = { s.eng (engOf c e) with dec := (u.eng (engOf c e)).dec } ∧ (∀ g, g ≠ engOf c e → u.eng g = s.eng g) ∧
    s.sameRegs u [(Fld.ENG_MAX_SHIFT_MAX (engOf c e)).addr] ∧ u.mem = s.mem ∧ u.host = s.host ∧
    (∀ b, b ≠ c.val → u.core b = s.core b) ∧ ∀ n, (u.cluster n).cache = (s.cluster n).cache

/-- The cycles pass and the command leaves its queue. -/
theorem State.wroteBuf.engineWrote {s t : State} {c : CoreId} {e : EngId} {a : Nat} {bs : List Byte}
    (h : s.wroteBuf t c a bs [(Fld.ENG_MAX_SHIFT_MAX (engOf c e)).addr]) (n q : Nat) (b : Option Bool) :
    s.engineWrote ((t.busy (engOf c e) n).complete c q b) c e a bs := by
  refine ⟨?_, ?_, fun g hg => ?_, fun r hr => ?_, ?_, ?_, fun d hd => ?_, fun k => ?_⟩
  · rw [State.complete_buf, State.busy, State.modEng_core, State.count_core, h.buf]
  · rw [State.complete_eng, State.busy, State.eng_modEng_same, State.count_eng, h.eng]
  · rw [State.complete_eng, State.busy, State.eng_modEng_ne _ _ hg.symm, State.count_eng, h.eng]
  · rw [State.complete_rd, State.busy, State.modEng_rd, State.count_rd, h.regs r hr]
  · rw [State.complete_mem, State.busy, State.modEng_mem, State.count_mem, h.mem]
  · rw [State.complete_host, State.busy, State.modEng_host, State.count_host, h.host]
  · rw [State.complete_core_ne _ _ _ hd.symm, State.busy, State.modEng_core, State.count_core, h.cores d hd]
  · rw [State.complete_cache, State.busy, State.modEng_cluster, State.count_cluster, h.cache]

/-- Elements in place at `a`, and the bytes before and after them as they were. -/
theorem Mem.storedAt_range_outside {m m' : Mem} {a b n : Nat} {g : Nat → Nat} (h : m.storedAt m' a b (List.range n) g) {k : Nat}
    (hk : k < a ∨ a + n * b ≤ k) : m'.rd k = m.rd k := by
  refine h.2 k fun j hj => ?_
  have := Nat.mul_le_mul_right b (Nat.succ_le_of_lt (List.mem_range.mp hj))
  rw [Nat.succ_eq_add_one] at this
  omega

/-! ### READOUT -/

/-- The unsaturated result of READOUT for token `t` and column `j` (R104), from the descriptor of the token and the record of the column. -/
def State.readoutVal (s : State) (c : CoreId) (e : EngId) (op : ReadoutOp) (o : SetupOp) (t j : Nat) : Int :=
  let desc := (s.core c).buf.rdLe (o.panel 0 + 2 * t) 2
  let rec8 := (s.core c).buf.rdLe (64 * op.colrec.toNat + 8 * j) 8
  let z := if o.tileMode then sx 8 (desc % 256) else 0
  let tau := if o.a16 then 0 else desc / 256 % 16
  readoutX (correctedD o.a16 ((s.eng (engOf c e)).bank.at (32 * t + j)).value z (sx 40 (rec8 % 2 ^ 40)))
    ((rec8 / 2 ^ 40 % 64 : Nat) + op.f.val - tau - op.fOut.val)

/-- The results of READOUT in order, each with its token. -/
def State.readoutOuts (s : State) (c : CoreId) (e : EngId) (op : ReadoutOp) (o : SetupOp) : List (Nat × Int) :=
  (List.range o.t).flatMap fun t => (List.range 32).map fun j => (t, s.readoutVal c e op o t j)

/-- The bytes that READOUT writes. -/
def State.readoutBytes (s : State) (c : CoreId) (e : EngId) (op : ReadoutOp) (o : SetupOp) : List Byte :=
  (s.readoutOuts c e op o).flatMap fun r => leBytes 2 (toCode 16 (satW 16 r.2))

/-- They are one array of 2-byte elements. -/
theorem State.readoutBytes_eq (s : State) (c : CoreId) (e : EngId) (op : ReadoutOp) (o : SetupOp) :
    s.readoutBytes c e op o = (List.range (32 * o.t)).flatMap fun k => leBytes 2 (toCode 16 (satW 16 (s.readoutVal c e op o (k / 32) (k % 32)))) := by
  rw [readoutBytes, readoutOuts, flatMap_range_map o.t 32 fun t j => (t, s.readoutVal c e op o t j), List.flatMap_map]

/-- The records that READOUT gives the guard (R143, R144). -/
def State.readoutRecs (s : State) (c : CoreId) (e : EngId) (op : ReadoutOp) (o : SetupOp) : Recs :=
  { src := .readout, rows := ((s.readoutOuts c e op o).filter fun r => outW 16 r.2).map Prod.fst
    vals := (s.readoutOuts c e op o).map fun r => satW 16 r.2 }

theorem runReadout_ok {c : CoreId} {e : EngId} {op : ReadoutOp} {o : SetupOp} {s : State} (hs : (s.eng (engOf c e)).setup = some o)
    (hb : (s.core c).bufBad = []) (h1 : 64 * op.colrec.toNat + 256 ≤ 2 ^ 21) (h2 : 64 * op.dest.toNat + 64 * o.t ≤ 2 ^ 21)
    (h3 : o.panel 0 + 64 ≤ 2 ^ 21) (p : Prog) :
    runReadout c e op p s =
      (((((s.modCore c fun y => y.put (64 * op.dest.toNat) (s.readoutBytes c e op o)).maxRc (Fld.ENG_MAX_SHIFT_MAX (engOf c e))
        (maxShift (s.eng (engOf c e)).bank o.t)).guardRec c e.val p (s.readoutRecs c e op o)).busy (engOf c e)
        (12 + (if s.fld (Fld.ENG_STATUS_COMP_BANK (engOf c e)) == 1 then 2 else 1) * o.t)), true) := by
  have hrange : ¬ (64 * op.colrec.toNat + 256 > bufBytes ∨ 64 * op.dest.toNat + 64 * o.t > bufBytes ∨ o.panel 0 + 64 > bufBytes) := by
    unfold bufBytes
    omega
  unfold runReadout
  simp only [hs, if_neg hrange, State.consume_good _ _ _ hb, bvGet_ofNat, Nat.reduceAdd, Nat.reduceLeDiff, pow_zero, Nat.div_one]
  rfl

/-- READOUT writes its results; the rest stays. -/
theorem exec_readout_writes (c : CoreId) (e : EngId) (op : ReadoutOp) (o : SetupOp) (s : State) (h : s.atHead c e (.readout c e op))
    (hs : (s.eng (engOf c e)).setup = some o) (hb : (s.core c).bufBad = []) (h1 : 64 * op.colrec.toNat + 256 ≤ 2 ^ 21)
    (h2 : 64 * op.dest.toNat + 64 * o.t ≤ 2 ^ 21) (h3 : o.panel 0 + 64 ≤ 2 ^ 21) :
    ∃ u, exec (.readout c e op) s = .next u ∧ s.engineWrote u c e (64 * op.dest.toNat) (s.readoutBytes c e op o) := by
  obtain ⟨p, b, -, hi⟩ := s.issue_atHead (runReadout c e op) h
  rw [runReadout_ok hs hb h1 h2 h3 p, if_pos rfl] at hi
  have hw := ((s.put_wroteBuf c (64 * op.dest.toNat) (s.readoutBytes c e op o)).maxRc (Fld.ENG_MAX_SHIFT_MAX (engOf c e))
    (maxShift (s.eng (engOf c e)).bank o.t)).guardRec e.val p (s.readoutRecs c e op o)
  have hact : s.issueAct c e.val (.readout c e op) (runReadout c e op) = s.issue c e.val (.readout c e op) (runReadout c e op) := by
    refine s.actOnNew_same _ ?_
    rw [hi, State.complete_boot, State.busy, State.modEng_boot, State.count_boot, hw.boot]
  exact ⟨_, rfl, hact ▸ hi ▸ hw.engineWrote _ e.val b⟩

/-! ### READRAW -/

/-- The bytes that READRAW writes. -/
def State.rawBytes (s : State) (g T : Nat) : List Byte :=
  (List.range (32 * T)).flatMap fun k => leBytes 8 (((s.eng g).bank.at k).raw (s.fld (Fld.ENG_STATUS_COMP_BANK g) == 1))

/-- READRAW writes its records; the rest stays. -/
theorem exec_readraw_writes (c : CoreId) (e : EngId) (op : RawOp) (o : SetupOp) (s : State) (h : s.atHead c e (.readraw c e op))
    (hs : (s.eng (engOf c e)).setup = some o) (hr : 64 * op.addr.toNat + 256 * o.t ≤ 2 ^ 21) :
    ∃ u, exec (.readraw c e op) s = .next u ∧ s.engineWrote u c e (64 * op.addr.toNat) (s.rawBytes (engOf c e) o.t) ∧
      u.ctr (Ct.ENG_BUSY_CYCLES (engOf c e)) = (s.ctr (Ct.ENG_BUSY_CYCLES (engOf c e))).plus (8 + 2 * o.t) := by
  obtain ⟨p, b, -, hi⟩ := s.issue_atHead (runReadraw c e op) h
  have hrun : runReadraw c e op p s =
      (((s.modCore c fun y => y.put (64 * op.addr.toNat) (s.rawBytes (engOf c e) o.t)).maxRc (Fld.ENG_MAX_SHIFT_MAX (engOf c e))
        (maxShift (s.eng (engOf c e)).bank o.t)).busy (engOf c e) (8 + 2 * o.t), true) := by
    unfold runReadraw
    simp only [hs, if_neg (Nat.not_lt.mpr hr : ¬ 64 * op.addr.toNat + 256 * o.t > bufBytes)]
    rfl
  rw [hrun, if_pos rfl] at hi
  have hw := (s.put_wroteBuf c (64 * op.addr.toNat) (s.rawBytes (engOf c e) o.t)).maxRc (Fld.ENG_MAX_SHIFT_MAX (engOf c e))
    (maxShift (s.eng (engOf c e)).bank o.t)
  refine ⟨_, congrArg Host.Outcome.next hi, hw.engineWrote _ _ b, ?_⟩
  rw [State.complete_ctr, State.busy, State.modEng_ctr, State.ctr_count_same,
    State.maxRc_view (fun t => t.ctr (Ct.ENG_BUSY_CYCLES (engOf c e))) (fun _ _ _ => rfl) (fun _ _ => rfl), State.modCore_ctr]

/-- The fields of a raw record (R106). -/
theorem Acc.raw_fields (a : Acc) (comp : Bool) :
    a.raw comp < 256 ^ 8 ∧ a.raw comp % 2 ^ 32 = a.m.toNat ∧ a.raw comp / 2 ^ 32 % 2 ^ 5 = a.h.toNat ∧ a.raw comp / 2 ^ 53 = bit1 comp ∧
      a.raw comp / 2 ^ 37 % 2 ^ 16 = if comp then a.e.toNat else 0 := by
  have hm := a.m.isLt
  have hh := a.h.isLt
  have he := a.e.isLt
  cases comp <;> simp only [Acc.raw, bit1, Bool.false_eq_true, if_false, if_true] <;> omega

/-- Settles O30: both commands write one array of the core buffer, whose elements are read back one by one. -/
theorem readoutWritesA16 : Obligations.ReadoutWritesA16 := by
  refine ⟨fun c e op o s h hs hb h1 h2 h3 => ?_, fun c e op o s h hs hr => ?_⟩
  · obtain ⟨u, he, hbuf, hrest⟩ := exec_readout_writes c e op o s h hs hb h1 h2 h3
    have hst := Mem.wrBlk_flatMap_storedAt (s.core c).buf (64 * op.dest.toNat) 2 (32 * o.t)
      (fun k => toCode 16 (satW 16 (s.readoutVal c e op o (k / 32) (k % 32)))) fun _ => toCode_lt 16 _
    rw [← State.readoutBytes_eq, ← hbuf] at hst
    refine ⟨u, he, fun t j ht hj => ?_, fun a ha => Mem.storedAt_range_outside hst (by omega), hrest⟩
    have hval := hst.1 (32 * t + j) (List.mem_range.mpr (by omega))
    dsimp only at hval
    rw [show 64 * op.dest.toNat + (32 * t + j) * 2 = 64 * op.dest.toNat + 64 * t + 2 * j by omega, show (32 * t + j) / 32 = t by omega,
      show (32 * t + j) % 32 = j by omega] at hval
    rw [hval, sx_toCode, wrapW_satW (by decide)]
    rfl
  · obtain ⟨u, he, ⟨hbuf, hrest⟩, hbusy⟩ := exec_readraw_writes c e op o s h hs hr
    have hst := Mem.wrBlk_flatMap_storedAt (s.core c).buf (64 * op.addr.toNat) 8 (32 * o.t)
      (fun k => ((s.eng (engOf c e)).bank.at k).raw (s.fld (Fld.ENG_STATUS_COMP_BANK (engOf c e)) == 1)) fun _ => (Acc.raw_fields _ _).1
    rw [← State.rawBytes, ← hbuf] at hst
    refine ⟨u, he, fun n hn => ?_, fun a ha => Mem.storedAt_range_outside hst (by omega), hbusy, hrest⟩
    have hval := hst.1 n (List.mem_range.mpr hn)
    rw [Nat.mul_comm n 8] at hval
    have hcomp : s.fld (Fld.ENG_STATUS_COMP_BANK (engOf c e)) < 2 := s.fld_lt (Fld.ENG_STATUS_COMP_BANK (engOf c e))
    obtain ⟨-, hm, hh, hc, hres⟩ := ((s.eng (engOf c e)).bank.at n).raw_fields (s.fld (Fld.ENG_STATUS_COMP_BANK (engOf c e)) == 1)
    dsimp only
    rw [hval]
    refine ⟨hm, hh, hc.trans ?_, hres.trans ?_⟩
    · unfold bit1
      simp only [beq_iff_eq]
      split <;> omega
    · simp only [beq_iff_eq]

end Sys2Proof.Machine
end

section
/-! PROOFS. Additions to the entries of a bank that need no rounding (R94, R95, R98). -/

namespace Sys2Proof.Machine

/-! ### One entry -/

/-- What the additions of a mode sum in an entry: its value in compensated mode, its mantissa in normal mode. -/
def Acc.total (comp : Bool) (a : Acc) : Int := if comp then a.value else a.m.toInt

/-- The next addition to an entry needs no rounding: its shift is at most 16 in compensated mode, 0 in normal mode. -/
def Acc.exact (comp : Bool) (a : Acc) : Prop := if comp then a.h.toNat ≤ 16 else a.h = 0#5

/-- A total that an exact entry can hold. -/
def Acc.holds (comp : Bool) (v : Int) : Prop := if comp then -(2 ^ 47) ≤ v ∧ v < 2 ^ 47 else -(2 ^ 31) ≤ v ∧ v < 2 ^ 31

/-- Entry `a` has become `b` by additions of `x` in all, exactly. -/
structure Acc.grew (comp : Bool) (a : Acc) (x : Int) (b : Acc) : Prop where
  exact : b.exact comp
  total : b.total comp = a.total comp + x
  residual : comp = false → b.e = a.e

theorem Acc.exact.grew_zero {comp : Bool} {a : Acc} (h : a.exact comp) : a.grew comp 0 a := ⟨h, (Int.add_zero _).symm, fun _ => rfl⟩

theorem Acc.grew.trans {comp : Bool} {a b d : Acc} {x y : Int} (h : a.grew comp x b) (h' : b.grew comp y d) : a.grew comp (x + y) d :=
  ⟨h'.exact, by rw [h'.total, h.total, Int.add_assoc], fun hc => (h'.residual hc).trans (h.residual hc)⟩

/-- In normal mode the value grows as the mantissa does, the residual being as it was. -/
theorem Acc.grew.value {comp : Bool} {a b : Acc} {x : Int} (ha : a.exact comp) (h : a.grew comp x b) : b.value = a.value + x := by
  obtain ⟨hb, ht, he⟩ := h
  cases comp with
  | true => exact ht
  | false =>
    have hb : b.h = 0#5 := hb
    have ha : a.h = 0#5 := ha
    have ht : b.m.toInt = a.m.toInt + x := ht
    simp only [Acc.value, ha, hb, he rfl, ht, BitVec.toNat_ofNat, Nat.zero_mod, pow_zero, Int.mul_one]
    omega

theorem not_outW_32 {v : Int} : outW 32 v = false ↔ -(2 ^ 31) ≤ v ∧ v < 2 ^ 31 := by
  rw [outW, ← Bool.decide_or, decide_eq_false_iff_not, minOf, maxOf]
  omega

theorem toInt_ofInt_32 {v : Int} (h : -(2 ^ 31) ≤ v ∧ v < 2 ^ 31) : (BitVec.ofInt 32 v).toInt = v := by
  rw [BitVec.toInt_ofInt, Int.bmod_eq_of_le] <;> omega

/-- The shift grows no further than a shift by which the total fits. -/
theorem compShift_le {total : Int} {k : Nat} (hk : outW 32 (total / 2 ^ k) = false) :
    ∀ (fuel h : Nat), h ≤ k → k < h + fuel →
      h ≤ compShift fuel total h ∧ compShift fuel total h ≤ k ∧ outW 32 (total / 2 ^ compShift fuel total h) = false
  | 0, h, _, hf => absurd hf (by omega)
  | fuel + 1, h, hle, hf => by
    rw [compShift]
    split
    case isTrue hout =>
      have hne : h ≠ k := by
        rintro rfl
        rw [hk] at hout
        exact Bool.false_ne_true hout
      obtain ⟨h1, h2, h3⟩ := compShift_le hk fuel (h + 1) (by omega) (by omega)
      exact ⟨by omega, h2, h3⟩
    case isFalse hin => exact ⟨Nat.le_refl _, hle, by simpa using hin⟩

/-- An addition in compensated mode whose total stays within 48 bits keeps it exactly (R98). -/
theorem accAddComp_exact {a : Acc} {x : Int} (ha : a.exact true) (hx : Acc.holds true (a.total true + x)) :
    ∃ o, accAddComp a x = some o ∧ a.grew true x o.acc := by
  have ha : a.h.toNat ≤ 16 := ha
  obtain ⟨hlo, hhi⟩ : -(2 ^ 47) ≤ a.value + x ∧ a.value + x < 2 ^ 47 := hx
  have hfit : outW 32 ((a.value + x) / 2 ^ 16) = false := not_outW_32.mpr (by omega)
  obtain ⟨-, hh, hout⟩ := compShift_le hfit 17 a.h.toNat ha (by omega)
  generalize hk : compShift 17 (a.value + x) a.h.toNat = k at hh hout
  have hm := toInt_ofInt_32 (not_outW_32.mp hout)
  have hp : (2 : Int) ^ k ≤ 2 ^ 16 := by exact_mod_cast Nat.pow_le_pow_right (by decide) hh
  have hpos : (0 : Int) < 2 ^ k := by positivity
  have hdm := Int.emod_add_mul_ediv (a.value + x) (2 ^ k)
  have h0 := Int.emod_nonneg (a.value + x) hpos.ne'
  have h1 := Int.emod_lt_of_pos (a.value + x) hpos
  have hrem : a.value + x - (a.value + x) / 2 ^ k * 2 ^ k = (a.value + x) % 2 ^ k := by rw [Int.mul_comm]; omega
  have hk5 : (BitVec.ofNat 5 k).toNat = k := by rw [BitVec.toNat_ofNat]; omega
  refine ⟨⟨⟨BitVec.ofInt 32 ((a.value + x) / 2 ^ k), BitVec.ofNat 5 k, BitVec.ofInt 16 ((a.value + x) % 2 ^ k)⟩, k - a.h.toNat, false⟩, ?_, ?_, ?_, nofun⟩
  · have hsum : a.m.toInt * 2 ^ a.h.toNat + a.e.toNat + x = a.value + x := rfl
    simp only [accAddComp, hsum, hk, if_neg (Nat.not_lt.mpr hh : ¬ k > 16), hrem]
  · show (BitVec.ofNat 5 k).toNat ≤ 16
    omega
  · have he : ((BitVec.ofInt 16 ((a.value + x) % 2 ^ k)).toNat : Int) = (a.value + x) % 2 ^ k := by
      rw [BitVec.toNat_ofInt, Int.toNat_of_nonneg (by omega)]
      omega
    show Acc.value _ = a.value + x
    rw [Acc.value, hm, hk5, he]
    rw [Int.mul_comm]
    omega

/-- An addition in normal mode at shift 0 whose sum stays within 32 bits is exact, whatever the random word (R95). -/
theorem accAddNormal_exact {a : Acc} {x : Int} (ha : a.exact false) (hx : Acc.holds false (a.total false + x)) (word : BitVec 32) :
    a.grew false x (accAddNormal a x word).acc := by
  have ha : a.h = 0#5 := ha
  have hx : -(2 ^ 31) ≤ a.m.toInt + x ∧ a.m.toInt + x < 2 ^ 31 := hx
  have hout := not_outW_32.mpr hx
  have hloop : shiftLoop word 31 (a.m.toInt + x) 0 0 = (a.m.toInt + x, 0, 0) := by rw [shiftLoop, hout]; rfl
  have hacc : (accAddNormal a x word).acc = ⟨BitVec.ofInt 32 (a.m.toInt + x), 0#5, a.e⟩ := by
    simp [accAddNormal, ha, hloop, hout, bvGet]
  rw [hacc]
  exact ⟨rfl, toInt_ofInt_32 hx, fun _ => rfl⟩

end Sys2Proof.Machine
end

section
/-! PROOFS. Rows, passes and blocks of exact additions to a bank (R87, R91, R92, R96). -/

namespace Sys2Proof.Machine

/-! ### The bank -/

/-- The entries from `lo` to `hi` of bank `r` take the addends of `f` exactly. -/
def BankRun.takes (r : BankRun) (lo hi : Nat) (f : Nat → Int) : Prop :=
  ∀ k, lo ≤ k → k < hi → (r.bank.at k).exact r.comp ∧ Acc.holds r.comp ((r.bank.at k).total r.comp + f k)

/-- Bank `r` has become `r'`: its entries from `lo` to `hi` have grown by `f`, the others are as they were, and so is the mode. -/
structure BankRun.grew (r r' : BankRun) (lo hi : Nat) (f : Nat → Int) : Prop where
  comp : r'.comp = r.comp
  inside : ∀ k, lo ≤ k → k < hi → (r.bank.at k).grew r.comp (f k) (r'.bank.at k)
  outside : ∀ k, k < lo ∨ hi ≤ k → r'.bank.at k = r.bank.at k

section
variable {r r' r'' : BankRun} {lo mid hi : Nat} {f g : Nat → Int}

theorem BankRun.grew_empty (r : BankRun) (lo : Nat) (f : Nat → Int) : r.grew r lo lo f :=
  ⟨rfl, fun _ h1 h2 => absurd h2 (Nat.not_lt.mpr h1), fun _ _ => rfl⟩

theorem BankRun.grew_zero (h : ∀ k, lo ≤ k → k < hi → (r.bank.at k).exact r.comp) : r.grew r lo hi fun _ => 0 :=
  ⟨rfl, fun k h1 h2 => (h k h1 h2).grew_zero, fun _ _ => rfl⟩

/-- What the entries from `mid` on take is not touched by additions to those before. -/
theorem BankRun.grew.takes_after (h : r.grew r' lo mid f) (ht : r.takes mid hi g) : r'.takes mid hi g := fun k h1 h2 => by
  rw [h.comp, h.outside k (.inr h1)]
  exact ht k h1 h2

/-- Neighbouring ranges, one after the other. -/
theorem BankRun.grew.append (h : r.grew r' lo mid f) (h' : r'.grew r'' mid hi f) (hlo : lo ≤ mid) (hhi : mid ≤ hi) : r.grew r'' lo hi f := by
  refine ⟨h'.comp.trans h.comp, fun k h1 h2 => ?_, fun k hk => ?_⟩
  · rcases Nat.lt_or_ge k mid with hm | hm
    · rw [h'.outside k (.inl hm)]
      exact h.inside k h1 hm
    · rw [← h.outside k (.inr hm), ← h.comp]
      exact h'.inside k hm h2
  · rw [h'.outside k (by omega), h.outside k (by omega)]

/-- One range, twice. -/
theorem BankRun.grew.trans (h : r.grew r' lo hi f) (h' : r'.grew r'' lo hi g) : r.grew r'' lo hi fun k => f k + g k := by
  refine ⟨h'.comp.trans h.comp, fun k h1 h2 => (h.inside k h1 h2).trans ?_, fun k hk => (h'.outside k hk).trans (h.outside k hk)⟩
  rw [← h.comp]
  exact h'.inside k h1 h2

/-- A range that has grown takes more where the totals allow it. -/
theorem BankRun.grew.takes_more (h : r.grew r' lo hi f)
    (hg : ∀ k, lo ≤ k → k < hi → Acc.holds r.comp ((r.bank.at k).total r.comp + (f k + g k))) : r'.takes lo hi g := fun k h1 h2 => by
  have hk := h.inside k h1 h2
  rw [h.comp, hk.total, Int.add_assoc]
  exact ⟨hk.exact, hg k h1 h2⟩

theorem Bank.at_put_same (r : BankRun) (k : Nat) (o : AddOut) : (r.put k o).bank.at k = o.acc := NMap.get_set_same _ _ _ _

theorem Bank.at_put_ne (r : BankRun) {k j : Nat} (o : AddOut) (h : k ≠ j) : (r.put k o).bank.at j = r.bank.at j := NMap.get_set_ne _ _ _ _ h

/-- Entry `k` replaced by an exact sum. -/
theorem BankRun.put_grew (k : Nat) (o : AddOut) (h : (r.bank.at k).grew r.comp (f k) o.acc) : r.grew (r.put k o) k (k + 1) f := by
  refine ⟨rfl, fun j h1 h2 => ?_, fun j hj => Bank.at_put_ne r o (by omega)⟩
  obtain rfl : j = k := by omega
  rw [Bank.at_put_same]
  exact h

/-- One addend that the entry takes exactly. -/
theorem BankRun.add_grew (k : Nat) (h : r.takes k (k + 1) f) : r.grew (r.add k (f k)) k (k + 1) f := by
  obtain ⟨hex, hfit⟩ := h k (Nat.le_refl k) (Nat.lt_succ_self k)
  unfold BankRun.add
  dsimp only
  split
  case isTrue hc =>
    rw [hc] at hex hfit
    obtain ⟨o, ho, hgrew⟩ := accAddComp_exact hex hfit
    rw [ho]
    exact BankRun.put_grew k o (hc ▸ hgrew)
  case isFalse hc =>
    rw [Bool.not_eq_true] at hc
    rw [hc] at hex hfit
    exact BankRun.put_grew k _ (hc ▸ accAddNormal_exact hex hfit _)

/-- Steps that each fill the next `w` entries, from entry `lo` on. -/
theorem BankRun.foldl_grew (step : BankRun → Nat → BankRun) (w n : Nat)
    (hstep : ∀ (i : Nat) (r : BankRun), i < n → r.takes (lo + w * i) (lo + w * (i + 1)) f →
      r.grew (step r i) (lo + w * i) (lo + w * (i + 1)) f)
    (h : r.takes lo (lo + w * n) f) : r.grew ((List.range n).foldl step r) lo (lo + w * n) f := by
  induction n with
  | zero => exact r.grew_empty lo f
  | succ n ih =>
    have hle : lo + w * n ≤ lo + w * (n + 1) := by rw [Nat.mul_succ]; omega
    have hn := ih (fun i r hi => hstep i r (by omega)) fun k h1 h2 => h k h1 (by omega)
    rw [List.range_succ, List.foldl_append]
    exact hn.append (hstep n _ (Nat.lt_succ_self n) (hn.takes_after fun k h1 h2 => h k (by omega) h2)) (by omega) hle

end

/-! ### Rows and passes -/

/-- Addends by token and column as addends by entry. -/
def perEntry (F : Nat → Nat → Int) (k : Nat) : Int := F (k / 32) (k % 32)

theorem perEntry_at (F : Nat → Nat → Int) (t : Nat) {j : Nat} (hj : j < 32) : perEntry F (32 * t + j) = F t j := by
  rw [perEntry, Nat.mul_add_div (by decide), Nat.div_eq_of_lt hj, Nat.mul_add_mod, Nat.mod_eq_of_lt hj, Nat.add_zero]

/-- Addends to the 32 columns of token row `t`. -/
def BankRun.addCols (r : BankRun) (t : Nat) (x : Nat → Int) : BankRun := (List.range 32).foldl (fun r j => r.add (32 * t + j) (x j)) r

theorem BankRun.addRow_bank (r : BankRun) (t : Nat) (x : Nat → Int) : (r.addRow t x).bank = (r.addCols t x).bank := by
  unfold addRow addCols
  rfl
theorem BankRun.addRow_comp (r : BankRun) (t : Nat) (x : Nat → Int) : (r.addRow t x).comp = (r.addCols t x).comp := by
  unfold addRow addCols
  rfl

theorem BankRun.addCols_grew {r : BankRun} (F : Nat → Nat → Int) (t : Nat) (h : r.takes (32 * t) (32 * t + 32) (perEntry F)) :
    r.grew (r.addCols t (F t)) (32 * t) (32 * t + 32) (perEntry F) := by
  have hcols := BankRun.foldl_grew (r := r) (lo := 32 * t) (f := perEntry F) (fun r j => r.add (32 * t + j) (F t j)) 1 32 (fun j r hj hr => by
    simp only [Nat.one_mul, ← Nat.add_assoc] at hr ⊢
    have hadd := BankRun.add_grew _ hr
    rwa [perEntry_at F t hj] at hadd) (by rwa [Nat.one_mul])
  rwa [Nat.one_mul] at hcols

/-- One token row. -/
theorem BankRun.addRow_grew {r : BankRun} (F : Nat → Nat → Int) (t : Nat) (h : r.takes (32 * t) (32 * t + 32) (perEntry F)) :
    r.grew (r.addRow t (F t)) (32 * t) (32 * t + 32) (perEntry F) := by
  obtain ⟨hcomp, hin, hout⟩ := BankRun.addCols_grew F t h
  exact ⟨by rw [addRow_comp, hcomp], by rwa [addRow_bank], by rwa [addRow_bank]⟩

/-- The first `T` token rows. -/
def BankRun.addRows (r : BankRun) (T : Nat) (F : Nat → Nat → Int) : BankRun := (List.range T).foldl (fun r t => r.addRow t (F t)) r

theorem BankRun.addRows_grew {r : BankRun} (F : Nat → Nat → Int) (T : Nat) (h : r.takes 0 (32 * T) (perEntry F)) :
    r.grew (r.addRows T F) 0 (32 * T) (perEntry F) := by
  have hrows := BankRun.foldl_grew (lo := 0) (f := perEntry F) (r := r) (fun r t => r.addRow t (F t)) 32 T
    (fun t r _ hr => by
      rw [Nat.zero_add, Nat.zero_add, Nat.mul_succ] at hr ⊢
      exact BankRun.addRow_grew F t hr)
    (by rwa [Nat.zero_add])
  rwa [Nat.zero_add] at hrows

/-! ### Blocks -/

section
variable (x : CoreSt) (o : SetupOp) (outliers : List (BitVec 16))

/-- What pass `i` of block `b` adds to entry (t, j): the products of R92 with chunk `chunk` of the activations. -/
def passAddend (chunk : Nat) (b : Block) (i t j : Nat) : Int :=
  addend b (if o.a16 && i == 0 then 256 else 1) (actRow x o outliers chunk t i).1 j

/-- What block `b` adds to it: one pass, or two of A16 activations (R91). -/
def blockAddend (chunk : Nat) (b : Block) (t j : Nat) : Int :=
  passAddend x o outliers chunk b 0 t j + if o.a16 then passAddend x o outliers chunk b 1 t j else 0

/-- The passes of a block fill the bank with their addends; the records of the port are beside it. -/
theorem streamBlock_fst (chunk : Nat) (b : Block) (st : BankRun × List Nat) :
    (streamBlock x o outliers chunk b st).1 =
      (List.range (if o.a16 then 2 else 1)).foldl (fun r i => r.addRows o.t (passAddend x o outliers chunk b i)) st.1 := by
  unfold streamBlock
  refine (List.foldl_hom Prod.fst fun st i => ?_).symm
  exact List.foldl_hom Prod.fst fun _ _ => rfl

/-- A block whose totals fit, after its first pass and at its end, is added exactly. -/
theorem streamBlock_grew (chunk : Nat) (b : Block) (r : BankRun) (ports : List Nat)
    (h0 : r.takes 0 (32 * o.t) (perEntry (passAddend x o outliers chunk b 0)))
    (h1 : r.takes 0 (32 * o.t) (perEntry (blockAddend x o outliers chunk b))) :
    r.grew (streamBlock x o outliers chunk b (r, ports)).1 0 (32 * o.t) (perEntry (blockAddend x o outliers chunk b)) := by
  have hfirst := BankRun.addRows_grew _ _ h0
  rw [streamBlock_fst]
  by_cases ha : o.a16 = true
  · have hsum : perEntry (blockAddend x o outliers chunk b) =
        fun k => perEntry (passAddend x o outliers chunk b 0) k + perEntry (passAddend x o outliers chunk b 1) k := by
      funext k
      rw [perEntry, blockAddend, if_pos ha]
      rfl
    rw [hsum] at h1 ⊢
    rw [if_pos ha, show List.range 2 = [0, 1] from rfl, List.foldl_cons, List.foldl_cons, List.foldl_nil]
    exact hfirst.trans (BankRun.addRows_grew _ _ (hfirst.takes_more fun k hl hh => (h1 k hl hh).2))
  · have hsum : blockAddend x o outliers chunk b = passAddend x o outliers chunk b 0 := by
      funext t j
      rw [blockAddend, if_neg ha, Int.add_zero]
    rw [hsum, if_neg ha, List.range_one, List.foldl_cons, List.foldl_nil]
    exact hfirst

/-- What the first `n` blocks of a run add to entry (t, j), the first of them meeting chunk `chunk`. -/
def blocksAddend (chunk : Nat) (blk : Nat → Block) (n t j : Nat) : Int :=
  ((List.range n).map fun i => blockAddend x o outliers (chunk + i) (blk i) t j).sum

theorem blocksAddend_succ (chunk : Nat) (blk : Nat → Block) (n t j : Nat) :
    blocksAddend x o outliers chunk blk (n + 1) t j =
      blocksAddend x o outliers chunk blk n t j + blockAddend x o outliers (chunk + n) (blk n) t j := by
  simp only [blocksAddend, List.sum_range_succ]

/-- The totals of a run of `n` blocks fit after each pass. -/
structure blocksFit (r : BankRun) (chunk : Nat) (blk : Nat → Block) (n : Nat) : Prop where
  exact : ∀ k, k < 32 * o.t → (r.bank.at k).exact r.comp
  pass : ∀ m t j, m < n → t < o.t → j < 32 → Acc.holds r.comp ((r.bank.at (32 * t + j)).total r.comp +
    (blocksAddend x o outliers chunk blk m t j + passAddend x o outliers (chunk + m) (blk m) 0 t j))
  block : ∀ m t j, m ≤ n → t < o.t → j < 32 → Acc.holds r.comp ((r.bank.at (32 * t + j)).total r.comp + blocksAddend x o outliers chunk blk m t j)

theorem Walk.block_done (w : Walk) (l sc : Nat) : (w.block l sc).done = w.done + 1 := by
  unfold Walk.block
  split <;> rfl

/-- One more block of a stream: what it does to the bank, and that it counts. -/
theorem TileRun.stream_snoc (t : TileRun) (chunk l : Nat) (bs : List (Option Block)) (b : Block) :
    let u := t.stream x o outliers chunk l bs
    let v := t.stream x o outliers chunk l (bs ++ [some b])
    v.bank = (streamBlock x o outliers (chunk + u.walk.done) b (u.bank, u.ports)).1 ∧ v.walk.done = u.walk.done + 1 := by
  intro u v
  have hv : v = u.stream x o outliers chunk l [some b] := List.foldl_append
  rw [hv]
  exact ⟨rfl, Walk.block_done _ _ _⟩

/-- A run of blocks whose totals fit adds all their products exactly, and counts the blocks. -/
theorem TileRun.stream_grew (t : TileRun) (chunk l : Nat) (blk : Nat → Block) (n : Nat)
    (h : blocksFit x o outliers t.bank (chunk + t.walk.done) blk n) :
    t.bank.grew (t.stream x o outliers chunk l ((List.range n).map fun i => some (blk i))).bank 0 (32 * o.t)
        (perEntry (blocksAddend x o outliers (chunk + t.walk.done) blk n)) ∧
      (t.stream x o outliers chunk l ((List.range n).map fun i => some (blk i))).walk.done = t.walk.done + n := by
  obtain ⟨hexact, hpass, hblock⟩ := h
  induction n with
  | zero => exact ⟨BankRun.grew_zero fun k _ hk => hexact k hk, rfl⟩
  | succ n ih =>
    obtain ⟨hgrew, hdone⟩ := ih (fun m t j hm => hpass m t j (by omega)) fun m t j hm => hblock m t j (by omega)
    obtain ⟨hbank, hcount⟩ := t.stream_snoc x o outliers chunk l ((List.range n).map fun i => some (blk i)) (blk n)
    have hsum : perEntry (blocksAddend x o outliers (chunk + t.walk.done) blk (n + 1)) =
        fun k => perEntry (blocksAddend x o outliers (chunk + t.walk.done) blk n) k +
          perEntry (blockAddend x o outliers (chunk + t.walk.done + n) (blk n)) k :=
      funext fun k => blocksAddend_succ x o outliers (chunk + t.walk.done) blk n (k / 32) (k % 32)
    rw [List.range_succ, List.map_append, List.map_singleton, hcount, hbank, hdone, hsum, ← Nat.add_assoc chunk]
    refine ⟨hgrew.trans (streamBlock_grew x o outliers _ _ _ _ (hgrew.takes_more fun k _ hk => ?_) (hgrew.takes_more fun k _ hk => ?_)), rfl⟩
    · have hk' := hpass n (k / 32) (k % 32) (Nat.lt_succ_self n) (by omega) (by omega)
      rwa [Nat.div_add_mod] at hk'
    · have hk' := hblock (n + 1) (k / 32) (k % 32) (Nat.le_refl _) (by omega) (by omega)
      rwa [Nat.div_add_mod, blocksAddend_succ] at hk'

end

end Sys2Proof.Machine
end

section
/-! PROOFS. What an accumulation of an engine leaves alone, and the bank it stores (R96 to R98, R112, R114, R143). -/

namespace Sys2Proof.Machine

/-! ### What an engine's work leaves alone -/

/-- Engine `g` has worked: no other engine has changed, no byte, and nothing of start-up, device faults included. Where no SETUP and
scale position were set aside, none are. -/
structure State.engWorked (s t : State) (g : Nat) : Prop where
  others : ∀ k, k ≠ g → t.eng k = s.eng k
  saved : (s.eng g).saved = none → (t.eng g).saved = none
  memory : s.sameMemory t
  boot : t.boot = s.boot

namespace State.engWorked

theorem refl (s : State) (g : Nat) : s.engWorked s g :=
  ⟨fun _ _ => rfl, id, ⟨rfl, rfl, rfl, rfl, fun _ => rfl, fun _ => rfl⟩, rfl⟩

variable {s t : State} {g : Nat} (h : s.engWorked t g)
include h

theorem wr (a : Nat) (v : BitVec 32) : s.engWorked (t.wr a v) g := ⟨h.others, h.saved, h.memory, h.boot⟩

theorem setFld (f : Fld) (v : Nat) : s.engWorked (t.setFld f v) g := h.wr _ _

theorem raise (f : Fld) : s.engWorked (t.raise f) g := h.setFld f 1

theorem count (a n : Nat) : s.engWorked (t.count a n) g := ⟨h.others, h.saved, h.memory, h.boot⟩

theorem modEng (f : EngSt → EngSt) (hf : ∀ x, x.saved = none → (f x).saved = none) : s.engWorked (t.modEng g f) g where
  others := fun k hk => by rw [State.eng_modEng_ne _ _ hk.symm, h.others k hk]
  saved := fun hs => by rw [State.eng_modEng_same]; exact hf _ (h.saved hs)
  memory := h.memory
  boot := h.boot

theorem modCore (c : Nat) (f : CoreSt → CoreSt) (hf : ∀ x, (f x).buf = x.buf) : s.engWorked (t.modCore c f) g := by
  obtain ⟨hm, hh, hn, hb, hc, hk⟩ := h.memory
  refine ⟨h.others, h.saved, ⟨hm, hh, hn, hb, fun d => ?_, hk⟩, h.boot⟩
  by_cases hd : c = d
  · subst hd
    rw [State.core_modCore_same, hf, hc]
  · rw [State.core_modCore_ne _ _ hd, hc]

theorem jasper (e : JCode) (u d d2 : Nat) : s.engWorked (t.jasper e u d d2) g := by
  obtain ⟨hm, hh, hn, hb, hc, hk⟩ := h.memory
  refine ⟨fun k hk => ?_, fun hs => ?_, ⟨?_, ?_, ?_, ?_, fun d => ?_, fun k => ?_⟩, ?_⟩ <;> simp only [State.jasper_eng, State.jasper_mem,
    State.jasper_host, State.jasper_boot, State.jasper_core, State.jasper_cluster]
  exacts [h.others k hk, h.saved hs, hm, hh, hn, hb, hc d, hk k, h.boot]

theorem guardRec (c q : Nat) (p : Prog) (r : Recs) : s.engWorked (t.guardRec c q p r) g := by
  obtain ⟨hm, hh, hn, hb, hc, hk⟩ := h.memory
  refine ⟨fun k hk => ?_, fun hs => ?_, ⟨?_, ?_, ?_, ?_, fun d => ?_, fun k => ?_⟩, ?_⟩ <;> simp only [State.guardRec_eng, State.guardRec_mem,
    State.guardRec_host, State.guardRec_boot, State.guardRec_core, State.guardRec_cache]
  exacts [h.others k hk, h.saved hs, hm, hh, hn, hb, hc d, hk k, h.boot]

theorem complete (c q : Nat) (b : Option Bool) : s.engWorked (t.complete c q b) g := by
  refine ⟨fun k hk => ?_, fun hs => ?_, s.complete_sameMemory h.memory c q b, ?_⟩ <;> simp only [State.complete_eng, State.complete_boot]
  exacts [h.others k hk, h.saved hs, h.boot]

theorem when (b : Bool) (f : State → State) (hf : ∀ t, s.engWorked t g → s.engWorked (f t) g) : s.engWorked (t.when b f) g := by
  cases b
  · exact h
  · exact hf t h

theorem each {α : Type} (xs : List α) (f : State → α → State) (hf : ∀ t x, s.engWorked t g → s.engWorked (f t x) g) :
    s.engWorked (t.each xs f) g := State.each_inv _ _ _ _ h fun t x _ => hf t x

theorem busy (n : Nat) : s.engWorked (t.busy g n) g := (h.count _ _).modEng _ fun _ hs => by exact hs

theorem runCost (w : Walk) : s.engWorked (t.runCost g w) g := by
  unfold State.runCost
  exact (((h.count _ _).modEng _ fun _ hs => by exact hs).count _ _).count _ _

theorem putBank {c : CoreId} {e : EngId} (hg : engOf c e = g) (p : Prog) (r : BankRun) : s.engWorked (t.putBank c e p r) g := by
  unfold State.putBank
  rw [hg]
  extract_lets k layer t1 t2 t3 t4 t5 t6
  have h1 : s.engWorked t1 g := h.modEng _ fun _ hs => by exact hs
  have h4 : s.engWorked t4 g := ((h1.wr _ _).setFld _ _).count _ _
  have h5 : s.engWorked t5 g := h4.when _ _ fun _ h => (h.raise _).each _ _ fun _ _ h => h.jasper _ _ _ _
  have h6 : s.engWorked t6 g := h5.when _ _ fun _ h => (h.raise _).jasper _ _ _ _
  exact h6.guardRec _ _ _ _

theorem putRun {c : CoreId} {e : EngId} (hg : engOf c e = g) (p : Prog) (r : TileRun) : s.engWorked (t.putRun c e p r) g := by
  unfold State.putRun
  rw [hg]
  exact (((h.putBank hg p r.bank).count _ _).modEng _ fun _ hs => by exact hs).guardRec _ _ _ _

end State.engWorked

/-- A command of an engine that has worked leaves its queue; as no device fault has come of it, that is all. -/
theorem State.issueAct_ends {s : State} {c q g : Nat} {i : Instr} (run : Prog → State → RunOut) (h : s.atHead c q i = true)
    (hrun : ∀ p, ∃ t, run p s = (t, true) ∧ s.engWorked t g) : ∃ p b, s.issueAct c q i run = (run p s).1.complete c q b := by
  obtain ⟨p, b, -, hi⟩ := s.issue_atHead run h
  obtain ⟨t, ht, hwork⟩ := hrun p
  rw [ht, if_pos rfl] at hi
  have hact : s.issueAct c q i run = s.issue c q i run := s.actOnNew_same _ (by rw [hi, (hwork.complete c q b).boot])
  exact ⟨p, b, by rw [hact, hi, ht]⟩

/-! ### The bank that is stored -/

/-- Engine `g` holds the bank, the LFSR and the mode of `r`. -/
structure State.holdsBank (t : State) (g : Nat) (r : BankRun) : Prop where
  bank : (t.eng g).bank = r.bank
  lfsr : t.rd (Rg.ENG_LFSR_STATE g) = r.lfsr
  comp : t.fld (Fld.ENG_STATUS_COMP_BANK g) = bit1 r.comp

namespace State.holdsBank
variable {t : State} {g : Nat} {r : BankRun}

theorem of_same {u : State} (h : t.holdsBank g r) (hb : (u.eng g).bank = (t.eng g).bank) (hr : ∀ a, u.rd a = t.rd a) : u.holdsBank g r :=
  ⟨hb.trans h.bank, (hr _).trans h.lfsr, (congrArg (bvGet _ _) (hr _)).trans h.comp⟩

theorem modEng (h : t.holdsBank g r) (f : EngSt → EngSt) (hf : ∀ x, (f x).bank = x.bank) : (t.modEng g f).holdsBank g r :=
  h.of_same (by rw [State.eng_modEng_same, hf]) fun _ => rfl

theorem count (h : t.holdsBank g r) (a n : Nat) : (t.count a n).holdsBank g r := h.of_same rfl fun _ => rfl

theorem modCore (h : t.holdsBank g r) (c : Nat) (f : CoreSt → CoreSt) : (t.modCore c f).holdsBank g r := h.of_same rfl fun _ => rfl

theorem guardRec (h : t.holdsBank g r) (c q : Nat) (p : Prog) (x : Recs) : (t.guardRec c q p x).holdsBank g r :=
  h.of_same (by rw [State.guardRec_eng]) fun a => t.guardRec_rd c q p x a

theorem complete (h : t.holdsBank g r) (c q : Nat) (b : Option Bool) : (t.complete c q b).holdsBank g r :=
  h.of_same (by rw [State.complete_eng]) fun a => t.complete_rd c q b a

theorem busy (h : t.holdsBank g r) (n : Nat) : (t.busy g n).holdsBank g r := (h.count _ _).modEng _ fun _ => by rfl

theorem runCost (h : t.holdsBank g r) (w : Walk) : (t.runCost g w).holdsBank g r := by
  unfold State.runCost
  exact (((h.count _ _).modEng _ fun _ => by rfl).count _ _).count _ _

theorem when (h : t.holdsBank g r) (b : Bool) (f : State → State) (hf : ∀ t : State, t.holdsBank g r → (f t).holdsBank g r) :
    (t.when b f).holdsBank g r := by
  cases b
  · exact h
  · exact hf t h

/-- A flag of ENG.STATUS beside the mode, and its events. -/
theorem raise (h : t.holdsBank g r) (f : Fld) (hl : Rg.ENG_LFSR_STATE g ≠ f.addr)
    (hc : (Fld.ENG_STATUS_COMP_BANK g).lo + (Fld.ENG_STATUS_COMP_BANK g).w ≤ f.lo) : (t.raise f).holdsBank g r where
  bank := h.bank
  lfsr := (State.rd_wr_ne _ _ hl.symm).trans h.lfsr
  comp := (State.fld_setFld_disjoint _ _ _ _ (.inl hc)).trans h.comp

theorem jasper (h : t.holdsBank g r) (e : JCode) (u d d2 : Nat) : (t.jasper e u d d2).holdsBank g r :=
  h.of_same (by rw [State.jasper_eng]) fun a => by rw [State.jasper_rd]

end State.holdsBank

/-- An engine's bank stored: it is held from then on. -/
theorem State.putBank_holdsBank (s : State) {g : Nat} {c : CoreId} {e : EngId} (hg : engOf c e = g) (p : Prog) (r : BankRun) :
    (s.putBank c e p r).holdsBank g r := by
  have hl : ∀ n, Rg.ENG_LFSR_STATE g ≠ (⟨engBase g + 0x4, n, 1⟩ : Fld).addr := fun n => by
    simp only [Rg.ENG_LFSR_STATE]
    omega
  unfold State.putBank
  rw [hg]
  extract_lets k layer t1 t2 t3 t4 t5 t6
  have h3 : t3.holdsBank g r := by
    refine ⟨?_, ?_, ?_⟩
    · simp only [t3, t2, t1, k, State.setFld_eng, State.wr_eng, State.eng_modEng_same]
    · exact (State.rd_wr_ne _ _ (hl 1).symm).trans (State.rd_wr_same _ _ _)
    · refine (State.fld_setFld_same _ _ _ (by decide : 1 + 1 ≤ 32)).trans ?_
      cases r.comp <;> rfl
  have h4 : t4.holdsBank g r := h3.count _ _
  have h5 : t5.holdsBank g r := h4.when _ _ fun _ h => State.each_inv _ (·.holdsBank g r) _ _ (h.raise _ (hl 2) (Nat.le_refl 2)) fun _ _ _ h => h.jasper _ _ _ _
  have h6 : t6.holdsBank g r := h5.when _ _ fun _ h => (h.raise _ (hl 3) (Nat.le_succ 2)).jasper _ _ _ _
  exact h6.guardRec _ _ _ _

end Sys2Proof.Machine
end

section
/-! PROOFS. MERGE adds a 48-bit addend to every entry (R94 to R96, R98, R106). -/

namespace Sys2Proof.Machine

/-- The addend of MERGE for token `t` and column `j`: the low 48 bits of its record. -/
def State.mergeAddend (s : State) (c : CoreId) (op : RawOp) (t j : Nat) : Int :=
  sx 48 ((s.core c).buf.rdLe (64 * op.addr.toNat + 8 * (32 * t + j)) 6)

/-- The bank that MERGE leaves. -/
def State.merged (s : State) (c : CoreId) (e : EngId) (op : RawOp) (T : Nat) : BankRun :=
  (s.bankRun (engOf c e)).addRows T (s.mergeAddend c op)

theorem runMerge_ok {c : CoreId} {e : EngId} {op : RawOp} {o : SetupOp} {s : State} (hs : (s.eng (engOf c e)).setup = some o)
    (hr : 64 * op.addr.toNat + 256 * o.t ≤ 2 ^ 21) (hb : (s.core c).bad (64 * op.addr.toNat) (256 * o.t) = false) (p : Prog) :
    runMerge c e op p s = ((s.putBank c e p (s.merged c e op o.t)).busy (engOf c e)
      (8 + (if s.fld (Fld.ENG_STATUS_COMP_BANK (engOf c e)) == 1 then 4 else 2) * o.t), true) := by
  unfold runMerge State.merged BankRun.addRows State.mergeAddend
  simp only [hs, if_neg (Nat.not_lt.mpr hr : ¬ 64 * op.addr.toNat + 256 * o.t > bufBytes), State.consume_range_good hb]

/-- Storing a bank reaches two register words: the LFSR and the engine's status. -/
theorem State.putBank_sameRegs (s : State) (c : CoreId) (e : EngId) (p : Prog) (r : BankRun) :
    s.sameRegs (s.putBank c e p r) [Rg.ENG_LFSR_STATE (engOf c e), (Fld.ENG_STATUS_COMP_BANK (engOf c e)).addr] := by
  intro a ha
  simp only [List.mem_cons, List.not_mem_nil, or_false, not_or] at ha
  obtain ⟨hl, hs⟩ := ha
  have hraise : ∀ (t : State) (n : Nat), (t.raise ⟨engBase (engOf c e) + 0x4, n, 1⟩).rd a = t.rd a := fun t n => t.rd_wr_ne _ (Ne.symm hs)
  unfold State.putBank
  extract_lets g layer t1 t2 t3 t4 t5 t6
  have h3 : t3.rd a = s.rd a := (t2.rd_wr_ne _ (Ne.symm hs)).trans ((t1.rd_wr_ne _ (Ne.symm hl)).trans (s.modEng_rd _ _ a))
  have h4 : t4.rd a = s.rd a := (t3.count_rd _ _ a).trans h3
  have h5 : t5.rd a = t4.rd a := t4.when_keeps (·.rd a) _ _
    (((t4.raise _).each_keeps (·.rd a) _ _ fun t _ _ => t.jasper_rd _ _ _ _ a).trans (hraise t4 2))
  have h6 : t6.rd a = t5.rd a := t5.when_keeps (·.rd a) _ _ (((t5.raise _).jasper_rd _ _ _ _ a).trans (hraise t5 3))
  rw [State.guardRec_rd, h6, h5, h4]

/-- MERGE adds its rows to the bank and stores it; the rest stays. -/
theorem exec_merge_stores (c : CoreId) (e : EngId) (op : RawOp) (o : SetupOp) (s : State) (h : s.atHead c e (.merge c e op))
    (hs : (s.eng (engOf c e)).setup = some o) (hr : 64 * op.addr.toNat + 256 * o.t ≤ 2 ^ 21)
    (hb : (s.core c).bad (64 * op.addr.toNat) (256 * o.t) = false) :
    ∃ u, exec (.merge c e op) s = .next u ∧ u.holdsBank (engOf c e) (s.merged c e op o.t) ∧ s.engWorked u (engOf c e) ∧
      s.sameRegs u [Rg.ENG_LFSR_STATE (engOf c e), (Fld.ENG_STATUS_COMP_BANK (engOf c e)).addr] := by
  have hwork : ∀ p n, s.engWorked ((s.putBank c e p (s.merged c e op o.t)).busy (engOf c e) n) (engOf c e) :=
    fun p n => ((State.engWorked.refl s (engOf c e)).putBank rfl p _).busy n
  obtain ⟨p, b, he⟩ := State.issueAct_ends (runMerge c e op) h fun p => ⟨_, runMerge_ok hs hr hb p, hwork p _⟩
  rw [runMerge_ok hs hr hb p] at he
  refine ⟨_, congrArg Host.Outcome.next he, ((s.putBank_holdsBank rfl _ _).busy _).complete _ _ _, (hwork p _).complete _ _ _,
    s.complete_sameRegs (fun a ha => ?_) c e.val b⟩
  rw [State.busy, State.modEng_rd, State.count_rd]
  exact s.putBank_sameRegs c e p _ a ha

/-- The bank's mode as MERGE and a RUN that goes on find it. -/
theorem State.bankRun_comp (s : State) (g : Nat) : bit1 (s.bankRun g).comp = s.fld (Fld.ENG_STATUS_COMP_BANK g) := by
  have hlt : s.fld (Fld.ENG_STATUS_COMP_BANK g) < 2 := s.fld_lt (Fld.ENG_STATUS_COMP_BANK g)
  show bit1 (s.fld (Fld.ENG_STATUS_COMP_BANK g) == 1) = _
  generalize s.fld (Fld.ENG_STATUS_COMP_BANK g) = n at hlt
  interval_cases n <;> rfl

/-- Settles O31: each entry of the rows takes its addend exactly, in either mode. -/
theorem mergeAddsRecords : Obligations.MergeAddsRecords := by
  intro c e op o s h hs hr hb x old hfit
  obtain ⟨u, he, hbank, hwork, hregs⟩ := exec_merge_stores c e op o s h hs hr hb
  have htakes : (s.bankRun (engOf c e)).takes 0 (32 * o.t) (perEntry (s.mergeAddend c op)) := fun k _ hk => by
    have hk32 : 32 * (k / 32) + k % 32 = k := Nat.div_add_mod k 32
    have hold : (s.bankRun (engOf c e)).bank.at k = old (k / 32) (k % 32) := by
      show _ = (s.eng (engOf c e)).bank.at (32 * (k / 32) + k % 32)
      rw [hk32]
      rfl
    rw [hold]
    rcases hfit with ⟨hc, hf⟩ | ⟨hc, hf⟩
    · rw [show (s.bankRun (engOf c e)).comp = true by simp only [State.bankRun, hc, beq_self_eq_true]]
      exact hf (k / 32) (k % 32) (by omega) (Nat.mod_lt _ (by decide))
    · rw [show (s.bankRun (engOf c e)).comp = false by simp only [State.bankRun, hc]; rfl]
      exact hf (k / 32) (k % 32) (by omega) (Nat.mod_lt _ (by decide))
  have hgrew := BankRun.addRows_grew _ _ htakes
  refine ⟨u, he, fun t j ht hj => ?_, fun n hn => ?_, ?_, hwork.others, hwork.memory, hregs⟩
  · have hk : 32 * t + j < 32 * o.t := by omega
    have hval := (hgrew.inside (32 * t + j) (Nat.zero_le _) hk).value (htakes _ (Nat.zero_le _) hk).1
    rw [perEntry_at _ _ hj] at hval
    rw [hbank.bank]
    exact hval
  · rw [hbank.bank]
    exact hgrew.outside n (.inr hn)
  · rw [hbank.comp, ← s.bankRun_comp]
    exact congrArg bit1 hgrew.comp

end Sys2Proof.Machine
end

section
/-! PROOFS. How a RUN begins and ends in TILE mode and in the cache modes (R89, R90, R109, R111, R185). -/

namespace Sys2Proof.Machine

/-! ### The end of a RUN -/

/-- A RUN that has ended stores its bank and leaves its queue free; `f` is what it leaves in its engine beside (R109, R112, R114). -/
def State.endRun (s : State) (c : CoreId) (e : EngId) (p : Prog) (t : TileRun) (f : EngSt → EngSt) : State :=
  (((s.putRun c e p t).modEng (engOf c e) f).modCore c fun y => { y with held := y.held.filter (· != e.val) }).runCost (engOf c e) t.walk

theorem State.putRun_holdsBank (s : State) (c : CoreId) (e : EngId) (p : Prog) (t : TileRun) :
    (s.putRun c e p t).holdsBank (engOf c e) t.bank := by
  unfold State.putRun
  exact (((s.putBank_holdsBank rfl p t.bank).count _ _).modEng _ fun _ => by rfl).guardRec _ _ _ _

theorem State.endRun_holdsBank (s : State) (c : CoreId) (e : EngId) (p : Prog) (t : TileRun) (f : EngSt → EngSt)
    (hf : ∀ x, (f x).bank = x.bank) : (s.endRun c e p t f).holdsBank (engOf c e) t.bank := by
  unfold State.endRun
  exact (((s.putRun_holdsBank c e p t).modEng f hf).modCore _ _).runCost _

theorem State.engWorked.endRun {s t : State} {c : CoreId} {e : EngId} (h : s.engWorked t (engOf c e)) (p : Prog) (r : TileRun) (f : EngSt → EngSt)
    (hf : ∀ x, x.saved = none → (f x).saved = none) : s.engWorked (t.endRun c e p r f) (engOf c e) := by
  unfold State.endRun
  exact (((h.putRun rfl p r).modEng f hf).modCore _ _ fun _ => by rfl).runCost _

/-- What `f` leaves in the engine, the cycles of the RUN apart. -/
theorem State.endRun_eng (s : State) (c : CoreId) (e : EngId) (p : Prog) (t : TileRun) (f : EngSt → EngSt) :
    ((s.endRun c e p t f).eng (engOf c e)).scalePos = (f ((s.putRun c e p t).eng (engOf c e))).scalePos ∧
      ((s.endRun c e p t f).eng (engOf c e)).run = (f ((s.putRun c e p t).eng (engOf c e))).run := by
  unfold State.endRun State.runCost
  simp only [State.count_eng, State.eng_modEng_same, State.modCore_eng, and_self]

/-! ### Its beginning -/

/-- The bank, cleared or gone on with, and the mode that a RUN begins with (R100). -/
def State.runStart (s : State) (g : Nat) (o : SetupOp) (op : RunOp) : BankRun :=
  { s.bankRun g with
    bank := if op.accumulate then (s.eng g).bank else []
    comp := if op.accumulate then s.fld (Fld.ENG_STATUS_COMP_BANK g) == 1 else s.startComp g (some o) }

/-- The place of its first tile, and its scale position there (R109, R176). -/
def State.runWalk (s : State) (g : Nat) (o : SetupOp) (op : RunOp) : Walk :=
  { addr := 32 * op.src.toNat
    pos := if op.scaleCont then (s.eng g).scalePos.getD ⟨0, 0, false⟩ else ⟨128 * o.scaleBase.toNat, 0, false⟩ }

/-- Its walk over tiles before the first of them. -/
def State.runFrom (s : State) (g : Nat) (o : SetupOp) (op : RunOp) : TileRun :=
  { bank := s.runStart g o op, used := (s.eng g).weights, walk := s.runWalk g o op }

/-- A RUN stands at the head of its queue under SETUP `o`: no tile holds it, its rules are met (R109, R111), and no unit of the buffer is bad. -/
structure State.runReady (s : State) (c : CoreId) (e : EngId) (op : RunOp) (o : SetupOp) : Prop where
  head : s.atHead c e (.run c e op) = true
  setup : (s.eng (engOf c e)).setup = some o
  hold : (s.eng (engOf c e)).hold = none
  run : (s.eng (engOf c e)).run = none
  rules : runBad (s.eng (engOf c e)) o op = false
  buffer : (s.core c).bufBad = []

section
variable {c : CoreId} {e : EngId} {op : RunOp} {o : SetupOp} {s : State} {p : Prog}

theorem State.runReady.blocks_pos (h : s.runReady c e op o) : 0 < op.blocks.toNat := by
  have hrules := h.rules
  refine Nat.pos_of_ne_zero fun h0 => ?_
  simp only [runBad, h0, beq_self_eq_true, Bool.true_or, Bool.true_eq_false] at hrules

theorem runRun_begins (h : s.runReady c e op o) : runRun c e op p s = runBegin c e o op p s := by
  simp only [runRun, h.hold, h.run, h.setup, Option.isSome_none, Bool.false_eq_true, if_false, Option.filter_none]

theorem runBegin_tile (h : s.runReady c e op o) (ht : o.tileMode = true) (hd : (s.eng (engOf c e)).dec = none) :
    runBegin c e o op p s = runOn c e p ⟨op, o, p.seg.isSome, s.runWalk (engOf c e) o op⟩ (s.runStart (engOf c e) o op) s := by
  have hw : s.waitDecode (engOf c e) (fun d => d.addr == 32 * op.src.toNat && d.block == op.blockOfs.toNat && d.cont) = (0, s) := by
    simp only [State.waitDecode, hd]
  simp only [runBegin, h.rules, ht, Bool.false_eq_true, if_false, if_true, hw, s.consume_good _ _ h.buffer]
  rfl

theorem runBegin_cache (h : s.runReady c e op o) (ht : o.tileMode = false) :
    runBegin c e o op p s = runCache c e o op p (s.runStart (engOf c e) o op) s := by
  simp only [runBegin, h.rules, ht, Bool.false_eq_true, if_false]
  rfl

/-- What a TILE-mode RUN that has ended leaves in its engine beside the bank: the scale position, and no RUN held (R109, R176). -/
def EngSt.ended (y : EngSt) (seg : Bool) (pos : ScalePos) : EngSt := { y.leavePos seg pos with run := none }

theorem EngSt.ended_of_not_saved {y : EngSt} (seg : Bool) (pos : ScalePos) (h : y.saved = none) :
    y.ended seg pos = { y with scalePos := some pos, run := none } := by rw [EngSt.ended, EngSt.leavePos, h]

theorem EngSt.ended_saved {y : EngSt} (seg : Bool) (pos : ScalePos) (h : y.saved = none) : (y.ended seg pos).saved = none := by
  rw [EngSt.ended_of_not_saved seg pos h, h]

theorem EngSt.ended_bank (y : EngSt) (seg : Bool) (pos : ScalePos) : (y.ended seg pos).bank = y.bank := by
  unfold EngSt.ended EngSt.leavePos
  split
  · split <;> rfl
  · rfl

/-- A TILE-mode RUN whose tiles all pass ends. -/
theorem runOn_ends {r : RunHeld} {start : BankRun} {s1 : State} {w : TileRun}
    (h : runTiles c e r.setup r.op 4096 s { bank := start, used := (s.eng (engOf c e)).weights, walk := r.walk } = (none, s1, w)) :
    runOn c e p r start s = (s1.endRun c e p w (·.ended r.seg w.walk.pos), true) := by
  unfold runOn
  simp only [h]
  rfl

/-- Where a RUN in a cache mode waits for the rest of a tile, it begins with the blocks it would have had without. -/
theorem State.waitDecode_any (s : State) (c : CoreId) (g : Nat) :
    ∃ n s1, s.waitDecode g (fun _ => false) = (n, s1) ∧ s.engWorked s1 g ∧ s1.core c = s.core c ∧
      ∀ o op, cacheBlock s1 c o op = cacheBlock s c o op := by
  unfold State.waitDecode
  split
  · exact ⟨_, _, rfl, (State.engWorked.refl s g).modEng _ fun _ hs => by exact hs, rfl, fun _ _ => rfl⟩
  · exact ⟨_, _, rfl, .refl s g, rfl, fun _ _ => rfl⟩

/-- A RUN in a cache mode over a buffer without bad units streams its blocks from the state that it begins in, or one where the rest of a
tile has been waited for, and ends. -/
theorem runCache_ends (start : BankRun) (hb : (s.core c).bufBad = []) :
    ∃ (s1 : State) (t : TileRun), s.engWorked s1 (engOf c e) ∧ t.bank = start ∧ t.walk.done = 0 ∧
      runCache c e o op p start s = (s1.endRun c e p (t.stream (s.core c) o [] op.actChunk.toNat (loadCycles o.cacheFmt)
        ((List.range op.blocks.toNat).map fun n => some (cacheBlock s c o op n))) fun y => { y with run := none }, true) := by
  have hfill : ∀ a n, (s.core c).badFills a n = [] := fun a n => by simp only [CoreSt.badFills, hb, List.isEmpty_nil, if_true]
  have hother : ∀ a n, (s.core c).badOther a n = false := fun a n => by
    simp only [CoreSt.badOther, hb, List.isEmpty_nil, Bool.not_true, Bool.false_and]
  obtain ⟨n, s1, hw, hwork, hcore, hblk⟩ := s.waitDecode_any c (engOf c e)
  refine ⟨s1, { bank := start, used := (s1.eng (engOf c e)).weights, walk := { addr := 0, pos := ⟨0, 0, false⟩, stalls := n } }, hwork, rfl, rfl, ?_⟩
  unfold runCache
  simp only [hfill, hother, hw, hcore, hblk, List.find?_nil, State.each_nil, State.when_false, s1.consume_good _ _ (hcore.symm ▸ hb)]
  rfl

end

end Sys2Proof.Machine
end

section
/-! PROOFS. A walk over stored tiles: what it leaves alone, and the blocks of one raw tile (R109, R163, R175, R176, R181). -/

namespace Sys2Proof.Machine

/-! ### What a walk leaves alone -/

theorem State.engWorked.expTable {s t : State} {g : Nat} (h : s.engWorked t g) (c : CoreId) (id gen : Nat) :
    s.engWorked (t.expTable c g id gen).2 g := by
  unfold State.expTable
  extract_lets held touch free i t1 l
  clear_value held
  cases held with
  | some j =>
    dsimp only
    split
    · exact h.modEng (fun x => touch x j) fun _ hs => by exact hs
    · exact ((h.setFld _ _).modEng _ fun _ hs => by exact hs).count _ _
  | none =>
    have h1 : s.engWorked t1 g := ((h.setFld _ _).setFld _ _).setFld _ _
    exact (h1.modEng _ fun _ hs => by exact hs).count _ _

theorem State.engWorked.runStored {s t : State} {c : CoreId} {e : EngId} (h : s.engWorked t (engOf c e)) (o : SetupOp) (op : RunOp)
    (st : TileStart) (hd : TileHdr) (b0 : Nat) (r : TileRun) : s.engWorked (runStored c e o op st hd b0 t r).1 (engOf c e) := by
  have htab : s.engWorked (if hd.coded then t.expTable c (engOf c e) hd.table hd.gen else (true, t)).2 (engOf c e) := by
    split
    · exact h.expTable c hd.table hd.gen
    · exact h
  unfold Machine.runStored
  extract_lets g x w fg bpt l n ended pos dec first tab t1 lens sym lead idle t2 more nh next ds skip fed feed over_ s2 s3 s4 s5 s6 chk s7
  have h5 : s.engWorked s5 (engOf c e) := (((htab.setFld _ _).setFld _ _).setFld _ _).setFld _ _
  have h6 : s.engWorked s6 (engOf c e) := h5.when _ _ fun _ h => h.count _ _
  show s.engWorked s7 (engOf c e)
  exact h6.modEng _ fun _ hs => by exact hs

theorem State.engWorked.runTiles {s t : State} {c : CoreId} {e : EngId} (h : s.engWorked t (engOf c e)) (o : SetupOp) (op : RunOp)
    (fuel : Nat) (r : TileRun) : s.engWorked (runTiles c e o op fuel t r).2.1 (engOf c e) := by
  induction fuel generalizing t r with
  | zero => exact h
  | succ fuel ih =>
    unfold Machine.runTiles
    split
    · exact h
    · dsimp only
      split
      · exact h
      · split
        · exact ih (h.runStored _ _ _ _ _ _) _
        · exact ih h _

/-! ### One raw tile -/

/-- The symbols of a raw tile do not depend on a table. -/
theorem decodeTile_raw (m : Mem) (a : Nat) {h : TileHdr} (hc : h.coded = false) (l l' : List Nat) : decodeTile m a h l = decodeTile m a h l' := by
  simp only [decodeTile, hc, Bool.false_eq_true, if_false]

/-- A raw tile adds its blocks as they stand in it, and counts them. -/
theorem runStored_raw (c : CoreId) (e : EngId) (o : SetupOp) (op : RunOp) (st : TileStart) {h : TileHdr} (b0 : Nat) (s : State) (t : TileRun)
    (hc : h.coded = false) :
    let x := s.core c
    let sym := decodeTile x.buf t.walk.addr h []
    let n := min (blocksPerTile st.fg.1 - b0) (op.blocks.toNat - t.walk.done)
    let u := { t with costs := [] }.stream x o (s.eng (engOf c e)).outliers op.actChunk.toNat (loadCycles st.fg.1) ((List.range n).map fun i =>
      some (tileBlock s c o x.buf st.fg (blockSymbols st.fg.1 sym (b0 + i)) (t.walk.scaleAt op st.fg b0 st.scSub) b0 (b0 + i)))
    (fun r : TileRun => (r.bank, r.walk.done)) (runStored c e o op st h b0 s t).2 = (u.bank, u.walk.done) := by
  intro x sym n u
  unfold runStored
  extract_lets g w fg bpt l n' ended pos dec first tab t1 lens sym' lead idle t2
  have htab : tab = (true, s) := if_neg (by rw [hc]; exact Bool.false_ne_true)
  have ht1 : t1 = s := congrArg Prod.snd htab
  have hsym : sym' = sym := decodeTile_raw _ _ hc _ _
  have ht2 : t2 = u := by
    simp only [t2, ht1, hsym]
    rfl
  show (t2.bank, t2.walk.done) = (u.bank, u.walk.done)
  rw [ht2]

/-- A walk whose blocks all lie in its first tile ends with it. -/
theorem runTiles_one {c : CoreId} {e : EngId} {o : SetupOp} {op : RunOp} {s : State} {t : TileRun} {st : TileStart} {h : TileHdr} (fuel : Nat)
    (hd : t.walk.done < op.blocks.toNat) (he : t.walk.expect = none)
    (hst : tileStart s c (s.core c) t.walk op.blockOfs.toNat op.blocks.toNat = .ok st) (hh : st.hdr = some h)
    (hn : op.blocks.toNat ≤ (runStored c e o op st h op.blockOfs.toNat s t).2.walk.done) :
    runTiles c e o op (fuel + 2) s t =
      (none, (runStored c e o op st h op.blockOfs.toNat s t).1, (runStored c e o op st h op.blockOfs.toNat s t).2) := by
  rw [runTiles, if_neg (Nat.not_le.mpr hd)]
  simp only [he, Option.isNone_none, if_true, hst, hh]
  rw [runTiles, if_pos hn]

end Sys2Proof.Machine
end

section
/-! PROOFS. RUN adds the products of a pass to the bank (R87, R89 to R92, R94, R98, R109). -/

namespace Sys2Proof.Machine

section
variable {c : CoreId} {e : EngId} {op : RunOp} {o : SetupOp} {s : State}

/-! ### The cache modes -/

/-- A RUN in a cache mode stores the bank to which its blocks were streamed; the rest stays. -/
theorem exec_run_cache (h : s.runReady c e op o) (ht : o.tileMode = false) :
    ∃ (u : State) (t : TileRun), exec (.run c e op) s = .next u ∧ t.bank = s.runStart (engOf c e) o op ∧ t.walk.done = 0 ∧
      u.holdsBank (engOf c e) (t.stream (s.core c) o [] op.actChunk.toNat (loadCycles o.cacheFmt)
        ((List.range op.blocks.toNat).map fun n => some (cacheBlock s c o op n))).bank ∧ s.engWorked u (engOf c e) := by
  have hrun : ∀ p, ∃ (s1 : State) (t : TileRun), s.engWorked s1 (engOf c e) ∧ t.bank = s.runStart (engOf c e) o op ∧ t.walk.done = 0 ∧
      runRun c e op p s = (s1.endRun c e p (t.stream (s.core c) o [] op.actChunk.toNat (loadCycles o.cacheFmt)
        ((List.range op.blocks.toNat).map fun n => some (cacheBlock s c o op n))) fun y => { y with run := none }, true) := fun p => by
    rw [runRun_begins h, runBegin_cache h ht]
    exact runCache_ends _ h.buffer
  obtain ⟨p, b, he⟩ := State.issueAct_ends (runRun c e op) h.head fun p => by
    obtain ⟨s1, t, hwork, -, -, hp⟩ := hrun p
    exact ⟨_, hp, hwork.endRun _ _ _ fun _ hs => by exact hs⟩
  obtain ⟨s1, t, hwork, hbank, hdone, hp⟩ := hrun p
  rw [hp] at he
  exact ⟨_, t, congrArg Host.Outcome.next he, hbank, hdone, (s1.endRun_holdsBank _ _ _ _ _ fun _ => by rfl).complete _ _ _,
    (hwork.endRun _ _ _ fun _ hs => by exact hs).complete _ _ _⟩

/-- The products of R92 of the first `n` blocks of a RUN in a cache mode, for entry (t, j). -/
def State.cacheSum (s : State) (c : CoreId) (o : SetupOp) (op : RunOp) (n t j : Nat) : Int :=
  ((List.range n).map fun b => addend (cacheBlock s c o op b) 1 (actRow (s.core c) o [] (op.actChunk.toNat + b) t 0).1 j).sum

theorem blocksAddend_cache (ha : o.a16 = false) (n t j : Nat) :
    blocksAddend (s.core c) o [] op.actChunk.toNat (cacheBlock s c o op) n t j = s.cacheSum c o op n t j := by
  simp only [blocksAddend, blockAddend, passAddend, State.cacheSum, ha, Bool.false_and, Bool.false_eq_true, if_false, Int.add_zero]

/-- Where activations have one pass, the totals need only fit at the end of each block. -/
theorem blocksFit.of_one_pass {x : CoreSt} {outliers : List (BitVec 16)} {r : BankRun} {chunk n : Nat} {blk : Nat → Block} (ha : o.a16 = false)
    (hexact : ∀ k, k < 32 * o.t → (r.bank.at k).exact r.comp)
    (hblock : ∀ m t j, m ≤ n → t < o.t → j < 32 →
      Acc.holds r.comp ((r.bank.at (32 * t + j)).total r.comp + blocksAddend x o outliers chunk blk m t j)) :
    blocksFit x o outliers r chunk blk n where
  exact := hexact
  block := hblock
  pass := fun m t j hm ht hj => by
    have hfit := hblock (m + 1) t j hm ht hj
    rwa [blocksAddend_succ, blockAddend, ha, if_neg Bool.false_ne_true, Int.add_zero] at hfit

/-- A RUN in a cache mode whose totals fit adds its products exactly. -/
theorem exec_run_cache_exact (h : s.runReady c e op o) (ht : o.tileMode = false) (ha : o.a16 = false) (comp : Bool) (hcomp : (s.runStart (engOf c e) o op).comp = comp)
    (hexact : ∀ k, ((s.runStart (engOf c e) o op).bank.at k).exact comp)
    (hfit : ∀ n t j, n ≤ op.blocks.toNat → t < o.t → j < 32 →
      Acc.holds comp (((s.runStart (engOf c e) o op).bank.at (32 * t + j)).total comp + s.cacheSum c o op n t j)) :
    ∃ u, exec (.run c e op) s = .next u ∧
      (∀ t j, t < o.t → j < 32 → ((s.runStart (engOf c e) o op).bank.at (32 * t + j)).grew comp (s.cacheSum c o op op.blocks.toNat t j)
        ((u.eng (engOf c e)).bank.at (32 * t + j))) ∧
      u.fld (Fld.ENG_STATUS_COMP_BANK (engOf c e)) = bit1 comp ∧ (∀ g, g ≠ engOf c e → u.eng g = s.eng g) ∧ s.sameMemory u := by
  subst hcomp
  obtain ⟨u, t0, he, hbank, hdone, hholds, hwork⟩ := exec_run_cache h ht
  have hgrew := (t0.stream_grew (s.core c) o [] op.actChunk.toNat (loadCycles o.cacheFmt) (cacheBlock s c o op) op.blocks.toNat (by
    rw [hbank, hdone]
    refine .of_one_pass ha (fun k _ => hexact k) fun m t j hm htt hj => ?_
    rw [Nat.add_zero, blocksAddend_cache ha]
    exact hfit m t j hm htt hj)).1
  rw [hbank, hdone, Nat.add_zero] at hgrew
  refine ⟨u, he, fun t j htt hj => ?_, ?_, hwork.others, hwork.memory⟩
  · have hk := hgrew.inside (32 * t + j) (Nat.zero_le _) (by omega)
    rwa [perEntry_at _ _ hj, blocksAddend_cache ha, ← hholds.bank] at hk
  · rw [hholds.comp, hgrew.comp]

/-! ### TILE mode -/

/-- A TILE-mode RUN whose tiles all pass stores the bank that the walk over them ends with; the rest stays. -/
theorem exec_run_tiles {s1 : State} {w : TileRun} (h : s.runReady c e op o) (hd : (s.eng (engOf c e)).dec = none) (ht : o.tileMode = true)
    (hw : runTiles c e o op 4096 s (s.runFrom (engOf c e) o op) = (none, s1, w)) :
    ∃ u, exec (.run c e op) s = .next u ∧ u.holdsBank (engOf c e) w.bank ∧ s.engWorked u (engOf c e) ∧
      ((s.eng (engOf c e)).saved = none → (u.eng (engOf c e)).scalePos = some w.walk.pos) ∧ (u.eng (engOf c e)).run = none := by
  have hwork : s.engWorked s1 (engOf c e) := by
    have hwalk := (State.engWorked.refl s (engOf c e)).runTiles o op 4096 (s.runFrom (engOf c e) o op)
    rwa [hw] at hwalk
  have hrun : ∀ p, runRun c e op p s = (s1.endRun c e p w (·.ended p.seg.isSome w.walk.pos), true) := fun p => by
    rw [runRun_begins h, runBegin_tile h ht hd]
    exact runOn_ends hw
  have hend : ∀ p : Prog, s.engWorked (s1.endRun c e p w (·.ended p.seg.isSome w.walk.pos)) (engOf c e) :=
    fun p => hwork.endRun p w _ fun _ hy => EngSt.ended_saved _ _ hy
  obtain ⟨p, b, he⟩ := State.issueAct_ends (runRun c e op) h.head fun p => ⟨_, hrun p, hend p⟩
  rw [hrun p] at he
  obtain ⟨hpos, hnone⟩ := s1.endRun_eng c e p w (·.ended p.seg.isSome w.walk.pos)
  refine ⟨_, congrArg Host.Outcome.next he, (s1.endRun_holdsBank c e p w _ fun y => y.ended_bank _ _).complete _ _ _, (hend p).complete _ _ _, fun hsv => ?_, ?_⟩
  · rw [State.complete_eng, hpos, EngSt.ended_of_not_saved _ _ ((hwork.putRun rfl p w).saved hsv)]
  · rw [State.complete_eng, hnone, EngSt.ended]

/-- The block `n` of a RUN within one tile that has passed its checks (R163, R175, R176). -/
def State.rawBlock (s : State) (c : CoreId) (o : SetupOp) (op : RunOp) (st : TileStart) (h : TileHdr) (n : Nat) : Block :=
  tileBlock s c o (s.core c).buf st.fg (blockSymbols st.fg.1 (decodeTile (s.core c).buf (32 * op.src.toNat) h []) (op.blockOfs.toNat + n))
    ⟨128 * o.scaleBase.toNat, op.blockOfs.toNat / (st.fg.2 / 32), st.scSub⟩ op.blockOfs.toNat (op.blockOfs.toNat + n)

/-- A walk over blocks of one raw tile whose totals fit adds their products exactly. -/
theorem runTiles_raw_exact {st : TileStart} {h : TileHdr} {t : TileRun} (fuel : Nat)
    (hwalk : t.walk = { addr := 32 * op.src.toNat, pos := ⟨128 * o.scaleBase.toNat, 0, false⟩ }) (hpos : 0 < op.blocks.toNat)
    (hsc : op.scaleCont = false) (hst : tileStart s c (s.core c) t.walk op.blockOfs.toNat op.blocks.toNat = .ok st)
    (hhdr : st.hdr = some h) (hraw : h.coded = false) (hin : op.blockOfs.toNat + op.blocks.toNat ≤ blocksPerTile st.fg.1)
    (hfit : blocksFit (s.core c) o (s.eng (engOf c e)).outliers t.bank op.actChunk.toNat (s.rawBlock c o op st h) op.blocks.toNat) :
    ∃ s1 w, runTiles c e o op (fuel + 2) s t = (none, s1, w) ∧ t.bank.grew w.bank 0 (32 * o.t)
      (perEntry (blocksAddend (s.core c) o (s.eng (engOf c e)).outliers op.actChunk.toNat (s.rawBlock c o op st h) op.blocks.toNat)) := by
  have hdone0 : t.walk.done = 0 := by rw [hwalk]
  have haddr : t.walk.addr = 32 * op.src.toNat := by rw [hwalk]
  have hscale : t.walk.scaleAt op st.fg op.blockOfs.toNat st.scSub =
      ⟨128 * o.scaleBase.toNat, op.blockOfs.toNat / (st.fg.2 / 32), st.scSub⟩ := by
    rw [hwalk, Walk.scaleAt, hsc]
    rfl
  have hstored := runStored_raw c e o op st op.blockOfs.toNat s t hraw
  dsimp only at hstored
  rw [hscale, hdone0, haddr, Nat.sub_zero, Nat.min_eq_right (Nat.le_sub_of_add_le' hin)] at hstored
  obtain ⟨hbank, hdone⟩ := Prod.mk.inj hstored
  obtain ⟨hgrew, hblocks⟩ := { t with costs := [] }.stream_grew (s.core c) o (s.eng (engOf c e)).outliers op.actChunk.toNat (loadCycles st.fg.1)
    (s.rawBlock c o op st h) op.blocks.toNat (by
      dsimp only
      rw [hdone0]
      exact hfit)
  dsimp only at hgrew hblocks
  rw [hdone0, Nat.add_zero] at hgrew
  rw [hdone0, Nat.zero_add] at hblocks
  refine ⟨_, _, runTiles_one fuel (by rwa [hdone0]) (by rw [hwalk]) hst hhdr (Nat.le_of_eq (hblocks.symm.trans hdone.symm)), ?_⟩
  rw [hbank]
  exact hgrew

/-- A TILE-mode RUN over blocks of one raw tile whose totals fit adds their products exactly. -/
theorem exec_run_raw_exact {st : TileStart} {h : TileHdr} (hr : s.runReady c e op o) (hd : (s.eng (engOf c e)).dec = none)
    (ht : o.tileMode = true) (hsc : op.scaleCont = false)
    (hst : tileStart s c (s.core c) { addr := 32 * op.src.toNat, pos := ⟨128 * o.scaleBase.toNat, 0, false⟩ } op.blockOfs.toNat op.blocks.toNat = .ok st)
    (hhdr : st.hdr = some h) (hraw : h.coded = false) (hin : op.blockOfs.toNat + op.blocks.toNat ≤ blocksPerTile st.fg.1)
    (hfit : blocksFit (s.core c) o (s.eng (engOf c e)).outliers (s.runStart (engOf c e) o op) op.actChunk.toNat (s.rawBlock c o op st h) op.blocks.toNat) :
    ∃ u r, exec (.run c e op) s = .next u ∧ u.holdsBank (engOf c e) r ∧ s.engWorked u (engOf c e) ∧
      (s.runStart (engOf c e) o op).grew r 0 (32 * o.t)
        (perEntry (blocksAddend (s.core c) o (s.eng (engOf c e)).outliers op.actChunk.toNat (s.rawBlock c o op st h) op.blocks.toNat)) := by
  have hwalk : s.runWalk (engOf c e) o op = { addr := 32 * op.src.toNat, pos := ⟨128 * o.scaleBase.toNat, 0, false⟩ } := by
    rw [State.runWalk, hsc, if_neg Bool.false_ne_true]
  obtain ⟨s1, w, hw, hgrew⟩ := runTiles_raw_exact (e := e) (t := s.runFrom (engOf c e) o op) 4094 hwalk hr.blocks_pos hsc
    (by rw [State.runFrom, hwalk]; exact hst) hhdr hraw hin hfit
  obtain ⟨u, he, hholds, hwork, -⟩ := exec_run_tiles hr hd ht hw
  exact ⟨u, _, he, hholds, hwork, hgrew⟩

end

/-! ### The statement -/

/-- The entries that a RUN begins with: cleared, or as they stand. -/
theorem State.runStart_at (s : State) (g : Nat) (o : SetupOp) (op : RunOp) (k : Nat) :
    (s.runStart g o op).bank.at k = if op.accumulate then (s.eng g).bank.at k else {} := by
  unfold State.runStart
  cases op.accumulate <;> rfl

/-- A cleared entry. -/
theorem Acc.total_empty (comp : Bool) : ({} : Acc).total comp = 0 := by cases comp <;> decide

theorem Acc.exact_empty (comp : Bool) : ({} : Acc).exact comp := by
  cases comp
  · exact rfl
  · exact Nat.zero_le _

theorem State.runStart_total (s : State) (g : Nat) (o : SetupOp) (op : RunOp) (k : Nat) (comp : Bool) :
    ((s.runStart g o op).bank.at k).total comp = if op.accumulate then ((s.eng g).bank.at k).total comp else 0 := by
  rw [s.runStart_at]
  split
  · rfl
  · exact Acc.total_empty comp

/-- A RUN that goes on takes the bank's mode, one that starts the mode asked for (R100); its entries are exact where those it goes on with are. -/
theorem State.runStart_exact (s : State) (g : Nat) (o : SetupOp) (op : RunOp) (comp : Bool)
    (h : if op.accumulate then s.fld (Fld.ENG_STATUS_COMP_BANK g) = bit1 comp ∧ ∀ k, ((s.eng g).bank.at k).exact comp
      else s.startComp g (some o) = comp) :
    (s.runStart g o op).comp = comp ∧ ∀ k, ((s.runStart g o op).bank.at k).exact comp := by
  simp only [s.runStart_at]
  unfold State.runStart
  cases hacc : op.accumulate with
  | true =>
    rw [hacc, if_pos rfl] at h
    obtain ⟨hc, hk⟩ := h
    refine ⟨?_, hk⟩
    simp only [if_true, hc]
    cases comp <;> rfl
  | false =>
    rw [hacc, if_neg Bool.false_ne_true] at h
    exact ⟨h, fun _ => Acc.exact_empty comp⟩

/-- Settles O29: the cache modes in compensated and in normal mode, one raw tile, and the walk over tiles. -/
theorem runAddsProducts : Obligations.RunAddsProducts := by
  refine ⟨?_, ?_, ?_, ?_⟩
  · intro c e op o s h hs hh hr hbad ht ha hb hmode start part hfit
    have htot : ∀ t j, ((s.runStart (engOf c e) o op).bank.at (32 * t + j)).total true = start t j := fun t j => s.runStart_total _ o op _ true
    obtain ⟨hc, hexact⟩ := s.runStart_exact (engOf c e) o op true hmode
    obtain ⟨u, he, hgrew, hrest⟩ := exec_run_cache_exact ⟨h, hs, hh, hr, hbad, hb⟩ ht ha true hc hexact fun n t j hn htt hj => by
      rw [htot]
      exact hfit n t j hn htt hj
    exact ⟨u, he, fun t j htt hj => (hgrew t j htt hj).total.trans (congrArg (· + _) (htot t j)), hrest⟩
  · intro c e op o s h hs hh hr hbad ht ha hb hmode start part hfit
    have htot : ∀ t j, ((s.runStart (engOf c e) o op).bank.at (32 * t + j)).total false = start t j := fun t j => s.runStart_total _ o op _ false
    obtain ⟨hc, hexact⟩ := s.runStart_exact (engOf c e) o op false hmode
    obtain ⟨u, he, hgrew, hrest⟩ := exec_run_cache_exact ⟨h, hs, hh, hr, hbad, hb⟩ ht ha false hc hexact fun n t j hn htt hj => by
      rw [htot]
      exact hfit n t j hn htt hj
    exact ⟨u, he, fun t j htt hj => ⟨(hgrew t j htt hj).total.trans (congrArg (· + _) (htot t j)), (hgrew t j htt hj).exact⟩, hrest⟩
  · intro c e op o s st hd h hs hh hr hdec hb hbad ht hacc hsc hcomp hst hhdr hraw hin x sym blk pass part hfit
    obtain ⟨hc, hexact⟩ := s.runStart_exact (engOf c e) o op true (by rwa [hacc, if_neg Bool.false_ne_true])
    have htot : ∀ k, ((s.runStart (engOf c e) o op).bank.at k).total true = 0 := fun k => by
      rw [s.runStart_total, hacc, if_neg Bool.false_ne_true]
    obtain ⟨u, r, he, hholds, hwork, hgrew⟩ := exec_run_raw_exact ⟨h, hs, hh, hr, hbad, hb⟩ hdec ht hsc hst hhdr hraw hin {
      exact := fun k _ => hc.symm ▸ hexact k
      pass := fun m t j hm htt hj => by
        rw [hc, htot, Int.zero_add]
        exact (hfit m t j (Nat.le_of_lt hm) htt hj).2.2
      block := fun m t j hm htt hj => by
        rw [hc, htot, Int.zero_add]
        obtain ⟨hlo, hhi, -⟩ := hfit m t j hm htt hj
        exact ⟨hlo, hhi⟩ }
    refine ⟨u, he, fun t j htt hj => ?_, hwork.others, hwork.memory⟩
    have hk := (hgrew.inside (32 * t + j) (Nat.zero_le _) (by omega)).total
    rw [hc, htot, Int.zero_add, perEntry_at _ _ hj, ← hholds.bank] at hk
    exact hk
  · intro c e op o s s1 w h hs hh hr hdec hsv hb hbad ht hw
    obtain ⟨u, he, hholds, hwork, hpos, hrun⟩ := exec_run_tiles ⟨h, hs, hh, hr, hbad, hb⟩ hdec ht hw
    exact ⟨u, he, hholds.bank, hholds.lfsr, hpos hsv, hrun, hwork.others, hwork.memory⟩

end Sys2Proof.Machine
end

section
/-! PROOFS. The lane operations of the vector engine: of two registers, of a register and the immediate, of one register (R119, R122,
R123, R129). -/

namespace Sys2Proof.Machine

/-! ### Values that fit their type -/

/-- The value is one of type `t`. -/
def VTy.Fits (t : VTy) (v : Int) : Prop := minOf t.bits ≤ v ∧ v ≤ maxOf t.bits

theorem VFile.get_fits (f : VFile) (t : VTy) (n i : Nat) : t.Fits (f.get t n i) := f.get_bounds t n i

theorem immB_fits (t : VTy) (w : VWord) : t.Fits (immB t w) := wrapW_bounds t.bits_pos _

theorem VTy.Fits.wrapW_eq {t : VTy} {v : Int} (h : t.Fits v) : wrapW t.bits v = v := wrapW_of_fits t.bits_pos h.1 h.2

theorem VTy.fits_zero (t : VTy) : t.Fits 0 := by cases t <;> exact ⟨by decide, by decide⟩

theorem VTy.fits_neg_one (t : VTy) : t.Fits (-1) := by cases t <;> exact ⟨by decide, by decide⟩

theorem wrapW_toInt {b : Nat} (x : BitVec b) : wrapW b x.toInt = x.toInt := by rw [wrapW, BitVec.ofInt_toInt]

theorem VTy.Fits.min {t : VTy} {a b : Int} (ha : t.Fits a) (hb : t.Fits b) : t.Fits (min a b) := ⟨le_min ha.1 hb.1, min_le_of_left_le ha.2⟩

theorem VTy.Fits.max {t : VTy} {a b : Int} (ha : t.Fits a) (hb : t.Fits b) : t.Fits (max a b) := ⟨le_max_of_le_left ha.1, max_le ha.2 hb.2⟩

/-- An element shifted right keeps its type. -/
theorem VTy.Fits.ediv_two_pow {t : VTy} {a : Int} (h : t.Fits a) (n : Nat) : t.Fits (a / 2 ^ n) := by
  have hp : (0 : Int) < 2 ^ n := by positivity
  constructor
  · have := mul_le_mul_of_nonpos_left (show (1 : Int) ≤ 2 ^ n from hp) t.fits_zero.1
    exact (Int.le_ediv_iff_mul_le hp).mpr (by linarith [h.1])
  · rcases le_or_gt 0 a with ha | ha
    · exact (Int.ediv_le_self _ ha).trans h.2
    · exact (Int.ediv_neg_of_neg_of_pos ha hp).le.trans t.fits_zero.2

/-- Rounding to nearest answers the quotient, or the next number where the remainder is half the divisor or more (R79). -/
theorem rne_cases (a d : Int) : rne a d = a / d ∨ rne a d = a / d + 1 ∧ d ≤ 2 * (a % d) := by
  unfold rne
  dsimp only
  split
  · exact .inr ⟨rfl, by omega⟩
  · exact .inl rfl

/-- An element shifted right with rounding keeps its type. -/
theorem VTy.Fits.rne_two_pow {t : VTy} {a : Int} (h : t.Fits a) (n : Nat) : t.Fits (rne a (2 ^ n)) := by
  have hq := h.ediv_two_pow n
  rcases rne_cases a (2 ^ n) with he | ⟨he, hr⟩
  · rwa [he]
  rw [he]
  refine ⟨hq.1.trans (by omega), ?_⟩
  rcases n with _ | n
  · rw [pow_zero, Int.emod_one] at hr
    omega
  rcases le_or_gt 0 (a / 2 ^ (n + 1)) with hn | hn
  · have hd : (2 : Int) ≤ 2 ^ (n + 1) := by
      rw [pow_succ]
      have : (0 : Int) < 2 ^ n := by positivity
      omega
    have ha := Int.mul_ediv_add_emod a (2 ^ (n + 1))
    have := mul_le_mul_of_nonneg_right hd hn
    have := h.2
    omega
  · have := t.fits_zero.2
    omega

/-! ### The operations of the table rows (R122, R123) -/

theorem opMin_fits {t : VTy} {a b : Int} (ha : t.Fits a) (hb : t.Fits b) : wrapW t.bits (opMin t a b) = min a b := by
  rw [opMin_eq]
  exact (ha.min hb).wrapW_eq

theorem opMax_fits {t : VTy} {a b : Int} (ha : t.Fits a) (hb : t.Fits b) : wrapW t.bits (opMax t a b) = max a b := by
  rw [opMax_eq]
  exact (ha.max hb).wrapW_eq

theorem opShl_fits (t : VTy) (a : Int) (n : Nat) :
    wrapW t.bits (opShl t a n) = if t.bits ≤ n then 0 else wrapW t.bits (a * 2 ^ n) := by
  unfold opShl
  split
  · exact wrapW_zero _
  · exact wrapW_wrapW t.bits_pos _

theorem opSra_fits {t : VTy} {a : Int} (ha : t.Fits a) (n : Nat) :
    wrapW t.bits (opSra t a n) = if t.bits ≤ n then (if a < 0 then -1 else 0) else a / 2 ^ n := by
  unfold opSra
  split
  · split
    · exact t.fits_neg_one.wrapW_eq
    · exact wrapW_zero _
  · exact (ha.ediv_two_pow n).wrapW_eq

theorem opSrr_fits {t : VTy} {a : Int} (ha : t.Fits a) (n : Nat) :
    wrapW t.bits (opSrr t a n) = if t.bits ≤ n then 0 else rne a (2 ^ n) := by
  unfold opSrr
  split
  · exact wrapW_zero _
  · exact (ha.rne_two_pow n).wrapW_eq

theorem satW_of_gt {b : Nat} {v : Int} (h : maxOf b ≤ v) : satW b v = maxOf b := by
  have := minOf_le_maxOf b
  rw [satW_eq]
  omega

theorem satW_of_lt {b : Nat} {v : Int} (h : v ≤ minOf b) : satW b v = minOf b := by
  have := minOf_le_maxOf b
  rw [satW_eq]
  omega

/-- A saturating shift left by the type's width or more answers what saturation answers. -/
theorem opShlS_eq (t : VTy) (a : Int) (n : Nat) : opShlS t a n = satW t.bits (a * 2 ^ n) := by
  unfold opShlS
  split
  next hn =>
    have hp : (2 : Int) ^ t.bits ≤ 2 ^ n := by exact_mod_cast Nat.pow_le_pow_right (by decide) hn
    have hM : maxOf t.bits < 2 ^ t.bits ∧ -(2 ^ t.bits) < minOf t.bits := by cases t <;> exact ⟨by decide, by decide⟩
    rcases lt_trichotomy a 0 with ha | rfl | ha
    · have : a * 2 ^ n ≤ -1 * 2 ^ n := mul_le_mul_of_nonneg_right (by omega) (by positivity)
      rw [if_neg (by omega), if_neg (by omega), satW_of_lt (by omega)]
    · obtain ⟨h1, h2⟩ := t.fits_zero
      rw [if_pos rfl, zero_mul, satW_eq]
      omega
    · have : 1 * 2 ^ n ≤ a * 2 ^ n := mul_le_mul_of_nonneg_right (by omega) (by positivity)
      rw [if_neg (by omega), if_pos ha, satW_of_gt (by omega)]
  · rfl

theorem opShlS_fits (t : VTy) (a : Int) (n : Nat) : wrapW t.bits (opShlS t a n) = satW t.bits (a * 2 ^ n) := by
  rw [opShlS_eq]
  exact wrapW_satW t.bits_pos _

/-! ### The lane instructions as commands -/

/-- An instruction that writes elements of VD, and nothing else of the registers. -/
theorem State.vec_setAll {s : State} {c : CoreId} {i : Instr} {w : VWord} {op : VCtx → VWord → VFile → VOut} {k : ElemKind}
    {cost : VWord → Nat} {t : VTy} {is : List Nat} {g g' : Nat → Int} (hh : s.atHead c 4 i = true)
    (ho : op (s.vecCtx c) w (s.core c).vec = .ok { file := (s.core c).vec.setAll t w.vd is g, buf := (s.core c).buf })
    (hg : ∀ j ∈ is, wrapW t.bits (g j) = g' j) :
    (s.core c).vec.wrote ((s.vec c i w op k cost).core c).vec t w.vd is g' ∧
      s.vecDone (s.vec c i w op k cost) c (cost w) (k.count (s.core c).vec w) 0 := by
  obtain ⟨hf, hd⟩ := s.vec_ok (k := k) (cost := cost) hh ho (s.consume_nil _)
  exact ⟨hf ▸ VFile.wrote_congr (VFile.setAll_wrote ..) hg, hd⟩

/-- A lane operation of two registers. -/
theorem exec_laneBinary {s : State} {c : CoreId} {i : Instr} {w : VWord} {ty : VTy} {run : VCtx → VWord → VFile → VOut} {cost : VWord → Nat}
    (op : VTy → Int → Int → Int) (h : s.vecReady c i w ty [(ty, w.vd, nOf w), (ty, w.va, nOf w), (ty, w.vb, nOf w)])
    (he : exec i s = .next (s.vec c i w run .masked cost))
    (hr : run (s.vecCtx c) w (s.core c).vec = laneBinary op (s.vecCtx c) w (s.core c).vec) {op' : Int → Int → Int}
    (hop : ∀ {a b}, ty.Fits a → ty.Fits b → wrapW ty.bits (op ty a b) = op' a b) :
    let f := (s.core c).vec
    ∃ t, exec i s = .next t ∧
      f.wrote (t.core c).vec ty w.vd (activeOf f w) (fun j => op' (f.get ty w.va j) (f.get ty w.vb j)) ∧
      s.vecDone t c (cost w) (activeOf f w).length 0 := by
  obtain ⟨hh, ht, hg⟩ := h
  exact ⟨_, he, State.vec_setAll (k := .masked) hh (hr.trans ((withType_eq _ ht rfl).trans (withGroups_eq _ hg)))
    fun j _ => hop (VFile.get_fits ..) (VFile.get_fits ..)⟩

/-- A shift by the elements of a register. -/
theorem exec_shiftReg {s : State} {c : CoreId} {i : Instr} {w : VWord} {ty : VTy} {op : VTy → Int → Nat → Int}
    (h : s.vecReady c i w ty [(ty, w.vd, nOf w), (ty, w.va, nOf w), (ty, w.vb, nOf w)])
    (he : exec i s = .next (s.vec c i w (shiftReg op) .masked costLane)) {op' : Int → Nat → Int}
    (hop : ∀ {a} n, ty.Fits a → wrapW ty.bits (op ty a n) = op' a n) :
    let f := (s.core c).vec
    ∃ t, exec i s = .next t ∧
      f.wrote (t.core c).vec ty w.vd (activeOf f w) (fun j => op' (f.get ty w.va j) (f.getU ty w.vb j % 256)) ∧
      s.vecDone t c (costLane w) (activeOf f w).length 0 := by
  obtain ⟨hh, ht, hg⟩ := h
  exact ⟨_, he, State.vec_setAll (k := .masked) hh ((withType_eq _ ht rfl).trans (withGroups_eq _ hg))
    fun j _ => hop _ (VFile.get_fits ..)⟩

/-- A lane operation of one register. -/
theorem exec_laneUnary {s : State} {c : CoreId} {i : Instr} {w : VWord} {ty : VTy} {run : VCtx → VWord → VFile → VOut} {cost : VWord → Nat}
    (op : VTy → Int → Int) (h : s.vecReady c i w ty [(ty, w.vd, nOf w), (ty, w.va, nOf w)])
    (he : exec i s = .next (s.vec c i w run .masked cost))
    (hr : run (s.vecCtx c) w (s.core c).vec = laneUnary op (s.vecCtx c) w (s.core c).vec) {op' : Int → Int}
    (hop : ∀ {a}, ty.Fits a → wrapW ty.bits (op ty a) = op' a) :
    let f := (s.core c).vec
    ∃ t, exec i s = .next t ∧ f.wrote (t.core c).vec ty w.vd (activeOf f w) (fun j => op' (f.get ty w.va j)) ∧
      s.vecDone t c (cost w) (activeOf f w).length 0 := by
  obtain ⟨hh, ht, hg⟩ := h
  exact ⟨_, he, State.vec_setAll (k := .masked) hh (hr.trans ((withType_eq _ ht rfl).trans (withGroups_eq _ hg)))
    fun j _ => hop (VFile.get_fits ..)⟩

/-- A lane operation of a register and the immediate. -/
theorem exec_laneImm {s : State} {c : CoreId} {i : Instr} {w : VWord} {ty : VTy} {cost : VWord → Nat} (op : VTy → Int → Int → Int)
    (h : s.vecReady c i w ty [(ty, w.vd, nOf w), (ty, w.va, nOf w)]) (he : exec i s = .next (s.vec c i w (laneImm op) .masked cost))
    {op' : Int → Int} (hop : ∀ {a}, ty.Fits a → wrapW ty.bits (op ty a (immB ty w)) = op' a) :
    let f := (s.core c).vec
    ∃ t, exec i s = .next t ∧ f.wrote (t.core c).vec ty w.vd (activeOf f w) (fun j => op' (f.get ty w.va j)) ∧
      s.vecDone t c (cost w) (activeOf f w).length 0 :=
  exec_laneUnary (fun t a => op t a (immB t w)) h he rfl hop

/-! ### VCLS -/

/-- The bits of an element that are not its sign: the element, or its complement where it is negative. -/
def magBits {b : Nat} (x : BitVec b) : BitVec b := if x.msb then ~~~x else x

theorem magBits_bit {b : Nat} (x : BitVec b) {k : Nat} (hk : k < b) : (magBits x).toNat.testBit k = (x.msb ^^ x.toNat.testBit k) := by
  unfold magBits
  rw [← BitVec.getLsbD, ← BitVec.getLsbD]
  split
  next h => simp [h, hk]
  next h => simp [h]

theorem magBits_toNat {b : Nat} (x : BitVec b) : (magBits x).toNat = if x.toInt < 0 then (-x.toInt - 1).toNat else x.toInt.toNat := by
  have hlt := x.isLt
  unfold magBits
  rw [x.toInt_eq_msb_cond]
  cases x.msb
  · simp
  · simp only [if_true, BitVec.toNat_not]
    generalize 2 ^ b = m at *
    rw [if_pos (by omega)]
    omega

theorem magBits_lt {b : Nat} (x : BitVec b) : (magBits x).toNat < 2 ^ (b - 1) := by
  have hlt := x.isLt
  have hm := x.msb_eq_decide
  have hb : 2 ^ b ≤ 2 * 2 ^ (b - 1) := by
    rw [← Nat.pow_succ']
    exact Nat.pow_le_pow_right (by decide) (by omega)
  unfold magBits
  cases hx : x.msb
  · rw [hx] at hm
    simpa using hm
  · rw [hx] at hm
    simp only [if_true, BitVec.toNat_not]
    have := of_decide_eq_true hm.symm
    omega

/-- Bits of a number up to its highest 1. -/
def usedBits (v : Nat) : Nat := if v = 0 then 0 else Nat.log2 v + 1

theorem usedBits_le {v k : Nat} (h : v < 2 ^ k) : usedBits v ≤ k := by
  unfold usedBits
  split
  · exact Nat.zero_le k
  next hv => exact (Nat.log2_lt hv).mpr h

theorem testBit_of_usedBits_le {v k : Nat} (h : usedBits v ≤ k) : v.testBit k = false := by
  unfold usedBits at h
  split at h
  next hv => rw [hv, Nat.zero_testBit]
  next hv => exact Nat.testBit_lt_two_pow ((Nat.log2_lt hv).mp h)

theorem testBit_of_usedBits_eq {v k : Nat} (h : usedBits v = k + 1) : v.testBit k = true := by
  unfold usedBits at h
  split at h
  next => omega
  next hv => exact Nat.succ.inj h ▸ Nat.testBit_log2 hv

theorem opCls_eq (t : VTy) (x : BitVec t.bits) : opCls t x.toInt = (t.bits - 1 - usedBits (magBits x).toNat : Nat) := by
  rw [magBits_toNat]
  rfl

/-- VCLS of an element: from the sign downward, so many bits equal it, and the next one does not (R123). -/
theorem opCls_counts (t : VTy) (x : BitVec t.bits) : ∃ n : Nat, opCls t x.toInt = n ∧ n < t.bits ∧
    (∀ k, t.bits - 1 - n ≤ k → k < t.bits → x.toNat.testBit k = x.toNat.testBit (t.bits - 1)) ∧
    (n + 1 < t.bits → x.toNat.testBit (t.bits - 2 - n) ≠ x.toNat.testBit (t.bits - 1)) := by
  have hb := t.bits_pos
  have hu := usedBits_le (magBits_lt x)
  have hsign : x.msb = x.toNat.testBit (t.bits - 1) := x.msb_eq_getLsbD_last
  refine ⟨_, opCls_eq t x, by omega, fun k hk hkb => ?_, fun hn => ?_⟩
  · have := testBit_of_usedBits_le (show usedBits (magBits x).toNat ≤ k by omega)
    rw [magBits_bit x hkb, hsign] at this
    exact (bne_eq_false_iff_eq.mp this).symm
  · have := testBit_of_usedBits_eq (v := (magBits x).toNat) (k := t.bits - 2 - (t.bits - 1 - usedBits (magBits x).toNat)) (by omega)
    rw [magBits_bit x (by omega), hsign] at this
    exact Ne.symm (bne_iff_ne.mp this)

theorem opCls_fits (t : VTy) (x : BitVec t.bits) : t.Fits (opCls t x.toInt) := by
  rw [opCls_eq]
  have h : t.Fits (t.bits - 1 : Nat) := by cases t <;> exact ⟨by decide, by decide⟩
  exact ⟨t.fits_zero.1.trans (Int.natCast_nonneg _), le_trans (by omega) h.2⟩

/-- VCLS counts, below the sign bit of each active element, the bits that equal it. -/
theorem exec_vcls_counts (c : CoreId) (w : VWord) (s : State) (ty : VTy)
    (h : s.vecReady c (.vcls c w) w ty [(ty, w.vd, nOf w), (ty, w.va, nOf w)]) :
    let f := (s.core c).vec
    ∃ t, exec (.vcls c w) s = .next t ∧ s.vecDone t c (costLane w) (activeOf f w).length 0 ∧
      (∀ j ∈ activeOf f w, ∃ n : Nat, (t.core c).vec.get ty w.vd j = n ∧ n < ty.bits ∧
        (∀ k, ty.bits - 1 - n ≤ k → k < ty.bits → (f.getU ty w.va j).testBit k = (f.getU ty w.va j).testBit (ty.bits - 1)) ∧
        (n + 1 < ty.bits → (f.getU ty w.va j).testBit (ty.bits - 2 - n) ≠ (f.getU ty w.va j).testBit (ty.bits - 1))) := by
  intro f
  obtain ⟨hh, ht, hg⟩ := h
  have ho : laneUnary opCls (s.vecCtx c) w f = .ok _ := (withType_eq _ ht rfl).trans (withGroups_eq _ hg)
  obtain ⟨⟨hv, -⟩, hd⟩ := State.vec_setAll (k := .masked) (cost := costLane) hh ho fun j _ => (opCls_fits ty _).wrapW_eq
  refine ⟨_, rfl, hd, fun j hj => ?_⟩
  obtain ⟨n, hn, hlt, heq, hne⟩ := opCls_counts ty (BitVec.ofNat ty.bits (f.getU ty w.va j))
  have hu : (BitVec.ofNat ty.bits (f.getU ty w.va j)).toNat = f.getU ty w.va j := by
    rw [BitVec.toNat_ofNat, Nat.mod_eq_of_lt (ty.two_pow_bits ▸ f.getU_lt ..)]
  rw [hu] at heq hne
  exact ⟨n, (hv j hj).trans hn, hlt, heq, hne⟩

/-- Settles O19: an immediate is a second operand, and VCLS counts the bits that equal the sign. -/
theorem vectorImmediateOperations : Obligations.VectorImmediateOperations := by
  refine ⟨fun c w s ty i op cost hi h => ?_, fun c w s ty h => ?_⟩
  · simp only [List.mem_cons, List.not_mem_nil, or_false, Prod.mk.injEq] at hi
    rcases hi with ⟨rfl, rfl, rfl⟩ | ⟨rfl, rfl, rfl⟩ | ⟨rfl, rfl, rfl⟩ | ⟨rfl, rfl, rfl⟩ | ⟨rfl, rfl, rfl⟩ | ⟨rfl, rfl, rfl⟩ | ⟨rfl, rfl, rfl⟩ |
      ⟨rfl, rfl, rfl⟩ | ⟨rfl, rfl, rfl⟩ | ⟨rfl, rfl, rfl⟩ | ⟨rfl, rfl, rfl⟩ | ⟨rfl, rfl, rfl⟩ | ⟨rfl, rfl, rfl⟩ | ⟨rfl, rfl, rfl⟩ | ⟨rfl, rfl, rfl⟩ |
      ⟨rfl, rfl, rfl⟩ | ⟨rfl, rfl, rfl⟩ | ⟨rfl, rfl, rfl⟩ | ⟨rfl, rfl, rfl⟩
    · exact exec_laneImm opAdd h rfl fun _ => wrapW_wrapW ty.bits_pos _
    · exact exec_laneImm opSub h rfl fun _ => wrapW_wrapW ty.bits_pos _
    · exact exec_laneImm opAddS h rfl fun _ => wrapW_satW ty.bits_pos _
    · exact exec_laneImm opSubS h rfl fun _ => wrapW_satW ty.bits_pos _
    · exact exec_laneImm opMul h rfl fun _ => wrapW_wrapW ty.bits_pos _
    · exact exec_laneUnary (fun t a => opMulSh (immF w 0 6) t a (sx 13 (immF w 6 13))) h rfl rfl fun _ => wrapW_satW ty.bits_pos _
    · exact exec_laneImm opMin h rfl fun ha => opMin_fits ha (immB_fits ty w)
    · exact exec_laneImm opMax h rfl fun ha => opMax_fits ha (immB_fits ty w)
    · exact exec_laneImm opAnd h rfl fun _ => wrapW_toInt _
    · exact exec_laneImm opOr h rfl fun _ => wrapW_toInt _
    · exact exec_laneImm opXor h rfl fun _ => wrapW_toInt _
    · exact exec_laneUnary (fun t a => opShl t a (immF w 0 8)) h rfl rfl fun _ => opShl_fits ty _ _
    · exact exec_laneUnary (fun t a => opSra t a (immF w 0 8)) h rfl rfl fun ha => opSra_fits ha _
    · exact exec_laneUnary (fun t a => opSrr t a (immF w 0 8)) h rfl rfl fun ha => opSrr_fits ha _
    · exact exec_laneUnary (fun t a => opShlS t a (immF w 0 8)) h rfl rfl fun _ => opShlS_fits ty _ _
    · exact exec_laneUnary (fun _ a => a) h rfl rfl fun ha => ha.wrapW_eq
    · exact exec_laneUnary opAbs h rfl rfl fun _ => wrapW_satW ty.bits_pos _
    · exact exec_laneUnary opNeg h rfl rfl fun _ => wrapW_satW ty.bits_pos _
    · exact exec_laneUnary (fun t a => satW t.bits (lutValue ((s.core c).vec.lut (immF w 16 3)) (immF w 11 5) (sx 9 (immF w 2 9)) a)) h rfl rfl
        fun _ => wrapW_satW ty.bits_pos _
  · exact exec_vcls_counts c w s ty h

/-- Settles O18: two registers through `laneBinary`, shifts through `shiftReg`, each with the value of its table row. -/
theorem vectorLaneOperations : Obligations.VectorLaneOperations := by
  refine ⟨fun c w s ty i op cost hi h => ?_, fun c w s ty i op hi h => ?_⟩
  · simp only [List.mem_cons, List.not_mem_nil, or_false, Prod.mk.injEq] at hi
    rcases hi with ⟨rfl, rfl, rfl⟩ | ⟨rfl, rfl, rfl⟩ | ⟨rfl, rfl, rfl⟩ | ⟨rfl, rfl, rfl⟩ | ⟨rfl, rfl, rfl⟩ | ⟨rfl, rfl, rfl⟩ | ⟨rfl, rfl, rfl⟩ |
      ⟨rfl, rfl, rfl⟩ | ⟨rfl, rfl, rfl⟩ | ⟨rfl, rfl, rfl⟩ | ⟨rfl, rfl, rfl⟩
    · exact exec_laneBinary opAdd h rfl rfl fun _ _ => wrapW_wrapW ty.bits_pos _
    · exact exec_laneBinary opSub h rfl rfl fun _ _ => wrapW_wrapW ty.bits_pos _
    · exact exec_laneBinary opAddS h rfl rfl fun _ _ => wrapW_satW ty.bits_pos _
    · exact exec_laneBinary opSubS h rfl rfl fun _ _ => wrapW_satW ty.bits_pos _
    · exact exec_laneBinary opMul h rfl rfl fun _ _ => wrapW_wrapW ty.bits_pos _
    · exact exec_laneBinary (opMulSh (immF w 0 6)) h rfl rfl fun _ _ => wrapW_satW ty.bits_pos _
    · exact exec_laneBinary opMin h rfl rfl opMin_fits
    · exact exec_laneBinary opMax h rfl rfl opMax_fits
    · exact exec_laneBinary opAnd h rfl rfl fun _ _ => wrapW_toInt _
    · exact exec_laneBinary opOr h rfl rfl fun _ _ => wrapW_toInt _
    · exact exec_laneBinary opXor h rfl rfl fun _ _ => wrapW_toInt _
  · simp only [List.mem_cons, List.not_mem_nil, or_false, Prod.mk.injEq] at hi
    rcases hi with ⟨rfl, rfl⟩ | ⟨rfl, rfl⟩ | ⟨rfl, rfl⟩ | ⟨rfl, rfl⟩
    · exact exec_shiftReg (op := opShl) h rfl fun n _ => opShl_fits ty _ n
    · exact exec_shiftReg (op := opSra) h rfl fun n ha => opSra_fits ha n
    · exact exec_shiftReg (op := opSrr) h rfl fun n ha => opSrr_fits ha n
    · exact exec_shiftReg (op := opShlS) h rfl fun n _ => opShlS_fits ty _ n

end Sys2Proof.Machine
end

section
/-! PROOFS. The vector instructions that fill a register (R119, R122, R134), and those of masks: compares, mask logic, selection,
population, first bit (R122, R123). -/

namespace Sys2Proof.Machine

/-! ### Generators -/

theorem laneGen_ok {ok : VTy → Bool} (g : VTy → Nat → Int) {x : VCtx} {w : VWord} {f : VFile} {t : VTy} (ht : VTy.ofCode w.ty.val = some t)
    (hok : ok t = true) (hg : ∀ g ∈ [(t, w.vd.val, nOf w)], groupOk g.1 g.2.1 g.2.2) :
    laneGen ok g x w f = .ok { file := f.setAll t w.vd (activeOf f w) (g t), buf := x.buf } :=
  (withType_eq _ ht hok).trans (withGroups_eq _ hg)

/-- VBCAST writes one element of the registers of VA to every active place. -/
theorem exec_vbcast_writes (c : CoreId) (w : VWord) (s : State) (ty : VTy)
    (h : s.vecReady c (.vbcast c w) w ty [(ty, w.vd, nOf w), (ty, w.va, nOf w)]) (hj : immF w 0 12 < ceilDiv (nOf w) ty.cap * ty.cap) :
    let f := (s.core c).vec
    ∃ t, exec (.vbcast c w) s = .next t ∧ f.wrote (t.core c).vec ty w.vd (activeOf f w) (fun _ => f.get ty w.va (immF w 0 12)) ∧
      s.vecDone t c (costLane w) (activeOf f w).length 0 := by
  intro f
  obtain ⟨hh, ht, hg⟩ := h
  exact ⟨_, rfl, State.vec_setAll (k := .masked) hh
    ((withType_eq _ ht rfl).trans ((withGroups_eq _ hg).trans (if_neg (Nat.not_le.mpr hj)))) fun _ _ => (f.get_fits ..).wrapW_eq⟩

theorem toCode_sx (b v : Nat) : toCode b (sx b v) = v % 2 ^ b := by
  rw [toCode, sx, BitVec.ofInt_toInt, BitVec.toNat_ofNat]

/-- Elements written: those of the list, unsigned. -/
theorem VFile.wrote_getU {f f' : VFile} {t : VTy} {d : Nat} {is : List Nat} {g : Nat → Nat} (h : f.wrote f' t d is fun j => sx t.bits (g j))
    {j : Nat} (hj : j ∈ is) : f'.getU t d j = g j % 2 ^ t.bits := by
  have hlt : f'.getU t d j < 2 ^ t.bits := t.two_pow_bits ▸ f'.getU_lt ..
  rw [← Nat.mod_eq_of_lt hlt, ← toCode_sx, ← toCode_sx]
  exact congrArg (toCode t.bits) (h.1 j hj)

/-- VSPLATHI writes the upper halves of I32 elements. -/
theorem exec_vsplathi_writes (c : CoreId) (w : VWord) (s : State) (h : s.vecReady c (.vsplathi c w) w .i32 [(.i32, w.vd, nOf w)]) :
    let f := (s.core c).vec
    ∃ t, exec (.vsplathi c w) s = .next t ∧
      (∀ j ∈ activeOf f w, (t.core c).vec.getU .i32 w.vd j = 65536 * immF w 0 16 + f.getU .i32 w.vd j % 65536) ∧
      (∀ j, j ∉ activeOf f w → (t.core c).vec.getU .i32 w.vd j = f.getU .i32 w.vd j) ∧
      s.vecDone t c (costLane w) (activeOf f w).length 0 := by
  intro f
  obtain ⟨hh, ht, hg⟩ := h
  have ho : vSplatHi (s.vecCtx c) w f = .ok _ := (withType_eq _ ht rfl).trans (withGroups_eq _ hg)
  obtain ⟨hw, hd⟩ := State.vec_setAll (k := .masked) (cost := costLane) hh ho fun _ _ => wrapW_sx 32 _
  refine ⟨_, rfl, fun j hj => (VFile.wrote_getU hw hj).trans (Nat.mod_eq_of_lt ?_), hw.2.1, hd⟩
  have : immF w 0 16 < 2 ^ 16 := bvGet_lt _ _ _
  show _ < 2 ^ 32
  omega

/-- VRAND writes the top bits of the random words (R133, R134). -/
theorem exec_vrand_writes (c : CoreId) (w : VWord) (s : State) (ty : VTy) (h : s.vecReady c (.vrand c w) w ty [(ty, w.vd, nOf w)])
    (hi : immF w 0 16 ≠ 0xFFFF) :
    let f := (s.core c).vec
    ∃ t, exec (.vrand c w) s = .next t ∧
      f.wrote (t.core c).vec ty w.vd (activeOf f w) (fun j =>
        sx ty.bits ((rand32 (s.rdForce (Rg.VEC_RNG_KEY_HI c) ++ s.rdForce (Rg.VEC_RNG_KEY_LO c)) (s.rd Rg.GARNET_TICK).toNat c (immF w 0 16)
          (4096 * immF w 16 3 + j)).toNat >>> (32 - ty.bits))) ∧
      s.vecDone t c (costPer 4 32 w) (activeOf f w).length 0 := by
  intro f
  obtain ⟨hh, ht, hg⟩ := h
  exact ⟨_, rfl, State.vec_setAll (k := .masked) hh
    ((withType_eq _ ht rfl).trans ((if_neg hi).trans (withGroups_eq _ hg))) fun _ _ => wrapW_sx _ _⟩

/-- Settles O20, instruction by instruction. -/
theorem vectorGenerators : Obligations.VectorGenerators := by
  refine ⟨fun c w s ty i g hi h => ?_, exec_vbcast_writes, exec_vsplathi_writes, exec_vrand_writes⟩
  obtain ⟨hh, ht, hg⟩ := h
  simp only [List.mem_cons, List.not_mem_nil, or_false, Prod.mk.injEq] at hi
  rcases hi with ⟨rfl, rfl⟩ | ⟨rfl, rfl⟩
  · exact ⟨_, rfl, State.vec_setAll (k := .masked) hh (laneGen_ok (fun t _ => immB t w) ht rfl hg) fun _ _ => (immB_fits ty w).wrapW_eq⟩
  · exact ⟨_, rfl, State.vec_setAll (k := .masked) hh (laneGen_ok (fun t i => opAdd t i (immB t w)) ht rfl hg)
      fun _ _ => wrapW_wrapW ty.bits_pos _⟩

/-! ### Masks -/

/-- An instruction that writes bits of mask VD, and nothing else of the registers. -/
theorem State.vec_putBits {s : State} {c : CoreId} {i : Instr} {w : VWord} {op : VCtx → VWord → VFile → VOut} {k : ElemKind}
    {cost : VWord → Nat} {is : List Nat} {g : Nat → Bool} (hh : s.atHead c 4 i = true)
    (ho : op (s.vecCtx c) w (s.core c).vec = .ok { file := (s.core c).vec.putBits w.vd is g, buf := (s.core c).buf })
    (his : ∀ j ∈ is, j < 4096) :
    (s.core c).vec.wroteMask ((s.vec c i w op k cost).core c).vec w.vd is g ∧
      s.vecDone (s.vec c i w op k cost) c (cost w) (k.count (s.core c).vec w) 0 := by
  obtain ⟨hf, hd⟩ := s.vec_ok (k := k) (cost := cost) hh ho (s.consume_nil _)
  exact ⟨hf ▸ VFile.putBits_wrote _ _ _ _ his, hd⟩

theorem withMaskDest_eq {w : VWord} (k : Nat → VOut) (h : w.vd.val < 8) : withMaskDest w k = k w.vd := if_neg (Nat.not_le.mpr h)

theorem lt_of_mem_below {w : VWord} : ∀ j ∈ List.range (nOf w), j < 4096 := fun j hj => by
  have := List.mem_range.mp hj
  have := w.nm1.isLt
  rw [nOf] at *
  omega

/-- The conditions of VCMP by their codes (R123). -/
theorem cmpCond_eq {n : Nat} {cond : Int → Int → Bool} (h : (n, cond) ∈ [(0, fun a b => decide (a = b)), (1, fun a b => decide (a ≠ b)),
    (2, fun a b => decide (a < b)), (3, fun a b => decide (a ≤ b)), (4, fun a b => decide (a > b)), (5, fun a b => decide (a ≥ b))]) :
    cmpCond n = some cond := by
  simp only [List.mem_cons, List.not_mem_nil, or_false, Prod.mk.injEq] at h
  rcases h with ⟨rfl, rfl⟩ | ⟨rfl, rfl⟩ | ⟨rfl, rfl⟩ | ⟨rfl, rfl⟩ | ⟨rfl, rfl⟩ | ⟨rfl, rfl⟩ <;> rfl

theorem vCmp_ok {x : VCtx} {w : VWord} {f : VFile} {t : VTy} {cond : Int → Int → Bool} (ht : VTy.ofCode w.ty.val = some t)
    (hc : cmpCond (immF w 16 3) = some cond) (hd : w.vd.val < 8)
    (hg : ∀ g ∈ (t, w.va.val, nOf w) :: if immF w 15 1 = 0 then [(t, w.vb.val, nOf w)] else [], groupOk g.1 g.2.1 g.2.2) :
    vCmp x w f = .ok
      { file := f.putBits w.vd (activeOf f w) fun j =>
          cond (f.get t w.va j) (if immF w 15 1 = 0 then f.get t w.vb j else sx 15 (immF w 0 15))
        buf := x.buf } := by
  unfold vCmp
  rw [withType_eq _ ht rfl, hc]
  dsimp only
  rw [withMaskDest_eq _ hd]
  split
  next hi =>
    rw [if_pos hi] at hg
    exact withGroups_eq _ hg
  next hi =>
    rw [if_neg hi] at hg
    exact withGroups_eq _ hg

/-- VCMP writes the comparison into the active bits of its mask. -/
theorem exec_vcmp_compares (c : CoreId) (w : VWord) (s : State) (ty : VTy) (cond : Int → Int → Bool)
    (hc : (immF w 16 3, cond) ∈ [(0, fun a b => decide (a = b)), (1, fun a b => decide (a ≠ b)), (2, fun a b => decide (a < b)),
      (3, fun a b => decide (a ≤ b)), (4, fun a b => decide (a > b)), (5, fun a b => decide (a ≥ b))]) (hd : w.vd.val < 8)
    (h : s.vecReady c (.vcmp c w) w ty ((ty, w.va.val, nOf w) :: if immF w 15 1 = 0 then [(ty, w.vb.val, nOf w)] else [])) :
    let f := (s.core c).vec
    ∃ t, exec (.vcmp c w) s = .next t ∧ f.wroteMask (t.core c).vec w.vd (activeOf f w) (fun j =>
        cond (f.get ty w.va j) (if immF w 15 1 = 0 then f.get ty w.vb j else sx 15 (immF w 0 15))) ∧
      s.vecDone t c (costLane w) (activeOf f w).length 0 := by
  obtain ⟨hh, ht, hg⟩ := h
  exact ⟨_, rfl, State.vec_putBits (k := .masked) hh (vCmp_ok ht (cmpCond_eq hc) hd hg) fun _ => lt_of_mem_activeOf⟩

/-- VSEL takes the element of VA or VB by the bit of its mask. -/
theorem exec_vsel_selects (c : CoreId) (w : VWord) (s : State) (ty : VTy)
    (h : s.vecReady c (.vsel c w) w ty [(ty, w.vd, nOf w), (ty, w.va, nOf w), (ty, w.vb, nOf w)]) :
    let f := (s.core c).vec
    ∃ t, exec (.vsel c w) s = .next t ∧ f.wrote (t.core c).vec ty w.vd (List.range (nOf w)) (fun j =>
        if (f.mask w.msk).getLsbD j then f.get ty w.va j else f.get ty w.vb j) ∧ s.vecDone t c (costLane w) (nOf w) 0 := by
  intro f
  obtain ⟨hh, ht, hg⟩ := h
  refine ⟨_, rfl, State.vec_setAll (k := .all) hh ((withType_eq _ ht rfl).trans (withGroups_eq _ hg)) fun j _ => ?_⟩
  split <;> exact (f.get_fits ..).wrapW_eq

/-- The operations of VMLOG by their codes (R123). -/
theorem maskOp_eq {n : Nat} {op : Bool → Bool → Bool}
    (h : (n, op) ∈ [(0, fun a b => a && b), (1, fun a b => a || b), (2, fun a b => a ^^ b), (3, fun a b => a && !b)]) : maskOp n = op := by
  simp only [List.mem_cons, List.not_mem_nil, or_false, Prod.mk.injEq] at h
  rcases h with ⟨rfl, rfl⟩ | ⟨rfl, rfl⟩ | ⟨rfl, rfl⟩ | ⟨rfl, rfl⟩ <;> rfl

/-- VMLOG combines the bits below N of two masks. -/
theorem exec_vmlog_combines (c : CoreId) (w : VWord) (s : State) (ty : VTy) (op : Bool → Bool → Bool) (h : s.vecReady c (.vmlog c w) w ty [])
    (hd : w.vd.val < 8) (hop : (immF w 0 2, op) ∈ [(0, fun a b => a && b), (1, fun a b => a || b), (2, fun a b => a ^^ b), (3, fun a b => a && !b)]) :
    let f := (s.core c).vec
    ∃ t, exec (.vmlog c w) s = .next t ∧ f.wroteMask (t.core c).vec w.vd (List.range (nOf w)) (fun j =>
        op ((f.mask (w.va % 8)).getLsbD j) ((f.mask (w.vb % 8)).getLsbD j)) ∧ s.vecDone t c (costPer 2 1024 w) (nOf w) 0 := by
  obtain ⟨hh, ht, -⟩ := h
  obtain rfl := maskOp_eq hop
  exact ⟨_, rfl, State.vec_putBits (k := .all) hh ((withType_eq _ ht rfl).trans (withMaskDest_eq _ hd)) lt_of_mem_below⟩

/-- VMSETN writes one bit to every place below N. -/
theorem exec_vmsetn_sets (c : CoreId) (w : VWord) (s : State) (ty : VTy) (h : s.vecReady c (.vmsetn c w) w ty []) (hd : w.vd.val < 8) :
    let f := (s.core c).vec
    ∃ t, exec (.vmsetn c w) s = .next t ∧ f.wroteMask (t.core c).vec w.vd (List.range (nOf w)) (fun _ => bvBit 0 w.imm) ∧
      s.vecDone t c (costPer 2 1024 w) (nOf w) 0 := by
  obtain ⟨hh, ht, -⟩ := h
  rw [← immF_bit]
  exact ⟨_, rfl, State.vec_putBits (k := .all) hh ((withType_eq _ ht rfl).trans (withMaskDest_eq _ hd)) lt_of_mem_below⟩

/-- A count or a place below 4,096, as an I32 element. -/
theorem wrapW_i32_small {n : Nat} (h : n ≤ 4096) : wrapW VTy.i32.bits (n : Int) = n :=
  wrapW_of_fits (by decide) (by simp only [minOf, VTy.bits]; omega) (by simp only [maxOf, VTy.bits]; omega)

theorem mem_setBelow {w : VWord} {f : VFile} {j : Nat} : j ∈ setBelow w f ↔ j < nOf w ∧ (f.mask w.msk).getLsbD j = true := by
  simp [setBelow]

theorem length_setBelow_le (w : VWord) (f : VFile) : (setBelow w f).length ≤ 4096 := by
  have := List.length_filter_le (fun i => (f.mask w.msk).getLsbD i) (List.range (nOf w))
  have := w.nm1.isLt
  rw [List.length_range, nOf] at *
  unfold setBelow
  rw [nOf]
  omega

/-- VMPOP writes the number of bits set below N. -/
theorem exec_vmpop_counts (c : CoreId) (w : VWord) (s : State) (ty : VTy) (h : s.vecReady c (.vmpop c w) w ty []) :
    let f := (s.core c).vec
    ∃ t, exec (.vmpop c w) s = .next t ∧ f.wrote (t.core c).vec .i32 w.vd [0] (fun _ =>
        (((List.range (nOf w)).filter fun j => (f.mask w.msk).getLsbD j).length : Int)) ∧ s.vecDone t c (costPer 4 1024 w) (nOf w) 0 := by
  intro f
  obtain ⟨hh, ht, -⟩ := h
  have ho : vMPop (s.vecCtx c) w f = .ok _ := withType_eq _ ht rfl
  obtain ⟨hf, hd⟩ := s.vec_ok (k := .all) (cost := costPer 4 1024) hh ho (s.consume_nil _)
  exact ⟨_, rfl, hf ▸ VFile.set_wrote (wrapW_i32_small (length_setBelow_le w f)), hd⟩

/-- The lowest bit set below N, or −1 (R122). -/
def firstBit (w : VWord) (f : VFile) : Int := match (setBelow w f).head? with | some i => (i : Int) | none => -1

theorem setBelow_sorted (w : VWord) (f : VFile) : (setBelow w f).Pairwise (· < ·) := List.pairwise_lt_range.filter _

/-- It is −1 with no bit set, else the least place of a set bit. -/
theorem firstBit_cases (w : VWord) (f : VFile) :
    firstBit w f = -1 ∧ (∀ j, j < nOf w → (f.mask w.msk).getLsbD j = false) ∨
      ∃ n : Nat, firstBit w f = n ∧ n < nOf w ∧ (f.mask w.msk).getLsbD n = true ∧ ∀ j, j < n → (f.mask w.msk).getLsbD j = false := by
  have hs := setBelow_sorted w f
  have hm := fun j => mem_setBelow (w := w) (f := f) (j := j)
  unfold firstBit
  cases hl : setBelow w f with
  | nil =>
    rw [hl] at hm
    exact .inl ⟨rfl, fun j hj => by simpa [hj] using hm j⟩
  | cons n l =>
    rw [hl] at hs hm
    obtain ⟨hn, hb⟩ := (hm n).mp List.mem_cons_self
    refine .inr ⟨n, rfl, hn, hb, fun j hj => ?_⟩
    by_contra hc
    rcases List.mem_cons.mp ((hm j).mpr ⟨hj.trans hn, by simpa using hc⟩) with rfl | hjl
    · omega
    · have := (List.pairwise_cons.mp hs).1 j hjl
      omega

/-- VMFIRST writes the lowest bit set below N, or −1. -/
theorem exec_vmfirst_finds (c : CoreId) (w : VWord) (s : State) (ty : VTy) (h : s.vecReady c (.vmfirst c w) w ty []) :
    let f := (s.core c).vec
    ∃ t, exec (.vmfirst c w) s = .next t ∧ s.vecDone t c (costPer 4 1024 w) (nOf w) 0 ∧
      (∀ j, j ≠ 0 → (t.core c).vec.getU .i32 w.vd j = f.getU .i32 w.vd j) ∧
      (∀ n : Nat, (t.core c).vec.get .i32 w.vd 0 = n ↔
        n < nOf w ∧ (f.mask w.msk).getLsbD n = true ∧ ∀ j, j < n → (f.mask w.msk).getLsbD j = false) ∧
      ((t.core c).vec.get .i32 w.vd 0 = -1 ↔ ∀ j, j < nOf w → (f.mask w.msk).getLsbD j = false) := by
  intro f
  obtain ⟨hh, ht, -⟩ := h
  have ho : vMFirst (s.vecCtx c) w f = .ok { file := f.set .i32 w.vd 0 (firstBit w f), buf := (s.core c).buf } := withType_eq _ ht rfl
  obtain ⟨hf, hd⟩ := s.vec_ok (k := .all) (cost := costPer 4 1024) hh ho (s.consume_nil _)
  have hget : ((s.vec c (.vmfirst c w) w vMFirst .all (costPer 4 1024)).core c).vec.get .i32 w.vd 0 = wrapW VTy.i32.bits (firstBit w f) := by
    rw [hf, VFile.get_set_same]
  refine ⟨_, rfl, hd, fun j hj => by rw [hf, VFile.getU_set_ne _ _ _ _ (Ne.symm hj)], ?_⟩
  rw [hget]
  rcases firstBit_cases w f with ⟨he, hnone⟩ | ⟨n, he, hn, hb, hleast⟩
  · rw [he, show wrapW VTy.i32.bits (-1) = -1 from VTy.i32.fits_neg_one.wrapW_eq]
    refine ⟨fun n => ⟨fun hn => by omega, fun ⟨hn, hb, _⟩ => ?_⟩, ⟨fun _ => hnone, fun _ => rfl⟩⟩
    rw [hnone n hn] at hb
    exact nomatch hb
  · rw [he, wrapW_i32_small (lt_of_mem_below n (List.mem_range.mpr hn)).le]
    refine ⟨fun m => ⟨fun hm => Int.ofNat.inj hm ▸ ⟨hn, hb, hleast⟩, fun ⟨_, hmb, hml⟩ => ?_⟩, ⟨fun hm => by omega, fun hnone => ?_⟩⟩
    · rcases Nat.lt_trichotomy n m with hlt | rfl | hlt
      · rw [hml n hlt] at hb; exact nomatch hb
      · rfl
      · rw [hleast m hlt] at hmb; exact nomatch hmb
    · rw [hnone n hn] at hb
      exact nomatch hb

/-- Settles O22, instruction by instruction. -/
theorem vectorMasks : Obligations.VectorMasks :=
  ⟨exec_vcmp_compares, exec_vsel_selects, exec_vmlog_combines, exec_vmsetn_sets, exec_vmpop_counts, exec_vmfirst_finds⟩

end Sys2Proof.Machine
end

section
/-! PROOFS. The ranking instructions of the vector engine: VTOPK and VTOPKP (R127), VCOMPRESS and VEXPAND (R128). -/

namespace Sys2Proof.Machine

/-! ### Ranked candidates (R127) -/

/-- The rank order: the larger value first, of equal values the lower index. -/
def ranksBefore (a b : Int × Nat) : Bool := decide (a.1 > b.1 ∨ a.1 = b.1 ∧ a.2 ≤ b.2)

theorem ranksBefore_iff {a b : Int × Nat} : ranksBefore a b = true ↔ a.1 > b.1 ∨ a.1 = b.1 ∧ a.2 ≤ b.2 := decide_eq_true_iff

theorem ranksBefore_trans {a b c : Int × Nat} (h1 : ranksBefore a b) (h2 : ranksBefore b c) : ranksBefore a c := by
  rw [ranksBefore_iff] at *
  omega

theorem ranksBefore_total (a b : Int × Nat) : (ranksBefore a b || ranksBefore b a) = true := by
  rw [Bool.or_eq_true, ranksBefore_iff, ranksBefore_iff]
  omega

theorem ranksBefore_antisymm {a b : Int × Nat} (h1 : ranksBefore a b) (h2 : ranksBefore b a) : a = b := by
  rw [ranksBefore_iff] at *
  exact Prod.ext (by omega) (by omega)

/-- A candidate goes before the first one that it ranks before, and after one equal to it. -/
theorem insRank_cons (c d : Int × Nat) (ds : List (Int × Nat)) :
    insRank c (d :: ds) = if ranksBefore d c then d :: insRank c ds else c :: d :: ds := by
  rw [insRank]
  by_cases h : ranksBefore d c = true
  · rw [if_pos h, if_neg (by rw [ranksBefore_iff] at h; omega)]
  · rw [if_neg h, if_pos (by rw [ranksBefore_iff] at h; omega)]

theorem insRank_perm (c : Int × Nat) (l : List (Int × Nat)) : (insRank c l).Perm (c :: l) := by
  induction l with
  | nil => exact .refl _
  | cons d ds ih =>
    rw [insRank_cons]
    split
    · exact (ih.cons d).trans (.swap c d ds)
    · exact .refl _

theorem insRank_sorted (c : Int × Nat) {l : List (Int × Nat)} (h : l.Pairwise (ranksBefore · ·)) :
    (insRank c l).Pairwise (ranksBefore · ·) := by
  induction l with
  | nil => exact List.pairwise_singleton _ _
  | cons d ds ih =>
    obtain ⟨hd, hds⟩ := List.pairwise_cons.mp h
    rw [insRank_cons]
    split
    next hdc =>
      refine List.pairwise_cons.mpr ⟨fun x hx => ?_, ih hds⟩
      rcases List.mem_cons.mp ((insRank_perm c ds).mem_iff.mp hx) with rfl | hx
      · exact hdc
      · exact hd x hx
    next hdc =>
      have hcd : ranksBefore c d = true := by simpa [hdc] using ranksBefore_total d c
      exact List.pairwise_cons.mpr ⟨List.forall_mem_cons.mpr ⟨hcd, fun x hx => ranksBefore_trans hcd (hd x hx)⟩, h⟩

/-- The first `k` places depend on the first `k` candidates alone. -/
theorem take_insRank_take (c : Int × Nat) (l : List (Int × Nat)) (k : Nat) : (insRank c (l.take k)).take k = (insRank c l).take k := by
  induction l generalizing k with
  | nil => rw [List.take_nil]
  | cons d ds ih =>
    cases k with
    | zero => rfl
    | succ k =>
      rw [List.take_succ_cons, insRank_cons, insRank_cons]
      split
      · rw [List.take_succ_cons, List.take_succ_cons, ih]
      · rw [List.take_succ_cons, List.take_succ_cons]
        cases k with
        | zero => rfl
        | succ k => rw [List.take_succ_cons, List.take_succ_cons, List.take_take, Nat.min_eq_left (Nat.le_succ k)]

/-- Every candidate put in its place. -/
def rankAll (cs acc : List (Int × Nat)) : List (Int × Nat) := cs.foldl (fun acc c => insRank c acc) acc

theorem foldl_take_insRank (k : Nat) (cs acc : List (Int × Nat)) :
    cs.foldl (fun acc c => (insRank c acc).take k) (acc.take k) = (rankAll cs acc).take k := by
  induction cs generalizing acc with
  | nil => rfl
  | cons c cs ih => rw [List.foldl_cons, take_insRank_take, ih]; rfl

theorem rankAll_perm (cs acc : List (Int × Nat)) : (rankAll cs acc).Perm (cs ++ acc) := by
  induction cs generalizing acc with
  | nil => exact .refl _
  | cons c cs ih => exact (ih _).trans (((insRank_perm c acc).append_left cs).trans List.perm_middle)

theorem rankAll_sorted (cs : List (Int × Nat)) {acc : List (Int × Nat)} (h : acc.Pairwise (ranksBefore · ·)) :
    (rankAll cs acc).Pairwise (ranksBefore · ·) := by
  induction cs generalizing acc with
  | nil => exact h
  | cons c cs ih => exact ih (insRank_sorted c h)

/-- The candidates in rank order: the order is antisymmetric, so every way of sorting answers the same list. -/
theorem rankAll_eq_mergeSort (cs : List (Int × Nat)) : rankAll cs [] = cs.mergeSort ranksBefore := by
  refine ((rankAll_perm cs []).trans ?_).eq_of_pairwise (fun _ _ _ _ => ranksBefore_antisymm) (rankAll_sorted cs .nil)
    (List.pairwise_mergeSort (le := ranksBefore) (fun _ _ _ => ranksBefore_trans) ranksBefore_total cs)
  rw [List.append_nil]
  exact (List.mergeSort_perm cs _).symm

/-- The best `k` candidates. -/
def bestOf (k : Nat) (cs : List (Int × Nat)) : List (Int × Nat) := (cs.mergeSort ranksBefore).take k

theorem topK_eq (k : Nat) (least : Int) (cs : List (Int × Nat)) :
    topK k least cs = bestOf k cs ++ List.replicate (k - (bestOf k cs).length) (least, 0xFFFFFFFF) := by
  have h := foldl_take_insRank k cs []
  rw [List.take_nil, rankAll_eq_mergeSort] at h
  have h2 : (cs.foldl (fun acc c => (insRank c acc).take k) []).take k = bestOf k cs := by
    rw [h, List.take_take, Nat.min_self, bestOf]
  rw [topK, h2]

theorem length_topK (k : Nat) (least : Int) (cs : List (Int × Nat)) : (topK k least cs).length = k := by
  have : (bestOf k cs).length ≤ k := List.length_take_le _ _
  rw [topK_eq, List.length_append, List.length_replicate]
  omega

theorem getD_append_replicate {α : Type} (l : List α) (n i : Nat) (d : α) : (l ++ List.replicate n d).getD i d = l.getD i d := by
  rcases Nat.lt_or_ge i l.length with h | h
  · exact List.getD_append _ _ _ _ h
  · rw [List.getD_append_right _ _ _ _ h, List.getD_eq_default _ _ h]
    simp [List.getD_eq_getElem?_getD, List.getElem?_replicate]
    split <;> rfl

theorem getD_eq_default_or_mem {α : Type} (l : List α) (i : Nat) (d : α) : l.getD i d = d ∨ l.getD i d ∈ l := by
  rcases Nat.lt_or_ge i l.length with h | h
  · exact .inr (List.getD_eq_getElem _ _ h ▸ List.getElem_mem h)
  · exact .inl (List.getD_eq_default _ _ h)

theorem mem_of_mem_bestOf {k : Nat} {cs : List (Int × Nat)} {p : Int × Nat} (h : p ∈ bestOf k cs) : p ∈ cs :=
  (List.mergeSort_perm cs _).mem_iff.mp (List.mem_of_mem_take h)

/-! ### Elements written one after another -/

theorem zipIdx_eq_map_getD {α : Type} (l : List α) (d : α) : l.zipIdx = (List.range l.length).map fun i => (l.getD i d, i) := by
  refine List.ext_getElem (by simp) fun i h1 h2 => ?_
  have hi : i < l.length := by simpa using h1
  simp [hi]

theorem flatMap_range_pairs (n : Nat) : ((List.range n).flatMap fun m => [2 * m, 2 * m + 1]) = List.range (2 * n) := by
  induction n with
  | zero => rfl
  | succ n ih => rw [List.range_succ, List.flatMap_append, ih, Nat.mul_succ, List.range_succ, List.range_succ]; simp

/-- Pairs are written as the elements of rising places. -/
theorem VFile.setPairs_eq (f : VFile) (d : Nat) (ps : List (Int × Nat)) (e : Int × Nat) :
    f.setPairs d ps = f.setAll .i32 d (List.range (2 * ps.length)) fun m =>
      if m % 2 = 0 then (ps.getD (m / 2) e).1 else (ps.getD (m / 2) e).2 := by
  rw [VFile.setPairs, zipIdx_eq_map_getD ps e, List.foldl_map, VFile.setAll, ← flatMap_range_pairs, List.foldl_flatMap]
  congr 1
  funext acc m
  have h : (2 * m + 1) / 2 = m := by omega
  simp [h]

/-- The ranked pairs in VD, short lists filled (R127). -/
theorem VFile.setPairs_topK_wrote (f : VFile) (d k : Nat) (t : VTy) {cs : List (Int × Nat)} (hcs : ∀ p ∈ cs, t.Fits p.1) :
    f.wrote (f.setPairs d (topK k (minOf t.bits) cs)) .i32 d (List.range (2 * k)) fun m =>
      if m % 2 = 0 then ((bestOf k cs).getD (m / 2) (minOf t.bits, 0xFFFFFFFF)).1
      else wrapW 32 ((bestOf k cs).getD (m / 2) (minOf t.bits, 0xFFFFFFFF)).2 := by
  rw [VFile.setPairs_eq f d _ (minOf t.bits, 0xFFFFFFFF), length_topK]
  refine VFile.wrote_congr (VFile.setAll_wrote ..) fun m _ => ?_
  rw [topK_eq, getD_append_replicate]
  split
  · refine wrapW_i32_of_bounds (t := t) ?_
    rcases getD_eq_default_or_mem (bestOf k cs) (m / 2) (minOf t.bits, 0xFFFFFFFF) with he | hm
    · rw [he]
      exact ⟨le_refl _, minOf_le_maxOf _⟩
    · exact hcs _ (mem_of_mem_bestOf hm)
  · rfl

/-- The place of an element of a rising list is the number of those below it. -/
theorem length_filter_lt_getElem {l : List Nat} (h : l.Pairwise (· < ·)) {i : Nat} (hi : i < l.length) :
    (l.filter fun k => decide (k < l[i])).length = i := by
  induction l generalizing i with
  | nil => exact nomatch hi
  | cons a l ih =>
    obtain ⟨ha, hl⟩ := List.pairwise_cons.mp h
    cases i with
    | zero =>
      rw [List.length_eq_zero_iff, List.filter_eq_nil_iff]
      exact List.forall_mem_cons.mpr ⟨by simp, fun x hx => by simpa using (ha x hx).le⟩
    | succ i =>
      have hi : i < l.length := Nat.lt_of_succ_lt_succ hi
      have hlt := ha l[i] (List.getElem_mem hi)
      simp only [List.getElem_cons_succ]
      rw [List.filter_cons_of_pos (by simpa using hlt), List.length_cons, ih hl hi]

theorem zipIdx_of_rising {l : List Nat} (h : l.Pairwise (· < ·)) :
    l.zipIdx = l.map fun j => (j, (l.filter fun k => decide (k < j)).length) := by
  refine List.ext_getElem (by simp) fun i h1 h2 => ?_
  have hi : i < l.length := by simpa using h1
  simp [length_filter_lt_getElem h hi]

/-! ### The instructions as commands -/

/-- VTOPK writes the best active elements with their indices. -/
theorem exec_vtopk_ranks (c : CoreId) (w : VWord) (s : State) (ty : VTy)
    (h : s.vecReady c (.vtopk c w) w ty [(.i32, w.vd, 2 * (immF w 0 6 + 1)), (ty, w.va, nOf w)]) :
    let f := (s.core c).vec
    let best := bestOf (immF w 0 6 + 1) ((activeOf f w).map fun j => (f.get ty w.va j, j + 64 * immF w 6 13))
    ∃ t, exec (.vtopk c w) s = .next t ∧ f.wrote (t.core c).vec .i32 w.vd (List.range (2 * (immF w 0 6 + 1))) (fun m =>
        let p := best.getD (m / 2) (minOf ty.bits, 0xFFFFFFFF)
        if m % 2 = 0 then p.1 else wrapW 32 p.2) ∧ s.vecDone t c (costTop w) (activeOf f w).length 0 := by
  intro f best
  obtain ⟨hh, ht, hg⟩ := h
  have ho : vTopK (s.vecCtx c) w f = .ok _ := (withType_eq _ ht rfl).trans (withGroups_eq _ hg)
  obtain ⟨hf, hd⟩ := s.vec_ok (k := .masked) (cost := costTop) hh ho (s.consume_nil _)
  refine ⟨_, rfl, hf ▸ f.setPairs_topK_wrote w.vd _ ty ?_, hd⟩
  exact List.forall_mem_map.mpr fun j _ => f.get_fits ..

theorem overlap_eq_false {a na b nb : Nat} (h : a + na ≤ b ∨ b + nb ≤ a) : overlap a na b nb = false := by
  rw [overlap, ← Bool.decide_and]
  exact decide_eq_false (by omega)

/-- VTOPKP writes the best of the active pairs of VA. -/
theorem exec_vtopkp_ranks (c : CoreId) (w : VWord) (s : State)
    (h : s.vecReady c (.vtopkp c w) w .i32 [(.i32, w.vd, 2 * (immF w 0 6 + 1)), (.i32, w.va, nOf w)]) (he : nOf w % 2 = 0)
    (ha : w.vd.val + ceilDiv (2 * (immF w 0 6 + 1)) 1024 ≤ w.va.val ∨ w.va.val + ceilDiv (nOf w) 1024 ≤ w.vd.val) :
    let f := (s.core c).vec
    let pairs := (List.range (nOf w / 2)).filter fun m => !w.men || (f.mask w.msk).getLsbD (2 * m)
    let best := bestOf (immF w 0 6 + 1) (pairs.map fun m => (f.get .i32 w.va (2 * m), f.getU .i32 w.va (2 * m + 1)))
    ∃ t, exec (.vtopkp c w) s = .next t ∧ f.wrote (t.core c).vec .i32 w.vd (List.range (2 * (immF w 0 6 + 1))) (fun m =>
        let p := best.getD (m / 2) (minOf 32, 0xFFFFFFFF)
        if m % 2 = 0 then p.1 else wrapW 32 p.2) ∧ s.vecDone t c (costTop w) (activeOf f w).length 0 := by
  intro f pairs best
  obtain ⟨hh, ht, hg⟩ := h
  have ho : vTopKP (s.vecCtx c) w f = .ok _ :=
    (withType_eq _ ht rfl).trans ((if_neg (by omega)).trans
      ((if_neg (Bool.eq_false_iff.mp (overlap_eq_false ha))).trans (withGroups_eq _ hg)))
  obtain ⟨hf, hd⟩ := s.vec_ok (k := .masked) (cost := costTop) hh ho (s.consume_nil _)
  refine ⟨_, rfl, hf ▸ f.setPairs_topK_wrote w.vd _ .i32 ?_, hd⟩
  exact List.forall_mem_map.mpr fun j _ => f.get_fits ..

/-- VCOMPRESS writes the active elements one after another. -/
theorem exec_vcompress_writes (c : CoreId) (w : VWord) (s : State) (ty : VTy)
    (h : s.vecReady c (.vcompress c w) w ty [(ty, w.vd, nOf w), (ty, w.va, nOf w)]) :
    let f := (s.core c).vec
    ∃ t, exec (.vcompress c w) s = .next t ∧ f.wrote (t.core c).vec ty w.vd (List.range (activeOf f w).length) (fun m =>
        f.get ty w.va ((activeOf f w).getD m 0)) ∧ s.vecDone t c (costComp w) (activeOf f w).length 0 := by
  intro f
  obtain ⟨hh, ht, hg⟩ := h
  have ho : vCompress (s.vecCtx c) w f = .ok
      { file := f.setAll ty w.vd (List.range (activeOf f w).length) fun m => f.get ty w.va ((activeOf f w).getD m 0)
        buf := (s.core c).buf } := by
    refine (withType_eq _ ht rfl).trans ((withGroups_eq _ hg).trans ?_)
    rw [zipIdx_eq_map_getD (activeOf f w) 0, List.foldl_map]
    rfl
  exact ⟨_, rfl, State.vec_setAll (k := .masked) hh ho fun _ _ => (f.get_fits ..).wrapW_eq⟩

/-- VEXPAND writes the first elements to the active places. -/
theorem exec_vexpand_writes (c : CoreId) (w : VWord) (s : State) (ty : VTy)
    (h : s.vecReady c (.vexpand c w) w ty [(ty, w.vd, nOf w), (ty, w.va, nOf w)]) :
    let f := (s.core c).vec
    ∃ t, exec (.vexpand c w) s = .next t ∧ f.wrote (t.core c).vec ty w.vd (activeOf f w) (fun j =>
        f.get ty w.va ((activeOf f w).filter fun k => k < j).length) ∧ s.vecDone t c (costComp w) (activeOf f w).length 0 := by
  intro f
  obtain ⟨hh, ht, hg⟩ := h
  have ho : vExpand (s.vecCtx c) w f = .ok
      { file := f.setAll ty w.vd (activeOf f w) fun j => f.get ty w.va ((activeOf f w).filter fun k => k < j).length
        buf := (s.core c).buf } := by
    refine (withType_eq _ ht rfl).trans ((withGroups_eq _ hg).trans ?_)
    rw [zipIdx_of_rising (activeOf_sorted f w), List.foldl_map]
    rfl
  exact ⟨_, rfl, State.vec_setAll (k := .masked) hh ho fun _ _ => (f.get_fits ..).wrapW_eq⟩

/-- Settles O24, instruction by instruction. -/
theorem vectorRanking : Obligations.VectorRanking :=
  ⟨exec_vtopk_ranks, exec_vtopkp_ranks, exec_vcompress_writes, exec_vexpand_writes⟩

end Sys2Proof.Machine
end

section
/-! PROOFS. The operations between a core buffer and a cluster cache: READ and WRITE move bytes, ADD, MAX and FETCH_ADD combine words (R138,
R139, R217, R219). -/

namespace Sys2Proof.Machine

/-! ### An instruction that completes -/

section
variable {s u : State} {c q : Nat} {i : Instr} {run : Prog → State → RunOut} (h : s.atHead c q i = true) (hrun : ∀ p, run p s = (u, true))
include h hrun

theorem State.issue_completes : ∃ b, s.issue c q i run = u.complete c q b := by
  obtain ⟨p, b, -, hi⟩ := s.issue_atHead run h
  rw [hrun p, if_pos rfl] at hi
  exact ⟨b, hi⟩

/-- One that raises no fault of the device. -/
theorem State.issueAct_completes (hb : u.boot = s.boot) : ∃ b, s.issueAct c q i run = u.complete c q b := by
  obtain ⟨b, hi⟩ := State.issue_completes h hrun
  exact ⟨b, (s.actOnNew_same _ (by rw [hi, State.complete_boot, hb])).trans hi⟩

end

/-! ### Words of a byte memory -/

/-- A word written by `wrLe`, and the bytes beside it. -/
theorem Mem.wrLe_word (m : Mem) (a n : Nat) {v : Nat} (hv : v < 256 ^ n) :
    (m.wrLe a n v).rdLe a n = v ∧ ∀ k, k < a ∨ a + n ≤ k → (m.wrLe a n v).rd k = m.rd k := by
  refine ⟨Mem.rdLe_of_leBytes (fun r hr => ?_) hv, fun k hk => ?_⟩
  · rw [Mem.wrLe, Mem.rd_wrN, length_leBytes, if_pos (by omega), Nat.add_sub_cancel_left]
  · rw [Mem.wrLe, Mem.rd_wrN, length_leBytes, if_neg (by omega)]

/-- The same written as a block. -/
theorem Mem.wrBlk_word (m : Mem) (a n : Nat) {v : Nat} (hv : v < 256 ^ n) :
    (m.wrBlk a (leBytes n v)).rdLe a n = v ∧ ∀ k, k < a ∨ a + n ≤ k → (m.wrBlk a (leBytes n v)).rd k = m.rd k := by
  obtain ⟨hr, hk⟩ := m.wrBlk_reads a (leBytes n v)
  rw [length_leBytes] at hr hk
  exact ⟨Mem.rdLe_of_leBytes hr hv, hk⟩

theorem Mem.rdLe_lt (m : Mem) (a n : Nat) : m.rdLe a n < 256 ^ n := by
  have := leNat_lt (m.rdN a n)
  rwa [Mem.rdN, List.length_map, List.length_range] at this

theorem length_rdBlk {m : Mem} (h : m.wf) (a n : Nat) : (m.rdBlk a n).length = n := by simp [Mem.rdBlk_eq h, Mem.rdN]

theorem getD_rdBlk {m : Mem} (h : m.wf) (a : Nat) {n i : Nat} (hi : i < n) : (m.rdBlk a n).getD i 0#8 = m.rd (a + i) := by
  simp [Mem.rdBlk_eq h, Mem.rdN, hi]

/-! ### READ and WRITE -/

/-- The core after READ of good units. -/
def CoreSt.cacheRead (y : CoreSt) (o : CacheOp) (cache : Mem) : CoreSt := y.put o.cba (cache.rdBlk o.cca (64 * o.units))

theorem runRead_good {s : State} {c : CoreId} {o : CacheOp} (ho : o.ok o.units = true)
    (hg : (s.cluster o.cluster).badIn o.cc.toNat o.units = []) (p : Prog) :
    runRead c o p s = ((s.modCore c fun y => y.cacheRead o (s.cluster o.cluster).cache).ccServed c o.cluster o.units, true) := by
  unfold runRead
  dsimp only
  rw [ho, hg]
  simp only [List.map_nil, List.append_nil]
  rfl

/-- READ brings bytes of the cache into the core buffer. -/
theorem exec_read_moves (c : CoreId) (o : CacheOp) (s : State) (h : s.atHead c 7 (.read c o)) (ho : o.ok o.units)
    (hg : (s.cluster o.cluster).badIn o.cc.toNat o.units = []) (hw : (s.cluster o.cluster).cache.wf) :
    ∃ t, exec (.read c o) s = .next t ∧
      (∀ i, i < 64 * o.units → (t.core c).buf.rd (o.cba + i) = (s.cluster o.cluster).cache.rd (o.cca + i)) ∧
      (∀ a, a < o.cba ∨ o.cba + 64 * o.units ≤ a → (t.core c).buf.rd a = (s.core c).buf.rd a) ∧
      (∀ k, (t.cluster k).cache = (s.cluster k).cache) ∧ (∀ d, d ≠ c.val → t.core d = s.core d) ∧ t.mem = s.mem ∧ t.host = s.host ∧
      s.sameRegs t [] := by
  obtain ⟨b, he⟩ := State.issue_completes h (runRead_good ho hg)
  have hbuf : ((((s.modCore c fun y => y.cacheRead o (s.cluster o.cluster).cache).ccServed c o.cluster o.units).complete c 7 b).core c).buf =
      (s.core c).buf.wrBlk o.cba ((s.cluster o.cluster).cache.rdBlk o.cca (64 * o.units)) := by
    rw [State.complete_buf, State.ccServed_core, State.core_modCore_same]
    rfl
  obtain ⟨hin, hout⟩ := Mem.wrBlk_reads (s.core c).buf o.cba ((s.cluster o.cluster).cache.rdBlk o.cca (64 * o.units))
  rw [length_rdBlk hw] at hin hout
  refine ⟨_, congrArg Host.Outcome.next he, fun i hi => ?_, fun a ha => ?_, by simp, fun d hd => ?_, by simp, by simp, fun a _ => by simp⟩
  · rw [hbuf, hin i hi, getD_rdBlk hw _ hi]
  · rw [hbuf, hout a ha]
  · rw [State.complete_core_ne _ _ _ (Ne.symm hd), State.ccServed_core, State.core_modCore_ne _ _ (Ne.symm hd)]

/-- An operation that draws its credits goes on in the state that has drawn them. -/
theorem State.draw_some {s : State} {c : CoreId} {q k : Nat} {f : Fld} (h : k ≤ s.leftFor c q f) : s.draw c q f k = some (s.setFld f (s.fld f - k)) :=
  if_pos h

theorem State.fld_credFld_drawn (s : State) (c n k : Nat) : (s.setFld (credFld c n) (s.fld (credFld c n) - k)).fld (credFld c n) = s.fld (credFld c n) - k :=
  s.fld_setFld_sig c n .credit (Nat.le_trans (Nat.sub_le _ _) (s.sigFld_le c n .credit))

/-- The state after an operation that draws `k` credits of counter `n` and changes the cluster's cache by `f`. -/
def State.cacheChanged (s : State) (c : CoreId) (o : CacheOp) (f : ClusterSt → ClusterSt) : State :=
  ((s.setFld (credFld c o.credit) (s.fld (credFld c o.credit) - o.credits)).modCluster o.cluster f).ccServed c o.cluster o.units

/-- Once it has completed: its credits are drawn, that cache is changed, and nothing else. -/
theorem State.cacheChanged_frame (s : State) (c : CoreId) (o : CacheOp) (f : ClusterSt → ClusterSt) (b : Option Bool) :
    let t := (s.cacheChanged c o f).complete c 7 b
    t.fld (credFld c o.credit) = s.fld (credFld c o.credit) - o.credits ∧ (t.cluster o.cluster).cache = (f (s.cluster o.cluster)).cache ∧
      (∀ k, k ≠ o.cluster.val → (t.cluster k).cache = (s.cluster k).cache) ∧ (∀ d, (t.core d).buf = (s.core d).buf) ∧ t.mem = s.mem ∧
      t.host = s.host ∧ s.sameRegs t [(credFld c o.credit).addr] := by
  intro t
  unfold t State.cacheChanged
  refine ⟨?_, by simp, fun k hk => ?_, by simp, by simp, by simp, s.complete_sameRegs (fun a ha => ?_) _ _ _⟩
  · rw [State.complete_fld, State.ccServed_fld, State.modCluster_fld, State.fld_credFld_drawn]
  · rw [State.complete_cache, State.ccServed_cluster, State.cluster_modCluster_ne _ _ (Ne.symm hk), State.setFld_cluster]
  · rw [State.ccServed_rd, State.modCluster_rd]
    exact s.setFld_sameRegs _ _ a ha

theorem State.cacheChanged_boot (s : State) (c : CoreId) (o : CacheOp) (f : ClusterSt → ClusterSt) : (s.cacheChanged c o f).boot = s.boot := by
  unfold State.cacheChanged
  simp

/-- The cluster after WRITE of the bytes `src`. -/
def ClusterSt.cacheWritten (o : CacheOp) (src : List Byte) (x : ClusterSt) : ClusterSt :=
  { x with cache := x.cache.wrBlk o.cca src
           cacheBad := x.cacheBad.filter fun u => !(decide (o.cc.toNat ≤ u) && decide (u < o.cc.toNat + o.units)) }

theorem runWrite_good {s : State} {c : CoreId} {o : CacheOp} (ho : o.ok o.units = true) (hd : o.credits ≤ s.leftFor c 7 (credFld c o.credit))
    (hg : (s.core c).bad o.cba (64 * o.units) = false) (p : Prog) :
    runWrite c o p s = (s.cacheChanged c o (ClusterSt.cacheWritten o ((s.core c).buf.rdBlk o.cba (64 * o.units))), true) := by
  unfold runWrite
  rw [ho, State.draw_some hd]
  dsimp only [Bool.not_true]
  rw [State.consume_range_good (by simpa using hg), State.setFld_core]
  rfl

/-- WRITE brings bytes of the core buffer into the cache. -/
theorem exec_write_moves (c : CoreId) (o : CacheOp) (s : State) (h : s.atHead c 7 (.write c o)) (ho : o.ok o.units)
    (hd : o.credits ≤ s.leftFor c 7 (credFld c o.credit)) (hg : (s.core c).bad o.cba (64 * o.units) = false) (hw : (s.core c).buf.wf) :
    ∃ t, exec (.write c o) s = .next t ∧ t.fld (credFld c o.credit) = s.fld (credFld c o.credit) - o.credits ∧
      (∀ i, i < 64 * o.units → (t.cluster o.cluster).cache.rd (o.cca + i) = (s.core c).buf.rd (o.cba + i)) ∧
      (∀ a, a < o.cca ∨ o.cca + 64 * o.units ≤ a → (t.cluster o.cluster).cache.rd a = (s.cluster o.cluster).cache.rd a) ∧
      (∀ k, k ≠ o.cluster.val → (t.cluster k).cache = (s.cluster k).cache) ∧ (∀ d, (t.core d).buf = (s.core d).buf) ∧
      t.mem = s.mem ∧ t.host = s.host ∧ s.sameRegs t [(credFld c o.credit).addr] := by
  obtain ⟨b, he⟩ := State.issueAct_completes h (runWrite_good ho hd hg) (s.cacheChanged_boot ..)
  obtain ⟨hcr, hcache, hrest⟩ := s.cacheChanged_frame c o (ClusterSt.cacheWritten o ((s.core c).buf.rdBlk o.cba (64 * o.units))) b
  obtain ⟨hin, hout⟩ := Mem.wrBlk_reads (s.cluster o.cluster).cache o.cca ((s.core c).buf.rdBlk o.cba (64 * o.units))
  rw [length_rdBlk hw] at hin hout
  refine ⟨_, congrArg Host.Outcome.next he, hcr, fun i hi => ?_, fun a ha => ?_, hrest⟩
  · rw [hcache, ← getD_rdBlk hw _ hi]
    exact hin i hi
  · rw [hcache]
    exact hout a ha

/-- Settles O13: READ and WRITE place one block of bytes each. -/
theorem cacheReadAndWriteMoveUnits : Obligations.CacheReadAndWriteMoveUnits := ⟨exec_read_moves, exec_write_moves⟩

/-! ### ADD and MAX -/

section
variable (op : BitVec 32 → BitVec 32 → BitVec 32) (buf : Mem) (cca cba : Nat)

/-- The first `n` units of a cache combined with those of a core buffer. -/
def combineUnits (n : Nat) (m : Mem) : Mem :=
  (List.range n).foldl (fun m i => m.wrBlk (cca + 64 * i) (combineUnit op m buf (cca + 64 * i) (cba + 64 * i))) m

theorem combineUnits_succ (n : Nat) (m : Mem) : combineUnits op buf cca cba (n + 1) m =
    (combineUnits op buf cca cba n m).wrBlk (cca + 64 * n)
      (combineUnit op (combineUnits op buf cca cba n m) buf (cca + 64 * n) (cba + 64 * n)) := by
  unfold combineUnits
  rw [List.range_succ, List.foldl_append]
  rfl

/-- Word `j` of the cache combined with word `j` of the buffer. -/
def combineWord (m : Mem) (j : Nat) : BitVec 32 := op (BitVec.ofNat 32 (m.rdLe (cca + 4 * j) 4)) (BitVec.ofNat 32 (buf.rdLe (cba + 4 * j) 4))

/-- Each word of the units takes its combination, as each is read before it is written; no byte beside them changes. -/
theorem combineUnits_words (n : Nat) (m : Mem) :
    (∀ j, j < 16 * n → (combineUnits op buf cca cba n m).rdLe (cca + 4 * j) 4 = (combineWord op buf cca cba m j).toNat) ∧
      ∀ a, a < cca ∨ cca + 64 * n ≤ a → (combineUnits op buf cca cba n m).rd a = m.rd a := by
  induction n with
  | zero => exact ⟨fun j hj => by omega, fun a _ => rfl⟩
  | succ n ih =>
    obtain ⟨hwords, hrest⟩ := ih
    rw [combineUnits_succ]
    generalize combineUnits op buf cca cba n m = m' at hwords hrest
    obtain ⟨hnew, hold⟩ := Mem.wrBlk_flatMap_storedAt m' (cca + 64 * n) 4 16
      (fun i => (combineWord op buf (cca + 64 * n) (cba + 64 * n) m' i).toNat) fun i => BitVec.isLt _
    have hbeside : ∀ k, k < cca + 64 * n ∨ cca + 64 * n + 64 ≤ k →
        (m'.wrBlk (cca + 64 * n) (combineUnit op m' buf (cca + 64 * n) (cba + 64 * n))).rd k = m'.rd k := fun k hk =>
      hold k fun i hi => by have := List.mem_range.mp hi; omega
    refine ⟨fun j hj => ?_, fun a ha => (hbeside a (by omega)).trans (hrest a (by omega))⟩
    rcases Nat.lt_or_ge j (16 * n) with hlt | hge
    · rw [← hwords j hlt]
      exact Mem.rdLe_congr fun k _ hk => hbeside k (by omega)
    · obtain ⟨i, rfl⟩ := Nat.exists_eq_add_of_le hge
      have hread : m'.rdLe (cca + 4 * (16 * n + i)) 4 = m.rdLe (cca + 4 * (16 * n + i)) 4 :=
        Mem.rdLe_congr fun k hk _ => hrest k (.inr (by omega))
      have hword : combineWord op buf (cca + 64 * n) (cba + 64 * n) m' i = combineWord op buf cca cba m (16 * n + i) := by
        rw [combineWord, combineWord, ← hread, show cca + 64 * n + 4 * i = cca + 4 * (16 * n + i) by ring,
          show cba + 64 * n + 4 * i = cba + 4 * (16 * n + i) by ring]
      rw [← hword, show cca + 4 * (16 * n + i) = cca + 64 * n + i * 4 by ring]
      exact hnew i (List.mem_range.mpr (by omega))

end

/-- The cluster after ADD or MAX of good units. -/
def ClusterSt.combined (op : BitVec 32 → BitVec 32 → BitVec 32) (o : CacheOp) (buf : Mem) (x : ClusterSt) : ClusterSt :=
  { x with cache := combineUnits op buf o.cca o.cba o.units x.cache }

theorem runCombine_good {s : State} {c : CoreId} {o : CacheOp} (code : Nat) (op : BitVec 32 → BitVec 32 → BitVec 32) (ho : o.ok o.units = true)
    (hd : o.credits ≤ s.leftFor c 7 (credFld c o.credit)) (hg : (s.core c).bad o.cba (64 * o.units) = false)
    (hb : (s.cluster o.cluster).badIn o.cc.toNat o.units = []) (p : Prog) :
    runCombine code op c o p s = (s.cacheChanged c o (ClusterSt.combined op o (s.core c).buf), true) := by
  unfold runCombine
  rw [ho, State.draw_some hd]
  dsimp only [Bool.not_true]
  rw [State.consume_range_good (by simpa using hg), State.setFld_core, State.setFld_cluster, hb]
  rfl

/-- ADD and MAX combine every word of their units. -/
theorem exec_combine {s : State} {c : CoreId} {o : CacheOp} {i : Instr} (code : Nat) (op : BitVec 32 → BitVec 32 → BitVec 32)
    (he : exec i s = .next (s.issueAct c 7 i (runCombine code op c o))) (h : s.atHead c 7 i) (ho : o.ok o.units)
    (hd : o.credits ≤ s.leftFor c 7 (credFld c o.credit)) (hg : (s.core c).bad o.cba (64 * o.units) = false)
    (hb : (s.cluster o.cluster).badIn o.cc.toNat o.units = []) :
    ∃ t, exec i s = .next t ∧ t.fld (credFld c o.credit) = s.fld (credFld c o.credit) - o.credits ∧
      (∀ j, j < 16 * o.units → BitVec.ofNat 32 ((t.cluster o.cluster).cache.rdLe (o.cca + 4 * j) 4) =
        op (BitVec.ofNat 32 ((s.cluster o.cluster).cache.rdLe (o.cca + 4 * j) 4)) (BitVec.ofNat 32 ((s.core c).buf.rdLe (o.cba + 4 * j) 4))) ∧
      (∀ a, a < o.cca ∨ o.cca + 64 * o.units ≤ a → (t.cluster o.cluster).cache.rd a = (s.cluster o.cluster).cache.rd a) ∧
      (∀ k, k ≠ o.cluster.val → (t.cluster k).cache = (s.cluster k).cache) ∧ (∀ d, (t.core d).buf = (s.core d).buf) ∧ t.mem = s.mem ∧
      t.host = s.host ∧ s.sameRegs t [(credFld c o.credit).addr] := by
  obtain ⟨b, hi⟩ := State.issueAct_completes h (runCombine_good code op ho hd hg hb) (s.cacheChanged_boot ..)
  obtain ⟨hcr, hcache, hrest⟩ := s.cacheChanged_frame c o (ClusterSt.combined op o (s.core c).buf) b
  obtain ⟨hwords, hbeside⟩ := combineUnits_words op (s.core c).buf o.cca o.cba o.units (s.cluster o.cluster).cache
  refine ⟨_, he.trans (congrArg Host.Outcome.next hi), hcr, fun j hj => ?_, fun a ha => ?_, hrest⟩
  · rw [hcache]
    refine (congrArg (BitVec.ofNat 32) (hwords j hj)).trans ?_
    rw [BitVec.ofNat_toNat, BitVec.setWidth_eq, combineWord]
  · rw [hcache]
    exact hbeside a ha

/-! ### FETCH_ADD -/

/-- Byte address of FETCH_ADD's word in the cluster cache. -/
def cacheWordAddr (o : CacheOp) : Nat := o.cca + 4 * o.word.val

/-- Byte address of FETCH_ADD's word in the core buffer. -/
def bufWordAddr (o : CacheOp) : Nat := o.cba + 4 * o.word.val

/-- The state after FETCH_ADD of a good unit: the sum stands in the cache, the old word in the buffer. -/
def State.fetchAdded (s : State) (c : CoreId) (o : CacheOp) : State :=
  let old := (s.cluster o.cluster).cache.rdLe (cacheWordAddr o) 4
  let sum := (old + (s.core c).buf.rdLe (bufWordAddr o) 4) % 2 ^ 32
  ((s.modCluster o.cluster fun x => { x with cache := x.cache.wrLe (cacheWordAddr o) 4 sum }).modCore c fun y =>
    y.put (bufWordAddr o) (leBytes 4 old)).ccServed c o.cluster 1

theorem runFetchAdd_good {s : State} {c : CoreId} {o : CacheOp} (ho : o.ok 1 = true) (hg : (s.core c).bad (bufWordAddr o) 4 = false)
    (hb : (s.cluster o.cluster).cacheBad.contains o.cc.toNat = false) (p : Prog) : runFetchAdd c o p s = (s.fetchAdded c o, true) := by
  unfold bufWordAddr at hg
  unfold runFetchAdd
  rw [ho]
  dsimp only [Bool.not_true]
  rw [State.consume_range_good hg, hb]
  rfl

/-- FETCH_ADD adds the buffer's word to the cache's word and answers the old one. -/
theorem exec_fetchAdd_adds (c : CoreId) (o : CacheOp) (s : State) (h : s.atHead c 7 (.fetchAdd c o)) (ho : o.ok 1)
    (hg : (s.core c).bad (bufWordAddr o) 4 = false) (hb : (s.cluster o.cluster).cacheBad.contains o.cc.toNat = false) :
    ∃ t, exec (.fetchAdd c o) s = .next t ∧
      (t.cluster o.cluster).cache.rdLe (cacheWordAddr o) 4 =
        ((s.cluster o.cluster).cache.rdLe (cacheWordAddr o) 4 + (s.core c).buf.rdLe (bufWordAddr o) 4) % 2 ^ 32 ∧
      (t.core c).buf.rdLe (bufWordAddr o) 4 = (s.cluster o.cluster).cache.rdLe (cacheWordAddr o) 4 ∧
      (∀ a, a < cacheWordAddr o ∨ cacheWordAddr o + 4 ≤ a → (t.cluster o.cluster).cache.rd a = (s.cluster o.cluster).cache.rd a) ∧
      (∀ k, k ≠ o.cluster.val → (t.cluster k).cache = (s.cluster k).cache) ∧
      (∀ a, a < bufWordAddr o ∨ bufWordAddr o + 4 ≤ a → (t.core c).buf.rd a = (s.core c).buf.rd a) ∧
      (∀ d, d ≠ c.val → t.core d = s.core d) ∧ t.mem = s.mem ∧ t.host = s.host ∧ s.sameRegs t [] := by
  obtain ⟨b, he⟩ := State.issueAct_completes h (runFetchAdd_good ho hg hb) (by simp [State.fetchAdded])
  have hsum : ((s.cluster o.cluster).cache.rdLe (cacheWordAddr o) 4 + (s.core c).buf.rdLe (bufWordAddr o) 4) % 2 ^ 32 < 256 ^ 4 := Nat.mod_lt _ (by decide)
  obtain ⟨hcache, hcacheRest⟩ := (s.cluster o.cluster).cache.wrLe_word (cacheWordAddr o) 4 hsum
  obtain ⟨hbuf, hbufRest⟩ := (s.core c).buf.wrBlk_word (bufWordAddr o) 4 ((s.cluster o.cluster).cache.rdLe_lt (cacheWordAddr o) 4)
  have hcl : (((s.fetchAdded c o).complete c 7 b).cluster o.cluster).cache = (s.cluster o.cluster).cache.wrLe (cacheWordAddr o) 4
      (((s.cluster o.cluster).cache.rdLe (cacheWordAddr o) 4 + (s.core c).buf.rdLe (bufWordAddr o) 4) % 2 ^ 32) := by
    simp [State.fetchAdded]
  have hco : (((s.fetchAdded c o).complete c 7 b).core c).buf =
      (s.core c).buf.wrBlk (bufWordAddr o) (leBytes 4 ((s.cluster o.cluster).cache.rdLe (cacheWordAddr o) 4)) := by
    rw [State.complete_buf, State.fetchAdded, State.ccServed_core, State.core_modCore_same]
    rfl
  refine ⟨_, congrArg Host.Outcome.next he, ?_, ?_, fun a ha => ?_, fun k hk => ?_, fun a ha => ?_, fun d hd => ?_, ?_, ?_, fun a _ => ?_⟩
  · rw [hcl, hcache]
  · rw [hco, hbuf]
  · rw [hcl, hcacheRest a ha]
  · rw [State.complete_cache, State.fetchAdded, State.ccServed_cluster, State.modCore_cluster, State.cluster_modCluster_ne _ _ (Ne.symm hk)]
  · rw [hco, hbufRest a ha]
  · rw [State.complete_core_ne _ _ _ (Ne.symm hd), State.fetchAdded, State.ccServed_core, State.core_modCore_ne _ _ (Ne.symm hd),
      State.modCluster_core]
  · simp [State.fetchAdded]
  · simp [State.fetchAdded]
  · simp [State.fetchAdded]

/-- Settles O14: ADD and MAX combine their words unit by unit, FETCH_ADD one word. -/
theorem cacheCombineUpdatesWords : Obligations.CacheCombineUpdatesWords := by
  refine ⟨fun c o s i op hi h ho hd hg hb => ?_, exec_fetchAdd_adds⟩
  rcases hi with ⟨rfl, rfl⟩ | ⟨rfl, rfl⟩
  · exact exec_combine 2 (· + ·) rfl h ho hd hg hb
  · exact exec_combine 3 maxWord rfl h ho hd hg hb

end Sys2Proof.Machine
end

section
/-! PROOFS. A hot reset in a state that no run reaches, and the partitions that it leaves to close (R224, R332, R362). -/

namespace Sys2Proof.Machine

/-! ### An object of a partition that does not exist -/

/-- An object of partition 8160 that is being deleted and holds one tile in a stack. No partition has that number (R329) and no command makes
such an object, but the type of the object's partition does not rule it out. Its OBJ.USE_STACK, at 0x50200 + 16 * 8160, would lie at 0x70000, the
address of GARNET.CTRL. -/
def strayObject : Obj where
  state := .deleting
  kind := .cache
  part := 8160
  policy := .resident
  cls := 0
  salt := 0#8
  base := 0
  size := 0
  placeDie := 0
  share := 0#16
  session := 0#16
  age := 0#32
  origin := 0#32
  resident := 1
  dirFrames := []
  firstDie := none
  dying := none
  goLive := false

/-- An object table that holds that object alone. -/
def strayPlace : PlaceSt := { objs := [(0, strayObject)] }

/-- A group ticks, and the stray object waits to be freed. -/
def strayDeleting : State := { regs := [(Rg.GARNET_CTRL, 1#32)], place := strayPlace }

/-! ### What the reset goes through -/

/-- Objects as in `pl`, no fetch, no session, no setting that waits, only partitions of R329 to close, and GARNET.CTRL is `ctrl`. -/
structure State.Still (s : State) (pl : PlaceSt) (ctrl : BitVec 32) : Prop where
  place : s.place = pl
  fetches : s.fetches = []
  sess : s.hostq.sess = []
  held : s.held = []
  closing : ∀ p ∈ s.hostq.closing, p < 16
  ctrl : s.rd Rg.GARNET_CTRL = ctrl

theorem strayDeleting_still : strayDeleting.Still strayPlace 1#32 := ⟨rfl, rfl, rfl, rfl, (fun _ hp => nomatch hp), by decide +kernel⟩

variable {s : State} {pl : PlaceSt} {v : BitVec 32}

theorem State.Still.ticking (h : s.Still pl v) : s.ticking = (bvGet 0 1 v == 1) := by
  rw [State.ticking, State.inForce, State.rdForce, h.held, show Fld.GARNET_CTRL_ENABLE.addr = Rg.GARNET_CTRL from rfl, h.ctrl]
  rfl

theorem State.Still.setFld (h : s.Still pl v) {f : Fld} (n : Nat) (hf : f.addr ≠ Rg.GARNET_CTRL) : (s.setFld f n).Still pl v :=
  { h with ctrl := (s.rd_wr_ne _ hf).trans h.ctrl }

theorem State.Still.forceFld (h : s.Still pl v) {f : Fld} (n : Nat) (hf : f.addr ≠ Rg.GARNET_CTRL) : (s.forceFld f n).Still pl v :=
  { h.setFld n hf with held := by rw [State.forceFld, h.held]; rfl }

theorem State.Still.modHost (h : s.Still pl v) {f : HostSt → HostSt} (hf : (f s.hostq).sess = s.hostq.sess)
    (hc : ∀ p ∈ (f s.hostq).closing, p < 16) : (s.modHost f).Still pl v :=
  { h with sess := hf.trans h.sess, closing := hc }

theorem State.Still.jasper (h : s.Still pl v) (e : JCode) (u d d2 : Nat) : (s.jasper e u d d2).Still pl v where
  place := by rw [State.jasper_place]; exact h.place
  fetches := by rw [State.jasper_fetches]; exact h.fetches
  sess := by rw [State.jasper_hostq]; exact h.sess
  held := by rw [State.jasper_held]; exact h.held
  closing := by rw [State.jasper_hostq]; exact h.closing
  ctrl := by rw [State.jasper_rd]; exact h.ctrl

/-- The registers of queues and partitions lie below those of the tick unit (R440). -/
theorem State.Still.flrQueue (h : s.Still pl v) {q : Nat} (hq : q < 256) : (s.flrQueue q).Still pl v := by
  have hn : ∀ n < 32, 0x31000 + 0x20 * q + n ≠ Rg.GARNET_CTRL := fun n hn => by unfold Rg.GARNET_CTRL; omega
  have h1 : ((s.setFld (Fld.HQ_Q_CFG_ENABLE q) 0).setFld (Fld.HQ_Q_STATUS_RUNNING q) 0).Still pl v :=
    (h.setFld 0 (hn 0x10 (by decide))).setFld 0 (hn _ (by decide))
  have h2 := (State.Still.modHost (f := fun x => { x with queues := NMap.set {} x.queues q {} }) h1 rfl h.closing).modHost
    (f := fun x => { x with staged := x.staged.filter fun y => y.q != q }) rfl h.closing
  exact (h2.setFld _ (by decide)).setFld _ (by decide)

theorem State.Still.closeParts (h : s.Still pl v) : s.closeParts.Still pl v := by
  unfold State.closeParts
  dsimp only
  rw [h.sess]
  refine State.Still.modHost (State.each_inv _ (State.Still · pl v) _ _ h fun t p hp ht => ht.setFld 0 ?_) rfl fun _ hp => nomatch hp
  have := h.closing p hp
  unfold Fld.PARTN_STATUS_FLR_ACTIVE Rg.GARNET_CTRL
  dsimp only
  omega

theorem State.Still.modPlace (h : s.Still pl v) {pl' : PlaceSt} {f : PlaceSt → PlaceSt} (hf : f pl = pl') : (s.modPlace f).Still pl' v :=
  { h with place := (congrArg f h.place).trans hf }

/-! ### The stray object is freed -/

/-- What `State.dropObject` does once the object's moves have ended: first, no placement command, wait or directory entry names it. -/
def State.dropNames (s : State) (o : Nat) : State :=
  let s := s.modPlace fun p =>
    { p with refetches := othersOf o p.refetches, jobs := p.jobs.filter fun j => j.object != o, dir := othersOf o p.dir
             waits := othersOf o p.waits, replaceT := othersOf o p.replaceT, rewritten := othersOf o p.rewritten
             expired := p.expired.filter fun k => k / 2 ^ 22 != o
             dirCache := NMap.mapD [] (fun l => l.filter fun e => e.1 != o) p.dirCache }
  s.each (List.range 4) State.recountMovers

/-- Then: its host pages are freed, those of its tiles and those that its moves had left. -/
def State.dropPages (s : State) (o : Nat) (hosted : List Nat) : State :=
  let s := s.each (hosted ++ (s.place.oldPages.filter fun p => p.1 / 2 ^ 22 == o).map fun p => p.2) State.freePage
  s.modPlace fun p => { p with oldPages := othersOf o p.oldPages }

/-- Then: its frames. -/
def State.dropFrames (s : State) (o : Nat) : State := s.each (s.place.frames.filter fun p => p.2.ofObj o) fun s p => s.releaseFrame p.1

/-- Last: the counts of its partition, and its entry. -/
def State.dropEntry (s : State) (o : Nat) (x : Obj) (hosted : Nat) : State :=
  let s := s.setFld (Fld.OBJ_USE_STACK_TILES x.part) (s.fld (Fld.OBJ_USE_STACK_TILES x.part) - x.resident)
  let s := s.setFld (Fld.OBJ_USE_HOST_TILES x.part) (s.fld (Fld.OBJ_USE_HOST_TILES x.part) - hosted)
  (s.modPlace fun p => { p with objs := NMap.del p.objs o }).recountObjs

/-- The commands that wait for the placement of an object which is freed end aborted. -/
def State.abortJobs (s : State) (jobs : List Job) : State :=
  s.each jobs fun s j => match j.done with | some c => s.completeCmd c .aborted 0 | none => s

theorem State.dropObject_eq {o : Nat} {x : Obj} (ho : s.obj o = some x) : s.dropObject o =
    (let s := s.each (s.place.moves.filter fun p => p.1 / 2 ^ 22 == o) fun s p => s.abandonMove o (p.1 % 2 ^ 22)
    let jobs := s.place.jobs.filter fun j => j.object == o
    let hosted := (s.place.dir.filter fun p => p.1 / 2 ^ 22 == o && p.2.home == .host).map fun p => p.2.page
    (((((s.dropNames o).dropPages o hosted).dropFrames o).dropEntry o x hosted.length).abortJobs jobs).endDelete x (x.dying.getD [])) := by
  unfold State.dropObject
  rw [ho]
  rfl

theorem State.Still.dropNames (h : s.Still strayPlace v) : (s.dropNames 0).Still strayPlace v :=
  State.each_inv _ (State.Still · strayPlace v) _ _ (h.modPlace rfl) fun t m _ ht =>
    ht.setFld _ (by unfold Fld.MOV_STATUS_BUSY Rg.GARNET_CTRL; dsimp only; omega)

theorem State.Still.dropPages (h : s.Still strayPlace v) : (s.dropPages 0 []).Still strayPlace v := by
  unfold State.dropPages
  rw [h.place]
  exact h.modPlace rfl

theorem State.Still.dropFrames (h : s.Still strayPlace v) : (s.dropFrames 0).Still strayPlace v := by
  unfold State.dropFrames
  rw [h.place]
  exact h

/-- With the stray object's one tile the count that would be OBJ.USE_STACK of partition 8160 falls to 0: the group no longer ticks. -/
theorem State.Still.dropEntry (h : s.Still strayPlace 1#32) : (s.dropEntry 0 strayObject 0).Still {} 0#32 := by
  have h1 : (s.setFld (Fld.OBJ_USE_STACK_TILES 8160) (s.fld (Fld.OBJ_USE_STACK_TILES 8160) - 1)).Still strayPlace 0#32 := by
    have hs : s.rd (Fld.OBJ_USE_STACK_TILES 8160).addr = 1#32 := h.ctrl
    refine { h with ctrl := ?_ }
    rw [State.setFld, State.fld, hs]
    exact State.rd_wr_same ..
  have h2 := h1.setFld (f := Fld.OBJ_USE_HOST_TILES 8160)
    ((s.setFld (Fld.OBJ_USE_STACK_TILES 8160) (s.fld (Fld.OBJ_USE_STACK_TILES 8160) - 1)).fld (Fld.OBJ_USE_HOST_TILES 8160) - 0) (by decide)
  exact State.Still.setFld (h2.modPlace (pl' := {}) (f := fun p => { p with objs := NMap.del p.objs 0 }) rfl) _ (by decide)

theorem State.Still.dropObject (h : s.Still strayPlace 1#32) : (s.dropObject 0).Still {} 0#32 := by
  have ho : s.obj 0 = some strayObject := by rw [State.obj, h.place]; rfl
  rw [State.dropObject_eq ho, h.place]
  dsimp only [strayPlace, List.filter_nil, State.each_nil]
  rw [h.place]
  exact h.dropNames.dropPages.dropFrames.dropEntry

theorem State.Still.settleDeletes_stray (h : s.Still strayPlace 1#32) : s.settleDeletes.Still {} 0#32 := by
  have hs : s.settleDeletes = s.dropObject 0 := by
    rw [State.settleDeletes, h.place, h.fetches]
    rfl
  exact hs ▸ h.dropObject

theorem State.Still.settleDeletes_none (h : s.Still {} v) : s.settleDeletes = s :=
  State.settleDeletes_of_none _ (by rw [h.place]; simp)

/-- What precedes the closing of the sessions of a partition (R332). -/
def State.flrBegin (s : State) (p : Nat) : State :=
  let s := (s.forceFld (Fld.PARTN_OUT_CFG_ENABLE p) 0).forceFld (Fld.PARTN_EVT_CFG_ENABLE p) 0
  let s := (s.forceFld (Fld.PARTN_HPT_COUNT_COUNT p) 0).recountPages
  (s.modHost fun h => { h with closing := addOnce h.closing p }).raise (Fld.PARTN_STATUS_FLR_ACTIVE p)

theorem of_mem_addOnce {β : Type} [DecidableEq β] {l : List β} {x y : β} (h : y ∈ addOnce l x) : y ∈ l ∨ y = x := by
  unfold addOnce at h
  split at h
  · exact .inl h
  · simpa using h

theorem State.Still.flrBegin (h : s.Still pl v) {p : Nat} (hp : p < 16) : (s.flrBegin p).Still pl v := by
  have hn : ∀ n < 256, 0x41000 + 0x100 * p + n ≠ Rg.GARNET_CTRL := fun n hn => by unfold Rg.GARNET_CTRL; omega
  have h1 := ((h.forceFld (f := Fld.PARTN_OUT_CFG_ENABLE p) 0 (hn _ (by decide))).forceFld (f := Fld.PARTN_EVT_CFG_ENABLE p) 0 (hn _ (by decide))).forceFld
    (f := Fld.PARTN_HPT_COUNT_COUNT p) 0 (hn _ (by decide))
  refine State.Still.setFld (State.Still.modHost (h1.setFld _ (by decide)) rfl fun q hq => ?_) 1 (hn _ (by decide))
  rcases of_mem_addOnce hq with hq | rfl
  · exact h.closing q hq
  · exact hp

/-- What follows it: the partition's objects are deleted. -/
def State.flrDelete (s : State) (fn p : Nat) : State :=
  let s := s.each (s.place.objs.filter fun q => q.2.part == p && q.2.kind != .weights && q.2.live) fun s q =>
    s.modObj q.1 fun x => { x with state := .deleting, dying := some [] }
  s.settleDeletes.jasper .flr p fn 0

theorem State.flrPart_eq (s : State) (fn p : Nat) :
    s.flrPart fn p = ((s.flrBegin p).when (!(s.flrBegin p).ticking) State.closeParts).flrDelete fn p := rfl

/-- While the group ticks nothing closes yet; the stray object goes, and the ticks end. -/
theorem State.Still.flrPart_stray (h : s.Still strayPlace 1#32) : (s.flrPart 0 0).Still {} 0#32 := by
  have h1 := h.flrBegin (p := 0) (by decide)
  rw [State.flrPart_eq, h1.ticking, State.flrDelete]
  change State.Still (State.jasper (State.settleDeletes (State.each _ ((s.flrBegin 0).place.objs.filter _) _)) ..) {} 0#32
  rw [h1.place]
  exact h1.settleDeletes_stray.jasper ..

/-- Where no group ticks and no object stands, the sessions close at once, and no partition is left to close. -/
theorem State.Still.flrPart_stopped (h : s.Still {} 0#32) {p : Nat} (hp : p < 16) :
    (s.flrPart 0 p).Still {} 0#32 ∧ (s.flrPart 0 p).hostq.closing = [] := by
  have h1 := h.flrBegin hp
  have h2 := h1.closeParts
  have he : s.flrPart 0 p = (s.flrBegin p).closeParts.jasper .flr p 0 0 := by
    rw [State.flrPart_eq, h1.ticking, State.flrDelete]
    change State.jasper (State.settleDeletes (State.each _ ((s.flrBegin p).closeParts.place.objs.filter _) _)) .. = _
    rw [h2.place]
    exact congrArg (fun t : State => t.jasper .flr p 0 0) h2.settleDeletes_none
  rw [he, State.jasper_hostq]
  exact ⟨h2.jasper .., rfl⟩

/-! ### The hot reset -/

theorem State.each_append {α : Type} (s : State) (xs ys : List α) (f : State → α → State) : s.each (xs ++ ys) f = (s.each xs f).each ys f :=
  List.foldl_append

/-- Where no installation runs, the queues are disabled and the partitions are reset one after another. -/
theorem State.flr_of_no_inst (h : s.flash.inst = none) : s.flr 0 =
    (((s.each (List.range 256) State.flrQueue).flrPart 0 0).each (List.range' 1 14) (State.flrPart · 0)).flrPart 0 15 := by
  have hi : s.flrInstall (fun _ => true) = s := by rw [State.flrInstall, h]; rfl
  rw [State.flr, if_pos rfl, hi]
  generalize s.each (List.range 256) State.flrQueue = u
  have h16 : List.range 16 = 0 :: (List.range' 1 14 ++ [15]) := rfl
  rw [h16, State.each_cons, State.each_append, State.each_cons, State.each_nil]

/-- After the reset of the last partition none is to close. -/
theorem strayDeleting_flr_closing : (strayDeleting.flr 0).hostq.closing = [] := by
  have hq : (strayDeleting.each (List.range 256) State.flrQueue).Still strayPlace 1#32 :=
    State.each_inv _ (State.Still · strayPlace 1#32) _ _ strayDeleting_still fun t q hq ht => ht.flrQueue (List.mem_range.mp hq)
  have hp : (((strayDeleting.each (List.range 256) State.flrQueue).flrPart 0 0).each (List.range' 1 14) (State.flrPart · 0)).Still {} 0#32 :=
    State.each_inv _ (State.Still · {} 0#32) _ _ hq.flrPart_stray fun t p hp ht =>
      (ht.flrPart_stopped (by have := List.mem_range'_1.mp hp; omega)).1
  rw [State.flr_of_no_inst rfl]
  exact (hp.flrPart_stopped (p := 15) (by decide)).2

/-- What O56 says, after a hot reset, of the sessions of partition `p` of a group that ticks. -/
theorem closing_of_resetsReturnToStart (h : Obligations.ResetsReturnToStart) (ht : s.ticking = true) (p : PartId) : p.val ∈ (s.flr 0).hostq.closing := by
  obtain ⟨-, -, -, -, -, -, -, -, hflr, -⟩ := h
  obtain ⟨t, hx, -, -, -, -, hpart⟩ := hflr .hotReset s (.inl rfl)
  obtain ⟨-, -, -, hclosing, -⟩ := hpart p
  have hn : exec .hotReset s = .next ((s.flr 0).wr Rg.HQ_LINK 0#32) := rfl
  rw [hn, Host.Outcome.next.injEq] at hx
  have hc := (hclosing ht).1
  rwa [← hx, State.wr_hostq] at hc

/-- Refutes O56 in its clause on HOT_RESET, which says of every state whose group ticks that the sessions of every partition close at the next
tick start: in `strayDeleting` the reset of partition 0 frees the stray object, the group ticks no more, and the list of the partitions to close
is empty. The clause lacks the premise that the partitions of objects are below 16. -/
theorem not_resetsReturnToStart : ¬ Obligations.ResetsReturnToStart := by
  intro h
  have h0 := closing_of_resetsReturnToStart h (s := strayDeleting) (by rw [strayDeleting_still.ticking]; rfl) 0
  rw [strayDeleting_flr_closing] at h0
  exact List.not_mem_nil h0

end Sys2Proof.Machine
end

section
/-! PROOFS. The precision guard: bins, the decision on a closed slot, and the re-run (R144, R148 to R156, R160). -/

namespace Sys2Proof.Machine

/-! ### Bins -/

theorem valueBin_full {x : Int} (h : x = 32767 ∨ x = -32768) : valueBin x = 15 := if_pos h

theorem valueBin_small {x : Int} (h : x.natAbs < 2) : valueBin x = 0 := by
  unfold valueBin
  rw [if_neg (by omega), if_pos h]

/-- Between the small values and full scale the bin is the binary logarithm of the magnitude. -/
theorem valueBin_eq_iff {x : Int} (h2 : 2 ≤ x.natAbs) (hf : ¬(x = 32767 ∨ x = -32768)) (b : Nat) :
    valueBin x = b ↔ 2 ^ b ≤ x.natAbs ∧ x.natAbs < 2 ^ (b + 1) := by
  unfold valueBin
  rw [if_neg hf, if_neg (by omega), Nat.log2_eq_iff (by omega)]

/-- Settles O17: a value is at full scale, small, or binned by its logarithm. -/
theorem readoutValuesFallIntoBins : Obligations.ReadoutValuesFallIntoBins := by
  intro x hlo hhi
  have hpow : ∀ b, 1 ≤ b → 2 ≤ 2 ^ b := fun b hb => Nat.le_self_pow (by omega) 2
  by_cases hf : x = 32767 ∨ x = -32768
  · have hbelow : ∀ b, b ≤ 13 → 2 ^ (b + 1) ≤ 2 ^ 14 := fun b hb => Nat.pow_le_pow_right (by decide) (by omega)
    rw [valueBin_full hf]
    exact ⟨by omega, fun b _ hb => by have := hbelow b hb; omega, by omega, by omega⟩
  · by_cases hs : x.natAbs < 2
    · rw [valueBin_small hs]
      exact ⟨by omega, fun b hb _ => by have := hpow b hb; omega, by omega, by omega⟩
    · have hbin := valueBin_eq_iff (Nat.le_of_not_lt hs) hf
      exact ⟨by rw [hbin]; omega, fun b _ _ => hbin b, by rw [hbin]; omega, by rw [hbin]; omega⟩

variable (s : State)

/-! ### A cluster changed, and the verdict -/

/-- A cluster changed in all but its cache. -/
theorem State.modCluster_sameMemory (k : Nat) {f : ClusterSt → ClusterSt} (h : (f (s.cluster k)).cache = (s.cluster k).cache) :
    s.sameMemory (s.modCluster k f) := by
  refine ⟨rfl, rfl, rfl, rfl, fun _ => rfl, fun j => ?_⟩
  by_cases hj : k = j
  · subst hj
    rw [State.cluster_modCluster_same, h]
  · rw [State.cluster_modCluster_ne _ _ hj]

/-- The signals of a verdict on slot entry `e` of cluster `k` (R150). -/
abbrev verdictSignals (k : Nat) (e : BitVec 512) : List Flight :=
  if bvBit 2 e then (slotCores e).map fun i => ⟨none, 8 * k + i, .token, slotFld 16 6 e, 1, 8⟩ else []

/-- A verdict sends its signals and does nothing else. -/
theorem State.verdict_eq (k l : Nat) : s.verdict k l = s.withFlights (s.flights ++ verdictSignals k (s.slotEnt k l)) := by
  unfold State.verdict verdictSignals
  dsimp only
  split
  · rfl
  · rw [List.append_nil]
    rfl

theorem State.slotEnt_of_slots {t : State} {k : Nat} (h : (t.cluster k).slots = (s.cluster k).slots) (l : Nat) : t.slotEnt k l = s.slotEnt k l := by
  rw [State.slotEnt, h]
  rfl

/-! ### A slot marked suspect, and its fate noted -/

theorem State.flagRows_keeps_of {β : Type} (P : State → β) (h : ∀ (t : State) m, P { t with marks := m } = P t) (e : BitVec 512) (rows : BitVec 32) :
    P (s.flagRows e rows) = P s := by
  unfold State.flagRows
  split
  · exact h s _
  · exact h s _

theorem State.markSuspect_cluster (k l : Nat) (rows : BitVec 32) : (s.markSuspect k l rows).cluster k =
    { s.cluster k with cur := NMap.set {} (s.cluster k).cur l { NMap.get {} (s.cluster k).cur l with suspect := true } } := by
  have hflag : (s.flagRows (s.slotEnt k l) rows).cluster k = s.cluster k := s.flagRows_keeps_of (·.cluster k) (fun _ _ => rfl) _ _
  unfold State.markSuspect
  dsimp only
  rw [State.cluster_modCluster_same, State.when_keeps _ (·.cluster k) _ _ (State.count_cluster _ _ _ _), hflag]

theorem State.markSuspect_marks (k l : Nat) (rows : BitVec 32) : (s.markSuspect k l rows).marks = (s.flagRows (s.slotEnt k l) rows).marks := by
  unfold State.markSuspect
  exact State.when_keeps _ (·.marks) _ _ rfl

theorem State.markSuspect_sameMemory (k l : Nat) (rows : BitVec 32) : s.sameMemory (s.markSuspect k l rows) :=
  ⟨by simp, by simp, by simp, by simp, by simp, by simp⟩

/-- What became of a slot that has closed, in its fields of the step and, where it is guarded, in its window's totals. -/
def State.noteSlot (s : State) (k l : Nat) (f : SlotCnt → SlotCnt) (g : SlotWin → SlotWin) : State := (s.modSlot k l f).modWin k l g

section
variable (k l : Nat) (f : SlotCnt → SlotCnt) (g : SlotWin → SlotWin)

/-- Nothing but the cluster changes. -/
theorem State.noteSlot_keeps_of {β : Type} (P : State → β) (h : ∀ (t : State) c, P (t.modCluster k c) = P t) : P (s.noteSlot k l f g) = P s := by
  unfold State.noteSlot State.modWin
  exact (State.when_keeps _ P _ _ (h _ _)).trans (h s _)

@[simp] theorem State.noteSlot_rd (a : Nat) : (s.noteSlot k l f g).rd a = s.rd a := s.noteSlot_keeps_of k l f g (·.rd a) fun _ _ => rfl
@[simp] theorem State.noteSlot_ctr (a : Nat) : (s.noteSlot k l f g).ctr a = s.ctr a := s.noteSlot_keeps_of k l f g (·.ctr a) fun _ _ => rfl
@[simp] theorem State.noteSlot_marks : (s.noteSlot k l f g).marks = s.marks := s.noteSlot_keeps_of k l f g (·.marks) fun _ _ => rfl
@[simp] theorem State.noteSlot_flights : (s.noteSlot k l f g).flights = s.flights := s.noteSlot_keeps_of k l f g (·.flights) fun _ _ => rfl

/-- In the cluster the slot's fields change as told, and the window's totals. -/
theorem State.noteSlot_cluster : ∃ w, (s.noteSlot k l f g).cluster k =
    { s.cluster k with cur := NMap.set {} (s.cluster k).cur l (f (NMap.get {} (s.cluster k).cur l)), wins := w } := by
  unfold State.noteSlot State.modWin State.modSlot
  generalize slotGuarded _ = b
  cases b with
  | false =>
    rw [State.when_false, State.cluster_modCluster_same]
    exact ⟨_, rfl⟩
  | true =>
    rw [State.when_true, State.cluster_modCluster_same, State.cluster_modCluster_same]
    exact ⟨_, rfl⟩

theorem State.noteSlot_sameMemory : s.sameMemory (s.noteSlot k l f g) :=
  State.sameMemory_trans (s.modCluster_sameMemory k rfl) (State.when_sameMemory _ _ (State.modCluster_sameMemory _ k rfl))

end

/-! ### The decision -/

/-- Slot `l` of cluster `k` no longer awaits its decision. -/
def State.unawaited (s : State) (k l : Nat) : State := s.modCluster k fun x => { x with closing := x.closing.erase l }

theorem State.unawaited_cluster (k l : Nat) : (s.unawaited k l).cluster k = { s.cluster k with closing := (s.cluster k).closing.erase l } :=
  State.cluster_modCluster_same _ _ _

@[simp] theorem State.unawaited_fld (k l : Nat) (f : Fld) : (s.unawaited k l).fld f = s.fld f := State.modCluster_fld _ _ _ _

@[simp] theorem State.unawaited_slotEnt (k l : Nat) : (s.unawaited k l).slotEnt k l = s.slotEnt k l :=
  s.slotEnt_of_slots (by rw [s.unawaited_cluster]) l

@[simp] theorem State.unawaited_slotRerunEn (k l : Nat) : (s.unawaited k l).slotRerunEn k l = s.slotRerunEn k l := by
  rw [State.slotRerunEn, s.unawaited_slotEnt, s.unawaited_cluster]
  rfl

theorem State.unawaited_sameMemory (k l : Nat) : s.sameMemory (s.unawaited k l) := s.modCluster_sameMemory k rfl

theorem exec_guardDecision {k : ClusterId} {l : Fin 512} {s : State} (hr : s.tickState = stRunning) (hl : (s.cluster k).closing.contains l.val = true) :
    exec (.guardDecision k l) s = .next ((s.unawaited k l).decideSlot k l) := by
  show execGuardDecision k l s = _
  unfold execGuardDecision
  rw [hl, decide_eq_true hr]
  rfl

/-- The slot passes: the guard or the slot's re-run is off, or its counted saturations are below the threshold (R149). -/
abbrev State.slotPasses (s : State) (k l : Nat) : Prop :=
  s.inForce (Fld.GUARD_CTRL_ENABLE k) = 0 ∨ s.slotRerunEn k l = false ∨
    countedSats (s.slotEnt k l) (NMap.get {} (s.cluster k).cur l) < slotFld 32 16 (s.slotEnt k l)

/-- What the decision rests on, before the slot is taken off the list and after it. -/
theorem State.unawaited_slotPasses (k l : Nat) : (s.unawaited k l).slotPasses k l ↔ s.slotPasses k l := by
  rw [State.slotPasses, s.unawaited_slotEnt, s.unawaited_slotRerunEn, s.unawaited_cluster]
  rfl

theorem State.not_slotPasses {k l : Nat} (he : s.inForce (Fld.GUARD_CTRL_ENABLE k) = 1) (hr : s.slotRerunEn k l = true)
    (hn : slotFld 32 16 (s.slotEnt k l) ≤ countedSats (s.slotEnt k l) (NMap.get {} (s.cluster k).cur l)) : ¬ s.slotPasses k l := by
  rintro (h | h | h)
  · rw [he] at h
    exact one_ne_zero h
  · rw [hr] at h
    exact Bool.noConfusion h
  · exact Nat.not_lt.mpr hn h

/-- A re-run of the slot waits, and the margin left is `v`. -/
def State.rerunQueued (s : State) (k l v : Nat) : State :=
  (s.setFld (Fld.GUARD_MARGIN_LEFT_LEFT_US k) v).modCluster k fun y => { y with rerunQ := y.rerunQ ++ [l] }

/-- The slot is marked suspect, and the re-run that it does not get is counted and recorded. -/
def State.rerunSkipped (s : State) (k l : Nat) : State :=
  let rows := (NMap.get {} (s.cluster k).cur l).rows
  (((s.markSuspect k l rows).count (Ct.GUARD_EXHAUST_COUNT k) 1).noteSlot k l (fun y => { y with skipped := true })
    fun y => { y with skipped := bump48 y.skipped 1 }).jasper .rerunSkipped k l rows.toNat

section
variable {s} {k l : Nat}

theorem State.decideSlot_pass (h : s.slotPasses k l) : s.decideSlot k l = s.verdict k l :=
  if_pos (by simpa using h)

theorem State.decideSlot_of_not_passes (h : ¬ s.slotPasses k l) : s.decideSlot k l =
    if slotFld 48 16 (s.slotEnt k l) ≤ s.fld (Fld.GUARD_MARGIN_LEFT_LEFT_US k) then
      s.rerunQueued k l (s.fld (Fld.GUARD_MARGIN_LEFT_LEFT_US k) - slotFld 48 16 (s.slotEnt k l))
    else if bvBit 3 (s.slotEnt k l) then s.rerunQueued k l 0
    else (s.rerunSkipped k l).verdict k l :=
  if_neg (by simpa using h)

/-- The re-run is queued, and nothing else changes but the margin left. -/
theorem State.rerunQueued_effect {v : Nat} (hv : v < 2 ^ 16) :
    ((s.unawaited k l).rerunQueued k l v).cluster k =
        { s.cluster k with closing := (s.cluster k).closing.erase l, rerunQ := (s.cluster k).rerunQ ++ [l] } ∧
      ((s.unawaited k l).rerunQueued k l v).fld (Fld.GUARD_MARGIN_LEFT_LEFT_US k) = v ∧
      s.sameRegs ((s.unawaited k l).rerunQueued k l v) [(Fld.GUARD_MARGIN_LEFT_LEFT_US k).addr] ∧
      ((s.unawaited k l).rerunQueued k l v).flights = s.flights ∧ s.sameMemory ((s.unawaited k l).rerunQueued k l v) := by
  refine ⟨?_, ?_, fun a ha => ?_, ?_, ?_⟩
  · rw [State.rerunQueued, State.cluster_modCluster_same, State.setFld_cluster, s.unawaited_cluster]
  · rw [State.rerunQueued, State.modCluster_fld, State.fld_setFld_same _ _ _ (show 0 + 16 ≤ 32 by decide)]
    exact Nat.mod_eq_of_lt hv
  · rw [State.rerunQueued, State.modCluster_rd, State.setFld_sameRegs _ _ v a ha, State.unawaited, State.modCluster_rd]
  · rw [State.rerunQueued, State.modCluster_flights, State.setFld_flights, State.unawaited, State.modCluster_flights]
  · exact State.sameMemory_trans (s.unawaited_sameMemory k l)
      (State.sameMemory_trans (State.setFld_sameMemory _ _ _) (State.modCluster_sameMemory _ k rfl))

end

/-- The cluster of a slot whose re-run is skipped: the slot is suspect and has been skipped. -/
theorem State.rerunSkipped_cluster (k l : Nat) : ∃ w, (s.rerunSkipped k l).cluster k = { s.cluster k with
    cur := NMap.set {} (NMap.set {} (s.cluster k).cur l { NMap.get {} (s.cluster k).cur l with suspect := true }) l
      { NMap.get {} (s.cluster k).cur l with suspect := true, skipped := true }
    wins := w } := by
  unfold State.rerunSkipped
  obtain ⟨w, hw⟩ := ((s.markSuspect k l (NMap.get {} (s.cluster k).cur l).rows).count (Ct.GUARD_EXHAUST_COUNT k) 1).noteSlot_cluster k l
    (fun y => { y with skipped := true }) fun y => { y with skipped := bump48 y.skipped 1 }
  refine ⟨w, ?_⟩
  rw [State.jasper_cluster, hw, State.count_cluster, State.markSuspect_cluster, NMap.get_set_same]

theorem State.rerunSkipped_marks (k l : Nat) :
    (s.rerunSkipped k l).marks = (s.flagRows (s.slotEnt k l) (NMap.get {} (s.cluster k).cur l).rows).marks := by
  rw [State.rerunSkipped, State.jasper_marks, State.noteSlot_marks, State.count_marks, State.markSuspect_marks]

theorem State.rerunSkipped_ctr (k l : Nat) : (s.rerunSkipped k l).ctr (Ct.GUARD_EXHAUST_COUNT k) = (s.ctr (Ct.GUARD_EXHAUST_COUNT k)).plus 1 := by
  have hdrop : Ct.JSP_INTAKE_DROPS ≠ Ct.GUARD_EXHAUST_COUNT k := by
    unfold Ct.JSP_INTAKE_DROPS Ct.GUARD_EXHAUST_COUNT clusterBase
    omega
  have hsusp : Ct.GUARD_SUSPECT_COUNT k ≠ Ct.GUARD_EXHAUST_COUNT k := by
    unfold Ct.GUARD_SUSPECT_COUNT Ct.GUARD_EXHAUST_COUNT
    omega
  rw [State.rerunSkipped, State.jasper_ctr_ne _ _ _ _ _ hdrop, State.noteSlot_ctr, State.ctr_count_same, State.markSuspect_ctr_ne _ _ _ _ hsusp]

@[simp] theorem State.rerunSkipped_flights (k l : Nat) : (s.rerunSkipped k l).flights = s.flights := by simp [State.rerunSkipped]
@[simp] theorem State.rerunSkipped_rd (k l a : Nat) : (s.rerunSkipped k l).rd a = s.rd a := by simp [State.rerunSkipped]

theorem State.rerunSkipped_sameMemory (k l : Nat) : s.sameMemory (s.rerunSkipped k l) :=
  State.sameMemory_trans (State.sameMemory_trans (s.markSuspect_sameMemory k l _) (State.count_sameMemory _ _ _))
    (State.sameMemory_trans (State.noteSlot_sameMemory _ k l _ _) (State.jasper_sameMemory _ _ _ _ _))

theorem exec_guardDecision_pass (k : ClusterId) (l : Fin 512) (s : State) (hr : s.tickState = stRunning)
    (hl : (s.cluster k).closing.contains l.val = true) (hp : s.slotPasses k l) :
    ∃ t, exec (.guardDecision k l) s = .next t ∧ (t.cluster k).closing = (s.cluster k).closing.erase l.val ∧
      t.flights = s.flights ++ verdictSignals k (s.slotEnt k l) ∧ s.sameRegs t [] ∧ s.sameMemory t := by
  refine ⟨_, exec_guardDecision hr hl, ?_⟩
  rw [State.decideSlot_pass ((s.unawaited_slotPasses k l).mpr hp), State.verdict_eq, s.unawaited_slotEnt]
  exact ⟨congrArg ClusterSt.closing (s.unawaited_cluster k l), rfl, fun _ _ => rfl,
    State.sameMemory_trans (s.unawaited_sameMemory k l) (State.withFlights_sameMemory _ _)⟩

/-- A decision that queues the re-run and leaves the margin `v`. -/
theorem exec_guardDecision_queues {k : ClusterId} {l : Fin 512} {s : State} (hr : s.tickState = stRunning)
    (hl : (s.cluster k).closing.contains l.val = true) {v : Nat} (hv : v < 2 ^ 16)
    (hd : (s.unawaited k l).decideSlot k l = (s.unawaited k l).rerunQueued k l v) :
    ∃ t, exec (.guardDecision k l) s = .next t ∧ (t.cluster k).rerunQ = (s.cluster k).rerunQ ++ [l.val] ∧
      (t.cluster k).closing = (s.cluster k).closing.erase l.val ∧ t.fld (Fld.GUARD_MARGIN_LEFT_LEFT_US k) = v ∧
      t.flights = s.flights ∧ s.sameRegs t [(Fld.GUARD_MARGIN_LEFT_LEFT_US k).addr] ∧ s.sameMemory t := by
  obtain ⟨hcluster, hmargin, hregs, hflights, hmem⟩ := State.rerunQueued_effect (s := s) (k := k) (l := l) hv
  refine ⟨_, exec_guardDecision hr hl, ?_⟩
  rw [hd]
  exact ⟨congrArg ClusterSt.rerunQ hcluster, congrArg ClusterSt.closing hcluster, hmargin, hflights, hregs, hmem⟩

theorem exec_guardDecision_skips {k : ClusterId} {l : Fin 512} {s : State} (hr : s.tickState = stRunning)
    (hl : (s.cluster k).closing.contains l.val = true)
    (hd : (s.unawaited k l).decideSlot k l = ((s.unawaited k l).rerunSkipped k l).verdict k l) :
    ∃ t, exec (.guardDecision k l) s = .next t ∧ t.ctr (Ct.GUARD_EXHAUST_COUNT k) = (s.ctr (Ct.GUARD_EXHAUST_COUNT k)).plus 1 ∧
      t.told .rerunSkipped k l (NMap.get {} (s.cluster k).cur l).rows.toNat ∧ (t.cluster k).rerunQ = (s.cluster k).rerunQ ∧
      (t.cluster k).closing = (s.cluster k).closing.erase l.val ∧ (NMap.get {} (t.cluster k).cur l).suspect = true ∧
      (bvBit 4 (s.slotEnt k l) = true → t.marks.suspectAll = true) ∧
      (bvBit 4 (s.slotEnt k l) = false → t.marks.suspectRows = s.marks.suspectRows ++
        (bitsSet (NMap.get {} (s.cluster k).cur l).rows).map fun r => slotFld 64 16 (s.slotEnt k l) + r) ∧
      t.flights = s.flights ++ verdictSignals k (s.slotEnt k l) ∧ s.sameRegs t [] ∧ s.sameMemory t := by
  have hcur : NMap.get {} ((s.unawaited k l).cluster k).cur l = NMap.get {} (s.cluster k).cur l := by rw [s.unawaited_cluster]
  obtain ⟨w, hcluster⟩ := (s.unawaited k l).rerunSkipped_cluster k l
  have hmarks := (s.unawaited k l).rerunSkipped_marks k l
  have hent : ((s.unawaited k l).rerunSkipped k l).slotEnt k l = s.slotEnt k l :=
    (State.slotEnt_of_slots _ (by rw [hcluster]) l).trans (s.unawaited_slotEnt k l)
  rw [s.unawaited_slotEnt, hcur] at hmarks
  refine ⟨_, exec_guardDecision hr hl, ?_⟩
  rw [hd, State.verdict_eq, hent, State.rerunSkipped_flights]
  refine ⟨State.rerunSkipped_ctr _ _ _, ?_, ?_, ?_, ?_, fun h4 => ?_, fun h4 => ?_, rfl, fun a _ => State.rerunSkipped_rd _ _ _ a,
    State.sameMemory_trans (s.unawaited_sameMemory k l)
      (State.sameMemory_trans (State.rerunSkipped_sameMemory _ _ _) (State.withFlights_sameMemory _ _))⟩
  · rw [← hcur]
    exact State.jasper_told _ _ _ _ _
  · show (((s.unawaited k l).rerunSkipped k l).cluster k).rerunQ = _
    rw [hcluster, s.unawaited_cluster]
  · show (((s.unawaited k l).rerunSkipped k l).cluster k).closing = _
    rw [hcluster, s.unawaited_cluster]
  · show (NMap.get {} (((s.unawaited k l).rerunSkipped k l).cluster k).cur l).suspect = true
    rw [hcluster, NMap.get_set_same]
  · show ((s.unawaited k l).rerunSkipped k l).marks.suspectAll = true
    rw [hmarks, State.flagRows, if_pos h4]
  · show ((s.unawaited k l).rerunSkipped k l).marks.suspectRows = _
    rw [hmarks, State.flagRows, if_neg (by simp [h4])]
    rfl

/-- Settles O15, a branch of the decision a clause. -/
theorem guardDecidesOnce : Obligations.GuardDecidesOnce := by
  refine ⟨exec_guardDecision_pass, fun k l s hr hl he hen hn hc => ?_, fun k l s hr hl he hen hn hc hm => ?_, fun k l s hr hl he hen hn hc hm => ?_⟩
  all_goals
    have hd := State.decideSlot_of_not_passes (mt (s.unawaited_slotPasses k l).mp (s.not_slotPasses he hen hn))
    rw [s.unawaited_slotEnt, s.unawaited_fld] at hd
  · rw [if_pos hc] at hd
    exact exec_guardDecision_queues hr hl (Nat.lt_of_le_of_lt (Nat.sub_le _ _) (s.fld_lt (Fld.GUARD_MARGIN_LEFT_LEFT_US k))) hd
  · rw [if_neg (Nat.not_le.mpr hc), if_pos hm] at hd
    exact exec_guardDecision_queues hr hl (by decide) hd
  · rw [if_neg (Nat.not_le.mpr hc), if_neg (by simp [hm])] at hd
    exact exec_guardDecision_skips hr hl hd

end Sys2Proof.Machine
end

section
/-! PROOFS. The re-run: its start, its segments, its completion, and the end of a window (R150, R152 to R154, R160). -/

namespace Sys2Proof.Machine

variable (s : State)

/-! ### RERUN_START -/

/-- The segment of core `i` of the cluster of slot entry `e` as a re-run of slot `l` starts (R152, R153). -/
def SegRun.waiting (l : Nat) (e : BitVec 512) (i mainPc : Nat) : SegRun := ⟨l, segBase e i, 0, 0, 0#16, false, false, false, [], mainPc⟩

/-- The re-run of slot `l` is the one in progress, no longer among `rest` that wait (R154). -/
def State.rerunTaken (s : State) (k l : Nat) (rest : List Nat) : State :=
  ((s.modCluster k fun x => { x with rerunQ := rest }).raise (Fld.GUARD_STATUS_RERUN_ACTIVE k)).setFld (Fld.GUARD_STATUS_ACTIVE_SLOT k) l

/-- A re-run's start is counted, recorded and noted on its slot; `n` is what the record says. -/
def State.rerunNoted (s : State) (k l n : Nat) : State :=
  ((s.count (Ct.GUARD_RERUN_COUNT k) 1).jasper .rerun k l n).noteSlot k l (fun y => { y with rerun := true })
    fun y => { y with reruns := bump48 y.reruns 1 }

/-- Every core of CORE_MASK is given its segment. -/
def State.giveSegments (s : State) (k l : Nat) (e : BitVec 512) : State :=
  s.each (slotCores e) fun s i => s.modCore (8 * k + i) fun x =>
    { x with seg := some (.waiting l e i (s.fld (Fld.SEQ_PC_PC (8 * k + i)))) }

section
variable (k l : Nat)

theorem State.rerunTaken_status {l : Nat} (hl : l < 512) (rest : List Nat) :
    (s.rerunTaken k l rest).fld (Fld.GUARD_STATUS_RERUN_ACTIVE k) = 1 ∧ (s.rerunTaken k l rest).fld (Fld.GUARD_STATUS_ACTIVE_SLOT k) = l := by
  unfold State.rerunTaken
  rw [State.fld_setFld_disjoint _ _ _ _ (.inl (show 0 + 1 ≤ 1 by decide)), State.fld_setFld_same _ _ _ (show 1 + 9 ≤ 32 by decide)]
  exact ⟨State.raise_fld _ rfl (show 0 < 32 by decide), Nat.mod_eq_of_lt hl⟩

theorem State.rerunTaken_cluster (rest : List Nat) : (s.rerunTaken k l rest).cluster k = { s.cluster k with rerunQ := rest } := by
  rw [State.rerunTaken, State.setFld_cluster, State.raise_cluster, State.cluster_modCluster_same]

theorem State.rerunTaken_ctr (rest : List Nat) (a : Nat) : (s.rerunTaken k l rest).ctr a = s.ctr a := by
  rw [State.rerunTaken, State.setFld_ctr, State.raise_ctr, State.modCluster_ctr]

theorem State.rerunTaken_sameMemory (rest : List Nat) : s.sameMemory (s.rerunTaken k l rest) :=
  State.sameMemory_trans (s.modCluster_sameMemory k rfl)
    (State.sameMemory_trans (State.setFld_sameMemory _ (Fld.GUARD_STATUS_RERUN_ACTIVE k) 1) (State.setFld_sameMemory _ _ _))

variable (n : Nat)

theorem State.rerunNoted_rd (a : Nat) : (s.rerunNoted k l n).rd a = s.rd a := by simp [State.rerunNoted]

theorem State.rerunNoted_rerunQ : ((s.rerunNoted k l n).cluster k).rerunQ = (s.cluster k).rerunQ := by
  obtain ⟨w, hw⟩ := ((s.count (Ct.GUARD_RERUN_COUNT k) 1).jasper .rerun k l n).noteSlot_cluster k l (fun y => { y with rerun := true })
    fun y => { y with reruns := bump48 y.reruns 1 }
  rw [State.rerunNoted, hw, State.jasper_cluster, State.count_cluster]

theorem State.rerunNoted_ctr : (s.rerunNoted k l n).ctr (Ct.GUARD_RERUN_COUNT k) = (s.ctr (Ct.GUARD_RERUN_COUNT k)).plus 1 := by
  have hdrop : Ct.JSP_INTAKE_DROPS ≠ Ct.GUARD_RERUN_COUNT k := by
    unfold Ct.JSP_INTAKE_DROPS Ct.GUARD_RERUN_COUNT clusterBase
    omega
  rw [State.rerunNoted, State.noteSlot_ctr, State.jasper_ctr_ne _ _ _ _ _ hdrop, State.ctr_count_same]

theorem State.rerunNoted_sameMemory : s.sameMemory (s.rerunNoted k l n) :=
  State.sameMemory_trans (State.sameMemory_trans (s.count_sameMemory _ _) (State.jasper_sameMemory _ _ _ _ _))
    (State.noteSlot_sameMemory _ _ _ _ _)

variable (e : BitVec 512)

/-- Nothing but the cores changes. -/
theorem State.giveSegments_keeps_of {β : Type} (P : State → β) (h : ∀ (t : State) c f, P (t.modCore c f) = P t) : P (s.giveSegments k l e) = P s :=
  s.each_keeps P _ _ fun t _ _ => h t _ _

theorem State.giveSegments_sameMemory : s.sameMemory (s.giveSegments k l e) :=
  s.each_sameMemory _ _ fun t _ => t.modCore_sameMemory _ _ rfl

/-- A core of CORE_MASK has its segment, whichever of the others are given theirs after it. -/
theorem State.giveSegments_seg {i : Nat} (hi : i ∈ slotCores e) :
    ∃ pc, ((s.giveSegments k l e).core (8 * k + i)).seg = some (.waiting l e i pc) := by
  have hgiven : ∀ (t : State) pc, ∃ pc', ((t.modCore (8 * k + i) fun x => { x with seg := some (.waiting l e i pc) }).core (8 * k + i)).seg =
      some (.waiting l e i pc') := fun t pc => ⟨pc, by rw [State.core_modCore_same]⟩
  refine s.each_reaches (fun t => ∃ pc, (t.core (8 * k + i)).seg = some (.waiting l e i pc)) _ _ (fun t j _ ht => ?_) hi fun t => hgiven t _
  by_cases hj : j = i
  · subst hj
    exact hgiven t _
  · rw [State.core_modCore_ne _ _ (by omega)]
    exact ht

end

theorem exec_rerunStart_eq {k : ClusterId} {l : Nat} {rest : List Nat} {s : State} (hq : (s.cluster k).rerunQ = l :: rest)
    (hr : s.tickState = stRunning) (ha : s.fld (Fld.GUARD_STATUS_RERUN_ACTIVE k) = 0) : ∃ n,
    exec (.rerunStart k) s = .next (((s.rerunTaken k l rest).rerunNoted k l n).giveSegments k l (s.slotEnt k l)) := by
  apply Exists.intro
  show execRerunStart k s = _
  unfold execRerunStart
  rw [hq]
  exact congrArg Host.Outcome.next (if_neg (by simp [ha, hr]))

theorem exec_rerunStart_starts (k : ClusterId) (l : Nat) (rest : List Nat) (s : State) (hq : (s.cluster k).rerunQ = l :: rest) (hl : l < 512)
    (hr : s.tickState = stRunning) (ha : s.fld (Fld.GUARD_STATUS_RERUN_ACTIVE k) = 0) :
    ∃ t, exec (.rerunStart k) s = .next t ∧ (t.cluster k).rerunQ = rest ∧ t.fld (Fld.GUARD_STATUS_RERUN_ACTIVE k) = 1 ∧
      t.fld (Fld.GUARD_STATUS_ACTIVE_SLOT k) = l ∧ t.ctr (Ct.GUARD_RERUN_COUNT k) = (s.ctr (Ct.GUARD_RERUN_COUNT k)).plus 1 ∧
      (∀ i ∈ slotCores (s.slotEnt k l), ∃ g, (t.core (8 * k + i)).seg = some g ∧ g.slot = l ∧ g.begun = false ∧
        g.base = segBase (s.slotEnt k l) i) ∧ s.sameMemory t := by
  obtain ⟨n, hx⟩ := exec_rerunStart_eq hq hr ha
  let u := s.rerunTaken k l rest
  have hfld : ∀ f, ((u.rerunNoted k l n).giveSegments k l (s.slotEnt k l)).fld f = u.fld f := fun f =>
    (State.giveSegments_keeps_of _ k l _ (·.fld f) fun _ _ _ => rfl).trans (congrArg (bvGet _ _) (u.rerunNoted_rd k l n f.addr))
  obtain ⟨hactive, hslot⟩ := s.rerunTaken_status k hl rest
  refine ⟨_, hx, ?_, (hfld _).trans hactive, (hfld _).trans hslot, ?_, fun i hi => ?_, ?_⟩
  · rw [State.giveSegments_keeps_of _ k l _ (fun t => (t.cluster k).rerunQ) fun _ _ _ => rfl, State.rerunNoted_rerunQ, s.rerunTaken_cluster]
  · rw [State.giveSegments_keeps_of _ k l _ (·.ctr _) fun _ _ _ => rfl, State.rerunNoted_ctr, s.rerunTaken_ctr]
  · obtain ⟨pc, hpc⟩ := (u.rerunNoted k l n).giveSegments_seg k l (s.slotEnt k l) hi
    exact ⟨_, hpc, rfl, rfl, rfl⟩
  · exact State.sameMemory_trans (s.rerunTaken_sameMemory k l rest)
      (State.sameMemory_trans (State.rerunNoted_sameMemory _ _ _ _) (State.giveSegments_sameMemory _ _ _ _))

/-! ### RERUN_SEGMENT_START -/

/-- The segment `g` begins on core `c`, the main program's SETUPs set aside. -/
def State.segmentBegun (s : State) (c : CoreId) (g : SegRun) : State := (s.asideEngines c false).modCore c fun x => { x with seg := some g }

theorem exec_rerunSegmentStart_begins (c : CoreId) (g : SegRun) (h : BitVec 64) (s s1 : State) (hg : (s.core c).seg = some g) (hb : g.begun = false)
    (hw : s.codeWord c g.base = (some h, s1)) (h0 : 0 < bvGet 0 32 h) (hn : bvGet 0 32 h ≤ 1048576)
    (hp : s1.pinnedRange g.base (128 + 8 * bvGet 0 32 h) = true) (hf : s1.boot.fault = none) :
    ∃ t, exec (.rerunSegmentStart c) s = .next t ∧
      (t.core c).seg = some { g with begun := true, count := bvGet 0 32 h, pid := BitVec.ofNat 16 (bvGet 32 16 h) } ∧
      s1.sameRegs t [] ∧ s1.sameMemory t := by
  let g' : SegRun := { g with begun := true, count := bvGet 0 32 h, pid := BitVec.ofNat 16 (bvGet 32 16 h) }
  have haside : ∀ {β : Type} (P : State → β), (∀ (t : State) e f, P (t.modEng e f) = P t) → P (s1.asideEngines c false) = P s1 :=
    fun P hP => s1.asideEngines_keeps_of P c false hP
  have hfault : (s1.segmentBegun c g').boot.fault = none := by
    rw [State.segmentBegun, State.modCore_boot, haside (·.boot) fun _ _ _ => rfl, hf]
  have hx : exec (.rerunSegmentStart c) s = .next (s1.segmentBegun c g') := by
    show execRerunSegmentStart c s = _
    unfold execRerunSegmentStart
    simp only [hg, hb, hw, hp, Bool.false_eq_true, Bool.not_true, if_false]
    rw [if_neg (by omega)]
    exact congrArg _ (State.actOnFault_of_none _ hfault)
  refine ⟨_, hx, ?_, fun a _ => ?_, ?_⟩
  · rw [State.segmentBegun, State.core_modCore_same]
  · rw [State.segmentBegun, State.modCore_rd, haside (·.rd a) fun _ _ _ => rfl]
  · exact State.sameMemory_trans (s1.asideEngines_sameMemory c false) (State.modCore_sameMemory _ _ _ rfl)

/-! ### RERUN_COMPLETE -/

/-- The cores `cs` of cluster `k` have no segment. -/
def State.dropSegments (s : State) (k : Nat) (cs : List Nat) : State :=
  s.each cs fun s i => s.modCore (8 * k + i) fun x => { x with seg := none }

theorem State.dropSegments_keeps_of {β : Type} (P : State → β) (k : Nat) (cs : List Nat) (h : ∀ (t : State) c f, P (t.modCore c f) = P t) :
    P (s.dropSegments k cs) = P s :=
  s.each_keeps P _ _ fun t _ _ => h t _ _

theorem State.dropSegments_sameMemory (k : Nat) (cs : List Nat) : s.sameMemory (s.dropSegments k cs) :=
  s.each_sameMemory _ _ fun t _ => t.modCore_sameMemory _ _ rfl

theorem State.dropSegments_seg (k : Nat) {cs : List Nat} {i : Nat} (hi : i ∈ cs) : ((s.dropSegments k cs).core (8 * k + i)).seg = none := by
  have hdropped : ∀ t : State, ((t.modCore (8 * k + i) fun x => { x with seg := none }).core (8 * k + i)).seg = none := fun t => by
    rw [State.core_modCore_same]
  refine s.each_reaches (fun t => (t.core (8 * k + i)).seg = none) _ _ (fun t j _ ht => ?_) hi hdropped
  by_cases hj : j = i
  · subst hj
    exact hdropped t
  · rw [State.core_modCore_ne _ _ (by omega)]
    exact ht

theorem exec_rerunComplete_completes (k : ClusterId) (s : State) (ha : s.fld (Fld.GUARD_STATUS_RERUN_ACTIVE k) = 1)
    (hd : ∀ i ∈ slotCores (s.slotEnt k (s.fld (Fld.GUARD_STATUS_ACTIVE_SLOT k))), ∃ g, (s.core (8 * k + i)).seg = some g ∧ g.ended = true) :
    ∃ t, exec (.rerunComplete k) s = .next t ∧ t.fld (Fld.GUARD_STATUS_RERUN_ACTIVE k) = 0 ∧
      (∀ i ∈ slotCores (s.slotEnt k (s.fld (Fld.GUARD_STATUS_ACTIVE_SLOT k))), (t.core (8 * k + i)).seg = none) ∧
      t.flights = s.flights ++ verdictSignals k (s.slotEnt k (s.fld (Fld.GUARD_STATUS_ACTIVE_SLOT k))) ∧
      s.sameRegs t [Rg.GUARD_STATUS k] ∧ s.sameMemory t := by
  let l := s.fld (Fld.GUARD_STATUS_ACTIVE_SLOT k)
  let cs := slotCores (s.slotEnt k l)
  let u := s.setFld (Fld.GUARD_STATUS_RERUN_ACTIVE k) 0
  have hdone : (cs.all fun i => match (s.core (8 * k.val + i)).seg with | some g => g.ended | none => false) = true := by
    refine List.all_eq_true.mpr fun i hi => ?_
    obtain ⟨g, hg, he⟩ := hd i hi
    rw [hg]
    exact he
  have hx : exec (.rerunComplete k) s = .next ((u.dropSegments k cs).verdict k l) :=
    congrArg Host.Outcome.next (if_pos (by rw [ha]; exact hdone))
  have hkeeps : ∀ {β : Type} (P : State → β), (∀ (t : State) c f, P (t.modCore c f) = P t) → P (u.dropSegments k cs) = P u :=
    fun P hP => u.dropSegments_keeps_of P k cs hP
  have hent : (u.dropSegments k cs).slotEnt k l = s.slotEnt k l := by
    rw [hkeeps (·.slotEnt k l) fun _ _ _ => rfl]
    exact s.slotEnt_of_slots (by rw [State.setFld_cluster]) l
  rw [State.verdict_eq, hent, hkeeps (·.flights) fun _ _ _ => rfl, State.setFld_flights] at hx
  refine ⟨_, hx, ?_, fun i hi => ?_, rfl, fun a ha => ?_, ?_⟩
  · rw [State.withFlights_fld, hkeeps (·.fld _) fun _ _ _ => rfl, State.fld_setFld_same _ _ _ (show 0 + 1 ≤ 32 by decide)]
    rfl
  · rw [State.withFlights_core, u.dropSegments_seg k hi]
  · rw [State.withFlights_rd, hkeeps (·.rd a) fun _ _ _ => rfl]
    exact s.setFld_sameRegs _ _ a ha
  · exact State.sameMemory_trans (s.setFld_sameMemory _ _)
      (State.sameMemory_trans (u.dropSegments_sameMemory k cs) (State.withFlights_sameMemory _ _))

/-! ### GUARD_WINDOW_END -/

theorem tellBlind_clusters : TellBlind State.clusters :=
  ⟨fun _ _ => rfl, fun _ _ => rfl, fun _ _ => rfl, fun _ _ _ => rfl, fun _ _ _ _ _ => State.jasper_clusters _ _ _ _ _, fun _ _ _ _ => rfl,
    fun _ _ _ _ => rfl⟩

/-- A report leaves the clusters: it goes to the recorder and to its partition's host (R161). -/
theorem State.reportSlot_clusters (k l n : Nat) : (s.reportSlot k l n).clusters = s.clusters := by
  unfold State.reportSlot
  dsimp only
  split
  · rfl
  · rw [tellBlind_clusters.postEvent _ (p := slotFld 22 4 (s.slotEnt k l)) (bvGet_lt 22 4 _), State.jasper_clusters, State.count_clusters]

theorem exec_guardWindowEnd_clears (k : ClusterId) (s : State) (he : s.inForce (Fld.GUARD_CTRL_ENABLE k) = 1)
    (hn : s.inForce (Fld.GUARD_WINDOW_TICKS k) ≤ (s.cluster k).winSteps) :
    ∃ t, exec (.guardWindowEnd k) s = .next t ∧ (t.cluster k).wins = [] ∧ (t.cluster k).winSteps = 0 ∧
      (∀ j, j ≠ k.val → t.cluster j = s.cluster j) := by
  let u := s.each (List.range 512) fun t l => t.reportSlot k l (s.cluster k).winSteps
  have hx : exec (.guardWindowEnd k) s = .next (u.modCluster k fun x => { x with wins := [], winSteps := 0 }) :=
    congrArg Host.Outcome.next (if_pos (by rw [he, decide_eq_true hn]; rfl))
  have hu : u.clusters = s.clusters := s.each_keeps State.clusters _ _ fun t l _ => t.reportSlot_clusters k l _
  refine ⟨_, hx, ?_, ?_, fun j hj => ?_⟩
  · rw [State.cluster_modCluster_same]
  · rw [State.cluster_modCluster_same]
  · rw [State.cluster_modCluster_ne _ _ hj.symm, State.cluster, hu]
    rfl

/-- Settles O16, a command a clause. -/
theorem rerunRunsAndEnds : Obligations.RerunRunsAndEnds :=
  ⟨exec_rerunStart_starts, exec_rerunSegmentStart_begins, exec_rerunComplete_completes, exec_guardWindowEnd_clears⟩

end Sys2Proof.Machine
end
